-- ==== Sys2Proof/Word.lean ====
section
/-! DEFINITION. The word types of the IH9064: a byte of memory and a 32-bit register word (R2). -/
namespace Sys2Proof

/-- One byte of memory or of a structure. -/
abbrev Byte := BitVec 8

/-- A 32-bit BAR0 register word (R2). -/
abbrev Word := BitVec 32

end Sys2Proof
end

