-- ==== Sys2Proof/Syntax.lean ====
section
/-! DEFINITION. The commands of the block, one constructor per row of the opcode table, and the types of their
operands. A command is a request from outside (a register access, a ring doorbell, a packet, a pin) or an event inside
the device (an engine finishing, a timer slot falling due); its docstring is the row's summary. -/
namespace Sys2Proof

/-! ## Operands of the time and control rows -/

/-- The properties of an Announce message that default best-master selection compares (R23, IEEE 1588-2019), with the
message intervals the master uses (log2 of seconds). -/
structure PtpMaster where
  priority1 : Nat
  clockClass : Nat
  accuracy : Nat
  variance : Nat
  priority2 : Nat
  identity : Nat
  stepsRemoved : Nat
  domain : Nat
  transport : Nat
  logSync : Int
  logAnnounce : Int
  logMinDelay : Int
  deriving DecidableEq, Repr

/-- The two delay measurements (Table 02-1): the master's receive time of a Delay_Req, or the peer's receive and
transmit times of a Pdelay exchange. -/
inductive DelayResp where
  | endToEnd (t4 : Nat)
  | peerToPeer (t2 t3 : Nat)
  deriving DecidableEq, Repr

/-- A command descriptor of Table 03-3, its reserved fields included. -/
structure Descriptor where
  opcode : BitVec 16
  flags : BitVec 8 := 0
  rsvd03 : BitVec 8 := 0
  cid : BitVec 16 := 0
  rsvd06 : BitVec 16 := 0
  dataPtr : BitVec 64 := 0
  dataLen : BitVec 32 := 0
  rsvd14 : BitVec 32 := 0
  params : BitVec 320 := 0
  deriving DecidableEq, Repr

/-- A signature envelope of Table 03-8. `sigOk` is the verdict of the RSASSA-PSS verification of SIGNATURE against
the slot's key: the arithmetic of the signature is outside the model (log entry 5). -/
structure Envelope where
  version : BitVec 16 := 1
  adminSlot : BitVec 8 := 0
  rsvd03 : BitVec 8 := 0
  payloadLen : BitVec 32 := 0
  nonce : BitVec 128 := 0
  signedTime : BitVec 64 := 0
  command : Descriptor
  payload : List Byte := []
  sigOk : Bool := false
  deriving DecidableEq, Repr

/-! ## Operands of the Tack rows -/

/-- A source or destination of MOVE: a core address or the handle of a switch cell (Table 04-4). -/
inductive Loc where
  | addr (a : Nat)
  | cell (handle : Nat)
  deriving DecidableEq, Repr

/-- What a SEND sends (Table 04-4): a cell chain by its handles, or a buffer of LEN bytes at an address. -/
inductive SendFrom where
  | cells (handles : List Nat)
  | buffer (address length : Nat)
  deriving DecidableEq, Repr

/-- An extension image of Table 04-7 as read from host memory. `digest` is its SHA-256, `rsaOk` and `mldsaOk` say that its two signatures verify against the pair in KEY_SLOT (log entry 5). -/
structure ExtImage where
  magic : Nat := 0x31584B54
  format : Nat := 1
  keySlot : Nat := 0
  rsvd07 : Nat := 0
  version : Nat := 0
  codeLen : Nat := 0
  dataLen : Nat := 0
  hbmLen : Nat := 0
  mask : Nat := 0
  hooks : List Nat := [0, 0, 0, 0, 0]
  rsvd30 : Nat := 0
  total : Nat := 0
  digest : List Byte := []
  code : List Byte := []
  data : List Byte := []
  rsaOk : Bool := false
  mldsaOk : Bool := false
  deriving DecidableEq, Repr

/-! ## Operands of the fabric, table and traffic rows -/

/-- A received frame as its first cell shows it: length, VLAN tags, PCP, DSCP, ECN field, the 48 bits of its destination MAC, whether it
is PAUSE or PFC, and the flow key of Table 06-3 if it is RoCEv2 or ESP. -/
structure RxFrame where
  len : Nat
  tags : Nat := 0
  pcp : Nat := 0
  dscp : Nat := 0
  ecn : Nat := 0
  dest : Nat := 0
  pause : Bool := false
  key : Option (List Byte) := none
  deriving DecidableEq, Repr

/-- Why a frame is found bad (R80, R81). -/
inductive BadCause where
  | fcs | fecUncorrectable | wireCipher | other
  deriving DecidableEq, Repr

/-- The source of an IP frame that address learning takes in (R102). -/
structure Learned where
  ip : List Byte
  mac : List Byte
  vlan : Nat
  port : Nat
  sub : Nat
  deriving DecidableEq, Repr

/-! ## Operands of the transport and command rows -/

/-- A submission queue entry (64 bytes) as decode reads it: opcode, fabrics type, CID, NSID, the SGL descriptor, the six
command dwords, and `rsvd`, non-zero when a reserved field of the entry is. -/
structure SqEntry where
  opcode : Nat
  fctype : Nat := 0
  cid : Nat := 0
  nsid : Nat := 0
  sglType : Nat := 0x40
  sglAddr : Nat := 0
  sglLen : Nat := 0
  sglKey : Nat := 0
  cdw10 : Nat := 0
  cdw11 : Nat := 0
  cdw12 : Nat := 0
  cdw13 : Nat := 0
  cdw14 : Nat := 0
  cdw15 : Nat := 0
  rsvd : Nat := 0
  deriving DecidableEq, Repr

/-- The connect extension of Table 07-2 in a REQ. -/
structure ConnExt where
  magic : Nat := 0x504C
  version : Nat := 1
  pull : Bool := false
  tandemSafe : Bool := false
  tandemReq : Bool := false
  freeze : Bool := false
  sheath : Bool := false
  rsvd : Nat := 0
  /-- the device region's address and key, in a REP that grants pull mode -/
  dbVa : Nat := 0
  dbRkey : Nat := 0
  deriving DecidableEq, Repr

/-- A CM REQ for the NVMe/RDMA service: the local address it names, the enrolled host it comes from (if any), the flow
key of its packets, the host's QPN, starting PSN and path MTU code, queue ID and receive places. -/
structure CmReq where
  addr : Nat
  host : Option Nat := none
  key : List Byte := []
  ipv6 : Bool := true
  tagged : Bool := false
  peerQpn : Nat := 0
  psn : Nat := 0
  pmtu : Nat := 5
  qid : Nat := 0
  hsqsize : Nat := 32
  ext : Option ConnExt := none
  deriving DecidableEq, Repr

/-- The ESP header of a received packet with the verdict of its ICV (log entry 5). -/
structure Esp where
  spi : Nat
  esn : Nat
  icvOk : Bool
  deriving DecidableEq, Repr

/-- What brought a received packet to the transport: a frame that this twin's switch delivered, or the cross-post of the other twin with a
PKT_ID, where `wasEsp` says that it was ESP when that twin verified and decrypted it (R249). -/
inductive RxFrom where
  | frame (id : Nat)
  | post (pktId : Nat) (wasEsp : Bool)
  deriving DecidableEq, Repr

/-- A received RoCEv2 packet of a connection: destination context, PSN, AckReq, CE mark, ESP, and what brought it; without that it is a
packet that this twin's ports have just taken in. -/
structure RxPkt where
  conn : Nat
  psn : Nat := 0
  ackReq : Bool := false
  ce : Bool := false
  esp : Option Esp := none
  source : Option RxFrom := none
  deriving DecidableEq, Repr

/-- What a request packet asks for (Table 07-1). -/
inductive ReqOp where
  /-- SEND Only with a submission entry -/
  | capsule (e : SqEntry)
  /-- SEND Only with a Pull Setup message (Table 07-5), `length` bytes long -/
  | pullSetup (type rsvd sqSize cqSize sqBase sqRkey cqRkey cqBase length : Nat)
  /-- RDMA WRITE Only with Immediate: offset in the device region, length, the 8 bytes as a number, the immediate -/
  | doorbell (offset length value imm : Nat)
  /-- RDMA READ Request: offset in the device region and length -/
  | read (offset length : Nat)
  /-- RDMA WRITE Only without an immediate: offset in the device region and length -/
  | write (offset length : Nat)
  /-- anything outside Table 07-1 -/
  | unsupported
  deriving DecidableEq, Repr

/-- A Sheath message as received: its bytes, its CE mark, and for a K3 what the security core's private keys give: the secret of CT_KEM, the
secret of CT_RSA (none where it does not decrypt), and whether both signatures verify (R128, log entry 5). -/
structure SheathMsg where
  bytes : List Byte
  ce : Bool := false
  ssKem : List Byte := []
  ssRsa : Option (List Byte) := none
  sigOk : Bool := false
  deriving DecidableEq, Repr

/-- A NAK received from a host (Table 07-1, R119). -/
inductive NakCode where
  | sequence | remoteAccess | invalidRequest
  | rnr (waitNs : Nat)
  deriving DecidableEq, Repr

/-! ## Operands of the command rows -/

/-- The data of a Fabrics Connect: host NQN and Host Identifier, the subsystem it names (`own`, the discovery NQN, or
another), and CNTLID. -/
structure ConnectData where
  hostNqn : List Byte := []
  hostId : Nat := 0
  own : Bool := true
  discovery : Bool := false
  cntlid : Nat := 0xFFFF
  deriving DecidableEq, Repr

/-! ## Operands of the member, rebuild and drive rows -/

/-- How a drive ends a command. -/
inductive DrvResult where
  | data (block : List Byte)
  | done
  | mediaError
  | error
  /-- aborted because another twin took the reservation with Preempt and Abort (R257) -/
  | aborted
  deriving DecidableEq, Repr

/-- A position of a row whose member stands in for a lost one, as a superblock lists it. -/
structure SbSub where
  pos : Nat
  member : Nat
  slot : Nat
  lost : Nat
  deriving DecidableEq, Repr

/-- The deciding superblock of a restore (R193): SB_SEQ, geometry and seed, the layout table as (row, members, ranks,
substitutions), bands, spare depth, the member states by index (as LAY_MEMBER.STATE codes them), MAP_GEN and SAFE_GEN. -/
structure Superblock where
  seq : Nat
  geom : Word
  seed : Nat
  rows : List (Nat × List Nat × List Nat × List SbSub)
  bands : Nat
  spareQ : Nat
  states : List Nat
  mapGen : Nat
  safeGen : Nat
  minBlocks : Nat
  floor : Nat := 0
  deriving DecidableEq, Repr

/-! ## Operands of the Stirrup rows -/

/-- What a channel measures: path current in units of 5 mA and slot voltage in units of 5 mV (STR_SLOT_MEAS). -/
structure Meas where
  iout : Nat
  vout : Nat
  deriving DecidableEq, Repr

/-! ## Operands of the Harness rows -/

/-- The twin roles (R239, Table 13-1). -/
inductive TwinRole where
  | active | standby | joining | fenced | solo
  deriving DecidableEq, Repr

/-- What an order entry records (Table 13-4). -/
inductive OrderKind where
  | rx (pktId psn verdict colour : Nat)
  | tx (txSeq psn opcode length : Nat) (esn : Nat) (hollow subst rnr data : Bool)
  | nonce (ctr slot blocks : Nat)
  | verdict (slot action colour : Nat)
  | state (ctrlSeq : Nat)
  | handover (epoch : Nat)
  deriving DecidableEq, Repr

/-- An order entry: connection (0xFFFF for shelf-wide entries), OSEQ, ORD_TIME and what it records. -/
structure OrderEntry where
  conn : Nat
  oseq : Nat
  time : Nat
  kind : OrderKind
  deriving DecidableEq, Repr

/-- What link-up shows of the other twin (R242, R263, R301): its strap; whether its chain leads to a fused CA, and its signatures and
confirmation verify (log entry 5); its SVN and its block 6, and whether its administrator set is empty; the exchange's messages and the two
secrets; whether the protocol version passes; its tag, role, HOLDER and ARB5, and the delays of the link. -/
structure PeerHello where
  twinB : Bool
  chainOk : Bool
  svn : Nat := 64
  block6 : List Byte := []
  unowned : Bool := true
  k1 : List Byte := []
  k2 : List Byte := []
  k3 : List Byte := []
  ssKem : List Byte := []
  ssRsa : List Byte := []
  versionOk : Bool
  tag : Nat
  role : TwinRole
  holder : Bool
  arb5 : Bool
  /-- the round trip measured over the link, and by how much the way in is longer than the way out (R29), in ns -/
  roundTrip : Nat := 0
  asym : Int := 0
  deriving DecidableEq, Repr

/-- A heartbeat's fields (Table 13-5). -/
structure Heartbeat where
  time : Nat
  frac : Nat
  role : TwinRole
  holder : Bool
  selfFault : Bool
  drain : Bool
  epoch : Nat
  floor : Nat
  ordHead : Nat
  deriving DecidableEq, Repr

/-- How a reservation command on a member ends (R257): registered, a Report with the key that holds the reservation (Table 13-8), acquired,
refused with a conflict, or no answer within its timeout. -/
inductive CinchResult where
  | registered
  | report (holder : Option Nat)
  | acquired
  | refused
  | noAnswer
  deriving DecidableEq, Repr

/-- A part of the join snapshot (Table 13-11), or of what is loaded from the members at start-up (R340). -/
inductive StatePart where
  | mapEntry (volume extent row band incarn wgen : Nat) (lost : Bool)
  | volume (volume extents : Nat) (segs : List Nat)
  | dirtyBlock (id nsid volume lba : Nat) (block : List Byte)
  | lostRange (volume lba n cause time : Nat)
  | progressBits (row band : Nat) (positions : List Nat)
  | suspect (volume extent : Nat)
  /-- a connection context: what its REQ gave, the place of its device region, and the bytes of Table 07-4 -/
  | context (conn : Nat) (req : CmReq) (dbVa dbRkey : Nat) (bytes : List Byte)
  /-- a keyed connection's host, peer SPI, key material, and where its two ESNs stand (R129) -/
  | sa (conn host spi : Nat) (okm : List Byte) (esnOut esnHigh : Nat)
  | tableEntry (table index : Nat) (bytes : List Byte)
  | dataKey (slot nsid gen : Nat) (key : List Byte)
  | grant (pd nsid : Nat) (read write : Bool) (expiry : Nat)
  | namespace_ (nsid volume tenant nsze : Nat) (ptpl : Bool) (nguid : List Byte) (gens : List (Nat × Nat))
      (regs : List (Nat × Nat)) (rtype : Nat) (rholder : Option Nat) (reseal : Option Nat)
  | lock (id nsid slba nlb release : Nat)
  | host (slot pd tenant : Nat) (plaintextOk : Bool) (hostId rsaN mldsa : List Byte) (rsaE : Nat)
  | floor (ns : Nat)
  | record (slot seq kind volume extent stripe row band incarn off nblk mask : Nat) (pcrc : List Nat)
  | extension (image : Option ExtImage)
  | journalKey (key : List Byte) (gen : Nat)
  | administrators (mask : BitVec 16) (keys : List (Nat × List Byte))
  /-- configuration carried from the holder: a register, the Holder command that set the rest, HRN_ARB -/
  | register (addr : Nat) (value : Word)
  | command (desc : Descriptor) (env : Option Envelope)
  | arbiters (members : List Nat)
  | percent (n : Nat)
  deriving DecidableEq, Repr

/-- A copy of a record read from a journal page at start-up (R187): the fields of Table 10-6, whether STATE is 1, whether the page's seal and
RCRC verify (log entry 5), and what the members return for the record's range, as (position, offset, block). -/
structure JournalCopy where
  slot : Nat
  seq : Nat
  kind : Nat
  volume : Nat
  extent : Nat
  stripe : Nat
  mapGen : Nat
  mask : Nat
  off : Nat
  nblk : Nat
  pcrc : List Nat
  opened : Bool
  verified : Bool
  reads : List (Nat × Nat × List Byte)
  deriving DecidableEq, Repr

/-- A CONTROL message (Table 13-3): a Holder command or register write carried from the holder, a member's state, a shelf time
step, the steps of join, swap, yield and leave, a self-check start, a restart into a new
image (R268), a yield of the sender (R321, R333), an event of the peer. -/
inductive ControlMsg where
  | command (desc : Descriptor) (env : Option Envelope)
  /-- an admitted REQ: its context, first PSN, and the place of its device region (R113) -/
  | connection (conn : Nat) (req : CmReq) (psn dbVa dbRkey : Nat)
  /-- a connection keyed by Sheath: its host, both SAs, and where its sequences stand (R128) -/
  | keyed (conn host spi : Nat) (okm : List Byte) (sqPsn rqPsn msn : Nat)
  | register (addr : Nat) (value : Word)
  /-- the reservation state of a namespace: PTPL, registrants, type, holder and generation (R165) -/
  | reservation (nsid : Nat) (ptpl : Bool) (regs : List (Nat × Nat)) (rtype : Nat) (rholder : Option Nat) (rgen : Nat)
  | memberState (member state : Nat)
  | memberAck (member : Nat)
  /-- HRN_ARB, as the holder has changed it (R261) -/
  | arbiters (members : List Nat)
  /-- the holder's channel of a slot has power-good (R235) -/
  | slotPg (slot : Nat)
  /-- what the holder changes while it lays out, rebuilds and scrubs, so that a takeover goes on from there (R175, R213): a map entry, a
  freed slot that is zeroed, progress bits, a substitution that has gone, a lost range, a lost block repaired, an extent scrubbed -/
  | mapEntry (volume extent row band incarn wgen : Nat) (alloc lost : Bool)
  | zeroed (row band : Nat)
  | progress (row band : Nat) (positions : List Nat) (done : Bool)
  | subGone (row position : Nat)
  | lostRange (volume lba n cause time : Nat)
  | found (volume lba : Nat)
  /-- a reseal is done: the generations older than `start` are retired (R286) -/
  | retired (nsid start : Nat)
  | scrubbed (volume extent : Nat)
  | stepTime (ns : Nat)
  /-- a join starts, at the holder's epoch; the next CTRL_SEQ is `ctrlSeq` (R264) -/
  | joinStart (epoch ctrlSeq : Nat)
  | cutover
  | demote
  | leave
  | left
  | takeCinch (yields : Bool)
  | cinchTaken
  | restart
  | yielded
  | selfCheck (window conn oseq : Nat)
  | verdict (fault : Bool)
  | taken (opcode : Nat)
  | event (source : Nat) (detail : List Nat)
  deriving DecidableEq, Repr

/-! ## Operands of the cipher and EC rows -/

/-- What a cipher operation serves: the CIPHER call the engine takes next, or the blocks of the started command with a tag. -/
inductive CipherJob where
  | call
  | tag (t : Nat)
  deriving DecidableEq, Repr

/-! ## Operands of the security core's rows -/

/-- A firmware image (Table 15-2): SVN, VERSION, the Harness versions it speaks, its SHA-256, and the digests of its stages. -/
structure FwImage where
  svn : Nat := 0
  version : List Byte := [0x30, 0x30, 0x30, 0x30, 0x30, 0x30, 0x30, 0x30]
  hrnMin : Nat := 1
  hrnMax : Nat := 1
  digest : List Byte := []
  stages : List (List Byte) := [[], [], []]
  deriving DecidableEq, Repr

/-- An image as it stands in a boot slot or is loaded, with the verdicts of the checks of R293 (log entry 5): `formatOk` of check 1,
`keysOk` of 2, `rsaOk` of 3, `mldsaOk` of 4, `stagesOk` of 6, and `readBackOk` of the read-back after it is programmed. -/
structure FwLoad where
  img : FwImage := {}
  formatOk : Bool := true
  keysOk : Bool := true
  rsaOk : Bool := true
  mldsaOk : Bool := true
  stagesOk : Bool := true
  readBackOk : Bool := true
  deriving DecidableEq, Repr


/-- The secrets of a wrapped data key (R304): what CT_KEM decapsulates to, and what CT_RSA decrypts to, if it does. -/
structure WrapSecrets where
  kem : List Byte
  rsa : Option (List Byte)
  deriving DecidableEq, Repr

/-- What an SPDM request asks to be signed (R298): the certificate slot of the keys, and the bytes of the transcript up to the reply. -/
structure SpdmSign where
  slot : Nat
  transcript : List Byte
  deriving DecidableEq, Repr

/-- The commands of the block. -/
inductive Instr where
  /-- BAR_ACCESS_BAD (R2): A BAR0 access of the wrong width, unaligned, or to an offset with no register is answered with the fixed value or discarded, and raises EVT_BAR_ACCESS. -/
  | barAccessBad (write : Bool) (width : Nat) (addr : Nat)
  /-- REGISTER_WRITE (R368): A write to a register that has no row of its own takes effect whole, or is discarded whole when a field is out of range or a linking rule breaks. -/
  | registerWrite (addr : Nat) (value : Word)
  /-- READ_CLEAR_REGISTER (R5): A read of an RC field returns its value and clears it, keeping any increment made in the same cycle. -/
  | readClearRegister (addr : Nat)
  /-- LOW_WORD_READ (R6): A read of the low word of a 64-bit quantity latches the high word (and TIM_NOW_FRAC for shelf time) into its shadow. -/
  | lowWordRead (addr : Nat)
  /-- PTP_ANNOUNCE_RX (R23): An Announce message on an eligible port enters the default best-master selection. -/
  | ptpAnnounceRx (sub : Fin 32) (master : PtpMaster)
  /-- PTP_SYNC_RX (R25): A Sync or Follow_Up from the selected grandmaster is taken in, moving FREERUN to ACQUIRING and feeding the servo. -/
  | ptpSyncRx (sub : Fin 32) (identity : Nat) (origin : Nat) (correction : Int)
  /-- PTP_DELAY_RESP_RX (R23): A Delay_Resp or Pdelay response from the grandmaster's port is taken in for the path delay measurement. -/
  | ptpDelayRespRx (sub : Fin 32) (resp : DelayResp)
  /-- DELAY_REQ_SEND (R38): Slot 507 fires and the PTP client sends a Delay_Req or Pdelay_Req. -/
  | delayReqSend
  /-- SYNC_LOSS_CHECK (R25): Slot 508 fires and, after LOSS_INTERVALS missed Sync intervals, the time state enters HOLDOVER. -/
  | syncLossCheck
  /-- ANNOUNCE_TIMEOUT (R25): Slot 509 fires and an Announce timeout takes the time state to HOLDOVER. -/
  | announceTimeout
  /-- SERVO_UPDATE (R26): Slot 510 fires and the servo corrects shelf time by slew or forward step, and enters LOCKED after 16 good Syncs. -/
  | servoUpdate
  /-- HOLDOVER_MEAN_UPDATE (R25): Slot 511 fires each second and updates the mean frequency correction used in HOLDOVER. -/
  | holdoverMeanUpdate
  /-- STEP_SHELF_TIME (R27): The Step Shelf Time command steps shelf time forward by AMOUNT on the holder and carries it to the peer. -/
  | stepShelfTime (id : Nat)
  /-- FLOOR_ADVANCE (R31): Every 1 ms of XA time the secure time floor advances by the clamped advance of shelf time, or holds while XA is tripped. -/
  | floorAdvance
  /-- FLOOR_SAVE (R32): Slot 505 fires and the security core saves the floor in a signed record. -/
  | floorSave
  /-- RETENTION_REVIEW (R309): Slot 506 fires every 60 s and removes the records of retention locks that have expired. -/
  | retentionReview
  /-- RETENTION_LOCK_EXPIRE (R34): The floors of both twins pass a lock's release time and the lock stops protecting its range. -/
  | retentionLockExpire (lock : Nat)
  /-- SLOT_DOORBELL_FIRE (R36): A timer slot with action DOORBELL fires and posts to its Tack cluster doorbell queue. -/
  | slotDoorbellFire (slot : Fin 512)
  /-- RING_ENABLE (R42): A write setting ENABLE for the selected command or event ring creates it with indices 0 and phase 1, or is discarded under the enable rules. -/
  | ringEnable (value : Word)
  /-- RING_DISABLE (R43): A write clearing ENABLE stops fetching at once; started commands still complete and post. -/
  | ringDisable (value : Word)
  /-- CTL_DISABLE_ALL (R43): Writing CTL_CFG.EN to 0 disables every ring. -/
  | ctlDisableAll
  /-- CDB_WRITE (R45): A command ring tail doorbell write sets the tail or is discarded. -/
  | cdbWrite (offset : Nat) (width : Nat) (value : Word)
  /-- EDB_WRITE (R45): An event ring head doorbell write releases slots to the device, or is discarded. -/
  | edbWrite (offset : Nat) (width : Nat) (value : Word)
  /-- COMMAND_FETCH (R46): The device fetches the next descriptor round-robin once a completion slot is reserved for it, and starts it in ring order. -/
  | commandFetch (ring : Fin 256) (desc : Descriptor) (env : Option Envelope)
  /-- RING_FAULT (R47): A PCIe error on a descriptor fetch or entry write puts the ring in error and raises EVT_RING_FAULT. -/
  | ringFault (isEvent : Bool) (ring : Fin 256)
  /-- EVENT_ENTRY_WRITE (R56): A released event ring slot becomes free and the device writes the highest-priority pending entry, with its count. -/
  | eventEntryWrite (ering : Fin 256)
  /-- COAL_TIME_EXPIRE (R48): COAL_TIME µs pass after the first unsignalled entry and the ring's MSI-X interrupt is sent. -/
  | coalTimeExpire (ering : Fin 256)
  /-- NOP (R49): Nop completes with SUCCESS and does nothing else. -/
  | nop (id : Nat)
  /-- IDENTIFY_DEVICE (R50): Identify Device writes the 4,096-byte identity and limits structure to DATA_PTR. -/
  | identifyDevice (id : Nat) (xferOk : Bool)
  /-- GET_NONCE (R53): Get Nonce issues a 16-byte single-use nonce, discarding the oldest beyond 64, or completes with BUSY in a guard storm. -/
  | getNonce (id : Nat)
  /-- GUARD_STORM_END (R54): 10 s of shelf time pass without a guard failure and the storm ends. -/
  | guardStormEnd
  /-- EVT_PEND_CLEAR (R57): A W1C write to EVT_PEND clears pending bits and releases ALERT_N when no NMI or alerting ERROR bit remains. -/
  | evtPendClear (index : Fin 24) (value : Word)
  /-- EVT_SRC_CFG_WRITE (R60): A change to a source's routing applies from the next cycle and moves or clears counts held for a disabled ring. -/
  | evtSrcCfgWrite (value : Word)
  /-- MGMT_ENDPOINT_RESET (R58): FLR, hot reset, link-down or PERST_N of the management endpoint resets only the endpoint and control block and raises EVT_MGMT_FLR. -/
  | mgmtEndpointReset
  /-- FUNC_WEDGED (R59): A block holding work makes no progress for WEDGE_TMO and raises EVT_FUNC_WEDGED as an NMI. -/
  | funcWedged (block : Fin 22)
  /-- AUTO_RESET (R59): 1 ms after a wedge NMI with AUTO_RESET = 1 the device starts a full-device reset. -/
  | autoReset
  /-- GLB_RESET_WRITE (R338): Writing the key to GLB_RESET starts a full-device reset. -/
  | glbResetWrite (value : Word)
  /-- PCALL (R64): A core issues a primitive call, copying the descriptor and receiving a ticket, stalling when 16 calls are outstanding. -/
  | pcall (core : Fin 256) (funct7 : BitVec 7) (rest : BitVec 25) (address : Nat)
  /-- PWAIT (R65): A core stalls until the ticket's call completes and receives its outcome, or STALE at once. -/
  | pwait (core : Fin 256) (funct7 : BitVec 7) (rest : BitVec 25) (ticket : BitVec 64)
  /-- PPOLL (R65): A core receives the outcome of a ticket, PENDING, or STALE at once. -/
  | ppoll (core : Fin 256) (funct7 : BitVec 7) (rest : BitVec 25) (ticket : BitVec 64)
  /-- PRIMITIVE_COMPLETE (R66): An engine finishes a call, writes STATUS and RESULT to the descriptor and, with NOTIFY, posts the ticket to the cluster doorbell queue. -/
  | primitiveComplete (core : Fin 256) (slot : Fin 16)
  /-- PARSE (R64): The PARSE primitive parses a cell's headers and returns the flow hash. -/
  | parse (profileOk : Bool) (output : Nat) (offsets : List Byte)
  /-- LOOKUP (R92): The LOOKUP primitive searches a table under version checks, retrying or taking the serialised path, and never reports a false miss. -/
  | lookup (table : Nat) (key : Nat) (output : Nat) (disagreements : Nat)
  /-- EXTENT_CACHE_FILL (R93): An extent cache miss is filled from the extent map in HBM before LOOKUP completes. -/
  | extentCacheFill (volume extent : Nat)
  /-- AT_REST_ENCRYPT (R277): CIPHER operation 0 seals blocks with fresh nonces, building every metadata field. -/
  | atRestEncrypt (job : CipherJob) (mismatch : List Bool)
  /-- CTR_SAVE_DONE (R274): A pending counter epoch save succeeds and waiting encryptions and held write admission resume. -/
  | ctrSaveDone
  /-- AT_REST_DECRYPT (R278): CIPHER operation 1 guards, decrypts on both halves, verifies the tag, re-encrypts to check, and releases blocks in order. -/
  | atRestDecrypt (job : CipherJob) (mismatch : List Bool) (reencrypt : Bool)
  /-- AT_REST_VERIFY (R278): CIPHER operation 4 runs the checks of decryption and releases nothing. -/
  | atRestVerify (mismatch : List Bool) (reencrypt : Bool)
  /-- WIRE_ENCRYPT (R283): CIPHER operation 2 ESP-encrypts a frame for tier 0. -/
  | wireEncrypt (mismatch : Bool)
  /-- WIRE_DECRYPT (R283): CIPHER operation 3 ESP-decrypts a frame for tier 0, ending it with a bad tail on ICV failure. -/
  | wireDecrypt (mismatch : Bool)
  /-- EC_ENCODE (R179): The EC primitive computes M parity strips from K data strips. -/
  | ecEncode
  /-- EC_UPDATE (R179): The EC primitive updates M parities for a change of one data position. -/
  | ecUpdate
  /-- EC_DECODE (R179): The EC primitive reconstructs the erased positions from the first K surviving strips. -/
  | ecDecode
  /-- MOVE (R67): The MOVE primitive copies up to 2 MiB between addresses or cells after the PMP check. -/
  | move (source : Loc) (dest : Loc) (length : Nat)
  /-- SEND (R85): The SEND primitive queues a packet on a switch port and assigns the connection's next TX_SEQ. -/
  | send (source : SendFrom) (sub : Nat) (conn : Nat)
  /-- RING_PRODUCE (R64): The RING primitive produces an entry on a hardware queue or ring. -/
  | ringProduce (queue : Nat) (address : Nat) (length : Nat)
  /-- RING_CONSUME (R64): The RING primitive consumes an entry from a hardware queue or ring. -/
  | ringConsume (queue : Nat) (address : Nat)
  /-- RING_DOORBELL (R64): The RING primitive rings a queue's doorbell. -/
  | ringDoorbell (queue : Nat)
  /-- TIME_READ (R38): The TIME primitive writes shelf time to the output address. -/
  | timeRead (output : Nat)
  /-- TIME_ALLOCATE (R38): The TIME primitive allocates a timer slot, or completes with RESOURCE or BAD_DESC. -/
  | timeAllocate (owner : Nat) (compare period action target : Nat)
  /-- TIME_ARM (R35): The TIME primitive arms a slot with compare time, period, action and target. -/
  | timeArm (slot : Nat) (compare period action target : Nat)
  /-- TIME_FREE (R38): The TIME primitive frees a slot the caller owns. -/
  | timeFree (slot : Nat)
  /-- COUNT_ADD (R343): The COUNT primitive adds to an event counter, saturating. -/
  | countAdd (counter : Nat) (increment : Nat)
  /-- COUNT_READ (R343): The COUNT primitive reads an event counter. -/
  | countRead (counter : Nat)
  /-- COUNT_READ_CLEAR (R343): The COUNT primitive reads and clears an event counter. -/
  | countReadClear (counter : Nat)
  /-- LOCK_ACQUIRE (R68): The LOCK primitive acquires a lock, waits for it, or returns BUSY. -/
  | lockAcquire (lock : Nat) (wait : Bool)
  /-- LOCK_GRANT (R68): A lock waited for with the wait flag is released by its holder and granted to the next waiter. -/
  | lockGrant (lock : Nat)
  /-- LOCK_RELEASE (R68): The LOCK primitive releases a lock, or completes with BAD_DESC if the caller does not hold it. -/
  | lockRelease (lock : Nat)
  /-- HOOK_RETURN (R71): The extension returns by ECALL and tier 0 acts on its return code. -/
  | hookReturn (core : Fin 256) (code : Nat)
  /-- HOOK_OVERRUN (R71): An invocation exceeds BUDGET cycles, is abandoned, DEFAULT_ACT is taken and EVT_EXT_OVERRUN is raised. -/
  | hookOverrun (core : Fin 256)
  /-- HOOK_FAULT (R71): An invocation takes an exception or returns an undefined code, is abandoned, and raises EVT_EXT_FAULT. -/
  | hookFault (core : Fin 256)
  /-- TACK_ECC_UNCORRECTABLE (R63): An uncorrectable cluster SRAM error stops the cluster and raises EVT_TACK_ECC_FATAL. -/
  | tackEccUncorrectable (cluster : Fin 32)
  /-- TACK_ECC_CORRECTED (R63): A corrected cluster SRAM error is counted and raises EVT_TACK_ECC. -/
  | tackEccCorrected (cluster : Fin 32)
  /-- ENROL_EXTENSION_KEY (R73): The guarded command places an extension key pair in slot 0–3 and resets the slot's version floor. -/
  | enrolExtensionKey (id : Nat) (rsaOk : Bool) (mldsaOk : Bool)
  /-- LOAD_EXTENSION (R74): The guarded command verifies, stores and loads a tier 1 image on both twins, or unloads with IMAGE_LEN 0. -/
  | loadExtension (id : Nat) (image : Option ExtImage)
  /-- NET_PORT_ENABLE (R77): Setting a port's EN from 0 to 1 starts link training on its lanes. -/
  | netPortEnable (port : Fin 8) (value : Word)
  /-- NET_PORT_DISABLE (R89): Setting a port's EN to 0 stops transmission, discards queued and received frames and reports stamped ones. -/
  | netPortDisable (port : Fin 8) (value : Word)
  /-- NET_LINK_UP (R77): A sub-port completes link training and comes up, raising EVT_NET_LINK. -/
  | netLinkUp (port : Fin 8) (sub : Fin 4)
  /-- NET_LINK_DOWN (R89): A sub-port's link goes down and its frames are ended or discarded. -/
  | netLinkDown (port : Fin 8) (sub : Fin 4)
  /-- FRAME_RECEIVE (R78): A received frame's first cell arrives, is filtered by destination, policed and admitted by WRED, or dropped. -/
  | frameReceive (port : Fin 8) (sub : Fin 4) (frame : RxFrame)
  /-- CUT_THROUGH_START (R80): The header lookup of a frame completes, the frame is stamped with RX_SEQ and starts forwarding. -/
  | cutThroughStart (frame : Nat)
  /-- FRAME_FOUND_BAD (R81): A frame is found bad after it started moving and is stomped toward a fabric port or ended with a bad tail internally. -/
  | frameFoundBad (frame : Nat) (cause : BadCause)
  /-- FRAME_TRANSMIT (R143): A sub-port's scheduler selects a frame from an open class queue and transmits it. -/
  | frameTransmit (port : Fin 8) (sub : Fin 4)
  /-- BUFFER_ECC_UNCORRECTABLE (R88): An uncorrectable buffer ECC error makes its frame bad and raises EVT_SWC_ECC_UNCORR. -/
  | bufferEccUncorrectable (frame : Nat)
  /-- BUFFER_ECC_CORRECTED (R88): A corrected buffer ECC error is counted and raises EVT_SWC_ECC. -/
  | bufferEccCorrected
  /-- RESEQ_ARRIVAL (R86): A stamped frame reaches the resequencer and is released in order with those behind it, waits, or is discarded as late. -/
  | reseqArrival (egress : Bool) (frame : Nat)
  /-- RESEQ_DISCARD_REPORT (R86): A discard report skips the missing sequence number at once. -/
  | reseqDiscardReport (egress : Bool) (conn : Nat) (seq : Nat)
  /-- RESEQ_TIMEOUT (R86): RX_TMO or TX_TMO expires on a gap; the number is declared lost and waiting frames released. -/
  | reseqTimeout (egress : Bool) (conn : Nat)
  /-- WRED_PROFILE_COMMIT (R83): A write to SWC_WRED_CTL makes the staged colour registers and control of the selected profile take effect whole. -/
  | wredProfileCommit (value : Word)
  /-- TABLE_ENABLE (R91): Setting a table's EN from 0 to 1 empties it and draws new seeds. -/
  | tableEnable (table : Fin 3) (value : Word)
  /-- TABLE_DISABLE (R91): Setting a table's EN from 1 to 0 empties it. -/
  | tableDisable (table : Fin 3) (value : Word)
  /-- AGE_LIMIT_WRITE (R100): A TBL_AGE or TBL_SWEEP write configures aging, allocating or freeing the sweeper slot or being rejected. -/
  | ageLimitWrite (table : Fin 3) (sweep : Bool) (value : Word)
  /-- LEARN_EVENT (R102): An accepted IP frame on a learning port queues a learn event, or is counted in QFULL. -/
  | learnEvent (source : Learned)
  /-- LEARN_APPLY (R102): The update engine applies a queued learn event as an insert, refresh or move. -/
  | learnApply
  /-- PIN_END (R103): Shelf time passes MOVE_T of a pinned entry and the pin ends. -/
  | pinEnd (index : Nat)
  /-- TABLE_SWEEP (R100): The sweeper slot fires and deletes aged entries from SWEEP_BATCH buckets. -/
  | tableSweep (table : Fin 2)
  /-- TABLE_ECC_UNCORRECTABLE (R106): An uncorrectable table entry error deletes the entry and raises EVT_TBL_ECC_UNCORR. -/
  | tableEccUncorrectable (table : Fin 3) (index : Nat)
  /-- TABLE_ECC_CORRECTED (R106): A corrected table ECC error is counted and raises EVT_TBL_ECC. -/
  | tableEccCorrected (table : Fin 3)
  /-- TABLE_READ (R105): Table Read copies entries by index or by key as consistent bucket images. -/
  | tableRead (id : Nat) (data : Option (List Byte))
  /-- TABLE_INSERT (R95): Table Write with OP 0 inserts or replaces entries on both twins, stopping at the first refusal. -/
  | tableInsert (id : Nat) (data : Option (List Byte))
  /-- TABLE_DELETE (R105): Table Write with OP 1 deletes or invalidates entries by key. -/
  | tableDelete (id : Nat) (data : Option (List Byte))
  /-- TABLE_LOCK (R104): Table Lock with OP 0 locks entries by key, at most 2 per bucket. -/
  | tableLock (id : Nat) (data : Option (List Byte))
  /-- TABLE_UNLOCK (R104): Table Lock with OP 1 unlocks entries by key. -/
  | tableUnlock (id : Nat) (data : Option (List Byte))
  /-- TABLE_REHASH (R98): Table Rehash starts rebuilding a cuckoo table under new seeds in a second bank. -/
  | tableRehash (id : Nat)
  /-- REHASH_SWITCH (R98): The rehash copy completes and the second bank becomes live, or the rebuild is abandoned. -/
  | rehashSwitch (table : Fin 2)
  /-- NEIGHBOUR_REQUEST_RX (R108): An ARP or IPv6 neighbour solicitation for a local address is answered. -/
  | neighbourRequestRx (addr : Fin 16) (sub : Nat)
  /-- CM_REQ_RX (R109): A CM REQ is admitted with a REP and the context enters REQ_RCVD, or refused with REJ. -/
  | cmReqRx (req : CmReq)
  /-- CM_RTU_RX (R110): An RTU moves the connection to KEYING or READY. -/
  | cmRtuRx (conn : Nat)
  /-- CM_DREQ_RX (R110): A DREQ moves the connection to CLOSING and is answered with DREP. -/
  | cmDreqRx (conn : Nat)
  /-- CM_DREP_RX (R110): A DREP moves a CLOSING connection to CLOSED and deletes its flow entry. -/
  | cmDrepRx (conn : Nat)
  /-- CM_TMO_EXPIRE (R110): CM_TMO passes without RTU or DREP and the connection goes to IDLE or CLOSED. -/
  | cmTmoExpire (conn : Nat)
  /-- QUIET_TMO_EXPIRE (R110): QUIET_TMO after CLOSED returns the context to IDLE. -/
  | quietTmoExpire (conn : Nat)
  /-- SHEATH_K1_RX (R127): A HOST_HELLO in KEYING is answered with DEVICE_HELLO, or keying ends with K5. -/
  | sheathK1Rx (conn : Nat) (msg : SheathMsg)
  /-- SHEATH_K3_RX (R128): HOST_KEYS is checked, both SAs installed on both twins, K4 sent and READY entered, or K5 sent. -/
  | sheathK3Rx (conn : Nat) (msg : SheathMsg)
  /-- KEY_TMO_EXPIRE (R128): KEY_TMO in KEYING sends K5, raises EVT_XPT_KEY_FAIL and closes the connection. -/
  | keyTmoExpire (conn : Nat)
  /-- CAPSULE_RX (R114): A SEND Only capsule is taken into a receive place as a command, or answered with RNR NAK. -/
  | capsuleRx (pkt : RxPkt) (entry : SqEntry)
  /-- PULL_SETUP_RX (R115): The first SEND in READY sets up the pull-mode SQ and CQ, or is a protocol error. -/
  | pullSetupRx (pkt : RxPkt) (setup : ReqOp)
  /-- PULL_DOORBELL_RX (R115): An RDMA WRITE with Immediate doorbell sets SQ_TAIL and CQ_HEAD and starts SQ fetch, or is discarded as bad. -/
  | pullDoorbellRx (pkt : RxPkt) (offset : Nat) (length : Nat) (value : Nat) (imm : Nat)
  /-- DEVICE_REGION_READ (R116): A host RDMA READ of the device region returns its 16 bytes, or NAKs and errors the connection. -/
  | deviceRegionRead (pkt : RxPkt) (offset : Nat) (length : Nat)
  /-- RDMA_REQUEST_RX (R118): A request packet on a connection is executed in sequence, discarded as duplicate, or NAKed as out of sequence. -/
  | rdmaRequestRx (pkt : RxPkt) (op : ReqOp)
  /-- CONTEXT_FETCH_DONE (R126): A context arrives from HBM and its parked packets are processed in RX_SEQ order. -/
  | contextFetchDone (conn : Nat) (eccBad : Bool)
  /-- ACK_SEND (R118): ACK_COAL requests or ACK_DELAY after the oldest unacknowledged request cause an ACK to be sent. -/
  | ackSend (conn : Nat)
  /-- ACK_RX (R119): An ACK advances UNA_PSN and restarts the retransmit deadline. -/
  | ackRx (pkt : RxPkt)
  /-- NAK_RX (R119): A NAK causes a resend, an RNR wait, or an ERROR of the connection. -/
  | nakRx (pkt : RxPkt) (code : NakCode)
  /-- RNR_WAIT_EXPIRE (R119): The RNR time of a received RNR NAK passes and the device resends from its PSN. -/
  | rnrWaitExpire (conn : Nat)
  /-- RETRANSMIT_DEADLINE (R119): The retransmit deadline passes and the device resends from UNA_PSN, or errors the connection after RETRY_CNT. -/
  | retransmitDeadline (conn : Nat)
  /-- READ_RESPONSE_RX (R121): An RDMA READ Response bringing SQ entries or write data is taken in, or a gap re-issues the READ. -/
  | readResponseRx (pkt : RxPkt) (payload : List Byte)
  /-- CNP_RX (R122): A CNP cuts the connection's rate and raises α. -/
  | cnpRx (pkt : RxPkt)
  /-- ALPHA_PERIOD_EXPIRE (R122): ALPHA_PERIOD without a CNP decays α. -/
  | alphaPeriodExpire (conn : Nat)
  /-- RATE_INCREASE (R122): The rate-increase deadline passes or BYTE_CNT reaches B_RI and the connection advances a recovery stage. -/
  | rateIncrease (conn : Nat)
  /-- XPT_ENABLE (R124): Setting XPT_CFG.EN from 0 to 1 runs the transport and allocates the timer-wheel slot. -/
  | xptEnable (value : Word)
  /-- WHEEL_TICK (R124): The transport wheel slot fires and due deadlines are processed, raising EVT_XPT_WHEEL_LATE if behind. -/
  | wheelTick
  /-- ENROL_HOST (R131): The guarded command enrols, replaces or removes a host slot with its domain, tenant and keys. -/
  | enrolHost (id : Nat)
  /-- GRANT_NAMESPACE (R131): The guarded command grants or replaces a domain's access to a namespace. -/
  | grantNamespace (id : Nat)
  /-- REVOKE_GRANT (R131): The guarded command removes a grant, completing when commands that passed against it have completed. -/
  | revokeGrant (id : Nat)
  /-- REGISTER_MEMORY_KEY (R133): Admin command C4h registers a memory key for the host controller. -/
  | registerMemoryKey (tag : Nat)
  /-- DEREGISTER_MEMORY_KEY (R133): Admin command C5h deregisters a memory key for later commands. -/
  | deregisterMemoryKey (tag : Nat)
  /-- CONFIGURE_POLICER (R137): Configure Policer with KIND 0 or 1 sets a two-rate or strict policer. -/
  | configurePolicer (id : Nat)
  /-- FREE_POLICER (R140): Configure Policer with KIND 2 or 3 frees a policer, which then passes everything green. -/
  | freePolicer (id : Nat)
  /-- CONFIGURE_SHAPER (R142): Configure Shaper with KIND 0 or 1 sets a tenant or port shaper. -/
  | configureShaper (id : Nat)
  /-- FREE_SHAPER (R142): Configure Shaper with KIND 2 frees a shaper. -/
  | freeShaper (id : Nat)
  /-- POLICER_RELEASE (R138): A command held red by a storage policer starts once the buckets give it yellow or green. -/
  | policerRelease (conn : Nat)
  /-- LOAD_SLALOM_LIST (R147): Load Slalom List validates a list and makes it pending for its SWAP_TIME, or disables the list. -/
  | loadSlalomList (id : Nat) (data : Option (List Byte))
  /-- SLALOM_SWAP (R147): SWAP_TIME arrives and the pending list takes over, raising EVT_SLALOM_SWAP. -/
  | slalomSwap (list : Fin 12)
  /-- SLALOM_GATE_CHANGE (R145): A list's GATE slot fires and the next entry's gates apply, opening or closing class queues and grooming windows. -/
  | slalomGateChange (list : Fin 12)
  /-- SET_REBUILD_RATE (R149): Set Rebuild Rate writes the rebuild class's RATE. -/
  | setRebuildRate (id : Nat)
  /-- COMMAND_START (R153): A received command takes a free tag in submission order and is decoded. -/
  | commandStart (conn : Nat)
  /-- NVME_READ (R15): A Read is served from the write buffer or the drives, decrypted, verified and returned. -/
  | nvmeRead (tag : Nat)
  /-- NVME_WRITE (R16): A Write is admitted under DIRTY_CAP and mirror headroom and its data fetched by RDMA READ. -/
  | nvmeWrite (tag : Nat) (headroom : Bool)
  /-- WRITE_DATA_FETCH (R17): Mirror headroom or dirty room returns and a held write's RDMA READ is issued. -/
  | writeDataFetch (tag : Nat)
  /-- NVME_WRITE_ZEROES (R158): Write Zeroes makes the blocks read as zeros, deallocating with DEAC. -/
  | nvmeWriteZeroes (tag : Nat)
  /-- NVME_DATASET_MANAGEMENT (R176): Dataset Management deallocates ranges, freeing whole extents and zeroing parts. -/
  | nvmeDatasetManagement (tag : Nat) (ranges : List (Nat × Nat))
  /-- NVME_FLUSH (R161): Flush destages every covered write at host-I/O rank and completes when their records clear. -/
  | nvmeFlush (tag : Nat)
  /-- RESERVATION_REGISTER (R165): Reservation Register adds, replaces or removes a registrant. -/
  | reservationRegister (tag : Nat) (crkey nrkey : Nat)
  /-- RESERVATION_REPORT (R165): Reservation Report returns the namespace's reservation state. -/
  | reservationReport (tag : Nat)
  /-- RESERVATION_ACQUIRE (R165): Reservation Acquire takes or preempts a reservation, aborting undecoded commands on Preempt and Abort. -/
  | reservationAcquire (tag : Nat) (crkey prkey : Nat)
  /-- RESERVATION_RELEASE (R165): Reservation Release releases or clears a reservation. -/
  | reservationRelease (tag : Nat) (crkey : Nat)
  /-- GET_LOG_PAGE (R351): Get Log Page returns a supported log page, or Invalid Log Page. -/
  | getLogPage (tag : Nat)
  /-- NVME_IDENTIFY (R151): Identify returns controller or namespace data for CNS 00h–03h. -/
  | nvmeIdentify (tag : Nat)
  /-- NVME_ABORT (R152): Abort aborts a command that has not started, or reports not aborted. -/
  | nvmeAbort (tag : Nat)
  /-- SET_FEATURES (R152): Set Features sets a supported feature. -/
  | setFeatures (tag : Nat)
  /-- GET_FEATURES (R152): Get Features returns a supported feature. -/
  | getFeatures (tag : Nat)
  /-- ASYNC_EVENT_REQUEST (R159): An Asynchronous Event Request is held until an event is reported, at most 4 outstanding. -/
  | asyncEventRequest (tag : Nat)
  /-- KEEP_ALIVE (R162): Keep Alive restarts the controller's KATO timer. -/
  | keepAlive (tag : Nat)
  /-- KEEP_ALIVE_EXPIRE (R162): KATO passes with no admin command and the controller is reset. -/
  | keepAliveExpire (ctrl : Fin 4096)
  /-- FABRICS_CONNECT (R152): Connect creates a controller or I/O queue, or is refused. -/
  | fabricsConnect (tag : Nat) (data : ConnectData)
  /-- PROPERTY_GET (R152): Property Get returns a controller property. -/
  | propertyGet (tag : Nat)
  /-- PROPERTY_SET_ENABLE (R152): Property Set of CC.EN from 0 to 1 enables the controller. -/
  | propertySetEnable (tag : Nat)
  /-- PROPERTY_SET_RESET (R162): Property Set of CC.EN from 1 to 0 resets the controller. -/
  | propertySetReset (tag : Nat)
  /-- PROPERTY_SET_SHUTDOWN (R163): Property Set of CC.SHN stops fetching, completes started commands and flushes the domain's namespaces. -/
  | propertySetShutdown (tag : Nat)
  /-- FABRICS_DISCONNECT (R162): Disconnect of the admin queue resets the controller. -/
  | fabricsDisconnect (tag : Nat)
  /-- AUTHENTICATION_SEND (R367): Authentication Send completes with Invalid Field in Command. -/
  | authenticationSend (tag : Nat)
  /-- AUTHENTICATION_RECEIVE (R367): Authentication Receive completes with Invalid Field in Command. -/
  | authenticationReceive (tag : Nat)
  /-- THAW_QUEUE (R160): Thaw Queue completes earlier commands with Queue Frozen and resumes the queue at RESUME_SQHD. -/
  | thawQueue (tag : Nat)
  /-- DIRTY_CAP_WRITE (R155): A write to CMD_DIRTY_CAP sets the cap, entering write-through at 0 and holding writes above a lowered cap. -/
  | dirtyCapWrite (value : Word)
  /-- CREATE_NAMESPACE (R166): The guarded command creates a namespace on a volume and binds its data key as generation 1. -/
  | createNamespace (id : Nat)
  /-- DELETE_NAMESPACE (R166): The guarded command deletes a namespace, its buffered data, grants and key, unless a lock holds. -/
  | deleteNamespace (id : Nat)
  /-- ACTIVATION_QUIESCED (R164): The last started command of a SOLO activation completes and is acknowledged and the new image starts. -/
  | activationQuiesced
  /-- ACTIVATION_ABANDON (R164): Quiescing is not done 10 ms after it began; fetching resumes and Activate Firmware completes with BUSY. -/
  | activationAbandon
  /-- ACTIVATION_RESUME (R164): The new SOLO image runs, fetching resumes and Activate Firmware completes. -/
  | activationResume
  /-- LAYOUT_BUILD (R171): Setting BUILD generates the layout table, bands and spare depth. -/
  | layoutBuild (value : Word)
  /-- CREATE_VOLUME (R177): Create Volume creates a volume, taking map segments and, if thick, all its extents. -/
  | createVolume (id : Nat)
  /-- RESIZE_VOLUME (R177): Resize Volume grows or shrinks a volume. -/
  | resizeVolume (id : Nat)
  /-- DELETE_VOLUME (R177): The guarded command deletes a volume's namespace and frees its extents and segments. -/
  | deleteVolume (id : Nat)
  /-- DESTAGE_STRIPE_START (R180): With the destage window open, a stripe of dirty blocks is chosen, its path decided and its Saddlebag record built. -/
  | destageStripeStart (volume extent stripe : Nat) (reads : List (Nat × Nat × List Byte))
  /-- JOURNAL_PAGE_WRITE (R183): GATHER after a page's first change, the journal page is written whole to its three copies. -/
  | journalPageWrite (page : Fin 16384)
  /-- RECORD_OPEN (R181): A record is in HBM, acknowledged and on three journal copies, and the stripe's data writes are issued. -/
  | recordOpen (slot : Nat)
  /-- STRIPE_DATA_LANDED (R181): Every data write of a stripe completes and its parity writes are issued. -/
  | stripeDataLanded (slot : Nat)
  /-- STRIPE_PARITY_LANDED (R181): Every parity write completes, the record clears and buffer entries are freed on both twins. -/
  | stripeParityLanded (slot : Nat)
  /-- MAP_GEN_ADVANCE (R188): Every 100 ms of shelf time MAP_GEN advances. -/
  | mapGenAdvance
  /-- DRIVE_COMPLETION (R192): A drive's completion entry arrives for a read, write or admin command and is handled, an error or media failure counting toward member triggers. -/
  | driveCompletion (id : Nat) (result : DrvResult)
  /-- DRIVE_CMD_TIMEOUT (R192): A drive command reaches CMD_TMO, is aborted, and makes the member SUSPECT or FAILED. -/
  | driveCmdTimeout (id : Nat)
  /-- DRIVE_CFS (R192): A drive sets CSTS.CFS and its member becomes FAILED, ending its outstanding commands. -/
  | driveCfs (member : Fin 64)
  /-- SMART_WARNING (R192): A SMART critical warning makes the member SUSPECT or FAILED. -/
  | smartWarning (member : Fin 64) (bits : Nat)
  /-- LINK_HOLD_EXPIRE (R192): A drive link down or DPC containment is not recovered within LINK_HOLD and the member becomes FAILED. -/
  | linkHoldExpire (port : Fin 64)
  /-- MEMBER_STATE_ACK (R191): A member state change written to superblocks is acknowledged by the peer and takes effect, with substitutions and queue re-planning. -/
  | memberStateAck (member : Fin 64)
  /-- MEMBER_RESTORE (R193): Once enabled drive ports have trained or timed out, superblocks are read and member states restored before the claim. -/
  | memberRestore (sb : Option Superblock) (drives : List (Nat × Nat × Nat))
  /-- REBUILD_EXTENT_START (R196): The holder takes the next extent from the rebuild queue in redundancy order and rebuilds its stripes. -/
  | rebuildExtentStart (reads : List (Nat × Nat × Nat × List Byte)) (bad : List (Nat × Nat × Nat))
  /-- REBUILD_EXTENT_DONE (R199): Every stripe of an extent is written, progress bits persisted, lost stripes sealed, and destage released. -/
  | rebuildExtentDone (reads : List (Nat × Nat × Nat × List Byte))
  /-- HEDGE_TIMER_EXPIRE (R202): A read on a SUSPECT member exceeds 4 × its median and a degraded read of the same block is started. -/
  | hedgeTimerExpire (id : Nat)
  /-- SUSPECT_SCRUB_STRIPE (R206): A stripe of a suspect extent is scrubbed, its parity recomputed from the data. -/
  | suspectScrubStripe (volume extent stripe : Nat) (reads : List (Nat × Nat × List Byte))
  /-- START_SCRUB_PASS (R207): Start Scrub with OP 0 starts a scheduled scrub pass. -/
  | startScrubPass (id : Nat)
  /-- STOP_SCRUB_PASS (R207): Start Scrub with OP 1 stops the running pass at its next extent. -/
  | stopScrubPass (id : Nat)
  /-- SCRUB_STRIPE (R208): The scrub reads every position of a stripe, compares parity and repairs or records what it finds. -/
  | scrubStripe (volume extent stripe : Nat) (reads : List (Nat × Nat × List Byte))
  /-- SCRUB_PASS_DONE (R207): A scrub pass completes and EVT_SCRUB_DONE is raised. -/
  | scrubPassDone
  /-- ADD_MEMBER (R210): Add Member with OP 0 checks a drive, zeroes it, registers the key, writes the superblock and makes the index ACTIVE. -/
  | addMember (id : Nat) (fails : Nat) (blocks : Nat)
  /-- RETURN_MEMBER (R210): Add Member with OP 1 returns a SUSPECT member to ACTIVE. -/
  | returnMember (id : Nat)
  /-- DRAIN_MEMBER (R209): Drain Member substitutes every row of a member and enters DRAINING. -/
  | drainMember (id : Nat)
  /-- DRAIN_COMPLETE (R209): Every extent of a draining member is copied and the member becomes ABSENT. -/
  | drainComplete (member : Fin 64)
  /-- COPYBACK_DONE (R210): Every extent of a substituted row is copied home, the substitution removed and the spare freed. -/
  | copybackDone (row : Fin 4096) (position : Nat)
  /-- REMOVE_MEMBER (R211): Remove Member takes a FAILED index to ABSENT. -/
  | removeMember (id : Nat)
  /-- DRIVE_PORT_ENABLE (R217): A DRV_PORT_CFG write enables a root port with its queues, or is discarded past 8,192 queue pairs. -/
  | drivePortEnable (port : Fin 64) (value : Word)
  /-- DRIVE_LINK_UP (R369): A drive port link comes up and the holder reports the member's reservation before any write. -/
  | driveLinkUp (port : Fin 64) (rate lanes granted : Nat) (holder : Option Nat)
  /-- DRIVE_LINK_DOWN (R192): A drive port link goes down or is contained by DPC, starting LINK_HOLD. -/
  | driveLinkDown (port : Fin 64) (dpc : Bool)
  /-- DRIVE_AER (R215): A correctable or uncorrectable AER error on a drive port is counted and reported. -/
  | driveAer (port : Fin 64) (uncorrectable : Bool) (status : Nat)
  /-- DRIVE_MI_EVENT (R222): An NVMe-MI event arrives over MCTP and raises EVT_DRV_MI. -/
  | driveMiEvent (port : Fin 64) (event : Nat)
  /-- PRESENCE_CHANGE (R219): SLOT_PRSNT_N holds a new level for PRSNT_DEB samples; removal of a powered slot turns it off at once. -/
  | presenceChange (slot : Fin 64) (present : Bool)
  /-- I3C_IBI (R222): An I3C in-band interrupt is accepted and raises EVT_I3C_IBI. -/
  | i3cIbi (bus : Fin 8) (address byte : Nat)
  /-- I3C_NACK (R222): A target NACKs three times in a row, the transfer is dropped and EVT_I3C_ERR raised. -/
  | i3cNack (bus : Fin 8) (address : Nat)
  /-- SLOT_CONFIGURE (R233): Slot Configure sets an OFF slot's Stirrup settings after its checks. -/
  | slotConfigure (id : Nat)
  /-- SLOT_LOCATE (R233): Slot Configure with CHANGE = 1 changes only LOCATE, in any state. -/
  | slotLocate (id : Nat)
  /-- SLOT_ENABLE (R224): Slot Enable on an OFF slot enters RAMP and starts RAMP_TMO. -/
  | slotEnable (id : Nat)
  /-- SLOT_DISABLE (R232): Slot Disable shuts an ON or WARN drive down, then asserts PERST, removes the gate and enters OFF. -/
  | slotDisable (id : Nat)
  /-- SLOT_SHUTDOWN_DONE (R232): The drive reports shutdown complete or SHUT_TMO passes and the disable asserts SLOT_PERST_N. -/
  | slotShutdownDone (slot : Fin 64) (answered : Bool)
  /-- SLOT_GATE_OFF (R232): 1 ms after PERST in a disable the gate is pulled down and the slot enters OFF. -/
  | slotGateOff (slot : Fin 64)
  /-- SLOT_CLEAR_TRIP (R230): Slot Clear Trip takes a LOCKED slot to OFF at once, or a TRIPPED slot at the end of cool-down. -/
  | slotClearTrip (id : Nat)
  /-- RAMP_THRESHOLD_REACHED (R224): STR_OUT first reaches 0.90 × VIN; the breaker is armed and the gate driven fully on. -/
  | rampThresholdReached (slot : Fin 64) (meas : Meas)
  /-- PG_ASSERT (R227): PG_DLY ticks into a run, PG asserts and the slot enters ON. -/
  | pgAssert (slot : Fin 64) (meas : Meas)
  /-- PG_LOSS (R227): STR_OUT below 0.85 × VIN for 8 ticks deasserts PG and trips an ON slot with CAUSE 4 unless warned or draining. -/
  | pgLoss (slot : Fin 64) (meas : Meas)
  /-- FAULT_TIMER_START (R226): Current exceeds BRK_TH with the breaker armed; the channel enters WARN and asserts SLOT_PFW_N. -/
  | faultTimerStart (slot : Fin 64) (meas : Meas)
  /-- FAULT_TIMER_STOP (R226): Current falls to BRK_TH or below; the timer clears and the channel returns to ON or RAMP. -/
  | faultTimerStop (slot : Fin 64) (meas : Meas)
  /-- FAULT_TIMER_EXPIRE (R226): The fault timer reaches FAULT_TMR; the gate is pulled down and the channel trips with CAUSE 2. -/
  | faultTimerExpire (slot : Fin 64) (meas : Meas)
  /-- FAST_TRIP (R225): Sense current exceeds FT_TH, the gate is pulled off within 1 µs and the channel trips with CAUSE 1. -/
  | fastTrip (slot : Fin 64) (meas : Meas)
  /-- RAMP_TMO_EXPIRE (R224): RAMP_TMO expires without PG; the gate is pulled down and the channel trips with CAUSE 3. -/
  | rampTmoExpire (slot : Fin 64)
  /-- COOL_DOWN_END (R230): The cool-down ends and the channel retries into RAMP, enters LOCKED, or goes OFF after Slot Clear Trip. -/
  | coolDownEnd (slot : Fin 64)
  /-- FET_SHORT (R229): Current above 0.5 A for 1 ms in OFF, TRIPPED or LOCKED locks the channel with CAUSE 5. -/
  | fetShort (slot : Fin 64) (meas : Meas)
  /-- RETRIES_CLEAR (R230): 60 s of continuous ON clear RETRIES_USED. -/
  | retriesClear (slot : Fin 64)
  /-- PERST_DLY_EXPIRE (R220): PERST_DLY after power-good, SLOT_PERST_N is released. -/
  | perstDlyExpire (slot : Fin 64)
  /-- PEER_PG_REPORT (R235): The holder reports PG over the Harness and the peer's channel enters RAMP. -/
  | peerPgReport (slot : Fin 64)
  /-- HARNESS_ENABLE (R263): Writing HRN_CFG.EN to 1 trains the Harness and starts member restore and the start-up claim. -/
  | harnessEnable (value : Word)
  /-- HARNESS_LINK_UP (R242): The Harness trains, the twins attest and derive the link key, or link-up fails with EVT_HRN_JOIN_FAIL. -/
  | harnessLinkUp (peer : PeerHello)
  /-- HARNESS_LANE_FAULT (R243): A lane fails and the link continues on the clean half, or goes down. -/
  | harnessLaneFault (lane : Fin 16)
  /-- HARNESS_LINK_DOWN (R245): The Harness link goes down, including after 8 failed replays of one flit. -/
  | harnessLinkDown
  /-- FLIT_BAD_RX (R245): A flit fails its ICV or FEC and a replay request is sent, or an unknown type is discarded. -/
  | flitBadRx (unknownType : Bool)
  /-- LINK_FLIT_RX (R245): A LINK flit acknowledges flits, requests a replay, or carries ORD_ACK that releases held transmissions. -/
  | linkFlitRx (acked replay ordAck : Option Nat)
  /-- CROSSPOST_RX (R249): A cross-posted fabric frame from the twin is taken in with its colour and fate. -/
  | crosspostRx (pktId sub colour : Nat)
  /-- ORDER_RX (R248): The standby takes in order entries and follows their decisions, replying ORD_ACK. -/
  | orderRx (entries : List OrderEntry)
  /-- MIRROR_ACK_RX (R247): A MIRROR_ACK covers buffered write blocks or Saddlebag records on the peer. -/
  | mirrorAckRx (bufs records : List Nat)
  /-- SADDLEBAG_RX (R249): The standby takes in mirrored Saddlebag records and acknowledges them. -/
  | saddlebagRx (kind slot seq : Nat) (cleared : Bool) (volume extent stripe off nblk mask : Nat) (pcrc : List Nat)
  /-- DIGEST_RX (R254): The standby takes in the active's egress digest records. -/
  | digestRx (records : List (Nat × Nat))
  /-- HEARTBEAT_RX (R29): A verified heartbeat disciplines the peer's shelf time and renews the silence deadline. -/
  | heartbeatRx (beat : Heartbeat)
  /-- HEARTBEAT_SEND (R38): Slot 504 fires every 1 µs and a heartbeat is sent. -/
  | heartbeatSend
  /-- STATE_RX (R264): The joiner takes in a part of the join snapshot. -/
  | stateRx (part : StatePart)
  /-- CONTROL_RX (R246): A CONTROL message carries configuration, commands, events or state changes from the holder. -/
  | controlRx (msg : ControlMsg)
  /-- TLAG_DROP (R252): A standby TANDEM copy not started by ORD_TIME + T_LAG is dropped. -/
  | tlagDrop (frame : Nat)
  /-- DIGEST_WINDOW_COMPARE (R254): The standby compares a digest window once all its records are formed and starts self-check on a mismatch. -/
  | digestWindowCompare
  /-- DIG_WAIT_EXPIRE (R254): DIG_WAIT after a window's end, the window is compared and missing records counted late. -/
  | digWaitExpire
  /-- SELF_CHECK_VERDICT (R255): Both verdicts are in and the outcome table decides which twin yields or is fenced. -/
  | selfCheckVerdict (again : Nat) (made : Nat)
  /-- SILENCE_DECLARE (R259): No verified heartbeat or LINK acknowledgement for SILENCE µs; the twin declares silence and holds egress. -/
  | silenceDeclare
  /-- ARBITRATION_START (R260): An ACTIVE at once, or a STANDBY after QUORUM_DLY, registers at E + 1 on the arbiters. -/
  | arbitrationStart
  /-- CINCH_MEMBER_RESULT (R257): A reservation Register, Report or Acquire on a member completes and the take proceeds or stops. -/
  | cinchMemberResult (member : Fin 64) (result : CinchResult)
  /-- ARB_CMD_TMO_EXPIRE (R260): An arbiter gives no answer within ARB_CMD_TMO and counts as not won. -/
  | arbCmdTmoExpire (member : Fin 64)
  /-- ARBITRATION_DECIDED (R260): The E + 1 round ends in a win, a fence, or no quorum. -/
  | arbitrationDecided
  /-- ARB_RETRY_EXPIRE (R260): ARB_RETRY passes without quorum and the twin arbitrates again. -/
  | arbRetryExpire
  /-- CLAIM_ROUND_DONE (R372): Every live member is taken or FAILED and the twin sets HOLDER = 1 in its new role. -/
  | claimRoundDone
  /-- CLAIM_LOST (R258): A member write refused with Reservation Conflict fences the twin and raises EVT_HRN_CLAIM_LOST. -/
  | claimLost (member : Fin 64)
  /-- CLAIM_LINK_WAIT_EXPIRE (R263): 2 s pass at start-up without the Harness and the twin claims, arbitrates or waits by what the members show. -/
  | claimLinkWaitExpire
  /-- HRN_CLAIM_WRITE (R263): The key written to HRN_CLAIM on a twin waiting in step 6 starts arbitration at ACTIVE timing. -/
  | hrnClaimWrite (value : Word)
  /-- PAIR (R264): Pair starts a join of the JOINING peer. -/
  | pair (id : Nat)
  /-- JOIN_CUTOVER (R264): The snapshot is complete and both twins run as ACTIVE and STANDBY from the next entry. -/
  | joinCutover
  /-- ROLE_SWAP (R267): Role Swap quiesces the active's member writes and moves the cinch to the standby. -/
  | roleSwap (id : Nat)
  /-- SWAP_QUIESCED (R267): The active's member writes in flight complete and the standby takes every member at E + 1. -/
  | swapQuiesced
  /-- HANDOVER (R267): The old active sends HANDOVER and the new holder forms entries from h + 1 and re-destages open records. -/
  | handover
  /-- LEAVE_PAIR (R269): Leave Pair takes the peer out, it unregisters and is fenced, and the holder becomes SOLO. -/
  | leavePair (id : Nat)
  /-- SET_EGRESS_POLICY (R251): Set Egress Policy sets TANDEM permission and may demote TANDEM connections to LEAD. -/
  | setEgressPolicy (id : Nat)
  /-- HOLD_SLOT_GRANT (R282): A freed holding slot goes by rank to a waiting read, whose drive read is then issued. -/
  | holdSlotGrant
  /-- ROTATE_DATA_KEY (R285): The guarded command makes a new data key generation current, with RESEAL starting a reseal. -/
  | rotateDataKey (id : Nat)
  /-- RESEAL_EXTENT (R286): In the scrub window, a reseal reads older-generation blocks of an extent and rebuffers them under the newest generation. -/
  | resealExtent (nsid : Nat) (extent : Nat) (reads : List (Nat × List Byte))
  /-- RESEAL_DONE (R286): The reseal walk completes and older generations are retired. -/
  | resealDone (nsid : Nat)
  /-- IMPORT_DATA_KEY (R304): The guarded command unwraps a data key into an unbound slot and carries it to the peer. -/
  | importDataKey (id : Nat) (secrets : WrapSecrets)
  /-- DESTROY_DATA_KEY (R305): The guarded command erases an unbound key or crypto-erases an older generation. -/
  | destroyDataKey (id : Nat)
  /-- ENROL_ADMINISTRATOR (R306): The guarded command enrols an administrator key in a slot. -/
  | enrolAdministrator (id : Nat)
  /-- REVOKE_ADMINISTRATOR (R307): The guarded command revokes an administrator slot. -/
  | revokeAdministrator (id : Nat)
  /-- SET_RETENTION (R308): The guarded command adds a retention lock to a range. -/
  | setRetention (id : Nat)
  /-- LOAD_FIRMWARE_IMAGE (R295): The guarded command verifies an image and programs the inactive boot slot. -/
  | loadFirmwareImage (id : Nat) (image : Option FwLoad)
  /-- ACTIVATE_FIRMWARE (R296): The guarded command checks the new image and runs the SOLO activation or the twin sequence. -/
  | activateFirmware (id : Nat) (peerVersion : Option (List Byte))
  /-- SOAK_COMPLETE (R294): SOAK_S reaches SVN_SOAK hours and the fuses advance to the pending SVN. -/
  | soakComplete
  /-- SECURITY_RECORD_WRITTEN (R303): A security record write completes and is read back, or is retried and then fails. -/
  | securityRecordWritten (ok : Bool)
  /-- DRBG_RESEED (R290): After 2^20 requests the DRBG reseeds from the entropy source. -/
  | drbgReseed
  /-- SEC_SRAM_ECC (R290): An uncorrectable error in the security core SRAM stops the core and raises EVT_SEC_FATAL. -/
  | secSramEcc
  /-- SPDM_GET_VERSION (R298): An SPDM GET_VERSION request is answered. -/
  | spdmGetVersion
  /-- SPDM_GET_CAPABILITIES (R298): An SPDM GET_CAPABILITIES request is answered. -/
  | spdmGetCapabilities
  /-- SPDM_NEGOTIATE_ALGORITHMS (R298): An SPDM NEGOTIATE_ALGORITHMS request is answered. -/
  | spdmNegotiateAlgorithms
  /-- SPDM_GET_DIGESTS (R298): An SPDM GET_DIGESTS request is answered. -/
  | spdmGetDigests
  /-- SPDM_GET_CERTIFICATE (R298): An SPDM GET_CERTIFICATE request returns a certificate chain. -/
  | spdmGetCertificate (slot : Nat) (offset : Nat) (length : Nat)
  /-- SPDM_CHALLENGE (R298): An SPDM CHALLENGE is answered with CHALLENGE_AUTH and both signatures. -/
  | spdmChallenge (sign : SpdmSign)
  /-- SPDM_GET_MEASUREMENTS (R298): An SPDM GET_MEASUREMENTS is answered with signed measurement blocks. -/
  | spdmGetMeasurements (index : Nat) (sign : Option SpdmSign)
  /-- POWER_REQ_RUN (R317): A write of REQ = 0 returns the device to RUN. -/
  | powerReqRun
  /-- POWER_REQ_SLEEP (R318): A write of REQ = 1 enters SLEEP when allowed, or is refused. -/
  | powerReqSleep
  /-- POWER_REQ_DEEP (R318): A write of REQ = 2 enters DEEP when allowed, or is refused. -/
  | powerReqDeep
  /-- DOMAIN_SWITCH_OFF (R316): A domain waiting to switch off has its blocks go idle and is switched off. -/
  | domainSwitchOff (domain : Fin 34)
  /-- VIN_WARN_ASSERT (R319): VIN below WARN_TH or an external low for WARN_FILT enters DRAIN and asserts SLOT_PFW_N on every slot. -/
  | vinWarnAssert (external : Bool) (vin : Nat)
  /-- DRAIN_PEER_CHECK (R321): 5 µs after entering DRAIN, a twin whose peer shows no DRAIN yields. -/
  | drainPeerCheck
  /-- DRAIN_DESTAGE_DONE (R320): Dirty data reaches 0 in DRAIN and the last journal pages are written. -/
  | drainDestageDone
  /-- DRAIN_DONE (R320): Every member Flush and the record complete, PHASE becomes 4 and EVT_PWR_DRAIN_DONE is raised. -/
  | drainDone
  /-- VIN_WARN_RELEASE (R322): VIN stays above WARN_TH + HYST for RECOVER ms; VIN_WARN_N releases and the device returns to RUN once drained. -/
  | vinWarnRelease
  /-- VIN_DROP (R323): VIN below DROP_TH for 2 µs turns the device off as at loss of VIN. -/
  | vinDrop
  /-- POWER_UP (R323): VIN rises through 10.2 V and the regulators and cold start begin. -/
  | powerUp
  /-- RAIL_FAULT (R314): A rail leaves ±5% for 10 µs, its domains switch off, FAULT_N asserts and EVT_PWR_RAIL_FAULT is raised. -/
  | railFault (rail : Fin 6) (isOver : Bool)
  /-- XA_TRIP (R330): The XA monitor trips and its domains move to FIO or stop. -/
  | xaTrip (freq : Bool) (dev : Int)
  /-- XB_TRIP (R330): The XB monitor trips and PLL6 relocks to XA. -/
  | xbTrip (freq : Bool) (dev : Int)
  /-- FIO_TRIP (R330): The FIO monitor trips, AON moves to SIO and FIO is restarted. -/
  | fioTrip (freq : Bool) (dev : Int)
  /-- PLL_UNLOCK (R330): A PLL loses lock and its domains move to FIO or stop. -/
  | pllUnlock (pll : Fin 8)
  /-- PLL6_RELOCK (R330): PLL6 relocks to XA with ratio 5/2 and XB_SRC reads 1. -/
  | pll6Relock
  /-- FIO_READY (R334): FIO counts 4,096 good cycles and waiting domains restart on it. -/
  | fioReady
  /-- FIO_START_TIMEOUT (R335): FIO is not ready 200 µs after start and the device enters clock-fault hold. -/
  | fioStartTimeout
  /-- XTAL_TMO_EXPIRE (R340): A crystal has not started XTAL_TMO ms after enable and counts as a stop trip. -/
  | xtalTmoExpire (xb : Bool)
  /-- CLOCK_GATE (R337): A domain waiting to be gated has its blocks go idle and its clock is gated. -/
  | clockGate (domain : Fin 12)
  /-- RESET_PIN (R339): RESET_N low for 10 µs or more holds the device in full-device reset until it rises. -/
  | resetPin
  /-- RESET_RELEASE (R338): The 10 µs hold of a full-device reset ends and the warm start begins. -/
  | resetRelease
  /-- TEST_RESET (R338): TRST_N resets the JTAG TAP only. -/
  | testReset
  /-- POWER_UP_REPLAY (R187): After power loss, open journal records on the members are replayed before host I/O. -/
  | powerUpReplay (maps : List StatePart) (namespaces : List StatePart) (locks : List StatePart) (copies : List JournalCopy)
  /-- IO_READY (R340): Every start-up bit is set, IO_READY reads 1 and host I/O is admitted. -/
  | ioReady
  /-- READ_COUNTERS (R344): Read Counters copies, and optionally clears, a range of event counters. -/
  | readCounters (id : Nat) (xferOk : Bool)
  /-- CONFIGURE_WINDOW (R347): Configure Window enables or stops a bandwidth window and its results ring. -/
  | configureWindow (id : Nat)
  /-- WINDOW_CLOSE (R345): A window's slot fires at a boundary and one entry per sub-port and direction is written, or the close is lost. -/
  | windowClose (window : Fin 8)
  /-- CONFIGURE_SAMPLING (R349): Configure Sampling sets the bib sampling rate and restarts the sample ring. -/
  | configureSampling (id : Nat)
  /-- TEL_WIN_HEAD_WRITE (R348): A write to TEL_WIN_HEAD releases results ring slots, or is discarded. -/
  | telWinHeadWrite (window : Fin 8) (value : Word)
  /-- TEL_SMP_HEAD_WRITE (R348): A write to TEL_SMP_HEAD releases sample ring slots, or is discarded. -/
  | telSmpHeadWrite (value : Word)
  /-- TEL_RING_FAULT (R348): A PCIe error on a telemetry ring write stops the ring and raises EVT_TEL_RING_FAULT. -/
  | telRingFault (ring : Fin 9)
  /-- THERMAL_WARN (R365): A sensor at TJ_WARN or more for 1 ms raises EVT_PWR_THERM_WARN. -/
  | thermalWarn (sensor : Nat) (temp : Nat) (cooled : Bool)
  /-- THERMAL_TRIP (R365): A sensor at 125 °C for 100 µs enters thermal hold, darkening ports and switching off all but domains 0 and 1. -/
  | thermalTrip (sensor : Nat) (temp : Nat)
  /-- THERMAL_RESET_START (R365): A reset pending in thermal hold starts when every sensor reads below 100 °C. -/
  | thermalResetStart
  /-- CQ_GATHER_EXPIRE (R115): CQ_GATHER ns after the first ready pull-mode completion, the gathered completions go in one RDMA WRITE Only with Immediate carrying the new CQ_TAIL. -/
  | cqGatherExpire (conn : Nat)
  /-- JOIN_HOLDER_LOST (R265): A JOINING twin finds the holder lost before cutover, becomes FENCED with cause 5 and raises EVT_HRN_JOIN_FAIL. -/
  | joinHolderLost
  /-- RESET_N_RELEASE (R339): RESET_N rises after a low of 10 µs or more and the held full-device reset ends. -/
  | resetNRelease
  /-- STARTUP_PLL_LOCK (R336): PLL5 locks at start-up and domains 1, 2 and 10 move from FIO to PLL5 by stop-switch-restart. -/
  | startupPllLock
  /-- RECORD_BANK_ERASED (R325): The erase of the other record bank, started ahead of time, completes and the next record place is erased and ready. -/
  | recordBankErased
  /-- CONTEXT_WRITEBACK_DONE (R125): The write-back of an evicted context to HBM completes, its resident slot is reused and the waiting fetch starts. -/
  | contextWritebackDone (conn : Nat)
  deriving DecidableEq, Repr

end Sys2Proof
end

