-- ==== Sys2Proof/WellFormed.lean ====
section
/-! DEFINITION. Which commands can be sent: the operands that name a register, a connection, a tag, a sub-port or a place in the
layout lie in the ranges that the manual gives those things. An operand that a host or a program chooses freely (a counter
number, a table number, a length) is not limited here: its command answers for it. -/
namespace Sys2Proof

/-- An offset in BAR0, 1 MiB (Table 03-2). -/
def inBar0 (a : Nat) : Bool := decide (a < 0x100000)

/-- An aligned offset in BAR0. -/
def isReg (a : Nat) : Bool := inBar0 a && decide (a % 4 = 0)

/-- An aligned offset in the MSI-X table and its pending bits, numbered from 0x102000 (Table 03-2, log entry 118). -/
def isMsix (a : Nat) : Bool := decide (0x102000 ≤ a) && decide (a < 0x104000) && decide (a % 4 = 0)

/-- An aligned offset in the doorbell page, numbered from 0x100000. -/
def isDoorbell (a : Nat) : Bool := decide (0x100000 ≤ a) && decide (a < 0x101000) && decide (a % 4 = 0)

/-- An offset in the doorbell page, 4 KiB. -/
def inDoorbells (a : Nat) : Bool := decide (a < 0x1000)

/-- A connection, of 65,536 (Table 00-1). -/
def isConn (c : Nat) : Bool := decide (c < 65536)

/-- A command tag, of 65,536 (Table 00-1). -/
def isTag (t : Nat) : Bool := decide (t < 65536)

/-- A fabric sub-port, 4n + s. -/
def isSub (k : Nat) : Bool := decide (k < 32)

/-- An address that a Tack core forms. -/
def isAddr (a : Nat) : Bool := decide (a < 2 ^ 64)

/-- A slot of the Saddlebag ring, of 1,048,576 (R184). -/
def isRecord (n : Nat) : Bool := decide (n < 1048576)

/-- A blocks' contents, 4,096 bytes of data and 64 of metadata (R169). -/
def isBlock (b : List Byte) : Bool := b.length = 4160

/-- Whether a word whose bits below funct7 are these has the major opcode custom-0. -/
def isCustom0 (rest : BitVec 25) : Bool := rest.toNat % 128 = 0x0B

/-- Whether a command is well formed. -/
def Instr.wf : Instr → Bool
  | .barAccessBad _ _ a => inBar0 a
  | .registerWrite a _ => isReg a || isMsix a
  | .readClearRegister a => isReg a || isMsix a || isDoorbell a
  | .lowWordRead a => isReg a
  | .cdbWrite o _ _ => inDoorbells o
  | .edbWrite o _ _ => inDoorbells o
  | .pcall _ _ r a => isCustom0 r && isAddr a
  | .pwait _ _ r _ => isCustom0 r
  | .ppoll _ _ r _ => isCustom0 r
  | .reseqDiscardReport _ c _ => isConn c
  | .reseqTimeout _ c => isConn c
  | .neighbourRequestRx _ k => isSub k
  | .cmRtuRx c => isConn c
  | .cmDreqRx c => isConn c
  | .cmDrepRx c => isConn c
  | .cmTmoExpire c => isConn c
  | .quietTmoExpire c => isConn c
  | .sheathK1Rx c _ => isConn c
  | .sheathK3Rx c _ => isConn c
  | .keyTmoExpire c => isConn c
  | .contextFetchDone c _ => isConn c
  | .contextWritebackDone c => isConn c
  | .ackSend c => isConn c
  | .rnrWaitExpire c => isConn c
  | .retransmitDeadline c => isConn c
  | .cnpRx p => isConn p.conn
  | .alphaPeriodExpire c => isConn c
  | .rateIncrease c => isConn c
  | .policerRelease c => isConn c
  | .commandStart c => isConn c
  | .cqGatherExpire c => isConn c
  | .nvmeRead t => isTag t
  | .nvmeWrite t _ => isTag t
  | .writeDataFetch t => isTag t
  | .nvmeWriteZeroes t => isTag t
  | .nvmeDatasetManagement t _ => isTag t
  | .nvmeFlush t => isTag t
  | .reservationRegister t _ _ => isTag t
  | .reservationReport t => isTag t
  | .reservationAcquire t _ _ => isTag t
  | .reservationRelease t _ => isTag t
  | .getLogPage t => isTag t
  | .nvmeIdentify t => isTag t
  | .nvmeAbort t => isTag t
  | .setFeatures t => isTag t
  | .getFeatures t => isTag t
  | .asyncEventRequest t => isTag t
  | .keepAlive t => isTag t
  | .fabricsConnect t _ => isTag t
  | .propertyGet t => isTag t
  | .propertySetEnable t => isTag t
  | .propertySetReset t => isTag t
  | .propertySetShutdown t => isTag t
  | .fabricsDisconnect t => isTag t
  | .authenticationSend t => isTag t
  | .authenticationReceive t => isTag t
  | .thawQueue t => isTag t
  | .registerMemoryKey t => isTag t
  | .deregisterMemoryKey t => isTag t
  | .destageStripeStart _ _ _ rs => rs.all fun r => isBlock r.2.2
  | .suspectScrubStripe _ _ _ rs => rs.all fun r => isBlock r.2.2
  | .scrubStripe _ _ _ rs => rs.all fun r => isBlock r.2.2
  | .recordOpen n => isRecord n
  | .stripeDataLanded n => isRecord n
  | .stripeParityLanded n => isRecord n
  | .crosspostRx _ k _ => isSub k
  | _ => true

end Sys2Proof
end

