-- ==== Sys2Proof/Config.lean ====
section
/-! DEFINITION. What one implementation fixes, and the values the manual leaves open: free values are `opaque`
constants without a body, so nothing proved rests on a choice of them (log entries 3 and 4). -/
namespace Sys2Proof.Config

/-- The `n`-th free value drawn, `w` bits wide: random draws (DRBG nonces, table seeds, layout seeds) and results
the manual does not state. Log entry 3. -/
opaque freeBits (w n : Nat) : BitVec w

/-- The `n`-th free draw below a bound the manual states, before reduction (random eviction, slot choice). Log entry 3. -/
opaque freeNat (n : Nat) : Nat

/-- The frequency correction the servo applies after its `n`-th update, in 1/65,536 ns per 8 ns tick: the manual bounds
what the servo does and gives no control law (R26). Log entry 10. -/
opaque servoCorr (n : Nat) : Int

/-- AES-256 in counter mode under a key and a 12-byte nonce: the ciphertext of a plaintext (R273, R277), and the plaintext
of a ciphertext (R278). The cipher is left uninterpreted. Log entry 4. -/
opaque gcmEncrypt (key nonce plain : List Byte) : List Byte
opaque gcmDecrypt (key nonce cipher : List Byte) : List Byte

/-- The GCM tag over a ciphertext and its associated data (R272, R276). Log entry 4. -/
opaque gcmTag (key nonce aad cipher : List Byte) : List Byte

/-- AES-256 of an all-zero block, for KEY_CHECK (Table 14-2). Log entry 4. -/
opaque aesZero (key : List Byte) : List Byte

/-- SHA-256 of a list of bytes (R295, R298). Log entry 4. -/
opaque sha256 (m : List Byte) : List Byte

/-- HMAC-SHA-256, and the SP 800-108 counter-mode KDF over it: `n` bytes from a key and a label (R128, R299). Log entry 4. -/
opaque hmacSha256 (key m : List Byte) : BitVec 256
opaque kdf (n : Nat) (key label : List Byte) : BitVec (8 * n)

/-- The device root of the fuses, 256 bits (Table 15-6). Log entry 4. -/
opaque rootKey : BitVec 256

/-- The encapsulation key of an ML-KEM-768 pair, and the RSASSA-PSS and ML-DSA-65 signatures of a message, under pairs generated from a seed
(R128, R299). Log entry 4. -/
opaque mlKemKey (seed : List Byte) : BitVec 9472
opaque rsaSign (seed m : List Byte) : BitVec 3072
opaque mldsaSign (seed m : List Byte) : BitVec 26472

/-- The DevID certificate chain that manufacture left in the flash header, and the X.509 certificate of a pair's public keys under a signing
pair, with the measurement blocks it carries (R291, R299). Log entry 4. -/
opaque devIdChain : List Byte
opaque certificate (subject signer : List Byte) (blocks : List (List Byte)) : List Byte

/-- How the 16 bytes of an event's DETAIL hold the numbers that its chapter names (Table 03-5). Log entry 66. -/
opaque detailBits (source : Nat) (detail : List Nat) : BitVec 128

/-- The SHA-256 of the boot ROM, measurement block 1 (Table 15-4). Log entry 4. -/
opaque romDigest : List Byte

/-- What the SP 800-90A DRBG of R171, instantiated with a seed, orders member `b` of row `a` by. Log entry 4. -/
opaque permute (seed a b : Nat) : Nat

end Sys2Proof.Config

namespace Sys2Proof.Machine

/-- The queues that are lossless, where WRED never applies (SWC_QPROF.WRED_EN, Table 05-4). -/
def losslessQueue (q : Nat) : Bool :=
  (decide (256 ≤ q) && decide (q ≤ 263)) || (decide (272 ≤ q) && decide (q ≤ 279)) || (decide (288 ≤ q) && decide (q ≤ 295))

/-- The power domains marked Fixed in Table 16-3 (TACK3, domain 28, is fixed too). -/
def fixedDomain (d : Nat) : Bool := [0, 1, 2, 3, 28, 31].contains d

/-- The clock domains marked Fixed in Table 17-2. -/
def fixedClock (c : Nat) : Bool := [0, 1, 2, 3].contains c

/-- The output of each PLL in MHz (Table 17-2). -/
def pllMHz (p : Nat) : Nat :=
  [2000, 1600, 1200, 1000, 1250, 500, 125, 156].getD p 0

end Sys2Proof.Machine
end

