-- ==== Sys2Proof/Machine/Events.lean ====
section
/-! DEFINITION. The event sources of Table 03-9 with their classes, from the event tables of the chapters. -/
namespace Sys2Proof.Machine

/-- The classes of an event (R57, Table 03-11). -/
inductive Cls where
  | nmi | error | notice | info
  deriving DecidableEq, Repr

namespace Ev
/-- Source 0, NOTICE. -/
abbrev BAR_ACCESS : Nat := 0
/-- Source 1, ERROR. -/
abbrev DOORBELL_BAD : Nat := 1
/-- Source 2, ERROR. -/
abbrev RING_FAULT : Nat := 2
/-- Source 3, NOTICE. -/
abbrev GUARD_REJECT : Nat := 3
/-- Source 4, ERROR. -/
abbrev GUARD_STORM : Nat := 4
/-- Source 5, NMI. -/
abbrev FUNC_WEDGED : Nat := 5
/-- Source 6, ERROR. -/
abbrev PEER_NMI : Nat := 6
/-- Source 7, NOTICE. -/
abbrev MGMT_FLR : Nat := 7
/-- Source 32, NMI; detail: stop or frequency, measured deviation. -/
abbrev CLK_XA_FAIL : Nat := 32
/-- Source 33, NMI; detail: as 32. -/
abbrev CLK_XB_FAIL : Nat := 33
/-- Source 34, NMI; detail: as 32. -/
abbrev CLK_FIO_FAIL : Nat := 34
/-- Source 35, NMI; detail: PLL. -/
abbrev CLK_PLL_UNLOCK : Nat := 35
/-- Source 36, ERROR; detail: domain, new source. -/
abbrev CLK_FALLBACK : Nat := 36
/-- Source 37, ERROR; detail: XA or XB. -/
abbrev CLK_XTAL_TMO : Nat := 37
/-- Source 38, NOTICE; detail: CLK_MON_STATUS. -/
abbrev CLK_HOLD_EXIT : Nat := 38
/-- Source 39, NOTICE; detail: domain. -/
abbrev CLK_GATE_WAIT : Nat := 39
/-- Source 40, INFO; detail: ms from the reset or from VIN. -/
abbrev CLK_IO_READY : Nat := 40
/-- Source 64, ERROR; detail: VIN at assertion, internal or external. -/
abbrev PWR_VIN_WARN : Nat := 64
/-- Source 65, NOTICE; detail: drain time, µs. -/
abbrev PWR_DRAIN_DONE : Nat := 65
/-- Source 66, NOTICE. -/
abbrev PWR_VIN_OK : Nat := 66
/-- Source 67, NMI; detail: rail, over or under. -/
abbrev PWR_RAIL_FAULT : Nat := 67
/-- Source 68, NOTICE; detail: domain. -/
abbrev PWR_DOM_WAIT : Nat := 68
/-- Source 69, INFO; detail: old and new state. -/
abbrev PWR_STATE : Nat := 69
/-- Source 70, NOTICE; detail: sensor, temperature. -/
abbrev PWR_THERM_WARN : Nat := 70
/-- Source 71, NMI; detail: sensor, temperature. -/
abbrev PWR_THERM_TRIP : Nat := 71
/-- Source 96, INFO. -/
abbrev TIME_LOCKED : Nat := 96
/-- Source 97, NOTICE. -/
abbrev TIME_HOLDOVER : Nat := 97
/-- Source 98, NOTICE; detail: amount in ns; servo or command. -/
abbrev TIME_STEP : Nat := 98
/-- Source 99, ERROR; detail: difference in ns. -/
abbrev TIME_TWIN_DIVERGE : Nat := 99
/-- Source 100, ERROR. -/
abbrev FLOOR_HOLD : Nat := 100
/-- Source 101, NOTICE; detail: slot, fires skipped. -/
abbrev TIMER_MISSED : Nat := 101
/-- Source 192, NOTICE. -/
abbrev SWC_RESERVE : Nat := 192
/-- Source 193, ERROR. -/
abbrev SWC_TRUNC : Nat := 193
/-- Source 194, NOTICE. -/
abbrev SWC_RSEQ_LOST : Nat := 194
/-- Source 195, NOTICE. -/
abbrev SWC_RSEQ_FULL : Nat := 195
/-- Source 196, NOTICE. -/
abbrev SWC_ECC : Nat := 196
/-- Source 197, ERROR. -/
abbrev SWC_ECC_UNCORR : Nat := 197
/-- Source 224, NOTICE. -/
abbrev ADDR_FLAP : Nat := 224
/-- Source 225, NOTICE. -/
abbrev TBL_EVICT : Nat := 225
/-- Source 226, NOTICE. -/
abbrev TBL_REHASH_REQ : Nat := 226
/-- Source 227, ERROR. -/
abbrev TBL_INSERT_FAIL : Nat := 227
/-- Source 228, INFO. -/
abbrev TBL_REHASH_DONE : Nat := 228
/-- Source 229, NOTICE. -/
abbrev TBL_SWEEP_LATE : Nat := 229
/-- Source 230, NOTICE. -/
abbrev TBL_ECC : Nat := 230
/-- Source 231, ERROR. -/
abbrev TBL_ECC_UNCORR : Nat := 231
/-- Source 256, INFO. -/
abbrev XPT_CONN_UP : Nat := 256
/-- Source 257, NOTICE. -/
abbrev XPT_CONN_DOWN : Nat := 257
/-- Source 258, NOTICE. -/
abbrev XPT_KEY_FAIL : Nat := 258
/-- Source 259, ERROR. -/
abbrev XPT_RETRY_EXC : Nat := 259
/-- Source 260, NOTICE. -/
abbrev XPT_PARK_FULL : Nat := 260
/-- Source 261, NOTICE. -/
abbrev XPT_ACCESS_DENIED : Nat := 261
/-- Source 262, NOTICE. -/
abbrev XPT_MKEY_REFUSED : Nat := 262
/-- Source 263, NOTICE. -/
abbrev XPT_ESP_AUTH : Nat := 263
/-- Source 264, NOTICE. -/
abbrev XPT_PULL_BAD : Nat := 264
/-- Source 265, ERROR. -/
abbrev XPT_CTX_ECC : Nat := 265
/-- Source 266, NOTICE. -/
abbrev XPT_CONN_REFUSED : Nat := 266
/-- Source 267, NOTICE. -/
abbrev XPT_WHEEL_LATE : Nat := 267
/-- Source 320, INFO. -/
abbrev SLALOM_SWAP : Nat := 320
/-- Source 321, NOTICE. -/
abbrev SLALOM_SKIP : Nat := 321
/-- Source 322, NOTICE. -/
abbrev STRICT_DROP : Nat := 322
/-- Source 352, NOTICE. -/
abbrev CMD_FROZEN : Nat := 352
/-- Source 353, INFO. -/
abbrev CMD_THAWED : Nat := 353
/-- Source 354, NOTICE. -/
abbrev CMD_CID_CONFLICT : Nat := 354
/-- Source 355, NOTICE. -/
abbrev CMD_KATO : Nat := 355
/-- Source 356, NOTICE. -/
abbrev CMD_CTRL_RESET : Nat := 356
/-- Source 357, NOTICE. -/
abbrev CMD_WRITE_THROUGH : Nat := 357
/-- Source 358, INFO. -/
abbrev CMD_DIRTY_HELD : Nat := 358
/-- Source 359, ERROR. -/
abbrev CMD_ACT_ABANDONED : Nat := 359
/-- Source 360, ERROR. -/
abbrev CMD_CAPACITY : Nat := 360
/-- Source 361, INFO. -/
abbrev CMD_NS_CHANGE : Nat := 361
/-- Source 416, NOTICE. -/
abbrev LAY_FREE_LOW : Nat := 416
/-- Source 417, ERROR. -/
abbrev LAY_MAP_PERSIST : Nat := 417
/-- Source 418, ERROR. -/
abbrev LAY_MAP_ECC : Nat := 418
/-- Source 419, NOTICE; detail: member, old and new state, cause. -/
abbrev RB_MEMBER_STATE : Nat := 419
/-- Source 420, NOTICE. -/
abbrev RB_START : Nat := 420
/-- Source 421, INFO. -/
abbrev RB_DONE : Nat := 421
/-- Source 422, ERROR; detail: volume, SLBA, NLB. -/
abbrev RB_LOST : Nat := 422
/-- Source 423, ERROR; detail: row, position. -/
abbrev RB_SPARE_OUT : Nat := 423
/-- Source 424, ERROR. -/
abbrev RB_LSM_COARSE : Nat := 424
/-- Source 425, NOTICE; detail: member. -/
abbrev RB_PEER_PATH : Nat := 425
/-- Source 426, NOTICE. -/
abbrev RB_SUSPECT_SCRUB : Nat := 426
/-- Source 427, INFO; detail: member. -/
abbrev RB_DRAIN_DONE : Nat := 427
/-- Source 428, INFO; detail: member. -/
abbrev RB_COPYBACK_DONE : Nat := 428
/-- Source 429, NOTICE; detail: volume, extent, stripe. -/
abbrev SCRUB_MISMATCH : Nat := 429
/-- Source 430, INFO. -/
abbrev SCRUB_DONE : Nat := 430
/-- Source 448, NOTICE. -/
abbrev SBG_COPY_LOST : Nat := 448
/-- Source 449, INFO. -/
abbrev SBG_COPY_RESTORED : Nat := 449
/-- Source 450, ERROR. -/
abbrev SBG_ALL_LOST : Nat := 450
/-- Source 451, NOTICE. -/
abbrev SBG_REPLAY : Nat := 451
/-- Source 452, NOTICE. -/
abbrev SBG_RING_FULL : Nat := 452
/-- Source 480, NOTICE; detail: port, new speed and width or down. -/
abbrev DRV_LINK : Nat := 480
/-- Source 481, INFO; detail: port. -/
abbrev DRV_AER_CORR : Nat := 481
/-- Source 482, ERROR; detail: port, AER status. -/
abbrev DRV_AER_UNCORR : Nat := 482
/-- Source 483, ERROR; detail: port. -/
abbrev DRV_DPC : Nat := 483
/-- Source 484, NOTICE; detail: slot, inserted or removed. -/
abbrev DRV_PRESENT : Nat := 484
/-- Source 485, NOTICE; detail: port, item. -/
abbrev DRV_REQ_FAIL : Nat := 485
/-- Source 486, NOTICE; detail: port, NVMe-MI event. -/
abbrev DRV_MI : Nat := 486
/-- Source 544, ERROR; detail: slot, cause, peak current. -/
abbrev STR_TRIP : Nat := 544
/-- Source 545, ERROR; detail: slot. -/
abbrev STR_LOCKED : Nat := 545
/-- Source 546, INFO; detail: slot. -/
abbrev STR_ON : Nat := 546
/-- Source 547, NOTICE; detail: slot, retry number. -/
abbrev STR_RETRY : Nat := 547
/-- Source 548, ERROR; detail: slot. -/
abbrev STR_FET_SHORT : Nat := 548
/-- Source 576, NOTICE; detail: up, down or half, and the failed lane. -/
abbrev HRN_LINK : Nat := 576
/-- Source 577, ERROR. -/
abbrev HRN_SILENCE : Nat := 577
/-- Source 578, NOTICE; detail: epoch, arbiters won. -/
abbrev HRN_ARB_WON : Nat := 578
/-- Source 579, ERROR; detail: cause. -/
abbrev HRN_FENCED : Nat := 579
/-- Source 580, NOTICE; detail: old and new role, cause. -/
abbrev HRN_ROLE : Nat := 580
/-- Source 581, ERROR; detail: CONN, OSEQ. -/
abbrev HRN_DIGEST : Nat := 581
/-- Source 582, NMI; detail: fault found. -/
abbrev HRN_SELF_FAULT : Nat := 582
/-- Source 583, NMI. -/
abbrev HRN_BOTH_FAULT : Nat := 583
/-- Source 584, NMI; detail: member. -/
abbrev HRN_CLAIM_LOST : Nat := 584
/-- Source 585, ERROR. -/
abbrev HRN_NO_QUORUM : Nat := 585
/-- Source 586, INFO. -/
abbrev HRN_JOIN_START : Nat := 586
/-- Source 587, NOTICE. -/
abbrev HRN_JOIN_DONE : Nat := 587
/-- Source 588, ERROR; detail: cause. -/
abbrev HRN_JOIN_FAIL : Nat := 588
/-- Source 589, NOTICE. -/
abbrev HRN_SWAP : Nat := 589
/-- Source 590, ERROR. -/
abbrev HRN_LAG : Nat := 590
/-- Source 591, NOTICE. -/
abbrev HRN_DIG_LATE : Nat := 591
/-- Source 592, INFO; detail: old and new member. -/
abbrev HRN_ARB_CHANGE : Nat := 592
/-- Source 640, ERROR; detail: pipeline, operation, retried. -/
abbrev CPH_MISMATCH : Nat := 640
/-- Source 641, NMI; detail: pipeline. -/
abbrev CPH_PIPE_OFF : Nat := 641
/-- Source 642, NOTICE; detail: NSID, LBA, step of R278. -/
abbrev CPH_INTEGRITY : Nat := 642
/-- Source 643, ERROR. -/
abbrev CPH_CTR_SAVE : Nat := 643
/-- Source 644, INFO; detail: NSID, generation. -/
abbrev CPH_ROTATE : Nat := 644
/-- Source 645, INFO; detail: NSID, generations retired. -/
abbrev CPH_RESEAL_DONE : Nat := 645
/-- Source 646, NOTICE. -/
abbrev CPH_HOLD_WAIT : Nat := 646
/-- Source 672, NMI. -/
abbrev SEC_FATAL : Nat := 672
/-- Source 673, NOTICE; detail: slot booted, slot rejected, step. -/
abbrev SEC_BOOT_SLOT : Nat := 673
/-- Source 674, NOTICE; detail: new FUSE_COUNT. -/
abbrev SEC_FUSE : Nat := 674
/-- Source 675, ERROR. -/
abbrev SEC_RECORD_FAIL : Nat := 675
/-- Source 676, INFO; detail: SVN, VERSION. -/
abbrev SEC_FW_LOADED : Nat := 676
/-- Source 677, NOTICE; detail: step. -/
abbrev SEC_FW_REJECT : Nat := 677
/-- Source 678, NOTICE; detail: slot, enrolled or revoked. -/
abbrev SEC_ADMIN : Nat := 678
/-- Source 679, INFO; detail: handle, tenant. -/
abbrev SEC_KEY_IMPORT : Nat := 679
/-- Source 680, NOTICE; detail: handle. -/
abbrev SEC_KEY_DESTROY : Nat := 680
/-- Source 681, INFO; detail: NSID, SLBA, RELEASE. -/
abbrev SEC_RETENTION : Nat := 681
/-- Source 704, NOTICE. -/
abbrev TACK_ECC : Nat := 704
/-- Source 705, NMI. -/
abbrev TACK_ECC_FATAL : Nat := 705
/-- Source 706, NOTICE. -/
abbrev EXT_FAULT : Nat := 706
/-- Source 707, NOTICE. -/
abbrev EXT_OVERRUN : Nat := 707
/-- Source 708, ERROR. -/
abbrev EXT_DISABLED : Nat := 708
/-- Source 709, INFO. -/
abbrev EXT_LOADED : Nat := 709
/-- Source 710, NOTICE. -/
abbrev EXT_REJECT : Nat := 710
/-- Source 736, NOTICE; detail: window. -/
abbrev TEL_OVERRUN : Nat := 736
/-- Source 737, INFO. -/
abbrev TEL_SAMPLE_DROP : Nat := 737
/-- Source 738, ERROR; detail: window 0–7, or 8 for the sample ring. -/
abbrev TEL_RING_FAULT : Nat := 738
/-- Source 752, NOTICE; detail: bus, address. -/
abbrev I3C_ERR : Nat := 752
/-- Source 753, INFO; detail: bus, address, first byte. -/
abbrev I3C_IBI : Nat := 753
/-- Sources 128 + n, NOTICE; NETn: sub-port and new state. -/
abbrev NET_LINK (n : Nat) : Nat := 128 + n
/-- Sources 136 + n, NOTICE; NETn: uncorrectable codeword. -/
abbrev NET_FEC_UNCORR (n : Nat) : Nat := 136 + n
/-- Sources 144 + n, INFO; NETn: PAUSE or PFC received. -/
abbrev NET_PAUSE_RX (n : Nat) : Nat := 144 + n
end Ev

/-- The NMI sources. -/
def nmiSources : List Nat := [5, 32, 33, 34, 35, 67, 71, 582, 583, 584, 641, 672, 705]
/-- The ERROR sources. -/
def errorSources : List Nat := [1, 2, 4, 6, 36, 37, 64, 99, 100, 193, 197, 227, 231, 259, 265, 359, 360, 417, 418, 422, 423, 424, 450, 482, 483, 544, 545, 548, 577, 579, 581, 585, 588, 590, 640, 643, 675, 708, 738]
/-- The NOTICE sources. -/
def noticeSources : List Nat := [0, 3, 7, 38, 39, 65, 66, 68, 70, 97, 98, 101, 128, 129, 130, 131, 132, 133, 134, 135, 136, 137, 138, 139, 140, 141, 142, 143, 192, 194, 195, 196, 224, 225, 226, 229, 230, 257, 258, 260, 261, 262, 263, 264, 266, 267, 321, 322, 352, 354, 355, 356, 357, 416, 419, 420, 425, 426, 429, 448, 451, 452, 480, 484, 485, 486, 547, 576, 578, 580, 587, 589, 591, 642, 646, 673, 674, 677, 678, 680, 704, 706, 707, 710, 736, 752]
/-- The INFO sources that a chapter defines. -/
def infoSources : List Nat := [40, 69, 96, 144, 145, 146, 147, 148, 149, 150, 151, 228, 256, 320, 353, 358, 361, 421, 427, 428, 430, 449, 481, 546, 586, 592, 644, 645, 676, 679, 681, 709, 737, 753]

/-- The class shown in EVT_SRC_INFO; a reserved index reads 3, INFO. -/
def srcClass (n : Nat) : Cls :=
  if nmiSources.contains n then .nmi
  else if errorSources.contains n then .error
  else if noticeSources.contains n then .notice
  else .info

/-- Whether a chapter defines source `n` (a reserved source never occurs). -/
def srcDefined (n : Nat) : Bool :=
  nmiSources.contains n || errorSources.contains n || noticeSources.contains n || infoSources.contains n

/-- The CLASS code of Table 03-5. -/
def Cls.code : Cls → Nat
  | .nmi => 0 | .error => 1 | .notice => 2 | .info => 3

end Sys2Proof.Machine
end

