-- ==== Sys2Proof/Machine/RegTable.lean ====
section
/-! DEFINITION. The register tables of the manual, one descriptor per register or register array: address in BAR0,
strides, fields with their access type, reset value and stated range of a written value (R2 to R6, R368).
Where the manual gives no number for a reset value ("Fused", "Restored", "Under R183", "Drawn", "Sampled") the
table holds 0 and the value shown on a read comes from the state (log entry 6). -/
namespace Sys2Proof.Machine

/-- The access types of Table 00-3 (R5). -/
inductive Acc where
  | rw | ro | w1c | w1s | wo | rc
  deriving DecidableEq, Repr

/-- One field of a register: bits [hi:lo], its access type, its reset value and the range a written value must lie in. -/
structure Fld where
  name : String
  hi : Nat
  lo : Nat
  acc : Acc
  rst : Nat
  vmin : Nat
  vmax : Nat
  deriving DecidableEq, Repr

/-- One register, or an array of `n` by `n2` registers (`flds i j` are the fields of element [i][j]).
`carried` marks the registers written on the holder and carried to the peer (R371); `aon` masks the bits that lie in
the always-on domain (R4). -/
structure RegDesc where
  name : String
  base : Nat
  stride : Nat
  n : Nat
  stride2 : Nat
  n2 : Nat
  carried : Bool
  aon : Nat
  flds : Nat → Nat → List Fld

/-- A named field of a register: the register's address and the field's bits. -/
structure Ref where
  addr : Nat
  hi : Nat
  lo : Nat
  deriving DecidableEq, Repr

/-- The registers of block TIM. -/
def tblTim : List RegDesc :=
  [ ⟨"TIM_CTL", 0xC000, 0x0, 1, 0, 1, false, 0x0, fun _ _ => [⟨"PTP_EN", 0, 0, .rw, 0, 0, 1⟩, ⟨"DELAY_MECH", 3, 2, .rw, 0, 0, 1⟩, ⟨"TRANSPORT", 5, 4, .rw, 1, 0, 2⟩, ⟨"DOMAIN", 15, 8, .rw, 0, 0, 255⟩, ⟨"PTP_PORTS", 23, 16, .rw, 0, 0, 255⟩]⟩,
    ⟨"TIM_STATUS", 0xC004, 0x0, 1, 0, 1, false, 0x0, fun _ _ => [⟨"STATE", 2, 0, .ro, 0, 0, 7⟩, ⟨"PTP_PORT", 6, 4, .ro, 0, 0, 7⟩, ⟨"SLEWING", 8, 8, .ro, 0, 0, 1⟩, ⟨"XB_SRC", 9, 9, .ro, 0, 0, 1⟩, ⟨"FLOOR_HOLD", 10, 10, .ro, 0, 0, 1⟩]⟩,
    ⟨"TIM_NOW_LO", 0xC008, 0x0, 1, 0, 1, false, 0x0, fun _ _ => [⟨"NS_LO_NS_HI", 31, 0, .ro, 0, 0, 4294967295⟩]⟩,
    ⟨"TIM_NOW_HI", 0xC00C, 0x0, 1, 0, 1, false, 0x0, fun _ _ => [⟨"NS_LO_NS_HI", 31, 0, .ro, 0, 0, 4294967295⟩]⟩,
    ⟨"TIM_NOW_FRAC", 0xC010, 0x0, 1, 0, 1, false, 0x0, fun _ _ => [⟨"FRAC", 15, 0, .ro, 0, 0, 65535⟩]⟩,
    ⟨"TIM_OFFSET", 0xC014, 0x0, 1, 0, 1, false, 0x0, fun _ _ => [⟨"OFFSET", 31, 0, .ro, 0, 0, 4294967295⟩]⟩,
    ⟨"TIM_SLEW", 0xC018, 0x0, 1, 0, 1, false, 0x0, fun _ _ => [⟨"SLEW_MAX", 9, 0, .rw, 500, 1, 500⟩]⟩,
    ⟨"TIM_STEP_LIMIT", 0xC01C, 0x0, 1, 0, 1, false, 0x0, fun _ _ => [⟨"STEP_LIMIT", 31, 0, .rw, 1000, 0, 4294967295⟩]⟩,
    ⟨"TIM_HOLD", 0xC020, 0x0, 1, 0, 1, false, 0x0, fun _ _ => [⟨"LOSS_INTERVALS", 7, 0, .rw, 4, 2, 255⟩]⟩,
    ⟨"TIM_TWIN_DIV", 0xC024, 0x0, 1, 0, 1, false, 0x0, fun _ _ => [⟨"TWIN_DIV", 15, 0, .rw, 1000, 50, 65535⟩]⟩,
    ⟨"TIM_FLOOR_LO", 0xC028, 0x0, 1, 0, 1, false, 0xFFFFFFFF, fun _ _ => [⟨"FLOOR", 31, 0, .ro, 0, 0, 4294967295⟩]⟩,
    ⟨"TIM_FLOOR_HI", 0xC02C, 0x0, 1, 0, 1, false, 0xFFFFFFFF, fun _ _ => [⟨"FLOOR", 31, 0, .ro, 0, 0, 4294967295⟩]⟩,
    ⟨"TIM_FLOOR_SAVE", 0xC030, 0x0, 1, 0, 1, false, 0x0, fun _ _ => [⟨"FLOOR_SAVE", 16, 0, .rw, 600, 60, 86400⟩]⟩,
    ⟨"TIM_SLOT_SEL", 0xC034, 0x0, 1, 0, 1, false, 0x0, fun _ _ => [⟨"SLOT", 8, 0, .rw, 0, 0, 511⟩]⟩,
    ⟨"TIM_SLOT_INFO", 0xC038, 0x0, 1, 0, 1, false, 0x0, fun _ _ => [⟨"ACTION", 2, 0, .ro, 0, 0, 7⟩, ⟨"PERIODIC", 3, 3, .ro, 0, 0, 1⟩, ⟨"ARMED", 4, 4, .ro, 0, 0, 1⟩, ⟨"OWNER", 15, 8, .ro, 0, 0, 255⟩, ⟨"MISSED", 31, 16, .rc, 0, 0, 65535⟩]⟩,
    ⟨"TIM_SLOT_FREE", 0xC03C, 0x0, 1, 0, 1, false, 0x0, fun _ _ => [⟨"FREE", 9, 0, .ro, 504, 0, 1023⟩]⟩,
    ⟨"TIM_PORT_DLY", 0xC040, 0x4, 8, 0, 1, false, 0x0, fun _ _ => [⟨"INGRESS", 15, 0, .rw, 0, 0, 65535⟩, ⟨"EGRESS", 31, 16, .rw, 0, 0, 65535⟩]⟩]

/-- The registers of block GLB. -/
def tblGlb : List RegDesc :=
  [ ⟨"GLB_ID", 0x0, 0x0, 1, 0, 1, false, 0x0, fun _ _ => [⟨"PART", 15, 0, .ro, 36964, 0, 65535⟩, ⟨"STEP", 23, 16, .ro, 0, 0, 255⟩]⟩,
    ⟨"GLB_CAP", 0x4, 0x0, 1, 0, 1, false, 0x0, fun _ _ => [⟨"CRINGS", 8, 0, .ro, 256, 0, 511⟩, ⟨"ERINGS", 17, 9, .ro, 256, 0, 511⟩, ⟨"SOURCES", 27, 18, .ro, 768, 0, 1023⟩]⟩,
    ⟨"GLB_SERIAL_LO", 0x8, 0x0, 1, 0, 1, false, 0x0, fun _ _ => [⟨"SERIAL", 31, 0, .ro, 0, 0, 4294967295⟩]⟩,
    ⟨"GLB_SERIAL_HI", 0xC, 0x0, 1, 0, 1, false, 0x0, fun _ _ => [⟨"SERIAL", 31, 0, .ro, 0, 0, 4294967295⟩]⟩,
    ⟨"GLB_STATUS", 0x10, 0x0, 1, 0, 1, false, 0x0, fun _ _ => [⟨"DEV_STATE", 1, 0, .ro, 0, 0, 3⟩, ⟨"ROLE", 4, 2, .ro, 4, 0, 7⟩, ⟨"TWIN_ID", 5, 5, .ro, 0, 0, 1⟩, ⟨"CLK_HOLD", 6, 6, .ro, 0, 0, 1⟩, ⟨"BOOT_DONE", 7, 7, .ro, 0, 0, 1⟩]⟩,
    ⟨"GLB_RESET", 0x14, 0x0, 1, 0, 1, false, 0x0, fun _ _ => [⟨"KEY", 31, 0, .wo, 0, 0, 4294967295⟩]⟩,
    ⟨"GLB_WDOG", 0x18, 0x0, 1, 0, 1, false, 0x0, fun _ _ => [⟨"AUTO_RESET", 0, 0, .rw, 0, 0, 1⟩, ⟨"WEDGE_TMO", 31, 16, .rw, 1000, 10, 65535⟩]⟩,
    ⟨"GLB_WEDGED", 0x1C, 0x0, 1, 0, 1, false, 0x0, fun _ _ => [⟨"WEDGED", 21, 0, .ro, 0, 0, 4194303⟩]⟩,
    ⟨"GLB_RESET_CAUSE", 0x20, 0x0, 1, 0, 1, false, 0xFFFFFFFF, fun _ _ => [⟨"POWER_ON", 0, 0, .w1c, 1, 0, 1⟩, ⟨"PIN", 1, 1, .w1c, 0, 0, 1⟩, ⟨"SOFT", 2, 2, .w1c, 0, 0, 1⟩, ⟨"WEDGE", 3, 3, .w1c, 0, 0, 1⟩, ⟨"RAIL", 4, 4, .w1c, 0, 0, 1⟩, ⟨"HOLD", 5, 5, .w1c, 0, 0, 1⟩, ⟨"DRAIN", 6, 6, .w1c, 0, 0, 1⟩, ⟨"THERM", 7, 7, .w1c, 0, 0, 1⟩]⟩]

/-- The registers of block CTL. -/
def tblCtl : List RegDesc :=
  [ ⟨"CTL_CFG", 0x10000, 0x0, 1, 0, 1, false, 0x0, fun _ _ => [⟨"EN", 0, 0, .rw, 0, 0, 1⟩]⟩,
    ⟨"CTL_RING_SEL", 0x10004, 0x0, 1, 0, 1, false, 0x0, fun _ _ => [⟨"RING", 7, 0, .rw, 0, 0, 255⟩, ⟨"TYPE", 8, 8, .rw, 0, 0, 1⟩]⟩,
    ⟨"CTL_RING_BASE_LO", 0x10008, 0x0, 1, 0, 1, false, 0x0, fun _ _ => [⟨"BASE", 31, 0, .rw, 0, 0, 4294967295⟩]⟩,
    ⟨"CTL_RING_BASE_HI", 0x1000C, 0x0, 1, 0, 1, false, 0x0, fun _ _ => [⟨"BASE", 31, 0, .rw, 0, 0, 4294967295⟩]⟩,
    ⟨"CTL_CRING_CFG", 0x10010, 0x0, 1, 0, 1, false, 0x0, fun _ _ => [⟨"ENABLE", 0, 0, .rw, 0, 0, 1⟩, ⟨"LOG2_SIZE", 4, 1, .rw, 4, 4, 12⟩, ⟨"ERING", 15, 8, .rw, 0, 0, 255⟩]⟩,
    ⟨"CTL_ERING_CFG", 0x10014, 0x0, 1, 0, 1, false, 0x0, fun _ _ => [⟨"ENABLE", 0, 0, .rw, 0, 0, 1⟩, ⟨"LOG2_SIZE", 5, 1, .rw, 4, 4, 16⟩, ⟨"VECTOR", 15, 8, .rw, 0, 0, 255⟩]⟩,
    ⟨"CTL_ERING_COAL", 0x10018, 0x0, 1, 0, 1, false, 0x0, fun _ _ => [⟨"COAL_COUNT", 7, 0, .rw, 0, 0, 255⟩, ⟨"COAL_TIME", 23, 8, .rw, 0, 0, 65535⟩]⟩,
    ⟨"CTL_RING_STATUS", 0x1001C, 0x0, 1, 0, 1, false, 0x0, fun _ _ => [⟨"INDEX", 15, 0, .ro, 0, 0, 65535⟩, ⟨"ERROR", 16, 16, .ro, 0, 0, 1⟩, ⟨"STALLED", 17, 17, .ro, 0, 0, 1⟩, ⟨"ACTIVE", 18, 18, .ro, 0, 0, 1⟩, ⟨"PHASE", 19, 19, .ro, 0, 0, 1⟩]⟩,
    ⟨"CTL_GUARD_CFG", 0x10020, 0x0, 1, 0, 1, true, 0x0, fun _ _ => [⟨"GUARD_WINDOW", 15, 0, .rw, 30, 1, 3600⟩, ⟨"NONCE_LIFE", 31, 16, .rw, 60, 1, 3600⟩]⟩]

/-- The registers of block EVT. -/
def tblEvt : List RegDesc :=
  [ ⟨"EVT_SRC_SEL", 0x14000, 0x0, 1, 0, 1, false, 0x0, fun _ _ => [⟨"SRC", 9, 0, .rw, 0, 0, 767⟩]⟩,
    ⟨"EVT_SRC_CFG", 0x14004, 0x0, 1, 0, 1, false, 0x0, fun _ _ => [⟨"RING_EN", 0, 0, .rw, 0, 0, 1⟩, ⟨"ALERT_EN", 1, 1, .rw, 1, 0, 1⟩, ⟨"ERING", 15, 8, .rw, 0, 0, 255⟩]⟩,
    ⟨"EVT_SRC_INFO", 0x14008, 0x0, 1, 0, 1, false, 0x0, fun _ _ => [⟨"CLASS", 1, 0, .ro, 0, 0, 3⟩, ⟨"PENDING", 2, 2, .ro, 0, 0, 1⟩, ⟨"COUNT", 31, 16, .ro, 0, 0, 65535⟩]⟩,
    ⟨"EVT_PEND", 0x14010, 0x4, 24, 0, 1, false, 0x0, fun _ _ => [⟨"PEND", 31, 0, .w1c, 0, 0, 4294967295⟩]⟩,
    ⟨"EVT_NMI_LAST", 0x14070, 0x0, 1, 0, 1, false, 0x0, fun _ _ => [⟨"SRC", 9, 0, .ro, 0, 0, 1023⟩, ⟨"FROM_PEER", 10, 10, .ro, 0, 0, 1⟩]⟩,
    ⟨"EVT_ALERT", 0x14074, 0x0, 1, 0, 1, false, 0x0, fun _ _ => [⟨"ALERT", 0, 0, .ro, 0, 0, 1⟩]⟩]

/-- The registers of block TCK. -/
def tblTck : List RegDesc :=
  [ ⟨"TCK_T1_MASK", 0x88000, 0x0, 1, 0, 1, true, 0x0, fun _ _ => [⟨"MASK_LO", 1, 0, .rw, 0, 0, 3⟩, ⟨"CIPHER", 2, 2, .ro, 0, 0, 1⟩, ⟨"MASK_MID", 4, 3, .rw, 0, 0, 3⟩, ⟨"SEND_RING", 6, 5, .ro, 0, 0, 3⟩, ⟨"MASK_HI", 9, 7, .rw, 0, 0, 7⟩]⟩,
    ⟨"TCK_HOOK_CFG", 0x88010, 0x4, 5, 0, 1, true, 0x0, fun _ _ => [⟨"BUDGET", 15, 0, .rw, 2000, 100, 20000⟩, ⟨"ENABLE", 16, 16, .rw, 0, 0, 1⟩, ⟨"DEFAULT_ACT", 17, 17, .rw, 0, 0, 1⟩]⟩,
    ⟨"TCK_EXT_STATUS", 0x88030, 0x0, 1, 0, 1, false, 0x0, fun _ _ => [⟨"LOADED", 0, 0, .ro, 0, 0, 1⟩, ⟨"DISABLED", 1, 1, .ro, 0, 0, 1⟩, ⟨"KEY_SLOT", 3, 2, .ro, 0, 0, 3⟩, ⟨"FAULTS", 7, 4, .ro, 0, 0, 15⟩]⟩,
    ⟨"TCK_EXT_VERSION", 0x88034, 0x0, 1, 0, 1, false, 0x0, fun _ _ => [⟨"EXT_VERSION", 31, 0, .ro, 0, 0, 4294967295⟩]⟩,
    ⟨"TCK_CLUSTER_STATUS", 0x88100, 0x4, 32, 0, 1, false, 0x0, fun _ _ => [⟨"CORE_RUN", 7, 0, .ro, 0, 0, 255⟩, ⟨"CORE_T1", 15, 8, .ro, 0, 0, 255⟩, ⟨"STOPPED", 16, 16, .ro, 0, 0, 1⟩, ⟨"ECC_CE", 31, 24, .rc, 0, 0, 255⟩]⟩,
    ⟨"TCK_PCALL_CNT", 0x88200, 0x4, 10, 0, 1, false, 0x0, fun _ _ => [⟨"CALLS", 31, 0, .rc, 0, 0, 4294967295⟩]⟩]

/-- The registers of block NET. -/
def tblNet : List RegDesc :=
  [ ⟨"NET_PORT_CFG", 0x20000, 0x1000, 8, 0, 1, false, 0x0, fun _ _ => [⟨"EN", 0, 0, .rw, 0, 0, 1⟩, ⟨"MODE", 2, 1, .rw, 0, 0, 3⟩, ⟨"MAX_FRAME", 29, 16, .rw, 4352, 1518, 9216⟩]⟩,
    ⟨"NET_PORT_OVH", 0x20004, 0x1000, 8, 0, 1, false, 0x0, fun _ _ => [⟨"OVERHEAD", 5, 0, .rw, 20, 0, 63⟩]⟩,
    ⟨"NET_PORT_STATUS", 0x20008, 0x1000, 8, 0, 1, false, 0x0, fun _ _ => [⟨"LINK", 3, 0, .ro, 0, 0, 15⟩, ⟨"TRAINING", 7, 4, .ro, 0, 0, 15⟩]⟩,
    ⟨"NET_MAC_LO", 0x20010, 0x1000, 8, 8, 4, false, 0x0, fun _ _ => [⟨"MAC_LO", 31, 0, .rw, 0, 0, 4294967295⟩]⟩,
    ⟨"NET_MAC_HI", 0x20014, 0x1000, 8, 8, 4, false, 0x0, fun _ _ => [⟨"MAC_HI", 15, 0, .rw, 0, 0, 65535⟩]⟩,
    ⟨"NET_RX_FCS_ERR", 0x20040, 0x1000, 8, 0, 1, false, 0x0, fun _ _ => [⟨"COUNT", 31, 0, .rc, 0, 0, 4294967295⟩]⟩,
    ⟨"NET_RX_DROP", 0x20044, 0x1000, 8, 0, 1, false, 0x0, fun _ _ => [⟨"COUNT", 31, 0, .rc, 0, 0, 4294967295⟩]⟩,
    ⟨"NET_FEC_UNCORR", 0x20048, 0x1000, 8, 0, 1, false, 0x0, fun _ _ => [⟨"COUNT", 31, 0, .rc, 0, 0, 4294967295⟩]⟩,
    ⟨"NET_TX_STOMP", 0x2004C, 0x1000, 8, 0, 1, false, 0x0, fun _ _ => [⟨"COUNT", 31, 0, .rc, 0, 0, 4294967295⟩]⟩,
    ⟨"NET_RX_PAUSE", 0x20050, 0x1000, 8, 0, 1, false, 0x0, fun _ _ => [⟨"COUNT", 31, 0, .rc, 0, 0, 4294967295⟩]⟩]

/-- The registers of block SWC. -/
def tblSwc : List RegDesc :=
  [ ⟨"SWC_CFG", 0x28000, 0x0, 1, 0, 1, false, 0x0, fun _ _ => [⟨"CT_EN", 0, 0, .rw, 1, 0, 1⟩]⟩,
    ⟨"SWC_RESERVE", 0x28004, 0x0, 1, 0, 1, false, 0x0, fun _ _ => [⟨"RESERVE_CELLS", 17, 0, .rw, 8192, 2048, 32768⟩]⟩,
    ⟨"SWC_BUF_STATUS", 0x28008, 0x0, 1, 0, 1, false, 0x0, fun _ _ => [⟨"FREE", 17, 0, .ro, 196608, 0, 262143⟩]⟩,
    ⟨"SWC_BUF_MIN", 0x2800C, 0x0, 1, 0, 1, false, 0x0, fun _ _ => [⟨"MIN_FREE", 17, 0, .rc, 196608, 0, 262143⟩]⟩,
    ⟨"SWC_RSEQ_CFG", 0x28010, 0x0, 1, 0, 1, false, 0x0, fun _ _ => [⟨"RX_TMO", 9, 0, .rw, 20, 1, 1000⟩, ⟨"TX_TMO", 25, 16, .rw, 20, 1, 1000⟩]⟩,
    ⟨"SWC_RSEQ_LOST", 0x28014, 0x0, 1, 0, 1, false, 0x0, fun _ _ => [⟨"RX", 15, 0, .rc, 0, 0, 65535⟩, ⟨"TX", 31, 16, .rc, 0, 0, 65535⟩]⟩,
    ⟨"SWC_RSEQ_LATE", 0x28018, 0x0, 1, 0, 1, false, 0x0, fun _ _ => [⟨"RX", 15, 0, .rc, 0, 0, 65535⟩, ⟨"TX", 31, 16, .rc, 0, 0, 65535⟩]⟩,
    ⟨"SWC_WRED_SEL", 0x28020, 0x0, 1, 0, 1, false, 0x0, fun _ _ => [⟨"PROFILE", 5, 0, .rw, 0, 0, 63⟩]⟩,
    ⟨"SWC_WRED_GREEN", 0x28024, 0x0, 1, 0, 1, false, 0x0, fun _ _ => [⟨"MIN_TH", 11, 0, .rw, 4095, 0, 4095⟩, ⟨"MAX_TH", 23, 12, .rw, 4095, 0, 4095⟩, ⟨"MAX_P", 31, 24, .rw, 0, 0, 255⟩]⟩,
    ⟨"SWC_WRED_YELLOW", 0x28028, 0x0, 1, 0, 1, false, 0x0, fun _ _ => [⟨"MIN_TH", 11, 0, .rw, 4095, 0, 4095⟩, ⟨"MAX_TH", 23, 12, .rw, 4095, 0, 4095⟩, ⟨"MAX_P", 31, 24, .rw, 0, 0, 255⟩]⟩,
    ⟨"SWC_WRED_RED", 0x2802C, 0x0, 1, 0, 1, false, 0x0, fun _ _ => [⟨"MIN_TH", 11, 0, .rw, 4095, 0, 4095⟩, ⟨"MAX_TH", 23, 12, .rw, 4095, 0, 4095⟩, ⟨"MAX_P", 31, 24, .rw, 0, 0, 255⟩]⟩,
    ⟨"SWC_WRED_CTL", 0x28030, 0x0, 1, 0, 1, false, 0x0, fun _ _ => [⟨"WEIGHT", 3, 0, .rw, 0, 0, 15⟩, ⟨"ECN_EN", 4, 4, .rw, 1, 0, 1⟩, ⟨"QMAX", 19, 8, .rw, 4095, 0, 4095⟩]⟩,
    ⟨"SWC_QPROF", 0x28100, 0x4, 296, 0, 1, false, 0x0, fun i _ => [⟨"PROFILE", 5, 0, .rw, 0, 0, 63⟩, ⟨"WRED_EN", 8, 8, (if losslessQueue i then .ro else .rw), (if i < 256 then 1 else 0), 0, 1⟩]⟩]

/-- The registers of block TBL. -/
def tblTbl : List RegDesc :=
  [ ⟨"TBL_CFG", 0x30000, 0x100, 3, 0, 1, false, 0x0, fun i _ => [⟨"EN", 0, 0, .rw, 0, 0, 1⟩, ⟨"EVICT_POLICY", 1, 1, .rw, 0, 0, 1⟩, ⟨"LOG2_SIZE", 12, 8, (if i = 2 then .ro else .rw), (if i = 0 then 14 else if i = 1 then 17 else 21), (if i = 2 then 0 else 10), (if i = 0 then 14 else if i = 1 then 17 else 31)⟩, ⟨"TICK_LOG2", 21, 16, .rw, 30, 20, 36⟩]⟩,
    ⟨"TBL_AGE", 0x30004, 0x100, 3, 0, 1, false, 0x0, fun i _ => [⟨"AGE_LIMIT", 15, 0, (if i = 2 then .ro else .rw), 0, 0, 32767⟩]⟩,
    ⟨"TBL_SWEEP", 0x30008, 0x100, 3, 0, 1, false, 0x0, fun i _ => [⟨"SWEEP_BATCH", 15, 0, (if i = 2 then .ro else .rw), (if i = 2 then 0 else 256), 1, 32768⟩, ⟨"SWEEP_PERIOD", 31, 16, (if i = 2 then .ro else .rw), (if i = 2 then 0 else 1000), 1, 65535⟩]⟩,
    ⟨"TBL_SEED0", 0x3000C, 0x100, 3, 0, 1, false, 0x0, fun _ _ => [⟨"SEED", 31, 0, .ro, 0, 0, 4294967295⟩]⟩,
    ⟨"TBL_SEED1", 0x30010, 0x100, 3, 0, 1, false, 0x0, fun _ _ => [⟨"SEED", 31, 0, .ro, 0, 0, 4294967295⟩]⟩,
    ⟨"TBL_STATUS", 0x30014, 0x100, 3, 0, 1, false, 0x0, fun _ _ => [⟨"VALID", 21, 0, .ro, 0, 0, 4194303⟩, ⟨"STASH", 26, 22, .ro, 0, 0, 31⟩, ⟨"REHASH_REQ", 27, 27, .ro, 0, 0, 1⟩, ⟨"REHASHING", 28, 28, .ro, 0, 0, 1⟩]⟩,
    ⟨"TBL_STATS_A", 0x30018, 0x100, 3, 0, 1, false, 0x0, fun _ _ => [⟨"INS_FAIL", 15, 0, .rc, 0, 0, 65535⟩, ⟨"EVICT", 31, 16, .rc, 0, 0, 65535⟩]⟩,
    ⟨"TBL_STATS_B", 0x3001C, 0x100, 3, 0, 1, false, 0x0, fun _ _ => [⟨"SERIAL", 15, 0, .rc, 0, 0, 65535⟩, ⟨"FILL", 31, 16, .rc, 0, 0, 65535⟩]⟩,
    ⟨"TBL_LEARN_CFG", 0x30400, 0x0, 1, 0, 1, false, 0x0, fun _ _ => [⟨"LEARN_PORTS", 7, 0, .rw, 0, 0, 255⟩, ⟨"FLAP_EN", 8, 8, .rw, 1, 0, 1⟩]⟩,
    ⟨"TBL_LEARN_DROP", 0x30404, 0x0, 1, 0, 1, false, 0x0, fun _ _ => [⟨"QFULL", 15, 0, .rc, 0, 0, 65535⟩, ⟨"BLOCKED", 31, 16, .rc, 0, 0, 65535⟩]⟩]

/-- The registers of block XPT. -/
def tblXpt : List RegDesc :=
  [ ⟨"XPT_CFG", 0x38000, 0x0, 1, 0, 1, true, 0x0, fun _ _ => [⟨"EN", 0, 0, .rw, 0, 0, 1⟩, ⟨"CC_EN", 1, 1, .rw, 1, 0, 1⟩, ⟨"RP_ECN", 2, 2, .rw, 1, 0, 1⟩, ⟨"PMTU_MAX", 10, 8, .rw, 5, 1, 5⟩]⟩,
    ⟨"XPT_RETRY", 0x38004, 0x0, 1, 0, 1, true, 0x0, fun _ _ => [⟨"ACK_TMO_EXP", 4, 0, .rw, 10, 1, 20⟩, ⟨"RETRY_CNT", 7, 5, .rw, 7, 1, 7⟩, ⟨"RNR_RETRY", 10, 8, .rw, 7, 0, 7⟩, ⟨"RNR_TIMER", 15, 11, .rw, 1, 0, 31⟩]⟩,
    ⟨"XPT_ACK", 0x38008, 0x0, 1, 0, 1, true, 0x0, fun _ _ => [⟨"ACK_COAL", 7, 0, .rw, 16, 1, 255⟩, ⟨"ACK_DELAY", 23, 8, .rw, 2000, 100, 65535⟩, ⟨"CQ_GATHER", 31, 24, .rw, 0, 0, 255⟩]⟩,
    ⟨"XPT_CC_A", 0x3800C, 0x0, 1, 0, 1, true, 0x0, fun _ _ => [⟨"G", 9, 0, .rw, 4, 1, 1023⟩, ⟨"F", 23, 16, .rw, 5, 1, 255⟩, ⟨"CNP_INTERVAL", 31, 24, .rw, 50, 1, 255⟩]⟩,
    ⟨"XPT_CC_B", 0x38010, 0x0, 1, 0, 1, true, 0x0, fun _ _ => [⟨"T_RI", 15, 0, .rw, 300, 1, 65535⟩, ⟨"B_RI", 31, 16, .rw, 10240, 1, 65535⟩]⟩,
    ⟨"XPT_CC_C", 0x38014, 0x0, 1, 0, 1, true, 0x0, fun _ _ => [⟨"R_AI", 15, 0, .rw, 40, 0, 65535⟩, ⟨"R_HAI", 31, 16, .rw, 200, 0, 65535⟩]⟩,
    ⟨"XPT_CC_D", 0x38018, 0x0, 1, 0, 1, true, 0x0, fun _ _ => [⟨"MIN_RATE", 15, 0, .rw, 100, 10, 65535⟩, ⟨"ALPHA_PERIOD", 31, 16, .rw, 55, 1, 65535⟩]⟩,
    ⟨"XPT_TMO", 0x3801C, 0x0, 1, 0, 1, true, 0x0, fun _ _ => [⟨"KEY_TMO", 11, 0, .rw, 500, 10, 4095⟩, ⟨"CM_TMO", 23, 12, .rw, 1000, 10, 4095⟩, ⟨"QUIET_TMO", 31, 24, .rw, 10, 1, 255⟩]⟩,
    ⟨"XPT_WHEEL", 0x38020, 0x0, 1, 0, 1, true, 0x0, fun _ _ => [⟨"WHEEL_TICK", 5, 0, .rw, 1, 1, 63⟩]⟩,
    ⟨"XPT_CTX_STATUS", 0x38024, 0x0, 1, 0, 1, false, 0x0, fun _ _ => [⟨"OPEN", 16, 0, .ro, 0, 0, 131071⟩, ⟨"RESIDENT", 30, 17, .ro, 0, 0, 16383⟩]⟩,
    ⟨"XPT_PARK_STATUS", 0x38028, 0x0, 1, 0, 1, false, 0x0, fun _ _ => [⟨"PARKED", 14, 0, .ro, 0, 0, 32767⟩, ⟨"FULL_NAK", 31, 16, .rc, 0, 0, 65535⟩]⟩,
    ⟨"XPT_RETX", 0x38030, 0x0, 1, 0, 1, false, 0x0, fun _ _ => [⟨"COUNT", 31, 0, .rc, 0, 0, 4294967295⟩]⟩,
    ⟨"XPT_HOLLOW", 0x38034, 0x0, 1, 0, 1, false, 0x0, fun _ _ => [⟨"COUNT", 31, 0, .rc, 0, 0, 4294967295⟩]⟩,
    ⟨"XPT_SUBST_CPL", 0x38038, 0x0, 1, 0, 1, false, 0x0, fun _ _ => [⟨"COUNT", 31, 0, .rc, 0, 0, 4294967295⟩]⟩,
    ⟨"XPT_DUP_RX", 0x3803C, 0x0, 1, 0, 1, false, 0x0, fun _ _ => [⟨"COUNT", 31, 0, .rc, 0, 0, 4294967295⟩]⟩,
    ⟨"XPT_ESP_DROP", 0x38040, 0x0, 1, 0, 1, false, 0x0, fun _ _ => [⟨"COUNT", 31, 0, .rc, 0, 0, 4294967295⟩]⟩,
    ⟨"XPT_KEY_FAIL", 0x38044, 0x0, 1, 0, 1, false, 0x0, fun _ _ => [⟨"COUNT", 31, 0, .rc, 0, 0, 4294967295⟩]⟩,
    ⟨"XPT_ACCESS_DENIED", 0x38048, 0x0, 1, 0, 1, false, 0x0, fun _ _ => [⟨"COUNT", 31, 0, .rc, 0, 0, 4294967295⟩]⟩,
    ⟨"XPT_MKEY_REFUSED", 0x3804C, 0x0, 1, 0, 1, false, 0x0, fun _ _ => [⟨"COUNT", 31, 0, .rc, 0, 0, 4294967295⟩]⟩,
    ⟨"XPT_CNP_TX", 0x38050, 0x0, 1, 0, 1, false, 0x0, fun _ _ => [⟨"COUNT", 31, 0, .rc, 0, 0, 4294967295⟩]⟩,
    ⟨"XPT_CNP_RX", 0x38054, 0x0, 1, 0, 1, false, 0x0, fun _ _ => [⟨"COUNT", 31, 0, .rc, 0, 0, 4294967295⟩]⟩,
    ⟨"XPT_IP_ADDR", 0x38100, 0x20, 16, 4, 4, false, 0x0, fun _ _ => [⟨"ADDR", 31, 0, .rw, 0, 0, 4294967295⟩]⟩,
    ⟨"XPT_IP_CFG", 0x38110, 0x20, 16, 0, 1, false, 0x0, fun _ _ => [⟨"VALID", 0, 0, .rw, 0, 0, 1⟩, ⟨"DISC_PLAIN", 1, 1, .rw, 0, 0, 1⟩, ⟨"PORT", 4, 2, .rw, 0, 0, 7⟩, ⟨"SUB", 6, 5, .rw, 0, 0, 3⟩, ⟨"PREFIX", 15, 8, .rw, 0, 0, 128⟩]⟩]

/-- The registers of block QOS. -/
def tblQos : List RegDesc :=
  [ ⟨"QOS_CFG", 0x40000, 0x0, 1, 0, 1, true, 0x0, fun _ _ => [⟨"TRUST_PCP", 0, 0, .rw, 0, 0, 1⟩, ⟨"CTRL_CLASS", 3, 1, .rw, 7, 0, 7⟩]⟩,
    ⟨"QOS_DSCP", 0x40010, 0x4, 16, 0, 1, true, 0x0, fun _ _ => [⟨"CLASS_0", 2, 0, .rw, 0, 0, 7⟩, ⟨"COLOUR_0", 4, 3, .rw, 0, 0, 2⟩, ⟨"CLASS_1", 10, 8, .rw, 0, 0, 7⟩, ⟨"COLOUR_1", 12, 11, .rw, 0, 0, 2⟩, ⟨"CLASS_2", 18, 16, .rw, 0, 0, 7⟩, ⟨"COLOUR_2", 20, 19, .rw, 0, 0, 2⟩, ⟨"CLASS_3", 26, 24, .rw, 0, 0, 7⟩, ⟨"COLOUR_3", 28, 27, .rw, 0, 0, 2⟩]⟩,
    ⟨"QOS_PORT_SCHED", 0x40100, 0x10, 8, 0, 1, true, 0x0, fun _ _ => [⟨"SP_MASK", 7, 0, .rw, 128, 0, 255⟩, ⟨"HOLD_START", 15, 8, .rw, 0, 0, 255⟩]⟩,
    ⟨"QOS_PORT_WT_LO", 0x40104, 0x10, 8, 0, 1, true, 0x0, fun _ _ => [⟨"WEIGHT_0", 7, 0, .rw, 1, 0, 255⟩, ⟨"WEIGHT_1", 15, 8, .rw, 1, 0, 255⟩, ⟨"WEIGHT_2", 23, 16, .rw, 1, 0, 255⟩, ⟨"WEIGHT_3", 31, 24, .rw, 1, 0, 255⟩]⟩,
    ⟨"QOS_PORT_WT_HI", 0x40108, 0x10, 8, 0, 1, true, 0x0, fun _ _ => [⟨"WEIGHT_0", 7, 0, .rw, 1, 0, 255⟩, ⟨"WEIGHT_1", 15, 8, .rw, 1, 0, 255⟩, ⟨"WEIGHT_2", 23, 16, .rw, 1, 0, 255⟩, ⟨"WEIGHT_3", 31, 24, .rw, 1, 0, 255⟩]⟩,
    ⟨"QOS_SLALOM_STATUS", 0x40200, 0x4, 12, 0, 1, true, 0x0, fun _ _ => [⟨"GATES", 7, 0, .ro, 255, 0, 255⟩, ⟨"ENTRY", 15, 8, .ro, 0, 0, 255⟩, ⟨"ENABLED", 16, 16, .ro, 0, 0, 1⟩, ⟨"PENDING", 17, 17, .ro, 0, 0, 1⟩, ⟨"GUARD", 18, 18, .ro, 0, 0, 1⟩, ⟨"UNIT", 20, 19, .ro, 0, 0, 3⟩]⟩,
    ⟨"QOS_GROOM_RATE", 0x40300, 0x4, 4, 0, 1, true, 0x0, fun i _ => [⟨"RATE", 23, 0, (if i = 3 then .ro else .rw), (if i = 1 then 100000 else if i = 2 then 10000 else 0), 0, 16777215⟩]⟩,
    ⟨"QOS_POL_SEL", 0x40400, 0x0, 1, 0, 1, true, 0x0, fun _ _ => [⟨"INDEX", 13, 0, .rw, 0, 0, 16383⟩, ⟨"STRICT", 14, 14, .rw, 0, 0, 1⟩]⟩,
    ⟨"QOS_POL_CNT_G", 0x40404, 0x0, 1, 0, 1, true, 0x0, fun _ _ => [⟨"COUNT", 31, 0, .rc, 0, 0, 4294967295⟩]⟩,
    ⟨"QOS_POL_CNT_Y", 0x40408, 0x0, 1, 0, 1, true, 0x0, fun _ _ => [⟨"COUNT", 31, 0, .rc, 0, 0, 4294967295⟩]⟩,
    ⟨"QOS_POL_CNT_R", 0x4040C, 0x0, 1, 0, 1, true, 0x0, fun _ _ => [⟨"COUNT", 31, 0, .rc, 0, 0, 4294967295⟩]⟩]

/-- The registers of block CMD. -/
def tblCmd : List RegDesc :=
  [ ⟨"CMD_CFG", 0x48000, 0x0, 1, 0, 1, true, 0x0, fun _ _ => [⟨"EN", 0, 0, .rw, 0, 0, 1⟩]⟩,
    ⟨"CMD_SUBSYS_ID_LO", 0x48004, 0x0, 1, 0, 1, true, 0x0, fun _ _ => [⟨"SUBSYS_ID", 31, 0, .rw, 0, 0, 4294967295⟩]⟩,
    ⟨"CMD_SUBSYS_ID_HI", 0x48008, 0x0, 1, 0, 1, true, 0x0, fun _ _ => [⟨"SUBSYS_ID", 31, 0, .rw, 0, 0, 4294967295⟩]⟩,
    ⟨"CMD_LIMITS", 0x4800C, 0x0, 1, 0, 1, true, 0x0, fun _ _ => [⟨"MAX_IOQ", 6, 0, .rw, 64, 1, 64⟩, ⟨"MAX_QD", 26, 16, .rw, 1024, 2, 1024⟩]⟩,
    ⟨"CMD_DIRTY_CAP", 0x48010, 0x0, 1, 0, 1, true, 0x0, fun _ _ => [⟨"DIRTY_CAP", 23, 0, .rw, 0, 0, 16777215⟩]⟩,
    ⟨"CMD_DIRTY_STATUS", 0x48014, 0x0, 1, 0, 1, false, 0x0, fun _ _ => [⟨"DIRTY", 23, 0, .ro, 0, 0, 16777215⟩, ⟨"HELD", 24, 24, .ro, 0, 0, 1⟩, ⟨"WRITE_THROUGH", 25, 25, .ro, 1, 0, 1⟩]⟩,
    ⟨"CMD_TAGS", 0x48018, 0x0, 1, 0, 1, false, 0x0, fun _ _ => [⟨"FREE", 16, 0, .ro, 65536, 0, 131071⟩]⟩,
    ⟨"CMD_TAGS_MIN", 0x4801C, 0x0, 1, 0, 1, false, 0x0, fun _ _ => [⟨"MIN_FREE", 16, 0, .rc, 65536, 0, 131071⟩]⟩,
    ⟨"CMD_FROZEN", 0x48020, 0x0, 1, 0, 1, false, 0x0, fun _ _ => [⟨"FROZEN", 16, 0, .ro, 0, 0, 131071⟩]⟩,
    ⟨"CMD_FROZEN_CPL", 0x48024, 0x0, 1, 0, 1, false, 0x0, fun _ _ => [⟨"COUNT", 31, 0, .rc, 0, 0, 4294967295⟩]⟩,
    ⟨"CMD_CID_CONFLICT", 0x48028, 0x0, 1, 0, 1, false, 0x0, fun _ _ => [⟨"COUNT", 31, 0, .rc, 0, 0, 4294967295⟩]⟩,
    ⟨"CMD_KATO_EXP", 0x4802C, 0x0, 1, 0, 1, false, 0x0, fun _ _ => [⟨"COUNT", 31, 0, .rc, 0, 0, 4294967295⟩]⟩,
    ⟨"CMD_CTRL_RESET", 0x48030, 0x0, 1, 0, 1, false, 0x0, fun _ _ => [⟨"COUNT", 31, 0, .rc, 0, 0, 4294967295⟩]⟩]

/-- The registers of block LAY. -/
def tblLay : List RegDesc :=
  [ ⟨"LAY_GEOM", 0x50000, 0x0, 1, 0, 1, true, 0x0, fun _ _ => [⟨"K", 4, 0, .rw, 8, 1, 31⟩, ⟨"M", 7, 5, .rw, 2, 1, 4⟩, ⟨"STRIP", 10, 8, .rw, 2, 0, 4⟩, ⟨"SPARE_EQ", 14, 12, .rw, 1, 0, 4⟩, ⟨"N", 22, 16, .rw, 0, 16, 64⟩]⟩,
    ⟨"LAY_SEED", 0x50004, 0x0, 1, 0, 1, true, 0x0, fun _ _ => [⟨"SEED", 31, 0, .rw, 0, 0, 4294967295⟩]⟩,
    ⟨"LAY_CTL", 0x50008, 0x0, 1, 0, 1, true, 0x0, fun _ _ => [⟨"BUILD", 0, 0, .w1s, 0, 0, 1⟩, ⟨"READY", 1, 1, .ro, 0, 0, 1⟩]⟩,
    ⟨"LAY_BANDS", 0x5000C, 0x0, 1, 0, 1, true, 0x0, fun _ _ => [⟨"B", 23, 0, .ro, 0, 0, 16777215⟩]⟩,
    ⟨"LAY_SPARE_Q", 0x50010, 0x0, 1, 0, 1, true, 0x0, fun _ _ => [⟨"Q", 15, 0, .ro, 0, 0, 65535⟩]⟩,
    ⟨"LAY_ALLOC", 0x50014, 0x0, 1, 0, 1, true, 0x0, fun _ _ => [⟨"COUNT", 31, 0, .ro, 0, 0, 4294967295⟩]⟩,
    ⟨"LAY_FREE", 0x50018, 0x0, 1, 0, 1, true, 0x0, fun _ _ => [⟨"COUNT", 31, 0, .ro, 0, 0, 4294967295⟩]⟩,
    ⟨"LAY_FREE_WARN", 0x5001C, 0x0, 1, 0, 1, true, 0x0, fun _ _ => [⟨"FREE_WARN", 31, 0, .rw, 4096, 0, 4294967295⟩]⟩,
    ⟨"LAY_MAP_GEN", 0x50020, 0x0, 1, 0, 1, true, 0x0, fun _ _ => [⟨"GEN", 31, 0, .ro, 0, 0, 4294967295⟩]⟩,
    ⟨"LAY_SAFE_GEN", 0x50024, 0x0, 1, 0, 1, true, 0x0, fun _ _ => [⟨"GEN", 31, 0, .ro, 0, 0, 4294967295⟩]⟩,
    ⟨"LAY_FULL", 0x50028, 0x0, 1, 0, 1, true, 0x0, fun _ _ => [⟨"COUNT", 31, 0, .rc, 0, 0, 4294967295⟩]⟩,
    ⟨"LAY_RCW", 0x5002C, 0x0, 1, 0, 1, true, 0x0, fun _ _ => [⟨"COUNT", 31, 0, .rc, 0, 0, 4294967295⟩]⟩,
    ⟨"LAY_RMW", 0x50030, 0x0, 1, 0, 1, true, 0x0, fun _ _ => [⟨"COUNT", 31, 0, .rc, 0, 0, 4294967295⟩]⟩,
    ⟨"LAY_DEGRADED", 0x50034, 0x0, 1, 0, 1, true, 0x0, fun _ _ => [⟨"COUNT", 31, 0, .rc, 0, 0, 4294967295⟩]⟩,
    ⟨"LAY_MEMBER", 0x50100, 0x4, 64, 0, 1, true, 0x0, fun i _ => [⟨"PORT", 5, 0, .rw, i, 0, 63⟩, ⟨"STATE", 10, 8, .ro, 4, 0, 7⟩]⟩,
    ⟨"LAY_RB_CFG", 0x50200, 0x0, 1, 0, 1, true, 0x0, fun _ _ => [⟨"AUTO_DRAIN", 0, 0, .rw, 0, 0, 1⟩, ⟨"MEDIA_SUSPECT", 15, 8, .rw, 16, 1, 255⟩]⟩,
    ⟨"LAY_RB_DETECT", 0x50204, 0x0, 1, 0, 1, true, 0x0, fun _ _ => [⟨"CMD_TMO", 15, 0, .rw, 8000, 100, 60000⟩, ⟨"LINK_HOLD", 27, 16, .rw, 100, 0, 4095⟩]⟩,
    ⟨"LAY_RB_STATUS", 0x50208, 0x0, 1, 0, 1, true, 0x0, fun _ _ => [⟨"RUNNING", 0, 0, .ro, 0, 0, 1⟩, ⟨"SPARE_OUT", 1, 1, .ro, 0, 0, 1⟩, ⟨"SUSPECT_SCRUB", 2, 2, .ro, 0, 0, 1⟩, ⟨"SCRUB_RUNNING", 3, 3, .ro, 0, 0, 1⟩]⟩,
    ⟨"LAY_RB_LEFT_CRIT", 0x5020C, 0x0, 1, 0, 1, true, 0x0, fun _ _ => [⟨"EXTENTS", 31, 0, .ro, 0, 0, 4294967295⟩]⟩,
    ⟨"LAY_RB_LEFT", 0x50210, 0x0, 1, 0, 1, true, 0x0, fun _ _ => [⟨"EXTENTS", 31, 0, .ro, 0, 0, 4294967295⟩]⟩,
    ⟨"LAY_SPARE_FREE", 0x50214, 0x0, 1, 0, 1, true, 0x0, fun _ _ => [⟨"FREE", 15, 0, .ro, 0, 0, 65535⟩]⟩,
    ⟨"LAY_LSM_STATUS", 0x50218, 0x0, 1, 0, 1, true, 0x0, fun _ _ => [⟨"ENTRIES", 20, 0, .ro, 0, 0, 2097151⟩, ⟨"COARSE", 21, 21, .ro, 0, 0, 1⟩]⟩,
    ⟨"LAY_SCRUB_CFG", 0x5021C, 0x0, 1, 0, 1, true, 0x0, fun _ _ => [⟨"AUTO", 0, 0, .rw, 1, 0, 1⟩, ⟨"MODE", 1, 1, .rw, 0, 0, 1⟩, ⟨"PERIOD", 15, 8, .rw, 30, 1, 255⟩]⟩,
    ⟨"LAY_SCRUB_PROGRESS", 0x50220, 0x0, 1, 0, 1, true, 0x0, fun _ _ => [⟨"EXTENTS", 31, 0, .ro, 0, 0, 4294967295⟩]⟩,
    ⟨"LAY_RB_DONE", 0x50224, 0x0, 1, 0, 1, true, 0x0, fun _ _ => [⟨"COUNT", 31, 0, .rc, 0, 0, 4294967295⟩]⟩,
    ⟨"LAY_SCRUB_MISMATCH", 0x50228, 0x0, 1, 0, 1, true, 0x0, fun _ _ => [⟨"COUNT", 31, 0, .rc, 0, 0, 4294967295⟩]⟩,
    ⟨"LAY_SCRUB_REPAIR", 0x5022C, 0x0, 1, 0, 1, true, 0x0, fun _ _ => [⟨"COUNT", 31, 0, .rc, 0, 0, 4294967295⟩]⟩,
    ⟨"LAY_MEDIA_REPAIR", 0x50230, 0x0, 1, 0, 1, true, 0x0, fun _ _ => [⟨"COUNT", 31, 0, .rc, 0, 0, 4294967295⟩]⟩,
    ⟨"LAY_LOST_BLOCKS", 0x50234, 0x0, 1, 0, 1, true, 0x0, fun _ _ => [⟨"COUNT", 31, 0, .rc, 0, 0, 4294967295⟩]⟩,
    ⟨"LAY_MEMBER_ERR", 0x50300, 0x4, 64, 0, 1, true, 0x0, fun _ _ => [⟨"MEDIA", 15, 0, .rc, 0, 0, 65535⟩, ⟨"TMO", 23, 16, .rc, 0, 0, 255⟩]⟩]

/-- The registers of block SBG. -/
def tblSbg : List RegDesc :=
  [ ⟨"SBG_CFG", 0x58000, 0x0, 1, 0, 1, true, 0x0, fun _ _ => [⟨"GATHER", 15, 0, .rw, 2000, 0, 65535⟩]⟩,
    ⟨"SBG_STATUS", 0x58004, 0x0, 1, 0, 1, true, 0x0, fun _ _ => [⟨"OPEN", 20, 0, .ro, 0, 0, 2097151⟩, ⟨"FULL", 21, 21, .ro, 0, 0, 1⟩, ⟨"COPIES_LOW", 22, 22, .ro, 0, 0, 1⟩, ⟨"REPLAYING", 23, 23, .ro, 0, 0, 1⟩]⟩,
    ⟨"SBG_SEQ_LO", 0x58008, 0x0, 1, 0, 1, true, 0x0, fun _ _ => [⟨"SEQ", 31, 0, .ro, 0, 0, 4294967295⟩]⟩,
    ⟨"SBG_SEQ_HI", 0x5800C, 0x0, 1, 0, 1, true, 0x0, fun _ _ => [⟨"SEQ", 31, 0, .ro, 0, 0, 4294967295⟩]⟩,
    ⟨"SBG_REPLAY", 0x58010, 0x0, 1, 0, 1, true, 0x0, fun _ _ => [⟨"REPLAYED", 15, 0, .rc, 0, 0, 65535⟩, ⟨"REPAIRED", 31, 16, .rc, 0, 0, 65535⟩]⟩,
    ⟨"SBG_SEG", 0x58100, 0x4, 64, 0, 1, true, 0x0, fun _ _ => [⟨"MEMBER0", 5, 0, .ro, 0, 0, 63⟩, ⟨"MEMBER1", 13, 8, .ro, 0, 0, 63⟩, ⟨"MEMBER2", 21, 16, .ro, 0, 0, 63⟩, ⟨"CURRENT", 26, 24, .ro, 0, 0, 7⟩]⟩]

/-- The registers of block DRV. -/
def tblDrv : List RegDesc :=
  [ ⟨"DRV_CFG", 0x60000, 0x0, 1, 0, 1, false, 0x0, fun _ _ => [⟨"WIDTH", 0, 0, .rw, 0, 0, 1⟩, ⟨"MAX_RATE", 2, 1, .rw, 2, 0, 2⟩, ⟨"SSC", 3, 3, .rw, 0, 0, 1⟩]⟩,
    ⟨"DRV_PORT_CFG", 0x60100, 0x4, 64, 0, 1, false, 0x0, fun _ _ => [⟨"EN", 0, 0, .rw, 0, 0, 1⟩, ⟨"QUEUES", 8, 1, .rw, 32, 1, 255⟩, ⟨"QDEPTH", 19, 9, .rw, 256, 64, 1024⟩]⟩,
    ⟨"DRV_PORT_STATUS", 0x60200, 0x4, 64, 0, 1, false, 0x0, fun _ _ => [⟨"LINK_UP", 0, 0, .ro, 0, 0, 1⟩, ⟨"RATE", 2, 1, .ro, 0, 0, 3⟩, ⟨"LANES", 5, 3, .ro, 0, 0, 7⟩, ⟨"DPC", 6, 6, .ro, 0, 0, 1⟩, ⟨"REQ_OK", 7, 7, .ro, 0, 0, 1⟩, ⟨"QGRANT", 15, 8, .ro, 0, 0, 255⟩]⟩,
    ⟨"DRV_AER_CNT", 0x60300, 0x4, 64, 0, 1, false, 0x0, fun _ _ => [⟨"CORR", 15, 0, .rc, 0, 0, 65535⟩, ⟨"UNCORR", 31, 16, .rc, 0, 0, 65535⟩]⟩,
    ⟨"DRV_QP_FREE", 0x60400, 0x0, 1, 0, 1, false, 0x0, fun _ _ => [⟨"FREE", 13, 0, .ro, 8192, 0, 16383⟩]⟩]

/-- The registers of block STR. -/
def tblStr : List RegDesc :=
  [ ⟨"STR_CFG", 0x68000, 0x0, 1, 0, 1, true, 0xFFFFFFFF, fun _ _ => [⟨"PG_DLY", 7, 0, .rw, 16, 1, 255⟩, ⟨"PERST_DLY", 15, 8, .rw, 100, 100, 255⟩, ⟨"SHUT_TMO", 23, 16, .rw, 50, 1, 255⟩]⟩,
    ⟨"STR_SLOT_CFG", 0x68100, 0x4, 64, 0, 1, false, 0xFFFFFFFF, fun _ _ => [⟨"RAMP_MS", 5, 0, .ro, 10, 0, 63⟩, ⟨"RETRY", 8, 6, .ro, 0, 0, 7⟩, ⟨"COOL", 13, 9, .ro, 5, 0, 31⟩, ⟨"AUX_FN", 15, 14, .ro, 0, 0, 3⟩, ⟨"RAMP_TMO", 25, 16, .ro, 20, 0, 1023⟩, ⟨"LOCATE", 26, 26, .ro, 0, 0, 1⟩]⟩,
    ⟨"STR_SLOT_LIM", 0x68200, 0x4, 64, 0, 1, false, 0xFFFFFFFF, fun _ _ => [⟨"FT_TH", 7, 0, .ro, 64, 0, 255⟩, ⟨"BRK_TH", 15, 8, .ro, 60, 0, 255⟩, ⟨"INRUSH_LIM", 23, 16, .ro, 30, 0, 255⟩, ⟨"FAULT_TMR", 31, 24, .ro, 20, 0, 255⟩]⟩,
    ⟨"STR_SLOT_STATUS", 0x68300, 0x4, 64, 0, 1, false, 0xFFFFFFFF, fun _ _ => [⟨"STATE", 2, 0, .ro, 0, 0, 7⟩, ⟨"PG", 3, 3, .ro, 0, 0, 1⟩, ⟨"PFW", 4, 4, .ro, 0, 0, 1⟩, ⟨"GATE", 5, 5, .ro, 0, 0, 1⟩, ⟨"PRSNT", 6, 6, .ro, 0, 0, 1⟩, ⟨"PERST", 7, 7, .ro, 1, 0, 1⟩, ⟨"RETRIES_USED", 10, 8, .ro, 0, 0, 7⟩, ⟨"CAUSE", 13, 11, .ro, 0, 0, 7⟩]⟩,
    ⟨"STR_SLOT_MEAS", 0x68400, 0x4, 64, 0, 1, false, 0xFFFFFFFF, fun _ _ => [⟨"IOUT", 11, 0, .ro, 0, 0, 4095⟩, ⟨"VOUT", 27, 16, .ro, 0, 0, 4095⟩]⟩,
    ⟨"STR_SLOT_PEAK", 0x68500, 0x4, 64, 0, 1, false, 0xFFFFFFFF, fun _ _ => [⟨"PEAK", 11, 0, .rc, 0, 0, 4095⟩, ⟨"TRIPS", 31, 24, .rc, 0, 0, 255⟩]⟩]

/-- The registers of block SBD. -/
def tblSbd : List RegDesc :=
  [ ⟨"SBD_PRSNT_CFG", 0x98000, 0x0, 1, 0, 1, false, 0x0, fun _ _ => [⟨"PRSNT_DEB", 7, 0, .rw, 50, 1, 255⟩]⟩,
    ⟨"SBD_PRSNT_LO", 0x98004, 0x0, 1, 0, 1, false, 0x0, fun _ _ => [⟨"PRSNT", 31, 0, .ro, 0, 0, 4294967295⟩]⟩,
    ⟨"SBD_PRSNT_HI", 0x98008, 0x0, 1, 0, 1, false, 0x0, fun _ _ => [⟨"PRSNT", 31, 0, .ro, 0, 0, 4294967295⟩]⟩,
    ⟨"SBD_STRAP", 0x98010, 0x0, 1, 0, 1, false, 0x0, fun _ _ => [⟨"TWIN_ID", 0, 0, .ro, 0, 0, 1⟩]⟩,
    ⟨"SBD_I3C_CFG", 0x98100, 0x4, 8, 0, 1, false, 0x0, fun _ _ => [⟨"EN", 0, 0, .rw, 0, 0, 1⟩, ⟨"RATE", 2, 1, .rw, 0, 0, 2⟩, ⟨"I2C_FM", 3, 3, .rw, 1, 0, 1⟩]⟩,
    ⟨"SBD_I3C_ERR", 0x98200, 0x4, 8, 0, 1, false, 0x0, fun _ _ => [⟨"NACK", 15, 0, .rc, 0, 0, 65535⟩, ⟨"IBI", 31, 16, .rc, 0, 0, 65535⟩]⟩]

/-- The registers of block HRN. -/
def tblHrn : List RegDesc :=
  [ ⟨"HRN_CFG", 0x70000, 0x0, 1, 0, 1, false, 0x0, fun _ _ => [⟨"EN", 0, 0, .rw, 0, 0, 1⟩, ⟨"TWIN_FITTED", 1, 1, .rw, 1, 0, 1⟩, ⟨"AUTO_JOIN", 2, 2, .rw, 1, 0, 1⟩, ⟨"ARB5", 3, 3, .rw, 0, 0, 1⟩]⟩,
    ⟨"HRN_TLAG", 0x70004, 0x0, 1, 0, 1, true, 0x0, fun _ _ => [⟨"T_LAG", 5, 0, .rw, 8, 2, 50⟩]⟩,
    ⟨"HRN_SILENCE", 0x70008, 0x0, 1, 0, 1, true, 0x0, fun _ _ => [⟨"SILENCE", 9, 0, .rw, 10, 2, 1000⟩, ⟨"QUORUM_DLY", 25, 16, .rw, 40, 10, 1000⟩]⟩,
    ⟨"HRN_ARB_CFG", 0x7000C, 0x0, 1, 0, 1, true, 0x0, fun _ _ => [⟨"ARB_CMD_TMO", 9, 0, .rw, 100, 20, 1000⟩, ⟨"ARB_RETRY", 29, 16, .rw, 100, 10, 10000⟩]⟩,
    ⟨"HRN_DIG", 0x70010, 0x0, 1, 0, 1, true, 0x0, fun _ _ => [⟨"DIG_WAIT", 13, 0, .rw, 1000, 100, 10000⟩]⟩,
    ⟨"HRN_JOIN_RATE", 0x70014, 0x0, 1, 0, 1, true, 0x0, fun _ _ => [⟨"JOIN_RATE", 8, 0, .rw, 100, 1, 375⟩]⟩,
    ⟨"HRN_CLAIM", 0x70018, 0x0, 1, 0, 1, false, 0x0, fun _ _ => [⟨"KEY", 31, 0, .wo, 0, 0, 4294967295⟩]⟩,
    ⟨"HRN_EPOCH", 0x70020, 0x0, 1, 0, 1, false, 0xFFFFFFFF, fun _ _ => [⟨"EPOCH", 31, 0, .ro, 0, 0, 4294967295⟩]⟩,
    ⟨"HRN_DEVTAG", 0x70024, 0x0, 1, 0, 1, false, 0x0, fun _ _ => [⟨"DEVICE_TAG", 23, 0, .ro, 0, 0, 16777215⟩]⟩,
    ⟨"HRN_ARB", 0x70028, 0x0, 1, 0, 1, false, 0x0, fun _ _ => [⟨"MEMBERS", 29, 0, .ro, 0, 0, 1073741823⟩]⟩,
    ⟨"HRN_STATUS", 0x70040, 0x0, 1, 0, 1, false, 0x0, fun _ _ => [⟨"ROLE", 2, 0, .ro, 4, 0, 7⟩, ⟨"HOLDER", 3, 3, .ro, 0, 0, 1⟩, ⟨"LINK", 4, 4, .ro, 0, 0, 1⟩, ⟨"LANES", 6, 5, .ro, 0, 0, 3⟩, ⟨"SILENT", 7, 7, .ro, 0, 0, 1⟩, ⟨"CAUSE", 10, 8, .ro, 0, 0, 7⟩, ⟨"JOINING_PEER", 11, 11, .ro, 0, 0, 1⟩]⟩,
    ⟨"HRN_JOIN_STATUS", 0x70044, 0x0, 1, 0, 1, false, 0x0, fun _ _ => [⟨"PERCENT", 6, 0, .ro, 0, 0, 127⟩]⟩,
    ⟨"HRN_ORD", 0x70048, 0x0, 1, 0, 1, false, 0x0, fun _ _ => [⟨"OUTSTANDING", 17, 0, .ro, 0, 0, 262143⟩]⟩,
    ⟨"HRN_LAST_SWAP_LO", 0x70050, 0x0, 1, 0, 1, false, 0xFFFFFFFF, fun _ _ => [⟨"TIME", 31, 0, .ro, 0, 0, 4294967295⟩]⟩,
    ⟨"HRN_LAST_SWAP_HI", 0x70054, 0x0, 1, 0, 1, false, 0xFFFFFFFF, fun _ _ => [⟨"TIME", 31, 0, .ro, 0, 0, 4294967295⟩]⟩,
    ⟨"HRN_DIG_WINDOWS", 0x70060, 0x0, 1, 0, 1, false, 0x0, fun _ _ => [⟨"COUNT", 31, 0, .rc, 0, 0, 4294967295⟩]⟩,
    ⟨"HRN_DIG_MISMATCH", 0x70064, 0x0, 1, 0, 1, false, 0x0, fun _ _ => [⟨"COUNT", 31, 0, .rc, 0, 0, 4294967295⟩]⟩,
    ⟨"HRN_DIG_LATE", 0x70068, 0x0, 1, 0, 1, false, 0x0, fun _ _ => [⟨"COUNT", 31, 0, .rc, 0, 0, 4294967295⟩]⟩,
    ⟨"HRN_TLAG_DROP", 0x7006C, 0x0, 1, 0, 1, false, 0x0, fun _ _ => [⟨"COUNT", 31, 0, .rc, 0, 0, 4294967295⟩]⟩,
    ⟨"HRN_FLIT_REPLAY", 0x70070, 0x0, 1, 0, 1, false, 0x0, fun _ _ => [⟨"COUNT", 31, 0, .rc, 0, 0, 4294967295⟩]⟩,
    ⟨"HRN_FLIT_BAD", 0x70074, 0x0, 1, 0, 1, false, 0x0, fun _ _ => [⟨"COUNT", 31, 0, .rc, 0, 0, 4294967295⟩]⟩,
    ⟨"HRN_ARB_ROUNDS", 0x70078, 0x0, 1, 0, 1, false, 0x0, fun _ _ => [⟨"COUNT", 31, 0, .rc, 0, 0, 4294967295⟩]⟩]

/-- The registers of block CPH. -/
def tblCph : List RegDesc :=
  [ ⟨"CPH_CFG", 0x78000, 0x0, 1, 0, 1, false, 0x0, fun _ _ => [⟨"BG_SLOTS", 13, 0, .rw, 2048, 0, 8192⟩, ⟨"MM_WINDOW", 23, 16, .rw, 1, 1, 255⟩]⟩,
    ⟨"CPH_HOLD_STATUS", 0x78004, 0x0, 1, 0, 1, false, 0x0, fun _ _ => [⟨"FREE", 13, 0, .ro, 15104, 0, 16383⟩, ⟨"BG_USED", 27, 14, .ro, 0, 0, 16383⟩]⟩,
    ⟨"CPH_HOLD_MIN", 0x78008, 0x0, 1, 0, 1, false, 0x0, fun _ _ => [⟨"MIN_FREE", 13, 0, .rc, 15104, 0, 16383⟩]⟩,
    ⟨"CPH_PIPE_STATUS", 0x7800C, 0x0, 1, 0, 1, false, 0x0, fun _ _ => [⟨"REST_EN", 15, 0, .ro, 65535, 0, 65535⟩, ⟨"WIRE_EN", 31, 16, .ro, 65535, 0, 65535⟩]⟩,
    ⟨"CPH_PREFIX", 0x78010, 0x0, 1, 0, 1, false, 0x0, fun _ _ => [⟨"PREFIX", 31, 0, .ro, 0, 0, 4294967295⟩]⟩,
    ⟨"CPH_CTR_LO", 0x78014, 0x0, 1, 0, 1, false, 0xFFFFFFFF, fun _ _ => [⟨"CTR", 31, 0, .ro, 0, 0, 4294967295⟩]⟩,
    ⟨"CPH_CTR_HI", 0x78018, 0x0, 1, 0, 1, false, 0xFFFFFFFF, fun _ _ => [⟨"CTR", 31, 0, .ro, 0, 0, 4294967295⟩]⟩,
    ⟨"CPH_KEY_STATUS", 0x7801C, 0x0, 1, 0, 1, false, 0x0, fun _ _ => [⟨"DATA_FREE", 16, 0, .ro, 65536, 0, 131071⟩, ⟨"RESEAL", 17, 17, .ro, 0, 0, 1⟩]⟩,
    ⟨"CPH_MISMATCH", 0x78030, 0x0, 1, 0, 1, false, 0x0, fun _ _ => [⟨"COUNT", 31, 0, .rc, 0, 0, 4294967295⟩]⟩,
    ⟨"CPH_RETRY_OK", 0x78034, 0x0, 1, 0, 1, false, 0x0, fun _ _ => [⟨"COUNT", 31, 0, .rc, 0, 0, 4294967295⟩]⟩,
    ⟨"CPH_REENC_FAIL", 0x78038, 0x0, 1, 0, 1, false, 0x0, fun _ _ => [⟨"COUNT", 31, 0, .rc, 0, 0, 4294967295⟩]⟩,
    ⟨"CPH_INTEGRITY", 0x7803C, 0x0, 1, 0, 1, false, 0x0, fun _ _ => [⟨"COUNT", 31, 0, .rc, 0, 0, 4294967295⟩]⟩,
    ⟨"CPH_GUARD_FAIL", 0x78040, 0x0, 1, 0, 1, false, 0x0, fun _ _ => [⟨"COUNT", 31, 0, .rc, 0, 0, 4294967295⟩]⟩,
    ⟨"CPH_ZERO_READ", 0x78044, 0x0, 1, 0, 1, false, 0x0, fun _ _ => [⟨"COUNT", 31, 0, .rc, 0, 0, 4294967295⟩]⟩,
    ⟨"CPH_PIPE_ERR", 0x78100, 0x4, 32, 0, 1, false, 0x0, fun _ _ => [⟨"MISMATCH", 7, 0, .rc, 0, 0, 255⟩, ⟨"DISABLED", 8, 8, .ro, 0, 0, 1⟩]⟩]

/-- The registers of block SEC. -/
def tblSec : List RegDesc :=
  [ ⟨"SEC_STATUS", 0x80000, 0x0, 1, 0, 1, false, 0x0, fun _ _ => [⟨"FUSE_COUNT", 6, 0, .ro, 0, 0, 127⟩, ⟨"SVN", 14, 8, .ro, 0, 0, 127⟩, ⟨"BOOT_SLOT", 15, 15, .ro, 0, 0, 1⟩, ⟨"FALLBACK", 16, 16, .ro, 0, 0, 1⟩, ⟨"BOOT_FAULT", 17, 17, .ro, 0, 0, 1⟩, ⟨"OWNED", 18, 18, .ro, 0, 0, 1⟩, ⟨"PENDING_SVN", 30, 24, .ro, 0, 0, 127⟩]⟩,
    ⟨"SEC_ADMIN", 0x80004, 0x0, 1, 0, 1, false, 0x0, fun _ _ => [⟨"ADMIN_MASK", 15, 0, .ro, 0, 0, 65535⟩]⟩,
    ⟨"SEC_SOAK", 0x80008, 0x0, 1, 0, 1, true, 0x0, fun _ _ => [⟨"SVN_SOAK", 7, 0, .rw, 24, 1, 255⟩]⟩,
    ⟨"SEC_SOAK_S", 0x8000C, 0x0, 1, 0, 1, false, 0x0, fun _ _ => [⟨"SOAK_S", 31, 0, .ro, 0, 0, 4294967295⟩]⟩,
    ⟨"SEC_REC_SEQ_LO", 0x80010, 0x0, 1, 0, 1, false, 0x0, fun _ _ => [⟨"SEQ", 31, 0, .ro, 0, 0, 4294967295⟩]⟩,
    ⟨"SEC_REC_SEQ_HI", 0x80014, 0x0, 1, 0, 1, false, 0x0, fun _ _ => [⟨"SEQ", 31, 0, .ro, 0, 0, 4294967295⟩]⟩,
    ⟨"SEC_MEAS_SEL", 0x80018, 0x0, 1, 0, 1, false, 0x0, fun _ _ => [⟨"BLOCK", 3, 0, .rw, 1, 1, 8⟩]⟩,
    ⟨"SEC_MEAS", 0x80020, 0x4, 8, 0, 1, false, 0x0, fun _ _ => [⟨"DIGEST", 31, 0, .ro, 0, 0, 4294967295⟩]⟩,
    ⟨"SEC_KEYS", 0x80040, 0x0, 1, 0, 1, false, 0x0, fun _ _ => [⟨"UNBOUND", 16, 0, .ro, 0, 0, 131071⟩]⟩,
    ⟨"SEC_LOCKS", 0x80044, 0x0, 1, 0, 1, false, 0x0, fun _ _ => [⟨"LOCKS", 16, 0, .ro, 0, 0, 131071⟩]⟩]

/-- The registers of block PWR. -/
def tblPwr : List RegDesc :=
  [ ⟨"PWR_CTL", 0x8000, 0x0, 1, 0, 1, false, 0x0, fun _ _ => [⟨"REQ", 1, 0, .rw, 0, 0, 2⟩]⟩,
    ⟨"PWR_STATUS", 0x8004, 0x0, 1, 0, 1, false, 0x0, fun _ _ => [⟨"STATE", 1, 0, .ro, 0, 0, 3⟩, ⟨"REFUSED", 2, 2, .ro, 0, 0, 1⟩, ⟨"PHASE", 5, 3, .ro, 0, 0, 7⟩, ⟨"WARN", 6, 6, .ro, 0, 0, 1⟩, ⟨"EXT", 7, 7, .ro, 0, 0, 1⟩]⟩,
    ⟨"PWR_VIN_CFG", 0x8008, 0x0, 1, 0, 1, false, 0xFFFFFFFF, fun _ _ => [⟨"WARN_TH", 7, 0, .rw, 210, 180, 230⟩, ⟨"DROP_TH", 15, 8, .rw, 180, 160, 200⟩, ⟨"HYST", 20, 16, .rw, 6, 2, 20⟩, ⟨"WARN_FILT", 27, 21, .rw, 4, 1, 100⟩, ⟨"EXT_WARN", 28, 28, .rw, 0, 0, 1⟩]⟩,
    ⟨"PWR_RECOVER", 0x800C, 0x0, 1, 0, 1, false, 0xFFFFFFFF, fun _ _ => [⟨"RECOVER", 9, 0, .rw, 100, 10, 1000⟩]⟩,
    ⟨"PWR_VIN_MEAS", 0x8010, 0x0, 1, 0, 1, false, 0x0, fun _ _ => [⟨"VIN", 11, 0, .ro, 0, 0, 4095⟩, ⟨"PIN", 24, 16, .ro, 0, 0, 511⟩]⟩,
    ⟨"PWR_DRAIN_TIME", 0x8014, 0x0, 1, 0, 1, false, 0xFFFFFFFF, fun _ _ => [⟨"TIME", 23, 0, .ro, 0, 0, 16777215⟩]⟩,
    ⟨"PWR_RAIL_STATUS", 0x8018, 0x0, 1, 0, 1, false, 0x3F00, fun _ _ => [⟨"GOOD", 5, 0, .ro, 63, 0, 63⟩, ⟨"FAULT", 13, 8, .w1c, 0, 0, 63⟩]⟩,
    ⟨"PWR_DOM_CFG", 0x8100, 0x4, 34, 0, 1, false, 0x0, fun i _ => [⟨"PWR_RUN", 0, 0, (if fixedDomain i then .ro else .rw), 1, 0, 1⟩, ⟨"PWR_SLEEP", 1, 1, (if fixedDomain i then .ro else .rw), 1, 0, 1⟩, ⟨"PWR_DEEP", 2, 2, (if fixedDomain i then .ro else .rw), (if fixedDomain i || i = 23 || i = 24 then 1 else 0), 0, 1⟩, ⟨"ON", 3, 3, .ro, 1, 0, 1⟩, ⟨"DOM_PEND", 4, 4, .ro, 0, 0, 1⟩]⟩,
    ⟨"PWR_THERM", 0x801C, 0x0, 1, 0, 1, false, 0xFF00, fun _ _ => [⟨"TJ", 7, 0, .ro, 0, 0, 255⟩, ⟨"TJ_WARN", 15, 8, .rw, 100, 85, 110⟩, ⟨"TJ_MAX", 23, 16, .rc, 0, 0, 255⟩, ⟨"HOLD", 24, 24, .ro, 0, 0, 1⟩]⟩]

/-- The registers of block CLK. -/
def tblClk : List RegDesc :=
  [ ⟨"CLK_CFG", 0x4000, 0x0, 1, 0, 1, false, 0xFFFFFFFF, fun _ _ => [⟨"FB_YIELD", 0, 0, .rw, 1, 0, 1⟩, ⟨"FIO_DEEP", 1, 1, .rw, 1, 0, 1⟩, ⟨"XTAL_TMO", 15, 8, .rw, 20, 5, 255⟩]⟩,
    ⟨"CLK_STATUS", 0x4004, 0x0, 1, 0, 1, false, 0x0, fun _ _ => [⟨"FIO_READY", 0, 0, .ro, 0, 0, 1⟩, ⟨"XA_OK", 1, 1, .ro, 0, 0, 1⟩, ⟨"XB_OK", 2, 2, .ro, 0, 0, 1⟩, ⟨"HOLD", 3, 3, .ro, 0, 0, 1⟩, ⟨"FALLBACK", 4, 4, .ro, 0, 0, 1⟩, ⟨"XB_SRC", 5, 5, .ro, 0, 0, 1⟩, ⟨"PLL_LOCK", 15, 8, .ro, 0, 0, 255⟩]⟩,
    ⟨"CLK_MON_CFG", 0x4008, 0x0, 1, 0, 1, false, 0xFFFFFFFF, fun _ _ => [⟨"XA_TOL", 4, 0, .rw, 10, 6, 25⟩, ⟨"FIO_TOL", 13, 8, .rw, 25, 20, 40⟩, ⟨"XB_TOL", 29, 16, .rw, 500, 50, 10000⟩]⟩,
    ⟨"CLK_MON_STATUS", 0x400C, 0x0, 1, 0, 1, false, 0xFFFFFFFF, fun _ _ => [⟨"XA_STOP", 0, 0, .w1c, 0, 0, 1⟩, ⟨"XA_FREQ", 1, 1, .w1c, 0, 0, 1⟩, ⟨"XB_STOP", 2, 2, .w1c, 0, 0, 1⟩, ⟨"XB_FREQ", 3, 3, .w1c, 0, 0, 1⟩, ⟨"FIO_STOP", 4, 4, .w1c, 0, 0, 1⟩, ⟨"FIO_FREQ", 5, 5, .w1c, 0, 0, 1⟩, ⟨"PLL_UNLOCK", 15, 8, .w1c, 0, 0, 255⟩]⟩,
    ⟨"CLK_MEAS_XA", 0x4010, 0x0, 1, 0, 1, false, 0x0, fun _ _ => [⟨"DEV", 31, 0, .ro, 0, 0, 4294967295⟩]⟩,
    ⟨"CLK_MEAS_XB", 0x4014, 0x0, 1, 0, 1, false, 0x0, fun _ _ => [⟨"DEV", 31, 0, .ro, 0, 0, 4294967295⟩]⟩,
    ⟨"CLK_MEAS_FIO", 0x4018, 0x0, 1, 0, 1, false, 0x0, fun _ _ => [⟨"DEV", 31, 0, .ro, 0, 0, 4294967295⟩]⟩,
    ⟨"CLK_PLL_STATUS", 0x4040, 0x4, 8, 0, 1, false, 0x0, fun i _ => [⟨"LOCK", 0, 0, .ro, 0, 0, 1⟩, ⟨"REF", 1, 1, .ro, 0, 0, 1⟩, ⟨"FREQ", 27, 16, .ro, (pllMHz i), 0, 4095⟩]⟩,
    ⟨"CLK_CD_CFG", 0x4100, 0x4, 12, 0, 1, false, 0x0, fun i _ => [⟨"RUN_EN", 0, 0, (if fixedClock i then .ro else .rw), 1, 0, 1⟩, ⟨"SLEEP_EN", 1, 1, (if fixedClock i then .ro else .rw), 1, 0, 1⟩, ⟨"DEEP_EN", 2, 2, (if fixedClock i then .ro else .rw), (if fixedClock i then 1 else 0), 0, 1⟩]⟩,
    ⟨"CLK_CD_STATUS", 0x4200, 0x4, 12, 0, 1, false, 0x0, fun _ _ => [⟨"SRC", 1, 0, .ro, 0, 0, 3⟩, ⟨"GATED", 2, 2, .ro, 0, 0, 1⟩, ⟨"GATE_PEND", 3, 3, .ro, 0, 0, 1⟩, ⟨"SWITCHING", 4, 4, .ro, 0, 0, 1⟩, ⟨"SWITCHES", 15, 8, .rc, 0, 0, 255⟩]⟩,
    ⟨"CLK_STARTUP", 0x4300, 0x0, 1, 0, 1, false, 0x0, fun _ _ => [⟨"RAILS", 0, 0, .ro, 0, 0, 1⟩, ⟨"CLOCKS", 1, 1, .ro, 0, 0, 1⟩, ⟨"BOOT", 2, 2, .ro, 0, 0, 1⟩, ⟨"HBM", 3, 3, .ro, 0, 0, 1⟩, ⟨"RECORD", 4, 4, .ro, 0, 0, 1⟩, ⟨"CLAIM", 5, 5, .ro, 0, 0, 1⟩, ⟨"REPLAY", 6, 6, .ro, 0, 0, 1⟩, ⟨"MAPS", 7, 7, .ro, 0, 0, 1⟩, ⟨"EXT", 8, 8, .ro, 0, 0, 1⟩, ⟨"VIN_OK", 9, 9, .ro, 0, 0, 1⟩, ⟨"IO_READY", 10, 10, .ro, 0, 0, 1⟩]⟩,
    ⟨"CLK_BOOT_TIME", 0x4304, 0x0, 1, 0, 1, false, 0x0, fun _ _ => [⟨"MS", 23, 0, .ro, 0, 0, 16777215⟩]⟩,
    ⟨"CLK_READY_TIME", 0x4308, 0x0, 1, 0, 1, false, 0x0, fun _ _ => [⟨"MS", 23, 0, .ro, 0, 0, 16777215⟩]⟩]

/-- The registers of block TEL. -/
def tblTel : List RegDesc :=
  [ ⟨"TEL_WIN_STATUS", 0x90100, 0x10, 8, 0, 1, false, 0x0, fun _ _ => [⟨"ENABLED", 0, 0, .ro, 0, 0, 1⟩, ⟨"ERROR", 1, 1, .ro, 0, 0, 1⟩, ⟨"TAIL", 31, 16, .ro, 0, 0, 65535⟩]⟩,
    ⟨"TEL_WIN_HEAD", 0x90104, 0x10, 8, 0, 1, false, 0x0, fun _ _ => [⟨"HEAD", 15, 0, .rw, 0, 0, 65535⟩]⟩,
    ⟨"TEL_WIN_LOST", 0x90108, 0x10, 8, 0, 1, false, 0x0, fun _ _ => [⟨"LOST", 31, 0, .rc, 0, 0, 4294967295⟩]⟩,
    ⟨"TEL_SMP_STATUS", 0x90200, 0x0, 1, 0, 1, false, 0x0, fun _ _ => [⟨"ENABLED", 0, 0, .ro, 0, 0, 1⟩, ⟨"ERROR", 1, 1, .ro, 0, 0, 1⟩, ⟨"TAIL", 31, 16, .ro, 0, 0, 65535⟩]⟩,
    ⟨"TEL_SMP_HEAD", 0x90204, 0x0, 1, 0, 1, false, 0x0, fun _ _ => [⟨"HEAD", 15, 0, .rw, 0, 0, 65535⟩]⟩,
    ⟨"TEL_SMP_TAKEN", 0x90208, 0x0, 1, 0, 1, false, 0x0, fun _ _ => [⟨"COUNT", 31, 0, .rc, 0, 0, 4294967295⟩]⟩,
    ⟨"TEL_SMP_DROPPED", 0x9020C, 0x0, 1, 0, 1, false, 0x0, fun _ _ => [⟨"COUNT", 31, 0, .rc, 0, 0, 4294967295⟩]⟩,
    ⟨"TEL_C2H_EN", 0x90300, 0x4, 32, 0, 1, true, 0x0, fun _ _ => [⟨"EN", 31, 0, .rw, 0, 0, 4294967295⟩]⟩]

/-- Every register of BAR0. -/
def regTable : List RegDesc :=
  tblTim ++ tblGlb ++ tblCtl ++ tblEvt ++ tblTck ++ tblNet ++ tblSwc ++ tblTbl ++ tblXpt ++ tblQos ++ tblCmd ++ tblLay ++ tblSbg ++ tblDrv ++ tblStr ++ tblSbd ++ tblHrn ++ tblCph ++ tblSec ++ tblPwr ++ tblClk ++ tblTel

/-- The element indices of address `a` in descriptor `d`, if the address is one of its registers. -/
def RegDesc.index (d : RegDesc) (a : Nat) : Option (Nat × Nat) :=
  if a < d.base then none
  else
    let o := a - d.base
    let i := if d.stride = 0 then 0 else o / d.stride
    let r := if d.stride = 0 then o else o % d.stride
    let j := if d.stride2 = 0 then 0 else r / d.stride2
    let r2 := if d.stride2 = 0 then r else r % d.stride2
    if r2 = 0 && decide (i < d.n) && decide (j < d.n2) then some (i, j) else none

/-- The register at BAR0 address `a`, with its indices, if `a` holds one (R2, R41). -/
def regAt (a : Nat) : Option (RegDesc × Nat × Nat) :=
  regTable.findSome? fun d => (d.index a).map fun (i, j) => (d, i, j)

/-- The fields of the register at `a` (none where `a` holds no register). -/
def fieldsAt (a : Nat) : List Fld :=
  match regAt a with
  | some (d, i, j) => d.flds i j
  | none => []

/-- The value the register at `a` holds after a full-device reset (R4). -/
def resetWord (a : Nat) : Word :=
  BitVec.ofNat 32 ((fieldsAt a).foldl (fun acc f => acc + f.rst * 2 ^ f.lo) 0)

namespace Reg

/-- TIM_CTL.PTP_EN -/
def TIM_CTL_PTP_EN : Ref := ⟨0xC000, 0, 0⟩
/-- TIM_CTL.DELAY_MECH -/
def TIM_CTL_DELAY_MECH : Ref := ⟨0xC000, 3, 2⟩
/-- TIM_CTL.TRANSPORT -/
def TIM_CTL_TRANSPORT : Ref := ⟨0xC000, 5, 4⟩
/-- TIM_CTL.DOMAIN -/
def TIM_CTL_DOMAIN : Ref := ⟨0xC000, 15, 8⟩
/-- TIM_CTL.PTP_PORTS -/
def TIM_CTL_PTP_PORTS : Ref := ⟨0xC000, 23, 16⟩
/-- TIM_STATUS.STATE -/
def TIM_STATUS_STATE : Ref := ⟨0xC004, 2, 0⟩
/-- TIM_STATUS.PTP_PORT -/
def TIM_STATUS_PTP_PORT : Ref := ⟨0xC004, 6, 4⟩
/-- TIM_STATUS.SLEWING -/
def TIM_STATUS_SLEWING : Ref := ⟨0xC004, 8, 8⟩
/-- TIM_STATUS.XB_SRC -/
def TIM_STATUS_XB_SRC : Ref := ⟨0xC004, 9, 9⟩
/-- TIM_STATUS.FLOOR_HOLD -/
def TIM_STATUS_FLOOR_HOLD : Ref := ⟨0xC004, 10, 10⟩
/-- TIM_NOW_LO.NS_LO_NS_HI -/
def TIM_NOW_LO_NS_LO_NS_HI : Ref := ⟨0xC008, 31, 0⟩
/-- TIM_NOW_HI.NS_LO_NS_HI -/
def TIM_NOW_HI_NS_LO_NS_HI : Ref := ⟨0xC00C, 31, 0⟩
/-- TIM_NOW_FRAC.FRAC -/
def TIM_NOW_FRAC_FRAC : Ref := ⟨0xC010, 15, 0⟩
/-- TIM_OFFSET.OFFSET -/
def TIM_OFFSET_OFFSET : Ref := ⟨0xC014, 31, 0⟩
/-- TIM_SLEW.SLEW_MAX -/
def TIM_SLEW_SLEW_MAX : Ref := ⟨0xC018, 9, 0⟩
/-- TIM_STEP_LIMIT.STEP_LIMIT -/
def TIM_STEP_LIMIT_STEP_LIMIT : Ref := ⟨0xC01C, 31, 0⟩
/-- TIM_HOLD.LOSS_INTERVALS -/
def TIM_HOLD_LOSS_INTERVALS : Ref := ⟨0xC020, 7, 0⟩
/-- TIM_TWIN_DIV.TWIN_DIV -/
def TIM_TWIN_DIV_TWIN_DIV : Ref := ⟨0xC024, 15, 0⟩
/-- TIM_FLOOR_LO.FLOOR -/
def TIM_FLOOR_LO_FLOOR : Ref := ⟨0xC028, 31, 0⟩
/-- TIM_FLOOR_HI.FLOOR -/
def TIM_FLOOR_HI_FLOOR : Ref := ⟨0xC02C, 31, 0⟩
/-- TIM_FLOOR_SAVE.FLOOR_SAVE -/
def TIM_FLOOR_SAVE_FLOOR_SAVE : Ref := ⟨0xC030, 16, 0⟩
/-- TIM_SLOT_SEL.SLOT -/
def TIM_SLOT_SEL_SLOT : Ref := ⟨0xC034, 8, 0⟩
/-- TIM_SLOT_INFO.ACTION -/
def TIM_SLOT_INFO_ACTION : Ref := ⟨0xC038, 2, 0⟩
/-- TIM_SLOT_INFO.PERIODIC -/
def TIM_SLOT_INFO_PERIODIC : Ref := ⟨0xC038, 3, 3⟩
/-- TIM_SLOT_INFO.ARMED -/
def TIM_SLOT_INFO_ARMED : Ref := ⟨0xC038, 4, 4⟩
/-- TIM_SLOT_INFO.OWNER -/
def TIM_SLOT_INFO_OWNER : Ref := ⟨0xC038, 15, 8⟩
/-- TIM_SLOT_INFO.MISSED -/
def TIM_SLOT_INFO_MISSED : Ref := ⟨0xC038, 31, 16⟩
/-- TIM_SLOT_FREE.FREE -/
def TIM_SLOT_FREE_FREE : Ref := ⟨0xC03C, 9, 0⟩
/-- TIM_PORT_DLY.INGRESS -/
def TIM_PORT_DLY_INGRESS (i : Nat) : Ref := ⟨0xC040 + 0x4 * i, 15, 0⟩
/-- TIM_PORT_DLY.EGRESS -/
def TIM_PORT_DLY_EGRESS (i : Nat) : Ref := ⟨0xC040 + 0x4 * i, 31, 16⟩
/-- GLB_ID.PART -/
def GLB_ID_PART : Ref := ⟨0x0, 15, 0⟩
/-- GLB_ID.STEP -/
def GLB_ID_STEP : Ref := ⟨0x0, 23, 16⟩
/-- GLB_CAP.CRINGS -/
def GLB_CAP_CRINGS : Ref := ⟨0x4, 8, 0⟩
/-- GLB_CAP.ERINGS -/
def GLB_CAP_ERINGS : Ref := ⟨0x4, 17, 9⟩
/-- GLB_CAP.SOURCES -/
def GLB_CAP_SOURCES : Ref := ⟨0x4, 27, 18⟩
/-- GLB_SERIAL_LO.SERIAL -/
def GLB_SERIAL_LO_SERIAL : Ref := ⟨0x8, 31, 0⟩
/-- GLB_SERIAL_HI.SERIAL -/
def GLB_SERIAL_HI_SERIAL : Ref := ⟨0xC, 31, 0⟩
/-- GLB_STATUS.DEV_STATE -/
def GLB_STATUS_DEV_STATE : Ref := ⟨0x10, 1, 0⟩
/-- GLB_STATUS.ROLE -/
def GLB_STATUS_ROLE : Ref := ⟨0x10, 4, 2⟩
/-- GLB_STATUS.TWIN_ID -/
def GLB_STATUS_TWIN_ID : Ref := ⟨0x10, 5, 5⟩
/-- GLB_STATUS.CLK_HOLD -/
def GLB_STATUS_CLK_HOLD : Ref := ⟨0x10, 6, 6⟩
/-- GLB_STATUS.BOOT_DONE -/
def GLB_STATUS_BOOT_DONE : Ref := ⟨0x10, 7, 7⟩
/-- GLB_RESET.KEY -/
def GLB_RESET_KEY : Ref := ⟨0x14, 31, 0⟩
/-- GLB_WDOG.AUTO_RESET -/
def GLB_WDOG_AUTO_RESET : Ref := ⟨0x18, 0, 0⟩
/-- GLB_WDOG.WEDGE_TMO -/
def GLB_WDOG_WEDGE_TMO : Ref := ⟨0x18, 31, 16⟩
/-- GLB_WEDGED.WEDGED -/
def GLB_WEDGED_WEDGED : Ref := ⟨0x1C, 21, 0⟩
/-- GLB_RESET_CAUSE.POWER_ON -/
def GLB_RESET_CAUSE_POWER_ON : Ref := ⟨0x20, 0, 0⟩
/-- GLB_RESET_CAUSE.PIN -/
def GLB_RESET_CAUSE_PIN : Ref := ⟨0x20, 1, 1⟩
/-- GLB_RESET_CAUSE.SOFT -/
def GLB_RESET_CAUSE_SOFT : Ref := ⟨0x20, 2, 2⟩
/-- GLB_RESET_CAUSE.WEDGE -/
def GLB_RESET_CAUSE_WEDGE : Ref := ⟨0x20, 3, 3⟩
/-- GLB_RESET_CAUSE.RAIL -/
def GLB_RESET_CAUSE_RAIL : Ref := ⟨0x20, 4, 4⟩
/-- GLB_RESET_CAUSE.HOLD -/
def GLB_RESET_CAUSE_HOLD : Ref := ⟨0x20, 5, 5⟩
/-- GLB_RESET_CAUSE.DRAIN -/
def GLB_RESET_CAUSE_DRAIN : Ref := ⟨0x20, 6, 6⟩
/-- GLB_RESET_CAUSE.THERM -/
def GLB_RESET_CAUSE_THERM : Ref := ⟨0x20, 7, 7⟩
/-- CTL_CFG.EN -/
def CTL_CFG_EN : Ref := ⟨0x10000, 0, 0⟩
/-- CTL_RING_SEL.RING -/
def CTL_RING_SEL_RING : Ref := ⟨0x10004, 7, 0⟩
/-- CTL_RING_SEL.TYPE -/
def CTL_RING_SEL_TYPE : Ref := ⟨0x10004, 8, 8⟩
/-- CTL_RING_BASE_LO.BASE -/
def CTL_RING_BASE_LO_BASE : Ref := ⟨0x10008, 31, 0⟩
/-- CTL_RING_BASE_HI.BASE -/
def CTL_RING_BASE_HI_BASE : Ref := ⟨0x1000C, 31, 0⟩
/-- CTL_CRING_CFG.ENABLE -/
def CTL_CRING_CFG_ENABLE : Ref := ⟨0x10010, 0, 0⟩
/-- CTL_CRING_CFG.LOG2_SIZE -/
def CTL_CRING_CFG_LOG2_SIZE : Ref := ⟨0x10010, 4, 1⟩
/-- CTL_CRING_CFG.ERING -/
def CTL_CRING_CFG_ERING : Ref := ⟨0x10010, 15, 8⟩
/-- CTL_ERING_CFG.ENABLE -/
def CTL_ERING_CFG_ENABLE : Ref := ⟨0x10014, 0, 0⟩
/-- CTL_ERING_CFG.LOG2_SIZE -/
def CTL_ERING_CFG_LOG2_SIZE : Ref := ⟨0x10014, 5, 1⟩
/-- CTL_ERING_CFG.VECTOR -/
def CTL_ERING_CFG_VECTOR : Ref := ⟨0x10014, 15, 8⟩
/-- CTL_ERING_COAL.COAL_COUNT -/
def CTL_ERING_COAL_COAL_COUNT : Ref := ⟨0x10018, 7, 0⟩
/-- CTL_ERING_COAL.COAL_TIME -/
def CTL_ERING_COAL_COAL_TIME : Ref := ⟨0x10018, 23, 8⟩
/-- CTL_RING_STATUS.INDEX -/
def CTL_RING_STATUS_INDEX : Ref := ⟨0x1001C, 15, 0⟩
/-- CTL_RING_STATUS.ERROR -/
def CTL_RING_STATUS_ERROR : Ref := ⟨0x1001C, 16, 16⟩
/-- CTL_RING_STATUS.STALLED -/
def CTL_RING_STATUS_STALLED : Ref := ⟨0x1001C, 17, 17⟩
/-- CTL_RING_STATUS.ACTIVE -/
def CTL_RING_STATUS_ACTIVE : Ref := ⟨0x1001C, 18, 18⟩
/-- CTL_RING_STATUS.PHASE -/
def CTL_RING_STATUS_PHASE : Ref := ⟨0x1001C, 19, 19⟩
/-- CTL_GUARD_CFG.GUARD_WINDOW -/
def CTL_GUARD_CFG_GUARD_WINDOW : Ref := ⟨0x10020, 15, 0⟩
/-- CTL_GUARD_CFG.NONCE_LIFE -/
def CTL_GUARD_CFG_NONCE_LIFE : Ref := ⟨0x10020, 31, 16⟩
/-- EVT_SRC_SEL.SRC -/
def EVT_SRC_SEL_SRC : Ref := ⟨0x14000, 9, 0⟩
/-- EVT_SRC_CFG.RING_EN -/
def EVT_SRC_CFG_RING_EN : Ref := ⟨0x14004, 0, 0⟩
/-- EVT_SRC_CFG.ALERT_EN -/
def EVT_SRC_CFG_ALERT_EN : Ref := ⟨0x14004, 1, 1⟩
/-- EVT_SRC_CFG.ERING -/
def EVT_SRC_CFG_ERING : Ref := ⟨0x14004, 15, 8⟩
/-- EVT_SRC_INFO.CLASS -/
def EVT_SRC_INFO_CLASS : Ref := ⟨0x14008, 1, 0⟩
/-- EVT_SRC_INFO.PENDING -/
def EVT_SRC_INFO_PENDING : Ref := ⟨0x14008, 2, 2⟩
/-- EVT_SRC_INFO.COUNT -/
def EVT_SRC_INFO_COUNT : Ref := ⟨0x14008, 31, 16⟩
/-- EVT_PEND.PEND -/
def EVT_PEND_PEND (i : Nat) : Ref := ⟨0x14010 + 0x4 * i, 31, 0⟩
/-- EVT_NMI_LAST.SRC -/
def EVT_NMI_LAST_SRC : Ref := ⟨0x14070, 9, 0⟩
/-- EVT_NMI_LAST.FROM_PEER -/
def EVT_NMI_LAST_FROM_PEER : Ref := ⟨0x14070, 10, 10⟩
/-- EVT_ALERT.ALERT -/
def EVT_ALERT_ALERT : Ref := ⟨0x14074, 0, 0⟩
/-- TCK_T1_MASK.MASK_LO -/
def TCK_T1_MASK_MASK_LO : Ref := ⟨0x88000, 1, 0⟩
/-- TCK_T1_MASK.CIPHER -/
def TCK_T1_MASK_CIPHER : Ref := ⟨0x88000, 2, 2⟩
/-- TCK_T1_MASK.MASK_MID -/
def TCK_T1_MASK_MASK_MID : Ref := ⟨0x88000, 4, 3⟩
/-- TCK_T1_MASK.SEND_RING -/
def TCK_T1_MASK_SEND_RING : Ref := ⟨0x88000, 6, 5⟩
/-- TCK_T1_MASK.MASK_HI -/
def TCK_T1_MASK_MASK_HI : Ref := ⟨0x88000, 9, 7⟩
/-- TCK_HOOK_CFG.BUDGET -/
def TCK_HOOK_CFG_BUDGET (i : Nat) : Ref := ⟨0x88010 + 0x4 * i, 15, 0⟩
/-- TCK_HOOK_CFG.ENABLE -/
def TCK_HOOK_CFG_ENABLE (i : Nat) : Ref := ⟨0x88010 + 0x4 * i, 16, 16⟩
/-- TCK_HOOK_CFG.DEFAULT_ACT -/
def TCK_HOOK_CFG_DEFAULT_ACT (i : Nat) : Ref := ⟨0x88010 + 0x4 * i, 17, 17⟩
/-- TCK_EXT_STATUS.LOADED -/
def TCK_EXT_STATUS_LOADED : Ref := ⟨0x88030, 0, 0⟩
/-- TCK_EXT_STATUS.DISABLED -/
def TCK_EXT_STATUS_DISABLED : Ref := ⟨0x88030, 1, 1⟩
/-- TCK_EXT_STATUS.KEY_SLOT -/
def TCK_EXT_STATUS_KEY_SLOT : Ref := ⟨0x88030, 3, 2⟩
/-- TCK_EXT_STATUS.FAULTS -/
def TCK_EXT_STATUS_FAULTS : Ref := ⟨0x88030, 7, 4⟩
/-- TCK_EXT_VERSION.EXT_VERSION -/
def TCK_EXT_VERSION_EXT_VERSION : Ref := ⟨0x88034, 31, 0⟩
/-- TCK_CLUSTER_STATUS.CORE_RUN -/
def TCK_CLUSTER_STATUS_CORE_RUN (i : Nat) : Ref := ⟨0x88100 + 0x4 * i, 7, 0⟩
/-- TCK_CLUSTER_STATUS.CORE_T1 -/
def TCK_CLUSTER_STATUS_CORE_T1 (i : Nat) : Ref := ⟨0x88100 + 0x4 * i, 15, 8⟩
/-- TCK_CLUSTER_STATUS.STOPPED -/
def TCK_CLUSTER_STATUS_STOPPED (i : Nat) : Ref := ⟨0x88100 + 0x4 * i, 16, 16⟩
/-- TCK_CLUSTER_STATUS.ECC_CE -/
def TCK_CLUSTER_STATUS_ECC_CE (i : Nat) : Ref := ⟨0x88100 + 0x4 * i, 31, 24⟩
/-- TCK_PCALL_CNT.CALLS -/
def TCK_PCALL_CNT_CALLS (i : Nat) : Ref := ⟨0x88200 + 0x4 * i, 31, 0⟩
/-- NET_PORT_CFG.EN -/
def NET_PORT_CFG_EN (i : Nat) : Ref := ⟨0x20000 + 0x1000 * i, 0, 0⟩
/-- NET_PORT_CFG.MODE -/
def NET_PORT_CFG_MODE (i : Nat) : Ref := ⟨0x20000 + 0x1000 * i, 2, 1⟩
/-- NET_PORT_CFG.MAX_FRAME -/
def NET_PORT_CFG_MAX_FRAME (i : Nat) : Ref := ⟨0x20000 + 0x1000 * i, 29, 16⟩
/-- NET_PORT_OVH.OVERHEAD -/
def NET_PORT_OVH_OVERHEAD (i : Nat) : Ref := ⟨0x20004 + 0x1000 * i, 5, 0⟩
/-- NET_PORT_STATUS.LINK -/
def NET_PORT_STATUS_LINK (i : Nat) : Ref := ⟨0x20008 + 0x1000 * i, 3, 0⟩
/-- NET_PORT_STATUS.TRAINING -/
def NET_PORT_STATUS_TRAINING (i : Nat) : Ref := ⟨0x20008 + 0x1000 * i, 7, 4⟩
/-- NET_MAC_LO.MAC_LO -/
def NET_MAC_LO_MAC_LO (i : Nat) (j : Nat) : Ref := ⟨0x20010 + 0x1000 * i + 0x8 * j, 31, 0⟩
/-- NET_MAC_HI.MAC_HI -/
def NET_MAC_HI_MAC_HI (i : Nat) (j : Nat) : Ref := ⟨0x20014 + 0x1000 * i + 0x8 * j, 15, 0⟩
/-- NET_RX_FCS_ERR.COUNT -/
def NET_RX_FCS_ERR_COUNT (i : Nat) : Ref := ⟨0x20040 + 0x1000 * i, 31, 0⟩
/-- NET_RX_DROP.COUNT -/
def NET_RX_DROP_COUNT (i : Nat) : Ref := ⟨0x20044 + 0x1000 * i, 31, 0⟩
/-- NET_FEC_UNCORR.COUNT -/
def NET_FEC_UNCORR_COUNT (i : Nat) : Ref := ⟨0x20048 + 0x1000 * i, 31, 0⟩
/-- NET_TX_STOMP.COUNT -/
def NET_TX_STOMP_COUNT (i : Nat) : Ref := ⟨0x2004C + 0x1000 * i, 31, 0⟩
/-- NET_RX_PAUSE.COUNT -/
def NET_RX_PAUSE_COUNT (i : Nat) : Ref := ⟨0x20050 + 0x1000 * i, 31, 0⟩
/-- SWC_CFG.CT_EN -/
def SWC_CFG_CT_EN : Ref := ⟨0x28000, 0, 0⟩
/-- SWC_RESERVE.RESERVE_CELLS -/
def SWC_RESERVE_RESERVE_CELLS : Ref := ⟨0x28004, 17, 0⟩
/-- SWC_BUF_STATUS.FREE -/
def SWC_BUF_STATUS_FREE : Ref := ⟨0x28008, 17, 0⟩
/-- SWC_BUF_MIN.MIN_FREE -/
def SWC_BUF_MIN_MIN_FREE : Ref := ⟨0x2800C, 17, 0⟩
/-- SWC_RSEQ_CFG.RX_TMO -/
def SWC_RSEQ_CFG_RX_TMO : Ref := ⟨0x28010, 9, 0⟩
/-- SWC_RSEQ_CFG.TX_TMO -/
def SWC_RSEQ_CFG_TX_TMO : Ref := ⟨0x28010, 25, 16⟩
/-- SWC_RSEQ_LOST.RX -/
def SWC_RSEQ_LOST_RX : Ref := ⟨0x28014, 15, 0⟩
/-- SWC_RSEQ_LOST.TX -/
def SWC_RSEQ_LOST_TX : Ref := ⟨0x28014, 31, 16⟩
/-- SWC_RSEQ_LATE.RX -/
def SWC_RSEQ_LATE_RX : Ref := ⟨0x28018, 15, 0⟩
/-- SWC_RSEQ_LATE.TX -/
def SWC_RSEQ_LATE_TX : Ref := ⟨0x28018, 31, 16⟩
/-- SWC_WRED_SEL.PROFILE -/
def SWC_WRED_SEL_PROFILE : Ref := ⟨0x28020, 5, 0⟩
/-- SWC_WRED_GREEN.MIN_TH -/
def SWC_WRED_GREEN_MIN_TH : Ref := ⟨0x28024, 11, 0⟩
/-- SWC_WRED_GREEN.MAX_TH -/
def SWC_WRED_GREEN_MAX_TH : Ref := ⟨0x28024, 23, 12⟩
/-- SWC_WRED_GREEN.MAX_P -/
def SWC_WRED_GREEN_MAX_P : Ref := ⟨0x28024, 31, 24⟩
/-- SWC_WRED_YELLOW.MIN_TH -/
def SWC_WRED_YELLOW_MIN_TH : Ref := ⟨0x28028, 11, 0⟩
/-- SWC_WRED_YELLOW.MAX_TH -/
def SWC_WRED_YELLOW_MAX_TH : Ref := ⟨0x28028, 23, 12⟩
/-- SWC_WRED_YELLOW.MAX_P -/
def SWC_WRED_YELLOW_MAX_P : Ref := ⟨0x28028, 31, 24⟩
/-- SWC_WRED_RED.MIN_TH -/
def SWC_WRED_RED_MIN_TH : Ref := ⟨0x2802C, 11, 0⟩
/-- SWC_WRED_RED.MAX_TH -/
def SWC_WRED_RED_MAX_TH : Ref := ⟨0x2802C, 23, 12⟩
/-- SWC_WRED_RED.MAX_P -/
def SWC_WRED_RED_MAX_P : Ref := ⟨0x2802C, 31, 24⟩
/-- SWC_WRED_CTL.WEIGHT -/
def SWC_WRED_CTL_WEIGHT : Ref := ⟨0x28030, 3, 0⟩
/-- SWC_WRED_CTL.ECN_EN -/
def SWC_WRED_CTL_ECN_EN : Ref := ⟨0x28030, 4, 4⟩
/-- SWC_WRED_CTL.QMAX -/
def SWC_WRED_CTL_QMAX : Ref := ⟨0x28030, 19, 8⟩
/-- SWC_QPROF.PROFILE -/
def SWC_QPROF_PROFILE (i : Nat) : Ref := ⟨0x28100 + 0x4 * i, 5, 0⟩
/-- SWC_QPROF.WRED_EN -/
def SWC_QPROF_WRED_EN (i : Nat) : Ref := ⟨0x28100 + 0x4 * i, 8, 8⟩
/-- TBL_CFG.EN -/
def TBL_CFG_EN (i : Nat) : Ref := ⟨0x30000 + 0x100 * i, 0, 0⟩
/-- TBL_CFG.EVICT_POLICY -/
def TBL_CFG_EVICT_POLICY (i : Nat) : Ref := ⟨0x30000 + 0x100 * i, 1, 1⟩
/-- TBL_CFG.LOG2_SIZE -/
def TBL_CFG_LOG2_SIZE (i : Nat) : Ref := ⟨0x30000 + 0x100 * i, 12, 8⟩
/-- TBL_CFG.TICK_LOG2 -/
def TBL_CFG_TICK_LOG2 (i : Nat) : Ref := ⟨0x30000 + 0x100 * i, 21, 16⟩
/-- TBL_AGE.AGE_LIMIT -/
def TBL_AGE_AGE_LIMIT (i : Nat) : Ref := ⟨0x30004 + 0x100 * i, 15, 0⟩
/-- TBL_SWEEP.SWEEP_BATCH -/
def TBL_SWEEP_SWEEP_BATCH (i : Nat) : Ref := ⟨0x30008 + 0x100 * i, 15, 0⟩
/-- TBL_SWEEP.SWEEP_PERIOD -/
def TBL_SWEEP_SWEEP_PERIOD (i : Nat) : Ref := ⟨0x30008 + 0x100 * i, 31, 16⟩
/-- TBL_SEED0.SEED -/
def TBL_SEED0_SEED (i : Nat) : Ref := ⟨0x3000C + 0x100 * i, 31, 0⟩
/-- TBL_SEED1.SEED -/
def TBL_SEED1_SEED (i : Nat) : Ref := ⟨0x30010 + 0x100 * i, 31, 0⟩
/-- TBL_STATUS.VALID -/
def TBL_STATUS_VALID (i : Nat) : Ref := ⟨0x30014 + 0x100 * i, 21, 0⟩
/-- TBL_STATUS.STASH -/
def TBL_STATUS_STASH (i : Nat) : Ref := ⟨0x30014 + 0x100 * i, 26, 22⟩
/-- TBL_STATUS.REHASH_REQ -/
def TBL_STATUS_REHASH_REQ (i : Nat) : Ref := ⟨0x30014 + 0x100 * i, 27, 27⟩
/-- TBL_STATUS.REHASHING -/
def TBL_STATUS_REHASHING (i : Nat) : Ref := ⟨0x30014 + 0x100 * i, 28, 28⟩
/-- TBL_STATS_A.INS_FAIL -/
def TBL_STATS_A_INS_FAIL (i : Nat) : Ref := ⟨0x30018 + 0x100 * i, 15, 0⟩
/-- TBL_STATS_A.EVICT -/
def TBL_STATS_A_EVICT (i : Nat) : Ref := ⟨0x30018 + 0x100 * i, 31, 16⟩
/-- TBL_STATS_B.SERIAL -/
def TBL_STATS_B_SERIAL (i : Nat) : Ref := ⟨0x3001C + 0x100 * i, 15, 0⟩
/-- TBL_STATS_B.FILL -/
def TBL_STATS_B_FILL (i : Nat) : Ref := ⟨0x3001C + 0x100 * i, 31, 16⟩
/-- TBL_LEARN_CFG.LEARN_PORTS -/
def TBL_LEARN_CFG_LEARN_PORTS : Ref := ⟨0x30400, 7, 0⟩
/-- TBL_LEARN_CFG.FLAP_EN -/
def TBL_LEARN_CFG_FLAP_EN : Ref := ⟨0x30400, 8, 8⟩
/-- TBL_LEARN_DROP.QFULL -/
def TBL_LEARN_DROP_QFULL : Ref := ⟨0x30404, 15, 0⟩
/-- TBL_LEARN_DROP.BLOCKED -/
def TBL_LEARN_DROP_BLOCKED : Ref := ⟨0x30404, 31, 16⟩
/-- XPT_CFG.EN -/
def XPT_CFG_EN : Ref := ⟨0x38000, 0, 0⟩
/-- XPT_CFG.CC_EN -/
def XPT_CFG_CC_EN : Ref := ⟨0x38000, 1, 1⟩
/-- XPT_CFG.RP_ECN -/
def XPT_CFG_RP_ECN : Ref := ⟨0x38000, 2, 2⟩
/-- XPT_CFG.PMTU_MAX -/
def XPT_CFG_PMTU_MAX : Ref := ⟨0x38000, 10, 8⟩
/-- XPT_RETRY.ACK_TMO_EXP -/
def XPT_RETRY_ACK_TMO_EXP : Ref := ⟨0x38004, 4, 0⟩
/-- XPT_RETRY.RETRY_CNT -/
def XPT_RETRY_RETRY_CNT : Ref := ⟨0x38004, 7, 5⟩
/-- XPT_RETRY.RNR_RETRY -/
def XPT_RETRY_RNR_RETRY : Ref := ⟨0x38004, 10, 8⟩
/-- XPT_RETRY.RNR_TIMER -/
def XPT_RETRY_RNR_TIMER : Ref := ⟨0x38004, 15, 11⟩
/-- XPT_ACK.ACK_COAL -/
def XPT_ACK_ACK_COAL : Ref := ⟨0x38008, 7, 0⟩
/-- XPT_ACK.ACK_DELAY -/
def XPT_ACK_ACK_DELAY : Ref := ⟨0x38008, 23, 8⟩
/-- XPT_ACK.CQ_GATHER -/
def XPT_ACK_CQ_GATHER : Ref := ⟨0x38008, 31, 24⟩
/-- XPT_CC_A.G -/
def XPT_CC_A_G : Ref := ⟨0x3800C, 9, 0⟩
/-- XPT_CC_A.F -/
def XPT_CC_A_F : Ref := ⟨0x3800C, 23, 16⟩
/-- XPT_CC_A.CNP_INTERVAL -/
def XPT_CC_A_CNP_INTERVAL : Ref := ⟨0x3800C, 31, 24⟩
/-- XPT_CC_B.T_RI -/
def XPT_CC_B_T_RI : Ref := ⟨0x38010, 15, 0⟩
/-- XPT_CC_B.B_RI -/
def XPT_CC_B_B_RI : Ref := ⟨0x38010, 31, 16⟩
/-- XPT_CC_C.R_AI -/
def XPT_CC_C_R_AI : Ref := ⟨0x38014, 15, 0⟩
/-- XPT_CC_C.R_HAI -/
def XPT_CC_C_R_HAI : Ref := ⟨0x38014, 31, 16⟩
/-- XPT_CC_D.MIN_RATE -/
def XPT_CC_D_MIN_RATE : Ref := ⟨0x38018, 15, 0⟩
/-- XPT_CC_D.ALPHA_PERIOD -/
def XPT_CC_D_ALPHA_PERIOD : Ref := ⟨0x38018, 31, 16⟩
/-- XPT_TMO.KEY_TMO -/
def XPT_TMO_KEY_TMO : Ref := ⟨0x3801C, 11, 0⟩
/-- XPT_TMO.CM_TMO -/
def XPT_TMO_CM_TMO : Ref := ⟨0x3801C, 23, 12⟩
/-- XPT_TMO.QUIET_TMO -/
def XPT_TMO_QUIET_TMO : Ref := ⟨0x3801C, 31, 24⟩
/-- XPT_WHEEL.WHEEL_TICK -/
def XPT_WHEEL_WHEEL_TICK : Ref := ⟨0x38020, 5, 0⟩
/-- XPT_CTX_STATUS.OPEN -/
def XPT_CTX_STATUS_OPEN : Ref := ⟨0x38024, 16, 0⟩
/-- XPT_CTX_STATUS.RESIDENT -/
def XPT_CTX_STATUS_RESIDENT : Ref := ⟨0x38024, 30, 17⟩
/-- XPT_PARK_STATUS.PARKED -/
def XPT_PARK_STATUS_PARKED : Ref := ⟨0x38028, 14, 0⟩
/-- XPT_PARK_STATUS.FULL_NAK -/
def XPT_PARK_STATUS_FULL_NAK : Ref := ⟨0x38028, 31, 16⟩
/-- XPT_RETX.COUNT -/
def XPT_RETX_COUNT : Ref := ⟨0x38030, 31, 0⟩
/-- XPT_HOLLOW.COUNT -/
def XPT_HOLLOW_COUNT : Ref := ⟨0x38034, 31, 0⟩
/-- XPT_SUBST_CPL.COUNT -/
def XPT_SUBST_CPL_COUNT : Ref := ⟨0x38038, 31, 0⟩
/-- XPT_DUP_RX.COUNT -/
def XPT_DUP_RX_COUNT : Ref := ⟨0x3803C, 31, 0⟩
/-- XPT_ESP_DROP.COUNT -/
def XPT_ESP_DROP_COUNT : Ref := ⟨0x38040, 31, 0⟩
/-- XPT_KEY_FAIL.COUNT -/
def XPT_KEY_FAIL_COUNT : Ref := ⟨0x38044, 31, 0⟩
/-- XPT_ACCESS_DENIED.COUNT -/
def XPT_ACCESS_DENIED_COUNT : Ref := ⟨0x38048, 31, 0⟩
/-- XPT_MKEY_REFUSED.COUNT -/
def XPT_MKEY_REFUSED_COUNT : Ref := ⟨0x3804C, 31, 0⟩
/-- XPT_CNP_TX.COUNT -/
def XPT_CNP_TX_COUNT : Ref := ⟨0x38050, 31, 0⟩
/-- XPT_CNP_RX.COUNT -/
def XPT_CNP_RX_COUNT : Ref := ⟨0x38054, 31, 0⟩
/-- XPT_IP_ADDR.ADDR -/
def XPT_IP_ADDR_ADDR (i : Nat) (j : Nat) : Ref := ⟨0x38100 + 0x20 * i + 0x4 * j, 31, 0⟩
/-- XPT_IP_CFG.VALID -/
def XPT_IP_CFG_VALID (i : Nat) : Ref := ⟨0x38110 + 0x20 * i, 0, 0⟩
/-- XPT_IP_CFG.DISC_PLAIN -/
def XPT_IP_CFG_DISC_PLAIN (i : Nat) : Ref := ⟨0x38110 + 0x20 * i, 1, 1⟩
/-- XPT_IP_CFG.PORT -/
def XPT_IP_CFG_PORT (i : Nat) : Ref := ⟨0x38110 + 0x20 * i, 4, 2⟩
/-- XPT_IP_CFG.SUB -/
def XPT_IP_CFG_SUB (i : Nat) : Ref := ⟨0x38110 + 0x20 * i, 6, 5⟩
/-- XPT_IP_CFG.PREFIX -/
def XPT_IP_CFG_PREFIX (i : Nat) : Ref := ⟨0x38110 + 0x20 * i, 15, 8⟩
/-- QOS_CFG.TRUST_PCP -/
def QOS_CFG_TRUST_PCP : Ref := ⟨0x40000, 0, 0⟩
/-- QOS_CFG.CTRL_CLASS -/
def QOS_CFG_CTRL_CLASS : Ref := ⟨0x40000, 3, 1⟩
/-- QOS_DSCP.CLASS_0 -/
def QOS_DSCP_CLASS_0 (i : Nat) : Ref := ⟨0x40010 + 0x4 * i, 2, 0⟩
/-- QOS_DSCP.COLOUR_0 -/
def QOS_DSCP_COLOUR_0 (i : Nat) : Ref := ⟨0x40010 + 0x4 * i, 4, 3⟩
/-- QOS_DSCP.CLASS_1 -/
def QOS_DSCP_CLASS_1 (i : Nat) : Ref := ⟨0x40010 + 0x4 * i, 10, 8⟩
/-- QOS_DSCP.COLOUR_1 -/
def QOS_DSCP_COLOUR_1 (i : Nat) : Ref := ⟨0x40010 + 0x4 * i, 12, 11⟩
/-- QOS_DSCP.CLASS_2 -/
def QOS_DSCP_CLASS_2 (i : Nat) : Ref := ⟨0x40010 + 0x4 * i, 18, 16⟩
/-- QOS_DSCP.COLOUR_2 -/
def QOS_DSCP_COLOUR_2 (i : Nat) : Ref := ⟨0x40010 + 0x4 * i, 20, 19⟩
/-- QOS_DSCP.CLASS_3 -/
def QOS_DSCP_CLASS_3 (i : Nat) : Ref := ⟨0x40010 + 0x4 * i, 26, 24⟩
/-- QOS_DSCP.COLOUR_3 -/
def QOS_DSCP_COLOUR_3 (i : Nat) : Ref := ⟨0x40010 + 0x4 * i, 28, 27⟩
/-- QOS_PORT_SCHED.SP_MASK -/
def QOS_PORT_SCHED_SP_MASK (i : Nat) : Ref := ⟨0x40100 + 0x10 * i, 7, 0⟩
/-- QOS_PORT_SCHED.HOLD_START -/
def QOS_PORT_SCHED_HOLD_START (i : Nat) : Ref := ⟨0x40100 + 0x10 * i, 15, 8⟩
/-- QOS_PORT_WT_LO.WEIGHT_0 -/
def QOS_PORT_WT_LO_WEIGHT_0 (i : Nat) : Ref := ⟨0x40104 + 0x10 * i, 7, 0⟩
/-- QOS_PORT_WT_LO.WEIGHT_1 -/
def QOS_PORT_WT_LO_WEIGHT_1 (i : Nat) : Ref := ⟨0x40104 + 0x10 * i, 15, 8⟩
/-- QOS_PORT_WT_LO.WEIGHT_2 -/
def QOS_PORT_WT_LO_WEIGHT_2 (i : Nat) : Ref := ⟨0x40104 + 0x10 * i, 23, 16⟩
/-- QOS_PORT_WT_LO.WEIGHT_3 -/
def QOS_PORT_WT_LO_WEIGHT_3 (i : Nat) : Ref := ⟨0x40104 + 0x10 * i, 31, 24⟩
/-- QOS_PORT_WT_HI.WEIGHT_0 -/
def QOS_PORT_WT_HI_WEIGHT_0 (i : Nat) : Ref := ⟨0x40108 + 0x10 * i, 7, 0⟩
/-- QOS_PORT_WT_HI.WEIGHT_1 -/
def QOS_PORT_WT_HI_WEIGHT_1 (i : Nat) : Ref := ⟨0x40108 + 0x10 * i, 15, 8⟩
/-- QOS_PORT_WT_HI.WEIGHT_2 -/
def QOS_PORT_WT_HI_WEIGHT_2 (i : Nat) : Ref := ⟨0x40108 + 0x10 * i, 23, 16⟩
/-- QOS_PORT_WT_HI.WEIGHT_3 -/
def QOS_PORT_WT_HI_WEIGHT_3 (i : Nat) : Ref := ⟨0x40108 + 0x10 * i, 31, 24⟩
/-- QOS_SLALOM_STATUS.GATES -/
def QOS_SLALOM_STATUS_GATES (i : Nat) : Ref := ⟨0x40200 + 0x4 * i, 7, 0⟩
/-- QOS_SLALOM_STATUS.ENTRY -/
def QOS_SLALOM_STATUS_ENTRY (i : Nat) : Ref := ⟨0x40200 + 0x4 * i, 15, 8⟩
/-- QOS_SLALOM_STATUS.ENABLED -/
def QOS_SLALOM_STATUS_ENABLED (i : Nat) : Ref := ⟨0x40200 + 0x4 * i, 16, 16⟩
/-- QOS_SLALOM_STATUS.PENDING -/
def QOS_SLALOM_STATUS_PENDING (i : Nat) : Ref := ⟨0x40200 + 0x4 * i, 17, 17⟩
/-- QOS_SLALOM_STATUS.GUARD -/
def QOS_SLALOM_STATUS_GUARD (i : Nat) : Ref := ⟨0x40200 + 0x4 * i, 18, 18⟩
/-- QOS_SLALOM_STATUS.UNIT -/
def QOS_SLALOM_STATUS_UNIT (i : Nat) : Ref := ⟨0x40200 + 0x4 * i, 20, 19⟩
/-- QOS_GROOM_RATE.RATE -/
def QOS_GROOM_RATE_RATE (i : Nat) : Ref := ⟨0x40300 + 0x4 * i, 23, 0⟩
/-- QOS_POL_SEL.INDEX -/
def QOS_POL_SEL_INDEX : Ref := ⟨0x40400, 13, 0⟩
/-- QOS_POL_SEL.STRICT -/
def QOS_POL_SEL_STRICT : Ref := ⟨0x40400, 14, 14⟩
/-- QOS_POL_CNT_G.COUNT -/
def QOS_POL_CNT_G_COUNT : Ref := ⟨0x40404, 31, 0⟩
/-- QOS_POL_CNT_Y.COUNT -/
def QOS_POL_CNT_Y_COUNT : Ref := ⟨0x40408, 31, 0⟩
/-- QOS_POL_CNT_R.COUNT -/
def QOS_POL_CNT_R_COUNT : Ref := ⟨0x4040C, 31, 0⟩
/-- CMD_CFG.EN -/
def CMD_CFG_EN : Ref := ⟨0x48000, 0, 0⟩
/-- CMD_SUBSYS_ID_LO.SUBSYS_ID -/
def CMD_SUBSYS_ID_LO_SUBSYS_ID : Ref := ⟨0x48004, 31, 0⟩
/-- CMD_SUBSYS_ID_HI.SUBSYS_ID -/
def CMD_SUBSYS_ID_HI_SUBSYS_ID : Ref := ⟨0x48008, 31, 0⟩
/-- CMD_LIMITS.MAX_IOQ -/
def CMD_LIMITS_MAX_IOQ : Ref := ⟨0x4800C, 6, 0⟩
/-- CMD_LIMITS.MAX_QD -/
def CMD_LIMITS_MAX_QD : Ref := ⟨0x4800C, 26, 16⟩
/-- CMD_DIRTY_CAP.DIRTY_CAP -/
def CMD_DIRTY_CAP_DIRTY_CAP : Ref := ⟨0x48010, 23, 0⟩
/-- CMD_DIRTY_STATUS.DIRTY -/
def CMD_DIRTY_STATUS_DIRTY : Ref := ⟨0x48014, 23, 0⟩
/-- CMD_DIRTY_STATUS.HELD -/
def CMD_DIRTY_STATUS_HELD : Ref := ⟨0x48014, 24, 24⟩
/-- CMD_DIRTY_STATUS.WRITE_THROUGH -/
def CMD_DIRTY_STATUS_WRITE_THROUGH : Ref := ⟨0x48014, 25, 25⟩
/-- CMD_TAGS.FREE -/
def CMD_TAGS_FREE : Ref := ⟨0x48018, 16, 0⟩
/-- CMD_TAGS_MIN.MIN_FREE -/
def CMD_TAGS_MIN_MIN_FREE : Ref := ⟨0x4801C, 16, 0⟩
/-- CMD_FROZEN.FROZEN -/
def CMD_FROZEN_FROZEN : Ref := ⟨0x48020, 16, 0⟩
/-- CMD_FROZEN_CPL.COUNT -/
def CMD_FROZEN_CPL_COUNT : Ref := ⟨0x48024, 31, 0⟩
/-- CMD_CID_CONFLICT.COUNT -/
def CMD_CID_CONFLICT_COUNT : Ref := ⟨0x48028, 31, 0⟩
/-- CMD_KATO_EXP.COUNT -/
def CMD_KATO_EXP_COUNT : Ref := ⟨0x4802C, 31, 0⟩
/-- CMD_CTRL_RESET.COUNT -/
def CMD_CTRL_RESET_COUNT : Ref := ⟨0x48030, 31, 0⟩
/-- LAY_GEOM.K -/
def LAY_GEOM_K : Ref := ⟨0x50000, 4, 0⟩
/-- LAY_GEOM.M -/
def LAY_GEOM_M : Ref := ⟨0x50000, 7, 5⟩
/-- LAY_GEOM.STRIP -/
def LAY_GEOM_STRIP : Ref := ⟨0x50000, 10, 8⟩
/-- LAY_GEOM.SPARE_EQ -/
def LAY_GEOM_SPARE_EQ : Ref := ⟨0x50000, 14, 12⟩
/-- LAY_GEOM.N -/
def LAY_GEOM_N : Ref := ⟨0x50000, 22, 16⟩
/-- LAY_SEED.SEED -/
def LAY_SEED_SEED : Ref := ⟨0x50004, 31, 0⟩
/-- LAY_CTL.BUILD -/
def LAY_CTL_BUILD : Ref := ⟨0x50008, 0, 0⟩
/-- LAY_CTL.READY -/
def LAY_CTL_READY : Ref := ⟨0x50008, 1, 1⟩
/-- LAY_BANDS.B -/
def LAY_BANDS_B : Ref := ⟨0x5000C, 23, 0⟩
/-- LAY_SPARE_Q.Q -/
def LAY_SPARE_Q_Q : Ref := ⟨0x50010, 15, 0⟩
/-- LAY_ALLOC.COUNT -/
def LAY_ALLOC_COUNT : Ref := ⟨0x50014, 31, 0⟩
/-- LAY_FREE.COUNT -/
def LAY_FREE_COUNT : Ref := ⟨0x50018, 31, 0⟩
/-- LAY_FREE_WARN.FREE_WARN -/
def LAY_FREE_WARN_FREE_WARN : Ref := ⟨0x5001C, 31, 0⟩
/-- LAY_MAP_GEN.GEN -/
def LAY_MAP_GEN_GEN : Ref := ⟨0x50020, 31, 0⟩
/-- LAY_SAFE_GEN.GEN -/
def LAY_SAFE_GEN_GEN : Ref := ⟨0x50024, 31, 0⟩
/-- LAY_FULL.COUNT -/
def LAY_FULL_COUNT : Ref := ⟨0x50028, 31, 0⟩
/-- LAY_RCW.COUNT -/
def LAY_RCW_COUNT : Ref := ⟨0x5002C, 31, 0⟩
/-- LAY_RMW.COUNT -/
def LAY_RMW_COUNT : Ref := ⟨0x50030, 31, 0⟩
/-- LAY_DEGRADED.COUNT -/
def LAY_DEGRADED_COUNT : Ref := ⟨0x50034, 31, 0⟩
/-- LAY_MEMBER.PORT -/
def LAY_MEMBER_PORT (i : Nat) : Ref := ⟨0x50100 + 0x4 * i, 5, 0⟩
/-- LAY_MEMBER.STATE -/
def LAY_MEMBER_STATE (i : Nat) : Ref := ⟨0x50100 + 0x4 * i, 10, 8⟩
/-- SBG_CFG.GATHER -/
def SBG_CFG_GATHER : Ref := ⟨0x58000, 15, 0⟩
/-- SBG_STATUS.OPEN -/
def SBG_STATUS_OPEN : Ref := ⟨0x58004, 20, 0⟩
/-- SBG_STATUS.FULL -/
def SBG_STATUS_FULL : Ref := ⟨0x58004, 21, 21⟩
/-- SBG_STATUS.COPIES_LOW -/
def SBG_STATUS_COPIES_LOW : Ref := ⟨0x58004, 22, 22⟩
/-- SBG_STATUS.REPLAYING -/
def SBG_STATUS_REPLAYING : Ref := ⟨0x58004, 23, 23⟩
/-- SBG_SEQ_LO.SEQ -/
def SBG_SEQ_LO_SEQ : Ref := ⟨0x58008, 31, 0⟩
/-- SBG_SEQ_HI.SEQ -/
def SBG_SEQ_HI_SEQ : Ref := ⟨0x5800C, 31, 0⟩
/-- SBG_REPLAY.REPLAYED -/
def SBG_REPLAY_REPLAYED : Ref := ⟨0x58010, 15, 0⟩
/-- SBG_REPLAY.REPAIRED -/
def SBG_REPLAY_REPAIRED : Ref := ⟨0x58010, 31, 16⟩
/-- SBG_SEG.MEMBER0 -/
def SBG_SEG_MEMBER0 (i : Nat) : Ref := ⟨0x58100 + 0x4 * i, 5, 0⟩
/-- SBG_SEG.MEMBER1 -/
def SBG_SEG_MEMBER1 (i : Nat) : Ref := ⟨0x58100 + 0x4 * i, 13, 8⟩
/-- SBG_SEG.MEMBER2 -/
def SBG_SEG_MEMBER2 (i : Nat) : Ref := ⟨0x58100 + 0x4 * i, 21, 16⟩
/-- SBG_SEG.CURRENT -/
def SBG_SEG_CURRENT (i : Nat) : Ref := ⟨0x58100 + 0x4 * i, 26, 24⟩
/-- LAY_RB_CFG.AUTO_DRAIN -/
def LAY_RB_CFG_AUTO_DRAIN : Ref := ⟨0x50200, 0, 0⟩
/-- LAY_RB_CFG.MEDIA_SUSPECT -/
def LAY_RB_CFG_MEDIA_SUSPECT : Ref := ⟨0x50200, 15, 8⟩
/-- LAY_RB_DETECT.CMD_TMO -/
def LAY_RB_DETECT_CMD_TMO : Ref := ⟨0x50204, 15, 0⟩
/-- LAY_RB_DETECT.LINK_HOLD -/
def LAY_RB_DETECT_LINK_HOLD : Ref := ⟨0x50204, 27, 16⟩
/-- LAY_RB_STATUS.RUNNING -/
def LAY_RB_STATUS_RUNNING : Ref := ⟨0x50208, 0, 0⟩
/-- LAY_RB_STATUS.SPARE_OUT -/
def LAY_RB_STATUS_SPARE_OUT : Ref := ⟨0x50208, 1, 1⟩
/-- LAY_RB_STATUS.SUSPECT_SCRUB -/
def LAY_RB_STATUS_SUSPECT_SCRUB : Ref := ⟨0x50208, 2, 2⟩
/-- LAY_RB_STATUS.SCRUB_RUNNING -/
def LAY_RB_STATUS_SCRUB_RUNNING : Ref := ⟨0x50208, 3, 3⟩
/-- LAY_RB_LEFT_CRIT.EXTENTS -/
def LAY_RB_LEFT_CRIT_EXTENTS : Ref := ⟨0x5020C, 31, 0⟩
/-- LAY_RB_LEFT.EXTENTS -/
def LAY_RB_LEFT_EXTENTS : Ref := ⟨0x50210, 31, 0⟩
/-- LAY_SPARE_FREE.FREE -/
def LAY_SPARE_FREE_FREE : Ref := ⟨0x50214, 15, 0⟩
/-- LAY_LSM_STATUS.ENTRIES -/
def LAY_LSM_STATUS_ENTRIES : Ref := ⟨0x50218, 20, 0⟩
/-- LAY_LSM_STATUS.COARSE -/
def LAY_LSM_STATUS_COARSE : Ref := ⟨0x50218, 21, 21⟩
/-- LAY_SCRUB_CFG.AUTO -/
def LAY_SCRUB_CFG_AUTO : Ref := ⟨0x5021C, 0, 0⟩
/-- LAY_SCRUB_CFG.MODE -/
def LAY_SCRUB_CFG_MODE : Ref := ⟨0x5021C, 1, 1⟩
/-- LAY_SCRUB_CFG.PERIOD -/
def LAY_SCRUB_CFG_PERIOD : Ref := ⟨0x5021C, 15, 8⟩
/-- LAY_SCRUB_PROGRESS.EXTENTS -/
def LAY_SCRUB_PROGRESS_EXTENTS : Ref := ⟨0x50220, 31, 0⟩
/-- LAY_RB_DONE.COUNT -/
def LAY_RB_DONE_COUNT : Ref := ⟨0x50224, 31, 0⟩
/-- LAY_SCRUB_MISMATCH.COUNT -/
def LAY_SCRUB_MISMATCH_COUNT : Ref := ⟨0x50228, 31, 0⟩
/-- LAY_SCRUB_REPAIR.COUNT -/
def LAY_SCRUB_REPAIR_COUNT : Ref := ⟨0x5022C, 31, 0⟩
/-- LAY_MEDIA_REPAIR.COUNT -/
def LAY_MEDIA_REPAIR_COUNT : Ref := ⟨0x50230, 31, 0⟩
/-- LAY_LOST_BLOCKS.COUNT -/
def LAY_LOST_BLOCKS_COUNT : Ref := ⟨0x50234, 31, 0⟩
/-- LAY_MEMBER_ERR.MEDIA -/
def LAY_MEMBER_ERR_MEDIA (i : Nat) : Ref := ⟨0x50300 + 0x4 * i, 15, 0⟩
/-- LAY_MEMBER_ERR.TMO -/
def LAY_MEMBER_ERR_TMO (i : Nat) : Ref := ⟨0x50300 + 0x4 * i, 23, 16⟩
/-- DRV_CFG.WIDTH -/
def DRV_CFG_WIDTH : Ref := ⟨0x60000, 0, 0⟩
/-- DRV_CFG.MAX_RATE -/
def DRV_CFG_MAX_RATE : Ref := ⟨0x60000, 2, 1⟩
/-- DRV_CFG.SSC -/
def DRV_CFG_SSC : Ref := ⟨0x60000, 3, 3⟩
/-- DRV_PORT_CFG.EN -/
def DRV_PORT_CFG_EN (i : Nat) : Ref := ⟨0x60100 + 0x4 * i, 0, 0⟩
/-- DRV_PORT_CFG.QUEUES -/
def DRV_PORT_CFG_QUEUES (i : Nat) : Ref := ⟨0x60100 + 0x4 * i, 8, 1⟩
/-- DRV_PORT_CFG.QDEPTH -/
def DRV_PORT_CFG_QDEPTH (i : Nat) : Ref := ⟨0x60100 + 0x4 * i, 19, 9⟩
/-- DRV_PORT_STATUS.LINK_UP -/
def DRV_PORT_STATUS_LINK_UP (i : Nat) : Ref := ⟨0x60200 + 0x4 * i, 0, 0⟩
/-- DRV_PORT_STATUS.RATE -/
def DRV_PORT_STATUS_RATE (i : Nat) : Ref := ⟨0x60200 + 0x4 * i, 2, 1⟩
/-- DRV_PORT_STATUS.LANES -/
def DRV_PORT_STATUS_LANES (i : Nat) : Ref := ⟨0x60200 + 0x4 * i, 5, 3⟩
/-- DRV_PORT_STATUS.DPC -/
def DRV_PORT_STATUS_DPC (i : Nat) : Ref := ⟨0x60200 + 0x4 * i, 6, 6⟩
/-- DRV_PORT_STATUS.REQ_OK -/
def DRV_PORT_STATUS_REQ_OK (i : Nat) : Ref := ⟨0x60200 + 0x4 * i, 7, 7⟩
/-- DRV_PORT_STATUS.QGRANT -/
def DRV_PORT_STATUS_QGRANT (i : Nat) : Ref := ⟨0x60200 + 0x4 * i, 15, 8⟩
/-- DRV_AER_CNT.CORR -/
def DRV_AER_CNT_CORR (i : Nat) : Ref := ⟨0x60300 + 0x4 * i, 15, 0⟩
/-- DRV_AER_CNT.UNCORR -/
def DRV_AER_CNT_UNCORR (i : Nat) : Ref := ⟨0x60300 + 0x4 * i, 31, 16⟩
/-- DRV_QP_FREE.FREE -/
def DRV_QP_FREE_FREE : Ref := ⟨0x60400, 13, 0⟩
/-- STR_CFG.PG_DLY -/
def STR_CFG_PG_DLY : Ref := ⟨0x68000, 7, 0⟩
/-- STR_CFG.PERST_DLY -/
def STR_CFG_PERST_DLY : Ref := ⟨0x68000, 15, 8⟩
/-- STR_CFG.SHUT_TMO -/
def STR_CFG_SHUT_TMO : Ref := ⟨0x68000, 23, 16⟩
/-- STR_SLOT_CFG.RAMP_MS -/
def STR_SLOT_CFG_RAMP_MS (i : Nat) : Ref := ⟨0x68100 + 0x4 * i, 5, 0⟩
/-- STR_SLOT_CFG.RETRY -/
def STR_SLOT_CFG_RETRY (i : Nat) : Ref := ⟨0x68100 + 0x4 * i, 8, 6⟩
/-- STR_SLOT_CFG.COOL -/
def STR_SLOT_CFG_COOL (i : Nat) : Ref := ⟨0x68100 + 0x4 * i, 13, 9⟩
/-- STR_SLOT_CFG.AUX_FN -/
def STR_SLOT_CFG_AUX_FN (i : Nat) : Ref := ⟨0x68100 + 0x4 * i, 15, 14⟩
/-- STR_SLOT_CFG.RAMP_TMO -/
def STR_SLOT_CFG_RAMP_TMO (i : Nat) : Ref := ⟨0x68100 + 0x4 * i, 25, 16⟩
/-- STR_SLOT_CFG.LOCATE -/
def STR_SLOT_CFG_LOCATE (i : Nat) : Ref := ⟨0x68100 + 0x4 * i, 26, 26⟩
/-- STR_SLOT_LIM.FT_TH -/
def STR_SLOT_LIM_FT_TH (i : Nat) : Ref := ⟨0x68200 + 0x4 * i, 7, 0⟩
/-- STR_SLOT_LIM.BRK_TH -/
def STR_SLOT_LIM_BRK_TH (i : Nat) : Ref := ⟨0x68200 + 0x4 * i, 15, 8⟩
/-- STR_SLOT_LIM.INRUSH_LIM -/
def STR_SLOT_LIM_INRUSH_LIM (i : Nat) : Ref := ⟨0x68200 + 0x4 * i, 23, 16⟩
/-- STR_SLOT_LIM.FAULT_TMR -/
def STR_SLOT_LIM_FAULT_TMR (i : Nat) : Ref := ⟨0x68200 + 0x4 * i, 31, 24⟩
/-- STR_SLOT_STATUS.STATE -/
def STR_SLOT_STATUS_STATE (i : Nat) : Ref := ⟨0x68300 + 0x4 * i, 2, 0⟩
/-- STR_SLOT_STATUS.PG -/
def STR_SLOT_STATUS_PG (i : Nat) : Ref := ⟨0x68300 + 0x4 * i, 3, 3⟩
/-- STR_SLOT_STATUS.PFW -/
def STR_SLOT_STATUS_PFW (i : Nat) : Ref := ⟨0x68300 + 0x4 * i, 4, 4⟩
/-- STR_SLOT_STATUS.GATE -/
def STR_SLOT_STATUS_GATE (i : Nat) : Ref := ⟨0x68300 + 0x4 * i, 5, 5⟩
/-- STR_SLOT_STATUS.PRSNT -/
def STR_SLOT_STATUS_PRSNT (i : Nat) : Ref := ⟨0x68300 + 0x4 * i, 6, 6⟩
/-- STR_SLOT_STATUS.PERST -/
def STR_SLOT_STATUS_PERST (i : Nat) : Ref := ⟨0x68300 + 0x4 * i, 7, 7⟩
/-- STR_SLOT_STATUS.RETRIES_USED -/
def STR_SLOT_STATUS_RETRIES_USED (i : Nat) : Ref := ⟨0x68300 + 0x4 * i, 10, 8⟩
/-- STR_SLOT_STATUS.CAUSE -/
def STR_SLOT_STATUS_CAUSE (i : Nat) : Ref := ⟨0x68300 + 0x4 * i, 13, 11⟩
/-- STR_SLOT_MEAS.IOUT -/
def STR_SLOT_MEAS_IOUT (i : Nat) : Ref := ⟨0x68400 + 0x4 * i, 11, 0⟩
/-- STR_SLOT_MEAS.VOUT -/
def STR_SLOT_MEAS_VOUT (i : Nat) : Ref := ⟨0x68400 + 0x4 * i, 27, 16⟩
/-- STR_SLOT_PEAK.PEAK -/
def STR_SLOT_PEAK_PEAK (i : Nat) : Ref := ⟨0x68500 + 0x4 * i, 11, 0⟩
/-- STR_SLOT_PEAK.TRIPS -/
def STR_SLOT_PEAK_TRIPS (i : Nat) : Ref := ⟨0x68500 + 0x4 * i, 31, 24⟩
/-- SBD_PRSNT_CFG.PRSNT_DEB -/
def SBD_PRSNT_CFG_PRSNT_DEB : Ref := ⟨0x98000, 7, 0⟩
/-- SBD_PRSNT_LO.PRSNT -/
def SBD_PRSNT_LO_PRSNT : Ref := ⟨0x98004, 31, 0⟩
/-- SBD_PRSNT_HI.PRSNT -/
def SBD_PRSNT_HI_PRSNT : Ref := ⟨0x98008, 31, 0⟩
/-- SBD_STRAP.TWIN_ID -/
def SBD_STRAP_TWIN_ID : Ref := ⟨0x98010, 0, 0⟩
/-- SBD_I3C_CFG.EN -/
def SBD_I3C_CFG_EN (i : Nat) : Ref := ⟨0x98100 + 0x4 * i, 0, 0⟩
/-- SBD_I3C_CFG.RATE -/
def SBD_I3C_CFG_RATE (i : Nat) : Ref := ⟨0x98100 + 0x4 * i, 2, 1⟩
/-- SBD_I3C_CFG.I2C_FM -/
def SBD_I3C_CFG_I2C_FM (i : Nat) : Ref := ⟨0x98100 + 0x4 * i, 3, 3⟩
/-- SBD_I3C_ERR.NACK -/
def SBD_I3C_ERR_NACK (i : Nat) : Ref := ⟨0x98200 + 0x4 * i, 15, 0⟩
/-- SBD_I3C_ERR.IBI -/
def SBD_I3C_ERR_IBI (i : Nat) : Ref := ⟨0x98200 + 0x4 * i, 31, 16⟩
/-- HRN_CFG.EN -/
def HRN_CFG_EN : Ref := ⟨0x70000, 0, 0⟩
/-- HRN_CFG.TWIN_FITTED -/
def HRN_CFG_TWIN_FITTED : Ref := ⟨0x70000, 1, 1⟩
/-- HRN_CFG.AUTO_JOIN -/
def HRN_CFG_AUTO_JOIN : Ref := ⟨0x70000, 2, 2⟩
/-- HRN_CFG.ARB5 -/
def HRN_CFG_ARB5 : Ref := ⟨0x70000, 3, 3⟩
/-- HRN_TLAG.T_LAG -/
def HRN_TLAG_T_LAG : Ref := ⟨0x70004, 5, 0⟩
/-- HRN_SILENCE.SILENCE -/
def HRN_SILENCE_SILENCE : Ref := ⟨0x70008, 9, 0⟩
/-- HRN_SILENCE.QUORUM_DLY -/
def HRN_SILENCE_QUORUM_DLY : Ref := ⟨0x70008, 25, 16⟩
/-- HRN_ARB_CFG.ARB_CMD_TMO -/
def HRN_ARB_CFG_ARB_CMD_TMO : Ref := ⟨0x7000C, 9, 0⟩
/-- HRN_ARB_CFG.ARB_RETRY -/
def HRN_ARB_CFG_ARB_RETRY : Ref := ⟨0x7000C, 29, 16⟩
/-- HRN_DIG.DIG_WAIT -/
def HRN_DIG_DIG_WAIT : Ref := ⟨0x70010, 13, 0⟩
/-- HRN_JOIN_RATE.JOIN_RATE -/
def HRN_JOIN_RATE_JOIN_RATE : Ref := ⟨0x70014, 8, 0⟩
/-- HRN_CLAIM.KEY -/
def HRN_CLAIM_KEY : Ref := ⟨0x70018, 31, 0⟩
/-- HRN_EPOCH.EPOCH -/
def HRN_EPOCH_EPOCH : Ref := ⟨0x70020, 31, 0⟩
/-- HRN_DEVTAG.DEVICE_TAG -/
def HRN_DEVTAG_DEVICE_TAG : Ref := ⟨0x70024, 23, 0⟩
/-- HRN_ARB.MEMBERS -/
def HRN_ARB_MEMBERS : Ref := ⟨0x70028, 29, 0⟩
/-- HRN_STATUS.ROLE -/
def HRN_STATUS_ROLE : Ref := ⟨0x70040, 2, 0⟩
/-- HRN_STATUS.HOLDER -/
def HRN_STATUS_HOLDER : Ref := ⟨0x70040, 3, 3⟩
/-- HRN_STATUS.LINK -/
def HRN_STATUS_LINK : Ref := ⟨0x70040, 4, 4⟩
/-- HRN_STATUS.LANES -/
def HRN_STATUS_LANES : Ref := ⟨0x70040, 6, 5⟩
/-- HRN_STATUS.SILENT -/
def HRN_STATUS_SILENT : Ref := ⟨0x70040, 7, 7⟩
/-- HRN_STATUS.CAUSE -/
def HRN_STATUS_CAUSE : Ref := ⟨0x70040, 10, 8⟩
/-- HRN_STATUS.JOINING_PEER -/
def HRN_STATUS_JOINING_PEER : Ref := ⟨0x70040, 11, 11⟩
/-- HRN_JOIN_STATUS.PERCENT -/
def HRN_JOIN_STATUS_PERCENT : Ref := ⟨0x70044, 6, 0⟩
/-- HRN_ORD.OUTSTANDING -/
def HRN_ORD_OUTSTANDING : Ref := ⟨0x70048, 17, 0⟩
/-- HRN_LAST_SWAP_LO.TIME -/
def HRN_LAST_SWAP_LO_TIME : Ref := ⟨0x70050, 31, 0⟩
/-- HRN_LAST_SWAP_HI.TIME -/
def HRN_LAST_SWAP_HI_TIME : Ref := ⟨0x70054, 31, 0⟩
/-- HRN_DIG_WINDOWS.COUNT -/
def HRN_DIG_WINDOWS_COUNT : Ref := ⟨0x70060, 31, 0⟩
/-- HRN_DIG_MISMATCH.COUNT -/
def HRN_DIG_MISMATCH_COUNT : Ref := ⟨0x70064, 31, 0⟩
/-- HRN_DIG_LATE.COUNT -/
def HRN_DIG_LATE_COUNT : Ref := ⟨0x70068, 31, 0⟩
/-- HRN_TLAG_DROP.COUNT -/
def HRN_TLAG_DROP_COUNT : Ref := ⟨0x7006C, 31, 0⟩
/-- HRN_FLIT_REPLAY.COUNT -/
def HRN_FLIT_REPLAY_COUNT : Ref := ⟨0x70070, 31, 0⟩
/-- HRN_FLIT_BAD.COUNT -/
def HRN_FLIT_BAD_COUNT : Ref := ⟨0x70074, 31, 0⟩
/-- HRN_ARB_ROUNDS.COUNT -/
def HRN_ARB_ROUNDS_COUNT : Ref := ⟨0x70078, 31, 0⟩
/-- CPH_CFG.BG_SLOTS -/
def CPH_CFG_BG_SLOTS : Ref := ⟨0x78000, 13, 0⟩
/-- CPH_CFG.MM_WINDOW -/
def CPH_CFG_MM_WINDOW : Ref := ⟨0x78000, 23, 16⟩
/-- CPH_HOLD_STATUS.FREE -/
def CPH_HOLD_STATUS_FREE : Ref := ⟨0x78004, 13, 0⟩
/-- CPH_HOLD_STATUS.BG_USED -/
def CPH_HOLD_STATUS_BG_USED : Ref := ⟨0x78004, 27, 14⟩
/-- CPH_HOLD_MIN.MIN_FREE -/
def CPH_HOLD_MIN_MIN_FREE : Ref := ⟨0x78008, 13, 0⟩
/-- CPH_PIPE_STATUS.REST_EN -/
def CPH_PIPE_STATUS_REST_EN : Ref := ⟨0x7800C, 15, 0⟩
/-- CPH_PIPE_STATUS.WIRE_EN -/
def CPH_PIPE_STATUS_WIRE_EN : Ref := ⟨0x7800C, 31, 16⟩
/-- CPH_PREFIX.PREFIX -/
def CPH_PREFIX_PREFIX : Ref := ⟨0x78010, 31, 0⟩
/-- CPH_CTR_LO.CTR -/
def CPH_CTR_LO_CTR : Ref := ⟨0x78014, 31, 0⟩
/-- CPH_CTR_HI.CTR -/
def CPH_CTR_HI_CTR : Ref := ⟨0x78018, 31, 0⟩
/-- CPH_KEY_STATUS.DATA_FREE -/
def CPH_KEY_STATUS_DATA_FREE : Ref := ⟨0x7801C, 16, 0⟩
/-- CPH_KEY_STATUS.RESEAL -/
def CPH_KEY_STATUS_RESEAL : Ref := ⟨0x7801C, 17, 17⟩
/-- CPH_MISMATCH.COUNT -/
def CPH_MISMATCH_COUNT : Ref := ⟨0x78030, 31, 0⟩
/-- CPH_RETRY_OK.COUNT -/
def CPH_RETRY_OK_COUNT : Ref := ⟨0x78034, 31, 0⟩
/-- CPH_REENC_FAIL.COUNT -/
def CPH_REENC_FAIL_COUNT : Ref := ⟨0x78038, 31, 0⟩
/-- CPH_INTEGRITY.COUNT -/
def CPH_INTEGRITY_COUNT : Ref := ⟨0x7803C, 31, 0⟩
/-- CPH_GUARD_FAIL.COUNT -/
def CPH_GUARD_FAIL_COUNT : Ref := ⟨0x78040, 31, 0⟩
/-- CPH_ZERO_READ.COUNT -/
def CPH_ZERO_READ_COUNT : Ref := ⟨0x78044, 31, 0⟩
/-- CPH_PIPE_ERR.MISMATCH -/
def CPH_PIPE_ERR_MISMATCH (i : Nat) : Ref := ⟨0x78100 + 0x4 * i, 7, 0⟩
/-- CPH_PIPE_ERR.DISABLED -/
def CPH_PIPE_ERR_DISABLED (i : Nat) : Ref := ⟨0x78100 + 0x4 * i, 8, 8⟩
/-- SEC_STATUS.FUSE_COUNT -/
def SEC_STATUS_FUSE_COUNT : Ref := ⟨0x80000, 6, 0⟩
/-- SEC_STATUS.SVN -/
def SEC_STATUS_SVN : Ref := ⟨0x80000, 14, 8⟩
/-- SEC_STATUS.BOOT_SLOT -/
def SEC_STATUS_BOOT_SLOT : Ref := ⟨0x80000, 15, 15⟩
/-- SEC_STATUS.FALLBACK -/
def SEC_STATUS_FALLBACK : Ref := ⟨0x80000, 16, 16⟩
/-- SEC_STATUS.BOOT_FAULT -/
def SEC_STATUS_BOOT_FAULT : Ref := ⟨0x80000, 17, 17⟩
/-- SEC_STATUS.OWNED -/
def SEC_STATUS_OWNED : Ref := ⟨0x80000, 18, 18⟩
/-- SEC_STATUS.PENDING_SVN -/
def SEC_STATUS_PENDING_SVN : Ref := ⟨0x80000, 30, 24⟩
/-- SEC_ADMIN.ADMIN_MASK -/
def SEC_ADMIN_ADMIN_MASK : Ref := ⟨0x80004, 15, 0⟩
/-- SEC_SOAK.SVN_SOAK -/
def SEC_SOAK_SVN_SOAK : Ref := ⟨0x80008, 7, 0⟩
/-- SEC_SOAK_S.SOAK_S -/
def SEC_SOAK_S_SOAK_S : Ref := ⟨0x8000C, 31, 0⟩
/-- SEC_REC_SEQ_LO.SEQ -/
def SEC_REC_SEQ_LO_SEQ : Ref := ⟨0x80010, 31, 0⟩
/-- SEC_REC_SEQ_HI.SEQ -/
def SEC_REC_SEQ_HI_SEQ : Ref := ⟨0x80014, 31, 0⟩
/-- SEC_MEAS_SEL.BLOCK -/
def SEC_MEAS_SEL_BLOCK : Ref := ⟨0x80018, 3, 0⟩
/-- SEC_MEAS.DIGEST -/
def SEC_MEAS_DIGEST (i : Nat) : Ref := ⟨0x80020 + 0x4 * i, 31, 0⟩
/-- SEC_KEYS.UNBOUND -/
def SEC_KEYS_UNBOUND : Ref := ⟨0x80040, 16, 0⟩
/-- SEC_LOCKS.LOCKS -/
def SEC_LOCKS_LOCKS : Ref := ⟨0x80044, 16, 0⟩
/-- PWR_CTL.REQ -/
def PWR_CTL_REQ : Ref := ⟨0x8000, 1, 0⟩
/-- PWR_STATUS.STATE -/
def PWR_STATUS_STATE : Ref := ⟨0x8004, 1, 0⟩
/-- PWR_STATUS.REFUSED -/
def PWR_STATUS_REFUSED : Ref := ⟨0x8004, 2, 2⟩
/-- PWR_STATUS.PHASE -/
def PWR_STATUS_PHASE : Ref := ⟨0x8004, 5, 3⟩
/-- PWR_STATUS.WARN -/
def PWR_STATUS_WARN : Ref := ⟨0x8004, 6, 6⟩
/-- PWR_STATUS.EXT -/
def PWR_STATUS_EXT : Ref := ⟨0x8004, 7, 7⟩
/-- PWR_VIN_CFG.WARN_TH -/
def PWR_VIN_CFG_WARN_TH : Ref := ⟨0x8008, 7, 0⟩
/-- PWR_VIN_CFG.DROP_TH -/
def PWR_VIN_CFG_DROP_TH : Ref := ⟨0x8008, 15, 8⟩
/-- PWR_VIN_CFG.HYST -/
def PWR_VIN_CFG_HYST : Ref := ⟨0x8008, 20, 16⟩
/-- PWR_VIN_CFG.WARN_FILT -/
def PWR_VIN_CFG_WARN_FILT : Ref := ⟨0x8008, 27, 21⟩
/-- PWR_VIN_CFG.EXT_WARN -/
def PWR_VIN_CFG_EXT_WARN : Ref := ⟨0x8008, 28, 28⟩
/-- PWR_RECOVER.RECOVER -/
def PWR_RECOVER_RECOVER : Ref := ⟨0x800C, 9, 0⟩
/-- PWR_VIN_MEAS.VIN -/
def PWR_VIN_MEAS_VIN : Ref := ⟨0x8010, 11, 0⟩
/-- PWR_VIN_MEAS.PIN -/
def PWR_VIN_MEAS_PIN : Ref := ⟨0x8010, 24, 16⟩
/-- PWR_DRAIN_TIME.TIME -/
def PWR_DRAIN_TIME_TIME : Ref := ⟨0x8014, 23, 0⟩
/-- PWR_RAIL_STATUS.GOOD -/
def PWR_RAIL_STATUS_GOOD : Ref := ⟨0x8018, 5, 0⟩
/-- PWR_RAIL_STATUS.FAULT -/
def PWR_RAIL_STATUS_FAULT : Ref := ⟨0x8018, 13, 8⟩
/-- PWR_DOM_CFG.PWR_RUN -/
def PWR_DOM_CFG_PWR_RUN (i : Nat) : Ref := ⟨0x8100 + 0x4 * i, 0, 0⟩
/-- PWR_DOM_CFG.PWR_SLEEP -/
def PWR_DOM_CFG_PWR_SLEEP (i : Nat) : Ref := ⟨0x8100 + 0x4 * i, 1, 1⟩
/-- PWR_DOM_CFG.PWR_DEEP -/
def PWR_DOM_CFG_PWR_DEEP (i : Nat) : Ref := ⟨0x8100 + 0x4 * i, 2, 2⟩
/-- PWR_DOM_CFG.ON -/
def PWR_DOM_CFG_ON (i : Nat) : Ref := ⟨0x8100 + 0x4 * i, 3, 3⟩
/-- PWR_DOM_CFG.DOM_PEND -/
def PWR_DOM_CFG_DOM_PEND (i : Nat) : Ref := ⟨0x8100 + 0x4 * i, 4, 4⟩
/-- CLK_CFG.FB_YIELD -/
def CLK_CFG_FB_YIELD : Ref := ⟨0x4000, 0, 0⟩
/-- CLK_CFG.FIO_DEEP -/
def CLK_CFG_FIO_DEEP : Ref := ⟨0x4000, 1, 1⟩
/-- CLK_CFG.XTAL_TMO -/
def CLK_CFG_XTAL_TMO : Ref := ⟨0x4000, 15, 8⟩
/-- CLK_STATUS.FIO_READY -/
def CLK_STATUS_FIO_READY : Ref := ⟨0x4004, 0, 0⟩
/-- CLK_STATUS.XA_OK -/
def CLK_STATUS_XA_OK : Ref := ⟨0x4004, 1, 1⟩
/-- CLK_STATUS.XB_OK -/
def CLK_STATUS_XB_OK : Ref := ⟨0x4004, 2, 2⟩
/-- CLK_STATUS.HOLD -/
def CLK_STATUS_HOLD : Ref := ⟨0x4004, 3, 3⟩
/-- CLK_STATUS.FALLBACK -/
def CLK_STATUS_FALLBACK : Ref := ⟨0x4004, 4, 4⟩
/-- CLK_STATUS.XB_SRC -/
def CLK_STATUS_XB_SRC : Ref := ⟨0x4004, 5, 5⟩
/-- CLK_STATUS.PLL_LOCK -/
def CLK_STATUS_PLL_LOCK : Ref := ⟨0x4004, 15, 8⟩
/-- CLK_MON_CFG.XA_TOL -/
def CLK_MON_CFG_XA_TOL : Ref := ⟨0x4008, 4, 0⟩
/-- CLK_MON_CFG.FIO_TOL -/
def CLK_MON_CFG_FIO_TOL : Ref := ⟨0x4008, 13, 8⟩
/-- CLK_MON_CFG.XB_TOL -/
def CLK_MON_CFG_XB_TOL : Ref := ⟨0x4008, 29, 16⟩
/-- CLK_MON_STATUS.XA_STOP -/
def CLK_MON_STATUS_XA_STOP : Ref := ⟨0x400C, 0, 0⟩
/-- CLK_MON_STATUS.XA_FREQ -/
def CLK_MON_STATUS_XA_FREQ : Ref := ⟨0x400C, 1, 1⟩
/-- CLK_MON_STATUS.XB_STOP -/
def CLK_MON_STATUS_XB_STOP : Ref := ⟨0x400C, 2, 2⟩
/-- CLK_MON_STATUS.XB_FREQ -/
def CLK_MON_STATUS_XB_FREQ : Ref := ⟨0x400C, 3, 3⟩
/-- CLK_MON_STATUS.FIO_STOP -/
def CLK_MON_STATUS_FIO_STOP : Ref := ⟨0x400C, 4, 4⟩
/-- CLK_MON_STATUS.FIO_FREQ -/
def CLK_MON_STATUS_FIO_FREQ : Ref := ⟨0x400C, 5, 5⟩
/-- CLK_MON_STATUS.PLL_UNLOCK -/
def CLK_MON_STATUS_PLL_UNLOCK : Ref := ⟨0x400C, 15, 8⟩
/-- CLK_MEAS_XA.DEV -/
def CLK_MEAS_XA_DEV : Ref := ⟨0x4010, 31, 0⟩
/-- CLK_MEAS_XB.DEV -/
def CLK_MEAS_XB_DEV : Ref := ⟨0x4014, 31, 0⟩
/-- CLK_MEAS_FIO.DEV -/
def CLK_MEAS_FIO_DEV : Ref := ⟨0x4018, 31, 0⟩
/-- CLK_PLL_STATUS.LOCK -/
def CLK_PLL_STATUS_LOCK (i : Nat) : Ref := ⟨0x4040 + 0x4 * i, 0, 0⟩
/-- CLK_PLL_STATUS.REF -/
def CLK_PLL_STATUS_REF (i : Nat) : Ref := ⟨0x4040 + 0x4 * i, 1, 1⟩
/-- CLK_PLL_STATUS.FREQ -/
def CLK_PLL_STATUS_FREQ (i : Nat) : Ref := ⟨0x4040 + 0x4 * i, 27, 16⟩
/-- CLK_CD_CFG.RUN_EN -/
def CLK_CD_CFG_RUN_EN (i : Nat) : Ref := ⟨0x4100 + 0x4 * i, 0, 0⟩
/-- CLK_CD_CFG.SLEEP_EN -/
def CLK_CD_CFG_SLEEP_EN (i : Nat) : Ref := ⟨0x4100 + 0x4 * i, 1, 1⟩
/-- CLK_CD_CFG.DEEP_EN -/
def CLK_CD_CFG_DEEP_EN (i : Nat) : Ref := ⟨0x4100 + 0x4 * i, 2, 2⟩
/-- CLK_CD_STATUS.SRC -/
def CLK_CD_STATUS_SRC (i : Nat) : Ref := ⟨0x4200 + 0x4 * i, 1, 0⟩
/-- CLK_CD_STATUS.GATED -/
def CLK_CD_STATUS_GATED (i : Nat) : Ref := ⟨0x4200 + 0x4 * i, 2, 2⟩
/-- CLK_CD_STATUS.GATE_PEND -/
def CLK_CD_STATUS_GATE_PEND (i : Nat) : Ref := ⟨0x4200 + 0x4 * i, 3, 3⟩
/-- CLK_CD_STATUS.SWITCHING -/
def CLK_CD_STATUS_SWITCHING (i : Nat) : Ref := ⟨0x4200 + 0x4 * i, 4, 4⟩
/-- CLK_CD_STATUS.SWITCHES -/
def CLK_CD_STATUS_SWITCHES (i : Nat) : Ref := ⟨0x4200 + 0x4 * i, 15, 8⟩
/-- CLK_STARTUP.RAILS -/
def CLK_STARTUP_RAILS : Ref := ⟨0x4300, 0, 0⟩
/-- CLK_STARTUP.CLOCKS -/
def CLK_STARTUP_CLOCKS : Ref := ⟨0x4300, 1, 1⟩
/-- CLK_STARTUP.BOOT -/
def CLK_STARTUP_BOOT : Ref := ⟨0x4300, 2, 2⟩
/-- CLK_STARTUP.HBM -/
def CLK_STARTUP_HBM : Ref := ⟨0x4300, 3, 3⟩
/-- CLK_STARTUP.RECORD -/
def CLK_STARTUP_RECORD : Ref := ⟨0x4300, 4, 4⟩
/-- CLK_STARTUP.CLAIM -/
def CLK_STARTUP_CLAIM : Ref := ⟨0x4300, 5, 5⟩
/-- CLK_STARTUP.REPLAY -/
def CLK_STARTUP_REPLAY : Ref := ⟨0x4300, 6, 6⟩
/-- CLK_STARTUP.MAPS -/
def CLK_STARTUP_MAPS : Ref := ⟨0x4300, 7, 7⟩
/-- CLK_STARTUP.EXT -/
def CLK_STARTUP_EXT : Ref := ⟨0x4300, 8, 8⟩
/-- CLK_STARTUP.VIN_OK -/
def CLK_STARTUP_VIN_OK : Ref := ⟨0x4300, 9, 9⟩
/-- CLK_STARTUP.IO_READY -/
def CLK_STARTUP_IO_READY : Ref := ⟨0x4300, 10, 10⟩
/-- CLK_BOOT_TIME.MS -/
def CLK_BOOT_TIME_MS : Ref := ⟨0x4304, 23, 0⟩
/-- CLK_READY_TIME.MS -/
def CLK_READY_TIME_MS : Ref := ⟨0x4308, 23, 0⟩
/-- TEL_WIN_STATUS.ENABLED -/
def TEL_WIN_STATUS_ENABLED (i : Nat) : Ref := ⟨0x90100 + 0x10 * i, 0, 0⟩
/-- TEL_WIN_STATUS.ERROR -/
def TEL_WIN_STATUS_ERROR (i : Nat) : Ref := ⟨0x90100 + 0x10 * i, 1, 1⟩
/-- TEL_WIN_STATUS.TAIL -/
def TEL_WIN_STATUS_TAIL (i : Nat) : Ref := ⟨0x90100 + 0x10 * i, 31, 16⟩
/-- TEL_WIN_HEAD.HEAD -/
def TEL_WIN_HEAD_HEAD (i : Nat) : Ref := ⟨0x90104 + 0x10 * i, 15, 0⟩
/-- TEL_WIN_LOST.LOST -/
def TEL_WIN_LOST_LOST (i : Nat) : Ref := ⟨0x90108 + 0x10 * i, 31, 0⟩
/-- TEL_SMP_STATUS.ENABLED -/
def TEL_SMP_STATUS_ENABLED : Ref := ⟨0x90200, 0, 0⟩
/-- TEL_SMP_STATUS.ERROR -/
def TEL_SMP_STATUS_ERROR : Ref := ⟨0x90200, 1, 1⟩
/-- TEL_SMP_STATUS.TAIL -/
def TEL_SMP_STATUS_TAIL : Ref := ⟨0x90200, 31, 16⟩
/-- TEL_SMP_HEAD.HEAD -/
def TEL_SMP_HEAD_HEAD : Ref := ⟨0x90204, 15, 0⟩
/-- TEL_SMP_TAKEN.COUNT -/
def TEL_SMP_TAKEN_COUNT : Ref := ⟨0x90208, 31, 0⟩
/-- TEL_SMP_DROPPED.COUNT -/
def TEL_SMP_DROPPED_COUNT : Ref := ⟨0x9020C, 31, 0⟩
/-- TEL_C2H_EN.EN -/
def TEL_C2H_EN_EN (i : Nat) : Ref := ⟨0x90300 + 0x4 * i, 31, 0⟩
/-- PWR_THERM.TJ -/
def PWR_THERM_TJ : Ref := ⟨0x801C, 7, 0⟩
/-- PWR_THERM.TJ_WARN -/
def PWR_THERM_TJ_WARN : Ref := ⟨0x801C, 15, 8⟩
/-- PWR_THERM.TJ_MAX -/
def PWR_THERM_TJ_MAX : Ref := ⟨0x801C, 23, 16⟩
/-- PWR_THERM.HOLD -/
def PWR_THERM_HOLD : Ref := ⟨0x801C, 24, 24⟩

end Reg
end Sys2Proof.Machine
end

