-- ==== Sys2Proof/Machine/Assoc.lean ====
section
/-! DEFINITION. Sparse arrays as plain data: a list of (index, value) pairs with strictly rising indices and no entry
equal to the value an unlisted index reads as, so that equal arrays are equal lists. -/
namespace Sys2Proof.Machine

/-- A sparse array over Nat indices. -/
abbrev Assoc (α : Type) := List (Nat × α)

/-- The element at index `k`; an unlisted index reads as `d`. -/
def Assoc.get {α : Type} (d : α) : Assoc α → Nat → α
  | [], _ => d
  | (i, v) :: m, k => if i = k then v else Assoc.get d m k

/-- Remove index `k`, wherever it is listed. -/
def Assoc.del {α : Type} : Assoc α → Nat → Assoc α
  | [], _ => []
  | (i, v) :: m, k => if i = k then Assoc.del m k else (i, v) :: Assoc.del m k

/-- Put `v` at index `k`, keeping the indices rising. -/
def Assoc.put {α : Type} : Assoc α → Nat → α → Assoc α
  | [], k, v => [(k, v)]
  | (i, w) :: m, k, v =>
    if k < i then (k, v) :: (i, w) :: m
    else if i = k then (k, v) :: m
    else (i, w) :: Assoc.put m k v

/-- Write `v` at index `k`; writing the default `d` removes the entry. -/
def Assoc.set {α : Type} [DecidableEq α] (d : α) (m : Assoc α) (k : Nat) (v : α) : Assoc α :=
  if v = d then m.del k else m.put k v

/-- Change the element at index `k`. -/
def Assoc.upd {α : Type} [DecidableEq α] (d : α) (m : Assoc α) (k : Nat) (f : α → α) : Assoc α :=
  m.set d k (f (m.get d k))

/-- Change every listed element, dropping those that become the default. -/
def Assoc.mapAll {α : Type} [DecidableEq α] (d : α) (m : Assoc α) (f : Nat → α → α) : Assoc α :=
  m.filterMap fun e => if f e.1 e.2 = d then none else some (e.1, f e.1 e.2)

/-- The indices listed. -/
def Assoc.keys {α : Type} (m : Assoc α) : List Nat := m.map Prod.fst

/-- The number of indices `k` below `n` whose element satisfies `p`. -/
def Assoc.count {α : Type} (m : Assoc α) (p : α → Bool) : Nat := (m.filter fun e => p e.2).length

/-- The canonical form: indices strictly rising, no entry equal to the default. -/
def Assoc.wf {α : Type} [DecidableEq α] (d : α) : Assoc α → Bool
  | [] => true
  | [(_, v)] => decide (v ≠ d)
  | (i, v) :: (j, w) :: m => decide (i < j) && decide (v ≠ d) && Assoc.wf d ((j, w) :: m)

end Sys2Proof.Machine
end

