-- ==== Sys2Proof/Machine/State.lean ====
section
/-! DEFINITION. The state of the block as plain data, and the reasons a step can stop. -/
namespace Sys2Proof.Machine

/-! ## Chapter 02: shelf time and the scheduler -/

/-- The time states of Table 02-2 (R25). -/
inductive TimeState where
  | freerun | acquiring | locked | holdover | twin
  deriving DecidableEq, Repr

/-- One of the 512 timer slots (R35, R38). `owner` 0 is a free slot; `target` is read by `action` (Table 02-3). -/
structure Slot where
  owner : Nat := 0
  armed : Bool := false
  compare : Nat := 0
  period : Nat := 0
  action : Nat := 0
  target : Nat := 0
  missed : Nat := 0
  deriving DecidableEq, Repr

/-- The TIM block: shelf time (R21), the PTP client (R23 to R26), twin time (R29), the secure time floor (R31 to R34)
and the timer slots (R35 to R39). Times are in ns, `frac` and what a slew has still to remove in 1/65,536 ns, corrections in
1/65,536 ns per 8 ns tick; port timestamps, the path delay and the offset are in half picoseconds, the common unit of the 1/16 ns of R24 and
the ps of TIM_PORT_DLY. -/
structure Tim where
  ns : Nat := 0
  frac : Nat := 0
  st : TimeState := .freerun
  /-- the state the twin's own servo has reached while `st` is TWIN -/
  ownSt : TimeState := .freerun
  gm : Option PtpMaster := none
  /-- the sub-port (4n + s) on which the selected grandmaster is heard -/
  gmPort : Nat := 0
  goodSyncs : Nat := 0
  syncsSeen : Bool := false
  announceSeen : Bool := false
  missedSyncs : Nat := 0
  /-- last measured offset, grandmaster minus the servo's time -/
  offset : Int := 0
  /-- an offset measured and not yet corrected by the servo -/
  newOffset : Bool := false
  /-- true until the first correction in ACQUIRING after FREERUN (R26) -/
  firstFix : Bool := true
  slewing : Bool := false
  slewLeft : Int := 0
  corr : Int := 0
  /-- the corrections applied in LOCKED, newest first, each with the shelf time from which it was applied (R25) -/
  corrs : List (Nat × Int) := []
  /-- when LOCKED was last entered, when the last Sync was taken in, and the mean that slot 511 keeps -/
  lockedAt : Nat := 0
  lastSync : Nat := 0
  meanCorr : Int := 0
  pathDelay : Int := 0
  syncT1 : Int := 0
  syncT2 : Int := 0
  reqT3 : Int := 0
  /-- in TWIN: what the twin's own servo time is ahead of shelf time, its correction, and what shelf time still has to
  fall back to the holder's (R29) -/
  ownDiff : Int := 0
  ownCorr : Int := 0
  followLeft : Int := 0
  diverged : Bool := false
  onXA : Bool := false
  floor : Nat := 0
  floorRef : Nat := 0
  floorHold : Bool := false
  peerFloor : Nat := 0
  slots : Assoc Slot := []
  deriving DecidableEq, Repr

/-! ## Chapter 03: rings, doorbells, guarded commands, events -/

/-- Completion status values (Table 03-7). -/
inductive MStatus where
  | success | invalidOpcode | invalidField | dataXferError | limitExceeded | configConflict | notCinchHolder
  | guardRequired | guardKey | guardNonce | guardTime | guardMismatch | guardSignature | retentionLocked
  | deviceDraining | busy
  deriving DecidableEq, Repr

/-- A command ring (R42, R43, R46). -/
structure CRing where
  base : Nat := 0
  enabled : Bool := false
  log2 : Nat := 4
  ering : Nat := 0
  head : Nat := 0
  tail : Nat := 0
  err : Bool := false
  /-- a FENCE descriptor that has been fetched, with its completion slot, and waits for the earlier commands of the ring -/
  fence : Option (Descriptor × Option Envelope) := none
  deriving DecidableEq, Repr

/-- The fields of a completion entry (Table 03-4) but its phase. -/
structure Completion where
  ring : Nat
  cid : BitVec 16
  status : Nat
  chead : Nat
  result0 : Nat
  result1 : Nat
  time : Nat
  deriving DecidableEq, Repr

/-- An event ring (R42, R44, R48). `used` counts slots written and not yet released, `reserved` the slots kept for
completions, `owed` the completions that wait for a released slot, `unsignalled` the entries since the last interrupt and `firstAt`
the time of the first of them. -/
structure ERing where
  base : Nat := 0
  enabled : Bool := false
  log2 : Nat := 4
  vector : Nat := 0
  coalCount : Nat := 0
  coalTime : Nat := 0
  head : Nat := 0
  tail : Nat := 0
  used : Nat := 0
  reserved : Nat := 0
  owed : List Completion := []
  phase : Bool := true
  err : Bool := false
  unsignalled : Nat := 0
  firstAt : Nat := 0
  deriving DecidableEq, Repr

/-- A management command that has started and is not yet posted (R43, R46). `waits` is true once its checks have
passed and it waits for something else to finish, `result` its status, RESULT0 and RESULT1 once the peer's part alone is outstanding (R371); `drop` marks a completion
that is to be discarded (R58). -/
structure Started where
  id : Nat
  ring : Nat
  /-- the event ring bound when the command was fetched -/
  ering : Nat
  desc : Descriptor
  env : Option Envelope
  chead : Nat
  time : Nat
  waits : Bool
  drop : Bool
  /-- the peer has been told and has not yet answered -/
  peer : Bool := false
  result : Option (MStatus × Nat × Nat) := none
  deriving DecidableEq, Repr

/-- An outstanding nonce (R53). -/
structure Nonce where
  value : BitVec 128
  expires : Nat
  deriving DecidableEq, Repr

/-- The CTL block: rings, started commands, nonces, guard storm (R42 to R54). `rr`, the round-robin pointer over the command rings, starts
at ring 0 after a full-device and after an endpoint reset (log entry 108). -/
structure Ctl where
  crings : Assoc CRing := []
  erings : Assoc ERing := []
  rr : Nat := 0
  started : List Started := []
  nextId : Nat := 0
  nonces : List Nonce := []
  /-- times of the guard-check failures of the last 10 s, newest first -/
  fails : List Nat := []
  storm : Bool := false
  lastFail : Nat := 0
  /-- the time of the last wedge NMI, for AUTO_RESET (R59) -/
  wedgedAt : Option Nat := none
  wedged : BitVec 22 := 0
  deriving DecidableEq, Repr

/-- Occurrences counted while another event ring was configured (R60): that ring, the count, and the first one's DETAIL and TIME. -/
structure OldCount where
  ring : Nat
  count : Nat
  detail : List Nat
  time : Nat
  deriving DecidableEq, Repr

/-- One event source (R56, R57, R60): `count`, `detail` and `time` tell of the occurrences counted for the ring configured now, `old` of
those still pending for rings configured before. -/
structure Src where
  ringEn : Bool := false
  alertEn : Bool := true
  ering : Nat := 0
  pend : Bool := false
  count : Nat := 0
  detail : List Nat := []
  time : Nat := 0
  old : List OldCount := []
  deriving DecidableEq, Repr

/-- The EVT block, and the words written to BAR4/5, the MSI-X table (R41). -/
structure Evt where
  msix : Assoc Word := []
  srcs : Assoc Src := []
  nmiLast : Nat := 0
  nmiFromPeer : Bool := false
  deriving DecidableEq, Repr

/-- What is fused into the device or strapped on the board (GLB_ID, GLB_SERIAL, GLB_STATUS.TWIN_ID, HRN_DEVTAG). -/
structure Glb where
  stepping : Nat := 0
  serial : Nat := 0
  twinB : Bool := false
  deviceTag : Nat := 0
  deriving DecidableEq, Repr

/-! ## Chapter 04: the Tack cores -/

/-- One entry of a core's PMP (R61, R69): a region and the accesses that user mode has to it. -/
structure Region where
  base : Nat
  size : Nat
  r : Bool
  w : Bool
  x : Bool := false
  deriving DecidableEq, Repr

/-- A primitive call: its ticket (call slot and sequence), the descriptor bytes copied at issue (R66), the outcome the
engine has computed (`res`), and whether it has been written back (`done`). `waitsLock` is the lock an acquire waits
for (R68). -/
structure Call where
  core : Nat
  slot : Nat
  seq : Nat
  prim : Nat
  rank : Nat := 1
  notify : Bool := false
  tier1 : Bool := false
  tag : Nat := 0xFFFFFFFF
  args : List Byte := []
  addr : Nat := 0
  res : Option (Nat × Nat) := none
  done : Bool := false
  waitsLock : Option Nat := none
  /-- its invocation was abandoned: the call is freed once it completes (R71) -/
  orphan : Bool := false
  deriving DecidableEq, Repr

/-- A PCALL that stalls its core while 16 calls are outstanding (R64), with its rd. -/
structure Stall where
  core : Nat
  prim : Nat
  addr : Nat
  rd : Nat
  deriving DecidableEq, Repr

/-- A core stalled in PWAIT: its ticket and the PWAIT's rd (R65). -/
structure CoreWait where
  core : Nat
  ticket : Nat
  rd : Nat
  deriving DecidableEq, Repr

/-- One cluster: stopped by an uncorrectable error (R63). -/
structure Cluster where
  stopped : Bool := false
  deriving DecidableEq, Repr

/-- A hardware queue or ring that the RING primitive reaches. -/
structure HwQueue where
  head : Nat := 0
  tail : Nat := 0
  entries : List (List Byte) := []
  deriving DecidableEq, Repr

/-- An invocation of the extension (R71): the core it runs on, the hook, and the connection, tag, slot or window it
runs for. -/
structure HookRun where
  core : Nat
  hook : Nat
  subject : Nat
  deriving DecidableEq, Repr

/-- An extension key pair (R73): SLOT's keys as enrolled and the version floor. -/
structure ExtKey where
  enrolled : Bool := false
  rsaE : Nat := 0
  rsaN : List Byte := []
  mldsa : List Byte := []
  floor : Nat := 0
  deriving DecidableEq, Repr

/-- The TCK block. `rr` holds each engine's round-robin pointer over the clusters (R68), `locks` the holding core plus
one, `pmp` the 16 PMP entries of each core (an entry not listed is off), `waits` the cores stalled in PWAIT with their tickets,
`hookWait` the invocations (hook, subject) that wait for a core or for a load, and `next` the image that replaces the loaded
one at the next hook boundary (R75; its inner `none` unloads). -/
structure Tck where
  calls : List Call := []
  seqs : Assoc Nat := []
  stalls : List Stall := []
  waits : List CoreWait := []
  rr : Assoc Nat := []
  clusters : Assoc Cluster := []
  doorbells : Assoc (List Nat) := []
  locks : Assoc Nat := []
  queues : Assoc HwQueue := []
  runs : List HookRun := []
  pmp : Assoc (List Region) := []
  hookWait : List (Nat × Nat) := []
  ext : Option ExtImage := none
  next : Option (Option ExtImage) := none
  extDisabled : Bool := false
  faults : List Nat := []
  keys : Assoc ExtKey := []
  deriving DecidableEq, Repr

/-! ## Chapter 05: fabric ports and the switch core -/

/-- A frame colour (R83, R137). -/
inductive Colour where
  | green | yellow | red
  deriving DecidableEq, Repr

/-- A completion entry as the device builds it: command specific dwords, SQ head, CID, status code type, status code, DNR
(R367). -/
structure Cqe where
  dw0 : Nat := 0
  dw1 : Nat := 0
  sqhd : Nat := 0
  cid : Nat := 0
  sct : Nat := 0
  sc : Nat := 0
  dnr : Bool := false
  phase : Bool := true
  deriving DecidableEq, Repr

/-- What an RDMA READ Request of the device is for: submission entries from a queue index, or a command's data. -/
inductive ReadFor where
  | entries (first count : Nat)
  | data (cmd : Nat)
  deriving DecidableEq, Repr

/-- What a packet that the device sends carries (Table 07-1). `cmd` names the command it belongs to. -/
inductive Body where
  /-- RDMA WRITE Only with read data -/
  | write (cmd va key : Nat) (payload : List Byte)
  /-- the hollow retransmit of R120 -/
  | hollow
  /-- SEND Only with a completion -/
  | cqe (cmd : Nat) (c : Cqe)
  /-- RDMA WRITE Only with Immediate: pull-mode completions from CQ slot `first`, and the new CQ_TAIL -/
  | cqWrite (cmds : List Nat) (cs : List Cqe) (va key tail : Nat)
  | readReq (va key len : Nat) (use : ReadFor)
  | readResp (payload : List Byte)
  | ack (psn msn : Nat)
  /-- NAK with its AETH code: 0 PSN Sequence Error, 1 Invalid Request, 2 Remote Access Error -/
  | nak (psn code msn : Nat)
  | rnrNak (psn timer msn : Nat)
  | cnp
  /-- REP with its extension, if the REQ had a valid one -/
  | rep (granted : Option ConnExt) (psn pmtu : Nat)
  | rej (reason : Nat)
  | dreq
  | drep
  /-- a SEND packet of a Sheath message: its opcode (First 0, Middle 1, Last 2, Only 4) and its part of the bytes -/
  | sheath (op : Nat) (bytes : List Byte)
  | neighbour
  /-- a packet that a core builds with SEND -/
  | raw (len : Nat)
  deriving DecidableEq, Repr

/-- Where a frame is: in the buffer before its header lookup (ingress), handed to its internal consumer, being built
toward the egress resequencer, in connection order and waiting for its rate and its tenant's turn, in its class
queue, or leaving the port. -/
inductive FStage where
  | arriving | forwarded | building | waiting | queued | sending
  deriving DecidableEq, Repr

/-- What the switch tells the transport of a received packet: the frame or cross-post that carried it, its PKT_ID, whether it is CE marked
(R84), and its colour as an order entry codes it. -/
structure RxInfo where
  frame : Nat := 0
  pktId : Nat := 0
  ce : Bool := false
  colour : Nat := 0
  deriving DecidableEq, Repr

/-- A frame in the shared buffer. `ingress` frames arrived on sub-port `sub` (4n + s); the others leave by it. `queue` is
its egress queue (R82), `seq` its RX_SEQ or TX_SEQ, `oseq` the order entry
that its transmission waits for (R247), `body` and `psn` what it carries. -/
structure Frame where
  id : Nat
  ingress : Bool := false
  sub : Nat := 0
  queue : Nat := 0
  len : Nat := 0
  cells : Nat := 0
  colour : Colour := .green
  cls : Nat := 0
  conn : Option Nat := none
  tenant : Nat := 0
  key : Option (List Byte) := none
  seq : Option Nat := none
  ect : Bool := false
  ce : Bool := false
  bad : Bool := false
  stage : FStage := .queued
  psn : Nat := 0
  body : Body := .neighbour
  esn : Option Nat := none
  oseq : Option Nat := none
  ordTime : Nat := 0
  /-- the time it arrived at the resequencer -/
  since : Nat := 0
  /-- ingress: when its last byte arrives, whether it was stored whole before it was forwarded (R80), and the PKT_ID of its cross-post -/
  endAt : Nat := 0
  whole : Bool := false
  pktId : Option Nat := none
  /-- egress: the neighbour's MAC (none where the address table has no entry), whether it carries a substituted completion, and whether the
  order stream has already named it -/
  mac : Option (List Byte) := none
  subst : Bool := false
  named : Bool := false
  deriving DecidableEq, Repr

/-- The state of one fabric sub-port's link (R77). -/
structure SubPort where
  up : Bool := false
  training : Bool := false
  deriving DecidableEq, Repr

/-- The NET block, sub-ports by 4n + s. -/
structure Net where
  subs : Assoc SubPort := []
  deriving DecidableEq, Repr

/-- One egress queue: the WRED average in cells and the drops counted (R83). -/
structure QStat where
  avg : Int := 0
  drops : Nat := 0
  deriving DecidableEq, Repr

/-- A committed WRED profile: the three colour words and the control word (R83). -/
structure Profile where
  green : Word := 0x00FFFFFF
  yellow : Word := 0x00FFFFFF
  red : Word := 0x00FFFFFF
  ctl : Word := 0x000FFF10
  deriving DecidableEq, Repr

/-- One connection's sequence in one direction (R85, R86): the next number to assign, the next expected, the numbers
that wait with their frames, those reported discarded and those declared lost, and when the gap's timeout ends. -/
structure Reseq where
  assign : Nat := 0
  next : Nat := 0
  waiting : List (Nat × Nat) := []
  discarded : List Nat := []
  lost : List Nat := []
  deadline : Nat := 0
  deriving DecidableEq, Repr

/-- The SWC block. -/
structure Swc where
  cells : Assoc (List Byte) := []
  minFree : Nat := 196608
  frames : List Frame := []
  nextId : Nat := 0
  used : Nat := 0
  /-- true since free cells last fell to RESERVE_CELLS -/
  reserveSeen : Bool := false
  queues : Assoc QStat := []
  profiles : Assoc Profile := []
  rx : Assoc Reseq := []
  tx : Assoc Reseq := []
  /-- packets that wait for cells or for a tracking entry (R79, R85), oldest first -/
  backlog : List Frame := []
  /-- frames with a flow key that have been delivered and whose packet the transport has not yet taken in, oldest first -/
  handed : List RxInfo := []
  deriving DecidableEq, Repr

/-! ## Chapter 06: the lookup tables -/

/-- The second bank of a table while a rehash runs (R98): its seeds, the entries placed in it so far, and whether one found no place. -/
structure Bank where
  seed0 : Nat
  seed1 : Nat
  entries : Assoc (List Byte) := []
  full : Bool := false
  deriving DecidableEq, Repr

/-- One lookup table: live entries by index (an entry's bytes as Tables 06-2 to 06-4 lay them out), stash, seeds, bucket
versions, the sweeper's place and slot, the second bank while a rehash runs (R98), and for the extent cache the way of each set that was
used last (R93; way 1 where none has been). -/
structure Table where
  entries : Assoc (List Byte) := []
  stash : List (List Byte) := []
  seed0 : Nat := 0
  seed1 : Nat := 0
  versions : Assoc Nat := []
  sweepAt : Nat := 0
  sweepSlot : Option Nat := none
  rehashReq : Bool := false
  bank : Option Bank := none
  lastWay : Assoc Nat := []
  deriving DecidableEq, Repr

/-- The TBL block, tables by index 0 to 2, with the learn queue, oldest first; `fills` counts the extent cache fills not
yet shown in the FILL field, whose unit is 1,024. -/
structure Tbl where
  tables : Assoc Table := []
  learn : List Learned := []
  fills : Nat := 0
  deriving DecidableEq, Repr

/-! ## Chapter 07: the transport -/

/-- Connection states (Table 07-3). -/
inductive ConnSt where
  | idle | reqRcvd | keying | ready | error | closing | closed
  deriving DecidableEq, Repr

/-- Where a context is (R125, R126): in HBM, being fetched, resident, or resident and being written back. -/
inductive Residence where
  | hbm | fetching | resident | writeback
  deriving DecidableEq, Repr

/-- A packet sent and not yet acknowledged: its PSNs from `psn`, `n` of them, and its content. -/
structure Sent where
  psn : Nat
  n : Nat := 1
  body : Body
  deriving DecidableEq, Repr

/-- An outstanding RDMA READ of the device: its first PSN, how many response packets, how many have arrived and their
bytes. -/
structure ReadOp where
  psn : Nat
  n : Nat
  got : Nat := 0
  bytes : List Byte := []
  use : ReadFor
  va : Nat
  key : Nat
  len : Nat
  /-- re-issued since the last response in order -/
  asked : Bool := false
  deriving DecidableEq, Repr

/-- A command received and not yet started (R153): its entry, SQ index, and the colour of the storage policer that it
passed if it was held (R138). -/
structure RxCmd where
  entry : SqEntry
  sqIndex : Nat
  held : Bool := false
  /-- picked for a bib (R349), and when its last bit arrived -/
  picked : Bool := false
  at_ : Nat := 0
  colour : Colour := .green
  /-- the completions transmitted before it was received (R161) -/
  seen : Nat := 0
  /-- on a FREEZE queue, the status (SCT, SC, DNR) with which it ends when its turn in the commit order comes (R159) -/
  ends : Option (Nat × Nat × Bool) := none
  deriving DecidableEq, Repr

/-- What a received packet asks of the transport: a request, or the answer to one of the device's own. -/
inductive RxOp where
  | request (op : ReqOp)
  | ack
  | nak (code : NakCode)
  | readResponse (payload : List Byte)
  deriving DecidableEq, Repr

/-- A request parked for a context that is not resident (R126), with the verdict that an RX entry has given it, if any. -/
structure Parked where
  pkt : RxPkt
  op : ReqOp
  info : RxInfo
  verdict : Option Nat := none
  deriving DecidableEq, Repr

/-- A packet that a twin holds until the order stream names it (R248). -/
structure RxHeld where
  pkt : RxPkt
  op : RxOp
  info : RxInfo
  deriving DecidableEq, Repr

/-- A connection context (Table 07-4) with its working state. Deadlines are shelf times in ns. -/
structure Conn where
  st : ConnSt := .idle
  pull : Bool := false
  tandem : Bool := false
  /-- moves to LEAD at its next TX entry (R251) -/
  demoting : Bool := false
  freeze : Bool := false
  sheath : Bool := false
  tandemSafe : Bool := false
  tandemRefused : Bool := false
  pmtu : Nat := 5
  incarn : Nat := 0
  pd : Nat := 0
  host : Option Nat := none
  tenant : Nat := 0
  qid : Nat := 0
  peerQpn : Nat := 0
  sqPsn : Nat := 0
  unaPsn : Nat := 0
  rqPsn : Nat := 0
  msn : Nat := 0
  retries : Nat := 0
  rnrRetries : Nat := 0
  stage : Nat := 0
  alpha : Nat := 65536
  rateCur : Nat := 0
  rateTgt : Nat := 0
  byteCnt : Nat := 0
  inflight : Nat := 0
  lastCpl : Nat := 0
  sqBase : Nat := 0
  sqRkey : Nat := 0
  sqSize : Nat := 0
  sqFetch : Nat := 0
  cqBase : Nat := 0
  cqRkey : Nat := 0
  cqTail : Nat := 0
  sqTail : Nat := 0
  cqHead : Nat := 0
  /-- entries posted to the completion queue and not yet released by CQ_HEAD -/
  cqUsed : Nat := 0
  cqPhase : Bool := true
  pullReady : Bool := false
  /-- the address and the key of the device region (Table 07-2) -/
  dbVa : Nat := 0
  dbRkey : Nat := 0
  firstSend : Bool := true
  addr : Nat := 0
  sub : Nat := 0
  ipv6 : Bool := true
  tagged : Bool := false
  key : List Byte := []
  places : Nat := 0
  hsqsize : Nat := 32
  sqNext : Nat := 0
  sqHead : Nat := 0
  residence : Residence := .hbm
  used : Nat := 0
  sent : List Sent := []
  reads : List ReadOp := []
  parked : List Parked := []
  parkDrop : Option Nat := none
  nakSent : Bool := false
  unacked : Nat := 0
  retxAt : Option Nat := none
  ackAt : Option Nat := none
  alphaAt : Option Nat := none
  rateAt : Option Nat := none
  cmAt : Option Nat := none
  keyAt : Option Nat := none
  quietAt : Option Nat := none
  rnrAt : Option (Nat × Nat) := none
  cnpAt : Nat := 0
  nextTx : Nat := 0
  esnOut : Nat := 1
  esnHigh : Nat := 0
  esnSeen : List Nat := []
  /-- Sheath: K1 as received, the device nonce and K2 as sent -/
  k1 : List Byte := []
  nd : List Byte := []
  k2 : List Byte := []
  k2Sent : Bool := false
  spiPeer : Nat := 0
  okm : List Byte := []
  /-- commands received and waiting to start, in submission order -/
  rxq : List RxCmd := []
  /-- completions of a pull-mode connection ready to be written, and since when they gather -/
  ready : List (Nat × Cqe) := []
  gatherAt : Option Nat := none
  /-- packets a standby has built and whose order entry has not arrived (R246) -/
  awaiting : List Body := []
  /-- start verdicts taken from the order stream: SQ slot and colour (R141) -/
  verdicts : List (Nat × Colour) := []
  /-- NONCE entries taken in: SQ slot and the first nonce counter (R275) -/
  nonces : List (Nat × Nat) := []
  /-- FREEZE policy (R159): whether the queue is frozen, and RESUME_SQHD's entry count -/
  frozen : Bool := false
  ctrl : Option Nat := none
  admin : Bool := false
  deriving DecidableEq, Repr

/-- An enrolled host (Table 07-9). -/
structure HostEnt where
  used : Bool := false
  pd : Nat := 0
  tenant : Nat := 0
  plaintextOk : Bool := false
  hostId : List Byte := []
  rsaE : Nat := 0
  rsaN : List Byte := []
  mldsa : List Byte := []
  deriving DecidableEq, Repr

/-- A namespace grant of a domain (R131). -/
structure Grant where
  pd : Nat
  nsid : Nat
  read : Bool
  write : Bool
  expiry : Nat
  deriving DecidableEq, Repr

/-- The XPT block: contexts, hosts, grants, the wheel's timer slot, contexts waiting for a resident slot. -/
structure Xpt where
  conns : Assoc Conn := []
  hosts : Assoc HostEnt := []
  grants : List Grant := []
  wheelSlot : Option Nat := none
  fetchWait : List Nat := []
  clock : Nat := 0
  deriving DecidableEq, Repr

/-! ## Chapter 08: traffic control -/

/-- A token bucket: its level in the meter's scaled unit and the shelf time it was last filled to. -/
structure Bucket where
  level : Nat := 0
  last : Nat := 0
  deriving DecidableEq, Repr

/-- A two-rate policer (R137, Table 08-2). `cb` is the committed bucket, `pb` the peak or excess bucket. -/
structure Policer where
  used : Bool := false
  attach : Nat := 0
  target : Nat := 0
  mode4115 : Bool := false
  aware : Bool := false
  unit : Bool := false
  reads : Bool := false
  writes : Bool := false
  redAct : Bool := false
  cir : Nat := 0
  cbs : Nat := 0
  pir : Nat := 0
  pbs : Nat := 0
  cb : Bucket := {}
  pb : Bucket := {}
  cntG : Nat := 0
  cntY : Nat := 0
  cntR : Nat := 0
  deriving DecidableEq, Repr

/-- A strict policer (R139): one class of one sub-port (4n + s) in one direction. -/
structure Strict where
  used : Bool := false
  cls : Nat := 0
  egress : Bool := false
  sub : Nat := 0
  cir : Nat := 0
  cbs : Nat := 0
  b : Bucket := {}
  cntG : Nat := 0
  cntR : Nat := 0
  deriving DecidableEq, Repr

/-- A tenant or port shaper (Table 08-3); `sub` is 4n + s. -/
structure Shaper where
  used : Bool := false
  tenant : Nat := 0
  sub : Nat := 0
  weight : Nat := 1
  rate : Nat := 0
  burst : Nat := 0
  cls : Nat := 0
  b : Bucket := {}
  deriving DecidableEq, Repr

/-- The contents of a Slalom list (R144): (interval, gates) entries, unit, guard, times. -/
structure SlalomCfg where
  entries : List (Nat × Nat) := []
  unit : Nat := 0
  guard : Bool := false
  dflt : Nat := 0xFF
  base : Nat := 0
  cycle : Nat := 1000
  deriving DecidableEq, Repr

/-- A Slalom list: whether it runs, its contents, the entry in force (none before BASE_TIME), the DEFAULT of a disabled
list (none: the reset value), its timer slot, and a pending list with its SWAP_TIME (R147). -/
structure Slalom where
  enabled : Bool := false
  cfg : SlalomCfg := {}
  entry : Option Nat := none
  dflt : Option Nat := none
  slot : Option Nat := none
  pending : Option (SlalomCfg × Nat) := none
  deriving DecidableEq, Repr

/-- The QOS block. Deficits and round-robin pointers of the egress hierarchy are kept per sub-port and class (R142,
R143). -/
structure Qos where
  policers : Assoc Policer := []
  stricts : Assoc Strict := []
  tshapers : Assoc Shaper := []
  pshapers : Assoc Shaper := []
  lists : Assoc Slalom := []
  classDeficit : Assoc Nat := []
  classAt : Assoc Nat := []
  tenantDeficit : Assoc Nat := []
  tenantAt : Assoc Nat := []
  connAt : Assoc Nat := []
  deriving DecidableEq, Repr

/-! ## Chapter 09: commands, controllers, namespaces -/

/-- Where the data of one block of a read stands: waiting for a holding slot (R282), read from a drive (or gathered for a
degraded read), ciphertext held, or plaintext. -/
inductive RdSt where
  | wait | issued | held (blk : List Byte) | plain (data : List Byte)
  deriving DecidableEq, Repr

/-- One block of a host read: its LBA, where it stands, whether it came from the write buffer, and for a degraded read
(R201) the blocks gathered by position and the positions that cannot be used. -/
structure RdBlk where
  lba : Nat
  st : RdSt
  buffered : Bool := false
  degraded : Bool := false
  have_ : List (Nat × List Byte) := []
  bad : List Nat := []
  slot : Bool := false
  /-- the step of R278 at which the block at its own position failed; 0 for none -/
  step : Nat := 0
  deriving DecidableEq, Repr

/-- The stages of a started command. -/
inductive CmdPhase where
  /-- decoded, its execution has not run -/
  | decoded
  /-- waits at the CAPSULE or COMPLETION hook -/
  | hook
  /-- a write held for dirty room or mirror headroom (R17, R155) -/
  | held
  /-- host data being fetched by RDMA READ -/
  | fetching
  /-- write data complete, to be encrypted -/
  | sealing
  /-- buffered, waiting for mirror acknowledgements, or for data and parity to land in write-through -/
  | buffered
  /-- drive reads outstanding or blocks to be verified -/
  | reading
  /-- a Flush or shutdown waiting for its blocks to be destaged, or a request held open -/
  | waiting
  /-- its outcome is decided and its completion has not left -/
  | done
  deriving DecidableEq, Repr

/-- A started command with its tag's state: `uid` is its number among all commands, `cpl` its completion once decided. -/
structure Cmd where
  uid : Nat
  conn : Nat
  sqIndex : Nat
  entry : SqEntry
  phase : CmdPhase := .decoded
  admin : Bool := false
  colour : Colour := .green
  cpl : Option Cqe := none
  /-- the completion has been built and is on its way -/
  sent : Bool := false
  blocks : List RdBlk := []
  data : List Byte := []
  bufs : List Nat := []
  /-- its buffered blocks that the peer has not acknowledged (R16) -/
  unmirrored : List Nat := []
  time : Nat := 0
  /-- no completion will be sent (R162) -/
  mute : Bool := false
  /-- the bib of a picked command (R350): its stamps by stage and the flags DEGRADED, HELD and BUFFER -/
  picked : Bool := false
  stamps : Assoc Nat := []
  driveIos : Nat := 0
  wasDegraded : Bool := false
  wasHeld : Bool := false
  fromBuffer : Bool := false
  /-- blocks of Write Zeroes or deallocation still to be zeroed: (LBA, count) -/
  ranges : List (Nat × Nat) := []
  /-- the completions transmitted before it was received (R161) -/
  seen : Nat := 0
  /-- the position in its queue's commit order is past (R159) -/
  committed : Bool := false
  deriving DecidableEq, Repr

/-- A frozen-queue entry of log page C0h (Table 09-4). -/
structure FrozenEnt where
  qid : Nat
  cid : Nat
  opcode : Nat
  sct : Nat
  sc : Nat
  sqhd : Nat
  nsid : Nat
  slba : Nat
  nlb : Nat
  count : Nat
  time : Nat
  deriving DecidableEq, Repr

/-- A host controller (R152). `aers` are the tags of outstanding Asynchronous Event Requests, `events` the events not yet
reported as (type, information, log page). -/
structure Ctrl where
  used : Bool := false
  discovery : Bool := false
  adminConn : Nat := 0
  host : Option Nat := none
  hostId : Nat := 0
  pd : Nat := 0
  tenant : Nat := 0
  kato : Nat := 0
  katoAt : Nat := 0
  en : Bool := false
  shn : Nat := 0
  shst : Nat := 0
  ioqs : Nat := 64
  asyncMask : Nat := 0
  resvMask : Nat := 0
  aers : List Nat := []
  events : List (Nat × Nat × Nat) := []
  mkeys : List (Nat × Nat × Nat) := []
  changed : List Nat := []
  resvLog : List (Nat × Nat) := []
  frozen : List FrozenEnt := []
  frozenGen : Nat := 0
  /-- the buffered blocks that a shutdown still waits for (R163) -/
  shFlush : List Nat := []
  /-- commands started before the shutdown still run -/
  shRun : Bool := false
  deriving DecidableEq, Repr

/-- A namespace with its key generations (generation, data key slot) and its reservation state (R165). `deleting` holds
the management command that waits for its commands to end. -/
structure Ns where
  used : Bool := false
  volume : Nat := 0
  tenant : Nat := 0
  nsze : Nat := 0
  ptpl : Bool := false
  nguid : List Byte := []
  gens : List (Nat × Nat) := []
  deleting : Bool := false
  regs : List (Nat × Nat) := []
  rtype : Nat := 0
  rholder : Option Nat := none
  rgen : Nat := 0
  /-- a reseal running: the generation in force at its start, and the extents done (R286) -/
  reseal : Option (Nat × List Nat) := none
  deriving DecidableEq, Repr

/-- An entry of the Lost Stripe Map (R203). -/
structure LostEnt where
  volume : Nat
  lba : Nat
  n : Nat
  cause : Nat
  time : Nat
  deriving DecidableEq, Repr

/-- Firmware activation of a SOLO twin (Table 09-6a). -/
inductive Activation where
  | none
  | quiescing (since : Nat)
  | running (since : Nat)
  deriving DecidableEq, Repr

/-- The CMD block. `cmds` by tag, `ctrls` by controller slot, `nss` by NSID. -/
structure Cmdb where
  cmds : Assoc Cmd := []
  nextUid : Nat := 0
  /-- completions transmitted so far -/
  cpls : Nat := 0
  /-- the connection at which the round-robin over held commands goes on (R146) -/
  startAt : Nat := 0
  minTags : Nat := 65536
  ctrls : Assoc Ctrl := []
  nss : Assoc Ns := []
  held : Bool := false
  forced : Bool := false
  through : Bool := true
  lost : List LostEnt := []
  lostGen : Nat := 0
  coarse : Bool := false
  act : Activation := .none
  deriving DecidableEq, Repr

/-! ## Chapter 10: layout, extent map, write buffer and the Saddlebag journal -/

/-- An extent map entry (Table 10-2). -/
structure MapEnt where
  row : Nat := 0
  alloc : Bool := false
  lost : Bool := false
  band : Nat := 0
  incarn : Nat := 0
  wgen : Nat := 0
  deriving DecidableEq, Repr

/-- What is kept in three copies in the metadata regions of the members (R175, Table 10-1): a page of the extent map, and the namespace
metadata: a namespace with its grants, locks and reservations, an enrolled host, a volume, the progress bits of a slot, the Lost Stripe Map
(log entry 128). -/
inductive MetaPage where
  | map (page : Nat)
  | ns (nsid : Nat)
  | host (slot : Nat)
  | volume (volume : Nat)
  | progress (slot : Nat)
  | lostMap
  deriving DecidableEq, Repr

/-- A volume (R177): its capacity in extents and its part of the extent map. -/
structure Volume where
  used : Bool := false
  extents : Nat := 0
  /-- the map segments it owns, in order of its address space (R174) -/
  segs : List Nat := []
  map : Assoc MapEnt := []
  deriving DecidableEq, Repr

/-- A substitution of a row (R173, R195): position, stand-in member and its spare slot, and the member it replaces;
`copyback` once that member's index is being refilled (R210). -/
structure Sub where
  pos : Nat
  member : Nat
  slot : Nat
  lost : Nat
  copyback : Bool := false
  deriving DecidableEq, Repr

/-- A row of the layout table: members by position, the rank at each position (R171), and substitutions. `rebuildHome`
lists the positions rebuilt straight into the home chunk (R210). -/
structure LRow where
  members : List Nat := []
  ranks : List Nat := []
  subs : List Sub := []
  rebuildHome : List Nat := []
  /-- (band, position) of extents that were not rebuilt when a new drive took the home member's index (R210) -/
  homeless : List (Nat × Nat) := []
  deriving DecidableEq, Repr

/-- A block of the write buffer: ciphertext and metadata (4,160 bytes), where it belongs and how far it has come.
`acked` is the peer's mirror acknowledgement, `visible` that its write has committed (R159). -/
structure BufBlk where
  id : Nat
  nsid : Nat
  volume : Nat
  lba : Nat
  blk : List Byte
  cmd : Option Nat := none
  acked : Bool := false
  visible : Bool := true
  /-- how many completions had been transmitted when its own was (R161) -/
  done : Option Nat := none
  /-- a block of a reseal (R286) -/
  reseal : Bool := false
  /-- the Saddlebag slot of the stripe write that carries it -/
  stripe : Option Nat := none
  deriving DecidableEq, Repr

/-- How far a stripe write has come (R181). -/
inductive StripePhase where
  | building | opened | data | parity
  deriving DecidableEq, Repr

/-- An open Saddlebag record (Table 10-6) with the stripe write it covers: the data and parity writes as (member, member
block, contents). `acked` is the standby's acknowledgement, `left` the drive writes outstanding, `cmd` a host Flush or
write that waits for it. -/
structure Stripe where
  slot : Nat
  kind : Nat
  volume : Nat
  extent : Nat
  stripe : Nat
  row : Nat
  band : Nat
  incarn : Nat
  seq : Nat
  mapGen : Nat
  mask : Nat
  off : Nat
  nblk : Nat
  pcrc : List Nat
  dataW : List (Nat × Nat × List Byte)
  parityW : List (Nat × Nat × List Byte)
  phase : StripePhase := .building
  acked : Bool := false
  persisted : Bool := false
  left : Nat := 0
  deriving DecidableEq, Repr

/-- The LAY block: layout table, bands and spare depth, volumes, slots in use by row × 2^24 + band, slots being zeroed with the
members still to report, and the rotating row pointer of the allocator (R176). -/
structure Lay where
  /-- clean blocks of the write buffer, kept for reads, oldest first (R354) -/
  clean : List BufBlk := []
  rows : Assoc LRow := []
  built : Bool := false
  bands : Nat := 0
  spareQ : Nat := 0
  /-- R_d by member (R171) -/
  rd : List Nat := []
  /-- progress bits (R199), by (row × 2^24 + band) × 32 + position -/
  progress : Assoc Bool := []
  /-- blocks to be rewritten in place at background rank: (row, band, position, stripe, block) (R202, R280) -/
  repairs : List (Nat × Nat × Nat × Nat × Nat) := []
  /-- the smallest member at BUILD, in blocks (R172) -/
  minBlocks : Nat := 0
  volumes : Assoc Volume := []
  slots : Assoc Bool := []
  zeroing : Assoc Nat := []
  /-- extents freed while a record on them is open (R190) -/
  pendingFree : List (Nat × Nat) := []
  rowAt : Nat := 0
  lowRaised : Bool := false
  mapGen : Nat := 0
  safeGen : Nat := 0
  mapGenAt : Nat := 0
  buffer : List BufBlk := []
  nextBuf : Nat := 0
  /-- map pages that fewer than two members can hold (R175) -/
  stuckPages : List MetaPage := []
  sbSeq : Nat := 0
  deriving DecidableEq, Repr

/-- The three copies of a journal segment: members in use and which are current (R183, R185). -/
structure Seg where
  members : List Nat := []
  current : List Bool := [false, false, false]
  deriving DecidableEq, Repr

/-- The SBG block: stripe writes by ring slot, the next record SEQ, ring slots cleared whose page is not yet rewritten,
pages changed and since when, segments, and the state of replay. -/
structure Sbg where
  stripes : List Stripe := []
  /-- records of a former holder, to be destaged again from the buffer (R186) -/
  redo : List Stripe := []
  seq : Nat := 1
  nextSlot : Nat := 0
  dirtyPages : Assoc Nat := []
  /-- replay has read the journal pages, and how many records it has replayed and repaired (R187) -/
  loaded : Bool := false
  replayed : Nat := 0
  repaired : Nat := 0
  segs : Assoc Seg := []
  full : Bool := false
  replaying : Bool := false
  deriving DecidableEq, Repr

/-! ## Chapter 11: members, rebuild, scrub -/

/-- Member states (Table 11-1). -/
inductive MState where
  | active | suspect | failed | draining | absent
  deriving DecidableEq, Repr

/-- A member index: its state, the drive's size in blocks, the times of its unrecovered read errors and read timeouts
(Table 11-2), and its latest read times. -/
structure Member where
  st : MState := .absent
  blocks : Nat := 0
  mediaErrs : List Nat := []
  timeouts : List Nat := []
  /-- the times of its last 15 reads in ns, newest first (R202) -/
  readTimes : List Nat := []
  deriving DecidableEq, Repr

/-- A change of member state written to superblocks and not yet in effect (R191): the cause shown in the event's detail,
and the command it completes. -/
structure MChange where
  member : Nat
  dest : MState
  cause : Nat
  cmd : Option Nat := none
  deriving DecidableEq, Repr

/-- An extent being rebuilt, drained or copied (R196): its place, the positions it produces, and whether it is a drain copy
(class 3) or copy-back (class 4). -/
structure RbExtent where
  volume : Nat
  extent : Nat
  row : Nat
  band : Nat
  positions : List Nat
  cls : Nat
  deriving DecidableEq, Repr

/-- A scrub pass (R207): mode, scope, the extents left in order, and whether it stops at its next extent. -/
structure ScrubPass where
  mode : Nat
  scope : Option Nat
  left : List (Nat × Nat)
  stopping : Bool := false
  deriving DecidableEq, Repr

/-- Rebuild and scrub state, kept with the LAY block. -/
structure Reb where
  members : Assoc Member := []
  changes : List MChange := []
  current : Option RbExtent := none
  running : Bool := false
  spareOut : Bool := false
  /-- members that the restored table lists as live and that no drive shows, for the first twin to hold the claim (R193 step 4) -/
  missing : List (Nat × MState) := []
  /-- suspect extents (volume, extent) (R206), and the stripes of them already done -/
  suspect : List (Nat × Nat) := []
  suspectDone : List (Nat × Nat × Nat) := []
  scrub : Option ScrubPass := none
  lastScrub : Option Nat := none
  scrubbed : Nat := 0
  /-- block offsets found lost while an extent is rebuilt, to be sealed: (stripe, position, offset) (R204) -/
  toSeal : List (Nat × Nat × Nat) := []
  deriving DecidableEq, Repr

/-! ## Chapter 12: drive ports, slots, sideband -/

/-- What an outstanding drive command is for. -/
inductive DrvUse where
  /-- a block of a host read: tag, block of the command, position read -/
  | hostRead (tag idx pos : Nat)
  /-- a data or parity write of the stripe write in a Saddlebag slot -/
  | stripe (slot : Nat)
  /-- zeroing of a freed slot's chunk (R175) -/
  | zero (row band : Nat)
  /-- a hedge of a read of a SUSPECT member (R202) -/
  | hedge (tag idx pos : Nat)
  /-- the final flush of DRAIN (R320) -/
  | flush
  deriving DecidableEq, Repr

/-- An outstanding drive command, and the I/O queue of its drive that it went to (R217). -/
structure DrvCmd where
  id : Nat
  member : Nat
  use : DrvUse
  isRead : Bool
  lba : Nat
  at_ : Nat
  queue : Nat
  deriving DecidableEq, Repr

/-- The DRV block. `holdAt` gives the ports whose link is down and not yet recovered, with the end of LINK_HOLD (R192). -/
structure Drv where
  cmds : List DrvCmd := []
  nextId : Nat := 0
  /-- by member, how many commands its queues have taken in turn (R217) -/
  turns : Assoc Nat := []
  holdAt : Assoc Nat := []
  deriving DecidableEq, Repr

/-- The Stirrup states (Table 12-4). -/
inductive SlotSt where
  | off | ramp | on | warn | tripped | locked
  deriving DecidableEq, Repr

/-- A Slot Disable under way (R232): its command, the end of the shutdown wait, and once PERST is asserted when the gate goes. -/
structure Disabling where
  id : Nat
  till : Nat
  gateAt : Option Nat := none
  deriving DecidableEq, Repr

/-- A Stirrup channel (R223 to R230) and its sideband pins; its settings stand in STR_SLOT_CFG and STR_SLOT_LIM. Deadlines are
shelf times in ns. -/
structure Chan where
  st : SlotSt := .off
  gate : Bool := false
  pg : Bool := false
  perst : Bool := true
  present : Bool := false
  retries : Nat := 0
  cause : Nat := 0
  /-- the breaker is armed: 0.90 × VIN has been reached in this ramp (R224) -/
  armed : Bool := false
  rampTmo : Nat := 0
  faultAt : Option Nat := none
  coolAt : Nat := 0
  perstAt : Option Nat := none
  /-- since when it has been ON without a break (R230) -/
  onSince : Nat := 0
  short : Bool := false
  disabling : Option Disabling := none
  /-- a Slot Clear Trip that waits for the end of the cool-down -/
  clearing : Option Nat := none
  deriving DecidableEq, Repr

/-- The STR block, channels by slot. -/
structure Str where
  chans : Assoc Chan := []
  deriving DecidableEq, Repr

/-! ## Chapter 13: twin pairing and the Harness -/

/-- The twin roles are those of GLB_STATUS.ROLE (R239, Table 13-1). -/
abbrev Role := TwinRole

/-- How far the taking of the cinch on one member has come (R257). `lost` is another key at an equal or higher epoch, `refused` a
reservation conflict, `failed` no answer. -/
inductive TakeSt where
  | registering | reporting | acquiring | preempting | taken | lost | refused | failed
  deriving DecidableEq, Repr

/-- A member in a round: since when its last command is outstanding, and the key that the last Report showed as holder. -/
structure Take where
  member : Nat
  st : TakeSt := .registering
  since : Nat := 0
  holder : Nat := 0
  deriving DecidableEq, Repr

/-- What a round of R257 is for (R260, R263, R267, Table 13-7). -/
inductive RoundKind where
  | arbiters | won | startup | swap | yield
  deriving DecidableEq, Repr

/-- A round: every member it takes, at one epoch. -/
structure Round where
  kind : RoundKind
  epoch : Nat
  takes : List Take
  deriving DecidableEq, Repr

/-- The start-up claim of R263: member states being restored (R193), Reports being read until a time for the link, or step 6. -/
inductive Claim where
  | none
  | restoring
  | reading (left : List Nat) (till : Nat) (expired : Bool)
  | waitLink
  deriving DecidableEq, Repr

/-- A join under way (R264): the Pair command it completes, and the percentage copied. -/
structure Join where
  id : Option Nat
  percent : Nat := 0
  deriving DecidableEq, Repr

/-- A self-check under way (R255): the start of the mismatched window, CONN and OSEQ, this twin's own verdict (the source of its fault, if
any), and the peer's. -/
structure SelfCheck where
  since : Nat
  conn : Nat
  oseq : Nat
  own : Option (Option Nat) := none
  peer : Option Bool := none
  deriving DecidableEq, Repr

/-- A Role Swap under way (R267): its command, and whether the standby has been told to take the cinch. -/
structure SwapRun where
  id : Option Nat
  quiesced : Bool := false
  taken : Bool := false
  deriving DecidableEq, Repr

/-- A digest record of one TX entry (R253): `rec` is absent while this twin has not built the packet. -/
structure DigRec where
  oseq : Nat
  time : Nat
  conn : Nat
  rec_ : Option Nat
  deriving DecidableEq, Repr

/-- The HRN block. -/
structure Hrn where
  role : Role := .solo
  holder : Bool := false
  link : Bool := false
  peerRole : Option Role := none
  /-- the delay of the link toward this twin, in ns: half the measured round trip, corrected by the asymmetry found at training (R29) -/
  rxDelay : Int := 0
  /-- the twin link key (R301); empty while there is no link -/
  linkKey : List Byte := []
  /-- the next OSEQ to form, and the newest covered by ORD_ACK, counted without wrapping -/
  oseq : Nat := 0
  ordAck : Nat := 0
  /-- the CTRL_SEQ of the next CONTROL message that carries a change (Table 13-4) -/
  ctrlSeq : Nat := 0
  /-- follower, since its join started: the CTRL_SEQ of the next such message; messages that no STATE entry has named yet; and STATE entries
  whose message has not yet come (R246) -/
  ctrlSeen : Option Nat := none
  ctrlHeld : List (Nat × ControlMsg) := []
  ctrlNamed : List Nat := []
  pktId : Nat := 0
  /-- the peer's DEVICE_TAG (R256), and the egress policy (R251): the shelf-wide default, and per tenant 1 allow, 2 refuse, 0 as the default -/
  tandemDefault : Bool := true
  peerTag : Nat := 0
  tandemTenant : Assoc Nat := []
  /-- LANES: 0 down, 1 half, 2 full, and the failed lanes (R243) -/
  lanes : Nat := 0
  badLanes : List Nat := []
  /-- flits received, and how often in a row the next one has failed (R245) -/
  rxFlit : Nat := 0
  rxFails : Nat := 0
  /-- flits sent, and the newest that the peer has acknowledged (R245) -/
  txFlit : Nat := 0
  ackFlit : Nat := 0
  /-- a link-up has failed: the twins exchange nothing until the link has been down (R242) -/
  barred : Bool := false
  /-- the role in which arbitration found no quorum, for the win that may follow (R260) -/
  was : Option Role := none
  silent : Bool := false
  cause : Nat := 0
  /-- when the last verified heartbeat and the last LINK acknowledgement arrived (R259) -/
  lastHb : Nat := 0
  lastAck : Nat := 0
  peerHolder : Bool := false
  peerFault : Bool := false
  peerDrain : Bool := false
  /-- the peer's ARB5, as link-up shows it (R263) -/
  peerArb5 : Bool := false
  peerEpoch : Nat := 0
  ordHead : Nat := 0
  /-- HRN_ARB (R261) -/
  arbs : List Nat := []
  /-- when arbitration starts, the epoch it uses, and when it is tried again (R260) -/
  arbAt : Option Nat := none
  arbEpoch : Nat := 0
  retryAt : Option Nat := none
  /-- the highest epoch read on any member, and the Reports read: member and the tag that holds it -/
  maxEpoch : Nat := 0
  reports : List (Nat × Option Nat) := []
  newShelf : Bool := false
  claim : Claim := .none
  round : Option Round := none
  /-- members taken again at HRN_EPOCH after their link came up (R369) -/
  retakes : List Take := []
  join : Option Join := none
  swap : Option SwapRun := none
  /-- the Leave Pair command that waits for the peer's unregistration -/
  leaving : Option Nat := none
  lastSwap : Nat := 0
  /-- the Activate Firmware command of a twin shelf under way (R268) -/
  upgrade : Option Nat := none
  /-- cross-posted packets taken in and not yet used: PKT_ID, sub-port, colour (R248) -/
  posts : List (Nat × Nat × Nat) := []
  /-- packets that wait until an RX entry names them, and RX entries whose packet has not yet arrived, oldest first (R248) -/
  unnamed : List RxHeld := []
  named : List OrderEntry := []
  /-- standby: the next OSEQ expected, and TX entries whose packet is not yet built (R246, R248) -/
  ordSeen : Nat := 0
  /-- a joiner has taken in its first entry -/
  ordSync : Bool := false
  txWait : List OrderEntry := []
  /-- digest records: this twin's own by TX entry, and the active's as (OSEQ, record) (R254) -/
  own : List DigRec := []
  theirs : List (Nat × Nat) := []
  /-- a self-check running (R255) -/
  check : Option SelfCheck := none
  /-- the last own fault that self-check counts: event source and time -/
  fault : Option (Nat × Nat) := none
  deriving DecidableEq, Repr

/-! ## Chapter 14: the cipher engine -/

/-- A data key slot (R284): the key bytes, and the namespace and generation it is bound to. -/
structure DataKey where
  used : Bool := false
  key : List Byte := []
  bound : Option (Nat × Nat) := none
  deriving DecidableEq, Repr

/-- A pipeline (R281): the times of its mismatches, and whether it is disabled. -/
structure Pipe where
  mismatches : List Nat := []
  disabled : Bool := false
  deriving DecidableEq, Repr

/-- The CPH block. `waiting` lists the host reads (tag, block) that wait for a holding slot, oldest first. -/
structure Cph where
  ctrEpoch : Nat := 0
  ctrCount : Nat := 0
  /-- the counter's epoch is saved, so encryption may use it (R274) -/
  saved : Bool := false
  keys : Assoc DataKey := []
  journalKey : List Byte := []
  journalGen : Nat := 1
  pipes : Assoc Pipe := []
  held : Nat := 0
  minFree : Nat := 15104
  waiting : List (Nat × Nat) := []
  waitRaised : Bool := false
  deriving DecidableEq, Repr

/-! ## Chapter 15: the security core -/

/-- A retention lock (R308): its record number, namespace, range and release time. -/
structure RetLock where
  id : Nat
  nsid : Nat
  slba : Nat
  nlb : Nat
  release : Nat
  /-- the floors have passed RELEASE (R34): it protects nothing any more -/
  expired : Bool := false
  deriving DecidableEq, Repr

/-- What a security record holds (Table 15-7); an administrator key is RSA_E (4 bytes) and RSA_N (384). -/
structure Record where
  seq : Nat := 0
  floor : Nat := 0
  ctrEpoch : Nat := 0
  bootB : Bool := false
  pendingSvn : Nat := 0
  soakS : Nat := 0
  journalKey : List Byte := []
  journalGen : Nat := 0
  admins : BitVec 16 := 0
  adminKeys : Assoc (List Byte) := []
  extKeys : Assoc ExtKey := []
  /-- the active extension store, and the image in it -/
  extStore : Bool := false
  ext : Option ExtImage := none
  deriving DecidableEq, Repr

/-- A record write under way (R303): its content, whether it is the retry, and the commands that it completes. -/
structure RecWrite where
  content : Record
  retried : Bool := false
  waiters : List Nat := []
  deriving DecidableEq, Repr

/-- What follows once the record that names the new boot slot is written (R296). -/
inductive AfterRecord where
  /-- quiescing of a SOLO twin begins (R164) -/
  | quiesce
  /-- the standby is sent into the new image (R268 step 1) -/
  | sendStandby
  /-- this twin resets into the new image -/
  | restart
  deriving DecidableEq, Repr

/-- The SEC block. -/
structure Sec where
  /-- the core has stopped on an uncorrectable error of its SRAM (R290) -/
  stopped : Bool := false
  /-- bit s: administrator slot s enrolled, and the keys by slot -/
  admins : BitVec 16 := 0
  adminKeys : Assoc (List Byte) := []
  /-- requests served by the DRBG since it was last seeded (R290) -/
  drbgRequests : Nat := 0
  /-- the boot slots A and B of the flash (R291), the running image, the slot it came from, and BOOT_SLOT of the next record -/
  slotA : Option FwLoad := none
  slotB : Option FwLoad := none
  /-- the extension image that records name: it is stored with the load and stays stored until it is reloaded at start-up (R75) -/
  extStored : Option ExtImage := none
  extStore : Bool := false
  run : FwImage := {}
  bootB : Bool := false
  nextB : Bool := false
  fallback : Bool := false
  bootFault : Bool := false
  /-- FUSE_COUNT (R294), SOAK_S at a shelf time from which it counts -/
  fuse : Nat := 0
  soakBase : Nat := 0
  soakFrom : Nat := 0
  /-- the newest record in the flash, the write under way, the commands that a record not yet started completes, and the
  erased places left in the current bank; the other bank is erased, or its erase runs (R303, R325) -/
  flash : Record := {}
  write : Option RecWrite := none
  due : Option (List Nat) := none
  placesLeft : Nat := 64
  /-- the current bank is record bank 1 (Table 15-1) -/
  bank1 : Bool := false
  /-- the size of the boot flash in MiB (R291) -/
  flashMiB : Nat := 32
  otherErased : Bool := true
  erasing : Bool := false
  after : Option AfterRecord := none
  locks : List RetLock := []
  nextLock : Nat := 0
  deriving DecidableEq, Repr

/-! ## Chapter 16: package power -/

/-- The device states of Table 16-4 (R317). -/
inductive DevState where
  | run | sleep | deep | drain
  deriving DecidableEq, Repr

/-- The PWR block. The ON and DOM_PEND bits of the domains stand in PWR_DOM_CFG, the rails in PWR_RAIL_STATUS. -/
structure Pwr where
  st : DevState := .run
  /-- VIN is present and the regulators run (R323) -/
  powered : Bool := true
  /-- VIN_WARN_N is asserted, and whether the last assertion came from outside -/
  vinWarn : Bool := false
  ext : Bool := false
  phase : Nat := 0
  refused : Bool := false
  /-- when DRAIN was entered, whether its record has been written, and whether the peer has been checked (R320, R321) -/
  drainAt : Nat := 0
  drainRec : Bool := false
  drainChecked : Bool := false
  /-- a rail has faulted; when its rail was last restarted; it faulted again within 1 s and stays off (R314) -/
  railDown : Bool := false
  railAt : Option Nat := none
  railHold : Bool := false
  /-- thermal hold, the warning that has been raised, and the resets that wait for the die to cool (R365) -/
  thermHold : Bool := false
  thermWarned : Bool := false
  waitingResets : List Nat := []
  tj : Nat := 0
  tjMax : Nat := 0
  deriving DecidableEq, Repr

/-! ## Chapter 17: clocks, reset and start-up -/

/-- The CLK block. The source and the gating of each clock domain stand in CLK_CD_STATUS, the trips in CLK_MON_STATUS. -/
structure Clk where
  xaTripped : Bool := false
  xbTripped : Bool := false
  xaOk : Bool := false
  xbOk : Bool := false
  fioReady : Bool := false
  /-- FIO has been started and is not ready yet (R334), and the domains that wait for it -/
  fioStart : Option Nat := none
  waitFio : List Nat := []
  /-- bit p: PLLp is locked -/
  pllLock : BitVec 8 := 0
  /-- a domain runs on its fallback or is stopped by a trip (R330); clock-fault hold (R335) -/
  fallen : Bool := false
  hold : Bool := false
  /-- the tree is being started: its PLLs have not locked -/
  starting : Bool := false
  bootDone : Bool := false
  /-- the last start was a full-device reset: HBM and the always-on domain were kept -/
  warm : Bool := false
  /-- the start-up bits of R340 latched so far, and IO_READY -/
  startup : BitVec 10 := 0
  ioReady : Bool := false
  /-- the end of the 10 µs of a full-device reset, and RESET_N held low (R338, R339) -/
  resetHold : Option Nat := none
  pinHeld : Bool := false
  /-- when the last reset began, for CLK_BOOT_TIME and CLK_READY_TIME -/
  resetAt : Nat := 0
  bootMs : Nat := 0
  readyMs : Nat := 0
  deriving DecidableEq, Repr

/-! ## Chapter 18: telemetry -/

/-- A ring in host memory that telemetry writes (R348). -/
structure TelRing where
  base : Nat := 0
  log2 : Nat := 4
  vector : Nat := 0
  irq : Bool := false
  head : Nat := 0
  tail : Nat := 0
  used : Nat := 0
  phase : Bool := true
  err : Bool := false
  deriving DecidableEq, Repr

/-- A bandwidth window (R345 to R347). `acc` holds (bytes, frames) by (sub-port × 2 + direction) × 8 + class, `drops` the
drops by sub-port × 2 + direction. -/
structure Window where
  enabled : Bool := false
  ports : Nat := 0
  period : Nat := 0
  slot : Option Nat := none
  start : Nat := 0
  isPartial : Bool := false
  /-- a forward step has passed its boundary: the shelf time after the step (R346) -/
  stepped : Option Nat := none
  seq : Nat := 0
  ring : TelRing := {}
  acc : Assoc (Nat × Nat) := []
  drops : Assoc Nat := []
  deriving DecidableEq, Repr

/-- Bib sampling (R349, R350). -/
structure Sampling where
  rate : Nat := 0
  tenantOnly : Bool := false
  tenant : Nat := 0
  ring : TelRing := {}
  dropRaised : Bool := false
  deriving DecidableEq, Repr

/-- The TEL block. -/
structure Tel where
  /-- the 4,096 event counters (R343) -/
  counters : Assoc Nat := []
  windows : Assoc Window := []
  sampling : Sampling := {}
  deriving DecidableEq, Repr

/-! ## What the device puts on its interfaces -/

/-- An entry of an event ring: a completion (Table 03-4) or an event (Table 03-5). -/
inductive Entry where
  | completion (phase : Bool) (ring : Nat) (cid : BitVec 16) (status chead : Nat) (result0 result1 : Nat) (time : Nat)
  | event (phase : Bool) (cls source count : Nat) (detail : List Nat) (time : Nat)
  deriving DecidableEq, Repr

/-- The answers of the SPDM responder (Table 15-5): certificates and signatures are named, not computed; CHALLENGE_AUTH and signed
MEASUREMENTS always carry both signatures (R298). -/
inductive SpdmReply where
  | version
  | capabilities
  | algorithms
  | digests (slots : List (List Byte))
  | certificate (slot : Nat) (portion : List Byte) (remainder : Nat)
  | challengeAuth (slot : Nat) (blocks : List (List Byte)) (signatures : List Byte × List Byte)
  | measurements (total : Nat) (blocks : List (Nat × List Byte)) (signatures : Option (List Byte × List Byte))
  | error (code : Nat)
  deriving DecidableEq, Repr

/-- Everything the device sends, writes or drives, in the order it does so (the model's own record, log entry 2). -/
inductive Out where
  /-- the answer to a BAR0 read -/
  | barAnswer (addr : Nat) (value : Word)
  /-- an entry written to slot `index` of event ring `ring` -/
  | ringEntry (ring index : Nat) (e : Entry)
  /-- an MSI-X interrupt -/
  | msix (vector : Nat)
  /-- a PCIe write of a command's data buffer -/
  | hostData (ptr : Nat) (data : List Byte)
  /-- an NMI taken to the security core and the supervisor cluster -/
  | nmi (source : Nat)
  /-- an NMI carried to the twin -/
  | nmiToPeer (source : Nat) (detail : List Nat)
  /-- EVT_DESTAGE_FORCED (R20), an event to which no table gives a source index -/
  | destageForced
  /-- the effect of a Holder command or register write carried to the peer (R371) -/
  | carried (opcode : Nat)
  | carriedReg (addr : Nat) (value : Word)
  /-- a PTP Delay_Req or Pdelay_Req sent on a sub-port -/
  | delayReq (sub : Nat) (peer : Bool)
  /-- a result written to a core's rd (ticket or outcome), or an illegal-instruction or access-fault exception on it -/
  | coreResult (core rd value : Nat)
  | illegalInstruction (core : Nat)
  | accessFault (core : Nat)
  /-- a doorbell of a hardware queue rung by RING, with its tail -/
  | queueDoorbell (queue tail : Nat)
  /-- a frame starts to leave sub-port `sub`; it is stomped, or cut to a runt -/
  | frameOut (sub : Nat) (f : Frame)
  | stomped (sub frame : Nat)
  | runt (sub frame : Nat)
  /-- the bad tail that ends a cross-post already under way (R81) -/
  | badTail (pktId : Nat)
  /-- a frame or released packet delivered to an internal consumer -/
  | delivered (frame : Nat)
  /-- a Harness flit with a cross-post, an order entry -/
  | crosspost (pktId sub colour frame len : Nat)
  | order (e : OrderEntry)
  /-- a command issued to a member's drive: a read, or a write of blocks -/
  | driveRead (member lba : Nat)
  | driveWrite (member lba : Nat) (blocks : List (List Byte))
  | driveZero (member lba n : Nat)
  | driveAbort (id : Nat)
  /-- a copy of a map page, sealed, written to a member with the secure time floor (R33) -/
  | mapPage (member lba : Nat) (block : List Byte) (floor : Nat)
  /-- a copy of namespace metadata, sealed with nonce counter `ctr`, written to a member with the secure time floor (R33) -/
  | metaPage (member : Nat) (what : MetaPage) (ctr floor : Nat)
  /-- superblocks written with a SB_SEQ and the secure time floor -/
  | superblock (member seq floor : Nat)
  /-- a copy of a journal page, sealed, written to a member with the secure time floor -/
  | journalPage (member lba : Nat) (block : List Byte) (floor : Nat)
  /-- a Saddlebag record, or its clear and the freeing of its buffer entries, sent to the standby -/
  | saddlebag (slot seq : Nat) (cleared : Bool)
  /-- a MIRROR_ACK for buffered blocks or a Saddlebag record -/
  | mirrorAck (bufs records : List Nat)
  /-- a reservation command on a member: 0 Report, 1 Register with Replace and CPTPL (R218), 2 Acquire, 3 Acquire with Preempt and Abort,
  4 unregister; this twin's key, and the key preempted (R256, R257) -/
  | reserve (member what key preempted : Nat)
  /-- reads of the superblocks of the enabled drive ports (R193) -/
  | superblockReads (ports : List Nat)
  /-- a normal shutdown (CC.SHN = 01b) sent to the drive of a slot (R232) -/
  | driveShutdown (slot : Nat)
  /-- a heartbeat flit (Table 13-5) -/
  | heartbeat (beat : Heartbeat)
  /-- a LINK flit with an acknowledgement and the ORD_ACK, or a replay request (R245) -/
  | linkFlit (acked ordAck : Nat)
  | replayRequest (flit : Nat)
  /-- `n` flits sent again from the replay buffer, from flit `first` on (R245) -/
  | flitsAgain (first n : Nat)
  /-- a digest record of the active (R254) -/
  | digest (oseq record : Nat)
  /-- a CONTROL message to the peer -/
  | controlMsg (m : ControlMsg)
  /-- the join snapshot (R264), of so many bytes -/
  | snapshot (bytes : Nat)
  /-- entry `index` of the results ring of a window, or of the sample ring (8) -/
  | telEntry (ring index : Nat) (bytes : List Byte)
  /-- an NVMe Flush issued to a member (R320) -/
  | driveFlush (member : Nat)
  /-- the erase of a record bank started (R325) -/
  | bankErase (bank1 : Bool)
  /-- a record programmed at a flash address, its journal key under an IV (R303) -/
  | recordWrite (addr : Nat) (content : Record) (iv : Nat)
  /-- an extension image, or none, written to an extension store (R303) -/
  | extensionWrite (store1 : Bool) (image : Option ExtImage)
  /-- an answer to an SPDM request (R298) -/
  | spdm (m : SpdmReply)
  deriving DecidableEq, Repr

/-! ### The Harness transmitter (R353) -/

/-- The types of flit (Table 13-3), in the order in which ready ones of a rank go; training flits and unknown types are never sent. -/
inductive FlitKind where
  | link | heartbeat | order | mirrorAck | saddlebag | control | crosspost | digest | state
  deriving DecidableEq, Repr

/-- A message that waits for the link, or is under way: its type, the flits still to send, and what the peer has received with its LAST. -/
structure TwinMsg where
  kind : FlitKind
  left : Nat
  started : Bool := false
  out : Out
  deriving DecidableEq, Repr

/-- The Harness transmitter (R353): the messages waiting, in the order they became ready; the time up to which the link's bandwidth has been
used; the payload bytes that it and STATE flits may still carry; and whether a DIGEST message is next in turn. -/
structure TwinTx where
  queue : List TwinMsg := []
  usedTo : Nat := 0
  credit : Nat := 0
  stateCredit : Nat := 0
  digestNext : Bool := false
  deriving DecidableEq, Repr

/-! ## The whole state -/

/-- The state of one twin's IH9064. `regs` holds the registers that are plain storage (an unlisted address holds its
reset value), `shadow` the high words latched by low-word reads and `staged` the words written and not yet in effect
(R6). `mem` is the memory the Tack cores address. `out` is the model's record of what the device sends, newest first;
`free` counts the free values drawn; `pending` is the queue of commands waiting. -/
@[ext]
structure State where
  regs : Assoc Word := []
  shadow : Assoc Word := []
  staged : Assoc Word := []
  mem : List Host.Cell := []
  glb : Glb := {}
  tim : Tim := {}
  ctl : Ctl := {}
  evt : Evt := {}
  tck : Tck := {}
  net : Net := {}
  swc : Swc := {}
  tbl : Tbl := {}
  xpt : Xpt := {}
  qos : Qos := {}
  cmdb : Cmdb := {}
  lay : Lay := {}
  reb : Reb := {}
  sbg : Sbg := {}
  drv : Drv := {}
  str : Str := {}
  hrn : Hrn := {}
  htx : TwinTx := {}
  cph : Cph := {}
  sec : Sec := {}
  pwr : Pwr := {}
  clk : Clk := {}
  tel : Tel := {}
  out : List Out := []
  free : Nat := 0
  pending : List Instr := []
  deriving DecidableEq, Repr

/-- Why a step can stop with a fault. -/
inductive Fault where
  /-- raised by no meaning of this model: every event of the manual that ends an activity leaves a next state (safe) -/
  | impossible
  deriving DecidableEq, Repr

/-- Why a meaning can refuse. -/
inductive Refusal where
  /-- raised by the dispatch for a command without a meaning (safe) -/
  | notModelled (mnemonic : String)
  deriving DecidableEq, Repr

/-- A slot that stays allocated from reset (R38). -/
def heldSlot (armed : Bool) (at_ period action owner : Nat) : Slot :=
  { owner := owner, armed := armed, compare := at_ + period, period := period, action := action }

/-- Slots 504 to 511 as R38 sets them at reset, when shelf time is `t`: 504 the heartbeat every 1 µs, 505 the floor save, armed by
the start-up record (R32), 506 the retention review every 60 s, 507 to 511 the PTP client every 1 s. -/
def heldSlots (t : Nat) : Assoc Slot :=
  [(504, heldSlot true t 1000 3 5), (505, heldSlot false t 600000000000 4 6), (506, heldSlot true t 60000000000 4 6),
   (507, heldSlot true t 1000000000 5 8), (508, heldSlot true t 1000000000 5 8), (509, heldSlot true t 1000000000 5 8),
   (510, heldSlot true t 1000000000 5 8), (511, heldSlot true t 1000000000 5 8)]

/-- The machine right after power-up: every register at its reset value, the timer slots of R38 in place, FIO started (R334), and
boot slot A of the flash holding an image that verifies (log entry 35). -/
def State.reset : State :=
  { tim := { slots := heldSlots 0 }, clk := { starting := true, fioStart := some 0 }, sec := { slotA := some {} } }


end Sys2Proof.Machine
end

