-- ==== Sys2Proof/Machine/Flags.lean ====
section
/-! DEFINITION. Register storage and its fields (R2 to R6), event counters (R343), and the raising of events with
their pending bits, undelivered counts and routes (R56, R57). -/
namespace Sys2Proof.Machine

/-- Bits [hi:lo] of a word as a number. -/
def getBits (w : Word) (hi lo : Nat) : Nat := w.toNat / 2 ^ lo % 2 ^ (hi + 1 - lo)

/-- Word `w` with bits [hi:lo] replaced by `v` (taken modulo the field's width). -/
def setBits (w : Word) (hi lo v : Nat) : Word :=
  BitVec.ofNat 32 (w.toNat - getBits w hi lo * 2 ^ lo + v % 2 ^ (hi + 1 - lo) * 2 ^ lo)

/-- Saturating addition below `2 ^ w` (counters of the register tables). -/
def satAdd (w a b : Nat) : Nat := min (a + b) (2 ^ w - 1)

/-- The stored word of the register at `a`. -/
def State.rg (s : State) (a : Nat) : Word := s.regs.get (resetWord a) a

/-- Store a word in the register at `a`. -/
def State.setRg (s : State) (a : Nat) (w : Word) : State := { s with regs := s.regs.set (resetWord a) a w }

/-- The value of a stored register field. -/
def State.fld (s : State) (r : Ref) : Nat := getBits (s.rg r.addr) r.hi r.lo

/-- Set a stored register field. -/
def State.setFld (s : State) (r : Ref) (v : Nat) : State := s.setRg r.addr (setBits (s.rg r.addr) r.hi r.lo v)

/-- Add to a saturating counter field. -/
def State.bump (s : State) (r : Ref) (n : Nat := 1) : State :=
  s.setFld r (satAdd (r.hi + 1 - r.lo) (s.fld r) n)

/-- Whether a one-bit field is 1. -/
def State.flag (s : State) (r : Ref) : Bool := s.fld r = 1

/-- Put something on an interface. -/
def State.emit (s : State) (o : Out) : State := { s with out := o :: s.out }

/-- The flit type that carries something to the peer. -/
def Out.flitKind : Out → FlitKind
  | .linkFlit _ _ | .replayRequest _ => .link
  | .heartbeat _ => .heartbeat
  | .order _ => .order
  | .mirrorAck _ _ => .mirrorAck
  | .saddlebag _ _ _ => .saddlebag
  | .crosspost _ _ _ _ _ | .badTail _ => .crosspost
  | .digest _ _ => .digest
  | .snapshot _ => .state
  | _ => .control

/-- The flits of a message: 240 payload bytes each (R244). A cross-post is the frame without its FCS behind an 8-byte header (R249). -/
def Out.flits : Out → Nat
  | .crosspost _ _ _ _ len => max 1 ((len + 4 + 239) / 240)
  | .snapshot n => max 1 ((n + 239) / 240)
  | _ => 1

/-- A message for the peer joins those that wait for the link; a FENCED twin sends LINK flits alone (R240, R353). -/
def State.sendTwin (s : State) (o : Out) : State :=
  if s.hrn.link && (s.hrn.role ≠ .fenced || o.flitKind = .link) then
    let x := s.htx
    let m : TwinMsg := { kind := o.flitKind, left := o.flits, out := o }
    { s with htx := { x with queue := x.queue ++ [m], usedTo := if x.queue = [] then s.tim.ns else x.usedTo } }
  else s

/-- Draw a free value `w` bits wide (log entry 3). -/
def State.draw (s : State) (w : Nat) : BitVec w × State := (Config.freeBits w s.free, { s with free := s.free + 1 })

/-- Draw a free number below `n` (0 where `n` is 0). -/
def State.drawBelow (s : State) (n : Nat) : Nat × State :=
  (if n = 0 then 0 else Config.freeNat s.free % n, { s with free := s.free + 1 })

/-- The code of a role (GLB_STATUS.ROLE). -/
def roleCode : Role → Nat
  | .active => 0 | .standby => 1 | .joining => 2 | .fenced => 3 | .solo => 4

/-- Shelf time in ns. -/
def State.now (s : State) : Nat := s.tim.ns

/-- The device runs: VIN is present, no rail has faulted, and it is in no hold and in no full-device reset. -/
def State.awake (s : State) : Bool :=
  s.pwr.powered && !s.pwr.railDown && !s.pwr.thermHold && !s.clk.hold && s.clk.resetHold.isNone

/-- FAULT_N is asserted: after a rail fault, in clock-fault hold, thermal hold and boot fault (R293, R314, R335, R365). -/
def State.faultN (s : State) : Bool := s.pwr.railDown || s.pwr.railHold || s.clk.hold || s.pwr.thermHold || s.sec.bootFault

/-- The clock of domain 2, of the management endpoint, GLB, CTL and EVT, runs (R331, R334). -/
def State.ctlRuns (s : State) : Bool := s.fld (Reg.CLK_CD_STATUS_SRC 2) ≠ 3

/-- A twin has a peer only while the other twin is STANDBY or JOINING and the Harness is up (R371). -/
def State.hasPeer (s : State) : Bool :=
  s.hrn.link && (s.hrn.peerRole = some .standby || s.hrn.peerRole = some .joining)

/-- Two twins carry the shelf: this one is ACTIVE or follows the holder, or it has a peer (R34). -/
def State.twinShelf (s : State) : Bool :=
  s.hrn.role = .active || s.hrn.role = .standby || s.hrn.role = .joining || s.hasPeer

/-- The Harness carries this twin's packets and flits to the other twin: to its peer, or to the holder it follows (R18). -/
def State.reachesTwin (s : State) : Bool := s.hasPeer || (s.hrn.link && (s.hrn.role = .standby || s.hrn.role = .joining))

/-- The state of event source `n`. -/
def State.src (s : State) (n : Nat) : Src := s.evt.srcs.get {} n

def State.setSrc (s : State) (n : Nat) (e : Src) : State := { s with evt.srcs := s.evt.srcs.set {} n e }

/-- Event counter `i` (R343). -/
def State.counter (s : State) (i : Nat) : Nat := s.tel.counters.get 0 i

/-- Add to event counter `i`, saturating at 2^64 − 1 (R343). -/
def State.count (s : State) (i : Nat) (n : Nat := 1) : State :=
  { s with tel.counters := s.tel.counters.set 0 i (satAdd 64 (s.counter i) n) }

/-- What an occurrence does to its source (R56): the pending bit, and with RING_EN the undelivered count, whose first
occurrence records DETAIL and TIME. -/
def Src.occur (e : Src) (detail : List Nat) (now : Nat) : Src :=
  if e.ringEn then
    if e.count = 0 then { e with pend := true, count := 1, detail := detail, time := now }
    else { e with pend := true, count := satAdd 16 e.count 1 }
  else { e with pend := true }

/-- The sources that tell of a fault of this twin's own that self-check counts (R255): cipher mismatch or disable, uncorrectable ECC,
a clock monitor, a stopped Tack cluster. -/
def faultSources : List Nat :=
  [Ev.CPH_MISMATCH, Ev.CPH_PIPE_OFF, Ev.SWC_ECC_UNCORR, Ev.TBL_ECC_UNCORR, Ev.XPT_CTX_ECC, Ev.LAY_MAP_ECC, Ev.CLK_XA_FAIL,
   Ev.CLK_XB_FAIL, Ev.CLK_FIO_FAIL, Ev.TACK_ECC_FATAL, Ev.SEC_FATAL]

/-- An event occurs: its source changes under R56, its counter counts (R343), and an NMI takes the routes of
Table 03-11 that no setting masks (R57). A FENCED twin sends the peer nothing (R240). -/
def State.raise (s : State) (n : Nat) (detail : List Nat := []) : State :=
  let s := (s.setSrc n ((s.src n).occur detail s.now)).count n
  let s := if faultSources.contains n then { s with hrn.fault := some (n, s.now) } else s
  if srcClass n = .nmi then
    let s := { s with evt.nmiLast := n, evt.nmiFromPeer := false }
    let s := s.emit (.nmi n)
    s.sendTwin (.nmiToPeer n (detail.take 8))
  else s

/-- Raise an event where a condition holds. -/
def State.raiseIf (s : State) (c : Bool) (n : Nat) (detail : List Nat := []) : State :=
  if c then s.raise n detail else s

/-- ALERT_N is asserted while a pending bit is set for an NMI source, or for an ERROR source with ALERT_EN = 1 (R57). -/
def State.alert (s : State) : Bool :=
  s.evt.srcs.any fun (n, e) => e.pend && (srcClass n = .nmi || (srcClass n = .error && e.alertEn))

end Sys2Proof.Machine
end

