-- ==== Sys2Proof/Machine/Operands.lean ====
section
/-! DEFINITION. The operand forms of the commands: fields of a descriptor's PARAMS, of byte lists (little-endian in
memory, R7), the management command catalogue (Table 03-6) and its completion status values (Table 03-7). -/
namespace Sys2Proof

/-- The little-endian field of `n` bytes at PARAMS offset `o` (Table 03-3). -/
def Descriptor.par (d : Descriptor) (o n : Nat) : Nat := d.params.toNat / 256 ^ o % 256 ^ n

/-- FLAGS[0], GUARDED. -/
def Descriptor.guardedBit (d : Descriptor) : Bool := d.flags.toNat % 2 = 1

/-- FLAGS[1], FENCE (R46). -/
def Descriptor.fence (d : Descriptor) : Bool := d.flags.toNat / 2 % 2 = 1

/-- R373 check 2: reserved bytes and reserved FLAGS bits are 0 and DATA_PTR is 8-byte aligned. -/
def Descriptor.wellFormed (d : Descriptor) : Bool :=
  d.rsvd03 = 0 && d.rsvd06 = 0 && d.rsvd14 = 0 && d.flags.toNat < 4 && d.dataPtr.toNat % 8 = 0

/-- A descriptor without its data pointer and length, as the envelope copies it (Table 03-8). -/
def Descriptor.bare (d : Descriptor) : Descriptor := { d with dataPtr := 0, dataLen := 0 }

namespace Machine

/-- The little-endian number in `n` bytes of `b` from offset `o` (R7); bytes past the end read 0. -/
def leAt (b : List Byte) (o n : Nat) : Nat :=
  ((b.drop o).take n).foldr (fun x acc => x.toNat + 256 * acc) 0

/-- The big-endian number in `n` bytes of `b` from offset `o` (R7). -/
def beAt (b : List Byte) (o n : Nat) : Nat :=
  ((b.drop o).take n).foldl (fun acc x => 256 * acc + x.toNat) 0

/-- The `n` bytes of a number, low byte first. -/
def leBytes : Nat → Nat → List Byte
  | 0, _ => []
  | n + 1, v => BitVec.ofNat 8 v :: leBytes n (v / 256)

/-- The distance from `a` forward to `b` among numbers of `w` bits, which wrap. -/
def ahead (w a b : Nat) : Nat := (2 ^ w - a % 2 ^ w + b) % 2 ^ w

/-- Whether `n` bytes of `b` from offset `o` are all 0. -/
def zeroAt (b : List Byte) (o n : Nat) : Bool := ((b.drop o).take n).all (· = 0)

/-- The code of a completion status (Table 03-7). -/
def MStatus.code : MStatus → Nat
  | .success => 0 | .invalidOpcode => 1 | .invalidField => 2 | .dataXferError => 3 | .limitExceeded => 4
  | .configConflict => 5 | .notCinchHolder => 6 | .guardRequired => 7 | .guardKey => 8 | .guardNonce => 9
  | .guardTime => 10 | .guardMismatch => 11 | .guardSignature => 12 | .retentionLocked => 13
  | .deviceDraining => 14 | .busy => 15

/-- One row of Table 03-6: the opcode, whether the command is guarded, whether it is a Holder command, and whether a
SOLO twin with HOLDER = 0 accepts it (R371). -/
structure MgmtRow where
  opcode : Nat
  guarded : Bool
  holder : Bool
  solo : Bool
  deriving DecidableEq, Repr

/-- Table 03-6. -/
def mgmtTable : List MgmtRow :=
  [⟨0x0000, false, false, false⟩, ⟨0x0001, false, false, false⟩, ⟨0x0002, false, false, false⟩,
   ⟨0x0003, false, true, true⟩, ⟨0x0100, false, false, false⟩, ⟨0x0101, false, true, true⟩,
   ⟨0x0102, false, true, true⟩, ⟨0x0103, false, true, true⟩, ⟨0x0200, false, true, false⟩,
   ⟨0x0201, false, true, false⟩, ⟨0x0202, true, true, false⟩, ⟨0x0203, true, true, false⟩,
   ⟨0x0204, true, true, false⟩, ⟨0x0205, true, true, false⟩, ⟨0x0206, true, true, false⟩,
   ⟨0x0207, true, true, false⟩, ⟨0x0208, true, true, false⟩, ⟨0x0300, false, true, true⟩,
   ⟨0x0301, false, true, true⟩, ⟨0x0302, false, true, true⟩, ⟨0x0303, false, true, true⟩] ++
  [⟨0x0400, false, true, false⟩, ⟨0x0401, false, true, false⟩, ⟨0x0402, false, true, false⟩,
   ⟨0x0403, false, true, true⟩, ⟨0x0500, true, true, false⟩, ⟨0x0501, true, true, false⟩,
   ⟨0x0502, true, true, false⟩, ⟨0x0503, true, true, false⟩, ⟨0x0504, true, true, false⟩,
   ⟨0x0505, true, true, false⟩, ⟨0x0600, false, true, false⟩, ⟨0x0601, false, true, false⟩,
   ⟨0x0602, false, true, false⟩, ⟨0x0603, false, true, false⟩, ⟨0x0604, false, true, true⟩,
   ⟨0x0700, false, true, true⟩, ⟨0x0701, false, true, true⟩, ⟨0x0702, false, true, true⟩,
   ⟨0x0800, false, false, false⟩, ⟨0x0801, false, false, false⟩, ⟨0x0802, false, false, false⟩,
   ⟨0x0900, true, false, false⟩, ⟨0x0901, true, true, false⟩, ⟨0x0902, true, true, false⟩]

/-- The row of an opcode. -/
def mgmtRow (op : Nat) : Option MgmtRow := mgmtTable.find? fun r => r.opcode = op

/-- The commands that R52 allows in DRAIN. -/
def drainOps : List Nat := [0x0000, 0x0001, 0x0100, 0x0801]

/-- Whether this twin accepts a Holder command or a register carried to the peer (R371). -/
def State.acceptsHolder (s : State) (soloOk : Bool) : Bool :=
  s.hrn.holder || (s.hrn.role = .solo && soloOk)

/-- Steps 2 to 6 of R373 for a command of row `r` whose reserved PARAMS byte ranges are `rsvd`. -/
def State.commonChecks (s : State) (r : MgmtRow) (rsvd : List (Nat × Nat)) (d : Descriptor) : Option MStatus :=
  if !d.wellFormed then some .invalidField
  else if s.pwr.st = .drain && !drainOps.contains r.opcode then some .deviceDraining
  else if r.holder && !s.acceptsHolder r.solo then some .notCinchHolder
  else if r.guarded && !d.guardedBit then some .guardRequired
  else if !r.guarded && d.guardedBit then some .invalidField
  else if rsvd.any fun (o, n) => d.par o n ≠ 0 then some .invalidField
  else none

/-- The envelope format check of R54: VERSION 1, reserved byte 0, a payload length the command requires, and DATA_LEN. -/
def envelopeOk (d : Descriptor) (e : Envelope) (payOk : Nat → Bool) : Bool :=
  e.version = 1 && e.rsvd03 = 0 && e.payloadLen.toNat % 8 = 0 && e.payloadLen.toNat ≤ 65536 &&
    payOk e.payloadLen.toNat && e.payload.length = e.payloadLen.toNat &&
    d.dataLen.toNat = 0x1E0 + e.payloadLen.toNat

/-- Whether administrator slot `k` holds an enrolled, unrevoked key. -/
def State.adminEnrolled (s : State) (k : Nat) : Bool := k < 16 && s.sec.admins.getLsbD k

/-- Check 1 of R54: ADMIN_SLOT holds a key. While no administrator is enrolled it passes for an Enrol Administrator of that slot
(R306). -/
def State.guardKeyOk (s : State) (d : Descriptor) (e : Envelope) : Bool :=
  s.adminEnrolled e.adminSlot.toNat ||
    (s.sec.admins = 0 && d.opcode = 0x0503 && e.adminSlot.toNat < 16 && e.adminSlot.toNat = leAt e.payload 0 1)

/-- The five guard checks of R54, in order; check 2 is given whether the nonce was outstanding. -/
def State.guardChecks (s : State) (d : Descriptor) (e : Envelope) (nonceOk : Bool) : Option MStatus :=
  let now := s.now
  let t := e.signedTime.toNat
  let w := s.fld Reg.CTL_GUARD_CFG_GUARD_WINDOW * 1000000000
  if !s.guardKeyOk d e then some .guardKey
  else if !nonceOk then some .guardNonce
  else if (now - t) + (t - now) > w then some .guardTime
  else if e.command.bare ≠ d.bare then some .guardMismatch
  else if !e.sigOk then some .guardSignature
  else none

end Machine
end Sys2Proof
end

