-- ==== Sys2Proof/Machine/Ops.lean ====
section
/-! DEFINITION. The shared operations over the state: rings and completions (R44, R46, R48), guarded commands (R373,
R54), timer slots (R35 to R39), shelf time and its forward steps (R26, R39). -/
namespace Sys2Proof.Machine

/-! ### Rings -/

def State.cring (s : State) (n : Nat) : CRing := s.ctl.crings.get {} n
def State.ering (s : State) (n : Nat) : ERing := s.ctl.erings.get {} n
def State.setCring (s : State) (n : Nat) (r : CRing) : State := { s with ctl.crings := s.ctl.crings.set {} n r }
def State.setEring (s : State) (n : Nat) (r : ERing) : State := { s with ctl.erings := s.ctl.erings.set {} n r }

def CRing.size (r : CRing) : Nat := 2 ^ r.log2
def ERing.size (r : ERing) : Nat := 2 ^ r.log2

/-- Released slots that hold no entry and are reserved for no completion (R48). -/
def ERing.free (r : ERing) : Nat := r.size - r.used - r.reserved

/-- Commands of ring `n` started and not yet posted (ACTIVE, R43). -/
def State.ringActive (s : State) (n : Nat) : Bool := s.ctl.started.any fun c => c.ring = n && !c.drop

/-- Move a ring's tail past the entry just written; the phase inverts when the tail wraps to 0 (R44). -/
def ERing.advance (r : ERing) : ERing :=
  let t := (r.tail + 1) % r.size
  { r with tail := t, used := r.used + 1, phase := if t = 0 then !r.phase else r.phase }

/-- Write one entry at the tail of event ring `n` and send its interrupt when one is due: at once for an urgent entry
(NMI or ERROR), or when COAL_COUNT entries have been written since the last (R48). -/
def State.writeEntry (s : State) (n : Nat) (mk : Bool → Entry) (urgent : Bool) : State :=
  let r := s.ering n
  let s := s.emit (.ringEntry n r.tail (mk r.phase))
  let r' := r.advance
  let u := r.unsignalled + 1
  if urgent || max 1 r.coalCount ≤ u then
    (s.setEring n { r' with unsignalled := 0 }).emit (.msix r.vector)
  else
    s.setEring n { r' with unsignalled := u, firstAt := if r.unsignalled = 0 then s.now else r.firstAt }

/-- The ring number of a command carried from the holder, which is no ring of this twin's: its checks were made there and it posts no
completion (R371). -/
def carriedRing : Nat := 256

/-- Whether an event ring takes completions: it is not in error (R47), and it is enabled or owes some to commands started before all rings
were disabled (R43). -/
def ERing.posts (r : ERing) : Bool := !r.err && (r.enabled || decide (0 < r.reserved))

/-- Write a completion. -/
def State.writeCompletion (s : State) (n : Nat) (k : Completion) : State :=
  s.writeEntry n (fun ph => .completion ph k.ring k.cid k.status k.chead k.result0 k.result1 k.time) false

/-- Write the completions that wait for a released slot while there is one (R44). -/
def State.writeOwed (s : State) (n : Nat) : Nat → State
  | 0 => s
  | f + 1 =>
    let r := s.ering n
    match r.owed with
    | [] => s
    | k :: ks => if r.used < r.size then ((s.setEring n { r with owed := ks }).writeCompletion n k).writeOwed n f else s

/-- Post a completion into the slot reserved for it (R46, R48); into no slot that software has not released (R44). -/
def State.postCompletion (s : State) (n : Nat) (k : Completion) : State :=
  let r := { s.ering n with reserved := (s.ering n).reserved - 1 }
  if r.owed = [] && decide (r.used < r.size) then (s.setEring n r).writeCompletion n k
  else s.setEring n { r with owed := r.owed ++ [k] }

/-- Complete a started command: its completion is posted, or discarded when the command's completions are dropped (R58) or its event
ring is in error or disabled (R47). A command carried from the holder is reported to it as taken in (R371), one of the join snapshot is not. -/
def State.complete (s : State) (c : Started) (st : MStatus) (r0 : Nat := 0) (r1 : Nat := 0) : State :=
  let s := { s with ctl.started := s.ctl.started.filter fun x => x.id ≠ c.id }
  if c.ring = carriedRing then (if c.drop then s else s.sendTwin (.controlMsg (.taken c.desc.opcode.toNat)))
  else if c.drop || !(s.ering c.ering).posts then s
  else s.postCompletion c.ering ⟨c.ring, c.desc.cid, st.code, c.chead, r0, r1, s.now⟩

/-- Keep a started command waiting for something else to finish. -/
def State.hold (s : State) (id : Nat) : State :=
  { s with ctl.started := s.ctl.started.map fun c => if c.id = id then { c with waits := true } else c }

/-- The waiting started command that satisfies `p`, oldest first. -/
def State.waiting (s : State) (p : Started → Bool) : Option Started :=
  s.ctl.started.find? fun c => c.waits && c.result.isNone && p c

/-- Complete the oldest waiting command of opcode `op` that satisfies `p`, if there is one. -/
def State.completeWaiting (s : State) (op : Nat) (p : Started → Bool) (st : MStatus) (r0 : Nat := 0) (r1 : Nat := 0) :
    State :=
  match s.waiting fun c => c.desc.opcode.toNat = op && p c with
  | some c => s.complete c st r0 r1
  | none => s

/-- A random draw from the security core's DRBG (R290): a free value, counted as one request. -/
def State.random (s : State) (w : Nat) : BitVec w × State :=
  let (v, s) := s.draw w
  (v, { s with sec.drbgRequests := s.sec.drbgRequests + 1 })

/-! ### Guarded commands -/

/-- A failure of guard checks 1 to 5 (R54): EVT_GUARD_REJECT, and a storm at the 17th failure within 10 s. -/
def State.guardFail (s : State) (slot : Nat) (st : MStatus) : State :=
  let s := s.raise Ev.GUARD_REJECT [slot, st.code]
  let fs := s.now :: s.ctl.fails.filter fun t => s.now < t + 10000000000
  let s := { s with ctl.fails := fs, ctl.lastFail := s.now }
  if !s.ctl.storm && 17 ≤ fs.length then ({ s with ctl.storm := true }).raise Ev.GUARD_STORM else s

/-- Whether `v` is an outstanding nonce that has not expired (R53). -/
def State.nonceLive (s : State) (v : BitVec 128) : Bool :=
  s.ctl.nonces.any fun n => n.value = v && s.now < n.expires

/-- Consume a nonce. -/
def State.spendNonce (s : State) (v : BitVec 128) : State :=
  { s with ctl.nonces := s.ctl.nonces.filter fun n => n.value ≠ v }

/-- Step 7 of R373: the envelope format check and then the guard checks; the nonce is consumed at check 2 whatever the
later checks find. `none` as the status means that every check passes. An envelope that could not be read is a PCIe error on the
command's data buffer (R47), or none of DATA_LEN bytes. -/
def State.runGuard (s : State) (c : Started) (payOk : Nat → Bool) : State × Option MStatus :=
  match c.env with
  | none => (s, some (if c.desc.dataLen.toNat < 0x1E0 then .invalidField else .dataXferError))
  | some e =>
    if !envelopeOk c.desc e payOk then (s, some .invalidField)
    else
      let r := s.guardChecks c.desc e (s.nonceLive e.nonce)
      let s := if s.guardKeyOk c.desc e then s.spendNonce e.nonce else s
      match r with
      | none => (s, none)
      | some st => (s.guardFail e.adminSlot.toNat st, some st)

/-- The payload of a guarded command's envelope. -/
def Started.payload (c : Started) : List Byte := (c.env.map Envelope.payload).getD []

/-- Whether an earlier guarded command is still running: guarded commands run one at a time, in start order (R46). -/
def State.guardBusy (s : State) (c : Started) : Bool :=
  s.ctl.started.any fun x => x.id < c.id && ((mgmtRow x.desc.opcode.toNat).map MgmtRow.guarded).getD false

/-- Run started command `id` if it has opcode `op`, satisfies `sel` and is not waiting: the checks of R373 in order,
then `body`. `rsvd` are its reserved PARAMS ranges, `payOk` the payload lengths it requires. -/
def State.runMgmt (s : State) (id op : Nat) (rsvd : List (Nat × Nat)) (payOk : Nat → Bool) (sel : Descriptor → Bool)
    (body : Started → State → State) : State :=
  match s.ctl.started.find? (fun c => c.id = id && c.desc.opcode.toNat = op && !c.waits && sel c.desc), mgmtRow op with
  | some c, some r =>
    if c.ring = carriedRing then body c s
    else match s.commonChecks r rsvd c.desc with
    | some st => s.complete c st
    | none =>
      if r.guarded then
        if s.guardBusy c || s.sec.stopped then s
        else
          match s.runGuard c payOk with
          | (s, some st) => s.complete c st
          | (s, none) => body c s
      else body c s
  | _, _ => s

/-- Run an unguarded command that has one row of the table. -/
def State.runPlain (s : State) (id op : Nat) (rsvd : List (Nat × Nat)) (body : Started → State → State) : State :=
  s.runMgmt id op rsvd (fun _ => true) (fun _ => true) body

/-- Change a started command. -/
def State.updStarted (s : State) (id : Nat) (f : Started → Started) : State :=
  { s with ctl.started := s.ctl.started.map fun c => if c.id = id then f c else c }

/-! ### The order stream (R246, R247, R250) -/

/-- Whether a STANDBY follows this twin's order stream: an ACTIVE waits for it until it becomes SOLO (R247). -/
def State.standbyPresent (s : State) : Bool := s.hrn.role = .active

/-- Whether this twin follows the order stream of an active. -/
def State.follows (s : State) : Bool := s.hrn.role = .standby || s.hrn.role = .joining

/-- No buffered block waits for a peer's acknowledgement any longer (R16). -/
def State.clearMirror (s : State) : State :=
  { s with cmdb.cmds := s.cmdb.cmds.map fun e => (e.1, { e.2 with unmirrored := [] }) }

/-- The bytes of the join snapshot (Table 13-11): map entries, dirty blocks, records, lost ranges, contexts with their SAs, flow and locked
address entries, keys, grants, enrolments and namespaces (log entry 125). -/
def State.snapshotBytes (s : State) : Nat :=
  let maps := (s.lay.volumes.map fun v => v.2.map.length).sum
  let locked := ((Assoc.get {} s.tbl.tables 0).entries.filter fun e => (leAt e.2 0x19 1).testBit 2).length
  16 * maps + 4160 * s.lay.buffer.length + 64 * s.sbg.stripes.length + 32 * s.cmdb.lost.length + 512 * s.xpt.conns.length +
    64 * (Assoc.get {} s.tbl.tables 1).entries.length + 32 * locked +
    64 * (s.cph.keys.length + s.xpt.grants.length + s.cmdb.nss.length + s.sec.locks.length) + 2432 * s.xpt.hosts.length

/-- Order entries that ORD_ACK does not yet cover would exceed 131,072: the standby is demoted to JOINING, the active becomes SOLO,
EVT_HRN_LAG is raised, and the demoted twin joins again at once (R250, R266). -/
def State.lagDemote (s : State) : State :=
  let s := (s.raise Ev.HRN_LAG).raise Ev.HRN_ROLE [roleCode s.hrn.role, roleCode .solo, 0]
  let js : List Stripe := s.sbg.stripes.map fun j => { j with acked := true }
  let j : Join := { id := none }
  let s := s.clearMirror
  let s := { s with hrn.role := .solo, hrn.peerRole := some .joining, hrn.ordAck := s.hrn.oseq, sbg.stripes := js, hrn.join := some j }
  let s := (s.sendTwin (.controlMsg .demote)).sendTwin (.controlMsg (.joinStart (s.fld Reg.HRN_EPOCH_EPOCH) s.hrn.ctrlSeq))
  (s.sendTwin (.snapshot s.snapshotBytes)).raise Ev.HRN_JOIN_START

/-- Form an order entry: for a STANDBY, whose ORD_ACK the transmission then waits for, or for a joiner, which is fed without
waiting (R264); none otherwise. -/
def State.order (s : State) (conn : Nat) (k : OrderKind) : State × Option Nat :=
  let s := if s.standbyPresent && s.hrn.swap.isNone && decide (s.hrn.ordAck + 131072 ≤ s.hrn.oseq) then s.lagDemote else s
  if !s.standbyPresent && s.hrn.join.isNone then (s, none)
  else
    let n := s.hrn.oseq
    (({ s with hrn.oseq := n + 1 }).sendTwin (.order ⟨conn, n % 2 ^ 32, s.now, k⟩), if s.standbyPresent then some n else none)

/-- Carry a change that hosts can observe to the peer: a CONTROL message, and the STATE entry that names it by its CTRL_SEQ (R246, R371). -/
def State.carryChange (s : State) (m : Out) : State :=
  let n := s.hrn.ctrlSeq
  ((({ s with hrn.ctrlSeq := (n + 1) % 2 ^ 32 }).sendTwin m).order 0xFFFF (.state n)).1

/-- Carry the effect of a Holder command to the peer, whose answer it then awaits (R49, R371). -/
def State.carry (s : State) (c : Started) : State :=
  if s.hasPeer then (s.carryChange (.carried c.desc.opcode.toNat)).updStarted c.id fun c => { c with waits := true, peer := true } else s

/-- Complete a Holder command that has had an effect; with a peer it completes once the peer has taken the effect in (R371). -/
def State.holderEnd (s : State) (c : Started) (st : MStatus) (r0 : Nat := 0) (r1 : Nat := 0) : State :=
  if s.hasPeer then (s.carry c).updStarted c.id fun c => { c with result := some (st, r0, r1) } else s.complete c st r0 r1

/-- Complete a Holder command with SUCCESS. -/
def State.holderDone (s : State) (c : Started) (r0 : Nat := 0) (r1 : Nat := 0) : State := s.holderEnd c .success r0 r1

/-- This twin's part of a Holder command that has been carried already is done. -/
def State.ownDone (s : State) (c : Started) : State :=
  if c.peer then s.updStarted c.id fun c => { c with result := some (.success, 0, 0) } else s.complete c .success

/-- The peer has taken in the oldest command of opcode `op` that awaits it; it completes if nothing else is outstanding. -/
def State.peerTook (s : State) (op : Nat) : State :=
  match s.ctl.started.find? fun c => c.peer && c.desc.opcode.toNat = op with
  | none => s
  | some c =>
    match c.result with
    | some (st, a, b) => s.complete c st a b
    | none => s.updStarted c.id fun c => { c with peer := false }

/-- The peer is gone: no command awaits it any more. -/
def State.peerGone (s : State) : State :=
  (s.ctl.started.filter fun c => c.peer).foldl (fun s c => s.peerTook c.desc.opcode.toNat) s

/-! ### Timer slots and shelf time -/

def State.slot (s : State) (n : Nat) : Slot := s.tim.slots.get {} n
def State.setSlot (s : State) (n : Nat) (x : Slot) : State := { s with tim.slots := s.tim.slots.set {} n x }

/-- The unallocated slots (TIM_SLOT_FREE). -/
def State.freeSlots (s : State) : Nat := 512 - s.tim.slots.count fun x => x.owner ≠ 0

/-- The lowest free slot below 504 (R38). -/
def State.findSlot (s : State) : Option Nat := (List.range 504).find? fun n => (s.slot n).owner = 0

/-- Shelf time reaches `t`, if it has not already (a timed event is delivered no earlier than its instant; log entry 8). -/
def State.reach (s : State) (t : Nat) : State :=
  if s.tim.ns < t then { s with tim.ns := t, tim.frac := 0 } else s

/-- Shelf time starts at `t`, if it has not passed it (R28): the timer slots and the floor's reference move with it. -/
def State.startAt (s : State) (t : Nat) : State :=
  if s.tim.ns < t then
    let d := t - s.tim.ns
    { s with tim.ns := t, tim.frac := 0, tim.floorRef := s.tim.floorRef + d,
             tim.slots := s.tim.slots.map fun e => (e.1, { e.2 with compare := e.2.compare + d }) }
  else s

/-- A floor found in metadata on the drives: the larger of the two stands (R33), and after a power-up shelf time starts there (R28). -/
def State.takeFloor (s : State) (t : Nat) : State :=
  let s := { s with tim.floor := max s.tim.floor t }
  if s.clk.warm then s else s.startAt s.tim.floor

/-- Slot `n` fires at its compare time: a periodic slot adds `period` to it, a one-shot slot is disarmed (R35). -/
def State.fireWith (s : State) (n period : Nat) : State :=
  let x := s.slot n
  let s := s.reach x.compare
  s.setSlot n (if x.period = 0 then { x with armed := false }
    else { x with compare := x.compare + period, period := period })

/-- Slot `n` fires with its own period. -/
def State.fire (s : State) (n : Nat) : State := s.fireWith n (s.slot n).period

/-- 2^`l` seconds in ns, for a log2 message interval (R38). -/
def logInterval (l : Int) : Nat :=
  match l with
  | .ofNat n => 1000000000 * 2 ^ n
  | .negSucc n => 1000000000 / 2 ^ (n + 1)

/-- How many times a step from shelf time to `t` passes the compare time of a periodic slot. -/
def Slot.passes (x : Slot) (t : Nat) : Nat :=
  if x.owner ≠ 0 && x.armed && x.period ≠ 0 && x.compare ≤ t then (t - x.compare) / x.period + 1 else 0

/-- What a forward step to `t` does to slot `n` (R39): passed more than once, it fires once, the fires skipped are added
to MISSED and its compare time moves so that the next boundary lies after the new shelf time. -/
def State.missSlot (s : State) (t n : Nat) : State :=
  let x := s.slot n
  let k := x.passes t
  if 2 ≤ k then
    (s.setSlot n { x with compare := x.compare + (k - 1) * x.period, missed := satAdd 16 x.missed (k - 1) }).raise
      Ev.TIMER_MISSED [n, k - 1]
  else s

/-- A forward step to `t` that passes a window's boundary closes that window once, with its END at `t` (R346). -/
def State.stepWindow (s : State) (t n : Nat) : State :=
  let x := s.slot n
  if x.action = 2 && 1 ≤ x.passes t then
    { s with tel.windows := Assoc.upd {} s.tel.windows x.target fun w => { w with stepped := some (w.stepped.getD t) } }
  else s

/-- The correction that shelf time runs on: the servo's, none in TWIN (log entry 104). -/
def Tim.runCorr (t : Tim) : Int := if t.st = .twin then 0 else t.corr

/-- Shelf time steps forward by `a` ns in one cycle; passed slots are handled under R39. -/
def State.stepTime (s : State) (a : Nat) : State :=
  let own : Int := if s.tim.st = .twin then s.tim.ownDiff - a * 65536 else s.tim.ownDiff
  let s := { s with tim.ns := s.tim.ns + a, tim.ownDiff := own, htx.usedTo := s.htx.usedTo + a }
  (s.tim.slots.keys).foldl (fun s n => (s.stepWindow s.tim.ns n).missSlot s.tim.ns n) s

/-! ### Sending -/

/-- The little helper of every row that has an effect only in some states. -/
def State.when (s : State) (c : Bool) (f : State → State) : State := if c then f s else s

/-! ### Wedged blocks (R59) -/

/-- A block is found wedged: its bit is set, the time of the first NMI is noted and EVT_FUNC_WEDGED is raised; once wedged it stays so
(R59). -/
def State.wedge (s : State) (block : Fin 22) : State :=
  s.when (!s.ctl.wedged.getLsbD block) fun s =>
    let w : BitVec 22 := s.ctl.wedged ||| BitVec.ofNat 22 (2 ^ block.val)
    ({ s with ctl.wedged := w, ctl.wedgedAt := some (s.ctl.wedgedAt.getD s.now) } : State).raise Ev.FUNC_WEDGED [block]

end Sys2Proof.Machine
end

