-- ==== Sys2Proof/Machine/Store.lean ====
section
/-! DEFINITION. Register writes as the tables define them (R5, R368, R371): which fields a write changes, which writes are
discarded whole, and who may write the registers that are carried to the peer. -/
namespace Sys2Proof.Machine

/-! ### The write buffer (R15 to R20, R155) -/

/-- Dirty blocks: buffered and not yet destaged. -/
def State.dirty (s : State) : Nat := s.lay.buffer.length

/-- DIRTY_CAP in blocks. -/
def State.capBlocks (s : State) : Nat := s.fld Reg.CMD_DIRTY_CAP_DIRTY_CAP * 256

/-- Dirty data reaches DIRTY_CAP: destage is forced until it has fallen 10% below (R20). -/
def State.noteDirty (s : State) : State :=
  let cap := s.capBlocks
  if cap ≠ 0 && !s.cmdb.forced && cap ≤ s.dirty then ({ s with cmdb.forced := true }).emit .destageForced
  else if s.cmdb.forced && (cap = 0 || s.dirty * 10 ≤ cap * 9) then { s with cmdb.forced := false }
  else s

/-- The write buffer holds `bs` from now on. -/
def State.setBuffer (s : State) (bs : List BufBlk) : State := { s with lay.buffer := bs }.noteDirty

/-! ### The write buffer's share of HBM (R354, R355) -/

/-- The context backing store in MiB: 65,536 contexts, and 64 bytes for each receive place of a capsule connection; at least its floor. -/
def State.storeMiB (s : State) : Nat :=
  let places := (s.xpt.conns.filter fun e => e.2.st ≠ .idle && !e.2.pull).foldl (fun n e => n + e.2.hsqsize) 0
  max 1024 (16 + (places * 64 + 1048575) / 1048576)

/-- How many blocks the write buffer holds: what tier 1's region and the backing store leave of 38,560 MiB, at 4,160 bytes a block. -/
def State.bufferBlocks (s : State) : Nat :=
  (38560 - (((s.tck.ext.map ExtImage.hbmLen).getD 0 + 1048575) / 1048576) - s.storeMiB) * 1048576 / 4160

/-- Reclaim clean blocks until the buffer fits its partition: the oldest go first (log entry 131). -/
def State.reclaim (s : State) : State :=
  let excess := s.lay.clean.length + s.dirty - s.bufferBlocks
  if excess = 0 then s else { s with lay.clean := s.lay.clean.drop excess }

/-- Drop the clean blocks that `p` names. -/
def State.dropClean (s : State) (p : BufBlk → Bool) : State := { s with lay.clean := s.lay.clean.filter fun b => !p b }

/-- Blocks whose record has cleared stay as clean blocks, in place of older ones of their LBAs and unless newer data is buffered. -/
def State.keepClean (s : State) (bs : List BufBlk) : State :=
  let new := bs.filter fun b => !(s.lay.buffer.any fun x => x.nsid = b.nsid && x.lba = b.lba)
  let same (b : BufBlk) : Bool := new.any fun x => x.nsid = b.nsid && x.lba = b.lba
  let old := s.lay.clean.filter fun b => !same b
  ({ s with lay.clean := old ++ new.map fun b => { b with cmd := none, stripe := none } } : State).reclaim

/-! ### Register writes -/

/-- Whether every RW field of a write lies in its stated range (R368). -/
def fieldsInRange (a : Nat) (v : Word) : Bool :=
  (fieldsAt a).all fun f => f.acc ≠ .rw || (decide (f.vmin ≤ getBits v f.hi f.lo) && decide (getBits v f.hi f.lo ≤ f.vmax))

/-- What a write of `v` makes of one field of a register: an RW field takes the written bits, a W1C field loses those written 1,
any other keeps its value (R5). -/
def Fld.write (f : Fld) (v w : Word) : Word :=
  let old := getBits w f.hi f.lo
  let new := getBits v f.hi f.lo
  match f.acc with
  | .rw => setBits w f.hi f.lo new
  | .w1c => setBits w f.hi f.lo (old - (old &&& new))
  | _ => w

/-- The stored word after a write of `v` over `old`. -/
def storedWord (a : Nat) (old v : Word) : Word := (fieldsAt a).foldl (fun w f => f.write v w) old

/-- Whether the register at `a` is written on the holder and carried to the peer (R371). -/
def carriedAt (a : Nat) : Bool := ((regAt a).map fun d => d.1.carried).getD false

/-- Whether this twin accepts a write of the register at `a` (R371). -/
def State.acceptsWrite (s : State) (a : Nat) : Bool := !carriedAt a || s.acceptsHolder true

/-- Carry a register write to the peer before it is used. -/
def State.carryReg (s : State) (a : Nat) (v : Word) : State :=
  if carriedAt a && s.hasPeer then s.carryChange (.carriedReg a v) else s

/-- Write the register at `a`, if the write is accepted and in range; `none` where it is discarded. -/
def State.storeReg (s : State) (a : Nat) (v : Word) : Option State :=
  if s.acceptsWrite a && fieldsInRange a v then some ((s.setRg a (storedWord a (s.rg a) v)).carryReg a v) else none

/-- XPT_CFG takes the word `w` (R124): EN going to 1 gives the wheel a timer slot of owner 3, and the write is discarded with none
free; EN going to 0 frees the slot. -/
def State.setXptCfg (s : State) (w : Word) : State :=
  let a := Reg.XPT_CFG_EN.addr
  let on := decide (getBits w 0 0 = 1)
  if s.flag Reg.XPT_CFG_EN = on then s.setRg a w
  else if on then
    match s.findSlot with
    | none => s
    | some n =>
      let p := s.fld Reg.XPT_WHEEL_WHEEL_TICK * 1000
      let x : Slot := { owner := 3, armed := true, compare := s.now + p, period := p }
      { (s.setRg a w).setSlot n x with xpt.wheelSlot := some n }
  else
    let t := (match s.xpt.wheelSlot with
      | some n => s.setSlot n {}
      | none => s)
    { t.setRg a w with xpt.wheelSlot := none }

/-- A write of XPT_CFG (R124, R371). -/
def State.writeXptCfg (s : State) (v : Word) : State :=
  let a := Reg.XPT_CFG_EN.addr
  let turnsOn := !s.flag Reg.XPT_CFG_EN && decide (getBits v 0 0 = 1)
  if s.acceptsWrite a && fieldsInRange a v && !(turnsOn && s.findSlot.isNone) then
    (s.setXptCfg (storedWord a (s.rg a) v)).carryReg a v
  else s

end Sys2Proof.Machine
end

