-- ==== Sys2Proof/Machine/Codes.lean ====
section
/-! DEFINITION. The concrete codes of the manual: CRC-32C (R91, R182, R272), CRC-64 (R253), and the field GF(2^8) of the
parity arithmetic (R178). -/
namespace Sys2Proof.Machine

/-- One bit step of the reflected CRC-32C polynomial. -/
def crcBit (c : BitVec 32) : BitVec 32 := if c.getLsbD 0 then (c >>> 1) ^^^ 0x82F63B78 else c >>> 1

/-- One byte of CRC-32C. -/
def crcByte (c : BitVec 32) (b : Byte) : BitVec 32 :=
  let c := c ^^^ b.setWidth 32
  crcBit (crcBit (crcBit (crcBit (crcBit (crcBit (crcBit (crcBit c)))))))

/-- CRC-32C of a byte string with initial value `s` (R91); the final inversion is the code's own (log entry 18). -/
def crc32cFrom (s : Nat) (m : List Byte) : Nat := ((m.foldl crcByte (BitVec.ofNat 32 s)) ^^^ 0xFFFFFFFF).toNat

/-- CRC-32C of a byte string. -/
def crc32c (m : List Byte) : Nat := crc32cFrom 0xFFFFFFFF m

/-- One bit step of CRC-64 with the ECMA-182 polynomial. -/
def crc64Bit (c : BitVec 64) : BitVec 64 :=
  if c.getLsbD 63 then (c <<< 1) ^^^ 0x42F0E1EBA9EA3693 else c <<< 1

/-- CRC-64, ECMA-182 polynomial, initial value 0 (R253). -/
def crc64 (m : List Byte) : Nat :=
  (m.foldl (fun (c : BitVec 64) (b : Byte) =>
    let c := c ^^^ (b.setWidth 64 <<< 56)
    crc64Bit (crc64Bit (crc64Bit (crc64Bit (crc64Bit (crc64Bit (crc64Bit (crc64Bit c)))))))) 0).toNat

/-- Multiplication by x in GF(2^8) with 0x11D (R178). -/
def gfX (a : Byte) : Byte := if a.getLsbD 7 then (a <<< 1) ^^^ 0x1D else a <<< 1

/-- Multiplication in GF(2^8), by the low `n` bits of `b`. -/
def gfMulBits : Nat → Byte → Byte → Byte
  | 0, _, _ => 0
  | n + 1, a, b => (if b.getLsbD 0 then a else 0) ^^^ gfMulBits n (gfX a) (b >>> 1)

/-- Multiplication in GF(2^8) (R178). -/
def gfMul (a b : Byte) : Byte := gfMulBits 8 a b

def gfPow (a : Byte) : Nat → Byte
  | 0 => 1
  | n + 1 => gfMul a (gfPow a n)

/-- The inverse of a non-zero element. -/
def gfInv (a : Byte) : Byte := gfPow a 254

/-- The parity coefficient c(j, i) = (i + 4) × inverse(j xor (i + 4)) (R178). -/
def coef (j i : Nat) : Byte :=
  let e := BitVec.ofNat 8 (i + 4)
  gfMul e (gfInv (BitVec.ofNat 8 j ^^^ e))

/-- The sum of two strips, the shorter padded with zeros. -/
def xorBytes : List Byte → List Byte → List Byte
  | [], b => b
  | a, [] => a
  | x :: a, y :: b => (x ^^^ y) :: xorBytes a b

/-- A strip times a coefficient. -/
def scaleBytes (c : Byte) (m : List Byte) : List Byte := m.map (gfMul c)

/-- Parity `j` of data strips D_0, D_1, … (R178). -/
def parityOf (j : Nat) (data : List (List Byte)) : List Byte :=
  (data.zipIdx).foldl (fun acc d => xorBytes acc (scaleBytes (coef j d.2) d.1)) []

/-- ENCODE: the `m` parities of the data strips (R179). -/
def ecEncode (m : Nat) (data : List (List Byte)) : List (List Byte) := (List.range m).map fun j => parityOf j data

/-- UPDATE: the new parities for a change of data position `pos` (R179). -/
def ecUpdate (pos : Nat) (old new : List Byte) (par : List (List Byte)) : List (List Byte) :=
  (par.zipIdx).map fun p => xorBytes p.1 (scaleBytes (coef p.2 pos) (xorBytes old new))

/-- The row of the generator matrix at position `p` of a stripe with `k` data strips: a unit row or a parity row. -/
def genRow (k p : Nat) : List Byte :=
  if p < k then (List.range k).map fun i => if i = p then 1 else 0
  else (List.range k).map fun i => coef (p - k) i

/-- A row of the elimination: coefficients and the strip they stand for. -/
abbrev ERow := List Byte × List Byte

/-- Scale a row so that its column `c` is 1. -/
def ERow.norm (r : ERow) (c : Nat) : ERow :=
  let v := gfInv (r.1.getD c 0)
  (scaleBytes v r.1, scaleBytes v r.2)

/-- Clear column `c` of a row by a normalised pivot row. -/
def ERow.clear (r p : ERow) (c : Nat) : ERow :=
  let v := r.1.getD c 0
  (xorBytes r.1 (scaleBytes v p.1), xorBytes r.2 (scaleBytes v p.2))

/-- Gauss–Jordan elimination over columns `c`, `c + 1`, … for `n` columns; the rows used as pivots are in `done`. -/
def gauss : Nat → Nat → List ERow → List ERow → List ERow
  | 0, _, done, _ => done
  | n + 1, c, done, rest =>
    match rest.find? fun r => r.1.getD c 0 ≠ 0 with
    | none => done
    | some r =>
      let p := ERow.norm r c
      gauss n (c + 1) ((done.map fun q => ERow.clear q p c) ++ [p]) ((rest.erase r).map fun q => ERow.clear q p c)

/-- The data strips from `k` surviving strips, given with their positions (R178: any k survivors recover the stripe). -/
def ecData (k : Nat) (have_ : List (Nat × List Byte)) : List (List Byte) :=
  (gauss k 0 [] ((have_.take k).map fun h => (genRow k h.1, h.2))).map Prod.snd

/-- DECODE: the strips at the positions of `want`, from the first `k` survivors (R179). -/
def ecDecode (k : Nat) (have_ : List (Nat × List Byte)) (want : List Nat) : List (List Byte) :=
  let d := ecData k have_
  want.map fun p => if p < k then d.getD p [] else parityOf (p - k) d

end Sys2Proof.Machine
end

