-- ==== Sys2Proof/Machine/Tack.lean ====
section
/-! DEFINITION. Chapter 04: the primitive instructions, their tickets and outcomes, the primitives that serve the cores
themselves (PARSE, MOVE, RING, TIME, COUNT, LOCK), ECC errors of cluster SRAM and slot doorbells. -/
namespace Sys2Proof.Machine

/-! ### Memory (Table 04-1) -/

/-- Whether an address lies in the BAR0 register image (Table 04-1). -/
def inImage (a : Nat) : Bool := decide (0x02000000 ≤ a) && decide (a < 0x02100000)

/-- The physical place of address `a` as core `core` sees it: its own cluster's SRAM is an alias of the cluster map.
`none` outside the listed ranges. Of the primitives MOVE reaches the registers behind the BAR0 image (log entry 14). -/
def physAddr (core a : Nat) : Option Nat :=
  if a < 0x200000 then some (0x04000000 + core / 8 * 0x200000 + a)
  else if inImage a then some a
  else if 0x04000000 ≤ a && a < 0x0C000000 then some a
  else if 0x1000000000 ≤ a && a < 0x1C00000000 then some a
  else none

/-- The canonical form of memory: addresses strictly rising, no entry equal to the 0 that an unlisted address reads as. -/
def Memory.wf (m : List Host.Cell) : Bool := Assoc.wf (0 : Byte) m

/-- One byte of memory; a byte nothing has written reads 0 (log entry 7). -/
def State.byte (s : State) (a : Nat) : Byte := Assoc.get (0 : Byte) s.mem a

/-- Write bytes from physical address `a` up. -/
def writeMem (m : List Host.Cell) (a : Nat) : List Byte → List Host.Cell
  | [] => m
  | b :: bs => writeMem (Assoc.set (0 : Byte) m a b) (a + 1) bs

/-- `n` bytes from physical address `a` up. -/
def State.bytes (s : State) (a n : Nat) : List Byte := (List.range n).map fun i => s.byte (a + i)

/-- Whether the PMP entries of a core allow user mode an access of `n` bytes at `a` (R61, R67, R69); a core has 16 entries. -/
def regionsAllow (rs : List Region) (a n : Nat) (write : Bool) : Bool :=
  (rs.take 16).any fun g => decide (g.base ≤ a) && decide (a + n ≤ g.base + g.size) && (if write then g.w else g.r)

/-- The physical address of an access by a call, if its core's PMP allows it (R67): tier 0 reaches the whole map. -/
def State.access (s : State) (c : Call) (a n : Nat) (write : Bool) : Option Nat :=
  match physAddr c.core a, physAddr c.core (a + (n - 1)) with
  | some p, some _ =>
    if c.tier1 && !regionsAllow (Assoc.get [] s.tck.pmp c.core) a n write then none else some p
  | _, _ => none

/-! ### Calls -/

/-- The outstanding calls of a core: issued and not completed (R64). -/
def State.outstanding (s : State) (core : Nat) : List Call := s.tck.calls.filter fun c => c.core = core && !c.done

/-- Whether a core runs the extension (tier 1). -/
def State.inTier1 (s : State) (core : Nat) : Bool := s.tck.runs.any fun r => r.core = core

/-- The primitives tier 1 may call: requested by the image and set in T1_MASK; CIPHER, SEND and RING never (R70). -/
def State.tier1May (s : State) (prim : Nat) : Bool :=
  let mask := (s.rg Reg.TCK_T1_MASK_MASK_LO.addr).toNat
  let req := (s.tck.ext.map ExtImage.mask).getD 0
  mask.testBit prim && req.testBit prim && !([2, 5, 6].contains prim)

/-- A fault or overrun of the extension (R72): the eighth within 1 s of shelf time disables it. -/
def State.extFault (s : State) : State :=
  let fs := s.now :: s.tck.faults.filter fun t => s.now < t + 1000000000
  let s := { s with tck.faults := fs }
  if 8 ≤ fs.length && !s.tck.extDisabled then ({ s with tck.extDisabled := true }).raise Ev.EXT_DISABLED else s

/-- The 64-bit ticket of a call (R65). -/
def Call.ticket (c : Call) : Nat := c.slot + 16 * c.seq

/-- The 64-bit outcome of a call (R65). -/
def outcomeOf (st r : Nat) : Nat := st % 65536 + 2 ^ 32 * (r % 2 ^ 32)

/-- The call slot and sequence the next call of a core takes: the lowest slot with no outstanding call, and a number that counts that core's
calls in that slot from 0 (log entry 114). -/
def State.newTicket (s : State) (core : Nat) : Nat × Nat :=
  let used := (s.outstanding core).map Call.slot
  let slot := ((List.range 16).find? fun k => !used.contains k).getD 0
  (slot, Assoc.get 0 s.tck.seqs (core * 16 + slot))

/-- Whether an address is a descriptor's place (R66): 64-byte aligned in the core's own cluster SRAM. -/
def descriptorAt (core a : Nat) : Option Nat :=
  match physAddr core a with
  | some p =>
    if a % 64 = 0 && decide (0x04000000 + core / 8 * 0x200000 ≤ p) && decide (p < 0x04000000 + (core / 8 + 1) * 0x200000) then some p
    else none
  | none => none

/-- Issue a call (R66): bytes 0x00 to 0x37 of the descriptor are copied, the ticket goes to rd, and a refusal by the
tier's mask (R70) or by the descriptor's fields is its outcome. A descriptor out of its place gives BAD_DESC and nothing is written to
it (log entry 115). -/
def State.issue (s : State) (core prim addr rd : Nat) : State :=
  let (slot, seq) := s.newTicket core
  let t1 := s.inTier1 core
  let place := descriptorAt core addr
  let d := if place.isSome then s.bytes (place.getD 0) 56 else []
  let rank := leAt d 0 1
  let bad := place.isNone || 3 ≤ rank || 2 ≤ leAt d 1 1 || leAt d 2 2 ≠ 0
  let denied := t1 && !s.tier1May prim
  let c : Call := { core := core, slot := slot, seq := seq, prim := prim,
                    rank := if t1 && rank = 0 then 1 else rank, notify := leAt d 1 1 = 1, tier1 := t1,
                    tag := leAt d 4 4, args := d.drop 8, addr := place.getD 0,
                    res := if denied then some (1, 0) else if bad then some (2, 0) else none }
  let s := { s with tck.calls := s.tck.calls ++ [c],
                    tck.seqs := Assoc.set 0 s.tck.seqs (core * 16 + slot) ((seq + 1) % 4096) }
  let s := (s.bump (Reg.TCK_PCALL_CNT_CALLS prim)).emit (.coreResult core rd c.ticket)
  if denied then s.extFault else s

/-- What a custom-0 instruction word is (R64, Table 04-2): PCALL with its primitive, PWAIT or PPOLL, each with rd, or an illegal instruction. -/
inductive PrimOp where
  | pcall (prim rd : Nat)
  | pwait (rd : Nat)
  | ppoll (rd : Nat)
  | illegal
  deriving DecidableEq, Repr

/-- The word of a custom-0 instruction: funct7 in [31:25] and the rest below it. -/
def customWord (funct7 : BitVec 7) (rest : BitVec 25) : Word := funct7 ++ rest

/-- Decode a word whose major opcode is custom-0: [31:25] funct7, [24:20] rs2, [14:12] funct3, [11:7] rd. -/
def primOp (w : Word) : PrimOp :=
  let f7 := getBits w 31 25
  let rd := getBits w 11 7
  if getBits w 24 20 ≠ 0 then .illegal
  else match getBits w 14 12 with
    | 0 => if 9 < f7 then .illegal else .pcall f7 rd
    | 1 => if f7 ≠ 0 then .illegal else .pwait rd
    | 2 => if f7 ≠ 0 then .illegal else .ppoll rd
    | _ => .illegal

/-- Whether a core executes instructions: its cluster is not stopped (R63), and it stalls in no PWAIT or PCALL. -/
def State.coreRuns (s : State) (core : Nat) : Bool :=
  !(Assoc.get {} s.tck.clusters (core / 8) : Cluster).stopped && !(s.tck.waits.any fun w => w.core = core) &&
    !(s.tck.stalls.any fun x => x.core = core)

/-- A PCALL (R64): with 16 calls outstanding the core stalls until one completes. -/
def State.pcall (s : State) (core prim rd address : Nat) : State :=
  if 16 ≤ (s.outstanding core).length then { s with tck.stalls := s.tck.stalls ++ [⟨core, prim, address, rd⟩] }
  else s.issue core prim address rd

/-- The call of `core` that a ticket names. -/
def State.callOf (s : State) (core ticket : Nat) : Option Call :=
  s.tck.calls.find? fun c => c.core = core && c.ticket = ticket

/-- Hand a completed call's outcome to its core; the ticket is then no longer valid (R65). -/
def State.take (s : State) (c : Call) (rd : Nat) : State :=
  let r := c.res.getD (0, 0)
  { s with tck.calls := s.tck.calls.filter fun x => !(x.core = c.core && x.ticket = c.ticket) }.emit
    (.coreResult c.core rd (outcomeOf r.1 r.2))

/-- A PWAIT or PPOLL (R65): the outcome of a completed call at once, STALE for an invalid ticket; for a call still running the core stalls
in PWAIT, and PPOLL gives PENDING. -/
def State.askTicket (s : State) (core ticket rd : Nat) (wait : Bool) : State :=
  match s.callOf core ticket with
  | none => s.emit (.coreResult core rd (outcomeOf 0xFFFE 0))
  | some c =>
    if c.done then s.take c rd
    else if wait then { s with tck.waits := s.tck.waits ++ [⟨core, ticket, rd⟩] }
    else s.emit (.coreResult core rd (outcomeOf 0xFFFF 0))

/-- Post a value to a doorbell queue of a cluster. -/
def State.post (s : State) (cluster queue v : Nat) : State :=
  let k := cluster * 65536 + queue
  { s with tck.doorbells := Assoc.set [] s.tck.doorbells k (Assoc.get [] s.tck.doorbells k ++ [v]) }

/-- What the completion of a call leaves: STATUS and RESULT in its descriptor, the call done, or gone where its core has dropped it. -/
def State.closeCall (s : State) (c : Call) : State :=
  let r := c.res.getD (0, 0)
  let m := if c.addr = 0 then s.mem
    else writeMem (writeMem s.mem (c.addr + 0x38) (leBytes 2 r.1)) (c.addr + 0x3C) (leBytes 4 r.2)
  let cs := s.tck.calls.map fun x => if x.core = c.core && x.ticket = c.ticket && !x.done then { x with done := true } else x
  let cs := if c.orphan then s.tck.calls.filter (fun x => !(x.core = c.core && x.ticket = c.ticket)) else cs
  { s with mem := m, tck.calls := cs }

/-- NOTIFY posts the ticket to the cluster's doorbell queue number 0 (log entry 116), and a core waiting for the ticket receives the
outcome. -/
def State.tellCaller (s : State) (core : Nat) (c : Call) : State :=
  let s := s.when c.notify fun s => s.post (core / 8) 0 c.ticket
  match s.tck.waits.find? fun w => w.core = core && w.ticket = c.ticket with
  | none => s
  | some w => ({ s with tck.waits := s.tck.waits.erase w }).take { c with done := true } w.rd

/-- A stalled PCALL of the core issues. -/
def State.unstall (s : State) (core : Nat) : State :=
  match s.tck.stalls.find? fun x => x.core = core with
  | none => s
  | some x => ({ s with tck.stalls := s.tck.stalls.erase x }).issue core x.prim x.addr x.rd

/-- PRIMITIVE_COMPLETE (R66): STATUS and RESULT are written to the descriptor, NOTIFY posts the ticket to the cluster's
doorbell queue, a core waiting for the ticket receives the outcome, and a stalled PCALL of the core issues. -/
def execPrimitiveComplete (core : Fin 256) (slot : Fin 16) (s : State) : Host.Outcome State Fault Refusal :=
  .next <|
    match s.tck.calls.find? fun c => c.core = core.val && c.slot = slot.val && !c.done && c.res.isSome with
    | none => s
    | some c => ((s.closeCall c).tellCaller core c).unstall core

/-! ### Engines -/

/-- The key by which an engine orders two calls (R68): rank, then distance of the cluster from the round-robin pointer,
then core, then order of issue (the list's order). -/
def State.callKey (s : State) (c : Call) : Nat :=
  let p := Assoc.get 0 s.tck.rr c.prim
  c.rank * 65536 + (c.core / 8 + 32 - p) % 32 * 256 + c.core % 8

/-- The call an engine takes next. -/
def State.nextCall (s : State) (prim : Nat) : Option Call :=
  let cs := s.tck.calls.filter fun c => c.prim = prim && c.res.isNone && !c.done && c.waitsLock.isNone
  cs.foldl (fun b c => match b with
    | none => some c
    | some x => if s.callKey c < s.callKey x then some c else some x) none

/-- Record what an engine did with a call: its outcome, or the lock it now waits for; the pointer moves past its
cluster (R352). -/
def State.answer (s : State) (c : Call) (st r : Nat) : State :=
  let cs := s.tck.calls.map fun x => if x.core = c.core && x.ticket = c.ticket && !x.done then { x with res := some (st, r), waitsLock := none } else x
  { s with tck.calls := cs, tck.rr := Assoc.set 0 s.tck.rr c.prim ((c.core / 8 + 1) % 32) }

/-- Let the engine of primitive `prim` take its next call: `body` gives the outcome and the state after it. -/
def State.engine (s : State) (prim : Nat) (body : Call → State → Nat × Nat × State) : State :=
  match s.nextCall prim with
  | none => s
  | some c =>
    let (st, r, s') := body c s
    s'.answer c st r

/-- PARSE (R64, Table 04-4): the header offsets go to the output address and RESULT is the flow hash, whose function the
manual does not give: a free value (log entry 13). -/
def execParse (profileOk : Bool) (output : Nat) (offsets : List Byte) (s : State) : Host.Outcome State Fault Refusal :=
  .next <| s.engine 0 fun c s =>
    if !profileOk then (2, 0, s)
    else match s.access c output offsets.length true with
      | none => (3, 0, s)
      | some p =>
        let (h, s) := s.draw 32
        (0, h.toNat, { s with mem := writeMem s.mem p offsets })

def State.queue (s : State) (q : Nat) : HwQueue := Assoc.get {} s.tck.queues q
def State.setQueue (s : State) (q : Nat) (x : HwQueue) : State := { s with tck.queues := Assoc.set {} s.tck.queues q x }

/-- RING_PRODUCE: an entry read from memory joins the queue; RESULT is the new tail (Table 04-4). -/
def execRingProduce (queue address length : Nat) (s : State) : Host.Outcome State Fault Refusal :=
  .next <| s.engine 6 fun c s =>
    if 74239 < queue then (2, 0, s)
    else match s.access c address length false with
      | none => (3, 0, s)
      | some p =>
        let q := s.queue queue
        (0, q.tail + 1, s.setQueue queue { q with tail := q.tail + 1, entries := q.entries ++ [s.bytes p length] })

/-- RING_CONSUME: the oldest entry leaves the queue for memory; RESULT is the new head (Table 04-4). An empty queue gives
RESOURCE (log entry 13). -/
def execRingConsume (queue address : Nat) (s : State) : Host.Outcome State Fault Refusal :=
  .next <| s.engine 6 fun c s =>
    if 74239 < queue then (2, 0, s)
    else
      let q := s.queue queue
      match q.entries with
      | [] => (4, q.head, s)
      | e :: es =>
        match s.access c address e.length true with
        | none => (3, 0, s)
        | some p =>
          (0, q.head + 1, { s with mem := writeMem s.mem p e }.setQueue queue { q with head := q.head + 1, entries := es })

/-- RING_DOORBELL: the queue's doorbell is rung with its tail. -/
def execRingDoorbell (queue : Nat) (s : State) : Host.Outcome State Fault Refusal :=
  .next <| s.engine 6 fun _ s =>
    if 74239 < queue then (2, 0, s)
    else
      let q := s.queue queue
      (0, q.tail, s.emit (.queueDoorbell queue q.tail))

/-- TIME_READ: shelf time is written to the output address. -/
def execTimeRead (output : Nat) (s : State) : Host.Outcome State Fault Refusal :=
  .next <| s.engine 7 fun c s =>
    match s.access c output 8 true with
    | none => (3, 0, s)
    | some p => (0, 0, { s with mem := writeMem s.mem p (leBytes 8 s.now) })

/-- The slots a tier 1 program holds (R357). -/
def State.tier1Slots (s : State) : Nat := s.tim.slots.count fun x => x.owner = 7

/-- TIME_ALLOCATE (R36, R38, R357): RESOURCE where no slot is free or tier 1 would hold more than 256, BAD_DESC for action
5 or an undefined action. Tier 0 names the owner; 0, which would leave the slot free, stands for 3 (log entry 117). -/
def execTimeAllocate (owner compare period action target : Nat) (s : State) : Host.Outcome State Fault Refusal :=
  .next <| s.engine 7 fun c s =>
    if 5 ≤ action then (2, 0, s)
    else if c.tier1 && 256 ≤ s.tier1Slots then (4, 0, s)
    else match s.findSlot with
      | none => (4, 0, s)
      | some n =>
        (0, n, s.setSlot n { owner := if c.tier1 then 7 else if owner = 0 then 3 else owner, armed := true,
                             compare := compare, period := period, action := action, target := target })

/-- TIME_ARM (R35, R36, R70): tier 1 reaches only the slots it allocated. Slots 504 to 511 keep the period and action of R38 (log entry
117). -/
def execTimeArm (slot compare period action target : Nat) (s : State) : Host.Outcome State Fault Refusal :=
  .next <| s.engine 7 fun c s =>
    let x := s.slot slot
    if c.tier1 && x.owner ≠ 7 then (1, 0, s.extFault)
    else if 5 ≤ action || 503 < slot || x.owner = 0 then (2, 0, s)
    else (0, slot, s.setSlot slot { x with armed := true, compare := compare, period := period, action := action,
                                           target := target })

/-- TIME_FREE (R38, R70): the caller's slot returns to the pool; slots 504 to 511 cannot be freed. -/
def execTimeFree (slot : Nat) (s : State) : Host.Outcome State Fault Refusal :=
  .next <| s.engine 7 fun c s =>
    let x := s.slot slot
    if c.tier1 && x.owner ≠ 7 then (1, 0, s.extFault)
    else if 503 < slot || x.owner = 0 then (2, 0, s)
    else (0, slot, s.setSlot slot {})

/-- A COUNT call on counter `k` (R70, R343): above 4,095 it is out of range, and tier 1 reaches only 3,840 to 4,095. -/
def State.countCall (s : State) (c : Call) (k : Nat) (f : State → Nat × Nat × State) : Nat × Nat × State :=
  if 4095 < k then (2, 0, s)
  else if c.tier1 && k < 3840 then (1, 0, s.extFault)
  else f s

/-- COUNT_ADD (R343): RESULT is the low word of the new value. -/
def execCountAdd (counter increment : Nat) (s : State) : Host.Outcome State Fault Refusal :=
  .next <| s.engine 8 fun c s => s.countCall c counter fun s =>
    let s := s.count counter increment
    (0, s.counter counter % 2 ^ 32, s)

/-- COUNT_READ (R343). -/
def execCountRead (counter : Nat) (s : State) : Host.Outcome State Fault Refusal :=
  .next <| s.engine 8 fun c s => s.countCall c counter fun s => (0, s.counter counter % 2 ^ 32, s)

/-- COUNT_READ_CLEAR (R343): the value is read and the counter returns to 0. RESULT is the low word of the value read
(log entry 13). -/
def execCountReadClear (counter : Nat) (s : State) : Host.Outcome State Fault Refusal :=
  .next <| s.engine 8 fun c s => s.countCall c counter fun s =>
    (0, s.counter counter % 2 ^ 32, { s with tel.counters := Assoc.set 0 s.tel.counters counter 0 })

/-- The core that holds a lock, plus one; 0 for a free lock. -/
def State.lockHolder (s : State) (l : Nat) : Nat := Assoc.get 0 s.tck.locks l
def State.setLock (s : State) (l h : Nat) : State := { s with tck.locks := Assoc.set 0 s.tck.locks l h }

/-- LOCK_ACQUIRE (R68): a free lock is acquired; a held one is waited for with the wait flag and gives BUSY without. -/
def execLockAcquire (lock : Nat) (wait : Bool) (s : State) : Host.Outcome State Fault Refusal :=
  .next <|
    match s.nextCall 9 with
    | none => s
    | some c =>
      if 65535 < lock then s.answer c 2 0
      else if s.lockHolder lock = 0 then (s.setLock lock (c.core + 1)).answer c 0 1
      else if wait then
        let cs := s.tck.calls.map fun x => if x.core = c.core && x.ticket = c.ticket && !x.done then { x with waitsLock := some lock } else x
        { s with tck.calls := cs, tck.rr := Assoc.set 0 s.tck.rr 9 ((c.core / 8 + 1) % 32) }
      else s.answer c 8 0

/-- The waiter that a freed lock goes to, in the order of R68. -/
def State.nextWaiter (s : State) (l : Nat) : Option Call :=
  (s.tck.calls.filter fun c => c.waitsLock = some l && !c.done).foldl (fun b c => match b with
    | none => some c
    | some x => if s.callKey c < s.callKey x then some c else some x) none

/-- LOCK_GRANT (R68): a free lock with waiters is granted to the next of them. -/
def execLockGrant (lock : Nat) (s : State) : Host.Outcome State Fault Refusal :=
  .next <| s.when (s.lockHolder lock = 0) fun s =>
    match s.nextWaiter lock with
    | none => s
    | some c => (s.setLock lock (c.core + 1)).answer c 0 1

/-- LOCK_RELEASE (R68): by a core that does not hold the lock it completes with BAD_DESC and changes nothing. -/
def execLockRelease (lock : Nat) (s : State) : Host.Outcome State Fault Refusal :=
  .next <| s.engine 9 fun c s =>
    if 65535 < lock || s.lockHolder lock ≠ c.core + 1 then (2, 0, s)
    else (0, 0, s.setLock lock 0)

/-! ### Slots, ECC -/

/-- Whether the extension runs at hook `h`: enabled, loaded with an entry for it, and not disabled (R71, R72). -/
def State.hookOn (s : State) (h : Nat) : Bool :=
  s.flag (Reg.TCK_HOOK_CFG_ENABLE h) && !s.tck.extDisabled &&
    (match s.tck.ext with
     | some e => e.hooks.getD h 0 ≠ 0
     | none => false)

/-- With the extension disabled under R72 an enabled hook takes its DEFAULT_ACT: whether that refuses (Table 04-6). -/
def State.hookRefuses (s : State) (h : Nat) : Bool :=
  s.tck.extDisabled && s.tck.ext.isSome && s.flag (Reg.TCK_HOOK_CFG_ENABLE h) && s.flag (Reg.TCK_HOOK_CFG_DEFAULT_ACT h)

/-- Bytes `n` from physical address `a` read 0 again. -/
def zeroMem (m : List Host.Cell) (a n : Nat) : List Host.Cell := m.filter fun c => !(decide (a ≤ c.1) && decide (c.1 < a + n))

/-- Put an image's code into every cluster's SRAM and its initialised data into every core's 64 KiB (R69). -/
def State.placeExt (s : State) (x : ExtImage) : State :=
  let m := (List.range 32).foldl (fun m k => writeMem (zeroMem m (0x04000000 + k * 0x200000) 0x40000) (0x04000000 + k * 0x200000) x.code) s.mem
  let m := (List.range 256).foldl (fun m k => writeMem m (0x04040000 + k / 8 * 0x200000 + k % 8 * 0x10000) x.data) m
  { s with mem := m }

/-- The data of every core and the HBM region of `len` bytes are zeroed (R69). -/
def State.clearExt (s : State) (len : Nat) : State :=
  let m := (List.range 32).foldl (fun m k => zeroMem m (0x04040000 + k * 0x200000) 0x80000) s.mem
  { s with mem := zeroMem m 0x1000000000 len }

/-- The loaded extension is replaced: its TIME slots are freed, data and HBM regions are zeroed, the new image's code and data are put in
place, and the faults start anew (R69, R75). -/
def State.swapExt (s : State) (x : Option ExtImage) : State :=
  let s := s.clearExt 0x10000000
  let s := match x with
    | some x => s.placeExt x
    | none => s
  { s with tim.slots := s.tim.slots.filter fun e => e.2.owner ≠ 7, tck.ext := x, tck.extDisabled := false, tck.faults := [],
           tck.next := none }

/-- The core that the next invocation runs on: the lowest that is not in tier 1, of a running cluster other than the supervisor's (log
entry 15). -/
def State.hookCore (s : State) : Option Nat :=
  (List.range 248).find? fun k => !s.inTier1 k && !(Assoc.get {} s.tck.clusters (k / 8) : Cluster).stopped

/-- The PMP entries of tier 1 on a core (R69), where the model puts them (log entry 15): code, the core's data, the hook argument block, the
HBM region. The other entries are off. -/
def tier1Pmp (core hbm : Nat) : List Region :=
  [⟨0, 0x40000, true, false, true⟩, ⟨0x40000 + core % 8 * 0x10000, 0x10000, true, true, false⟩,
   ⟨0xC0000 + core % 8 * 0x1000, 0x1000, true, false, false⟩] ++
    (if hbm = 0 then [] else [⟨0x1000000000, hbm, true, true, false⟩])

/-- Enter the extension at hook `h` for `subject` with its tier 1 regions set (R69). While a new image waits for the running invocations
(R75), or with every core in tier 1, the invocation waits its turn. -/
def State.invokeHook (s : State) (h subject : Nat) : State :=
  match (if s.tck.next.isSome then none else s.hookCore) with
  | none => { s with tck.hookWait := s.tck.hookWait ++ [(h, subject)] }
  | some core =>
    let rs := tier1Pmp core ((s.tck.ext.map ExtImage.hbmLen).getD 0)
    { s with tck.runs := s.tck.runs ++ [⟨core, h, subject⟩], tck.pmp := Assoc.set [] s.tck.pmp core rs }

/-- A tier 1 slot that fires enters the TIMER hook (Table 04-6). -/
def State.timerHook (s : State) (n owner : Nat) : State := s.when (owner = 7 && s.hookOn 3) fun s => s.invokeHook 3 n

/-- SLOT_DOORBELL_FIRE (R35, R36): a slot with action DOORBELL posts to the cluster and queue of its target; a tier 1 slot
also enters the TIMER hook (Table 04-6). The slots of the sweepers and of the transport's wheel have rows of their own. -/
def execSlotDoorbellFire (slot : Fin 512) (s : State) : Host.Outcome State Fault Refusal :=
  .next <|
    let x := s.slot slot
    s.when (x.owner ≠ 0 && x.armed && x.action = 0 && x.owner ≠ 2 && s.xpt.wheelSlot ≠ some slot.val) fun s =>
      ((s.fire slot).post (x.target / 65536) (x.target % 65536) slot).timerHook slot x.owner

/-- TACK_ECC_UNCORRECTABLE (R63): the cluster stops and the NMI is raised. -/
def execTackEccUncorrectable (cluster : Fin 32) (s : State) : Host.Outcome State Fault Refusal :=
  .next <|
    ({ s with tck.clusters := Assoc.set {} s.tck.clusters cluster.val { stopped := true } }).raise Ev.TACK_ECC_FATAL
      [cluster]

/-- TACK_ECC_CORRECTED (R63): counted in ECC_CE. -/
def execTackEccCorrected (cluster : Fin 32) (s : State) : Host.Outcome State Fault Refusal :=
  .next <| (s.bump (Reg.TCK_CLUSTER_STATUS_ECC_CE cluster)).raise Ev.TACK_ECC [cluster]

end Sys2Proof.Machine
end

