-- ==== Sys2Proof/Machine/Tables.lean ====
section
/-! DEFINITION. Chapter 06, the shared operations of the lookup tables: entries, hashing, the cuckoo update engine,
aging, learning. -/
namespace Sys2Proof.Machine

/-! ### Entries (R90) -/

/-- Replace `n` bytes of an entry from offset `o` by the little-endian number `v`. -/
def putLe (b : List Byte) (o n v : Nat) : List Byte := b.take o ++ leBytes n v ++ b.drop (o + n)

/-- The size of an entry of table `t`. -/
def entrySize (t : Nat) : Nat := [32, 64, 16].getD t 16

/-- The size of a table's key: its key fields in offset order (R91). -/
def keySize (t : Nat) : Nat := [16, 40, 6].getD t 6

/-- The key of an entry of table `t` (Tables 06-2 to 06-4). -/
def entryKey (t : Nat) (e : List Byte) : List Byte :=
  if t = 0 then e.take 16 else if t = 1 then e.take 40 else e.take 2 ++ (e.drop 4).take 4

/-- The offset of FLAGS. -/
def flagsAt (t : Nat) : Nat := [0x19, 0x2A, 0x02].getD t 2
def entryFlags (t : Nat) (e : List Byte) : Nat := leAt e (flagsAt t) 1
def setFlags (t : Nat) (e : List Byte) (f : Nat) : List Byte := putLe e (flagsAt t) 1 f
def entryValid (t : Nat) (e : List Byte) : Bool := (entryFlags t e).testBit 0
def entryLocked (t : Nat) (e : List Byte) : Bool := (entryFlags t e).testBit 2
def entryStatic (t : Nat) (e : List Byte) : Bool := t = 0 && (entryFlags t e).testBit 1
def entryPinned (t : Nat) (e : List Byte) : Bool := t = 0 && (entryFlags t e).testBit 3

/-- The offset of TS. -/
def tsAt (t : Nat) : Nat := if t = 0 then 0x1A else 0x2C

def State.table (s : State) (t : Nat) : Table := Assoc.get {} s.tbl.tables t
def State.setTable (s : State) (t : Nat) (x : Table) : State := { s with tbl.tables := Assoc.set {} s.tbl.tables t x }

/-- Whether table `t` is enabled. -/
def State.tableOn (s : State) (t : Nat) : Bool := s.flag (Reg.TBL_CFG_EN t)

/-- The configured number of entries of table `t`. -/
def State.tableSize (s : State) (t : Nat) : Nat := 2 ^ s.fld (Reg.TBL_CFG_LOG2_SIZE t)

def State.buckets (s : State) (t : Nat) : Nat := s.tableSize t / 4

/-- The two candidate buckets of a key (R91). -/
def bucketsOf (n seed0 seed1 : Nat) (key : List Byte) : Nat × Nat :=
  let h0 := crc32cFrom seed0 key % n
  let h1 := crc32cFrom seed1 key % n
  (h0, if h1 = h0 then (h0 + 1) % n else h1)

def State.homes (s : State) (t : Nat) (key : List Byte) : Nat × Nat :=
  bucketsOf (s.buckets t) (s.table t).seed0 (s.table t).seed1 key

/-- The indices of a key's slots: both buckets, or the two ways of its set in the extent cache. -/
def State.slotsOf (s : State) (t : Nat) (key : List Byte) : List Nat :=
  if t = 2 then
    let set := crc32cFrom (s.table 2).seed0 key % 1048576
    [2 * set, 2 * set + 1]
  else
    let (a, b) := s.homes t key
    [4 * a, 4 * a + 1, 4 * a + 2, 4 * a + 3, 4 * b, 4 * b + 1, 4 * b + 2, 4 * b + 3]

def Table.at (x : Table) (i : Nat) : List Byte := Assoc.get [] x.entries i

/-- The index at which a key is found: a slot of its buckets, or its place in the stash counted from the table's size. -/
def State.findEntry (s : State) (t : Nat) (key : List Byte) : Option Nat :=
  let x := s.table t
  match (s.slotsOf t key).find? fun i => entryValid t (x.at i) && entryKey t (x.at i) = key with
  | some i => some i
  | none => (x.stash.findIdx? fun e => entryKey t e = key).map fun k => s.tableSize t + k

/-- The entry at an index (the stash follows the table). -/
def State.entryAt (s : State) (t i : Nat) : List Byte :=
  let n := s.tableSize t
  if i < n then (s.table t).at i else (s.table t).stash.getD (i - n) []

/-- Put an entry in a slot; its bucket's version is incremented (R91). `[]` empties the slot. -/
def State.putSlot (s : State) (t i : Nat) (e : List Byte) : State :=
  let x := s.table t
  let n := s.tableSize t
  if i < n then
    let v := if t = 2 then i / 2 else i / 4
    s.setTable t { x with entries := Assoc.set [] x.entries i e, versions := Assoc.upd 0 x.versions v (· + 1) }
  else if e = [] then s.setTable t { x with stash := x.stash.eraseIdx (i - n) }
  else s.setTable t { x with stash := x.stash.set (i - n) e }

/-! ### Relocation (R95) -/

/-- The first free slot of bucket `b`. -/
def Table.freeSlot (x : Table) (b : Nat) : Option Nat := ([4 * b, 4 * b + 1, 4 * b + 2, 4 * b + 3]).find? fun i => x.at i = []

/-- The other bucket of the entry at index `i`. -/
def State.altBucket (s : State) (t i : Nat) : Nat :=
  let (a, b) := s.homes t (entryKey t ((s.table t).at i))
  if i / 4 = a then b else a

/-- The relocation path of exactly `d` moves from bucket `b`, lower indices first at each step (R95): pairs of source
and destination slots, first move first. -/
def State.path (s : State) (t : Nat) : Nat → Nat → Option (List (Nat × Nat))
  | 0, _ => none
  | d + 1, b =>
    (List.range 4).findSome? fun k =>
      let i := 4 * b + k
      if entryLocked t ((s.table t).at i) then none
      else
        let c := s.altBucket t i
        if d = 0 then ((s.table t).freeSlot c).map fun j => [(i, j)]
        else (s.path t d c).bind fun p => p.head?.map fun m => (i, m.1) :: p

/-- The shortest relocation path of at most 8 moves out of buckets `a` and `b` (R95). -/
def State.shortestPath (s : State) (t a b : Nat) : Option (List (Nat × Nat)) :=
  [1, 2, 3, 4, 5, 6, 7, 8].findSome? fun d =>
    match s.path t d (min a b) with
    | some p => some p
    | none => s.path t d (max a b)

/-- Run the moves of a path from its end backward: copy, then delete (R95). -/
def State.runPath (s : State) (t : Nat) (p : List (Nat × Nat)) : State :=
  p.reverse.foldl (fun s m => (s.putSlot t m.2 ((s.table t).at m.1)).putSlot t m.1 []) s

/-- Place a new entry in its buckets, relocating others where both are full; `none` where there is no place. -/
def State.placeEntry (s : State) (t : Nat) (e : List Byte) : Option State :=
  let (a, b) := s.homes t (entryKey t e)
  let x := s.table t
  match x.freeSlot a, x.freeSlot b with
  | some i, _ => some (s.putSlot t i e)
  | none, some i => some (s.putSlot t i e)
  | none, none =>
    match s.shortestPath t a b with
    | some (m :: p) => some ((s.runPath t (m :: p)).putSlot t m.1 e)
    | _ => none

/-! ### The second bank of a rehash (R98) -/

/-- Change the second bank of a table that is being rebuilt. -/
def State.onBank (s : State) (t : Nat) (f : Bank → Bank) : State :=
  let x := s.table t
  s.setTable t { x with bank := x.bank.map f }

/-- The state in which a bank stands in for the table, so that the table's own operations place entries in it. -/
def State.asBank (s : State) (t : Nat) (b : Bank) : State := s.setTable t { seed0 := b.seed0, seed1 := b.seed1, entries := b.entries }

/-- An entry written to a table that is being rebuilt is written to the second bank too. -/
def State.bankPut (s : State) (t : Nat) (e : List Byte) : State :=
  s.onBank t fun b =>
    let u := s.asBank t b
    if b.full then b
    else match u.findEntry t (entryKey t e) with
      | some i => { b with entries := Assoc.set [] b.entries i e }
      | none => match u.placeEntry t e with
        | some u => { b with entries := (u.table t).entries }
        | none => { b with full := true }

/-- An entry deleted from a table that is being rebuilt is deleted from the second bank too. -/
def State.bankDel (s : State) (t : Nat) (key : List Byte) : State :=
  s.onBank t fun b =>
    match (s.asBank t b).findEntry t key with
    | some i => { b with entries := Assoc.set [] b.entries i [] }
    | none => b

/-- Write an entry at an index, in both banks while a rehash runs (R98). `[]` deletes the one that stands there. -/
def State.writeSlot (s : State) (t i : Nat) (e : List Byte) : State :=
  let old := s.entryAt t i
  let s := s.putSlot t i e
  let s := if old ≠ [] && (e = [] || entryKey t old ≠ entryKey t e) then s.bankDel t (entryKey t old) else s
  if e = [] then s else s.bankPut t e

/-! ### Aging (R99, R100) -/

/-- now_tick of table `t`. -/
def State.nowTick (s : State) (t : Nat) : Nat := s.now / 2 ^ s.fld (Reg.TBL_CFG_TICK_LOG2 t) % 65536

/-- An entry with its timestamp set to now. -/
def State.stamped (s : State) (t : Nat) (e : List Byte) : List Byte := if t = 2 then e else putLe e (tsAt t) 2 (s.nowTick t)

def State.ageOf (s : State) (t : Nat) (e : List Byte) : Nat := ahead 16 (leAt e (tsAt t) 2) (s.nowTick t)

/-- Refresh the entry at index `i`. -/
def State.refreshAt (s : State) (t i : Nat) : State := s.writeSlot t i (s.stamped t (s.entryAt t i))

/-- Whether the sweeper may delete an entry: its age is AGE_LIMIT or more and it is not locked, STATIC or PINNED. -/
def State.agedOut (s : State) (t : Nat) (e : List Byte) : Bool :=
  let l := s.fld (Reg.TBL_AGE_AGE_LIMIT t)
  l ≠ 0 && entryValid t e && decide (l ≤ s.ageOf t e) && !entryLocked t e && !entryStatic t e && !entryPinned t e

/-- The check of R100 on a sweeper configuration: whether one full pass fits. -/
def sweepFits (buckets batch period limit tickLog2 : Nat) : Bool :=
  decide (buckets * period * 1000 ≤ min limit 16384 * 2 ^ tickLog2 * batch)

/-! ### The update engine (R94 to R98) -/

/-- The slot that R96 evicts: neither locked nor STATIC, the oldest (lower index on ties) or one drawn at random. -/
def State.victim (s : State) (t : Nat) (slots : List Nat) : Option Nat × State :=
  let c := slots.filter fun i => !entryLocked t ((s.table t).at i) && !entryStatic t ((s.table t).at i)
  if c = [] then (none, s)
  else if s.flag (Reg.TBL_CFG_EVICT_POLICY t) then
    let (k, s) := s.drawBelow c.length
    ((c.drop k).head?, s)
  else
    let best := c.foldl (fun b i =>
      match b with
      | none => some i
      | some j =>
        let ai := s.ageOf t ((s.table t).at i)
        let aj := s.ageOf t ((s.table t).at j)
        if aj < ai || (ai = aj && decide (i < j)) then some i else some j) none
    (best, s)

/-- A refused insert (R97): nothing changes but INS_FAIL and the event. -/
def State.insertFail (s : State) (t : Nat) : State :=
  (s.bump (Reg.TBL_STATS_A_INS_FAIL t)).raise Ev.TBL_INSERT_FAIL [t]

/-- Insert or replace an entry (R95 to R97); false when it is refused. -/
def State.tblInsert (s : State) (t : Nat) (e : List Byte) : State × Bool :=
  let e := s.stamped t e
  let key := entryKey t e
  match s.findEntry t key with
  | some i => (s.writeSlot t i e, true)
  | none =>
    match s.placeEntry t e with
    | some s => (s.bankPut t e, true)
    | none =>
      let x := s.table t
      if s.tableSize t ≤ 65536 then
        match s.victim t (s.slotsOf t key) with
        | (some i, s) =>
          let old := (s.table t).at i
          let s := (s.writeSlot t i e).bump (Reg.TBL_STATS_A_EVICT t)
          (s.raise Ev.TBL_EVICT (t :: (entryKey t old).map BitVec.toNat), true)
        | (none, s) => (s.insertFail t, false)
      else if x.stash.length < 16 then
        let s := (s.setTable t { x with stash := x.stash ++ [e], rehashReq := true }).bankPut t e
        (s.raiseIf (!x.rehashReq) Ev.TBL_REHASH_REQ [t], true)
      else (s.insertFail t, false)

/-- Delete the entry of a key. -/
def State.tblDelete (s : State) (t : Nat) (key : List Byte) : State :=
  match s.findEntry t key with
  | some i => s.writeSlot t i []
  | none => s

/-- The locked entries of the bucket of index `i`. -/
def State.lockedIn (s : State) (t i : Nat) : Nat :=
  let b := i / 4
  (([4 * b, 4 * b + 1, 4 * b + 2, 4 * b + 3]).filter fun k => entryLocked t ((s.table t).at k)).length

/-- Whether some bucket of a key holds more than 2 locked entries (R104). -/
def State.tooManyLocks (s : State) (t : Nat) (key : List Byte) : Bool :=
  if t = 2 then false else (s.slotsOf t key).any fun i => 2 < s.lockedIn t i

/-- The valid entries of a table, the stash included. -/
def State.validCount (s : State) (t : Nat) : Nat := (s.table t).entries.length + (s.table t).stash.length

/-! ### The extent cache (R93) -/

/-- The cache entry of an allocated extent. -/
def cacheEntry (volume extent : Nat) (m : MapEnt) : List Byte :=
  leBytes 2 volume ++ leBytes 1 1 ++ leBytes 1 0 ++ leBytes 4 extent ++ leBytes 2 m.row ++ leBytes 2 0 ++
    leBytes 4 (m.band % 2 ^ 24 + m.incarn * 2 ^ 24)

def cacheKey (volume extent : Nat) : List Byte := leBytes 2 volume ++ leBytes 4 extent

def State.volume (s : State) (v : Nat) : Volume := Assoc.get {} s.lay.volumes v
def State.setVolume (s : State) (v : Nat) (x : Volume) : State := { s with lay.volumes := Assoc.set {} s.lay.volumes v x }
def State.mapEnt (s : State) (v e : Nat) : MapEnt := Assoc.get {} (s.volume v).map e

/-- Mark way `i` as the one used last: its LRU bit clears and the other way's is set. -/
def State.useWay (s : State) (i : Nat) : State :=
  let x := s.table 2
  let other := if i % 2 = 0 then i + 1 else i - 1
  let f (e : List Byte) (lru : Bool) : List Byte :=
    if e = [] then [] else setFlags 2 e (entryFlags 2 e % 8 + if lru then 8 else 0)
  let m := Assoc.set [] x.entries i (f (x.at i) false)
  s.setTable 2 { x with entries := Assoc.set [] m other (f (Assoc.get [] m other) true),
                        versions := Assoc.upd 0 x.versions (i / 2) (· + 1), lastWay := Assoc.set 1 x.lastWay (i / 2) (i % 2) }

/-- The way of an extent's set that a fill takes: the one used less recently; a locked way is never taken. -/
def State.fillWay (s : State) (key : List Byte) : Option Nat :=
  let x := s.table 2
  match s.slotsOf 2 key with
  | i :: j :: _ =>
    let ways := if Assoc.get 1 x.lastWay (i / 2) = 0 then [j, i] else [i, j]
    ways.find? fun i => !entryLocked 2 (x.at i)
  | _ => none

/-- Fill the cache with an extent's entry; with both ways locked nothing is filled. FILL counts in units of 1,024. -/
def State.fillExtent (s : State) (volume extent : Nat) : State :=
  match s.fillWay (cacheKey volume extent) with
  | none => s
  | some i =>
    let s := (s.writeSlot 2 i (cacheEntry volume extent (s.mapEnt volume extent))).useWay i
    let n := s.tbl.fills + 1
    if n = 1024 then ({ s with tbl.fills := 0 }).bump (Reg.TBL_STATS_B_FILL 2) else { s with tbl.fills := n }

/-- Change an extent map entry: the cached copy is rewritten or invalidated first (R93, R174). -/
def State.setMapEnt (s : State) (v e : Nat) (m : MapEnt) : State :=
  let x := s.volume v
  let s := s.setVolume v { x with map := Assoc.set {} x.map e m }
  match s.findEntry 2 (cacheKey v e) with
  | none => s
  | some i =>
    let old := (s.table 2).at i
    s.writeSlot 2 i (if m.alloc then setFlags 2 (cacheEntry v e m) (entryFlags 2 old) else [])

/-! ### Lookups (R92) -/

/-- The extent map's own entry of an allocated extent, with the index it has or would have in the cache (R93). -/
def State.mapLookup (s : State) (key : List Byte) : Option (Nat × List Byte) :=
  let m := s.mapEnt (leAt key 0 2) (leAt key 2 4)
  if m.alloc then some ((s.slotsOf 2 key).headD 0, cacheEntry (leAt key 0 2) (leAt key 2 4) m) else none

/-- What a lookup finds: an index and entry. A hit refreshes a flow entry (R99) and marks the way of a cached extent; an
extent miss fills from the map (R93), or answers from it while the cache is disabled; a third disagreement of the versions takes the
serialised path. -/
def State.lookup (s : State) (t : Nat) (key : List Byte) (disagreements : Nat) : State × Option (Nat × List Byte) :=
  let s := if 3 ≤ disagreements then s.bump (Reg.TBL_STATS_B_SERIAL t) else s
  if !s.tableOn t then (s, if t = 2 then s.mapLookup key else none)
  else match s.findEntry t key with
    | some i =>
      let e := s.entryAt t i
      (if t = 1 then s.refreshAt 1 i else if t = 2 then s.useWay i else s, some (i, e))
    | none =>
      if t = 2 then
        match s.mapLookup key with
        | none => (s, none)
        | some m =>
          let s := s.fillExtent (leAt key 0 2) (leAt key 2 4)
          match s.findEntry 2 key with
          | some i => (s, some (i, s.entryAt 2 i))
          | none => (s, some m)
      else (s, none)

/-! ### Learning (R102, R103) -/

/-- The address entry that a learn event inserts. -/
def learnedEntry (l : Learned) : List Byte :=
  (l.ip ++ List.replicate 16 0).take 16 ++ (l.mac ++ List.replicate 6 0).take 6 ++ leBytes 2 l.vlan ++
    leBytes 1 (l.port % 8 + l.sub % 4 * 8) ++ leBytes 1 1 ++ List.replicate 6 0

/-- Shelf time in ms modulo 65,536. -/
def State.ms16 (s : State) : Nat := s.now / 1000000 % 65536

/-- Apply a move to the entry at index `i` (R103): counted against a 1 s window, pinned at the fifth move. -/
def State.applyMove (s : State) (i : Nat) (l : Learned) : State :=
  let e := s.entryAt 0 i
  let moves := leAt e 0x1E 1
  let since := ahead 16 (leAt e 0x1C 2) s.ms16
  let new := learnedEntry l
  let restart := decide (1000 ≤ since) || decide (moves = 0)
  let n := if restart then 1 else min 7 (moves + 1)
  let mt := if restart then s.ms16 else leAt e 0x1C 2
  let e' := (putLe (putLe new 0x1C 2 mt) 0x1E 1 n)
  if n = 5 && s.flag Reg.TBL_LEARN_CFG_FLAP_EN then
    let e' := putLe (setFlags 0 e' (entryFlags 0 e' + 8)) 0x1C 2 ((s.ms16 + 10000) % 65536)
    (s.writeSlot 0 i (s.stamped 0 e')).raise Ev.ADDR_FLAP (0 :: leAt e 0x18 1 :: leAt new 0x18 1 :: l.ip.map BitVec.toNat)
  else s.writeSlot 0 i (s.stamped 0 e')

/-- Whether shelf time has passed the end of an entry's pin, which lies at most 10 s ahead when it is set (R103). -/
def State.pinOver (s : State) (e : List Byte) : Bool :=
  entryPinned 0 e && (leAt e 0x1C 2 = s.ms16 || decide (10000 < ahead 16 s.ms16 (leAt e 0x1C 2)))

/-- An entry whose pin has ended: PINNED and MOVES are clear. -/
def unpinned (e : List Byte) : List Byte := putLe (setFlags 0 e (entryFlags 0 e - 8)) 0x1E 1 0

/-- End the pin of an entry whose time has come. -/
def State.settlePin (s : State) (key : List Byte) : State :=
  match s.findEntry 0 key with
  | some i => if s.pinOver (s.entryAt 0 i) then s.writeSlot 0 i (unpinned (s.entryAt 0 i)) else s
  | none => s

/-- Apply a learn event (R102). -/
def State.learn (s : State) (l : Learned) : State :=
  let new := learnedEntry l
  let s := s.settlePin (entryKey 0 new)
  match s.findEntry 0 (entryKey 0 new) with
  | none => (s.tblInsert 0 new).1
  | some i =>
    let e := s.entryAt 0 i
    if (e.drop 0x10).take 9 = (new.drop 0x10).take 9 then s.refreshAt 0 i
    else if entryStatic 0 e || entryLocked 0 e || entryPinned 0 e then s.bump Reg.TBL_LEARN_DROP_BLOCKED
    else s.applyMove i l

/-- The neighbour that the address table gives for a host IP: MAC, VLAN word and sub-port (4n + s). -/
def State.neighbour (s : State) (ip : List Byte) : Option (List Byte × Nat × Nat) :=
  (s.findEntry 0 ip).map fun i =>
    let e := s.entryAt 0 i
    let p := leAt e 0x18 1
    ((e.drop 0x10).take 6, leAt e 0x16 2, p % 8 * 4 + p / 8 % 4)

/-- Install a flow entry for a connection (R97, R109): the outcome of Table 04-4, RESOURCE (4) where the table refuses it. -/
def State.flowInstall (s : State) (key : List Byte) (conn : Nat) : State × Nat :=
  if !s.tableOn 1 then (s, 4)
  else
    let r := s.tblInsert 1 ((key ++ List.replicate 40 0).take 40 ++ leBytes 2 conn ++ leBytes 1 1 ++ List.replicate 21 0)
    (r.1, if r.2 then 0 else 4)

end Sys2Proof.Machine
end

