-- ==== Sys2Proof/Machine/Meter.lean ====
section
/-! DEFINITION. Chapter 08, the shared operations of traffic control: buckets, two-rate and strict policers, shapers,
and the gates of Slalom lists. -/
namespace Sys2Proof.Machine

/-! ### Buckets and policers (R137 to R140) -/

/-- Level units of one byte at a rate in Mb/s (1 Mb/s is 1/8,000 byte per ns), and of one command at commands/s. -/
def meterScale (unit : Bool) : Nat := if unit then 1000000000 else 8000

/-- Fill a bucket continuously to `now`, at most to its size. -/
def Bucket.fill (b : Bucket) (rate size scale now : Nat) : Bucket :=
  { level := min (size * scale) (b.level + rate * (now - b.last)), last := now }

/-- Take `n` units of length from a bucket. -/
def Bucket.take (b : Bucket) (n scale : Nat) : Bucket := { b with level := b.level - n * scale }

/-- Whether a bucket holds `n`. -/
def Bucket.holds (b : Bucket) (n scale : Nat) : Bool := decide (n * scale ≤ b.level)

/-- Meter a length `n` of input colour `c` at `now`: RFC 2698 for MODE 0 and RFC 4115 for MODE 1, colour-blind unless
AWARE (R137). -/
def Policer.meter (p : Policer) (n : Nat) (c : Colour) (now : Nat) : Policer × Colour :=
  let sc := meterScale p.unit
  let cb := p.cb.fill p.cir p.cbs sc now
  let pb := p.pb.fill p.pir p.pbs sc now
  let c := if p.aware then c else .green
  let p := { p with cb := cb, pb := pb }
  let (p, out) : Policer × Colour :=
    if p.mode4115 then
      if c = .green && cb.holds n sc then ({ p with cb := cb.take n sc }, .green)
      else if c ≠ .red && pb.holds n sc then ({ p with pb := pb.take n sc }, .yellow)
      else (p, .red)
    else if c = .red || !pb.holds n sc then (p, .red)
    else if c = .yellow || !cb.holds n sc then ({ p with pb := pb.take n sc }, .yellow)
    else ({ p with cb := cb.take n sc, pb := pb.take n sc }, .green)
  match out with
  | .green => ({ p with cntG := satAdd 32 p.cntG 1 }, .green)
  | .yellow => ({ p with cntY := satAdd 32 p.cntY 1 }, .yellow)
  | .red => ({ p with cntR := satAdd 32 p.cntR 1 }, .red)

def State.policer (s : State) (i : Nat) : Policer := Assoc.get {} s.qos.policers i
def State.setPolicer (s : State) (i : Nat) (p : Policer) : State := { s with qos.policers := Assoc.set {} s.qos.policers i p }

/-- The policer of one attachment kind on a target, if one is configured. -/
def State.policerOn (s : State) (attach target : Nat) : Option Nat :=
  (s.qos.policers.find? fun (_, p) => p.used && p.attach = attach && p.target = target).map Prod.fst

/-- What the policers a frame has passed say of it (R137): `colour`, the input colour of the next; whether a colour-aware one was among
them; and whether the last left it red, to be dropped or carried on. -/
structure Metered where
  colour : Colour
  aware : Bool := false
  red : Bool := false
  drop : Bool := false
  deriving DecidableEq, Repr

/-- A frame passes the policer on a target, if there is one. -/
def State.meterOn (s : State) (attach target n : Nat) (m : Metered) : State × Metered :=
  match s.policerOn attach target with
  | none => (s, m)
  | some i =>
    let (p, c) := (s.policer i).meter n m.colour s.now
    (s.setPolicer i p, { colour := c, aware := m.aware || p.aware, red := c = .red, drop := c = .red && !p.redAct })

/-- The colour a frame carries after its policers (R82, R137): red where it is carried on as red, green where no colour-aware policer was
among them, else what the last of them says (log entry 119). -/
def Metered.out (m : Metered) : Colour := if m.red then .red else if m.aware then m.colour else .green

/-- The strict policer of a class of a sub-port in one direction (R139). -/
def State.strictOn (s : State) (sub cls : Nat) (egress : Bool) : Option Nat :=
  (s.qos.stricts.find? fun (_, p) => p.used && p.sub = sub && p.cls = cls && p.egress = egress).map Prod.fst

/-- Meter a frame by the strict policer it meets, if any: a frame that would overdraw the bucket is dropped at once,
counted, and EVT_STRICT_DROP is raised (R139). -/
def State.strictPass (s : State) (sub cls : Nat) (egress : Bool) (len : Nat) : State × Bool :=
  match s.strictOn sub cls egress with
  | none => (s, true)
  | some i =>
    let p : Strict := Assoc.get {} s.qos.stricts i
    let b := p.b.fill p.cir p.cbs 8000 s.now
    if b.holds len 8000 then
      ({ s with qos.stricts := Assoc.set {} s.qos.stricts i { p with b := b.take len 8000, cntG := satAdd 32 p.cntG 1 } }, true)
    else
      (({ s with qos.stricts := Assoc.set {} s.qos.stricts i { p with b := b, cntR := satAdd 32 p.cntR 1 } }).raise
        Ev.STRICT_DROP [i], false)

/-! ### Shapers (R142) -/

/-- The shaper of a tenant on a sub-port, or of a sub-port, in a table of shapers. -/
def shaperOn (m : Assoc Shaper) (p : Shaper → Bool) : Option Nat := (m.find? fun (_, x) => x.used && p x).map Prod.fst

/-- Whether a shaper lets `len` bytes through at `now` (RATE 0 is unshaped). -/
def Shaper.allows (x : Shaper) (len now : Nat) : Bool :=
  x.rate = 0 || (x.b.fill x.rate x.burst 8000 now).holds len 8000

/-- Charge `len` bytes to a shaper. -/
def Shaper.charge (x : Shaper) (len now : Nat) : Shaper :=
  { x with b := (x.b.fill x.rate x.burst 8000 now).take len 8000 }

/-! ### Slalom lists (R144 to R148) -/

/-- The length of one interval unit in ns. -/
def slalomUnit (u : Nat) : Nat := [8, 1000, 1000000, 1000000000].getD u 8

/-- The ends of the entries within a cycle, in ns from its start. -/
def SlalomCfg.ends (c : SlalomCfg) : List Nat :=
  (c.entries.foldl (fun (acc : List Nat × Nat) e =>
    let t := acc.2 + e.1 * slalomUnit c.unit
    (acc.1 ++ [t], t)) ([], 0)).1

/-- The entry in force at shelf time `t` (R144): none before BASE_TIME; the last entry stays to the end of the cycle. -/
def SlalomCfg.entryAt (c : SlalomCfg) (t : Nat) : Option Nat :=
  if t < c.base then none
  else
    let o := (t - c.base) % c.cycle
    some (min ((c.ends.takeWhile fun e => e ≤ o).length) (c.entries.length - 1))

/-- The first gate boundary after `t`: BASE_TIME, the end of the entry in force, or the end of the cycle. -/
def SlalomCfg.nextChange (c : SlalomCfg) (t : Nat) : Nat :=
  if t < c.base then c.base
  else
    let o := (t - c.base) % c.cycle
    let start := t - o
    match (c.ends.dropLast).find? fun e => o < e with
    | some e => start + min e c.cycle
    | none => start + c.cycle

/-- How many entries of a cycle ever take effect. -/
def SlalomCfg.effective (c : SlalomCfg) : Nat :=
  1 + ((c.ends.dropLast).filter fun e => e < c.cycle).length

/-- The number of gate changes from BASE_TIME up to `t`. -/
def SlalomCfg.changes (c : SlalomCfg) (t : Nat) : Nat :=
  if t < c.base then 0
  else (t - c.base) / c.cycle * c.effective + (c.entryAt t).getD 0 + 1

def State.slalom (s : State) (l : Nat) : Slalom := Assoc.get {} s.qos.lists l
def State.setSlalom (s : State) (l : Nat) (x : Slalom) : State := { s with qos.lists := Assoc.set {} s.qos.lists l x }

/-- DEFAULT of a list that has not been loaded since the last full-device reset. -/
def resetDefault (l : Nat) : Nat := if l < 8 then 0xFF else 0x01

/-- The gates of list `l` in force: DEFAULT while disabled or before BASE_TIME, else those of the entry in force. -/
def State.gates (s : State) (l : Nat) : Nat :=
  let x := s.slalom l
  if !x.enabled then x.dflt.getD (resetDefault l)
  else match x.entry with
    | none => x.cfg.dflt
    | some i => (x.cfg.entries.getD i (0, 0)).2

/-- Whether the gate of a class is open on port `n` (lists 0 to 7). -/
def State.gateOpen (s : State) (n cls : Nat) : Bool := (s.gates n).testBit cls

/-- Whether a grooming window is open: 0 destage, 1 rebuild, 2 scrub, 3 rehash (R149). -/
def State.windowOpen (s : State) (w : Nat) : Bool := (s.gates (8 + w)).testBit 0

/-- Shelf time at which the gate of a class closes, looking at most `fuel` changes ahead; none if it stays open. -/
def SlalomCfg.closesAt (c : SlalomCfg) (cls : Nat) : Nat → Nat → Option Nat
  | 0, _ => none
  | fuel + 1, t =>
    let n := c.nextChange t
    let g := ((c.entryAt n).map fun i => (c.entries.getD i (0, 0)).2).getD c.dflt
    if g.testBit cls then c.closesAt cls fuel n else some n

/-- Whether a list, with its gate open at `t`, keeps it open until `stop`. -/
def SlalomCfg.staysOpen (c : SlalomCfg) (cls t stop : Nat) : Bool :=
  match c.closesAt cls (c.entries.length + 1) t with
  | some x => decide (stop ≤ x)
  | none => true

/-- Whether a list opens the gate of a class at `t`. -/
def SlalomCfg.opensAt (c : SlalomCfg) (cls t : Nat) : Bool :=
  (((c.entryAt t).map fun i => (c.entries.getD i (0, 0)).2).getD c.dflt).testBit cls

/-- Whether a gate that is open stays open until `stop`, under the list in force and the one that a swap before then puts in its place
(R145, R147). -/
def Slalom.holdsOpen (x : Slalom) (cls now stop : Nat) : Bool :=
  match x.pending with
  | none => x.cfg.staysOpen cls now stop
  | some (c, t) =>
    if stop ≤ t then x.cfg.staysOpen cls now stop
    else x.cfg.staysOpen cls now t && c.opensAt cls t && c.staysOpen cls t stop

/-- Whether a frame of class `cls` may start on port `n` for `dur` ns: its gate is open and, with GUARD, stays open until
the frame ends (R145). -/
def State.gateAdmits (s : State) (n cls dur : Nat) : Bool :=
  let x := s.slalom n
  s.gateOpen n cls && (!(x.enabled && x.cfg.guard) || x.holdsOpen cls s.now (s.now + dur))

/-- When the slot of a list fires next after `t`: at its next gate change, or at the swap where that comes first or is due (R147). -/
def Slalom.nextFire (x : Slalom) (t : Nat) : Nat :=
  match x.pending with
  | none => x.cfg.nextChange t
  | some p => min (x.cfg.nextChange t) p.2

/-- The time up to which the list in force rules when shelf time is `t`: a swap that is due ends it. -/
def Slalom.rulesTo (x : Slalom) (t : Nat) : Nat := (x.pending.map fun p => min t p.2).getD t

/-- What a forward step from `t0` does to list `l` (R148): it moves to the entry in force at the new time; the changes
passed over add to its slot's MISSED with EVT_TIMER_MISSED (R39), and passing a whole entry raises EVT_SLALOM_SKIP. -/
def State.slalomStep (s : State) (t0 l : Nat) : State :=
  let x := s.slalom l
  let n := x.cfg.changes (x.rulesTo s.now) - x.cfg.changes t0
  if !x.enabled || n = 0 then s
  else
    let s := s.setSlalom l { x with entry := x.cfg.entryAt s.now }
    let s := match x.slot with
      | some k =>
        (s.setSlot k { s.slot k with compare := x.nextFire s.now, missed := satAdd 16 (s.slot k).missed (n - 1) }).raiseIf
          (decide (2 ≤ n)) Ev.TIMER_MISSED [k, n - 1]
      | none => s
    s.raiseIf (decide (2 ≤ n)) Ev.SLALOM_SKIP [l, ((x.cfg.entryAt t0).map (· + 1)).getD 0 % x.cfg.effective]

end Sys2Proof.Machine
end

