-- ==== Sys2Proof/Machine/Traffic.lean ====
section
/-! DEFINITION. Chapter 08: Configure Policer, Configure Shaper, Load Slalom List and the swap of a list, Set Rebuild
Rate. -/
namespace Sys2Proof.Machine

/-- The KIND field of Configure Policer and Configure Shaper (Tables 08-2, 08-3). -/
def kindOf (d : Descriptor) : Nat := d.par 2 1

/-- A sub-port as Table 08-2 writes it, [2:0] n and [4:3] s, by its index 4n + s. -/
def subOf (t : Nat) : Nat := t % 8 * 4 + t / 8

/-- The settings of Table 08-2 as a policer without its buckets. -/
def policerOf (d : Descriptor) : Policer :=
  let f := d.par 8 1
  let a := d.par 3 1
  { used := true, attach := a, target := if a = 0 && d.par 4 4 < 32 then subOf (d.par 4 4) else d.par 4 4, mode4115 := f.testBit 0, aware := f.testBit 1,
    unit := f.testBit 2, reads := f.testBit 3, writes := f.testBit 4, redAct := f.testBit 5, cir := d.par 0x0C 4,
    cbs := d.par 0x10 4, pir := d.par 0x14 4, pbs := d.par 0x18 4 }

/-- Whether a target is in the range of its attachment kind (Table 08-2). -/
def policerTargetOk (attach target : Nat) : Bool :=
  match attach with
  | 0 => target < 32
  | 1 => target < 4096
  | 2 => 1 ≤ target && target ≤ 16384
  | 3 => target < 1024
  | _ => false

/-- The settings that Configure Policer accepts for a two-rate policer (after R139). -/
def policerValid (d : Descriptor) : Bool :=
  let p := policerOf d
  let frame := decide (p.attach < 2)
  d.par 0 2 < 16384 && d.par 8 1 < 64 && policerTargetOk p.attach p.target &&
    (p.mode4115 || p.cir ≤ p.pir) &&
    (if frame then !p.unit && 9216 ≤ p.cbs && 9216 ≤ p.pbs
     else (p.unit || (2097152 ≤ p.cbs && 2097152 ≤ p.pbs)) && (p.reads || p.writes))

/-- The settings of a strict policer (R139, Table 08-2). -/
def strictOf (d : Descriptor) : Strict :=
  let a := d.par 3 1
  { used := true, cls := a % 8, egress := a.testBit 3, sub := subOf (d.par 4 4), cir := d.par 0x0C 4, cbs := d.par 0x10 4 }

def strictValid (d : Descriptor) : Bool :=
  d.par 0 2 < 256 && d.par 3 1 < 16 && d.par 4 4 < 32 && !(d.par 8 1).testBit 2 && d.par 8 1 < 64 &&
    9216 ≤ d.par 0x10 4 && d.par 0x14 4 = 0 && d.par 0x18 4 = 0

/-- Keep a bucket's level, clipped to a new size (R140). -/
def Bucket.clip (b : Bucket) (size scale : Nat) : Bucket := { b with level := min b.level (size * scale) }

/-- Keep a bucket's level in bytes or commands across a change of its unit. -/
def Bucket.rescale (b : Bucket) (old new : Nat) : Bucket := { b with level := b.level * new / old }

/-- CONFIGURE_POLICER (R137, R139, R140): a new policer starts with full buckets; a changed one keeps its levels, clipped. -/
def execConfigurePolicer (id : Nat) (s : State) : Host.Outcome State Fault Refusal :=
  .next <| s.runMgmt id 0x0701 [(0x09, 3), (0x1C, 12)] (fun _ => true) (fun d => kindOf d ≠ 2 && kindOf d ≠ 3) fun c s =>
    let d := c.desc
    let i := d.par 0 2
    if kindOf d = 0 then
      if !policerValid d then s.complete c .invalidField
      else
        let p := policerOf d
        let o := s.policer i
        if (s.policerOn p.attach p.target).any fun k => k ≠ i then s.complete c .configConflict
        else
          let sc := meterScale p.unit
          let p := if o.used then
              let so := meterScale o.unit
              let oc := (o.cb.fill o.cir o.cbs so s.now).rescale so sc
              let op := (o.pb.fill o.pir o.pbs so s.now).rescale so sc
              { p with cb := oc.clip p.cbs sc, pb := op.clip p.pbs sc, cntG := o.cntG, cntY := o.cntY, cntR := o.cntR }
            else { p with cb := ⟨p.cbs * sc, s.now⟩, pb := ⟨p.pbs * sc, s.now⟩ }
          (s.setPolicer i p).holderDone c
    else if kindOf d = 1 then
      if !strictValid d then s.complete c .invalidField
      else
        let p := strictOf d
        let o : Strict := Assoc.get {} s.qos.stricts i
        if (s.strictOn p.sub p.cls p.egress).any fun k => k ≠ i then s.complete c .configConflict
        else
          let p := if o.used then
              { p with b := (o.b.fill o.cir o.cbs 8000 s.now).clip p.cbs 8000, cntG := o.cntG, cntR := o.cntR }
            else { p with b := ⟨p.cbs * 8000, s.now⟩ }
          ({ s with qos.stricts := Assoc.set {} s.qos.stricts i p }).holderDone c
    else s.complete c .invalidField

/-- FREE_POLICER (R140): the policer passes everything green from then on. -/
def execFreePolicer (id : Nat) (s : State) : Host.Outcome State Fault Refusal :=
  .next <| s.runMgmt id 0x0701 [(0x09, 3), (0x1C, 12)] (fun _ => true) (fun d => kindOf d = 2 || kindOf d = 3) fun c s =>
    let i := c.desc.par 0 2
    if kindOf c.desc = 2 then
      if 16384 ≤ i then s.complete c .invalidField else (s.setPolicer i {}).holderDone c
    else
      if 256 ≤ i then s.complete c .invalidField
      else ({ s with qos.stricts := Assoc.set {} s.qos.stricts i {} }).holderDone c

/-- The class of a tenant's traffic: the one its shapers set, or class 0 (R135). -/
def State.tenantClass (s : State) (t : Nat) : Nat :=
  match s.qos.tshapers.find? fun (_, x) => x.used && x.tenant = t with
  | some (_, x) => x.cls
  | none => 0

/-- CONFIGURE_SHAPER (Table 08-3): one shaper per tenant and sub-port, and one class per tenant. -/
def execConfigureShaper (id : Nat) (s : State) : Host.Outcome State Fault Refusal :=
  .next <| s.runMgmt id 0x0702 [(0x03, 1), (0x11, 23)] (fun _ => true) (fun d => kindOf d ≠ 2) fun c s =>
    let d := c.desc
    let i := d.par 0 2
    let x : Shaper := { used := true, tenant := d.par 4 2, sub := subOf (d.par 6 1),
                        weight := d.par 7 1, rate := d.par 8 4, burst := d.par 0x0C 4, cls := d.par 0x10 1 }
    let burstOk := x.rate = 0 || decide (9216 ≤ x.burst)
    if kindOf d = 0 then
      if 4096 ≤ i || 1024 ≤ x.tenant || 32 ≤ d.par 6 1 || x.weight = 0 || 8 ≤ x.cls || !burstOk then
        s.complete c .invalidField
      else
        let o : Shaper := Assoc.get {} s.qos.tshapers i
        let other (p : Shaper → Bool) := s.qos.tshapers.any fun (k, y) => y.used && k ≠ i && y.tenant = x.tenant && p y
        if other (fun y => y.sub = x.sub) || other (fun y => y.cls ≠ x.cls) then s.complete c .configConflict
        else
          let x := { x with b := if o.used then (o.b.fill o.rate o.burst 8000 s.now).clip x.burst 8000
                                 else ⟨x.burst * 8000, s.now⟩ }
          ({ s with qos.tshapers := Assoc.set {} s.qos.tshapers i x }).holderDone c
    else if kindOf d = 1 then
      if 32 ≤ i || !burstOk then s.complete c .invalidField
      else
        let o : Shaper := Assoc.get {} s.qos.pshapers i
        let x := { x with tenant := 0, sub := i, weight := 1, cls := 0,
                          b := if o.used then (o.b.fill o.rate o.burst 8000 s.now).clip x.burst 8000
                               else ⟨x.burst * 8000, s.now⟩ }
        ({ s with qos.pshapers := Assoc.set {} s.qos.pshapers i x }).holderDone c
    else s.complete c .invalidField

/-- FREE_SHAPER (Table 08-3): the tenant shaper at INDEX is freed (log entry 17). -/
def execFreeShaper (id : Nat) (s : State) : Host.Outcome State Fault Refusal :=
  .next <| s.runMgmt id 0x0702 [(0x03, 1), (0x11, 23)] (fun _ => true) (fun d => kindOf d = 2) fun c s =>
    if 4096 ≤ c.desc.par 0 2 then s.complete c .invalidField
    else ({ s with qos.tshapers := Assoc.set {} s.qos.tshapers (c.desc.par 0 2) {} }).holderDone c

/-- The (INTERVAL, GATES) pairs of a Slalom list's data. -/
def slalomEntries (n : Nat) (b : List Byte) : List (Nat × Nat) :=
  (List.range n).map fun i => (leAt b (4 * i) 3, leAt b (4 * i + 3) 1)

/-- Whether the PARAMS and entries of a Slalom list are valid (R144, R147). -/
def slalomValid (l : Nat) (x : SlalomCfg) (n : Nat) : Bool :=
  1 ≤ n && n ≤ 256 && x.entries.length = n && x.entries.all (fun e => e.1 ≠ 0) && 1000 ≤ x.cycle &&
    (l < 8 || (x.entries.all (fun e => e.2 < 2) && x.dflt < 2))

/-- SWAP_TIME (R147): BASE_TIME, or the first cycle start at least 10 µs after `now`. -/
def swapTime (base cycle now : Nat) : Nat :=
  if now + 10000 ≤ base then base
  else base + (now + 10000 - base + cycle - 1) / cycle * cycle

/-- SET_REBUILD_RATE (R149, R197): the rebuild class's RATE is written. -/
def execSetRebuildRate (id : Nat) (s : State) : Host.Outcome State Fault Refusal :=
  .next <| s.runPlain id 0x0604 [(0x04, 36)] fun c s =>
    if 2 ^ 24 ≤ c.desc.par 0 4 then s.complete c .invalidField
    else (s.setFld (Reg.QOS_GROOM_RATE_RATE 1) (c.desc.par 0 4)).holderDone c

end Sys2Proof.Machine
end

