-- ==== Sys2Proof/Machine/Switch.lean ====
section
/-! DEFINITION. Chapter 05, the shared operations of the switch core: cells, WRED, the resequencer, the order stream as
far as transmission needs it, and the egress hierarchy of chapter 08. -/
namespace Sys2Proof.Machine

/-! ### Cells (R79) -/

/-- The cells of the shared buffer. -/
def bufferCells : Nat := 196608

def State.cellsFree (s : State) : Nat := bufferCells - s.swc.used

/-- Cells of a frame of `len` bytes. -/
def cellsOf (len : Nat) : Nat := (len + 255) / 256

/-- Take cells; EVT_SWC_RESERVE when free cells first fall to RESERVE_CELLS. -/
def State.useCells (s : State) (n : Nat) : State :=
  let s := { s with swc.used := s.swc.used + n }
  let s := { s with swc.minFree := min s.swc.minFree s.cellsFree }
  let low := decide (s.cellsFree ≤ s.fld Reg.SWC_RESERVE_RESERVE_CELLS)
  if low && !s.swc.reserveSeen then ({ s with swc.reserveSeen := true }).raise Ev.SWC_RESERVE else s

/-- Return cells to the free pool. -/
def State.giveCells (s : State) (n : Nat) : State :=
  let s := { s with swc.used := s.swc.used - n }
  if s.fld Reg.SWC_RESERVE_RESERVE_CELLS < s.cellsFree then { s with swc.reserveSeen := false } else s

/-- The cells that host-I/O and background traffic may take now. -/
def State.cellsSpare (s : State) : Nat := s.cellsFree - s.fld Reg.SWC_RESERVE_RESERVE_CELLS

def State.frame (s : State) (id : Nat) : Option Frame := s.swc.frames.find? fun f => f.id = id

/-- Change frame `id`. -/
def State.updFrame (s : State) (id : Nat) (g : Frame → Frame) : State :=
  { s with swc.frames := s.swc.frames.map fun f => if f.id = id then g f else f }

/-- A frame leaves the buffer. -/
def State.removeFrame (s : State) (f : Frame) : State :=
  ({ s with swc.frames := s.swc.frames.filter fun x => x.id ≠ f.id }).giveCells f.cells

/-- The colour as order entries and registers code it. -/
def Colour.code : Colour → Nat
  | .green => 0 | .yellow => 1 | .red => 2

/-- What the transport is told of the packet in a delivered frame. -/
def Frame.info (f : Frame) : RxInfo := { frame := f.id, pktId := f.pktId.getD 0, ce := f.ce, colour := f.colour.code }

/-- An ingress frame that has come in whole goes to its internal consumer and leaves the buffer. -/
def State.deliver (s : State) (f : Frame) : State :=
  let s := (s.removeFrame f).emit (.delivered f.id)
  if f.key.isSome then { s with swc.handed := s.swc.handed ++ [f.info] } else s

/-! ### WRED (R82, R83) -/

/-- The depth of a queue in cells. -/
def State.depth (s : State) (q : Nat) : Nat :=
  (s.swc.frames.filter fun f => f.queue = q && (f.stage = .queued || f.stage = .arriving)).foldl (fun n f => n + f.cells) 0

def State.profile (s : State) (p : Nat) : Profile := Assoc.get {} s.swc.profiles p

/-- The colour word of a profile. -/
def Profile.word (p : Profile) : Colour → Word
  | .green => p.green
  | .yellow => p.yellow
  | .red => p.red

/-- The probability of R83 in 1/256. -/
def wredP (w : Word) (avg : Int) : Nat :=
  let lo : Int := (getBits w 11 0 * 16 : Nat)
  let hi : Int := (getBits w 23 12 * 16 : Nat)
  if avg < lo then 0
  else if avg < hi then ((getBits w 31 24 : Int) * (avg - lo) / (hi - lo)).toNat
  else 256

/-- The WRED decision of R83 and Table 05-3 on a frame for queue `q`: the new state, whether it is admitted and whether it
is CE marked. Queues without WRED_EN admit. -/
def State.wred (s : State) (q cells : Nat) (c : Colour) (ect ce : Bool) : State × Bool × Bool :=
  if !s.flag (Reg.SWC_QPROF_WRED_EN q) || losslessQueue q then (s, true, false)
  else
    let p := s.profile (s.fld (Reg.SWC_QPROF_PROFILE q))
    let st : QStat := Assoc.get {} s.swc.queues q
    let d := s.depth q
    let avg : Int := st.avg + ((d : Int) - st.avg) / 2 ^ getBits p.ctl 3 0
    let pr := wredP (p.word c) avg
    let (r, s) := s.draw 8
    let ecn := (ect || ce) && getBits p.ctl 4 4 = 1
    let drop := decide (getBits p.ctl 19 8 * 16 < d + cells) || (!ecn && (pr = 256 || decide (r.toNat < pr)))
    let mark := !drop && ecn && (pr = 256 || decide (r.toNat < pr))
    let st := { st with avg := avg, drops := if drop then st.drops + 1 else st.drops }
    ({ s with swc.queues := Assoc.set {} s.swc.queues q st }, !drop, mark)

/-! ### The resequencer (R85 to R87) -/

def State.reseq (s : State) (egress : Bool) (conn : Nat) : Reseq :=
  Assoc.get {} (if egress then s.swc.tx else s.swc.rx) conn

def State.setReseq (s : State) (egress : Bool) (conn : Nat) (r : Reseq) : State :=
  if egress then { s with swc.tx := Assoc.set {} s.swc.tx conn r } else { s with swc.rx := Assoc.set {} s.swc.rx conn r }

/-- The distance from sequence number `a` up to `b`. -/
def seqAhead (a b : Nat) : Nat := ahead 16 a b

/-- Sequence numbers of one direction outstanding on a connection: assigned and not yet released or skipped. -/
def Reseq.outstanding (r : Reseq) : Nat := seqAhead r.next r.assign

/-- Sequence numbers outstanding in one direction over all connections. -/
def State.tracked (s : State) (egress : Bool) : Nat :=
  (if egress then s.swc.tx else s.swc.rx).foldl (fun n e => n + e.2.outstanding) 0

/-- Whether a tracking entry is free (R85). -/
def State.canTrack (s : State) (egress : Bool) (conn : Nat) : Bool :=
  decide ((s.reseq egress conn).outstanding < 256) && decide (s.tracked egress < 32768)

/-- Advance over what is ready, releasing frames in order: the new sequence state and the frames released. -/
def Reseq.drain : Nat → Reseq → Reseq × List Nat
  | 0, r => (r, [])
  | n + 1, r =>
    match r.waiting.find? fun w => w.1 = r.next with
    | some w =>
      let (r, fs) := Reseq.drain n { r with next := (r.next + 1) % 65536, waiting := r.waiting.erase w }
      (r, w.2 :: fs)
    | none =>
      if r.discarded.contains r.next then
        Reseq.drain n { r with next := (r.next + 1) % 65536, discarded := r.discarded.erase r.next }
      else (r, [])

/-- A released frame goes on: an ingress frame is delivered and leaves the buffer, an egress frame joins its tenant's
frames (R142). -/
def State.releaseFrame (s : State) (id : Nat) : State :=
  match s.frame id with
  | none => s
  | some f =>
    if f.ingress then s.deliver f
    else s.updFrame id fun f => { f with stage := .waiting }

/-- The gap timeout in ns of a direction. -/
def State.gapTmo (s : State) (egress : Bool) : Nat :=
  (if egress then s.fld Reg.SWC_RSEQ_CFG_TX_TMO else s.fld Reg.SWC_RSEQ_CFG_RX_TMO) * 1000

/-- Store a sequence state after draining it; where frames still wait, the deadline of a newly opened gap runs from the
arrival of the first of them. -/
def State.settleReseq (s : State) (egress : Bool) (conn : Nat) (r : Reseq) : State :=
  let (r', fs) := r.drain (r.waiting.length + r.discarded.length + 1)
  let first := r'.waiting.foldl (fun b w =>
    let t := ((s.frame w.2).map Frame.since).getD s.now
    match b with
    | none => some t
    | some x => some (min x t)) (none : Option Nat)
  let dl := match first with
    | none => 0
    | some t => if r'.next = r.next && r.deadline ≠ 0 then r.deadline else t + s.gapTmo egress
  fs.foldl State.releaseFrame (s.setReseq egress conn { r' with deadline := dl })

/-- Report a stamped number discarded: it is skipped without waiting, and waits no more if it did (R86). -/
def State.discardSeq (s : State) (egress : Bool) (conn seq : Nat) : State :=
  let r := s.reseq egress conn
  if seqAhead r.next seq < 32768 && !r.discarded.contains seq then
    s.settleReseq egress conn { r with discarded := seq :: r.discarded, waiting := r.waiting.filter fun w => w.1 ≠ seq }
  else s

/-- Declare the next expected number lost (R86). -/
def State.loseSeq (s : State) (egress : Bool) (conn : Nat) : State :=
  let r := s.reseq egress conn
  let s := s.bump (if egress then Reg.SWC_RSEQ_LOST_TX else Reg.SWC_RSEQ_LOST_RX)
  let s := s.raise Ev.SWC_RSEQ_LOST [conn, r.next]
  s.settleReseq egress conn { r with next := (r.next + 1) % 65536, lost := (r.next :: r.lost).take 256, deadline := 0 }

/-- Drop a frame that had not left: its cells are freed, a cross-post of it under way ends with the bad tail, and a stamped number is
reported discarded (R81, R83, R89). -/
def State.dropFrame (s : State) (f : Frame) : State :=
  let s := s.removeFrame f
  let s := match f.pktId with
    | some id => s.sendTwin (.badTail id)
    | none => s
  match f.conn, f.seq with
  | some c, some q => s.discardSeq (!f.ingress) c q
  | _, _ => s

/-- Declare numbers lost until `seq` lies less than 256 ahead of the next expected. -/
def State.loseUntil (s : State) (egress : Bool) (conn seq : Nat) : Nat → State
  | 0 => s
  | n + 1 => if 256 ≤ seqAhead (s.reseq egress conn).next seq then (s.loseSeq egress conn).loseUntil egress conn seq n else s

/-- A stamped frame arrives at the resequencer (R86): released in order with the frames behind it, held behind a gap, or
discarded when its number has been declared lost. -/
def State.arriveSeq (s : State) (egress : Bool) (conn seq id : Nat) : State :=
  let r := s.reseq egress conn
  if 32768 ≤ seqAhead r.next seq then
    let s := s.bump (if egress then Reg.SWC_RSEQ_LATE_TX else Reg.SWC_RSEQ_LATE_RX)
    match s.frame id with
    | some f => s.removeFrame f
    | none => s
  else
    let s := s.updFrame id fun f => { f with since := s.now }
    let s := s.loseUntil egress conn seq 65536
    let r := s.reseq egress conn
    s.settleReseq egress conn { r with waiting := r.waiting ++ [(seq, id)] }

/-! ### Ports -/

def State.subPort (s : State) (k : Nat) : SubPort := Assoc.get {} s.net.subs k
def State.setSub (s : State) (k : Nat) (x : SubPort) : State := { s with net.subs := Assoc.set {} s.net.subs k x }

/-- The sub-ports of a port in its mode (Table 05-2). -/
def State.subCount (s : State) (n : Nat) : Nat := [1, 2, 4].getD (s.fld (Reg.NET_PORT_CFG_MODE n)) 1

/-- The rate of a sub-port in Gb/s (Table 05-2). -/
def State.subRate (s : State) (n : Nat) : Nat := [800, 400, 200].getD (s.fld (Reg.NET_PORT_CFG_MODE n)) 800

/-- The length a port meter counts (Table 08-1). -/
def State.portLen (s : State) (n len : Nat) : Nat := len + s.fld (Reg.NET_PORT_OVH_OVERHEAD n)

/-- The transmission time of a frame on port `n` in ns, overhead included (R145). -/
def State.frameTime (s : State) (n len : Nat) : Nat := (s.portLen n len * 8 + s.subRate n - 1) / s.subRate n

/-- Change the windows that watch sub-port `sub` (R345). -/
def State.onWindows (s : State) (sub : Nat) (f : Window → Window) : State :=
  { s with tel.windows := s.tel.windows.mapAll {} fun _ w => if w.enabled && w.ports.testBit (sub / 4) then f w else w }

/-- Add a frame to the telemetry counters of its port, direction and class (R343) and to the windows that watch it. -/
def State.countFrame (s : State) (sub cls len : Nat) (egress : Bool) : State :=
  let d := if egress then 1 else 0
  let k := 16 * (sub / 4) + 8 * d + cls
  let s := s.onWindows sub fun w =>
    { w with acc := Assoc.upd (0, 0) w.acc ((sub * 2 + d) * 8 + cls) fun a => (a.1 + len, satAdd 32 a.2 1) }
  (s.count (768 + k) len).count (896 + k) 1

/-- A frame dropped by WRED or a strict policer counts in the windows that watch its sub-port (Table 18-2). -/
def State.countDrop (s : State) (sub : Nat) (egress : Bool) : State :=
  s.onWindows sub fun w => { w with drops := Assoc.upd 0 w.drops (sub * 2 + if egress then 1 else 0) fun n => satAdd 32 n 1 }

/-! ### The egress hierarchy (R142, R143) -/

/-- Deficit round-robin among the keys of `cs`, each with the length it wants to send: the key served and the deficits after it. `cur` is the
key whose turn it is: it goes on while its deficit covers its length. Then the turn passes on, modulo `n`: each visit adds the quantum
`quantum k`, and the first key whose deficit covers its length is served. -/
def drr (n : Nat) (quantum : Nat → Nat) (deficit : Nat → Nat) (cur : Nat) (cs : List (Nat × Nat)) :
    Option (Nat × List (Nat × Nat)) :=
  match cs.find? fun c => c.1 = cur && decide (c.2 ≤ deficit c.1) with
  | some c => some (c.1, [(c.1, deficit c.1 - c.2)])
  | none =>
    let pos (k : Nat) := (k + 2 * n - cur % n - 1) % n
    let rounds (c : Nat × Nat) := (c.2 - deficit c.1 + quantum c.1 - 1) / max 1 (quantum c.1) - 1
    let better (a b : Nat × Nat) : Bool := decide (rounds a * n + pos a.1 < rounds b * n + pos b.1)
    match cs.foldl (fun b c =>
      match b with
      | none => some c
      | some x => if better c x then some c else some x) (none : Option (Nat × Nat)) with
    | none => none
    | some w =>
      let r := rounds w
      some (w.1, cs.map fun c =>
        let visits := if pos c.1 ≤ pos w.1 then r + 1 else r
        let d := deficit c.1 + visits * quantum c.1
        (c.1, if c.1 = w.1 then d - w.2 else d))

/-- A key with nothing left to send gives up its deficit. -/
def endTurn (last : Bool) (k : Nat) (ds : List (Nat × Nat)) : List (Nat × Nat) :=
  if last then ds.map fun d => if d.1 = k then (k, 0) else d else ds

/-- Remember deficits after a DRR decision. -/
def setDeficits (m : Assoc Nat) (base : Nat) (ds : List (Nat × Nat)) : Assoc Nat :=
  ds.foldl (fun m d => Assoc.set 0 m (base + d.1) d.2) m

/-- The tenant shaper that applies on a sub-port. -/
def State.tenantShaper (s : State) (t sub : Nat) : Option Nat := shaperOn s.qos.tshapers fun x => x.tenant = t && x.sub = sub

def State.tenantWeight (s : State) (t sub : Nat) : Nat :=
  match s.tenantShaper t sub with
  | some i => (Assoc.get {} s.qos.tshapers i : Shaper).weight
  | none => 1

/-- Whether a waiting frame is eligible: its connection's rate allows it and its tenant's shaper holds its length. -/
def State.eligible (s : State) (f : Frame) : Bool :=
  (match f.conn with
   | some c => decide ((Assoc.get {} s.xpt.conns c : Conn).nextTx ≤ s.now)
   | none => true) &&
  (match s.tenantShaper f.tenant f.sub with
   | some i => (Assoc.get {} s.qos.tshapers i : Shaper).allows f.len s.now
   | none => true)

/-- Charge a frame to its connection's rate (R122) and its tenant's shaper. -/
def State.chargeTenant (s : State) (f : Frame) : State :=
  let s := match f.conn with
    | some c =>
      let x : Conn := Assoc.get {} s.xpt.conns c
      if x.rateCur = 0 then s
      else
        let x := { x with nextTx := max x.nextTx s.now + f.len * 8000 / x.rateCur, byteCnt := x.byteCnt + f.len }
        { s with xpt.conns := Assoc.set {} s.xpt.conns c x }
    | none => s
  match s.tenantShaper f.tenant f.sub with
  | some i => { s with qos.tshapers := Assoc.upd {} s.qos.tshapers i fun x => x.charge f.len s.now }
  | none => s

/-- An egress verdict of the active goes into the order stream: 3 where it drops the connection's packet with a TX_SEQ, 4 where it marks it
(R141, log entry 120). -/
def State.egressVerdict (s : State) (f : Frame) (action : Nat) : State :=
  match f.conn, f.seq with
  | some n, some q => (s.order n (.verdict q action f.colour.code)).1
  | _, _ => s

/-- A frame joins its class queue behind those that it holds (R142). -/
def State.joinQueue (s : State) (f : Frame) (mark : Bool) : State :=
  let rest := s.swc.frames.filter fun x => x.id ≠ f.id
  { s with swc.frames := rest ++ [{ f with stage := .queued, ce := f.ce || mark }] }

/-- A selected frame enters its class queue: the strict policer first (R139), then WRED (R83); the standby follows the
active's verdicts and meters nothing (R141). -/
def State.enterQueue (s : State) (f : Frame) : State :=
  let s := s.chargeTenant f
  if s.follows then s.joinQueue f false
  else
    let (s, pass) := s.strictPass f.sub f.cls true f.len
    if !pass then ((s.dropFrame f).countDrop f.sub true).egressVerdict f 3
    else
      let (s, ok, mark) := s.wred f.queue f.cells f.colour f.ect f.ce
      if !ok then ((s.dropFrame f).countDrop f.sub true).egressVerdict f 3
      else if mark then (s.joinQueue f true).egressVerdict f 4
      else s.joinQueue f false

/-- The connection whose turn it is within a tenant: the first at or after the round-robin pointer. -/
def nextConn (start : Nat) (cs : List Nat) : Option Nat :=
  let d (c : Nat) := (c + 65537 - start % 65537) % 65537
  cs.foldl (fun b c =>
    match b with
    | none => some c
    | some x => if d c < d x then some c else some x) none

/-- A frame's key in the connection round-robin (65,536 for a frame of no connection). -/
def Frame.connKey (f : Frame) : Nat := f.conn.getD 65536

/-- Levels 1 to 3 once, for class `cls` of sub-port `sub` (R142): the tenant by deficit round-robin, its connection by
round-robin, and the connection's oldest frame into its class queue. -/
def State.pullOne (s : State) (sub cls : Nat) : Option State :=
  let fs := s.swc.frames.filter fun f => f.stage = .waiting && f.sub = sub && f.cls = cls && s.eligible f
  let g := sub * 8 + cls
  let pick (t : Nat) : Option Frame :=
    let mine := fs.filter fun f => f.tenant = t
    (nextConn (Assoc.get 0 s.qos.connAt (g * 1024 + t)) (mine.map Frame.connKey)).bind fun c =>
      mine.find? fun f => f.connKey = c
  let ts := ((fs.map Frame.tenant).eraseDups).filterMap fun t => (pick t).map fun f => (t, f.len)
  match drr 1024 (fun t => s.tenantWeight t sub * 256) (fun t => Assoc.get 0 s.qos.tenantDeficit (g * 1024 + t))
      (Assoc.get 0 s.qos.tenantAt g) ts with
  | none => none
  | some (t, ds) =>
    (pick t).map fun f =>
      let last := !(s.swc.frames.any fun g => g.stage = .waiting && g.sub = sub && g.cls = cls && g.tenant = t && g.id ≠ f.id)
      let ds := endTurn last t ds
      let s := { s with qos.tenantDeficit := setDeficits s.qos.tenantDeficit (g * 1024) ds,
                        qos.tenantAt := Assoc.set 0 s.qos.tenantAt g t,
                        qos.connAt := Assoc.set 0 s.qos.connAt (g * 1024 + t) (f.connKey + 1) }
      s.enterQueue f

/-- Levels 1 to 3 for class `cls` of a sub-port until no frame is eligible. -/
def State.pullClass (s : State) (sub cls : Nat) : Nat → State
  | 0 => s
  | n + 1 =>
    match s.pullOne sub cls with
    | some s => s.pullClass sub cls n
    | none => s

def State.pullAll (s : State) (sub : Nat) : State :=
  (List.range 8).foldl (fun s c => s.pullClass sub c s.swc.frames.length) s

/-- The weight of a class on port `n` (QOS_PORT_WT_LO, QOS_PORT_WT_HI). -/
def State.classWeight (s : State) (n c : Nat) : Nat :=
  let w := if c < 4 then s.rg (Reg.QOS_PORT_WT_LO_WEIGHT_0 n).addr else s.rg (Reg.QOS_PORT_WT_HI_WEIGHT_0 n).addr
  getBits w (8 * (c % 4) + 7) (8 * (c % 4))

/-- Whether a frame's order entry is covered by ORD_ACK, so that it may leave (R247). -/
def State.ordered (s : State) (f : Frame) : Bool :=
  match f.oseq with
  | some o => !s.standbyPresent || decide (o < s.hrn.ordAck)
  | none => !(s.hrn.silent && s.hrn.role = .standby)

/-- The frame at the head of a class queue that may be served now: its gate admits it, the port shaper holds its length,
and its order entry is covered (R143, R145, R247). -/
def State.headOf (s : State) (n sub c : Nat) : Option Frame :=
  match s.swc.frames.find? fun f => !f.ingress && f.stage = .queued && f.sub = sub && f.cls = c with
  | none => none
  | some f =>
    let shaped := match shaperOn s.qos.pshapers fun x => x.sub = sub with
      | some i => (Assoc.get {} s.qos.pshapers i : Shaper).allows (s.portLen n f.len) s.now
      | none => true
    if s.gateAdmits n c (s.frameTime n f.len) && shaped && s.ordered f then some f else none

/-- Level 4 (R143): strict priority classes first, higher class first, then deficit round-robin with quanta of
WEIGHT × 256 bytes; a class of weight 0 outside SP_MASK is never served. -/
def State.selectFrame (s : State) (n sub : Nat) : State × Option Frame :=
  let sp := s.fld (Reg.QOS_PORT_SCHED_SP_MASK n)
  match ([7, 6, 5, 4, 3, 2, 1, 0].filter fun c => sp.testBit c).findSome? fun c => s.headOf n sub c with
  | some f => (s, some f)
  | none =>
    let cs := ((List.range 8).filter fun c => !sp.testBit c && s.classWeight n c ≠ 0).filterMap fun c =>
      (s.headOf n sub c).map fun f => (c, f.len)
    match drr 8 (fun c => s.classWeight n c * 256) (fun c => Assoc.get 0 s.qos.classDeficit (sub * 8 + c))
        (Assoc.get 0 s.qos.classAt sub) cs with
    | none => (s, none)
    | some (c, ds) =>
      let more := s.swc.frames.filter fun g => !g.ingress && g.stage = .queued && g.sub = sub && g.cls = c
      let ds := endTurn (more.length < 2) c ds
      ({ s with qos.classDeficit := setDeficits s.qos.classDeficit (sub * 8) ds, qos.classAt := Assoc.set 0 s.qos.classAt sub c },
       s.headOf n sub c)

/-! ### Packets sent (R79, R85) -/

/-- Whether a packet of the device can go to its sub-port now: its cells are free, and on a connection a number can be tracked and no
earlier packet of it waits (R14, R79, R85). -/
def State.mayGo (s : State) (f : Frame) : Bool :=
  decide (f.cells ≤ s.cellsSpare) &&
    (match f.conn with
     | some c => s.canTrack true c && !(s.swc.backlog.any fun g => g.conn = some c)
     | none => true)

/-- Put a packet in the buffer, with its TX_SEQ on a connection. -/
def State.bufferFrame (s : State) (f : Frame) : State :=
  let s := s.useCells f.cells
  let id := s.swc.nextId
  match f.conn with
  | some c =>
    let r := s.reseq true c
    let s := s.setReseq true c { r with assign := (r.assign + 1) % 65536 }
    { s with swc.frames := s.swc.frames ++ [{ f with id := id, seq := some r.assign, stage := .building }], swc.nextId := id + 1 }
  | none => { s with swc.frames := s.swc.frames ++ [{ f with id := id, stage := .waiting }], swc.nextId := id + 1 }

/-- The egress queue of a class of a sub-port (R82). -/
def egressQueue (sub cls : Nat) : Nat := 32 * (sub / 4) + 8 * (sub % 4) + cls

end Sys2Proof.Machine
end

