-- ==== Sys2Proof/Machine/Telemetry.lean ====
section
/-! DEFINITION. Chapter 18: event counters, bandwidth windows and the sample ring. -/
namespace Sys2Proof.Machine

/-! ### Rings (R348) -/

def TelRing.size (r : TelRing) : Nat := 2 ^ r.log2
def TelRing.free (r : TelRing) : Nat := r.size - r.used

/-- A ring as Configure Window or Configure Sampling starts it. -/
def TelRing.start (base log2 vector : Nat) (irq : Bool) : TelRing := { base := base, log2 := log2, vector := vector, irq := irq }

/-- The ring after one entry has been written at its tail. -/
def TelRing.push (r : TelRing) : TelRing :=
  let t := (r.tail + 1) % r.size
  { r with tail := t, used := r.used + 1, phase := if t = 0 then !r.phase else r.phase }

/-- A write of HEAD (R348): an index not below the ring size, or beyond TAIL, is discarded; equal to the head it releases every
slot of a full ring and nothing otherwise, as for an event ring (R45). -/
def TelRing.release (r : TelRing) (idx : Nat) : TelRing :=
  let k := (idx + r.size - r.head) % r.size
  if r.size ≤ idx then r
  else if k = 0 then (if r.used = r.size then { r with used := 0 } else r)
  else if r.used < k then r
  else { r with head := idx, used := r.used - k }

def State.window (s : State) (w : Nat) : Window := Assoc.get {} s.tel.windows w
def State.setWindow (s : State) (w : Nat) (x : Window) : State := { s with tel.windows := Assoc.set {} s.tel.windows w x }
def State.setSampling (s : State) (x : Sampling) : State := { s with tel.sampling := x }

/-! ### Windows (R345 to R347) -/

/-- The sub-ports a window covers, by port and then sub-port. -/
def State.windowSubs (s : State) (x : Window) : List Nat :=
  ((List.range 8).filter fun n => x.ports.testBit n).flatMap fun n => (List.range (s.subCount n)).map fun k => 4 * n + k

/-- One result entry (Table 18-2): sub-port `sub`, direction `d`. -/
def Window.entry (x : Window) (w sub d end_ : Nat) (phase : Bool) : List Byte :=
  let k := (sub * 2 + d) * 8
  let hdr := (if phase then 1 else 0) + 2 * w + 16 * (sub / 4) + 128 * (sub % 4) + 512 * d + (if x.isPartial then 1024 else 0) +
    (if x.stepped.isSome then 2048 else 0)
  leBytes 4 hdr ++ leBytes 4 x.seq ++ leBytes 8 x.start ++ leBytes 8 end_ ++
    ((List.range 8).flatMap fun c => leBytes 8 (Assoc.get (0, 0) x.acc (k + c)).1) ++
    ((List.range 8).flatMap fun c => leBytes 4 (Assoc.get (0, 0) x.acc (k + c)).2) ++
    leBytes 4 (Assoc.get 0 x.drops (sub * 2 + d)) ++ leBytes 4 0

/-- Write a close's entries into the window's ring. -/
def State.writeClose (s : State) (w end_ : Nat) : List (Nat × Nat) → State
  | [] => s
  | (sub, d) :: es =>
    let x := s.window w
    let s := s.emit (.telEntry w x.ring.tail (x.entry w sub d end_ x.ring.phase))
    (s.setWindow w { x with ring := x.ring.push }).writeClose w end_ es

/-- The window after a close: the next one opens in the same cycle. -/
def Window.reopen (x : Window) (end_ : Nat) : Window :=
  { x with seq := (x.seq + 1) % 2 ^ 32, start := end_, isPartial := false, stepped := none, acc := [], drops := [] }

/-- Close window `w` (R345, R348). -/
def State.closeWindow (s : State) (w : Nat) : State :=
  let x := { s.window w with seq := ((s.window w).seq + 1) % 2 ^ 32 }
  let end_ := x.stepped.getD s.now
  let es := (s.windowSubs x).flatMap fun k => [(k, 0), (k, 1)]
  let s := s.setWindow w x
  let s :=
    if x.ring.err then s
    else if x.ring.free < es.length then (s.bump (Reg.TEL_WIN_LOST_LOST w)).raise Ev.TEL_OVERRUN [w]
    else
      let s := s.writeClose w end_ es
      if x.ring.irq then s.emit (.msix x.ring.vector) else s
  let y := s.window w
  s.setWindow w { y.reopen end_ with seq := x.seq }

/-- A window ends at a boundary; then the WINDOW hook runs (Table 04-6). -/
def State.windowEnds (s : State) (w : Nat) : State := (s.closeWindow w).when (s.hookOn 4) fun s => s.invokeHook 4 w

/-- WINDOW_CLOSE (R345, R346): the window's slot fires at a boundary. -/
def execWindowClose (window : Fin 8) (s : State) : Host.Outcome State Fault Refusal :=
  .next <|
    match (s.window window).slot with
    | none => s
    | some k => s.when (s.window window).enabled fun s => (s.fire k).windowEnds window

/-- CONFIGURE_WINDOW (R347): enables a window with a timer slot, or stops one. -/
def execConfigureWindow (id : Nat) (s : State) : Host.Outcome State Fault Refusal :=
  .next <| s.runPlain id 0x0800 [(0x11, 23)] fun c s =>
    let d := c.desc
    let w := d.par 0 1
    let f := d.par 1 1
    let on := f.testBit 0
    let ms := d.par 4 4
    let x : Window := { enabled := true, ports := d.par 2 1, period := ms, start := s.now, isPartial := true,
                        ring := TelRing.start (d.par 8 8) (d.par 3 1) (d.par 0x10 1) (f.testBit 1) }
    let n := 2 * (s.windowSubs x).length
    if 8 ≤ w || 4 ≤ f then s.complete c .invalidField
    else if !on then
      let s := match (s.window w).slot with
        | some k => s.setSlot k {}
        | none => s
      (s.setWindow w { s.window w with enabled := false, slot := none }).complete c .success
    else if (s.window w).enabled then s.complete c .busy
    else if ms < 1 || 10000 < ms || x.ports = 0 || x.ring.base % 4096 ≠ 0 || x.ring.log2 < 4 || 16 < x.ring.log2 ||
        x.ring.size < 2 * n then s.complete c .invalidField
    else match s.findSlot with
      | none => s.complete c .limitExceeded
      | some k =>
        let p := ms * 1000000
        let s := s.setSlot k { owner := 4, armed := true, compare := (s.now / p + 1) * p, period := p, action := 2, target := w }
        (s.setWindow w { x with slot := some k }).complete c .success

/-! ### Counters (R343, R344) -/

/-- READ_COUNTERS. -/
def execReadCounters (id : Nat) (xferOk : Bool) (s : State) : Host.Outcome State Fault Refusal :=
  .next <| s.runPlain id 0x0801 [(0x05, 35)] fun c s =>
    let d := c.desc
    let first := d.par 0 2
    let n := d.par 2 2
    if n = 0 || 4096 < n || 4096 < first + n || 2 ≤ d.par 4 1 || d.dataLen.toNat ≠ 8 * n then s.complete c .invalidField
    else if !xferOk then s.complete c .dataXferError
    else
      let s := s.emit (.hostData d.dataPtr.toNat ((List.range n).flatMap fun i => leBytes 8 (s.counter (first + i))))
      let s := if d.par 4 1 = 1 then
          { s with tel.counters := s.tel.counters.filter fun e => e.1 < first || first + n ≤ e.1 }
        else s
      s.complete c .success

/-! ### Sampling (R349, R350) -/

/-- CONFIGURE_SAMPLING: the ring restarts; bibs already issued still complete. -/
def execConfigureSampling (id : Nat) (s : State) : Host.Outcome State Fault Refusal :=
  .next <| s.runPlain id 0x0802 [(0x06, 2), (0x10, 24)] fun c s =>
    let d := c.desc
    let r := d.par 0 1
    let f := d.par 1 1
    if (r ≠ 0 && (r < 8 || 24 < r)) || 4 ≤ f || d.par 2 1 < 4 || 16 < d.par 2 1 || 1024 ≤ d.par 4 2 || d.par 8 8 % 4096 ≠ 0 then
      s.complete c .invalidField
    else
      (s.setSampling { rate := r, tenantOnly := f.testBit 1, tenant := d.par 4 2, dropRaised := s.tel.sampling.dropRaised,
                       ring := TelRing.start (d.par 8 8) (d.par 2 1) (d.par 3 1) (f.testBit 0) }).complete c .success

/-- The record of a picked command (Table 18-6) whose completion is `q`. -/
def State.bibRecord (s : State) (c : Cmd) (q : Cqe) (phase : Bool) : List Byte :=
  let x : Conn := Assoc.get {} s.xpt.conns c.conn
  let b (v : Bool) (n : Nat) : Nat := if v then n else 0
  let io := c.entry.opcode = 0x01 || c.entry.opcode = 0x02 || c.entry.opcode = 0x08
  leBytes 1 (b phase 1 + b s.glb.twinB 2 + b c.wasDegraded 4 + b c.wasHeld 8 + b c.fromBuffer 16) ++ leBytes 1 c.entry.opcode ++
    leBytes 2 (q.sc * 2 + q.sct * 512 + b q.dnr 32768) ++ leBytes 2 c.conn ++ leBytes 2 x.qid ++ leBytes 2 c.entry.cid ++
    leBytes 2 x.tenant ++ leBytes 4 c.entry.nsid ++
    leBytes 8 (if io then c.entry.cdw10 + 2 ^ 32 * c.entry.cdw11 else 0) ++ leBytes 4 (if io then c.entry.cdw12 % 65536 else 0) ++
    leBytes 2 c.driveIos ++ leBytes 2 0 ++ (List.range 12).flatMap fun i => leBytes 8 (Assoc.get 0 c.stamps i)

/-- Write a picked command's record as its completion leaves, or drop it. -/
def State.writeBib (s : State) (c : Cmd) (q : Cqe) : State :=
  let g := s.tel.sampling
  if g.ring.err then s
  else if g.ring.free = 0 then
    let s := s.bump Reg.TEL_SMP_DROPPED_COUNT
    if g.dropRaised then s else (s.setSampling { g with dropRaised := true }).raise Ev.TEL_SAMPLE_DROP
  else
    let s := s.emit (.telEntry 8 g.ring.tail (s.bibRecord c q g.ring.phase))
    let s := s.setSampling { g with ring := g.ring.push }
    if g.ring.irq then s.emit (.msix g.ring.vector) else s

/-! ### Software's side of the rings -/

/-- TEL_WIN_HEAD_WRITE (R348): a value that is no index of the ring, or lies beyond TAIL, is discarded. -/
def execTelWinHeadWrite (window : Fin 8) (value : Word) (s : State) : Host.Outcome State Fault Refusal :=
  .next <|
    let x := s.window window
    s.setWindow window { x with ring := x.ring.release (getBits value 15 0) }

/-- TEL_SMP_HEAD_WRITE (R348). -/
def execTelSmpHeadWrite (value : Word) (s : State) : Host.Outcome State Fault Refusal :=
  .next <|
    let g := s.tel.sampling
    s.setSampling { g with ring := g.ring.release (getBits value 15 0) }

/-- TEL_RING_FAULT (R348): a PCIe error on a ring write stops that ring. -/
def execTelRingFault (ring : Fin 9) (s : State) : Host.Outcome State Fault Refusal :=
  .next <|
    let s := if ring.val = 8 then s.setSampling { s.tel.sampling with ring := { s.tel.sampling.ring with err := true } }
      else s.setWindow ring { s.window ring with ring := { (s.window ring).ring with err := true } }
    s.raise Ev.TEL_RING_FAULT [ring]

end Sys2Proof.Machine
end

