-- ==== Sys2Proof/Machine/Conn.lean ====
section
/-! DEFINITION. Chapter 07 and 09, the shared operations of connections: packets built and sent, completions and the
FREEZE order, events to hosts, closing a connection, controller resets, residency. -/
namespace Sys2Proof.Machine

/-! ### Contexts -/

def State.conn (s : State) (c : Nat) : Conn := Assoc.get {} s.xpt.conns c
def State.setConn (s : State) (c : Nat) (x : Conn) : State := { s with xpt.conns := Assoc.set {} s.xpt.conns c x }
def State.updConn (s : State) (c : Nat) (f : Conn → Conn) : State := s.setConn c (f (s.conn c))

/-- Addition on 24-bit PSNs. -/
def psnAdd (a n : Nat) : Nat := (a + n) % 2 ^ 24

/-- The distance from PSN `a` forward to `b`. -/
def psnAhead (a b : Nat) : Nat := ahead 24 a b

/-- The path MTU of a context in bytes (Table 07-4). -/
def Conn.mtu (c : Conn) : Nat := 128 * 2 ^ c.pmtu

/-- The retransmit timeout in ns (R119). -/
def State.ackTmo (s : State) : Nat := 4096 * 2 ^ s.fld Reg.XPT_RETRY_ACK_TMO_EXP

/-- The path rate of a connection's sub-port in Mb/s. -/
def State.lineRate (s : State) (c : Conn) : Nat := s.subRate (c.sub / 4) * 1000

/-! ### Building and sending packets -/

/-- Bytes rounded up to a multiple of 4. -/
def pad4 (n : Nat) : Nat := (n + 3) / 4 * 4

/-- The bytes after the BTH of a packet: extension headers and payload. -/
def Body.size : Body → Nat
  | .write _ _ _ p => 16 + pad4 p.length
  | .hollow => 16
  | .cqe _ _ => 16
  | .cqWrite _ cs _ _ _ => 20 + 16 * cs.length
  | .readReq _ _ _ _ => 16
  | .readResp p => 4 + pad4 p.length
  | .ack _ _ => 4
  | .nak _ _ _ => 4
  | .rnrNak _ _ _ => 4
  | .cnp => 16
  | .rep _ _ _ => 264
  | .rej _ => 264
  | .dreq => 264
  | .drep => 264
  | .sheath _ m => pad4 m.length
  | .neighbour => 28
  | .raw n => n

/-- The length of a frame that carries a packet: Ethernet, VLAN tag, IP, ESP where Sheath runs (R129), UDP, BTH, ICRC and
FCS. -/
def frameLen (c : Conn) (b : Body) (esp : Bool) : Nat :=
  let t := 8 + 12 + b.size + 4
  let ip := if c.ipv6 then 40 else 20
  let u := if esp then 16 + pad4 (t + 2) + 16 else t
  max 64 (14 + (if c.tagged then 4 else 0) + ip + u + 4)

/-- The BTH opcode of a packet, as its order entry and digest record carry it. -/
def Body.opcode : Body → Nat
  | .write _ _ _ _ => 0x0A
  | .hollow => 0x0A
  | .cqe _ _ => 0x04
  | .cqWrite _ _ _ _ _ => 0x0B
  | .readReq _ _ _ _ => 0x0C
  | .readResp _ => 0x10
  | .ack _ _ => 0x11
  | .nak _ _ _ => 0x11
  | .rnrNak _ _ _ => 0x11
  | .cnp => 0x81
  | .sheath op _ => op
  | _ => 0x64

/-- Whether a packet is control traffic (R135). -/
def Body.control : Body → Bool
  | .ack _ _ | .nak _ _ _ | .rnrNak _ _ _ | .cnp | .rep _ _ _ | .rej _ | .dreq | .drep | .sheath _ _ | .neighbour => true
  | _ => false

/-- Whether a packet belongs to the connection's own stream, and so takes a TX_SEQ (R85). -/
def Body.sequenced : Body → Bool
  | .rep _ _ _ | .rej _ | .dreq | .drep | .neighbour => false
  | _ => true

def Body.hollowFlag : Body → Bool
  | .hollow => true
  | _ => false

def Body.dataFlag : Body → Bool
  | .write _ _ _ _ => true
  | _ => false

def Body.rnrFlag : Body → Bool
  | .rnrNak _ _ _ => true
  | _ => false

/-- The class of a packet of a connection (R135). -/
def State.bodyClass (s : State) (c : Conn) (b : Body) : Nat :=
  if b.control then s.fld Reg.QOS_CFG_CTRL_CLASS else s.tenantClass c.tenant

/-- Whether a connection's packets are ESP: Sheath, once K4 has been sent (R129). -/
def Conn.esp (c : Conn) (b : Body) : Bool :=
  c.sheath && (match c.st with
    | .ready => true
    | .error => true
    | .closing => true
    | _ => false) && b.sequenced && (match b with
    | .sheath _ _ => false
    | _ => true)

/-! ### Digest records (R253) -/

/-- The `n` bytes of a number, high byte first (network order, R7). -/
def beBytes (n v : Nat) : List Byte := (leBytes n v).reverse

/-- A completion's 16 bytes (R367), on the queue `qid`. -/
def Cqe.bytes (q : Cqe) (qid : Nat) : List Byte :=
  leBytes 4 q.dw0 ++ leBytes 4 q.dw1 ++ leBytes 2 q.sqhd ++ leBytes 2 qid ++ leBytes 2 q.cid ++
    leBytes 2 ((if q.phase then 1 else 0) + 2 * q.sc + 512 * q.sct + if q.dnr then 32768 else 0)

/-- The payload of a packet; in LEAD read data counts as none. -/
def Conn.payload (c : Conn) : Body → List Byte
  | .write _ _ _ p => if c.tandem then p else []
  | .cqe _ q => q.bytes c.qid
  | .cqWrite _ qs _ _ _ => qs.flatMap fun q => q.bytes c.qid
  | .readResp p => p
  | _ => []

/-- The digest record of a packet: CRC-64 over CONN, PSN, OPCODE, LENGTH and the CRC-32C of its payload. -/
def State.digestOf (s : State) (n psn : Nat) (b : Body) : Nat :=
  let p := (s.conn n).payload b
  crc64 (beBytes 2 n ++ beBytes 3 psn ++ beBytes 1 b.opcode ++ beBytes 2 b.size ++ beBytes 4 (if p = [] then 0 else crc32c p))

/-- The active sends the record of each packet it orders to the standby. -/
def State.sendDigest (s : State) (o : Option Nat) (n psn : Nat) (b : Body) : State :=
  match o with
  | some o => s.sendTwin (.digest (o % 2 ^ 32) (s.digestOf n psn b))
  | none => s

/-- A demoted connection is LEAD from its TX entry on (R251). -/
def State.leadFrom (s : State) (n : Nat) : State :=
  let c := s.conn n
  if c.demoting then s.setConn n { c with demoting := false, tandem := false } else s

/-- Where the packets for a host leave (R108): the sub-port, the neighbour's MAC and whether a VLAN tag is put on, as the address table
gives them; with no entry there, the sub-port of the local address and no known MAC (log entry 122). -/
def State.route (s : State) (key : List Byte) (sub : Nat) (tagged : Bool) : Nat × Option (List Byte) × Bool :=
  match s.neighbour (key.take 16) with
  | some (mac, vlan, k) => (k, some mac, decide (2 ^ 15 ≤ vlan))
  | none => (sub, none, tagged)

/-- The packet of a connection whose turn has come takes its place in the stream: the active forms its TX entry, which names its TX_SEQ (R85,
R246), and its digest record, and the ESN is assigned (R129). A packet that the order stream has named carries its own. -/
def State.orderTx (s : State) (f : Frame) : State × Frame :=
  match f.conn with
  | none => (s, f)
  | some n =>
    if f.named then (s, f)
    else
      let b := f.body
      let esn := (f.esn.map fun _ => (s.conn n).esnOut).getD 0
      let (s, oseq) := s.order n (.tx (s.reseq true n).assign f.psn b.opcode (b.size % 65536) esn b.hollowFlag f.subst b.rnrFlag b.dataFlag)
      let s := (s.sendDigest oseq n f.psn b).leadFrom n
      let s := if f.esn.isSome then s.updConn n fun c => { c with esnOut := c.esnOut + 1 } else s
      (s, { f with esn := f.esn.map fun _ => esn, oseq := oseq, ordTime := s.now })

/-- Put a packet of the device on its way to a sub-port, or in the backlog while it cannot go. -/
def State.launch (s : State) (f : Frame) : State :=
  if s.mayGo f then
    let r := s.orderTx f
    r.1.bufferFrame r.2
  else { s with swc.backlog := s.swc.backlog ++ [f] }

/-- Launch what waits in the backlog, oldest first. -/
def State.relaunch (s : State) : State :=
  let b := s.swc.backlog
  b.foldl State.launch { s with swc.backlog := [] }

/-- The frame of a packet of connection `n` with a PSN. -/
def State.frameOf (s : State) (n : Nat) (b : Body) (psn : Nat) : Frame :=
  let c := s.conn n
  let esp := c.esp b
  let (sub, mac, tagged) := s.route c.key c.sub c.tagged
  let len := frameLen { c with tagged := tagged } b esp
  let cls := s.bodyClass c b
  { id := 0, sub := sub, queue := egressQueue sub cls, len := len, cells := cellsOf len, cls := cls,
    conn := if b.sequenced then some n else none, tenant := c.tenant, ect := !b.control, psn := psn, body := b,
    esn := if esp then some 0 else none, mac := mac, ordTime := s.now }

/-- Send a packet of connection `n` with a PSN. `subst` marks a substituted completion, `colour` is its command's (R138). -/
def State.sendPkt (s : State) (n : Nat) (b : Body) (psn : Nat) (subst : Bool := false) (colour : Colour := .green) : State :=
  s.launch { s.frameOf n b psn with subst := subst, colour := colour }

/-- The deadline restarted by a transmission or by ACK progress (R119). -/
def State.armRetx (s : State) (n : Nat) : State :=
  let c := s.conn n
  s.setConn n { c with retxAt := if c.unaPsn = c.sqPsn then none else some (s.now + s.ackTmo) }

/-- The response packets of a READ of `len` bytes. -/
def Conn.respPackets (c : Conn) (len : Nat) : Nat := max 1 ((len + c.mtu - 1) / c.mtu)

/-- A request packet takes `k` PSNs from SQ_PSN and is kept until acknowledged (R119). -/
def Conn.takePsn (c : Conn) (b : Body) (k : Nat) : Conn :=
  let psn := c.sqPsn
  let cpl := match b with
    | .cqe _ _ => psn
    | .cqWrite _ _ _ _ _ => psn
    | _ => c.lastCpl
  { c with sqPsn := psnAdd psn k, sent := c.sent ++ [⟨psn, k, b⟩], lastCpl := cpl }

/-- Issue a request packet at SQ_PSN; it covers `k` PSNs. -/
def State.issueReq (s : State) (n : Nat) (b : Body) (k : Nat) (colour : Colour := .green) : State :=
  let psn := (s.conn n).sqPsn
  ((s.updConn n fun c => c.takePsn b k).sendPkt n b psn false colour).armRetx n

/-! ### Started commands and their tags -/

def State.cmd (s : State) (t : Nat) : Option Cmd := (s.cmdb.cmds.find? fun e => e.1 = t).map Prod.snd

/-- Change the command of tag `t`. -/
def State.updCmd (s : State) (t : Nat) (f : Cmd → Cmd) : State :=
  { s with cmdb.cmds := s.cmdb.cmds.map fun e => if e.1 = t then (e.1, f e.2) else e }

/-- The lowest free tag (R153). -/
def State.freeTag (s : State) : Option Nat :=
  (List.range (s.cmdb.cmds.length + 1)).find? fun t => (s.cmd t).isNone && decide (t < 65536)

/-- Record shelf time at a stage of a picked command (R350). -/
def State.stamp (s : State) (t stage : Nat) : State :=
  s.updCmd t fun c => if c.picked then { c with stamps := Assoc.set 0 c.stamps stage s.now } else c

/-- Release a tag, with the holding slots its command still has (R282). -/
def State.dropTag (s : State) (t : Nat) : State :=
  let n := match s.cmd t with
    | some c => (c.blocks.filter fun b => b.slot).length
    | none => 0
  { s with cmdb.cmds := s.cmdb.cmds.del t, cph.held := s.cph.held - n }

/-- The tag of the command with number `uid`, if it is still outstanding. -/
def State.tagOf (s : State) (uid : Nat) : Option Nat := (s.cmdb.cmds.find? fun e => e.2.uid = uid).map Prod.fst

/-- The completion of command `uid` has left: its bib is written (R350), the tenant's counters count it (Table 18-1), the blocks
it buffered become covered by later Flushes (R161), and its tag is free. -/
def State.cplLeft (s : State) (n uid : Nat) (q : Cqe) : State :=
  let x := s.conn n
  let s := ({ s with cmdb.cpls := s.cmdb.cpls + 1 }).count (1536 + x.tenant)
  match s.tagOf uid with
  | none => s
  | some t =>
    let s := s.stamp t 11
    match s.cmd t with
    | none => s
    | some c =>
      let io := !c.admin && (c.entry.opcode = 1 || c.entry.opcode = 2) && q.sct = 0 && q.sc = 0
      let s := if io then s.count (2560 + x.tenant) ((c.entry.cdw12 % 65536 + 1) * 4096) else s
      let at_ := some s.cmdb.cpls
      let bs := s.lay.buffer.map fun b => if c.bufs.contains b.id then { b with done := at_ } else b
      let s := { s with lay.buffer := bs }
      let s := if c.picked then s.writeBib c q else s
      (s.updConn n fun x => { x with inflight := x.inflight - 1 }).dropTag t

/-- Whether a packet is a request of the device, with the PSNs it covers; responses carry the PSN they answer. -/
def Conn.reqPsns (c : Conn) : Body → Option Nat
  | .write _ _ _ _ => some 1
  | .hollow => some 1
  | .cqe _ _ => some 1
  | .cqWrite _ _ _ _ _ => some 1
  | .readReq _ _ len _ => some (c.respPackets len)
  | .sheath _ _ => some 1
  | _ => none

/-- A packet of the device has left its port: a request restarts the retransmit deadline (R119). -/
def State.packetLeft (s : State) (n : Nat) (b : Body) : State :=
  let s := if ((s.conn n).reqPsns b).isSome && (s.conn n).retxAt.isSome then s.armRetx n else s
  match b with
  | .write uid _ _ _ => match s.tagOf uid with
    | some t => s.stamp t 10
    | none => s
  | .cqe uid q => s.cplLeft n uid q
  | .cqWrite us qs _ _ _ => (us.zip qs).foldl (fun s e => s.cplLeft n e.1 e.2) s
  | _ => s

/-! ### A twin that follows the order stream (R246, R248) -/

/-- Record what this twin built for a TX entry. -/
def State.setRec (s : State) (oseq : Nat) (r : Nat) : State :=
  { s with hrn.own := s.hrn.own.map fun d => if d.oseq = oseq then { d with rec_ := some r } else d }

/-- Transmit, on a TANDEM connection of a STANDBY, the packet a TX entry orders: it may start until ORD_TIME + T_LAG (R252). On
a connection in LEAD only its sequence number is passed, and the packet is done with. -/
def State.followTx (s : State) (e : OrderEntry) (txSeq psn esn : Nat) (b : Body) : State :=
  let n := e.conn
  let c := s.conn n
  if !s.follows || (c.tandem && s.hrn.role = .standby) then
    let f := s.frameOf n b psn
    s.launch { f with esn := f.esn.map fun _ => esn, ordTime := e.time, named := true }
  else
    let r := s.reseq true n
    (s.setReseq true n { r with assign := (txSeq + 1) % 65536, next := (txSeq + 1) % 65536 }).packetLeft n b

/-- What a new request packet changes in its connection when the TX entry that orders it gives its PSN. -/
def Conn.orderedReq (c : Conn) (b : Body) (psn : Nat) : Conn :=
  match c.reqPsns b with
  | none => c
  | some k =>
    let c := ({ c with sqPsn := psn } : Conn).takePsn b k
    match b with
    | .readReq va _ _ use => { c with reads := c.reads.map fun r => if r.va = va && r.use = use then { r with psn := psn } else r }
    | _ => c

/-- Build the packet a TX entry orders from this twin's own data; `again` says that it was sent before (R120). -/
def State.buildTx (s : State) (e : OrderEntry) (b : Body) (again : Bool := false) : State :=
  match e.kind with
  | .tx txSeq psn _ _ esn hollow _ _ _ =>
    let n := e.conn
    let b' := if hollow then .hollow else b
    let s := s.updConn n fun c =>
      let c := if esn = 0 then c else { c with esnOut := esn + 1 }
      if again then c else c.orderedReq b psn
    ((s.followTx e txSeq psn esn b').setRec e.oseq (s.digestOf n psn b')).leadFrom n
  | _ => s

/-- The opcode a TX entry names. -/
def txOpcode : OrderKind → Option Nat
  | .tx _ _ op _ _ _ _ _ _ => some op
  | _ => none

/-- Match the oldest TX entry of a connection that waits with the oldest packet built for it. -/
def State.matchTx (s : State) (n : Nat) : State :=
  match s.hrn.txWait.find? fun e => e.conn = n with
  | none => s
  | some e =>
    match (s.conn n).awaiting.find? fun b => some b.opcode = txOpcode e.kind with
    | none => s
    | some b =>
      let s := { s with hrn.txWait := s.hrn.txWait.filter fun x => x.oseq ≠ e.oseq }
      (s.updConn n fun c => { c with awaiting := c.awaiting.erase b }).buildTx e b

/-- A twin that follows the order stream keeps a packet until its TX entry names it. -/
def State.await (s : State) (n : Nat) (b : Body) : State :=
  (s.updConn n fun c => { c with awaiting := c.awaiting ++ [b] }).matchTx n

/-- Whether the packets of a connection are those of an order stream already formed: this twin follows one, or has taken over and
the connection still has entries whose packet it must build as they stand (R247). -/
def State.ordersWait (s : State) (n : Nat) : Bool := s.follows || s.hrn.txWait.any fun e => e.conn = n

/-- Send a packet that is not in the connection's PSN stream, or answers a request with its PSN. A twin that follows the
order stream emits only what the stream says (R126, R134), and no packet of connection management. -/
def State.sendCtl (s : State) (n : Nat) (b : Body) (psn : Nat := 0) : State :=
  if s.ordersWait n && b.sequenced then s.await n b
  else if s.follows then s
  else s.sendPkt n b psn

/-- Send a request packet; a twin that follows the order stream waits for its TX entry (R246). -/
def State.sendReq (s : State) (n : Nat) (b : Body) (k : Nat) (colour : Colour := .green) : State :=
  if s.ordersWait n then s.await n b else s.issueReq n b k colour

/-- Issue an RDMA READ of the host's memory. -/
def State.sendRead (s : State) (n va key len : Nat) (use : ReadFor) : State :=
  let c := s.conn n
  let k := c.respPackets len
  let s := s.setConn n { c with reads := c.reads ++ [{ psn := c.sqPsn, n := k, use := use, va := va, key := key, len := len }] }
  s.sendReq n (.readReq va key len use) k

/-- Device-to-host data as consecutive RDMA WRITE Only packets of one path MTU each (R108). -/
def State.sendData (s : State) (n uid va key : Nat) (colour : Colour) : Nat → List Byte → State
  | 0, _ => s
  | f + 1, d =>
    if d = [] then s
    else
      let m := (s.conn n).mtu
      (s.sendReq n (.write uid va key (d.take m)) 1 colour).sendData n uid (va + m) key colour f (d.drop m)

/-! ### Commands and their completions -/

def State.ctrl (s : State) (k : Nat) : Ctrl := Assoc.get {} s.cmdb.ctrls k
def State.setCtrl (s : State) (k : Nat) (x : Ctrl) : State := { s with cmdb.ctrls := Assoc.set {} s.cmdb.ctrls k x }
def State.updCtrl (s : State) (k : Nat) (f : Ctrl → Ctrl) : State := s.setCtrl k (f (s.ctrl k))
def State.ns (s : State) (n : Nat) : Ns := Assoc.get {} s.cmdb.nss n
def State.setNs (s : State) (n : Nat) (x : Ns) : State := { s with cmdb.nss := Assoc.set {} s.cmdb.nss n x }

/-- A completion with a status, for the command whose entry stands at `sqIndex` of connection `n`. -/
def State.cqeOf (s : State) (n : Nat) (e : SqEntry) (sct sc : Nat) (dnr : Bool) (dw0 dw1 : Nat) : Cqe :=
  let c := s.conn n
  { dw0 := dw0, dw1 := dw1, sqhd := c.sqHead, cid := e.cid, sct := sct, sc := sc, dnr := dnr }

/-- The colour of a packet that carries the completions of commands: the worst of theirs (R138). -/
def State.worstColour (s : State) (us : List Nat) : Colour :=
  let has (k : Colour) : Bool := s.cmdb.cmds.any fun e => us.contains e.2.uid && e.2.colour = k
  if has .red then .red else if has .yellow then .yellow else .green

/-- Released completion slots of a pull-mode connection. -/
def Conn.cqFree (c : Conn) : Nat := c.sqSize - c.cqUsed

/-- Write ready completions into released CQ slots, at most `most` to one RDMA WRITE Only with Immediate and contiguous in
the CQ (R115). -/
def State.flushReady (s : State) (n most : Nat) : Nat → State
  | 0 => s
  | f + 1 =>
    let c := s.conn n
    let k := min most (min c.ready.length (min c.cqFree (c.sqSize - c.cqTail)))
    if k = 0 then s
    else
      let now_ := (c.ready.take k).map fun r => (r.1, { r.2 with phase := c.cqPhase })
      let tail := (c.cqTail + k) % c.sqSize
      let s := s.setConn n { c with ready := c.ready.drop k, cqTail := tail, cqUsed := c.cqUsed + k, gatherAt := none,
                                    cqPhase := if tail = 0 then !c.cqPhase else c.cqPhase }
      let us := now_.map Prod.fst
      (s.sendReq n (.cqWrite us (now_.map Prod.snd) (c.cqBase + 16 * c.cqTail) c.cqRkey tail) 1 (s.worstColour us)).flushReady
        n most f

/-- Hand a completion to its connection: SEND Only in capsule mode, a completion queue entry in pull mode (R115). -/
def State.putCqe (s : State) (n uid : Nat) (q : Cqe) (colour : Colour) : State :=
  let c := s.conn n
  if !c.pull then s.sendReq n (.cqe uid q) 1 colour
  else
    let g := s.fld Reg.XPT_ACK_CQ_GATHER * 10
    let s := s.setConn n { c with ready := c.ready ++ [(uid, q)],
                                  gatherAt := if g = 0 then none else some (c.gatherAt.getD (s.now + g)) }
    if g = 0 then s.flushReady n 1 (c.ready.length + 1)
    else if 16 ≤ c.ready.length + 1 then s.flushReady n 16 (c.ready.length + 1) else s

/-- Send the completion of a started command, unless none is to be sent (R162). -/
def State.sendCpl (s : State) (t : Nat) : State :=
  match s.cmd t with
  | none => s
  | some c =>
    match c.cpl with
    | none => s
    | some q =>
      if c.mute then (s.updConn c.conn fun x => { x with inflight := x.inflight - 1 }).dropTag t
      else (s.updCmd t fun c => { c with sent := true, committed := true }).putCqe c.conn c.uid q c.colour

/-- Complete a command that has not started: it holds no tag, so its completion carries a number of its own. -/
def State.completeUnstarted (s : State) (n : Nat) (r : RxCmd) (sct sc : Nat) (dnr : Bool) : State :=
  let u := s.cmdb.nextUid
  let s := { s with cmdb.nextUid := u + 1 }
  s.putCqe n u (s.cqeOf n r.entry sct sc dnr 0 0) .green

/-! ### Events to hosts (R159, Table 09-1) -/

/-- Report an asynchronous event to a controller: through its oldest outstanding request, or kept until one arrives. -/
def State.hostEvent (s : State) (k type info page : Nat) : State :=
  let c := s.ctrl k
  if !c.used then s
  else match c.aers with
    | [] => if c.events.contains (type, info, page) then s else s.setCtrl k { c with events := c.events ++ [(type, info, page)] }
    | t :: ts =>
      let s := s.setCtrl k { c with aers := ts }
      match s.cmd t with
      | none => s
      | some x =>
        (s.updCmd t fun y => { y with phase := .done, cpl := some (s.cqeOf x.conn x.entry 0 0 false
          (type + info * 256 + page * 65536) 0) }).sendCpl t

/-- The controllers in use. -/
def State.ctrlsUsed (s : State) : List Nat := (s.cmdb.ctrls.filter fun e => e.2.used).map Prod.fst

/-! ### The write buffer as completions see it -/

/-- Make a command's buffered blocks visible to reads: its write commits (R159). Older blocks of the same place go, unless a
stripe write carries them, and a Flush, a shutdown or a write of write-through that waited for one waits for the newer block. -/
def State.showBufs (s : State) (ids : List Nat) : State :=
  let new := s.lay.buffer.filter fun b => ids.contains b.id
  let keep (b : BufBlk) : Bool :=
    ids.contains b.id || !b.visible || b.stripe.isSome || !(new.any fun x => x.nsid = b.nsid && x.lba = b.lba)
  let gone := s.lay.buffer.filter fun b => !keep b
  let heir (i : Nat) : Nat :=
    match gone.find? fun b => b.id = i with
    | some b => ((new.find? fun x => x.nsid = b.nsid && x.lba = b.lba).map BufBlk.id).getD i
    | none => i
  let waits (c : Cmd) : Cmd := if c.phase = .waiting || (c.phase = .buffered && s.cmdb.through) then { c with bufs := c.bufs.map heir } else c
  let cs : Assoc Cmd := s.cmdb.cmds.map fun e => (e.1, waits e.2)
  let ks : Assoc Ctrl := s.cmdb.ctrls.map fun e => (e.1, { e.2 with shFlush := e.2.shFlush.map heir })
  let shown : List BufBlk := (s.lay.buffer.filter keep).map fun b => if ids.contains b.id then { b with visible := true } else b
  let s := s.dropClean fun b => new.any fun x => x.nsid = b.nsid && x.lba = b.lba
  (({ s with cmdb.cmds := cs, cmdb.ctrls := ks }).setBuffer shown).reclaim

/-- Discard a command's buffered blocks (R159). -/
def State.discardBufs (s : State) (ids : List Nat) : State :=
  s.setBuffer (s.lay.buffer.filter fun b => !ids.contains b.id)

/-- Received commands that end without starting leave their receive places (R114). -/
def Conn.dropRx (c : Conn) (p : RxCmd → Bool) : Conn :=
  { c with rxq := c.rxq.filter fun r => !p r, places := c.places - (c.rxq.filter p).length }

/-! ### Commit order and freezing (R159) -/

/-- Insert a command into a list ordered by command number. -/
def insertCmd (x : Nat × Cmd) : List (Nat × Cmd) → List (Nat × Cmd)
  | [] => [x]
  | y :: ys => if x.2.uid ≤ y.2.uid then x :: y :: ys else y :: insertCmd x ys

/-- The commands of connection `n` that have not committed, in submission order. -/
def State.uncommitted (s : State) (n : Nat) : List (Nat × Cmd) :=
  (s.cmdb.cmds.filter fun e => e.2.conn = n && !e.2.committed).foldr insertCmd []

/-- Complete a started command of a frozen queue with Queue Frozen; its buffered data is discarded. -/
def State.freezeOut (s : State) (t : Nat) : State :=
  match s.cmd t with
  | none => s
  | some c =>
    let s := s.discardBufs c.bufs
    let s := s.bump Reg.CMD_FROZEN_CPL_COUNT
    let s := s.updCtrl ((s.conn c.conn).ctrl.getD 0) fun k =>
      { k with frozen := k.frozen.map fun f => if f.qid = (s.conn c.conn).qid then { f with count := f.count + 1 } else f }
    (s.updCmd t fun c => { c with phase := .done, bufs := [], cpl := some (s.cqeOf c.conn c.entry 7 0x80 false 0 0) }).sendCpl t

/-- The queue of connection `n` freezes on command `c` with status `q`: the entry of page C0h, EVT_CMD_FROZEN, the vendor
event, and Queue Frozen for every later command, started or not. -/
def State.freezeQueue (s : State) (n : Nat) (c : Cmd) (q : Cqe) : State :=
  let x := s.conn n
  let k := x.ctrl.getD 0
  let f : FrozenEnt := { qid := x.qid, cid := c.entry.cid, opcode := c.entry.opcode, sct := q.sct, sc := q.sc, sqhd := c.sqIndex,
                         nsid := c.entry.nsid, slba := c.entry.cdw10 + c.entry.cdw11 * 2 ^ 32,
                         nlb := c.entry.cdw12 % 65536, count := 0, time := s.now }
  let s := s.setConn n { x with frozen := true }
  let s := s.updCtrl k fun y => { y with frozen := y.frozen ++ [f], frozenGen := y.frozenGen + 1 }
  let s := s.raise Ev.CMD_FROZEN [k + 1, x.qid]
  let s := s.hostEvent k 7 0 0xC0
  let s := ((s.uncommitted n).map Prod.fst).foldl State.freezeOut s
  let rs := (s.conn n).rxq
  let s := s.updConn n fun y => y.dropRx fun _ => true
  rs.foldl (fun s r =>
    let s := (s.bump Reg.CMD_FROZEN_CPL_COUNT).updCtrl k fun y =>
      { y with frozen := y.frozen.map fun f => if f.qid = x.qid then { f with count := f.count + 1 } else f }
    s.completeUnstarted n r 7 0x80 false) s

/-- Commit a command whose outcome is decided: a write's data becomes visible and its completion is sent. -/
def State.commit (s : State) (t : Nat) : State :=
  match s.cmd t with
  | none => s
  | some c => ((s.showBufs c.bufs).updCmd t fun c => { c with committed := true }).sendCpl t

/-- Commit what is ready on a FREEZE queue, in submission order; the first failure freezes it. A command in its COMPLETION hook is not
ready: its completion is not built (Table 04-6). -/
def State.commitQueue (s : State) (n : Nat) : Nat → State
  | 0 => s
  | f + 1 =>
    match s.uncommitted n with
    | [] => s
    | (t, c) :: _ =>
      match c.cpl with
      | none => s
      | some q =>
        if c.phase = .hook then s
        else
        let s := s.commit t
        if q.sct = 0 && q.sc = 0 then s.commitQueue n f else s.freezeQueue n c q

/-- A command's outcome is decided and its completion built: committed at once under STANDARD, in submission order under
FREEZE. -/
def State.settle (s : State) (t : Nat) : State :=
  match s.cmd t with
  | none => s
  | some c =>
    let x := s.conn c.conn
    if x.freeze && !c.admin then s.commitQueue c.conn (s.uncommitted c.conn).length else s.commit t

/-- Decide a command's outcome (R154, R367). The COMPLETION hook runs before the completion is built (Table 04-6). -/
def State.finish (s : State) (t sct sc : Nat) (dnr : Bool) (dw0 : Nat := 0) (dw1 : Nat := 0) : State :=
  match s.cmd t with
  | none => s
  | some c =>
    let q := s.cqeOf c.conn c.entry sct sc dnr dw0 dw1
    if !c.admin && s.hookOn 2 then
      (s.updCmd t fun c => { c with phase := .hook, cpl := some q }).invokeHook 2 t
    else (s.updCmd t fun c => { c with phase := .done, cpl := some q }).settle t

/-- Complete a command successfully. -/
def State.success (s : State) (t : Nat) (dw0 : Nat := 0) (dw1 : Nat := 0) : State := s.finish t 0 0 false dw0 dw1

/-- Grants being revoked and namespaces being deleted complete when no decoded command uses them (R131, R166): the
commands of a domain on a namespace that are past decode. -/
def State.nsBusy (s : State) (nsid : Nat) (pd : Option Nat) : Bool :=
  s.cmdb.cmds.any fun e => !e.2.admin && e.2.entry.nsid = nsid &&
    (match pd with
     | some p => (s.conn e.2.conn).pd = p
     | none => true)

/-! ### Closing connections -/

/-- End the commands of connection `n`: a write whose data has fully arrived is kept and destaged without a completion,
every other command ends (R111, R162). -/
def State.endCommands (s : State) (n : Nat) : State :=
  let ts := s.cmdb.cmds.filter fun e => e.2.conn = n
  let s := ts.foldl (fun s e =>
    match e.2.phase with
    | .sealing => s.updCmd e.1 fun c => { c with mute := true }
    | .buffered => s.updCmd e.1 fun c => { c with mute := true }
    | _ => s.dropTag e.1) s
  s.updConn n fun c => { c.dropRx (fun _ => true) with inflight := 0, ready := [] }

/-- The commands not yet started complete with Command Aborted due to SQ Deletion while the connection is READY (R162). -/
def State.abortUnstarted (s : State) (n : Nat) : State :=
  let c := s.conn n
  if c.st = .ready then
    c.rxq.foldl (fun s r => s.completeUnstarted n r 0 8 false) (s.setConn n (c.dropRx fun _ => true))
  else s.setConn n (c.dropRx fun _ => true)

/-- Move a connection through CLOSING: DREQ is sent and DREP awaited (R110, R111). Leaving READY raises
EVT_XPT_CONN_DOWN with its cause. -/
def State.closeConn (s : State) (n cause : Nat) : State :=
  let c := s.conn n
  let down := c.st = .ready
  if c.st = .idle || c.st = .closing || c.st = .closed then s
  else
    let s := s.setConn n { c with st := .closing, cmAt := some (s.now + s.fld Reg.XPT_TMO_CM_TMO * 1000000), retxAt := none,
                                  ackAt := none, alphaAt := none, rateAt := none, keyAt := none, rnrAt := none,
                                  reads := [], sent := [], parked := [] }
    let s := s.raiseIf down Ev.XPT_CONN_DOWN [n, cause]
    (s.endCommands n).sendCtl n .dreq

/-- A controller reset (R162): its queues stop, unstarted commands abort, buffered data stays, its I/O queue connections
close through CLOSING, memory keys and frozen-queue entries clear. -/
def State.resetCtrl (s : State) (k : Nat) : State :=
  let c := s.ctrl k
  if !c.used then s
  else
    let ns := (s.xpt.conns.filter fun e => e.2.ctrl = some k).map Prod.fst
    let s := ns.foldl (fun s n => (s.abortUnstarted n).endCommands n) s
    let s := ns.foldl (fun s n =>
      if (s.conn n).admin then s else (s.updConn n fun x => { x with frozen := false }).closeConn n 2) s
    let s := s.setCtrl k { c with en := false, shn := 0, shst := 0, mkeys := [], aers := [], events := [],
                                  frozen := [], frozenGen := if c.frozen = [] then c.frozenGen else c.frozenGen + 1 }
    (s.bump Reg.CMD_CTRL_RESET_COUNT).raise Ev.CMD_CTRL_RESET [k + 1, 0]

/-- The controller whose admin queue a connection carries. -/
def State.adminOf (s : State) (n : Nat) : Option Nat :=
  let c := s.conn n
  if c.admin then c.ctrl else none

/-- Close a connection; the loss of an admin queue's connection resets and removes its controller (R162). -/
def State.close (s : State) (n cause : Nat) : State :=
  match s.adminOf n with
  | some k => (((s.closeConn n cause).resetCtrl k).setCtrl k {})
  | none => s.closeConn n cause

/-- A connection leaves READY for ERROR and goes on to CLOSING at once (R110). -/
def State.connError (s : State) (n cause : Nat) : State := if (s.conn n).st = .ready then s.close n cause else s

/-- Complete the management commands that wait for the connections of a host slot to close (R131). -/
def State.hostClosed (s : State) (host : Nat) : Bool :=
  !(s.xpt.conns.any fun e => e.2.host = some host && e.2.st ≠ .idle && e.2.st ≠ .closed)

/-! ### Residency (R125, R126) -/

def State.residents (s : State) : Nat := s.xpt.conns.count fun c => c.residence ≠ .hbm

/-- Whether a resident context may be evicted (R125). -/
def Conn.evictable (c : Conn) : Bool :=
  c.residence = .resident && c.st = .ready && c.inflight = 0 && c.unaPsn = c.sqPsn && c.reads = [] && c.parked = [] &&
    c.retxAt.isNone && c.ackAt.isNone && c.alphaAt.isNone && c.rateAt.isNone && c.rnrAt.isNone

/-- The least recently used evictable context other than `keep`. -/
def State.evictee (s : State) (keep : Nat := 65536) : Option Nat :=
  (s.xpt.conns.foldl (fun b e =>
    if !e.2.evictable || e.1 = keep then b
    else match b with
      | none => some e
      | some x => if e.2.used < x.2.used then some e else b) (none : Option (Nat × Conn))).map Prod.fst

/-- Whether a resident slot can be obtained: one is free, or a context can be evicted. -/
def State.slotObtainable (s : State) : Bool := decide (s.residents < 8192) || s.evictee.isSome

/-- Choose a victim for each fetch that waits without one, while a context is evictable (R125). -/
def State.evictFor (s : State) (keep : Nat) : Nat → State
  | 0 => s
  | k + 1 =>
    if s.xpt.fetchWait.length ≤ s.xpt.conns.count fun c => c.residence = .writeback then s
    else match s.evictee keep with
      | some v => (s.updConn v fun c => { c with residence := .writeback }).evictFor keep k
      | none => s

/-- Victims for the fetches that wait. -/
def State.evictWaiting (s : State) (keep : Nat := 65536) : State := s.evictFor keep s.xpt.fetchWait.length

/-- Ask for a resident slot for context `n`: its fetch starts in a free slot, or waits for the write-back of a victim; with
no context evictable it waits (R125). -/
def State.wantSlot (s : State) (n : Nat) : State :=
  if s.residents < 8192 then s.updConn n fun c => { c with residence := .fetching }
  else if s.xpt.fetchWait.contains n then s
  else ({ s with xpt.fetchWait := s.xpt.fetchWait ++ [n] }).evictWaiting

/-- Give a freed resident slot to the context that has waited longest. -/
def State.grantSlot (s : State) : State :=
  match s.xpt.fetchWait with
  | [] => s
  | n :: ns =>
    if s.residents < 8192 then
      { s with xpt.fetchWait := ns }.updConn n fun c => { c with residence := .fetching }
    else s

/-- A packet for a context being written back cancels the eviction, and another victim is chosen (R125). -/
def State.keepResident (s : State) (n : Nat) : State :=
  if (s.conn n).residence = .writeback then
    let s := s.updConn n fun c => { c with residence := .resident, used := s.xpt.clock + 1 }
    ({ s with xpt.clock := s.xpt.clock + 1 }).evictWaiting n
  else s

/-- Mark a context as used now. -/
def State.touch (s : State) (n : Nat) : State :=
  { s with xpt.clock := s.xpt.clock + 1 }.updConn n fun c => { c with used := s.xpt.clock + 1 }

/-- The packets parked over all contexts. -/
def State.parkedTotal (s : State) : Nat := s.xpt.conns.foldl (fun n e => n + e.2.parked.length) 0

end Sys2Proof.Machine
end

