-- ==== Sys2Proof/Machine/Formats.lean ====
section
/-! DEFINITION. The byte layouts of R7: structures in host or device memory little-endian, structures on the Harness big-endian. The other
definitions use the fields; the layouts say where each stands. -/
namespace Sys2Proof.Machine

/-- A bit as a number. -/
def bitOf (b : Bool) : Nat := if b then 1 else 0

/-! ### Host memory (Tables 03-3 to 03-5, 03-8) -/

/-- A command descriptor, 64 bytes (Table 03-3). -/
def descriptorBytes (d : Descriptor) : List Byte :=
  leBytes 2 d.opcode.toNat ++ [d.flags, d.rsvd03] ++ leBytes 2 d.cid.toNat ++ leBytes 2 d.rsvd06.toNat ++ leBytes 8 d.dataPtr.toNat ++
    leBytes 4 d.dataLen.toNat ++ leBytes 4 d.rsvd14.toNat ++ leBytes 40 d.params.toNat

/-- The bytes of an envelope that its signature covers, 0x000 to 0x05F + PAYLOAD_LEN (Table 03-8). The nonce stands byte 0 first. -/
def envelopeBytes (e : Envelope) : List Byte :=
  leBytes 2 e.version.toNat ++ [e.adminSlot, e.rsvd03] ++ leBytes 4 e.payloadLen.toNat ++ leBytes 16 e.nonce.toNat ++
    leBytes 8 e.signedTime.toNat ++ descriptorBytes e.command ++ e.payload

/-- A completion entry or an event entry, 32 bytes (Tables 03-4, 03-5). How the 16 bytes of DETAIL hold the numbers that an event's chapter
names is free (log entry 66). -/
def Entry.bytes : Entry → List Byte
  | .completion phase ring cid status chead r0 r1 time =>
    leBytes 4 (bitOf phase + 2 ^ 8 * ring + 2 ^ 16 * cid.toNat) ++ leBytes 2 status ++ leBytes 2 chead ++ leBytes 8 r0 ++ leBytes 8 r1 ++
      leBytes 8 time
  | .event phase cls source count detail time =>
    leBytes 4 (bitOf phase + 2 + 2 ^ 4 * cls + 2 ^ 8 * source) ++ leBytes 2 count ++ leBytes 2 0 ++
      leBytes 16 (Config.detailBits source detail).toNat ++ leBytes 8 time

/-! ### Device memory (Tables 07-4, 10-6) -/

/-- The STATE code of a connection (Table 07-4). -/
def ConnSt.code : ConnSt → Nat
  | .idle => 0 | .reqRcvd => 1 | .keying => 2 | .ready => 3 | .error => 4 | .closing => 5 | .closed => 6

/-- A deadline as the context holds it: shelf time in µs modulo 2^32; 0 with none (log entry 127). -/
def deadlineWord (t : Option Nat) : Nat := ((t.getD 0) / 1000) % 2 ^ 32

/-- The first 128 bytes of a connection context (Table 07-4), offsets 0x80 to 0xFF being tier 0 working state. α at 1 reads 0xFFFF, and STAGE
and the retry counters read at most what their fields hold (log entry 127). -/
def Conn.bytes (c : Conn) : List Byte :=
  let mode := bitOf c.pull + 2 * bitOf c.tandem + 4 * bitOf c.freeze + 8 * bitOf c.sheath + 16 * bitOf c.tandemSafe
  leBytes 1 c.st.code ++ leBytes 1 mode ++ leBytes 1 c.pmtu ++ leBytes 1 c.incarn ++ leBytes 2 c.pd ++ leBytes 2 (c.host.getD 0xFFFF) ++
    leBytes 2 c.tenant ++ leBytes 2 c.qid ++ leBytes 4 c.peerQpn ++ leBytes 4 c.sqPsn ++ leBytes 4 c.unaPsn ++ leBytes 4 c.rqPsn ++
    leBytes 4 c.msn ++ leBytes 1 (min 15 c.retries + 16 * min 15 c.rnrRetries) ++ leBytes 1 (min 255 c.stage) ++
    leBytes 2 (min 0xFFFF c.alpha) ++ leBytes 4 c.rateCur ++ leBytes 4 c.rateTgt ++ leBytes 4 c.byteCnt ++
    leBytes 4 (deadlineWord c.retxAt) ++ leBytes 4 (deadlineWord c.rateAt) ++ leBytes 2 c.inflight ++ leBytes 2 0 ++ leBytes 4 c.lastCpl ++
    leBytes 8 c.sqBase ++ leBytes 4 c.sqRkey ++ leBytes 2 c.sqSize ++ leBytes 2 c.sqFetch ++ leBytes 8 c.cqBase ++ leBytes 4 c.cqRkey ++
    leBytes 2 c.sqSize ++ leBytes 2 c.cqTail ++ leBytes 2 c.sqTail ++ leBytes 2 c.cqHead ++ leBytes 28 0

/-- The connection state of a code. -/
def ConnSt.ofCode : Nat → ConnSt
  | 1 => .reqRcvd | 2 => .keying | 3 => .ready | 4 => .error | 5 => .closing | 6 => .closed | _ => .idle

/-- A context as its bytes give it (Table 07-4), in a context whose other fields stand. -/
def Conn.ofBytes (c : Conn) (b : List Byte) : Conn :=
  let f (o n : Nat) : Nat := leAt b o n
  let mode := f 1 1
  { c with st := ConnSt.ofCode (f 0 1), pull := mode.testBit 0, tandem := mode.testBit 1, freeze := mode.testBit 2, sheath := mode.testBit 3,
           tandemSafe := mode.testBit 4, pmtu := f 2 1, incarn := f 3 1, pd := f 4 2, host := if f 6 2 = 0xFFFF then none else some (f 6 2),
           tenant := f 8 2, qid := f 0xA 2, peerQpn := f 0xC 4, sqPsn := f 0x10 4, unaPsn := f 0x14 4, rqPsn := f 0x18 4, msn := f 0x1C 4,
           retries := f 0x20 1 % 16, rnrRetries := f 0x20 1 / 16, stage := f 0x21 1, alpha := if f 0x22 2 = 0xFFFF then 65536 else f 0x22 2,
           rateCur := f 0x24 4, rateTgt := f 0x28 4, byteCnt := f 0x2C 4, inflight := f 0x38 2, lastCpl := f 0x3C 4, sqBase := f 0x40 8,
           sqRkey := f 0x48 4, sqSize := f 0x4C 2, sqFetch := f 0x4E 2, cqBase := f 0x50 8, cqRkey := f 0x58 4, cqTail := f 0x5E 2,
           sqTail := f 0x60 2, cqHead := f 0x62 2 }

/-- Bytes 0x00 to 0x37 of a Saddlebag record, the bytes under RCRC (Table 10-6): STATE 1 open, 2 cleared. GEN is the generation of the
extent's map entry. -/
def Stripe.head (j : Stripe) (state gen : Nat) : List Byte :=
  leBytes 1 state ++ leBytes 1 j.kind ++ leBytes 2 j.volume ++ leBytes 4 j.extent ++ leBytes 2 j.stripe ++ leBytes 2 j.row ++ leBytes 4 gen ++
    leBytes 8 j.seq ++ leBytes 4 j.mapGen ++ leBytes 4 j.mask ++ leBytes 2 j.off ++ leBytes 2 j.nblk ++ leBytes 4 0 ++
    ((j.pcrc ++ [0, 0, 0, 0]).take 4).flatMap (leBytes 4)

/-- A Saddlebag record, 64 bytes. -/
def Stripe.bytes (j : Stripe) (state gen : Nat) : List Byte :=
  let h := j.head state gen
  h ++ leBytes 4 (crc32c h) ++ leBytes 4 0

/-- A list of exactly `n` bytes. -/
def fit (n : Nat) (b : List Byte) : List Byte := (b ++ List.replicate n 0).take n

/-- An extension key slot of a record (Table 15-7). -/
def extKeyBytes (k : ExtKey) : List Byte :=
  leBytes 4 k.rsaE ++ leBytes 4 k.floor ++ fit 384 k.rsaN ++ fit 1952 k.mldsa ++ leBytes 8 0

/-- An administrator key of a record: exponent, four zero bytes, modulus. -/
def adminKeyBytes (k : List Byte) : List Byte := fit 4 k ++ leBytes 4 0 ++ fit 384 (k.drop 4)

/-- Bytes 0x0000 to 0x3DB7 of a security record (Table 15-7), with the 64 bytes of its sealed journal key. -/
def Record.body (r : Record) (journal : List Byte) : List Byte :=
  leBytes 4 0x44524353 ++ leBytes 2 1 ++ leBytes 2 0 ++ leBytes 8 r.seq ++ leBytes 8 r.floor ++ leBytes 4 r.ctrEpoch ++
    leBytes 1 (bitOf r.bootB) ++ leBytes 1 r.pendingSvn ++ leBytes 2 0 ++ leBytes 4 r.soakS ++ leBytes 4 0 ++ journal ++
    leBytes 4 r.journalGen ++ leBytes 2 r.admins.toNat ++ leBytes 2 0 ++
    ((List.range 16).flatMap fun k => adminKeyBytes (Assoc.get [] r.adminKeys k)) ++
    ((List.range 4).flatMap fun k => extKeyBytes (Assoc.get {} r.extKeys k)) ++ leBytes 4 (bitOf r.extStore) ++ leBytes 4 0

/-! ### The Harness (Tables 13-2 to 13-5), big-endian -/

/-- The KIND, FLAGS and BODY of an order entry. -/
def orderParts : OrderKind → Nat × Nat × List Byte
  | .rx pkt psn verdict colour => (1, 0, beBytes 4 pkt ++ beBytes 3 psn ++ beBytes 1 verdict ++ beBytes 1 colour ++ beBytes 7 0)
  | .tx seq psn op len esn hollow subst rnr data =>
    (2, bitOf hollow + 2 * bitOf subst + 4 * bitOf rnr + 8 * bitOf data,
      beBytes 2 seq ++ beBytes 3 psn ++ beBytes 1 op ++ beBytes 2 len ++ beBytes 8 esn)
  | .nonce ctr slot blocks => (3, 0, beBytes 8 ctr ++ beBytes 2 slot ++ beBytes 2 blocks ++ beBytes 4 0)
  | .verdict slot action colour => (4, 0, beBytes 2 slot ++ beBytes 1 action ++ beBytes 1 colour ++ beBytes 12 0)
  | .state seq => (5, 0, beBytes 4 seq ++ beBytes 12 0)
  | .handover epoch => (6, 0, beBytes 4 epoch ++ beBytes 12 0)

/-- An order entry, 32 bytes (Table 13-4). -/
def orderBytes (e : OrderEntry) : List Byte :=
  let p := orderParts e.kind
  beBytes 1 p.1 ++ beBytes 1 p.2.1 ++ beBytes 2 e.conn ++ beBytes 4 e.oseq ++ beBytes 8 e.time ++ p.2.2

/-- A heartbeat, 32 bytes (Table 13-5). -/
def heartbeatBytes (h : Heartbeat) : List Byte :=
  beBytes 8 h.time ++ beBytes 2 h.frac ++ beBytes 1 (roleCode h.role) ++ beBytes 1 (bitOf h.holder + 2 * bitOf h.selfFault + 4 * bitOf h.drain) ++
    beBytes 4 h.epoch ++ beBytes 8 h.floor ++ beBytes 4 h.ordHead ++ beBytes 4 0

/-- The TYPE of a flit (Table 13-3). -/
def FlitKind.code : FlitKind → Nat
  | .crosspost => 1 | .order => 2 | .mirrorAck => 3 | .saddlebag => 4 | .digest => 5 | .heartbeat => 6 | .state => 7 | .control => 8
  | .link => 15

/-- The header of a flit (Table 13-2), the AAD of its encryption. -/
def flitHeader (k : FlitKind) (first last badTail : Bool) (len : Nat) : List Byte :=
  beBytes 1 k.code ++ beBytes 1 (bitOf first + 2 * bitOf last + 4 * bitOf badTail) ++ beBytes 1 len ++ beBytes 1 0

/-- The IV of a flit (R244): the direction, 1 from twin B, and the flit counter. -/
def flitIv (twinB : Bool) (ctr : Nat) : List Byte := beBytes 4 (bitOf twinB) ++ beBytes 8 ctr

end Sys2Proof.Machine
end

