-- ==== Sys2Proof/Machine/Record.lean ====
section
/-! DEFINITION. Chapter 15, the security records of R303 and the erased places of R325. -/
namespace Sys2Proof.Machine

/-- The ASCII bytes of a string. -/
def ascii (x : String) : List Byte := x.toList.map fun c => BitVec.ofNat 8 c.toNat

/-- The 32 bytes of a key seed derived from the device root under a label (R128, R299). -/
def rootSeed (label : List Byte) : List Byte := beBytes 32 (Config.kdf 32 (beBytes 32 Config.rootKey.toNat) label).toNat

/-- `n` bytes derived from secrets under a salt and a label (R128): the KDF keyed by HMAC-SHA-256 with the salt over the secrets. -/
def derive (n : Nat) (salt secrets label : List Byte) : List Byte :=
  beBytes n (Config.kdf n (beBytes 32 (Config.hmacSha256 salt secrets).toNat) label).toNat

/-- The seed of the DevID pairs: the root key (R299). -/
def devIdSeed : List Byte := beBytes 32 Config.rootKey.toNat

/-- The record key (Table 15-6). -/
def recordKey : List Byte := rootSeed (ascii "RECORD1")

/-- The journal key as a record holds it: IV, ciphertext and tag under the record key (Table 15-7). -/
def sealedJournal (r : Record) (iv : Nat) : List Byte :=
  let ct := Config.gcmEncrypt recordKey (leBytes 12 iv) r.journalKey
  leBytes 12 iv ++ fit 32 ct ++ fit 16 (Config.gcmTag recordKey (leBytes 12 iv) [] ct) ++ leBytes 4 0

/-- The bytes of a record with its two signatures (Table 15-7). -/
def Record.bytes (r : Record) (iv : Nat) : List Byte :=
  let body := r.body (sealedJournal r iv)
  body ++ beBytes 384 (Config.rsaSign devIdSeed body).toNat ++ beBytes 3309 (Config.mldsaSign devIdSeed body).toNat

/-- The SVN that waits for its soak; 0 for none (R294). -/
def State.pendingSvn (s : State) : Nat := if s.sec.fuse < s.sec.run.svn then s.sec.run.svn else 0

/-- SOAK_S: the seconds run on the pending image with BOOT_DONE 1 (R294). -/
def State.soakS (s : State) : Nat :=
  s.sec.soakBase + if s.clk.bootDone && s.pendingSvn ≠ 0 then (s.now - s.sec.soakFrom) / 1000000000 else 0

/-- The record that the security core writes now (Table 15-7). -/
def State.recordNow (s : State) : Record :=
  { seq := s.sec.flash.seq + 1, floor := s.tim.floor, ctrEpoch := s.cph.ctrEpoch, bootB := s.sec.nextB, pendingSvn := s.pendingSvn,
    soakS := s.soakS, journalKey := s.cph.journalKey, journalGen := s.cph.journalGen, admins := s.sec.admins,
    adminKeys := s.sec.adminKeys, extKeys := s.tck.keys, extStore := s.sec.extStore, ext := s.sec.extStored }

/-- Take the next record place: in the current bank, or in the other once it is erased. -/
def State.takePlace (s : State) : Option State :=
  if s.sec.placesLeft ≠ 0 then some { s with sec.placesLeft := s.sec.placesLeft - 1 }
  else if s.sec.otherErased then some { s with sec.placesLeft := 63, sec.otherErased := false, sec.bank1 := !s.sec.bank1 }
  else none

/-- The flash address of the record place last taken (Table 15-1). -/
def State.placeAddr (s : State) : Nat := (if s.sec.bank1 then 0x1A10000 else 0x1810000) + (63 - s.sec.placesLeft) * 0x8000

/-- Program a record into the place just taken, with its journal key sealed under a fresh IV. -/
def State.program (s : State) (w : RecWrite) : State :=
  let (iv, s) := s.random 96
  ({ s with sec.write := some w }).emit (.recordWrite s.placeAddr w.content iv.toNat)

/-- With fewer than two free places the other bank is erased ahead of time (R325). -/
def State.keepErased (s : State) : State :=
  if s.sec.placesLeft < 2 && !s.sec.otherErased && !s.sec.erasing && !s.sec.stopped then
    ({ s with sec.erasing := true }).emit (.bankErase !s.sec.bank1)
  else s

/-- Start a record that completes the commands `ws`; without an erased place, or with the core stopped, it stays due. -/
def State.startRecord (s : State) (ws : List Nat) : State :=
  if s.sec.stopped then { s with sec.due := some ws }
  else
    let r : RecWrite := { content := s.recordNow, waiters := ws }
    match s.takePlace with
    | none => ({ s with sec.due := some ws }).keepErased
    | some s => (({ s with sec.due := none }).program r).keepErased

/-- A change that a record must hold (R303): one that falls due while a record is written waits for it, and shares the next (R310). -/
def State.saveRecord (s : State) (ws : List Nat) : State :=
  let all := s.sec.due.getD [] ++ ws
  match s.sec.write with
  | some _ => { s with sec.due := some all }
  | none => s.startRecord all

/-- Complete the commands that a record was written for, once the peer's record is written as well (R73, R303); a Load Extension waits for
its image to be in place too (R75). -/
def State.recordWaiters (s : State) (ws : List Nat) : State :=
  ws.foldl (fun s id => match s.ctl.started.find? fun c => c.id = id with
    | some c => if c.desc.opcode = 0x0902 && s.tck.next.isSome then s else s.ownDone c
    | none => s) s

/-- Whether a command still waits for a record. -/
def State.recordPending (s : State) (id : Nat) : Bool :=
  (s.sec.write.any fun w => w.waiters.contains id) || (s.sec.due.getD []).contains id

/-- A record is written and read back. A counter epoch it holds is saved (R274); epoch 0 is never used
(R279). -/
def State.recordOk (s : State) (w : RecWrite) : State :=
  let s := { s with sec.write := none, sec.flash := w.content,
                    cph.saved := s.cph.saved || (w.content.ctrEpoch = s.cph.ctrEpoch && s.cph.ctrEpoch ≠ 0 && s.cph.ctrCount < 2 ^ 40) }
  let s := s.recordWaiters w.waiters
  match s.sec.due with
  | some ws => s.startRecord ws
  | none => s

/-- A record that could not be written: EVT_SEC_RECORD_FAIL, and the waits of R274 for an epoch that is not saved. -/
def State.recordLost (s : State) (ws : List Nat) : State :=
  let all := ws ++ s.sec.due.getD []
  let s := { s with sec.write := none, sec.due := some all }
  (s.raise Ev.SEC_RECORD_FAIL).raiseIf (!s.cph.saved) Ev.CPH_CTR_SAVE

/-- The read-back differs: the record is written once more in the next place (R303). -/
def State.recordBad (s : State) (w : RecWrite) : State :=
  if w.retried then s.recordLost w.waiters
  else
    let w' : RecWrite := { w with retried := true }
    match s.takePlace with
    | none => (s.recordLost w.waiters).keepErased
    | some s => (s.program w').keepErased

/-- Enter the next counter epoch, which must be saved before the counter is used again (R274). -/
def State.nextEpoch (s : State) : State :=
  if 0xFFFFFF ≤ s.cph.ctrEpoch then { s with cph.ctrCount := 2 ^ 40, cph.saved := false }.raise Ev.CPH_CTR_SAVE
  else ({ s with cph.ctrEpoch := s.cph.ctrEpoch + 1, cph.ctrCount := 0, cph.saved := false }).saveRecord []

end Sys2Proof.Machine
end

