-- ==== Sys2Proof/Machine/Seal.lean ====
section
/-! DEFINITION. Chapter 14, the shared operations of the cipher engine: metadata, nonces, the seal, the checks of
decryption, pipelines and holding slots. -/
namespace Sys2Proof.Machine

/-! ### Metadata and nonces (R272, R273) -/

/-- DEVICE_TAG (R256): the twin's TWIN_ID in bit 23 and 23 bits of the serial number. -/
def State.deviceTag (s : State) : Nat := (if s.glb.twinB then 2 ^ 23 else 0) + s.glb.serial % 2 ^ 23

/-- The nonce prefix of a purpose: 1 namespace data, 2 the journal key (R273). -/
def State.prefixOf (s : State) (purpose : Nat) : Nat := s.deviceTag * 256 + purpose

/-- The nonce counter. -/
def State.ctr (s : State) : Nat := s.cph.ctrEpoch * 2 ^ 40 + s.cph.ctrCount

/-- KEY_CHECK of a key (Table 14-2). -/
def keyCheck (key : List Byte) : Nat := leAt (Config.aesZero key) 0 4

/-- The AAD of Table 14-3. -/
def aadOf (nsid lba gen keyGen check crc : Nat) : List Byte :=
  leBytes 4 nsid ++ leBytes 8 lba ++ leBytes 4 gen ++ leBytes 4 keyGen ++ leBytes 4 check ++ leBytes 4 crc ++ leBytes 4 lba

/-- Seal one block (R276, R277): ciphertext and the 64 bytes of metadata. -/
def sealBlock (key : List Byte) (keyGen prefix_ ctr nsid lba gen : Nat) (plain : List Byte) : List Byte :=
  let nonce := leBytes 4 prefix_ ++ leBytes 8 ctr
  let ct := fit 4096 (Config.gcmEncrypt key nonce plain)
  let crc := crc32c ct
  let tag := fit 16 (Config.gcmTag key nonce (aadOf nsid lba gen keyGen (keyCheck key) crc) ct)
  ct ++ nonce ++ tag ++ leBytes 4 keyGen ++ leBytes 4 (keyCheck key) ++ leBytes 4 crc ++ leBytes 4 lba ++ List.replicate 20 0

/-- The extent GEN of a map entry (Table 10-2). -/
def MapEnt.gen (m : MapEnt) : Nat := m.band % 2 ^ 24 + m.incarn * 2 ^ 24

/-- What decryption finds (R278, R279): zeros for all-zero metadata, plaintext, or the failing step. -/
inductive Opened where
  | zeros
  | plain (d : List Byte)
  | fails (step : Nat)
  deriving DecidableEq, Repr

/-- Guard, key and tag of a block under a live generation's keys (R278 steps 1, 2 and 4). -/
def openBlock (gens : List (Nat × List Byte)) (nsid lba gen : Nat) (blk : List Byte) : Opened :=
  let ct := fit 4096 blk
  let mt := fit 64 (blk.drop 4096)
  if zeroAt mt 0 64 then .zeros
  else if leAt mt 0x28 4 ≠ lba % 2 ^ 32 || leAt mt 0x24 4 ≠ crc32c ct then .fails 1
  else match gens.find? fun g => g.1 = leAt mt 0x1C 4 && keyCheck g.2 = leAt mt 0x20 4 with
    | none => .fails 2
    | some g =>
      let nonce := mt.take 12
      if fit 16 (Config.gcmTag g.2 nonce (aadOf nsid lba gen (leAt mt 0x1C 4) (leAt mt 0x20 4) (leAt mt 0x24 4)) ct) ≠
          (mt.drop 0x0C).take 16 then .fails 4
      else .plain (fit 4096 (Config.gcmDecrypt g.2 nonce ct))

def State.dataKey (s : State) (i : Nat) : DataKey := Assoc.get {} s.cph.keys i
def State.setDataKey (s : State) (i : Nat) (k : DataKey) : State := { s with cph.keys := Assoc.set {} s.cph.keys i k }

/-- The live generations of a namespace with their keys (R285). -/
def State.liveKeys (s : State) (nsid : Nat) : List (Nat × List Byte) :=
  (s.ns nsid).gens.map fun g => (g.1, (s.dataKey g.2).key)

/-- The newest generation of a namespace with its key. -/
def State.newestKey (s : State) (nsid : Nat) : Option (Nat × List Byte) :=
  ((s.ns nsid).gens.getLast?).map fun g => (g.1, (s.dataKey g.2).key)

/-- Whether at-rest encryption may run: the counter's epoch has been saved (R274). -/
def State.mayEncrypt (s : State) : Bool := s.cph.saved

/-- Take `n` consecutive nonce counters. When CTR_COUNT would wrap, the epoch advances and must be saved first (R274,
R289): `none` then. -/
def State.takeCtrs (s : State) (n : Nat) : State × Option Nat :=
  if !s.cph.saved then (s, none)
  else if 2 ^ 40 < s.cph.ctrCount + n then (s.nextEpoch, none)
  else
    let c := s.ctr
    let s := { s with cph.ctrCount := s.cph.ctrCount + n }
    (if s.cph.ctrCount = 2 ^ 40 then s.nextEpoch else s, some c)

/-! ### The seal of what stands in a member's metadata region (R287) -/

/-- Metadata page `plain` for block `lba` of a member, sealed with the journal key under nonce counter `ctr`. -/
def State.sealMeta (s : State) (member lba ctr : Nat) (plain : List Byte) : List Byte :=
  sealBlock s.cph.journalKey s.cph.journalGen (s.prefixOf 2) ctr 0xFFFFFFFE lba member plain

/-- Write copies of a metadata page: each of `ds` names the member and the block, and each copy takes a nonce counter of its own. False where
no counter may be taken. -/
def State.writeCopies (s : State) (ds : List (Nat × Nat)) (o : Nat → Nat → Nat → Out) : State × Bool :=
  match s.takeCtrs ds.length with
  | (s, none) => (s, false)
  | (s, some k) => ((ds.zip (List.range ds.length)).foldl (fun s d => s.emit (o d.1.1 d.1.2 (k + d.2))) s, true)

/-! ### Pipelines (R271, R281) -/

def State.pipe (s : State) (p : Nat) : Pipe := Assoc.get {} s.cph.pipes p

/-- The enabled pipelines of a set: 0 to 15 at rest, 16 to 31 wire. -/
def State.pipesOn (s : State) (wire : Bool) : List Nat :=
  (List.range 16).filterMap fun i =>
    let p := i + (if wire then 16 else 0)
    if (s.pipe p).disabled then none else some p

/-- With every pipeline of a set disabled the cipher engine, block 17 of Table 03-1, counts as wedged (R281). -/
def State.cipherWedged (s : State) : State :=
  s.when (s.pipesOn false = [] || s.pipesOn true = []) fun s => s.wedge (17 : Fin 22)

/-- A mismatch on a pipeline: counted, EVT_CPH_MISMATCH, and the second within MM_WINDOW disables it (R281). -/
def State.mismatch (s : State) (p op : Nat) (retried : Bool) : State :=
  let x := s.pipe p
  let ts := s.now :: x.mismatches.filter fun t => decide (s.now < t + s.fld Reg.CPH_CFG_MM_WINDOW * 1000000000)
  let off := decide (2 ≤ ts.length) && !x.disabled
  let s := { s with cph.pipes := Assoc.set {} s.cph.pipes p { mismatches := ts, disabled := x.disabled || off } }
  let s := ((s.bump Reg.CPH_MISMATCH_COUNT).bump (Reg.CPH_PIPE_ERR_MISMATCH p)).raise Ev.CPH_MISMATCH
    [p, op, if retried then 1 else 0]
  (s.raiseIf off Ev.CPH_PIPE_OFF [p]).cipherWedged

/-- Run an operation on a set: it goes to the first enabled pipeline, and after a mismatch once to another. `mism` says which
tries mismatch, `reenc` whether by the re-encryption check. False means ABORTED: both tries mismatched, or no pipeline is
enabled. A wire frame is not retried (R283). -/
def State.runPipe (s : State) (wire : Bool) (op : Nat) (mism : List Bool) (reenc : Bool) : State × Bool :=
  match s.pipesOn wire with
  | [] => (s, false)
  | p :: ps =>
    if !mism.headD false then (s, true)
    else
      let s := if reenc then s.bump Reg.CPH_REENC_FAIL_COUNT else s
      let s := s.mismatch p op (!wire)
      if wire then (s, false)
      else match ps with
        | [] => (s, false)
        | q :: _ =>
          if mism.getD 1 false then ((if reenc then s.bump Reg.CPH_REENC_FAIL_COUNT else s).mismatch q op false, false) else (s.bump Reg.CPH_RETRY_OK_COUNT, true)

/-! ### Holding slots (R282) -/

def State.slotsHeldFree (s : State) : Nat := 15104 - s.cph.held

def State.takeHold (s : State) : State :=
  let s := { s with cph.held := s.cph.held + 1 }
  { s with cph.minFree := min s.cph.minFree s.slotsHeldFree }

/-- Background work may read: a holding slot is free that no host read waits for, and BG_SLOTS admits one (R282). A background row takes and
frees its slots one at a time, within itself (log entry 129). -/
def State.bgSlot (s : State) : Bool := decide (0 < s.slotsHeldFree) && s.cph.waiting = [] && decide (0 < s.fld Reg.CPH_CFG_BG_SLOTS)

def State.freeHold (s : State) (n : Nat) : State :=
  let s := { s with cph.held := s.cph.held - n }
  if 0 < s.slotsHeldFree then { s with cph.waitRaised := false } else s

end Sys2Proof.Machine
end

