-- ==== Sys2Proof/Machine/Place.lean ====
section
/-! DEFINITION. Chapter 10 and 11, the shared operations of layout: geometry, placement, the extent map, allocation, the
write buffer, the Lost Stripe Map, and commands to drives. -/
namespace Sys2Proof.Machine

/-! ### Geometry (R169) -/

def State.geoK (s : State) : Nat := s.fld Reg.LAY_GEOM_K
def State.geoM (s : State) : Nat := s.fld Reg.LAY_GEOM_M
def State.geoW (s : State) : Nat := s.geoK + s.geoM
def State.geoN (s : State) : Nat := s.fld Reg.LAY_GEOM_N

/-- Strip length in blocks (sb). -/
def State.stripBlocks (s : State) : Nat := 4 * 2 ^ s.fld Reg.LAY_GEOM_STRIP

/-- Stripes of one extent (S). -/
def State.stripes (s : State) : Nat := (4096 + s.geoK * s.stripBlocks - 1) / (s.geoK * s.stripBlocks)

/-- Blocks of a chunk. -/
def State.chunkBlocks (s : State) : Nat := s.stripes * s.stripBlocks

def State.row (s : State) (r : Nat) : LRow := Assoc.get {} s.lay.rows r
def State.setRow (s : State) (r : Nat) (x : LRow) : State := { s with lay.rows := Assoc.set {} s.lay.rows r x }
def State.member (s : State) (d : Nat) : Member := Assoc.get {} s.reb.members d
def State.setMember (s : State) (d : Nat) (x : Member) : State := { s with reb.members := Assoc.set {} s.reb.members d x }

/-- Whether a member can be read and written. -/
def State.memberUp (s : State) (d : Nat) : Bool :=
  let t := (s.member d).st
  t = .active || t = .suspect || t = .draining

def slotKey (row band : Nat) : Nat := row * 2 ^ 24 + band

/-- The progress bit of a position of an extent slot (R199). -/
def State.progressBit (s : State) (row band p : Nat) : Bool := Assoc.get false s.lay.progress (slotKey row band * 32 + p)

def State.setProgress (s : State) (row band p : Nat) (v : Bool) : State :=
  { s with lay.progress := Assoc.set false s.lay.progress (slotKey row band * 32 + p) v }

/-- The substitution of a position (R173). -/
def LRow.subAt (x : LRow) (p : Nat) : Option Sub := x.subs.find? fun u => u.pos = p

/-! ### Placement (R173, R195) -/

/-- The member that holds position `p` of an extent, with the chunk on it: the substitute where its progress bit is set, the
home member otherwise. -/
def State.chunkOf (s : State) (row band p : Nat) : Nat × Nat :=
  let x := s.row row
  let home := (x.members.getD p 0, band * s.lay.rd.getD (x.members.getD p 0) 0 + x.ranks.getD p 0)
  match x.subAt p with
  | some u =>
    if s.progressBit row band p then (u.member, s.lay.bands * s.lay.rd.getD u.member 0 + u.slot * s.lay.bands + band) else home
  | none => home

/-- The member and member block of block `blk` of stripe `sIdx` at position `p`. -/
def State.place (s : State) (row band p sIdx blk : Nat) : Nat × Nat :=
  let (d, chunk) := s.chunkOf row band p
  (d, 524288 + chunk * s.chunkBlocks + sIdx * s.stripBlocks + blk)

/-- Whether position `p` of an extent is an erasure by its member (R194): FAILED or ABSENT, or not yet rebuilt into its home
chunk after Add Member (R210). -/
def State.erased (s : State) (row band p : Nat) : Bool :=
  !s.memberUp (s.chunkOf row band p).1 ||
    (((s.row row).rebuildHome.contains p || (s.row row).homeless.contains (band, p)) && !s.progressBit row band p)

/-- The erasures of an extent by its members. -/
def State.erasures (s : State) (row band : Nat) : List Nat := (List.range s.geoW).filter fun p => s.erased row band p

/-- Where an LBA of a volume lies: extent, stripe, data position and block offset (R173). -/
def State.locate (s : State) (lba : Nat) : Nat × Nat × Nat × Nat :=
  let o := lba % 4096
  let kb := s.geoK * s.stripBlocks
  (lba / 4096, o / kb, o % kb / s.stripBlocks, o % s.stripBlocks)

/-! ### Commands to drives -/

/-- The drive port of a member. -/
def State.portOf (s : State) (d : Nat) : Nat := s.fld (Reg.LAY_MEMBER_PORT d)

/-- Issue a command to a member's drive, its I/O queues taken round-robin among those it grants (R217). -/
def State.drive (s : State) (member : Nat) (use : DrvUse) (isRead : Bool) (lba : Nat) (o : Out) : State :=
  let t := Assoc.get 0 s.drv.turns member
  let c : DrvCmd :=
    { id := s.drv.nextId, member := member, use := use, isRead := isRead, lba := lba, at_ := s.now,
      queue := 1 + t % max 1 (s.fld (Reg.DRV_PORT_STATUS_QGRANT (s.portOf member))) }
  ({ s with drv.cmds := s.drv.cmds ++ [c], drv.nextId := s.drv.nextId + 1, drv.turns := Assoc.set 0 s.drv.turns member (t + 1) }).emit o

/-! ### The extent map (R174, R175) -/

/-- The map page of an extent, if its volume owns the segment. -/
def State.mapPageOf (s : State) (v e : Nat) : Option Nat :=
  ((s.volume v).segs[e / 65536]?).map fun g => (g * 65536 + e % 65536) / 256

/-- A map entry, 16 bytes (Table 10-2). -/
def MapEnt.bytes (m : MapEnt) : List Byte :=
  leBytes 2 m.row ++ leBytes 1 (bitOf m.alloc + 2 * bitOf m.lost) ++ [0] ++ leBytes 4 m.gen ++ leBytes 4 m.wgen ++ leBytes 4 0

/-- The 256 entries of map page `p`. -/
def State.mapPageBytes (s : State) (p : Nat) : List Byte :=
  match s.lay.volumes.find? fun v => v.2.segs.contains (p / 256) with
  | none => List.replicate 4096 0
  | some v =>
    let e := v.2.segs.idxOf (p / 256) * 65536 + p % 256 * 256
    (List.range 256).flatMap fun i => (s.mapEnt v.1 (e + i)).bytes

/-- The number by which the members of a page are chosen: of a map page its own (R175), of namespace metadata what it belongs to (log entry
128). -/
def MetaPage.index : MetaPage → Nat
  | .map p => p
  | .ns n => n
  | .host h => h
  | .volume v => v
  | .progress k => k / 2 ^ 24
  | .lostMap => 0

/-- The members that hold the three copies of page `p`, with the member block of a map page (R175). -/
def State.pageCopies (s : State) (p : Nat) : List (Nat × Nat) :=
  let n := max 1 s.geoN
  (List.range 3).map fun c => ((p + c * (n / 3)) % n, 82176 + c * ((2097152 + n - 1) / n) + p / n)

/-- The copies of a page that can be written: one on a FAILED or ABSENT member is skipped (R175). -/
def State.pageTargets (s : State) (p : MetaPage) : List (Nat × Nat) := (s.pageCopies p.index).filter fun d => s.memberUp d.1

/-- One copy of a page as it is written. -/
def State.pageOut (s : State) (p : MetaPage) (member lba ctr : Nat) : Out :=
  match p with
  | .map n => .mapPage member lba (s.sealMeta member lba ctr (s.mapPageBytes n)) s.tim.floor
  | w => .metaPage member w ctr s.tim.floor

/-- Persist a page (R175, R287): with fewer than two copies to write, or no nonce counter to take, it stays to be written. Only the holder
writes to members (R18). -/
def State.persist (s : State) (p : MetaPage) : State :=
  if !s.hrn.holder then s
  else
    let ds := s.pageTargets p
    let rest : List MetaPage := s.lay.stuckPages.filter fun x => x ≠ p
    match (if ds.length < 2 then (s, false) else s.writeCopies ds (s.pageOut p)) with
    | (s, true) => { s with lay.stuckPages := rest }
    | (s, false) => { s with lay.stuckPages := p :: rest }

/-- Write the pages that are still to be written. -/
def State.retryPages (s : State) : State := s.lay.stuckPages.foldl State.persist s

/-- Persist the map page of an extent: one that cannot be written to two copies raises EVT_LAY_MAP_PERSIST, and the writes that depend on
it wait. -/
def State.persistMap (s : State) (v e : Nat) : State :=
  match s.mapPageOf v e with
  | none => s
  | some p =>
    (s.persist (.map p)).raiseIf (s.hrn.holder && decide ((s.pageTargets (.map p)).length < 2) && !s.lay.stuckPages.contains (.map p))
      Ev.LAY_MAP_PERSIST [p]

/-- Whether the map page of an extent is still to be written. -/
def State.mapStuck (s : State) (v e : Nat) : Bool :=
  match s.mapPageOf v e with
  | none => false
  | some p => s.lay.stuckPages.contains (.map p)

/-- Tell the other twin of a change that the holder has made (R175, R213). -/
def State.tellTwin (s : State) (m : ControlMsg) : State :=
  if s.hrn.holder && s.hasPeer then s.carryChange (.controlMsg m) else s

/-- Change a map entry, persist it and tell the peer; a follower takes the holder's entries and makes none itself (R175). -/
def State.changeMap (s : State) (v e : Nat) (f : MapEnt → MapEnt) : State :=
  if s.follows then s
  else
    let m := f (s.mapEnt v e)
    ((s.setMapEnt v e m).persistMap v e).tellTwin (.mapEntry v e m.row m.band m.incarn m.wgen m.alloc m.lost)

/-! ### Allocation (R176, R175) -/

/-- Free, zeroed slots. -/
def State.slotsFree (s : State) : Nat := 4096 * s.lay.bands - s.lay.slots.length - s.lay.zeroing.length

def State.slotTaken (s : State) (row band : Nat) : Bool :=
  Assoc.get false s.lay.slots (slotKey row band) || decide (Assoc.get 0 s.lay.zeroing (slotKey row band) ≠ 0)

/-- The lowest free band of the next row from the rotating pointer (R176). -/
def State.findSlotPair (s : State) : Option (Nat × Nat) :=
  if s.slotsFree = 0 then none
  else (List.range 4096).findSome? fun i =>
    let r := (s.lay.rowAt + i) % 4096
    ((List.range s.lay.bands).find? fun b => !s.slotTaken r b).map fun b => (r, b)

/-- EVT_LAY_FREE_LOW when free slots fall below FREE_WARN. -/
def State.noteFree (s : State) : State :=
  let low := decide (s.slotsFree < (s.rg Reg.LAY_FREE_WARN_FREE_WARN.addr).toNat)
  if low && !s.lay.lowRaised then ({ s with lay.lowRaised := true }).raise Ev.LAY_FREE_LOW
  else if low then s else { s with lay.lowRaised := false }

/-- Allocate an extent; false when no slot is free. A substituted position of the row is written on its substitute from the
start (log entry 23). A follower waits for the holder's entry. -/
def State.allocExtent (s : State) (v e : Nat) : State × Bool :=
  if s.follows then (s, true)
  else match s.findSlotPair with
  | none => (s, false)
  | some (r, b) =>
    let s := { s with lay.slots := Assoc.set false s.lay.slots (slotKey r b) true, lay.rowAt := (r + 1) % 4096 }
    let s := s.changeMap v e fun m => { row := r, alloc := true, lost := false, band := b, incarn := m.incarn, wgen := 0 }
    let x := s.row r
    let s := (x.subs.filter fun u => !u.copyback).foldl (fun s u => s.setProgress r b u.pos true) s
    let s := x.rebuildHome.foldl (fun s p => s.setProgress r b p true) s
    (s.noteFree, true)

/-- Whether a stripe write of an extent has its record open. -/
def State.recordOpen (s : State) (v e : Nat) : Bool := s.sbg.stripes.any fun j => j.volume = v && j.extent = e

/-- The namespace on a volume. -/
def State.nsOf (s : State) (v : Nat) : Option Nat := (s.cmdb.nss.find? fun e => e.2.used && e.2.volume = v).map Prod.fst

/-- Zero a slot's chunks by Write Zeroes on every member that holds one (R175). -/
def State.zeroSlot (s : State) (row band : Nat) : State :=
  let ps := (List.range s.geoW).filter fun p => s.memberUp (s.chunkOf row band p).1
  let s := { s with lay.zeroing := Assoc.set 0 s.lay.zeroing (slotKey row band) ps.length }
  ps.foldl (fun s p =>
    let (d, lba) := s.place row band p 0 0
    s.drive d (.zero row band) false lba (.driveZero d lba s.chunkBlocks)) s

/-- Remove the lost entries of part of a volume (R205). -/
def State.clearLost (s : State) (v lba n : Nat) : State :=
  let l := s.cmdb.lost.filter fun x => !(x.volume = v && decide (lba ≤ x.lba) && decide (x.lba + x.n ≤ lba + n))
  if l.length = s.cmdb.lost.length then s else ({ s with cmdb.lost := l, cmdb.lostGen := s.cmdb.lostGen + 1 }).persist .lostMap

/-- Free the slot of an extent whose map entry was `m`: its progress bits clear and its chunks are zeroed before it is free again. -/
def State.dropSlot (s : State) (m : MapEnt) : State :=
  let s := { s with lay.slots := Assoc.set false s.lay.slots (slotKey m.row m.band) false }
  (List.range s.geoW).foldl (fun s p => s.setProgress m.row m.band p false) s

/-- Free an extent (R175): its map entry clears, its buffered and lost blocks go, and its slot is zeroed before it is free
again. A free that meets an open record waits for the clear (R190). On a follower only the blocks go: the holder tells the rest. -/
def State.freeExtent (s : State) (v e : Nat) : State :=
  let m := s.mapEnt v e
  let s := s.dropClean fun b => b.volume = v && b.lba / 4096 = e
  if !m.alloc then s
  else if s.follows then (s.setBuffer (s.lay.buffer.filter fun b => !(b.volume = v && b.lba / 4096 = e))).clearLost v (4096 * e) 4096
  else if s.recordOpen v e then
    { s with lay.pendingFree := if s.lay.pendingFree.contains (v, e) then s.lay.pendingFree else s.lay.pendingFree ++ [(v, e)] }
  else
    let s := s.changeMap v e fun m => { row := 0, alloc := false, lost := false, band := 0, incarn := (m.incarn + 1) % 256, wgen := 0 }
    let s := (s.dropSlot m).setBuffer (s.lay.buffer.filter fun b => !(b.volume = v && b.lba / 4096 = e))
    (s.clearLost v (4096 * e) 4096).zeroSlot m.row m.band

/-- One member has zeroed its part of a slot; with the last, the slot is free. -/
def State.zeroDone (s : State) (row band : Nat) : State :=
  let s := { s with lay.zeroing := Assoc.upd 0 s.lay.zeroing (slotKey row band) (· - 1) }
  (if Assoc.get 0 s.lay.zeroing (slotKey row band) = 0 then s.tellTwin (.zeroed row band) else s).noteFree

/-- Slots whose zeroing another twin, or this one before its reset, had under way are zeroed again (R175). -/
def State.rezero (s : State) : State :=
  (s.lay.zeroing.map Prod.fst).foldl (fun s k => s.zeroSlot (k / 2 ^ 24) (k % 2 ^ 24)) s

/-- Take over a map entry from the holder or from the members: the slot it names is in use, and one it gives up is to be zeroed. -/
def State.takeMapEntry (s : State) (v e : Nat) (m : MapEnt) : State :=
  let old := s.mapEnt v e
  let freed := old.alloc && !m.alloc
  let s := s.when (decide (old.gen ≠ m.gen) || freed) fun s => s.dropClean fun b => b.volume = v && b.lba / 4096 = e
  let z : Assoc Nat := if freed then Assoc.set 0 s.lay.zeroing (slotKey old.row old.band) 1 else s.lay.zeroing
  let s := if freed then s.dropSlot old else s
  let used : Assoc Bool := if m.alloc then Assoc.set false s.lay.slots (slotKey m.row m.band) true else s.lay.slots
  { s.setMapEnt v e m with lay.slots := used, lay.zeroing := z }

/-- The allocated extents of a volume. -/
def State.allocated (s : State) (v : Nat) : Nat := (s.volume v).map.count fun m => m.alloc

/-! ### The write buffer (R15, R16, R155) -/

/-- The blocks of writes admitted whose data is not yet buffered. -/
def State.reserved (s : State) : Nat :=
  s.cmdb.cmds.foldl (fun n e =>
    if e.2.phase = .fetching || e.2.phase = .sealing then n + (e.2.entry.cdw12 % 65536 + 1) else n) 0

/-- Whether a write of `n` blocks may be admitted under DIRTY_CAP; write-through (cap 0) admits every write. -/
def State.room (s : State) (n : Nat) : Bool := s.capBlocks = 0 || decide (s.dirty + s.reserved + n ≤ s.capBlocks)

/-- The newest visible block of an LBA in the write buffer: dirty, else clean. -/
def State.bufferedBlock (s : State) (nsid lba : Nat) : Option BufBlk :=
  match s.lay.buffer.reverse.find? fun b => b.nsid = nsid && b.lba = lba && b.visible with
  | some b => some b
  | none => s.lay.clean.find? fun b => b.nsid = nsid && b.lba = lba

/-! ### The Lost Stripe Map (R203 to R205) -/

/-- Whether a range of a volume meets a lost block. -/
def State.lostIn (s : State) (v lba n : Nat) : Bool :=
  s.cmdb.lost.any fun x => x.volume = v && decide (x.lba < lba + n) && decide (lba < x.lba + x.n)

/-- Whether a write of a range covers part, not all, of a lost range (R167). -/
def State.lostPart (s : State) (v lba n : Nat) : Bool :=
  s.cmdb.lost.any fun x => x.volume = v && decide (x.lba < lba + n) && decide (lba < x.lba + x.n) &&
    !(decide (lba ≤ x.lba) && decide (x.lba + x.n ≤ lba + n))

/-- Insert an entry in order of volume and LBA, merging contiguous ranges of one volume and cause. -/
def insertLost (x : LostEnt) : List LostEnt → List LostEnt
  | [] => [x]
  | y :: ys =>
    if y.volume = x.volume && y.cause = x.cause && y.lba + y.n = x.lba then insertLost { y with n := y.n + x.n } ys
    else if y.volume = x.volume && y.cause = x.cause && x.lba + x.n = y.lba then { y with lba := x.lba, n := x.n + y.n } :: ys
    else if x.volume < y.volume || (x.volume = y.volume && decide (x.lba < y.lba)) then x :: y :: ys
    else y :: insertLost x ys

/-- The smallest gap between neighbouring entries of one volume. -/
def lostGap : List LostEnt → Option Nat
  | x :: y :: ys =>
    let r := lostGap (y :: ys)
    if x.volume = y.volume then some (match r with
      | none => y.lba - (x.lba + x.n)
      | some g => min g (y.lba - (x.lba + x.n)))
    else r
  | _ => none

/-- Merge the first pair of neighbours whose gap is `g` into one entry that spans it. -/
def mergeLost (g : Nat) : List LostEnt → List LostEnt
  | x :: y :: ys =>
    if x.volume = y.volume && y.lba - (x.lba + x.n) = g then { x with n := y.lba + y.n - x.lba } :: ys
    else x :: mergeLost g (y :: ys)
  | l => l

/-- A full map merges the two closest entries of a volume (R205). -/
def State.coarsen (s : State) : State :=
  if s.cmdb.lost.length < 1048576 then s
  else match lostGap s.cmdb.lost with
    | none => s
    | some g => ({ s with cmdb.lost := mergeLost g s.cmdb.lost, cmdb.coarse := true }).raise Ev.RB_LSM_COARSE

/-- The read grant of a domain on a namespace. -/
def State.grantOf (s : State) (pd nsid : Nat) : Option Grant := s.xpt.grants.find? fun g => g.pd = pd && g.nsid = nsid

/-- The controllers that may read the namespace on a volume get the event of page C1h (Table 09-10). -/
def State.tellLost (s : State) (v : Nat) : State :=
  match s.nsOf v with
  | none => s
  | some n =>
    (s.ctrlsUsed.filter fun k => ((s.grantOf (s.ctrl k).pd n).map Grant.read).getD false).foldl (fun s k => s.hostEvent k 7 1 0xC1) s

/-- A block enters the map (R203): not where its newest data is buffered; LOST is set, EVT_RB_LOST raised, and the controllers
that may read the namespace get the event of page C1h. The holder decides; it tells a follower. -/
def State.loseBlock (s : State) (v lba cause : Nat) : State :=
  if s.follows || s.lay.buffer.any (fun b => b.volume = v && b.lba = lba) || s.lostIn v lba 1 then s
  else
    let s := s.coarsen
    let s := { s with cmdb.lost := insertLost ⟨v, lba, 1, cause, s.now⟩ s.cmdb.lost, cmdb.lostGen := s.cmdb.lostGen + 1 }
    let s := ((s.persist .lostMap).tellTwin (.lostRange v lba 1 cause s.now)).changeMap v (lba / 4096) fun m => { m with lost := true }
    let s := (s.bump Reg.LAY_LOST_BLOCKS_COUNT).raise Ev.RB_LOST [v, lba, 1]
    s.tellLost v

end Sys2Proof.Machine
end

