-- ==== Sys2Proof/Machine/Packets.lean ====
section
/-! DEFINITION. Chapter 07: the packets of established connections, their acknowledgement and resending, congestion
control, residency and the transport wheel. -/
namespace Sys2Proof.Machine

/-! ### Reception -/

/-- The device's queue pair number for a context. -/
def qpnOf (n : Nat) : Nat := 0x100000 + n

/-- Whether a packet passes the ESP checks of R129: the SPI of the context's incarnation, the ICV, and the 1,024-packet
anti-replay window; plaintext passes only on a connection without Sheath. -/
def Conn.espOk (c : Conn) (n : Nat) (e : Option Esp) : Bool :=
  match e with
  | none => !c.sheath
  | some x => c.sheath && x.spi = c.incarn * 2 ^ 24 + qpnOf n % 2 ^ 24 && x.icvOk && decide (c.esnHigh < x.esn + 1024) &&
      !c.esnSeen.contains x.esn

/-- Take a packet's ESN into the window. -/
def Conn.seeEsn (c : Conn) (e : Option Esp) : Conn :=
  match e with
  | none => c
  | some x =>
    let h := max c.esnHigh x.esn
    { c with esnHigh := h, esnSeen := (x.esn :: c.esnSeen).filter fun k => decide (h < k + 1024) }

/-- Whether a packet is authentic (R129): plaintext in KEYING, as espOk says otherwise; for a cross-posted packet the twin that took it in has
verified what was ESP (R249). -/
def Conn.authentic (c : Conn) (n : Nat) (p : RxPkt) : Bool :=
  match p.source with
  | some (.post _ wasEsp) => wasEsp = (c.sheath && decide (c.st ≠ .keying))
  | _ => if c.st = .keying then p.esp.isNone else c.espOk n p.esp

/-- Drop a packet that fails authentication: nothing but a counter changes (R129). -/
def State.espDrop (s : State) (n : Nat) : State := (s.bump Reg.XPT_ESP_DROP_COUNT).raise Ev.XPT_ESP_AUTH [n]

/-- What the switch or the Harness told of the packet is used up. -/
def State.forget (s : State) (p : RxPkt) : State :=
  match p.source with
  | some (.frame id) => { s with swc.handed := s.swc.handed.filter fun x => x.frame ≠ id }
  | some (.post id _) => { s with hrn.posts := s.hrn.posts.filter fun x => x.1 ≠ id }
  | none => s

/-- What is known of a packet: from the frame delivered or the cross-post taken in; a packet just taken in by this twin's ports is
cross-posted now (R249). -/
def State.infoOf (s : State) (p : RxPkt) : State × RxInfo :=
  match p.source with
  | some (.frame id) =>
    let x := (s.swc.handed.find? fun x => x.frame = id).getD { frame := id }
    (s.forget p, { x with ce := x.ce || p.ce })
  | some (.post id _) =>
    let colour := ((s.hrn.posts.find? fun x => x.1 = id).map fun x => x.2.2).getD 0
    (s.forget p, { pktId := id, ce := p.ce, colour := colour })
  | none =>
    if !s.reachesTwin then (s, { ce := p.ce })
    else
      let id := (if s.glb.twinB then 2 ^ 31 else 0) + s.hrn.pktId
      (({ s with hrn.pktId := (s.hrn.pktId + 1) % 2 ^ 31 }).sendTwin (.crosspost id (s.conn p.conn).sub 0 0 0), { pktId := id, ce := p.ce })

/-- A CE-marked packet causes at most one CNP per CNP_INTERVAL (R123). -/
def State.noteCe (s : State) (n : Nat) (ce : Bool) : State :=
  let c := s.conn n
  if ce && s.flag Reg.XPT_CFG_RP_ECN && decide (c.cnpAt ≤ s.now) then
    let s := s.setConn n { c with cnpAt := s.now + s.fld Reg.XPT_CC_A_CNP_INTERVAL * 1000 }
    (s.bump Reg.XPT_CNP_TX_COUNT).sendCtl n .cnp
  else s

/-- Acknowledge up to and not including RQ_PSN (R118). -/
def State.sendAck (s : State) (n : Nat) : State :=
  let c := s.conn n
  (s.setConn n { c with unacked := 0, ackAt := none }).sendCtl n (.ack (psnAdd c.rqPsn (2 ^ 24 - 1)) c.msn)

/-- A request has been taken in: it is acknowledged at once, or with ACK_COAL requests or ACK_DELAY ns. -/
def State.noteReq (s : State) (n : Nat) (ackReq : Bool) : State :=
  let c := s.conn n
  let s := s.setConn n { c with unacked := c.unacked + 1, ackAt := some (c.ackAt.getD (s.now + s.fld Reg.XPT_ACK_ACK_DELAY)) }
  if ackReq || s.fld Reg.XPT_ACK_ACK_COAL ≤ c.unacked + 1 then s.sendAck n else s

/-- Advance RQ_PSN and MSN past an executed request. -/
def Conn.step (c : Conn) (k : Nat) : Conn := { c with rqPsn := psnAdd c.rqPsn k, msn := psnAdd c.msn 1, nakSent := false }

/-- A protocol error: NAK Invalid Request (1) or Remote Access Error (2), and the connection enters ERROR (R107, R116). -/
def State.protoError (s : State) (n psn code : Nat) : State :=
  (s.sendCtl n (.nak psn code (s.conn n).msn) psn).connError n 4

/-! ### Commands received (R114, R115, R159) -/

/-- A command is received: its capsule has arrived or its entry has been fetched. On a frozen queue it completes with Queue
Frozen. An I/O command may be picked for a bib (R349). -/
def State.receive (s : State) (n : Nat) (e : SqEntry) (sqIndex : Nat) : State :=
  let c := s.conn n
  let g := s.tel.sampling
  let may := g.rate ≠ 0 && !g.ring.err && !c.admin && e.opcode ≠ 0x7F && (!g.tenantOnly || g.tenant = c.tenant)
  let (w, s) := if may then s.draw 32 else (0, s)
  let picked := may && w.toNat % 2 ^ g.rate = 0
  let s := if picked then s.bump Reg.TEL_SMP_TAKEN_COUNT else s
  let s := match c.ctrl with
    | some k => if c.admin then s.updCtrl k fun x => { x with katoAt := s.now + x.kato * 1000000 } else s
    | none => s
  let r : RxCmd := { entry := e, sqIndex := sqIndex, picked := picked, at_ := s.now, seen := s.cmdb.cpls }
  if c.frozen then
    ((s.updConn n fun c => { c with places := c.places - 1 }).bump Reg.CMD_FROZEN_CPL_COUNT).completeUnstarted n r 7 0x80 false
  else s.updConn n fun c => { c with rxq := c.rxq ++ [r] }

/-- The submission entry in 64 bytes (NVMe layout, keyed SGL). -/
def SqEntry.parse (b : List Byte) : SqEntry :=
  { opcode := leAt b 0 1, fctype := leAt b 4 1, cid := leAt b 2 2, nsid := leAt b 4 4, sglAddr := leAt b 24 8,
    sglLen := leAt b 32 3, sglKey := leAt b 35 4, sglType := leAt b 39 1, cdw10 := leAt b 40 4, cdw11 := leAt b 44 4,
    cdw12 := leAt b 48 4, cdw13 := leAt b 52 4, cdw14 := leAt b 56 4, cdw15 := leAt b 60 4,
    rsvd := leAt b 8 16 + leAt b 1 1 % 64 }

/-- Whether fetching and receiving are stopped: a SOLO activation runs (Table 09-6a), or the device drains (R320). -/
def State.stopped (s : State) : Bool := decide (s.cmdb.act ≠ .none) || decide (s.pwr.st = .drain)

/-- Whether write ingest is held back: a command is held for mirror headroom or dirty room, or dirty data has reached DIRTY_CAP (R17). The
twin that decides holds back. -/
def State.ingestHeld (s : State) : Bool :=
  !s.follows && ((s.cmdb.cmds.any fun e => e.2.phase = .held) || (s.capBlocks ≠ 0 && decide (s.capBlocks ≤ s.dirty)))

/-- Whether a shutdown has stopped the I/O queue that a connection carries (R163). -/
def State.shuttingDown (s : State) (n : Nat) : Bool :=
  !(s.conn n).admin && ((s.conn n).ctrl.map fun k => decide ((s.ctrl k).shn ≠ 0)).getD false

/-- Whether the fetch of a queue's entries is delayed: under R17, behind a command that a policer or a gate holds (R138, R146), or for a
shutdown. -/
def State.fetchHeld (s : State) (n : Nat) : Bool :=
  s.stopped || s.ingestHeld || s.shuttingDown n || ((s.conn n).rxq.head?.map RxCmd.held).getD false

/-- Fetch the submission entries from SQ_FETCH up to SQ_TAIL by RDMA READ, at most 64 each, in two where the range wraps
(R115). -/
def State.fetchSq (s : State) (n : Nat) : Nat → State
  | 0 => s
  | f + 1 =>
    let c := s.conn n
    if c.sqFetch = c.sqTail || c.sqSize = 0 || s.fetchHeld n then s
    else
      let avail := if c.sqFetch < c.sqTail then c.sqTail - c.sqFetch else c.sqSize - c.sqFetch
      let k := min 64 avail
      let s := s.setConn n { c with sqFetch := (c.sqFetch + k) % c.sqSize }
      (s.sendRead n (c.sqBase + 64 * c.sqFetch) c.sqRkey (64 * k) (.entries c.sqFetch k)).fetchSq n f

/-- Entries whose fetch was delayed are fetched once it is delayed no longer (R17, R138). -/
def State.resumeFetch (s : State) : State :=
  ((s.xpt.conns.filter fun e => e.2.st = .ready && e.2.pullReady && e.2.sqFetch ≠ e.2.sqTail).map Prod.fst).foldl
    (fun s n => s.fetchSq n 64) s

/-- How many completions one write may carry: 16 gathered, or one where CQ_GATHER is 0 (R115). -/
def State.gatherMost (s : State) : Nat := if s.fld Reg.XPT_ACK_CQ_GATHER = 0 then 1 else 16

/-- A pull doorbell's indices (R115): the rules of R45 for SQ_TAIL and CQ_HEAD; a bad one is discarded with EVT_XPT_PULL_BAD. Completions
that waited for a released slot are written, unless they still gather. -/
def State.pullIndices (s : State) (n tail head : Nat) : State :=
  let c := s.conn n
  let z := c.sqSize
  let back := decide ((tail + z - c.sqFetch) % z < (c.sqTail + z - c.sqFetch) % z)
  let k := (head + z - (c.cqTail + z - c.cqUsed % z) % z) % z
  if z = 0 || z ≤ tail || z ≤ head || back || c.cqUsed < k then s.raise Ev.XPT_PULL_BAD [n]
  else
    let used := if k = 0 then (if c.cqUsed = z then 0 else c.cqUsed) else c.cqUsed - k
    let s := s.setConn n { c with sqTail := tail, cqHead := head, cqUsed := used }
    let s := s.fetchSq n 64
    if c.gatherAt.isSome then s else s.flushReady n s.gatherMost (c.ready.length + 1)

/-! ### Requests in sequence -/

/-- The 16 bytes of the device region (Table 07-6). -/
def Conn.region (c : Conn) : List Byte :=
  leBytes 2 c.cqHead ++ List.replicate 6 0 ++ leBytes 2 c.sqFetch ++ leBytes 2 c.cqTail ++ List.replicate 4 0

/-- Answer a READ of the device region (R116). -/
def State.regionRead (s : State) (n psn offset length : Nat) : State :=
  s.sendCtl n (.readResp (((s.conn n).region.drop offset).take length)) psn

/-- An RNR NAK for the packet with a PSN. -/
def State.sendRnr (s : State) (n psn msn : Nat) : State := s.sendCtl n (.rnrNak psn (s.fld Reg.XPT_RETRY_RNR_TIMER) msn) psn

/-- Why a request in sequence is not executed: 0 an RNR NAK (R114, R164), 1 NAK Invalid Request (R107), 2 NAK Remote Access Error (R116). -/
def Conn.refusal (c : Conn) : ReqOp → Option Nat
  | .capsule _ => if c.pull then some 1 else if c.hsqsize ≤ c.places then some 0 else none
  | .pullSetup ty rs sq cq sb _ _ cb len =>
    if !c.pull || !c.firstSend || ty ≠ 0x10 || rs ≠ 0 || len ≠ 64 || sq < 2 || 1024 < sq || cq ≠ sq || sb % 64 ≠ 0 || cb % 16 ≠ 0 then some 1
    else none
  | .doorbell off len _ _ => if off ≠ 0 || len ≠ 8 then some 2 else if !c.pull || !c.pullReady then some 1 else none
  | .write off len => if off ≠ 0 || len ≠ 8 then some 2 else some 1
  | .read off len => if 16 < off + len then some 2 else none
  | .unsupported => some 1

/-- Execute a request at RQ_PSN that nothing refuses. -/
def State.execReq (s : State) (p : RxPkt) (op : ReqOp) : State :=
  let n := p.conn
  let c := s.conn n
  match op with
  | .capsule e =>
    let i := c.sqNext
    let s := s.setConn n { c.step 1 with places := c.places + 1, firstSend := false, sqNext := (i + 1) % max 1 c.hsqsize }
    (s.receive n e i).noteReq n p.ackReq
  | .pullSetup _ _ sq _ sb sk ck cb _ =>
    (s.setConn n { c.step 1 with firstSend := false, pullReady := true, sqBase := sb, sqRkey := sk, sqSize := sq,
                                 cqBase := cb, cqRkey := ck, sqFetch := 0, sqTail := 0, cqHead := 0, cqTail := 0,
                                 cqUsed := 0 }).noteReq n p.ackReq
  | .doorbell _ _ v imm =>
    let s := s.setConn n (c.step 1)
    let s := if 2 ^ 16 ≤ imm || 2 ^ 16 ≤ v then s.raise Ev.XPT_PULL_BAD [n] else s.pullIndices n imm v
    s.noteReq n p.ackReq
  | .read off len => (s.setConn n { c.step 1 with unacked := 0, ackAt := none }).regionRead n p.psn off len
  | .write _ _ => s
  | .unsupported => s

/-- A request before RQ_PSN (R118): a READ of the device region is executed again, any other is discarded and acknowledged. -/
def State.dupReq (s : State) (p : RxPkt) (op : ReqOp) : State :=
  match op with
  | .read off len => if off + len ≤ 16 then s.regionRead p.conn p.psn off len else s
  | _ => (s.bump Reg.XPT_DUP_RX_COUNT).sendAck p.conn

/-- A request that is answered with a NAK: out of sequence (R118), or refused. -/
def State.nakReq (s : State) (p : RxPkt) (op : ReqOp) : State :=
  let n := p.conn
  let c := s.conn n
  if s.stopped then s.sendRnr n p.psn c.msn
  else if p.psn = c.rqPsn then
    match c.refusal op with
    | some 1 => s.protoError n p.psn 1
    | some 2 => s.protoError n p.psn 2
    | _ => s.sendRnr n p.psn c.msn
  else (s.setConn n { c with nakSent := true }).sendCtl n (.nak c.rqPsn 0 c.msn) c.rqPsn

/-- The verdict on a request for a resident context, as Table 13-4 codes it: 0 accepted, 1 a duplicate, 2 dropped, 3 a NAK sent. After an RNR
NAK for want of a park place everything is dropped until its PSN comes again (R126). -/
def State.verdictOf (s : State) (p : RxPkt) (op : ReqOp) : Nat :=
  let c := s.conn p.conn
  let d := psnAhead c.rqPsn p.psn
  if c.parkDrop.isSome && c.parkDrop ≠ some p.psn then 2
  else if s.stopped then 3
  else if d = 0 then (if (c.refusal op).isSome then 3 else 0)
  else if 2 ^ 23 ≤ d then 1
  else if c.nakSent then 2 else 3

/-- Carry out a verdict. -/
def State.obey (s : State) (p : RxPkt) (op : ReqOp) (verdict : Nat) : State :=
  match verdict with
  | 0 => if ((s.conn p.conn).refusal op).isSome then s.nakReq p op else s.execReq p op
  | 1 => s.dupReq p op
  | 2 => s
  | _ => s.nakReq p op

/-- A request for a resident context. The twin that decides forms its RX entry; a follower obeys the one it was given (R246). -/
def State.requestIn (s : State) (p : RxPkt) (op : ReqOp) (x : RxInfo) (verdict : Option Nat) : State :=
  let n := p.conn
  let s := s.touch n
  let v := verdict.getD (s.verdictOf p op)
  let s := if verdict.isNone then (s.order n (.rx x.pktId p.psn v x.colour)).1 else s
  let s := if v = 2 then s else s.updConn n fun c => { c with parkDrop := none }
  s.obey p op v

/-- Park a request for a context that is not resident, or answer it with RNR NAK when its park places are full (R126). A follower parks what
the order stream has accepted. -/
def State.park (s : State) (p : RxPkt) (op : ReqOp) (x : RxInfo) (verdict : Option Nat) : State :=
  let n := p.conn
  let c := s.conn n
  let no (v : Nat) : State := (s.order n (.rx x.pktId p.psn v x.colour)).1
  if verdict.isNone && c.parkDrop.isSome && c.parkDrop ≠ some p.psn then no 2
  else if verdict.isNone && (decide (8 ≤ c.parked.length) || decide (16384 ≤ s.parkedTotal)) then
    let s := (no 3).updConn n fun c => { c with parkDrop := some p.psn }
    ((s.bump Reg.XPT_PARK_STATUS_FULL_NAK).raise Ev.XPT_PARK_FULL [n]).sendRnr n p.psn 0
  else
    let s := s.updConn n fun c => { c with parkDrop := none, parked := c.parked ++ [⟨p, op, x, verdict⟩] }
    if c.residence = .hbm then s.wantSlot n else s

/-- Take in a request: at once where its context is resident or its fate needs none, else it is parked (R126). -/
def State.takeRequest (s : State) (p : RxPkt) (op : ReqOp) (x : RxInfo) (verdict : Option Nat) : State :=
  let s := (s.noteCe p.conn x.ce).keepResident p.conn
  let now_ := s.stopped || (verdict.map fun v => decide (2 ≤ v)).getD false
  if now_ || (s.conn p.conn).residence = .resident then s.requestIn p op x verdict else s.park p op x verdict

/-! ### Packets as they arrive (R129, R248) -/

/-- Synea reinstalls a flow entry that was lost before it handles a packet of its connection (R97, R112). -/
def State.reinstall (s : State) (n : Nat) : State :=
  let k := (s.conn n).key
  if s.tableOn 1 && k ≠ [] && (s.findEntry 1 k).isNone then (s.flowInstall k n).1 else s

/-! ### Acknowledgement (R118, R119) -/

/-- ACK_DELAY has passed, or ACK_COAL requests wait. -/
def State.ackExpire (s : State) (n : Nat) : State := if (s.conn n).unacked = 0 then s else s.sendAck n

/-- When the wheel serves a deadline: the first tick at or after it (R124); never while the wheel has no slot. -/
def State.wheelAt (s : State) (t : Nat) : Option Nat :=
  s.xpt.wheelSlot.map fun k =>
    let x := s.slot k
    if t ≤ x.compare then x.compare else x.compare + (t - x.compare + x.period - 1) / max 1 x.period * x.period

/-- Let the wheel tick that serves a deadline come, and then do what it does. -/
def State.atWheel (s : State) (deadline : Option Nat) (f : State → State) : State :=
  match deadline.bind s.wheelAt with
  | some t => f (s.reach t)
  | none => s

/-- ACK_SEND (R118). -/
def execAckSend (conn : Nat) (s : State) : Host.Outcome State Fault Refusal :=
  .next <|
    let c := s.conn conn
    if c.unacked ≠ 0 && s.fld Reg.XPT_ACK_ACK_COAL ≤ c.unacked then s.ackExpire conn
    else s.atWheel c.ackAt fun s => s.ackExpire conn

/-- UNA_PSN advances past `psn`: progress clears the retries and restarts the deadline (R119). -/
def State.ackTo (s : State) (n psn : Nat) : State :=
  let c := s.conn n
  let d := psnAhead c.unaPsn psn
  if d < psnAhead c.unaPsn c.sqPsn then
    let una := psnAdd psn 1
    let s := s.setConn n { c with unaPsn := una, retries := 0, rnrRetries := 0, rnrAt := none,
                                  sent := c.sent.filter fun x => decide (d < psnAhead c.unaPsn (psnAdd x.psn (x.n - 1))) }
    s.armRetx n
  else s

/-- Re-issue the oldest READ from its first missing PSN, once per gap (R121); the twin that decides sends it (R134). -/
def State.reissueRead (s : State) (n : Nat) : State :=
  let c := s.conn n
  match c.reads with
  | [] => s
  | r :: rs =>
    if r.asked then s
    else
      let o := r.got * c.mtu
      let s := s.setConn n { c with reads := { r with asked := true } :: rs }
      if s.ordersWait n then s.armRetx n
      else ((s.bump Reg.XPT_RETX_COUNT).sendPkt n (.readReq (r.va + o) r.key (r.len - o) r.use) (psnAdd r.psn r.got)).armRetx n

/-- An acknowledgement up to `psn`. One that passes a READ whose responses have not all come shows a gap in them (R121). -/
def State.ackUpTo (s : State) (n psn : Nat) : State :=
  let c := s.conn n
  match c.reads with
  | [] => s.ackTo n psn
  | r :: _ =>
    let want := psnAdd r.psn r.got
    if psnAhead c.unaPsn want ≤ psnAhead c.unaPsn psn then (s.ackTo n (psnAdd want (2 ^ 24 - 1))).reissueRead n else s.ackTo n psn

/-! ### Resending (R119, R120) -/

/-- One packet of a resend (R120): data of a command whose completion has left goes hollow, and a completion whose data
went hollow carries Transient Transport Error. `hollow` lists the commands whose data went hollow in this resend. What is sent again later is
judged again from the packet as first built. -/
def State.resendOne (s : State) (n : Nat) (x : Sent) (hollow : List Nat) : State × List Nat :=
  let sub (u : Nat) (q : Cqe) : Cqe := if hollow.contains u then { q with sct := 0, sc := 0x22, dnr := false } else q
  let s := s.bump Reg.XPT_RETX_COUNT
  match x.body with
  | .write u _ _ _ =>
    if (s.tagOf u).isNone then ((s.bump Reg.XPT_HOLLOW_COUNT).sendPkt n .hollow x.psn, u :: hollow)
    else (s.sendPkt n x.body x.psn, hollow)
  | .cqe u q =>
    let s := if hollow.contains u then s.bump Reg.XPT_SUBST_CPL_COUNT else s
    (s.sendPkt n (.cqe u (sub u q)) x.psn (hollow.contains u), hollow)
  | .cqWrite us qs va key tail =>
    let k := (us.filter fun u => hollow.contains u).length
    let s := s.bump Reg.XPT_SUBST_CPL_COUNT k
    (s.sendPkt n (.cqWrite us ((us.zip qs).map fun r => sub r.1 r.2) va key tail) x.psn (k ≠ 0), hollow)
  | b => (s.sendPkt n b x.psn, hollow)

/-- Resend kept packets in order (R120). -/
def State.resendList (s : State) (n : Nat) : List Sent → List Nat → State
  | [], _ => s
  | x :: xs, h =>
    let r := s.resendOne n x h
    r.1.resendList n xs r.2

/-- Resend from `psn`, counting one retry; after RETRY_CNT resends without progress the connection enters ERROR (R119). The twin that decides
sends (R134). -/
def State.resend (s : State) (n psn : Nat) : State :=
  let c := s.conn n
  if s.fld Reg.XPT_RETRY_RETRY_CNT ≤ c.retries then (s.raise Ev.XPT_RETRY_EXC [n]).connError n 1
  else
    let d := psnAhead c.unaPsn psn
    let xs := c.sent.filter fun x => !decide (psnAhead c.unaPsn x.psn < d)
    let s := s.setConn n { c with retries := c.retries + 1, rnrAt := none }
    (if s.ordersWait n then s else s.resendList n xs []).armRetx n

/-- A NAK (R119): a sequence NAK resends from its PSN, an RNR NAK waits, any other puts the connection in ERROR. -/
def State.takeNak (s : State) (n psn : Nat) (code : NakCode) : State :=
  let s := if psn = (s.conn n).unaPsn then s else s.ackUpTo n (psnAdd psn (2 ^ 24 - 1))
  match code with
  | .sequence => s.resend n psn
  | .rnr w =>
    let c := s.conn n
    let lim := s.fld Reg.XPT_RETRY_RNR_RETRY
    if lim < 7 && lim ≤ c.rnrRetries then (s.raise Ev.XPT_RETRY_EXC [n]).connError n 1
    else s.setConn n { c with rnrRetries := c.rnrRetries + 1, rnrAt := some (s.now + w, psn) }
  | .remoteAccess => s.connError n 3
  | .invalidRequest => s.connError n 3

/-- RNR_WAIT_EXPIRE (R119): the RNR wait is over and the device resends from the NAK's PSN; RNR retries are counted apart. -/
def execRnrWaitExpire (conn : Nat) (s : State) : Host.Outcome State Fault Refusal :=
  .next <|
    match (s.conn conn).rnrAt with
    | none => s
    | some (t, psn) =>
      let s := (s.reach t).updConn conn fun c => { c with rnrAt := none }
      let k := (s.conn conn).retries
      (s.updConn conn fun c => { c with retries := 0 }).resend conn psn |>.updConn conn fun c =>
        if c.st = .ready then { c with retries := k } else c

/-- Whether a connection resends: in READY, and in KEYING its Sheath messages (R119). -/
def Conn.resends (c : Conn) : Bool := (c.st = .ready || c.st = .keying) && c.unaPsn ≠ c.sqPsn

/-- The retransmit deadline passes. -/
def State.retxExpire (s : State) (n : Nat) : State :=
  if (s.conn n).resends then s.resend n (s.conn n).unaPsn else s.updConn n fun c => { c with retxAt := none }

/-- RETRANSMIT_DEADLINE (R119). -/
def execRetransmitDeadline (conn : Nat) (s : State) : Host.Outcome State Fault Refusal :=
  .next <| s.atWheel (s.conn conn).retxAt fun s => s.retxExpire conn

/-! ### READ responses (R115, R121) -/

/-- The data of a command's RDMA READ has arrived: a write goes on to be encrypted; the other commands run on their data as
their own rows say. -/
def State.dataArrived (s : State) (uid : Nat) (d : List Byte) : State :=
  match s.tagOf uid with
  | none => s
  | some t =>
    let wr (c : Cmd) : Bool := !c.admin && c.entry.opcode = 0x01
    (s.updCmd t fun c => { c with data := c.data ++ d, phase := if wr c then .sealing else .decoded }).stamp t 6

/-- What a completed READ brought: submission entries become received commands, data goes to its command; a response for a
command already completed is discarded (R115, R120). -/
def State.readDone (s : State) (n : Nat) (r : ReadOp) : State :=
  match r.use with
  | .entries first k =>
    (List.range k).foldl (fun s i =>
      s.receive n (SqEntry.parse ((r.bytes.drop (64 * i)).take 64)) ((first + i) % max 1 (s.conn n).sqSize)) s
  | .data uid => s.dataArrived uid r.bytes

/-- A READ response: the next of the oldest READ is taken in; one ahead of it shows a gap (R121). -/
def State.takeReadResp (s : State) (n psn : Nat) (payload : List Byte) : State :=
  let c := s.conn n
  match c.reads with
  | [] => s
  | r :: rs =>
    let d := psnAhead (psnAdd r.psn r.got) psn
    if d = 0 then
      let r := { r with got := r.got + 1, bytes := r.bytes ++ payload, asked := false }
      let fin := decide (r.n ≤ r.got)
      let s := (s.setConn n { c with reads := if fin then rs else r :: rs }).ackUpTo n psn
      if fin then s.readDone n r else s
    else if d < 2 ^ 23 then s.reissueRead n
    else s

/-! ### Packets as they arrive (R118, R126, R129, R248) -/

/-- The verdict on an answer to the device's own requests (Table 13-4): what acknowledges nothing new is a duplicate, what comes ahead of a gap or
before UNA_PSN is dropped. -/
def State.answerVerdict (s : State) (p : RxPkt) (op : RxOp) : Nat :=
  let c := s.conn p.conn
  let new := decide (psnAhead c.unaPsn p.psn < psnAhead c.unaPsn c.sqPsn)
  match op with
  | .ack => if new then 0 else 1
  | .nak _ => if new then 0 else 2
  | .readResponse _ =>
    match c.reads.head? with
    | none => 1
    | some r =>
      let d := psnAhead (psnAdd r.psn r.got) p.psn
      if d = 0 then 0 else if d < 2 ^ 23 then 2 else 1
  | .request _ => 0

/-- Take in an answer to the device's own requests (R119, R121); a NAK before UNA_PSN is ignored. -/
def State.takeAnswer (s : State) (p : RxPkt) (op : RxOp) (x : RxInfo) (verdict : Option Nat) : State :=
  let n := p.conn
  let s := ((s.keepResident n).touch n).noteCe n x.ce
  let v := verdict.getD (s.answerVerdict p op)
  let s := if verdict.isNone then (s.order n (.rx x.pktId p.psn v x.colour)).1 else s
  match op with
  | .ack => if v = 0 then s.ackUpTo n p.psn else s
  | .nak code => if v = 0 then s.takeNak n p.psn code else s
  | .readResponse d => s.takeReadResp n p.psn d
  | .request _ => s

/-- Take in a packet whose turn has come: with the verdict that the order stream gives it, or deciding it here. -/
def State.takePacket (s : State) (p : RxPkt) (op : RxOp) (x : RxInfo) (verdict : Option Nat) : State :=
  match op with
  | .request r => if (s.conn p.conn).st = .ready then s.takeRequest p r x verdict else s
  | op => s.takeAnswer p op x verdict

/-- A follower processes a connection's packets in the order of its RX entries, as far as the packets they name have arrived (R248). -/
def State.runNamed (s : State) (n : Nat) : Nat → State
  | 0 => s
  | f + 1 =>
    match s.hrn.named.find? fun e => e.conn = n with
    | none => s
    | some e =>
      match e.kind with
      | .rx id _ v colour =>
        match s.hrn.unnamed.find? fun u => u.pkt.conn = n && u.info.pktId = id with
        | none => s
        | some u =>
          let s := { s with hrn.named := s.hrn.named.erase e, hrn.unnamed := s.hrn.unnamed.erase u }
          (s.takePacket u.pkt u.op { u.info with colour := colour } (some v)).runNamed n f
      | _ => { s with hrn.named := s.hrn.named.erase e }

/-- Whether a connection takes a packet: any in READY; in KEYING the answers to the device's Sheath messages (Table 07-3, log entry 123). -/
def Conn.takes (c : Conn) : RxOp → Bool
  | .request _ => c.st = .ready
  | _ => c.st = .ready || c.st = .keying

/-- A packet of a connection arrives. One that is not authentic changes nothing but a counter (R129). A follower holds it until the order
stream names it (R248). -/
def State.packetIn (s : State) (p : RxPkt) (op : RxOp) : State :=
  let n := p.conn
  let c := s.conn n
  if !s.flag Reg.XPT_CFG_EN || !c.takes op then s.forget p
  else if !c.authentic n p then (s.forget p).espDrop n
  else
    let r := (s.reinstall n).infoOf p
    let s := r.1.updConn n fun c => c.seeEsn p.esp
    if s.follows then
      let u : RxHeld := { pkt := p, op := op, info := r.2 }
      ({ s with hrn.unnamed := s.hrn.unnamed ++ [u] }).runNamed n s.hrn.named.length
    else s.takePacket p op r.2 none

/-- CAPSULE_RX (R114). -/
def execCapsuleRx (pkt : RxPkt) (entry : SqEntry) (s : State) : Host.Outcome State Fault Refusal :=
  .next <| s.packetIn pkt (.request (.capsule entry))

/-- PULL_SETUP_RX (R115): a message that is no Pull Setup is a protocol error. -/
def execPullSetupRx (pkt : RxPkt) (setup : ReqOp) (s : State) : Host.Outcome State Fault Refusal :=
  .next <| match setup with
    | .pullSetup ty rs sq cq sb sk ck cb len => s.packetIn pkt (.request (.pullSetup ty rs sq cq sb sk ck cb len))
    | _ => s.packetIn pkt (.request .unsupported)

/-- PULL_DOORBELL_RX (R115, R116). -/
def execPullDoorbellRx (pkt : RxPkt) (offset length value imm : Nat) (s : State) : Host.Outcome State Fault Refusal :=
  .next <| s.packetIn pkt (.request (.doorbell offset length value imm))

/-- DEVICE_REGION_READ (R116). -/
def execDeviceRegionRead (pkt : RxPkt) (offset length : Nat) (s : State) : Host.Outcome State Fault Refusal :=
  .next <| s.packetIn pkt (.request (.read offset length))

/-- RDMA_REQUEST_RX (R118). -/
def execRdmaRequestRx (pkt : RxPkt) (op : ReqOp) (s : State) : Host.Outcome State Fault Refusal :=
  .next <| s.packetIn pkt (.request op)

/-- ACK_RX (R119). -/
def execAckRx (pkt : RxPkt) (s : State) : Host.Outcome State Fault Refusal := .next <| s.packetIn pkt .ack

/-- NAK_RX (R119). -/
def execNakRx (pkt : RxPkt) (code : NakCode) (s : State) : Host.Outcome State Fault Refusal := .next <| s.packetIn pkt (.nak code)

/-- READ_RESPONSE_RX (R121). -/
def execReadResponseRx (pkt : RxPkt) (payload : List Byte) (s : State) : Host.Outcome State Fault Refusal :=
  .next <| s.packetIn pkt (.readResponse payload)

/-- CONTEXT_FETCH_DONE (R126): parked packets are processed in order before any later one; an uncorrectable error in the
context ends the connection. -/
def execContextFetchDone (conn : Nat) (eccBad : Bool) (s : State) : Host.Outcome State Fault Refusal :=
  .next <|
    let c := s.conn conn
    s.when (c.residence = .fetching) fun s =>
      let s := s.setConn conn { c with residence := .resident, parked := [] }
      if eccBad then (s.raise Ev.XPT_CTX_ECC [conn]).connError conn 5
      else c.parked.foldl (fun s r => if (s.conn conn).st = .ready then s.requestIn r.pkt r.op r.info r.verdict else s) s

/-- CONTEXT_WRITEBACK_DONE (R125): the victim's slot is reused and the waiting fetch starts. -/
def execContextWritebackDone (conn : Nat) (s : State) : Host.Outcome State Fault Refusal :=
  .next <| s.when ((s.conn conn).residence = .writeback) fun s =>
    (s.updConn conn fun c => { c with residence := .hbm }).grantSlot

/-- CQ_GATHER_EXPIRE (R115): the gathered completions go in one write. -/
def execCqGatherExpire (conn : Nat) (s : State) : Host.Outcome State Fault Refusal :=
  .next <|
    match (s.conn conn).gatherAt with
    | none => s
    | some t => ((s.reach t).updConn conn fun c => { c with gatherAt := none }).flushReady conn s.gatherMost ((s.conn conn).ready.length + 1)

/-! ### Congestion control (R122) -/

/-- Restart the rate-increase deadline. -/
def State.armRate (s : State) (n : Nat) : State :=
  s.updConn n fun c => { c with rateAt := some (s.now + s.fld Reg.XPT_CC_B_T_RI * 1000) }

/-- A CNP: the rate is cut and α raised. -/
def State.cutRate (s : State) (n : Nat) : State :=
  let c := s.conn n
  let g := s.fld Reg.XPT_CC_A_G
  let cut := c.rateCur - c.rateCur * c.alpha / 131072
  let s := s.setConn n
    { c with rateTgt := c.rateCur, rateCur := max (s.fld Reg.XPT_CC_D_MIN_RATE) cut,
             alpha := ((1024 - g) * c.alpha + g * 65536) / 1024, stage := 0, byteCnt := 0,
             alphaAt := some (s.now + s.fld Reg.XPT_CC_D_ALPHA_PERIOD * 1000) }
  s.armRate n

/-- CNP_RX (R122): a CNP for a connection that is not READY, or not resident, is discarded and counted; one for a context being written back
finds it resident again (R125). With CC_EN = 0 none has an effect. -/
def execCnpRx (pkt : RxPkt) (s : State) : Host.Outcome State Fault Refusal :=
  .next <|
    let n := pkt.conn
    let c := s.conn n
    if c.st = .ready && !c.authentic n pkt then (s.forget pkt).espDrop n
    else
      let s := (s.forget pkt).bump Reg.XPT_CNP_RX_COUNT
      s.when (c.st = .ready) fun s =>
        let s := (s.updConn n fun c => c.seeEsn pkt.esp).keepResident n
        s.when ((s.conn n).residence = .resident && s.flag Reg.XPT_CFG_CC_EN) fun s => s.cutRate n

/-- α decays after a period without a CNP; at 0 nothing is left to decay, and with CC_EN = 0 nothing decays. -/
def State.alphaExpire (s : State) (n : Nat) : State :=
  let c := s.conn n
  let a := (1024 - s.fld Reg.XPT_CC_A_G) * c.alpha / 1024
  if !s.flag Reg.XPT_CFG_CC_EN then s.setConn n { c with alphaAt := none }
  else s.setConn n { c with alpha := a, alphaAt := if a = 0 then none else some (s.now + s.fld Reg.XPT_CC_D_ALPHA_PERIOD * 1000) }

/-- ALPHA_PERIOD_EXPIRE (R122). -/
def execAlphaPeriodExpire (conn : Nat) (s : State) : Host.Outcome State Fault Refusal :=
  .next <| s.atWheel (s.conn conn).alphaAt fun s => s.alphaExpire conn

/-- A recovery stage (R122): fast recovery for F stages, then additive and hyper increase. The deadline stops once the rate
has reached the line (log entry 22). -/
def State.rateStep (s : State) (n : Nat) : State :=
  let c := s.conn n
  let f := s.fld Reg.XPT_CC_A_F
  let st := c.stage + 1
  let line := s.lineRate c
  let tgt := if 2 * f < st then min line (c.rateTgt + s.fld Reg.XPT_CC_C_R_HAI)
    else if f < st then min line (c.rateTgt + s.fld Reg.XPT_CC_C_R_AI) else c.rateTgt
  let cur := (c.rateCur + tgt) / 2
  let s := s.setConn n { c with stage := st, byteCnt := 0, rateTgt := tgt, rateCur := cur }
  if cur = line then s.updConn n fun c => { c with rateAt := none } else s.armRate n

/-- The rate-increase deadline of a connection passes, or its byte count is reached; with CC_EN = 0 neither has an effect. -/
def State.rateExpire (s : State) (n : Nat) : State :=
  if s.flag Reg.XPT_CFG_CC_EN then s.rateStep n else s.updConn n fun c => { c with rateAt := none }

/-- Whether BYTE_CNT has reached B_RI on a connection whose rate recovers. -/
def State.bytesDue (s : State) (c : Conn) : Bool := c.rateAt.isSome && decide (s.fld Reg.XPT_CC_B_B_RI * 1024 ≤ c.byteCnt)

/-- RATE_INCREASE (R122): the deadline passes, or BYTE_CNT has reached B_RI. -/
def execRateIncrease (conn : Nat) (s : State) : Host.Outcome State Fault Refusal :=
  .next <|
    let c := s.conn conn
    if s.bytesDue c then s.rateExpire conn else s.atWheel c.rateAt fun s => s.rateExpire conn

/-- CC_EN has been set: α decays and rates recover from now on. -/
def State.resumeRates (s : State) : State :=
  ((s.xpt.conns.filter fun e => e.2.st = .ready).map Prod.fst).foldl (fun s n =>
    let s := s.updConn n fun c =>
      { c with alphaAt := if c.alpha = 0 then none else some (s.now + s.fld Reg.XPT_CC_D_ALPHA_PERIOD * 1000) }
    if (s.conn n).rateCur < s.lineRate (s.conn n) then s.armRate n else s) s

/-- A change of XPT_CFG from state `s` to `t`: congestion control resumes when CC_EN has become 1. -/
def State.ccResumed (s t : State) : State :=
  if !s.flag Reg.XPT_CFG_CC_EN && t.flag Reg.XPT_CFG_CC_EN then t.resumeRates else t

/-! ### The wheel (R124) -/

/-- Whether a deadline has come. -/
def dueBy (t : Option Nat) (now : Nat) : Bool :=
  match t with
  | some x => decide (x ≤ now)
  | none => false

/-- The due deadlines of one connection: retransmit, ACK delay, α, rate. -/
def State.wheelConn (s : State) (n : Nat) : State :=
  let s := if dueBy (s.conn n).retxAt s.now then s.retxExpire n else s
  let s := if dueBy (s.conn n).ackAt s.now then s.ackExpire n else s
  let s := if dueBy (s.conn n).alphaAt s.now then s.alphaExpire n else s
  if dueBy (s.conn n).rateAt s.now || s.bytesDue (s.conn n) then s.rateExpire n else s

/-- WHEEL_TICK (R124): the wheel's slot fires and every due deadline is processed; a tick that comes a period late raises
EVT_XPT_WHEEL_LATE. -/
def execWheelTick (s : State) : Host.Outcome State Fault Refusal :=
  .next <|
    match s.xpt.wheelSlot with
    | none => s
    | some k =>
      let x := s.slot k
      let late := x.period ≠ 0 && decide (x.compare + x.period ≤ s.now)
      let s := (s.fire k).raiseIf late Ev.XPT_WHEEL_LATE
      (s.xpt.conns.map Prod.fst).foldl State.wheelConn s

end Sys2Proof.Machine
end

