-- ==== Sys2Proof/Machine/Identity.lean ====
section
/-! DEFINITION. Chapter 15: what the device measures, the identity keys derived from it, and the certificates over them. -/
namespace Sys2Proof.Machine

/-- Measurement block `i` (Table 15-4). -/
def State.measurement (s : State) (i : Nat) : List Byte :=
  match i with
  | 1 => Config.romDigest
  | 2 => s.sec.run.stages.getD 0 []
  | 3 => s.sec.run.stages.getD 1 []
  | 4 => s.sec.run.stages.getD 2 []
  | 5 => Config.sha256 (leBytes 1 s.sec.fuse ++ leBytes 1 s.sec.run.svn)
  | 6 => Config.sha256 (leBytes 2 s.sec.admins.toNat ++ s.sec.adminKeys.flatMap fun e => e.2.drop 4)
  | 7 => match s.tck.ext with
    | some x => x.digest
    | none => List.replicate 32 0
  | _ => Config.sha256 (s.tck.keys.flatMap fun e =>
      leBytes 1 e.1 ++ leBytes 4 e.2.rsaE ++ leBytes 4 e.2.floor ++ e.2.rsaN ++ e.2.mldsa)

/-- Measurement blocks 1 to `n`. -/
def State.blocks (s : State) (n : Nat) : List (List Byte) := (List.range n).map fun i => s.measurement (i + 1)

/-- The seed of the alias pairs: the root key, and blocks 1 to 5 as they stand (R299). -/
def State.aliasSeed (s : State) : List Byte := rootSeed (ascii "ALIAS1" ++ (s.blocks 5).flatten)

/-- The seed of the key-encapsulation pairs (Table 15-6). -/
def kekSeed : List Byte := rootSeed (ascii "KEK1")

/-- The seed of the pairs that the chain of a certificate slot ends in (Table 15-5). -/
def State.slotSeed (s : State) (slot : Nat) : List Byte := if slot = 0 then devIdSeed else if slot = 1 then s.aliasSeed else kekSeed

/-- The certificate chain of a slot (R298, R299): slot 0 is the chain the flash header keeps; slots 1 and 2 add a certificate signed by the
DevID keys, which for the alias keys carries blocks 1 to 5. -/
def State.chain (s : State) (slot : Nat) : List Byte :=
  if slot = 0 then Config.devIdChain
  else Config.devIdChain ++ Config.certificate (s.slotSeed slot) devIdSeed (if slot = 1 then s.blocks 5 else [])

/-- Both signatures of a slot's keys over a transcript hash (R298). -/
def State.signBoth (s : State) (slot : Nat) (th : List Byte) : List Byte × List Byte :=
  (beBytes 384 (Config.rsaSign (s.slotSeed slot) th).toNat, beBytes 3309 (Config.mldsaSign (s.slotSeed slot) th).toNat)

end Sys2Proof.Machine
end

