-- ==== Sys2Proof/Machine/Connect.lean ====
section
/-! DEFINITION. Chapter 07: neighbour requests, connection management, Sheath keying, and the states of a connection. -/
namespace Sys2Proof.Machine

/-- NEIGHBOUR_REQUEST_RX (R108): an ARP or neighbour solicitation for a live local address is answered on its sub-port. -/
def execNeighbourRequestRx (addr : Fin 16) (sub : Nat) (s : State) : Host.Outcome State Fault Refusal :=
  .next <| s.when (s.flag (Reg.XPT_IP_CFG_VALID addr) && (s.subPort sub).up) fun s =>
    let cls := s.fld Reg.QOS_CFG_CTRL_CLASS
    s.launch { id := 0, sub := sub, queue := egressQueue sub cls, len := 64, cells := 1, cls := cls, body := .neighbour }

/-- The lowest idle context (R109). -/
def State.freeConn (s : State) : Option Nat :=
  (List.range (min 65536 (s.xpt.conns.length + 1))).find? fun n => (s.conn n).st = .idle

/-- The sub-port of a local address (XPT_IP_CFG). -/
def State.subOfAddr (s : State) (a : Nat) : Nat := s.fld (Reg.XPT_IP_CFG_PORT a) * 4 + s.fld (Reg.XPT_IP_CFG_SUB a)

/-- The refusal of a REQ: REJ with its reason and EVT_XPT_CONN_REFUSED (R109). -/
def State.refuseReq (s : State) (r : CmReq) (reason : Nat) : State :=
  let (sub, mac, tagged) := s.route r.key (s.subOfAddr r.addr) r.tagged
  let cls := s.fld Reg.QOS_CFG_CTRL_CLASS
  let b := Body.rej reason
  let len := frameLen { ipv6 := r.ipv6, tagged := tagged } b false
  (s.raise Ev.XPT_CONN_REFUSED [reason]).launch
    { id := 0, sub := sub, queue := egressQueue sub cls, len := len, cells := cellsOf len, cls := cls, body := b, mac := mac }

/-- Whether the egress policy of a tenant allows TANDEM (R251). -/
def State.tandemAllowed (s : State) (tenant : Nat) : Bool :=
  match Assoc.get 0 s.hrn.tandemTenant tenant with
  | 1 => true
  | 2 => false
  | _ => s.hrn.tandemDefault

/-- A valid connect extension (Table 07-2). -/
def extValid (e : ConnExt) : Bool := e.magic = 0x504C && e.version = 1 && e.rsvd = 0

/-- The options granted to a REQ: a Discovery connection takes none; TANDEM needs TANDEM_SAFE and the egress policy; FREEZE
is cleared on an admin queue connection (R109, R133, R152). -/
def State.grantOptions (s : State) (r : CmReq) (disc : Bool) (tenant : Nat) : ConnExt :=
  match r.ext with
  | none => { magic := 0x504D }
  | some e =>
    if !extValid e then { magic := 0x504D }
    else if disc then { magic := 0x504D, sheath := e.sheath }
    else { magic := 0x504D, pull := e.pull, tandemSafe := e.tandemSafe,
           tandemReq := e.tandemReq && e.tandemSafe && s.tandemAllowed tenant, freeze := e.freeze && r.qid ≠ 0, sheath := e.sheath }

/-- A flow key in its 40 bytes. -/
def flowKey (k : List Byte) : List Byte := (k ++ List.replicate 40 0).take 40

/-- The tenant of a context that has none, and a domain that holds no grant: the numbers of tenants end at 1,023 and of domains at 4,095
(R133; log entry 124). -/
def noTenant : Nat := 0xFFFF
def noDomain : Nat := 0xFFFF

/-- The enrolled host of a REQ. -/
def State.reqHost (s : State) (req : CmReq) : HostEnt :=
  match req.host with
  | some k => Assoc.get {} s.xpt.hosts k
  | none => {}

/-- The context of an admitted REQ: what REQ, extension and host give, and what was drawn for it: the first PSN sent, and the place of its
device region. -/
def State.reqConn (s : State) (req : CmReq) (old : Conn) (psn dbVa dbRkey : Nat) : Conn :=
  let h := s.reqHost req
  let o := s.grantOptions req (!h.used) h.tenant
  { st := .reqRcvd, pull := o.pull, tandem := o.tandemReq, freeze := o.freeze, sheath := o.sheath,
    tandemSafe := o.tandemSafe, tandemRefused := (req.ext.map ConnExt.tandemReq).getD false && !o.tandemReq,
    pmtu := min req.pmtu (s.fld Reg.XPT_CFG_PMTU_MAX), incarn := if old.incarn = 255 then 1 else old.incarn + 1,
    pd := if h.used then h.pd else noDomain,
    host := if h.used then req.host else none, tenant := if h.used then h.tenant else noTenant, qid := req.qid, peerQpn := req.peerQpn,
    sqPsn := psn, unaPsn := psn, rqPsn := req.psn, addr := req.addr, sub := s.subOfAddr req.addr, ipv6 := req.ipv6,
    tagged := req.tagged, key := flowKey req.key, hsqsize := max 1 req.hsqsize, dbVa := dbVa, dbRkey := dbRkey,
    cmAt := some (s.now + s.fld Reg.XPT_TMO_CM_TMO * 1000000) }

/-- A new context needs no fetch. -/
def State.residentNow (s : State) (n : Nat) : State :=
  if (s.conn n).residence = .fetching then s.updConn n fun c => { c with residence := .resident } else s

/-- Put the context of a REQ in place. -/
def State.openConn (s : State) (req : CmReq) (n psn dbVa dbRkey : Nat) : State :=
  (((s.setConn n (s.reqConn req (s.conn n) psn dbVa dbRkey)).reclaim).wantSlot n).residentNow n

/-- The extension of a REP: the options granted, with the device region's place in pull mode; none where the REQ had no valid one (R109). -/
def State.repExt (s : State) (req : CmReq) (c : Conn) : Option ConnExt :=
  if (req.ext.map extValid).getD false then
    let h := s.reqHost req
    some { s.grantOptions req (!h.used) h.tenant with dbVa := if c.pull then c.dbVa else 0, dbRkey := if c.pull then c.dbRkey else 0 }
  else none

/-- Admit a REQ to context `n`, whose flow entry stands: what is drawn for it goes to the other twin (R113), and the REP names its PSN. -/
def State.admitReq (s : State) (req : CmReq) (n : Nat) : State :=
  let (psn, s) := s.random 24
  let (va, s) := s.draw 64
  let (key, s) := s.draw 32
  let s := s.openConn req n psn.toNat va.toNat key.toNat
  let s := if s.hasPeer then s.sendTwin (.controlMsg (.connection n req psn.toNat va.toNat key.toNat)) else s
  s.sendCtl n (.rep (s.repExt req (s.conn n)) psn.toNat (s.conn n).pmtu)

/-- Install the flow entry of a REQ and admit it, or refuse it where the table is full. -/
def State.installReq (s : State) (req : CmReq) (n : Nat) : State :=
  let r := s.flowInstall (flowKey req.key) n
  if r.2 = 0 then r.1.admitReq req n else r.1.refuseReq req 3

/-- CM_REQ_RX (R109): the checks in order; an admitted REQ gets a REP and enters REQ_RCVD. A host enrolled without
PLAINTEXT_OK whose REQ lacks SHEATH, and a plaintext REQ of no enrolled host where DISC_PLAIN is 0, are rejected with
Consumer Reject (log entry 19). A follower leaves the REQ to the twin that decides. -/
def execCmReqRx (req : CmReq) (s : State) : Host.Outcome State Fault Refusal :=
  .next <| s.when (s.flag Reg.XPT_CFG_EN && s.flag (Reg.XPT_IP_CFG_VALID req.addr) && s.clk.bootDone && !s.follows) fun s =>
    let h := s.reqHost req
    let disc := !h.used
    let sheath := (s.grantOptions req disc h.tenant).sheath
    if !s.clk.ioReady || s.pwr.st = .sleep || s.pwr.st = .deep then s.refuseReq req 3
    else if !sheath && (if disc then !s.flag (Reg.XPT_IP_CFG_DISC_PLAIN req.addr) else !h.plaintextOk) then s.refuseReq req 28
    else match s.freeConn with
      | none => s.refuseReq req 1
      | some n => if s.slotObtainable then s.installReq req n else s.refuseReq req 3

/-- Entry to READY (R110, R122): EVT_XPT_CONN_UP; the rate starts at the line with α = 1, which decays from now on. -/
def State.enterReady (s : State) (n : Nat) : State :=
  let s := s.updConn n fun c =>
    { c with st := .ready, cmAt := none, keyAt := none, rateCur := s.lineRate c, rateTgt := s.lineRate c, alpha := 65536,
             alphaAt := if s.flag Reg.XPT_CFG_CC_EN then some (s.now + s.fld Reg.XPT_CC_D_ALPHA_PERIOD * 1000) else none }
  s.raise Ev.XPT_CONN_UP [n]

/-- A connection is about to be admitted: the CONNECT hook decides where it runs (Table 04-6). -/
def State.admitConn (s : State) (n : Nat) : State :=
  if s.hookOn 0 then s.invokeHook 0 n
  else if s.hookRefuses 0 then s.closeConn n 5
  else s.enterReady n

/-- CM_RTU_RX (R110). -/
def execCmRtuRx (conn : Nat) (s : State) : Host.Outcome State Fault Refusal :=
  .next <|
    let c := s.conn conn
    s.when (c.st = .reqRcvd) fun s =>
      if c.sheath then
        s.setConn conn { c with st := .keying, cmAt := none, keyAt := some (s.now + s.fld Reg.XPT_TMO_KEY_TMO * 1000000) }
      else s.admitConn conn

/-- CLOSED: the flow entry is deleted and QUIET_TMO starts (R110, R111). -/
def State.enterClosed (s : State) (n : Nat) : State :=
  let c := s.conn n
  let s := s.setConn n { c with st := .closed, cmAt := none, quietAt := some (s.now + s.fld Reg.XPT_TMO_QUIET_TMO * 100000000) }
  let s := s.tblDelete 1 c.key
  match c.host with
  | some h =>
    if s.hostClosed h then
      match s.waiting fun x => x.desc.opcode.toNat = 0x0205 && leAt x.payload 0 2 = h with
      | some x => s.holderDone x
      | none => s
    else s
  | none => s

/-- CM_DREQ_RX (R110, Table 07-3): a READY connection closes, and DREP answers; a CLOSING one answers again. -/
def execCmDreqRx (conn : Nat) (s : State) : Host.Outcome State Fault Refusal :=
  .next <|
    let c := s.conn conn
    if c.st = .ready then (s.close conn 0).sendCtl conn .drep
    else if c.st = .closing then s.sendCtl conn .drep
    else s

/-- CM_DREP_RX (R110). -/
def execCmDrepRx (conn : Nat) (s : State) : Host.Outcome State Fault Refusal :=
  .next <| s.when ((s.conn conn).st = .closing) fun s => s.enterClosed conn

/-- CM_TMO_EXPIRE (R110): REQ_RCVD goes to IDLE without RTU, CLOSING to CLOSED without DREP. -/
def execCmTmoExpire (conn : Nat) (s : State) : Host.Outcome State Fault Refusal :=
  .next <|
    let c := s.conn conn
    match c.cmAt with
    | none => s
    | some t =>
      let s := s.reach t
      if c.st = .reqRcvd then ((s.tblDelete 1 c.key).setConn conn { incarn := c.incarn }).grantSlot
      else if c.st = .closing then s.enterClosed conn
      else s

/-- QUIET_TMO_EXPIRE (R110): the context returns to IDLE; its resident slot is free. -/
def execQuietTmoExpire (conn : Nat) (s : State) : Host.Outcome State Fault Refusal :=
  .next <|
    let c := s.conn conn
    match c.quietAt with
    | none => s
    | some t => s.when (c.st = .closed) fun s => ((s.reach t).setConn conn { incarn := c.incarn }).grantSlot

/-! ### Sheath (R127, R128) -/

/-- Whether a message has a TYPE, the size its table gives it, VERSION 1, zero reserved bytes and its length in LEN. -/
def sheathShape (m : SheathMsg) (type size : Nat) : Bool :=
  m.bytes.length = size && leAt m.bytes 0 1 = type && leAt m.bytes 1 1 = 1 && zeroAt m.bytes 2 2 && beAt m.bytes 4 4 = size

/-- The header of a Sheath message: TYPE, VERSION 1, two zero bytes and LEN. -/
def sheathHead (type len : Nat) : List Byte := leBytes 1 type ++ [1, 0, 0] ++ beBytes 4 len

/-- Send a Sheath message as SEND First, Middle and Last packets of one path MTU each, or as one SEND Only (Table 07-1). -/
def State.sendMsg (s : State) (n : Nat) (first : Bool) : Nat → List Byte → State
  | 0, _ => s
  | f + 1, m =>
    let mtu := (s.conn n).mtu
    let last := decide (m.length ≤ mtu)
    let op := if first then (if last then 4 else 0) else if last then 2 else 1
    let s := s.sendReq n (.sheath op (m.take mtu)) 1
    if last then s else s.sendMsg n false f (m.drop mtu)

/-- Keying ends (R127, R128): K5 with its reason, EVT_XPT_KEY_FAIL, KEY_FAIL, and the connection closes. -/
def State.keyFail (s : State) (n reason : Nat) : State :=
  let s := (s.bump Reg.XPT_KEY_FAIL_COUNT).raise Ev.XPT_KEY_FAIL [n, reason]
  (s.sendMsg n true 1 (sheathHead 5 12 ++ beBytes 4 reason)).closeConn n 6

/-- The device's inbound SPI: (INCARN × 2^24) + QPN (R129). -/
def Conn.spi (c : Conn) (n : Nat) : Nat := c.incarn * 2 ^ 24 + qpnOf n % 2 ^ 24

/-- The requests of a message of `k` packets have been taken in. -/
def State.noteMsg (s : State) (n k : Nat) : State :=
  (s.updConn n fun c => { c with rqPsn := psnAdd c.rqPsn k, msn := psnAdd c.msn 1, unacked := c.unacked + (k - 1) }).noteReq n false

/-- SHEATH_K1_RX (R127): K1 in its turn is answered with K2 under a fresh nonce and encapsulation key. A follower leaves keying to the twin
that decides. -/
def execSheathK1Rx (conn : Nat) (msg : SheathMsg) (s : State) : Host.Outcome State Fault Refusal :=
  .next <|
    let c := s.conn conn
    s.when (c.st = .keying && !s.sec.stopped && !s.follows) fun s =>
      let s := s.noteCe conn msg.ce
      if c.k2Sent || !sheathShape msg 1 60 || !zeroAt msg.bytes 0x38 4 then s.keyFail conn 2
      else
        let (nd, s) := s.random 256
        let (seed, s) := s.random 512
        let nd := beBytes 32 nd.toNat
        let k2 := sheathHead 2 1232 ++ nd ++ beBytes 4 (c.spi conn) ++ List.replicate 4 0 ++
          beBytes 1184 (Config.mlKemKey (beBytes 64 seed.toNat)).toNat
        let s := (s.noteMsg conn (c.respPackets 60)).updConn conn fun c => { c with k1 := msg.bytes, nd := nd, k2 := k2, k2Sent := true }
        s.sendMsg conn true 5 k2

/-- The enrolled host whose HOST_ID a K1 carries. -/
def State.hostOfId (s : State) (id : List Byte) : Option Nat :=
  (s.xpt.hosts.find? fun e => e.2.used && e.2.hostId = id).map Prod.fst

/-- th1 of R128. -/
def Conn.th1 (c : Conn) (k3 : List Byte) : List Byte := Config.sha256 (c.k1 ++ c.k2 ++ k3.take 0x5D0)

/-- The 136 bytes of okm (R128): the KDF keyed by HMAC-SHA-256 with salt nh ‖ nd over z. -/
def Conn.okmOf (c : Conn) (k3 ssKem ssRsa : List Byte) : List Byte :=
  derive 136 ((c.k1.drop 8).take 32 ++ c.nd) (ssKem ++ ssRsa) (ascii "SHEATH1" ++ c.th1 k3)

/-- CONFIRM_H as the device computes it. -/
def Conn.confirmH (c : Conn) (k3 okm : List Byte) : List Byte :=
  beBytes 32 (Config.hmacSha256 ((okm.drop 72).take 32) (c.th1 k3)).toNat

/-- K4 (Table 07-8): the device signs th3 with its alias keys (R300) and confirms it. -/
def State.k4Of (s : State) (c : Conn) (k3 okm : List Byte) : List Byte :=
  let th3 := Config.sha256 (c.k1 ++ c.k2 ++ k3)
  let sigs := s.signBoth 1 th3
  sheathHead 4 3733 ++ sigs.1 ++ sigs.2 ++ beBytes 32 (Config.hmacSha256 ((okm.drop 104).take 32) th3).toNat

/-- The flow key of a connection's ESP packets (R129): PROTO 50, no UDP ports, and the SPI's low 24 bits. -/
def espKey (key : List Byte) (spi : Nat) : List Byte := key.take 0x20 ++ [0, 0, 0, 0, 50] ++ beBytes 3 spi

/-- A connection is keyed: its host, and both SAs (R128); its packets are ESP from now on, under their own flow key (R129). -/
def State.installSas (s : State) (n host spi : Nat) (okm : List Byte) : State :=
  let e : HostEnt := Assoc.get {} s.xpt.hosts host
  let c := s.conn n
  let key := espKey c.key (c.spi n)
  let s := ((s.tblDelete 1 c.key).flowInstall key n).1
  s.setConn n { c with host := some host, pd := e.pd, tenant := e.tenant, spiPeer := spi, okm := okm.take 72, key := key, esnOut := 1,
                       esnHigh := 0, esnSeen := [] }

/-- SHEATH_K3_RX (R128): the five checks in order; then K4 is sent and both SAs are installed on both twins. -/
def execSheathK3Rx (conn : Nat) (msg : SheathMsg) (s : State) : Host.Outcome State Fault Refusal :=
  .next <|
    let c := s.conn conn
    s.when (c.st = .keying && !s.sec.stopped && !s.follows) fun s =>
      let s := s.noteCe conn msg.ce
      if !c.k2Sent then s.keyFail conn 2
      else match s.hostOfId ((c.k1.drop 0x28).take 16) with
        | none => s.keyFail conn 1
        | some h =>
          if !sheathShape msg 3 5213 || beAt msg.bytes 8 4 < 256 || !zeroAt msg.bytes 0x0C 4 then s.keyFail conn 2
          else match msg.ssRsa with
            | none => s.keyFail conn 2
            | some ssRsa =>
              let okm := c.okmOf msg.bytes msg.ssKem ssRsa
              if (msg.bytes.drop 0x5D0).take 32 ≠ c.confirmH msg.bytes okm then s.keyFail conn 3
              else if !msg.sigOk then s.keyFail conn 4
              else
                let spi := beAt msg.bytes 8 4
                let s := (s.noteMsg conn (c.respPackets 5213)).sendMsg conn true 16 (s.k4Of c msg.bytes okm)
                let s := s.installSas conn h spi okm
                let c := s.conn conn
                let s := if s.hasPeer then s.sendTwin (.controlMsg (.keyed conn h spi c.okm c.sqPsn c.rqPsn c.msn)) else s
                s.admitConn conn

/-- KEY_TMO_EXPIRE (R128). -/
def execKeyTmoExpire (conn : Nat) (s : State) : Host.Outcome State Fault Refusal :=
  .next <|
    let c := s.conn conn
    match c.keyAt with
    | none => s
    | some t => s.when (c.st = .keying) fun s => (s.reach t).keyFail conn 5

/-! ### Aged and lost flow entries (R112) -/

/-- A flow entry was lost: the transport closes an idle READY connection, and reinstalls the entry of one with commands in
flight. `aged` is false for eviction and ECC, after which the entry is reinstalled. -/
def State.flowLost (s : State) (n : Nat) (aged : Bool) : State :=
  let c := s.conn n
  if c.st = .idle || c.st = .closed then s
  else if aged && c.inflight = 0 && c.rxq = [] && c.st = .ready then s.close n 7
  else (s.flowInstall c.key n).1

end Sys2Proof.Machine
end

