-- ==== Sys2Proof/Machine/Cmds.lean ====
section
/-! DEFINITION. Chapter 09, the shared operations of commands: the start and its holds, decode in the order of Table 09-3,
grants, reservations, locks, memory keys, and what completes when something else has finished. -/
namespace Sys2Proof

/-- Blocks a read, write or Write Zeroes names. -/
def SqEntry.nlb (e : SqEntry) : Nat := e.cdw12 % 65536 + 1

/-- The first LBA a command names. -/
def SqEntry.slba (e : SqEntry) : Nat := e.cdw10 + e.cdw11 * 2 ^ 32

namespace Machine

/-- Whether this twin serves hosts: it is ACTIVE or SOLO with the holder role, or follows one. -/
def State.serving (s : State) : Bool := (s.hrn.holder || s.follows) && s.hrn.role ≠ .fenced

/-- The opcodes of Table 09-1 on an I/O queue. -/
def ioOpcodes : List Nat := [0x00, 0x01, 0x02, 0x08, 0x09, 0x0D, 0x0E, 0x11, 0x15]

/-- The opcodes of Table 09-1 on an admin queue, Fabrics apart. -/
def adminOpcodes : List Nat := [0x02, 0x06, 0x08, 0x09, 0x0A, 0x0C, 0x18, 0xC4, 0xC5, 0xC6]

/-! ### Namespaces, grants, reservations, locks -/

/-- Whether a namespace exists for commands that decode now. -/
def State.nsExists (s : State) (n : Nat) : Bool := (s.ns n).used && !(s.ns n).deleting

/-- Whether a domain holds a grant on a namespace with the access asked for that has not reached EXPIRY (R132). -/
def State.granted (s : State) (pd nsid : Nat) (needR needW : Bool) : Bool :=
  match s.grantOf pd nsid with
  | none => false
  | some g => (!needR || g.read) && (!needW || g.write) && (g.expiry = 0 || decide (s.now < g.expiry))

/-- Whether a lock has not expired: the floor, and in a twin shelf the other twin's floor, have not passed its release time (R34). -/
def State.lockLive (s : State) (l : RetLock) : Bool :=
  !l.expired && decide ((if s.twinShelf then min s.tim.floor s.tim.peerFloor else s.tim.floor) ≤ l.release)

/-- The locks of a namespace that have not expired. -/
def State.liveLocks (s : State) (nsid : Nat) : List RetLock := s.sec.locks.filter fun l => l.nsid = nsid && s.lockLive l

/-- Whether a range meets a locked range. -/
def State.locked (s : State) (nsid lba n : Nat) : Bool :=
  (s.liveLocks nsid).any fun l => decide (l.slba < lba + n) && decide (lba < l.slba + l.nlb)

def Ns.registered (x : Ns) (h : Nat) : Bool := x.regs.any fun r => r.1 = h

/-- Whether a host holds the reservation; with the all-registrants types every registrant does. -/
def Ns.holds (x : Ns) (h : Nat) : Bool := x.rtype ≠ 0 && (if 5 ≤ x.rtype then x.registered h else x.rholder = some h)

/-- Whether a reservation allows a host's command (R165, NVMe): 1 Write Exclusive, 2 Exclusive Access, 3 and 4 the same for
registrants only, 5 and 6 for all registrants. -/
def Ns.allows (x : Ns) (h : Nat) (isWrite : Bool) : Bool :=
  match x.rtype with
  | 0 => true
  | 1 => !isWrite || x.holds h
  | 2 => x.holds h
  | 3 => !isWrite || x.registered h
  | 5 => !isWrite || x.registered h
  | _ => x.registered h

/-! ### What a command needs -/

/-- Whether an I/O opcode reads or writes a namespace. -/
def opReads (op : Nat) : Bool := op = 0x02
def opWrites (op : Nat) : Bool := op = 0x01 || op = 0x08 || op = 0x09

/-- Bytes a command moves between the device and host memory; 0 for none. -/
def Cmd.bytes (c : Cmd) : Nat :=
  let e := c.entry
  if !c.admin then
    match e.opcode with
    | 0x01 => e.nlb * 4096
    | 0x02 => e.nlb * 4096
    | 0x09 => (e.cdw10 % 256 + 1) * 16
    | 0x0D => 16
    | 0x0E => (e.cdw10 % 2 ^ 32 + 1) * 4
    | 0x11 => 16
    | 0x15 => 8
    | _ => 0
  else
    match e.opcode with
    | 0x7F => if e.fctype = 0x01 then 1024 else 0
    | 0x02 => (e.cdw10 / 65536 + e.cdw11 % 65536 * 65536 + 1) * 4
    | 0x06 => 4096
    | 0x0A => if e.cdw10 % 256 = 0x81 then 16 else 0
    | _ => 0

/-- The bytes that a command other than a write reads from host memory before it runs. -/
def Cmd.input (c : Cmd) : Nat :=
  if c.admin then (if c.entry.opcode = 0x7F then c.bytes else 0)
  else if [0x09, 0x0D, 0x11, 0x15].contains c.entry.opcode then c.bytes else 0

/-- Whether a command is a Connect on an admin queue: no key can be registered before it (R133, log entry 69). -/
def Cmd.adminConnect (c : Cmd) : Bool := c.entry.opcode = 0x7F && c.entry.fctype = 0x01 && decide (c.entry.cdw10 / 65536 = 0)

/-- A decoded command runs; what it reads from host memory is fetched first (R108). -/
def State.proceed (s : State) (t : Nat) (c : Cmd) : State :=
  if c.input = 0 then s.updCmd t fun c => { c with phase := .decoded }
  else
    let e := c.entry
    (s.updCmd t fun c => { c with phase := .fetching }).sendRead c.conn e.sglAddr e.sglKey c.input (.data c.uid)

/-- Whether a range lies in one memory key of the connection's protection domain, or in its pull queues (R117, R115). -/
def State.keyCovers (s : State) (c : Conn) (key addr len : Nat) : Bool :=
  (s.cmdb.ctrls.any fun e => e.2.used && e.2.pd = c.pd &&
    e.2.mkeys.any fun k => k.1 = key && decide (k.2.1 ≤ addr) && decide (addr + len ≤ k.2.1 + k.2.2)) ||
  (c.pullReady && key = c.sqRkey && decide (c.sqBase ≤ addr) && decide (addr + len ≤ c.sqBase + 64 * c.sqSize)) ||
  (c.pullReady && key = c.cqRkey && decide (c.cqBase ≤ addr) && decide (addr + len ≤ c.cqBase + 16 * c.sqSize))

/-- Whether a connection belongs to a Discovery controller, which needs no memory key (R133). -/
def State.discoveryConn (s : State) (c : Conn) : Bool :=
  match c.ctrl with
  | some k => (s.ctrl k).discovery
  | none => false

/-- Step 11 of Table 09-3: a Keyed SGL Data Block outside every memory key. An SGL shorter than the transfer ends in Data
Transfer Error (log entry 24). -/
def State.keysCheck (s : State) (t : Nat) : State :=
  match s.cmd t with
  | none => s
  | some c =>
    let x := s.conn c.conn
    let e := c.entry
    if c.bytes = 0 || s.discoveryConn x then s.proceed t c
    else if !c.adminConnect && !s.keyCovers x e.sglKey e.sglAddr e.sglLen then
      ((s.bump Reg.XPT_MKEY_REFUSED_COUNT).raise Ev.XPT_MKEY_REFUSED [c.conn]).finish t 2 0x86 true
    else if e.sglLen < c.bytes then s.finish t 0 4 false
    else s.proceed t c

/-! ### Decode (R154) -/

/-- Step 1: the opcode is in Table 09-1 for the queue. Before Connect a queue takes Fabrics commands only. -/
def State.opcodeOk (s : State) (c : Cmd) : Bool :=
  let x := s.conn c.conn
  if c.entry.opcode = 0x7F then [0x00, 0x01, 0x04, 0x05, 0x06, 0x08].contains c.entry.fctype
  else if x.ctrl.isNone then false
  else if c.admin then adminOpcodes.contains c.entry.opcode else ioOpcodes.contains c.entry.opcode

/-- Step 2: reserved fields, MDTS and NLB limits, DSM range count. -/
def fieldsOk (c : Cmd) : Bool :=
  let e := c.entry
  let base := e.rsvd = 0 && decide (c.bytes ≤ 2097152)
  if c.admin || e.opcode = 0x7F then
    base && (if e.opcode = 0x7F && e.fctype = 0x04 then [0x00, 0x08, 0x14, 0x1C].contains e.cdw11
      else if e.opcode = 0x7F && e.fctype = 0x00 then e.cdw11 = 0x14 else true)
  else base && (if e.opcode = 0x01 || e.opcode = 0x02 then decide (e.nlb ≤ 512) else true)

/-- The first failing step of steps 1 to 9 as (SCT, SC), for a started command. -/
def State.decodeFails (s : State) (c : Cmd) : Option (Nat × Nat) :=
  let e := c.entry
  let x := s.conn c.conn
  let op := e.opcode
  let io := !c.admin && op ≠ 0x7F
  let all := io && op = 0x00 && e.nsid = 0xFFFFFFFF
  let named := (io && !all) || (c.admin && op = 0x06 && (e.cdw10 % 256 = 0 || e.cdw10 % 256 = 3))
  let ranged := io && (op = 0x01 || op = 0x02 || op = 0x08)
  let h := (s.ctrl (x.ctrl.getD 0)).hostId
  if !s.opcodeOk c then some (0, 0x01)
  else if !fieldsOk c then some (0, 0x02)
  else if c.bytes ≠ 0 && e.sglType ≠ 0x40 then some (0, 0x11)
  else if named && !s.nsExists e.nsid then some (0, 0x0B)
  else if named && !s.granted x.pd e.nsid (opReads op && io) (opWrites op && io) then some (2, 0x86)
  else if ranged && (s.ns e.nsid).nsze < e.slba + e.nlb then some (0, 0x80)
  else if io && !all && (opReads op || opWrites op || op = 0) && !(s.ns e.nsid).allows h (!opReads op) then some (0, 0x83)
  else if io && (op = 0x01 || op = 0x08) && s.locked e.nsid e.slba e.nlb then some (7, 0x82)
  else if io && (op = 0x01 || op = 0x08) && s.lostPart (s.ns e.nsid).volume e.slba e.nlb then some (7, 0x81)
  else none

/-- Decode a command that has just started (R154): the first failing check completes it; then the CAPSULE hook runs, and the
memory keys are checked. The ranges of Dataset Management stand in host memory, so its keys are checked first, and the checks on its ranges
and its hook follow once they have been read (log entry 126). -/
def State.decodeCmd (s : State) (t : Nat) : State :=
  match s.cmd t with
  | none => s
  | some c =>
    match s.decodeFails c with
    | some (sct, sc) =>
      let s := if sct = 2 && sc = 0x86 then (s.bump Reg.XPT_ACCESS_DENIED_COUNT).raise Ev.XPT_ACCESS_DENIED [c.conn] else s
      s.finish t sct sc true
    | none =>
      let hooks := !c.admin && c.entry.opcode ≠ 0x7F && c.entry.opcode ≠ 0x09
      if hooks && s.hookOn 1 then (s.updCmd t fun c => { c with phase := .hook }).invokeHook 1 t
      else if hooks && s.hookRefuses 1 then s.finish t 0 0x82 true
      else s.keysCheck t

/-! ### Starting (R153, R138, R146) -/

/-- Meter a command that the storage policers count: reads and writes, on its namespace's policer and then its tenant's. A
command that some policer would colour red is held, and nothing is charged. -/
def State.meterCmd (s : State) (n : Nat) (e : SqEntry) : State × Colour × Bool :=
  let x := s.conn n
  let use (attach target : Nat) (c : Colour) (s : State) : State × Colour :=
    match s.policerOn attach target with
    | none => (s, c)
    | some i =>
      let p := s.policer i
      if (e.opcode = 0x02 && p.reads) || (e.opcode = 0x01 && p.writes) then
        let (p, c) := p.meter (if p.unit then 1 else e.nlb * 4096) c s.now
        (s.setPolicer i p, c)
      else (s, c)
  if x.admin || x.ctrl.isNone || s.follows then (s, .green, true)
  else
    let (s1, c1) := use 2 e.nsid .green s
    if c1 = .red then (s, .red, false)
    else
      let (s2, c2) := use 3 x.tenant c1 s1
      if c2 = .red then (s, .red, false) else (s2, c2, true)

/-- Whether a command of a connection is held because its class's gate is closed on a sub-port with HOLD_START (R146). -/
def State.gateHolds (s : State) (n : Nat) : Bool :=
  let c := s.conn n
  let cls := s.tenantClass c.tenant
  (s.fld (Reg.QOS_PORT_SCHED_HOLD_START (c.sub / 4))).testBit cls && !s.gateOpen (c.sub / 4) cls

/-- Whether a command with this CID is outstanding on the same queue. -/
def State.cidInUse (s : State) (n cid : Nat) : Bool := s.cmdb.cmds.any fun e => e.2.conn = n && e.2.entry.cid = cid

/-- The size of a connection's submission queue. -/
def Conn.queueSize (c : Conn) : Nat := max 1 (if c.pull then c.sqSize else c.hsqsize)

/-- End received commands that have not started: at once, or on a FREEZE queue when their turn in the commit order comes (R159). -/
def State.endUnstarted (s : State) (n : Nat) (p : RxCmd → Bool) (sct sc : Nat) (dnr : Bool) : State :=
  let x := s.conn n
  if x.freeze && !x.admin then
    s.updConn n fun x => { x with rxq := x.rxq.map fun r => if p r then { r with ends := some (sct, sc, dnr) } else r }
  else (x.rxq.filter p).foldl (fun s r => s.completeUnstarted n r sct sc dnr) (s.updConn n fun x => x.dropRx p)

/-- A command that ends as it starts: on a FREEZE queue its outcome takes its turn in the commit order. -/
def State.endAtStart (s : State) (n : Nat) (r : RxCmd) (sct sc : Nat) (dnr : Bool) : State :=
  let x := s.conn n
  if x.freeze && !x.admin then
    match s.freeTag with
    | none => s
    | some t =>
      let q := s.cqeOf n r.entry sct sc dnr 0 0
      let c : Cmd := { uid := s.cmdb.nextUid, conn := n, sqIndex := r.sqIndex, entry := r.entry, phase := .done, cpl := some q, time := s.now }
      let s := s.updConn n fun x => { x with inflight := x.inflight + 1 }
      ({ s with cmdb.nextUid := s.cmdb.nextUid + 1, cmdb.cmds := Assoc.put s.cmdb.cmds t c }).settle t
  else s.completeUnstarted n r sct sc dnr

/-- Start the oldest received command of a connection: it is held by a policer or a gate, completes with Command ID
Conflict, or takes a tag and is decoded. The active's verdict goes into the order stream, and the standby takes it from
there (R141, R246). -/
def State.startCmd (s : State) (n : Nat) : State :=
  let x := s.conn n
  match x.rxq with
  | [] => s
  | r :: rs =>
    let e := r.entry
    let pop (x : Conn) : Conn :=
      { x with rxq := rs, places := x.places - 1, sqHead := (r.sqIndex + 1) % x.queueSize }
    if s.shuttingDown n then s
    else if r.ends.isSome then
      let (sct, sc, dnr) := r.ends.getD (0, 7, true)
      (s.updConn n pop).endAtStart n r sct sc dnr
    else if s.cidInUse n e.cid then
      let s := (s.bump Reg.CMD_CID_CONFLICT_COUNT).raise Ev.CMD_CID_CONFLICT [(x.ctrl.map (· + 1)).getD 0, x.qid]
      (s.updConn n pop).endAtStart n r 0 3 true
    else
      let io := !x.admin && x.ctrl.isSome
      let (s', col, ok) := if s.follows && io then
          match x.verdicts.find? fun v => v.1 = r.sqIndex with
          | some v => (s.updConn n fun x => { x with verdicts := x.verdicts.erase v }, v.2, true)
          | none => (s, .green, false)
        else s.meterCmd n e
      if !ok || (!s.follows && s.gateHolds n) then
        let s := if io && !r.held then (s.order n (.verdict r.sqIndex 1 col.code)).1 else s
        s.updConn n fun x => { x with rxq := { r with held := true } :: rs }
      else match s'.freeTag with
        | none => s
        | some t =>
          let s := if io then (s'.order n (.verdict r.sqIndex (if r.held then 2 else 0) col.code)).1 else s'
          let s := s.updConn n fun x => { pop x with inflight := x.inflight + 1 }
          let c : Cmd :=
            { uid := s.cmdb.nextUid, conn := n, sqIndex := r.sqIndex, entry := e, admin := x.admin || x.ctrl.isNone,
              colour := col, time := s.now, picked := r.picked, wasHeld := r.held, seen := r.seen,
              stamps := if r.picked then [(0, r.at_), (1, r.at_), (2, r.at_), (3, s.now)] else [] }
          let s := { s with cmdb.nextUid := s.cmdb.nextUid + 1, cmdb.cmds := Assoc.put s.cmdb.cmds t c }
          let s := { s with cmdb.minTags := min s.cmdb.minTags (65536 - s.cmdb.cmds.length) }
          (s.decodeCmd t).stamp t 4

/-- Whether commands may start: host I/O runs, no activation is under way, and no silence holds host commands (R259). -/
def State.mayStart (s : State) : Bool := s.pwr.st = .run && !s.stopped && !s.hrn.silent

/-- Start every command of a connection that can start, in submission order. -/
def State.startAll (s : State) (n : Nat) : Nat → State
  | 0 => s
  | f + 1 =>
    let s' := s.startCmd n
    if (s'.conn n).rxq.length < (s.conn n).rxq.length then s'.startAll n f else s'

/-- The commands received on connections and not yet started. -/
def State.unstartedOf (s : State) (ns : List Nat) : Nat := ns.foldl (fun k n => k + (s.conn n).rxq.length) 0

/-- One turn of connections: each starts its oldest command if it can, and the pointer moves past the last that did (R46, R146). -/
def State.startTurn (s : State) (ns : List Nat) : State :=
  ns.foldl (fun s n =>
    let t := s.startCmd n
    if (t.conn n).rxq.length < (s.conn n).rxq.length then { t with cmdb.startAt := n + 1 } else t) s

/-- Turns of connections until none of them starts a command. -/
def State.startTurns (s : State) (ns : List Nat) : Nat → State
  | 0 => s
  | f + 1 =>
    let t := s.startTurn ns
    if t.unstartedOf ns < s.unstartedOf ns then t.startTurns ns f else t

/-- Connections in round-robin order from the pointer. -/
def State.inTurn (s : State) (ns : List Nat) : List Nat :=
  (ns.filter fun n => decide (s.cmdb.startAt ≤ n)) ++ ns.filter fun n => decide (n < s.cmdb.startAt)

/-- Start the held commands of every connection that `p` selects: round-robin over the queues, one command per turn, in submission order
within each (R146); then fetch the entries that were left behind them. -/
def State.startHeld (s : State) (p : Conn → Bool) : State :=
  if !s.mayStart then s
  else
    let ns := (s.xpt.conns.filter fun e => p e.2 && (e.2.rxq.head?.map RxCmd.held).getD false).map Prod.fst
    (s.startTurns (s.inTurn ns) (s.unstartedOf ns)).resumeFetch

/-! ### Waiting for others -/

/-- The command of a tag with an opcode on an I/O or admin queue that has been decoded and has not run. -/
def State.ready (s : State) (t : Nat) (admin : Bool) (op : Nat) : Option Cmd :=
  match s.cmd t with
  | none => none
  | some c => if c.phase = .decoded && c.admin = admin && c.entry.opcode = op then some c else none

/-- The Fabrics command of a tag. -/
def State.readyFabrics (s : State) (t fct : Nat) : Option Cmd :=
  match s.cmd t with
  | none => none
  | some c => if c.phase = .decoded && c.entry.opcode = 0x7F && c.entry.fctype = fct then some c else none

/-- Whether none of a list of buffered blocks is still in the buffer. -/
def State.flushed (s : State) (ids : List Nat) : Bool := !(s.lay.buffer.any fun b => ids.contains b.id)

/-- The namespaces granted to a domain, in order. -/
def State.grantedNs (s : State) (pd : Nat) : List Nat :=
  (s.cmdb.nss.filter fun e => e.2.used && !e.2.deleting && s.granted pd e.1 false false).map Prod.fst

/-- The visible buffered blocks of a namespace. -/
def State.bufsOf (s : State) (nsid : Nat) : List Nat :=
  (s.lay.buffer.filter fun b => b.nsid = nsid && b.visible).map BufBlk.id

/-- Whether a started I/O command of a controller has not completed. -/
def State.runsFor (s : State) (k : Nat) : Bool := s.cmdb.cmds.any fun e => !e.2.admin && (s.conn e.2.conn).ctrl = some k

/-- A shutdown goes on (R163): once its started commands have completed, the namespaces of its domain are flushed; then SHST is 10b. -/
def State.shutStep (s : State) (k : Nat) (x : Ctrl) : Ctrl :=
  if x.shst ≠ 1 || (x.shRun && s.runsFor k) then x
  else
    let x := if x.shRun then { x with shRun := false, shFlush := (s.grantedNs x.pd).flatMap s.bufsOf } else x
    if s.flushed x.shFlush then { x with shst := 2, shFlush := [] } else x

/-- Flushes and shutdowns whose blocks have all landed complete, and so do writes of write-through (R161, R163, R155). -/
def State.wakeFlush (s : State) : State :=
  let due := s.cmdb.cmds.filter fun e => !e.2.admin && e.2.cpl.isNone && s.flushed e.2.bufs &&
    ((e.2.phase = .waiting && e.2.entry.opcode = 0) || (e.2.phase = .buffered && s.cmdb.through && e.2.ranges = []))
  let s := (due.foldl (fun s e => s.success e.1) s).resumeFetch
  { s with cmdb.ctrls := s.cmdb.ctrls.map fun e => (e.1, s.shutStep e.1 e.2) }

/-- What a new namespace state of a domain sends: EVT_CMD_NS_CHANGE, and to each controller of the domain the Notice and its
entry in the Changed Namespace List (R166). -/
def State.nsChanged (s : State) (nsid : Nat) (pds : List Nat) : State :=
  let s := (s.persist (.ns nsid)).raise Ev.CMD_NS_CHANGE [nsid]
  (s.ctrlsUsed.filter fun k => pds.contains (s.ctrl k).pd && !(s.ctrl k).discovery).foldl (fun s k =>
    (s.updCtrl k fun c => { c with changed := if c.changed.contains nsid then c.changed else c.changed ++ [nsid] }).hostEvent k 2 0 4) s

/-- Finish deleting a namespace whose decoded commands have ended: its buffered data goes, its grants and reservations are
removed and its key generations destroyed (R166). -/
def State.removeNs (s : State) (nsid : Nat) : State :=
  let x := s.ns nsid
  let pds := (s.xpt.grants.filter fun g => g.nsid = nsid).map Grant.pd
  let s := (s.setBuffer (s.lay.buffer.filter fun b => !(b.nsid = nsid && b.stripe.isNone))).dropClean fun b => b.nsid = nsid
  let s := { s with xpt.grants := s.xpt.grants.filter fun g => g.nsid ≠ nsid,
                    sec.locks := s.sec.locks.filter fun l => l.nsid ≠ nsid }
  let s := x.gens.foldl (fun s g => s.setDataKey g.2 {}) s
  (((s.clearLost x.volume 0 (4096 * (s.volume x.volume).extents)).setNs nsid {}).nsChanged nsid pds).wakeFlush

/-- Free every extent and segment of a volume, and the volume (R177). -/
def State.removeVolume (s : State) (v : Nat) : State :=
  let s := ((s.volume v).map.map Prod.fst).foldl (fun s e => s.freeExtent v e) s
  (s.setVolume v {}).persist (.volume v)

/-- The buffered blocks of a command are on both twins, or on the SOLO twin: it completes (R16), or in write-through when they
have landed (R155). -/
def State.buffered (s : State) (t : Nat) : State :=
  match s.cmd t with
  | none => s
  | some c =>
    if c.phase ≠ .buffered || c.ranges ≠ [] || s.hrn.silent || !s.serving then s
    else if s.standbyPresent && c.unmirrored ≠ [] then s
    else if s.cmdb.through && !s.flushed c.bufs then s
    else (s.stamp t 8).success t

/-- Whether a call may still hold a data key of a namespace: a read of it is under way (Table 14-6). -/
def State.keyInUse (s : State) (nsid : Nat) : Bool :=
  s.cmdb.cmds.any fun e => !e.2.admin && e.2.entry.nsid = nsid && e.2.phase = .reading

/-- The generations of a namespace older than `start` are retired: their keys are destroyed and their slots freed (R286). -/
def State.retireGens (s : State) (n start : Nat) : State :=
  let x := s.ns n
  let s := (x.gens.filter fun g => decide (g.1 < start)).foldl (fun s g => s.setDataKey g.2 {}) s
  s.setNs n { x with gens := x.gens.filter fun g => decide (start ≤ g.1), reseal := none }

/-- Destroy the key in a data key slot, bound or not; a bound generation is no longer live (R305). -/
def State.destroyKey (s : State) (i : Nat) : State :=
  let s := match (s.dataKey i).bound with
    | some (n, g) => (s.setNs n { s.ns n with gens := (s.ns n).gens.filter fun x => x.1 ≠ g }).persist (.ns n)
    | none => s
  (s.setDataKey i {}).raise Ev.SEC_KEY_DESTROY [2 ^ 28 + i]

/-- Management commands that waited for decoded commands to end: Revoke Grant, Delete Namespace, Delete Volume and Destroy Data
Key. -/
def State.wakeMgmt (s : State) : State :=
  let s := if s.hrn.role = .solo then (s.cmdb.cmds.map Prod.fst).foldl State.buffered s else s
  let ws := s.ctl.started.filter fun c => c.waits
  ws.foldl (fun s c =>
    match c.desc.opcode.toNat with
    | 0x0207 =>
      if s.nsBusy (leAt c.payload 4 4) (some (leAt c.payload 0 2)) then s
      else (s.nsChanged (leAt c.payload 4 4) [leAt c.payload 0 2]).holderDone c
    | 0x0204 =>
      let n := leAt c.payload 0 4
      if s.nsBusy n none then s else (s.removeNs n).holderDone c
    | 0x0502 =>
      let i := leAt c.payload 0 4 % 2 ^ 28
      if ((s.dataKey i).bound.map fun b => s.keyInUse b.1).getD false then s else (s.destroyKey i).holderDone c
    | 0x0202 =>
      let v := leAt c.payload 0 2
      match s.nsOf v with
      | none => ((s.removeVolume v).holderDone c 0)
      | some n => if s.nsBusy n none then s else (((s.removeNs n).removeVolume v).holderDone c 0)
    | _ => s) s

end Machine

end Sys2Proof
end

