-- ==== Sys2Proof/Machine/Fabric.lean ====
section
/-! DEFINITION. Chapter 05: fabric ports and links, reception and policing of frames, cut-through, bad frames, transmission and
the resequencer's events. -/
namespace Sys2Proof.Machine

/-! ### Links (R77, R89) -/

/-- EVT_NET_LINK for sub-port `k` of a port, with its new state. -/
def State.linkEvent (s : State) (k : Nat) (up : Bool) : State := s.raise (128 + k / 4) [k % 4, if up then 1 else 0]

/-- Whether an ingress frame is still being received: its last byte has not arrived. -/
def State.receiving (s : State) (f : Frame) : Bool := f.ingress && !f.whole && decide (s.now < f.endAt)

/-- What the loss of sub-port `k` does to its frames (R89): the frame being sent becomes a runt, the frames for the sub-port are
discarded, and a frame being received is discarded as bad. -/
def State.dropLink (s : State) (k : Nat) : State :=
  let mine := s.swc.frames.filter fun f => f.sub = k
  let s := mine.foldl (fun s f =>
    if f.ingress then (if s.receiving f then s.dropFrame f else s)
    else if f.stage = .sending then (s.removeFrame f).emit (.runt k f.id)
    else s.dropFrame f) s
  { s with swc.backlog := s.swc.backlog.filter fun f => f.sub ≠ k }

/-- A sub-port's link goes down. -/
def State.subDown (s : State) (k : Nat) : State :=
  let x := s.subPort k
  let s := (s.setSub k {}).dropLink k
  if x.up then s.linkEvent k false else s

/-- Take every sub-port of a port down. -/
def State.portDown (s : State) (n : Nat) : State := (List.range 4).foldl (fun s k => s.subDown (4 * n + k)) s

/-- Take every fabric port dark (R240). -/
def State.darken (s : State) : State := (List.range 8).foldl State.portDown s

/-- NET_PORT_ENABLE (R77): EN goes from 0 to 1 and the lanes of every sub-port of the mode start training. -/
def execNetPortEnable (port : Fin 8) (value : Word) (s : State) : Host.Outcome State Fault Refusal :=
  .next <|
    let en := Reg.NET_PORT_CFG_EN port
    s.when (!s.flag en && value.getLsbD 0 && getBits value 2 1 ≠ 3 && s.hrn.role ≠ .fenced) fun s =>
      match s.storeReg en.addr value with
      | none => s
      | some s => (List.range (s.subCount port)).foldl (fun s k => s.setSub (4 * port + k) { training := true }) s

/-- NET_PORT_DISABLE (R77, R89): a write with EN 0 that does not change MODE or MAX_FRAME while EN is 1. -/
def execNetPortDisable (port : Fin 8) (value : Word) (s : State) : Host.Outcome State Fault Refusal :=
  .next <|
    let en := Reg.NET_PORT_CFG_EN port
    let same := getBits value 2 1 = s.fld (Reg.NET_PORT_CFG_MODE port) && getBits value 29 16 = s.fld (Reg.NET_PORT_CFG_MAX_FRAME port)
    s.when (s.flag en && !value.getLsbD 0 && same) fun s => (s.setFld en 0).portDown port

/-- NET_LINK_UP (R77): a training sub-port comes up. -/
def execNetLinkUp (port : Fin 8) (sub : Fin 4) (s : State) : Host.Outcome State Fault Refusal :=
  .next <|
    let k := 4 * port.val + sub
    s.when (s.flag (Reg.NET_PORT_CFG_EN port) && (s.subPort k).training && s.pwr.st ≠ .deep) fun s => (s.setSub k { up := true }).linkEvent k true

/-- NET_LINK_DOWN (R89): the link goes down; the lanes train again while the port is enabled. -/
def execNetLinkDown (port : Fin 8) (sub : Fin 4) (s : State) : Host.Outcome State Fault Refusal :=
  .next <|
    let k := 4 * port.val + sub
    s.when (s.subPort k).up fun s => (s.subDown k).setSub k { training := s.flag (Reg.NET_PORT_CFG_EN port) }

/-! ### Reception (R78, R79, R135 to R139) -/

/-- The class and colour of a received frame (R135). -/
def State.classify (s : State) (f : RxFrame) : Nat × Colour :=
  if f.tags = 1 && s.flag Reg.QOS_CFG_TRUST_PCP then (f.pcp % 8, .green)
  else
    let w := s.rg (Reg.QOS_DSCP_CLASS_0 (f.dscp % 64 / 4)).addr
    let o := 8 * (f.dscp % 4)
    (getBits w (o + 2) o, match getBits w (o + 4) (o + 3) with | 1 => .yellow | 2 => .red | _ => .green)

/-- The address of sub-port `k` (NET_MAC_HI, NET_MAC_LO). -/
def State.macOf (s : State) (k : Nat) : Nat :=
  s.fld (Reg.NET_MAC_HI_MAC_HI (k / 4) (k % 4)) * 2 ^ 32 + s.fld (Reg.NET_MAC_LO_MAC_LO (k / 4) (k % 4))

/-- The solicited-node multicast MAC of local address `a`, if it is live and no IPv4 address: 33-33-FF and its last three bytes. -/
def State.solicitedMac (s : State) (a : Nat) : Option Nat :=
  let w (i : Nat) : Nat := s.fld (Reg.XPT_IP_ADDR_ADDR a i)
  if s.flag (Reg.XPT_IP_CFG_VALID a) && !(w 0 = 0 && w 1 = 0 && w 2 = 0xFFFF) then some (0x3333FF000000 + w 3 % 2 ^ 24) else none

/-- The destination addresses that sub-port `k` accepts (R78): its own, broadcast, IEEE 1588 multicast, and solicited-node multicast of the
device's addresses. -/
def State.destOk (s : State) (k mac : Nat) : Bool :=
  mac = s.macOf k || mac = 0xFFFFFFFFFFFF || mac = 0x011B19000000 || mac = 0x0180C200000E ||
    (List.range 16).any fun a => s.solicitedMac a = some mac

/-- Whether R78 lets a frame into the device. -/
def State.admits (s : State) (k : Nat) (f : RxFrame) : Bool :=
  decide (64 ≤ f.len) && decide (f.len ≤ s.fld (Reg.NET_PORT_CFG_MAX_FRAME (k / 4))) && decide (f.tags < 2) && s.destOk k f.dest

/-- The connection whose flow entry a received frame hits, which its hit refreshes (R99). -/
def State.flowHit (s : State) (key : Option (List Byte)) : State × Option Nat :=
  match key with
  | none => (s, none)
  | some k =>
    match s.lookup 1 k 0 with
    | (s, some (_, e)) => (s, some (leAt e 0x28 2))
    | (s, none) => (s, none)

/-- The policers of a received frame (R137): the connection group's, then the port's; `none` where the last of them drops it. -/
def State.policeIn (s : State) (k : Nat) (f : RxFrame) (c : Colour) : State × Option Colour :=
  let (s, conn) := s.flowHit f.key
  let group := conn.bind fun n => (Assoc.get {} s.xpt.conns n : Conn).host
  let m : Metered := { colour := c }
  let (s, m) := match group with
    | some h => s.meterOn 1 h f.len m
    | none => (s, m)
  let (s, m) := s.meterOn 0 k (s.portLen (k / 4) f.len) m
  (s, if m.drop then none else some m.out)

/-- The queue of a received frame of class `c` (R82): toward the cipher engine where it carries ESP, toward the command pipeline
otherwise. -/
def rxQueue (f : RxFrame) (c : Nat) : Nat :=
  match f.key with
  | some k => if leAt k 0x24 1 = 50 then 280 + c else 264 + c
  | none => 264 + c

/-- Take the first cell of an admitted frame into the buffer; its last byte arrives a frame time later. With no cell for it there is no
frame to end, and EVT_SWC_TRUNC alone is raised (R79, log entry 121). -/
def State.takeIn (s : State) (k cls : Nat) (f : RxFrame) (c : Colour) (mark : Bool) : State :=
  if s.cellsSpare = 0 then s.raise Ev.SWC_TRUNC [k]
  else
    let s := s.useCells 1
    let rate := s.subRate (k / 4)
    let x : Frame := { id := s.swc.nextId, ingress := true, sub := k, queue := rxQueue f cls, len := f.len, cells := 1, colour := c,
                       cls := cls, key := f.key, ect := f.ecn = 1 || f.ecn = 2, ce := f.ecn = 3 || mark, stage := .arriving,
                       endAt := s.now + (f.len * 8 + rate - 1) / rate }
    { s with swc.frames := s.swc.frames ++ [x], swc.nextId := s.swc.nextId + 1 }

/-- A received frame that R78 accepts: counted, then policed, then WRED. -/
def State.receiveFrame (s : State) (k : Nat) (f : RxFrame) : State :=
  let (cls, c0) := s.classify f
  let s := s.countFrame k cls f.len false
  let (s, pass) := s.strictPass k cls false f.len
  if !pass then s.countDrop k false
  else match s.policeIn k f c0 with
    | (s, none) => s
    | (s, some c) =>
      let (s, ok, mark) := s.wred (rxQueue f cls) (cellsOf f.len) c (f.ecn = 1 || f.ecn = 2) (f.ecn = 3)
      if ok then s.takeIn k cls f c mark else s.countDrop k false

/-- FRAME_RECEIVE: the first cell of a frame arrives on a sub-port that is up. -/
def execFrameReceive (port : Fin 8) (sub : Fin 4) (frame : RxFrame) (s : State) : Host.Outcome State Fault Refusal :=
  .next <|
    let k := 4 * port.val + sub
    s.when (s.subPort k).up fun s =>
      if frame.pause then (s.bump (Reg.NET_RX_PAUSE_COUNT port)).raise (144 + port) []
      else if !s.admits k frame then s.bump (Reg.NET_RX_DROP_COUNT port)
      else s.receiveFrame k frame

/-! ### Cut-through (R80, R85, R249) -/

/-- Cross-post a frame taken in on a fabric port to the other twin: to the peer, or to the holder this twin follows (R18, R249). -/
def State.crosspost (s : State) (f : Frame) : State :=
  if !s.reachesTwin then s
  else
    let id := (if s.glb.twinB then 2 ^ 31 else 0) + s.hrn.pktId
    let s := s.updFrame f.id fun f => { f with pktId := some id }
    ({ s with hrn.pktId := (s.hrn.pktId + 1) % 2 ^ 31 }).sendTwin (.crosspost id f.sub f.colour.code f.id f.len)

/-- Whether a frame carries Sheath ESP. -/
def Frame.isEsp (f : Frame) : Bool := (f.key.map fun k => decide (leAt k 0x24 1 = 50)).getD false

/-- The later cells of an admitted frame are taken without another decision; where the free count allows none the frame is truncated, which
the answer says, and EVT_SWC_TRUNC raised (R79). -/
def State.takeRest (s : State) (id : Nat) : State × Bool :=
  match s.frame id with
  | none => (s, false)
  | some f =>
    let want := cellsOf f.len - f.cells
    let got := min want s.cellsSpare
    let s := (s.useCells got).updFrame id fun f => { f with cells := f.cells + got }
    (s.raiseIf (got < want) Ev.SWC_TRUNC [f.sub], decide (got < want))

/-- A frame starts forwarding (R80, R85): one that hits a connection is stamped with its RX_SEQ, and one that finds no tracking entry is
dropped. -/
def State.forward (s : State) (f : Frame) : State :=
  let (s, conn) := s.flowHit f.key
  match conn with
  | none => (s.updFrame f.id fun f => { f with stage := .forwarded }).crosspost f
  | some c =>
    if !s.canTrack false c then (s.removeFrame f).raise Ev.SWC_RSEQ_FULL [c]
    else
      let r := s.reseq false c
      let s := s.setReseq false c { r with assign := (r.assign + 1) % 65536 }
      let s := s.updFrame f.id fun f => { f with conn := some c, seq := some r.assign, stage := .forwarded }
      if f.isEsp then s else s.crosspost f

/-- Frames of no connection whose last byte has arrived are delivered without resequencing (R85). -/
def State.deliverDue (s : State) : State :=
  (s.swc.frames.filter fun f => f.ingress && f.stage = .forwarded && f.conn.isNone && decide (f.endAt ≤ s.now)).foldl State.deliver s

/-- Drop frame `id` if it is still in the buffer. -/
def State.dropId (s : State) (id : Nat) : State :=
  match s.frame id with
  | some f => s.dropFrame f
  | none => s

/-- CUT_THROUGH_START: the header lookup completes and the frame starts forwarding, its later cells following; with CT_EN = 0 it is first
stored whole (R80). A frame found bad or truncated before that is dropped whole (R81). -/
def execCutThroughStart (frame : Nat) (s : State) : Host.Outcome State Fault Refusal :=
  .next <|
    match s.frame frame with
    | none => s
    | some f => s.when (f.ingress && f.stage = .arriving) fun s =>
        if s.flag Reg.SWC_CFG_CT_EN then
          let (s, cut) := (s.forward f).takeRest frame
          if cut then s.dropId frame else s.deliverDue
        else
          let (s, cut) := (s.reach f.endAt).takeRest frame
          if cut then s.dropId frame
          else
            let s := s.updFrame frame fun f => { f with whole := true }
            (match s.frame frame with
             | some f => s.forward f
             | none => s).deliverDue

/-! ### Bad frames (R81, R88) -/

/-- A frame is found bad (R81): before its first cell leaves it is dropped whole; toward a fabric port it is stomped; toward an
internal port its consumer discards it and reports its number. -/
def State.frameBad (s : State) (f : Frame) : State :=
  if !f.ingress && f.stage = .sending then
    if f.bad then s
    else ((s.updFrame f.id fun f => { f with bad := true }).bump (Reg.NET_TX_STOMP_COUNT (f.sub / 4))).emit (.stomped f.sub f.id)
  else s.dropFrame f

/-- FRAME_FOUND_BAD. A frame stored whole has its bytes checked already, so its tail is found bad no more. -/
def execFrameFoundBad (frame : Nat) (cause : BadCause) (s : State) : Host.Outcome State Fault Refusal :=
  .next <|
    match s.frame frame with
    | none => s
    | some f =>
      s.when (!(f.whole && (cause = .fcs || cause = .fecUncorrectable))) fun s =>
        let s := match cause with
          | .fcs => if f.ingress then s.bump (Reg.NET_RX_FCS_ERR_COUNT (f.sub / 4)) else s
          | .fecUncorrectable => (s.bump (Reg.NET_FEC_UNCORR_COUNT (f.sub / 4))).raise (136 + f.sub / 4) []
          | _ => s
        s.frameBad f

/-- BUFFER_ECC_UNCORRECTABLE (R88). -/
def execBufferEccUncorrectable (frame : Nat) (s : State) : Host.Outcome State Fault Refusal :=
  .next <|
    let s := s.raise Ev.SWC_ECC_UNCORR []
    match s.frame frame with
    | none => s
    | some f => s.frameBad f

/-- BUFFER_ECC_CORRECTED (R88): counted by its event's counter. -/
def execBufferEccCorrected (s : State) : Host.Outcome State Fault Refusal := .next <| s.raise Ev.SWC_ECC []

/-! ### Transmission (R142, R143, R252) -/

/-- The frame that leaves sub-port `k` has left: it is counted, its cells are freed, and what its packet ends is done. -/
def State.finishFrame (s : State) (k : Nat) : State :=
  match s.swc.frames.find? fun f => !f.ingress && f.stage = .sending && f.sub = k with
  | none => s
  | some f =>
    let s := (s.countFrame k f.cls f.len true).removeFrame f
    match f.conn with
    | some n => s.packetLeft n f.body
    | none => s

/-- Whether a standby may still start a TANDEM copy (R252). -/
def State.inLag (s : State) (f : Frame) : Bool :=
  s.hrn.role ≠ .standby || decide (s.now ≤ f.ordTime + s.fld Reg.HRN_TLAG_T_LAG * 1000)

/-- A standby drops a copy that would start later than ORD_TIME + T_LAG. -/
def State.lagDrop (s : State) (f : Frame) : State :=
  let s := (s.dropFrame f).bump Reg.HRN_TLAG_DROP_COUNT
  match f.conn with
  | some n => s.packetLeft n f.body
  | none => s

/-- A frame starts to leave: the port shaper is charged (R142). -/
def State.startFrame (s : State) (n : Nat) (f : Frame) : State :=
  let s := match shaperOn s.qos.pshapers fun x => x.sub = f.sub with
    | some i => { s with qos.pshapers := Assoc.upd {} s.qos.pshapers i fun x => x.charge (s.portLen n f.len) s.now }
    | none => s
  (s.updFrame f.id fun f => { f with stage := .sending }).emit (.frameOut f.sub f)

/-- Connections whose commands waited for a free tag start them (R153). -/
def State.startWaiting (s : State) : State :=
  ((s.xpt.conns.filter fun e => e.2.rxq ≠ []).map Prod.fst).foldl (fun s n =>
    if s.mayStart then s.startAll n (s.conn n).rxq.length else s) s

/-- Frames of sub-port `k` that the twin lag no longer allows are dropped (R252). -/
def State.dropLate (s : State) (k : Nat) : State :=
  (s.swc.frames.filter fun f => !f.ingress && f.stage = .queued && f.sub = k && !s.inLag f).foldl State.lagDrop s

/-- Start the frame that the port's scheduler selects next. -/
def State.startNext (s : State) (port : Fin 8) (k : Nat) : State :=
  match s.selectFrame port k with
  | (s, some f) => s.startFrame port f
  | (s, none) => s

/-- FRAME_TRANSMIT: the frame that was leaving has left; the scheduler selects the next from an open class queue. -/
def execFrameTransmit (port : Fin 8) (sub : Fin 4) (s : State) : Host.Outcome State Fault Refusal :=
  .next <|
    let k := 4 * port.val + sub
    s.when (s.subPort k).up fun s =>
      let full := decide (s.cmdb.cmds.length = 65536)
      let s := ((s.finishFrame k).relaunch.pullAll k).wakeMgmt
      ((if full then s.startWaiting else s).dropLate k).startNext port k

/-- TLAG_DROP (R252): a copy not started by ORD_TIME + T_LAG is dropped. -/
def execTlagDrop (frame : Nat) (s : State) : Host.Outcome State Fault Refusal :=
  .next <|
    match s.frame frame with
    | none => s
    | some f => s.when (s.hrn.role = .standby && !f.ingress && f.conn.isSome && f.stage ≠ .sending) fun s =>
        (s.reach (f.ordTime + s.fld Reg.HRN_TLAG_T_LAG * 1000 + 1)).lagDrop f

/-! ### The resequencer (R85 to R87) -/

/-- RESEQ_ARRIVAL (R86): a stamped frame finishes its work and reaches the resequencer, once its last byte has arrived; a decrypted frame is
cross-posted first (R249). -/
def execReseqArrival (egress : Bool) (frame : Nat) (s : State) : Host.Outcome State Fault Refusal :=
  .next <|
    match s.frame frame with
    | none => s
    | some f =>
      match f.conn, f.seq with
      | some c, some q =>
        s.when (f.ingress = !egress && (f.stage = .forwarded || f.stage = .building) &&
            !((s.reseq egress c).waiting.any fun w => w.2 = frame)) fun s =>
          let s := s.reach f.endAt
          (if f.ingress && f.isEsp then s.crosspost f else s).arriveSeq egress c q frame
      | _, _ => s

/-- RESEQ_DISCARD_REPORT (R86). -/
def execReseqDiscardReport (egress : Bool) (conn : Nat) (seq : Nat) (s : State) : Host.Outcome State Fault Refusal :=
  .next <|
    match s.swc.frames.find? fun f => f.ingress = !egress && f.conn = some conn && f.seq = some seq with
    | some f => s.dropFrame f
    | none => s.when (decide (seqAhead (s.reseq egress conn).next seq < (s.reseq egress conn).outstanding)) fun s =>
        s.discardSeq egress conn seq

/-- Whether a command is an event of the resequencer. -/
def isReseq : Instr → Bool
  | .reseqArrival .. | .reseqDiscardReport .. | .reseqTimeout .. => true
  | _ => false

/-- Whether the missing number of a gap arrives, or is reported discarded, in the same cycle (R87): one of the resequencer's events that stand
next in the queue says so. -/
def State.gapCloses (s : State) (egress : Bool) (conn : Nat) : Bool :=
  let q := (s.reseq egress conn).next
  (s.pending.takeWhile isReseq).any fun c =>
    match c with
    | .reseqArrival e id => e = egress && ((s.frame id).map fun f => decide (f.conn = some conn ∧ f.seq = some q)).getD false
    | .reseqDiscardReport e n x => e = egress && n = conn && x = q
    | _ => false

/-- RESEQ_TIMEOUT (R86): the gap's timeout expires and the missing number is declared lost; an arrival or a discard report in the same cycle
wins (R87). -/
def execReseqTimeout (egress : Bool) (conn : Nat) (s : State) : Host.Outcome State Fault Refusal :=
  .next <|
    let r := s.reseq egress conn
    s.when (r.waiting ≠ [] && r.deadline ≠ 0) fun s =>
      let s := s.reach r.deadline
      if s.gapCloses egress conn then s else s.loseSeq egress conn

/-! ### WRED profiles (R83) -/

/-- The selected profile's colour word as staged, or as in force where none is staged. -/
def State.stagedColour (s : State) (a : Nat) (cur : Word) : Word :=
  match s.staged.find? fun e => e.1 = a with
  | some e => e.2
  | none => cur

/-- WRED_PROFILE_COMMIT: the write of SWC_WRED_CTL puts the staged colour registers and the control word of the selected profile
in force together; a MAX_TH below MIN_TH rejects the whole set (R368). -/
def execWredProfileCommit (value : Word) (s : State) : Host.Outcome State Fault Refusal :=
  .next <|
    let i := s.fld Reg.SWC_WRED_SEL_PROFILE
    let p := s.profile i
    let g := Reg.SWC_WRED_GREEN_MIN_TH.addr
    let ctl := storedWord Reg.SWC_WRED_CTL_WEIGHT.addr p.ctl value
    let q : Profile := ⟨s.stagedColour g p.green, s.stagedColour (g + 4) p.yellow, s.stagedColour (g + 8) p.red, ctl⟩
    let ok (w : Word) : Bool := decide (getBits w 11 0 ≤ getBits w 23 12)
    let st := s.staged.filter fun e => e.1 < g || g + 8 < e.1
    let ps := if ok q.green && ok q.yellow && ok q.red then Assoc.set {} s.swc.profiles i q else s.swc.profiles
    { s with swc.profiles := ps, staged := st }

end Sys2Proof.Machine
end

