-- ==== Sys2Proof/Machine/Commands.lean ====
section
/-! DEFINITION. Chapter 09: the start of commands and the admin, Fabrics and reservation commands. -/
namespace Sys2Proof.Machine

/-- COMMAND_START (R153): the oldest received command of a connection starts, unless it is held or no tag is free. -/
def execCommandStart (conn : Nat) (s : State) : Host.Outcome State Fault Refusal :=
  .next <| s.when (s.mayStart && (s.conn conn).st = .ready) fun s => (s.startCmd conn).resumeFetch

/-- POLICER_RELEASE (R138): the buckets would now pass a held command, and it starts with those behind it. -/
def execPolicerRelease (conn : Nat) (s : State) : Host.Outcome State Fault Refusal :=
  .next <| s.when (s.mayStart && ((s.conn conn).rxq.head?.map RxCmd.held).getD false) fun s =>
    (s.startAll conn (s.conn conn).rxq.length).resumeFetch

/-! ### Data to a host -/

/-- Send `d` to the host buffer of a command, at most its SGL's length, and complete it. -/
def State.answerData (s : State) (t : Nat) (d : List Byte) : State :=
  match s.cmd t with
  | none => s
  | some c =>
    let e := c.entry
    (s.sendData c.conn c.uid e.sglAddr e.sglKey c.colour (d.length + 1) (d.take e.sglLen)).success t

/-- `n` bytes that the manual does not state: a free value (log entry 3). -/
def State.drawBytes (s : State) (n : Nat) : List Byte × State :=
  let (v, s) := s.draw (8 * n)
  (leBytes n v.toNat, s)

/-- Write `d` into `b` at offset `o`. -/
def patch (b : List Byte) (o : Nat) (d : List Byte) : List Byte := b.take o ++ d ++ b.drop (o + d.length)

/-- Apply patches to a block of `n` zero bytes. -/
def layoutBytes (n : Nat) (ps : List (Nat × List Byte)) : List Byte :=
  ps.foldl (fun b p => patch b p.1 p.2) (List.replicate n 0)

/-- ASCII padded with spaces to `n` bytes. -/
def padded (n : Nat) (b : List Byte) : List Byte := (b ++ List.replicate n 0x20).take n

/-- One lower-case hexadecimal digit. -/
def hexDigit (n : Nat) : Byte := BitVec.ofNat 8 (if n < 10 then 48 + n else 87 + n)

/-- SUBSYS_ID. -/
def State.subsysId (s : State) : Nat :=
  (s.rg Reg.CMD_SUBSYS_ID_LO_SUBSYS_ID.addr).toNat + (s.rg Reg.CMD_SUBSYS_ID_HI_SUBSYS_ID.addr).toNat * 2 ^ 32

/-- The 16 hexadecimal digits of SUBSYS_ID (R151). -/
def State.subsysDigits (s : State) : List Byte := (List.range 16).map fun i => hexDigit (s.subsysId / 16 ^ (15 - i) % 16)

/-- Blocks in the allocated extents of a namespace (NUSE). -/
def State.nuse (s : State) (nsid : Nat) : Nat := min (s.ns nsid).nsze (4096 * s.allocated (s.ns nsid).volume)

/-- Identify CNS 01h: the values of R151 and Table 09-2 at their NVMe offsets; fields the manual does not name read 0 (log
entry 25). -/
def State.identifyCtrl (s : State) (k : Nat) : List Byte :=
  layoutBytes 4096
    [(4, padded 20 s.subsysDigits), (24, padded 40 (ascii "PLYNHEREX IH9064")), (64, padded 8 s.sec.run.version),
     (77, leBytes 1 9), (78, leBytes 2 (k + 1)), (80, leBytes 4 0x20000), (96, leBytes 4 1),
     (111, leBytes 1 (if (s.ctrl k).discovery then 2 else 1)), (256, leBytes 2 0), (259, leBytes 1 3), (320, leBytes 2 1),
     (512, leBytes 1 0x66), (513, leBytes 1 0x44), (514, leBytes 2 1024), (516, leBytes 4 16384), (520, leBytes 2 0x2C),
     (525, leBytes 1 7), (526, leBytes 2 15), (528, leBytes 2 15), (536, leBytes 4 5),
     (768, ascii "nqn.2021-06.net.plynherex:ih9064:" ++ s.subsysDigits), (1792, leBytes 4 4), (1796, leBytes 4 1),
     (1800, leBytes 2 0), (1802, leBytes 1 0), (1803, leBytes 1 1)]

/-- Identify CNS 00h. -/
def State.identifyNs (s : State) (n : Nat) : List Byte :=
  let x := s.ns n
  layoutBytes 4096
    [(0, leBytes 8 x.nsze), (8, leBytes 8 x.nsze), (16, leBytes 8 (s.nuse n)), (24, leBytes 1 3), (25, leBytes 1 0),
     (31, leBytes 1 0xFF), (33, leBytes 1 9), (34, leBytes 2 15), (36, leBytes 2 15), (40, leBytes 2 15), (42, leBytes 2 0),
     (44, leBytes 2 15), (104, fit 16 x.nguid), (128, leBytes 4 (12 * 65536))]

/-- NVME_IDENTIFY (R151, Table 09-2): CNS 00h to 03h; any other is a field of step 2. -/
def execNvmeIdentify (tag : Nat) (s : State) : Host.Outcome State Fault Refusal :=
  .next <|
    match s.ready tag true 0x06 with
    | none => s
    | some c =>
      let x := s.conn c.conn
      let e := c.entry
      match e.cdw10 % 256 with
      | 0 => s.answerData tag (s.identifyNs e.nsid)
      | 1 => s.answerData tag (s.identifyCtrl (x.ctrl.getD 0))
      | 2 => s.answerData tag (layoutBytes 4096
          [(0, (((s.grantedNs x.pd).filter fun n => e.nsid < n).take 1024).flatMap (leBytes 4))])
      | 3 => s.answerData tag (layoutBytes 4096 [(0, [2, 16, 0, 0] ++ fit 16 (s.ns e.nsid).nguid)])
      | _ => s.finish tag 0 2 true

/-! ### Log pages (Tables 09-4, 09-9 to 09-11, 18-7) -/

/-- The status field of an entry of C0h. -/
def statusField (sct sc : Nat) (dnr : Bool) : Nat := (sc + 256 * sct + if dnr then 16384 else 0) * 2

/-- Log page C0h: 4,112 bytes, entries in QID order. -/
def Ctrl.frozenPage (k : Ctrl) : List Byte :=
  let es := ((List.range 65).flatMap fun q => k.frozen.filter fun f => f.qid = q).take 64
  let ent (f : FrozenEnt) : List Byte :=
    leBytes 2 f.qid ++ leBytes 2 f.cid ++ leBytes 1 f.opcode ++ [0] ++ leBytes 2 (statusField f.sct f.sc true) ++
      leBytes 2 f.sqhd ++ [0, 0] ++ leBytes 4 f.nsid ++ leBytes 8 f.slba ++ leBytes 4 (f.nlb % 65536) ++ leBytes 4 f.count ++
      leBytes 8 f.time ++ List.replicate 24 0
  fit 4112 (leBytes 2 es.length ++ List.replicate 6 0 ++ leBytes 8 k.frozenGen ++ es.flatMap ent)

/-- The lost entries that a domain may read, by NSID and then SLBA. -/
def State.lostVisible (s : State) (pd : Nat) : List (Nat × LostEnt) :=
  ((s.cmdb.nss.filter fun e => e.2.used && s.granted pd e.1 true false).flatMap fun e =>
    (s.cmdb.lost.filter fun l => l.volume = e.2.volume).map fun l => (e.1, l)).take 1024

/-- Log page C1h. -/
def State.lostPage (s : State) (pd : Nat) : List Byte :=
  let es := s.lostVisible pd
  leBytes 4 es.length ++ List.replicate 4 0 ++ leBytes 8 s.cmdb.lostGen ++ es.flatMap fun e =>
    leBytes 4 e.1 ++ leBytes 1 e.2.cause ++ [0, 0, 0] ++ leBytes 8 e.2.lba ++ leBytes 4 e.2.n ++ List.replicate 4 0 ++
      leBytes 8 e.2.time

/-- The code of a time state (TIM_STATUS). -/
def TimeState.pageCode : TimeState → Nat
  | .freerun => 0 | .acquiring => 1 | .locked => 2 | .holdover => 3 | .twin => 4

/-- Log page C3h, 32 bytes. -/
def State.timePage (s : State) : List Byte :=
  leBytes 1 s.tim.st.pageCode ++ leBytes 1 ((if s.tim.slewing && s.tim.st ≠ .twin then 1 else 0) + if s.tim.floorHold then 2 else 0) ++ [0, 0] ++
    leBytes 4 (BitVec.ofInt 32 (max (-2147483648) (min 2147483647 (s.tim.offset / 2000)))).toNat ++ leBytes 8 s.now ++ leBytes 8 s.tim.floor ++ List.replicate 8 0

/-- Log page C2h, 64 bytes (Table 18-7). -/
def State.tenantPage (s : State) (t : Nat) : List Byte :=
  fit 64 (leBytes 2 t ++ List.replicate 6 0 ++ leBytes 8 s.now ++ leBytes 8 (s.counter (1536 + t)) ++
    leBytes 8 (s.counter (2560 + t)))

/-- Whether a tenant may read C2h (R351). -/
def State.tenantMayRead (s : State) (t : Nat) : Bool := (s.rg (Reg.TEL_C2H_EN_EN (t / 32)).addr).getLsbD (t % 32)

/-- Log page 05h: the supported opcodes of Table 09-1. -/
def supportedPage : List Byte :=
  layoutBytes 4096 ((adminOpcodes.map fun o => (4 * o, leBytes 4 1)) ++ (ioOpcodes.map fun o => (1024 + 4 * o, leBytes 4 1)))

/-- The content of a log page and what reading it changes; `none` is an unsupported page. The contents of 01h and 02h are the
shelf's own and not stated: free values (log entry 26). -/
def State.logPage (s : State) (k lid len : Nat) : Option (List Byte × State) :=
  let c := s.ctrl k
  match lid with
  | 0x01 => some (s.drawBytes len)
  | 0x02 => some (s.drawBytes 512)
  | 0x03 => some (layoutBytes 512 [(0, leBytes 1 1), (8, padded 8 s.sec.run.version)], s)
  | 0x04 => some (layoutBytes 4096 [(0, (c.changed.take 1024).flatMap (leBytes 4))], s.setCtrl k { c with changed := [] })
  | 0x05 => some (supportedPage, s)
  | 0x80 =>
    match c.resvLog with
    | [] => some (List.replicate 64 0, s)
    | r :: rs =>
      some (layoutBytes 64 [(8, leBytes 1 r.1), (9, leBytes 1 (min 255 rs.length)), (12, leBytes 4 r.2)],
        s.setCtrl k { c with resvLog := rs })
  | 0xC0 => if c.discovery then none else some (c.frozenPage, s)
  | 0xC1 => some (s.lostPage c.pd, s)
  | 0xC2 => if c.discovery || !s.tenantMayRead c.tenant then none else some (s.tenantPage c.tenant, s)
  | 0xC3 => some (s.timePage, s)
  | _ => none

/-- GET_LOG_PAGE (R351): the page from its offset; bytes past its end read 0 (log entry 26). -/
def execGetLogPage (tag : Nat) (s : State) : Host.Outcome State Fault Refusal :=
  .next <|
    match s.ready tag true 0x02 with
    | none => s
    | some c =>
      let off := c.entry.cdw12 + c.entry.cdw13 * 2 ^ 32
      match s.logPage ((s.conn c.conn).ctrl.getD 0) (c.entry.cdw10 % 256) (off + c.bytes) with
      | none => s.finish tag 1 9 true
      | some (d, s) => s.answerData tag (fit c.bytes (d.drop off))

/-! ### Admin commands -/

/-- The connection of queue `qid` of controller `k`. -/
def State.queueConn (s : State) (k qid : Nat) : Option Nat :=
  (s.xpt.conns.find? fun e => e.2.ctrl = some k && e.2.qid = qid).map Prod.fst

/-- NVME_ABORT (Table 09-1): a received command that has not started completes with Command Abort Requested. -/
def execNvmeAbort (tag : Nat) (s : State) : Host.Outcome State Fault Refusal :=
  .next <|
    match s.ready tag true 0x08 with
    | none => s
    | some c =>
      let q := s.queueConn ((s.conn c.conn).ctrl.getD 0) (c.entry.cdw10 % 65536)
      match q.bind fun n => ((s.conn n).rxq.find? fun r => r.entry.cid = c.entry.cdw10 / 65536).map fun r => (n, r) with
      | none => s.success tag 1
      | some (n, r) => (s.endUnstarted n (fun x => x = r) 0 7 true).success tag 0

/-- Store a namespace's reservation state after a change and carry it in the order stream; a follower takes it from there (R165, R246). With PTPL
set, or when it has just been cleared, it is written with the namespace metadata. -/
def State.setResv (s : State) (n : Nat) (x : Ns) : State :=
  if s.follows then s
  else
    let was := (s.ns n).ptpl
    let s := s.setNs n x
    let s := if x.ptpl || was then s.persist (.ns n) else s
    if s.hasPeer then s.carryChange (.controlMsg (.reservation n x.ptpl x.regs x.rtype x.rholder x.rgen)) else s

/-- SET_FEATURES (Table 09-1): FIDs 06h, 07h, 0Bh, 0Fh, 82h and 83h; 81h is read only. -/
def execSetFeatures (tag : Nat) (s : State) : Host.Outcome State Fault Refusal :=
  .next <|
    match s.ready tag true 0x09 with
    | none => s
    | some c =>
      let k := (s.conn c.conn).ctrl.getD 0
      let v := c.entry.cdw11
      match c.entry.cdw10 % 256 with
      | 0x06 => if v % 2 = 0 then s.finish tag 0 2 true else s.success tag
      | 0x07 =>
        let n := min (max (v % 65536) (v / 65536) + 1) (s.fld Reg.CMD_LIMITS_MAX_IOQ)
        (s.updCtrl k fun x => { x with ioqs := n }).success tag ((n - 1) * 65537)
      | 0x0B => (s.updCtrl k fun x => { x with asyncMask := v }).success tag
      | 0x0F => (s.updCtrl k fun x => { x with kato := v, katoAt := s.now + v * 1000000 }).success tag
      | 0x82 => (s.updCtrl k fun x => { x with resvMask := v }).success tag
      | 0x83 =>
        if s.nsExists c.entry.nsid then (s.setResv c.entry.nsid { s.ns c.entry.nsid with ptpl := v % 2 = 1 }).success tag
        else s.finish tag 0 0x0B true
      | _ => s.finish tag 0 2 true

/-- GET_FEATURES (Table 09-1). -/
def execGetFeatures (tag : Nat) (s : State) : Host.Outcome State Fault Refusal :=
  .next <|
    match s.ready tag true 0x0A with
    | none => s
    | some c =>
      let k := s.ctrl ((s.conn c.conn).ctrl.getD 0)
      match c.entry.cdw10 % 256 with
      | 0x06 => s.success tag 1
      | 0x07 => s.success tag ((k.ioqs - 1) * 65537)
      | 0x0B => s.success tag k.asyncMask
      | 0x0F => s.success tag k.kato
      | 0x81 => s.answerData tag (leBytes 16 k.hostId)
      | 0x82 => s.success tag k.resvMask
      | 0x83 => if s.nsExists c.entry.nsid then s.success tag (if (s.ns c.entry.nsid).ptpl then 1 else 0) else s.finish tag 0 0x0B true
      | _ => s.finish tag 0 2 true

/-- ASYNC_EVENT_REQUEST: held until an event is reported; a fifth outstanding request completes with Invalid Field in Command
(log entry 27). -/
def execAsyncEventRequest (tag : Nat) (s : State) : Host.Outcome State Fault Refusal :=
  .next <|
    match s.ready tag true 0x0C with
    | none => s
    | some c =>
      let k := (s.conn c.conn).ctrl.getD 0
      let x := s.ctrl k
      if 4 ≤ x.aers.length then s.finish tag 0 2 true
      else match x.events with
        | [] => (s.updCmd tag fun c => { c with phase := .waiting }).setCtrl k { x with aers := x.aers ++ [tag] }
        | (ty, info, page) :: es => (s.setCtrl k { x with events := es }).success tag (ty + info * 256 + page * 65536)

/-- KEEP_ALIVE (R162): the timer restarts. -/
def execKeepAlive (tag : Nat) (s : State) : Host.Outcome State Fault Refusal :=
  .next <|
    match s.ready tag true 0x18 with
    | none => s
    | some c =>
      (s.updCtrl ((s.conn c.conn).ctrl.getD 0) fun x => { x with katoAt := s.now + x.kato * 1000000 }).success tag

/-- When the wheel finds that KATO has passed: it looks every 100 ms (R162). -/
def Ctrl.katoCheck (c : Ctrl) : Nat := (c.katoAt + 99999999) / 100000000 * 100000000

/-- KEEP_ALIVE_EXPIRE (R162): no command arrived on the admin queue for KATO; the controller is reset. -/
def execKeepAliveExpire (ctrl : Fin 4096) (s : State) : Host.Outcome State Fault Refusal :=
  .next <|
    let c := s.ctrl ctrl
    s.when (c.used && c.kato ≠ 0 && s.xpt.wheelSlot.isSome) fun s =>
      let s := ((s.reach c.katoCheck).bump Reg.CMD_KATO_EXP_COUNT).raise Ev.CMD_KATO [ctrl.val + 1, 0]
      (s.resetCtrl ctrl).updCtrl ctrl fun x => { x with katoAt := s.now + x.kato * 1000000 }

/-- REGISTER_MEMORY_KEY (R133). -/
def execRegisterMemoryKey (tag : Nat) (s : State) : Host.Outcome State Fault Refusal :=
  .next <|
    match s.ready tag true 0xC4 with
    | none => s
    | some c =>
      let k := (s.conn c.conn).ctrl.getD 0
      let x := s.ctrl k
      let e := c.entry
      let base := e.cdw11 + e.cdw12 * 2 ^ 32
      let len := e.cdw13 + e.cdw14 * 2 ^ 32
      if (x.mkeys.any fun m => m.1 = e.cdw10) || len = 0 || 2 ^ 64 < base + len then s.finish tag 0 2 true
      else if 256 ≤ x.mkeys.length then s.finish tag 0 0x81 true
      else (s.setCtrl k { x with mkeys := x.mkeys ++ [(e.cdw10, base, len)] }).success tag

/-- DEREGISTER_MEMORY_KEY (R133): a key that is not registered has nothing to remove. -/
def execDeregisterMemoryKey (tag : Nat) (s : State) : Host.Outcome State Fault Refusal :=
  .next <|
    match s.ready tag true 0xC5 with
    | none => s
    | some c =>
      (s.updCtrl ((s.conn c.conn).ctrl.getD 0) fun x => { x with mkeys := x.mkeys.filter fun m => m.1 ≠ c.entry.cdw10 }).success tag

/-- THAW_QUEUE (R160). -/
def execThawQueue (tag : Nat) (s : State) : Host.Outcome State Fault Refusal :=
  .next <|
    match s.ready tag true 0xC6 with
    | none => s
    | some c =>
      let k := (s.conn c.conn).ctrl.getD 0
      let q := c.entry.cdw10 % 65536
      match (if q = 0 then none else s.queueConn k q) with
      | none => s.finish tag 1 1 true
      | some n =>
        if !(s.conn n).frozen then s.success tag
        else
          let s := ((s.uncommitted n).map Prod.fst).foldl State.freezeOut s
          let rs := (s.conn n).rxq
          let s := s.updConn n fun x => { x.dropRx (fun _ => true) with frozen := false }
          let s := rs.foldl (fun s r => (s.bump Reg.CMD_FROZEN_CPL_COUNT).completeUnstarted n r 7 0x80 false) s
          let x := s.conn n
          let coming := x.reads.findSome? fun r => match r.use with
            | .entries k _ => some k
            | _ => none
          let next := if x.pull then coming.getD x.sqFetch else x.sqNext
          let s := s.updCtrl k fun y => { y with frozen := y.frozen.filter fun f => f.qid ≠ q, frozenGen := y.frozenGen + 1 }
          (s.raise Ev.CMD_THAWED [k + 1, q]).success tag (2 ^ 31 + next)

/-! ### Fabrics -/

/-- Connect Controller Busy until host I/O is admitted and CMD_CFG.EN is set, and on a twin that does not serve (R340). -/
def State.connectBusy (s : State) : Bool := !s.flag Reg.CMD_CFG_EN || !s.clk.ioReady || !s.serving || s.pwr.st ≠ .run

/-- The lowest free controller slot. -/
def State.freeCtrl (s : State) : Option Nat :=
  (List.range (min 4096 (s.cmdb.ctrls.length + 1))).find? fun k => !(s.ctrl k).used

/-- The slot in which the host NQN of a Connect is enrolled (R132, R152). -/
def State.connectHost (s : State) (d : ConnectData) : Option Nat := s.hostOfId ((Config.sha256 d.hostNqn).take 16)

/-- Whether a Connect's host may use its connection (R132, R133): with Sheath the NQN is that of K1; in plaintext an enrolled host needs
PLAINTEXT_OK, and Discovery an address with DISC_PLAIN; only Discovery needs no enrolment. -/
def State.hostAllowed (s : State) (x : Conn) (d : ConnectData) : Bool :=
  let host := s.connectHost d
  let plainOk := (host.map fun h => (Assoc.get {} s.xpt.hosts h : HostEnt).plaintextOk).getD true
  if x.sheath then (d.discovery || host.isSome) && decide ((x.k1.drop 0x28).take 16 = (Config.sha256 d.hostNqn).take 16)
  else plainOk && (if d.discovery then s.flag (Reg.XPT_IP_CFG_DISC_PLAIN x.addr) else host.isSome)

/-- The controller that a Connect on an admin queue creates. -/
def State.newCtrl (s : State) (conn kato : Nat) (d : ConnectData) : Ctrl :=
  let c : Ctrl := { used := true, discovery := d.discovery, adminConn := conn, hostId := d.hostId, kato := kato,
                    katoAt := s.now + kato * 1000000, ioqs := s.fld Reg.CMD_LIMITS_MAX_IOQ }
  let h : HostEnt := ((s.connectHost d).map fun k => Assoc.get {} s.xpt.hosts k).getD {}
  if d.discovery then { c with pd := noDomain, tenant := noTenant }
  else { c with host := s.connectHost d, pd := h.pd, tenant := h.tenant }

/-- A Connect on an admin queue creates a controller (R152, R132). A Discovery connection runs in capsule mode with the STANDARD policy,
without host slot or tenant (R133). -/
def State.connectAdmin (s : State) (t : Nat) (c : Cmd) (d : ConnectData) : State :=
  let size := c.entry.cdw11 % 65536 + 1
  if d.hostId = 0 || size < 2 || 32 < size || (!d.own && !d.discovery) then s.finish t 1 0x82 true
  else if !s.hostAllowed (s.conn c.conn) d then s.finish t 1 0x84 true
  else match s.freeCtrl with
    | none => s.finish t 1 0x81 false
    | some k =>
      let y := s.newCtrl c.conn c.entry.cdw12 d
      let s := (s.setCtrl k y).updConn c.conn fun x =>
        let x := { x with ctrl := some k, admin := true, qid := 0, host := y.host, pd := y.pd, tenant := y.tenant }
        if d.discovery then { x with pull := false, freeze := false } else x
      s.success t (k + 1)

/-- A Connect on an I/O queue joins the controller that CNTLID names. -/
def State.connectIo (s : State) (t : Nat) (c : Cmd) (d : ConnectData) (q : Nat) : State :=
  let k := d.cntlid - 1
  let x := s.ctrl k
  let size := c.entry.cdw11 % 65536 + 1
  if d.hostId = 0 || size < 2 || s.fld Reg.CMD_LIMITS_MAX_QD < size || d.cntlid = 0 || !x.used || x.discovery ||
      x.hostId ≠ d.hostId || x.ioqs < q || (s.queueConn k q).isSome || !d.own then s.finish t 1 0x82 true
  else if !s.hostAllowed (s.conn c.conn) { d with discovery := false } || s.connectHost d ≠ x.host then s.finish t 1 0x84 true
  else
    (s.updConn c.conn fun y => { y with ctrl := some k, admin := false, qid := q, host := x.host, pd := x.pd, tenant := x.tenant }).success
      t (k + 1)

/-- FABRICS_CONNECT (R152). -/
def execFabricsConnect (tag : Nat) (data : ConnectData) (s : State) : Host.Outcome State Fault Refusal :=
  .next <|
    match s.readyFabrics tag 0x01 with
    | none => s
    | some c =>
      let q := c.entry.cdw10 / 65536
      if (s.conn c.conn).ctrl.isSome then s.finish tag 1 0x82 true
      else if s.connectBusy then s.finish tag 1 0x81 false
      else if (s.conn c.conn).tandemRefused then s.finish tag 7 0x84 true
      else if q = 0 then s.connectAdmin tag c data else s.connectIo tag c data q

/-- CC of a controller: EN and SHN, with the entry sizes of Table 09-2. -/
def Ctrl.cc (k : Ctrl) : Nat := (if k.en then 1 else 0) + k.shn * 2 ^ 14 + 6 * 2 ^ 16 + 4 * 2 ^ 20

/-- PROPERTY_GET (Table 09-2): CAP, VS, CC and CSTS. -/
def execPropertyGet (tag : Nat) (s : State) : Host.Outcome State Fault Refusal :=
  .next <|
    match s.readyFabrics tag 0x04 with
    | none => s
    | some c =>
      match (s.conn c.conn).ctrl with
      | none => s.finish tag 0 2 true
      | some n =>
        let k := s.ctrl n
        match c.entry.cdw11 with
        | 0x00 => s.success tag (1023 + 2 * 2 ^ 24) 0
        | 0x08 => s.success tag 0x20000
        | 0x14 => s.success tag k.cc
        | _ => s.success tag ((if k.en then 1 else 0) + k.shst * 4)

/-- The Property Set of CC that a tag carries, with its controller. -/
def State.setCc (s : State) (t : Nat) (f : Nat → Nat → Ctrl → State → State) : State :=
  match s.readyFabrics t 0x00 with
  | none => s
  | some c =>
    match (s.conn c.conn).ctrl with
    | none => s.finish t 0 2 true
    | some k => f k c.entry.cdw12 (s.ctrl k) s

/-- PROPERTY_SET_ENABLE (R152): CC.EN is written 1 with SHN 0. -/
def execPropertySetEnable (tag : Nat) (s : State) : Host.Outcome State Fault Refusal :=
  .next <| s.setCc tag fun k v c s =>
    if v % 2 = 1 && v / 2 ^ 14 % 4 = 0 then (s.setCtrl k { c with en := true, shn := 0, shst := 0 }).success tag else s

/-- PROPERTY_SET_RESET (R162): CC.EN from 1 to 0 resets the controller once the command's completion is built. -/
def execPropertySetReset (tag : Nat) (s : State) : Host.Outcome State Fault Refusal :=
  .next <| s.setCc tag fun k v c s =>
    if v % 2 = 0 && v / 2 ^ 14 % 4 = 0 then
      if c.en then (s.success tag).resetCtrl k else s.success tag
    else s

/-- PROPERTY_SET_SHUTDOWN (R163): starting stops, and the domain's namespaces are flushed. -/
def execPropertySetShutdown (tag : Nat) (s : State) : Host.Outcome State Fault Refusal :=
  .next <| s.setCc tag fun k v c s =>
    let n := v / 2 ^ 14 % 4
    if n = 0 then s
    else
      ((s.setCtrl k { c with en := v % 2 = 1, shn := n, shst := 1, shFlush := [], shRun := true }).success tag).wakeFlush

/-- FABRICS_DISCONNECT (R162): on the admin queue it resets the controller, on an I/O queue it closes the queue. -/
def execFabricsDisconnect (tag : Nat) (s : State) : Host.Outcome State Fault Refusal :=
  .next <|
    match s.readyFabrics tag 0x08 with
    | none => s
    | some c => (s.success tag).close c.conn 2

/-- AUTHENTICATION_SEND (R367). -/
def execAuthenticationSend (tag : Nat) (s : State) : Host.Outcome State Fault Refusal :=
  .next <|
    match s.readyFabrics tag 0x05 with
    | none => s
    | some _ => s.finish tag 0 2 true

/-- AUTHENTICATION_RECEIVE (R367). -/
def execAuthenticationReceive (tag : Nat) (s : State) : Host.Outcome State Fault Refusal :=
  .next <|
    match s.readyFabrics tag 0x06 with
    | none => s
    | some _ => s.finish tag 0 2 true

/-! ### Reservations (R165) -/

/-- A Reservation Notification of type `ty` to the controllers of hosts `hs`: an entry of page 80h and its event, unless the mask
of feature 82h stops it. -/
def State.resvNotify (s : State) (nsid ty : Nat) (hs : List Nat) : State :=
  (s.ctrlsUsed.filter fun k => hs.contains (s.ctrl k).hostId && !(s.ctrl k).resvMask.testBit ty).foldl (fun s k =>
    (s.updCtrl k fun c => { c with resvLog := c.resvLog ++ [(ty, nsid)] }).hostEvent k 6 0 0x80) s

/-- The key a host is registered with. -/
def Ns.keyOf (x : Ns) (h : Nat) : Option Nat := (x.regs.find? fun r => r.1 = h).map Prod.snd

/-- Remove a registrant; a reservation whose holder goes, or whose last registrant goes, is released. -/
def Ns.unregister (x : Ns) (h : Nat) : Ns :=
  let rs := x.regs.filter fun r => r.1 ≠ h
  let gone := if 5 ≤ x.rtype then rs = [] else x.rholder = some h
  { x with regs := rs, rtype := if gone then 0 else x.rtype, rholder := if gone then none else x.rholder }

/-- RESERVATION_REGISTER (R165): the host's data carry the current and the new key. -/
def execReservationRegister (tag : Nat) (crkey nrkey : Nat) (s : State) : Host.Outcome State Fault Refusal :=
  .next <|
    match s.ready tag false 0x0D with
    | none => s
    | some c =>
      let n := c.entry.nsid
      let x := s.ns n
      let h := (s.ctrl ((s.conn c.conn).ctrl.getD 0)).hostId
      let iekey := c.entry.cdw10.testBit 3
      let x := match c.entry.cdw10 / 2 ^ 30 with
        | 2 => { x with ptpl := false }
        | 3 => { x with ptpl := true }
        | _ => x
      let key := x.keyOf h
      let fits := iekey || key = some crkey
      match c.entry.cdw10 % 8 with
      | 0 =>
        match key with
        | some k => if k = nrkey || iekey then (s.setResv n { x with regs := x.regs.map fun r => if r.1 = h then (h, nrkey) else r,
                                                                     rgen := x.rgen + 1 }).success tag
                    else s.finish tag 0 0x83 true
        | none =>
          if 64 ≤ x.regs.length then s.finish tag 0 0x83 true
          else (s.setResv n { x with regs := x.regs ++ [(h, nrkey)], rgen := x.rgen + 1 }).success tag
      | 1 =>
        if key.isNone || !fits then s.finish tag 0 0x83 true
        else
          let y := x.unregister h
          let s := s.setResv n { y with rgen := x.rgen + 1 }
          let s := if x.rtype ≠ 0 && y.rtype = 0 && 3 ≤ x.rtype then s.resvNotify n 2 (y.regs.map Prod.fst) else s
          s.success tag
      | 2 =>
        if !iekey && (key.isNone || !fits) then s.finish tag 0 0x83 true
        else if key.isNone then
          if 64 ≤ x.regs.length then s.finish tag 0 0x83 true
          else (s.setResv n { x with regs := x.regs ++ [(h, nrkey)], rgen := x.rgen + 1 }).success tag
        else (s.setResv n { x with regs := x.regs.map fun r => if r.1 = h then (h, nrkey) else r, rgen := x.rgen + 1 }).success tag
      | _ => s.finish tag 0 2 true

/-- RESERVATION_REPORT (R165): the extended structure, for 128-bit Host Identifiers. -/
def execReservationReport (tag : Nat) (s : State) : Host.Outcome State Fault Refusal :=
  .next <|
    match s.ready tag false 0x0E with
    | none => s
    | some c =>
      if !c.entry.cdw11.testBit 0 then s.finish tag 0 2 true
      else
        let x := s.ns c.entry.nsid
        let cid (h : Nat) : Nat := ((s.cmdb.ctrls.find? fun e => e.2.used && e.2.hostId = h).map fun e => e.1 + 1).getD 0xFFFF
        let ent (r : Nat × Nat) : List Byte :=
          leBytes 2 (cid r.1) ++ leBytes 1 (if x.holds r.1 then 1 else 0) ++ List.replicate 5 0 ++ leBytes 8 r.2 ++ leBytes 16 r.1 ++
            List.replicate 32 0
        let d := layoutBytes 64 [(0, leBytes 4 x.rgen), (4, leBytes 1 x.rtype), (5, leBytes 2 x.regs.length),
                                 (9, leBytes 1 (if x.ptpl then 1 else 0))] ++ x.regs.flatMap ent
        s.answerData tag (fit c.bytes d)

/-- The commands of preempted hosts on a namespace that have not started end with Command Aborted due to Preempt and Abort. -/
def State.preemptAbort (s : State) (nsid : Nat) (hs : List Nat) : State :=
  (s.xpt.conns.map Prod.fst).foldl (fun s n =>
    let x := s.conn n
    let mine := !x.admin && (match x.ctrl with
      | some k => hs.contains (s.ctrl k).hostId
      | none => false)
    if !mine then s
    else
      s.endUnstarted n (fun r => r.entry.nsid = nsid) 0 0x1E false) s

/-- RESERVATION_ACQUIRE (R165): acquire, preempt, or preempt and abort. -/
def execReservationAcquire (tag : Nat) (crkey prkey : Nat) (s : State) : Host.Outcome State Fault Refusal :=
  .next <|
    match s.ready tag false 0x11 with
    | none => s
    | some c =>
      let n := c.entry.nsid
      let x := s.ns n
      let h := (s.ctrl ((s.conn c.conn).ctrl.getD 0)).hostId
      let act := c.entry.cdw10 % 8
      let ty := c.entry.cdw10 / 256 % 256
      let take (x : Ns) : Ns := { x with rtype := ty, rholder := if 5 ≤ ty then none else some h }
      if ty = 0 || 6 < ty || 2 < act then s.finish tag 0 2 true
      else if x.keyOf h ≠ some crkey then s.finish tag 0 0x83 true
      else if act = 0 then
        if x.rtype = 0 then (s.setResv n (take x)).success tag
        else if x.holds h && x.rtype = ty then s.success tag
        else s.finish tag 0 0x83 true
      else
        let holderKey := if x.rtype = 0 then none else if 5 ≤ x.rtype then some 0 else x.rholder.bind x.keyOf
        let hits := (x.regs.filter fun r => r.1 ≠ h && (r.2 = prkey || (5 ≤ x.rtype && prkey = 0))).map Prod.fst
        let takes := holderKey = some prkey || x.rtype = 0
        if hits = [] && !takes then s.finish tag 0 0x83 true
        else
          let old := x.rtype
          let y : Ns := { x with regs := x.regs.filter fun r => !hits.contains r.1, rgen := x.rgen + 1 }
          let y := if holderKey = some prkey || (takes && hits ≠ []) then take y else y
          let s := s.setResv n y
          let s := s.resvNotify n 1 hits
          let s := if old ≠ 0 && y.rtype ≠ old && holderKey = some prkey then
              s.resvNotify n 2 ((y.regs.map Prod.fst).filter fun g => g ≠ h) else s
          let s := if act = 2 then s.preemptAbort n hits else s
          s.success tag

/-- RESERVATION_RELEASE (R165): release, or clear. -/
def execReservationRelease (tag : Nat) (crkey : Nat) (s : State) : Host.Outcome State Fault Refusal :=
  .next <|
    match s.ready tag false 0x15 with
    | none => s
    | some c =>
      let n := c.entry.nsid
      let x := s.ns n
      let h := (s.ctrl ((s.conn c.conn).ctrl.getD 0)).hostId
      let ty := c.entry.cdw10 / 256 % 256
      let others := (x.regs.map Prod.fst).filter fun g => g ≠ h
      if x.keyOf h ≠ some crkey then s.finish tag 0 0x83 true
      else match c.entry.cdw10 % 8 with
        | 0 =>
          if !x.holds h then s.success tag
          else if x.rtype ≠ ty then s.finish tag 0 2 true
          else
            let s := s.setResv n { x with rtype := 0, rholder := none }
            (if 3 ≤ ty then s.resvNotify n 2 others else s).success tag
        | 1 =>
          let s := s.setResv n { x with regs := [], rtype := 0, rholder := none, rgen := x.rgen + 1 }
          (s.resvNotify n 3 others).success tag
        | _ => s.finish tag 0 2 true

/-! ### Namespaces (R166) -/

/-- The data key slot of a handle of type 1. -/
def keySlot (handle : Nat) : Option Nat :=
  if handle / 2 ^ 28 = 1 && handle % 2 ^ 28 < 65536 then some (handle % 2 ^ 28) else none

/-- Whether a handle names an unbound data key. -/
def State.keyFree (s : State) (handle : Nat) : Bool :=
  match keySlot handle with
  | some i => (s.dataKey i).used && (s.dataKey i).bound.isNone
  | none => false

/-- Bind a key as a generation of a namespace. -/
def State.bindKey (s : State) (handle nsid gen : Nat) : State :=
  match keySlot handle with
  | some i => s.setDataKey i { s.dataKey i with bound := some (nsid, gen) }
  | none => s

/-- CREATE_NAMESPACE (R166). -/
def execCreateNamespace (id : Nat) (s : State) : Host.Outcome State Fault Refusal :=
  .next <| s.runMgmt id 0x0203 [(0, 40)] (· = 48) (fun _ => true) fun c s =>
    let p := c.payload
    let n := leAt p 0 4
    let v := leAt p 4 2
    let sz := leAt p 8 8
    let key := leAt p 0x10 4
    if n = 0 || 16384 < n || 1023 < leAt p 6 2 || 1 < leAt p 0x14 4 || leAt p 0x28 8 ≠ 0 || !(s.volume v).used || sz = 0 ||
        (s.volume v).extents * 4096 < sz then s.complete c .invalidField
    else if (s.ns n).used || (s.nsOf v).isSome then s.complete c .configConflict
    else if !s.keyFree key then s.complete c .invalidField
    else
      let x : Ns := { used := true, volume := v, tenant := leAt p 6 2, nsze := sz, ptpl := leAt p 0x14 4 % 2 = 1,
                      nguid := (p.drop 0x18).take 16, gens := [(1, key % 2 ^ 28)] }
      (((s.setNs n x).bindKey key n 1).nsChanged n []).holderDone c

/-- Begin to delete a namespace: later commands no longer find it (R166). -/
def State.startDelete (s : State) (n : Nat) : State := s.setNs n { s.ns n with deleting := true }

/-- DELETE_NAMESPACE (R166): refused while a lock holds; it completes when the commands that decoded before it have. -/
def execDeleteNamespace (id : Nat) (s : State) : Host.Outcome State Fault Refusal :=
  .next <| s.runMgmt id 0x0204 [(0, 40)] (· = 8) (fun _ => true) fun c s =>
    let n := leAt c.payload 0 4
    if leAt c.payload 4 4 ≠ 0 || !s.nsExists n then s.complete c .invalidField
    else if s.liveLocks n ≠ [] then s.complete c .retentionLocked
    else
      let s := s.startDelete n
      if s.nsBusy n none then s.hold c.id else (s.removeNs n).holderDone c

/-! ### SOLO activation (R164) -/

/-- Whether quiescing is done: every started command but held event requests has completed, and every completion has been
acknowledged. -/
def State.quiesced (s : State) : Bool :=
  !(s.cmdb.cmds.any fun e => !(e.2.admin && e.2.entry.opcode = 0x0C)) && !(s.xpt.conns.any fun e => e.2.st = .ready && e.2.sent ≠ [])

/-- ACTIVATION_QUIESCED (R164). -/
def execActivationQuiesced (s : State) : Host.Outcome State Fault Refusal :=
  .next <|
    match s.cmdb.act with
    | .quiescing _ => if s.quiesced then { s with cmdb.act := .running s.now } else s
    | _ => s

/-- ACTIVATION_ABANDON (R164): 10 ms after it began, quiescing has not ended. -/
def execActivationAbandon (s : State) : Host.Outcome State Fault Refusal :=
  .next <|
    match s.cmdb.act with
    | .quiescing t =>
      ((({ s with cmdb.act := .none }).reach (t + 10000000)).raise Ev.CMD_ACT_ABANDONED).completeWaiting 0x0901 (fun _ => true) .busy
    | _ => s

/-- The image in a boot slot: B or A. -/
def State.slotOf (s : State) (b : Bool) : Option FwLoad := if b then s.sec.slotB else s.sec.slotA

/-- Run the image in a boot slot; the soak of a newly pending SVN starts from 0 (R294). -/
def State.runSlot (s : State) (b : Bool) (base : Nat) : State :=
  match s.slotOf b with
  | none => s
  | some l => { s with sec.run := l.img, sec.bootB := b, sec.soakBase := base, sec.soakFrom := s.now }

/-- The stages restart in place on the new slot (R296). -/
def State.runImage (s : State) : State := s.runSlot s.sec.nextB 0

/-- ACTIVATION_RESUME (R164): the new image runs and fetching resumes. -/
def execActivationResume (s : State) : Host.Outcome State Fault Refusal :=
  .next <|
    match s.cmdb.act with
    | .running _ =>
      let s := { s with cmdb.act := .none }.runImage
      let s := s.completeWaiting 0x0901 (fun _ => true) .success
      (s.xpt.conns.map Prod.fst).foldl (fun s n => if (s.conn n).st = .ready then s.fetchSq n 64 else s) s
    | _ => s

end Sys2Proof.Machine
end

