-- ==== Sys2Proof/Machine/Reads.lean ====
section
/-! DEFINITION. Chapters 01, 11 and 14: reads of blocks, their holding slots, degraded reads and the checks before release
(R15, R201, R278 to R282). -/
namespace Sys2Proof.Machine

/-- Block `i` of a command. -/
def Cmd.blk (c : Cmd) (i : Nat) : RdBlk := c.blocks.getD i { lba := 0, st := .wait }

/-- Change block `i` of the command of tag `t`. -/
def State.updBlk (s : State) (t i : Nat) (f : RdBlk → RdBlk) : State :=
  s.updCmd t fun c => { c with blocks := (c.blocks.zipIdx).map fun b => if b.2 = i then f b.1 else b.1 }

/-- Fail a started read: its holding slots are freed and its completion built. -/
def State.failRead (s : State) (t sct sc : Nat) (dnr : Bool) : State :=
  match s.cmd t with
  | none => s
  | some c =>
    let n := (c.blocks.filter fun b => b.slot).length
    let s := { s with cph.waiting := s.cph.waiting.filter fun w => w.1 ≠ t }
    ((s.freeHold n).updCmd t fun c => { c with blocks := c.blocks.map fun b => { b with slot := false } }).finish t sct sc dnr

/-- The positions of a block's stripe that can be read for a degraded read of position `p`, in order: neither erased nor
found bad. -/
def State.usable (s : State) (m : MapEnt) (p : Nat) (bad : List Nat) : List Nat :=
  (List.range s.geoW).filter fun q => q ≠ p && !bad.contains q && !s.erased m.row m.band q

/-- Whether the stripe of an LBA has an open record, whose clear a reconstruct read waits for (Table 10-9). -/
def State.stripeOpen (s : State) (v lba : Nat) : Bool :=
  let (e, x, _, _) := s.locate lba
  (s.sbg.stripes ++ s.sbg.redo).any fun j => j.volume = v && j.extent = e && j.stripe = x

/-- Whether the stripe of an LBA is suspect and has not been scrubbed, which every read of it waits for (R206). -/
def State.suspectAt (s : State) (v lba : Nat) : Bool :=
  let (e, x, _, _) := s.locate lba
  s.reb.suspect.contains (v, e) && !s.reb.suspectDone.contains (v, e, x)

/-- Issue the drive read of position `q` for block `i` of tag `t`. -/
def State.readPos (s : State) (t i : Nat) (m : MapEnt) (q x blk : Nat) (hedge : Bool := false) : State :=
  let (d, lba) := s.place m.row m.band q x blk
  let s := s.updCmd t fun c => { c with driveIos := c.driveIos + 1 }
  (s.drive d (if hedge then .hedge t i q else .hostRead t i q) true lba (.driveRead d lba)).stamp t 5

/-- Read as many further positions as a degraded block still needs. With too few usable positions the block is lost: with
cause 1 and Unrecovered Read Error when members are missing, with cause 2 and Integrity Failure when a tag had failed. -/
def State.gatherMore (s : State) (t i : Nat) (hedge : Bool) : State :=
  match s.cmd t with
  | none => s
  | some c =>
    let b := c.blk i
    let v := (s.ns c.entry.nsid).volume
    let (e, x, p, blk) := s.locate b.lba
    let m := s.mapEnt v e
    let used := b.have_.map Prod.fst ++ (s.drv.cmds.filterMap fun k => match k.use with
      | .hostRead t' i' q => if t' = t && i' = i then some q else none
      | .hedge t' i' q => if t' = t && i' = i then some q else none
      | _ => none)
    let free := (s.usable m p b.bad).filter fun q => !used.contains q
    let have_ := (used.filter fun q => q ≠ p && !b.bad.contains q).length
    if (s.usable m p b.bad).length < s.geoK then
      if hedge then s
      else if b.step ≠ 0 then ((s.loseBlock v b.lba 2).raise Ev.CPH_INTEGRITY [c.entry.nsid, b.lba, b.step]).failRead t 7 0x83 true
      else (s.loseBlock v b.lba 1).failRead t 2 0x81 true
    else (free.take (s.geoK - have_)).foldl (fun s q => s.readPos t i m q x blk hedge) s

/-- Start the drive reads of block `i` of tag `t`, which holds a slot: its own position, or K others when that is an
erasure (R201). -/
def State.startBlock (s : State) (t i : Nat) : State :=
  match s.cmd t with
  | none => s
  | some c =>
    let b := c.blk i
    let v := (s.ns c.entry.nsid).volume
    let (e, x, p, blk) := s.locate b.lba
    let m := s.mapEnt v e
    if s.suspectAt v b.lba then s.updBlk t i fun b => { b with st := .wait }
    else if b.degraded || s.erased m.row m.band p then
      if s.stripeOpen v b.lba then s.updBlk t i fun b => { b with st := .wait, degraded := true }
      else
        let s := (s.updBlk t i fun b => { b with st := .issued, degraded := true }).updCmd t fun c => { c with wasDegraded := true }
        s.gatherMore t i false
    else (s.updBlk t i fun b => { b with st := .issued }).readPos t i m p x blk

/-- Ask for the holding slot of block `i` of tag `t` and start it, or let it wait for a slot (R282). -/
def State.askBlock (s : State) (t i : Nat) : State :=
  if 0 < s.slotsHeldFree then (s.takeHold.updBlk t i fun b => { b with slot := true }).startBlock t i
  else
    let s := { s with cph.waiting := s.cph.waiting ++ [(t, i)] }
    if s.cph.waitRaised then s else ({ s with cph.waitRaised := true }).raise Ev.CPH_HOLD_WAIT

/-- HOLD_SLOT_GRANT (R282): a free slot goes to the host read that has waited longest, whose drive read is issued. -/
def execHoldSlotGrant (s : State) : Host.Outcome State Fault Refusal :=
  .next <|
    match s.cph.waiting with
    | [] => s
    | (t, i) :: ws =>
      if 0 < s.slotsHeldFree then
        (({ s with cph.waiting := ws }.takeHold).updBlk t i fun b => { b with slot := true }).startBlock t i
      else s

/-- NVME_READ (R15, R201, R205): a lost block fails the read; each block comes from the write buffer, reads as zeros in an
unallocated extent, or is read from the drives. A LEAD command on a standby reads nothing (log entry 28). -/
def execNvmeRead (tag : Nat) (s : State) : Host.Outcome State Fault Refusal :=
  .next <|
    match s.ready tag false 0x02 with
    | none => s
    | some c =>
      let n := c.entry.nsid
      let v := (s.ns n).volume
      if s.follows && (!(s.conn c.conn).tandem || s.hrn.role = .joining) then s.updCmd tag fun c => { c with phase := .waiting }
      else if s.lostIn v c.entry.slba c.entry.nlb then s.finish tag 2 0x81 true
      else
        let blocks : List RdBlk := (List.range c.entry.nlb).map fun i =>
          let lba := c.entry.slba + i
          match s.bufferedBlock n lba with
          | some b => { lba := lba, st := .held b.blk, buffered := true }
          | none =>
            if (s.mapEnt v (lba / 4096)).alloc then { lba := lba, st := .wait }
            else { lba := lba, st := .plain (List.replicate 4096 0) }
        let s := s.updCmd tag fun c =>
          { c with phase := .reading, blocks := blocks, fromBuffer := blocks.any fun b => b.buffered }
        (List.range blocks.length).foldl (fun s i =>
          match (blocks.getD i { lba := 0, st := .wait }).st with
          | .wait => s.askBlock tag i
          | _ => s) s

/-- Whether every block of a command is at hand. -/
def Cmd.allHeld (c : Cmd) : Bool := c.blocks.all fun b => match b.st with
  | .held _ => true
  | .plain _ => true
  | _ => false

/-- The data of a drive read for a host command has arrived (R201): a degraded block is decoded once K positions are there. -/
def State.readArrived (s : State) (t i q : Nat) (d : List Byte) : State :=
  match s.cmd t with
  | none => s
  | some c =>
    let b := c.blk i
    let (_, _, p, _) := s.locate b.lba
    let open_ := decide (b.st = .issued)
    let s :=
      if !open_ then s
      else if q = p then s.updBlk t i fun b => { b with st := .held (fit 4160 d) }
      else
        let have_ := if b.have_.any fun h => h.1 = q then b.have_ else b.have_ ++ [(q, fit 4160 d)]
        if s.geoK ≤ have_.length then
          s.updBlk t i fun b => { b with have_ := have_, st := .held (fit 4160 ((ecDecode s.geoK have_ [p]).headD [])) }
        else s.updBlk t i fun b => { b with have_ := have_ }
    match s.cmd t with
    | none => s
    | some c => if c.allHeld then s.stamp t 6 else s

/-- A drive read for a host command has failed: the position becomes an erasure and the block is decoded from others (R201,
R202); a repaired block is rewritten at background rank. -/
def State.readFailed (s : State) (t i q : Nat) : State :=
  match s.cmd t with
  | none => s
  | some c =>
    let b := c.blk i
    if b.st ≠ .issued then s
    else
      let s := (s.updBlk t i fun b => { b with degraded := true, bad := q :: b.bad }).updCmd t fun c => { c with wasDegraded := true }
      s.gatherMore t i false

/-- Blocks that waited for a stripe's record to clear, or for its scrub, are read. -/
def State.retryBlocks (s : State) : State :=
  (s.cmdb.cmds.filter fun e => e.2.phase = .reading).foldl (fun s e =>
    (e.2.blocks.zipIdx).foldl (fun s b =>
      if b.1.st = .wait && b.1.slot then s.startBlock e.1 b.2 else s) s) s

/-! ### Decryption (R278 to R281) -/

/-- Count what decryption found in a block. -/
def State.countOpened (s : State) : Opened → State
  | .zeros => s.bump Reg.CPH_ZERO_READ_COUNT
  | .plain _ => s
  | .fails k =>
    let s := s.bump Reg.CPH_INTEGRITY_COUNT
    if k = 1 then s.bump Reg.CPH_GUARD_FAIL_COUNT else s

/-- Release the verified blocks of a read: holding slots are freed, blocks decoded around a failed tag are to be rewritten, and
the data and the completion go to the host (R14, R278, R280). -/
def State.releaseRead (s : State) (t : Nat) (c : Cmd) (d : List Byte) : State :=
  let v := (s.ns c.entry.nsid).volume
  let n := (c.blocks.filter fun b => b.slot).length
  let reps := (c.blocks.filter fun b => b.bad ≠ []).flatMap fun b =>
    let (e, x, _, blk) := s.locate b.lba
    let m := s.mapEnt v e
    b.bad.map fun q => (m.row, m.band, q, x, blk)
  let s := (s.freeHold n).updCmd t fun c => { c with blocks := [] }
  let s := { s with lay.repairs := s.lay.repairs ++ reps }
  let e := c.entry
  let s := ((s.stamp t 7).sendData c.conn c.uid e.sglAddr e.sglKey c.colour (d.length + 1) d).stamp t 8
  s.success t

/-- Decrypt the held blocks of a read in order. The first that fails ends the pass (R278, R280): a buffered block has no stripe
to decode from, and is a cipher fault as well; a decoded block has no other copy; any other is read again around the failed
position. -/
def State.openRead (s : State) (t : Nat) (c : Cmd) : Nat → List RdBlk → List Byte → State
  | _, [], acc => s.releaseRead t c acc
  | i, b :: bs, acc =>
    let n := c.entry.nsid
    let v := (s.ns n).volume
    match b.st with
    | .plain d => s.openRead t c (i + 1) bs (acc ++ d)
    | .held blk =>
      let o := openBlock (s.liveKeys n) n b.lba (s.mapEnt v (b.lba / 4096)).gen blk
      let s := s.countOpened o
      match o with
      | .zeros => s.openRead t c (i + 1) bs (acc ++ List.replicate 4096 0)
      | .plain d => s.openRead t c (i + 1) bs (acc ++ d)
      | .fails k =>
        if b.buffered then
          let s := match s.pipesOn false with
            | [] => s
            | p :: _ => s.mismatch p 1 false
          s.failRead t 7 0x83 true
        else if b.degraded then ((s.loseBlock v b.lba 2).raise Ev.CPH_INTEGRITY [n, b.lba, k]).failRead t 7 0x83 true
        else
          let (_, _, p, _) := s.locate b.lba
          let s := (s.updBlk t i fun b => { b with st := .issued, degraded := true, bad := p :: b.bad, step := k }).updCmd t fun c =>
            { c with wasDegraded := true }
          s.gatherMore t i false
    | _ => s

/-! ### CIPHER calls (Table 14-4) -/

/-- A field of a call's ARGS, at its descriptor offset. -/
def Call.arg (c : Call) (o n : Nat) : Nat := leAt c.args (o - 8) n

/-- The key a handle names, with its generation, for at-rest work (R284): a data key or the journal key. -/
def State.handleKey (s : State) (h : Nat) : Option (Nat × List Byte) :=
  if h / 2 ^ 28 = 1 && (s.dataKey (h % 2 ^ 28)).used && h % 2 ^ 28 < 65536 then
    some (((s.dataKey (h % 2 ^ 28)).bound.map Prod.snd).getD 0, (s.dataKey (h % 2 ^ 28)).key)
  else if h / 2 ^ 28 = 3 && h % 2 ^ 28 = 0 && s.cph.journalKey ≠ [] then some (s.cph.journalGen, s.cph.journalKey)
  else none

/-- Whether a call's at-rest arguments are in range: 1 to 512 blocks within one extent, reserved bits 0. -/
def Call.atRestOk (c : Call) : Bool :=
  let n := c.arg 0x0A 2
  decide (1 ≤ n) && decide (n ≤ 512) && decide (c.arg 0x09 1 < 2) && decide (c.arg 0x28 8 % 4096 + n ≤ 4096)

/-- Let the CIPHER engine take its next call if it carries operation `op`. `none` leaves the call waiting. -/
def State.cipherCall (s : State) (op : Nat) (body : Call → State → Option (Nat × Nat × State)) : State :=
  match s.nextCall 2 with
  | none => s
  | some c =>
    if c.arg 8 1 = op then
      match body c s with
      | none => s
      | some (st, r, s) => s.answer c st r
    else if op = 0 && 4 < c.arg 8 1 then s.answer c 2 0
    else s

/-- Seal consecutive blocks of one extent. -/
def sealRun (key : List Byte) (keyGen prefix_ nsid gen : Nat) : Nat → Nat → Nat → List Byte → List (List Byte)
  | 0, _, _, _ => []
  | k + 1, ctr, lba, d =>
    sealBlock key keyGen prefix_ ctr nsid lba gen (fit 4096 d) :: sealRun key keyGen prefix_ nsid gen k (ctr + 1) (lba + 1) (d.drop 4096)

/-- A CIPHER call of operation 0 (R275, R277). -/
def State.encryptCall (s : State) (mism : List Bool) : State :=
  s.cipherCall 0 fun c s =>
    let n := c.arg 0x0A 2
    let nonceIn := c.arg 0x09 1 = 1
    match s.handleKey (c.arg 0x0C 4) with
    | none => some (2, 0, s)
    | some (g, key) =>
      if !c.atRestOk || (nonceIn && (c.tier1 || !s.follows)) || (!nonceIn && c.arg 0x30 8 ≠ 0) then some (2, 0, s)
      else match s.access c (c.arg 0x10 8) (n * 4096) false, s.access c (c.arg 0x18 8) (n * 4160) true with
        | some a, some b =>
          let (s1, ctr) := if nonceIn then (s, some (c.arg 0x30 8)) else s.takeCtrs n
          match ctr with
          | none => none
          | some k =>
            let (s2, ok) := s1.runPipe false 0 mism false
            if !ok then some (7, 0, s2)
            else
              let purpose := if c.arg 0x0C 4 / 2 ^ 28 = 3 then 2 else 1
              let bs := sealRun key g (if nonceIn then s2.hrn.peerTag * 256 + purpose else s2.prefixOf purpose) (c.arg 0x20 4) (c.arg 0x24 4) n k (c.arg 0x28 8) (s2.bytes a (n * 4096))
              some (0, k % 2 ^ 32, { s2 with mem := writeMem s2.mem b bs.flatten })
        | _, _ => some (3, 0, s)

/-- The keys that a call's blocks may name: the live generations of the namespace, or the journal key. -/
def State.callGens (s : State) (c : Call) : List (Nat × List Byte) :=
  if c.arg 0x0C 4 / 2 ^ 28 = 3 then [(s.cph.journalGen, s.cph.journalKey)] else s.liveKeys (c.arg 0x20 4)

/-- Open consecutive blocks: how many were released before the first failure, their plaintext, and whether all passed. Zeros count in ZERO_READ
where they are released. -/
def State.openRun (s : State) (rel : Bool) (gens : List (Nat × List Byte)) (nsid gen : Nat) : Nat → Nat → List Byte → Nat → List Byte →
    State × Nat × List Byte × Bool
  | 0, _, _, done, acc => (s, done, acc, true)
  | k + 1, lba, d, done, acc =>
    let o := openBlock gens nsid lba gen (fit 4160 d)
    let s := if rel || o ≠ .zeros then s.countOpened o else s
    match o with
    | .zeros => s.openRun rel gens nsid gen k (lba + 1) (d.drop 4160) (done + 1) (acc ++ List.replicate 4096 0)
    | .plain p => s.openRun rel gens nsid gen k (lba + 1) (d.drop 4160) (done + 1) (acc ++ p)
    | .fails _ => (s, done, acc, false)

/-- A CIPHER call of operation 1 or 4 (R278): operation 4 releases nothing. -/
def State.decryptCall (s : State) (op : Nat) (mism : List Bool) (reenc : Bool) : State :=
  s.cipherCall op fun c s =>
    let n := c.arg 0x0A 2
    let dst := if op = 4 then some 0 else s.access c (c.arg 0x18 8) (n * 4096) true
    if (s.handleKey (c.arg 0x0C 4)).isNone || !c.atRestOk || c.arg 0x09 1 ≠ 0 || c.arg 0x30 8 ≠ 0 || (op = 4 && c.arg 0x18 8 ≠ 0) then
      some (2, 0, s)
    else match s.access c (c.arg 0x10 8) (n * 4160) false, dst with
      | some a, some b =>
        let (s, ok) := s.runPipe false op mism reenc
        if !ok then some (7, 0, s)
        else
          let (s, k, d, pass) := s.openRun (op = 1) (s.callGens c) (c.arg 0x20 4) (c.arg 0x24 4) n (c.arg 0x28 8) (s.bytes a (n * 4160)) 0 []
          let s := if op = 4 then s else { s with mem := writeMem s.mem b d }
          if pass then some (0, 0, s) else some (6, if op = 4 then 0 else k, s)
      | _, _ => some (3, 0, s)

/-- AT_REST_DECRYPT (R278 to R281), for a call or for the blocks of a read. -/
def execAtRestDecrypt (job : CipherJob) (mismatch : List Bool) (reencrypt : Bool) (s : State) : Host.Outcome State Fault Refusal :=
  .next <|
    match job with
    | .call => s.decryptCall 1 mismatch reencrypt
    | .tag t =>
      match s.cmd t with
      | none => s
      | some c =>
        if c.phase ≠ .reading || !c.allHeld then s
        else
          let (s, ok) := s.runPipe false 1 mismatch reencrypt
          if ok then s.openRead t c 0 c.blocks [] else s.failRead t 0 6 false

/-- AT_REST_VERIFY (R278). -/
def execAtRestVerify (mismatch : List Bool) (reencrypt : Bool) (s : State) : Host.Outcome State Fault Refusal :=
  .next <| s.decryptCall 4 mismatch reencrypt

/-! ### Wire calls (R283) -/

/-- The key and salt of an SA handle: entry 2c is the host-to-device direction of context c, entry 2c + 1 the other (log entry
13). -/
def State.saKey (s : State) (h : Nat) : Option (List Byte × List Byte) :=
  let i := h % 2 ^ 28
  let k := (s.conn (i / 2)).okm
  if h / 2 ^ 28 ≠ 2 || 131072 ≤ i || k = [] then none
  else if i % 2 = 0 then some (k.take 32, (k.drop 32).take 4) else some ((k.drop 36).take 32, (k.drop 68).take 4)

/-- A wire call: ESP over LEN bytes with the ICV behind them. A mismatch is not retried; a failed ICV ends the frame with the
bad-tail marker and counts as an ESP drop. -/
def State.wireCall (s : State) (enc mism : Bool) : State :=
  s.cipherCall (if enc then 2 else 3) fun c s =>
    let n := c.arg 0x20 4
    match s.saKey (c.arg 0x0C 4) with
    | none => some (2, 0, s)
    | some (key, salt) =>
      if c.tier1 || c.arg 0x0A 2 ≠ 0 || c.arg 0x09 1 ≠ 0 || c.arg 0x24 4 ≠ 0 then some (2, 0, s)
      else match s.access c (c.arg 0x10 8) (if enc then n else n + 16) false, s.access c (c.arg 0x18 8) (if enc then n + 16 else n) true,
          s.access c (c.arg 0x28 8) 8 false with
        | some a, some b, some h =>
          let (s, ok) := s.runPipe true (if enc then 2 else 3) [mism] false
          if !ok then some (7, 0, s)
          else
            let nonce := salt ++ leBytes 8 (c.arg 0x30 8)
            let aad := s.bytes h 8 ++ leBytes 8 (c.arg 0x30 8)
            let d := s.bytes a n
            if enc then
              let ct := fit n (Config.gcmEncrypt key nonce d)
              some (0, c.arg 0x30 8 % 2 ^ 32, { s with mem := writeMem s.mem b (ct ++ fit 16 (Config.gcmTag key nonce aad ct)) })
            else
              let s := { s with mem := writeMem s.mem b (fit n (Config.gcmDecrypt key nonce d)) }
              if fit 16 (Config.gcmTag key nonce aad d) = s.bytes (a + n) 16 then some (0, 0, s)
              else some (6, 0, s.espDrop (c.arg 0x0C 4 % 2 ^ 28 / 2))
        | _, _, _ => some (3, 0, s)

/-- WIRE_ENCRYPT (R283). -/
def execWireEncrypt (mismatch : Bool) (s : State) : Host.Outcome State Fault Refusal := .next <| s.wireCall true mismatch

/-- WIRE_DECRYPT (R283). -/
def execWireDecrypt (mismatch : Bool) (s : State) : Host.Outcome State Fault Refusal := .next <| s.wireCall false mismatch

/-- CTR_SAVE_DONE (R274): the pending save succeeds, encryption and held admission resume. -/
def execCtrSaveDone (s : State) : Host.Outcome State Fault Refusal :=
  .next <| s.when (!s.cph.saved && s.cph.ctrEpoch ≠ 0 && s.cph.ctrCount < 2 ^ 40 && s.sec.write.isSome) fun s => { s with cph.saved := true }

/-! ### EC calls (R179, Table 10-4) -/

/-- The addresses of a list of 8-byte entries, each checked for `len` bytes. -/
def State.addrList (s : State) (c : Call) (at_ n len : Nat) (write : Bool) : Option (List Nat) :=
  match s.access c at_ (8 * n) false with
  | none => none
  | some p => (List.range n).mapM fun i => s.access c (leAt (s.bytes (p + 8 * i) 8) 0 8) len write

/-- Run an EC call of operation `op`: `nsrc` sources and `ndst` destinations, `calc` the destinations' bytes. -/
def State.ecCall (s : State) (op : Nat) (ok : Call → Bool) (nsrc ndst : Call → Nat) (f : Call → List (List Byte) → List (List Byte)) :
    State :=
  match s.nextCall 3 with
  | none => s
  | some c =>
    let k := c.arg 0x09 1
    let m := c.arg 0x0A 1
    let len := c.arg 0x0C 4
    if c.arg 8 1 ≠ op then (if op = 0 && 2 < c.arg 8 1 then s.answer c 2 0 else s)
    else if k = 0 || 31 < k || m = 0 || 4 < m || len < 64 || 266240 < len || len % 64 ≠ 0 || c.arg 0x14 4 ≠ 0 || c.arg 0x30 8 ≠ 0 ||
        !ok c then s.answer c 2 0
    else match s.addrList c (c.arg 0x18 8) (nsrc c) len false, s.addrList c (c.arg 0x20 8) (ndst c) len true with
      | some src, some dst =>
        let crc := c.arg 0x28 8
        match (if crc = 0 then some 0 else s.access c crc (4 * ndst c) true) with
        | none => s.answer c 3 0
        | some pc =>
          let out := (f c (src.map fun a => s.bytes a len)).map (fit len)
          let mem := (dst.zip out).foldl (fun m d => writeMem m d.1 d.2) s.mem
          let mem := if crc = 0 then mem else writeMem mem pc (out.flatMap fun d => leBytes 4 (crc32c d))
          { s with mem := mem }.answer c 0 out.length
      | _, _ => s.answer c 3 0

/-- EC_ENCODE (R179). -/
def execEcEncode (s : State) : Host.Outcome State Fault Refusal :=
  .next <| s.ecCall 0 (fun _ => true) (fun c => c.arg 0x09 1) (fun c => c.arg 0x0A 1) fun c d => ecEncode (c.arg 0x0A 1) d

/-- EC_UPDATE (R179). -/
def execEcUpdate (s : State) : Host.Outcome State Fault Refusal :=
  .next <| s.ecCall 1 (fun c => decide (c.arg 0x0B 1 < c.arg 0x09 1)) (fun c => c.arg 0x0A 1 + 2) (fun c => c.arg 0x0A 1) fun c d =>
    ecUpdate (c.arg 0x0B 1) (d.getD 0 []) (d.getD 1 []) (d.drop 2)

/-- The positions named in ERASE, and the others, of a stripe of K + M. -/
def Call.erase (c : Call) (named : Bool) : List Nat :=
  (List.range (c.arg 0x09 1 + c.arg 0x0A 1)).filter fun p => (c.arg 0x10 4).testBit p = named

/-- EC_DECODE (R179): more than M erasures, or fewer than K sources, is BAD_DESC. -/
def execEcDecode (s : State) : Host.Outcome State Fault Refusal :=
  .next <| s.ecCall 2 (fun c => decide ((c.erase true).length ≤ c.arg 0x0A 1) && decide (c.arg 0x10 4 < 2 ^ (c.arg 0x09 1 + c.arg 0x0A 1)))
    (fun c => (c.erase false).length) (fun c => (c.erase true).length) fun c d =>
      ecDecode (c.arg 0x09 1) ((c.erase false).zip d) (c.erase true)

end Sys2Proof.Machine
end

