-- ==== Sys2Proof/Machine/Writes.lean ====
section
/-! DEFINITION. Chapters 01, 09 and 14: writes, zeroing and deallocation, their admission, encryption and buffering, and
Flush (R16, R17, R155, R161, R277). -/
namespace Sys2Proof.Machine

/-- The extents that a range of LBAs meets. -/
def extentsOf (lba n : Nat) : List Nat := (List.range ((lba + n - 1) / 4096 - lba / 4096 + 1)).map fun i => lba / 4096 + i

/-- Allocate the extents of a write that are not allocated, all or none (R176). -/
def State.allocRange (s : State) (v lba n : Nat) : State × Bool :=
  let es := (extentsOf lba n).filter fun e => !(s.mapEnt v e).alloc
  if s.slotsFree < es.length then (s, false) else (es.foldl (fun s e => (s.allocExtent v e).1) s, true)

/-- Hold a command for dirty room or mirror headroom; the first hold for dirty room after HELD was 0 raises
EVT_CMD_DIRTY_HELD (R155). -/
def State.holdWrite (s : State) (t : Nat) (dirty : Bool) : State :=
  let s := s.updCmd t fun c => { c with phase := .held }
  if dirty && !s.cmdb.held then ({ s with cmdb.held := true }).raise Ev.CMD_DIRTY_HELD else s

/-- HELD reads 0 again once no command is held for dirty room. -/
def State.noteHeld (s : State) : State :=
  if s.cmdb.cmds.any fun e => e.2.phase = .held && !s.room 1 then s
  else if s.cmdb.cmds.any fun e => e.2.phase = .held then s
  else { s with cmdb.held := false }

/-- Issue the RDMA READ of a write's data. -/
def State.fetchData (s : State) (t : Nat) (c : Cmd) : State :=
  let e := c.entry
  ((s.updCmd t fun c => { c with phase := .fetching }).sendRead c.conn e.sglAddr e.sglKey (e.nlb * 4096) (.data c.uid)).stamp t 5

/-- Whether an older write is held: held writes go in arrival order. -/
def State.heldBefore (s : State) (uid : Nat) : Bool := s.cmdb.cmds.any fun e => e.2.phase = .held && decide (e.2.uid < uid)

/-- Admit a write whose extents are allocated: it goes on with dirty room, in arrival order, with mirror headroom and a saved
nonce counter, and is held without (R17, R155, R274). -/
def State.admitWrite (s : State) (t : Nat) (c : Cmd) (headroom : Bool) : State :=
  if s.room c.entry.nlb && !s.heldBefore c.uid then
    if headroom && s.mayEncrypt then s.fetchData t c else s.holdWrite t false
  else s.holdWrite t true

/-- Carry out a decoded write: its extents are allocated, or it fails for capacity (R176); then it is admitted. -/
def State.writeCmd (s : State) (t : Nat) (c : Cmd) (headroom : Bool) : State :=
  let r := s.allocRange (s.ns c.entry.nsid).volume c.entry.slba c.entry.nlb
  if r.2 then r.1.admitWrite t c headroom else (r.1.raise Ev.CMD_CAPACITY [c.entry.nsid]).finish t 0 0x81 true

/-- NVME_WRITE (R16, R17, R155, R176): extents are allocated, or the write fails for capacity; then it is admitted under
DIRTY_CAP, mirror headroom and the nonce counter, or held. `headroom` says whether the Harness can mirror it. -/
def execNvmeWrite (tag : Nat) (headroom : Bool) (s : State) : Host.Outcome State Fault Refusal :=
  .next <|
    match s.ready tag false 0x01 with
    | none => s
    | some c => s.writeCmd tag c headroom

/-! ### Zeroing (R158, R176) -/

/-- Cut a range at extent boundaries. -/
def cutRange : Nat → Nat → Nat → List (Nat × Nat)
  | 0, _, _ => []
  | f + 1, lba, n =>
    if n = 0 then []
    else
      let k := min n (4096 - lba % 4096)
      (lba, k) :: cutRange f (lba + k) (n - k)

/-- The blocks just buffered that the peer has still to acknowledge: a STANDBY is present (R16). -/
def State.toMirror (s : State) (ids : List Nat) : List Nat := if s.standbyPresent then ids else []

/-- A twin that follows the order stream acknowledges what it has buffered to the active (R249). -/
def State.mirrored (s : State) (ids : List Nat) : State := if s.follows then s.sendTwin (.mirrorAck ids []) else s

/-- Buffer zero blocks with zero metadata: a write of zeros (R158, R176, log entry 29). -/
def State.bufferZeros (s : State) (t : Nat) (nsid v lba n : Nat) (vis : Bool) : State :=
  let u := (s.cmd t).map Cmd.uid
  let bs : List BufBlk := (List.range n).map fun i =>
    { id := s.lay.nextBuf + i, nsid := nsid, volume := v, lba := lba + i, blk := List.replicate 4160 0, cmd := u, visible := vis }
  let ids := bs.map BufBlk.id
  let s := { s with lay.buffer := s.lay.buffer ++ bs, lay.nextBuf := s.lay.nextBuf + n }
  let s := (if vis then s.showBufs ids else s.noteDirty).mirrored ids
  s.updCmd t fun c => { c with bufs := c.bufs ++ ids, unmirrored := c.unmirrored ++ s.toMirror ids }

/-- Carry out the pieces of a zeroing command while there is room: an unallocated extent is zeros already, a whole extent to be
deallocated is freed, any other piece is written as zero blocks. -/
def State.zeroPieces (s : State) (t : Nat) (c : Cmd) (dealloc : Bool) : List (Nat × Nat) → State
  | [] => ((s.updCmd t fun c => { c with ranges := [], phase := .buffered }).noteHeld).buffered t
  | (lba, n) :: rs =>
    let nsid := c.entry.nsid
    let v := (s.ns nsid).volume
    let e := lba / 4096
    let s := s.clearLost v lba n
    if !(s.mapEnt v e).alloc then s.zeroPieces t c dealloc rs
    else if dealloc && n = 4096 then (s.freeExtent v e).zeroPieces t c dealloc rs
    else if s.room n then
      let x := s.conn c.conn
      (s.bufferZeros t nsid v lba n (!x.freeze)).zeroPieces t c dealloc rs
    else (s.updCmd t fun c => { c with ranges := (lba, n) :: rs }).holdWrite t true

/-- Whether a zeroing command deallocates: Dataset Management with AD, or Write Zeroes with DEAC. -/
def Cmd.dealloc (c : Cmd) : Bool := if c.entry.opcode = 0x09 then c.entry.cdw11.testBit 2 else c.entry.cdw12.testBit 25

/-- NVME_WRITE_ZEROES (R158). -/
def execNvmeWriteZeroes (tag : Nat) (s : State) : Host.Outcome State Fault Refusal :=
  .next <|
    match s.ready tag false 0x08 with
    | none => s
    | some c => s.zeroPieces tag c c.dealloc (cutRange 18 c.entry.slba c.entry.nlb)

/-- Deallocate the ranges that a command keeps. -/
def State.deallocate (s : State) (t : Nat) : State :=
  match s.cmd t with
  | none => s
  | some c => s.zeroPieces t c true c.ranges

/-- NVME_DATASET_MANAGEMENT (R154, R176): Deallocate over the ranges (LBA, blocks) that the host's data list; steps 6, 8, 9 and 10 of
Table 09-3 run on them. Without AD no range is deallocated. -/
def execNvmeDatasetManagement (tag : Nat) (ranges : List (Nat × Nat)) (s : State) : Host.Outcome State Fault Refusal :=
  .next <|
    match s.ready tag false 0x09 with
    | none => s
    | some c =>
      let n := c.entry.nsid
      let rs := ranges.take (c.entry.cdw10 % 256 + 1)
      if rs.any fun r => decide ((s.ns n).nsze < r.1 + r.2) then s.finish tag 0 0x80 true
      else if c.dealloc && rs.any fun r => s.locked n r.1 r.2 then s.finish tag 7 0x82 true
      else if c.dealloc && rs.any fun r => s.lostPart (s.ns n).volume r.1 r.2 then s.finish tag 7 0x81 true
      else
        let ps := if c.dealloc then rs.flatMap fun r => cutRange (r.2 / 4096 + 2) r.1 r.2 else []
        let s := s.updCmd tag fun c => { c with ranges := ps }
        if s.hookOn 1 then (s.updCmd tag fun c => { c with phase := .hook }).invokeHook 1 tag
        else if s.hookRefuses 1 then s.finish tag 0 0x82 true
        else s.deallocate tag

/-- WRITE_DATA_FETCH (R17, R155): headroom or dirty room has returned, and the held write that has waited longest goes on. -/
def execWriteDataFetch (tag : Nat) (s : State) : Host.Outcome State Fault Refusal :=
  .next <|
    match s.cmd tag with
    | none => s
    | some c =>
      if c.phase ≠ .held || s.heldBefore c.uid then s
      else if c.entry.opcode = 0x01 then
        if s.room c.entry.nlb && s.mayEncrypt then (s.fetchData tag c).noteHeld.resumeFetch else s
      else (s.zeroPieces tag c c.dealloc c.ranges).resumeFetch

/-! ### Encryption into the buffer (R277, R281) -/

/-- Buffer the sealed blocks of a write whose nonce counter starts at `ctr`. The newest generation's key seals them, each with the
GEN of its extent. -/
def State.sealWrite (s : State) (t : Nat) (c : Cmd) (ctr pre : Nat) : State :=
  let n := c.entry.nsid
  let v := (s.ns n).volume
  let (g, key) := (s.newestKey n).getD (0, [])
  let x := s.conn c.conn
  let bs : List BufBlk := (List.range c.entry.nlb).map fun i =>
    let lba := c.entry.slba + i
    { id := s.lay.nextBuf + i, nsid := n, volume := v, lba := lba, cmd := some c.uid, visible := !x.freeze,
      blk := sealBlock key g pre (ctr + i) n lba (s.mapEnt v (lba / 4096)).gen (fit 4096 (c.data.drop (4096 * i))) }
  let s := s.clearLost v c.entry.slba c.entry.nlb
  let s := { s with lay.buffer := s.lay.buffer ++ bs, lay.nextBuf := s.lay.nextBuf + c.entry.nlb }
  let s := s.updCmd t fun c => { c with phase := .buffered, bufs := bs.map BufBlk.id, unmirrored := s.toMirror (bs.map BufBlk.id), data := [] }
  let s := if x.freeze then s else s.showBufs (bs.map BufBlk.id)
  (((s.order c.conn (.nonce ctr c.sqIndex c.entry.nlb)).1.stamp t 7).noteDirty).buffered t

/-- On a twin that follows the order stream: seal a write whose data is complete with the nonces of its NONCE entry, and acknowledge
the buffered blocks to the active (R249, R275). A pipeline may mismatch here as on the active (R281). -/
def State.sealFollowed (s : State) (t : Nat) (mismatch : List Bool) : State :=
  match s.cmd t with
  | none => s
  | some c =>
    match (s.conn c.conn).nonces.find? fun x => x.1 = c.sqIndex with
    | none => s
    | some x =>
      if c.phase ≠ .sealing then s
      else
        let (s, ok) := s.runPipe false 0 mismatch false
        let ids := (List.range c.entry.nlb).map fun i => s.lay.nextBuf + i
        if !ok then s.finish t 0 6 false
        else ((s.updConn c.conn fun y => { y with nonces := y.nonces.erase x }).sealWrite t c x.2 (s.hrn.peerTag * 256 + 1)).mirrored ids

/-- AT_REST_ENCRYPT (R277, R281), for a call or for the data of a write; a standby seals with the active's nonces (R275). A
write whose encryption aborts is not buffered and completes with Internal Error. -/
def execAtRestEncrypt (job : CipherJob) (mismatch : List Bool) (s : State) : Host.Outcome State Fault Refusal :=
  .next <|
    match job with
    | .call => s.encryptCall mismatch
    | .tag t =>
      match s.cmd t with
      | none => s
      | some c =>
        if s.follows then s.sealFollowed t mismatch
        else if c.phase ≠ .sealing then s
        else match s.takeCtrs c.entry.nlb with
          | (s, none) => s
          | (s, some k) =>
            let (s, ok) := s.runPipe false 0 mismatch false
            if ok then s.sealWrite t c k (s.prefixOf 1) else s.finish t 0 6 false

/-! ### Flush and the cap -/

/-- The blocks a Flush covers: those of its namespaces whose write's completion had been transmitted when it was received (R161). -/
def State.coveredBy (s : State) (c : Cmd) : List Nat :=
  let pd := (s.conn c.conn).pd
  let ns := if c.entry.nsid = 0xFFFFFFFF then (s.grantedNs pd).filter fun n => s.granted pd n false true else [c.entry.nsid]
  (s.lay.buffer.filter fun b => ns.contains b.nsid && b.visible && (match b.done with
    | some d => decide (d ≤ c.seen)
    | none => b.cmd.isNone)).map BufBlk.id

/-- NVME_FLUSH (R161): it completes when the blocks it covers have landed. -/
def execNvmeFlush (tag : Nat) (s : State) : Host.Outcome State Fault Refusal :=
  .next <|
    match s.ready tag false 0x00 with
    | none => s
    | some c =>
      let ids := s.coveredBy c
      (s.updCmd tag fun c => { c with phase := .waiting, bufs := ids }).wakeFlush

/-- Set DIRTY_CAP (R155): a cap of 0 enters write-through, and the next admission uses the new cap. -/
def State.setCap (s : State) (value : Word) : State :=
  let s := s.setFld Reg.CMD_DIRTY_CAP_DIRTY_CAP (getBits value 23 0)
  let on := decide (getBits value 23 0 = 0)
  let s := s.raiseIf (on && !s.cmdb.through) Ev.CMD_WRITE_THROUGH
  let s := { s with cmdb.through := on }
  s.noteDirty

/-- DIRTY_CAP_WRITE (R155, R356): carried to the peer; a value above the write buffer's ceiling of 31,665 MiB is rejected. -/
def execDirtyCapWrite (value : Word) (s : State) : Host.Outcome State Fault Refusal :=
  .next <| s.when (s.acceptsHolder true && decide (getBits value 23 0 ≤ 31665)) fun s =>
    let s := s.setCap value
    if s.hasPeer then s.carryChange (.carriedReg Reg.CMD_DIRTY_CAP_DIRTY_CAP.addr value) else s

end Sys2Proof.Machine
end

