-- ==== Sys2Proof/Machine/Layout.lean ====
section
/-! DEFINITION. Chapter 10: the layout table, volumes, destage of stripes and the Saddlebag journal. -/
namespace Sys2Proof.Machine

/-! ### BUILD (R171, R172) -/

/-- Insert `x` into a list ordered by key. -/
def insertKey (key : Nat → Nat) (x : Nat) : List Nat → List Nat
  | [] => [x]
  | y :: ys => if key x ≤ key y then x :: y :: ys else y :: insertKey key x ys

def sortKey (key : Nat → Nat) (l : List Nat) : List Nat := l.foldr (insertKey key) []

/-- The generator of R171 from row `r`: the DRBG's order is left uninterpreted. -/
def buildRows (seed n w : Nat) : Nat → Nat → Assoc Nat → Assoc LRow → Assoc LRow × Assoc Nat
  | 0, _, count, rows => (rows, count)
  | f + 1, r, count, rows =>
    let key (d : Nat) : Nat := Assoc.get 0 count d * 2 ^ 64 + Config.permute seed r d % 2 ^ 64
    let chosen := (sortKey key (List.range n)).take w
    let members := sortKey (fun d => Config.permute seed (r + 4096) d) chosen
    let row : LRow := { members := members, ranks := members.map fun d => Assoc.get 0 count d }
    let count := members.foldl (fun c d => Assoc.upd 0 c d (· + 1)) count
    buildRows seed n w f (r + 1) count (Assoc.set {} rows r row)

/-- Whether a volume exists. -/
def State.anyVolume (s : State) : Bool := s.lay.volumes.any fun e => e.2.used

/-- The smallest of a list. -/
def minOf : List Nat → Nat
  | [] => 0
  | [x] => x
  | x :: y :: ys => min x (minOf (y :: ys))

/-- The seed that a BUILD uses: the one stored, or a random one where that is 0; it is stored. -/
def State.layoutSeed (s : State) : Nat × State :=
  let stored := (s.rg Reg.LAY_SEED_SEED.addr).toNat
  let d := s.random 32
  if stored = 0 then (d.1.toNat, d.2.setRg Reg.LAY_SEED_SEED.addr (BitVec.ofNat 32 d.1.toNat))
  else (stored, s.setRg Reg.LAY_SEED_SEED.addr (BitVec.ofNat 32 stored))

/-- The bands and spare units of a layout of `n` members whose rows are these. -/
def State.layoutOf (s : State) (n : Nat) (r : Assoc LRow × Assoc Nat) : Lay :=
  let rd := (List.range n).map fun d => Assoc.get 0 r.2 d
  let rmax := rd.foldl max 0
  let eq := s.fld Reg.LAY_GEOM_SPARE_EQ
  let q := if eq = 0 then 0 else (eq * rmax + (n - eq) - 1) / (n - eq) + eq
  let chunks (d : Nat) : Nat := ((s.member d).blocks - 524288) / s.chunkBlocks
  let b := minOf ((List.range n).map fun d => chunks d / (rd.getD d 0 + q))
  let small := minOf ((List.range n).map fun d => (s.member d).blocks)
  { s.lay with rows := r.1, rd := rd, bands := b, spareQ := q, built := true, minBlocks := small, slots := [], zeroing := [],
               progress := [], rowAt := 0, sbSeq := s.lay.sbSeq + 1 }

/-- A peer learns the seed and builds the same layout. -/
def State.tellLayout (s : State) (seed : Nat) : State :=
  if s.hasPeer then
    (s.carryChange (.carriedReg Reg.LAY_SEED_SEED.addr (BitVec.ofNat 32 seed))).carryChange (.carriedReg Reg.LAY_CTL_BUILD.addr 1)
  else s

/-- Generate the layout table, the bands and the spare depth (R171, R172); a seed of 0 is drawn and written back. -/
def State.buildLayout (s : State) : State :=
  let n := s.geoN
  let seed := s.layoutSeed.1
  let s := s.layoutSeed.2
  let s := { s with lay := s.layoutOf n (buildRows seed n s.geoW 4096 0 [] []) }
  let ds := if s.hrn.holder then (List.range n).filter s.memberUp else []
  (ds.foldl (fun s d => s.emit (.superblock d s.lay.sbSeq s.tim.floor)) s).tellLayout seed

/-- LAYOUT_BUILD (R171): a write of LAY_CTL with BUILD set; discarded while any volume exists, and with no members set. -/
def execLayoutBuild (value : Word) (s : State) : Host.Outcome State Fault Refusal :=
  .next <| s.when (getBits value 0 0 = 1 && s.acceptsHolder true && !s.anyVolume && s.geoN ≠ 0) State.buildLayout

/-! ### Volumes (R177) -/

/-- The map segments no volume owns, lowest first. -/
def State.freeSegs (s : State) : List Nat :=
  (List.range 8192).filter fun g => !(s.lay.volumes.any fun e => e.2.segs.contains g)

/-- Segments that cover a capacity in extents. -/
def segsFor (extents : Nat) : Nat := (extents + 65535) / 65536

/-- CREATE_VOLUME (R177). -/
def execCreateVolume (id : Nat) (s : State) : Host.Outcome State Fault Refusal :=
  .next <| s.runPlain id 0x0200 [(3, 1), (8, 32)] fun c s =>
    let v := c.desc.par 0 2
    let n := c.desc.par 4 4
    let thick := c.desc.par 2 1 = 1
    if 16383 < v || 1 < c.desc.par 2 1 || n = 0 || 536870912 < n then s.complete c .invalidField
    else if (s.volume v).used || !s.lay.built then s.complete c .configConflict
    else
      let fs := s.freeSegs
      if fs.length < segsFor n || (thick && decide (s.slotsFree < n)) then s.complete c .limitExceeded
      else
        let s := (s.setVolume v { used := true, extents := n, segs := fs.take (segsFor n) }).persist (.volume v)
        let s := if thick then (List.range n).foldl (fun s e => (s.allocExtent v e).1) s else s
        s.holderDone c (s.allocated v)

/-- RESIZE_VOLUME (R177). -/
def execResizeVolume (id : Nat) (s : State) : Host.Outcome State Fault Refusal :=
  .next <| s.runPlain id 0x0201 [(3, 1), (8, 32)] fun c s =>
    let v := c.desc.par 0 2
    let n := c.desc.par 4 4
    let x := s.volume v
    if 16383 < v || c.desc.par 2 1 ≠ 0 || n = 0 || 536870912 < n || !x.used then s.complete c .invalidField
    else if x.extents ≤ n then
      let more := segsFor n - x.segs.length
      let fs := s.freeSegs
      if fs.length < more then s.complete c .limitExceeded
      else
        let s := (s.setVolume v { x with extents := n, segs := x.segs ++ fs.take more }).persist (.volume v)
        s.holderDone c (s.allocated v)
    else
      let ns := s.nsOf v
      let size := (ns.map fun k => (s.ns k).nsze).getD 0
      if n * 4096 < size then s.complete c .configConflict
      else if (ns.map fun k => s.locked k (n * 4096) ((x.extents - n) * 4096)).getD false then s.complete c .retentionLocked
      else
        let s := ((x.map.map Prod.fst).filter fun e => decide (n ≤ e)).foldl (fun s e => s.freeExtent v e) s
        let y := s.volume v
        let s := (s.setVolume v { y with extents := n, segs := y.segs.take (segsFor n) }).persist (.volume v)
        s.holderDone c (s.allocated v)

/-- DELETE_VOLUME (R177): its namespace goes first, with the refusals of R166. -/
def execDeleteVolume (id : Nat) (s : State) : Host.Outcome State Fault Refusal :=
  .next <| s.runMgmt id 0x0202 [(0, 40)] (· = 8) (fun _ => true) fun c s =>
    let v := leAt c.payload 0 2
    if !zeroAt c.payload 2 6 || !(s.volume v).used then s.complete c .invalidField
    else match s.nsOf v with
      | none => (s.removeVolume v).holderDone c 0
      | some n =>
        if s.liveLocks n ≠ [] then s.complete c .retentionLocked
        else
          let s := s.startDelete n
          if s.nsBusy n none then s.hold c.id else ((s.removeNs n).removeVolume v).holderDone c 0

/-! ### Destage (R180 to R184, R188) -/

/-- The dirty blocks of a stripe that no stripe write carries, as (position, offset, block). -/
def State.dirtyOf (s : State) (v e x : Nat) : List (Nat × Nat × BufBlk) :=
  (s.lay.buffer.filter fun b => b.volume = v && b.visible && b.stripe.isNone).filterMap fun b =>
    let (e', x', p, o) := s.locate b.lba
    if e' = e && x' = x then some (p, o, b) else none

/-- Whether a Flush or a shutdown waits for a buffered block (R161, R163). -/
def State.flushWaits (s : State) (id : Nat) : Bool :=
  (s.cmdb.cmds.any fun e => e.2.phase = .waiting && e.2.bufs.contains id) || (s.cmdb.ctrls.any fun e => e.2.shFlush.contains id)

/-- Whether destage of a stripe may issue: its map entry must be persisted (R175). A closed window is passed by what R20 forces, write-through and a drain among it (R149, R155,
R189), by the blocks that a Flush or shutdown waits for (R161), and by a record that is to be made again (R186). -/
def State.mayDestage (s : State) (v e x : Nat) : Bool :=
  !s.hrn.silent && s.hrn.swap.isNone && !s.mapStuck v e && (s.windowOpen 0 || s.cmdb.forced || s.cmdb.through || s.pwr.st = .drain ||
    (s.sbg.redo.any fun j => j.volume = v && j.extent = e && j.stripe = x) || (s.dirtyOf v e x).any fun d => s.flushWaits d.2.2.id)

/-- The newest dirty block of a place. -/
def newestAt (ds : List (Nat × Nat × BufBlk)) (p o : Nat) : Option (List Byte) :=
  (ds.reverse.find? fun d => d.1 = p && d.2.1 = o).map fun d => d.2.2.blk

/-- What was read from the members at a position and offset. -/
def readAt (rs : List (Nat × Nat × List Byte)) (p o : Nat) : Option (List Byte) :=
  (rs.find? fun r => r.1 = p && r.2.1 = o).map fun r => fit 4160 r.2.2

/-- The data of position `p` at offset `o` before the write: as read, or decoded from what was read. -/
def oldData (k : Nat) (rs : List (Nat × Nat × List Byte)) (p o : Nat) : List Byte :=
  match readAt rs p o with
  | some d => d
  | none => fit 4160 ((ecDecode k ((rs.filter fun r => r.2.1 = o).map fun r => (r.1, fit 4160 r.2.2)) [p]).headD [])

/-- The write paths of Table 10-5. -/
inductive WPath where
  | degraded | full | rcw | rmw
  deriving DecidableEq, Repr

/-- The path for an offset at which `d` data positions are written. -/
def wpath (k m d : Nat) (deg : Bool) : WPath :=
  if deg then .degraded else if d = k then .full else if k - d < d + m then .rcw else .rmw

/-- The parities of one offset by its path: ENCODE of the whole data, or UPDATE of the old parities per changed position. -/
def newParity (k m : Nat) (path : WPath) (ds : List (Nat × Nat × BufBlk)) (rs : List (Nat × Nat × List Byte)) (o : Nat) :
    List (List Byte) :=
  match path with
  | .rmw =>
    let old := (List.range m).map fun j => oldData k rs (k + j) o
    ((List.range k).foldl (fun ps p =>
      match newestAt ds p o with
      | some d => ecUpdate p (oldData k rs p o) d ps
      | none => ps) old).map (fit 4160)
  | _ => (ecEncode m ((List.range k).map fun p => (newestAt ds p o).getD (oldData k rs p o))).map (fit 4160)

/-- The journal page of a ring slot, and its segment (R183). -/
def pageOf (slot : Nat) : Nat := slot / 64

/-- The copies of a segment: where SBG_SEG has not been set by a restore, those of R183. -/
def State.segOf (s : State) (g : Nat) : Seg :=
  let x := (Assoc.get {} s.sbg.segs g : Seg)
  if x.members ≠ [] then x
  else
    let n := max 1 s.geoN
    { members := [g % n, (g + n / 3) % n, (g + 2 * (n / 3)) % n], current := [true, true, true] }

/-- The copies of a segment that are current on members that are up. -/
def State.segCurrent (s : State) (g : Nat) : List Nat :=
  let x := s.segOf g
  ((x.members.zip x.current).filter fun c => c.2 && s.memberUp c.1).map Prod.fst

/-- Mark the page of a ring slot changed. -/
def State.touchPage (s : State) (slot : Nat) : State :=
  let p := pageOf slot
  if s.sbg.dirtyPages.any fun e => e.1 = p then s else { s with sbg.dirtyPages := Assoc.put s.sbg.dirtyPages p s.now }

/-- The lowest ring slot at or after the next one that holds no open record. -/
def State.ringSlot (s : State) : Nat :=
  ((List.range (s.sbg.stripes.length + 1)).map fun i => (s.sbg.nextSlot + i) % 1048576).find?
    (fun k => !(s.sbg.stripes.any fun j => j.slot = k)) |>.getD s.sbg.nextSlot

/-- Build a record for a stripe write and queue it for the journal and the standby (R181 step 1, R188). -/
def State.addStripe (s : State) (j : Stripe) : State :=
  let slot := s.ringSlot
  let m := s.mapEnt j.volume j.extent
  let s := if j.kind = 0 && m.alloc && m.wgen < s.lay.mapGen then
      s.changeMap j.volume j.extent fun m => { m with wgen := s.lay.mapGen } else s
  let j := { j with slot := slot, seq := s.sbg.seq, mapGen := s.lay.mapGen, phase := .building, acked := !s.standbyPresent }
  let s := { s with sbg.stripes := s.sbg.stripes ++ [j], sbg.seq := s.sbg.seq + 1, sbg.nextSlot := (slot + 1) % 1048576 }
  let s := s.touchPage slot
  if s.standbyPresent || s.hrn.join.isSome then s.sendTwin (.saddlebag slot j.seq false) else s

/-- Whether a position counts as degraded for the write paths: its member is down, or it is substituted and not rebuilt. -/
def State.degradedAt (s : State) (row band p : Nat) : Bool :=
  s.erased row band p || (((s.row row).subAt p).isSome && !s.progressBit row band p)

/-- The stripe write that covers offsets `off` to `off + nblk - 1`: data `dat p o` at the positions of `ps`, parities `par o`; only
live positions are written. -/
def State.stripeOf (s : State) (kind v e x off nblk : Nat) (ps : List Nat) (dat : Nat → Nat → List Byte) (par : Nat → List (List Byte)) :
    Stripe :=
  let m := s.mapEnt v e
  let k := s.geoK
  let js := List.range s.geoM
  let offs := (List.range nblk).map fun i => off + i
  let live (p : Nat) : Bool := !s.erased m.row m.band p
  let at_ (p o : Nat) : Nat × Nat := s.place m.row m.band p x o
  { slot := 0, kind := kind, volume := v, extent := e, stripe := x, row := m.row, band := m.band, incarn := m.incarn, seq := 0,
    mapGen := 0, mask := (ps ++ js.map (k + ·)).foldl (fun b p => b + 2 ^ p) 0, off := off, nblk := nblk,
    pcrc := js.map fun j => crc32c (offs.flatMap fun o => (par o).getD j []),
    dataW := (ps.filter live).flatMap fun p => offs.map fun o => ((at_ p o).1, (at_ p o).2, dat p o),
    parityW := ((js.map (k + ·)).filter live).flatMap fun p => offs.map fun o => ((at_ p o).1, (at_ p o).2, (par o).getD (p - k) []) }

/-- Whether an extent's stripes may be written by destage now: not while it is being rebuilt. -/
def State.extentBusy (s : State) (v e : Nat) : Bool :=
  match s.reb.current with
  | some r => r.volume = v && r.extent = e
  | none => false

/-- Whether what was read of a parity position matches the record's PCRC (R186). -/
def Stripe.parityMatches (j : Stripe) (k : Nat) (rs : List (Nat × Nat × List Byte)) (p : Nat) : Bool :=
  let bs := (List.range j.nblk).map fun i => readAt rs p (j.off + i)
  bs.all Option.isSome && j.pcrc[p - k]? = some (crc32c (bs.flatMap fun b => b.getD []))

/-- Data blocks of a re-destaged record that are not written, cannot be read and cannot be decoded from a parity that matches enter
the Lost Stripe Map (R186). `new` are the places the record's new data covers. -/
def State.loseUnread (s : State) (j : Stripe) (new : List (Nat × Nat)) (rs : List (Nat × Nat × List Byte)) : State :=
  let k := s.geoK
  (List.range j.nblk).foldl (fun s i =>
    let o := j.off + i
    if k ≤ (rs.filter fun r => r.2.1 = o).length then s
    else (List.range k).foldl (fun s p =>
      if new.contains (p, o) || (readAt rs p o).isSome then s
      else s.loseBlock j.volume (j.extent * 4096 + j.stripe * (k * s.stripBlocks) + p * s.stripBlocks + o) 1) s) s

/-- Blocks that an open record needs and that cannot be read are lost. -/
def State.dropUnread (s : State) (redo : Option Stripe) (news : List (Nat × Nat)) (rs : List (Nat × Nat × List Byte)) : State :=
  match redo with
  | some j => s.loseUnread j news rs
  | none => s

/-- Count the path that a destage takes. -/
def State.countPath (s : State) (w : WPath) : State :=
  match w with
  | .degraded => s.bump Reg.LAY_DEGRADED_COUNT
  | .full => s.bump Reg.LAY_FULL_COUNT
  | .rcw => s.bump Reg.LAY_RCW_COUNT
  | .rmw => s.bump Reg.LAY_RMW_COUNT

/-- Open the record of a destage: the buffered blocks `ids` go with it, and it takes the place of a record to be made again. -/
def State.openDestage (s : State) (j : Stripe) (ids : List Nat) : State :=
  let slot := s.ringSlot
  let carry (b : BufBlk) : BufBlk := if ids.contains b.id then { b with stripe := some slot } else b
  let rest : List Stripe := s.sbg.redo.filter fun r => !(r.volume = j.volume && r.extent = j.extent && r.stripe = j.stripe)
  let s := { s with lay.buffer := s.lay.buffer.map carry, sbg.redo := rest }
  s.addStripe j

/-- Start the destage of a stripe: choose its range, with that of a record to be made again (R186), and paths, compute data and parities, build
the record. -/
def State.destage (s : State) (v e x : Nat) (rs : List (Nat × Nat × List Byte)) : State :=
  let m := s.mapEnt v e
  let k := s.geoK
  let ds := s.dirtyOf v e x
  let redo := s.sbg.redo.find? fun j => j.volume = v && j.extent = e && j.stripe = x
  let again : List Nat := (redo.map fun j => [j.off, j.off + j.nblk - 1]).getD []
  let offs := (ds.map fun d => d.2.1) ++ again
  let off := minOf offs
  let nblk := offs.foldl max 0 + 1 - off
  let deg := (List.range s.geoW).any fun p => s.degradedAt m.row m.band p
  let path (o : Nat) : WPath :=
    let w := wpath k s.geoM (((List.range k).filter fun p => (newestAt ds p o).isSome).length) deg
    if redo.isSome && w = .rmw then .rcw else w
  let good (j : Stripe) (r : Nat × Nat × List Byte) : Bool := r.1 < k || j.parityMatches k rs r.1
  let rs : List (Nat × Nat × List Byte) := match redo with
    | some j => rs.filter (good j)
    | none => rs
  let news : List (Nat × Nat) := ds.map fun d => (d.1, d.2.1)
  let s := s.dropUnread redo news rs
  let ps := (List.range k).filter fun p => ds.any fun d => d.1 = p
  let j := s.stripeOf 0 v e x off nblk ps (fun p o => (newestAt ds p o).getD (oldData k rs p o)) fun o =>
    newParity k s.geoM (path o) ds rs o
  (((List.range nblk).map fun i => path (off + i)).foldl State.countPath s).openDestage j (ds.map fun d => d.2.2.id)

/-- Whether a record is made again by a new holder: a rebuild that wrote no parity is not, its extent being rebuilt from the start (R199). -/
def Stripe.redone (j : Stripe) (k : Nat) : Bool := j.kind ≠ 1 || decide (2 ^ k ≤ j.mask)

/-- A new holder re-destages every open record from its own buffer, by reconstruct-write (R186). -/
def State.reopenRecords (s : State) : State :=
  let bs : List BufBlk := s.lay.buffer.map fun b => { b with stripe := none }
  let open_ : List Stripe := s.sbg.stripes.filter fun j => j.redone s.geoK
  { s with sbg.redo := s.sbg.redo ++ open_, sbg.stripes := [], sbg.full := false, lay.buffer := bs, reb.current := none, reb.toSeal := [] }

/-- Whether a record on a stripe is to be made again. -/
def State.redoing (s : State) (v e x : Nat) : Bool := s.sbg.redo.any fun j => j.volume = v && j.extent = e && j.stripe = x

/-- DESTAGE_STRIPE_START (R180, R184): a stripe with dirty blocks and no open record is destaged; `reads` are the blocks read from
the members for its path, as (position, offset, block). A full ring raises EVT_SBG_RING_FULL. -/
def execDestageStripeStart (volume extent stripe : Nat) (reads : List (Nat × Nat × List Byte)) (s : State) :
    Host.Outcome State Fault Refusal :=
  .next <| s.when (s.hrn.holder && s.lay.built && s.mayDestage volume extent stripe && (s.mapEnt volume extent).alloc && !s.sbg.replaying &&
      !(s.reb.suspect.contains (volume, extent) && !s.reb.suspectDone.contains (volume, extent, stripe)) &&
      (!(s.dirtyOf volume extent stripe).isEmpty || s.redoing volume extent stripe) && !s.extentBusy volume extent &&
      !(s.sbg.stripes.any fun j => j.volume = volume && j.extent = extent && j.stripe = stripe)) fun s =>
    if 1048576 ≤ s.sbg.stripes.length then
      if s.sbg.full then s else ({ s with sbg.full := true }).raise Ev.SBG_RING_FULL
    else s.destage volume extent stripe reads

/-- The page gather in ns: 0 while the device drains (R189). -/
def State.gather (s : State) : Nat := if s.pwr.st = .drain then 0 else s.fld Reg.SBG_CFG_GATHER

/-- The 64 records of a journal page; a slot with no open record reads as free (log entry 128). -/
def State.journalBytes (s : State) (page : Nat) : List Byte :=
  (List.range 64).flatMap fun i => match s.sbg.stripes.find? fun j => j.slot = page * 64 + i with
    | some j => j.bytes 1 (j.band % 2 ^ 24 + j.incarn * 2 ^ 24)
    | none => List.replicate 64 0

/-- Write a journal page, as it stands in HBM, to members `ds`; false where no nonce counter may be taken. -/
def State.writeJournal (s : State) (page : Nat) (ds : List Nat) : State × Bool :=
  let b := s.journalBytes page
  s.writeCopies (ds.map fun d => (d, 256 + page)) fun d lba k => .journalPage d lba (s.sealMeta d lba k b) s.tim.floor

/-- Write the copies of a journal page: its records are persisted once two copies can be. -/
def State.writePage (s : State) (page : Nat) : State :=
  let ds := s.segCurrent (page / 256)
  match s.writeJournal page ds with
  | (s, false) => s
  | (s, true) =>
    let s := { s with sbg.dirtyPages := s.sbg.dirtyPages.del page }
    if ds.length < 2 then s
    else { s with sbg.stripes := s.sbg.stripes.map fun j => if pageOf j.slot = page then { j with persisted := true } else j }

/-- JOURNAL_PAGE_WRITE (R183): GATHER after its first change a page is sealed with the journal key and written whole to the
copies of its segment. With fewer than two current copies its records do not open. -/
def execJournalPageWrite (page : Fin 16384) (s : State) : Host.Outcome State Fault Refusal :=
  .next <|
    match (s.sbg.dirtyPages.find? fun e => e.1 = page.val).map Prod.snd with
    | none => s
    | some t => s.when s.hrn.holder fun s => (s.reach (t + s.gather)).writePage page

/-- Issue the writes of a stripe; those to members that are down are dropped (Table 10-9). -/
def State.issueStripe (s : State) (slot : Nat) (ws : List (Nat × Nat × List Byte)) (ph : StripePhase) : State :=
  let ws := ws.filter fun w => s.memberUp w.1
  let s := { s with sbg.stripes := s.sbg.stripes.map fun j => if j.slot = slot then { j with phase := ph, left := ws.length } else j }
  ws.foldl (fun s w => s.drive w.1 (.stripe slot) false w.2.1 (.driveWrite w.1 w.2.1 [w.2.2])) s

def State.stripeAt (s : State) (slot : Nat) : Option Stripe := s.sbg.stripes.find? fun j => j.slot = slot

/-- RECORD_OPEN (R181 steps 2 and 3). -/
def execRecordOpen (slot : Nat) (s : State) : Host.Outcome State Fault Refusal :=
  .next <|
    match s.stripeAt slot with
    | none => s
    | some j => if j.phase = .building && j.acked && j.persisted then s.issueStripe slot j.dataW .data else s

/-- STRIPE_DATA_LANDED (R181 step 4). -/
def execStripeDataLanded (slot : Nat) (s : State) : Host.Outcome State Fault Refusal :=
  .next <|
    match s.stripeAt slot with
    | none => s
    | some j => if j.phase = .data && j.left = 0 then s.issueStripe slot j.parityW .parity else s

/-- Extents whose free waited for a record to clear are freed (R190). -/
def State.freePending (s : State) : State :=
  let ps := s.lay.pendingFree.filter fun p => !s.recordOpen p.1 p.2
  ps.foldl (fun s p => s.freeExtent p.1 p.2) { s with lay.pendingFree := s.lay.pendingFree.filter fun p => s.recordOpen p.1 p.2 }

/-- Clear a record (R181 step 5): its slot and its buffer entries are freed on both twins, and what waited for it goes on. -/
def State.clearStripe (s : State) (j : Stripe) : State :=
  let bs := s.lay.buffer.filter fun b => b.stripe = some j.slot
  let s := { s with sbg.stripes := s.sbg.stripes.filter fun x => x.slot ≠ j.slot, sbg.full := false,
                    lay.buffer := s.lay.buffer.filter fun b => b.stripe ≠ some j.slot }
  let s := (s.keepClean bs).touchPage j.slot
  let s := if s.standbyPresent || s.hrn.join.isSome then s.sendTwin (.saddlebag j.slot j.seq true) else s
  (((s.freePending).noteDirty).wakeFlush).retryBlocks

/-- STRIPE_PARITY_LANDED (R181 step 5). The last record of an extent being rebuilt stays until its progress bit is set (R197). -/
def execStripeParityLanded (slot : Nat) (s : State) : Host.Outcome State Fault Refusal :=
  .next <|
    match s.stripeAt slot with
    | none => s
    | some j =>
      let last := match s.reb.current with
        | some r => j.kind = 1 && j.volume = r.volume && j.extent = r.extent &&
            !(s.sbg.stripes.any fun x => x.slot ≠ j.slot && x.kind = 1 && x.volume = r.volume && x.extent = r.extent)
        | none => false
      if j.phase = .parity && j.left = 0 && !last then s.clearStripe j else s

/-- The newest generation below which every record has cleared (R188). -/
def State.safeOf (s : State) : Nat := s.sbg.stripes.foldl (fun g j => min g j.mapGen) s.lay.mapGen

/-- Write the superblock of every member that is up; only the holder writes to members (R18). -/
def State.writeSuperblocks (s : State) : State :=
  let s := { s with lay.sbSeq := s.lay.sbSeq + 1 }
  if !s.hrn.holder then s else ((s.reb.members.map Prod.fst).filter s.memberUp).foldl (fun s d => s.emit (.superblock d s.lay.sbSeq s.tim.floor)) s

/-- The interval between map generations in ns. -/
def mapGenPeriod : Nat := 100 * 1000 * 1000

/-- MAP_GEN advances. -/
def State.nextMapGen (s : State) : State :=
  let l := { s.lay with mapGen := s.lay.mapGen + 1, mapGenAt := s.lay.mapGenAt + mapGenPeriod }
  { s with lay := l }

/-- MAP_GEN_ADVANCE (R188): every 100 ms of shelf time. A SAFE_GEN that advances is written into every superblock. -/
def execMapGenAdvance (s : State) : Host.Outcome State Fault Refusal :=
  .next <|
    let s := (s.reach (s.lay.mapGenAt + mapGenPeriod)).nextMapGen
    let g := s.safeOf
    if s.lay.safeGen < g then ({ s with lay.safeGen := g }).writeSuperblocks else s

end Sys2Proof.Machine
end

