-- ==== Sys2Proof/Machine/Members.lean ====
section
/-! DEFINITION. Chapter 11, the shared operations of members: changes of state, substitution, the rebuild queue, the journal
copies of a lost member, and the end of outstanding drive commands. -/
namespace Sys2Proof.Machine

/-- The code of a member state (Table 11-1). -/
def MState.code : MState → Nat
  | .active => 0 | .suspect => 1 | .failed => 2 | .draining => 3 | .absent => 4

/-- Which of several causes in one cycle wins (R191): ABSENT, FAILED, DRAINING, SUSPECT, ACTIVE. -/
def MState.prio : MState → Nat
  | .absent => 0 | .failed => 1 | .draining => 2 | .suspect => 3 | .active => 4

/-- The moves of Table 11-1. -/
def mayMove : MState → MState → Bool
  | .absent, .active => true
  | .active, .suspect | .active, .draining | .active, .failed | .active, .absent => true
  | .suspect, .active | .suspect, .draining | .suspect, .failed | .suspect, .absent => true
  | .draining, .absent | .draining, .failed => true
  | .failed, .absent => true
  | _, _ => false

/-! ### Substitution (R195) -/

/-- The spare slots of a member in use. -/
def State.spareUsed (s : State) (d : Nat) : List Nat :=
  s.lay.rows.flatMap fun e => (e.2.subs.filter fun u => u.member = d).map Sub.slot

/-- The substitute for a position of a row: ACTIVE, not in the row, with a free spare slot; the fewest in use, then the lower
index; with its lowest free slot. -/
def State.pickSub (s : State) (x : LRow) : Option (Nat × Nat) :=
  if 4 ≤ x.subs.length then none
  else
    let ds := (s.reb.members.map Prod.fst).filter fun d =>
      (s.member d).st = .active && !x.members.contains d && !(x.subs.any fun u => u.member = d) &&
        decide ((s.spareUsed d).length < s.lay.spareQ)
    match ds.foldl (fun b d => match b with
      | none => some d
      | some y => if (s.spareUsed d).length < (s.spareUsed y).length then some d else b) (none : Option Nat) with
    | none => none
    | some d => ((List.range s.lay.spareQ).find? fun j => !(s.spareUsed d).contains j).map fun j => (d, j)

/-- Clear the progress bits of a position over every extent slot of a row. -/
def State.clearRowBits (s : State) (row p : Nat) : State :=
  (List.range s.lay.bands).foldl (fun s b => s.setProgress row b p false) s

/-- Substitute position `p` of a row for the loss of member `lost`; without a candidate it stays unsubstituted and
EVT_RB_SPARE_OUT is raised. -/
def State.substitute (s : State) (row p lost : Nat) : State :=
  let x := s.row row
  match s.pickSub x with
  | some (d, j) => (s.clearRowBits row p).setRow row { x with subs := x.subs ++ [{ pos := p, member := d, slot := j, lost := lost }] }
  | none => ({ s with reb.spareOut := true }).raise Ev.RB_SPARE_OUT [row, p]

/-- The positions of a row that a member holds at home. -/
def LRow.homeOf (x : LRow) (d : Nat) : List Nat := (List.range x.members.length).filter fun p => x.members.getD p 64 = d

/-- The substitutions of row `r` onto member `d` are replaced. -/
def State.replaceOnto (s : State) (r d : Nat) : State :=
  ((s.row r).subs.filter fun u => u.member = d).foldl (fun s u =>
    let y := s.row r
    (s.setRow r { y with subs := y.subs.filter fun v => v ≠ u }).substitute r u.pos u.lost) s

/-- Position `p` of row `r`, whose home is member `d`, gets a substitution, or keeps one without copy-back. -/
def State.replaceHome (s : State) (r d p : Nat) : State :=
  match (s.row r).subAt p with
  | some u =>
    let y := s.row r
    s.setRow r { y with subs := y.subs.map fun v => if v = u then { v with copyback := false } else v }
  | none => s.substitute r p d

/-- Positions of row `r` at home on member `d` are no longer rebuilt there. -/
def State.leaveHome (s : State) (r d : Nat) : State :=
  let y := s.row r
  s.setRow r { y with rebuildHome := y.rebuildHome.filter fun p => y.members.getD p 64 ≠ d }

/-- The substitutions of row `r` for member `d`. -/
def State.substituteRow (s : State) (r d : Nat) : State :=
  (((s.row r).homeOf d).foldl (fun s p => s.replaceHome r d p) (s.replaceOnto r d)).leaveHome r d

/-- Make the substitutions for a member that becomes FAILED or ABSENT or enters DRAINING, in row order; a substitution onto it is
replaced. -/
def State.substituteMember (s : State) (d : Nat) : State :=
  (s.lay.rows.map Prod.fst).foldl (fun s r => s.substituteRow r d) s

/-- Whether every row of a member could be substituted now (R209). -/
def State.canSubstitute (s : State) (d : Nat) : Bool :=
  let s' := ({ s with reb.spareOut := false }).substituteMember d
  !s'.reb.spareOut

/-! ### The rebuild queue (R196) -/

/-- The allocated extents: volume, extent and map entry. -/
def State.extents (s : State) : List (Nat × Nat × MapEnt) :=
  s.lay.volumes.flatMap fun v => (v.2.map.filter fun e => e.2.alloc).map fun e => (v.1, e.1, e.2)

/-- The work an extent needs: its positions and class, `none` for none. Class 1 has redundancy left 0, class 2 + r has r left;
then drain copies and copy-back. -/
def State.workOf (s : State) (v e : Nat) (m : MapEnt) : Option RbExtent :=
  let x := s.row m.row
  let subs := x.subs.filter fun u => !u.copyback && !s.progressBit m.row m.band u.pos
  let lost := (subs.filter fun u => (s.member u.lost).st ≠ .draining).map Sub.pos ++
    x.rebuildHome.filter fun p => !s.progressBit m.row m.band p
  let drain := (subs.filter fun u => (s.member u.lost).st = .draining).map Sub.pos
  let back := (x.subs.filter fun u => u.copyback && s.progressBit m.row m.band u.pos).map Sub.pos
  let left := s.geoM - (s.erasures m.row m.band).length
  if lost ≠ [] then some ⟨v, e, m.row, m.band, lost, if left = 0 then 1 else 2 + left⟩
  else if drain ≠ [] then some ⟨v, e, m.row, m.band, drain, 10⟩
  else if back ≠ [] then some ⟨v, e, m.row, m.band, back, 11⟩
  else none

/-- The rebuild queue. -/
def State.rebuildQueue (s : State) : List RbExtent := s.extents.filterMap fun x => s.workOf x.1 x.2.1 x.2.2

/-- The order in which the queue is served: class, row, band. -/
def RbExtent.key (r : RbExtent) : Nat := (r.cls * 4096 + r.row) * 2 ^ 24 + r.band

/-- The next extent to take. -/
def State.nextRebuild (s : State) : Option RbExtent :=
  s.rebuildQueue.foldl (fun b r => match b with
    | none => some r
    | some y => if r.key < y.key then some r else b) none

/-- EVT_RB_START when the queue changes from empty, EVT_RB_DONE when it empties. -/
def State.noteQueue (s : State) : State :=
  let on := decide (s.rebuildQueue ≠ []) || s.reb.current.isSome
  if on && !s.reb.running then ({ s with reb.running := true }).raiseIf s.hrn.holder Ev.RB_START
  else if !on && s.reb.running then ({ s with reb.running := false }).raiseIf s.hrn.holder Ev.RB_DONE
  else s

/-- Where the block produced for a position of an extent is written: the substitute, or the home chunk for copy-back and for a
position rebuilt straight home. -/
def State.target (s : State) (r : RbExtent) (p x o : Nat) : Nat × Nat :=
  let y := s.row r.row
  let home := (y.members.getD p 0, r.band * s.lay.rd.getD (y.members.getD p 0) 0 + y.ranks.getD p 0)
  let (d, chunk) := match y.subAt p with
    | some u => if u.copyback then home else (u.member, s.lay.bands * s.lay.rd.getD u.member 0 + u.slot * s.lay.bands + r.band)
    | none => home
  (d, 524288 + chunk * s.chunkBlocks + x * s.stripBlocks + o)

/-- The KIND 1 records of an extent. -/
def State.rebuildRecords (s : State) (r : RbExtent) : List Stripe :=
  s.sbg.stripes.filter fun j => j.kind = 1 && j.volume = r.volume && j.extent = r.extent

/-- An extent being rebuilt onto member `d`, which is lost, is abandoned: its records clear and it is queued again (R214). -/
def State.abandonRebuild (s : State) (d : Nat) : State :=
  match s.reb.current with
  | none => s
  | some r =>
    if r.positions.any fun p => (s.target r p 0 0).1 = d then
      (s.rebuildRecords r).foldl State.clearStripe { s with reb.current := none, reb.toSeal := [] }
    else s

/-! ### Journal copies (R185) and the suspect window (R206) -/

/-- Mark as suspect every extent whose WGEN is SAFE_GEN or newer (R188). -/
def State.suspectWindow (s : State) : State :=
  let xs := (s.extents.filter fun x => decide (s.lay.safeGen ≤ x.2.2.wgen)).map fun x => (x.1, x.2.1)
  if xs = [] then s else ({ s with reb.suspect := xs, reb.suspectDone := [] }).raise Ev.RB_SUSPECT_SCRUB

/-- The copy of segment `g` on member `d` is no longer current. -/
def State.dropCopy (s : State) (g d : Nat) : State :=
  let x := s.segOf g
  { s with sbg.segs := Assoc.put s.sbg.segs g { x with current := (x.members.zip x.current).map fun c => c.2 && c.1 ≠ d } }

/-- Member `c` takes the copy of segment `g` in place of member `d`; the holder writes it. -/
def State.takeCopy (s : State) (g d c : Nat) : State :=
  let x := s.segOf g
  let s := { s with sbg.segs := Assoc.put s.sbg.segs g { x with members := x.members.map fun y => if y = d then c else y } }
  if s.hrn.holder then (List.range 256).foldl (fun s i => (s.writeJournal (g * 256 + i) [c]).1) s else s

/-- A segment's copy on a lost member goes to the next ACTIVE member in index order that holds none, and is written there. -/
def State.moveCopy (s : State) (g d : Nat) : State :=
  let x := s.segOf g
  if !x.members.contains d then s
  else
    let s := s.raise Ev.SBG_COPY_LOST [g, d]
    let n := max 1 s.geoN
    match ((List.range n).map fun i => (d + 1 + i) % n).find? fun c => (s.member c).st = .active && !x.members.contains c with
    | none => s.dropCopy g d
    | some c => (s.takeCopy g d c).raise Ev.SBG_COPY_RESTORED [g, c]

/-- The journal copies on a member that becomes FAILED or ABSENT are replaced. -/
def State.loseCopies (s : State) (d : Nat) : State := (List.range 64).foldl (fun s g => s.moveCopy g d) s

/-! ### Outstanding drive commands -/

/-- A write of a stripe is over: one fewer outstanding. -/
def State.stripeWriteDone (s : State) (slot : Nat) : State :=
  { s with sbg.stripes := s.sbg.stripes.map fun j => if j.slot = slot then { j with left := j.left - 1 } else j }

/-- End a drive command as failed: reads are served by reconstruction, writes are dropped (R192, Table 10-9). -/
def State.endFailed (s : State) (c : DrvCmd) : State :=
  let s := { s with drv.cmds := s.drv.cmds.filter fun x => x.id ≠ c.id }
  match c.use with
  | .hostRead t i q => s.readFailed t i q
  | .hedge t i q => s.updBlk t i fun b => { b with bad := q :: b.bad }
  | .stripe slot => s.stripeWriteDone slot
  | .zero r b => s.zeroDone r b
  | .flush => s

/-- End every command outstanding to a member. -/
def State.endMember (s : State) (d : Nat) : State :=
  (s.drv.cmds.filter fun c => c.member = d).foldl (fun s c => (s.emit (.driveAbort c.id)).endFailed c) s

/-! ### Arbiters (R261) -/

def State.arbCount (s : State) : Nat := if s.flag Reg.HRN_CFG_ARB5 then 5 else 3

/-- Members that may be arbiters: ACTIVE or SUSPECT, in index order. -/
def State.arbMembers (s : State) : List Nat :=
  (s.reb.members.filter fun m => m.2.st = .active || m.2.st = .suspect).map Prod.fst

/-- Replace the arbiter `a`, which is neither ACTIVE nor SUSPECT, by the next such member above the highest arbiter. -/
def State.replaceArb (s : State) (a : Nat) : State :=
  let n := max 1 s.geoN
  let hi := s.hrn.arbs.foldl max 0
  match ((List.range n).map fun i => (hi + 1 + i) % n).find? fun d => s.arbMembers.contains d && !s.hrn.arbs.contains d with
  | none => s
  | some d =>
    let l := s.hrn.arbs.map fun x => if x = a then d else x
    ({ s with hrn.arbs := l }).raise Ev.HRN_ARB_CHANGE [a, d]

/-- The holder keeps HRN_ARB: departed arbiters are replaced, and a list shorter than ARB_COUNT takes ACTIVE members in index
order. -/
def State.fixArbs (s : State) : State :=
  if !s.hrn.holder then s
  else
    let was := s.hrn.arbs
    let s := (s.hrn.arbs.filter fun a => !s.arbMembers.contains a).foldl State.replaceArb s
    let more := (s.arbMembers.filter fun d => (s.member d).st = .active && !s.hrn.arbs.contains d).take (s.arbCount - s.hrn.arbs.length)
    let s := { s with hrn.arbs := s.hrn.arbs ++ more }
    if s.hrn.arbs = was then s else s.tellTwin (.arbiters s.hrn.arbs)

/-! ### Changes of member state (R191) -/

/-- The rows of a member that is lost or drained are substituted, and the superblocks that say so written (R195). -/
def State.substituted (s : State) (d : Nat) : State := (s.substituteMember d).writeSuperblocks

/-- A member is lost: its outstanding commands end, a rebuild onto it is abandoned, and its rows are substituted. -/
def State.memberLost (s : State) (d : Nat) : State := (((s.endMember d).abandonRebuild d).substituted d).loseCopies d

/-- A member becomes ABSENT: a drained member has given up its copies, another is substituted first. -/
def State.memberGone (s : State) (d cause : Nat) (old : MState) : State :=
  let s := if old = .draining then s.raiseIf (cause = 8) Ev.RB_DRAIN_DONE [d] else s
  if old = .failed || (old = .draining && cause = 8) then (s.endMember d).loseCopies d else s.memberLost d

/-- Position `p` of row `r` is at home again: its substitution is copied back, or it is rebuilt there. -/
def State.backHome (s : State) (r p : Nat) : State :=
  let y := s.row r
  let bare := (s.extents.filter fun e => e.2.2.row = r && !s.progressBit r e.2.2.band p).map fun e => (e.2.2.band, p)
  match y.subAt p with
  | some u => s.setRow r { y with homeless := y.homeless ++ bare,
                                  subs := y.subs.map fun v => if v = u then { v with copyback := bare = [] } else v }
  | none => s.setRow r { y with rebuildHome := if y.rebuildHome.contains p then y.rebuildHome else p :: y.rebuildHome }

/-- A member that was ABSENT is back. -/
def State.memberBack (s : State) (d : Nat) : State :=
  (s.lay.rows.map Prod.fst).foldl (fun s r => ((s.row r).homeOf d).foldl (fun s p => s.backHome r p) s) s

/-- A member enters its new state. -/
def State.enterMState (s : State) (d : Nat) (dest : MState) (cause : Nat) : State :=
  let x := s.member d
  let s := (s.setMember d { x with st := dest }).raise Ev.RB_MEMBER_STATE [d, x.st.code, dest.code, cause]
  match dest with
  | .failed => s.memberLost d
  | .absent => s.memberGone d cause x.st
  | .draining => s.substituted d
  | .active => if x.st = .absent then s.memberBack d else s
  | .suspect => s

/-- What a change of state does once it is in effect. -/
def State.applyChange (s : State) (ch : MChange) : State :=
  let from_ := (s.member ch.member).st
  let s := { s with reb.changes := s.reb.changes.filter fun y => y.member ≠ ch.member }
  let s := if mayMove from_ ch.dest then s.enterMState ch.member ch.dest ch.cause else s
  let s := s.noteQueue.fixArbs
  match ch.cmd with
  | none => s
  | some id =>
    match s.ctl.started.find? fun c => c.id = id with
    | some c => if (s.member ch.member).st = ch.dest then s.holderDone c else s.complete c .configConflict
    | none => s

/-- A change waits, and the superblocks that tell of it are written on every member that is up after it. -/
def State.noteChange (s : State) (ch : MChange) : State :=
  let others : List MChange := s.reb.changes.filter fun c => decide (c.member ≠ ch.member)
  let s : State := { s with reb.changes := others ++ [ch], lay.sbSeq := s.lay.sbSeq + 1 }
  let up (k : Nat) : Bool := if k = ch.member then ch.dest = .active || ch.dest = .suspect || ch.dest = .draining else s.memberUp k
  ((s.reb.members.map Prod.fst).filter up).foldl (fun s k => s.emit (.superblock k s.lay.sbSeq s.tim.floor)) s

/-- Change a member's state: superblocks are written first; with a peer the change waits for its acknowledgement. A change that
is already waiting for the same member gives way to the stronger of the two. -/
def State.changeMember (s : State) (d : Nat) (dest : MState) (cause : Nat) (cmd : Option Nat) : State :=
  if !s.hrn.holder || !mayMove (s.member d).st dest then s
  else
    let old := s.reb.changes.find? fun c => c.member = d
    let weaker := match old with
      | some c => decide (c.dest.prio ≤ dest.prio)
      | none => false
    if weaker then s
    else
      let ch : MChange := ⟨d, dest, cause, (old.bind MChange.cmd).or cmd⟩
      let s := s.noteChange ch
      if s.hasPeer then s.carryChange (.controlMsg (.memberState d dest.code)) else s.applyChange ch

/-- A member enters SUSPECT; with AUTO_DRAIN it drains at once when every row can be substituted (R209). -/
def State.suspectMember (s : State) (d cause : Nat) : State :=
  let s := s.changeMember d .suspect cause none
  if s.flag Reg.LAY_RB_CFG_AUTO_DRAIN && (s.member d).st = .suspect && s.canSubstitute d then s.changeMember d .draining cause none else s

/-- An unrecovered read error (Table 11-2): counted, and MEDIA_SUSPECT of them within 1 h make the member SUSPECT. -/
def State.mediaFault (s : State) (d : Nat) : State :=
  let s := s.bump (Reg.LAY_MEMBER_ERR_MEDIA d)
  let x := s.member d
  let ts := s.now :: x.mediaErrs.filter fun t => decide (s.now < t + 3600 * 1000000000)
  let s := s.setMember d { x with mediaErrs := ts }
  if s.fld Reg.LAY_RB_CFG_MEDIA_SUSPECT ≤ ts.length then s.suspectMember d 7 else s

/-- A command timeout (Table 11-2): a write's makes the member FAILED, a read's SUSPECT, and the second read's within 60 s FAILED. -/
def State.timeoutFault (s : State) (d : Nat) (isRead : Bool) : State :=
  let s := s.bump (Reg.LAY_MEMBER_ERR_TMO d)
  if !isRead then s.changeMember d .failed 4 none
  else
    let x := s.member d
    let ts := s.now :: x.timeouts.filter fun t => decide (s.now < t + 60 * 1000000000)
    let s := s.setMember d { x with timeouts := ts }
    if 2 ≤ ts.length then s.changeMember d .failed 5 none else s.suspectMember d 6

/-- The median of a member's read times (R202). -/
def Member.median (x : Member) : Nat :=
  let ins (n : Nat) (l : List Nat) : List Nat := (l.filter (· ≤ n)) ++ [n] ++ (l.filter (n < ·))
  (x.readTimes.foldr ins []).getD (x.readTimes.length / 2) 0

/-- The member on a drive port, if one that is up stands there. -/
def State.memberOn (s : State) (port : Nat) : Option Nat :=
  ((s.reb.members.map Prod.fst).find? fun d => (s.member d).st ≠ .absent && s.portOf d = port)

/-- Add to a drive port's telemetry counter (Table 18-1). -/
def State.countPort (s : State) (d i n : Nat) : State := s.count (1024 + 8 * s.portOf d + i) n

end Sys2Proof.Machine
end

