-- ==== Sys2Proof/Machine/Forward.lean ====
section
/-! DEFINITION. What a forward step of shelf time does to everything that follows it (R39, R101, R124, R148, R346). -/
namespace Sys2Proof.Machine

/-- A connection's transport deadlines move forward by the step (R124). -/
def Conn.shift (a : Nat) (c : Conn) : Conn :=
  { c with retxAt := c.retxAt.map (· + a), ackAt := c.ackAt.map (· + a), alphaAt := c.alphaAt.map (· + a),
           rateAt := c.rateAt.map (· + a), cmAt := c.cmAt.map (· + a), keyAt := c.keyAt.map (· + a),
           quietAt := c.quietAt.map (· + a), rnrAt := c.rnrAt.map (fun p => (p.1 + a, p.2)), gatherAt := c.gatherAt.map (· + a) }

/-- Every entry of a table counts as refreshed at the instant of the step (R101). -/
def State.refreshTable (s : State) (t : Nat) : State :=
  let x := s.table t
  let fresh (es : Assoc (List Byte)) : Assoc (List Byte) := es.map fun e => (e.1, s.stamped t e.2)
  let vs : Assoc Nat := x.entries.foldl (fun v e => Assoc.upd 0 v (e.1 / 4) (· + 1)) x.versions
  s.setTable t { x with entries := fresh x.entries, versions := vs, stash := x.stash.map (s.stamped t),
                        bank := x.bank.map fun b => { b with entries := fresh b.entries } }

/-- Shelf time steps forward by `a` ns: slots and windows (R39, R346), Slalom lists (R148), table ages (R101) and transport
deadlines (R124); commands whose gates the step opens start (R146). -/
def State.stepForward (s : State) (a : Nat) : State :=
  let t0 := s.now
  let s := s.stepTime a
  let s := (List.range 12).foldl (fun s l => s.slalomStep t0 l) s
  let s := (s.refreshTable 0).refreshTable 1
  let cs := s.xpt.conns.map fun e => (e.1, e.2.shift a)
  ({ s with xpt.conns := cs }).startHeld fun _ => true

end Sys2Proof.Machine
end

