-- ==== Sys2Proof/Machine/Time.lean ====
section
/-! DEFINITION. Chapter 02: the PTP client, the servo, steps of shelf time and the secure time floor. -/
namespace Sys2Proof.Machine

/-- The interval at which slots 507 to 510 run: the one the selected grandmaster sets, or 1 s (R38). -/
def State.ptpPeriod (s : State) (f : PtpMaster → Int) : Nat :=
  match s.tim.gm with
  | some g => logInterval (f g)
  | none => 1000000000

/-- Enter a time state, with the events of R25. -/
def State.enterTime (s : State) (t : TimeState) : State :=
  let s := { s with tim.st := t }
  match t with
  | .locked => s.raise Ev.TIME_LOCKED
  | .holdover => s.raise Ev.TIME_HOLDOVER
  | _ => s

/-! ### The servo

The twin's servo runs in every state. In TWIN it is not applied (R29): it moves a time of its own, `ownDiff` ahead of shelf time. -/

/-- The state of the twin's servo. -/
def State.servoSt (s : State) : TimeState := if s.tim.st = .twin then s.tim.ownSt else s.tim.st

/-- The servo enters a state; its events are those of the time state, which in TWIN it is not. -/
def State.setServo (s : State) (t : TimeState) : State :=
  if s.tim.st = .twin then { s with tim.ownSt := t } else s.enterTime t

/-- The correction the servo applies. -/
def State.servoCorr (s : State) : Int := if s.tim.st = .twin then s.tim.ownCorr else s.tim.corr

/-- The servo applies a correction; in LOCKED it enters the span that HOLDOVER averages (R25). -/
def State.setCorr (s : State) (c : Int) : State :=
  let s := if s.tim.st = .twin then { s with tim.ownCorr := c } else { s with tim.corr := c }
  if s.servoSt = .locked then { s with tim.corrs := (s.now, c) :: s.tim.corrs } else s

/-- The sum of the corrections applied from `a` to `e`, each by the ns it was applied, and those ns; newest first. -/
def weighCorrs (a : Nat) : Nat → List (Nat × Int) → Int × Nat
  | _, [] => (0, 0)
  | e, (t, c) :: rest =>
    let b := max a t
    let (w, n) := weighCorrs a (min e b) rest
    (w + c * (e - b : Nat), n + (e - b))

/-- The start of the span of R25: the last 16 s of LOCKED that end at the last Sync, or all of LOCKED. -/
def State.corrSpan (s : State) : Nat := max s.tim.lockedAt (s.tim.lastSync - 16000000000)

/-- The time-weighted mean of the corrections over the span of R25; where the span is empty, the correction in force. -/
def State.corrMean (s : State) : Int :=
  let (w, n) := weighCorrs s.corrSpan s.tim.lastSync s.tim.corrs
  if n = 0 then s.servoCorr else w / n

/-- Entry to LOCKED (R25): the span of corrections begins, and what FREERUN allowed the first correction is over (R26). -/
def State.enterLocked (s : State) : State :=
  let s := { s with tim.lockedAt := s.now, tim.corrs := [(s.now, s.servoCorr)], tim.firstFix := false }
  s.setServo .locked

/-- Entry to HOLDOVER (R25): the mean correction is applied, and a slew in progress stops. -/
def State.enterHoldover (s : State) : State :=
  let m := s.corrMean
  let s := (s.setServo .holdover).setCorr m
  { s with tim.meanCorr := m, tim.slewing := false, tim.slewLeft := 0, tim.goodSyncs := 0, tim.newOffset := false }

/-- FREERUN (Table 02-2): entered while PTP_EN is 0; shelf time runs on XB, uncorrected. -/
def State.enterFreerun (s : State) : State :=
  { s with tim.st := .freerun, tim.ownSt := .freerun, tim.gm := none, tim.gmPort := 0, tim.corr := 0, tim.ownCorr := 0,
           tim.slewing := false, tim.slewLeft := 0, tim.goodSyncs := 0, tim.newOffset := false, tim.firstFix := true }

/-- R30: at takeover or SOLO a twin that followed its holder's time continues from the shelf time it held, in the state its own servo has
reached and on that servo's correction, with the events of R25; its next offset is corrected under R26. -/
def State.leaveTwinTime (s : State) : State :=
  if s.tim.st = .twin then
    ({ s with tim.st := .freerun, tim.corr := s.tim.ownCorr, tim.ownDiff := 0, tim.followLeft := 0, tim.slewing := false,
              tim.slewLeft := 0, tim.newOffset := false, tim.diverged := false }).enterTime s.tim.ownSt
  else s

/-- TWIN (Table 02-2): a STANDBY or JOINING twin follows the holder's shelf time; its own servo goes on from where it is. -/
def State.enterTwinTime (s : State) : State :=
  if s.tim.st = .twin then s
  else { s with tim.ownSt := s.tim.st, tim.st := .twin, tim.ownCorr := s.tim.corr, tim.corr := 0, tim.ownDiff := 0,
                tim.followLeft := 0 }

/-- Move the servo's time forward at once by `d` in 1/65,536 ns: shelf time with EVT_TIME_STEP, whose detail is the ns and the code 0,
servo (log entry 105), or in TWIN the servo's own time alone. -/
def State.servoStep (s : State) (d : Nat) : State :=
  if s.tim.st = .twin then { s with tim.ownDiff := s.tim.ownDiff + d }
  else
    let f := s.tim.frac + d
    (({ s with tim.frac := f % 65536 }).stepForward (f / 65536)).raise Ev.TIME_STEP [d / 65536, 0]

/-- Correct the servo's time by a measured offset in half picoseconds (R26): a negative one and a positive one above STEP_LIMIT are
slewed, a positive one up to STEP_LIMIT, or the first in ACQUIRING after FREERUN, is stepped at once. -/
def State.applyOffset (s : State) (o : Int) : State :=
  let first := s.tim.firstFix && decide (s.servoSt = .acquiring)
  let s := { s with tim.firstFix := false, tim.newOffset := false }
  let d := o * 65536 / 2000
  if o = 0 then { s with tim.slewing := false, tim.slewLeft := 0 }
  else if 0 < o && (first || o ≤ s.fld Reg.TIM_STEP_LIMIT_STEP_LIMIT * 2000) then
    ({ s with tim.slewing := false, tim.slewLeft := 0 }).servoStep d.toNat
  else { s with tim.slewing := true, tim.slewLeft := d }

/-! ### The PTP client (R23, R24) -/

/-- Whether sub-port `k` (4n + s) may be listened on by the PTP client: PTP_EN is 1, its port is eligible (TIM_CTL) and its link is up. -/
def State.ptpPort (s : State) (k : Nat) : Bool :=
  s.flag Reg.TIM_CTL_PTP_EN && (s.fld Reg.TIM_CTL_PTP_PORTS).testBit (k / 4) && (s.subPort k).up

/-- Default data set comparison (R23, IEEE 1588-2019): the properties of the grandmasters in order; for one grandmaster the steps removed,
then the sub-port it is heard on. -/
def betterMaster (a b : PtpMaster) (pa pb : Nat) : Bool :=
  let ka := [a.priority1, a.clockClass, a.accuracy, a.variance, a.priority2, a.identity, a.stepsRemoved, pa]
  let kb := [b.priority1, b.clockClass, b.accuracy, b.variance, b.priority2, b.identity, b.stepsRemoved, pb]
  match (ka.zip kb).find? fun (x, y) => x ≠ y with
  | some (x, y) => x < y
  | none => false

/-- Whether Table 02-1 supports a master's domain, transport and message rates. -/
def State.ptpSupported (s : State) (g : PtpMaster) : Bool :=
  g.domain = s.fld Reg.TIM_CTL_DOMAIN && g.transport = s.fld Reg.TIM_CTL_TRANSPORT &&
    (-7 ≤ g.logSync && g.logSync ≤ 0) && (-7 ≤ g.logMinDelay && g.logMinDelay ≤ 2)

/-- PTP_ANNOUNCE_RX: an Announce of the selected grandmaster keeps it selected; a better one replaces it (R23). -/
def execPtpAnnounceRx (sub : Fin 32) (master : PtpMaster) (s : State) : Host.Outcome State Fault Refusal :=
  .next <| s.when (s.ptpPort sub && s.ptpSupported master) fun s =>
    let k := sub.val
    let select : State := { s with tim.gm := some master, tim.gmPort := k, tim.announceSeen := true }
    match s.tim.gm with
    | none => select
    | some g =>
      if g.identity = master.identity && s.tim.gmPort = k then select
      else if betterMaster master g k s.tim.gmPort then select
      else s

/-- The grandmaster is selected no more. -/
def State.dropMaster (s : State) : State := { s with tim.gm := none, tim.gmPort := 0 }

/-- The selection after TIM_CTL has changed: a master outside the domain, the transport or the eligible ports is none (R23). -/
def State.recheckMaster (s : State) : State :=
  match s.tim.gm with
  | none => s
  | some g => if s.ptpSupported g && (s.fld Reg.TIM_CTL_PTP_PORTS).testBit (s.tim.gmPort / 4) then s else s.dropMaster

/-- The timestamp of a PTP event message received on sub-port `k`: shelf time to 1/16 ns, less the ingress path delay (R24). -/
def State.stampIn (s : State) (k : Nat) : Int :=
  ((s.now * 16 + s.tim.frac / 4096 : Nat) : Int) * 125 - (s.fld (Reg.TIM_PORT_DLY_INGRESS (k / 4)) : Int) * 2

/-- The timestamp of one sent: shelf time to 1/16 ns, less the egress path delay (R24). -/
def State.stampOut (s : State) (k : Nat) : Int :=
  ((s.now * 16 + s.tim.frac / 4096 : Nat) : Int) * 125 - (s.fld (Reg.TIM_PORT_DLY_EGRESS (k / 4)) : Int) * 2

/-- What the servo's time is ahead of shelf time, in half picoseconds. -/
def State.ownAhead (s : State) : Int := if s.tim.st = .twin then s.tim.ownDiff * 2000 / 65536 else 0

/-- The peer's comparison at a Sync taken in while its own servo is LOCKED (R29): EVT_TIME_TWIN_DIVERGE when the difference of its own
servo's time from the holder's first exceeds TWIN_DIV; the detail gives its magnitude in ns (log entry 106). -/
def State.twinCompare (s : State) : State :=
  let d := s.tim.ownDiff.natAbs
  if s.fld Reg.TIM_TWIN_DIV_TWIN_DIV * 65536 < d then
    ({ s with tim.diverged := true }).raiseIf (!s.tim.diverged) Ev.TIME_TWIN_DIVERGE [d / 65536]
  else { s with tim.diverged := false }

/-- PTP_SYNC_RX: a Sync or Follow_Up of the selected grandmaster on its port (R25): FREERUN and HOLDOVER enter
ACQUIRING, the offset of the grandmaster from the servo's time is measured (R24) and the run of Syncs within 100 ns counted. In TWIN the
own servo is fed without being applied, and compared with the holder's time (R29). -/
def execPtpSyncRx (sub : Fin 32) (identity origin : Nat) (correction : Int) (s : State) :
    Host.Outcome State Fault Refusal :=
  .next <| s.when (s.ptpPort sub && s.tim.gmPort = sub.val && (s.tim.gm.map PtpMaster.identity) = some identity) fun s =>
    let t1 : Int := ((origin : Int) + correction) * 2000
    let t2 := s.stampIn s.tim.gmPort
    let o := t1 + s.tim.pathDelay - (t2 + s.ownAhead)
    let s := { s with tim.offset := o, tim.newOffset := true, tim.syncsSeen := true, tim.missedSyncs := 0,
                      tim.syncT1 := t1, tim.syncT2 := t2, tim.lastSync := s.now,
                      tim.goodSyncs := if o.natAbs < 200000 then s.tim.goodSyncs + 1 else 0 }
    match s.servoSt with
    | .freerun => ({ s with tim.firstFix := true }).setServo .acquiring
    | .holdover => s.setServo .acquiring
    | .locked => s.when (s.tim.st = .twin) State.twinCompare
    | _ => s

/-- PTP_DELAY_RESP_RX: the answer on the grandmaster's port completes a path delay measurement by the mechanism in
force (R23, Table 02-1). -/
def execPtpDelayRespRx (sub : Fin 32) (resp : DelayResp) (s : State) : Host.Outcome State Fault Refusal :=
  .next <| s.when (s.ptpPort sub && s.tim.gm.isSome && s.tim.gmPort = sub.val) fun s =>
    match resp with
    | .endToEnd t4 =>
      s.when (s.fld Reg.TIM_CTL_DELAY_MECH = 0) fun s =>
        { s with tim.pathDelay := ((s.tim.syncT2 - s.tim.syncT1) + ((t4 : Int) * 2000 - s.tim.reqT3)) / 2 }
    | .peerToPeer t2 t3 =>
      s.when (s.fld Reg.TIM_CTL_DELAY_MECH = 1) fun s =>
        { s with tim.pathDelay := ((s.stampIn s.tim.gmPort - s.tim.reqT3) - ((t3 : Int) - t2) * 2000) / 2 }

/-- DELAY_REQ_SEND: slot 507 fires; with a grandmaster selected the client sends its request and keeps its timestamp
(R38). -/
def execDelayReqSend (s : State) : Host.Outcome State Fault Refusal :=
  .next <|
    let s := s.fireWith 507 (s.ptpPeriod PtpMaster.logMinDelay)
    s.when (s.flag Reg.TIM_CTL_PTP_EN && s.tim.gm.isSome) fun s =>
      ({ s with tim.reqT3 := s.stampOut s.tim.gmPort }).emit (.delayReq s.tim.gmPort (s.fld Reg.TIM_CTL_DELAY_MECH = 1))

/-- A loss that takes LOCKED to HOLDOVER (R25). -/
def State.loseServo (s : State) : State := s.when (s.servoSt = .locked) State.enterHoldover

/-- SYNC_LOSS_CHECK: slot 508 fires; LOSS_INTERVALS intervals without a Sync take LOCKED to HOLDOVER (R25). -/
def execSyncLossCheck (s : State) : Host.Outcome State Fault Refusal :=
  .next <|
    let s := s.fireWith 508 (s.ptpPeriod PtpMaster.logSync)
    if s.tim.syncsSeen then { s with tim.syncsSeen := false, tim.missedSyncs := 0 }
    else
      let s := { s with tim.missedSyncs := s.tim.missedSyncs + 1 }
      s.when (s.fld Reg.TIM_HOLD_LOSS_INTERVALS ≤ s.tim.missedSyncs) State.loseServo

/-- ANNOUNCE_TIMEOUT: slot 509 fires; an interval in which the selected grandmaster sent no Announce is an Announce
timeout, which takes LOCKED to HOLDOVER (R25) and opens the selection to any master (R23). Log entry 11. -/
def execAnnounceTimeout (s : State) : Host.Outcome State Fault Refusal :=
  .next <|
    let s := s.fireWith 509 (s.ptpPeriod PtpMaster.logAnnounce)
    if s.tim.announceSeen || s.tim.gm.isNone then { s with tim.announceSeen := false }
    else s.loseServo.dropMaster

/-- SERVO_UPDATE: slot 510 fires; 16 consecutive Syncs within 100 ns take ACQUIRING to LOCKED, and a new offset is
corrected under R26. The frequency correction the servo then applies is a free value (log entry 10). -/
def execServoUpdate (s : State) : Host.Outcome State Fault Refusal :=
  .next <|
    let s := s.fireWith 510 (s.ptpPeriod PtpMaster.logSync)
    s.when (s.servoSt = .acquiring || s.servoSt = .locked) fun s =>
      let s := s.when (s.servoSt = .acquiring && 16 ≤ s.tim.goodSyncs) State.enterLocked
      s.when s.tim.newOffset fun s =>
        (({ s with free := s.free + 1 }).setCorr (Config.servoCorr s.free)).applyOffset s.tim.offset

/-- HOLDOVER_MEAN_UPDATE: slot 511 fires each second and brings the mean of R25 up to date; corrections that the span has left are
dropped. -/
def execHoldoverMeanUpdate (s : State) : Host.Outcome State Fault Refusal :=
  .next <|
    let s := s.fire 511
    s.when (s.servoSt = .locked) fun s =>
      let a := s.corrSpan
      let old := (s.tim.corrs.filter fun e => e.1 < a).take 1
      { s with tim.meanCorr := s.corrMean, tim.corrs := (s.tim.corrs.filter fun e => a ≤ e.1) ++ old }

/-- A forward step that a command makes: a measured offset that the servo slews or has not yet corrected is smaller by it (R26). -/
def State.commandStep (s : State) (a : Nat) : State :=
  let left := s.tim.slewLeft - a * 65536
  let s := if s.tim.slewing && s.tim.st ≠ .twin then { s with tim.slewLeft := left, tim.slewing := decide (left ≠ 0) } else s
  let s := if s.tim.newOffset && s.tim.st ≠ .twin then { s with tim.offset := s.tim.offset - a * 2000 } else s
  (s.stepForward a).raise Ev.TIME_STEP [a, 1]

/-- STEP_SHELF_TIME (R27): a forward amount of 1 to 2^63 − 1 ns steps shelf time in one cycle, reaches the peer and
raises EVT_TIME_STEP, whose detail gives the amount and the code 1, command (log entry 105). -/
def execStepShelfTime (id : Nat) (s : State) : Host.Outcome State Fault Refusal :=
  .next <| s.runPlain id 0x0003 [(0x08, 32)] fun c s =>
    let a := c.desc.par 0 8
    if a = 0 || 2 ^ 63 ≤ a then s.complete c .invalidField
    else
      let s := s.commandStep a
      s.holderDone c s.now a

/-- The floor is held while the XA monitor is tripped (R31): FLOOR_HOLD reads 1 and EVT_FLOOR_HOLD is raised. -/
def State.holdFloor (s : State) : State :=
  if s.tim.floorHold then s else ({ s with tim.floorHold := true }).raise Ev.FLOOR_HOLD

/-- FLOOR_ADVANCE (R31): every 1 ms of XA the floor advances by the advance of shelf time, clamped to 200 ppm about the
interval; while the XA monitor is tripped it holds (EVT_FLOOR_HOLD is raised at the trip, State.loseXa). -/
def execFloorAdvance (s : State) : Host.Outcome State Fault Refusal :=
  .next <|
    let adv := s.now - s.tim.floorRef
    let s := { s with tim.floorRef := s.now }
    if s.clk.xaTripped then s.holdFloor
    else { s with tim.floorHold := false, tim.floor := s.tim.floor + min 1000200 (max 999800 adv) }

end Sys2Proof.Machine
end

