-- ==== Sys2Proof/Machine/Pair.lean ====
section
/-! DEFINITION. Chapter 13, the shared operations of the pair: roles, fencing, the taking of the cinch, the start-up claim,
becoming alone, taking over, joining. -/
namespace Sys2Proof.Machine

/-! ### Members (R256, R257) -/

/-- The live members: ACTIVE, SUSPECT or DRAINING (R372). -/
def State.liveMembers (s : State) : List Nat :=
  (s.reb.members.filter fun m => m.2.st = .active || m.2.st = .suspect || m.2.st = .draining).map Prod.fst

/-- A reservation key (Table 13-8), and its parts. -/
def cinchKey (tag epoch role : Nat) : Nat := (tag % 2 ^ 24 * 2 ^ 32 + epoch % 2 ^ 32) * 256 + role % 256
def keyTag (k : Nat) : Nat := k / 2 ^ 40 % 2 ^ 24
def keyEpoch (k : Nat) : Nat := k / 256 % 2 ^ 32

/-- Issue a reservation command to a member with this twin's key at an epoch and ROLE; a preempt names another key. -/
def State.reserve (s : State) (member what epoch role : Nat) (preempted : Nat := 0) : State :=
  s.emit (.reserve member what (cinchKey s.deviceTag epoch role) preempted)

/-- HRN_EPOCH. -/
def State.epoch (s : State) : Nat := s.fld Reg.HRN_EPOCH_EPOCH

/-- Register this twin's key on every live member at its epoch with a ROLE (R264, R267). -/
def State.registerAll (s : State) (epoch role : Nat) : State :=
  s.liveMembers.foldl (fun s m => s.reserve m 1 epoch role) s

/-- The ROLE a round registers (R256): ACTIVE at a Role Swap or a yield, SOLO otherwise. -/
def RoundKind.role : RoundKind → Nat
  | .swap | .yield => 0
  | _ => 4

/-! ### Roles (R239) -/

/-- Enter a role: EVT_HRN_ROLE with the old role, the new one and the cause. HOLDER returns to 0 in every role but ACTIVE and SOLO,
and shelf time follows the holder's while this twin is STANDBY or JOINING (R29, R30). -/
def State.setRole (s : State) (r : Role) (cause : Nat) : State :=
  let s := s.raise Ev.HRN_ROLE [roleCode s.hrn.role, roleCode r, cause]
  let keep := decide (r = .active) || decide (r = .solo)
  let s := { s with hrn.role := r, hrn.holder := s.hrn.holder && keep }
  if r = .standby || r = .joining then s.enterTwinTime else s.leaveTwinTime

/-- Complete the mgmt command that a step of the pair was to complete. -/
def State.endCmd (s : State) (id : Option Nat) (st : MStatus) (r0 : Nat := 0) : State :=
  match id.bind fun id => s.ctl.started.find? fun c => c.id = id with
  | some c => s.complete c st r0
  | none => s

/-- What ends with the twin's part in the pair: arbitration, claim, join, swap and self-check. A join or a swap that ends so completes its
command with CONFIG_CONFLICT. -/
def State.endPairWork (s : State) : State :=
  let s := s.endCmd (s.hrn.join.bind Join.id) .configConflict
  let s := s.endCmd (s.hrn.swap.bind SwapRun.id) .configConflict
  let s := s.endCmd s.hrn.leaving .configConflict
  let s := s.endCmd s.hrn.upgrade .configConflict
  let h := { s.hrn with arbAt := none, retryAt := none, round := none, claim := .none, join := none, swap := none, leaving := none,
                        upgrade := none, check := none, silent := false, was := none, ctrlSeen := none, ctrlHeld := [], ctrlNamed := [] }
  { s with hrn := h }

/-- Every outstanding drive command is aborted. -/
def State.abortDrives (s : State) : State :=
  let s := s.drv.cmds.foldl (fun s c => s.emit (.driveAbort c.id)) s
  { s with drv.cmds := [] }

/-- The twin becomes FENCED (R240): its ports go dark, its drive commands are aborted, and EVT_HRN_FENCED names the cause. -/
def State.fence (s : State) (cause : Nat) : State :=
  if s.hrn.role = .fenced then s
  else
    let s := s.endPairWork.setRole .fenced cause
    let s := { s with hrn.cause := cause }
    s.abortDrives.darken.raise Ev.HRN_FENCED [cause]

/-- Another twin holds a higher claim on a member (R258). -/
def State.loseClaim (s : State) (member : Nat) : State := (s.raise Ev.HRN_CLAIM_LOST [member]).fence 4

/-! ### Becoming alone and taking over (R239, R247, R260) -/

/-- A twin that no longer has a peer waits for none: changes of member state take effect, records count as acknowledged, buffered
writes complete and held commands start. -/
def State.settleAlone (s : State) : State :=
  let js : List Stripe := s.sbg.stripes.map fun j => { j with acked := true }
  let s := { s with sbg.stripes := js, hrn.peerRole := none, hrn.txWait := if s.hrn.holder then s.hrn.txWait else [] }
  let s := s.reb.changes.foldl State.applyChange s.peerGone.clearMirror
  let s := (s.cmdb.cmds.map Prod.fst).foldl State.buffered s
  s.noteHeld.startWaiting

/-- An ACTIVE whose peer is lost, leaves or is demoted becomes SOLO (Table 13-1). -/
def State.becomeAlone (s : State) (cause : Nat) : State := (s.setRole .solo cause).settleAlone

/-- The packet of a body whose PSN it carries. -/
def Body.psnOf (c : Conn) : Body → Nat
  | .ack p _ => p
  | .nak p _ _ => p
  | .rnrNak p _ _ => p
  | _ => psnAdd c.rqPsn (2 ^ 24 - 1)

/-- Packets that a follower had built and that no TX entry had named are sent by the twin that now decides; unacknowledged PSNs run
their retransmit deadline again (R247, R262). -/
def State.resumeConn (s : State) (n : Nat) : State :=
  let c := s.conn n
  let s := if c.sent ≠ [] then s.armRetx n else s
  if s.hrn.txWait.any fun e => e.conn = n then s
  else
    let s := s.updConn n fun c => { c with awaiting := [], verdicts := [], nonces := [] }
    c.awaiting.foldl (fun s b =>
      match (s.conn n).reqPsns b with
      | some k => s.issueReq n b k
      | none => s.sendPkt n b (b.psnOf (s.conn n))) s

/-- Reads that a standby left to the active are read by the twin that takes over. -/
def Cmd.reread (c : Cmd) : Cmd := if c.phase = .waiting && c.entry.opcode = 2 then { c with phase := .decoded } else c

/-- The packets that no RX entry has named are taken in by the twin that now decides, in the order of their arrival (R248). -/
def State.takeUnnamed (s : State) : State :=
  s.hrn.unnamed.foldl (fun s u => s.takePacket u.pkt u.op u.info none) { s with hrn.unnamed := [], hrn.named := [] }

/-- A follower takes over: it continues from its last order entry (R30, R247) and destages the open records again (R186); changes that
no STATE entry has named fall away. -/
def State.takeOver (s : State) : State :=
  let cs := s.cmdb.cmds.map fun e => (e.1, e.2.reread)
  let s := { s with cmdb.cmds := cs, hrn.oseq := s.hrn.ordSeen, hrn.ordAck := s.hrn.ordSeen, hrn.ctrlSeq := s.hrn.ctrlSeen.getD s.hrn.ctrlSeq,
                    hrn.ctrlSeen := none, hrn.ctrlHeld := [], hrn.ctrlNamed := [] }
  let s := (s.xpt.conns.map Prod.fst).foldl State.resumeConn s
  s.takeUnnamed.reopenRecords.rezero

/-! ### Rounds (R257, R260, R372) -/

/-- Begin a round: this twin registers at the epoch on every member of it. -/
def State.startRound (s : State) (k : RoundKind) (epoch : Nat) (ms : List Nat) : State :=
  let ts : List Take := ms.map fun m => { member := m, since := s.now }
  let s := { s with hrn.round := some ⟨k, epoch, ts⟩ }
  ms.foldl (fun s m => s.reserve m 1 epoch k.role) s

/-- What a result on a member does to its taking (R257), with the next command to issue, if any. -/
def Take.step (t : Take) (r : CinchResult) (own epoch : Nat) : TakeSt × Option Nat :=
  match t.st, r with
  | .taken, _ | .lost, _ | .refused, _ | .failed, _ => (t.st, none)
  | _, .noAnswer => (.failed, none)
  | .registering, .registered => (.reporting, some 0)
  | .registering, .refused => (.refused, none)
  | .reporting, .report none => (.acquiring, some 2)
  | .reporting, .report (some k) =>
    if keyTag k = own then (.taken, none) else if keyEpoch k < epoch then (.preempting, some 3) else (.lost, none)
  | .acquiring, .acquired | .preempting, .acquired => (.taken, none)
  | .acquiring, .refused => (.reporting, some 0)
  | .preempting, .refused => (.refused, none)
  | st, _ => (st, none)

/-- Whether a taking has ended. -/
def TakeSt.ended : TakeSt → Bool
  | .taken | .lost | .refused | .failed => true
  | _ => false

/-- Whether a member has turned the twin away. -/
def TakeSt.away (t : TakeSt) : Bool := t = .lost || t = .refused

/-- A taking after a result: where it stands, since when, and the holder's key that a Report showed. -/
def Take.after (t : Take) (st : TakeSt) (r : CinchResult) (now : Nat) : Take :=
  { t with st := st, since := now, holder := match r with
    | .report (some k) => k
    | _ => t.holder }

/-- The epoch at which the twin claims or arbitrates: one above E (R263). -/
def State.claimEpoch (s : State) : Nat := max s.epoch s.hrn.maxEpoch + 1

/-- Begin a start-up claim at E + 1 over every live member. -/
def State.startClaim (s : State) : State :=
  ({ s with hrn.claim := .none }).startRound .startup s.claimEpoch s.liveMembers

/-- Arbitration is to start, after a delay, at an epoch (R260). -/
def State.armArb (s : State) (delay epoch : Nat) : State :=
  { s with hrn.arbAt := some (s.now + delay), hrn.arbEpoch := epoch, hrn.claim := .none }

/-! ### Joining (R264) -/

/-- A joiner discards what it holds of the shelf: commands, connections, write buffer, ring, maps and keys (R186, R250, R264). -/
def State.dropShelf (s : State) : State :=
  let s := { s with cmdb.cmds := [], cmdb.lost := [], lay.buffer := [], lay.clean := [], sbg.stripes := [], sbg.redo := [], xpt.conns := [], xpt.grants := [],
                    cph.keys := [], hrn.posts := [], hrn.txWait := [], hrn.own := [], hrn.theirs := [], hrn.ordSync := false, hrn.check := none,
                    hrn.unnamed := [], hrn.named := [], hrn.ctrlSeen := none, hrn.ctrlHeld := [], hrn.ctrlNamed := [] }
  let vs := s.lay.volumes.map fun v => (v.1, { v.2 with map := [] })
  { s with lay.volumes := vs }

/-- A SOLO twin with HOLDER 0 whose peer holds the cinch becomes JOINING and takes the holder's ARB5. -/
def State.becomeJoining (s : State) : State :=
  let s := s.dropShelf
  let s := s.setFld Reg.HRN_CFG_ARB5 (if s.hrn.peerArb5 then 1 else 0)
  let h := { s.hrn with claim := .none, arbAt := none, retryAt := none, round := none, silent := false,
                        ordSync := false, was := none }
  ({ s with hrn := h }).setRole .joining 0

/-- The holder starts a join of its JOINING peer. -/
def State.startJoin (s : State) (id : Option Nat) : State :=
  let s := { s with hrn.join := some { id := id } }
  ((s.sendTwin (.controlMsg (.joinStart s.epoch s.hrn.ctrlSeq))).sendTwin (.snapshot s.snapshotBytes)).raise Ev.HRN_JOIN_START

/-- Step 1 of a join on the joiner: it registers its key at the holder's epoch with ROLE 2 on every member (R264). -/
def State.joinStarts (s : State) (epoch ctrlSeq : Nat) : State :=
  let s := { s with hrn.join := some { id := none }, hrn.peerEpoch := epoch, hrn.ctrlSeen := some ctrlSeq }
  (s.registerAll epoch 2).raise Ev.HRN_JOIN_START

/-- Whether a join may start: the holder is SOLO and the peer JOINING. -/
def State.mayJoin (s : State) : Bool :=
  s.hrn.role = .solo && s.hrn.holder && s.hrn.link && s.hrn.peerRole = some .joining

/-- With AUTO_JOIN, or when a standby returns on a new image (R268 step 2), a join starts at once. -/
def State.autoJoin (s : State) : State :=
  if (s.flag Reg.HRN_CFG_AUTO_JOIN || s.hrn.upgrade.isSome) && s.mayJoin && s.hrn.join.isNone then s.startJoin none else s

/-- A join fails on the joiner (R265). -/
def State.joinFails (s : State) (cause : Nat) : State := (s.raise Ev.HRN_JOIN_FAIL [cause]).fence cause

/-- A join ends on the holder without a cutover: Pair completes with CONFIG_CONFLICT and the joiner's cause. -/
def State.dropJoin (s : State) (cause : Nat) : State :=
  match s.hrn.join with
  | none => s
  | some j => ({ s with hrn.join := none }).endCmd j.id .configConflict cause

/-! ### The start-up claim (R263) -/

/-- The tag that a Report on some member shows as its holder, other than this twin's. -/
def State.otherHolds (s : State) : Bool := s.hrn.reports.any fun r => r.2.isSome && r.2 ≠ some s.deviceTag
def State.ownHolds (s : State) : Bool := s.hrn.reports.any fun r => r.2 = some s.deviceTag

/-- Steps 3 and 4 with the link up. -/
def State.claimLinked (s : State) : State :=
  if s.hrn.peerHolder then s.becomeJoining
  else if s.glb.twinB then s.becomeJoining
  else s.startClaim

/-- Steps 5 to 7 without the link. -/
def State.claimUnlinked (s : State) : State :=
  if s.hrn.newShelf then
    if s.glb.twinB then ({ s with hrn.claim := .waitLink }).raise Ev.HRN_NO_QUORUM else s.startClaim
  else if s.otherHolds then ({ s with hrn.claim := .waitLink }).raise Ev.HRN_NO_QUORUM
  else if s.ownHolds then s.startClaim
  else s.armArb (if s.glb.twinB then s.fld Reg.HRN_SILENCE_QUORUM_DLY * 1000 else 0) s.claimEpoch

/-- Go on with the claim once every Report has been read: alone, with the link, or after the 2 s. -/
def State.claimOn (s : State) : State :=
  match s.hrn.claim with
  | .reading [] _ expired =>
    if !s.flag Reg.HRN_CFG_TWIN_FITTED then s.startClaim
    else if s.hrn.link then s.claimLinked
    else if expired then s.claimUnlinked
    else s
  | .waitLink => if s.hrn.link then s.claimLinked else s
  | _ => s

/-- The claim begins (R263 step 2): HRN_ARB is taken (R261), Reports are read on every live member, and the Harness has 2 s. -/
def State.beginClaim (s : State) (newShelf : Bool) : State :=
  let ms := s.liveMembers
  let s := ms.foldl (fun s m => s.reserve m 0 s.epoch 4) s
  let h := { s.hrn with claim := .reading ms (s.now + 2000000000) false, reports := [], maxEpoch := 0, newShelf := newShelf,
                        arbs := s.arbMembers.take s.arbCount }
  ({ s with hrn := h }).claimOn

end Sys2Proof.Machine
end

