-- ==== Sys2Proof/Machine/Rebuild.lean ====
section
/-! DEFINITION. Chapter 11: rebuild, hedged reads, scrubbing, and the member commands. -/
namespace Sys2Proof.Machine

/-! ### Rebuilding extents (R196 to R200) -/

/-- The volume LBA of a data position's block. -/
def State.lbaOf (s : State) (e x p o : Nat) : Nat := e * 4096 + x * (s.geoK * s.stripBlocks) + p * s.stripBlocks + o

/-- The blocks read of stripe `x`, as (position, offset, block). -/
def ofStripe (reads : List (Nat × Nat × Nat × List Byte)) (x : Nat) : List (Nat × Nat × List Byte) :=
  (reads.filter fun r => r.1 = x).map Prod.snd

/-- What is known of an offset of a stripe: the blocks read by position. -/
def atOffset (rs : List (Nat × Nat × List Byte)) (o : Nat) : List (Nat × List Byte) :=
  (rs.filter fun r => r.2.1 = o).map fun r => (r.1, fit 4160 r.2.2)

/-- The content of position `p` at one offset from what was read there: read itself, decoded from K others, or lost. -/
def recover (k : Nat) (got : List (Nat × List Byte)) (p : Nat) : Option (List Byte) :=
  match got.find? fun g => g.1 = p with
  | some g => some g.2
  | none => if got.length < k then none else some (fit 4160 ((ecDecode k got [p]).headD []))

/-- The record of writes that only fill given places: a MASK of those positions and no parity (R198). -/
def fillRecord (kind v e x row band incarn off nblk mask : Nat) (ws : List (Nat × Nat × List Byte)) : Stripe :=
  { slot := 0, kind := kind, volume := v, extent := e, stripe := x, row := row, band := band, incarn := incarn, seq := 0, mapGen := 0,
    mask := mask, off := off, nblk := nblk, pcrc := [0, 0, 0, 0], dataW := ws, parityW := [] }

/-- The sum of the powers of two of a list of positions. -/
def maskOf (ps : List Nat) : Nat := ps.foldl (fun b p => b + 2 ^ p) 0

/-- Rebuild one stripe of an extent: each position produced is recovered at each offset and written to its target; offsets that
cannot be recovered enter the Lost Stripe Map, and blocks found unreadable on live members are rewritten in place (R200). -/
def State.rebuildStripe (s : State) (r : RbExtent) (reads : List (Nat × Nat × Nat × List Byte)) (bad : List (Nat × Nat × Nat)) (x : Nat) :
    State :=
  let k := s.geoK
  let rs := ofStripe reads x
  let offs := List.range s.stripBlocks
  let m := s.mapEnt r.volume r.extent
  let want := r.positions.flatMap fun p => offs.map fun o => (p, o, recover k (atOffset rs o) p)
  let lost := want.filterMap fun w => if w.2.2.isNone && w.1 < k then some (w.1, w.2.1) else none
  let mend := (bad.filter fun b => b.1 = x && !r.positions.contains b.2.1).filterMap fun b =>
    (recover k (atOffset rs b.2.2) b.2.1).map fun d => (b.2.1, b.2.2, d)
  let lostBad := (bad.filter fun b => b.1 = x && b.2.1 < k && (recover k (atOffset rs b.2.2) b.2.1).isNone).map fun b => (b.2.1, b.2.2)
  let ws := (want.filterMap fun w => w.2.2.map fun d => ((s.target r w.1 x w.2.1).1, (s.target r w.1 x w.2.1).2, d)) ++
    mend.map fun w => ((s.place r.row r.band w.1 x w.2.1).1, (s.place r.row r.band w.1 x w.2.1).2, w.2.2)
  let s := (lost ++ lostBad).foldl (fun s l => s.loseBlock r.volume (s.lbaOf r.extent x l.1 l.2) 1) s
  let seals : List (Nat × Nat × Nat) := (lost ++ lostBad).map fun l => (x, l.1, l.2)
  let s := { s with reb.toSeal := s.reb.toSeal ++ seals }
  let s := s.bump Reg.LAY_MEDIA_REPAIR_COUNT mend.length
  if ws = [] then s
  else s.addStripe (fillRecord 1 r.volume r.extent x r.row r.band m.incarn 0 s.stripBlocks (maskOf (r.positions ++ mend.map Prod.fst).eraseDups) ws)

/-- REBUILD_EXTENT_START (R196, R197): the holder takes the next extent of the queue; class 1 runs whatever the window. `reads` are
the blocks read as (stripe, position, offset, block), `bad` the places found unreadable. -/
def execRebuildExtentStart (reads : List (Nat × Nat × Nat × List Byte)) (bad : List (Nat × Nat × Nat)) (s : State) :
    Host.Outcome State Fault Refusal :=
  .next <|
    match s.nextRebuild with
    | none => s.noteQueue
    | some r =>
      s.when (s.hrn.holder && s.reb.current.isNone && s.pwr.st ≠ .drain && (s.windowOpen 1 || r.cls = 1) && s.bgSlot && !s.recordOpen r.volume r.extent)
        fun s =>
          let s := ({ s with reb.current := some r, reb.toSeal := [] }).noteQueue
          (List.range s.stripes).foldl (fun s x => s.rebuildStripe r reads bad x) s

/-- Seal a stripe that lost blocks (R204): zero blocks at the lost places, and every parity recomputed over the whole stripe. -/
def State.sealStripe (s : State) (v e x : Nat) (lost : List (Nat × Nat)) (rs : List (Nat × Nat × List Byte)) : State :=
  let k := s.geoK
  let zero := List.replicate 4160 (0 : Byte)
  let dat (p o : Nat) : List Byte := if lost.contains (p, o) then zero else (recover k (atOffset rs o) p).getD zero
  let ps := (lost.map Prod.fst).eraseDups
  s.addStripe (s.stripeOf 1 v e x 0 s.stripBlocks ps dat fun o => (ecEncode s.geoM ((List.range k).map fun p => dat p o)).map (fit 4160))

/-- Seal the stripes of an extent in which a rebuild found blocks to seal. -/
def State.sealFound (s : State) (v e : Nat) (reads : List (Nat × Nat × Nat × List Byte)) : State :=
  let xs := (s.reb.toSeal.map Prod.fst).eraseDups
  let s := xs.foldl (fun s x => s.sealStripe v e x ((s.reb.toSeal.filter fun l => l.1 = x).map Prod.snd) (ofStripe reads x)) s
  { s with reb.toSeal := [] }

/-- REBUILD_EXTENT_DONE (R199, R204): every record of the extent has landed; the progress bits are persisted, the last record
clears, lost blocks are sealed, and destage of the extent goes on. `reads` are the other blocks of the stripes to be sealed. -/
def execRebuildExtentDone (reads : List (Nat × Nat × Nat × List Byte)) (s : State) : Host.Outcome State Fault Refusal :=
  .next <|
    match s.reb.current with
    | none => s
    | some r =>
      let js := s.rebuildRecords r
      s.when (js.length ≤ 1 && js.all fun j => j.phase = .parity && j.left = 0) fun s =>
        let y := s.row r.row
        let s := r.positions.foldl (fun s p => s.setProgress r.row r.band p (r.cls ≠ 11)) s
        let s := s.setRow r.row { y with homeless := y.homeless.filter fun h => !(h.1 = r.band && r.positions.contains h.2) }
        let s := s.tellTwin (.progress r.row r.band r.positions (r.cls ≠ 11))
        let s := (s.persist (.progress (slotKey r.row r.band))).bump Reg.LAY_RB_DONE_COUNT
        let s := { s with reb.current := none }
        ((js.foldl State.clearStripe s).sealFound r.volume r.extent reads).noteQueue

/-- HEDGE_TIMER_EXPIRE (R202): a read on a SUSPECT member is older than 4 × its median; a degraded read of the block starts too. -/
def execHedgeTimerExpire (id : Nat) (s : State) : Host.Outcome State Fault Refusal :=
  .next <|
    match s.drv.cmds.find? fun c => c.id = id with
    | none => s
    | some c =>
      match c.use with
      | .hostRead t i _ =>
        s.when ((s.member c.member).st = .suspect) fun s =>
          (s.reach (c.at_ + 4 * (s.member c.member).median)).gatherMore t i true
      | _ => s

/-! ### Scrubbing (R206 to R208) -/

/-- A block of a volume's namespace passes the tag check. -/
def State.tagOk (s : State) (v e lba : Nat) (blk : List Byte) : Bool :=
  match s.nsOf v with
  | none => true
  | some n => match openBlock (s.liveKeys n) n lba (s.mapEnt v e).gen blk with
    | .fails _ => false
    | _ => true

/-- Take one block out of the Lost Stripe Map, cutting the range that holds it (R205). -/
def cutLost (v lba : Nat) : List LostEnt → List LostEnt
  | [] => []
  | x :: xs =>
    if x.volume = v && decide (x.lba ≤ lba) && decide (lba < x.lba + x.n) then
      (if x.lba < lba then [{ x with n := lba - x.lba }] else []) ++
        (if lba + 1 < x.lba + x.n then [{ x with lba := lba + 1, n := x.lba + x.n - (lba + 1) }] else []) ++ xs
    else x :: cutLost v lba xs

/-- What the scrub decides at one offset of a stripe: the blocks to rewrite, the data positions lost with their cause, how many
erased blocks were repaired, and whether the parity disagreed. -/
structure ScrubAt where
  writes : List (Nat × List Byte) := []
  lost : List (Nat × Nat) := []
  repaired : Nat := 0
  mismatch : Bool := false
  deriving DecidableEq, Repr

/-- Decode the erased positions of an offset from the others (erasures within m), or give the data ones up. -/
def scrubErased (k : Nat) (good : List (Nat × List Byte)) (er tagBad : List Nat) : ScrubAt :=
  if k ≤ good.length then { writes := er.map fun p => (p, fit 4160 ((ecDecode k good [p]).headD [])), repaired := er.length }
  else { lost := (er.filter (· < k)).map fun p => (p, if tagBad.contains p then 2 else 1) }

/-- The scrub of one offset (R208): `got` are the blocks read, `ok` the tag check of a data position's block. -/
def scrubAt (k m : Nat) (mode1 : Bool) (got : List (Nat × List Byte)) (ok : Nat → List Byte → Bool) : ScrubAt :=
  let missing := (List.range (k + m)).filter fun p => !(got.any fun g => g.1 = p)
  let failed := (got.filter fun g => g.1 < k && !ok g.1 g.2).map Prod.fst
  let keep (er : List Nat) : List (Nat × List Byte) := got.filter fun g => !er.contains g.1
  let er := if mode1 then missing ++ failed else missing
  if er ≠ [] then scrubErased k (keep er) er failed
  else
    let data := (List.range k).map fun p => ((got.find? fun g => g.1 = p).map Prod.snd).getD []
    let par := (ecEncode m data).map (fit 4160)
    let stored := (List.range m).map fun j => ((got.find? fun g => g.1 = k + j).map Prod.snd).getD []
    if par = stored then {}
    else if failed ≠ [] then { scrubErased k (keep failed) failed failed with mismatch := true }
    else { writes := (List.range m).map fun j => (k + j, par.getD j []), mismatch := true }

/-- Scrub a stripe: repairs are written to live positions under a KIND 2 record. -/
def State.scrubStripe (s : State) (v e x : Nat) (mode1 : Bool) (rs : List (Nat × Nat × List Byte)) : State :=
  let k := s.geoK
  let m := s.mapEnt v e
  let offs := List.range s.stripBlocks
  let found := offs.map fun o => (o, scrubAt k s.geoM mode1 (atOffset rs o) fun p d => s.tagOk v e (s.lbaOf e x p o) d)
  let ws := found.flatMap fun f => (f.2.writes.filter fun w => !s.erased m.row m.band w.1).map fun w => (w.1, f.1, w.2)
  let place (w : Nat × Nat × List Byte) : Nat × Nat × List Byte :=
    ((s.place m.row m.band w.1 x w.2.1).1, (s.place m.row m.band w.1 x w.2.1).2, w.2.2)
  let bad := found.any fun f => f.2.mismatch
  let s := (s.bump Reg.LAY_SCRUB_MISMATCH_COUNT (found.filter fun f => f.2.mismatch).length).raiseIf bad Ev.SCRUB_MISMATCH [v, e, x]
  let s := s.bump Reg.LAY_SCRUB_REPAIR_COUNT (found.foldl (fun n f => n + f.2.repaired) 0)
  let s := found.foldl (fun s f => f.2.lost.foldl (fun s l => s.loseBlock v (s.lbaOf e x l.1 f.1) l.2) s) s
  let s := ws.foldl (fun s w =>
    let lba := s.lbaOf e x w.1 w.2.1
    if w.1 < k && s.lostIn v lba 1 && s.tagOk v e lba w.2.2 then
      (({ s with cmdb.lost := cutLost v lba s.cmdb.lost, cmdb.lostGen := s.cmdb.lostGen + 1 } : State).persist .lostMap).tellTwin (.found v lba)
    else s) s
  let s := { s with lay.repairs := s.lay.repairs.filter fun q => !(q.1 = m.row && q.2.1 = m.band && q.2.2.2.1 = x) }
  if ws = [] then s
  else
    let os := ws.map fun w => w.2.1
    let off := minOf os
    let dataW := (ws.filter fun w => w.1 < k).map place
    let j := fillRecord 2 v e x m.row m.band m.incarn off (os.foldl max 0 + 1 - off) (maskOf ((ws.map Prod.fst).eraseDups)) dataW
    s.addStripe { j with parityW := (ws.filter fun w => !decide (w.1 < k)).map place }

/-- SUSPECT_SCRUB_STRIPE (R206): the data decides; a data block that cannot be read is accepted decoded only if its tag verifies. An
extent leaves the suspect set with its last stripe. -/
def execSuspectScrubStripe (volume extent stripe : Nat) (reads : List (Nat × Nat × List Byte)) (s : State) :
    Host.Outcome State Fault Refusal :=
  .next <| s.when (s.hrn.holder && s.reb.suspect.contains (volume, extent) && decide (stripe < s.stripes)) fun s =>
    let k := s.geoK
    let m := s.mapEnt volume extent
    let offs := List.range s.stripBlocks
    let dat (p o : Nat) : Option (List Byte) :=
      match (atOffset reads o).find? fun g => g.1 = p with
      | some g => some g.2
      | none => (recover k (atOffset reads o) p).bind fun d => if s.tagOk volume extent (s.lbaOf extent stripe p o) d then some d else none
    let lost := (List.range k).flatMap fun p => (offs.filter fun o => (dat p o).isNone).map fun o => (p, o)
    let mend := (List.range k).filter fun p => !s.erased m.row m.band p && offs.any fun o => !(atOffset reads o).any fun g => g.1 = p
    let par (o : Nat) : List (List Byte) := (ecEncode s.geoM ((List.range k).map fun p => (dat p o).getD [])).map (fit 4160)
    let s' := lost.foldl (fun s l => s.loseBlock volume (s.lbaOf extent stripe l.1 l.2) 1) s
    let s' := s'.addStripe (s.stripeOf 2 volume extent stripe 0 s.stripBlocks mend (fun p o => (dat p o).getD (List.replicate 4160 0)) par)
    let dn := (volume, extent, stripe) :: s'.reb.suspectDone
    let all := (List.range s.stripes).all fun x => dn.contains (volume, extent, x)
    let left := if all then s'.reb.suspect.filter fun z => z ≠ (volume, extent) else s'.reb.suspect
    ({ s' with reb.suspectDone := dn, reb.suspect := left }).raiseIf (left = []) Ev.RB_SUSPECT_SCRUB

/-- The extents of a scope by row, then band. -/
def State.scopeExtents (s : State) (scope : Option Nat) : List (Nat × Nat) :=
  let xs := s.extents.filter fun x => match scope with
    | none => true
    | some v => x.1 = v
  let key (i : Nat) : Nat := match xs[i]? with
    | some x => x.2.2.row * 2 ^ 24 + x.2.2.band
    | none => 0
  (sortKey key (List.range xs.length)).filterMap fun i => (xs[i]?).map fun x => (x.1, x.2.1)

/-- Start a scrub pass. -/
def State.startScrub (s : State) (mode : Nat) (scope : Option Nat) : State :=
  { s with reb.scrub := some { mode := mode, scope := scope, left := s.scopeExtents scope }, reb.lastScrub := some s.now, reb.scrubbed := 0 }

/-- The scrub window opens: with AUTO a pass starts when none runs and PERIOD days have passed since the last start (R207). -/
def State.autoScrub (s : State) : State :=
  let due := match s.reb.lastScrub with
    | none => true
    | some t => decide (t + s.fld Reg.LAY_SCRUB_CFG_PERIOD * 86400 * 1000000000 ≤ s.now)
  if s.hrn.holder && s.flag Reg.LAY_SCRUB_CFG_AUTO && s.reb.scrub.isNone && due then s.startScrub (s.fld Reg.LAY_SCRUB_CFG_MODE) none else s

/-- START_SCRUB_PASS (R207, Table 11-4): Start Scrub with OP 0. -/
def execStartScrubPass (id : Nat) (s : State) : Host.Outcome State Fault Refusal :=
  .next <| s.runMgmt id 0x0603 [(5, 35)] (fun _ => true) (fun d => d.par 0 1 ≠ 1) fun c s =>
    let d := c.desc
    if d.par 0 1 ≠ 0 || 1 < d.par 1 1 || 1 < d.par 4 1 || (d.par 4 1 = 1 && !(s.volume (d.par 2 2)).used) then s.complete c .invalidField
    else if s.reb.scrub.isSome then s.complete c .busy
    else (s.startScrub (d.par 1 1) (if d.par 4 1 = 1 then some (d.par 2 2) else none)).holderDone c

/-- STOP_SCRUB_PASS (R207): Start Scrub with OP 1; the running pass stops at its next extent. -/
def execStopScrubPass (id : Nat) (s : State) : Host.Outcome State Fault Refusal :=
  .next <| s.runMgmt id 0x0603 [(5, 35)] (fun _ => true) (fun d => d.par 0 1 = 1) fun c s =>
    let stop (p : ScrubPass) : ScrubPass := { p with stopping := true }
    let s : State := { s with reb.scrub := s.reb.scrub.map stop }
    s.holderDone c

/-- SCRUB_STRIPE (R207, R208): a stripe of the pass's next extent, in the scrub window, or of one with blocks to be rewritten. -/
def execScrubStripe (volume extent stripe : Nat) (reads : List (Nat × Nat × List Byte)) (s : State) : Host.Outcome State Fault Refusal :=
  .next <|
    let m := s.mapEnt volume extent
    let mends := s.lay.repairs.filter fun q => q.1 = m.row && q.2.1 = m.band && q.2.2.2.1 = stripe
    s.when (s.hrn.holder && m.alloc && decide (stripe < s.stripes) && s.bgSlot && !s.stripeOpen volume (s.lbaOf extent stripe 0 0)) fun s =>
      match s.reb.scrub with
      | some p =>
        if p.left.head? = some (volume, extent) && s.windowOpen 2 then
          let s := s.scrubStripe volume extent stripe (p.mode = 1) reads
          if stripe + 1 < s.stripes then s
          else
            let left := if p.stopping then [] else p.left.drop 1
            ({ s with reb.scrub := some { p with left := left }, reb.scrubbed := s.reb.scrubbed + 1 }).tellTwin (.scrubbed volume extent)
        else if mends = [] then s
        else (s.scrubStripe volume extent stripe true reads).bump Reg.LAY_MEDIA_REPAIR_COUNT mends.length
      | none =>
        if mends = [] then s
        else (s.scrubStripe volume extent stripe true reads).bump Reg.LAY_MEDIA_REPAIR_COUNT mends.length

/-- SCRUB_PASS_DONE (R207). -/
def execScrubPassDone (s : State) : Host.Outcome State Fault Refusal :=
  .next <|
    match s.reb.scrub with
    | none => s
    | some p => if p.left = [] then ({ s with reb.scrub := none }).raise Ev.SCRUB_DONE else s

/-! ### Member commands (R209 to R211) -/

/-- The first item of Table 12-2 that a drive of `blocks` member blocks fails: item 2 where it holds more than 128 TB, else what the drive
itself answers, `fails`, 0 for none (R1, R218). -/
def reqFails (fails blocks : Nat) : Nat := if 31250000000 < blocks && (fails = 0 || 2 < fails) then 2 else fails

/-- ADD_MEMBER (R210, Table 11-4): Add Member with OP 0. `fails` is the first item of Table 12-2 that the drive's own answers fail, 0 for
none (R218), `blocks` its size in member blocks. -/
def execAddMember (id : Nat) (fails : Nat) (blocks : Nat) (s : State) : Host.Outcome State Fault Refusal :=
  .next <| s.runMgmt id 0x0600 [(3, 37)] (fun _ => true) (fun d => d.par 2 1 ≠ 1) fun c s =>
    let d := c.desc.par 0 1
    let port := c.desc.par 1 1
    if c.desc.par 2 1 ≠ 0 || 63 < port || s.geoN ≤ d then s.complete c .invalidField
    else if (s.member d).st ≠ .absent || (s.reb.changes.any fun ch => ch.member = d) then s.complete c .configConflict
    else if s.lay.built && blocks < s.lay.minBlocks then s.complete c .limitExceeded
    else if reqFails fails blocks ≠ 0 then
      ((s.setFld (Reg.DRV_PORT_STATUS_REQ_OK port) 0).raise Ev.DRV_REQ_FAIL [port, reqFails fails blocks]).complete c .invalidField 1
        (reqFails fails blocks)
    else
      let s := s.setFld (Reg.DRV_PORT_STATUS_REQ_OK port) 1
      let s := s.setFld (Reg.LAY_MEMBER_PORT d) port
      let s := s.setMember d { st := .absent, blocks := blocks }
      let s := s.emit (.driveZero d 0 blocks)
      (s.hold c.id).changeMember d .active 0 (some c.id)

/-- RETURN_MEMBER (R210): Add Member with OP 1. -/
def execReturnMember (id : Nat) (s : State) : Host.Outcome State Fault Refusal :=
  .next <| s.runMgmt id 0x0600 [(3, 37)] (fun _ => true) (fun d => d.par 2 1 = 1) fun c s =>
    let d := c.desc.par 0 1
    if s.geoN ≤ d then s.complete c .invalidField
    else if (s.member d).st ≠ .suspect || (s.reb.changes.any fun ch => ch.member = d) then s.complete c .configConflict
    else (s.hold c.id).changeMember d .active 0 (some c.id)

/-- DRAIN_MEMBER (R209): LIMIT_EXCEEDED unless every row can be substituted. -/
def execDrainMember (id : Nat) (s : State) : Host.Outcome State Fault Refusal :=
  .next <| s.runPlain id 0x0601 [(1, 39)] fun c s =>
    let d := c.desc.par 0 1
    let st := (s.member d).st
    if s.geoN ≤ d then s.complete c .invalidField
    else if !(st = .active || st = .suspect) || (s.reb.changes.any fun ch => ch.member = d) then s.complete c .configConflict
    else if !s.canSubstitute d then s.complete c .limitExceeded
    else (s.hold c.id).changeMember d .draining 0 (some c.id)

/-- REMOVE_MEMBER (R211). -/
def execRemoveMember (id : Nat) (s : State) : Host.Outcome State Fault Refusal :=
  .next <| s.runPlain id 0x0602 [(1, 39)] fun c s =>
    let d := c.desc.par 0 1
    if s.geoN ≤ d then s.complete c .invalidField
    else if (s.member d).st ≠ .failed || (s.reb.changes.any fun ch => ch.member = d) then s.complete c .configConflict
    else (s.hold c.id).changeMember d .absent 0 (some c.id)

/-- DRAIN_COMPLETE (R209): every extent of a draining member has been copied; it becomes ABSENT. -/
def execDrainComplete (member : Fin 64) (s : State) : Host.Outcome State Fault Refusal :=
  .next <|
    let waits := s.extents.any fun x => (s.row x.2.2.row).subs.any fun u => u.lost = member.val && !s.progressBit x.2.2.row x.2.2.band u.pos
    s.when ((s.member member).st = .draining && !waits && s.reb.current.isNone) fun s => s.changeMember member .absent 8 none

/-- COPYBACK_DONE (R210): every extent of a substituted row has been copied home; the substitution goes and its spare slot is free. -/
def execCopybackDone (row : Fin 4096) (position : Nat) (s : State) : Host.Outcome State Fault Refusal :=
  .next <|
    let x := s.row row
    match x.subAt position with
    | none => s
    | some u =>
      let waits := s.extents.any fun e => e.2.2.row = row.val && s.progressBit row e.2.2.band position
      s.when (s.hrn.holder && u.copyback && !waits) fun s =>
        let s := (s.tellTwin (.subGone row position)).setRow row { x with subs := x.subs.filter fun v => v ≠ u }
        let d := x.members.getD position 64
        let more := s.lay.rows.any fun r => r.2.subs.any fun v => r.2.members.getD v.pos 64 = d
        (s.writeSuperblocks).raiseIf (!more) Ev.RB_COPYBACK_DONE [d]

/-- The change of a member's state that waits for the peer takes effect (R191). -/
def State.memberAcked (s : State) (m : Nat) : State :=
  match s.reb.changes.find? fun c => c.member = m with
  | none => s
  | some ch => s.applyChange ch

/-- MEMBER_STATE_ACK (R191): the peer has acknowledged a change, and it takes effect. -/
def execMemberStateAck (member : Fin 64) (s : State) : Host.Outcome State Fault Refusal := .next <| s.memberAcked member

/-- The member state of a code. -/
def stateOf : Nat → MState
  | 0 => .active | 1 => .suspect | 2 => .failed | 3 => .draining | _ => .absent

/-- Take over what the deciding superblock says (R193 steps 3 to 5): `drives` lists (index, port, blocks) of the drives that name
this shelf. -/
def State.restore (s : State) (sb : Superblock) (drives : List (Nat × Nat × Nat)) : State :=
  let s := s.takeFloor sb.floor
  let rows : Assoc LRow := sb.rows.foldl (fun m r =>
    Assoc.set {} m r.1 { members := r.2.1, ranks := r.2.2.1, subs := r.2.2.2.map fun u => ⟨u.pos, u.member, u.slot, u.lost, false⟩ }) []
  let n := getBits sb.geom 22 16
  let rd := (List.range n).map fun d => rows.foldl (fun k r => k + (r.2.homeOf d).length) 0
  let s := (s.setRg Reg.LAY_GEOM_K.addr sb.geom).setRg Reg.LAY_SEED_SEED.addr (BitVec.ofNat 32 sb.seed)
  let s := { s with lay.rows := rows, lay.rd := rd, lay.bands := sb.bands, lay.spareQ := sb.spareQ, lay.built := true,
                    lay.mapGen := sb.mapGen, lay.safeGen := sb.safeGen, lay.sbSeq := sb.seq, lay.minBlocks := sb.minBlocks }
  (List.range n).foldl (fun s d =>
    let st := stateOf (sb.states.getD d 4)
    match drives.find? fun x => x.1 = d with
    | some x =>
      if st = .active || st = .suspect || st = .draining then
        (s.setFld (Reg.LAY_MEMBER_PORT d) x.2.1).setMember d { st := st, blocks := x.2.2 }
      else s
    | none => if st = .absent || st = .failed then s else { s with reb.missing := s.reb.missing ++ [(d, st)] }) s

/-- MEMBER_RESTORE (R193): before the claim, member states come from the newest superblock; with fewer ACTIVE or SUSPECT members than
arbiters EN returns to 0 and EVT_HRN_NO_QUORUM is raised. Without any superblock the shelf is new. Then the claim of R263 begins. -/
def execMemberRestore (sb : Option Superblock) (drives : List (Nat × Nat × Nat)) (s : State) : Host.Outcome State Fault Refusal :=
  .next <| s.when (s.hrn.claim = .restoring) fun s =>
    match sb with
    | none => s.beginClaim true
    | some b =>
      let s := s.restore b drives
      let live := s.reb.members.count fun m => m.st = .active || m.st = .suspect
      if live < s.arbCount then (({ s with hrn.claim := .none }).setFld Reg.HRN_CFG_EN 0).raise Ev.HRN_NO_QUORUM
      else s.beginClaim false

end Sys2Proof.Machine
end

