-- ==== Sys2Proof/Machine/Reset.lean ====
section
/-! DEFINITION. Chapter 17: what a full-device reset keeps, the boot ROM's choice of an image, and the start-up record. -/
namespace Sys2Proof.Machine

/-! ### Full-device reset (R338, Table 17-6) -/

/-- The registers of the always-on domain: Stirrup settings, the VIN monitor, PWR_DRAIN_TIME and the rail faults, TJ_WARN, CLK_CFG,
the monitors and their trips, GLB_RESET_CAUSE, HRN_EPOCH. -/
def aonReg (a : Nat) : Bool :=
  (decide (0x68000 ≤ a) && decide (a < 0x6C000)) ||
    [0x8008, 0x800C, 0x8014, 0x8018, 0x801C, 0x4000, 0x4008, 0x400C, 0x20, 0x70020].contains a

/-- The namespace state that full-device reset leaves: a running reseal starts again (R286). -/
def Ns.afterReset (x : Ns) : Ns := { x with deleting := false, reseal := x.reseal.map fun r => (r.1, []) }

/-- Set bits of GLB_RESET_CAUSE. -/
def State.resetCauses (s : State) (cs : List Nat) : State :=
  s.setRg 0x20 (cs.foldl (fun w b => setBits w b b 1) (s.rg 0x20))

/-- What is kept: the always-on domain, HBM with the write buffer, the Saddlebag ring and the extent map, and what stands in the
boot flash and on the members. Every other block has its reset state (log entry 36). -/
def State.kept (s : State) : State :=
  { regs := s.regs.filter fun e => aonReg e.1
    mem := s.mem.filter fun c => decide (0x1000000000 ≤ c.1)
    glb := s.glb
    tim := { ns := s.tim.ns, frac := s.tim.frac, corr := s.tim.runCorr, floor := s.tim.floor, floorRef := s.tim.floorRef,
             slots := heldSlots s.tim.ns }
    xpt := { hosts := s.xpt.hosts, grants := s.xpt.grants }
    cmdb := { nss := s.cmdb.nss.map fun e => (e.1, e.2.afterReset), lost := s.cmdb.lost, lostGen := s.cmdb.lostGen }
    lay := { volumes := s.lay.volumes, slots := s.lay.slots, zeroing := s.lay.zeroing, progress := s.lay.progress, nextBuf := s.lay.nextBuf,
             clean := s.lay.clean, buffer := (s.lay.buffer.filter BufBlk.visible).map fun b => { b with cmd := none } }
    reb := { lastScrub := s.reb.lastScrub }
    sbg := { stripes := s.sbg.stripes, redo := s.sbg.redo, seq := s.sbg.seq, nextSlot := s.sbg.nextSlot }
    str := s.str
    hrn := { lastSwap := s.hrn.lastSwap }
    cph := { ctrEpoch := s.cph.ctrEpoch, ctrCount := s.cph.ctrCount, keys := s.cph.keys.filter fun e => e.2.bound.isSome,
             journalKey := s.cph.journalKey, journalGen := s.cph.journalGen }
    sec := { slotA := s.sec.slotA, slotB := s.sec.slotB, fuse := s.sec.fuse, flash := s.sec.flash, placesLeft := s.sec.placesLeft,
             bank1 := s.sec.bank1, flashMiB := s.sec.flashMiB, otherErased := s.sec.otherErased, locks := s.sec.locks, nextLock := s.sec.nextLock }
    pwr := { vinWarn := s.pwr.vinWarn, ext := s.pwr.ext, railAt := s.pwr.railAt }
    out := s.out
    free := s.free
    pending := s.pending }

/-- Begin a full-device reset: the ports go dark, everything but what is kept is reset for 10 µs. After a trip the tree starts again
at the crystals, after clock-fault hold at FIO; otherwise the sources and PLLs keep running (R338). -/
def State.beginReset (s : State) (cs : List Nat) : State :=
  let s := s.darken
  let drain := if s.pwr.st = .drain then [6] else []
  let hold := if s.clk.hold then [5] else []
  let rail := if s.pwr.railDown then [4] else []
  let tripped := s.clk.fallen || s.clk.xaTripped || s.clk.xbTripped
  let k : Clk := { warm := true, resetHold := some (s.now + 10000), resetAt := s.now, pinHeld := s.clk.pinHeld,
                   fioReady := s.clk.fioReady && !s.clk.hold, starting := tripped || s.clk.hold || s.clk.starting,
                   xaOk := s.clk.xaOk && !tripped && !s.clk.hold, xbOk := s.clk.xbOk && !tripped && !s.clk.hold,
                   pllLock := if tripped || s.clk.hold then 0 else s.clk.pllLock }
  let good : Nat := 0x3F
  let restarted : Option Nat := if s.pwr.railDown then some s.now else s.pwr.railAt
  let t := (s.kept).resetCauses (cs ++ drain ++ hold ++ rail)
  ({ t with clk := k, pwr.railAt := restarted }).setFld Reg.PWR_RAIL_STATUS_GOOD good

/-- A full-device reset. In thermal hold it waits for the die to cool (R365); a rail that faulted again within 1 s of its restart
keeps the device in reset until VIN goes (R314); a reset under way takes the cause bit only. -/
def State.fullReset (s : State) (cs : List Nat) : State :=
  if !s.pwr.powered || s.pwr.railHold then s
  else if s.pwr.thermHold then { s with pwr.waitingResets := s.pwr.waitingResets ++ cs }
  else if s.clk.resetHold.isSome then s.resetCauses cs
  else s.beginReset cs

/-! ### Boot (R293) and the start-up record (R274, R303) -/

/-- The first failing check of R293 on an image, 1 to 6; 0 where it passes. -/
def imageFails (l : FwLoad) (fuse : Nat) : Nat :=
  if !l.formatOk then 1 else if !l.keysOk then 2 else if !l.rsaOk then 3 else if !l.mldsaOk then 4
  else if l.img.svn < fuse then 5 else if !l.stagesOk then 6 else 0

/-- The check that a boot slot fails; an empty slot fails check 1. -/
def State.slotFails (s : State) (b : Bool) : Nat :=
  match s.slotOf b with
  | none => 1
  | some l => imageFails l s.sec.fuse

/-- The soak that a booting image goes on with: that of the record, if its SVN is the pending one. -/
def State.soakOf (s : State) (b : Bool) : Nat :=
  match s.slotOf b with
  | some l => if l.img.svn = s.sec.flash.pendingSvn then s.sec.flash.soakS else 0
  | none => 0

/-- The ROM tries the slot of BOOT_SLOT and then the other (R293); with neither, or with a flash under 32 MiB (R291), the device is in boot
fault. -/
def State.bootRom (s : State) : State :=
  let b := s.sec.flash.bootB
  if s.sec.flashMiB < 32 then { s with sec.bootFault := true }
  else if s.slotFails b = 0 then s.runSlot b (s.soakOf b)
  else if s.slotFails (!b) = 0 then
    ({ s.runSlot (!b) (s.soakOf (!b)) with sec.fallback := true }).raise Ev.SEC_BOOT_SLOT
      [if b then 0 else 1, if b then 1 else 0, s.slotFails b]
  else { s with sec.bootFault := true }

/-- Set a start-up bit (R340). -/
def State.startupBit (s : State) (b : Nat) : State := { s with clk.startup := s.clk.startup ||| BitVec.ofNat 10 (2 ^ b) }

/-- The record of the flash is restored: floor, administrators, extension keys, journal key; at power-up shelf time starts at the
floor (R28, R33), and every start-up enters a counter epoch that has never been used (R274). -/
def State.restoreRecord (s : State) : State :=
  let r := s.sec.flash
  let sec' : Sec := { s.sec with admins := r.admins, adminKeys := r.adminKeys, nextB := s.sec.bootB, extStored := r.ext, extStore := r.extStore }
  let cph' : Cph := { s.cph with ctrEpoch := max s.cph.ctrEpoch r.ctrEpoch,
                                 journalKey := if s.cph.journalKey = [] then r.journalKey else s.cph.journalKey,
                                 journalGen := if s.cph.journalKey = [] then max 1 r.journalGen else s.cph.journalGen }
  let s := { s with sec := sec', cph := cph', tck.keys := r.extKeys }.takeFloor r.floor
  let s := s.nextEpoch
  if s.sec.write.isSome then s else s.saveRecord []

/-- The rails and clocks run: the ROM boots an image, HBM is trained and the start-up record is written. -/
def State.boot (s : State) : State :=
  let s := ((s.startupBit 0).startupBit 1).bootRom
  if s.sec.bootFault then s else ((s.startupBit 2).startupBit 3).restoreRecord

/-- A slot that fires `t` ns from now on. -/
def State.armFloorSave (s : State) : State :=
  let p := s.fld Reg.TIM_FLOOR_SAVE_FLOOR_SAVE * 1000000000
  let x : Slot := heldSlot true s.now p 4 6
  if (s.slot 505).armed then s else s.setSlot 505 x

/-- The extension of the record is reloaded (R75). -/
def State.reloadExt (s : State) : State := (s.swapExt s.sec.extStored).startupBit 8

/-- BOOT_DONE: Synea runs (R340); a reset that ended clock-fault hold is reported (R339). -/
def State.bootDone (s : State) : State :=
  let s := ({ s with clk.bootDone := true, clk.bootMs := (s.now - s.clk.resetAt) / 1000000, sec.soakFrom := s.now }).reloadExt
  s.raiseIf (s.flag Reg.GLB_RESET_CAUSE_HOLD) Ev.CLK_HOLD_EXIT [(s.rg Reg.CLK_MON_STATUS_XA_STOP.addr).toNat]

/-- The ROM starts on FIO: domains 1, 2 and 10 run from it until PLL5 locks (R336). -/
def State.romOnFio (s : State) : State := [1, 2, 10].foldl (fun s c => s.setFld (Reg.CLK_CD_STATUS_SRC c) 1) s

/-- The extent map, the metadata, the Lost Stripe Map and the locks are there, and replay is done. -/
def State.mapsLoaded (s : State) : State := (s.startupBit 6).startupBit 7

/-- RESET_RELEASE (R338): the 10 µs end and, with RESET_N high, the warm start begins. Shelf time, which ran on the correction last in
force (R28), runs on XB uncorrected from here: the state is FREERUN (Table 02-2). -/
def execResetRelease (s : State) : Host.Outcome State Fault Refusal :=
  .next <|
    match s.clk.resetHold with
    | none => s
    | some t =>
      if s.clk.pinHeld then s
      else
        let s := ({ s.reach t with clk.resetHold := none, tim.corr := 0 }).startupBit 0
        let s : State := if s.clk.fioReady then s else { s with clk.fioStart := some s.now }
        if !s.clk.starting then s.boot
        else if s.clk.fioReady then s.romOnFio
        else s

/-- RESET_PIN (R339): RESET_N low for 10 µs or more holds the device in full-device reset. -/
def execResetPin (s : State) : Host.Outcome State Fault Refusal :=
  .next <| s.when (s.pwr.powered && !s.clk.pinHeld) fun s => ({ s with clk.pinHeld := true }).fullReset [1]

/-- RESET_N_RELEASE (R339): RESET_N rises. -/
def execResetNRelease (s : State) : Host.Outcome State Fault Refusal := .next { s with clk.pinHeld := false }

/-- GLB_RESET_WRITE (R338): the key starts a full-device reset; other values are discarded. -/
def execGlbResetWrite (value : Word) (s : State) : Host.Outcome State Fault Refusal :=
  .next <| s.when (value = 0xD15CA4D0) fun s => s.fullReset [2]

/-- AUTO_RESET (R59): 1 ms after the NMI of a wedge, with AUTO_RESET 1. -/
def execAutoReset (s : State) : Host.Outcome State Fault Refusal :=
  .next <|
    match s.ctl.wedgedAt with
    | none => s
    | some t => s.when (s.flag Reg.GLB_WDOG_AUTO_RESET) fun s => (s.reach (t + 1000000)).fullReset [3]

/-- TEST_RESET (Table 17-6): TRST_N resets the JTAG TAP, of which the manual gives no state. -/
def execTestReset (s : State) : Host.Outcome State Fault Refusal := .next s

end Sys2Proof.Machine
end

