-- ==== Sys2Proof/Machine/Drives.lean ====
section
/-! DEFINITION. Chapter 12, the drive ports and the sideband, and the drive events of R192. -/
namespace Sys2Proof.Machine

/-! ### Drive commands (R192, R202) -/

/-- A fault on the holder's own path to a member changes the member's state; on a standby's path it changes none and raises
EVT_RB_PEER_PATH (R192). -/
def State.pathFault (s : State) (d : Nat) (f : State → State) : State :=
  if s.hrn.holder then f s else s.raiseIf (s.hrn.role = .standby) Ev.RB_PEER_PATH [d]

/-- Count a drive command that has ended: how many, bytes, service time (Table 18-1). -/
def State.countDrive (s : State) (c : DrvCmd) : State :=
  let k := if c.isRead then 0 else 1
  ((s.countPort c.member k 1).countPort c.member (2 + k) 4160).countPort c.member (6 + k) (s.now - c.at_)

/-- Remember how long a member's read took. -/
def State.noteRead (s : State) (c : DrvCmd) : State :=
  let x := s.member c.member
  s.setMember c.member { x with readTimes := ((s.now - c.at_) :: x.readTimes).take 15 }

/-- A drive read has returned its block. -/
def State.driveData (s : State) (c : DrvCmd) (d : List Byte) : State :=
  match c.use with
  | .hostRead t i q => s.readArrived t i q d
  | .hedge t i q => s.readArrived t i q d
  | _ => s

/-- A drive write has completed. -/
def State.driveWrote (s : State) (c : DrvCmd) : State :=
  match c.use with
  | .stripe slot => s.stripeWriteDone slot
  | .zero r b => s.zeroDone r b
  | _ => s

/-- A drive command ends with an error: a failed write fails the member, a read that the medium could not serve counts (R191). -/
def State.driveError (s : State) (c : DrvCmd) (media : Bool) : State :=
  ((s.countPort c.member 4 1).endFailed c).pathFault c.member fun s =>
    if !c.isRead then s.changeMember c.member .failed 4 none
    else if media then s.mediaFault c.member
    else s

/-- DRIVE_COMPLETION: a read returns its block or a write is done; a read's media error counts toward MEDIA_SUSPECT, and a write's
error makes the member FAILED (Table 11-2). A read that another twin's preempt has aborted is issued again (Table 13-12); a write that it has
aborted has no further effect here, since this twin holds the member no longer. -/
def execDriveCompletion (id : Nat) (result : DrvResult) (s : State) : Host.Outcome State Fault Refusal :=
  .next <|
    match s.drv.cmds.find? fun c => c.id = id with
    | none => s
    | some c =>
      let off : State := { s with drv.cmds := s.drv.cmds.filter fun x => x.id ≠ id }
      match result with
      | .data b => if c.isRead then ((off.countDrive c).noteRead c).driveData c b else s
      | .done => if c.isRead then s else (off.countDrive c).driveWrote c
      | .mediaError => s.driveError c true
      | .error => s.driveError c false
      | .aborted => if c.isRead then off.drive c.member c.use true c.lba (.driveRead c.member c.lba) else off

/-- A drive command that has run for CMD_TMO ms is aborted and ends as failed. -/
def State.abortLate (s : State) (c : DrvCmd) : State :=
  let s := s.reach (c.at_ + s.fld Reg.LAY_RB_DETECT_CMD_TMO * 1000000)
  (((s.emit (.driveAbort c.id)).countPort c.member 5 1).countPort c.member 4 1).endFailed c

/-- DRIVE_CMD_TIMEOUT: the command is aborted after CMD_TMO ms. -/
def execDriveCmdTimeout (id : Nat) (s : State) : Host.Outcome State Fault Refusal :=
  .next <|
    match s.drv.cmds.find? fun c => c.id = id with
    | none => s
    | some c =>
      (s.abortLate c).pathFault c.member fun s => s.timeoutFault c.member c.isRead

/-- DRIVE_CFS: the drive sets CSTS.CFS. -/
def execDriveCfs (member : Fin 64) (s : State) : Host.Outcome State Fault Refusal :=
  .next <| s.pathFault member fun s => s.changeMember member .failed 9 none

/-- SMART_WARNING: bit 3 fails the member, bit 0 or 2 makes it SUSPECT. -/
def execSmartWarning (member : Fin 64) (bits : Nat) (s : State) : Host.Outcome State Fault Refusal :=
  .next <|
    if bits.testBit 3 then s.pathFault member fun s => s.changeMember member .failed 10 none
    else if bits.testBit 0 || bits.testBit 2 then s.pathFault member fun s => s.suspectMember member 11
    else s

/-! ### Ports (R215 to R217) -/

/-- The queue pairs that a port's settings take: one admin and QUEUES I/O pairs. -/
def pairsOf (w : Word) : Nat := if w.getLsbD 0 then getBits w 8 1 + 1 else 0

/-- The queue pairs of the enabled ports, port `p` counted as if its register held `w`. -/
def State.pairsWith (s : State) (p : Nat) (w : Word) : Nat :=
  (List.range 64).foldl (fun n i => n + pairsOf (if i = p then w else s.rg (Reg.DRV_PORT_CFG_EN i).addr)) 0

/-- A port's link goes down: EVT_DRV_LINK, EVT_DRV_DPC for a containment, and LINK_HOLD starts. -/
def State.driveLinkDown (s : State) (p : Nat) (dpc : Bool) : State :=
  let s := (s.setFld (Reg.DRV_PORT_STATUS_LINK_UP p) 0).setFld (Reg.DRV_PORT_STATUS_DPC p) (if dpc then 1 else 0)
  let s := (s.raise Ev.DRV_LINK [p, 0, 0]).raiseIf dpc Ev.DRV_DPC [p]
  { s with drv.holdAt := Assoc.set 0 s.drv.holdAt p (s.now + s.fld Reg.LAY_RB_DETECT_LINK_HOLD * 1000000) }

/-- DRIVE_PORT_ENABLE (R216, R217): a DRV_PORT_CFG write; one that would take the total past 8,192 queue pairs, or that enables an odd
port in x4 mode, is discarded. -/
def execDrivePortEnable (port : Fin 64) (value : Word) (s : State) : Host.Outcome State Fault Refusal :=
  .next <|
    let a := (Reg.DRV_PORT_CFG_EN port).addr
    let odd := s.flag Reg.DRV_CFG_WIDTH && port.val % 2 = 1 && value.getLsbD 0
    if odd || 8192 < s.pairsWith port value then s
    else match s.storeReg a value with
      | none => s
      | some s' =>
        if !value.getLsbD 0 && s.flag (Reg.DRV_PORT_STATUS_LINK_UP port) then s'.driveLinkDown port false else s'

/-- Take a member again at HRN_EPOCH (R369). -/
def State.retake (s : State) (d : Nat) : State :=
  let ts : List Take := s.hrn.retakes.filter fun t => t.member ≠ d
  let t : Take := { member := d, since := s.now }
  ({ s with hrn.retakes := ts ++ [t] }).reserve d 1 s.epoch (roleCode s.hrn.role)

/-- The holder's Report after a link-up shows `h` as the reservation's holder (R369). -/
def State.checkHold (s : State) (d : Nat) (h : Option Nat) : State :=
  let s := s.reserve d 0 s.epoch (roleCode s.hrn.role)
  match h with
  | none => s.retake d
  | some k => if keyTag k = s.deviceTag then s else if keyEpoch k < s.epoch then s.retake d else s.loseClaim d

/-- DRIVE_LINK_UP (R369): the link trains at rate code `rate`, at most MAX_RATE, no wider than the port (R215), and the drive grants I/O queues; the holder reports the
member's reservation before any write. -/
def execDriveLinkUp (port : Fin 64) (rate lanes granted : Nat) (holder : Option Nat) (s : State) :
    Host.Outcome State Fault Refusal :=
  .next <| s.when (s.flag (Reg.DRV_PORT_CFG_EN port) && decide (rate ≤ s.fld Reg.DRV_CFG_MAX_RATE) &&
      decide (0 < lanes ∧ lanes ≤ (if s.flag Reg.DRV_CFG_WIDTH then 4 else 2)) && s.pwr.st ≠ .deep) fun s =>
    let s := ((s.setFld (Reg.DRV_PORT_STATUS_LINK_UP port) 1).setFld (Reg.DRV_PORT_STATUS_RATE port) rate).setFld
      (Reg.DRV_PORT_STATUS_LANES port) lanes
    let s := (s.setFld (Reg.DRV_PORT_STATUS_DPC port) 0).setFld (Reg.DRV_PORT_STATUS_QGRANT port)
      (min granted (s.fld (Reg.DRV_PORT_CFG_QUEUES port)))
    let s := { s with drv.holdAt := Assoc.set 0 s.drv.holdAt port.val 0 }
    let s := s.raise Ev.DRV_LINK [port, rate, lanes]
    match s.memberOn port with
    | some d => if s.hrn.holder then s.checkHold d holder else s
    | none => s

/-- DRIVE_LINK_DOWN (R192). -/
def execDriveLinkDown (port : Fin 64) (dpc : Bool) (s : State) : Host.Outcome State Fault Refusal :=
  .next <| s.when (s.flag (Reg.DRV_PORT_STATUS_LINK_UP port)) fun s => s.driveLinkDown port dpc

/-- LINK_HOLD_EXPIRE (R192): the link has not recovered and the member becomes FAILED. -/
def execLinkHoldExpire (port : Fin 64) (s : State) : Host.Outcome State Fault Refusal :=
  .next <|
    let t := Assoc.get 0 s.drv.holdAt port.val
    s.when (t ≠ 0) fun s =>
      let s := ({ s with drv.holdAt := Assoc.set 0 s.drv.holdAt port.val 0 }).reach t
      match s.memberOn port with
      | some d => s.pathFault d fun s => s.changeMember d .failed 3 none
      | none => s

/-- DRIVE_AER (R215). -/
def execDriveAer (port : Fin 64) (uncorrectable : Bool) (status : Nat) (s : State) : Host.Outcome State Fault Refusal :=
  .next <|
    if uncorrectable then (s.bump (Reg.DRV_AER_CNT_UNCORR port)).raise Ev.DRV_AER_UNCORR [port, status]
    else (s.bump (Reg.DRV_AER_CNT_CORR port)).raise Ev.DRV_AER_CORR [port]

/-- DRIVE_MI_EVENT (R222). -/
def execDriveMiEvent (port : Fin 64) (event : Nat) (s : State) : Host.Outcome State Fault Refusal :=
  .next <| s.raise Ev.DRV_MI [port, event]

/-! ### I3C (R222) -/

/-- I3C_IBI. -/
def execI3cIbi (bus : Fin 8) (address byte : Nat) (s : State) : Host.Outcome State Fault Refusal :=
  .next <| s.when (s.flag (Reg.SBD_I3C_CFG_EN bus)) fun s =>
    (s.bump (Reg.SBD_I3C_ERR_IBI bus)).raise Ev.I3C_IBI [bus, address, byte]

/-- I3C_NACK: after three NACKs in a row the transfer is dropped. -/
def execI3cNack (bus : Fin 8) (address : Nat) (s : State) : Host.Outcome State Fault Refusal :=
  .next <| s.when (s.flag (Reg.SBD_I3C_CFG_EN bus)) fun s =>
    (s.bump (Reg.SBD_I3C_ERR_NACK bus)).raise Ev.I3C_ERR [bus, address]

end Sys2Proof.Machine
end

