-- ==== Sys2Proof/Machine/Stirrup.lean ====
section
/-! DEFINITION. Chapter 12, the Stirrup channels (R219 to R238). The crossing of an analog threshold is the sender's: a row says that
it happened and what was measured (log entry 31). -/
namespace Sys2Proof.Machine

def State.chan (s : State) (n : Nat) : Chan := Assoc.get {} s.str.chans n
def State.setChan (s : State) (n : Nat) (x : Chan) : State := { s with str.chans := Assoc.set {} s.str.chans n x }
def State.updChan (s : State) (n : Nat) (f : Chan → Chan) : State := s.setChan n (f (s.chan n))

/-- Whether a channel holds power. -/
def SlotSt.powered : SlotSt → Bool
  | .ramp | .on | .warn => true
  | _ => false

/-- The member on a slot follows its slot's state on the holder (R223, Table 11-2). -/
def State.slotMember (s : State) (n : Nat) (dest : MState) (cause : Nat) : State :=
  match s.memberOn n with
  | some d => if s.hrn.holder then s.changeMember d dest cause none else s
  | none => s

/-- Take a measurement (STR_SLOT_MEAS, STR_SLOT_PEAK). -/
def State.measure (s : State) (n : Nat) (m : Meas) : State :=
  let s := (s.setFld (Reg.STR_SLOT_MEAS_IOUT n) (min m.iout 4095)).setFld (Reg.STR_SLOT_MEAS_VOUT n) (min m.vout 4095)
  s.setFld (Reg.STR_SLOT_PEAK_PEAK n) (max (s.fld (Reg.STR_SLOT_PEAK_PEAK n)) (min m.iout 4095))

/-- A channel with its gate pulled down: no power-good, SLOT_PERST_N asserted, no timer of the powered states. -/
def Chan.gateOff (x : Chan) : Chan :=
  { x with gate := false, pg := false, perst := true, armed := false, rampTmo := 0, faultAt := none, perstAt := none }

/-- Complete the slot command that was running on a channel. -/
def State.endSlotCmd (s : State) (id : Option Nat) (st : MStatus) : State :=
  match id.bind fun id => s.ctl.started.find? fun c => c.id = id with
  | some c => if st = .success then s.holderDone c else s.complete c st
  | none => s

/-- Enter RAMP (R224). -/
def State.enterRamp (s : State) (n : Nat) : State :=
  s.updChan n fun x => { x.gateOff with st := .ramp, rampTmo := s.now + s.fld (Reg.STR_SLOT_CFG_RAMP_TMO n) * 1000000 }

/-- Enter ON (R223). -/
def State.enterOn (s : State) (n : Nat) : State :=
  (s.updChan n fun x => { x with st := .on, onSince := s.now, rampTmo := 0, faultAt := none }).raise Ev.STR_ON [n]

/-- Enter OFF. -/
def State.enterOff (s : State) (n : Nat) : State :=
  s.updChan n fun x => { x.gateOff with st := .off, disabling := none, clearing := none }

/-- Enter LOCKED (R230): EVT_STR_LOCKED, and the member fails. -/
def State.lock (s : State) (n : Nat) : State :=
  ((s.updChan n fun x => { x.gateOff with st := .locked }).raise Ev.STR_LOCKED [n]).slotMember n .failed 2

/-- Enter TRIPPED with a cause (R223, R230): a running Slot Disable completes with CONFIG_CONFLICT (R238). -/
def State.trip (s : State) (n cause : Nat) : State :=
  let d := (s.chan n).disabling
  let s := s.updChan n fun x =>
    { x.gateOff with st := .tripped, cause := cause, disabling := none, coolAt := s.now + s.fld (Reg.STR_SLOT_CFG_COOL n) * 1000000000 }
  let s := (s.bump (Reg.STR_SLOT_PEAK_TRIPS n)).raise Ev.STR_TRIP [n, cause, s.fld (Reg.STR_SLOT_PEAK_PEAK n)]
  (s.endSlotCmd (d.map Disabling.id) .configConflict).slotMember n .failed 2

/-! ### What the channel drives onto its sideband balls (R220, R221, R231) -/

/-- SLOT_PERST_N is held low. -/
def State.slotPerst (s : State) (n : Nat) : Bool := (s.chan n).perst

/-- SLOT_PFW_N is held low: on every slot while VIN_WARN_N is asserted, and while the slot is in WARN. -/
def State.slotPfw (s : State) (n : Nat) : Bool := s.pwr.vinWarn || (s.chan n).st = .warn

/-- SLOT_AUX is held low: as locate while LOCATE is 1, as PWRDIS while the slot holds power; with no function it is released. -/
def State.slotAux (s : State) (n : Nat) : Bool :=
  match s.fld (Reg.STR_SLOT_CFG_AUX_FN n) with
  | 1 => s.flag (Reg.STR_SLOT_CFG_LOCATE n)
  | 2 => (s.chan n).st.powered
  | _ => false

/-- Whether a slot exists in the port mode in force (an odd slot of x4 ports is unused, R216). -/
def State.slotOk (s : State) (n : Nat) : Bool := decide (n < 64) && !(s.flag Reg.DRV_CFG_WIDTH && n % 2 = 1)

/-! ### Commands (R216, R224, R230, R232, R233) -/

/-- Whether a Slot Disable or Slot Clear Trip runs on a slot (R232). -/
def State.slotBusy (s : State) (n : Nat) : Bool := (s.chan n).disabling.isSome || (s.chan n).clearing.isSome

/-- Check 2 of R233: the ranges of Table 12-5. -/
def slotFieldsOk (d : Descriptor) : Bool :=
  let r (o n lo hi : Nat) : Bool := decide (lo ≤ d.par o n) && decide (d.par o n ≤ hi)
  r 1 1 0 3 && r 2 1 0 3 && r 3 1 0 7 && r 4 1 1 31 && r 5 1 1 50 && r 6 2 3 1000 && r 8 1 5 80 && r 9 1 24 120 && r 0x0A 1 32 128 &&
    r 0x0B 1 1 200

/-- Check 3 of R233, in units of 25 mA: INRUSH_LIM < BRK_TH < FT_TH. -/
def slotLimitsOk (d : Descriptor) : Bool := d.par 8 1 * 2 < d.par 9 1 * 2 && d.par 9 1 * 2 < d.par 0x0A 1 * 5

/-- The settings of Table 12-5 in force. -/
def State.setSlotCfg (s : State) (n : Nat) (d : Descriptor) : State :=
  let s := ((s.setFld (Reg.STR_SLOT_CFG_RAMP_MS n) (d.par 5 1)).setFld (Reg.STR_SLOT_CFG_RETRY n) (d.par 3 1)).setFld
    (Reg.STR_SLOT_CFG_COOL n) (d.par 4 1)
  let s := ((s.setFld (Reg.STR_SLOT_CFG_AUX_FN n) (d.par 2 1)).setFld (Reg.STR_SLOT_CFG_RAMP_TMO n) (d.par 6 2)).setFld
    (Reg.STR_SLOT_CFG_LOCATE n) (d.par 1 1 / 2)
  ((s.setFld (Reg.STR_SLOT_LIM_FT_TH n) (d.par 0x0A 1)).setFld (Reg.STR_SLOT_LIM_BRK_TH n) (d.par 9 1)).setFld
    (Reg.STR_SLOT_LIM_INRUSH_LIM n) (d.par 8 1) |>.setFld (Reg.STR_SLOT_LIM_FAULT_TMR n) (d.par 0x0B 1)

/-- Whether a Slot Configure changes LOCATE only. -/
def isLocate (d : Descriptor) : Bool := (d.par 1 1).testBit 0

/-- SLOT_CONFIGURE (R233). The peer takes the holder's settings as they are (R235). -/
def execSlotConfigure (id : Nat) (s : State) : Host.Outcome State Fault Refusal :=
  .next <| s.runMgmt id 0x0300 [(0x0C, 28)] (fun _ => true) (fun d => !isLocate d) fun c s =>
    let d := c.desc
    let n := d.par 0 1
    if c.ring = carriedRing then (s.setSlotCfg n d).complete c .success
    else if s.slotBusy n then s.complete c .busy
    else if !s.slotOk n then s.complete c .invalidField
    else if (s.chan n).st ≠ .off then s.complete c .configConflict
    else if !slotFieldsOk d then s.complete c .invalidField
    else if !slotLimitsOk d then s.complete c .invalidField
    else if d.par 6 2 < d.par 5 1 + 2 then s.complete c .invalidField
    else if d.par 2 1 = 3 then s.complete c .configConflict
    else (s.setSlotCfg n d).holderDone c

/-- SLOT_LOCATE (R233): Slot Configure with CHANGE = 1. -/
def execSlotLocate (id : Nat) (s : State) : Host.Outcome State Fault Refusal :=
  .next <| s.runMgmt id 0x0300 [] (fun _ => true) isLocate fun c s =>
    let d := c.desc
    let n := d.par 0 1
    if 63 < n then s.complete c .invalidField
    else (s.setFld (Reg.STR_SLOT_CFG_LOCATE n) (d.par 1 1 / 2 % 2)).holderDone c

/-- SLOT_ENABLE (R224): the peer's channel waits for the holder's PG (R235). -/
def execSlotEnable (id : Nat) (s : State) : Host.Outcome State Fault Refusal :=
  .next <| s.runPlain id 0x0301 [(1, 39)] fun c s =>
    let n := c.desc.par 0 1
    if c.ring = carriedRing then s.complete c .success
    else if s.slotBusy n then s.complete c .busy
    else if !s.slotOk n then s.complete c .invalidField
    else if (s.chan n).st ≠ .off then s.complete c .configConflict
    else (s.enterRamp n).holderDone c

/-- SLOT_PERST_N is asserted and the gate follows 1 ms later (R232). -/
def State.assertPerst (s : State) (n id till : Nat) : State :=
  s.updChan n fun x => { x with perst := true, perstAt := none, disabling := some ⟨id, till, some (s.now + 1000000)⟩ }

/-- Whether the member on a slot is ACTIVE, SUSPECT or DRAINING. -/
def State.slotLive (s : State) (n : Nat) : Bool := (s.memberOn n).any fun d => s.liveMembers.contains d

/-- SLOT_DISABLE (R232). -/
def execSlotDisable (id : Nat) (s : State) : Host.Outcome State Fault Refusal :=
  .next <| s.runPlain id 0x0302 [(2, 38)] fun c s =>
    let n := c.desc.par 0 1
    let f := c.desc.par 1 1
    let st := (s.chan n).st
    if s.slotBusy n then s.complete c .busy
    else if 63 < n || 4 ≤ f then s.complete c .invalidField
    else if c.ring = carriedRing then (if st.powered then (s.hold c.id).assertPerst n c.id s.now else s.complete c .success)
    else if st = .off then s.complete c .success
    else if st = .ramp || st = .tripped || st = .locked then s.complete c .configConflict
    else if s.slotLive n && !f.testBit 0 then s.complete c .configConflict
    else
      let s := if s.slotLive n then s.slotMember n .failed 12 else s
      let till := s.now + s.fld Reg.STR_CFG_SHUT_TMO * 100000000
      let s := s.hold c.id
      if f.testBit 1 then s.assertPerst n c.id till
      else (s.updChan n fun x => { x with disabling := some ⟨c.id, till, none⟩ }).emit (.driveShutdown n)

/-- SLOT_SHUTDOWN_DONE (R232): the drive reports the shutdown complete, or SHUT_TMO passes. -/
def execSlotShutdownDone (slot : Fin 64) (answered : Bool) (s : State) : Host.Outcome State Fault Refusal :=
  .next <|
    match (s.chan slot).disabling with
    | some ⟨id, till, none⟩ => (if answered then s else s.reach till).assertPerst slot id till
    | _ => s

/-- SLOT_GATE_OFF (R232): 1 ms after PERST the gate is pulled down; the command completes when the slot is OFF. -/
def execSlotGateOff (slot : Fin 64) (s : State) : Host.Outcome State Fault Refusal :=
  .next <|
    match (s.chan slot).disabling with
    | some ⟨id, _, some t⟩ => ((s.reach t).enterOff slot).endSlotCmd (some id) .success
    | _ => s

/-- SLOT_CLEAR_TRIP (R229, R230). On the peer it puts a powered channel OFF (R235). -/
def execSlotClearTrip (id : Nat) (s : State) : Host.Outcome State Fault Refusal :=
  .next <| s.runPlain id 0x0303 [(1, 39)] fun c s =>
    let n := c.desc.par 0 1
    let x := s.chan n
    let off (s : State) : State := (s.enterOff n).updChan n fun x => { x with retries := 0 }
    if s.slotBusy n then s.complete c .busy
    else if 63 < n then s.complete c .invalidField
    else if x.st = .locked then (if x.short then s.complete c .configConflict else (off s).holderDone c)
    else if x.st = .tripped then (s.hold c.id).updChan n fun x => { x with clearing := some c.id, retries := 0 }
    else if c.ring = carriedRing && x.st.powered then (off s).complete c .success
    else s.complete c .configConflict

/-! ### Ramp and power-good (R224, R227, R228) -/

/-- RAMP_THRESHOLD_REACHED (R224): the breaker is armed and the gate driven fully on. -/
def execRampThresholdReached (slot : Fin 64) (meas : Meas) (s : State) : Host.Outcome State Fault Refusal :=
  .next <|
    let s := s.measure slot meas
    s.when ((s.chan slot).st = .ramp) fun s => s.updChan slot fun x => { x with armed := true, gate := true }

/-- The holder reports PG of a slot to its peer (R235). -/
def State.reportPg (s : State) (n : Nat) : State :=
  if s.hrn.holder && s.hasPeer then s.sendTwin (.controlMsg (.slotPg n)) else s

/-- PG_ASSERT (R227, R228): not while the fault timer runs. -/
def execPgAssert (slot : Fin 64) (meas : Meas) (s : State) : Host.Outcome State Fault Refusal :=
  .next <|
    let s := s.measure slot meas
    let x := s.chan slot
    let at_ := some (s.now + s.fld Reg.STR_CFG_PERST_DLY * 1000000)
    if x.pg || x.faultAt.isSome || !x.armed then s
    else if x.st = .ramp then
      ((s.updChan slot fun x => { x with pg := true, perstAt := at_ }).enterOn slot).reportPg slot
    else if x.st = .on then
      (s.updChan slot fun x =>
        { x with pg := true, perstAt := if x.perst && x.disabling.isNone then at_ else x.perstAt }).reportPg slot
    else s

/-- PG_LOSS (R227): an ON slot trips with CAUSE 4, unless VIN_WARN_N is asserted or the device drains. -/
def execPgLoss (slot : Fin 64) (meas : Meas) (s : State) : Host.Outcome State Fault Refusal :=
  .next <|
    let s := s.measure slot meas
    s.when ((s.chan slot).st = .on) fun s =>
      if s.pwr.vinWarn || s.pwr.st = .drain then s.updChan slot fun x => { x with pg := false, perstAt := none } else s.trip slot 4

/-- RAMP_TMO_EXPIRE (R224): PG has not asserted in the ramp. -/
def execRampTmoExpire (slot : Fin 64) (s : State) : Host.Outcome State Fault Refusal :=
  .next <|
    let x := s.chan slot
    s.when ((x.st = .ramp || x.st = .warn) && x.rampTmo ≠ 0 && !x.pg) fun s => (s.reach x.rampTmo).trip slot 3

/-- PERST_DLY_EXPIRE (R220): SLOT_PERST_N is released. -/
def execPerstDlyExpire (slot : Fin 64) (s : State) : Host.Outcome State Fault Refusal :=
  .next <|
    match (s.chan slot).perstAt with
    | none => s
    | some t => (s.reach t).updChan slot fun x => { x with perst := false, perstAt := none }

/-- The holder reports PG of a slot: this twin's channel enters RAMP (R235). -/
def State.peerPg (s : State) (n : Nat) : State := s.when (!s.hrn.holder && (s.chan n).st = .off) fun s => s.enterRamp n

/-- PEER_PG_REPORT (R235). -/
def execPeerPgReport (slot : Fin 64) (s : State) : Host.Outcome State Fault Refusal := .next <| s.peerPg slot

/-! ### Breaker and trips (R225, R226, R238) -/

/-- FAULT_TIMER_START (R226, R228). -/
def execFaultTimerStart (slot : Fin 64) (meas : Meas) (s : State) : Host.Outcome State Fault Refusal :=
  .next <|
    let s := s.measure slot meas
    let x := s.chan slot
    s.when (x.armed && (x.st = .ramp || x.st = .on)) fun s =>
      s.updChan slot fun x => { x with st := .warn, faultAt := some (s.now + s.fld (Reg.STR_SLOT_LIM_FAULT_TMR slot) * 100000) }

/-- FAULT_TIMER_STOP (R226): back to ON with PG, to RAMP without, where SLOT_PERST_N is asserted (R220); in the tick it would expire, expiry wins (R238). -/
def execFaultTimerStop (slot : Fin 64) (meas : Meas) (s : State) : Host.Outcome State Fault Refusal :=
  .next <|
    let s := s.measure slot meas
    let x := s.chan slot
    match x.st, x.faultAt with
    | .warn, some t =>
      if t ≤ s.now then s.trip slot 2
      else if x.pg then s.enterOn slot
      else s.updChan slot fun x => { x with st := .ramp, faultAt := none, perst := true, perstAt := none }
    | _, _ => s

/-- FAULT_TIMER_EXPIRE (R226). -/
def execFaultTimerExpire (slot : Fin 64) (meas : Meas) (s : State) : Host.Outcome State Fault Refusal :=
  .next <|
    let s := s.measure slot meas
    let x := s.chan slot
    match x.st, x.faultAt with
    | .warn, some t => (s.reach t).trip slot 2
    | _, _ => s

/-- FAST_TRIP (R225): in RAMP, ON or WARN. Where the fault timer or RAMP_TMO has expired in this tick, the cause becomes 1 (R238). -/
def execFastTrip (slot : Fin 64) (meas : Meas) (s : State) : Host.Outcome State Fault Refusal :=
  .next <|
    let s := s.measure slot meas
    let x := s.chan slot
    if x.st.powered then s.trip slot 1
    else if x.st = .tripped && (x.cause = 2 || x.cause = 3) && x.coolAt = s.now + s.fld (Reg.STR_SLOT_CFG_COOL slot) * 1000000000 then
      s.updChan slot fun x => { x with cause := 1 }
    else s

/-- COOL_DOWN_END (R230): OFF after Slot Clear Trip, RAMP with a retry left, LOCKED otherwise. -/
def execCoolDownEnd (slot : Fin 64) (s : State) : Host.Outcome State Fault Refusal :=
  .next <|
    let x := s.chan slot
    s.when (x.st = .tripped) fun s =>
      let s := s.reach x.coolAt
      match x.clearing with
      | some id => (s.enterOff slot).endSlotCmd (some id) .success
      | none =>
        if x.cause ≠ 5 && x.cause ≠ 6 && x.retries < s.fld (Reg.STR_SLOT_CFG_RETRY slot) then
          let s := (s.updChan slot fun x => { x with retries := x.retries + 1 }).raise Ev.STR_RETRY [slot, x.retries + 1]
          s.enterRamp slot
        else s.lock slot

/-- FET_SHORT (R229): current above 0.5 A for 1 ms in OFF, TRIPPED or LOCKED locks the channel; a current that has fallen ends the
short. -/
def execFetShort (slot : Fin 64) (meas : Meas) (s : State) : Host.Outcome State Fault Refusal :=
  .next <|
    let s := s.measure slot meas
    let x := s.chan slot
    if x.st.powered then s
    else if meas.iout < 100 then s.updChan slot fun x => { x with short := false }
    else if x.short || meas.iout = 100 then s
    else
      let was := decide (x.st = .locked)
      let s := s.endSlotCmd x.clearing .configConflict
      let s := s.updChan slot fun x => { x with cause := 5, short := true, clearing := none }
      let s := if was then s else s.lock slot
      s.raise Ev.STR_FET_SHORT [slot]

/-- RETRIES_CLEAR (R230): 60 s of continuous ON. -/
def execRetriesClear (slot : Fin 64) (s : State) : Host.Outcome State Fault Refusal :=
  .next <| s.when ((s.chan slot).st = .on) fun s =>
    (s.reach ((s.chan slot).onSince + 60 * 1000000000)).updChan slot fun x => { x with retries := 0 }

/-- The new holder's channels decide the members now: those of TRIPPED and LOCKED slots fail (R235, Table 11-2). -/
def State.judgeSlots (s : State) : State :=
  (List.range 64).foldl (fun s n =>
    if ((s.chan n).st = .tripped || (s.chan n).st = .locked) && s.slotLive n then s.slotMember n .failed 2 else s) s

/-! ### Presence (R219) -/

/-- PRESENCE_CHANGE: EVT_DRV_PRESENT; a removal turns a powered or tripped slot OFF with CAUSE 6 and makes the member ABSENT. -/
def execPresenceChange (slot : Fin 64) (present : Bool) (s : State) : Host.Outcome State Fault Refusal :=
  .next <|
    let x := s.chan slot
    s.when (x.present ≠ present) fun s =>
      let s := (s.updChan slot fun x => { x with present := present }).raise Ev.DRV_PRESENT [slot, if present then 1 else 0]
      if present then s
      else
        let s := if x.st.powered || x.st = .tripped then
            let s := (s.enterOff slot).updChan slot fun x => { x with cause := 6 }
            (s.endSlotCmd (x.disabling.map Disabling.id) .success).endSlotCmd x.clearing .success
          else s
        s.slotMember slot .absent 1

end Sys2Proof.Machine
end

