-- ==== Sys2Proof/Machine/Harness.lean ====
section
/-! DEFINITION. Chapter 13, the Harness link and what it carries: link-up, lanes, flits, heartbeats, the order stream as a
follower takes it in, mirror acknowledgements, the snapshot and CONTROL messages. -/
namespace Sys2Proof.Machine

/-! ### The link (R242 to R245) -/

/-- The twin loses its link: a joiner fails, a holder's join ends, and a SOLO twin has no peer any more; a pair waits for silence
(R259, R265). EVT_HRN_LINK shows 0 down, 1 up, 2 half, and the failed lane. -/
def State.linkLost (s : State) (lane : Nat) : State :=
  if s.hrn.lanes = 0 then s
  else
    let s := ({ s with hrn.link := false, hrn.linkKey := [], hrn.lanes := 0, hrn.barred := false, htx := {} }).raise Ev.HRN_LINK [0, lane]
    match s.hrn.role with
    | .joining => s.joinFails 5
    | .solo => ((s.dropJoin 5).endCmd s.hrn.leaving .configConflict).settleAlone
    | _ => s

/-- The last OSEQ taken in, which ORD_ACK carries (R245). -/
def State.lastOrd (s : State) : Nat := ahead 32 1 s.hrn.ordSeen

/-- A flit arrives: every 64 flits are acknowledged in a LINK flit (R245). -/
def State.gotFlit (s : State) : State :=
  let n := s.hrn.rxFlit + 1
  let s := { s with hrn.rxFlit := n, hrn.rxFails := 0 }
  if n % 64 = 0 then s.sendTwin (.linkFlit n s.lastOrd) else s

/-- What a message from the peer does while flits flow. A FENCED twin acknowledges the flit and takes the message in no further (R240). -/
def State.onFlit (s : State) (f : State → State) : State :=
  s.when s.hrn.link fun s => if s.hrn.role = .fenced then s.gotFlit else f s.gotFlit

/-- A twin without the claim meets a peer that holds the cinch (R263 step 3, Table 13-1). -/
def State.meetHolder (s : State) : State :=
  if s.hrn.role ≠ .solo || s.hrn.holder || s.hrn.silent then s
  else match s.hrn.claim with
    | .none =>
      if s.hrn.peerHolder && s.hrn.round.isNone && s.hrn.arbAt.isNone && s.flag Reg.HRN_CFG_EN then s.becomeJoining else s
    | _ => s.claimOn

/-- HARNESS_ENABLE (R263, R193): EN trains the link and starts the claim with the superblocks of the enabled drive ports.
TWIN_FITTED and ARB5 are written only while EN is 0; AUTO_JOIN starts a join that may run (R264). -/
def execHarnessEnable (value : Word) (s : State) : Host.Outcome State Fault Refusal :=
  .next <|
    let a := Reg.HRN_CFG_EN.addr
    let was := s.flag Reg.HRN_CFG_EN
    let w := storedWord a (s.rg a) value
    let w := if was then setBits (setBits w 1 1 (s.fld Reg.HRN_CFG_TWIN_FITTED)) 3 3 (s.fld Reg.HRN_CFG_ARB5) else w
    let s := s.setRg a w
    if was || getBits w 0 0 = 0 || s.hrn.role ≠ .solo || s.hrn.holder then s.autoJoin
    else
      let s := { s with hrn.claim := .restoring }
      s.emit (.superblockReads ((List.range 64).filter fun p => s.flag (Reg.DRV_PORT_CFG_EN p)))

/-- Whether the peer passes attestation (R301): its chain, an SVN not below this twin's FUSE_COUNT, and the same block 6, unless one of the two
administrator sets is empty (log entry 130). -/
def State.attests (s : State) (p : PeerHello) : Bool :=
  p.chainOk && decide (s.sec.fuse ≤ p.svn) && (p.block6 = s.measurement 6 || p.unowned || s.sec.admins = 0)

/-- The twin link key (R301): the first 32 bytes of what the Sheath construction derives, twin A having sent k1 and k3. -/
def linkKeyOf (p : PeerHello) : List Byte :=
  derive 32 ((p.k1.drop 8).take 32 ++ (p.k2.drop 8).take 32) (p.ssKem ++ p.ssRsa)
    (ascii "HARNESS1" ++ Config.sha256 (p.k1 ++ p.k2 ++ p.k3.take 0x5D0))

/-- HARNESS_LINK_UP (R242): the twins have trained and attested each other, or EVT_HRN_JOIN_FAIL names why not. -/
def execHarnessLinkUp (peer : PeerHello) (s : State) : Host.Outcome State Fault Refusal :=
  .next <| s.when (s.flag Reg.HRN_CFG_EN && !s.hrn.link && !s.hrn.barred && !s.hrn.silent && s.pwr.st ≠ .deep) fun s =>
    let s := { s with hrn.lanes := 2, hrn.badLanes := [], hrn.barred := true }
    if peer.twinB = s.glb.twinB then s.raise Ev.HRN_JOIN_FAIL [1]
    else if !s.attests peer then s.raise Ev.HRN_JOIN_FAIL [2]
    else if !peer.versionOk then s.raise Ev.HRN_JOIN_FAIL [3]
    else
      let h := { s.hrn with link := true, linkKey := linkKeyOf peer, barred := false, rxFlit := 0, rxFails := 0, txFlit := 0, ackFlit := 0, lastHb := s.now, lastAck := s.now, peerTag := peer.tag,
                            peerRole := some peer.role, peerHolder := peer.holder, peerArb5 := peer.arb5,
                            rxDelay := ((peer.roundTrip : Int) + peer.asym) / 2 }
      ((({ s with hrn := h }).raise Ev.HRN_LINK [1, 0]).meetHolder).autoJoin

/-- Whether a half of the lanes holds no failed lane. -/
def State.halfClean (s : State) (upper : Bool) : Bool := !(s.hrn.badLanes.any fun l => decide (8 ≤ l) = upper)

/-- HARNESS_LANE_FAULT (R243): the link goes on on the clean half, or is down. -/
def execHarnessLaneFault (lane : Fin 16) (s : State) : Host.Outcome State Fault Refusal :=
  .next <| s.when (s.hrn.lanes ≠ 0 && !s.hrn.badLanes.contains lane.val) fun s =>
    let s := { s with hrn.badLanes := lane.val :: s.hrn.badLanes }
    if !s.halfClean false && !s.halfClean true then s.linkLost lane
    else if s.hrn.lanes = 2 then ({ s with hrn.lanes := 1 }).raise Ev.HRN_LINK [2, lane.val]
    else s

/-- HARNESS_LINK_DOWN (R245). -/
def execHarnessLinkDown (s : State) : Host.Outcome State Fault Refusal := .next <| s.linkLost 0

/-- FLIT_BAD_RX (R245): a flit that fails is asked for again; the same one failing 8 replays in a row takes the link down. An
unknown type is discarded and counted. -/
def execFlitBadRx (unknownType : Bool) (s : State) : Host.Outcome State Fault Refusal :=
  .next <| s.when s.hrn.link fun s =>
    if unknownType then s.gotFlit.bump Reg.HRN_FLIT_BAD_COUNT
    else if 8 ≤ s.hrn.rxFails then s.linkLost 0
    else ({ s with hrn.rxFails := s.hrn.rxFails + 1 }).sendTwin (.replayRequest s.hrn.rxFlit)

/-- ORD_ACK covers every entry up to `v` (R245, R247). -/
def State.ordAcked (s : State) (v : Nat) : State :=
  let d := ahead 32 s.hrn.ordAck (v + 1)
  if s.hrn.ordAck + d ≤ s.hrn.oseq then { s with hrn.ordAck := s.hrn.ordAck + d } else s

/-- The flit counter that a LINK flit acknowledges (R245). -/
def State.flitAcked (s : State) (v : Nat) : State :=
  if s.hrn.ackFlit ≤ v ∧ v ≤ s.hrn.txFlit then { s with hrn.lastAck := s.now, hrn.ackFlit := v } else s

/-- The peer asks for the flits from `v` on again; each counts in FLIT_REPLAY (R245). -/
def State.resendFlits (s : State) (v : Nat) : State :=
  if s.hrn.ackFlit ≤ v ∧ v < s.hrn.txFlit then
    (s.bump Reg.HRN_FLIT_REPLAY_COUNT (s.hrn.txFlit - v)).emit (.flitsAgain v (s.hrn.txFlit - v))
  else s

/-- LINK_FLIT_RX (R245): an acknowledgement, a replay asked of this twin, ORD_ACK. -/
def execLinkFlitRx (acked replay ordAck : Option Nat) (s : State) : Host.Outcome State Fault Refusal :=
  .next <| s.when s.hrn.link fun s =>
    let s := match acked with
      | some v => s.flitAcked v
      | none => s
    let s := match replay with
      | some v => s.resendFlits v
      | none => s
    match ordAck with
    | some v => s.ordAcked v
    | none => s

/-! ### Heartbeats (R29, R259) -/

/-- The peer disciplines its shelf time to the holder's (R29): forward at once, backward by slewing. `sent` is the sender's shelf time in
1/65,536 ns at transmission, from which the measured link delay is removed. -/
def State.discipline (s : State) (sent : Nat) : State :=
  if !s.follows then s
  else
    let d : Int := (sent : Int) + s.hrn.rxDelay * 65536 - (s.now * 65536 + s.tim.frac : Nat)
    if d < 0 then { s with tim.followLeft := d }
    else
      let f := s.tim.frac + d.toNat
      let s : State := { s with tim.followLeft := 0, tim.frac := f % 65536, tim.ownDiff := s.tim.ownDiff - (f % 65536 : Nat) + s.tim.frac }
      if f / 65536 = 0 then s else s.stepForward (f / 65536)

/-- HEARTBEAT_RX (R29, R259). -/
def execHeartbeatRx (beat : Heartbeat) (s : State) : Host.Outcome State Fault Refusal :=
  .next <| s.onFlit fun s =>
    let s := s.discipline (beat.time * 65536 + beat.frac)
    let h := { s.hrn with lastHb := s.now, peerRole := some beat.role, peerHolder := beat.holder, peerFault := beat.selfFault,
                          peerDrain := beat.drain, peerEpoch := beat.epoch, ordHead := beat.ordHead }
    let s : State := { s with hrn := h, tim.peerFloor := beat.floor }
    (if s.hasPeer then s else s.peerGone).meetHolder.autoJoin

/-- ORD_HEAD of a heartbeat: the last OSEQ formed, of the ACTIVE alone (Table 13-5). -/
def State.ordHeadNow (s : State) : Nat := if s.hrn.role = .active then ahead 32 1 s.hrn.oseq else 0

/-- A heartbeat is sent over a link that is up, by a twin that is not FENCED (R259, R240). -/
def State.sendHeartbeat (s : State) : State :=
  s.when (s.hrn.link && s.hrn.role ≠ .fenced) fun s =>
    let b : Heartbeat :=
      { time := s.now, frac := s.tim.frac, role := s.hrn.role, holder := s.hrn.holder, selfFault := s.hrn.fault.isSome,
        drain := decide (s.pwr.st = .drain), epoch := s.epoch, floor := s.tim.floor, ordHead := s.ordHeadNow }
    s.sendTwin (.heartbeat b)

/-- HEARTBEAT_SEND (R38, R259): slot 504 fires every 1 µs. -/
def execHeartbeatSend (s : State) : Host.Outcome State Fault Refusal :=
  .next <| s.when (s.slot 504).armed fun s => (s.fire 504).sendHeartbeat

/-- CROSSPOST_RX (R248): what the message's header says of the packet is kept until the packet is taken in. -/
def execCrosspostRx (pktId sub colour : Nat) (s : State) : Host.Outcome State Fault Refusal :=
  .next <| s.onFlit fun s => { s with hrn.posts := s.hrn.posts ++ [(pktId, sub, colour)] }

/-- The colour of a code. -/
def colourOf : Nat → Colour
  | 0 => .green | 1 => .yellow | _ => .red

/-- The PSN an acknowledgement of some kind carries. -/
def Body.ackPsn : Body → Option Nat
  | .ack p _ => some p
  | .nak p _ _ => some p
  | .rnrNak p _ _ => some p
  | _ => none

/-- The oldest read of a connection in LEAD whose data the standby leaves to the active. -/
def State.leadRead (s : State) (n : Nat) : Option Nat :=
  ((s.uncommitted n).find? fun e => e.2.phase = .waiting && e.2.entry.opcode = 2).map Prod.fst

/-- The packet that a resend at `psn` sends again, of those a connection keeps (R120): a READ from that PSN on, a completion with Transient
Transport Error where its data went hollow and the entry says that it is substituted. -/
def State.sentAt (s : State) (n psn : Nat) (subst : Bool) : Option Body :=
  let c := s.conn n
  (c.sent.find? fun x => decide (psnAhead x.psn psn < x.n)).map fun x =>
    let off := psnAhead x.psn psn
    let gone (u : Nat) : Bool := subst && (s.tagOf u).isNone &&
      c.sent.any fun y => match y.body with
        | .write v _ _ _ => v = u
        | _ => false
    let sub (u : Nat) (q : Cqe) : Cqe := if gone u then { q with sct := 0, sc := 0x22, dnr := false } else q
    match x.body with
    | .readReq va key len use => .readReq (va + off * c.mtu) key (len - off * c.mtu) use
    | .cqe u q => .cqe u (sub u q)
    | .cqWrite us qs va key tail => .cqWrite us ((us.zip qs).map fun r => sub r.1 r.2) va key tail
    | b => b

/-- Take in the TX entry of a resend (R120, R246). -/
def State.takeResend (s : State) (e : OrderEntry) (b : Body) (hollow subst : Bool) : State :=
  let s := (s.bump Reg.XPT_RETX_COUNT).bump Reg.XPT_HOLLOW_COUNT (if hollow then 1 else 0)
  let s := (s.bump Reg.XPT_SUBST_CPL_COUNT (if subst then 1 else 0)).buildTx e b true
  match e.kind with
  | .tx _ psn _ len _ _ _ _ data =>
    if data && !hollow && b = .hollow then s.setRec e.oseq (s.digestOf e.conn psn (.write 0 0 0 (List.replicate (len - 16) 0))) else s
  | _ => s

/-- A packet of the active's that this twin has yet to build itself waits for it; the last data of a read that this twin leads is there at once. -/
def State.awaitTx (s : State) (e : OrderEntry) (op : Nat) (lead : Bool) : State :=
  let n := e.conn
  let s : State := { s with hrn.txWait := s.hrn.txWait ++ [e] }
  let s := if (op = 0x04 || op = 0x0B) && !((s.conn n).awaiting.any fun b => b.opcode = op) && lead then
      match s.leadRead n with
      | some t => s.success t
      | none => s
    else s
  s.matchTx n

/-- Data that the active sends alone: its sequences are followed, and its digest is formed. -/
def State.takeData (s : State) (e : OrderEntry) (txSeq psn len esn : Nat) : State :=
  let n := e.conn
  let r := s.digestOf n psn (.write 0 0 0 (List.replicate (len - 16) 0))
  let s := s.updConn n fun c => { ({ c with sqPsn := psn } : Conn).takePsn .hollow 1 with esnOut := if esn = 0 then c.esnOut else esn + 1 }
  (s.followTx e txSeq psn esn .hollow).setRec e.oseq r

/-- An acknowledgement or a CNP of the active's is built here too. -/
def State.takeAck (s : State) (e : OrderEntry) (psn : Nat) (rnr : Bool) : State :=
  let c := s.conn e.conn
  let b := (c.awaiting.find? fun b => b.ackPsn = some psn).getD (if rnr then .rnrNak psn 0 0 else .ack psn c.msn)
  (s.updConn e.conn fun c => { c with awaiting := c.awaiting.filter fun b => b.ackPsn.isNone }).buildTx e b

/-- Take in a TX entry: packets that follow from the entry alone are built at once, the others from what this twin has built
(R248). In LEAD the data of a read is not held: its packet forms the digest record and takes its PSN. -/
def State.takeTx (s : State) (e : OrderEntry) : State :=
  match e.kind with
  | .tx txSeq psn op len esn hollow subst rnr data =>
    let n := e.conn
    let d : DigRec := ⟨e.oseq, e.time, n, none⟩
    let s : State := { s with hrn.own := s.hrn.own ++ [d] }
    let c := s.conn n
    let lead := !c.tandem || s.hrn.role = .joining
    let again := if op = 0x11 || op = 0x81 || op = 0x10 || psnAhead c.unaPsn c.sqPsn ≤ psnAhead c.unaPsn psn then none
      else s.sentAt n psn subst
    if again.isSome then s.takeResend e (again.getD .hollow) hollow subst
    else if hollow then s.takeResend e .hollow true false
    else if c.st ≠ .ready && (op = 0 || op = 1 || op = 2 || op = 4) then s.buildTx e (.sheath op (List.replicate len 0)) true
    else if op = 0x11 then s.takeAck e psn rnr
    else if op = 0x81 then (s.updConn n fun c => { c with awaiting := c.awaiting.filter fun b => b ≠ .cnp }).buildTx e .cnp
    else if data && lead then s.takeData e txSeq psn len esn
    else s.awaitTx e op lead
  | _ => s

/-! ### Changes carried from the holder (R246, R371) -/

/-- Progress bits that the holder has set or cleared (R199, R210). -/
def State.takeProgress (s : State) (row band : Nat) (ps : List Nat) (on : Bool) : State :=
  let y := s.row row
  let s := ps.foldl (fun s p => s.setProgress row band p on) s
  s.setRow row { y with homeless := y.homeless.filter fun h => !(h.1 = band && ps.contains h.2) }

/-- A Holder command of the peer runs here too: it completes on no ring, and the peer is told of it where it waits for that. -/
def State.startCarried (s : State) (d : Descriptor) (env : Option Envelope) (told : Bool) : State :=
  let c : Started := { id := s.ctl.nextId, ring := carriedRing, ering := 0, desc := d, env := env, chead := 0, time := s.now, waits := false,
                       drop := !told }
  { s with ctl.nextId := s.ctl.nextId + 1, ctl.started := s.ctl.started ++ [c] }

/-- A register carried from the holder. -/
def State.takeRegister (s : State) (a : Nat) (v : Word) : State :=
  if a = Reg.CMD_DIRTY_CAP_DIRTY_CAP.addr then s.setCap v
  else if a = Reg.XPT_CFG_EN.addr then s.ccResumed (s.setXptCfg (storedWord a (s.rg a) v))
  else if a = Reg.LAY_CTL_BUILD.addr then s.buildLayout
  else s.setRg a (storedWord a (s.rg a) v)

/-- A change that the holder has made is made here. -/
def State.applyTwin (s : State) : ControlMsg → State
  | .command d env => s.startCarried d env true
  | .register a v => s.takeRegister a v
  | .reservation n p rs rt rh g => s.setNs n { s.ns n with ptpl := p, regs := rs, rtype := rt, rholder := rh, rgen := g }
  | .memberState m st => (s.applyChange ⟨m, stateOf st, 0, none⟩).sendTwin (.controlMsg (.memberAck m))
  | .mapEntry v e row band incarn wgen al lost =>
    s.takeMapEntry v e { row := row, alloc := al, lost := lost, band := band, incarn := incarn, wgen := wgen }
  | .arbiters ms => { s with hrn.arbs := ms }
  | .zeroed row band => { s with lay.zeroing := Assoc.set 0 s.lay.zeroing (slotKey row band) 0 }
  | .progress row band ps on => s.takeProgress row band ps on
  | .subGone row p =>
    let x := s.row row
    s.setRow row { x with subs := x.subs.filter fun u => u.pos ≠ p }
  | .lostRange v lba n cause time =>
    ({ s with cmdb.lost := insertLost ⟨v, lba, n, cause, time⟩ s.cmdb.lost, cmdb.lostGen := s.cmdb.lostGen + 1 } : State).tellLost v
  | .found v lba => { s with cmdb.lost := cutLost v lba s.cmdb.lost, cmdb.lostGen := s.cmdb.lostGen + 1 }
  | .retired n g => s.retireGens n g
  | .scrubbed v e =>
    let go (p : ScrubPass) : ScrubPass := { p with left := p.left.filter fun x => x ≠ (v, e) }
    { s with reb.scrub := s.reb.scrub.map go, reb.scrubbed := s.reb.scrubbed + 1 }
  | _ => s

/-- A message that carries a change has come: before its join starts the follower makes the change at once, afterwards once a STATE entry has
named it (R246). -/
def State.takeChange (s : State) (m : ControlMsg) : State :=
  match s.hrn.ctrlSeen with
  | none => s.applyTwin m
  | some n =>
    let s := { s with hrn.ctrlSeen := some ((n + 1) % 2 ^ 32) }
    if s.hrn.ctrlNamed.contains n then ({ s with hrn.ctrlNamed := s.hrn.ctrlNamed.filter (· ≠ n) } : State).applyTwin m
    else { s with hrn.ctrlHeld := s.hrn.ctrlHeld ++ [(n, m)] }

/-- A STATE entry names the message with a CTRL_SEQ. -/
def State.nameChange (s : State) (n : Nat) : State :=
  match s.hrn.ctrlHeld.find? fun h => h.1 = n with
  | some h => ({ s with hrn.ctrlHeld := s.hrn.ctrlHeld.filter fun x => x.1 ≠ n } : State).applyTwin h.2
  | none => if s.hrn.ctrlSeen.isSome then { s with hrn.ctrlNamed := s.hrn.ctrlNamed ++ [n] } else s

/-- The new holder becomes ACTIVE at the HANDOVER entry (Table 13-12): it forms entries from h + 1 and re-destages the open records. -/
def State.becomeActive (s : State) : State :=
  let s := { s with hrn.lastSwap := s.now, hrn.own := [], hrn.theirs := [], hrn.posts := [], hrn.swap := none }
  let s := s.setRole .active 0
  let s := { s with hrn.holder := true, hrn.peerRole := some .standby }
  s.takeOver.raise Ev.HRN_SWAP

/-- The active's egress verdict on the packet with a TX_SEQ: this twin's copy, if it has not started to leave, is dropped or marked (R141). -/
def State.followEgress (s : State) (n txSeq action : Nat) : State :=
  match s.swc.frames.find? fun f => !f.ingress && f.conn = some n && f.seq = some txSeq && f.stage ≠ .sending with
  | none => s
  | some f => if action = 3 then s.dropFrame f else s.updFrame f.id fun f => { f with ce := true }

/-- What one order entry makes a follower do (R246). -/
def State.takeEntry (s : State) (e : OrderEntry) : State :=
  let s := { s with hrn.ordSeen := s.hrn.ordSeen + 1 }
  match e.kind with
  | .rx .. =>
    let s := { s with hrn.named := s.hrn.named ++ [e] }
    s.runNamed e.conn s.hrn.named.length
  | .tx .. => s.takeTx e
  | .nonce ctr slot _ =>
    s.updConn e.conn fun c => { c with nonces := c.nonces ++ [(slot, ctr)] }
  | .verdict slot action col =>
    if action = 1 then s
    else if 3 ≤ action then s.followEgress e.conn slot action
    else
      let s := s.updConn e.conn fun c => { c with verdicts := c.verdicts ++ [(slot, colourOf col)] }
      if s.mayStart then s.startAll e.conn (s.conn e.conn).rxq.length else s
  | .state n => s.nameChange n
  | .handover _ => if s.hrn.role = .standby && s.hrn.holder then s.becomeActive else s

/-- Take in consecutive entries; a joiner starts at the first it sees. -/
def State.takeEntries (s : State) : List OrderEntry → State
  | [] => s
  | e :: es =>
    let s := if s.hrn.role = .joining && !s.hrn.ordSync then { s with hrn.ordSync := true, hrn.ordSeen := e.oseq } else s
    if e.oseq = s.hrn.ordSeen % 2 ^ 32 then (s.takeEntry e).takeEntries es else s

/-- ORDER_RX (R246, R248): the follower takes the decisions in and replies with ORD_ACK. -/
def execOrderRx (entries : List OrderEntry) (s : State) : Host.Outcome State Fault Refusal :=
  .next <| s.onFlit fun s => s.when s.follows fun s =>
    let s := s.takeEntries entries
    (s.sendTwin (.linkFlit s.hrn.rxFlit s.lastOrd)).wakeMgmt

/-- MIRROR_ACK_RX (R247, R249): buffered blocks and Saddlebag records are on the peer; writes that waited complete. -/
def execMirrorAckRx (bufs records : List Nat) (s : State) : Host.Outcome State Fault Refusal :=
  .next <| s.onFlit fun s =>
    let bs : List BufBlk := s.lay.buffer.map fun b => if bufs.contains b.id then { b with acked := true } else b
    let js : List Stripe := s.sbg.stripes.map fun j => if records.contains j.slot then { j with acked := true } else j
    let acked (c : Cmd) : Cmd := { c with unmirrored := c.unmirrored.filter fun i => !bufs.contains i }
    let cs : Assoc Cmd := s.cmdb.cmds.map fun e => (e.1, acked e.2)
    let s : State := { s with lay.buffer := bs, sbg.stripes := js, cmdb.cmds := cs }
    (s.cmdb.cmds.map Prod.fst).foldl State.buffered s

/-- The buffered blocks that a record covers. -/
def State.coversBuf (s : State) (v e x off nblk mask : Nat) (b : BufBlk) : Bool :=
  let (e', x', p, o) := s.locate b.lba
  b.volume = v && b.visible && b.stripe.isNone && e' = e && x' = x && mask.testBit p && decide (off ≤ o) && decide (o < off + nblk)

/-- SADDLEBAG_RX (R181, R249): a mirrored record is kept with the buffered blocks it carries and acknowledged; a cleared one frees
both. -/
def execSaddlebagRx (kind slot seq : Nat) (cleared : Bool) (volume extent stripe off nblk mask : Nat) (pcrc : List Nat) (s : State) :
    Host.Outcome State Fault Refusal :=
  .next <| s.onFlit fun s => s.when s.follows fun s =>
    let js : List Stripe := s.sbg.stripes.filter fun j => j.slot ≠ slot
    if cleared then
      let landed := s.lay.buffer.filter fun b => b.stripe = some slot
      let bs : List BufBlk := s.lay.buffer.filter fun b => b.stripe ≠ some slot
      ((({ s with sbg.stripes := js, lay.buffer := bs }).keepClean landed).noteDirty).wakeFlush
    else
      let m := s.mapEnt volume extent
      let j : Stripe :=
        { slot := slot, kind := kind, volume := volume, extent := extent, stripe := stripe, row := m.row, band := m.band, incarn := m.incarn,
          seq := seq, mapGen := s.lay.mapGen, mask := mask, off := off, nblk := nblk, pcrc := pcrc, dataW := [], parityW := [], acked := true }
      let bs : List BufBlk := s.lay.buffer.map fun b =>
        if kind = 0 && s.coversBuf volume extent stripe off nblk mask b then { b with stripe := some slot } else b
      ({ s with sbg.stripes := js ++ [j], sbg.seq := max s.sbg.seq (seq + 1), lay.buffer := bs }).sendTwin (.mirrorAck [] [slot])

/-- DIGEST_RX (R254): the active's records, each with the OSEQ of its TX entry. -/
def execDigestRx (records : List (Nat × Nat)) (s : State) : Host.Outcome State Fault Refusal :=
  .next <| s.onFlit fun s => s.when s.follows fun s => { s with hrn.theirs := s.hrn.theirs ++ records }

/-! ### Snapshot and CONTROL (R264, R371) -/

/-- Put a part of the snapshot in place (Table 13-11). -/
def State.takePart (s : State) : StatePart → State
  | .mapEntry v e row band incarn wgen lost =>
    s.takeMapEntry v e { row := row, alloc := true, lost := lost, band := band, incarn := incarn, wgen := wgen }
  | .progressBits row band ps => s.takeProgress row band ps true
  | .suspect v e => { s with reb.suspect := s.reb.suspect ++ [(v, e)] }
  | .volume v n segs => { s with lay.volumes := Assoc.upd {} s.lay.volumes v fun x => { x with used := true, extents := n, segs := segs } }
  | .dirtyBlock id nsid v lba blk =>
    let b : BufBlk := { id := id, nsid := nsid, volume := v, lba := lba, blk := blk, acked := true }
    { s with lay.buffer := s.lay.buffer ++ [b], lay.nextBuf := max s.lay.nextBuf (id + 1) }
  | .lostRange v lba n cause time => { s with cmdb.lost := insertLost ⟨v, lba, n, cause, time⟩ s.cmdb.lost }
  | .context n req va key b => (s.openConn req n 0 va key).updConn n fun c => c.ofBytes b
  | .sa n host spi okm out high =>
    let k := espKey (s.conn n).key ((s.conn n).spi n)
    s.updConn n fun c => { c with host := some host, spiPeer := spi, okm := okm, key := k, esnOut := out, esnHigh := high }
  | .tableEntry t i bytes =>
    { s with tbl.tables := Assoc.upd {} s.tbl.tables t fun x => { x with entries := Assoc.set [] x.entries i bytes } }
  | .dataKey slot nsid gen key => s.setDataKey slot { used := true, key := key, bound := some (nsid, gen) }
  | .grant pd nsid r w exp =>
    let gs : List Grant := s.xpt.grants.filter fun g => !(g.pd = pd && g.nsid = nsid)
    { s with xpt.grants := gs ++ [⟨pd, nsid, r, w, exp⟩] }
  | .namespace_ n v t size ptpl nguid gens regs rt rh rs =>
    s.setNs n { used := true, volume := v, tenant := t, nsze := size, ptpl := ptpl, nguid := nguid, gens := gens, regs := regs, rtype := rt,
                rholder := rh, reseal := rs.map fun g => (g, []) }
  | .lock id n slba nlb rel =>
    let ls : List RetLock := s.sec.locks.filter fun l => l.id ≠ id
    { s with sec.locks := ls ++ [⟨id, n, slba, nlb, rel, false⟩], sec.nextLock := max s.sec.nextLock (id + 1) }
  | .host k pd t plain hid rn ml e =>
    let h : HostEnt := { used := true, pd := pd, tenant := t, plaintextOk := plain, hostId := hid, rsaE := e, rsaN := rn, mldsa := ml }
    { s with xpt.hosts := Assoc.set {} s.xpt.hosts k h }
  | .floor t => { s with tim.floor := max s.tim.floor t }
  | .record slot seq kind v e x row band incarn off nblk mask pcrc =>
    let j : Stripe :=
      { slot := slot, kind := kind, volume := v, extent := e, stripe := x, row := row, band := band, incarn := incarn, seq := seq,
        mapGen := s.lay.mapGen, mask := mask, off := off, nblk := nblk, pcrc := pcrc, dataW := [], parityW := [], acked := true }
    let js : List Stripe := s.sbg.stripes.filter fun j => j.slot ≠ slot
    { s with sbg.stripes := js ++ [j], sbg.seq := max s.sbg.seq (seq + 1) }
  | .extension x => { s with tck.ext := x, tck.extDisabled := false }
  | .journalKey k g => { s with cph.journalKey := k, cph.journalGen := g }
  | .administrators m ks => if s.sec.admins = 0 then { s with sec.admins := m, sec.adminKeys := ks } else s
  | .register a v => s.takeRegister a v
  | .command d env => s.startCarried d env false
  | .arbiters ms => { s with hrn.arbs := ms }
  | .percent n => { s with hrn.join := some { id := none, percent := min n 100 } }

/-- STATE_RX (R264). -/
def execStateRx (part : StatePart) (s : State) : Host.Outcome State Fault Refusal :=
  .next <| s.onFlit fun s => s.when (s.hrn.role = .joining) fun s => s.takePart part

/-- A twin demoted under R250 discards its state and joins again. -/
def State.discardTwin (s : State) : State := s.dropShelf.setRole .joining 0

/-- The joiner or standby leaves on its holder's word (R265, R269): it unregisters and is FENCED. -/
def State.leavePair (s : State) : State :=
  let ms := s.liveMembers
  let s := (ms.foldl (fun s m => s.reserve m 4 s.epoch 0) s).sendTwin (.controlMsg .left)
  if s.hrn.role = .joining then s.joinFails 6 else s.fence 6

/-- The joiner becomes STANDBY at cutover (R264 step 4), at the holder's epoch, and records the keys it has taken over (R302, R303); its own
digest records begin with the next entry. -/
def State.cutOver (s : State) : State :=
  let s := s.setFld Reg.HRN_EPOCH_EPOCH s.hrn.peerEpoch
  let h := { s.hrn with join := none, own := [], theirs := [], peerRole := some .active, lastHb := s.now, lastAck := s.now }
  let s := (({ s with hrn := h }).setRole .standby 0).registerAll s.hrn.peerEpoch 1
  (s.mapsLoaded.saveRecord []).raise Ev.HRN_JOIN_DONE

/-- Start taking the cinch at E + 1 (R267, Table 13-7). -/
def State.takeCinch (s : State) (yields : Bool) : State :=
  if s.hrn.round.isSome then s else s.startRound (if yields then .yield else .swap) (s.epoch + 1) s.liveMembers

/-- The source of a fault this twin finds in itself since the mismatched window began (R255); 0 where only its record differs. -/
def State.ownFault (s : State) (since : Nat) (recordDiffers : Bool) : Option Nat :=
  match s.hrn.fault with
  | some (n, t) => if since ≤ t then some n else if recordDiffers then some 0 else none
  | none => if recordDiffers then some 0 else none

/-- The peer is fenced and this holder goes on alone. -/
def State.keepControl (s : State) : State := { s.becomeAlone 2 with hrn.peerRole := some .fenced }

/-- Both verdicts are in (R255, Table 13-7). -/
def State.settleCheck (s : State) : State :=
  match s.hrn.check with
  | some ⟨_, _, _, some own, some peer⟩ =>
    let s := ({ s with hrn.check := none } : State).raiseIf (own.isSome && peer) Ev.HRN_BOTH_FAULT
    match s.hrn.role, own.isSome, peer with
    | .active, true, false => (s.sendTwin (.controlMsg (.takeCinch true))).fence 3
    | .active, _, _ => s.keepControl
    | .standby, false, true => s.takeCinch true
    | .standby, true, _ => s.fence 3
    | .standby, false, false => s.fence 2
    | _, _, _ => s
  | _ => s

/-- What a CONTROL message makes this twin do. -/
def State.takeControl (s : State) (msg : ControlMsg) : State :=
  match msg with
  | .command .. | .register .. | .reservation .. | .memberState .. | .arbiters .. | .mapEntry .. | .zeroed .. | .progress .. | .subGone .. | .lostRange .. |
    .found .. | .retired .. | .scrubbed .. => s.when s.follows fun s => s.takeChange msg
  | .connection n req psn va key => s.when s.follows fun s => ((s.flowInstall (flowKey req.key) n).1).openConn req n psn va key
  | .keyed n host spi okm sq rq msn => s.when (s.follows && (s.conn n).st = .keying) fun s =>
    ((s.installSas n host spi okm).updConn n fun c => { c with sqPsn := sq, unaPsn := sq, rqPsn := rq, msn := msn }).admitConn n
  | .memberAck m => s.memberAcked m
  | .slotPg n => s.peerPg n
  | .stepTime ns => s.when s.follows fun s => (s.stepForward ns).raise Ev.TIME_STEP [ns, 1]
  | .joinStart e n => s.when (s.hrn.role = .joining) fun s => s.joinStarts e n
  | .cutover => s.when (s.hrn.role = .joining) State.cutOver
  | .demote => s.when (s.hrn.role = .standby) State.discardTwin
  | .leave => s.when s.follows State.leavePair
  | .left =>
    let id := s.hrn.leaving
    ({ s with hrn.leaving := none }).endCmd id .success
  | .takeCinch y => s.when (s.hrn.role = .standby && !s.hrn.silent) fun s => s.takeCinch y
  | .cinchTaken => { s with hrn.swap := s.hrn.swap.map fun w => { w with taken := true } }
  | .restart => s.when (s.hrn.role = .standby) fun s =>
    let s := s.fence 6
    ({ s with sec.nextB := !s.sec.bootB, sec.after := some .restart }).saveRecord []
  | .yielded => s.when (s.hrn.role = .active) fun s => { s.becomeAlone 3 with hrn.peerRole := some .fenced }
  | .taken op => s.peerTook op
  | .selfCheck w c o => s.when (s.hrn.role = .active || s.hrn.role = .standby) fun s => { s with hrn.check := some { since := w, conn := c, oseq := o } }
  | .verdict f => ({ s with hrn.check := s.hrn.check.map fun k => { k with peer := some f } } : State).settleCheck
  | .event n detail =>
    let s := s.raise Ev.PEER_NMI (n :: detail)
    { s with evt.nmiLast := n, evt.nmiFromPeer := true }

/-- CONTROL_RX (R246, R371). -/
def execControlRx (msg : ControlMsg) (s : State) : Host.Outcome State Fault Refusal := .next <| s.onFlit fun s => s.takeControl msg

end Sys2Proof.Machine
end

