-- ==== Sys2Proof/Machine/Claim.lean ====
section
/-! DEFINITION. Chapter 13: digests and self-check, silence, arbitration, the taking of the cinch, the start-up claim, and the
commands of the pair. -/
namespace Sys2Proof.Machine

/-! ### Digest windows and self-check (R254, R255) -/

/-- The active's record of a TX entry, if it has arrived. -/
def State.theirRec (s : State) (oseq : Nat) : Option Nat := (s.hrn.theirs.find? fun t => t.1 = oseq).map Prod.snd

/-- Whether both records of a TX entry are there. -/
def State.recReady (s : State) (d : DigRec) : Bool := d.rec_.isSome && (s.theirRec d.oseq).isSome

/-- Compare window `w`: mismatches are counted and shown, late records too, and the first mismatch starts self-check on both twins. -/
def State.compareWindow (s : State) (w : Nat) : State :=
  let ds := s.hrn.own.filter fun d => d.time / 4000 = w
  let ready := ds.filter s.recReady
  let bad := ready.filter fun d => d.rec_ ≠ s.theirRec d.oseq
  let late := ds.length - ready.length
  let own : List DigRec := s.hrn.own.filter fun d => d.time / 4000 ≠ w
  let theirs : List (Nat × Nat) := s.hrn.theirs.filter fun t => !(ds.any fun d => d.oseq = t.1)
  let s : State := { s with hrn.own := own, hrn.theirs := theirs }
  let s := (s.bump Reg.HRN_DIG_WINDOWS_COUNT).bump Reg.HRN_DIG_LATE_COUNT late
  let s := (List.range late).foldl (fun s _ => s.raise Ev.HRN_DIG_LATE) s
  let s := bad.foldl (fun s d => (s.bump Reg.HRN_DIG_MISMATCH_COUNT).raise Ev.HRN_DIGEST [d.conn, d.oseq]) s
  match bad with
  | [] => s
  | d :: _ => ({ s with hrn.check := some { since := w * 4000, conn := d.conn, oseq := d.oseq } } : State).sendTwin (.controlMsg (.selfCheck (w * 4000) d.conn d.oseq))

/-- The oldest window with TX entries not yet compared. -/
def State.digWindow (s : State) : Option Nat := s.hrn.own.head?.map fun d => d.time / 4000

/-- DIGEST_WINDOW_COMPARE (R254): the oldest window is over and every record of it is there. -/
def execDigestWindowCompare (s : State) : Host.Outcome State Fault Refusal :=
  .next <|
    match s.digWindow with
    | none => s
    | some w =>
      let ended := decide ((w + 1) * 4000 ≤ s.now) || s.hrn.own.any fun d => decide (w < d.time / 4000)
      s.when (s.hrn.role = .standby && ended && (s.hrn.own.all fun d => d.time / 4000 ≠ w || s.recReady d)) fun s => s.compareWindow w

/-- DIG_WAIT_EXPIRE (R254): DIG_WAIT after its end the window is compared as it stands. -/
def execDigWaitExpire (s : State) : Host.Outcome State Fault Refusal :=
  .next <|
    match s.digWindow with
    | none => s
    | some w => s.when (s.hrn.role = .standby) fun s =>
        (s.reach ((w + 1) * 4000 + s.fld Reg.HRN_DIG_DIG_WAIT * 1000)).compareWindow w

/-- SELF_CHECK_VERDICT (R255): the record `made` is computed `again`, this twin's verdict is reached and sent; with the peer's it decides. -/
def execSelfCheckVerdict (again made : Nat) (s : State) : Host.Outcome State Fault Refusal :=
  .next <|
    match s.hrn.check with
    | none => s
    | some k =>
      s.when k.own.isNone fun s =>
        let own := s.ownFault k.since (again != made)
        let s := match own with
          | some n => s.raise Ev.HRN_SELF_FAULT [n]
          | none => s
        (({ s with hrn.check := some { k with own := some own } } : State).sendTwin (.controlMsg (.verdict own.isSome))).settleCheck

/-! ### Silence and arbitration (R259, R260) -/

/-- SILENCE_DECLARE (R259, Table 13-14): egress, completions and member writes are held; a swap is abandoned with BUSY, a self-check
void. An ACTIVE arbitrates at once, a STANDBY after QUORUM_DLY. The twin has left the link and does not rejoin it
before arbitration ends. -/
def execSilenceDeclare (s : State) : Host.Outcome State Fault Refusal :=
  .next <| s.when ((s.hrn.role = .active || s.hrn.role = .standby) && !s.hrn.silent) fun s =>
    let s := s.reach (min s.hrn.lastHb s.hrn.lastAck + s.fld Reg.HRN_SILENCE_SILENCE * 1000)
    let s := (s.raise Ev.HRN_SILENCE).endCmd (s.hrn.swap.bind SwapRun.id) .busy
    let s := s.endCmd s.hrn.upgrade .busy
    let h := { s.hrn with silent := true, swap := none, upgrade := none, check := none, round := none, link := false, linkKey := [] }
    ({ s with hrn := h, htx := {} }).armArb (if s.hrn.role = TwinRole.standby then s.fld Reg.HRN_SILENCE_QUORUM_DLY * 1000 else 0) (s.epoch + 1)

/-- Arbitrate at an epoch: R257 on every arbiter in parallel; one that is neither ACTIVE nor SUSPECT counts as not won (R261). -/
def State.startArb (s : State) (epoch : Nat) : State :=
  let as := s.hrn.arbs.take s.arbCount
  let live (m : Nat) : Bool := s.arbMembers.contains m
  let ts : List Take := as.map fun m => { member := m, st := if live m then .registering else .failed, since := s.now }
  let r : Round := ⟨.arbiters, epoch, ts⟩
  let s := { s with hrn.arbAt := none, hrn.retryAt := none, hrn.round := some r }
  (as.filter live).foldl (fun s m => s.reserve m 1 epoch 4) (s.bump Reg.HRN_ARB_ROUNDS_COUNT)

/-- ARBITRATION_START (R260). -/
def execArbitrationStart (s : State) : Host.Outcome State Fault Refusal :=
  .next <|
    match s.hrn.arbAt with
    | none => s
    | some t => (s.reach t).startArb s.hrn.arbEpoch

/-- Record the Report of a member during the start-up claim (R263). -/
def State.claimReport (s : State) (m : Nat) (left : List Nat) (till : Nat) (expired : Bool) (r : CinchResult) : State :=
  let s : State := match r with
    | .report h =>
      let h' : Hrn := { s.hrn with reports := s.hrn.reports ++ [(m, h.map keyTag)], maxEpoch := max s.hrn.maxEpoch ((h.map keyEpoch).getD 0) }
      { s with hrn := h' }
    | _ => s
  ({ s with hrn.claim := .reading (left.erase m) till expired }).claimOn

/-- The highest epoch read on any member. -/
def State.noteEpoch (s : State) : CinchResult → State
  | .report (some k) => { s with hrn.maxEpoch := max s.hrn.maxEpoch (keyEpoch k) }
  | _ => s

/-- A result on a member of a round (R257, R372): the next command goes out; outside arbitration a lost member fences the twin. -/
def State.roundResult (s : State) (k : Round) (t : Take) (r : CinchResult) : State :=
  let (st, next) := t.step r s.deviceTag k.epoch
  let t' := t.after st r s.now
  let ts : List Take := k.takes.map fun x => if x.member = t.member then t' else x
  let k' : Round := { k with takes := ts }
  let s := { s with hrn.round := some k' }
  let s := match next with
    | some w => s.reserve t.member w k.epoch k.kind.role t'.holder
    | none => s
  if st.away && k.kind ≠ .arbiters then s.loseClaim t.member else s

/-- A result on a member taken again at HRN_EPOCH after its link came up (R369). -/
def State.retakeResult (s : State) (t : Take) (r : CinchResult) : State :=
  let (st, next) := t.step r s.deviceTag s.epoch
  let t' := t.after st r s.now
  let ts : List Take := if st.ended then s.hrn.retakes.filter fun x => x.member ≠ t.member
    else s.hrn.retakes.map fun x => if x.member = t.member then t' else x
  let s := { s with hrn.retakes := ts }
  let s := match next with
    | some w => s.reserve t.member w s.epoch (roleCode s.hrn.role) t'.holder
    | none => s
  if st.away then s.loseClaim t.member
  else if st = .failed then s.changeMember t.member .failed 4 none
  else s

/-- CINCH_MEMBER_RESULT (R257). -/
def execCinchMemberResult (member : Fin 64) (result : CinchResult) (s : State) : Host.Outcome State Fault Refusal :=
  .next <|
    let m := member.val
    let inRound : Option Take := match s.hrn.round with
      | some k => k.takes.find? fun t => t.member = m && !t.st.ended
      | none => none
    match s.hrn.claim, s.hrn.round, inRound with
    | .reading left till expired, _, _ => if left.contains m then s.claimReport m left till expired result else s
    | _, some k, some t => (s.noteEpoch result).roundResult k t result
    | _, _, _ =>
      match s.hrn.retakes.find? fun t => t.member = m with
      | some t => s.retakeResult t result
      | none => s

/-- ARB_CMD_TMO_EXPIRE (R260): the arbiter counts as not won. -/
def execArbCmdTmoExpire (member : Fin 64) (s : State) : Host.Outcome State Fault Refusal :=
  .next <|
    match s.hrn.round with
    | none => s
    | some k =>
      match k.takes.find? fun t => t.member = member.val && !t.st.ended with
      | none => s
      | some t =>
        if k.kind = .arbiters then (s.reach (t.since + s.fld Reg.HRN_ARB_CFG_ARB_CMD_TMO * 1000)).roundResult k t .noAnswer else s

/-- The takings of a round in a state. -/
def Round.count (k : Round) (p : TakeSt → Bool) : Nat := (k.takes.filter fun t => p t.st).length

/-- No quorum (R260): SOLO with HOLDER 0; it admits no host I/O and tries again every ARB_RETRY. -/
def State.noQuorum (s : State) : State :=
  let s := s.raise Ev.HRN_NO_QUORUM
  let s := if s.hrn.role = .solo then s else { s.setRole .solo 1 with hrn.was := some s.hrn.role }
  let h := { s.hrn with holder := false, silent := false, round := none, peerRole := none,
                        retryAt := some (s.now + s.fld Reg.HRN_ARB_CFG_ARB_RETRY * 1000000) }
  ({ s with hrn := h }).meetHolder

/-- ARBITRATION_DECIDED (R260). -/
def execArbitrationDecided (s : State) : Host.Outcome State Fault Refusal :=
  .next <|
    match s.hrn.round with
    | none => s
    | some k => s.when (k.kind = .arbiters) fun s =>
        let n := s.arbCount
        let won := k.count fun t => t = .taken
        if n < 2 * won then (s.raise Ev.HRN_ARB_WON [k.epoch, won]).startRound .won (k.epoch + 1) s.liveMembers
        else if n < 2 * k.count fun t => t = .lost then s.fence 1
        else if k.takes.all fun t => t.st.ended then s.noQuorum
        else s

/-- ARB_RETRY_EXPIRE (R260): the twin arbitrates again at one above the highest epoch it has read. -/
def execArbRetryExpire (s : State) : Host.Outcome State Fault Refusal :=
  .next <|
    match s.hrn.retryAt with
    | none => s
    | some t => (s.reach t).startArb s.claimEpoch

/-! ### The end of a round (R372, R263) -/

/-- HOLDER becomes 1. -/
def State.setHolder (s : State) : State := { s with hrn.holder := true }

/-- A pair's twin that has won goes on alone: a STANDBY takes over, also where it had found no quorum before. -/
def State.winAlone (s : State) (was : Role) : State :=
  let s := if s.hrn.role = .solo then s else s.setRole .solo 1
  let s := ({ s with hrn.was := none } : State).setHolder
  if was = .standby then s.takeOver.settleAlone else s.settleAlone

/-- What the end of a round leads to. A claim at start-up replays before host I/O (R263): from its own ring and buffer after a
full-device reset, where no other twin has held the members since (R186), else from the members (R187). A takeover goes on from the last order entry
and the buffer (R186). -/
def State.roundLeads (s : State) (k : RoundKind) : State :=
  match k with
  | .swap => s.sendTwin (.controlMsg .cinchTaken)
  | .yield => ((s.setRole .solo 3).setHolder.takeOver).settleAlone
  | _ =>
    match s.hrn.role, s.hrn.was with
    | .standby, _ => s.winAlone .standby
    | .active, _ => s.winAlone .active
    | _, some r => s.winAlone r
    | _, none => if s.clk.warm && !s.otherHolds then s.reopenRecords.mapsLoaded else { s with sbg.replaying := true }

/-- The members that no drive showed at the restore become ABSENT for the shelf (R193 step 4). -/
def State.loseMissing (s : State) : State :=
  let ms := s.reb.missing
  ms.foldl (fun s m => (s.setMember m.1 { s.member m.1 with st := m.2 }).changeMember m.1 .absent 1 none) { s with reb.missing := [] }

/-- CLAIM_ROUND_DONE (R372): every live member is taken or has failed; the failed ones become FAILED, and the twin holds the cinch. -/
def execClaimRoundDone (s : State) : Host.Outcome State Fault Refusal :=
  .next <|
    match s.hrn.round with
    | none => s
    | some k =>
      s.when (k.kind ≠ .arbiters && k.takes.all fun t => t.st = .taken || t.st = .failed) fun s =>
        let h := { s.hrn with holder := true, round := none, silent := false, retryAt := none }
        let s := ({ s with hrn := h }).setFld Reg.HRN_EPOCH_EPOCH k.epoch
        let s := s.roundLeads k.kind
        let s := s.rezero.loseMissing.judgeSlots
        let s := (k.takes.filter fun t => t.st = .failed).foldl (fun s t => s.changeMember t.member .failed 4 none) s
        s.fixArbs.autoJoin

/-- CLAIM_LOST (R258): a member write is refused with Reservation Conflict. -/
def execClaimLost (member : Fin 64) (s : State) : Host.Outcome State Fault Refusal :=
  .next <| s.when (s.hrn.role ≠ .fenced) fun s => s.loseClaim member

/-- CLAIM_LINK_WAIT_EXPIRE (R263): the 2 s for the Harness are over. -/
def execClaimLinkWaitExpire (s : State) : Host.Outcome State Fault Refusal :=
  .next <|
    match s.hrn.claim with
    | .reading left till _ => ({ s.reach till with hrn.claim := .reading left till true }).claimOn
    | _ => s

/-- HRN_CLAIM_WRITE (R263): the key makes a twin that waits in step 6 arbitrate at ACTIVE timing. -/
def execHrnClaimWrite (value : Word) (s : State) : Host.Outcome State Fault Refusal :=
  .next <| s.when (value = 0xC1A17000 && s.hrn.claim = .waitLink) fun s => s.armArb 0 s.claimEpoch

/-! ### Commands of the pair (R264, R267, R269, R251) -/

/-- PAIR (R264): the join it starts completes it. -/
def execPair (id : Nat) (s : State) : Host.Outcome State Fault Refusal :=
  .next <| s.runPlain id 0x0400 [(0, 40)] fun c s =>
    if s.hrn.join.isSome || s.hrn.swap.isSome then s.complete c .busy
    else if !s.mayJoin then s.complete c .configConflict
    else (s.hold c.id).startJoin (some c.id)

/-- JOIN_CUTOVER (R264 step 4): the snapshot has gone, the holder becomes ACTIVE and re-registers with ROLE 0, and the join's command completes;
during an activation a Role Swap follows (R268 step 3). -/
def execJoinCutover (s : State) : Host.Outcome State Fault Refusal :=
  .next <|
    match s.hrn.join with
    | none => s
    | some j => s.when (s.mayJoin && !(s.htx.queue.any fun m => m.kind = .state)) fun s =>
        let s := s.sendTwin (.controlMsg .cutover)
        let h := { s.hrn with join := none, ordAck := s.hrn.oseq, lastHb := s.now, lastAck := s.now, peerRole := some .standby }
        let s := (({ s with hrn := h }).setRole .active 0).registerAll s.epoch 0
        let s := (s.raise Ev.HRN_JOIN_DONE).endCmd j.id .success
        let w : SwapRun := { id := none }
        s.when s.hrn.upgrade.isSome fun s => { s with hrn.swap := some w }

/-- ROLE_SWAP (R267). -/
def execRoleSwap (id : Nat) (s : State) : Host.Outcome State Fault Refusal :=
  .next <| s.runPlain id 0x0401 [(0, 40)] fun c s =>
    if s.hrn.join.isSome || s.hrn.swap.isSome then s.complete c .busy
    else if s.hrn.role ≠ .active || s.hrn.peerRole ≠ some .standby then s.complete c .configConflict
    else
      let w : SwapRun := { id := some c.id }
      { s.hold c.id with hrn.swap := some w }

/-- SWAP_QUIESCED (R267): no member write is in flight, and the standby is told to take the cinch. -/
def execSwapQuiesced (s : State) : Host.Outcome State Fault Refusal :=
  .next <|
    match s.hrn.swap with
    | none => s
    | some w => s.when (s.hrn.role = .active && !w.quiesced && s.drv.cmds.all DrvCmd.isRead) fun s =>
        let w' : SwapRun := { w with quiesced := true }
        ({ s with hrn.swap := some w' }).sendTwin (.controlMsg (.takeCinch false))

/-- HANDOVER (R267): with the cinch at the standby the old active sends HANDOVER, re-registers at the new epoch with ROLE 1 and
follows; Role Swap completes. During an activation Activate Firmware completes and this twin resets into the new image (R268). -/
def execHandover (s : State) : Host.Outcome State Fault Refusal :=
  .next <|
    match s.hrn.swap with
    | none => s
    | some w => s.when (s.hrn.role = .active && w.taken) fun s =>
        let e := s.epoch + 1
        let s := ((s.order 0xFFFF (.handover e)).1).setFld Reg.HRN_EPOCH_EPOCH e
        let h := { s.hrn with swap := none, ordSeen := s.hrn.oseq, lastSwap := s.now, own := [], theirs := [], posts := [],
                              ctrlSeen := some s.hrn.ctrlSeq }
        let s := ({ s with hrn := h }).setRole .standby 0
        let s := ({ s with hrn.peerRole := some .active }).registerAll e 1
        let up := s.hrn.upgrade
        let s := ((s.raise Ev.HRN_SWAP).endCmd w.id .success).endCmd up .success
        let s := { s with hrn.upgrade := none }
        s.when up.isSome fun s => s.fullReset []

/-- LEAVE_PAIR (R269): the peer is told to leave, and the holder goes on as SOLO; a join under way fails with cause 6. -/
def execLeavePair (id : Nat) (s : State) : Host.Outcome State Fault Refusal :=
  .next <| s.runPlain id 0x0402 [(0, 40)] fun c s =>
    if !s.hasPeer then s.complete c .configConflict
    else
      let s := ((s.hold c.id).dropJoin 6).sendTwin (.controlMsg .leave)
      let s := s.endCmd (s.hrn.swap.bind SwapRun.id) .configConflict
      let s := { s with hrn.swap := none, hrn.leaving := some c.id }
      if s.hrn.role = .active then s.becomeAlone 6 else s.settleAlone

/-- The TANDEM connections in the scope of an egress policy. -/
def State.tandemIn (s : State) (tenant : Option Nat) : List Nat :=
  (s.xpt.conns.filter fun e => e.2.tandem && !e.2.demoting && (match tenant with
    | some t => decide (e.2.tenant = t)
    | none => true)).map Prod.fst

/-- SET_EGRESS_POLICY (R251, Table 13-13): what later connections may do, and with DEMOTE the TANDEM connections in scope move to LEAD,
each at its next TX entry. -/
def execSetEgressPolicy (id : Nat) (s : State) : Host.Outcome State Fault Refusal :=
  .next <| s.runPlain id 0x0403 [(4, 36)] fun c s =>
    let scope := c.desc.par 0 1
    let f := c.desc.par 1 1
    let t := c.desc.par 2 2
    if 2 ≤ scope || 8 ≤ f || (scope = 1 && decide (1024 ≤ t)) then s.complete c .invalidField
    else
      let allow := f.testBit 0
      let v := if f.testBit 2 then 0 else if allow then 1 else 2
      let s := if scope = 0 then { s with hrn.tandemDefault := allow }
        else { s with hrn.tandemTenant := Assoc.set 0 s.hrn.tandemTenant t v }
      let ns := if f.testBit 1 then s.tandemIn (if scope = 0 then none else some t) else []
      let s := ns.foldl (fun s n => s.updConn n fun c => { c with demoting := true }) s
      s.holderDone c ns.length

end Sys2Proof.Machine
end

