-- ==== Sys2Proof/Machine/Trust.lean ====
section
/-! DEFINITION. Chapter 15 and the guarded commands of chapters 04, 07 and 14: hosts, grants, data keys, administrators, retention
locks, firmware, extensions, and the SPDM responder. -/
namespace Sys2Proof.Machine

/-! ### The transport's EN (R124) and SEND (R85) -/

/-- XPT_ENABLE (R124): EN goes from 0 to 1 and the wheel takes a timer slot of owner 3; with none free the write is discarded. -/
def execXptEnable (value : Word) (s : State) : Host.Outcome State Fault Refusal :=
  .next <| s.when (!s.flag Reg.XPT_CFG_EN && getBits value 0 0 = 1) fun s => s.ccResumed (s.writeXptCfg value)

/-- The length of what a SEND sends, and the cells it takes; `none` where its buffer's address is refused (R67). -/
def State.sendLen (s : State) (c : Call) : SendFrom → Option (Nat × Nat)
  | .cells hs => some ((hs.map fun h => (Assoc.get [] s.swc.cells h).length).foldl (· + ·) 0, hs.length)
  | .buffer a n => (s.access c a n false).map fun _ => (n, (n + 255) / 256)

/-- The frame that a SEND queues. -/
def State.sendFrame (s : State) (sub conn len cells : Nat) : Frame :=
  let x := s.conn conn
  let b := Body.raw len
  let cls := s.bodyClass x b
  { id := 0, sub := sub, queue := egressQueue sub cls, len := len, cells := cells, cls := cls, conn := some conn, tenant := x.tenant,
    body := b, ordTime := s.now }

/-- SEND (R79, R85): a cell chain or a buffer is queued on a sub-port and RESULT is the TX_SEQ it takes; without a tracking entry it
completes with RESOURCE and sends nothing, and while no cells are free, or an earlier packet of the connection waits for some, the call
stalls. -/
def execSend (source : SendFrom) (sub : Nat) (conn : Nat) (s : State) : Host.Outcome State Fault Refusal :=
  .next <|
    match s.nextCall 5 with
    | none => s
    | some c =>
      match s.sendLen c source with
      | none => s.answer c 3 0
      | some (len, cells) =>
        let f := s.sendFrame sub conn len cells
        if 32 ≤ sub || 65536 ≤ conn || cells = 0 then s.answer c 2 0
        else if !s.canTrack true conn then s.answer c 4 0
        else s.when (s.mayGo f) fun s => (s.launch f).answer c 0 (s.reseq true conn).assign

/-! ### Hosts and grants (R130, R131) -/

/-- Close every connection of a host slot. -/
def State.closeHost (s : State) (h : Nat) : State :=
  (s.xpt.conns.filter fun e => e.2.host = some h && e.2.st ≠ .idle && e.2.st ≠ .closed).foldl (fun s e => s.close e.1 3) s

/-- ENROL_HOST (R131): enrols, replaces or removes a host slot; REPLACE and REMOVE complete once its connections have closed. -/
def execEnrolHost (id : Nat) (s : State) : Host.Outcome State Fault Refusal :=
  .next <| s.runMgmt id 0x0205 [(0, 40)] (· = 2368) (fun _ => true) fun c s =>
    let p := c.payload
    let h := leAt p 0 2
    let f := leAt p 6 1
    let old : HostEnt := Assoc.get {} s.xpt.hosts h
    let remove := f.testBit 2
    if 4095 < h || 4095 < leAt p 2 2 || 1023 < leAt p 4 2 || 7 < f || leAt p 7 1 ≠ 0 || leAt p 0x1C 4 ≠ 0 then s.complete c .invalidField
    else if (old.used && !f.testBit 1 && !remove) || (remove && !old.used) then s.complete c .configConflict
    else
      let x : HostEnt := if remove then {} else
        { used := true, pd := leAt p 2 2, tenant := leAt p 4 2, plaintextOk := f.testBit 0, hostId := (p.drop 8).take 16,
          rsaE := leAt p 0x18 4, rsaN := (p.drop 0x20).take 384, mldsa := (p.drop 0x1A0).take 1952 }
      let s := ({ s with xpt.hosts := Assoc.set {} s.xpt.hosts h x } : State).persist (.host h)
      if !old.used then s.holderDone c
      else
        let s := (s.hold c.id).closeHost h
        if s.hostClosed h && (s.ctl.started.any fun y => y.id = c.id) then s.holderDone c else s

/-- GRANT_NAMESPACE (R131). -/
def execGrantNamespace (id : Nat) (s : State) : Host.Outcome State Fault Refusal :=
  .next <| s.runMgmt id 0x0206 [(0, 40)] (· = 24) (fun _ => true) fun c s =>
    let p := c.payload
    let pd := leAt p 0 2
    let a := leAt p 2 1
    let n := leAt p 4 4
    let rest : List Grant := s.xpt.grants.filter fun g => !(g.pd = pd && g.nsid = n)
    let new := (s.grantOf pd n).isNone
    if 4095 < pd || a = 0 || 3 < a || leAt p 3 1 ≠ 0 || leAt p 0x10 8 ≠ 0 || !s.nsExists n then s.complete c .invalidField
    else if new && (decide (1024 ≤ (s.xpt.grants.filter fun g => g.pd = pd).length) || decide (65536 ≤ s.xpt.grants.length)) then
      s.complete c .limitExceeded
    else
      let g : Grant := { pd := pd, nsid := n, read := a.testBit 0, write := a.testBit 1, expiry := leAt p 8 8 }
      (({ s with xpt.grants := rest ++ [g] }).nsChanged n [pd]).holderDone c

/-- REVOKE_GRANT (R131): it completes when every command that passed its check against the grant has. -/
def execRevokeGrant (id : Nat) (s : State) : Host.Outcome State Fault Refusal :=
  .next <| s.runMgmt id 0x0207 [(0, 40)] (· = 8) (fun _ => true) fun c s =>
    let pd := leAt c.payload 0 2
    let n := leAt c.payload 4 4
    if leAt c.payload 2 2 ≠ 0 || (s.grantOf pd n).isNone then s.complete c .invalidField
    else
      let gs : List Grant := s.xpt.grants.filter fun g => !(g.pd = pd && g.nsid = n)
      let s := { s with xpt.grants := gs }
      if s.nsBusy n (some pd) then s.hold c.id else (s.nsChanged n [pd]).holderDone c

/-! ### Data keys (R285, R286, R304, R305) -/

/-- ROTATE_DATA_KEY (R285). -/
def execRotateDataKey (id : Nat) (s : State) : Host.Outcome State Fault Refusal :=
  .next <| s.runMgmt id 0x0501 [(0, 40)] (· = 16) (fun _ => true) fun c s =>
    let p := c.payload
    let n := leAt p 0 4
    let key := leAt p 4 4
    let reseal := leAt p 8 1 = 1
    let x := s.ns n
    if 1 < leAt p 8 1 || !zeroAt p 9 7 || !s.nsExists n || !s.keyFree key then s.complete c .invalidField
    else if 4 ≤ x.gens.length then s.complete c .limitExceeded
    else if reseal && x.reseal.isSome then s.complete c .busy
    else
      let g := ((x.gens.getLast?).map Prod.fst).getD 0 + 1
      let y : Ns := { x with gens := x.gens ++ [(g, key % 2 ^ 28)], reseal := if reseal then some (g, []) else x.reseal }
      let s := ((s.setNs n y).bindKey key n g).persist (.ns n)
      (s.raise Ev.CPH_ROTATE [n, g]).holderDone c g

/-- Whether a reseal may add a block: dirty data is more than 10 % below DIRTY_CAP, or each block is written through (R286). -/
def State.resealRoom (s : State) : Bool := s.capBlocks = 0 || decide (10 * s.dirty < 9 * s.capBlocks)

/-- Reseal one block of a namespace: the block in the write buffer where one stands there, else the block read from the member. One of an
older generation that passes is buffered under the newest key; one that fails is rewritten as the scrub does (R286, R208). -/
def State.resealBlock (s : State) (n start : Nat) (r : Nat × List Byte) : State :=
  let v := (s.ns n).volume
  let m := s.mapEnt v (r.1 / 4096)
  let old := s.bufferedBlock n r.1
  let blk := (old.map BufBlk.blk).getD r.2
  let o := openBlock (s.liveKeys n) n r.1 m.gen blk
  let s := s.countOpened o
  match o, s.newestKey n with
  | .fails _, _ =>
    let (_, x, p, o) := s.locate r.1
    if old.isSome then s else { s with lay.repairs := s.lay.repairs ++ [(m.row, m.band, p, x, o)] }
  | .plain d, some (g, key) =>
    if start ≤ leAt blk (4096 + 0x1C) 4 || !s.resealRoom then s
    else match s.takeCtrs 1 with
      | (s, none) => s
      | (s, some k) =>
        let b : BufBlk := { id := s.lay.nextBuf, nsid := n, volume := v, lba := r.1, reseal := true, acked := true,
                            blk := sealBlock key g (s.prefixOf 1) k n r.1 m.gen d }
        ({ s with lay.buffer := s.lay.buffer ++ [b], lay.nextBuf := s.lay.nextBuf + 1 } : State).showBufs [b.id]
  | _, _ => s

/-- Whether blocks of an older generation than `start` stand in the write buffer for an extent. -/
def State.oldBuffered (s : State) (n start extent : Nat) : List (Nat × List Byte) :=
  (s.lay.buffer.filter fun b => b.nsid = n && b.lba / 4096 = extent && b.visible && !zeroAt b.blk 4096 64 &&
    decide (leAt b.blk (4096 + 0x1C) 4 < start)).map fun b => (b.lba, b.blk)

/-- RESEAL_EXTENT (R286): the next extent of a reseal, in the scrub window, while dirty data is more than 10 % below DIRTY_CAP.
`reads` are the blocks read, as (LBA, block). The extent is done unless dirty data has come up to the limit meanwhile. -/
def execResealExtent (nsid extent : Nat) (reads : List (Nat × List Byte)) (s : State) : Host.Outcome State Fault Refusal :=
  .next <|
    let x := s.ns nsid
    match x.reseal with
    | none => s
    | some (start, done) =>
      s.when (s.hrn.holder && s.windowOpen 2 && s.bgSlot && s.cph.saved && (s.mapEnt x.volume extent).alloc && !done.contains extent &&
          s.resealRoom) fun s =>
        let rs := (reads.filter fun r => r.1 / 4096 = extent) ++ s.oldBuffered nsid start extent
        let s := rs.foldl (fun s r => s.resealBlock nsid start r) s
        s.when (s.resealRoom && s.cph.saved) fun s => s.setNs nsid { s.ns nsid with reseal := some (start, extent :: done) }

/-- RESEAL_DONE (R286): every allocated extent has been walked; the older generations are retired on both twins once no read holds their
keys. -/
def execResealDone (nsid : Nat) (s : State) : Host.Outcome State Fault Refusal :=
  .next <|
    let x := s.ns nsid
    match x.reseal with
    | none => s
    | some (start, done) =>
      let all := ((s.volume x.volume).map.filter fun e => e.2.alloc).all fun e => done.contains e.1
      s.when (s.hrn.holder && all && !s.keyInUse nsid) fun s =>
        let k := (x.gens.filter fun g => decide (g.1 < start)).length
        ((((s.retireGens nsid start).persist (.ns nsid)).tellTwin (.retired nsid start))).raise Ev.CPH_RESEAL_DONE [nsid, k]

/-- The lowest empty data key slot. -/
def State.freeKeySlot (s : State) : Option Nat :=
  (List.range (min 65536 (s.cph.keys.length + 1))).find? fun i => !(s.dataKey i).used

/-- The data key that a payload wraps, once its two secrets are decapsulated (R304): `none` where the tag does not verify. -/
def unwrapKey (p ssKem ssRsa : List Byte) : Option (List Byte) :=
  let kw := derive 32 (List.replicate 32 0) (ssKem ++ ssRsa) (ascii "PLXWRAP1" ++ p.take 2)
  let iv := (p.drop 0x5C8).take 12
  let ct := (p.drop 0x5D4).take 32
  if fit 16 (Config.gcmTag kw iv (p.take 0x5C8) ct) = (p.drop 0x5F4).take 16 then some (fit 32 (Config.gcmDecrypt kw iv ct)) else none

/-- IMPORT_DATA_KEY (R304): the two secrets are what CT_KEM decapsulates to and what CT_RSA decrypts to, if it does (log entry 5). -/
def execImportDataKey (id : Nat) (secrets : WrapSecrets) (s : State) : Host.Outcome State Fault Refusal :=
  .next <| s.runMgmt id 0x0500 [(0, 40)] (· = 1544) (fun _ => true) fun c s =>
    let p := c.payload
    let t := leAt p 0 2
    if 1023 < t || !zeroAt p 2 6 || !zeroAt p 0x604 4 then s.complete c .invalidField
    else match secrets.rsa.bind (unwrapKey p secrets.kem) with
      | none => s.complete c .invalidField 1
      | some k =>
        match s.freeKeySlot with
        | none => s.complete c .limitExceeded
        | some i =>
          let d : DataKey := { used := true, key := k }
          ((s.setDataKey i d).raise Ev.SEC_KEY_IMPORT [2 ^ 28 + i, t]).holderDone c (2 ^ 28 + i)

/-- DESTROY_DATA_KEY (R305). -/
def execDestroyDataKey (id : Nat) (s : State) : Host.Outcome State Fault Refusal :=
  .next <| s.runMgmt id 0x0502 [(0, 40)] (· = 8) (fun _ => true) fun c s =>
    match keySlot (leAt c.payload 0 4) with
    | none => s.complete c .invalidField
    | some i =>
      let k := s.dataKey i
      if leAt c.payload 4 4 ≠ 0 || !k.used then s.complete c .invalidField
      else match k.bound with
        | none => (s.destroyKey i).holderDone c
        | some (n, g) =>
          if ((s.ns n).gens.getLast?).map Prod.fst = some g then s.complete c .configConflict
          else if s.liveLocks n ≠ [] then s.complete c .retentionLocked
          else if s.keyInUse n then s.hold c.id
          else (s.destroyKey i).holderDone c

/-! ### Administrators (R306, R307) -/

/-- ENROL_ADMINISTRATOR (R306): recorded before it completes. -/
def execEnrolAdministrator (id : Nat) (s : State) : Host.Outcome State Fault Refusal :=
  .next <| s.runMgmt id 0x0503 [(0, 40)] (· = 400) (fun _ => true) fun c s =>
    let p := c.payload
    let k := leAt p 0 1
    if 15 < k || 1 < leAt p 1 1 || !zeroAt p 2 6 || !zeroAt p 12 4 then s.complete c .invalidField
    else if s.adminEnrolled k && leAt p 1 1 = 0 then s.complete c .configConflict
    else
      let key := (p.drop 8).take 4 ++ (p.drop 16).take 384
      let s := { s with sec.admins := s.sec.admins ||| BitVec.ofNat 16 (2 ^ k), sec.adminKeys := Assoc.set [] s.sec.adminKeys k key }
      ((((s.hold c.id).carry c).raise Ev.SEC_ADMIN [k, 1]).saveRecord [c.id])

/-- REVOKE_ADMINISTRATOR (R307). -/
def execRevokeAdministrator (id : Nat) (s : State) : Host.Outcome State Fault Refusal :=
  .next <| s.runMgmt id 0x0504 [(0, 40)] (· = 8) (fun _ => true) fun c s =>
    let k := leAt c.payload 0 1
    if 15 < k || !zeroAt c.payload 1 7 then s.complete c .invalidField
    else if !s.adminEnrolled k || s.sec.admins = BitVec.ofNat 16 (2 ^ k) then s.complete c .configConflict
    else
      let s := { s with sec.admins := s.sec.admins &&& ~~~(BitVec.ofNat 16 (2 ^ k)), sec.adminKeys := Assoc.set [] s.sec.adminKeys k [] }
      ((((s.hold c.id).carry c).raise Ev.SEC_ADMIN [k, 0]).saveRecord [c.id])

/-! ### Retention locks (R308, R309, R34) -/

/-- The locks on the shelf that have not expired (SEC_LOCKS). -/
def State.allLocks (s : State) : List RetLock := s.sec.locks.filter s.lockLive

/-- Whether two locks are merged: equal RELEASE on contiguous ranges of one namespace (R308). -/
def RetLock.joins (a b : RetLock) : Bool :=
  a.nsid = b.nsid && a.release = b.release && !a.expired && !b.expired && decide (a.slba ≤ b.slba + b.nlb) && decide (b.slba ≤ a.slba + a.nlb)

/-- Add a lock, merged with those it joins. -/
def State.addLock (s : State) (l : RetLock) : State :=
  let js := s.sec.locks.filter l.joins
  let lo := js.foldl (fun b x => min b x.slba) l.slba
  let hi := js.foldl (fun b x => max b (x.slba + x.nlb)) (l.slba + l.nlb)
  let l' : RetLock := { l with slba := lo, nlb := hi - lo }
  { s with sec.locks := (s.sec.locks.filter fun x => !l.joins x) ++ [l'], sec.nextLock := s.sec.nextLock + 1 }

/-- SET_RETENTION (R308). -/
def execSetRetention (id : Nat) (s : State) : Host.Outcome State Fault Refusal :=
  .next <| s.runMgmt id 0x0208 [(0, 40)] (· = 32) (fun _ => true) fun c s =>
    let p := c.payload
    let n := leAt p 0 4
    let lba := leAt p 8 8
    let k := leAt p 16 8
    let rel := leAt p 24 8
    if leAt p 4 4 ≠ 0 || !s.nsExists n || k = 0 || (s.ns n).nsze < lba + k || rel ≤ s.tim.floor then s.complete c .invalidField
    else if 1024 ≤ (s.liveLocks n).length || 65536 ≤ s.allLocks.length then s.complete c .limitExceeded
    else
      let l : RetLock := { id := s.sec.nextLock, nsid := n, slba := lba, nlb := k, release := rel }
      (((s.addLock l).persist (.ns n)).raise Ev.SEC_RETENTION [n, lba, rel]).holderDone c

/-- RETENTION_LOCK_EXPIRE (R34): the floors have passed RELEASE, and the lock protects nothing from now on. -/
def execRetentionLockExpire (lock : Nat) (s : State) : Host.Outcome State Fault Refusal :=
  .next <|
    let past (l : RetLock) : RetLock := if l.id = lock && !s.lockLive l then { l with expired := true } else l
    { s with sec.locks := s.sec.locks.map past }

/-- The review of R309: the records of expired locks are removed. -/
def State.reviewLocks (s : State) : State :=
  let gone := (s.sec.locks.filter fun l => !s.lockLive l).map RetLock.nsid
  gone.eraseDups.foldl (fun s n => s.persist (.ns n)) { s with sec.locks := s.allLocks }

/-- RETENTION_REVIEW (R309): slot 506 fires and the records of expired locks are removed. -/
def execRetentionReview (s : State) : Host.Outcome State Fault Refusal :=
  .next <| s.when (s.slot 506).armed fun s => (s.fire 506).reviewLocks

/-- FLOOR_SAVE (R32): slot 505 fires and the floor is recorded; a new FLOOR_SAVE is the period from this firing on. -/
def execFloorSave (s : State) : Host.Outcome State Fault Refusal :=
  .next <| s.when (s.slot 505).armed fun s =>
    (s.fireWith 505 (s.fld Reg.TIM_FLOOR_SAVE_FLOOR_SAVE * 1000000000)).saveRecord []

/-! ### Firmware (R294 to R296, R268) -/

/-- Whether an activation is under way. -/
def State.activating (s : State) : Bool := decide (s.cmdb.act ≠ .none) || s.hrn.upgrade.isSome || s.sec.after.isSome

/-- Put an image into the boot slot that does not run. -/
def State.setOther (s : State) (l : Option FwLoad) : State :=
  if s.sec.bootB then { s with sec.slotA := l } else { s with sec.slotB := l }

/-- LOAD_FIRMWARE_IMAGE (R295): `image` is what was read at IMAGE_PTR, with the verdicts of its checks. -/
def execLoadFirmwareImage (id : Nat) (image : Option FwLoad) (s : State) : Host.Outcome State Fault Refusal :=
  .next <| s.runMgmt id 0x0900 [(12, 28)] (· = 32) (fun _ => true) fun c s =>
    if s.activating then s.complete c .busy
    else match image with
      | none => s.complete c .dataXferError
      | some l =>
        let k := imageFails l s.sec.fuse
        if l.img.digest ≠ c.payload then (s.raise Ev.SEC_FW_REJECT [0]).complete c .guardMismatch
        else if k ≠ 0 then (s.raise Ev.SEC_FW_REJECT [k]).complete c .invalidField k
        else if !l.readBackOk then (s.setOther none).complete c .dataXferError
        else ((s.setOther (some l)).raise Ev.SEC_FW_LOADED [l.img.svn, leAt l.img.version 0 8]).complete c .success

/-- The Harness protocol version in use. -/
def harnessVersion : Nat := 1

/-- ACTIVATE_FIRMWARE (R296): the checks, then the record that names the new slot; `peerVersion` is the VERSION in the peer's inactive
slot. -/
def execActivateFirmware (id : Nat) (peerVersion : Option (List Byte)) (s : State) : Host.Outcome State Fault Refusal :=
  .next <| s.runMgmt id 0x0901 [(0, 40)] (· = 32) (fun _ => true) fun c s =>
    let b := !s.sec.bootB
    match s.slotOf b with
    | none => s.complete c .invalidField 1
    | some l =>
      if s.activating || s.hrn.join.isSome || s.hrn.swap.isSome then s.complete c .busy
      else if s.slotFails b ≠ 0 then s.complete c .invalidField 1
      else if l.img.digest ≠ c.payload then s.complete c .guardMismatch
      else if s.hasPeer && peerVersion ≠ some l.img.version then s.complete c .invalidField 2
      else if harnessVersion < l.img.hrnMin || l.img.hrnMax < harnessVersion then s.complete c .invalidField 3
      else
        let a : AfterRecord := if s.hasPeer then .sendStandby else .quiesce
        (({ s.hold c.id with sec.nextB := b, sec.after := some a }).saveRecord [])

/-- The controllers with an outstanding Asynchronous Event Request are told that an activation starts (Table 09-6a). -/
def State.tellActivation (s : State) : State :=
  (s.ctrlsUsed.filter fun k => (s.ctrl k).aers ≠ []).foldl (fun s k => s.hostEvent k 2 1 3) s

/-- What follows the record that names the new boot slot. -/
def State.afterRecord (s : State) : State :=
  if s.sec.flash.bootB ≠ s.sec.nextB then s
  else match s.sec.after with
  | none => s
  | some .quiesce =>
    let s : State := { s with sec.after := none }
    if s.pwr.st = .drain then s.completeWaiting 0x0901 (fun _ => true) .deviceDraining
    else { s.tellActivation with cmdb.act := .quiescing s.now }
  | some .sendStandby =>
    let up := (s.waiting fun c => c.desc.opcode.toNat = 0x0901).map Started.id
    let s : State := { s.sendTwin (.controlMsg .restart) with sec.after := none }
    let s := if s.hrn.role = .active then s.becomeAlone 6 else s.settleAlone
    { s with hrn.upgrade := up }
  | some .restart => ({ s with sec.after := none }).fullReset []

/-- SOAK_COMPLETE (R294, R310): the fuses advance to the pending SVN, not during an activation. -/
def execSoakComplete (s : State) : Host.Outcome State Fault Refusal :=
  .next <| s.when (s.pendingSvn ≠ 0 && s.clk.bootDone && !s.activating && !s.sec.stopped) fun s =>
    let need := s.fld Reg.SEC_SOAK_SVN_SOAK * 3600
    let s := s.reach (s.sec.soakFrom + (need - s.sec.soakBase) * 1000000000)
    let s := { s with sec.fuse := s.pendingSvn, sec.soakBase := 0 }
    (s.raise Ev.SEC_FUSE [s.sec.fuse]).saveRecord []

/-- DRBG_RESEED (R290): every 2^20 requests. -/
def execDrbgReseed (s : State) : Host.Outcome State Fault Refusal :=
  .next <| s.when (decide (2 ^ 20 ≤ s.sec.drbgRequests)) fun s => { s with sec.drbgRequests := 0 }

/-- SEC_SRAM_ECC (R290): the core stops. -/
def execSecSramEcc (s : State) : Host.Outcome State Fault Refusal := .next <| ({ s with sec.stopped := true }).raise Ev.SEC_FATAL

/-- RECORD_BANK_ERASED (R325): the other bank is erased; a record that waited for a place is written. -/
def execRecordBankErased (s : State) : Host.Outcome State Fault Refusal :=
  .next <| s.when s.sec.erasing fun s =>
    let s := { s with sec.erasing := false, sec.otherErased := true }
    match s.sec.due, s.sec.write with
    | some ws, none => s.startRecord ws
    | _, _ => s

/-! ### Extensions (R73 to R75) -/

/-- ENROL_EXTENSION_KEY (R73): `rsaOk` and `mldsaOk` say that the keys parse (log entry 5). -/
def execEnrolExtensionKey (id : Nat) (rsaOk mldsaOk : Bool) (s : State) : Host.Outcome State Fault Refusal :=
  .next <| s.runMgmt id 0x0505 [(0, 40)] (· = 2352) (fun _ => true) fun c s =>
    let p := c.payload
    let k := leAt p 0 1
    if 3 < k || !zeroAt p 1 7 || !zeroAt p 12 4 || !rsaOk || !mldsaOk then s.complete c .invalidField
    else
      let x : ExtKey := { enrolled := true, rsaE := leAt p 8 4, rsaN := (p.drop 16).take 384, mldsa := (p.drop 400).take 1952 }
      ({ (s.hold c.id).carry c with tck.keys := Assoc.set {} s.tck.keys k x }).saveRecord [c.id]

/-- Check 2 of R74: the format of Table 04-7, and no CIPHER, SEND or RING in the mask. -/
def extFormatOk (x : ExtImage) (len : Nat) : Bool :=
  x.magic = 0x31584B54 && x.format = 1 && decide (x.keySlot ≤ 3) && x.rsvd07 = 0 && x.rsvd30 = 0 && decide (x.codeLen ≤ 0x40000) &&
    x.codeLen % 4 = 0 && decide (x.dataLen ≤ 0x10000) && decide (x.hbmLen ≤ 0x10000000) && x.hbmLen % 4096 = 0 && decide (x.mask < 1024) && x.hooks.length = 5 &&
    (x.hooks.all fun h => decide (h < max 1 x.codeLen)) && x.total = 0x40 + x.codeLen + x.dataLen + 3693 && len = x.total &&
    !x.mask.testBit 2 && !x.mask.testBit 5 && !x.mask.testBit 6

/-- At a hook boundary the image that waits replaces the loaded one, and its command has no more to wait for here but the record (R75). -/
def State.takeExt (s : State) : State :=
  match s.tck.next with
  | none => s
  | some x =>
    let s := ((s.swapExt x).reclaim).raiseIf x.isSome Ev.EXT_LOADED
    match s.waiting fun c => c.desc.opcode = 0x0902 && !s.recordPending c.id with
    | some c => s.ownDone c
    | none => s

/-- An accepted image, or none to unload, waits for the next hook boundary; it is written to the inactive store and then recorded with its
slot's floor (R303), and the command completes when both twins run it (R75). -/
def State.acceptExt (s : State) (c : Started) (x : Option ExtImage) : State :=
  let store := !s.sec.extStore
  let s : State := { (s.hold c.id).carry c with tck.next := some x, sec.extStored := x, sec.extStore := store }
  let s := (s.emit (.extensionWrite store x)).saveRecord [c.id]
  if s.tck.runs = [] then s.takeExt else s

/-- A refusal of Load Extension. -/
def State.rejectExt (s : State) (c : Started) (st : MStatus) (r0 : Nat) : State := (s.raise Ev.EXT_REJECT).complete c st r0

/-- LOAD_EXTENSION (R74, R75): `image` is what was read at IMAGE_PTR. -/
def execLoadExtension (id : Nat) (image : Option ExtImage) (s : State) : Host.Outcome State Fault Refusal :=
  .next <| s.runMgmt id 0x0902 [(12, 28)] (· = 32) (fun _ => true) fun c s =>
    if c.desc.par 8 4 = 0 then s.acceptExt c none
    else match image with
      | none => s.complete c .dataXferError
      | some x =>
        let k : ExtKey := Assoc.get {} s.tck.keys x.keySlot
        if x.digest ≠ c.payload then s.rejectExt c .guardMismatch 0
        else if !extFormatOk x (c.desc.par 8 4) then s.rejectExt c .invalidField 1
        else if !k.enrolled || !x.rsaOk || !x.mldsaOk then s.rejectExt c .guardSignature 1
        else if x.version < k.floor then s.rejectExt c .invalidField 2
        else if 0x10000000 < x.hbmLen then s.rejectExt c .limitExceeded 0
        else
          let k' : ExtKey := { k with floor := x.version }
          { s with tck.keys := Assoc.set {} s.tck.keys x.keySlot k' }.acceptExt c (some x)

/-! ### Measurement and SPDM (R297, R298) -/

/-- The SPDM responder answers while the security core and the management endpoint run. -/
def State.answerSpdm (s : State) (m : SpdmReply) : State := s.when (s.awake && s.clk.bootDone && !s.sec.stopped) fun s => s.emit (.spdm m)

/-- SPDM_GET_VERSION (R298). -/
def execSpdmGetVersion (s : State) : Host.Outcome State Fault Refusal := .next <| s.answerSpdm .version

/-- SPDM_GET_CAPABILITIES (R298). -/
def execSpdmGetCapabilities (s : State) : Host.Outcome State Fault Refusal := .next <| s.answerSpdm .capabilities

/-- SPDM_NEGOTIATE_ALGORITHMS (R298). -/
def execSpdmNegotiateAlgorithms (s : State) : Host.Outcome State Fault Refusal := .next <| s.answerSpdm .algorithms

/-- SPDM_GET_DIGESTS (R298): the SHA-256 of the chains of certificate slots 0, 1 and 2. -/
def execSpdmGetDigests (s : State) : Host.Outcome State Fault Refusal :=
  .next <| s.answerSpdm (.digests ([0, 1, 2].map fun k => Config.sha256 (s.chain k)))

/-- SPDM_GET_CERTIFICATE (R298): at most 4,096 bytes of the chain of slot 0, 1 or 2. -/
def execSpdmGetCertificate (slot offset length : Nat) (s : State) : Host.Outcome State Fault Refusal :=
  .next <| s.answerSpdm <|
    if slot ≤ 2 then
      let rest := (s.chain slot).drop offset
      .certificate slot (rest.take (min length 4096)) (rest.length - min length 4096)
    else .error 1

/-- SPDM_CHALLENGE (R298): all blocks, and both signatures of the slot's keys over the hash of the transcript. -/
def execSpdmChallenge (sign : SpdmSign) (s : State) : Host.Outcome State Fault Refusal :=
  .next <| s.answerSpdm <|
    if sign.slot ≤ 2 then
      .challengeAuth sign.slot (s.blocks 8) (s.signBoth sign.slot (Config.sha256 (sign.transcript ++ (s.blocks 8).flatten)))
    else .error 1

/-- SPDM_GET_MEASUREMENTS (R298): index 0 asks for their number, 0xFF for all, else one of the blocks 1 to 8; both signatures where one is asked
for. -/
def execSpdmGetMeasurements (index : Nat) (sign : Option SpdmSign) (s : State) : Host.Outcome State Fault Refusal :=
  .next <|
    let all := (List.range 8).map fun i => (i + 1, s.measurement (i + 1))
    let picked := if index = 0 then [] else if index = 0xFF then all else all.filter fun b => b.1 = index
    s.answerSpdm <|
      if (index ≤ 8 || index = 0xFF) && sign.all (·.slot ≤ 2) then
        .measurements 8 picked (sign.map fun g => s.signBoth g.slot (Config.sha256 (g.transcript ++ picked.flatMap Prod.snd)))
      else .error 1

end Sys2Proof.Machine
end

