-- ==== Sys2Proof/Machine/Power.lean ====
section
/-! DEFINITION. Chapter 16 and the thermal rules of chapter 20: power domains, device states, VIN monitor and drain, rail faults,
thermal hold, loss of VIN and power-up. -/
namespace Sys2Proof.Machine

/-! ### Power domains (R315, R316, Table 16-3) -/

/-- The domains on in every device state. -/
def fixedDomains : List Nat := [0, 1, 2, 3, 28, 31]

/-- Whether an enabled drive port lies among `n` ports from `a`. -/
def State.anyPort (s : State) (a n : Nat) : Bool := (List.range n).any fun i => s.flag (Reg.DRV_PORT_CFG_EN (a + i))

/-- The DRAIN column of Table 16-3. -/
def State.drainWants (s : State) (d : Nat) : Bool :=
  if 4 ≤ d ∧ d ≤ 11 then s.flag (Reg.NET_PORT_CFG_EN (d - 4))
  else match d with
    | 12 => s.flag Reg.HRN_CFG_EN
    | 21 => s.anyPort 0 32
    | 22 => s.anyPort 32 32
    | 29 | 33 => false
    | _ => true

/-- Whether a domain is to be on in the device state in force. -/
def State.domWanted (s : State) (d : Nat) : Bool :=
  fixedDomains.contains d ||
    match s.pwr.st with
    | .run => s.flag (Reg.PWR_DOM_CFG_PWR_RUN d)
    | .sleep => s.flag (Reg.PWR_DOM_CFG_PWR_SLEEP d)
    | .deep => s.flag (Reg.PWR_DOM_CFG_PWR_DEEP d)
    | .drain => s.drainWants d

/-- Whether some connection context is not IDLE. -/
def State.anyConn (s : State) : Bool := s.xpt.conns.any fun e => e.2.st ≠ .idle

/-- Whether the drive ports from `a` have work outstanding. -/
def State.portWork (s : State) (a n : Nat) : Bool :=
  s.drv.cmds.any fun c => decide (a ≤ s.fld (Reg.LAY_MEMBER_PORT c.member)) && decide (s.fld (Reg.LAY_MEMBER_PORT c.member) < a + n)

/-- Whether the clusters 8q to 8q + 7 hold work. -/
def State.tackWork (s : State) (q : Nat) : Bool :=
  (s.tck.calls.any fun c => c.core / 64 = q) || (s.tck.runs.any fun r => r.core / 64 = q) ||
    (s.tck.doorbells.any fun e => e.1 / 65536 / 8 = q && e.2 ≠ [])

/-- Whether the blocks of a domain hold work. -/
def State.domWork (s : State) (d : Nat) : Bool :=
  if 4 ≤ d ∧ d ≤ 11 then s.swc.frames.any fun f => f.sub / 4 = d - 4
  else match d with
    | 12 => s.hrn.link
    | 13 | 16 | 19 => s.swc.frames ≠ []
    | 14 => (s.tbl.tables.any fun t => t.2.bank.isSome) || s.tbl.learn ≠ []
    | 15 => s.anyConn
    | 17 => s.cmdb.cmds ≠ [] || s.cmdb.ctrls.any fun c => c.2.used
    | 18 => s.cph.held ≠ 0 || s.cph.waiting ≠ []
    | 20 => s.sbg.stripes ≠ [] || s.lay.buffer ≠ [] || s.reb.current.isSome || s.reb.scrub.isSome || s.lay.zeroing ≠ []
    | 21 => s.portWork 0 32
    | 22 => s.portWork 32 32
    | 23 | 24 => s.cmdb.cmds ≠ [] || s.lay.buffer ≠ [] || s.swc.frames ≠ [] || s.anyConn
    | 25 => s.tackWork 0
    | 26 => s.tackWork 1
    | 27 => s.tackWork 2
    | 32 => s.sbg.stripes ≠ [] || s.sbg.dirtyPages ≠ []
    | _ => false

/-- Whether every block of a domain that has an enable is disabled. -/
def State.domDisabled (s : State) (d : Nat) : Bool :=
  if 4 ≤ d ∧ d ≤ 11 then !s.flag (Reg.NET_PORT_CFG_EN (d - 4))
  else match d with
    | 12 => !s.flag Reg.HRN_CFG_EN
    | 14 => (List.range 3).all fun t => !s.flag (Reg.TBL_CFG_EN t)
    | 15 => !s.flag Reg.XPT_CFG_EN
    | 16 => s.qos.lists.all fun l => !l.2.enabled
    | 17 => !s.flag Reg.CMD_CFG_EN
    | 21 => !s.anyPort 0 32
    | 22 => !s.anyPort 32 32
    | 29 => (s.tel.windows.all fun w => !w.2.enabled) && s.tel.sampling.rate = 0
    | 30 => (List.range 8).all fun i => !s.flag (Reg.SBD_I3C_CFG_EN i)
    | _ => true

/-- Registers from `a` up to `b` return to their reset values. -/
def State.dropRegs (s : State) (a b : Nat) : State := { s with regs := s.regs.filter fun e => !(decide (a ≤ e.1) && decide (e.1 < b)) }

/-- The registers of one drive port. -/
def drivePortRegs (p : Nat) : List Nat := [(Reg.DRV_PORT_CFG_EN p).addr, (Reg.DRV_PORT_STATUS_LINK_UP p).addr, (Reg.DRV_AER_CNT_UNCORR p).addr]

/-- The drive ports from `a` return to their reset values. -/
def State.dropPorts (s : State) (a n : Nat) : State :=
  { s with regs := s.regs.filter fun e => !((List.range n).any fun i => (drivePortRegs (a + i)).contains e.1) }

/-- The clusters 8q to 8q + 7 start again with empty SRAM. -/
def State.restartClusters (s : State) (q : Nat) : State :=
  let lo := 0x04000000 + q * 0x1000000
  let cs : Assoc Cluster := s.tck.clusters.filter fun e => e.1 / 8 ≠ q
  { s with mem := s.mem.filter (fun c => !(decide (lo ≤ c.1) && decide (c.1 < lo + 0x1000000))), tck.clusters := cs }

/-- The blocks of a domain that switches on start from their reset values; what stands in HBM, in the always-on domain and on the
members stays (R316). -/
def State.domReset (s : State) (d : Nat) : State :=
  if 4 ≤ d ∧ d ≤ 11 then s.dropRegs (0x20000 + 0x1000 * (d - 4)) (0x21000 + 0x1000 * (d - 4))
  else match d with
    | 12 => (s.dropRegs 0x70000 0x70020).dropRegs 0x70024 0x74000
    | 13 => let x : Swc := {}; { s.dropRegs 0x28000 0x2C000 with swc := x }
    | 14 => let x : Tbl := {}; { s.dropRegs 0x30000 0x34000 with tbl := x }
    | 15 =>
      let x : Xpt := { hosts := s.xpt.hosts, grants := s.xpt.grants }
      { s.dropRegs 0x38000 0x3C000 with xpt := x }
    | 16 => let x : Qos := {}; { s.dropRegs 0x40000 0x44000 with qos := x }
    | 17 =>
      let x : Cmdb := { nss := s.cmdb.nss, lost := s.cmdb.lost, lostGen := s.cmdb.lostGen, nextUid := s.cmdb.nextUid }
      { s.dropRegs 0x48000 0x4C000 with cmdb := x }
    | 18 => let ps : Assoc Pipe := s.cph.pipes.filter fun e => decide (16 ≤ e.1); { s with cph.pipes := ps }
    | 19 => let ps : Assoc Pipe := s.cph.pipes.filter fun e => decide (e.1 < 16); { s with cph.pipes := ps }
    | 20 => s.dropRegs 0x50000 0x54000
    | 21 => s.dropPorts 0 32
    | 22 => s.dropPorts 32 32
    | 25 => s.restartClusters 0
    | 26 => s.restartClusters 1
    | 27 => s.restartClusters 2
    | 29 => let x : Tel := {}; { s.dropRegs 0x90000 0x94000 with tel := x }
    | 30 => s.dropRegs 0x98000 0x9C000
    | 32 => s.dropRegs 0x58000 0x5C000
    | _ => s

/-- Switch a domain off, or leave it waiting until its blocks are disabled and idle. -/
def State.domOff (s : State) (d : Nat) : State :=
  let on := Reg.PWR_DOM_CFG_ON d
  let pend := Reg.PWR_DOM_CFG_DOM_PEND d
  if !s.flag on then s
  else if s.domDisabled d && !s.domWork d then (s.setFld on 0).setFld pend 0
  else if s.flag pend then s
  else (s.setFld pend 1).raise Ev.PWR_DOM_WAIT [d]

/-- Switch a domain on; one that waited to go off stays on. -/
def State.domOn (s : State) (d : Nat) : State :=
  let on := Reg.PWR_DOM_CFG_ON d
  if s.flag on then s.setFld (Reg.PWR_DOM_CFG_DOM_PEND d) 0 else (s.domReset d).setFld on 1

/-- Bring one domain to what its settings say. -/
def State.domApply (s : State) (d : Nat) : State := if s.domWanted d then s.domOn d else s.domOff d

/-! ### Clock gating (R337) -/

/-- The power domains that a clock domain serves (Table 17-2). -/
def clockServes : Nat → List Nat
  | 0 => [0] | 1 => [1] | 2 => [2] | 3 => [3]
  | 4 => [25, 26, 27, 28]
  | 5 => [13, 14]
  | 6 => [23, 24]
  | 7 => [18, 19]
  | 8 => [15, 16, 17, 20, 29, 32]
  | 9 => [4, 5, 6, 7, 8, 9, 10, 11, 12, 21, 22]
  | 10 => [30]
  | _ => [33]

/-- Whether a clock domain is to run in the device state in force: its enable is 1 and a power domain it serves is on. -/
def State.clockWanted (s : State) (c : Nat) : Bool :=
  decide (c < 4) ||
    ((match s.pwr.st with
      | .run | .drain => s.flag (Reg.CLK_CD_CFG_RUN_EN c)
      | .sleep => s.flag (Reg.CLK_CD_CFG_SLEEP_EN c)
      | .deep => s.flag (Reg.CLK_CD_CFG_DEEP_EN c)) && (clockServes c).any fun d => s.flag (Reg.PWR_DOM_CFG_ON d))

/-- Whether the blocks of a clock domain hold work. -/
def State.clockWork (s : State) (c : Nat) : Bool := (clockServes c).any fun d => s.flag (Reg.PWR_DOM_CFG_ON d) && s.domWork d

/-- Gate a clock domain, or leave it waiting until its blocks are idle. -/
def State.gateClock (s : State) (c : Nat) : State :=
  let g := Reg.CLK_CD_STATUS_GATED c
  let pend := Reg.CLK_CD_STATUS_GATE_PEND c
  if s.flag g then s
  else if !s.clockWork c then (s.setFld g 1).setFld pend 0
  else if s.flag pend then s
  else (s.setFld pend 1).raise Ev.CLK_GATE_WAIT [c]

/-- Ungate a clock domain. -/
def State.ungateClock (s : State) (c : Nat) : State :=
  (s.setFld (Reg.CLK_CD_STATUS_GATED c) 0).setFld (Reg.CLK_CD_STATUS_GATE_PEND c) 0

/-- Bring one clock domain to what its settings say. -/
def State.clockApply (s : State) (c : Nat) : State := if s.clockWanted c then s.ungateClock c else s.gateClock c

/-- CLOCK_GATE (R337): a domain that waits to be gated has become idle. -/
def execClockGate (domain : Fin 12) (s : State) : Host.Outcome State Fault Refusal :=
  .next <| s.when (s.flag (Reg.CLK_CD_STATUS_GATE_PEND domain) && !s.clockWork domain) fun s => s.gateClock domain

/-- DOMAIN_SWITCH_OFF (R316): a domain that waits to switch off has its blocks disabled and idle. -/
def execDomainSwitchOff (domain : Fin 34) (s : State) : Host.Outcome State Fault Refusal :=
  .next <| s.when (s.flag (Reg.PWR_DOM_CFG_DOM_PEND domain) && s.domDisabled domain && !s.domWork domain) fun s => s.domOff domain

/-! ### Device states (R317, R318) -/

/-- The code of a device state (PWR_STATUS.STATE). -/
def DevState.code : DevState → Nat
  | .run => 0 | .sleep => 1 | .deep => 2 | .drain => 3

/-- Enter a device state: EVT_PWR_STATE, then domains and clocks in index order, off before on. From SLEEP or DEEP into DRAIN the
domains that are off stay off (R326). -/
def State.toState (s : State) (st : DevState) : State :=
  let old := s.pwr.st
  let stay := decide (st = .drain) && decide (old ≠ .run)
  let s := ({ s with pwr.st := st }).raise Ev.PWR_STATE [old.code, st.code]
  let ds := List.range 34
  let cs := List.range 12
  let s := ds.foldl (fun s d => if s.domWanted d then s else s.domOff d) s
  let s := ds.foldl (fun s d => if s.domWanted d && !(stay && !s.flag (Reg.PWR_DOM_CFG_ON d)) then s.domOn d else s) s
  let s := cs.foldl (fun s c => if s.clockWanted c then s else s.gateClock c) s
  cs.foldl (fun s c => if s.clockWanted c then s.ungateClock c else s) s

/-- Every fabric, drive and Harness link goes down with its clock or its supply. -/
def State.dropLinks (s : State) : State :=
  let s := s.darken
  let s := (List.range 64).foldl (fun s p => if s.flag (Reg.DRV_PORT_STATUS_LINK_UP p) then s.driveLinkDown p false else s) s
  s.linkLost 0

/-- The links of the enabled fabric ports train again. -/
def State.trainPorts (s : State) : State :=
  (List.range 8).foldl (fun s n =>
    if s.flag (Reg.NET_PORT_CFG_EN n) && s.hrn.role ≠ .fenced then
      (List.range (s.subCount n)).foldl (fun s k => s.setSub (4 * n + k) { training := true }) s
    else s) s

/-- FIO is started, if it is neither running nor starting (R334). -/
def State.startFio (s : State) : State :=
  if s.clk.fioReady || s.clk.fioStart.isSome then s else { s with clk.fioStart := some s.now }

/-- A clock domain moves to a source: 0 normal, 1 FIO, 2 SIO, 3 stopped (CLK_CD_STATUS). -/
def State.moveClock (s : State) (c src : Nat) : State :=
  if s.fld (Reg.CLK_CD_STATUS_SRC c) = src then s
  else (s.setFld (Reg.CLK_CD_STATUS_SRC c) src).bump (Reg.CLK_CD_STATUS_SWITCHES c)

/-- With FIO_DEEP = 0 FIO stops in DEEP: AON runs on SIO, and a domain that ran on FIO stops until it is ready again (R334). -/
def State.stopFio (s : State) : State :=
  let on := (List.range 11).filter fun c => s.fld (Reg.CLK_CD_STATUS_SRC c) = 1
  let aon := s.fld (Reg.CLK_CD_STATUS_SRC 0) = 0
  let ws : List Nat := s.clk.waitFio ++ on ++ if aon then [0] else []
  let s := { s with clk.fioReady := false, clk.fioStart := none, clk.waitFio := ws }
  (on.foldl (fun s c => s.moveClock c 3) s).moveClock 0 2

/-- What R318 asks for before SLEEP or DEEP. -/
def State.maySleep (s : State) : Bool :=
  (s.hrn.role = .solo || s.hrn.role = .fenced) && !s.anyConn && s.dirty = 0 && s.sbg.stripes = []

/-- An accepted write of REQ. -/
def State.reqWritten (s : State) (v : Nat) : State := ({ s with pwr.refused := false }).setFld Reg.PWR_CTL_REQ v

/-- Started again after SLEEP, DEEP or DRAIN: held commands start and queues are fetched. -/
def State.resumeHost (s : State) : State :=
  let s := s.startHeld fun _ => true
  (s.xpt.conns.map Prod.fst).foldl (fun s n => if (s.conn n).st = .ready then s.fetchSq n 64 else s) s

/-- POWER_REQ_RUN (R317): in DRAIN a write of REQ is discarded (R326). -/
def execPowerReqRun (s : State) : Host.Outcome State Fault Refusal :=
  .next <| s.when (s.awake && s.pwr.st ≠ .drain) fun s =>
    let old := s.pwr.st
    let s := s.reqWritten 0
    match old with
    | .sleep => s.toState .run
    | .deep => (s.startFio.toState .run).trainPorts
    | _ => s

/-- POWER_REQ_SLEEP (R318): refused unless everything R318 names holds, and from DEEP (Table 16-4). -/
def execPowerReqSleep (s : State) : Host.Outcome State Fault Refusal :=
  .next <| s.when (s.awake && s.pwr.st ≠ .drain) fun s =>
    if !s.maySleep || s.pwr.st = .deep then { s with pwr.refused := true }
    else
      let s := s.reqWritten 1
      if s.pwr.st = .sleep then s else s.toState .sleep

/-- POWER_REQ_DEEP (R318): as SLEEP; every link goes down, and FIO stops with FIO_DEEP = 0. -/
def execPowerReqDeep (s : State) : Host.Outcome State Fault Refusal :=
  .next <| s.when (s.awake && s.pwr.st ≠ .drain) fun s =>
    if !s.maySleep || s.pwr.st = .sleep then { s with pwr.refused := true }
    else
      let s := s.reqWritten 2
      if s.pwr.st = .deep then s
      else
        let s := s.dropLinks.toState .deep
        if s.flag Reg.CLK_CFG_FIO_DEEP then s else s.stopFio

/-! ### The drain (R319 to R322) -/

/-- This twin yields as for a fault on its side only (Table 13-7, R321, R333): the standby takes the cinch from an active, and a
standby leaves its holder alone. -/
def State.yieldSelf (s : State) : State :=
  match s.hrn.role with
  | .active => (s.sendTwin (.controlMsg (.takeCinch true))).fence 3
  | .standby => (s.sendTwin (.controlMsg .yielded)).fence 3
  | _ => s

/-- Writes whose data has not fully arrived are dropped whole (R320 step 1). -/
def State.dropPartial (s : State) : State :=
  let ts := (s.cmdb.cmds.filter fun e => e.2.entry.opcode = 0x01 && !e.2.admin &&
    (e.2.phase = .decoded || e.2.phase = .held || e.2.phase = .fetching)).map Prod.fst
  ts.foldl State.dropTag s

/-- A quiescing activation is abandoned with DEVICE_DRAINING (R326). -/
def State.drainActivation (s : State) : State :=
  match s.cmdb.act with
  | .quiescing _ => (({ s with cmdb.act := .none }).raise Ev.CMD_ACT_ABANDONED).completeWaiting 0x0901 (fun _ => true) .deviceDraining
  | _ => s

/-- Step 5 of R320: an NVMe Flush goes to every ACTIVE member. A FENCED twin reaches none. -/
def State.startFlush (s : State) : State :=
  let ms := if s.hrn.role = .fenced then [] else (s.reb.members.filter fun m => m.2.st = .active).map Prod.fst
  ms.foldl (fun s m => s.drive m .flush false 0 (.driveFlush m)) { s with pwr.phase := 3 }

/-- Whether an erased record place is ready. -/
def State.placeReady (s : State) : Bool := s.sec.placesLeft ≠ 0 || s.sec.otherErased

/-- Enter DRAIN (R319, R320): the record write starts at once, and a twin that does not hold the cinch goes to its flush. -/
def State.enterDrain (s : State) : State :=
  if s.pwr.st = .drain then s
  else
    let s := s.toState .drain
    let p : Pwr := { s.pwr with phase := 1, drainAt := s.now, drainRec := false, drainChecked := false }
    let s := ({ s with pwr := p }).dropPartial.drainActivation
    let s := (s.raiseIf (!s.placeReady) Ev.SEC_RECORD_FAIL).saveRecord []
    if s.hrn.holder then s else s.startFlush

/-- The bit of a condition. -/
def bit (b : Bool) : Nat := if b then 1 else 0

/-- VIN_WARN_ASSERT (R319): `vin` in units of 5 mV; an external low counts with EXT_WARN = 1. In clock-fault hold, thermal hold, reset
and before BOOT_DONE no drain runs; it is entered at BOOT_DONE (R335, R342, R366). -/
def execVinWarnAssert (external : Bool) (vin : Nat) (s : State) : Host.Outcome State Fault Refusal :=
  .next <| s.when (s.pwr.powered && !s.pwr.vinWarn && (!external || s.flag Reg.PWR_VIN_CFG_EXT_WARN)) fun s =>
    let s := ({ s with pwr.vinWarn := true, pwr.ext := external }).setFld Reg.PWR_VIN_MEAS_VIN (min vin 4095)
    let s := s.raise Ev.PWR_VIN_WARN [vin, bit external]
    if s.awake && s.clk.bootDone then s.enterDrain else s

/-- DRAIN_PEER_CHECK (R321): 5 µs after entry a twin of a pair whose peer shows no DRAIN yields. -/
def execDrainPeerCheck (s : State) : Host.Outcome State Fault Refusal :=
  .next <| s.when (s.pwr.st = .drain && !s.pwr.drainChecked) fun s =>
    let s := ({ s with pwr.drainChecked := true }).reach (s.pwr.drainAt + 5000)
    s.when (s.hrn.link && !s.hrn.peerDrain) State.yieldSelf

/-- DRAIN_DESTAGE_DONE (R320 steps 3 to 5): PHASE 2 once no data is dirty, PHASE 3 once no record is open and every page is written;
a twin without the cinch has only the flush. -/
def execDrainDestageDone (s : State) : Host.Outcome State Fault Refusal :=
  .next <| s.when (s.pwr.st = .drain) fun s =>
    let s := if s.pwr.phase = 1 && s.hrn.holder && s.dirty = 0 then { s with pwr.phase := 2 } else s
    let journal := s.pwr.phase = 2 && s.sbg.stripes = [] && s.sbg.dirtyPages = []
    if journal || (s.pwr.phase < 3 && !s.hrn.holder) then s.startFlush else s

/-- Leave DRAIN for RUN (R322). -/
def State.leaveDrain (s : State) : State := (({ s with pwr.phase := 0 }).toState .run).resumeHost

/-- DRAIN_DONE (R320 step 5): every Flush has completed and the record is written. -/
def execDrainDone (s : State) : Host.Outcome State Fault Refusal :=
  .next <| s.when (s.pwr.st = .drain && s.pwr.phase = 3 && s.pwr.drainRec && !(s.drv.cmds.any fun c => c.use = .flush)) fun s =>
    let t := (s.now - s.pwr.drainAt) / 1000
    let s := (({ s with pwr.phase := 4 }).setFld Reg.PWR_DRAIN_TIME_TIME (min t 0xFFFFFF)).raise Ev.PWR_DRAIN_DONE [t]
    if s.pwr.vinWarn then s else s.leaveDrain

/-- VIN_WARN_RELEASE (R322): RUN follows once the drain is done. -/
def execVinWarnRelease (s : State) : Host.Outcome State Fault Refusal :=
  .next <| s.when (s.pwr.powered && s.pwr.vinWarn) fun s =>
    let s := ({ s with pwr.vinWarn := false }).raise Ev.PWR_VIN_OK
    s.when (s.pwr.st = .drain && s.pwr.phase = 4 && s.awake) State.leaveDrain

/-! ### Records (R303) -/

/-- The device is up once the first record of this start has been written, or has failed (R340); a VIN warning that stands is
acted on now (R342). -/
def State.startSynea (s : State) : State :=
  if s.clk.bootDone || s.clk.starting || s.sec.bootFault || !s.awake then s
  else
    let s := s.bootDone
    if s.pwr.vinWarn then s.enterDrain else s

/-- SECURITY_RECORD_WRITTEN (R303): the read-back matches, or the record is written once more and then fails. What waits for the
record goes on: the saved counter epoch (R274), the drain (R320), an activation (R296), the start-up (R340). -/
def execSecurityRecordWritten (ok : Bool) (s : State) : Host.Outcome State Fault Refusal :=
  .next <|
    match s.sec.write with
    | none => s
    | some w =>
      let s := if ok then s.recordOk w else s.recordBad w
      let s := s.when (ok && s.cph.saved) fun s => (s.startupBit 4).armFloorSave
      let s := s.when (ok && s.pwr.st = .drain && s.sec.write.isNone && s.sec.due.isNone) fun s => { s with pwr.drainRec := true }
      let s := s.when ok State.afterRecord
      s.when (ok || s.sec.write.isNone) State.startSynea

/-! ### VIN, rails, die temperature (R314, R323, R365) -/

/-- The boot flash and the fuses outlast the supply (Table 17-6). -/
def Sec.kept (x : Sec) : Sec :=
  { slotA := x.slotA, slotB := x.slotB, fuse := x.fuse, flash := x.flash, bootB := x.flash.bootB, nextB := x.flash.bootB,
    placesLeft := x.placesLeft, bank1 := x.bank1, flashMiB := x.flashMiB, otherErased := x.otherErased }

/-- VIN_DROP (R323): everything but the fuses and the boot flash is lost. -/
def execVinDrop (s : State) : Host.Outcome State Fault Refusal :=
  .next <| s.when s.pwr.powered fun s =>
    let p : Pwr := { powered := false }
    { glb := s.glb, sec := s.sec.kept, pwr := p, out := s.out, free := s.free, pending := s.pending }

/-- POWER_UP (R323, R334): VIN rises through 10.2 V and the cold start begins with FIO. -/
def execPowerUp (s : State) : Host.Outcome State Fault Refusal :=
  .next <| s.when (!s.pwr.powered) fun s =>
    { State.reset with glb := s.glb, sec := s.sec.kept, out := s.out, free := s.free, pending := s.pending }

/-- The domains that a rail feeds (Table 16-2). -/
def railFeeds : Nat → List Nat
  | 0 => [0]
  | 1 => (List.range 34).filter fun d => !([0, 23, 24, 30, 33].contains d)
  | 2 => [2, 13, 14, 15, 17, 18, 19, 20, 25, 26, 27, 28]
  | 3 => [2, 4, 5, 6, 7, 8, 9, 10, 11, 12, 21, 22]
  | 4 => [23, 24]
  | _ => [30, 33]

/-- Domains lose their supply whatever they hold. -/
def State.cutDomains (s : State) (ds : List Nat) : State :=
  ds.foldl (fun s d => (s.setFld (Reg.PWR_DOM_CFG_ON d) 0).setFld (Reg.PWR_DOM_CFG_DOM_PEND d) 0) s

/-- The device stops where it stands: its ports are dark and its Harness is silent. -/
def State.stopDead (s : State) : State :=
  let s := (List.range 64).foldl (fun s p => s.setFld (Reg.DRV_PORT_STATUS_LINK_UP p) 0) s
  { s.darken with hrn.link := false, hrn.linkKey := [], hrn.lanes := 0 }

/-- RAIL_FAULT (R314): the rail's domains switch off and the device stops; a rail that faults again within 1 s of its restart stays
off. -/
def execRailFault (rail : Fin 6) (isOver : Bool) (s : State) : Host.Outcome State Fault Refusal :=
  .next <| s.when s.pwr.powered fun s =>
    let again := (s.pwr.railAt.map fun t => decide (s.now < t + 1000000000)).getD false
    let good := s.fld Reg.PWR_RAIL_STATUS_GOOD
    let bad := s.fld Reg.PWR_RAIL_STATUS_FAULT
    let m := 2 ^ rail.val
    let s := (s.setFld Reg.PWR_RAIL_STATUS_GOOD (if good.testBit rail then good - m else good)).setFld Reg.PWR_RAIL_STATUS_FAULT
      (if bad.testBit rail then bad else bad + m)
    let s := (s.stopDead.raise Ev.PWR_RAIL_FAULT [rail, bit isOver]).cutDomains (railFeeds rail)
    { s with pwr.railDown := true, pwr.railHold := s.pwr.railHold || again }

/-- A sensor reading enters PWR_THERM. -/
def State.readTemp (s : State) (t : Nat) : State := { s with pwr.tj := min t 255, pwr.tjMax := max s.pwr.tjMax (min t 255) }

/-- THERMAL_WARN (R365): raised once, and again only after every sensor has read 5 °C below TJ_WARN (`cooled`). -/
def execThermalWarn (sensor : Nat) (temp : Nat) (cooled : Bool) (s : State) : Host.Outcome State Fault Refusal :=
  .next <| s.when s.pwr.powered fun s =>
    let s := s.readTemp temp
    let w := s.fld Reg.PWR_THERM_TJ_WARN
    if cooled then s.when (temp + 5 ≤ w) fun s => { s with pwr.thermWarned := false }
    else s.when (w ≤ temp && !s.pwr.thermWarned) fun s => ({ s with pwr.thermWarned := true }).raise Ev.PWR_THERM_WARN [sensor, temp]

/-- THERMAL_TRIP (R365): thermal hold; every domain but 0 and 1 is off. -/
def execThermalTrip (sensor : Nat) (temp : Nat) (s : State) : Host.Outcome State Fault Refusal :=
  .next <| s.when (s.pwr.powered && !s.pwr.thermHold && decide (125 ≤ temp)) fun s =>
    let s := (s.readTemp temp).raise Ev.PWR_THERM_TRIP [sensor, temp]
    ({ s.stopDead with pwr.thermHold := true }).cutDomains ((List.range 34).filter fun d => 2 ≤ d)

/-- THERMAL_RESET_START (R365): every sensor reads below 100 °C and a reset that waits starts. -/
def execThermalResetStart (s : State) : Host.Outcome State Fault Refusal :=
  .next <| s.when (s.pwr.thermHold && s.pwr.waitingResets ≠ []) fun s =>
    let cs := s.pwr.waitingResets
    ({ s with pwr.thermHold := false }).fullReset (cs ++ [7])

end Sys2Proof.Machine
end

