-- ==== Sys2Proof/Machine/Clocks.lean ====
section
/-! DEFINITION. Chapter 17: clock monitors and their trips, the fallbacks of the clock domains, FIO, clock-fault hold, the start of the
tree, replay after a power loss, and IO_READY. -/
namespace Sys2Proof.Machine

/-! ### Moving domains (R330, R334, R336) -/

/-- The fabric, drive and Harness links drop with domain 9. -/
def State.stopSerdes (s : State) : State :=
  if s.fld (Reg.CLK_CD_STATUS_SRC 9) = 3 then s
  else
    let s := ({ s with clk.fallen := true }).moveClock 9 3
    s.dropLinks

/-- A domain falls back to FIO. While FIO is not ready it stops and waits; the event follows when it runs again (R334, Table 17-5). -/
def State.toFio (s : State) (c : Nat) : State :=
  let src := s.fld (Reg.CLK_CD_STATUS_SRC c)
  if src = 1 || src = 3 then s
  else
    let s := { s with clk.fallen := true }
    if s.clk.fioReady then (s.moveClock c 1).raise Ev.CLK_FALLBACK [c, 1]
    else
      let ws : List Nat := s.clk.waitFio ++ [c]
      (({ s with clk.waitFio := ws }).moveClock c 3).startFio

/-- Several domains fall back, in index order. -/
def State.allToFio (s : State) (cs : List Nat) : State := cs.foldl State.toFio s

/-- A twin of a pair on a fallback yields with FB_YIELD = 1 (R333); one whose Harness has dropped is found silent by its peer. -/
def State.fallbackYield (s : State) : State :=
  if s.flag Reg.CLK_CFG_FB_YIELD && s.clk.fallen && s.hrn.link then s.yieldSelf else s

/-- In DEEP any trip starts FIO (R334). -/
def State.wakeFio (s : State) : State := if s.pwr.st = .deep then s.startFio else s

/-- A deviation in ppm as CLK_MEAS_* shows it: 32-bit two's complement, saturating. -/
def ppm (d : Int) : Nat := (BitVec.ofInt 32 (max (-2147483648) (min d 2147483647))).toNat

/-- A monitor's trip sets its bit, raises its NMI and starts FIO where it must (R329, R331). -/
def State.trips (s : State) (b : Nat) (ev : Nat) (freq : Bool) (dev : Int) : State :=
  let a := Reg.CLK_MON_STATUS_XA_STOP.addr
  let k := b + bit freq
  ((s.setRg a (setBits (s.rg a) k k 1)).raise ev [bit freq, ppm dev]).wakeFio

/-- A trip in a full-device reset: the tree restarts at the crystal start (R342). -/
def State.restartTree (s : State) : State :=
  { s with clk.starting := true, clk.xaOk := false, clk.xbOk := false, clk.pllLock := 0 }

/-- The domains whose fallback after an XA trip is FIO (Table 17-4). -/
def xaDomains : List Nat := [1, 2, 4, 5, 6, 7, 8, 10]

/-- What an XA trip does: domains to FIO, links drop, and with XB tripped TIME too runs on FIO. -/
def State.loseXa (s : State) : State :=
  let s := { s with clk.xaTripped := true, clk.xaOk := false }
  let s := (s.holdFloor.allToFio xaDomains).stopSerdes
  if s.clk.xbTripped then s.toFio 3 else s

/-- What an XB trip does: PLL6 holds its frequency until it relocks to XA, or TIME goes to FIO where XA has tripped. -/
def State.loseXb (s : State) : State :=
  let s := { s with clk.xbTripped := true, clk.xbOk := false }
  if s.clk.xaTripped then s.toFio 3 else s

/-- Whether the clock tree runs: VIN is present and the device is not in clock-fault hold. -/
def State.treeUp (s : State) : Bool := s.pwr.powered && !s.clk.hold

/-- XA_TRIP (R330). -/
def execXaTrip (freq : Bool) (dev : Int) (s : State) : Host.Outcome State Fault Refusal :=
  .next <| s.when (s.treeUp && s.clk.xaOk) fun s =>
    let s := (s.setRg Reg.CLK_MEAS_XA_DEV.addr (BitVec.ofNat 32 (ppm dev))).trips 0 Ev.CLK_XA_FAIL freq dev
    if s.clk.resetHold.isSome then s.restartTree else s.loseXa.fallbackYield

/-- XB_TRIP (R330). -/
def execXbTrip (freq : Bool) (dev : Int) (s : State) : Host.Outcome State Fault Refusal :=
  .next <| s.when (s.treeUp && s.clk.xbOk) fun s =>
    let s := (s.setRg Reg.CLK_MEAS_XB_DEV.addr (BitVec.ofNat 32 (ppm dev))).trips 2 Ev.CLK_XB_FAIL freq dev
    if s.clk.resetHold.isSome then s.restartTree else s.loseXb.fallbackYield

/-- PLL6_RELOCK (R330): within 10 µs of an XB trip PLL6 runs from XA; the TIME domain has not stopped. -/
def execPll6Relock (s : State) : Host.Outcome State Fault Refusal :=
  .next <| s.when (s.treeUp && s.clk.xbTripped && !s.clk.xaTripped && !s.tim.onXA) fun s =>
    (({ s with tim.onXA := true, clk.fallen := true }).raise Ev.CLK_FALLBACK [3, 0]).fallbackYield

/-- FIO_TRIP (R330, R342): AON moves to SIO, domains on FIO stop until it is ready again, and FIO is started anew. -/
def execFioTrip (freq : Bool) (dev : Int) (s : State) : Host.Outcome State Fault Refusal :=
  .next <| s.when (s.treeUp && (s.clk.fioReady || s.clk.fioStart.isSome)) fun s =>
    let s := (s.setRg Reg.CLK_MEAS_FIO_DEV.addr (BitVec.ofNat 32 (ppm dev))).trips 4 Ev.CLK_FIO_FAIL freq dev
    let on := (List.range 11).filter fun c => s.fld (Reg.CLK_CD_STATUS_SRC c) = 1
    let ws : List Nat := s.clk.waitFio.filter (fun c => c ≠ 0) ++ on
    let aon := s.fld (Reg.CLK_CD_STATUS_SRC 0) = 0
    let s := { s with clk.fioReady := false, clk.fioStart := some s.now, clk.waitFio := ws, clk.fallen := true }
    let s := (on.foldl (fun s c => s.moveClock c 3) s).moveClock 0 2
    (s.raiseIf aon Ev.CLK_FALLBACK [0, 2]).fallbackYield

/-- The domains whose normal source is a PLL (Table 17-2). -/
def pllDomains : Nat → List Nat
  | 0 => [4] | 1 => [5] | 2 => [6] | 3 => [7] | 4 => [8] | 5 => [1, 2, 10] | 6 => [3] | _ => []

/-- PLL_UNLOCK (R330): its domains move to FIO; PLL7's stops and every link drops. -/
def execPllUnlock (pll : Fin 8) (s : State) : Host.Outcome State Fault Refusal :=
  .next <| s.when (s.treeUp && s.clk.pllLock.getLsbD pll) fun s =>
    let a := Reg.CLK_MON_STATUS_PLL_UNLOCK.addr
    let s := { s with clk.pllLock := s.clk.pllLock &&& ~~~(BitVec.ofNat 8 (2 ^ pll.val)) }
    let s := ((s.setRg a (setBits (s.rg a) (8 + pll) (8 + pll) 1)).raise Ev.CLK_PLL_UNLOCK [pll]).wakeFio
    if s.clk.resetHold.isSome then s.restartTree
    else
      let s := if pll.val = 7 then s.stopSerdes else s.allToFio (pllDomains pll)
      s.fallbackYield

/-! ### FIO (R334, R335) -/

/-- A domain that waited for FIO runs on it, with the event of its fallback; AON, stopped with FIO in DEEP, is back on its normal
source. -/
def State.restartOnFio (s : State) (c : Nat) : State :=
  if c = 0 then s.moveClock 0 0 else (s.moveClock c 1).raise Ev.CLK_FALLBACK [c, 1]

/-- FIO_READY (R334): at the start of the tree the ROM's domains run on FIO and the crystals start. -/
def execFioReady (s : State) : Host.Outcome State Fault Refusal :=
  .next <|
    match s.clk.fioStart with
    | none => s
    | some _ => s.when s.treeUp fun s =>
        let ws := s.clk.waitFio
        let s := { s with clk.fioReady := true, clk.fioStart := none, clk.waitFio := [] }
        if s.clk.starting && s.clk.resetHold.isNone then (s.resetCauses (if s.clk.warm then [] else [0])).romOnFio
        else ws.foldl State.restartOnFio s

/-- FIO_START_TIMEOUT (R335): clock-fault hold. AON runs from SIO, every other domain stops, and the links drop. -/
def execFioStartTimeout (s : State) : Host.Outcome State Fault Refusal :=
  .next <|
    match s.clk.fioStart with
    | none => s
    | some t => s.when s.treeUp fun s =>
        let s := (s.reach (t + 200000)).stopDead
        let s := ((List.range 11).filter fun c => c ≠ 0).foldl (fun s c => s.moveClock c 3) s
        { s.moveClock 0 2 with clk.hold := true, clk.fallen := true, clk.fioStart := none, clk.waitFio := [] }

/-! ### The start of the tree (R336, R340) -/

/-- Whether the tree waits for its crystals and PLLs. -/
def State.treeStarting (s : State) : Bool := s.treeUp && s.awake && s.clk.starting && s.clk.fioReady

/-- The tree has started, normally or on its fallback: the ROM boots. -/
def State.treeStarted (s : State) : State := ({ s with clk.starting := false }).boot

/-- STARTUP_PLL_LOCK (R336): domains 1, 2 and 10 move from FIO to PLL5. -/
def execStartupPllLock (s : State) : Host.Outcome State Fault Refusal :=
  .next <| s.when (s.treeStarting && !s.clk.xaTripped) fun s =>
    let s := { s with clk.xaOk := true, clk.xbOk := !s.clk.xbTripped, clk.pllLock := 0xFF }
    ([1, 2, 10].foldl (fun s c => s.moveClock c 0) s).treeStarted

/-- XTAL_TMO_EXPIRE (R340): a crystal that has not started counts as a stop trip, and start-up continues on the fallback. -/
def execXtalTmoExpire (xb : Bool) (s : State) : Host.Outcome State Fault Refusal :=
  .next <|
    if xb then
      s.when (s.treeUp && s.awake && s.clk.fioReady && !s.clk.xbTripped && (s.clk.starting || (s.clk.xaTripped && !s.clk.bootDone))) fun s =>
        ((s.trips 2 Ev.CLK_XB_FAIL false 0).raise Ev.CLK_XTAL_TMO [1]).loseXb
    else
      s.when (s.treeStarting && !s.clk.xaTripped) fun s =>
        let s := ((s.trips 0 Ev.CLK_XA_FAIL false 0).raise Ev.CLK_XTAL_TMO [0]).loseXa
        let l : BitVec 8 := if s.clk.xbTripped then 0 else 0x40
        ({ s with clk.xbOk := !s.clk.xbTripped, clk.pllLock := l }).treeStarted

/-! ### Replay and IO_READY (R187, R340) -/

/-- Whether the journal of some segment stands on no member that can be read. -/
def State.journalLost (s : State) : Bool := (List.range 64).any fun g => !((s.segOf g).members.any s.memberUp)

/-- The copies that decide: per record the one with the highest SEQ among those that verify (R187 step 1). -/
def bestCopies (cs : List JournalCopy) : List JournalCopy :=
  cs.foldl (fun b c =>
    if !c.verified then b
    else match b.find? fun x => x.slot = c.slot with
      | none => b ++ [c]
      | some x => if x.seq < c.seq then (b.filter fun y => y.slot ≠ c.slot) ++ [c] else b) []

/-- A record as it was opened. -/
def State.recordOf (s : State) (c : JournalCopy) : Stripe :=
  let m := s.mapEnt c.volume c.extent
  { slot := c.slot, kind := c.kind, volume := c.volume, extent := c.extent, stripe := c.stripe, row := m.row, band := m.band,
    incarn := m.incarn, seq := c.seq, mapGen := c.mapGen, mask := c.mask, off := c.off, nblk := c.nblk, pcrc := c.pcrc, dataW := [],
    parityW := [] }

/-- The positions of a record's row of which some block in its range cannot be read. -/
def State.unreadOf (s : State) (c : JournalCopy) : List Nat :=
  (List.range s.geoW).filter fun p => (List.range c.nblk).any fun i => (readAt c.reads p (c.off + i)).isNone

/-- Replay of one open record (R187 step 2, R199): it is cleared when its parity matches or when a rebuild wrote no parity; otherwise the
parity is made again, and the positions that cannot be read with it, while at most m − 1 cannot; beyond that their blocks are lost. -/
def State.replayOne (s : State) (c : JournalCopy) : State :=
  let j := s.recordOf c
  let k := s.geoK
  let s : State := { s with sbg.replayed := s.sbg.replayed + 1, sbg.seq := max s.sbg.seq (c.seq + 1) }
  let s := s.touchPage c.slot
  let ps := (List.range s.geoW).filter fun p => k ≤ p && c.mask.testBit p
  let bad := s.unreadOf c
  if !(s.mapEnt c.volume c.extent).alloc || !j.redone k || (ps.all fun p => j.parityMatches k c.reads p) then s
  else if bad.length < s.geoM || bad = [] then
    let dat (p o : Nat) : List Byte := oldData k c.reads p o
    let x := s.stripeOf 3 c.volume c.extent c.stripe c.off c.nblk (bad.filter (· < k)) dat fun o =>
      (ecEncode s.geoM ((List.range k).map fun p => dat p o)).map (fit 4160)
    { s with sbg.repaired := s.sbg.repaired + 1 }.addStripe x
  else
    (bad.filter (· < k)).foldl (fun s p => (List.range c.nblk).foldl (fun s i =>
      s.loseBlock c.volume (c.extent * 4096 + c.stripe * (k * s.stripBlocks) + p * s.stripBlocks + c.off + i) 1) s) s

/-- Replay is done when its last repair has cleared (R187): the floor is raised (R33) and EVT_SBG_REPLAY raised. -/
def State.endReplay (s : State) : State :=
  if s.sbg.replaying && s.sbg.loaded && s.sbg.stripes = [] then
    let s := (s.setFld Reg.SBG_REPLAY_REPLAYED (min s.sbg.replayed 65535)).setFld Reg.SBG_REPLAY_REPAIRED (min s.sbg.repaired 65535)
    let s := ({ s with sbg.replaying := false, sbg.loaded := false }).mapsLoaded
    (s.takeFloor 0).raise Ev.SBG_REPLAY [s.sbg.replayed, s.sbg.repaired]
  else s

/-- What the members hold of a namespace after a power loss: its reservation only with PTPL set (R165). -/
def coldPart : StatePart → StatePart
  | .namespace_ n v t size p nguid gens regs rt rh rs =>
    if p then .namespace_ n v t size p nguid gens regs rt rh rs else .namespace_ n v t size p nguid gens [] 0 none rs
  | p => p

/-- POWER_UP_REPLAY (R187): what the members hold of the maps, namespaces and locks is loaded, and the records that were open are
replayed. -/
def execPowerUpReplay (maps namespaces locks : List StatePart) (copies : List JournalCopy) (s : State) :
    Host.Outcome State Fault Refusal :=
  .next <| s.when (s.sbg.replaying && !s.sbg.loaded && s.hrn.holder && s.awake) fun s =>
    let s := (maps ++ namespaces ++ locks).foldl (fun s p => s.takePart (coldPart p)) s
    let s := if s.journalLost then (s.raise Ev.SBG_ALL_LOST).suspectWindow else s
    let s : State := { s with sbg.loaded := true, sbg.replayed := 0, sbg.repaired := 0 }
    (((bestCopies copies).filter JournalCopy.opened).foldl State.replayOne s).endReplay

/-- The bits of CLK_STARTUP: those latched, the claim, replay, and VIN. -/
def State.startupBits (s : State) : BitVec 10 :=
  let s := if s.hrn.holder || s.hrn.role = .standby then s.startupBit 5 else s
  let s := if s.pwr.vinWarn then s else s.startupBit 9
  if s.sbg.replaying || s.sbg.redo ≠ [] then { s.clk with startup := s.clk.startup &&& 0x3BF }.startup else s.clk.startup

/-- IO_READY (R340): every start-up bit is 1. -/
def execIoReady (s : State) : Host.Outcome State Fault Refusal :=
  .next <| s.when (s.awake && s.clk.bootDone && !s.clk.ioReady && s.startupBits = 0x3FF) fun s =>
    let ms := (s.now - s.clk.resetAt) / 1000000
    let b := s.startupBits
    ({ s with clk.startup := b, clk.ioReady := true, clk.readyMs := min ms 0xFFFFFF }).raise Ev.CLK_IO_READY [ms]

/-- JOIN_HOLDER_LOST (R265). -/
def execJoinHolderLost (s : State) : Host.Outcome State Fault Refusal :=
  .next <| s.when (s.hrn.role = .joining) fun s => s.joinFails 5

end Sys2Proof.Machine
end

