-- ==== Sys2Proof/Machine/Control.lean ====
section
/-! DEFINITION. Chapter 03: rings and doorbells, command fetch, event entries, the commands of the control block and the
reset of the management endpoint. -/
namespace Sys2Proof.Machine

/-- The ring that CTL_RING_SEL selects. -/
def State.selRing (s : State) : Nat := s.fld Reg.CTL_RING_SEL_RING

/-- Whether CTL_RING_SEL selects an event ring. -/
def State.selEvent (s : State) : Bool := s.flag Reg.CTL_RING_SEL_TYPE

/-- Add to the count for the ring configured now an older one, whose first occurrence came before. -/
def Src.merge (e : Src) (o : OldCount) : Src := { e with count := satAdd 16 e.count o.count, detail := o.detail, time := o.time }

/-- Counts left for a disabled ring move to the ring their source is configured for, or are cleared when RING_EN is 0
(R60). -/
def State.settleSrc (s : State) (n : Nat) : State :=
  let e := s.src n
  let off := e.old.filter fun o => !(s.ering o.ring).enabled
  let e' := { e with old := e.old.filter fun o => (s.ering o.ring).enabled }
  s.setSrc n (if e.ringEn then off.foldl Src.merge e' else e')

def State.settleAll (s : State) : State := s.evt.srcs.keys.foldl State.settleSrc s

/-- The routing of a source changes (R60): its count stays pending for the ring configured until now, and a count still pending for the
ring configured from now on is its count again. -/
def Src.route (e : Src) (ringEn alertEn : Bool) (ering : Nat) : Src :=
  if ringEn = e.ringEn && ering = e.ering then { e with alertEn := alertEn }
  else
    let o : List OldCount := if e.count = 0 then e.old else e.old ++ [⟨e.ering, e.count, e.detail, e.time⟩]
    let e' : Src := { e with ringEn := ringEn, alertEn := alertEn, ering := ering, count := 0, detail := [], time := 0, old := o }
    if ringEn then (o.filter fun x => x.ring = ering).foldl Src.merge { e' with old := o.filter fun x => x.ring ≠ ering } else e'

/-! ### Commands fetched and not started -/

/-- Whether a fetched command has not started: it is guarded, and an earlier guarded command runs (R46). -/
def State.unstarted (s : State) (c : Started) : Bool :=
  !c.waits && ((mgmtRow c.desc.opcode.toNat).map MgmtRow.guarded).getD false && s.guardBusy c

/-- Give back one reserved completion slot of event ring `n`. -/
def State.unreserve (s : State) (n : Nat) : State :=
  let r := s.ering n
  s.setEring n { r with reserved := r.reserved - 1 }

/-- Command ring `n` stops (R43): what has been fetched from it and not started is not executed, and its completion slots are free. -/
def State.stopRing (s : State) (n : Nat) : State :=
  let gone := s.ctl.started.filter fun c => c.ring = n && s.unstarted c
  let r := s.cring n
  let s := { s with ctl.started := s.ctl.started.filter fun c => !(gone.any fun x => x.id = c.id) }
  let s := gone.foldl (fun s c => s.unreserve c.ering) s
  let s := if r.fence.isSome then s.unreserve r.ering else s
  s.setCring n { r with fence := none }

/-- A write of CTL_CRING_CFG (R42, R43): discarded while an event ring is selected, with a size out of range, when it
changes the size or the bound ring of an enabled ring, or when it may not enable. -/
def State.writeCringCfg (s : State) (v : Word) : State :=
  let n := s.selRing
  let r := s.cring n
  let en := getBits v 0 0 = 1
  let lg := getBits v 4 1
  let eb := getBits v 15 8
  if s.selEvent || lg < 4 || 12 < lg then s
  else if r.enabled then
    if lg ≠ r.log2 || eb ≠ r.ering then s
    else if en then s
    else (s.setCring n { r with enabled := false }).stopRing n
  else if en then
    if s.flag Reg.CTL_CFG_EN && s.clk.bootDone && (s.ering eb).enabled then
      s.setCring n { base := r.base, enabled := true, log2 := lg, ering := eb }
    else s
  else s.setCring n { r with log2 := lg, ering := eb }

/-- Whether event ring `n` is still needed: a command ring bound to it is enabled, or has commands not yet posted
(R42). -/
def State.eringBound (s : State) (n : Nat) : Bool :=
  (s.ctl.crings.any fun (_, r) => r.enabled && r.ering = n) || (s.ctl.started.any fun c => c.ering = n && !c.drop)

/-- How many completions event ring `n` owes to commands that have been fetched (R48). -/
def State.owes (s : State) (n : Nat) : Nat :=
  s.ctl.started.countP (fun c => c.ering = n && !c.drop && c.ring ≠ carriedRing) +
    s.ctl.crings.count fun r => r.ering = n && r.fence.isSome

/-- A write of CTL_ERING_CFG (R42). A ring that is enabled again keeps the reservations of commands still running (R48). -/
def State.writeEringCfg (s : State) (v : Word) : State :=
  let n := s.selRing
  let r := s.ering n
  let en := getBits v 0 0 = 1
  let lg := getBits v 5 1
  let vec := getBits v 15 8
  if !s.selEvent || lg < 4 || 16 < lg then s
  else if r.enabled then
    if lg ≠ r.log2 then s
    else if en then s.setEring n { r with vector := vec }
    else if s.eringBound n && !r.err then s
    else (s.setEring n { r with enabled := false, vector := vec }).settleAll
  else if en then
    if s.flag Reg.CTL_CFG_EN && s.clk.bootDone then
      (s.setEring n { base := r.base, enabled := true, log2 := lg, vector := vec, coalCount := r.coalCount,
                      coalTime := r.coalTime, reserved := s.owes n }).settleAll
    else s
  else s.setEring n { r with log2 := lg, vector := vec }

/-- A write of the configuration register of the selected ring's type. -/
def State.writeRingCfg (s : State) (v : Word) : State :=
  if s.selEvent then s.writeEringCfg v else s.writeCringCfg v

/-- RING_ENABLE (R42). -/
def execRingEnable (value : Word) (s : State) : Host.Outcome State Fault Refusal :=
  .next <| s.when (getBits value 0 0 = 1) fun s => s.writeRingCfg value

/-- RING_DISABLE (R43). -/
def execRingDisable (value : Word) (s : State) : Host.Outcome State Fault Refusal :=
  .next <| s.when (getBits value 0 0 = 0) fun s => s.writeRingCfg value

/-- Every ring is disabled as if under R43; an event ring goes on taking the completions it owes. -/
def State.disableRings (s : State) : State :=
  let s := s.ctl.crings.keys.foldl State.stopRing s
  { s with ctl.crings := s.ctl.crings.mapAll {} fun _ r => { r with enabled := false },
           ctl.erings := s.ctl.erings.mapAll {} fun _ r => { r with enabled := false } }

/-- CTL_DISABLE_ALL (R43): CTL_CFG.EN is written 0 and every ring is disabled. -/
def execCtlDisableAll (s : State) : Host.Outcome State Fault Refusal :=
  .next <| ((s.setFld Reg.CTL_CFG_EN 0).disableRings).settleAll

/-- A command ring tail doorbell (R45). -/
def State.cdb (s : State) (n idx : Nat) : State :=
  let r := s.cring n
  if !r.enabled then s
  else if r.size ≤ idx then s.raise Ev.DOORBELL_BAD [n, idx]
  else if idx = r.tail then s
  else if (idx + r.size - r.head) % r.size < (r.tail + r.size - r.head) % r.size then s.raise Ev.DOORBELL_BAD [n, idx]
  else s.setCring n { r with tail := idx }

/-- An event ring head doorbell (R45): it releases the slots from the old head up to the index; equal to the head it
releases every slot of a full ring and nothing otherwise. Completions that waited for a slot are written (R44). -/
def State.edb (s : State) (n idx : Nat) : State :=
  let r := s.ering n
  let k := (idx + r.size - r.head) % r.size
  if !r.enabled then s
  else if r.size ≤ idx then s.raise Ev.DOORBELL_BAD [n, idx]
  else if k = 0 then (if r.used = r.size then (s.setEring n { r with used := 0 }).writeOwed n r.owed.length else s)
  else if r.used < k then s.raise Ev.DOORBELL_BAD [n, idx]
  else (s.setEring n { r with head := idx, used := r.used - k }).writeOwed n r.owed.length

/-- A write of the doorbell page (R45): a write of another width or alignment, to a reserved offset, or with any of bits
[31:16] set is discarded, with EVT_DOORBELL_BAD unless its ring is disabled. For a reserved offset the detail names the ring number
that its place in its 1 KiB would have (log entry 109). -/
def State.doorbell (s : State) (offset width : Nat) (v : Word) : State :=
  let n := offset % 0x400 / 4
  let on := if offset < 0x400 then (s.cring n).enabled else if offset < 0x800 then (s.ering n).enabled else true
  if width ≠ 4 || offset % 4 ≠ 0 || 0x800 ≤ offset || 2 ^ 16 ≤ v.toNat then
    s.raiseIf on Ev.DOORBELL_BAD [n, v.toNat]
  else if offset < 0x400 then s.cdb n v.toNat
  else s.edb n v.toNat

/-- CDB_WRITE (R45). -/
def execCdbWrite (offset width : Nat) (value : Word) (s : State) : Host.Outcome State Fault Refusal :=
  .next <| s.doorbell offset width value

/-- EDB_WRITE (R45). -/
def execEdbWrite (offset width : Nat) (value : Word) (s : State) : Host.Outcome State Fault Refusal :=
  .next <| s.doorbell offset width value

/-- Whether a source has occurrences pending on event ring `n`. -/
def Src.pendsOn (e : Src) (n : Nat) : Bool := (e.count ≠ 0 && e.ering = n) || e.old.any fun o => o.ring = n

/-- The pending sources of event ring `n` of one class, lowest index first. -/
def State.pendingOf (s : State) (n : Nat) (c : Cls) : Option Nat :=
  (s.evt.srcs.find? fun (i, e) => e.pendsOn n && srcClass i = c).map Prod.fst

/-- Whether an NMI or ERROR entry is to take the next free slot of event ring `n` (R48). -/
def State.urgentOn (s : State) (n : Nat) : Bool := (s.pendingOf n .nmi).isSome || (s.pendingOf n .error).isSome

/-- Whether command ring `n` has a descriptor to fetch and a completion slot for it, which NMI and ERROR entries take first, or holds a
FENCE descriptor whose earlier commands have completed (R46, R48). -/
def State.fetchable (s : State) (n : Nat) : Bool :=
  let r := s.cring n
  let e := s.ering r.ering
  s.awake && s.ctlRuns && r.enabled && !r.err && e.enabled && !e.err &&
    (if r.fence.isSome then !s.ringActive n else r.head ≠ r.tail && 0 < e.free && !s.urgentOn r.ering)

/-- The ring that the round-robin pointer serves next (R46). -/
def State.nextRing (s : State) : Option Nat :=
  ((List.range 256).map fun i => (s.ctl.rr + i) % 256).find? s.fetchable

/-- Start a command of a ring whose completion slot is reserved. An opcode outside Table 03-6 completes with INVALID_OPCODE (R49, R373). -/
def State.startMgmt (s : State) (n : Nat) (desc : Descriptor) (env : Option Envelope) : State :=
  let r := s.cring n
  let c : Started := { id := s.ctl.nextId, ring := n, ering := r.ering, desc := desc, env := env, chead := r.head,
                       time := s.now, waits := false, drop := false }
  let s := { s with ctl.started := s.ctl.started ++ [c], ctl.nextId := s.ctl.nextId + 1 }
  if (mgmtRow desc.opcode.toNat).isNone then s.complete c .invalidOpcode else s

/-- COMMAND_FETCH (R46): the ring whose turn it is has its head descriptor read and a completion slot reserved; with FENCE it is held, and
started at a later turn, when every earlier command of the ring has completed. -/
def execCommandFetch (ring : Fin 256) (desc : Descriptor) (env : Option Envelope) (s : State) :
    Host.Outcome State Fault Refusal :=
  .next <| s.when (s.nextRing = some ring.val) fun s =>
    let r := s.cring ring
    let s := { s with ctl.rr := (ring.val + 1) % 256 }
    match r.fence with
    | some (d, e) => (s.setCring ring { r with fence := none }).startMgmt ring d e
    | none =>
      let e := s.ering r.ering
      let s := s.setEring r.ering { e with reserved := e.reserved + 1 }
      let r := { r with head := (r.head + 1) % r.size }
      if desc.fence && s.ringActive ring then s.setCring ring { r with fence := some (desc, env) }
      else (s.setCring ring r).startMgmt ring desc env

/-- RING_FAULT (R47): the ring is in error and stops as under R43. The event's detail is the ring's type and number (log entry 110). -/
def execRingFault (isEvent : Bool) (ring : Fin 256) (s : State) : Host.Outcome State Fault Refusal :=
  .next <|
    if isEvent then
      let r := s.ering ring
      s.when (r.enabled && !r.err) fun s => (s.setEring ring { r with err := true }).raise Ev.RING_FAULT [1, ring]
    else
      let r := s.cring ring
      s.when (r.enabled && !r.err) fun s => ((s.setCring ring { r with err := true }).stopRing ring).raise Ev.RING_FAULT [0, ring]

/-- Whether a command fetch waits for a completion slot on event ring `n` (STALLED, R46). -/
def State.fetchWaits (s : State) (n : Nat) : Bool :=
  s.ctl.crings.any fun (_, r) => r.enabled && !r.err && r.head ≠ r.tail && r.ering = n && r.fence.isNone

/-- The source whose entry takes the next free slot of event ring `n` (R48): NMI, then ERROR; a waiting command fetch
goes before NOTICE and INFO. -/
def State.nextEntry (s : State) (n : Nat) : Option Nat :=
  match s.pendingOf n .nmi, s.pendingOf n .error with
  | some i, _ => some i
  | none, some i => some i
  | none, none =>
    if s.fetchWaits n then none
    else match s.pendingOf n .notice with
      | some i => some i
      | none => s.pendingOf n .info

/-- EVENT_ENTRY_WRITE (R48, R56): the entry carries the source's count, which returns to 0. -/
def execEventEntryWrite (ering : Fin 256) (s : State) : Host.Outcome State Fault Refusal :=
  .next <|
    let r := s.ering ering
    s.when (s.awake && s.ctlRuns && r.enabled && !r.err && 0 < r.free) fun s =>
      match s.nextEntry ering with
      | none => s
      | some i =>
        let e := s.src i
        let urgent := srcClass i = .nmi || srcClass i = .error
        match e.old.find? fun o => o.ring = ering.val with
        | some o =>
          (s.setSrc i { e with old := e.old.filter fun o => o.ring ≠ ering.val }).writeEntry ering
            (fun ph => .event ph (srcClass i).code i o.count o.detail o.time) urgent
        | none =>
          (s.setSrc i { e with count := 0, detail := [], time := 0 }).writeEntry ering
            (fun ph => .event ph (srcClass i).code i e.count e.detail e.time) urgent

/-- COAL_TIME_EXPIRE (R48): COAL_TIME µs after the first entry not yet signalled, the ring's interrupt is sent. -/
def execCoalTimeExpire (ering : Fin 256) (s : State) : Host.Outcome State Fault Refusal :=
  .next <|
    let r := s.ering ering
    s.when (r.enabled && r.coalTime ≠ 0 && r.unsignalled ≠ 0) fun s =>
      ((s.reach (r.firstAt + r.coalTime * 1000)).setEring ering { r with unsignalled := 0 }).emit (.msix r.vector)

/-- NOP (R50): it has no parameters, so all of PARAMS is reserved (log entry 111). -/
def execNop (id : Nat) (s : State) : Host.Outcome State Fault Refusal :=
  .next <| s.runPlain id 0x0000 [(0, 40)] fun c s => s.complete c .success

/-- Table 03-13. -/
def limits : List Nat :=
  [8, 16, 64, 64, 16, 128, 65536, 8192, 4096, 16384, 4096, 1024, 74240, 65536, 256, 192, 49152, 32, 4, 64, 34, 768, 512,
   256, 256, 16, 16384, 256, 4096, 0, 0, 0]

/-- The value of GLB_ID. -/
def State.glbId (s : State) : Nat := 0x9064 + s.glb.stepping % 256 * 65536

/-- The structure of Table 03-12, 4,096 bytes. -/
def State.identify (s : State) : List Byte :=
  let h := leBytes 4 s.glbId ++ leBytes 4 (256 + 256 * 2 ^ 9 + 768 * 2 ^ 18) ++ leBytes 8 s.glb.serial ++
    (s.sec.run.version.take 8) ++ leBytes 1 s.sec.run.svn ++ leBytes 1 (roleCode s.hrn.role) ++
    leBytes 1 (if s.glb.twinB then 1 else 0) ++ leBytes 1 0 ++ leBytes 2 s.sec.admins.toNat ++ leBytes 2 0 ++
    leBytes 4 (s.glb.deviceTag % 2 ^ 24) ++ List.replicate 28 0 ++ (limits.flatMap (leBytes 4))
  h ++ List.replicate (4096 - h.length) 0

/-- IDENTIFY_DEVICE (R50). -/
def execIdentifyDevice (id : Nat) (xferOk : Bool) (s : State) : Host.Outcome State Fault Refusal :=
  .next <| s.runPlain id 0x0001 [(0, 40)] fun c s =>
    if c.desc.dataLen.toNat ≠ 4096 then s.complete c .invalidField
    else if !xferOk then s.complete c .dataXferError
    else (s.emit (.hostData c.desc.dataPtr.toNat s.identify)).complete c .success

/-- GET_NONCE (R53, R54), whose PARAMS are reserved (log entry 111): BUSY in a guard storm; otherwise 16 bytes of the DRBG, valid NONCE_LIFE seconds, the oldest of
more than 64 discarded. -/
def execGetNonce (id : Nat) (s : State) : Host.Outcome State Fault Refusal :=
  .next <| s.runPlain id 0x0002 [(0, 40)] fun c s =>
    if s.sec.stopped then s
    else if s.ctl.storm then s.complete c .busy
    else
      let (v, s) := s.random 128
      let n : Nonce := ⟨v, s.now + s.fld Reg.CTL_GUARD_CFG_NONCE_LIFE * 1000000000⟩
      let ns := (s.ctl.nonces.filter fun n => s.now < n.expires) ++ [n]
      let s := { s with ctl.nonces := ns.drop (ns.length - 64) }
      s.complete c .success (v.toNat % 2 ^ 64) (v.toNat / 2 ^ 64)

/-- GUARD_STORM_END (R54): 10 s pass without a failure of the guard checks. -/
def execGuardStormEnd (s : State) : Host.Outcome State Fault Refusal :=
  .next <| s.when s.ctl.storm fun s =>
    let s := s.reach (s.ctl.lastFail + 10000000000)
    { s with ctl.storm := false, ctl.fails := [] }

/-- Clear the pending bits that `v` names in word `n` of EVT_PEND. -/
def State.clearPend (s : State) (n : Nat) (v : Word) : State :=
  (List.range 32).foldl (fun s b =>
    if v.getLsbD b then s.setSrc (32 * n + b) { s.src (32 * n + b) with pend := false } else s) s

/-- EVT_PEND_CLEAR (R57): a W1C write; ALERT_N follows the bits that stay. -/
def execEvtPendClear (index : Fin 24) (value : Word) (s : State) : Host.Outcome State Fault Refusal :=
  .next <| s.clearPend index value

/-- EVT_SRC_CFG_WRITE (R60): the routing of the source that EVT_SRC_SEL selects changes from the next cycle on. -/
def execEvtSrcCfgWrite (value : Word) (s : State) : Host.Outcome State Fault Refusal :=
  .next <|
    let n := s.fld Reg.EVT_SRC_SEL_SRC
    let e := s.src n
    (s.setSrc n (e.route (getBits value 0 0 = 1) (getBits value 1 1 = 1) (getBits value 15 8))).settleSrc n

/-- MGMT_ENDPOINT_RESET (R58): rings are disabled, completions of started commands are discarded, the CTL registers but
CTL_GUARD_CFG return to their reset values, words staged for them and the MSI-X table go, and EVT_MGMT_FLR is raised. Nonces, the
history of guard failures and a running guard storm are no register of CTL and stay (log entry 112). -/
def execMgmtEndpointReset (s : State) : Host.Outcome State Fault Refusal :=
  .next <|
    let s := s.disableRings
    let s := ((s.setFld Reg.CTL_CFG_EN 0).setFld Reg.CTL_RING_SEL_RING 0).setFld Reg.CTL_RING_SEL_TYPE 0
    let st := s.ctl.started.map fun c => { c with drop := true }
    let s := { s with ctl.crings := [], ctl.erings := [], ctl.rr := 0, ctl.started := st, evt.msix := [],
                      staged := s.staged.filter fun e => e.1 < 0x10000 || 0x14000 ≤ e.1 }
    s.settleAll.raise Ev.MGMT_FLR

/-- Whether a block of Table 03-1 holds work (R59), by its index among the blocks; GLB and SBD keep none (log entry 113). -/
def State.holdsWork (s : State) (block : Nat) : Bool :=
  match block with
  | 1 => s.clk.starting || s.clk.fioStart.isSome
  | 2 => s.pwr.st = .drain || s.pwr.waitingResets ≠ []
  | 3 => s.tim.slots.any fun e => e.2.armed && decide (e.2.compare ≤ s.now)
  | 4 => s.ctl.started ≠ []
  | 5 => s.evt.srcs.any fun e => e.2.count ≠ 0 || e.2.old ≠ []
  | 6 => s.swc.frames.any fun f => f.stage = .arriving || f.stage = .sending
  | 7 => s.swc.frames ≠ [] || s.swc.backlog ≠ []
  | 8 => s.tbl.learn ≠ [] || s.tbl.tables.any fun t => t.2.bank.isSome
  | 9 => s.xpt.fetchWait ≠ [] || s.xpt.conns.any fun c => c.2.sent ≠ [] || c.2.reads ≠ [] || c.2.parked ≠ [] || c.2.st = .closing
  | 10 => s.xpt.conns.any fun c => c.2.rxq ≠ []
  | 11 => s.cmdb.cmds ≠ []
  | 12 => s.lay.buffer ≠ [] || s.lay.zeroing ≠ [] || s.reb.current.isSome
  | 13 => s.sbg.stripes ≠ [] || s.sbg.replaying
  | 14 => s.drv.cmds ≠ []
  | 15 => s.str.chans.any fun c => c.2.st = .ramp || c.2.disabling.isSome || c.2.clearing.isSome
  | 16 => s.hrn.round.isSome || s.hrn.join.isSome || s.hrn.swap.isSome || s.hrn.txWait ≠ [] || s.hrn.posts ≠ [] ||
    s.hrn.unnamed ≠ [] || s.htx.queue ≠ []
  | 17 => s.cph.waiting ≠ [] || decide (0 < s.cph.held)
  | 18 => s.sec.write.isSome || s.sec.due.isSome
  | 19 => s.tck.calls ≠ [] || s.tck.stalls ≠ [] || s.tck.waits ≠ [] || s.tck.runs ≠ []
  | 20 => s.tel.windows.any fun w => w.2.enabled
  | _ => false

/-- FUNC_WEDGED (R59): a block that holds work has made no progress for WEDGE_TMO; for the control block (index 4), a started
command grows older than it. For the others the sender of the command measures the time (log entry 113). -/
def execFuncWedged (block : Fin 22) (s : State) : Host.Outcome State Fault Refusal :=
  .next <|
    let tmo := s.fld Reg.GLB_WDOG_WEDGE_TMO * 1000000
    if block.val = 4 then
      match s.ctl.started with
      | [] => s
      | c :: _ => (s.reach (c.time + tmo + 1)).wedge block
    else s.when (s.holdsWork block) fun s => s.wedge block

end Sys2Proof.Machine
end

