-- ==== Sys2Proof/Machine/Gates.lean ====
section
/-! DEFINITION. Chapter 08, R145: the GATE slot of a Slalom list fires. -/
namespace Sys2Proof.Machine

/-- Whether the next fire of a list's slot, due at `t`, is its swap rather than a gate change: the swap falls in the same 8 ns tick or
before (R147, R150). -/
def Slalom.swapFirst (x : Slalom) (t : Nat) : Bool := (x.pending.map fun p => decide (p.2 / 8 ≤ t / 8)).getD false

/-- The gates of a list have moved, from `old`: commands held at a gate that is open now start, and a scrub window that opens may start a
pass (R146, R207). -/
def State.gatesMoved (s : State) (l old : Nat) : State :=
  (s.startHeld fun _ => true).when (l = 10 && !old.testBit 0 && s.windowOpen 2) State.autoScrub

/-- SLALOM_GATE_CHANGE (R145, R146): the list moves to the entry in force; commands held at a gate that opened start, and a scrub
window that opens may start a pass (R207). -/
def execSlalomGateChange (list : Fin 12) (s : State) : Host.Outcome State Fault Refusal :=
  .next <|
    let x := s.slalom list
    match x.slot with
    | none => s
    | some k =>
      let t := (s.slot k).compare
      s.when (x.enabled && (s.slot k).armed && !x.swapFirst t) fun s =>
        let closed := s.gates list
        let s := s.reach t
        let s := (s.setSlalom list { x with entry := x.cfg.entryAt s.now }).setSlot k { s.slot k with compare := x.nextFire s.now }
        s.gatesMoved list closed

/-- SLALOM_SWAP (R147): at SWAP_TIME the pending list takes over and EVT_SLALOM_SWAP is raised. -/
def execSlalomSwap (list : Fin 12) (s : State) : Host.Outcome State Fault Refusal :=
  .next <|
    let x := s.slalom list
    match x.pending with
    | none => s
    | some (cfg, t) =>
      let old := s.gates list
      let s := s.reach t
      let s := s.setSlalom list { x with enabled := true, cfg := cfg, entry := cfg.entryAt s.now, dflt := some cfg.dflt,
                                         pending := none }
      let s := match x.slot with
        | some k => s.setSlot k { s.slot k with compare := cfg.nextChange s.now }
        | none => s
      (s.raise Ev.SLALOM_SWAP [list]).gatesMoved list old

/-- LOAD_SLALOM_LIST (R147). -/
def execLoadSlalomList (id : Nat) (data : Option (List Byte)) (s : State) : Host.Outcome State Fault Refusal :=
  .next <| s.runPlain id 0x0700 [(0x06, 2), (0x18, 16)] fun c s =>
    let d := c.desc
    let l := d.par 0 1
    let f := d.par 1 1
    let dflt := d.par 3 1
    let n := d.par 4 2
    let old := s.gates l
    if 12 ≤ l || 4 ≤ f || 4 ≤ d.par 2 1 || (8 ≤ l && (f.testBit 0 || 2 ≤ dflt)) then s.complete c .invalidField
    else if f.testBit 1 then
      let x := s.slalom l
      let s := match x.slot with
        | some k => s.setSlot k {}
        | none => s
      ((s.setSlalom l { dflt := some dflt }).gatesMoved l old).holderDone c
    else if d.dataLen.toNat ≠ 4 * n then s.complete c .invalidField
    else match data with
      | none => s.complete c .dataXferError
      | some b =>
        let cfg : SlalomCfg := { entries := slalomEntries n b, unit := d.par 2 1, guard := f.testBit 0, dflt := dflt,
                                 base := d.par 8 8, cycle := d.par 0x10 8 }
        let x := s.slalom l
        if !slalomValid l cfg n || b.length ≠ 4 * n then s.complete c .invalidField
        else
          let t := swapTime cfg.base cfg.cycle s.now
          let y := { x with pending := some (cfg, t), dflt := if x.enabled then x.dflt else some dflt }
          match x.slot with
          | some k =>
            let o := s.slot k
            (((s.setSlalom l y).setSlot k { o with compare := if x.enabled then y.nextFire s.now else t }).gatesMoved l old).holderDone c
          | none =>
            match s.findSlot with
            | none => s.complete c .limitExceeded
            | some k =>
              (((s.setSlalom l { y with slot := some k }).setSlot k
                { owner := 1, armed := true, compare := t, period := 0, action := 1, target := l }).gatesMoved l old).holderDone c

end Sys2Proof.Machine
end

