-- ==== Sys2Proof/Machine/Lookup.lean ====
section
/-! DEFINITION. Chapter 06: the commands and events of the lookup tables, the LOOKUP primitive, sweeping, learning and rehash. -/
namespace Sys2Proof.Machine

/-! ### LOOKUP (R92, R93) -/

/-- LOOKUP: the entry goes to the output address and RESULT is its index; MISS where the table holds none. -/
def execLookup (table : Nat) (key : Nat) (output : Nat) (disagreements : Nat) (s : State) : Host.Outcome State Fault Refusal :=
  .next <| s.engine 1 fun c s =>
    if 2 < table then (2, 0, s)
    else match s.access c key (keySize table) false, s.access c output (entrySize table) true with
      | some k, some p =>
        match s.lookup table (s.bytes k (keySize table)) disagreements with
        | (s, none) => (5, 0, s)
        | (s, some (i, e)) => (0, i, { s with mem := writeMem s.mem p e })
      | _, _ => (3, 0, s)

/-- EXTENT_CACHE_FILL (R93): the cache takes an allocated extent's entry from the map. -/
def execExtentCacheFill (volume extent : Nat) (s : State) : Host.Outcome State Fault Refusal :=
  .next <| s.when (s.tableOn 2 && (s.mapEnt volume extent).alloc && (s.findEntry 2 (cacheKey volume extent)).isNone) fun s =>
    s.fillExtent volume extent

/-! ### Configuration (R91, R100) -/

/-- Whether a TBL_CFG write keeps the rules that link its fields: LOG2_SIZE changes only while EN is 0, and a sweeper's pass still
fits. -/
def State.tblCfgOk (s : State) (t : Nat) (v : Word) : Bool :=
  let size := Reg.TBL_CFG_LOG2_SIZE t
  let l := if t = 2 then s.fld size else getBits v size.hi size.lo
  let limit := s.fld (Reg.TBL_AGE_AGE_LIMIT t)
  (l = s.fld size || !s.tableOn t) &&
    (t = 2 || limit = 0 ||
      sweepFits (2 ^ l / 4) (s.fld (Reg.TBL_SWEEP_SWEEP_BATCH t)) (s.fld (Reg.TBL_SWEEP_SWEEP_PERIOD t)) limit
        (getBits v (Reg.TBL_CFG_TICK_LOG2 t).hi (Reg.TBL_CFG_TICK_LOG2 t).lo))

/-- The waiting Table Rehash of a table. -/
def isRehashOf (t : Nat) (c : Started) : Bool := c.desc.par 0 1 = t

/-- A table is emptied; a rebuild under way ends with it. -/
def State.emptyTable (s : State) (t : Nat) : State :=
  let x := s.table t
  let y : Table := { seed0 := x.seed0, seed1 := x.seed1, sweepAt := x.sweepAt, sweepSlot := x.sweepSlot }
  let s := s.setTable t y
  if x.bank.isSome then s.completeWaiting 0x0103 (isRehashOf t) .configConflict else s

/-- TABLE_ENABLE (R91): EN goes from 0 to 1; the table is emptied and draws new seeds. -/
def execTableEnable (table : Fin 3) (value : Word) (s : State) : Host.Outcome State Fault Refusal :=
  .next <| s.when (!s.tableOn table && value.getLsbD 0 && s.tblCfgOk table value) fun s =>
    match s.storeReg (Reg.TBL_CFG_EN table).addr value with
    | none => s
    | some s =>
      let s := s.emptyTable table
      let (a, s) := s.random 32
      let (b, s) := s.random 32
      s.setTable table { s.table table with seed0 := a.toNat, seed1 := if table.val = 2 then 0 else b.toNat }

/-- TABLE_DISABLE (R91): EN goes from 1 to 0 and the table is emptied. -/
def execTableDisable (table : Fin 3) (value : Word) (s : State) : Host.Outcome State Fault Refusal :=
  .next <| s.when (s.tableOn table && !value.getLsbD 0 && s.tblCfgOk table value) fun s =>
    match s.storeReg (Reg.TBL_CFG_EN table).addr value with
    | none => s
    | some s => s.emptyTable table

/-- Free a table's sweeper slot. -/
def State.freeSweeper (s : State) (t : Nat) : State :=
  let x := s.table t
  match x.sweepSlot with
  | none => s
  | some k => (s.setSlot k {}).setTable t { x with sweepSlot := none }

/-- The sweeper slot of a table that fires every `p` µs from now, owner 2. -/
def State.sweeper (s : State) (p : Nat) : Slot :=
  { owner := 2, armed := true, compare := s.now + p * 1000, period := p * 1000 }

/-- AGE_LIMIT_WRITE (R100): a write of TBL_AGE or TBL_SWEEP (`sweep`). Aging that starts takes a slot, and is discarded with none
free; 0 frees it; a pass that takes too long is rejected. -/
def execAgeLimitWrite (table : Fin 3) (sweep : Bool) (value : Word) (s : State) : Host.Outcome State Fault Refusal :=
  .next <| s.when (table.val ≠ 2) fun s =>
    let t := table.val
    let a := if sweep then (Reg.TBL_SWEEP_SWEEP_BATCH t).addr else (Reg.TBL_AGE_AGE_LIMIT t).addr
    let batch := if sweep then getBits value 15 0 else s.fld (Reg.TBL_SWEEP_SWEEP_BATCH t)
    let period := if sweep then getBits value 31 16 else s.fld (Reg.TBL_SWEEP_SWEEP_PERIOD t)
    let limit := if sweep then s.fld (Reg.TBL_AGE_AGE_LIMIT t) else getBits value 15 0
    let fits := limit = 0 || sweepFits (s.buckets t) batch period limit (s.fld (Reg.TBL_CFG_TICK_LOG2 t))
    match (if fits then s.storeReg a value else none) with
    | none => s
    | some s' =>
      let x := s.table t
      match x.sweepSlot with
      | some k => if limit = 0 then s'.freeSweeper t else s'.setSlot k { s'.slot k with period := period * 1000 }
      | none =>
        if limit = 0 then s'
        else match s.findSlot with
          | none => s
          | some k => (s'.setSlot k (s'.sweeper period)).setTable t { x with sweepSlot := some k }

/-! ### Sweeping (R99 to R101) -/

/-- An entry of a table is gone: a flow entry's connection is told (R99, R106). -/
def State.entryGone (s : State) (t : Nat) (e : List Byte) (aged : Bool) : State := if t = 1 then s.flowLost (leAt e 0x28 2) aged else s

/-- Delete the entry at an index if it has aged out. -/
def State.sweepAtIndex (s : State) (t i : Nat) : State :=
  let e := (s.table t).at i
  if s.agedOut t e then (s.writeSlot t i []).entryGone t e true else s

/-- Whether the update engine of a table has a started Table Write or Table Lock to take before learning, sweeping and rehash copying
(R94). -/
def State.engineTaken (s : State) (t : Nat) : Bool :=
  s.ctl.started.any fun c => (c.desc.opcode.toNat = 0x0101 || c.desc.opcode.toNat = 0x0102) && c.desc.par 0 1 = t && !c.waits && !c.peer

/-- The update engine of the address table takes all queued learn events, in queue order (R102). -/
def State.learnAll (s : State) : State :=
  let ls := s.tbl.learn
  let s := { s with tbl.learn := [] }
  if s.tableOn 0 then ls.foldl State.learn s else s

/-- The stash entries of a table that have aged out are deleted, last place first. -/
def State.sweepStash (s : State) (t : Nat) : State :=
  ((List.range (s.table t).stash.length).reverse).foldl (fun s k =>
    let i := s.tableSize t + k
    let e := s.entryAt t i
    if s.agedOut t e then (s.writeSlot t i []).entryGone t e true else s) s

/-- TABLE_SWEEP (R94, R100): the slot fires and SWEEP_BATCH buckets are examined from where the last firing stopped, the stash with the last
of them; a pass that falls behind raises EVT_TBL_SWEEP_LATE. Table commands that have started and learn events go first. -/
def execTableSweep (table : Fin 2) (s : State) : Host.Outcome State Fault Refusal :=
  .next <| s.when (!s.engineTaken table) fun s =>
    let t := table.val
    match (s.table t).sweepSlot with
    | none => s
    | some k =>
      let s := if t = 0 then s.learnAll else s
      let late := decide ((s.slot k).compare + (s.slot k).period ≤ s.now)
      let s := (s.fire k).raiseIf late Ev.TBL_SWEEP_LATE [t]
      let n := s.buckets t
      let b := min n (s.fld (Reg.TBL_SWEEP_SWEEP_BATCH t))
      let start := (s.table t).sweepAt
      let is := (List.range b).flatMap fun j =>
        let q := (start + j) % n
        [4 * q, 4 * q + 1, 4 * q + 2, 4 * q + 3]
      let s := (is.filter fun i => (s.table t).at i ≠ []).foldl (fun s i => s.sweepAtIndex t i) s
      let s := if n ≤ start + b then s.sweepStash t else s
      s.setTable t { s.table t with sweepAt := (start + b) % n }

/-! ### Learning (R102, R103) -/

/-- LEARN_EVENT (R102): queued, or counted in QFULL. -/
def execLearnEvent (source : Learned) (s : State) : Host.Outcome State Fault Refusal :=
  .next <| s.when (s.tableOn 0 && (s.fld Reg.TBL_LEARN_CFG_LEARN_PORTS).testBit source.port) fun s =>
    if 1024 ≤ s.tbl.learn.length then s.bump Reg.TBL_LEARN_DROP_QFULL
    else { s with tbl.learn := s.tbl.learn ++ [source] }

/-- LEARN_APPLY (R94, R102): the update engine takes the oldest event, after the table commands that have started. -/
def execLearnApply (s : State) : Host.Outcome State Fault Refusal :=
  .next <| s.when (!s.engineTaken 0) fun s =>
    match s.tbl.learn with
    | [] => s
    | l :: ls =>
      let s := { s with tbl.learn := ls }
      s.when (s.tableOn 0) fun s => s.learn l

/-- PIN_END (R103): shelf time passes MOVE_T; PINNED and MOVES clear. -/
def execPinEnd (index : Nat) (s : State) : Host.Outcome State Fault Refusal :=
  .next <|
    let e := s.entryAt 0 index
    s.when (entryValid 0 e && entryPinned 0 e) fun s =>
      let left := ahead 16 s.ms16 (leAt e 0x1C 2)
      let s := if left ≤ 10000 then s.reach ((s.now / 1000000 + left) * 1000000) else s
      s.writeSlot 0 index (unpinned e)

/-! ### ECC (R106) -/

/-- TABLE_ECC_UNCORRECTABLE. -/
def execTableEccUncorrectable (table : Fin 3) (index : Nat) (s : State) : Host.Outcome State Fault Refusal :=
  .next <|
    let e := s.entryAt table index
    s.when (entryValid table e) fun s => ((s.writeSlot table index []).raise Ev.TBL_ECC_UNCORR [table]).entryGone table e false

/-- TABLE_ECC_CORRECTED. -/
def execTableEccCorrected (table : Fin 3) (s : State) : Host.Outcome State Fault Refusal := .next <| s.raise Ev.TBL_ECC [table]

/-! ### Table commands (R104, R105) -/

/-- Entry `i` of a buffer of entries of table `t`. -/
def bufEntry (t : Nat) (b : List Byte) (i : Nat) : List Byte :=
  let n := entrySize t
  let e := (b.drop (n * i)).take n
  e ++ List.replicate (n - e.length) 0

/-- An entry as Table Read returns it: whole, or zeros. -/
def shown (t : Nat) (e : List Byte) : List Byte := if entryValid t e then e else List.replicate (entrySize t) 0

/-- TABLE_READ (R105): by index, or by key the entries of the host buffer replaced by those found. -/
def execTableRead (id : Nat) (data : Option (List Byte)) (s : State) : Host.Outcome State Fault Refusal :=
  .next <| s.runPlain id 0x0100 [(2, 2), (0x0C, 28)] fun c s =>
    let d := c.desc
    let t := d.par 0 1
    let len := d.dataLen.toNat
    let n := len / entrySize t
    if 2 < t || 1 < d.par 1 1 || len % entrySize t ≠ 0 then s.complete c .invalidField
    else if d.par 1 1 = 0 then
      if d.par 8 4 ≠ n || s.tableSize t < d.par 4 4 + n then s.complete c .invalidField
      else
        let es := (List.range n).map fun i => (s.table t).at (d.par 4 4 + i)
        (s.emit (.hostData d.dataPtr.toNat (es.flatMap (shown t)))).complete c .success (es.filter (entryValid t)).length
    else if d.par 4 8 ≠ 0 then s.complete c .invalidField
    else match data with
      | none => s.complete c .dataXferError
      | some b =>
        let es := (List.range n).map fun i =>
          match s.findEntry t (entryKey t (bufEntry t b i)) with
          | some j => s.entryAt t j
          | none => []
        (s.emit (.hostData d.dataPtr.toNat (es.flatMap (shown t)))).complete c .success (es.filter (entryValid t)).length

/-- Process the entries of a buffer in order, up to the first refused: RESULT0 is the number done, RESULT1 the position of the one
refused and the status its cause. -/
def State.eachEntry (s : State) (t : Nat) (b : List Byte) (f : State → List Byte → State × Option MStatus) :
    Nat → Nat → State × Nat × Option MStatus
  | 0, i => (s, i, none)
  | n + 1, i =>
    match f s (bufEntry t b i) with
    | (s, some st) => (s, i, some st)
    | (s, none) => s.eachEntry t b f n (i + 1)

/-- Run a command over a buffer of entries. -/
def State.onEntries (s : State) (c : Started) (data : Option (List Byte)) (f : Nat → State → List Byte → State × Option MStatus) : State :=
  let t := c.desc.par 0 1
  let len := c.desc.dataLen.toNat
  if 2 < t || 1 < c.desc.par 1 1 || len % entrySize t ≠ 0 then s.complete c .invalidField
  else match data with
    | none => s.complete c .dataXferError
    | some b =>
      if !s.tableOn t then s.complete c .configConflict
      else match s.eachEntry t b (f t) (len / entrySize t) 0 with
        | (s, n, none) => s.holderDone c n
        | (s, n, some st) => s.holderEnd c st n n

/-- Insert or replace one entry (R95, R104): VALID is the table's own. -/
def State.writeEntryOf (t : Nat) (s : State) (e : List Byte) : State × Option MStatus :=
  let e := if entryValid t e then e else setFlags t e (entryFlags t e + 1)
  match s.tblInsert t e with
  | (s', false) => (s', some .limitExceeded)
  | (s', true) => if s'.tooManyLocks t (entryKey t e) then (s, some .limitExceeded) else (s', none)

/-- TABLE_INSERT (R95, R105): Table Write with OP 0; the extent cache is filled only from the map. -/
def execTableInsert (id : Nat) (data : Option (List Byte)) (s : State) : Host.Outcome State Fault Refusal :=
  .next <| s.runMgmt id 0x0101 [(2, 38)] (fun _ => true) (fun d => d.par 1 1 ≠ 1) fun c s =>
    if c.desc.par 0 1 = 2 then s.complete c .invalidField else s.onEntries c data State.writeEntryOf

/-- TABLE_DELETE (R105): Table Write with OP 1. -/
def execTableDelete (id : Nat) (data : Option (List Byte)) (s : State) : Host.Outcome State Fault Refusal :=
  .next <| s.runMgmt id 0x0101 [(2, 38)] (fun _ => true) (fun d => d.par 1 1 = 1) fun c s =>
    s.onEntries c data fun t s e => (s.tblDelete t (entryKey t e), none)

/-- Set or clear the LOCK flag of an entry by key; a key that is not there is refused. -/
def State.lockEntry (lock : Bool) (t : Nat) (s : State) (e : List Byte) : State × Option MStatus :=
  match s.findEntry t (entryKey t e) with
  | none => (s, some .invalidField)
  | some i =>
    let x := s.entryAt t i
    let f := entryFlags t x
    if lock = entryLocked t x then (s, none)
    else
      let s' := s.writeSlot t i (setFlags t x (if lock then f + 4 else f - 4))
      if lock && s'.tooManyLocks t (entryKey t e) then (s, some .limitExceeded) else (s', none)

/-- TABLE_LOCK (R104): at most 2 locked entries in a bucket. -/
def execTableLock (id : Nat) (data : Option (List Byte)) (s : State) : Host.Outcome State Fault Refusal :=
  .next <| s.runMgmt id 0x0102 [(2, 38)] (fun _ => true) (fun d => d.par 1 1 ≠ 1) fun c s => s.onEntries c data (State.lockEntry true)

/-- TABLE_UNLOCK (R104). -/
def execTableUnlock (id : Nat) (data : Option (List Byte)) (s : State) : Host.Outcome State Fault Refusal :=
  .next <| s.runMgmt id 0x0102 [(2, 38)] (fun _ => true) (fun d => d.par 1 1 = 1) fun c s => s.onEntries c data (State.lockEntry false)

/-! ### Rehash (R98) -/

/-- TABLE_REHASH: the rebuild starts in the second bank; the command completes at the switch. -/
def execTableRehash (id : Nat) (s : State) : Host.Outcome State Fault Refusal :=
  .next <| s.runPlain id 0x0103 [(2, 2), (0x0C, 28)] fun c s =>
    let d := c.desc
    let t := d.par 0 1
    let given := d.par 1 1 = 1
    if 1 < t || 1 < d.par 1 1 || (given && d.par 4 4 = d.par 8 4) || (!given && d.par 4 8 ≠ 0) then s.complete c .invalidField
    else if !s.tableOn t then s.complete c .configConflict
    else if s.tbl.tables.any fun x => x.2.bank.isSome then s.complete c .busy
    else
      let (a, s) := s.random 32
      let (b, s) := s.random 32
      let bank : Bank := if given then { seed0 := d.par 4 4, seed1 := d.par 8 4 } else { seed0 := a.toNat, seed1 := b.toNat }
      (s.setTable t { s.table t with bank := some bank }).hold c.id

/-- Copy a list of entries into the second bank; the copy stops at the first that finds no place. -/
def State.copyAll (s : State) (t : Nat) (es : List (List Byte)) : State := es.foldl (fun s e => s.bankPut t e) s

/-- The second bank becomes live, and the stash is empty. -/
def State.switchBank (s : State) (t : Nat) (b : Bank) : State :=
  let x := s.table t
  let y : Table := { seed0 := b.seed0, seed1 := b.seed1, entries := b.entries, versions := x.versions, sweepAt := x.sweepAt,
                     sweepSlot := x.sweepSlot }
  ((s.setTable t y).raise Ev.TBL_REHASH_DONE [t]).completeWaiting 0x0103 (isRehashOf t) .success

/-- The rebuild is abandoned: the live bank and the stash stand, and RESULT0 is the number of entries placed. -/
def State.abandonBank (s : State) (t : Nat) (b : Bank) : State :=
  (s.setTable t { s.table t with bank := none }).completeWaiting 0x0103 (isRehashOf t) .limitExceeded b.entries.length

/-- REHASH_SWITCH (R94, R98): while the window is open, and no table command is to be taken first, the copy of the live bank and the stash
ends; the second bank becomes live, or the rebuild is abandoned where an entry found no place in it. -/
def execRehashSwitch (table : Fin 2) (s : State) : Host.Outcome State Fault Refusal :=
  .next <| s.when (s.windowOpen 3 && !s.engineTaken table && (s.table table).bank.isSome) fun s =>
    let t := table.val
    let s := if t = 0 then s.learnAll else s
    let s := s.copyAll t ((s.table t).entries.map Prod.snd ++ (s.table t).stash)
    match (s.table t).bank with
    | none => s
    | some b => if b.full then s.abandonBank t b else s.switchBank t b

end Sys2Proof.Machine
end

