-- ==== Sys2Proof/Machine/Hooks.lean ====
section
/-! DEFINITION. Chapter 04, R71: the ends of an invocation of the extension, and what tier 0 does with its return code. -/
namespace Sys2Proof.Machine

/-- The return codes of a hook (Table 04-6). -/
def hookCodes : Nat → Nat
  | 0 => 2
  | 1 => 3
  | _ => 1

/-- The return code that DEFAULT_ACT stands for. -/
def State.defaultCode (s : State) (h : Nat) : Nat :=
  if s.flag (Reg.TCK_HOOK_CFG_DEFAULT_ACT h) then (match h with | 0 => 1 | 1 => 2 | _ => 0) else 0

/-- Whether a command waits at a hook. -/
def State.atHook (s : State) (t : Nat) : Bool := (s.cmd t).any fun c => c.phase = .hook

/-- Tier 0 acts on a return code (Table 04-6): a connection is admitted or refused, a command goes on to the check of its memory
keys or fails, a completion is built. -/
def State.hookAct (s : State) (h subject code : Nat) : State :=
  match h with
  | 0 =>
    let st := (s.conn subject).st
    if st = .reqRcvd || st = .keying then (if code = 0 then s.enterReady subject else s.closeConn subject 5) else s
  | 1 =>
    if !s.atHook subject then s
    else match code with
      | 0 => if (s.cmd subject).any fun c => c.entry.opcode = 0x09 then s.deallocate subject else s.keysCheck subject
      | 1 => s.finish subject 2 0x86 true
      | _ => s.finish subject 0 0x82 true
  | 2 => if s.atHook subject then (s.updCmd subject fun c => { c with phase := .done }).settle subject else s
  | _ => s

/-- The invocation on a core, if one runs there. -/
def State.runOn (s : State) (core : Nat) : Option HookRun := s.tck.runs.find? fun r => r.core = core

/-- The core is back in tier 0. -/
def State.endRun (s : State) (core : Nat) : State :=
  { s with tck.runs := s.tck.runs.filter fun r => r.core ≠ core, tck.pmp := Assoc.set [] s.tck.pmp core [] }

/-- An invocation that waited starts, if its hook still runs; else what it held up goes on as without one, or by DEFAULT_ACT with the
extension disabled (R72). -/
def State.startHook (s : State) (w : Nat × Nat) : State :=
  if s.hookOn w.1 then s.invokeHook w.1 w.2 else s.hookAct w.1 w.2 (if s.tck.extDisabled then s.defaultCode w.1 else 0)

/-- At a hook boundary: with no invocation running the new image takes its place (R75), and the invocations that waited start. -/
def State.hookBoundary (s : State) : State :=
  let s := if s.tck.runs = [] then s.takeExt else s
  if s.tck.next.isSome then s
  else s.tck.hookWait.foldl State.startHook { s with tck.hookWait := [] }

/-- Abandon an invocation: its calls are freed once they complete, EVT_EXT_OVERRUN or EVT_EXT_FAULT is raised, DEFAULT_ACT is taken. -/
def State.abandon (s : State) (r : HookRun) (ev : Nat) : State :=
  let mine (c : Call) : Bool := c.core = r.core && c.tier1
  let cs : List Call := (s.tck.calls.filter fun c => !(mine c && c.done)).map fun c => if mine c then { c with orphan := true } else c
  let ws : List CoreWait := s.tck.waits.filter fun w => w.core ≠ r.core
  let ss : List Stall := s.tck.stalls.filter fun x => x.core ≠ r.core
  let s := { s with tck.calls := cs, tck.waits := ws, tck.stalls := ss }
  let s := (s.endRun r.core).raise ev [r.hook, r.core]
  (s.extFault.hookAct r.hook r.subject (s.defaultCode r.hook)).hookBoundary

/-- HOOK_RETURN (R71): an undefined code counts as a fault. A core of a stopped cluster returns from nothing (R63). -/
def execHookReturn (core : Fin 256) (code : Nat) (s : State) : Host.Outcome State Fault Refusal :=
  .next <| s.when (s.coreRuns core) fun s =>
    match s.runOn core with
    | none => s
    | some r =>
      if code < hookCodes r.hook then ((s.endRun core).hookAct r.hook r.subject code).hookBoundary else s.abandon r Ev.EXT_FAULT

/-- HOOK_OVERRUN (R71): BUDGET cycles have passed. -/
def execHookOverrun (core : Fin 256) (s : State) : Host.Outcome State Fault Refusal :=
  .next <|
    match s.runOn core with
    | none => s
    | some r => s.abandon r Ev.EXT_OVERRUN

/-- An exception on a core: an invocation of the extension that runs there is abandoned (R71). -/
def State.exception (s : State) (core : Nat) (o : Out) : State :=
  let s := s.emit o
  match s.runOn core with
  | none => s
  | some r => s.abandon r Ev.EXT_FAULT

/-- Whether a core may read the descriptor at an address (R62). -/
def State.mayReadAt (s : State) (core a : Nat) : Bool :=
  (physAddr core a).isSome && (!s.inTier1 core || regionsAllow (Assoc.get [] s.tck.pmp core) a 56 false)

/-- PCALL (R64): an undefined funct3 or funct7, or an rs2 other than x0, raises an illegal-instruction exception; a descriptor address
outside the map, or refused by PMP, an access-fault exception (R62). -/
def execPcall (core : Fin 256) (funct7 : BitVec 7) (rest : BitVec 25) (address : Nat) (s : State) : Host.Outcome State Fault Refusal :=
  .next <| s.when (s.coreRuns core) fun s =>
    match primOp (customWord funct7 rest) with
    | .pcall p rd => if s.mayReadAt core address then s.pcall core p rd address else s.exception core (.accessFault core)
    | .illegal => s.exception core (.illegalInstruction core)
    | _ => s

/-- PWAIT (R64, R65). -/
def execPwait (core : Fin 256) (funct7 : BitVec 7) (rest : BitVec 25) (ticket : BitVec 64) (s : State) : Host.Outcome State Fault Refusal :=
  .next <| s.when (s.coreRuns core) fun s =>
    match primOp (customWord funct7 rest) with
    | .pwait rd => s.askTicket core ticket.toNat rd true
    | .illegal => s.exception core (.illegalInstruction core)
    | _ => s

/-- PPOLL (R64, R65). -/
def execPpoll (core : Fin 256) (funct7 : BitVec 7) (rest : BitVec 25) (ticket : BitVec 64) (s : State) : Host.Outcome State Fault Refusal :=
  .next <| s.when (s.coreRuns core) fun s =>
    match primOp (customWord funct7 rest) with
    | .ppoll rd => s.askTicket core ticket.toNat rd false
    | .illegal => s.exception core (.illegalInstruction core)
    | _ => s

/-- HOOK_FAULT (R71): the invocation takes an exception. -/
def execHookFault (core : Fin 256) (s : State) : Host.Outcome State Fault Refusal :=
  .next <|
    match s.runOn core with
    | none => s
    | some r => s.abandon r Ev.EXT_FAULT

end Sys2Proof.Machine
end

