-- ==== Sys2Proof/Machine/View.lean ====
section
/-! DEFINITION. What a read of BAR0 returns (R2 to R6): the stored fields of a register with the fields that show the state of a
block put in their places. -/
namespace Sys2Proof.Machine

/-- 1 for true. -/
def ofBool (b : Bool) : Nat := if b then 1 else 0

/-- Put values into a word: (highest bit, lowest bit, value) each. -/
def putFields (w : Word) (fs : List (Nat × Nat × Nat)) : Word := fs.foldl (fun w f => setBits w f.1 f.2.1 f.2.2) w

/-- The number whose bit `i`, below `n`, is `p i`. -/
def bitsOf (n : Nat) (p : Nat → Bool) : Nat := (List.range n).foldl (fun b i => if p i then b + 2 ^ i else b) 0

/-- A signed number as a 32-bit word, saturating. -/
def satInt (i : Int) : Nat := (BitVec.ofInt 32 (max (-2147483648) (min 2147483647 i))).toNat

/-- The low and high words of a 64-bit quantity. -/
def loWord (n : Nat) : Nat := n % 2 ^ 32
def hiWord (n : Nat) : Nat := n / 2 ^ 32 % 2 ^ 32

/-- TIM_STATUS.STATE. -/
def TimeState.code : TimeState → Nat
  | .freerun => 0 | .acquiring => 1 | .locked => 2 | .holdover => 3 | .twin => 4

/-- STR_SLOT_STATUS.STATE (Table 12-4). -/
def SlotSt.code : SlotSt → Nat
  | .off => 0 | .ramp => 1 | .on => 2 | .warn => 3 | .tripped => 4 | .locked => 5

/-- Blocks TIM and GLB: the fields that a register shows, and none for a register that is plain storage. -/
def State.viewTim (s : State) (a : Nat) : List (Nat × Nat × Nat) :=
  let x := s.slot (s.fld Reg.TIM_SLOT_SEL_SLOT)
  if a = 0xC004 then
    [(2, 0, s.tim.st.code), (6, 4, s.tim.gmPort / 4), (8, 8, ofBool (s.tim.slewing && s.tim.st ≠ .twin)), (9, 9, ofBool s.tim.onXA), (10, 10, ofBool s.tim.floorHold)]
  else if a = 0xC008 then [(31, 0, loWord s.tim.ns)]
  else if a = 0xC00C then [(31, 0, hiWord s.tim.ns)]
  else if a = 0xC010 then [(15, 0, s.tim.frac)]
  else if a = 0xC014 then [(31, 0, satInt (s.tim.offset / 2000))]
  else if a = 0xC028 then [(31, 0, loWord s.tim.floor)]
  else if a = 0xC02C then [(31, 0, hiWord s.tim.floor)]
  else if a = 0xC038 then
    [(2, 0, x.action), (3, 3, ofBool (x.period ≠ 0)), (4, 4, ofBool (x.owner ≠ 0 && x.armed)), (15, 8, x.owner), (31, 16, x.missed)]
  else if a = 0xC03C then [(9, 0, s.freeSlots)]
  else if a = 0x0 then [(23, 16, s.glb.stepping)]
  else if a = 0x8 then [(31, 0, loWord s.glb.serial)]
  else if a = 0xC then [(31, 0, hiWord s.glb.serial)]
  else if a = 0x10 then
    [(1, 0, s.pwr.st.code), (4, 2, roleCode s.hrn.role), (5, 5, ofBool s.glb.twinB), (6, 6, ofBool s.clk.hold), (7, 7, ofBool s.clk.bootDone)]
  else if a = 0x1C then [(21, 0, s.ctl.wedged.toNat)]
  else []

/-- Whether a command ring waits for a completion slot (STALLED). -/
def State.ringStalled (s : State) (n : Nat) : Bool :=
  (s.cring n).enabled && !(s.cring n).err && decide ((s.cring n).head ≠ (s.cring n).tail) && decide ((s.ering (s.cring n).ering).free = 0)

/-- Blocks CTL and EVT (R42: a register of the other ring type reads 0). -/
def State.viewCtl (s : State) (a : Nat) : List (Nat × Nat × Nat) :=
  let n := s.selRing
  let ev := s.selEvent
  let c := s.cring n
  let r := s.ering n
  let base := if ev then r.base else c.base
  let src := s.fld Reg.EVT_SRC_SEL_SRC
  let e := s.src src
  if a = 0x10008 then [(31, 0, loWord base)]
  else if a = 0x1000C then [(31, 0, hiWord base)]
  else if a = 0x10010 then
    if ev then [(4, 1, 0)] else [(0, 0, ofBool c.enabled), (4, 1, c.log2), (15, 8, c.ering)]
  else if a = 0x10014 then
    if ev then [(0, 0, ofBool r.enabled), (5, 1, r.log2), (15, 8, r.vector)] else [(5, 1, 0)]
  else if a = 0x10018 then
    if ev then [(7, 0, r.coalCount), (23, 8, r.coalTime)] else []
  else if a = 0x1001C then
    if ev then [(15, 0, r.tail), (16, 16, ofBool r.err), (19, 19, ofBool r.phase)]
    else [(15, 0, c.head), (16, 16, ofBool c.err), (17, 17, ofBool (s.ringStalled n)), (18, 18, ofBool (s.ringActive n))]
  else if a = 0x14004 then [(0, 0, ofBool e.ringEn), (1, 1, ofBool e.alertEn), (15, 8, e.ering)]
  else if a = 0x14008 then [(1, 0, (srcClass src).code), (2, 2, ofBool e.pend), (31, 16, e.count)]
  else if 0x14010 ≤ a ∧ a < 0x14070 then [(31, 0, bitsOf 32 fun b => (s.src (8 * (a - 0x14010) + b)).pend)]
  else if a = 0x14070 then [(9, 0, s.evt.nmiLast), (10, 10, ofBool s.evt.nmiFromPeer)]
  else if a = 0x14074 then [(0, 0, ofBool s.alert)]
  else []

/-- Whether a core runs: its cluster is powered and not stopped, and tier 0 firmware runs. -/
def State.clusterRuns (s : State) (n : Nat) : Bool :=
  s.clk.bootDone && !((Assoc.get {} s.tck.clusters n : Cluster)).stopped && s.flag (Reg.PWR_DOM_CFG_ON (25 + n / 8))

/-- Blocks TCK, NET and SWC. -/
def State.viewFabric (s : State) (a : Nat) : List (Nat × Nat × Nat) :=
  if a = 0x88030 then
    [(0, 0, ofBool s.tck.ext.isSome), (1, 1, ofBool s.tck.extDisabled), (3, 2, (s.tck.ext.map ExtImage.keySlot).getD 0),
     (7, 4, min 15 (s.tck.faults.filter fun t => decide (s.now < t + 1000000000)).length)]
  else if a = 0x88034 then [(31, 0, (s.tck.ext.map ExtImage.version).getD 0)]
  else if 0x88100 ≤ a ∧ a < 0x88180 then
    let n := (a - 0x88100) / 4
    [(7, 0, if s.clusterRuns n then 0xFF else 0), (15, 8, bitsOf 8 fun c => s.tck.runs.any fun r => r.core = 8 * n + c),
     (16, 16, ofBool ((Assoc.get {} s.tck.clusters n : Cluster)).stopped)]
  else if 0x20000 ≤ a ∧ a < 0x28000 ∧ a % 0x1000 = 8 then
    let n := (a - 0x20000) / 0x1000
    [(3, 0, bitsOf 4 fun i => (s.subPort (4 * n + i)).up), (7, 4, bitsOf 4 fun i => (s.subPort (4 * n + i)).training)]
  else if a = 0x28008 then [(17, 0, s.cellsFree)]
  else if a = 0x2800C then [(17, 0, s.swc.minFree)]
  else
    let p := s.profile (s.fld Reg.SWC_WRED_SEL_PROFILE)
    if a = 0x28024 then [(31, 0, p.green.toNat)]
    else if a = 0x28028 then [(31, 0, p.yellow.toNat)]
    else if a = 0x2802C then [(31, 0, p.red.toNat)]
    else if a = 0x28030 then [(31, 0, p.ctl.toNat)]
    else []

/-- Blocks TBL, XPT and QOS. -/
def State.viewXpt (s : State) (a : Nat) : List (Nat × Nat × Nat) :=
  if 0x30000 ≤ a ∧ a < 0x30300 then
    let t := (a - 0x30000) / 0x100
    let x := s.table t
    if a % 0x100 = 0x0C then [(31, 0, x.seed0)]
    else if a % 0x100 = 0x10 then [(31, 0, x.seed1)]
    else if a % 0x100 = 0x14 then
      [(21, 0, s.validCount t), (26, 22, x.stash.length), (27, 27, ofBool x.rehashReq), (28, 28, ofBool x.bank.isSome)]
    else []
  else if a = 0x38024 then [(16, 0, s.xpt.conns.count fun c => c.st ≠ .idle), (30, 17, s.residents)]
  else if a = 0x38028 then [(14, 0, s.parkedTotal)]
  else if 0x40200 ≤ a ∧ a < 0x40230 then
    let l := (a - 0x40200) / 4
    let x := s.slalom l
    [(7, 0, s.gates l), (15, 8, x.entry.getD 0), (16, 16, ofBool x.enabled), (17, 17, ofBool x.pending.isSome),
     (18, 18, ofBool (x.enabled && x.cfg.guard)), (20, 19, if x.enabled then x.cfg.unit else 0)]
  else if 0x40404 ≤ a ∧ a ≤ 0x4040C then
    let i := s.fld Reg.QOS_POL_SEL_INDEX
    let p := s.policer i
    let q := (Assoc.get {} s.qos.stricts (i % 256) : Strict)
    let strict := s.flag Reg.QOS_POL_SEL_STRICT
    if a = 0x40404 then [(31, 0, if strict then q.cntG else p.cntG)]
    else if a = 0x40408 then [(31, 0, if strict then 0 else p.cntY)]
    else [(31, 0, if strict then q.cntR else p.cntR)]
  else []

/-- Free spare slots over all ACTIVE members (LAY_SPARE_FREE). -/
def State.spareFree (s : State) : Nat :=
  ((s.reb.members.filter fun e => e.2.st = .active).map fun e => s.lay.spareQ - (s.spareUsed e.1).length).foldl (· + ·) 0

/-- Blocks CMD, LAY and SBG. -/
def State.viewStore (s : State) (a : Nat) : List (Nat × Nat × Nat) :=
  if a = 0x48014 then
    [(23, 0, (s.dirty + 255) / 256), (24, 24, ofBool s.cmdb.held), (25, 25, ofBool s.cmdb.through)]
  else if a = 0x48018 then [(16, 0, 65536 - s.cmdb.cmds.length)]
  else if a = 0x4801C then [(16, 0, s.cmdb.minTags)]
  else if a = 0x48020 then [(16, 0, s.xpt.conns.count Conn.frozen)]
  else if a = 0x50008 then [(1, 1, ofBool s.lay.built)]
  else if a = 0x5000C then [(23, 0, s.lay.bands)]
  else if a = 0x50010 then [(15, 0, s.lay.spareQ)]
  else if a = 0x50014 then [(31, 0, s.lay.slots.length)]
  else if a = 0x50018 then [(31, 0, s.slotsFree)]
  else if a = 0x50020 then [(31, 0, s.lay.mapGen)]
  else if a = 0x50024 then [(31, 0, s.lay.safeGen)]
  else if 0x50100 ≤ a ∧ a < 0x50200 then [(10, 8, (s.member ((a - 0x50100) / 4)).st.code)]
  else if a = 0x50208 then
    [(0, 0, ofBool (s.rebuildQueue ≠ [])), (1, 1, ofBool s.reb.spareOut), (2, 2, ofBool (s.reb.suspect ≠ [])),
     (3, 3, ofBool s.reb.scrub.isSome)]
  else if a = 0x5020C then [(31, 0, (s.rebuildQueue.filter fun x => x.cls = 1).length)]
  else if a = 0x50210 then [(31, 0, s.rebuildQueue.length)]
  else if a = 0x50214 then [(15, 0, s.spareFree)]
  else if a = 0x50218 then [(20, 0, s.cmdb.lost.length), (21, 21, ofBool s.cmdb.coarse)]
  else if a = 0x50220 then [(31, 0, s.reb.scrubbed)]
  else if a = 0x58004 then
    [(20, 0, s.sbg.stripes.length), (21, 21, ofBool s.sbg.full),
     (22, 22, ofBool (s.lay.built && (List.range 64).any fun g => decide ((s.segCurrent g).length < 3))),
     (23, 23, ofBool (s.sbg.replaying || s.sbg.redo ≠ []))]
  else if a = 0x58008 then [(31, 0, loWord s.sbg.seq)]
  else if a = 0x5800C then [(31, 0, hiWord s.sbg.seq)]
  else if 0x58100 ≤ a ∧ a < 0x58200 then
    let x : Seg := if s.lay.built then s.segOf ((a - 0x58100) / 4) else {}
    [(5, 0, x.members.getD 0 0), (13, 8, x.members.getD 1 0), (21, 16, x.members.getD 2 0), (26, 24, bitsOf 3 fun c => x.current.getD c false)]
  else []

/-- How much of the join snapshot has been copied, in percent (R264): on the holder what its transmitter has sent, on the joiner what it has been
told. -/
def State.joinPercent (s : State) : Nat :=
  match s.hrn.join with
  | none => 0
  | some j =>
    if s.hrn.role = .joining then j.percent
    else match s.htx.queue.find? fun m => m.kind = .state with
      | some m => 100 - 100 * m.left / max 1 m.out.flits
      | none => 100

/-- Blocks DRV, STR, SBD and HRN. -/
def State.viewDrives (s : State) (a : Nat) : List (Nat × Nat × Nat) :=
  if a = 0x60400 then [(13, 0, 8192 - s.pairsWith 64 0)]
  else if 0x68300 ≤ a ∧ a < 0x68400 then
    let x := s.chan ((a - 0x68300) / 4)
    [(2, 0, x.st.code), (3, 3, ofBool x.pg), (4, 4, ofBool (s.slotPfw ((a - 0x68300) / 4))), (5, 5, ofBool x.gate),
     (6, 6, ofBool x.present), (7, 7, ofBool (s.slotPerst ((a - 0x68300) / 4))), (10, 8, x.retries), (13, 11, x.cause)]
  else if a = 0x98004 then [(31, 0, bitsOf 32 fun i => (s.chan i).present)]
  else if a = 0x98008 then [(31, 0, bitsOf 32 fun i => (s.chan (32 + i)).present)]
  else if a = 0x98010 then [(0, 0, ofBool s.glb.twinB)]
  else if a = 0x70024 then [(23, 0, s.glb.deviceTag)]
  else if a = 0x70028 then [(29, 0, (List.range 5).foldl (fun n i => n + s.hrn.arbs.getD i 0 % 64 * 64 ^ i) 0)]
  else if a = 0x70040 then
    [(2, 0, roleCode s.hrn.role), (3, 3, ofBool s.hrn.holder), (4, 4, ofBool s.hrn.link), (6, 5, s.hrn.lanes),
     (7, 7, ofBool s.hrn.silent), (10, 8, s.hrn.cause), (11, 11, ofBool (s.hrn.join.isSome || s.hrn.role = .joining))]
  else if a = 0x70044 then [(6, 0, s.joinPercent)]
  else if a = 0x70048 then [(17, 0, s.hrn.oseq - s.hrn.ordAck)]
  else if a = 0x70050 then [(31, 0, loWord s.hrn.lastSwap)]
  else if a = 0x70054 then [(31, 0, hiWord s.hrn.lastSwap)]
  else []

/-- Whether pipeline `p` is enabled. -/
def State.pipeOn (s : State) (p : Nat) : Bool := !((Assoc.get {} s.cph.pipes p : Pipe)).disabled

/-- Four bytes as a word, the first in [31:24] (SEC_MEAS). -/
def beWord (l : List Byte) (w : Nat) : Nat := (List.range 4).foldl (fun n i => n * 256 + (l.getD (4 * w + i) 0).toNat) 0

/-- Blocks CPH and SEC. No background read holds a slot between two commands (log entry 38). -/
def State.viewSec (s : State) (a : Nat) : List (Nat × Nat × Nat) :=
  if a = 0x78004 then [(13, 0, s.slotsHeldFree)]
  else if a = 0x78008 then [(13, 0, s.cph.minFree)]
  else if a = 0x7800C then [(15, 0, bitsOf 16 s.pipeOn), (31, 16, bitsOf 16 fun p => s.pipeOn (16 + p))]
  else if a = 0x78010 then [(31, 0, s.prefixOf 1)]
  else if a = 0x78014 then [(31, 0, loWord s.ctr)]
  else if a = 0x78018 then [(31, 0, hiWord s.ctr)]
  else if a = 0x7801C then
    [(16, 0, 65536 - s.cph.keys.count DataKey.used), (17, 17, ofBool (s.cmdb.nss.any fun e => e.2.reseal.isSome))]
  else if 0x78100 ≤ a ∧ a < 0x78180 then [(8, 8, ofBool (!s.pipeOn ((a - 0x78100) / 4)))]
  else if a = 0x80000 then
    [(6, 0, s.sec.fuse), (14, 8, s.sec.run.svn), (15, 15, ofBool s.sec.bootB), (16, 16, ofBool s.sec.fallback),
     (17, 17, ofBool s.sec.bootFault), (18, 18, ofBool (s.sec.admins ≠ 0)), (30, 24, s.pendingSvn)]
  else if a = 0x80004 then [(15, 0, s.sec.admins.toNat)]
  else if a = 0x8000C then [(31, 0, s.soakS)]
  else if a = 0x80010 then [(31, 0, loWord s.sec.flash.seq)]
  else if a = 0x80014 then [(31, 0, hiWord s.sec.flash.seq)]
  else if 0x80020 ≤ a ∧ a < 0x80040 then [(31, 0, beWord (s.measurement (s.fld Reg.SEC_MEAS_SEL_BLOCK)) ((a - 0x80020) / 4))]
  else if a = 0x80040 then [(16, 0, s.cph.keys.count fun k => k.used && k.bound.isNone)]
  else if a = 0x80044 then [(16, 0, (s.sec.locks.filter fun l => !l.expired).length)]
  else []

/-- Blocks PWR, CLK and TEL. -/
def State.viewPower (s : State) (a : Nat) : List (Nat × Nat × Nat) :=
  if a = 0x8004 then
    [(1, 0, s.pwr.st.code), (2, 2, ofBool s.pwr.refused), (5, 3, s.pwr.phase), (6, 6, ofBool s.pwr.vinWarn), (7, 7, ofBool s.pwr.ext)]
  else if a = 0x801C then [(7, 0, s.pwr.tj), (23, 16, s.pwr.tjMax), (24, 24, ofBool s.pwr.thermHold)]
  else if a = 0x4004 then
    [(0, 0, ofBool s.clk.fioReady), (1, 1, ofBool s.clk.xaOk), (2, 2, ofBool s.clk.xbOk), (3, 3, ofBool s.clk.hold),
     (4, 4, ofBool s.clk.fallen), (5, 5, ofBool s.tim.onXA), (15, 8, s.clk.pllLock.toNat)]
  else if 0x4040 ≤ a ∧ a < 0x4060 then
    let p := (a - 0x4040) / 4
    [(0, 0, ofBool (s.clk.pllLock.getLsbD p)), (1, 1, ofBool (p = 6 && s.clk.pllLock.getLsbD 6 && !s.tim.onXA))]
  else if a = 0x4300 then [(9, 0, s.startupBits.toNat), (10, 10, ofBool s.clk.ioReady)]
  else if a = 0x4304 then [(23, 0, s.clk.bootMs)]
  else if a = 0x4308 then [(23, 0, s.clk.readyMs)]
  else if 0x90100 ≤ a ∧ a < 0x90180 then
    let x := s.window ((a - 0x90100) / 16)
    if a % 16 = 0 then [(0, 0, ofBool x.enabled), (1, 1, ofBool x.ring.err), (31, 16, x.ring.tail)]
    else if a % 16 = 4 then [(15, 0, x.ring.head)]
    else []
  else if a = 0x90200 then
    let g := s.tel.sampling
    [(0, 0, ofBool (g.rate ≠ 0)), (1, 1, ofBool g.ring.err), (31, 16, g.ring.tail)]
  else if a = 0x90204 then [(15, 0, s.tel.sampling.ring.head)]
  else []

/-- The fields that show the state of a block in the register at `a`. -/
def State.view (s : State) (a : Nat) : List (Nat × Nat × Nat) :=
  if a < 0x4000 then s.viewTim a
  else if a < 0xC000 then s.viewPower a
  else if a < 0x10000 then s.viewTim a
  else if a < 0x18000 then s.viewCtl a
  else if a < 0x30000 then s.viewFabric a
  else if a < 0x48000 then s.viewXpt a
  else if a < 0x60000 then s.viewStore a
  else if a < 0x78000 then s.viewDrives a
  else if a < 0x88000 then s.viewSec a
  else if a < 0x90000 then s.viewFabric a
  else if a < 0x98000 then s.viewPower a
  else s.viewDrives a

/-- The live value of the register at `a`, the high word of a 64-bit quantity included. -/
def State.live (s : State) (a : Nat) : Word := putFields (s.rg a) (s.view a)

/-- The 64-bit quantities held in two registers: the low word's address and the high word's (R6). -/
def highOf (a : Nat) : Option Nat :=
  if [0xC008, 0xC028, 0x8, 0x10008, 0x48004, 0x58008, 0x98004, 0x70050, 0x78014, 0x80010].contains a then some (a + 4)
  else if 0x20000 ≤ a ∧ a < 0x28000 ∧ 0x10 ≤ a % 0x1000 ∧ a % 0x1000 < 0x30 ∧ a % 8 = 0 then some (a + 4)
  else none

/-- The registers that a read answers from their shadow: the high words, and TIM_NOW_FRAC (R22). -/
def shadowed (a : Nat) : Bool := a = 0xC010 || (decide (4 ≤ a) && (highOf (a - 4)).isSome)

/-- Whether the device answers an access to BAR0 at `a`: in clock-fault hold and thermal hold it answers reads of GLB and a write
of GLB_RESET, in boot fault those and reads of SEC_STATUS (R293, R335, R365). -/
def State.responds (s : State) (write : Bool) (a : Nat) : Bool :=
  s.pwr.powered &&
    (if s.clk.hold || s.pwr.thermHold then if write then a = 0x14 else decide (a < 0x4000)
     else if s.sec.bootFault then decide (a < 0x4000) || (!write && a = 0x80000)
     else s.clk.resetHold.isNone && !s.pwr.railDown && s.ctlRuns)

/-- What a read of the register at `a` returns: a write-only field reads 0 by its reset value, and the input power is what the
sensor then measures, a free value (log entry 3). -/
def State.readValue (s : State) (a : Nat) : Word × State :=
  if shadowed a then (Assoc.get 0 s.shadow a, s)
  else if a = 0x8010 then
    let (w, t) := s.drawBelow 512
    (putFields (s.rg a) [(24, 16, w)], t)
  else (s.live a, s)

end Sys2Proof.Machine
end

