-- ==== Sys2Proof/Machine/Registers.lean ====
section
/-! DEFINITION. BAR0 accesses: writes of registers with the rules that link their fields (R368) and what they set going, reads that
clear (R5), reads of a low word (R6), and accesses with no register behind them (R2). A write of a register that has rows of its
own acts as the row it makes. -/
namespace Sys2Proof.Machine

/-- The state after an outcome, which is always a next state. -/
def State.ran (s : State) (o : Host.Outcome State Fault Refusal) : State :=
  match o with
  | .next t => t
  | _ => s

/-- Write a register that sets nothing else going. -/
def State.put (s : State) (a : Nat) (v : Word) : State := (s.storeReg a v).getD s

/-- Write a register if a rule that links its fields holds. -/
def State.putIf (s : State) (ok : Bool) (a : Nat) (v : Word) : State := if ok then s.put a v else s

/-- Keep a word that takes effect with a later write (R6). -/
def State.stage (s : State) (a : Nat) (v : Word) : State := { s with staged := Assoc.put s.staged a v }

/-- A staged word, or the one in force. -/
def State.stagedWord (s : State) (a : Nat) (cur : Word) : Word :=
  match s.staged.find? fun e => e.1 = a with
  | some e => e.2
  | none => cur

/-- Drop the staged words from `a` up to `b`. -/
def State.unstage (s : State) (a b : Nat) : State := { s with staged := s.staged.filter fun e => e.1 < a || b ≤ e.1 }

/-- Write the high word of a pair of plain registers: both take effect (R6). -/
def State.putPair (s : State) (lo : Nat) (v : Word) : State :=
  let l := s.stagedWord lo (s.rg lo)
  ((s.unstage lo (lo + 4)).put lo l).put (lo + 4) v

/-- PTP_EN goes to 0 (R25): FREERUN, or in TWIN the state of its own servo. -/
def State.stopPtp (s : State) : State :=
  if s.tim.st = .twin then { s.enterFreerun with tim.st := .twin } else s.enterFreerun

/-- A change of the delays of the grandmaster's port while LOCKED is applied as an offset change (R26, log entry 39): the measured offset
grows by half of the change of the two delays. -/
def State.moveDelay (s : State) (n : Nat) (old v : Word) : State :=
  if s.tim.st = .locked && s.tim.gm.isSome && s.tim.gmPort / 4 = n then
    s.applyOffset (((getBits v 15 0 : Int) - getBits old 15 0) + ((getBits v 31 16 : Int) - getBits old 31 16))
  else s

/-- Blocks TIM and GLB. -/
def State.writeTim (s : State) (base i a : Nat) (v : Word) : State :=
  if base = Reg.TIM_CTL_PTP_EN.addr then
    let t := s.put a v
    if s.flag Reg.TIM_CTL_PTP_EN && !t.flag Reg.TIM_CTL_PTP_EN then t.stopPtp else t.recheckMaster
  else if base = (Reg.TIM_PORT_DLY_INGRESS 0).addr then (s.put a v).moveDelay i (s.rg a) v
  else if base = Reg.GLB_RESET_KEY.addr then s.ran (execGlbResetWrite v s)
  else s.put a v

/-- The base address of the selected ring. -/
def State.ringBase (s : State) : Nat := if s.selEvent then (s.ering s.selRing).base else (s.cring s.selRing).base

/-- Whether the selected ring is enabled. -/
def State.selEnabled (s : State) : Bool := if s.selEvent then (s.ering s.selRing).enabled else (s.cring s.selRing).enabled

/-- The base address of the selected ring takes effect with its high word; bits [11:0] are reserved (R42). -/
def State.writeBase (s : State) (hi : Word) : State :=
  let lo := s.stagedWord 0x10008 (BitVec.ofNat 32 (loWord s.ringBase))
  let b := hi.toNat * 2 ^ 32 + lo.toNat / 4096 * 4096
  let n := s.selRing
  let s := s.unstage 0x10008 0x1000C
  if s.selEvent then s.setEring n { s.ering n with base := b } else s.setCring n { s.cring n with base := b }

/-- CTL_ERING_COAL of the selected event ring. -/
def State.writeCoal (s : State) (v : Word) : State :=
  let n := s.selRing
  if s.selEvent then s.setEring n { s.ering n with coalCount := getBits v 7 0, coalTime := getBits v 23 8 } else s

/-- Blocks CTL and EVT (R42, R43, R57, R60). -/
def State.writeCtl (s : State) (a : Nat) (v : Word) : State :=
  if a = Reg.CTL_CFG_EN.addr then
    if s.flag Reg.CTL_CFG_EN && getBits v 0 0 = 0 then s.ran (execCtlDisableAll s) else s.put a v
  else if a = 0x10008 then (if s.selEnabled then s else s.stage a v)
  else if a = 0x1000C then (if s.selEnabled then s else s.writeBase v)
  else if a = 0x10010 then (if s.selEvent then s else s.writeCringCfg v)
  else if a = 0x10014 then (if s.selEvent then s.writeEringCfg v else s)
  else if a = 0x10018 then s.writeCoal v
  else if a = Reg.EVT_SRC_SEL_SRC.addr then s.putIf (decide (getBits v 9 0 < 768)) a v
  else if a = 0x14004 then s.ran (execEvtSrcCfgWrite v s)
  else if 0x14010 ≤ a ∧ a < 0x14070 then s.clearPend ((a - 0x14010) / 4) v
  else s.put a v

/-- A fabric port's NET_PORT_CFG (R77): MODE and MAX_FRAME change only while EN is 0; a FENCED twin enables no port (R240). -/
def State.writePortCfg (s : State) (n : Fin 8) (a : Nat) (v : Word) : State :=
  if s.flag (Reg.NET_PORT_CFG_EN n) then s.ran (execNetPortDisable n v s)
  else if v.getLsbD 0 then s.ran (execNetPortEnable n v s)
  else s.putIf (getBits v 2 1 ≠ 3) a v

/-- Blocks NET and SWC (R6, R77, R83). -/
def State.writeFabric (s : State) (base i a : Nat) (v : Word) : State :=
  if base = (Reg.NET_PORT_CFG_EN 0).addr then s.writePortCfg (Fin.ofNat 8 i) a v
  else if base = (Reg.NET_MAC_LO_MAC_LO 0 0).addr then s.stage a v
  else if base = (Reg.NET_MAC_HI_MAC_HI 0 0).addr then s.putPair (a - 4) v
  else if 0x28024 ≤ a ∧ a ≤ 0x2802C then s.stage a v
  else if a = 0x28030 then s.ran (execWredProfileCommit v s)
  else s.put a v

/-- A table's TBL_CFG (R91, R100). -/
def State.writeTblCfg (s : State) (t : Fin 3) (a : Nat) (v : Word) : State :=
  if s.tableOn t && !v.getLsbD 0 then s.ran (execTableDisable t v s)
  else if !s.tableOn t && v.getLsbD 0 then s.ran (execTableEnable t v s)
  else s.putIf (s.tblCfgOk t v) a v

/-- XPT_IP_CFG: the four address words take effect on this write, or are discarded with it (R368). -/
def State.writeIpCfg (s : State) (a : Nat) (v : Word) : State :=
  let b := a - 0x10
  let ws := [0, 4, 8, 12].map fun o => (b + o, s.stagedWord (b + o) (s.rg (b + o)))
  let s := s.unstage b a
  if fieldsInRange a v then (ws.foldl (fun s e => s.put e.1 e.2) s).put a v else s

/-- Blocks TBL, XPT and QOS. -/
def State.writeXpt (s : State) (base i a : Nat) (v : Word) : State :=
  let t := Fin.ofNat 3 i
  if base = (Reg.TBL_CFG_EN 0).addr then s.writeTblCfg t a v
  else if base = (Reg.TBL_AGE_AGE_LIMIT 0).addr then s.ran (execAgeLimitWrite t false v s)
  else if base = (Reg.TBL_SWEEP_SWEEP_BATCH 0).addr then s.ran (execAgeLimitWrite t true v s)
  else if a = Reg.XPT_CFG_EN.addr then s.ccResumed (s.writeXptCfg v)
  else if a = Reg.XPT_WHEEL_WHEEL_TICK.addr then s.putIf (!s.flag Reg.XPT_CFG_EN) a v
  else if base = (Reg.XPT_IP_ADDR_ADDR 0 0).addr then s.stage a v
  else if base = (Reg.XPT_IP_CFG_VALID 0).addr then s.writeIpCfg a v
  else s.put a v

/-- The rule that links the fields of LAY_GEOM (R169). -/
def geomOk (v : Word) : Bool :=
  let w := getBits v 4 0 + getBits v 7 5
  decide (w ≤ 32) && decide (w + getBits v 14 12 ≤ getBits v 22 16)

/-- CMD_SUBSYS_ID, discarded while a host controller exists (R151). -/
def State.anyCtrl (s : State) : Bool := s.cmdb.ctrls.any fun e => e.2.used

/-- Blocks CMD, LAY and SBG. -/
def State.writeStore (s : State) (base a : Nat) (v : Word) : State :=
  if a = 0x48004 then (if s.anyCtrl || !s.acceptsWrite a then s else s.stage a v)
  else if a = 0x48008 then (if s.anyCtrl || !s.acceptsWrite a then s else s.putPair 0x48004 v)
  else if a = Reg.CMD_DIRTY_CAP_DIRTY_CAP.addr then s.ran (execDirtyCapWrite v s)
  else if a = Reg.LAY_GEOM_K.addr then s.putIf (geomOk v && !s.anyVolume) a v
  else if a = Reg.LAY_CTL_BUILD.addr then s.ran (execLayoutBuild v s)
  else if base = (Reg.LAY_MEMBER_PORT 0).addr then s.putIf (!s.flag Reg.DRV_CFG_WIDTH || getBits v 0 0 = 0) a v
  else s.put a v

/-- Blocks DRV, STR, SBD and HRN (R216). -/
def State.writeDrives (s : State) (base i a : Nat) (v : Word) : State :=
  if a = Reg.DRV_CFG_WIDTH.addr then s.putIf (getBits v 0 0 = s.fld Reg.DRV_CFG_WIDTH || !s.anyPort 0 64) a v
  else if base = (Reg.DRV_PORT_CFG_EN 0).addr then s.ran (execDrivePortEnable (Fin.ofNat 64 i) v s)
  else if a = Reg.HRN_CFG_EN.addr then s.ran (execHarnessEnable v s)
  else if a = Reg.HRN_CLAIM_KEY.addr then s.ran (execHrnClaimWrite v s)
  else s.put a v

/-- PWR_CTL: 3 is rejected (R317). -/
def State.writeReq (s : State) (v : Word) : State :=
  match getBits v 1 0 with
  | 0 => s.ran (execPowerReqRun s)
  | 1 => s.ran (execPowerReqSleep s)
  | 2 => s.ran (execPowerReqDeep s)
  | _ => s

/-- Blocks PWR, CLK and TEL: a domain or a clock follows its settings at once (R316, R337). -/
def State.writePower (s : State) (base i a : Nat) (v : Word) : State :=
  if a = Reg.PWR_CTL_REQ.addr then s.writeReq v
  else if a = Reg.PWR_VIN_CFG_WARN_TH.addr then s.putIf (decide (getBits v 15 8 + 10 ≤ getBits v 7 0)) a v
  else if base = (Reg.PWR_DOM_CFG_ON 0).addr then (s.put a v).domApply i
  else if base = (Reg.CLK_CD_CFG_RUN_EN 0).addr then (s.put a v).clockApply i
  else if base = (Reg.TEL_WIN_HEAD_HEAD 0).addr then s.ran (execTelWinHeadWrite (Fin.ofNat 8 i) v s)
  else if a = Reg.TEL_SMP_HEAD_HEAD.addr then s.ran (execTelSmpHeadWrite v s)
  else s.put a v

/-- A write of the register at `a`, which is element `i` of the array at `base`. -/
def State.writeReg (s : State) (base i a : Nat) (v : Word) : State :=
  if a < 0x4000 then s.writeTim base i a v
  else if a < 0xC000 then s.writePower base i a v
  else if a < 0x10000 then s.writeTim base i a v
  else if a < 0x18000 then s.writeCtl a v
  else if a < 0x30000 then s.writeFabric base i a v
  else if a < 0x48000 then s.writeXpt base i a v
  else if a < 0x60000 then s.writeStore base a v
  else if a < 0x78000 then s.writeDrives base i a v
  else if a < 0x90000 then s.put a v
  else if a < 0x98000 then s.writePower base i a v
  else s.put a v

/-- A BAR0 write of the wrong width, unaligned, or to an offset with no register is discarded; a read answers all ones, or 0 where
there is no register (R2). -/
def State.badAccess (s : State) (write : Bool) (width a : Nat) : State :=
  let ans : Word := if width ≠ 4 || a % 4 ≠ 0 then 0xFFFFFFFF else 0
  let s := if write then s else s.emit (.barAnswer a ans)
  s.raise Ev.BAR_ACCESS

/-- BAR_ACCESS_BAD (R2). -/
def execBarAccessBad (write : Bool) (width addr : Nat) (s : State) : Host.Outcome State Fault Refusal :=
  .next <| s.when (s.responds write addr && (width ≠ 4 || addr % 4 ≠ 0 || (regAt addr).isNone)) fun s => s.badAccess write width addr

/-- REGISTER_WRITE (R368, R371). -/
def execRegisterWrite (addr : Nat) (value : Word) (s : State) : Host.Outcome State Fault Refusal :=
  .next <| s.when (s.responds true addr) fun s =>
    if 0x102000 ≤ addr then { s with evt.msix := Assoc.set 0 s.evt.msix (addr - 0x102000) value }
    else match regAt addr with
    | none => s.badAccess true 4 addr
    | some (d, i, _) => s.writeReg d.base i addr value

/-- Clear the RC fields of the stored word of the register at `a`. -/
def clearedWord (a : Nat) (w : Word) : Word := (fieldsAt a).foldl (fun w f => if f.acc = .rc then setBits w f.hi f.lo 0 else w) w

/-- Clear the count of the selected policer that the register at `a` shows. -/
def State.clearPolicer (s : State) (a : Nat) : State :=
  let i := s.fld Reg.QOS_POL_SEL_INDEX
  if s.flag Reg.QOS_POL_SEL_STRICT then
    let q := (Assoc.get {} s.qos.stricts (i % 256) : Strict)
    let q : Strict := if a = 0x40404 then { q with cntG := 0 } else if a = 0x40408 then q else { q with cntR := 0 }
    { s with qos.stricts := Assoc.set {} s.qos.stricts (i % 256) q }
  else
    let p := s.policer i
    s.setPolicer i (if a = 0x40404 then { p with cntG := 0 } else if a = 0x40408 then { p with cntY := 0 } else { p with cntR := 0 })

/-- What a read clears, beside the RC fields that are plain storage: minima start again from the current value, and the next
dropped sample raises its event again. -/
def State.clearRead (s : State) (a : Nat) : State :=
  let n := s.fld Reg.TIM_SLOT_SEL_SLOT
  if a = Reg.TIM_SLOT_INFO_MISSED.addr then s.setSlot n { s.slot n with missed := 0 }
  else if a = Reg.SWC_BUF_MIN_MIN_FREE.addr then { s with swc.minFree := s.cellsFree }
  else if 0x40404 ≤ a ∧ a ≤ 0x4040C then s.clearPolicer a
  else if a = Reg.CMD_TAGS_MIN_MIN_FREE.addr then { s with cmdb.minTags := 65536 - s.cmdb.cmds.length }
  else if a = Reg.CPH_HOLD_MIN_MIN_FREE.addr then { s with cph.minFree := s.slotsHeldFree }
  else if a = Reg.PWR_THERM_TJ_MAX.addr then { s with pwr.tjMax := 0 }
  else if a = Reg.TEL_SMP_DROPPED_COUNT.addr then
    let s := { s with tel.sampling.dropRaised := false }
    s.setRg a (clearedWord a (s.rg a))
  else s.setRg a (clearedWord a (s.rg a))

/-- The read of a low word latches the high word of its quantity, and TIM_NOW_LO the fraction with it (R6, R22). -/
def State.latch (s : State) (a : Nat) : State :=
  match highOf a with
  | none => s
  | some h =>
    let sh := Assoc.set 0 s.shadow h (s.live h)
    { s with shadow := if a = 0xC008 then Assoc.set 0 sh 0xC010 (s.live 0xC010) else sh }

/-- Read the register at `a`: what it returns, and the state with its high word latched and its RC fields cleared. -/
def State.readReg (s : State) (a : Nat) : Word × State :=
  let (v, s) := (s.latch a).readValue a
  (v, s.clearRead a)

/-- READ_CLEAR_REGISTER (R5): a read answers the register's value and clears its RC fields; one of the doorbell page answers a value that
the manual does not give, and one of the MSI-X table the word that stands there (R41, log entry 118). -/
def execReadClearRegister (addr : Nat) (s : State) : Host.Outcome State Fault Refusal :=
  .next <| s.when (s.responds false addr) fun s =>
    if 0x102000 ≤ addr then s.emit (.barAnswer addr (Assoc.get 0 s.evt.msix (addr - 0x102000)))
    else if 0x100000 ≤ addr then
      let (v, s) := s.draw 32
      s.emit (.barAnswer addr v)
    else if (regAt addr).isNone then s.badAccess false 4 addr
    else
      let (v, s) := s.readReg addr
      s.emit (.barAnswer addr v)

/-- LOW_WORD_READ (R6, R22). -/
def execLowWordRead (addr : Nat) (s : State) : Host.Outcome State Fault Refusal :=
  .next <| s.when (s.responds false addr && (highOf addr).isSome) fun s => (s.latch addr).emit (.barAnswer addr (s.live addr))

/-! ### MOVE to and from the register image (Table 04-1) -/

/-- Whether `n` bytes from `a` are whole registers of the BAR0 image: aligned 32-bit words (R2). -/
def imageWords (a n : Nat) : Bool := a % 4 = 0 && n % 4 = 0

/-- Read `n` words of the BAR0 image from the offset `o`: each is the read of its register, and 0 with EVT_BAR_ACCESS where there is none. -/
def State.imageRead (s : State) (o : Nat) : Nat → List Byte × State
  | 0 => ([], s)
  | n + 1 =>
    let (v, s) := if (regAt o).isSome then s.readReg o else (0, s.raise Ev.BAR_ACCESS)
    let (bs, s) := s.imageRead (o + 4) n
    (leBytes 4 v.toNat ++ bs, s)

/-- Write words to the BAR0 image from the offset `o`. -/
def State.imageWrite (s : State) (o : Nat) : List Word → State
  | [] => s
  | v :: vs =>
    let t := match regAt o with
      | some (d, i, _) => s.writeReg d.base i o v
      | none => s.raise Ev.BAR_ACCESS
    t.imageWrite (o + 4) vs

/-- The little-endian words of a list of bytes. -/
def wordsOf (bs : List Byte) : List Word := (List.range (bs.length / 4)).map fun i => BitVec.ofNat 32 (leAt bs (4 * i) 4)

/-- The bytes MOVE reads from a place it may read. -/
def State.moveRead (s : State) (c : Call) (l : Loc) (n : Nat) : List Byte × State :=
  match l with
  | .cell h => ((Assoc.get [] s.swc.cells h ++ List.replicate n 0).take n, s)
  | .addr a =>
    if !inImage a then (s.bytes ((physAddr c.core a).getD 0) n, s)
    else if imageWords a n then s.imageRead (a - 0x02000000) (n / 4)
    else (List.replicate n 0xFF, s.raise Ev.BAR_ACCESS)

/-- MOVE writes bytes to a place it may write. -/
def State.moveWrite (s : State) (c : Call) (l : Loc) (d : List Byte) : State :=
  match l with
  | .cell h => { s with swc.cells := Assoc.set [] s.swc.cells h (d.take 256) }
  | .addr a =>
    if !inImage a then { s with mem := writeMem s.mem ((physAddr c.core a).getD 0) d }
    else if imageWords a d.length then s.imageWrite (a - 0x02000000) (wordsOf d)
    else s.raise Ev.BAR_ACCESS

/-- Whether a call may reach a place of MOVE. -/
def State.moveMay (s : State) (c : Call) (l : Loc) (n : Nat) (write : Bool) : Bool :=
  match l with
  | .cell _ => true
  | .addr a => (s.access c a n write).isSome

/-- MOVE (R67, Table 04-4): up to 2 MiB between addresses and cells; both addresses are checked before any byte moves. An access of the
BAR0 image is of its registers, under R2 to R6 (log entry 14). -/
def execMove (source dest : Loc) (length : Nat) (s : State) : Host.Outcome State Fault Refusal :=
  .next <| s.engine 4 fun c s =>
    if 0x200000 < length then (2, 0, s)
    else if !(s.moveMay c source length false && s.moveMay c dest length true) then (3, 0, s)
    else
      let (d, s) := s.moveRead c source length
      (0, length, s.moveWrite c dest d)

end Sys2Proof.Machine
end

