-- ==== Sys2Proof/Machine/Dispatch.lean ====
section
/-! DEFINITION. The one dispatch: each command to its meaning. -/
namespace Sys2Proof.Machine

def exec (i : Instr) (s : State) : Host.Outcome State Fault Refusal :=
  match i with
  | .barAccessBad write width addr => Sys2Proof.Machine.execBarAccessBad write width addr s
  | .registerWrite addr value => Sys2Proof.Machine.execRegisterWrite addr value s
  | .readClearRegister addr => Sys2Proof.Machine.execReadClearRegister addr s
  | .lowWordRead addr => Sys2Proof.Machine.execLowWordRead addr s
  | .ptpAnnounceRx sub master => Sys2Proof.Machine.execPtpAnnounceRx sub master s
  | .ptpSyncRx sub identity origin correction => Sys2Proof.Machine.execPtpSyncRx sub identity origin correction s
  | .ptpDelayRespRx sub resp => Sys2Proof.Machine.execPtpDelayRespRx sub resp s
  | .delayReqSend => Sys2Proof.Machine.execDelayReqSend s
  | .syncLossCheck => Sys2Proof.Machine.execSyncLossCheck s
  | .announceTimeout => Sys2Proof.Machine.execAnnounceTimeout s
  | .servoUpdate => Sys2Proof.Machine.execServoUpdate s
  | .holdoverMeanUpdate => Sys2Proof.Machine.execHoldoverMeanUpdate s
  | .stepShelfTime id => Sys2Proof.Machine.execStepShelfTime id s
  | .floorAdvance => Sys2Proof.Machine.execFloorAdvance s
  | .floorSave => Sys2Proof.Machine.execFloorSave s
  | .retentionReview => Sys2Proof.Machine.execRetentionReview s
  | .retentionLockExpire lock => Sys2Proof.Machine.execRetentionLockExpire lock s
  | .slotDoorbellFire slot => Sys2Proof.Machine.execSlotDoorbellFire slot s
  | .ringEnable value => Sys2Proof.Machine.execRingEnable value s
  | .ringDisable value => Sys2Proof.Machine.execRingDisable value s
  | .ctlDisableAll => Sys2Proof.Machine.execCtlDisableAll s
  | .cdbWrite offset width value => Sys2Proof.Machine.execCdbWrite offset width value s
  | .edbWrite offset width value => Sys2Proof.Machine.execEdbWrite offset width value s
  | .commandFetch ring desc env => Sys2Proof.Machine.execCommandFetch ring desc env s
  | .ringFault isEvent ring => Sys2Proof.Machine.execRingFault isEvent ring s
  | .eventEntryWrite ering => Sys2Proof.Machine.execEventEntryWrite ering s
  | .coalTimeExpire ering => Sys2Proof.Machine.execCoalTimeExpire ering s
  | .nop id => Sys2Proof.Machine.execNop id s
  | .identifyDevice id xferOk => Sys2Proof.Machine.execIdentifyDevice id xferOk s
  | .getNonce id => Sys2Proof.Machine.execGetNonce id s
  | .guardStormEnd => Sys2Proof.Machine.execGuardStormEnd s
  | .evtPendClear index value => Sys2Proof.Machine.execEvtPendClear index value s
  | .evtSrcCfgWrite value => Sys2Proof.Machine.execEvtSrcCfgWrite value s
  | .mgmtEndpointReset => Sys2Proof.Machine.execMgmtEndpointReset s
  | .funcWedged block => Sys2Proof.Machine.execFuncWedged block s
  | .autoReset => Sys2Proof.Machine.execAutoReset s
  | .glbResetWrite value => Sys2Proof.Machine.execGlbResetWrite value s
  | .pcall core funct7 rest address => Sys2Proof.Machine.execPcall core funct7 rest address s
  | .pwait core funct7 rest ticket => Sys2Proof.Machine.execPwait core funct7 rest ticket s
  | .ppoll core funct7 rest ticket => Sys2Proof.Machine.execPpoll core funct7 rest ticket s
  | .primitiveComplete core slot => Sys2Proof.Machine.execPrimitiveComplete core slot s
  | .parse profileOk output offsets => Sys2Proof.Machine.execParse profileOk output offsets s
  | .lookup table key output disagreements => Sys2Proof.Machine.execLookup table key output disagreements s
  | .extentCacheFill volume extent => Sys2Proof.Machine.execExtentCacheFill volume extent s
  | .atRestEncrypt job mismatch => Sys2Proof.Machine.execAtRestEncrypt job mismatch s
  | .ctrSaveDone => Sys2Proof.Machine.execCtrSaveDone s
  | .atRestDecrypt job mismatch reencrypt => Sys2Proof.Machine.execAtRestDecrypt job mismatch reencrypt s
  | .atRestVerify mismatch reencrypt => Sys2Proof.Machine.execAtRestVerify mismatch reencrypt s
  | .wireEncrypt mismatch => Sys2Proof.Machine.execWireEncrypt mismatch s
  | .wireDecrypt mismatch => Sys2Proof.Machine.execWireDecrypt mismatch s
  | .ecEncode => Sys2Proof.Machine.execEcEncode s
  | .ecUpdate => Sys2Proof.Machine.execEcUpdate s
  | .ecDecode => Sys2Proof.Machine.execEcDecode s
  | .move source dest length => Sys2Proof.Machine.execMove source dest length s
  | .send source sub conn => Sys2Proof.Machine.execSend source sub conn s
  | .ringProduce queue address length => Sys2Proof.Machine.execRingProduce queue address length s
  | .ringConsume queue address => Sys2Proof.Machine.execRingConsume queue address s
  | .ringDoorbell queue => Sys2Proof.Machine.execRingDoorbell queue s
  | .timeRead output => Sys2Proof.Machine.execTimeRead output s
  | .timeAllocate owner compare period action target => Sys2Proof.Machine.execTimeAllocate owner compare period action target s
  | .timeArm slot compare period action target => Sys2Proof.Machine.execTimeArm slot compare period action target s
  | .timeFree slot => Sys2Proof.Machine.execTimeFree slot s
  | .countAdd counter increment => Sys2Proof.Machine.execCountAdd counter increment s
  | .countRead counter => Sys2Proof.Machine.execCountRead counter s
  | .countReadClear counter => Sys2Proof.Machine.execCountReadClear counter s
  | .lockAcquire lock wait => Sys2Proof.Machine.execLockAcquire lock wait s
  | .lockGrant lock => Sys2Proof.Machine.execLockGrant lock s
  | .lockRelease lock => Sys2Proof.Machine.execLockRelease lock s
  | .hookReturn core code => Sys2Proof.Machine.execHookReturn core code s
  | .hookOverrun core => Sys2Proof.Machine.execHookOverrun core s
  | .hookFault core => Sys2Proof.Machine.execHookFault core s
  | .tackEccUncorrectable cluster => Sys2Proof.Machine.execTackEccUncorrectable cluster s
  | .tackEccCorrected cluster => Sys2Proof.Machine.execTackEccCorrected cluster s
  | .enrolExtensionKey id rsaOk mldsaOk => Sys2Proof.Machine.execEnrolExtensionKey id rsaOk mldsaOk s
  | .loadExtension id image => Sys2Proof.Machine.execLoadExtension id image s
  | .netPortEnable port value => Sys2Proof.Machine.execNetPortEnable port value s
  | .netPortDisable port value => Sys2Proof.Machine.execNetPortDisable port value s
  | .netLinkUp port sub => Sys2Proof.Machine.execNetLinkUp port sub s
  | .netLinkDown port sub => Sys2Proof.Machine.execNetLinkDown port sub s
  | .frameReceive port sub frame => Sys2Proof.Machine.execFrameReceive port sub frame s
  | .cutThroughStart frame => Sys2Proof.Machine.execCutThroughStart frame s
  | .frameFoundBad frame cause => Sys2Proof.Machine.execFrameFoundBad frame cause s
  | .frameTransmit port sub => Sys2Proof.Machine.execFrameTransmit port sub s
  | .bufferEccUncorrectable frame => Sys2Proof.Machine.execBufferEccUncorrectable frame s
  | .bufferEccCorrected => Sys2Proof.Machine.execBufferEccCorrected s
  | .reseqArrival egress frame => Sys2Proof.Machine.execReseqArrival egress frame s
  | .reseqDiscardReport egress conn seq => Sys2Proof.Machine.execReseqDiscardReport egress conn seq s
  | .reseqTimeout egress conn => Sys2Proof.Machine.execReseqTimeout egress conn s
  | .wredProfileCommit value => Sys2Proof.Machine.execWredProfileCommit value s
  | .tableEnable table value => Sys2Proof.Machine.execTableEnable table value s
  | .tableDisable table value => Sys2Proof.Machine.execTableDisable table value s
  | .ageLimitWrite table sweep value => Sys2Proof.Machine.execAgeLimitWrite table sweep value s
  | .learnEvent source => Sys2Proof.Machine.execLearnEvent source s
  | .learnApply => Sys2Proof.Machine.execLearnApply s
  | .pinEnd index => Sys2Proof.Machine.execPinEnd index s
  | .tableSweep table => Sys2Proof.Machine.execTableSweep table s
  | .tableEccUncorrectable table index => Sys2Proof.Machine.execTableEccUncorrectable table index s
  | .tableEccCorrected table => Sys2Proof.Machine.execTableEccCorrected table s
  | .tableRead id data => Sys2Proof.Machine.execTableRead id data s
  | .tableInsert id data => Sys2Proof.Machine.execTableInsert id data s
  | .tableDelete id data => Sys2Proof.Machine.execTableDelete id data s
  | .tableLock id data => Sys2Proof.Machine.execTableLock id data s
  | .tableUnlock id data => Sys2Proof.Machine.execTableUnlock id data s
  | .tableRehash id => Sys2Proof.Machine.execTableRehash id s
  | .rehashSwitch table => Sys2Proof.Machine.execRehashSwitch table s
  | .neighbourRequestRx addr sub => Sys2Proof.Machine.execNeighbourRequestRx addr sub s
  | .cmReqRx req => Sys2Proof.Machine.execCmReqRx req s
  | .cmRtuRx conn => Sys2Proof.Machine.execCmRtuRx conn s
  | .cmDreqRx conn => Sys2Proof.Machine.execCmDreqRx conn s
  | .cmDrepRx conn => Sys2Proof.Machine.execCmDrepRx conn s
  | .cmTmoExpire conn => Sys2Proof.Machine.execCmTmoExpire conn s
  | .quietTmoExpire conn => Sys2Proof.Machine.execQuietTmoExpire conn s
  | .sheathK1Rx conn msg => Sys2Proof.Machine.execSheathK1Rx conn msg s
  | .sheathK3Rx conn msg => Sys2Proof.Machine.execSheathK3Rx conn msg s
  | .keyTmoExpire conn => Sys2Proof.Machine.execKeyTmoExpire conn s
  | .capsuleRx pkt entry => Sys2Proof.Machine.execCapsuleRx pkt entry s
  | .pullSetupRx pkt setup => Sys2Proof.Machine.execPullSetupRx pkt setup s
  | .pullDoorbellRx pkt offset length value imm => Sys2Proof.Machine.execPullDoorbellRx pkt offset length value imm s
  | .deviceRegionRead pkt offset length => Sys2Proof.Machine.execDeviceRegionRead pkt offset length s
  | .rdmaRequestRx pkt op => Sys2Proof.Machine.execRdmaRequestRx pkt op s
  | .contextFetchDone conn eccBad => Sys2Proof.Machine.execContextFetchDone conn eccBad s
  | .ackSend conn => Sys2Proof.Machine.execAckSend conn s
  | .ackRx pkt => Sys2Proof.Machine.execAckRx pkt s
  | .nakRx pkt code => Sys2Proof.Machine.execNakRx pkt code s
  | .rnrWaitExpire conn => Sys2Proof.Machine.execRnrWaitExpire conn s
  | .retransmitDeadline conn => Sys2Proof.Machine.execRetransmitDeadline conn s
  | .readResponseRx pkt payload => Sys2Proof.Machine.execReadResponseRx pkt payload s
  | .cnpRx pkt => Sys2Proof.Machine.execCnpRx pkt s
  | .alphaPeriodExpire conn => Sys2Proof.Machine.execAlphaPeriodExpire conn s
  | .rateIncrease conn => Sys2Proof.Machine.execRateIncrease conn s
  | .xptEnable value => Sys2Proof.Machine.execXptEnable value s
  | .wheelTick => Sys2Proof.Machine.execWheelTick s
  | .enrolHost id => Sys2Proof.Machine.execEnrolHost id s
  | .grantNamespace id => Sys2Proof.Machine.execGrantNamespace id s
  | .revokeGrant id => Sys2Proof.Machine.execRevokeGrant id s
  | .registerMemoryKey tag => Sys2Proof.Machine.execRegisterMemoryKey tag s
  | .deregisterMemoryKey tag => Sys2Proof.Machine.execDeregisterMemoryKey tag s
  | .configurePolicer id => Sys2Proof.Machine.execConfigurePolicer id s
  | .freePolicer id => Sys2Proof.Machine.execFreePolicer id s
  | .configureShaper id => Sys2Proof.Machine.execConfigureShaper id s
  | .freeShaper id => Sys2Proof.Machine.execFreeShaper id s
  | .policerRelease conn => Sys2Proof.Machine.execPolicerRelease conn s
  | .loadSlalomList id data => Sys2Proof.Machine.execLoadSlalomList id data s
  | .slalomSwap list => Sys2Proof.Machine.execSlalomSwap list s
  | .slalomGateChange list => Sys2Proof.Machine.execSlalomGateChange list s
  | .setRebuildRate id => Sys2Proof.Machine.execSetRebuildRate id s
  | .commandStart conn => Sys2Proof.Machine.execCommandStart conn s
  | .nvmeRead tag => Sys2Proof.Machine.execNvmeRead tag s
  | .nvmeWrite tag headroom => Sys2Proof.Machine.execNvmeWrite tag headroom s
  | .writeDataFetch tag => Sys2Proof.Machine.execWriteDataFetch tag s
  | .nvmeWriteZeroes tag => Sys2Proof.Machine.execNvmeWriteZeroes tag s
  | .nvmeDatasetManagement tag ranges => Sys2Proof.Machine.execNvmeDatasetManagement tag ranges s
  | .nvmeFlush tag => Sys2Proof.Machine.execNvmeFlush tag s
  | .reservationRegister tag crkey nrkey => Sys2Proof.Machine.execReservationRegister tag crkey nrkey s
  | .reservationReport tag => Sys2Proof.Machine.execReservationReport tag s
  | .reservationAcquire tag crkey prkey => Sys2Proof.Machine.execReservationAcquire tag crkey prkey s
  | .reservationRelease tag crkey => Sys2Proof.Machine.execReservationRelease tag crkey s
  | .getLogPage tag => Sys2Proof.Machine.execGetLogPage tag s
  | .nvmeIdentify tag => Sys2Proof.Machine.execNvmeIdentify tag s
  | .nvmeAbort tag => Sys2Proof.Machine.execNvmeAbort tag s
  | .setFeatures tag => Sys2Proof.Machine.execSetFeatures tag s
  | .getFeatures tag => Sys2Proof.Machine.execGetFeatures tag s
  | .asyncEventRequest tag => Sys2Proof.Machine.execAsyncEventRequest tag s
  | .keepAlive tag => Sys2Proof.Machine.execKeepAlive tag s
  | .keepAliveExpire ctrl => Sys2Proof.Machine.execKeepAliveExpire ctrl s
  | .fabricsConnect tag data => Sys2Proof.Machine.execFabricsConnect tag data s
  | .propertyGet tag => Sys2Proof.Machine.execPropertyGet tag s
  | .propertySetEnable tag => Sys2Proof.Machine.execPropertySetEnable tag s
  | .propertySetReset tag => Sys2Proof.Machine.execPropertySetReset tag s
  | .propertySetShutdown tag => Sys2Proof.Machine.execPropertySetShutdown tag s
  | .fabricsDisconnect tag => Sys2Proof.Machine.execFabricsDisconnect tag s
  | .authenticationSend tag => Sys2Proof.Machine.execAuthenticationSend tag s
  | .authenticationReceive tag => Sys2Proof.Machine.execAuthenticationReceive tag s
  | .thawQueue tag => Sys2Proof.Machine.execThawQueue tag s
  | .dirtyCapWrite value => Sys2Proof.Machine.execDirtyCapWrite value s
  | .createNamespace id => Sys2Proof.Machine.execCreateNamespace id s
  | .deleteNamespace id => Sys2Proof.Machine.execDeleteNamespace id s
  | .activationQuiesced => Sys2Proof.Machine.execActivationQuiesced s
  | .activationAbandon => Sys2Proof.Machine.execActivationAbandon s
  | .activationResume => Sys2Proof.Machine.execActivationResume s
  | .layoutBuild value => Sys2Proof.Machine.execLayoutBuild value s
  | .createVolume id => Sys2Proof.Machine.execCreateVolume id s
  | .resizeVolume id => Sys2Proof.Machine.execResizeVolume id s
  | .deleteVolume id => Sys2Proof.Machine.execDeleteVolume id s
  | .destageStripeStart volume extent stripe reads => Sys2Proof.Machine.execDestageStripeStart volume extent stripe reads s
  | .journalPageWrite page => Sys2Proof.Machine.execJournalPageWrite page s
  | .recordOpen slot => Sys2Proof.Machine.execRecordOpen slot s
  | .stripeDataLanded slot => Sys2Proof.Machine.execStripeDataLanded slot s
  | .stripeParityLanded slot => Sys2Proof.Machine.execStripeParityLanded slot s
  | .mapGenAdvance => Sys2Proof.Machine.execMapGenAdvance s
  | .driveCompletion id result => Sys2Proof.Machine.execDriveCompletion id result s
  | .driveCmdTimeout id => Sys2Proof.Machine.execDriveCmdTimeout id s
  | .driveCfs member => Sys2Proof.Machine.execDriveCfs member s
  | .smartWarning member bits => Sys2Proof.Machine.execSmartWarning member bits s
  | .linkHoldExpire port => Sys2Proof.Machine.execLinkHoldExpire port s
  | .memberStateAck member => Sys2Proof.Machine.execMemberStateAck member s
  | .memberRestore sb drives => Sys2Proof.Machine.execMemberRestore sb drives s
  | .rebuildExtentStart reads bad => Sys2Proof.Machine.execRebuildExtentStart reads bad s
  | .rebuildExtentDone reads => Sys2Proof.Machine.execRebuildExtentDone reads s
  | .hedgeTimerExpire id => Sys2Proof.Machine.execHedgeTimerExpire id s
  | .suspectScrubStripe volume extent stripe reads => Sys2Proof.Machine.execSuspectScrubStripe volume extent stripe reads s
  | .startScrubPass id => Sys2Proof.Machine.execStartScrubPass id s
  | .stopScrubPass id => Sys2Proof.Machine.execStopScrubPass id s
  | .scrubStripe volume extent stripe reads => Sys2Proof.Machine.execScrubStripe volume extent stripe reads s
  | .scrubPassDone => Sys2Proof.Machine.execScrubPassDone s
  | .addMember id fails blocks => Sys2Proof.Machine.execAddMember id fails blocks s
  | .returnMember id => Sys2Proof.Machine.execReturnMember id s
  | .drainMember id => Sys2Proof.Machine.execDrainMember id s
  | .drainComplete member => Sys2Proof.Machine.execDrainComplete member s
  | .copybackDone row position => Sys2Proof.Machine.execCopybackDone row position s
  | .removeMember id => Sys2Proof.Machine.execRemoveMember id s
  | .drivePortEnable port value => Sys2Proof.Machine.execDrivePortEnable port value s
  | .driveLinkUp port rate lanes granted holder => Sys2Proof.Machine.execDriveLinkUp port rate lanes granted holder s
  | .driveLinkDown port dpc => Sys2Proof.Machine.execDriveLinkDown port dpc s
  | .driveAer port uncorrectable status => Sys2Proof.Machine.execDriveAer port uncorrectable status s
  | .driveMiEvent port event => Sys2Proof.Machine.execDriveMiEvent port event s
  | .presenceChange slot present => Sys2Proof.Machine.execPresenceChange slot present s
  | .i3cIbi bus address byte => Sys2Proof.Machine.execI3cIbi bus address byte s
  | .i3cNack bus address => Sys2Proof.Machine.execI3cNack bus address s
  | .slotConfigure id => Sys2Proof.Machine.execSlotConfigure id s
  | .slotLocate id => Sys2Proof.Machine.execSlotLocate id s
  | .slotEnable id => Sys2Proof.Machine.execSlotEnable id s
  | .slotDisable id => Sys2Proof.Machine.execSlotDisable id s
  | .slotShutdownDone slot answered => Sys2Proof.Machine.execSlotShutdownDone slot answered s
  | .slotGateOff slot => Sys2Proof.Machine.execSlotGateOff slot s
  | .slotClearTrip id => Sys2Proof.Machine.execSlotClearTrip id s
  | .rampThresholdReached slot meas => Sys2Proof.Machine.execRampThresholdReached slot meas s
  | .pgAssert slot meas => Sys2Proof.Machine.execPgAssert slot meas s
  | .pgLoss slot meas => Sys2Proof.Machine.execPgLoss slot meas s
  | .faultTimerStart slot meas => Sys2Proof.Machine.execFaultTimerStart slot meas s
  | .faultTimerStop slot meas => Sys2Proof.Machine.execFaultTimerStop slot meas s
  | .faultTimerExpire slot meas => Sys2Proof.Machine.execFaultTimerExpire slot meas s
  | .fastTrip slot meas => Sys2Proof.Machine.execFastTrip slot meas s
  | .rampTmoExpire slot => Sys2Proof.Machine.execRampTmoExpire slot s
  | .coolDownEnd slot => Sys2Proof.Machine.execCoolDownEnd slot s
  | .fetShort slot meas => Sys2Proof.Machine.execFetShort slot meas s
  | .retriesClear slot => Sys2Proof.Machine.execRetriesClear slot s
  | .perstDlyExpire slot => Sys2Proof.Machine.execPerstDlyExpire slot s
  | .peerPgReport slot => Sys2Proof.Machine.execPeerPgReport slot s
  | .harnessEnable value => Sys2Proof.Machine.execHarnessEnable value s
  | .harnessLinkUp peer => Sys2Proof.Machine.execHarnessLinkUp peer s
  | .harnessLaneFault lane => Sys2Proof.Machine.execHarnessLaneFault lane s
  | .harnessLinkDown => Sys2Proof.Machine.execHarnessLinkDown s
  | .flitBadRx unknownType => Sys2Proof.Machine.execFlitBadRx unknownType s
  | .linkFlitRx acked replay ordAck => Sys2Proof.Machine.execLinkFlitRx acked replay ordAck s
  | .crosspostRx pktId sub colour => Sys2Proof.Machine.execCrosspostRx pktId sub colour s
  | .orderRx entries => Sys2Proof.Machine.execOrderRx entries s
  | .mirrorAckRx bufs records => Sys2Proof.Machine.execMirrorAckRx bufs records s
  | .saddlebagRx kind slot seq cleared volume extent stripe off nblk mask pcrc => Sys2Proof.Machine.execSaddlebagRx kind slot seq cleared volume extent stripe off nblk mask pcrc s
  | .digestRx records => Sys2Proof.Machine.execDigestRx records s
  | .heartbeatRx beat => Sys2Proof.Machine.execHeartbeatRx beat s
  | .heartbeatSend => Sys2Proof.Machine.execHeartbeatSend s
  | .stateRx part => Sys2Proof.Machine.execStateRx part s
  | .controlRx msg => Sys2Proof.Machine.execControlRx msg s
  | .tlagDrop frame => Sys2Proof.Machine.execTlagDrop frame s
  | .digestWindowCompare => Sys2Proof.Machine.execDigestWindowCompare s
  | .digWaitExpire => Sys2Proof.Machine.execDigWaitExpire s
  | .selfCheckVerdict again made => Sys2Proof.Machine.execSelfCheckVerdict again made s
  | .silenceDeclare => Sys2Proof.Machine.execSilenceDeclare s
  | .arbitrationStart => Sys2Proof.Machine.execArbitrationStart s
  | .cinchMemberResult member result => Sys2Proof.Machine.execCinchMemberResult member result s
  | .arbCmdTmoExpire member => Sys2Proof.Machine.execArbCmdTmoExpire member s
  | .arbitrationDecided => Sys2Proof.Machine.execArbitrationDecided s
  | .arbRetryExpire => Sys2Proof.Machine.execArbRetryExpire s
  | .claimRoundDone => Sys2Proof.Machine.execClaimRoundDone s
  | .claimLost member => Sys2Proof.Machine.execClaimLost member s
  | .claimLinkWaitExpire => Sys2Proof.Machine.execClaimLinkWaitExpire s
  | .hrnClaimWrite value => Sys2Proof.Machine.execHrnClaimWrite value s
  | .pair id => Sys2Proof.Machine.execPair id s
  | .joinCutover => Sys2Proof.Machine.execJoinCutover s
  | .roleSwap id => Sys2Proof.Machine.execRoleSwap id s
  | .swapQuiesced => Sys2Proof.Machine.execSwapQuiesced s
  | .handover => Sys2Proof.Machine.execHandover s
  | .leavePair id => Sys2Proof.Machine.execLeavePair id s
  | .setEgressPolicy id => Sys2Proof.Machine.execSetEgressPolicy id s
  | .holdSlotGrant => Sys2Proof.Machine.execHoldSlotGrant s
  | .rotateDataKey id => Sys2Proof.Machine.execRotateDataKey id s
  | .resealExtent nsid extent reads => Sys2Proof.Machine.execResealExtent nsid extent reads s
  | .resealDone nsid => Sys2Proof.Machine.execResealDone nsid s
  | .importDataKey id secrets => Sys2Proof.Machine.execImportDataKey id secrets s
  | .destroyDataKey id => Sys2Proof.Machine.execDestroyDataKey id s
  | .enrolAdministrator id => Sys2Proof.Machine.execEnrolAdministrator id s
  | .revokeAdministrator id => Sys2Proof.Machine.execRevokeAdministrator id s
  | .setRetention id => Sys2Proof.Machine.execSetRetention id s
  | .loadFirmwareImage id image => Sys2Proof.Machine.execLoadFirmwareImage id image s
  | .activateFirmware id peerVersion => Sys2Proof.Machine.execActivateFirmware id peerVersion s
  | .soakComplete => Sys2Proof.Machine.execSoakComplete s
  | .securityRecordWritten ok => Sys2Proof.Machine.execSecurityRecordWritten ok s
  | .drbgReseed => Sys2Proof.Machine.execDrbgReseed s
  | .secSramEcc => Sys2Proof.Machine.execSecSramEcc s
  | .spdmGetVersion => Sys2Proof.Machine.execSpdmGetVersion s
  | .spdmGetCapabilities => Sys2Proof.Machine.execSpdmGetCapabilities s
  | .spdmNegotiateAlgorithms => Sys2Proof.Machine.execSpdmNegotiateAlgorithms s
  | .spdmGetDigests => Sys2Proof.Machine.execSpdmGetDigests s
  | .spdmGetCertificate slot offset length => Sys2Proof.Machine.execSpdmGetCertificate slot offset length s
  | .spdmChallenge sign => Sys2Proof.Machine.execSpdmChallenge sign s
  | .spdmGetMeasurements index sign => Sys2Proof.Machine.execSpdmGetMeasurements index sign s
  | .powerReqRun => Sys2Proof.Machine.execPowerReqRun s
  | .powerReqSleep => Sys2Proof.Machine.execPowerReqSleep s
  | .powerReqDeep => Sys2Proof.Machine.execPowerReqDeep s
  | .domainSwitchOff domain => Sys2Proof.Machine.execDomainSwitchOff domain s
  | .vinWarnAssert external vin => Sys2Proof.Machine.execVinWarnAssert external vin s
  | .drainPeerCheck => Sys2Proof.Machine.execDrainPeerCheck s
  | .drainDestageDone => Sys2Proof.Machine.execDrainDestageDone s
  | .drainDone => Sys2Proof.Machine.execDrainDone s
  | .vinWarnRelease => Sys2Proof.Machine.execVinWarnRelease s
  | .vinDrop => Sys2Proof.Machine.execVinDrop s
  | .powerUp => Sys2Proof.Machine.execPowerUp s
  | .railFault rail isOver => Sys2Proof.Machine.execRailFault rail isOver s
  | .xaTrip freq dev => Sys2Proof.Machine.execXaTrip freq dev s
  | .xbTrip freq dev => Sys2Proof.Machine.execXbTrip freq dev s
  | .fioTrip freq dev => Sys2Proof.Machine.execFioTrip freq dev s
  | .pllUnlock pll => Sys2Proof.Machine.execPllUnlock pll s
  | .pll6Relock => Sys2Proof.Machine.execPll6Relock s
  | .fioReady => Sys2Proof.Machine.execFioReady s
  | .fioStartTimeout => Sys2Proof.Machine.execFioStartTimeout s
  | .xtalTmoExpire xb => Sys2Proof.Machine.execXtalTmoExpire xb s
  | .clockGate domain => Sys2Proof.Machine.execClockGate domain s
  | .resetPin => Sys2Proof.Machine.execResetPin s
  | .resetRelease => Sys2Proof.Machine.execResetRelease s
  | .testReset => Sys2Proof.Machine.execTestReset s
  | .powerUpReplay maps namespaces locks copies => Sys2Proof.Machine.execPowerUpReplay maps namespaces locks copies s
  | .ioReady => Sys2Proof.Machine.execIoReady s
  | .readCounters id xferOk => Sys2Proof.Machine.execReadCounters id xferOk s
  | .configureWindow id => Sys2Proof.Machine.execConfigureWindow id s
  | .windowClose window => Sys2Proof.Machine.execWindowClose window s
  | .configureSampling id => Sys2Proof.Machine.execConfigureSampling id s
  | .telWinHeadWrite window value => Sys2Proof.Machine.execTelWinHeadWrite window value s
  | .telSmpHeadWrite value => Sys2Proof.Machine.execTelSmpHeadWrite value s
  | .telRingFault ring => Sys2Proof.Machine.execTelRingFault ring s
  | .thermalWarn sensor temp cooled => Sys2Proof.Machine.execThermalWarn sensor temp cooled s
  | .thermalTrip sensor temp => Sys2Proof.Machine.execThermalTrip sensor temp s
  | .thermalResetStart => Sys2Proof.Machine.execThermalResetStart s
  | .cqGatherExpire conn => Sys2Proof.Machine.execCqGatherExpire conn s
  | .joinHolderLost => Sys2Proof.Machine.execJoinHolderLost s
  | .resetNRelease => Sys2Proof.Machine.execResetNRelease s
  | .startupPllLock => Sys2Proof.Machine.execStartupPllLock s
  | .recordBankErased => Sys2Proof.Machine.execRecordBankErased s
  | .contextWritebackDone conn => Sys2Proof.Machine.execContextWritebackDone conn s

end Sys2Proof.Machine
end

