-- ==== Sys2Proof/Machine/Tick.lean ====
section
/-! DEFINITION. What an idle step does (log entry 1): the 8 ns tick of shelf time, the timer slots that it makes due (R21, R35, R37),
and the flits that leave (R353). -/
namespace Sys2Proof.Machine

/-- The most a slew may move shelf time in one tick, in 1/65,536 ns: SLEW_MAX ppm of 8 ns (R26). -/
def State.slewStep (s : State) : Nat := 524288 * s.fld Reg.TIM_SLEW_SLEW_MAX / 1000000

/-- What a slew in progress does in this tick. -/
def State.slewNow (s : State) : Int :=
  if s.tim.slewing then max (-(s.slewStep : Int)) (min (s.slewStep : Int) s.tim.slewLeft) else 0

/-- What the following of the holder takes back in this tick: shelf time never steps back (R29). -/
def State.followNow (s : State) : Int :=
  if s.tim.st = .twin then max (-(s.slewStep : Int)) (min 0 s.tim.followLeft) else 0

/-- How far shelf time advances in one tick, in 1/65,536 ns: 8 ns, the correction in force and the slew; it never steps back. -/
def State.tickAdvance (s : State) : Nat :=
  (524288 + s.tim.runCorr + (if s.tim.st = .twin then s.followNow else s.slewNow)).toNat

/-- Shelf time moves on by one tick (R21, R26). In TWIN the twin's own servo moves its own time (R29). Shelf time is kept as a number
without a bound (log entry 107). -/
def State.advance (s : State) : State :=
  let f := s.tim.frac + s.tickAdvance
  let left := s.tim.slewLeft - s.slewNow
  let own : Int := if s.tim.st = .twin then s.tim.ownDiff + s.tim.ownCorr + s.slewNow - s.followNow else s.tim.ownDiff
  { s with tim.ns := s.tim.ns + f / 65536, tim.frac := f % 65536, tim.slewLeft := left,
           tim.slewing := s.tim.slewing && decide (left ≠ 0), tim.ownDiff := own, tim.followLeft := s.tim.followLeft - s.followNow }

/-- The rank of a slot's action under R10: 0 claim and twin, 1 host I/O, 2 background (Table 02-3). -/
def Slot.rank (x : Slot) : Nat :=
  match x.action with
  | 0 => if x.owner = 2 || x.owner = 4 then 2 else 1
  | 1 => if x.target < 8 then 1 else 2
  | 2 => 2
  | _ => 0

/-- The slots due at the shelf time reached, in the order of R37: by rank, then by index. -/
def State.dueSlots (s : State) : List Nat :=
  let due := s.tim.slots.filter fun e => e.2.owner ≠ 0 && e.2.armed && decide (e.2.compare ≤ s.now)
  let of (r : Nat) : List Nat := (due.filter fun e => e.2.rank = r).map Prod.fst
  of 0 ++ of 1 ++ of 2

/-- A GATE slot that is not its list's own moves an enabled list to its next entry, and held commands whose gates open start (Table 02-3). -/
def State.advanceList (s : State) (l : Nat) : State :=
  let x := s.slalom l
  s.when (x.enabled && !x.cfg.entries.isEmpty) fun s =>
    let e := (x.entry.map (· + 1)).getD 0
    (s.setSlalom l { x with entry := some (if e < x.cfg.effective then e else 0) }).startHeld fun _ => true

/-- A slot that the TIME primitive allocated carries out its action on its target (Table 02-3): DOORBELL posts, GATE advances a list, WINDOW
closes a telemetry window and opens the next, HEARTBEAT sends a heartbeat, RETENTION with target 0 saves the floor and with another
target reviews the locks (log entry 40). -/
def State.timeAction (s : State) (n : Nat) : State :=
  let x := s.slot n
  match x.action with
  | 0 => if h : n < 512 then s.ran (execSlotDoorbellFire ⟨n, h⟩ s) else s
  | 1 => ((s.fire n).when (x.target < 12) fun s => s.advanceList x.target).timerHook n x.owner
  | 2 => ((s.fire n).when (x.target < 8 && (s.window x.target).enabled) fun s => s.windowEnds x.target).timerHook n x.owner
  | 3 => ((s.fire n).sendHeartbeat).timerHook n x.owner
  | 4 => (if x.target = 0 then (s.fire n).saveRecord [] else (s.fire n).reviewLocks).timerHook n x.owner
  | _ => s.fire n

/-- The firing of slot `n`, by the meaning of the row it is: slots 504 to 511 are those of R38, a feature's slot is its own, and any other is
one of the TIME primitive. -/
def State.fireSlot (s : State) (n : Nat) : State :=
  let x := s.slot n
  let l := Fin.ofNat 12 x.target
  let w := Fin.ofNat 8 x.target
  match n with
  | 504 => s.ran (execHeartbeatSend s)
  | 505 => s.ran (execFloorSave s)
  | 506 => s.ran (execRetentionReview s)
  | 507 => s.ran (execDelayReqSend s)
  | 508 => s.ran (execSyncLossCheck s)
  | 509 => s.ran (execAnnounceTimeout s)
  | 510 => s.ran (execServoUpdate s)
  | 511 => s.ran (execHoldoverMeanUpdate s)
  | _ =>
    if s.xpt.wheelSlot = some n then s.ran (execWheelTick s)
    else if (s.table 0).sweepSlot = some n then s.ran (execTableSweep 0 s)
    else if (s.table 1).sweepSlot = some n then s.ran (execTableSweep 1 s)
    else if x.action = 1 && (s.slalom l).slot = some n then
      s.ran (if (s.slalom l).swapFirst x.compare then execSlalomSwap l s else execSlalomGateChange l s)
    else if x.action = 2 && (s.window w).slot = some n then s.ran (execWindowClose w s)
    else s.timeAction n

/-! ### The Harness transmitter (R353) -/

/-- The messages of a type that one flit carries (Table 13-3, R254). -/
def FlitKind.pack : FlitKind → Nat
  | .order => 7
  | .saddlebag => 3
  | .digest => 29
  | _ => 1

/-- Send one flit of the first message of a type: what remains, and what its LAST flit delivers. -/
def flitOf (k : FlitKind) : List TwinMsg → List TwinMsg × List Out
  | [] => ([], [])
  | m :: ms =>
    if m.kind = k then (if m.left ≤ 1 then (ms, [m.out]) else ({ m with left := m.left - 1, started := true } :: ms, []))
    else
      let r := flitOf k ms
      (m :: r.1, r.2)

/-- Send one flit of a type, filled with as many of its messages as it holds. -/
def fillFlit (k : FlitKind) : Nat → List TwinMsg → List TwinMsg × List Out
  | 0, q => (q, [])
  | n + 1, q =>
    let r := flitOf k q
    let t := fillFlit k n r.1
    (t.1, r.2 ++ t.2)

/-- The type of the next flit (R353): LINK and HEARTBEAT at any flit boundary, then a message that has started (every STATE flit is a message of its own), then the claim-and-twin
types in their order, CROSSPOST and DIGEST in turn, and STATE with what is left. -/
def TwinTx.next (x : TwinTx) : Option FlitKind :=
  let has (k : FlitKind) : Bool := x.queue.any fun m => m.kind = k
  if has .link then some .link
  else if has .heartbeat then some .heartbeat
  else match x.queue.find? fun m => m.started && m.kind ≠ .state with
    | some m => some m.kind
    | none =>
      match [FlitKind.order, .mirrorAck, .saddlebag, .control].find? has with
      | some k => some k
      | none =>
        if has .crosspost && !(x.digestNext && has .digest) then some .crosspost
        else if has .digest then some .digest
        else if has .state && decide (240 ≤ x.stateCredit) then some .state
        else none

/-- Send one flit of a type. LINK and HEARTBEAT flits take none of the usable bandwidth. -/
def State.sendFlit (s : State) (k : FlitKind) : State :=
  let x := s.htx
  let r := fillFlit k k.pack x.queue
  let free := decide (k = .link) || decide (k = .heartbeat)
  let turn := if r.2 = [] then x.digestNext else if k = .crosspost then true else if k = .digest then false else x.digestNext
  { s with out := r.2.reverse ++ s.out,
           hrn.txFlit := s.hrn.txFlit + 1,
           htx := { x with queue := r.1, credit := if free then x.credit else x.credit - 240, digestNext := turn,
                           stateCredit := if k = .state then x.stateCredit - 240 else x.stateCredit } }

/-- Send flits while there are any to send, the link can carry them, and the replay buffer holds them: 4,096 not yet acknowledged, LINK flits
apart (R245). -/
def State.sendFlits : Nat → State → State
  | 0, s => s
  | f + 1, s =>
    match s.htx.next with
    | none => s
    | some k =>
      if s.htx.credit < 240 && k ≠ .link && k ≠ .heartbeat then s
      else if s.hrn.ackFlit + 4096 ≤ s.hrn.txFlit && k ≠ .link then s
      else (s.sendFlit k).sendFlits f

/-- Let the transmitter use the time that has passed: 375 bytes a ns, 187 on half width (R243), of which STATE takes JOIN_RATE at most. An
idle link saves nothing up. -/
def State.driveTwin (s : State) : State :=
  let x := s.htx
  if x.queue = [] then s
  else
    let dt := s.tim.ns - x.usedTo
    let rate := if s.hrn.lanes = 1 then 187 else 375
    let y := { x with usedTo := s.tim.ns, credit := x.credit + dt * rate,
                      stateCredit := min x.stateCredit 239 + dt * s.fld Reg.HRN_JOIN_RATE_JOIN_RATE }
    let n := (x.queue.map TwinMsg.left).sum
    let s := ({ s with htx := y }).sendFlits n
    if s.htx.queue = [] then { s with htx := { s.htx with credit := 0, stateCredit := 0 } } else s

/-- The writes that a SOLO twin has buffered wait for no peer (R247). -/
def State.settleSolo (s : State) : State :=
  if s.hrn.role = .solo && s.hrn.holder then
    ((s.cmdb.cmds.filter fun e => e.2.phase = .buffered).map Prod.fst).foldl State.buffered s
  else s

/-- One idle step: shelf time advances while VIN is present, and the Harness sends what waits; in a device that runs, up to 16 due slots fire (R37), frames whose last byte has come are
delivered, and what waited for a context to become evictable or for other commands is looked at again. -/
def State.tick (s : State) : State :=
  let s := if s.pwr.powered then s.advance.driveTwin else s
  s.when s.awake fun s => ((s.dueSlots.take 16).foldl State.fireSlot s).settleSolo.deliverDue.retryPages.endReplay.wakeFlush.evictWaiting.wakeMgmt

end Sys2Proof.Machine
end

