-- ==== Sys2Proof/Safety.lean ====
section
/-! DEFINITION. The terms the statements are written in: what it means that a management command is accepted, and what the
states of a safe run satisfy. -/
namespace Sys2Proof.Machine

/-- Started command `c` has identifier `id` and opcode `op`, satisfies `sel`, waits for nothing, and passes every check of R373 that comes
before its own meaning; `u` is the state in which its meaning begins (the guard has consumed its nonce, R53). -/
def State.Accepts (s : State) (id op : Nat) (rsvd : List (Nat × Nat)) (payOk : Nat → Bool) (sel : Descriptor → Bool)
    (c : Started) (u : State) : Prop :=
  s.ctl.started.find? (fun c => c.id = id && c.desc.opcode.toNat = op && !c.waits && sel c.desc) = some c ∧
  ∃ r, mgmtRow op = some r ∧
    ((c.ring = carriedRing ∧ u = s) ∨
     (c.ring ≠ carriedRing ∧ s.commonChecks r rsvd c.desc = none ∧
       ((r.guarded = false ∧ u = s) ∨
        (r.guarded = true ∧ s.guardBusy c = false ∧ s.sec.stopped = false ∧ s.runGuard c payOk = (u, none)))))

/-- Started command `c` of an unguarded row is accepted as it stands. -/
abbrev State.AcceptsPlain (s : State) (id op : Nat) (rsvd : List (Nat × Nat)) (c : Started) : Prop :=
  s.Accepts id op rsvd (fun _ => true) (fun _ => true) c s

/-- A packet given to the transport: the flow entry of its connection stands again (R112), its identity on the Harness and its CE
mark are known (R123, R247), and its ESN is in the window (R129). -/
def State.entered (s : State) (p : RxPkt) : State × RxInfo :=
  (((s.reinstall p.conn).infoOf p).1.updConn p.conn fun c => c.seeEsn p.esp, ((s.reinstall p.conn).infoOf p).2)

/-- Packet `p` is authentic and for a READY connection of an enabled transport, on a twin that names its own packets (R107, R129,
R246). -/
abbrev State.Authentic (s : State) (p : RxPkt) : Prop :=
  s.flag Reg.XPT_CFG_EN = true ∧ (s.conn p.conn).st = .ready ∧ (s.conn p.conn).authentic p.conn p = true ∧ s.follows = false ∧
  ((s.entered p).1.conn p.conn).st = .ready

/-- The state after a request packet is noted: its CE mark (R123), its context wanted resident (R125). -/
def State.noted (s : State) (p : RxPkt) : State := ((s.entered p).1.noteCe p.conn (s.entered p).2.ce).keepResident p.conn

/-- The same with its context used. -/
def State.heard (s : State) (p : RxPkt) : State := (s.noted p).touch p.conn

/-- The state in which a request with verdict `v` is obeyed: its RX order entry is formed (R246) and no drop of a burst stands
before it (R126). -/
def State.taken (s : State) (p : RxPkt) (v : Nat) : State :=
  let u := ((s.heard p).order p.conn (.rx (s.entered p).2.pktId p.psn v (s.entered p).2.colour)).1
  if v = 2 then u else u.updConn p.conn fun c => { c with parkDrop := none }

/-- Request `op` of packet `p` is in sequence for a resident context: authentic, fetching not stopped, its PSN the one expected
(R118), and not one that its kind's checks refuse (R114 to R116). -/
abbrev State.InSequence (s : State) (p : RxPkt) (op : ReqOp) : Prop :=
  s.Authentic p ∧ ((s.noted p).conn p.conn).residence = .resident ∧ (s.heard p).stopped = false ∧
  ((s.heard p).conn p.conn).parkDrop = none ∧ psnAhead ((s.heard p).conn p.conn).rqPsn p.psn = 0 ∧
  ((s.heard p).conn p.conn).refusal op = none ∧ ((s.taken p 0).conn p.conn).refusal op = none

/-- The state after a response packet is noted. -/
def State.heardAnswer (s : State) (p : RxPkt) : State :=
  (((s.entered p).1.keepResident p.conn).touch p.conn).noteCe p.conn (s.entered p).2.ce

/-- The state in which a response with verdict `v` acts: its RX order entry is formed (R246). -/
def State.answered (s : State) (p : RxPkt) (v : Nat) : State :=
  ((s.heardAnswer p).order p.conn (.rx (s.entered p).2.pktId p.psn v (s.entered p).2.colour)).1

/-- Persist-through-power-loss after a Reservation Register with this dword 10: CPTPL 2 clears it, 3 sets it, else it stays (R165). -/
def ptplAfter (cdw10 : Nat) (was : Bool) : Bool :=
  if cdw10 / 2 ^ 30 = 2 then false else if cdw10 / 2 ^ 30 = 3 then true else was

/-- The commands that may store to memory or lose it: the primitives that write cluster SRAM or HBM, the completion that writes a
call's descriptor, an image load, what may end the last invocation of an image whose successor waits (a hook's return, its overrun
or fault, and an exception at a primitive instruction), and what resets or switches a domain's RAM. -/
def stores : Instr → Bool
  | .atRestDecrypt .. | .atRestEncrypt .. | .wireDecrypt .. | .wireEncrypt .. | .ecDecode .. | .ecEncode ..
  | .ecUpdate .. | .lookup .. | .move .. | .parse .. | .ringConsume .. | .timeRead .. | .primitiveComplete .. | .loadExtension .. => true
  | .autoReset .. | .drainDone .. | .glbResetWrite .. | .handover .. | .powerReqDeep .. | .powerReqRun .. | .powerReqSleep ..
  | .powerUp .. | .registerWrite .. | .resetPin .. | .securityRecordWritten .. | .thermalResetStart .. | .vinDrop ..
  | .vinWarnAssert .. | .vinWarnRelease .. => true
  | .hookReturn .. | .hookOverrun .. | .hookFault .. | .pcall .. | .pwait .. | .ppoll .. => true
  | _ => false

end Sys2Proof.Machine
end

