-- ==== Sys2Proof/Certificates/Slice0/Obligations.lean ====
section
/-! DEFINITION. The statements for the provers: what the commands of the block do, stated from the rules of the manual. -/
open Sys2Proof Sys2Proof.Machine

/-- For every command c, every queue cs behind it and every state whose queue is c and then cs, the step is the command's own
effect on the state that holds cs. With nothing waiting the step is one idle tick of shelf time, which is the model's choice
(log entry 1). -/
def Obligations.StepRunsTheFrontCommand : Prop :=
  (∀ (c : Instr) (cs : List Instr) (s : State), (s.pending = c :: cs) →
      step s = exec c { s with pending := cs }) ∧
  (∀ (s : State), (s.pending = []) →
      step s = .next s.tick)

/-- Every register of every block reads back the reset value of its fields as the register tables give it; shown for one register
with a reset value other than 0 of the time, event, switch, table, transport and clock blocks. The queue and memory are empty,
memory is in its canonical form, shelf time is 0 and FREERUN, the device state is RUN with host I/O not admitted, no ring is
enabled and no command is started. Register values that the manual gives as fused, strapped or restored are 0 (the model's
choice, log entry 6). -/
def Obligations.ResetHoldsTheTablesValues : Prop :=
  (State.reset.pending = [] ∧ State.reset.mem = [] ∧ Memory.wf State.reset.mem = true ∧ State.reset.tim.st = .freerun ∧ State.reset.pwr.st = .run ∧
        State.reset.clk.ioReady = false ∧ State.reset.ctl.crings = [] ∧ State.reset.ctl.erings = [] ∧ State.reset.ctl.started = [] ∧
        State.reset.out = []) ∧
  (∀ (a : Nat), State.reset.rg a = resetWord a) ∧
  ((State.reset.readValue 0xC018).1 = 500 ∧ (State.reset.readValue 0xC01C).1 = 1000 ∧ (State.reset.readValue 0xC020).1 = 4 ∧
        (State.reset.readValue 0xC024).1 = 1000 ∧ (State.reset.readValue 0xC030).1 = 600)

/-- In any state whose memory lists addresses strictly rising and no byte equal to what an unlisted address reads as, whatever
command is at the front of the queue, or with the queue empty, the step answers a next state whose memory has that form too.
Equal memories are therefore equal data. The state after reset has it. -/
def Obligations.StepKeepsMemoryCanonical : Prop :=
  (∀ (s : State), (Memory.wf s.mem = true) →
      ∃ t, step s = .next t ∧ Memory.wf t.mem = true)

/-- For every command, with any operands, and every state, the effect of the command is a next state, never a fault and never a
refusal, and the commands that wait are the same as before in the same order. What a command is a block's input for stays with
the step. -/
def Obligations.CommandsLeaveTheQueueToTheStep : Prop :=
  (∀ (c : Instr) (s : State), ∃ t, exec c s = .next t ∧ t.pending = s.pending)

/-- Memory is cluster SRAM and HBM (Table 04-1). For every command but the primitives that write SRAM or HBM, a call's completion,
an image load, what may end an invocation whose image's successor waits, and what resets or switches a domain's RAM (stores),
and every state, the command answers a next state in which every byte of memory reads as before; so does one tick. -/
def Obligations.OnlyStoringCommandsChangeMemory : Prop :=
  (∀ (c : Instr) (s : State), (stores c = false) →
      ∃ t, exec c s = .next t ∧ t.mem = s.mem ∧ ∀ a, t.byte a = s.byte a) ∧
  (∀ (s : State) (a : Nat), s.tick.byte a = s.byte a)

/-- Storing a list of bytes from an address up makes each of those addresses read its byte, leaves every address below and above
as it was, and keeps the canonical form; storing what an unlisted address reads as takes the address off the list. Reading as
many bytes back from there gives the bytes stored. -/
def Obligations.WrittenBytesReadBackAndNoOthersChange : Prop :=
  (∀ (m : List Host.Cell) (a i : Nat) (b : List Byte), (i < b.length) →
      Assoc.get (0 : Byte) (writeMem m a b) (a + i) = b.getD i 0) ∧
  (∀ (m : List Host.Cell) (a j : Nat) (b : List Byte), (j < a ∨ a + b.length ≤ j) →
      Assoc.get (0 : Byte) (writeMem m a b) j = Assoc.get (0 : Byte) m j) ∧
  (∀ (s : State) (a : Nat) (b : List Byte), (Memory.wf s.mem = true) →
      ({ s with mem := writeMem s.mem a b } : State).bytes a b.length = b ∧ Memory.wf (writeMem s.mem a b) = true)

/-- An accepted Get Nonce, while the security core runs and no storm holds, issues a nonce that is outstanding with an expiry
NONCE_LIFE seconds of shelf time from now, in a list of at most 64. With 64 outstanding the oldest is discarded, with fewer
none is. An outstanding nonce is live exactly until its expiry. A guarded command whose envelope names it consumes it: after
that it is no longer live, and the guard passes only if it was live before. -/
def Obligations.NoncesAreIssuedForALifeAndUsedOnce : Prop :=
  (∀ (s : State) (id : Nat) (c : Started), (s.AcceptsPlain id 2 [(0, 40)] c ∧ s.sec.stopped = false ∧ s.ctl.storm = false) →
      ∃ t, exec (.getNonce id) s = .next t ∧ (⟨(s.random 128).1, s.now + s.fld Reg.CTL_GUARD_CFG_NONCE_LIFE * 1000000000⟩ : Nonce) ∈ t.ctl.nonces ∧
        t.ctl.nonces.length ≤ 64 ∧ ((∀ n ∈ s.ctl.nonces, s.now < n.expires) →
        t.ctl.nonces = (if s.ctl.nonces.length < 64 then s.ctl.nonces else s.ctl.nonces.drop (s.ctl.nonces.length - 63)) ++
        [⟨(s.random 128).1, s.now + s.fld Reg.CTL_GUARD_CFG_NONCE_LIFE * 1000000000⟩])) ∧
  (∀ (s : State) (τ E : Nat) (v : BitVec 128), ((⟨v, E⟩ : Nonce) ∈ s.ctl.nonces ∧ (∀ n ∈ s.ctl.nonces, n.value = v → n.expires = E)) →
      ({ s with tim.ns := τ } : State).nonceLive v = decide (τ < E)) ∧
  (∀ (s : State) (c : Started) (e : Envelope) (payOk : Nat → Bool), (c.env = some e ∧ envelopeOk c.desc e payOk = true ∧
        s.guardKeyOk c.desc e = true) →
      (s.runGuard c payOk).1.nonceLive e.nonce = false ∧ ((s.runGuard c payOk).2 = none → s.nonceLive e.nonce = true))

/-- A sealed block whose 64 bytes of metadata are zero opens as zeros under any keys, with none at all too. A run of one such
block releases 4,096 zero bytes, counts one in ZERO_READ and changes nothing else. An encryption takes its counter from
CTR_EPOCH and CTR_COUNT; while CTR_EPOCH is not 0, the metadata it writes with that counter is not all zero. -/
def Obligations.ZeroMetadataReadsAsZeros : Prop :=
  (∀ (s : State) (gens : List (Nat × List Byte)) (nsid gen lba : Nat) (ct : List Byte), (ct.length = 4096) →
      openBlock gens nsid lba gen (ct ++ List.replicate 64 0) = .zeros ∧
        s.openRun true gens nsid gen 1 lba (ct ++ List.replicate 64 0) 0 [] = (s.bump Reg.CPH_ZERO_READ_COUNT, 1, List.replicate 4096 0, true)) ∧
  (∀ (s u : State) (n k pre : Nat), (s.cph.ctrEpoch ≠ 0 ∧ s.cph.ctrEpoch < 2 ^ 24 ∧ s.cph.ctrCount < 2 ^ 40 ∧ s.takeCtrs n = (u, some k)) →
      ∀ (key d : List Byte) (g nsid lba gen : Nat), k = s.cph.ctrEpoch * 2 ^ 40 + s.cph.ctrCount ∧
        zeroAt ((sealBlock key g pre k nsid lba gen d).drop 4096) 0 64 = false)

/-- The check stands third in R373, after the opcode and the form of the descriptor. In DRAIN a started command of any other row,
whose descriptor is well formed, completes with DEVICE_DRAINING whatever its own meaning, its parameters and its envelope are;
the four are never refused for that reason. -/
def Obligations.DrainRefusesAllButFourCommands : Prop :=
  (∀ (s : State) (id op : Nat) (c : Started) (r : MgmtRow) (rs : List (Nat × Nat)) (pay : Nat → Bool) (sel : Descriptor → Bool) (body : Started →
        State → State), (s.pwr.st = .drain ∧ s.ctl.started.find? (fun c => c.id = id && c.desc.opcode.toNat = op && !c.waits && sel c.desc) = some c ∧
        mgmtRow op = some r ∧ c.ring ≠ carriedRing ∧ c.desc.wellFormed = true ∧ op ∉ [0x0000, 0x0001, 0x0100, 0x0801]) →
      s.runMgmt id op rs pay sel body = s.complete c .deviceDraining) ∧
  (∀ (s : State) (op : Nat) (r : MgmtRow) (rs : List (Nat × Nat)) (d : Descriptor), (mgmtRow op = some r ∧ op ∈ [0x0000, 0x0001, 0x0100, 0x0801]) →
      s.commonChecks r rs d ≠ some .deviceDraining)

/-- Whatever the state, raising a source sets its bit in EVT_PEND. With RING_EN it adds one to the undelivered count, which
saturates at its 16 bits; the occurrence that takes the count from 0 to 1 records DETAIL and TIME, and later ones keep them;
its settings and the counts kept for an earlier ring stay. With RING_EN 0 nothing but the bit changes. Every other source
stays as it is. An NMI source asserts ALERT_N whatever its settings. -/
def Obligations.OccurrencesAreCoalescedNeverDropped : Prop :=
  (∀ (s : State) (n : Nat) (d : List Nat), ((s.src n).ringEn = true) →
      (s.raise n d).src n = { s.src n with pend := true, count := if (s.src n).count = 0 then 1 else min ((s.src n).count + 1) 65535, detail := if (s.src n).count = 0 then d else (s.src n).detail, time := if (s.src n).count = 0 then s.now else (s.src n).time })
        ∧
  (∀ (s : State) (n : Nat) (d : List Nat), ((s.src n).ringEn = false) →
      (s.raise n d).src n = { s.src n with pend := true }) ∧
  (∀ (s : State) (n m : Nat) (d : List Nat), (m ≠ n) →
      (s.raise n d).src m = s.src m) ∧
  (∀ (s : State) (n : Nat) (d : List Nat), (srcClass n = .nmi) →
      (s.raise n d).alert = true)

/-- Completing a started command of a ring, whose completions are not dropped, on an event ring that takes completions (not in
error, and enabled or with slots still owed) and has a released slot, writes one completion entry at the ring's tail with the
command's ring, CID, status, head and results, moves the tail on by one, uses one reserved slot, and takes the command off the
started ones; every other ring stays as it is. With no released slot the completion waits behind those owed before it and
nothing is written. Where the command's completions are dropped, or its ring takes none, only the command comes off. A command
carried from the holder is answered to the peer instead. -/
def Obligations.CompletionsUseTheirReservedSlot : Prop :=
  (∀ (s : State) (c : Started) (st : MStatus) (r0 r1 : Nat), (c.ring ≠ carriedRing ∧ c.drop = false ∧ (s.ering c.ering).posts = true ∧
        (s.ering c.ering).owed = [] ∧ (s.ering c.ering).used < (s.ering c.ering).size) →
      .ringEntry c.ering (s.ering c.ering).tail (.completion (s.ering c.ering).phase c.ring c.desc.cid st.code c.chead r0 r1 s.now) ∈ (s.complete c st
        r0 r1).out ∧ ((s.complete c st r0 r1).ering c.ering).reserved = (s.ering c.ering).reserved - 1 ∧
        ((s.complete c st r0 r1).ering c.ering).tail = (s.ering c.ering).advance.tail ∧
        (s.complete c st r0 r1).ctl.started = s.ctl.started.filter (fun x => x.id ≠ c.id) ∧ ∀ n, n ≠ c.ering →
        (s.complete c st r0 r1).ering n = s.ering n) ∧
  (∀ (s : State) (c : Started) (st : MStatus) (r0 r1 : Nat), (c.ring ≠ carriedRing ∧ c.drop = false ∧ (s.ering c.ering).posts = true ∧
        ((s.ering c.ering).owed ≠ [] ∨ (s.ering c.ering).size ≤ (s.ering c.ering).used)) →
      s.complete c st r0 r1 = ({ s with ctl.started := s.ctl.started.filter fun x => x.id ≠ c.id } : State).setEring c.ering
        { s.ering c.ering with reserved := (s.ering c.ering).reserved - 1, owed := (s.ering c.ering).owed ++ [⟨c.ring, c.desc.cid, st.code, c.chead, r0, r1, s.now⟩] })
        ∧
  (∀ (s : State) (c : Started) (st : MStatus) (r0 r1 : Nat), (c.ring ≠ carriedRing ∧ (c.drop = true ∨ (s.ering c.ering).posts = false)) →
      s.complete c st r0 r1 = { s with ctl.started := s.ctl.started.filter fun x => x.id ≠ c.id }) ∧
  (∀ (s : State) (c : Started) (st : MStatus) (r0 r1 : Nat), (c.ring = carriedRing ∧ c.drop = false) →
      s.complete c st r0 r1 = ({ s with ctl.started := s.ctl.started.filter fun x => x.id ≠ c.id } : State).sendTwin (.controlMsg (.taken
        c.desc.opcode.toNat)))

/-- BAR0 accesses, in a state in which the device answers them. A write of any register of the map is that register's own write,
which its block's statements follow; of one that is plain storage (CPH, SEC, I3C: writing it sets nothing going) with every RW
field in range, on a twin that accepts it, it stores the written word field by field and carries it to the peer where it must,
and with a field out of range it is discarded whole. A read of any register answers its value, a high word its shadow, and
clears its RC fields as the register's own read does; a read of a low word answers the live value and latches the high word
into the shadow. The MSI-X table stores the word written and reads it back; what a read of the doorbell page answers is a free
value (the model's choice, log entry 118). An access of another width, unaligned, or with no register behind it changes no
register and raises EVT_BAR_ACCESS, a read answering all ones, or 0 where there is no register. -/
def Obligations.RegisterAccessesReadAndWriteWhatTheTablesSay : Prop :=
  (∀ (s : State) (a i j : Nat) (v : Word) (d : RegDesc), (s.responds true a = true ∧ a < 0x102000 ∧ regAt a = some (d, i, j)) →
      exec (.registerWrite a v) s = .next (s.writeReg d.base i a v)) ∧
  (∀ (s : State) (a : Nat) (v : Word), (s.responds true a = true ∧ 0x78000 ≤ a ∧ a < 0x90000 ∧ (regAt a).isSome = true ∧ s.acceptsWrite a = true ∧
        fieldsInRange a v = true) →
      exec (.registerWrite a v) s = .next ((s.setRg a (storedWord a (s.rg a) v)).carryReg a v)) ∧
  (∀ (s : State) (a : Nat) (v : Word), (s.responds true a = true ∧ 0x78000 ≤ a ∧ a < 0x90000 ∧ (regAt a).isSome = true ∧ fieldsInRange a v = false) →
      exec (.registerWrite a v) s = .next s) ∧
  (∀ (s : State) (a : Nat) (v : Word), (s.responds true a = true ∧ 0x102000 ≤ a) →
      exec (.registerWrite a v) s = .next { s with evt.msix := Assoc.set 0 s.evt.msix (a - 0x102000) v }) ∧
  (∀ (s : State) (a : Nat), (s.responds false a = true ∧ a < 0x100000 ∧ (regAt a).isSome = true ∧ shadowed a = false ∧ a ≠ 0x8010) →
      exec (.readClearRegister a) s = .next (((s.latch a).clearRead a).emit (.barAnswer a ((s.latch a).live a)))) ∧
  (∀ (s : State) (a : Nat), (s.responds false a = true ∧ a < 0x100000 ∧ (regAt a).isSome = true ∧ shadowed a = true) →
      exec (.readClearRegister a) s = .next (((s.latch a).clearRead a).emit (.barAnswer a (Assoc.get 0 (s.latch a).shadow a)))) ∧
  (∀ (s : State) (a : Nat), (s.responds false a = true ∧ 0x78010 ≤ a ∧ a < 0x90000 ∧ (regAt a).isSome = true ∧ shadowed a = false ∧ highOf a = none ∧
        a ≠ Reg.CPH_HOLD_MIN_MIN_FREE.addr) →
      exec (.readClearRegister a) s = .next ((s.setRg a (clearedWord a (s.rg a))).emit (.barAnswer a (s.live a)))) ∧
  (∀ (s : State) (a : Nat), (s.responds false a = true ∧ 0x102000 ≤ a) →
      exec (.readClearRegister a) s = .next (s.emit (.barAnswer a (Assoc.get 0 s.evt.msix (a - 0x102000))))) ∧
  (∀ (s : State) (a : Nat), (s.responds false a = true ∧ 0x100000 ≤ a ∧ a < 0x102000) →
      exec (.readClearRegister a) s = .next ((s.draw 32).2.emit (.barAnswer a (s.draw 32).1))) ∧
  (∀ (s : State) (a h : Nat), (s.responds false a = true ∧ highOf a = some h) →
      ∃ t, exec (.lowWordRead a) s = .next t ∧ t.out = .barAnswer a (s.live a) :: s.out ∧ Assoc.get 0 t.shadow h = s.live h ∧
        t = { s with shadow := t.shadow, out := t.out }) ∧
  (∀ (s : State) (width a : Nat), (s.responds false a = true ∧ (width ≠ 4 ∨ a % 4 ≠ 0)) →
      exec (.barAccessBad false width a) s = .next ((s.emit (.barAnswer a 0xFFFFFFFF)).raise Ev.BAR_ACCESS)) ∧
  (∀ (s : State) (width a : Nat), (s.responds true a = true ∧ (width ≠ 4 ∨ a % 4 ≠ 0 ∨ regAt a = none)) →
      exec (.barAccessBad true width a) s = .next (s.raise Ev.BAR_ACCESS)) ∧
  (∀ (s : State) (a : Nat), (s.responds false a = true ∧ a % 4 = 0 ∧ regAt a = none) →
      exec (.barAccessBad false 4 a) s = .next ((s.emit (.barAnswer a 0)).raise Ev.BAR_ACCESS))

/-- Table 17-6. The key written to GLB_RESET, RESET_N low, or 1 ms after a wedge with AUTO_RESET 1, begins a full-device reset of
a powered device that is in none: it is held for 10 µs, rings, event sources and started commands are gone, identity, fuses,
volumes and the memory above the cluster SRAM are as they were, and the cause bit is set; another value written to GLB_RESET
changes nothing. When RESET_N rises the hold by the pin ends. When the hold ends the start-up begins, and TRST_N resets
nothing but the TAP. Chapter 04, R71: a defined return code ends the invocation and tier 0 acts on it; an overrun or an
exception abandons it. Chapter 08: a gate slot of an enabled list that is due moves the list to the entry in force at that
instant. -/
def Obligations.ResetsKeepWhatTheTableKeeps : Prop :=
  (∀ (s : State), (s.pwr.powered = true ∧ s.pwr.railHold = false ∧ s.pwr.thermHold = false ∧ s.clk.resetHold = none) →
      ∃ t, exec (.glbResetWrite 0xD15CA4D0) s = .next t ∧ t.clk.resetHold = some (s.now + 10000) ∧ t.ctl = {} ∧ t.evt = {} ∧ t.tck = {} ∧
        t.shadow = [] ∧ t.glb = s.glb ∧ t.sec.fuse = s.sec.fuse ∧ t.lay.volumes = s.lay.volumes ∧
        t.mem = s.mem.filter (fun c => decide (0x1000000000 ≤ c.1)) ∧ t.flag Reg.GLB_RESET_CAUSE_SOFT = true ∧ t.pending = s.pending) ∧
  (∀ (s : State) (v : Word), (v ≠ 0xD15CA4D0) →
      exec (.glbResetWrite v) s = .next s) ∧
  (∀ (s : State), (s.pwr.powered = true ∧ s.clk.pinHeld = false ∧ s.pwr.railHold = false ∧ s.pwr.thermHold = false ∧ s.clk.resetHold = none) →
      ∃ t, exec .resetPin s = .next t ∧ t.clk.resetHold = some (s.now + 10000) ∧ t.clk.pinHeld = true ∧ t.ctl = {} ∧ t.glb = s.glb ∧
        t.sec.fuse = s.sec.fuse ∧ t.flag Reg.GLB_RESET_CAUSE_PIN = true) ∧
  (∀ (s : State) (w : Nat), (s.ctl.wedgedAt = some w ∧ s.flag Reg.GLB_WDOG_AUTO_RESET = true ∧ s.pwr.powered = true ∧ s.pwr.railHold = false ∧
        s.pwr.thermHold = false ∧ s.clk.resetHold = none) →
      ∃ t, exec .autoReset s = .next t ∧ t.clk.resetHold = some (max s.now (w + 1000000) + 10000) ∧ t.ctl = {} ∧ t.glb = s.glb ∧
        t.flag Reg.GLB_RESET_CAUSE_WEDGE = true) ∧
  (∀ (s : State), exec .resetNRelease s = .next { s with clk.pinHeld := false }) ∧
  (∀ (s : State) (e : Nat), (s.clk.resetHold = some e ∧ s.clk.pinHeld = false ∧ s.clk.fioReady = true) →
      exec .resetRelease s = .next (if s.clk.starting then (({ s.reach e with clk.resetHold := none, tim.corr := 0 }).startupBit 0).romOnFio else
        (({ s.reach e with clk.resetHold := none, tim.corr := 0 }).startupBit 0).boot)) ∧
  (∀ (s : State), exec .testReset s = .next s) ∧
  (∀ (s : State) (core : Fin 256) (code : Nat) (r : HookRun), (s.coreRuns core = true ∧ s.runOn core = some r ∧ code < hookCodes r.hook) →
      exec (.hookReturn core code) s = .next ((s.endRun core).hookAct r.hook r.subject code).hookBoundary) ∧
  (∀ (s : State) (core : Fin 256) (r : HookRun), (s.runOn core = some r) →
      exec (.hookOverrun core) s = .next (s.abandon r Ev.EXT_OVERRUN) ∧ exec (.hookFault core) s = .next (s.abandon r Ev.EXT_FAULT)) ∧
  (∀ (s : State) (l : Fin 12) (k : Nat), ((s.slalom l).slot = some k ∧ (s.slalom l).enabled = true ∧ (s.slot k).armed = true ∧
        (s.slalom l).swapFirst (s.slot k).compare = false) →
      exec (.slalomGateChange l) s = .next ((((s.reach (s.slot k).compare).setSlalom l
        { s.slalom l with entry := (s.slalom l).cfg.entryAt (max s.now (s.slot k).compare) }).setSlot k
        { s.slot k with compare := (s.slalom l).nextFire (max s.now (s.slot k).compare) }).gatesMoved l (s.gates l)))

/-- Chapter 02, the PTP client. With PTP enabled on an eligible sub-port whose link is up: an Announce of a supported master that
the default data set comparison prefers to the selected one (or that comes when none is selected, or is of the selected one)
makes it the selected grandmaster on that port; a Sync of the selected grandmaster keeps the offset of its origin from the
corrected receive timestamp, counts the run of Syncs within 100 ns or ends it, and a client in FREERUN, HOLDOVER or ACQUIRING
goes to (or stays in) ACQUIRING; a Delay_Resp of the mechanism in force gives the path delay, end to end or peer to peer; slot
507 fires and, with a grandmaster selected, the request is sent and its corrected egress timestamp kept. Nothing else of the
machine changes. Timestamps are in units of half a picosecond (the model's choice of unit). -/
def Obligations.PtpClientFollowsItsGrandmaster : Prop :=
  (∀ (s : State) (k : Fin 32) (m : PtpMaster), (s.ptpPort k = true ∧ s.ptpSupported m = true ∧ (∀ g ∈ s.tim.gm, betterMaster m g k s.tim.gmPort = true ∨
        (g.identity = m.identity ∧ s.tim.gmPort = k))) →
      exec (.ptpAnnounceRx k m) s = .next { s with tim.gm := some m, tim.gmPort := k, tim.announceSeen := true }) ∧
  (∀ (s : State) (k : Fin 32) (ident origin : Nat) (corr : Int), (s.ptpPort k = true ∧ s.tim.gmPort = k ∧
        s.tim.gm.map PtpMaster.identity = some ident ∧ s.tim.st ≠ .twin ∧ s.tim.st ≠ .locked) →
      ∃ t, exec (.ptpSyncRx k ident origin corr) s = .next t ∧ t.tim.st = .acquiring ∧
        t.tim.offset = ((origin : Int) + corr) * 2000 + s.tim.pathDelay - s.stampIn s.tim.gmPort ∧ t.tim.newOffset = true ∧ t.tim.missedSyncs = 0 ∧
        t.tim.goodSyncs = (if t.tim.offset.natAbs < 200000 then s.tim.goodSyncs + 1 else 0) ∧ t = { s with tim := t.tim }) ∧
  (∀ (s : State) (k : Fin 32) (ident origin : Nat) (corr : Int), (s.ptpPort k = true ∧ s.tim.gmPort = k ∧
        s.tim.gm.map PtpMaster.identity = some ident ∧ s.tim.st = .locked) →
      ∃ t, exec (.ptpSyncRx k ident origin corr) s = .next t ∧ t.tim.st = .locked ∧
        t.tim.offset = ((origin : Int) + corr) * 2000 + s.tim.pathDelay - s.stampIn s.tim.gmPort ∧ t.tim.newOffset = true ∧ t.tim.missedSyncs = 0 ∧
        t.tim.goodSyncs = (if t.tim.offset.natAbs < 200000 then s.tim.goodSyncs + 1 else 0) ∧ t = { s with tim := t.tim }) ∧
  (∀ (s : State) (k : Fin 32) (t4 : Nat), (s.ptpPort k = true ∧ s.tim.gmPort = k ∧ s.tim.gm ≠ none ∧ s.fld Reg.TIM_CTL_DELAY_MECH = 0) →
      exec (.ptpDelayRespRx k (.endToEnd t4)) s = .next
        { s with tim.pathDelay := ((s.tim.syncT2 - s.tim.syncT1) + ((t4 : Int) * 2000 - s.tim.reqT3)) / 2 }) ∧
  (∀ (s : State) (k : Fin 32) (t2 t3 : Nat), (s.ptpPort k = true ∧ s.tim.gmPort = k ∧ s.tim.gm ≠ none ∧ s.fld Reg.TIM_CTL_DELAY_MECH = 1) →
      exec (.ptpDelayRespRx k (.peerToPeer t2 t3)) s = .next
        { s with tim.pathDelay := ((s.stampIn s.tim.gmPort - s.tim.reqT3) - ((t3 : Int) - t2) * 2000) / 2 }) ∧
  (∀ (s : State), (s.flag Reg.TIM_CTL_PTP_EN = true ∧ s.tim.gm ≠ none) →
      ∃ t, exec .delayReqSend s = .next t ∧ t.out = .delayReq s.tim.gmPort (s.fld Reg.TIM_CTL_DELAY_MECH = 1) :: s.out ∧
        t.tim.reqT3 = t.stampOut s.tim.gmPort ∧ t = { s with tim := t.tim, out := t.out })

/-- Chapter 02, supervision of the servo. At slot 508, LOSS_INTERVALS intervals without a Sync take LOCKED to HOLDOVER, raising
EVT_TIME_HOLDOVER, and shelf time runs on the mean of the corrections of the last 16 s of LOCKED; so does at slot 509 an
interval without an Announce of the selected grandmaster, which is no longer selected; at slot 510 sixteen consecutive Syncs
within 100 ns take ACQUIRING to LOCKED with EVT_TIME_LOCKED; at slot 511, while LOCKED, the mean is brought up to date; Step
Shelf Time moves shelf time forward by the amount, raises EVT_TIME_STEP (with 1 for a command in its detail, the model's
choice, log entry 105) and completes; each millisecond of XA the floor advances by the advance of shelf time, clamped to 200
ppm, and holds while the XA monitor is tripped. -/
def Obligations.ServoLossHoldoverAndFloor : Prop :=
  (∀ (s : State), (s.tim.st = .locked ∧ s.tim.syncsSeen = false ∧ s.fld Reg.TIM_HOLD_LOSS_INTERVALS ≤ s.tim.missedSyncs + 1) →
      ∃ t, exec .syncLossCheck s = .next t ∧ t.tim.st = .holdover ∧ t.tim.corr = s.corrMean ∧ t.tim.slewing = false ∧
        t.src Ev.TIME_HOLDOVER = (s.src Ev.TIME_HOLDOVER).occur [] t.now ∧ t = { s with tim := t.tim, evt := t.evt, tel := t.tel }) ∧
  (∀ (s : State), (s.tim.st = .locked ∧ s.tim.announceSeen = false ∧ s.tim.gm ≠ none) →
      ∃ t, exec .announceTimeout s = .next t ∧ t.tim.st = .holdover ∧ t.tim.gm = none ∧ t.tim.corr = s.corrMean ∧ t.tim.slewing = false ∧
        t.src Ev.TIME_HOLDOVER = (s.src Ev.TIME_HOLDOVER).occur [] t.now ∧ t = { s with tim := t.tim, evt := t.evt, tel := t.tel }) ∧
  (∀ (s : State), (s.tim.st = .acquiring ∧ 16 ≤ s.tim.goodSyncs ∧ s.tim.newOffset = false) →
      ∃ t, exec .servoUpdate s = .next t ∧ t.tim.st = .locked ∧ t.src Ev.TIME_LOCKED = (s.src Ev.TIME_LOCKED).occur [] t.now ∧
        t = { s with tim := t.tim, evt := t.evt, tel := t.tel }) ∧
  (∀ (s : State), (s.tim.st = .locked) →
      ∃ t, exec .holdoverMeanUpdate s = .next t ∧ t.tim.meanCorr = s.corrMean ∧ (∀ e ∈ s.tim.corrs, s.corrSpan ≤ e.1 → e ∈ t.tim.corrs) ∧
        t = { s with tim := t.tim }) ∧
  (∀ (s : State) (id : Nat) (c : Started), (s.AcceptsPlain id 0x0003 [(0x08, 32)] c ∧ c.desc.par 0 8 ≠ 0 ∧ c.desc.par 0 8 < 2 ^ 63) →
      exec (.stepShelfTime id) s = .next ((s.commandStep (c.desc.par 0 8)).holderDone c (s.commandStep (c.desc.par 0 8)).now (c.desc.par 0 8)) ∧
        (s.commandStep (c.desc.par 0 8)).now = s.now + c.desc.par 0 8 ∧ ((s.commandStep (c.desc.par 0 8)).src Ev.TIME_STEP).pend = true) ∧
  (∀ (s : State), (s.clk.xaTripped = false) →
      exec .floorAdvance s = .next { s with tim.floorRef := s.now, tim.floorHold := false, tim.floor := s.tim.floor + min 1000200 (max 999800 (s.now - s.tim.floorRef)) })
        ∧
  (∀ (s : State), (s.clk.xaTripped = true) →
      ∃ t, exec .floorAdvance s = .next t ∧ t.tim.floor = s.tim.floor ∧ t.tim.floorHold = true ∧ (s.tim.floorHold = false →
        (t.src Ev.FLOOR_HOLD).pend = true))

/-- Chapter 03, rings. With no ring-wide condition against it, an event ring or a command ring whose size is in range is enabled
with its configured size, binding and vector and starts empty; a command ring is disabled by writing EN 0 with its size and
binding kept, and what it had fetched and not started is gone; an event ring to which no command ring is bound is disabled by
writing EN 0; CTL_DISABLE_ALL clears EN and leaves no ring enabled; a tail doorbell that moves the tail forward sets the tail
and nothing else, and one out of the ring's size changes no ring and raises EVT_DOORBELL_BAD; a head doorbell releases the
slots up to its index, into which the completions owed are written; a PCIe error puts an enabled ring in error with
EVT_RING_FAULT (its type and number in the detail are the model's choice, log entry 110); a reset of the management endpoint
leaves every ring at its reset values, discards started completions and raises EVT_MGMT_FLR (that the nonces stay is the
model's choice, log entry 112); the routing of the selected source changes. -/
def Obligations.RingsAreEnabledDisabledAndRung : Prop :=
  (∀ (s : State) (v : Word), (getBits v 0 0 = 1 ∧ s.selEvent = true ∧ 4 ≤ getBits v 5 1 ∧ getBits v 5 1 ≤ 16 ∧ (s.ering s.selRing).enabled = false ∧
        s.flag Reg.CTL_CFG_EN = true ∧ s.clk.bootDone = true) →
      exec (.ringEnable v) s = .next ((s.setEring s.selRing
        { base := (s.ering s.selRing).base, enabled := true, log2 := getBits v 5 1, vector := getBits v 15 8, coalCount := (s.ering s.selRing).coalCount, coalTime := (s.ering s.selRing).coalTime, reserved := s.owes s.selRing }).settleAll))
        ∧
  (∀ (s : State) (v : Word), (getBits v 0 0 = 1 ∧ s.selEvent = false ∧ 4 ≤ getBits v 4 1 ∧ getBits v 4 1 ≤ 12 ∧ (s.cring s.selRing).enabled = false ∧
        s.flag Reg.CTL_CFG_EN = true ∧ s.clk.bootDone = true ∧ (s.ering (getBits v 15 8)).enabled = true) →
      exec (.ringEnable v) s = .next (s.setCring s.selRing
        { base := (s.cring s.selRing).base, enabled := true, log2 := getBits v 4 1, ering := getBits v 15 8 })) ∧
  (∀ (s : State) (v : Word), (getBits v 0 0 = 0 ∧ s.selEvent = false ∧ 4 ≤ getBits v 4 1 ∧ getBits v 4 1 ≤ 12 ∧ (s.cring s.selRing).enabled = true ∧
        getBits v 4 1 = (s.cring s.selRing).log2 ∧ getBits v 15 8 = (s.cring s.selRing).ering) →
      exec (.ringDisable v) s = .next ((s.setCring s.selRing { s.cring s.selRing with enabled := false }).stopRing s.selRing)) ∧
  (∀ (s : State) (v : Word), (getBits v 0 0 = 0 ∧ s.selEvent = true ∧ 4 ≤ getBits v 5 1 ∧ getBits v 5 1 ≤ 16 ∧ (s.ering s.selRing).enabled = true ∧
        getBits v 5 1 = (s.ering s.selRing).log2 ∧ (s.eringBound s.selRing = false ∨ (s.ering s.selRing).err = true)) →
      exec (.ringDisable v) s = .next ((s.setEring s.selRing { s.ering s.selRing with enabled := false, vector := getBits v 15 8 }).settleAll)) ∧
  (∀ (s : State), ∃ t, exec .ctlDisableAll s = .next t ∧ t.fld Reg.CTL_CFG_EN = 0 ∧ (∀ e ∈ t.ctl.crings, e.2.enabled = false) ∧
        (∀ e ∈ t.ctl.erings, e.2.enabled = false) ∧ t = { s with regs := t.regs, ctl := t.ctl, evt := t.evt }) ∧
  (∀ (s : State) (n : Fin 256) (idx : Nat), ((s.cring n).enabled = true ∧ idx < (s.cring n).size ∧ idx < 2 ^ 16 ∧ idx ≠ (s.cring n).tail ∧
        ((s.cring n).tail + (s.cring n).size - (s.cring n).head) % (s.cring n).size ≤ (idx + (s.cring n).size - (s.cring n).head) % (s.cring n).size)
        →
      exec (.cdbWrite (4 * n.val) 4 (BitVec.ofNat 32 idx)) s = .next (s.setCring n { s.cring n with tail := idx })) ∧
  (∀ (s : State) (n : Fin 256) (idx : Nat), ((s.cring n).enabled = true ∧ (s.cring n).size ≤ idx ∧ idx < 2 ^ 16) →
      exec (.cdbWrite (4 * n.val) 4 (BitVec.ofNat 32 idx)) s = .next (s.raise Ev.DOORBELL_BAD [n.val, idx])) ∧
  (∀ (s : State) (n : Fin 256) (idx : Nat), ((s.ering n).enabled = true ∧ idx < (s.ering n).size ∧ idx < 2 ^ 16 ∧
        0 < (idx + (s.ering n).size - (s.ering n).head) % (s.ering n).size ∧
        (idx + (s.ering n).size - (s.ering n).head) % (s.ering n).size ≤ (s.ering n).used) →
      exec (.edbWrite (0x400 + 4 * n.val) 4 (BitVec.ofNat 32 idx)) s = .next ((s.setEring n
        { s.ering n with head := idx, used := (s.ering n).used - (idx + (s.ering n).size - (s.ering n).head) % (s.ering n).size }).writeOwed n
        (s.ering n).owed.length)) ∧
  (∀ (s : State) (n : Fin 256), ((s.cring n).enabled = true ∧ (s.cring n).err = false) →
      exec (.ringFault false n) s = .next (((s.setCring n { s.cring n with err := true }).stopRing n).raise Ev.RING_FAULT [0, n.val])) ∧
  (∀ (s : State) (n : Fin 256), ((s.ering n).enabled = true ∧ (s.ering n).err = false) →
      exec (.ringFault true n) s = .next ((s.setEring n { s.ering n with err := true }).raise Ev.RING_FAULT [1, n.val])) ∧
  (∀ (s : State), ∃ t, exec .mgmtEndpointReset s = .next t ∧ (∀ n, t.cring n = {} ∧ t.ering n = {}) ∧ (∀ c ∈ t.ctl.started, c.drop = true) ∧
        t.fld Reg.CTL_CFG_EN = 0 ∧ (t.src Ev.MGMT_FLR).pend = true ∧ t.ctl.nonces = s.ctl.nonces ∧
        t = { s with regs := t.regs, staged := t.staged, ctl := t.ctl, evt := t.evt, tel := t.tel }) ∧
  (∀ (s : State) (v : Word), ∃ t, exec (.evtSrcCfgWrite v) s = .next t ∧
        (let e := t.src (s.fld Reg.EVT_SRC_SEL_SRC); e.ringEn = decide (getBits v 0 0 = 1) ∧ e.alertEn = decide (getBits v 1 1 = 1) ∧
        e.ering = getBits v 15 8 ∧ e.pend = (s.src (s.fld Reg.EVT_SRC_SEL_SRC)).pend) ∧ t = { s with evt := t.evt })

/-- Chapter 03, commands. The ring whose turn it is has its head descriptor started, one completion slot reserved and the
round-robin pointer moved past it; an opcode outside Table 03-6 completes with INVALID_OPCODE. With FENCE the descriptor is
held while a command of its ring is started, and started at the ring's next turn. The next pending source's entry is written
with its count, which returns to 0; a count kept for a ring that the source left is written there. COAL_TIME after the first
unsignalled entry the ring's interrupt is sent. Nop completes; Identify Device writes its structure and completes; Get Nonce
issues a 16-byte draw valid for NONCE_LIFE seconds and completes with it; 10 s after the last failure the guard storm ends; a
W1C write clears the pending bits it names; a function that holds work and is wedged sets its bit and raises EVT_FUNC_WEDGED,
the command interface WEDGE_TMO after the start of its oldest command (which blocks hold work is the model's reading, log
entry 113). -/
def Obligations.CommandsAreFetchedAndAnswered : Prop :=
  (∀ (s : State) (n : Fin 256) (d : Descriptor) (env : Option Envelope), (s.nextRing = some n.val ∧ (s.cring n).fence = none ∧
        (d.fence && s.ringActive n) = false ∧ (mgmtRow d.opcode.toNat).isSome = true) →
      ∃ t, exec (.commandFetch n d env) s = .next t ∧ t.ctl.rr = (n.val + 1) % 256 ∧ (t.cring n).head = ((s.cring n).head + 1) % (s.cring n).size ∧
        (t.ering (s.cring n).ering).reserved = (s.ering (s.cring n).ering).reserved + 1 ∧
        t.ctl.started = s.ctl.started ++ [{ id := s.ctl.nextId, ring := n, ering := (s.cring n).ering, desc := d, env := env, chead := ((s.cring n).head + 1) % (s.cring n).size, time := s.now, waits := false, drop := false }] ∧
        t = { s with ctl := t.ctl }) ∧
  (∀ (s : State) (n : Fin 256) (d : Descriptor) (env : Option Envelope), (s.nextRing = some n.val ∧ (s.cring n).fence = none ∧
        (d.fence && s.ringActive n) = false ∧ mgmtRow d.opcode.toNat = none) →
      ∃ (u : State) (c : Started), exec (.commandFetch n d env) s = .next (u.complete c .invalidOpcode) ∧ u.ctl.started = s.ctl.started ++ [c] ∧
        c = { id := s.ctl.nextId, ring := n, ering := (s.cring n).ering, desc := d, env := env, chead := ((s.cring n).head + 1) % (s.cring n).size, time := s.now, waits := false, drop := false })
        ∧
  (∀ (s : State) (n : Fin 256) (d : Descriptor) (env : Option Envelope), (s.nextRing = some n.val ∧ (s.cring n).fence = none ∧
        (d.fence && s.ringActive n) = true) →
      ∃ t, exec (.commandFetch n d env) s = .next t ∧ (t.cring n).fence = some (d, env) ∧
        (t.cring n).head = ((s.cring n).head + 1) % (s.cring n).size ∧ t.ctl.started = s.ctl.started ∧
        (t.ering (s.cring n).ering).reserved = (s.ering (s.cring n).ering).reserved + 1) ∧
  (∀ (s : State) (n : Fin 256) (d d' : Descriptor) (env env' : Option Envelope), (s.nextRing = some n.val ∧ (s.cring n).fence = some (d, env) ∧
        (mgmtRow d.opcode.toNat).isSome = true) →
      ∃ t, exec (.commandFetch n d' env') s = .next t ∧ (t.cring n).fence = none ∧
        t.ctl.started = s.ctl.started ++ [{ id := s.ctl.nextId, ring := n, ering := (s.cring n).ering, desc := d, env := env, chead := (s.cring n).head, time := s.now, waits := false, drop := false }])
        ∧
  (∀ (s : State) (n : Fin 256) (i : Nat), (s.awake = true ∧ s.ctlRuns = true ∧ (s.ering n).enabled = true ∧ (s.ering n).err = false ∧
        0 < (s.ering n).free ∧ s.nextEntry n = some i ∧ (s.src i).old.find? (fun o => o.ring = n.val) = none) →
      ∃ t, exec (.eventEntryWrite n) s = .next t ∧ t.src i = { s.src i with count := 0, detail := [], time := 0 } ∧
        .ringEntry n (s.ering n).tail (.event (s.ering n).phase (srcClass i).code i (s.src i).count (s.src i).detail (s.src i).time) ∈ t.out ∧
        t = { s with ctl := t.ctl, evt := t.evt, out := t.out }) ∧
  (∀ (s : State) (n : Fin 256) (i : Nat) (o : OldCount), (s.awake = true ∧ s.ctlRuns = true ∧ (s.ering n).enabled = true ∧ (s.ering n).err = false ∧
        0 < (s.ering n).free ∧ s.nextEntry n = some i ∧ (s.src i).old.find? (fun o => o.ring = n.val) = some o) →
      ∃ t, exec (.eventEntryWrite n) s = .next t ∧ t.src i = { s.src i with old := (s.src i).old.filter fun o => o.ring ≠ n.val } ∧
        .ringEntry n (s.ering n).tail (.event (s.ering n).phase (srcClass i).code i o.count o.detail o.time) ∈ t.out ∧
        t = { s with ctl := t.ctl, evt := t.evt, out := t.out }) ∧
  (∀ (s : State) (n : Fin 256), ((s.ering n).enabled = true ∧ (s.ering n).coalTime ≠ 0 ∧ (s.ering n).unsignalled ≠ 0) →
      exec (.coalTimeExpire n) s = .next (((s.reach ((s.ering n).firstAt + (s.ering n).coalTime * 1000)).setEring n
        { s.ering n with unsignalled := 0 }).emit (.msix (s.ering n).vector))) ∧
  (∀ (s : State) (id : Nat) (c : Started), (s.AcceptsPlain id 0x0000 [(0, 40)] c) →
      exec (.nop id) s = .next (s.complete c .success)) ∧
  (∀ (s : State) (id : Nat) (c : Started), (s.AcceptsPlain id 0x0001 [(0, 40)] c ∧ c.desc.dataLen = 4096) →
      exec (.identifyDevice id true) s = .next ((s.emit (.hostData c.desc.dataPtr.toNat s.identify)).complete c .success)) ∧
  (∀ (s : State) (id : Nat) (c : Started), (s.AcceptsPlain id 0x0002 [(0, 40)] c ∧ s.sec.stopped = false ∧ s.ctl.storm = false) →
      ∃ t : State, exec (.getNonce id) s = .next (t.complete c .success ((s.random 128).1.toNat % 2 ^ 64) ((s.random 128).1.toNat / 2 ^ 64)) ∧
        ⟨(s.random 128).1, s.now + s.fld Reg.CTL_GUARD_CFG_NONCE_LIFE * 1000000000⟩ ∈ t.ctl.nonces ∧ t.ctl.nonces.length ≤ 64 ∧
        t = { s with ctl.nonces := t.ctl.nonces, sec.drbgRequests := s.sec.drbgRequests + 1, free := s.free + 1 }) ∧
  (∀ (s : State), (s.ctl.storm = true) →
      ∃ t, exec .guardStormEnd s = .next t ∧ t.ctl.storm = false ∧ t.ctl.fails = [] ∧ t.now = max s.now (s.ctl.lastFail + 10000000000) ∧
        t = { s with tim := t.tim, ctl := t.ctl }) ∧
  (∀ (s : State) (n : Fin 24) (v : Word), ∃ t, exec (.evtPendClear n v) s = .next t ∧ (∀ b, b < 32 →
        (t.src (32 * n + b)).pend = ((s.src (32 * n + b)).pend && !v.getLsbD b)) ∧ t = { s with evt.srcs := t.evt.srcs }) ∧
  (∀ (s : State) (b : Fin 22), (b.val ≠ 4 ∧ s.holdsWork b = true ∧ s.ctl.wedged.getLsbD b = false) →
      exec (.funcWedged b) s = .next (({ s with ctl.wedged := s.ctl.wedged ||| BitVec.ofNat 22 (2 ^ b.val), ctl.wedgedAt := some (s.ctl.wedgedAt.getD s.now) }).raise
        Ev.FUNC_WEDGED [b.val])) ∧
  (∀ (s : State) (c : Started) (cs : List Started), (s.ctl.started = c :: cs ∧ s.ctl.wedged.getLsbD 4 = false) →
      ∃ t, exec (.funcWedged 4) s = .next t ∧ t.ctl.wedged = s.ctl.wedged ||| 16 ∧
        t.now = max s.now (c.time + s.fld Reg.GLB_WDOG_WEDGE_TMO * 1000000 + 1) ∧ (t.src Ev.FUNC_WEDGED).pend = true ∧ t.ctl.started = s.ctl.started)

/-- Chapter 04, calls of a core that runs. PCALL of a primitive of Table 04-2 with a call slot free, whose descriptor the core may
read, issues the call: its ticket goes to rd and the call joins the list with the slot and the sequence the core takes next
(which ones is the model's choice, log entry 114); with 16 calls outstanding the core stalls. A word with an undefined funct7
or funct3, or an rs2 other than x0, is an illegal instruction. PWAIT and PPOLL hand over the outcome of a completed call,
after which the ticket is no longer there; a ticket of no call reads STALE; with the call still running PPOLL reads PENDING
and PWAIT keeps the core waiting. PRIMITIVE_COMPLETE writes STATUS and RESULT at 0x38 and 0x3C of the descriptor and marks the
call done, then tells the caller that waits or asked for a notification and lets a stalled call of the core in. A slot with
action DOORBELL posts its number to the queue of its target, and the TIMER hook of an extension's slot runs. An uncorrectable
error of cluster SRAM stops the cluster with EVT_TACK_ECC_FATAL, and a corrected one is counted. -/
def Obligations.PrimitiveCallsIssueAndComplete : Prop :=
  (∀ (s : State) (core : Fin 256) (f : BitVec 7) (r : BitVec 25) (w : Word) (a : Nat), (s.coreRuns core = true ∧ getBits w 24 20 = 0 ∧
        getBits w 14 12 = 0 ∧ getBits w 31 25 ≤ 9 ∧ s.mayReadAt core a = true ∧ (s.outstanding core).length < 16 ∧ (s.inTier1 core = true →
        s.tier1May (getBits w 31 25) = true) ∧ w = customWord f r) →
      ∃ t, exec (.pcall core f r a) s = .next t ∧ .coreResult core (getBits w 11 7) ((s.newTicket core).1 + 16 * (s.newTicket core).2) ∈ t.out ∧
        (∃ c, t.tck.calls = s.tck.calls ++ [c] ∧ c.core = core.val ∧ c.slot = (s.newTicket core).1 ∧ c.prim = getBits w 31 25 ∧ c.done = false) ∧
        t = { s with regs := t.regs, tck := t.tck, out := t.out }) ∧
  (∀ (s : State) (core : Fin 256) (f : BitVec 7) (r : BitVec 25) (w : Word) (a : Nat), (s.coreRuns core = true ∧ getBits w 24 20 = 0 ∧
        getBits w 14 12 = 0 ∧ getBits w 31 25 ≤ 9 ∧ s.mayReadAt core a = true ∧ 16 ≤ (s.outstanding core).length ∧ w = customWord f r) →
      exec (.pcall core f r a) s = .next { s with tck.stalls := s.tck.stalls ++ [⟨core, getBits w 31 25, a, getBits w 11 7⟩] }) ∧
  (∀ (s : State) (core : Fin 256) (f : BitVec 7) (r : BitVec 25) (w : Word) (a : Nat) (k : BitVec 64), (s.coreRuns core = true ∧
        (getBits w 24 20 ≠ 0 ∨ 3 ≤ getBits w 14 12 ∨ (getBits w 14 12 = 0 ∧ 9 < getBits w 31 25) ∨ (getBits w 14 12 ≠ 0 ∧ getBits w 31 25 ≠ 0)) ∧
        w = customWord f r) →
      exec (.pcall core f r a) s = .next (s.exception core (.illegalInstruction core)) ∧
        exec (.pwait core f r k) s = .next (s.exception core (.illegalInstruction core)) ∧
        exec (.ppoll core f r k) s = .next (s.exception core (.illegalInstruction core))) ∧
  (∀ (s : State) (core : Fin 256) (f : BitVec 7) (r : BitVec 25) (w : Word) (k : BitVec 64) (c : Call), (s.coreRuns core = true ∧
        getBits w 24 20 = 0 ∧ getBits w 31 25 = 0 ∧ s.callOf core k.toNat = some c ∧ c.done = true ∧ w = customWord f r) →
      (getBits w 14 12 = 1 → exec (.pwait core f r k) s = .next (s.take c (getBits w 11 7))) ∧ (getBits w 14 12 = 2 →
        exec (.ppoll core f r k) s = .next (s.take c (getBits w 11 7)))) ∧
  (∀ (s : State) (core : Fin 256) (f : BitVec 7) (r : BitVec 25) (w : Word) (k : BitVec 64) (c : Call), (s.coreRuns core = true ∧
        getBits w 24 20 = 0 ∧ getBits w 31 25 = 0 ∧ s.callOf core k.toNat = some c ∧ c.done = false ∧ w = customWord f r) →
      (getBits w 14 12 = 1 → exec (.pwait core f r k) s = .next { s with tck.waits := s.tck.waits ++ [⟨core, k.toNat, getBits w 11 7⟩] }) ∧
        (getBits w 14 12 = 2 → exec (.ppoll core f r k) s = .next (s.emit (.coreResult core (getBits w 11 7) (outcomeOf 0xFFFF 0))))) ∧
  (∀ (s : State) (core : Fin 256) (f : BitVec 7) (r : BitVec 25) (w : Word) (k : BitVec 64), (s.coreRuns core = true ∧ getBits w 24 20 = 0 ∧
        getBits w 31 25 = 0 ∧ s.callOf core k.toNat = none ∧ w = customWord f r) →
      (getBits w 14 12 = 1 → exec (.pwait core f r k) s = .next (s.emit (.coreResult core (getBits w 11 7) (outcomeOf 0xFFFE 0)))) ∧
        (getBits w 14 12 = 2 → exec (.ppoll core f r k) s = .next (s.emit (.coreResult core (getBits w 11 7) (outcomeOf 0xFFFE 0))))) ∧
  (∀ (s : State) (core : Fin 256) (slot : Fin 16) (c : Call), (s.tck.calls.find? (fun c => c.core = core.val && c.slot = slot.val && !c.done &&
        c.res.isSome) = some c) →
      exec (.primitiveComplete core slot) s = .next (((s.closeCall c).tellCaller core c).unstall core)) ∧
  (∀ (s : State) (core : Fin 256) (slot : Fin 16) (c : Call) (st r : Nat), (s.tck.calls.find? (fun c => c.core = core.val && c.slot = slot.val &&
        !c.done && c.res.isSome) = some c ∧ c.res = some (st, r) ∧ c.addr ≠ 0 ∧ c.notify = false ∧ c.orphan = false ∧
        (∀ x ∈ s.tck.waits, x.core ≠ core.val) ∧ (∀ x ∈ s.tck.stalls, x.core ≠ core.val)) →
      exec (.primitiveComplete core slot) s = .next
        { s with mem := writeMem (writeMem s.mem (c.addr + 0x38) (leBytes 2 st)) (c.addr + 0x3C) (leBytes 4 r), tck.calls := s.tck.calls.map fun x => if x.core = c.core && x.ticket = c.ticket && !x.done then { x with done := true } else x })
        ∧
  (∀ (s : State) (n : Fin 512), ((s.slot n).owner ≠ 0 ∧ (s.slot n).owner ≠ 2 ∧ (s.slot n).armed = true ∧ (s.slot n).action = 0 ∧
        s.xpt.wheelSlot ≠ some n.val) →
      exec (.slotDoorbellFire n) s = .next (((s.fire n).post ((s.slot n).target / 65536) ((s.slot n).target % 65536) n).timerHook n (s.slot n).owner))
        ∧
  (∀ (s : State) (k : Fin 32), exec (.tackEccUncorrectable k) s = .next
        (({ s with tck.clusters := Assoc.set {} s.tck.clusters k.val { stopped := true } }).raise Ev.TACK_ECC_FATAL [k.val]) ∧
        exec (.tackEccCorrected k) s = .next ((s.bump (Reg.TCK_CLUSTER_STATUS_ECC_CE k)).raise Ev.TACK_ECC [k.val]))

/-- Chapter 04, engines. For the call an engine takes next: MOVE of at most 2 MiB copies the bytes of its source, memory, a buffer
cell or registers, to its destination, and between two memory addresses the bytes of the one to the place of the other; PARSE
writes the offsets to its output address with a free flow hash as RESULT; RING_PRODUCE puts the entry read from memory at the
queue's tail, RING_CONSUME takes its oldest entry to memory, RING_DOORBELL rings with the tail; TIME_READ writes shelf time to
the output address. Each answers SUCCESS with the RESULT of Table 04-4. A MOVE of an address the call may not reach moves
nothing and answers BAD_ADDR. -/
def Obligations.EnginesServeTheCalls : Prop :=
  (∀ (s : State) (c : Call) (src dst : Loc) (n : Nat), (s.nextCall 4 = some c ∧ n ≤ 0x200000 ∧ s.moveMay c src n false = true ∧
        s.moveMay c dst n true = true) →
      exec (.move src dst n) s = .next (((s.moveRead c src n).2.moveWrite c dst (s.moveRead c src n).1).answer c 0 n)) ∧
  (∀ (s : State) (c : Call) (src dst n p q : Nat), (s.nextCall 4 = some c ∧ n ≤ 0x200000 ∧ inImage src = false ∧ inImage dst = false ∧
        s.access c src n false = some p ∧ s.access c dst n true = some q) →
      exec (.move (.addr src) (.addr dst) n) s = .next (({ s with mem := writeMem s.mem q (s.bytes p n) }).answer c 0 n)) ∧
  (∀ (s : State) (c : Call) (src dst : Loc) (n : Nat), (s.nextCall 4 = some c ∧ n ≤ 0x200000 ∧ (s.moveMay c src n false = false ∨
        s.moveMay c dst n true = false)) →
      exec (.move src dst n) s = .next (s.answer c 3 0)) ∧
  (∀ (s : State) (c : Call) (o p : Nat) (offs : List Byte), (s.nextCall 0 = some c ∧ s.access c o offs.length true = some p) →
      exec (.parse true o offs) s = .next (({ s with mem := writeMem s.mem p offs, free := s.free + 1 }).answer c 0 (Config.freeBits 32
        s.free).toNat)) ∧
  (∀ (s : State) (c : Call) (q a n p : Nat), (s.nextCall 6 = some c ∧ q ≤ 74239 ∧ s.access c a n false = some p) →
      exec (.ringProduce q a n) s = .next ((s.setQueue q
        { s.queue q with tail := (s.queue q).tail + 1, entries := (s.queue q).entries ++ [s.bytes p n] }).answer c 0 ((s.queue q).tail + 1))) ∧
  (∀ (s : State) (c : Call) (q a p : Nat) (e : List Byte) (es : List (List Byte)), (s.nextCall 6 = some c ∧ q ≤ 74239 ∧
        (s.queue q).entries = e :: es ∧ s.access c a e.length true = some p) →
      exec (.ringConsume q a) s = .next ((({ s with mem := writeMem s.mem p e }).setQueue q
        { s.queue q with head := (s.queue q).head + 1, entries := es }).answer c 0 ((s.queue q).head + 1))) ∧
  (∀ (s : State) (c : Call) (q : Nat), (s.nextCall 6 = some c ∧ q ≤ 74239) →
      exec (.ringDoorbell q) s = .next ((s.emit (.queueDoorbell q (s.queue q).tail)).answer c 0 (s.queue q).tail)) ∧
  (∀ (s : State) (c : Call) (o p : Nat), (s.nextCall 7 = some c ∧ s.access c o 8 true = some p) →
      exec (.timeRead o) s = .next (({ s with mem := writeMem s.mem p (leBytes 8 s.now) }).answer c 0 0))

/-- Chapter 04, TIME, COUNT and LOCK. An allocation with a defined action takes the lowest free slot, arms it and answers its
number, for tier 1 below its 256 slots and with owner 7 (an owner 0 given by tier 0 becomes 3, the model's choice, log entry
117); arming and freeing act on an allocated slot of 0 to 503, for tier 1 on its own; tier 0 gets BAD_DESC for slots 504 to
511, which neither arm nor free; COUNT adds, reads, or reads and clears a counter below 4,096, for tier 1 from 3,840 on; a
free lock is acquired for the caller, a held one answers BUSY without the wait flag and keeps the caller waiting with it; a
free lock goes to the next waiter; only the holder's release frees a lock. Nothing else changes. -/
def Obligations.SlotsCountersAndLocksOfTheCores : Prop :=
  (∀ (s : State) (c : Call) (o cmp per act tgt n : Nat), (s.nextCall 7 = some c ∧ act < 5 ∧ (c.tier1 = true → s.tier1Slots < 256) ∧
        s.findSlot = some n) →
      exec (.timeAllocate o cmp per act tgt) s = .next ((s.setSlot n
        { owner := if c.tier1 then 7 else if o = 0 then 3 else o, armed := true, compare := cmp, period := per, action := act, target := tgt }).answer
        c 0 n)) ∧
  (∀ (s : State) (c : Call) (k cmp per act tgt : Nat), (s.nextCall 7 = some c ∧ act < 5 ∧ k ≤ 503 ∧ (s.slot k).owner ≠ 0 ∧ (c.tier1 = true →
        (s.slot k).owner = 7)) →
      exec (.timeArm k cmp per act tgt) s = .next ((s.setSlot k
        { s.slot k with armed := true, compare := cmp, period := per, action := act, target := tgt }).answer c 0 k)) ∧
  (∀ (s : State) (c : Call) (k : Nat), (s.nextCall 7 = some c ∧ k ≤ 503 ∧ (s.slot k).owner ≠ 0 ∧ (c.tier1 = true → (s.slot k).owner = 7)) →
      exec (.timeFree k) s = .next ((s.setSlot k {}).answer c 0 k)) ∧
  (∀ (s : State) (c : Call) (k cmp per act tgt : Nat), (s.nextCall 7 = some c ∧ 503 < k ∧ c.tier1 = false) →
      exec (.timeArm k cmp per act tgt) s = .next (s.answer c 2 0) ∧ exec (.timeFree k) s = .next (s.answer c 2 0)) ∧
  (∀ (s : State) (c : Call) (k n : Nat), (s.nextCall 8 = some c ∧ k ≤ 4095 ∧ (c.tier1 = true → 3840 ≤ k)) →
      exec (.countAdd k n) s = .next ((s.count k n).answer c 0 (satAdd 64 (s.counter k) n % 2 ^ 32)) ∧
        exec (.countRead k) s = .next (s.answer c 0 (s.counter k % 2 ^ 32)) ∧
        exec (.countReadClear k) s = .next (({ s with tel.counters := Assoc.set 0 s.tel.counters k 0 }).answer c 0 (s.counter k % 2 ^ 32))) ∧
  (∀ (s : State) (c : Call) (l : Nat) (w : Bool), (s.nextCall 9 = some c ∧ l ≤ 65535 ∧ s.lockHolder l = 0) →
      exec (.lockAcquire l w) s = .next ((s.setLock l (c.core + 1)).answer c 0 1)) ∧
  (∀ (s : State) (c : Call) (l : Nat), (s.nextCall 9 = some c ∧ l ≤ 65535 ∧ s.lockHolder l ≠ 0) →
      exec (.lockAcquire l false) s = .next (s.answer c 8 0)) ∧
  (∀ (s : State) (c : Call) (l : Nat), (s.nextCall 9 = some c ∧ l ≤ 65535 ∧ s.lockHolder l ≠ 0) →
      ∃ t, exec (.lockAcquire l true) s = .next t ∧ t.tck.calls = s.tck.calls.map (fun x => if x.core = c.core && x.ticket = c.ticket && !x.done then
        { x with waitsLock := some l } else x) ∧ t = { s with tck := t.tck }) ∧
  (∀ (s : State) (c : Call) (l : Nat), (s.lockHolder l = 0 ∧ s.nextWaiter l = some c) →
      exec (.lockGrant l) s = .next ((s.setLock l (c.core + 1)).answer c 0 1)) ∧
  (∀ (s : State) (c : Call) (l : Nat), (s.nextCall 9 = some c ∧ l ≤ 65535) →
      exec (.lockRelease l) s = .next (if s.lockHolder l = c.core + 1 then (s.setLock l 0).answer c 0 0 else s.answer c 2 0))

/-- Chapter 05, ports and reception. Enabling a port of a twin that is not FENCED stores its configuration and starts training on
every sub-port of its mode, and disabling it takes every sub-port down; a training sub-port of an enabled port comes up, one
that goes down trains again while its port is enabled. On a sub-port that is up, a PAUSE frame is counted and reported, a
frame that R78 does not admit is dropped and counted, any other is received. At the cut-through start a frame is forwarded and
takes the cells for its rest, and is dropped where they run out; with CT_EN 0 it is forwarded when it is whole. A frame that
hits no connection is delivered when it is whole, one that hits a connection with a tracking entry free is stamped with the
next RX_SEQ. A frame found bad is counted by its cause and dropped, or stomped while it leaves; buffer ECC errors raise their
events. -/
def Obligations.PortsComeUpAndTakeFramesIn : Prop :=
  (∀ (s : State) (p : Fin 8) (v : Word), (s.flag (Reg.NET_PORT_CFG_EN p) = false ∧ v.getLsbD 0 = true ∧ getBits v 2 1 ≠ 3 ∧ s.hrn.role ≠ .fenced ∧
        fieldsInRange (Reg.NET_PORT_CFG_EN p).addr v = true ∧ s.acceptsWrite (Reg.NET_PORT_CFG_EN p).addr = true) →
      ∃ t, exec (.netPortEnable p v) s = .next t ∧ t.rg (Reg.NET_PORT_CFG_EN p).addr = storedWord (Reg.NET_PORT_CFG_EN p).addr (s.rg
        (Reg.NET_PORT_CFG_EN p).addr) v ∧ (t.subPort (4 * p.val)).training = true ∧ t = { s with regs := t.regs, net := t.net, out := t.out }) ∧
  (∀ (s : State) (p : Fin 8) (v : Word), (s.flag (Reg.NET_PORT_CFG_EN p) = true ∧ v.getLsbD 0 = false ∧
        getBits v 2 1 = s.fld (Reg.NET_PORT_CFG_MODE p) ∧ getBits v 29 16 = s.fld (Reg.NET_PORT_CFG_MAX_FRAME p)) →
      exec (.netPortDisable p v) s = .next ((s.setFld (Reg.NET_PORT_CFG_EN p) 0).portDown p)) ∧
  (∀ (s : State) (p : Fin 8) (q : Fin 4), (s.flag (Reg.NET_PORT_CFG_EN p) = true ∧ (s.subPort (4 * p.val + q.val)).training = true ∧
        s.pwr.st ≠ .deep) →
      exec (.netLinkUp p q) s = .next ((s.setSub (4 * p.val + q.val) { up := true }).linkEvent (4 * p.val + q.val) true)) ∧
  (∀ (s : State) (p : Fin 8) (q : Fin 4), ((s.subPort (4 * p.val + q.val)).up = true) →
      exec (.netLinkDown p q) s = .next ((s.subDown (4 * p.val + q.val)).setSub (4 * p.val + q.val) { training := s.flag (Reg.NET_PORT_CFG_EN p) })) ∧
  (∀ (s : State) (p : Fin 8) (q : Fin 4) (f : RxFrame), ((s.subPort (4 * p.val + q.val)).up = true) →
      exec (.frameReceive p q f) s = .next (if f.pause then (s.bump (Reg.NET_RX_PAUSE_COUNT p)).raise (Ev.NET_PAUSE_RX p) else if s.admits (4 * p.val
        + q.val) f then s.receiveFrame (4 * p.val + q.val) f else s.bump (Reg.NET_RX_DROP_COUNT p))) ∧
  (∀ (s : State) (i : Nat) (f : Frame), (s.frame i = some f ∧ f.ingress = true ∧ f.stage = .arriving ∧ s.flag Reg.SWC_CFG_CT_EN = true ∧
        ((s.forward f).takeRest i).2 = false) →
      exec (.cutThroughStart i) s = .next ((s.forward f).takeRest i).1.deliverDue) ∧
  (∀ (s : State) (i : Nat) (f : Frame), (s.frame i = some f ∧ f.ingress = true ∧ f.stage = .arriving ∧ s.flag Reg.SWC_CFG_CT_EN = true ∧
        ((s.forward f).takeRest i).2 = true) →
      exec (.cutThroughStart i) s = .next (((s.forward f).takeRest i).1.dropId i)) ∧
  (∀ (s u : State) (i : Nat) (f g : Frame), (s.frame i = some f ∧ f.ingress = true ∧ f.stage = .arriving ∧ s.flag Reg.SWC_CFG_CT_EN = false ∧
        (s.reach f.endAt).takeRest i = (u, false) ∧ (u.updFrame i fun f => { f with whole := true }).frame i = some g) →
      exec (.cutThroughStart i) s = .next ((u.updFrame i fun f => { f with whole := true }).forward g).deliverDue) ∧
  (∀ (s u : State) (f : Frame) (c : Nat), (s.flowHit f.key = (u, some c) ∧ u.canTrack false c = true ∧ f.isEsp = true) →
      s.forward f = (u.setReseq false c { u.reseq false c with assign := ((u.reseq false c).assign + 1) % 65536 }).updFrame f.id fun f =>
        { f with conn := some c, seq := some (u.reseq false c).assign, stage := .forwarded }) ∧
  (∀ (s : State) (f : Frame), ((s.flowHit f.key).2 = none) →
      s.forward f = ((s.flowHit f.key).1.updFrame f.id fun f => { f with stage := .forwarded }).crosspost f) ∧
  (∀ (s : State) (i : Nat) (f : Frame), (s.frame i = some f ∧ f.ingress = true ∧ f.whole = false) →
      exec (.frameFoundBad i .fcs) s = .next ((s.bump (Reg.NET_RX_FCS_ERR_COUNT (f.sub / 4))).dropFrame f) ∧
        exec (.frameFoundBad i .fecUncorrectable) s = .next (((s.bump (Reg.NET_FEC_UNCORR_COUNT (f.sub / 4))).raise (136 + f.sub / 4) []).dropFrame
        f)) ∧
  (∀ (s : State) (i : Nat) (f : Frame), (s.frame i = some f ∧ (f.ingress = true ∨ f.stage ≠ .sending)) →
      exec (.frameFoundBad i .wireCipher) s = .next (s.dropFrame f) ∧ exec (.frameFoundBad i .other) s = .next (s.dropFrame f)) ∧
  (∀ (s : State) (i : Nat) (f : Frame), (s.frame i = some f ∧ f.ingress = false ∧ f.stage = .sending ∧ f.bad = false) →
      exec (.frameFoundBad i .other) s = .next (((s.updFrame f.id fun f => { f with bad := true }).bump (Reg.NET_TX_STOMP_COUNT (f.sub / 4))).emit
        (.stomped f.sub f.id))) ∧
  (∀ (s : State) (i : Nat) (f : Frame), (s.frame i = some f ∧ (f.ingress = true ∨ f.stage ≠ .sending)) →
      exec (.bufferEccUncorrectable i) s = .next ((s.raise Ev.SWC_ECC_UNCORR []).dropFrame f)) ∧
  (∀ (s : State), exec .bufferEccCorrected s = .next (s.raise Ev.SWC_ECC []))

/-- Chapter 05 and 08, egress. A stamped frame that finished its work joins its resequencer; a discard of a number that is still
outstanding is recorded; at the gap's deadline the missing number is declared lost. A commit of a WRED profile puts the staged
colours and the control word in force together when no MAX_TH is below its MIN_TH, changes no profile otherwise, and drops the
staged words. On a sub-port that is up the frame that was leaving has left, frames built since are queued, copies past their
lag are dropped, and the frame the scheduler selects starts to leave; a STANDBY drops a copy that would start later than
ORD_TIME + T_LAG. -/
def Obligations.FramesLeaveInOrder : Prop :=
  (∀ (s : State) (i c q : Nat) (f : Frame), (s.frame i = some f ∧ f.conn = some c ∧ f.seq = some q ∧ f.ingress = true ∧ f.stage = .forwarded ∧
        (∀ w ∈ (s.reseq false c).waiting, w.2 ≠ i)) →
      exec (.reseqArrival false i) s = .next ((if f.isEsp then (s.reach f.endAt).crosspost f else s.reach f.endAt).arriveSeq false c q i)) ∧
  (∀ (s : State) (i c q : Nat) (f : Frame), (s.frame i = some f ∧ f.conn = some c ∧ f.seq = some q ∧ f.ingress = false ∧ f.stage = .building ∧
        (∀ w ∈ (s.reseq true c).waiting, w.2 ≠ i)) →
      exec (.reseqArrival true i) s = .next ((s.reach f.endAt).arriveSeq true c q i)) ∧
  (∀ (s : State) (eg : Bool) (c q : Nat) (f : Frame), (s.swc.frames.find? (fun f => f.ingress = !eg && f.conn = some c && f.seq = some q) = some f) →
      exec (.reseqDiscardReport eg c q) s = .next (s.dropFrame f)) ∧
  (∀ (s : State) (eg : Bool) (c q : Nat), ((∀ f ∈ s.swc.frames, f.conn ≠ some c) ∧ seqAhead (s.reseq eg c).next q < (s.reseq eg c).outstanding) →
      exec (.reseqDiscardReport eg c q) s = .next (s.discardSeq eg c q)) ∧
  (∀ (s : State) (eg : Bool) (c : Nat), ((s.reseq eg c).waiting ≠ [] ∧ (s.reseq eg c).deadline ≠ 0 ∧
        (s.reach (s.reseq eg c).deadline).gapCloses eg c = false) →
      exec (.reseqTimeout eg c) s = .next ((s.reach (s.reseq eg c).deadline).loseSeq eg c)) ∧
  (∀ (s : State) (v : Word), (getBits (s.stagedColour Reg.SWC_WRED_GREEN_MIN_TH.addr (s.profile (s.fld Reg.SWC_WRED_SEL_PROFILE)).green) 23 12 <
        getBits (s.stagedColour Reg.SWC_WRED_GREEN_MIN_TH.addr (s.profile (s.fld Reg.SWC_WRED_SEL_PROFILE)).green) 11 0) →
      ∃ t, exec (.wredProfileCommit v) s = .next t ∧ t.swc = s.swc ∧ t = { s with staged := t.staged }) ∧
  (∀ (s : State) (v g y r : Word), (s.stagedColour Reg.SWC_WRED_GREEN_MIN_TH.addr (s.profile (s.fld Reg.SWC_WRED_SEL_PROFILE)).green = g ∧
        s.stagedColour (Reg.SWC_WRED_GREEN_MIN_TH.addr + 4) (s.profile (s.fld Reg.SWC_WRED_SEL_PROFILE)).yellow = y ∧
        s.stagedColour (Reg.SWC_WRED_GREEN_MIN_TH.addr + 8) (s.profile (s.fld Reg.SWC_WRED_SEL_PROFILE)).red = r ∧ getBits g 11 0 ≤ getBits g 23 12 ∧
        getBits y 11 0 ≤ getBits y 23 12 ∧ getBits r 11 0 ≤ getBits r 23 12) →
      ∃ t, exec (.wredProfileCommit v) s = .next t ∧ t.profile (s.fld Reg.SWC_WRED_SEL_PROFILE) =
        ⟨g, y, r, storedWord Reg.SWC_WRED_CTL_WEIGHT.addr (s.profile (s.fld Reg.SWC_WRED_SEL_PROFILE)).ctl v⟩ ∧
        (∀ i, i ≠ s.fld Reg.SWC_WRED_SEL_PROFILE → t.profile i = s.profile i) ∧ t = { s with staged := t.staged, swc := t.swc }) ∧
  (∀ (s : State) (p : Fin 8) (q : Fin 4) (w : State) (f : Frame), ((s.subPort (4 * p.val + q.val)).up = true ∧ s.cmdb.cmds.length ≠ 65536 ∧
        (((((s.finishFrame (4 * p.val + q.val)).relaunch).pullAll (4 * p.val + q.val)).wakeMgmt).dropLate (4 * p.val + q.val)).selectFrame p (4 *
        p.val + q.val) = (w, some f)) →
      exec (.frameTransmit p q) s = .next (w.startFrame p f)) ∧
  (∀ (s : State) (i : Nat) (f : Frame), (s.frame i = some f ∧ s.hrn.role = .standby ∧ f.ingress = false ∧ f.conn.isSome = true ∧ f.stage ≠ .sending) →
      exec (.tlagDrop i) s = .next ((s.reach (f.ordTime + s.fld Reg.HRN_TLAG_T_LAG * 1000 + 1)).lagDrop f))

/-- Chapter 06. Enabling a table empties it and gives it freshly drawn seeds; disabling it leaves it empty and with no bank being
built. A LOOKUP that finds an entry writes it to the output address and answers its index, one that finds none answers MISS.
Aging that starts takes a free slot for the sweeper, and aging set to 0 frees it. The sweeper moves on by SWEEP_BATCH buckets,
around the table. A learn event of a learning port is queued behind the others, or counted in QFULL when 1,024 wait; the
update engine takes the oldest. At MOVE_T the PINNED flag and the moves clear. An entry that fails its ECC is deleted with
EVT_TBL_ECC_UNCORR, a corrected one is reported; the extent cache is filled for an allocated extent. -/
def Obligations.TablesAreEnabledSweptAndLearned : Prop :=
  (∀ (s : State) (k : Fin 3) (v : Word), (s.tableOn k = false ∧ v.getLsbD 0 = true ∧ s.tblCfgOk k v = true ∧
        fieldsInRange (Reg.TBL_CFG_EN k).addr v = true ∧ s.acceptsWrite (Reg.TBL_CFG_EN k).addr = true ∧ (s.table k).bank = none) →
      ∃ t, exec (.tableEnable k v) s = .next t ∧ (t.table k).entries = [] ∧ (t.table k).stash = [] ∧
        (t.table k).seed0 = (Config.freeBits 32 s.free).toNat ∧ (k.val ≠ 2 → (t.table k).seed1 = (Config.freeBits 32 (s.free + 1)).toNat) ∧
        t.rg (Reg.TBL_CFG_EN k).addr = storedWord (Reg.TBL_CFG_EN k).addr (s.rg (Reg.TBL_CFG_EN k).addr) v ∧
        t = { s with regs := t.regs, tbl := t.tbl, sec := t.sec, out := t.out, free := t.free }) ∧
  (∀ (s : State) (k : Fin 3) (v : Word), (s.tableOn k = true ∧ v.getLsbD 0 = false ∧ s.tblCfgOk k v = true ∧
        fieldsInRange (Reg.TBL_CFG_EN k).addr v = true ∧ s.acceptsWrite (Reg.TBL_CFG_EN k).addr = true ∧ (s.table k).bank = none) →
      ∃ t, exec (.tableDisable k v) s = .next t ∧ (t.table k).entries = [] ∧ (t.table k).stash = [] ∧
        t = { s with regs := t.regs, tbl := t.tbl, out := t.out }) ∧
  (∀ (s : State) (k : Fin 3) (v : Word), (s.tableOn k = true ∧ v.getLsbD 0 = false ∧ s.tblCfgOk k v = true ∧
        fieldsInRange (Reg.TBL_CFG_EN k).addr v = true ∧ s.acceptsWrite (Reg.TBL_CFG_EN k).addr = true) →
      ∃ t, exec (.tableDisable k v) s = .next t ∧ (t.table k).entries = [] ∧ (t.table k).stash = [] ∧ (t.table k).bank = none) ∧
  (∀ (s : State) (c : Call) (n ka o j p dis : Nat) (u : State) (i : Nat) (e : List Byte), (s.nextCall 1 = some c ∧ n ≤ 2 ∧
        s.access c ka (keySize n) false = some j ∧ s.access c o (entrySize n) true = some p ∧
        s.lookup n (s.bytes j (keySize n)) dis = (u, some (i, e))) →
      exec (.lookup n ka o dis) s = .next (({ u with mem := writeMem u.mem p e }).answer c 0 i)) ∧
  (∀ (s : State) (c : Call) (n ka o j p dis : Nat) (u : State), (s.nextCall 1 = some c ∧ n ≤ 2 ∧ s.access c ka (keySize n) false = some j ∧
        s.access c o (entrySize n) true = some p ∧ s.lookup n (s.bytes j (keySize n)) dis = (u, none)) →
      exec (.lookup n ka o dis) s = .next (u.answer c 5 0)) ∧
  (∀ (s : State) (v e : Nat), (s.tableOn 2 = true ∧ (s.mapEnt v e).alloc = true ∧ s.findEntry 2 (cacheKey v e) = none) →
      exec (.extentCacheFill v e) s = .next (s.fillExtent v e)) ∧
  (∀ (s : State) (k : Fin 3) (v : Word) (n : Nat), (k.val ≠ 2 ∧ getBits v 15 0 ≠ 0 ∧
        sweepFits (s.buckets k) (s.fld (Reg.TBL_SWEEP_SWEEP_BATCH k)) (s.fld (Reg.TBL_SWEEP_SWEEP_PERIOD k)) (getBits v 15 0) (s.fld
        (Reg.TBL_CFG_TICK_LOG2 k)) = true ∧ fieldsInRange (Reg.TBL_AGE_AGE_LIMIT k).addr v = true ∧
        s.acceptsWrite (Reg.TBL_AGE_AGE_LIMIT k).addr = true ∧ (s.table k).sweepSlot = none ∧ s.findSlot = some n) →
      ∃ t, exec (.ageLimitWrite k false v) s = .next t ∧ (t.table k).sweepSlot = some n ∧
        t.slot n = s.sweeper (s.fld (Reg.TBL_SWEEP_SWEEP_PERIOD k)) ∧ t = { s with regs := t.regs, tim := t.tim, tbl := t.tbl, out := t.out }) ∧
  (∀ (s : State) (k : Fin 2) (n : Nat), (s.engineTaken k = false ∧ (s.table k).sweepSlot = some n) →
      ∃ t, exec (.tableSweep k) s = .next t ∧ (t.table k).sweepAt = ((s.table k).sweepAt + min (s.buckets k) (s.fld (Reg.TBL_SWEEP_SWEEP_BATCH k))) %
        s.buckets k) ∧
  (∀ (s : State) (l : Learned), (s.tableOn 0 = true ∧ (s.fld Reg.TBL_LEARN_CFG_LEARN_PORTS).testBit l.port = true) →
      exec (.learnEvent l) s = .next (if 1024 ≤ s.tbl.learn.length then s.bump Reg.TBL_LEARN_DROP_QFULL else
        { s with tbl.learn := s.tbl.learn ++ [l] })) ∧
  (∀ (s : State) (l : Learned) (ls : List Learned), (s.engineTaken 0 = false ∧ s.tbl.learn = l :: ls ∧ s.tableOn 0 = true) →
      exec .learnApply s = .next (({ s with tbl.learn := ls }).learn l)) ∧
  (∀ (s : State) (i : Nat), (entryValid 0 (s.entryAt 0 i) = true ∧ entryPinned 0 (s.entryAt 0 i) = true) →
      ∃ t, exec (.pinEnd i) s = .next t ∧ t.entryAt 0 i = unpinned (s.entryAt 0 i)) ∧
  (∀ (s : State) (k : Fin 3) (i : Nat), (entryValid k (s.entryAt k i) = true) →
      exec (.tableEccUncorrectable k i) s = .next (((s.writeSlot k i []).raise Ev.TBL_ECC_UNCORR [k.val]).entryGone k (s.entryAt k i) false)) ∧
  (∀ (s : State) (k : Fin 3), exec (.tableEccCorrected k) s = .next (s.raise Ev.TBL_ECC [k.val]))

/-- Chapter 06, management commands that are accepted. Table Read by index of a range inside the table, or by the keys of its
buffer, transfers the entries, zeros for those not valid, and completes with their number. Table Write and Table Lock over a
buffer of a table that is on process its entries in order and complete with the number done and SUCCESS when none is refused.
Table Rehash of a table that is on while no table is being rebuilt starts the rebuild with the seeds given (or drawn) and is
held until the switch; at the switch, in an open window, with no table command ahead and every entry placed, the second bank
is live and the stash is empty; with an entry that found no place the bank is abandoned. -/
def Obligations.TableCommandsReadWriteLockAndRehash : Prop :=
  (∀ (s : State) (id : Nat) (c : Started), (s.AcceptsPlain id 0x0100 [(2, 2), (0x0C, 28)] c ∧ c.desc.par 0 1 ≤ 2 ∧ c.desc.par 1 1 = 0 ∧
        c.desc.dataLen.toNat = c.desc.par 8 4 * entrySize (c.desc.par 0 1) ∧ c.desc.par 4 4 + c.desc.par 8 4 ≤ s.tableSize (c.desc.par 0 1) ∧
        c.desc.dataLen.toNat / entrySize (c.desc.par 0 1) = c.desc.par 8 4) →
      exec (.tableRead id none) s = .next ((s.emit (.hostData c.desc.dataPtr.toNat (((List.range (c.desc.par 8 4)).map fun i => (s.table (c.desc.par 0
        1)).at (c.desc.par 4 4 + i)).flatMap (shown (c.desc.par 0 1))))).complete c .success ((((List.range (c.desc.par 8 4)).map fun i => (s.table
        (c.desc.par 0 1)).at (c.desc.par 4 4 + i)).filter (entryValid (c.desc.par 0 1))).length))) ∧
  (∀ (s : State) (id : Nat) (c : Started) (b : List Byte), (s.AcceptsPlain id 0x0100 [(2, 2), (0x0C, 28)] c ∧ c.desc.par 0 1 ≤ 2 ∧
        c.desc.par 1 1 = 1 ∧ c.desc.par 4 8 = 0 ∧ c.desc.dataLen.toNat % entrySize (c.desc.par 0 1) = 0) →
      ∃ es : List (List Byte), es = ((List.range (c.desc.dataLen.toNat / entrySize (c.desc.par 0 1))).map fun i => match s.findEntry (c.desc.par 0 1)
        (entryKey (c.desc.par 0 1) (bufEntry (c.desc.par 0 1) b i)) with | some j => s.entryAt (c.desc.par 0 1) j | none => []) ∧
        exec (.tableRead id (some b)) s = .next ((s.emit (.hostData c.desc.dataPtr.toNat (es.flatMap (shown (c.desc.par 0 1))))).complete c .success
        (es.filter (entryValid (c.desc.par 0 1))).length)) ∧
  (∀ (s : State) (id : Nat) (c : Started) (b : List Byte) (u : State) (n : Nat), (s.Accepts id 0x0101 [(2, 38)] (fun _ => true) (fun d => d.par 1 1 ≠
        1) c s ∧ c.desc.par 0 1 ≤ 1 ∧ c.desc.par 1 1 = 0 ∧ c.desc.dataLen.toNat % entrySize (c.desc.par 0 1) = 0 ∧ s.tableOn (c.desc.par 0 1) = true ∧
        s.eachEntry (c.desc.par 0 1) b (State.writeEntryOf (c.desc.par 0 1)) (c.desc.dataLen.toNat / entrySize (c.desc.par 0 1)) 0 = (u, n, none)) →
      exec (.tableInsert id (some b)) s = .next (u.holderDone c n)) ∧
  (∀ (s : State) (id : Nat) (c : Started) (b : List Byte) (u : State) (n : Nat), (s.Accepts id 0x0101 [(2, 38)] (fun _ => true) (fun d => d.par 1 1 =
        1) c s ∧ c.desc.par 0 1 ≤ 2 ∧ c.desc.par 1 1 = 1 ∧ c.desc.dataLen.toNat % entrySize (c.desc.par 0 1) = 0 ∧ s.tableOn (c.desc.par 0 1) = true ∧
        s.eachEntry (c.desc.par 0 1) b (fun s e => (s.tblDelete (c.desc.par 0 1) (entryKey (c.desc.par 0 1) e), none)) (c.desc.dataLen.toNat /
        entrySize (c.desc.par 0 1)) 0 = (u, n, none)) →
      exec (.tableDelete id (some b)) s = .next (u.holderDone c n)) ∧
  (∀ (s : State) (id : Nat) (c : Started) (b : List Byte) (u : State) (n : Nat), (s.Accepts id 0x0102 [(2, 38)] (fun _ => true) (fun d => d.par 1 1 ≠
        1) c s ∧ c.desc.par 0 1 ≤ 2 ∧ c.desc.par 1 1 = 0 ∧ c.desc.dataLen.toNat % entrySize (c.desc.par 0 1) = 0 ∧ s.tableOn (c.desc.par 0 1) = true ∧
        s.eachEntry (c.desc.par 0 1) b (State.lockEntry true (c.desc.par 0 1)) (c.desc.dataLen.toNat / entrySize (c.desc.par 0 1)) 0 = (u, n, none)) →
      exec (.tableLock id (some b)) s = .next (u.holderDone c n)) ∧
  (∀ (s : State) (id : Nat) (c : Started) (b : List Byte) (u : State) (n : Nat), (s.Accepts id 0x0102 [(2, 38)] (fun _ => true) (fun d => d.par 1 1 =
        1) c s ∧ c.desc.par 0 1 ≤ 2 ∧ c.desc.par 1 1 = 1 ∧ c.desc.dataLen.toNat % entrySize (c.desc.par 0 1) = 0 ∧ s.tableOn (c.desc.par 0 1) = true ∧
        s.eachEntry (c.desc.par 0 1) b (State.lockEntry false (c.desc.par 0 1)) (c.desc.dataLen.toNat / entrySize (c.desc.par 0 1)) 0 = (u, n, none))
        →
      exec (.tableUnlock id (some b)) s = .next (u.holderDone c n)) ∧
  (∀ (s : State) (id : Nat) (c : Started), (s.AcceptsPlain id 0x0103 [(2, 2), (0x0C, 28)] c ∧ c.desc.par 0 1 ≤ 1 ∧ c.desc.par 1 1 = 1 ∧
        c.desc.par 4 4 ≠ c.desc.par 8 4 ∧ s.tableOn (c.desc.par 0 1) = true ∧ s.tbl.tables.any (fun x => x.2.bank.isSome) = false) →
      ∃ t, exec (.tableRehash id) s = .next t ∧ (t.table (c.desc.par 0 1)).bank = some { seed0 := c.desc.par 4 4, seed1 := c.desc.par 8 4 } ∧
        (t.table (c.desc.par 0 1)).entries = (s.table (c.desc.par 0 1)).entries ∧ t.out = s.out ∧ (∀ x ∈ t.ctl.started, x.id = c.id →
        x.waits = true)) ∧
  (∀ (s : State) (id : Nat) (c : Started), (s.AcceptsPlain id 0x0103 [(2, 2), (0x0C, 28)] c ∧ c.desc.par 0 1 ≤ 1 ∧ c.desc.par 1 1 = 0 ∧
        c.desc.par 4 8 = 0 ∧ s.tableOn (c.desc.par 0 1) = true ∧ s.tbl.tables.any (fun x => x.2.bank.isSome) = false) →
      ∃ t, exec (.tableRehash id) s = .next t ∧ (t.table (c.desc.par 0 1)).bank = some
        { seed0 := (Config.freeBits 32 s.free).toNat, seed1 := (Config.freeBits 32 (s.free + 1)).toNat } ∧
        (t.table (c.desc.par 0 1)).entries = (s.table (c.desc.par 0 1)).entries ∧ (∀ x ∈ t.ctl.started, x.id = c.id → x.waits = true)) ∧
  (∀ (s u : State) (t : Fin 2) (b : Bank), (s.windowOpen 3 = true ∧ s.engineTaken t = false ∧ (s.table t).bank.isSome = true ∧
        (if t.val = 0 then s.learnAll else s).copyAll t (((if t.val = 0 then s.learnAll else s).table t).entries.map Prod.snd ++ ((if t.val = 0 then
        s.learnAll else s).table t).stash) = u ∧ (u.table t).bank = some b ∧ b.full = false) →
      exec (.rehashSwitch t) s = .next (u.switchBank t b) ∧ ((u.switchBank t b).table t).entries = b.entries ∧
        ((u.switchBank t b).table t).stash = [] ∧ ((u.switchBank t b).table t).seed0 = b.seed0 ∧ ((u.switchBank t b).table t).seed1 = b.seed1 ∧
        ((u.switchBank t b).table t).bank = none) ∧
  (∀ (s u : State) (t : Fin 2) (b : Bank), (s.windowOpen 3 = true ∧ s.engineTaken t = false ∧ (s.table t).bank.isSome = true ∧
        (if t.val = 0 then s.learnAll else s).copyAll t (((if t.val = 0 then s.learnAll else s).table t).entries.map Prod.snd ++ ((if t.val = 0 then
        s.learnAll else s).table t).stash) = u ∧ (u.table t).bank = some b ∧ b.full = true) →
      exec (.rehashSwitch t) s = .next (u.abandonBank t b))

/-- Chapter 07, connection states. A neighbour request for a valid address on a sub-port that is up is answered there. A REQ of a
host that uses Sheath or may use plaintext (or is not enrolled, to an address where discovery in plaintext is allowed), with a
context, a resident slot and a flow entry to be had, opens that context in REQ_RCVD with a fresh PSN, and answers REP; before
IO_READY it is refused. RTU leads to KEYING with Sheath and without to READY, to the CONNECT hook where one is loaded, or to
the close that its default asks for. A DREQ closes a READY connection and is answered DREP, and is answered again in CLOSING;
DREP ends CLOSING. At CM_TMO a REQ_RCVD context returns to IDLE keeping its incarnation and a CLOSING one is CLOSED, at
QUIET_TMO a CLOSED one returns to IDLE. K1 in its turn is answered K2 with a fresh nonce, the connection's SPI and a fresh
ML-KEM key; K3 that passes the checks of R128 is answered K4 and installs the keys derived from the secrets of its two
encapsulations; at KEY_TMO keying fails. -/
def Obligations.ConnectionsOpenKeyAndClose : Prop :=
  (∀ (s : State) (a : Fin 16) (q : Nat), (s.flag (Reg.XPT_IP_CFG_VALID a) = true ∧ (s.subPort q).up = true) →
      exec (.neighbourRequestRx a q) s = .next (s.launch
        { id := 0, sub := q, queue := egressQueue q (s.fld Reg.QOS_CFG_CTRL_CLASS), len := 64, cells := 1, cls := s.fld Reg.QOS_CFG_CTRL_CLASS, body := .neighbour }))
        ∧
  (∀ (s : State) (r : CmReq), (s.flag Reg.XPT_CFG_EN = true ∧ s.flag (Reg.XPT_IP_CFG_VALID r.addr) = true ∧ s.clk.bootDone = true ∧
        s.follows = false ∧ s.clk.ioReady = false) →
      exec (.cmReqRx r) s = .next (s.refuseReq r 3)) ∧
  (∀ (s : State) (r : CmReq) (n : Nat) (u : State), (s.flag Reg.XPT_CFG_EN = true ∧ s.flag (Reg.XPT_IP_CFG_VALID r.addr) = true ∧
        s.clk.bootDone = true ∧ s.follows = false ∧ s.clk.ioReady = true ∧ s.pwr.st ≠ .sleep ∧ s.pwr.st ≠ .deep ∧
        ((s.grantOptions r (!(s.reqHost r).used) (s.reqHost r).tenant).sheath = true ∨
        (if (s.reqHost r).used then (s.reqHost r).plaintextOk else s.flag (Reg.XPT_IP_CFG_DISC_PLAIN r.addr)) = true) ∧ s.freeConn = some n ∧
        s.slotObtainable = true ∧ s.flowInstall (flowKey r.key) n = (u, 0)) →
      ∃ v : State, exec (.cmReqRx r) s = .next (v.sendCtl n (.rep (v.repExt r (v.conn n)) (u.random 24).1.toNat (v.conn n).pmtu)) ∧
        (v.conn n).st = .reqRcvd ∧ (v.conn n).qid = r.qid ∧ (v.conn n).sqPsn = (u.random 24).1.toNat ∧ (v.conn n).rqPsn = r.psn ∧
        (v.conn n).key = flowKey r.key) ∧
  (∀ (s : State) (n : Nat), ((s.conn n).st = .reqRcvd ∧ (s.conn n).sheath = true) →
      exec (.cmRtuRx n) s = .next (s.setConn n { s.conn n with st := .keying, cmAt := none, keyAt := some (s.now + s.fld Reg.XPT_TMO_KEY_TMO * 1000000) }))
        ∧
  (∀ (s : State) (n : Nat), ((s.conn n).st = .reqRcvd ∧ (s.conn n).sheath = false ∧ s.hookOn 0 = false ∧ s.hookRefuses 0 = false) →
      ∃ t, exec (.cmRtuRx n) s = .next t ∧ (t.conn n).st = .ready ∧ (t.conn n).alpha = 65536 ∧ (t.conn n).rateCur = s.lineRate (s.conn n) ∧
        (t.src Ev.XPT_CONN_UP).pend = true ∧ (∀ m, m ≠ n → t.conn m = s.conn m) ∧ t = { s with xpt := t.xpt, evt := t.evt, tel := t.tel }) ∧
  (∀ (s : State) (n : Nat), ((s.conn n).st = .reqRcvd ∧ (s.conn n).sheath = false) →
      (s.hookOn 0 = true → exec (.cmRtuRx n) s = .next (s.invokeHook 0 n)) ∧ (s.hookOn 0 = false → s.hookRefuses 0 = true →
        exec (.cmRtuRx n) s = .next (s.closeConn n 5))) ∧
  (∀ (s : State) (n : Nat), ((s.conn n).st = .ready) →
      exec (.cmDreqRx n) s = .next ((s.close n 0).sendCtl n .drep)) ∧
  (∀ (s : State) (n : Nat), ((s.conn n).st = .closing) →
      exec (.cmDreqRx n) s = .next (s.sendCtl n .drep) ∧ exec (.cmDrepRx n) s = .next (s.enterClosed n)) ∧
  (∀ (s : State) (n d : Nat), ((s.conn n).cmAt = some d ∧ (s.conn n).st = .reqRcvd) →
      exec (.cmTmoExpire n) s = .next ((((s.reach d).tblDelete 1 (s.conn n).key).setConn n { incarn := (s.conn n).incarn }).grantSlot)) ∧
  (∀ (s : State) (n d : Nat), ((s.conn n).cmAt = some d ∧ (s.conn n).st = .closing) →
      exec (.cmTmoExpire n) s = .next ((s.reach d).enterClosed n)) ∧
  (∀ (s : State) (n d : Nat), ((s.conn n).quietAt = some d ∧ (s.conn n).st = .closed) →
      exec (.quietTmoExpire n) s = .next (((s.reach d).setConn n { incarn := (s.conn n).incarn }).grantSlot)) ∧
  (∀ (s : State) (n : Nat) (m : SheathMsg) (u : State), ((s.conn n).st = .keying ∧ s.sec.stopped = false ∧ s.follows = false ∧
        (s.conn n).k2Sent = false ∧ sheathShape m 1 60 = true ∧ zeroAt m.bytes 0x38 4 = true ∧ u = s.noteCe n m.ce) →
      ∃ (k2 : List Byte) (v : State), exec (.sheathK1Rx n m) s = .next (v.sendMsg n true 5 k2) ∧
        k2 = sheathHead 2 1232 ++ beBytes 32 (u.random 256).1.toNat ++ beBytes 4 ((s.conn n).spi n) ++ List.replicate 4 0 ++ beBytes 1184
        (Config.mlKemKey (beBytes 64 ((u.random 256).2.random 512).1.toNat)).toNat ∧ (v.conn n).k1 = m.bytes ∧ (v.conn n).k2 = k2 ∧
        (v.conn n).k2Sent = true ∧ (v.conn n).nd = beBytes 32 (u.random 256).1.toNat) ∧
  (∀ (s : State) (n h : Nat) (m : SheathMsg) (ss : List Byte) (okm : List Byte) (u : State), ((s.conn n).st = .keying ∧ s.sec.stopped = false ∧
        s.follows = false ∧ (s.conn n).k2Sent = true ∧ u = s.noteCe n m.ce ∧ u.hostOfId (((s.conn n).k1.drop 0x28).take 16) = some h ∧
        sheathShape m 3 5213 = true ∧ 256 ≤ beAt m.bytes 8 4 ∧ zeroAt m.bytes 0x0C 4 = true ∧ m.ssRsa = some ss ∧
        okm = (s.conn n).okmOf m.bytes m.ssKem ss ∧ (m.bytes.drop 0x5D0).take 32 = (s.conn n).confirmH m.bytes okm ∧ m.sigOk = true) →
      ∃ (v w : State), v = ((u.noteMsg n ((s.conn n).respPackets 5213)).sendMsg n true 16 ((u.noteMsg n ((s.conn n).respPackets 5213)).k4Of (s.conn n)
        m.bytes okm)).installSas n h (beAt m.bytes 8 4) okm ∧ (v.conn n).okm = okm.take 72 ∧ (v.conn n).host = some h ∧
        (v.conn n).spiPeer = beAt m.bytes 8 4 ∧ w = (if v.hasPeer then v.sendTwin (.controlMsg (.keyed n h (beAt m.bytes 8 4) (v.conn n).okm (v.conn
        n).sqPsn (v.conn n).rqPsn (v.conn n).msn)) else v) ∧ exec (.sheathK3Rx n m) s = .next (w.admitConn n)) ∧
  (∀ (s : State) (n d : Nat), ((s.conn n).keyAt = some d ∧ (s.conn n).st = .keying) →
      exec (.keyTmoExpire n) s = .next ((s.reach d).keyFail n 5))

/-- Chapter 07, requests. An authentic in-sequence request of a resident READY connection, not one that its kind's checks refuse,
executes: a capsule is received in the next place and advances RQ_PSN and MSN by one; a valid Pull Setup on a fresh pull
connection sets its queue; a pull doorbell of 8 bytes at offset 0 hands its indices over; a read inside the 16-byte device
region is answered; a request of any kind has the execution its kind gives. One refused or out of sequence draws the NAK, the
duplicate's answer or the silent drop of its verdict. A packet that fails the ESP checks is dropped and counted and nothing of
its connection changes. A context fetched without error is resident and its parked packets go on in order, one fetched with an
error puts its connection in ERROR, and one written back leaves its slot. -/
def Obligations.RequestsInSequenceAreExecuted : Prop :=
  (∀ (s : State) (p : RxPkt) (op : ReqOp), (s.InSequence p op) →
      exec (.rdmaRequestRx p op) s = .next ((s.taken p 0).execReq p op)) ∧
  (∀ (s : State) (p : RxPkt) (e : SqEntry) (c : Conn), (s.InSequence p (.capsule e) ∧ c = (s.taken p 0).conn p.conn) →
      exec (.capsuleRx p e) s = .next ((((s.taken p 0).setConn p.conn
        { c.step 1 with places := c.places + 1, firstSend := false, sqNext := (c.sqNext + 1) % max 1 c.hsqsize }).receive p.conn e c.sqNext).noteReq
        p.conn p.ackReq)) ∧
  (∀ (s : State) (p : RxPkt) (ty rs sq cq sb sk ck cb len : Nat) (c : Conn), (s.InSequence p (.pullSetup ty rs sq cq sb sk ck cb len) ∧
        c = (s.taken p 0).conn p.conn) →
      exec (.pullSetupRx p (.pullSetup ty rs sq cq sb sk ck cb len)) s = .next (((s.taken p 0).setConn p.conn
        { c.step 1 with firstSend := false, pullReady := true, sqBase := sb, sqRkey := sk, sqSize := sq, cqBase := cb, cqRkey := ck, sqFetch := 0, sqTail := 0, cqHead := 0, cqTail := 0, cqUsed := 0 }).noteReq
        p.conn p.ackReq) ∧ c.pull = true ∧ c.firstSend = true ∧ ty = 0x10 ∧ rs = 0 ∧ cq = sq ∧ 2 ≤ sq ∧ sq ≤ 1024 ∧ sb % 64 = 0 ∧ cb % 16 = 0 ∧
        len = 64) ∧
  (∀ (s : State) (p : RxPkt) (v imm : Nat) (c : Conn), (s.InSequence p (.doorbell 0 8 v imm) ∧ c = (s.taken p 0).conn p.conn ∧ imm < 2 ^ 16 ∧
        v < 2 ^ 16) →
      exec (.pullDoorbellRx p 0 8 v imm) s = .next ((((s.taken p 0).setConn p.conn (c.step 1)).pullIndices p.conn imm v).noteReq p.conn p.ackReq)) ∧
  (∀ (s : State) (p : RxPkt) (off len : Nat) (c : Conn), (s.InSequence p (.read off len) ∧ c = (s.taken p 0).conn p.conn) →
      exec (.deviceRegionRead p off len) s = .next (((s.taken p 0).setConn p.conn { c.step 1 with unacked := 0, ackAt := none }).regionRead p.conn
        p.psn off len) ∧ off + len ≤ 16) ∧
  (∀ (s : State) (p : RxPkt) (op : ReqOp) (v : Nat), (s.Authentic p ∧ ((s.noted p).conn p.conn).residence = .resident ∧
        v = (s.heard p).verdictOf p op ∧ v ≠ 0) →
      exec (.rdmaRequestRx p op) s = .next (if v = 1 then (s.taken p v).dupReq p op else if v = 2 then s.taken p v else (s.taken p v).nakReq p op)) ∧
  (∀ (s : State) (p : RxPkt) (e : SqEntry) (op : ReqOp), (s.flag Reg.XPT_CFG_EN = true ∧ (s.conn p.conn).st = .ready ∧
        (s.conn p.conn).authentic p.conn p = false) →
      exec (.capsuleRx p e) s = .next (((s.forget p).bump Reg.XPT_ESP_DROP_COUNT).raise Ev.XPT_ESP_AUTH [p.conn]) ∧
        exec (.rdmaRequestRx p op) s = .next (((s.forget p).bump Reg.XPT_ESP_DROP_COUNT).raise Ev.XPT_ESP_AUTH [p.conn])) ∧
  (∀ (s : State) (n : Nat), ((s.conn n).residence = .fetching ∧ (s.conn n).parked = []) →
      exec (.contextFetchDone n false) s = .next (s.setConn n { s.conn n with residence := .resident, parked := [] })) ∧
  (∀ (s : State) (n : Nat) (r : Parked) (rs : List Parked), ((s.conn n).residence = .fetching ∧ (s.conn n).parked = r :: rs ∧
        (s.conn n).st = .ready) →
      exec (.contextFetchDone n false) s = .next (rs.foldl (fun s r => if (s.conn n).st = .ready then s.requestIn r.pkt r.op r.info r.verdict else s)
        ((s.setConn n { s.conn n with residence := .resident, parked := [] }).requestIn r.pkt r.op r.info r.verdict))) ∧
  (∀ (s : State) (n : Nat), ((s.conn n).residence = .fetching) →
      exec (.contextFetchDone n true) s = .next (((s.setConn n { s.conn n with residence := .resident, parked := [] }).raise Ev.XPT_CTX_ECC
        [n]).connError n 5)) ∧
  (∀ (s : State) (n : Nat), ((s.conn n).residence = .writeback) →
      exec (.contextWritebackDone n) s = .next ((s.setConn n { s.conn n with residence := .hbm }).grantSlot))

/-- Chapter 07, responses and deadlines. The waiting requests are acknowledged at the first wheel tick at or after ACK_DELAY, and
at once when ACK_COAL wait. An authentic ACK inside the window moves UNA_PSN past its PSN, with no READ outstanding, and
clears the retries; a sequence NAK of UNA_PSN resends from it, an RNR NAK within the limit waits as long as it says, and an
invalid-request or remote-access NAK puts the connection in ERROR; the retransmit deadline resends from UNA_PSN and the RNR
wait from its PSN. The next response of the oldest READ is taken in. A CNP of a resident READY connection cuts the rate by
alpha/2, not below MIN_RATE, and keeps the old rate as target; a period without a CNP decays alpha; a rate increase, at its
time or its bytes, moves the rate half way to its target while its stage is below F. The wheel's slot fires and every
connection's due deadlines are processed. -/
def Obligations.AcksRetriesAndRates : Prop :=
  (∀ (s : State) (n d t : Nat), ((s.conn n).ackAt = some d ∧ (s.conn n).unacked ≠ 0 ∧ (s.conn n).unacked < s.fld Reg.XPT_ACK_ACK_COAL ∧
        s.wheelAt d = some t) →
      exec (.ackSend n) s = .next ((s.reach t).sendAck n)) ∧
  (∀ (s : State) (n : Nat), ((s.conn n).unacked ≠ 0 ∧ s.fld Reg.XPT_ACK_ACK_COAL ≤ (s.conn n).unacked) →
      exec (.ackSend n) s = .next (s.sendAck n)) ∧
  (∀ (s : State) (p : RxPkt), (s.Authentic p ∧ (s.heardAnswer p).answerVerdict p .ack = 0) →
      exec (.ackRx p) s = .next ((s.answered p 0).ackUpTo p.conn p.psn)) ∧
  (∀ (s : State) (n psn : Nat), ((s.conn n).reads = [] ∧ psnAhead (s.conn n).unaPsn psn < psnAhead (s.conn n).unaPsn (s.conn n).sqPsn) →
      ((s.ackUpTo n psn).conn n).unaPsn = psnAdd psn 1 ∧ ((s.ackUpTo n psn).conn n).retries = 0 ∧ ((s.ackUpTo n psn).conn n).rnrRetries = 0 ∧
        ((s.ackUpTo n psn).conn n).sqPsn = (s.conn n).sqPsn ∧ (∀ m, m ≠ n → (s.ackUpTo n psn).conn m = s.conn m)) ∧
  (∀ (s : State) (p : RxPkt) (code : NakCode), (s.Authentic p ∧ (s.heardAnswer p).answerVerdict p (.nak code) = 0) →
      exec (.nakRx p code) s = .next ((s.answered p 0).takeNak p.conn p.psn code)) ∧
  (∀ (s : State) (n : Nat), (0 < psnAhead (s.conn n).unaPsn (s.conn n).sqPsn) →
      s.takeNak n (s.conn n).unaPsn .sequence = s.resend n (s.conn n).unaPsn ∧ s.takeNak n (s.conn n).unaPsn .invalidRequest = s.connError n 3 ∧
        s.takeNak n (s.conn n).unaPsn .remoteAccess = s.connError n 3 ∧ (∀ w, (s.conn n).rnrRetries < s.fld Reg.XPT_RETRY_RNR_RETRY →
        s.takeNak n (s.conn n).unaPsn (.rnr w) = s.setConn n
        { s.conn n with rnrRetries := (s.conn n).rnrRetries + 1, rnrAt := some (s.now + w, (s.conn n).unaPsn) })) ∧
  (∀ (s : State) (n d q : Nat), ((s.conn n).rnrAt = some (d, q)) →
      ∃ u, exec (.rnrWaitExpire n) s = .next u ∧ u = (((((s.reach d).updConn n fun c => { c with rnrAt := none }).updConn n fun c =>
        { c with retries := 0 }).resend n q).updConn n fun c => if c.st = .ready then
        { c with retries := (((s.reach d).updConn n fun c => { c with rnrAt := none }).conn n).retries } else c)) ∧
  (∀ (s : State) (n d t : Nat), ((s.conn n).retxAt = some d ∧ ((s.conn n).st = .ready ∨ (s.conn n).st = .keying) ∧
        (s.conn n).unaPsn ≠ (s.conn n).sqPsn ∧ s.wheelAt d = some t) →
      exec (.retransmitDeadline n) s = .next ((s.reach t).resend n (s.conn n).unaPsn)) ∧
  (∀ (s : State) (p : RxPkt) (b : List Byte) (v : Nat), (s.Authentic p ∧ v = (s.heardAnswer p).answerVerdict p (.readResponse b)) →
      exec (.readResponseRx p b) s = .next ((s.answered p v).takeReadResp p.conn p.psn b)) ∧
  (∀ (s : State) (n psn : Nat) (b : List Byte) (r : ReadOp) (rs : List ReadOp), ((s.conn n).reads = r :: rs ∧ psnAhead (psnAdd r.psn r.got) psn = 0 ∧
        r.got + 1 < r.n) →
      s.takeReadResp n psn b = (s.setConn n { s.conn n with reads := { r with got := r.got + 1, bytes := r.bytes ++ b, asked := false } :: rs }).ackUpTo
        n psn) ∧
  (∀ (s : State) (p : RxPkt) (u : State), ((s.conn p.conn).st = .ready ∧ (s.conn p.conn).authentic p.conn p = true ∧
        u = (((s.forget p).bump Reg.XPT_CNP_RX_COUNT).updConn p.conn fun c => c.seeEsn p.esp).keepResident p.conn ∧
        (u.conn p.conn).residence = .resident ∧ u.flag Reg.XPT_CFG_CC_EN = true) →
      ∃ t, exec (.cnpRx p) s = .next t ∧ (t.conn p.conn).rateTgt = (u.conn p.conn).rateCur ∧
        (t.conn p.conn).rateCur = max (u.fld Reg.XPT_CC_D_MIN_RATE) ((u.conn p.conn).rateCur - (u.conn p.conn).rateCur * (u.conn p.conn).alpha /
        131072) ∧ (t.conn p.conn).stage = 0 ∧ (t.conn p.conn).byteCnt = 0 ∧ (∀ m, m ≠ p.conn → t.conn m = u.conn m) ∧ t = { u with xpt := t.xpt }) ∧
  (∀ (s : State) (n d t : Nat), ((s.conn n).alphaAt = some d ∧ s.flag Reg.XPT_CFG_CC_EN = true ∧ s.wheelAt d = some t) →
      ∃ u, exec (.alphaPeriodExpire n) s = .next u ∧ (u.conn n).alpha = (1024 - s.fld Reg.XPT_CC_A_G) * (s.conn n).alpha / 1024 ∧
        (u.conn n).rateCur = (s.conn n).rateCur ∧ (∀ m, m ≠ n → u.conn m = s.conn m) ∧ u = { s with tim := u.tim, xpt := u.xpt }) ∧
  (∀ (s : State) (n d t : Nat), ((s.conn n).rateAt = some d ∧ (s.conn n).stage < s.fld Reg.XPT_CC_A_F ∧ s.flag Reg.XPT_CFG_CC_EN = true ∧
        s.bytesDue (s.conn n) = false ∧ s.wheelAt d = some t) →
      ∃ u, exec (.rateIncrease n) s = .next u ∧ (u.conn n).rateTgt = (s.conn n).rateTgt ∧
        (u.conn n).rateCur = ((s.conn n).rateCur + (s.conn n).rateTgt) / 2 ∧ (∀ m, m ≠ n → u.conn m = s.conn m) ∧
        u = { s with tim := u.tim, xpt := u.xpt }) ∧
  (∀ (s : State) (n : Nat), (s.bytesDue (s.conn n) = true ∧ (s.conn n).stage < s.fld Reg.XPT_CC_A_F ∧ s.flag Reg.XPT_CFG_CC_EN = true) →
      ∃ u, exec (.rateIncrease n) s = .next u ∧ (u.conn n).rateTgt = (s.conn n).rateTgt ∧
        (u.conn n).rateCur = ((s.conn n).rateCur + (s.conn n).rateTgt) / 2 ∧ (∀ m, m ≠ n → u.conn m = s.conn m) ∧ u = { s with xpt := u.xpt }) ∧
  (∀ (s : State) (k : Nat), (s.xpt.wheelSlot = some k ∧ s.now < (s.slot k).compare + (s.slot k).period) →
      exec .wheelTick s = .next ((s.xpt.conns.map Prod.fst).foldl State.wheelConn (s.fire k))) ∧
  (∀ (s : State) (n d : Nat), ((s.conn n).gatherAt = some d) →
      exec (.cqGatherExpire n) s = .next ((((s.reach d).updConn n fun c => { c with gatherAt := none }).flushReady n s.gatherMost ((s.conn
        n).ready.length + 1))))

/-- Chapter 08, accepted commands. A two-rate policer whose settings are valid and whose attachment no other policer has takes the
settings of Table 08-2: in a free place it starts with both buckets full, in a used one it keeps its counters and its levels,
filled to now, converted to the new unit and clipped to the new depths. A strict limit with valid settings whose sub-port,
class and direction no other has starts with a full bucket. Freeing a policer, a strict limit or a tenant shaper leaves its
entry at its reset value. A tenant shaper in a free table, and a port shaper in a free place, start with a full bucket. A
Slalom list whose entries are valid becomes pending: where the list has no timer slot it takes the lowest free one with owner
1 at its SWAP_TIME, where it has one that slot is moved to the earlier of its next change and SWAP_TIME; a disable frees the
list's slot and sets its default, and after each of these whatever the gate's move lets start is started. At SWAP_TIME the
pending list takes over with its entry in force, its slot moves to the next change and EVT_SLALOM_SWAP is raised; at a gate
change the entry in force at that time is taken. Set Rebuild Rate writes the rate of the rebuild class. -/
def Obligations.PolicersShapersAndSlalomLists : Prop :=
  (∀ (s : State) (id : Nat) (c : Started), (s.Accepts id 0x0701 [(0x09, 3), (0x1C, 12)] (fun _ => true) (fun d => kindOf d ≠ 2 && kindOf d ≠ 3) c s ∧
        kindOf c.desc = 0 ∧ policerValid c.desc = true ∧ (s.policer (c.desc.par 0 2)).used = false ∧
        s.policerOn (policerOf c.desc).attach (policerOf c.desc).target = none) →
      exec (.configurePolicer id) s = .next ((s.setPolicer (c.desc.par 0 2)
        { policerOf c.desc with cb := ⟨(policerOf c.desc).cbs * meterScale (policerOf c.desc).unit, s.now⟩, pb := ⟨(policerOf c.desc).pbs * meterScale (policerOf c.desc).unit, s.now⟩ }).holderDone
        c)) ∧
  (∀ (s : State) (id : Nat) (c : Started) (o : Policer), (s.Accepts id 0x0701 [(0x09, 3), (0x1C, 12)] (fun _ => true) (fun d => kindOf d ≠ 2 && kindOf
        d ≠ 3) c s ∧ kindOf c.desc = 0 ∧ policerValid c.desc = true ∧ o = s.policer (c.desc.par 0 2) ∧ o.used = true ∧
        (∀ k, s.policerOn (policerOf c.desc).attach (policerOf c.desc).target = some k → k = c.desc.par 0 2)) →
      exec (.configurePolicer id) s = .next ((s.setPolicer (c.desc.par 0 2)
        { policerOf c.desc with cb := ((o.cb.fill o.cir o.cbs (meterScale o.unit) s.now).rescale (meterScale o.unit) (meterScale (policerOf c.desc).unit)).clip (policerOf c.desc).cbs (meterScale (policerOf c.desc).unit), pb := ((o.pb.fill o.pir o.pbs (meterScale o.unit) s.now).rescale (meterScale o.unit) (meterScale (policerOf c.desc).unit)).clip (policerOf c.desc).pbs (meterScale (policerOf c.desc).unit), cntG := o.cntG, cntY := o.cntY, cntR := o.cntR }).holderDone
        c)) ∧
  (∀ (s : State) (id : Nat) (c : Started), (s.Accepts id 0x0701 [(0x09, 3), (0x1C, 12)] (fun _ => true) (fun d => kindOf d ≠ 2 && kindOf d ≠ 3) c s ∧
        kindOf c.desc = 1 ∧ strictValid c.desc = true ∧ (Assoc.get {} s.qos.stricts (c.desc.par 0 2) : Strict).used = false ∧
        s.strictOn (strictOf c.desc).sub (strictOf c.desc).cls (strictOf c.desc).egress = none) →
      exec (.configurePolicer id) s = .next (({ s with qos.stricts := Assoc.set {} s.qos.stricts (c.desc.par 0 2) { strictOf c.desc with b := ⟨(strictOf c.desc).cbs * 8000, s.now⟩ } }).holderDone
        c)) ∧
  (∀ (s : State) (id : Nat) (c : Started), (s.Accepts id 0x0701 [(0x09, 3), (0x1C, 12)] (fun _ => true) (fun d => kindOf d = 2 || kindOf d = 3) c s ∧
        kindOf c.desc = 2 ∧ c.desc.par 0 2 < 16384) →
      exec (.freePolicer id) s = .next ((s.setPolicer (c.desc.par 0 2) {}).holderDone c)) ∧
  (∀ (s : State) (id : Nat) (c : Started), (s.Accepts id 0x0701 [(0x09, 3), (0x1C, 12)] (fun _ => true) (fun d => kindOf d = 2 || kindOf d = 3) c s ∧
        kindOf c.desc = 3 ∧ c.desc.par 0 2 < 256) →
      exec (.freePolicer id) s = .next (({ s with qos.stricts := Assoc.set {} s.qos.stricts (c.desc.par 0 2) {} }).holderDone c)) ∧
  (∀ (s : State) (id : Nat) (c : Started), (s.Accepts id 0x0702 [(0x03, 1), (0x11, 23)] (fun _ => true) (fun d => kindOf d ≠ 2) c s ∧
        kindOf c.desc = 0 ∧ c.desc.par 0 2 < 4096 ∧ c.desc.par 4 2 < 1024 ∧ c.desc.par 6 1 < 32 ∧ c.desc.par 7 1 ≠ 0 ∧ c.desc.par 0x10 1 < 8 ∧
        (c.desc.par 8 4 = 0 ∨ 9216 ≤ c.desc.par 0x0C 4) ∧ (s.qos.tshapers.all fun e => !e.2.used) = true ∧
        (Assoc.get {} s.qos.tshapers (c.desc.par 0 2) : Shaper).used = false) →
      exec (.configureShaper id) s = .next (({ s with qos.tshapers := Assoc.set {} s.qos.tshapers (c.desc.par 0 2) { used := true, tenant := c.desc.par 4 2, sub := subOf (c.desc.par 6 1), weight := c.desc.par 7 1, rate := c.desc.par 8 4, burst := c.desc.par 0x0C 4, cls := c.desc.par 0x10 1, b := ⟨c.desc.par 0x0C 4 * 8000, s.now⟩ } }).holderDone
        c)) ∧
  (∀ (s : State) (id : Nat) (c : Started), (s.Accepts id 0x0702 [(0x03, 1), (0x11, 23)] (fun _ => true) (fun d => kindOf d ≠ 2) c s ∧
        kindOf c.desc = 1 ∧ c.desc.par 0 2 < 32 ∧ (c.desc.par 8 4 = 0 ∨ 9216 ≤ c.desc.par 0x0C 4) ∧
        (Assoc.get {} s.qos.pshapers (c.desc.par 0 2) : Shaper).used = false) →
      exec (.configureShaper id) s = .next (({ s with qos.pshapers := Assoc.set {} s.qos.pshapers (c.desc.par 0 2) { used := true, tenant := 0, sub := c.desc.par 0 2, weight := 1, rate := c.desc.par 8 4, burst := c.desc.par 0x0C 4, cls := 0, b := ⟨c.desc.par 0x0C 4 * 8000, s.now⟩ } }).holderDone
        c)) ∧
  (∀ (s : State) (id : Nat) (c : Started), (s.Accepts id 0x0702 [(0x03, 1), (0x11, 23)] (fun _ => true) (fun d => kindOf d = 2) c s ∧
        c.desc.par 0 2 < 4096) →
      exec (.freeShaper id) s = .next (({ s with qos.tshapers := Assoc.set {} s.qos.tshapers (c.desc.par 0 2) {} }).holderDone c)) ∧
  (∀ (s : State) (id : Nat) (c : Started) (b : List Byte) (k : Nat) (g : SlalomCfg) (y : Slalom), (s.AcceptsPlain id 0x0700 [(0x06, 2), (0x18, 16)] c
        ∧ c.desc.par 0 1 < 12 ∧ c.desc.par 1 1 < 2 ∧ c.desc.par 2 1 < 4 ∧ (8 ≤ c.desc.par 0 1 → c.desc.par 1 1 = 0 ∧ c.desc.par 3 1 < 2) ∧
        c.desc.dataLen.toNat = 4 * c.desc.par 4 2 ∧ b.length = 4 * c.desc.par 4 2 ∧
        g = { entries := slalomEntries (c.desc.par 4 2) b, unit := c.desc.par 2 1, guard := (c.desc.par 1 1).testBit 0, dflt := c.desc.par 3 1, base := c.desc.par 8 8, cycle := c.desc.par 0x10 8 } ∧
        slalomValid (c.desc.par 0 1) g (c.desc.par 4 2) = true ∧
        y = { s.slalom (c.desc.par 0 1) with pending := some (g, swapTime g.base g.cycle s.now), dflt := if (s.slalom (c.desc.par 0 1)).enabled then (s.slalom (c.desc.par 0 1)).dflt else some (c.desc.par 3 1) } ∧
        (s.slalom (c.desc.par 0 1)).slot = none ∧ s.findSlot = some k) →
      exec (.loadSlalomList id (some b)) s = .next ((((s.setSlalom (c.desc.par 0 1) { y with slot := some k }).setSlot k
        { owner := 1, armed := true, compare := swapTime g.base g.cycle s.now, period := 0, action := 1, target := c.desc.par 0 1 }).gatesMoved
        (c.desc.par 0 1) (s.gates (c.desc.par 0 1))).holderDone c)) ∧
  (∀ (s : State) (id : Nat) (c : Started) (b : List Byte) (k : Nat) (g : SlalomCfg) (y : Slalom), (s.AcceptsPlain id 0x0700 [(0x06, 2), (0x18, 16)] c
        ∧ c.desc.par 0 1 < 12 ∧ c.desc.par 1 1 < 2 ∧ c.desc.par 2 1 < 4 ∧ (8 ≤ c.desc.par 0 1 → c.desc.par 1 1 = 0 ∧ c.desc.par 3 1 < 2) ∧
        c.desc.dataLen.toNat = 4 * c.desc.par 4 2 ∧ b.length = 4 * c.desc.par 4 2 ∧
        g = { entries := slalomEntries (c.desc.par 4 2) b, unit := c.desc.par 2 1, guard := (c.desc.par 1 1).testBit 0, dflt := c.desc.par 3 1, base := c.desc.par 8 8, cycle := c.desc.par 0x10 8 } ∧
        slalomValid (c.desc.par 0 1) g (c.desc.par 4 2) = true ∧
        y = { s.slalom (c.desc.par 0 1) with pending := some (g, swapTime g.base g.cycle s.now), dflt := if (s.slalom (c.desc.par 0 1)).enabled then (s.slalom (c.desc.par 0 1)).dflt else some (c.desc.par 3 1) } ∧
        (s.slalom (c.desc.par 0 1)).slot = some k) →
      exec (.loadSlalomList id (some b)) s = .next ((((s.setSlalom (c.desc.par 0 1) y).setSlot k
        { s.slot k with compare := if (s.slalom (c.desc.par 0 1)).enabled then y.nextFire s.now else swapTime g.base g.cycle s.now }).gatesMoved
        (c.desc.par 0 1) (s.gates (c.desc.par 0 1))).holderDone c)) ∧
  (∀ (s : State) (id : Nat) (c : Started) (b : Option (List Byte)), (s.AcceptsPlain id 0x0700 [(0x06, 2), (0x18, 16)] c ∧ c.desc.par 0 1 < 12 ∧
        c.desc.par 1 1 = 2 ∧ c.desc.par 2 1 < 4 ∧ (8 ≤ c.desc.par 0 1 → c.desc.par 3 1 < 2)) →
      exec (.loadSlalomList id b) s = .next (((((s.slalom (c.desc.par 0 1)).slot.elim s fun k => s.setSlot k {}).setSlalom (c.desc.par 0 1)
        { dflt := some (c.desc.par 3 1) }).gatesMoved (c.desc.par 0 1) (s.gates (c.desc.par 0 1))).holderDone c)) ∧
  (∀ (s : State) (l : Fin 12) (g : SlalomCfg) (w k : Nat), ((s.slalom l).pending = some (g, w) ∧ (s.slalom l).slot = some k) →
      exec (.slalomSwap l) s = .next (((((s.reach w).setSlalom l
        { s.slalom l with enabled := true, cfg := g, entry := g.entryAt (s.reach w).now, dflt := some g.dflt, pending := none }).setSlot k
        { (s.reach w).slot k with compare := g.nextChange (s.reach w).now }).raise Ev.SLALOM_SWAP [l.val]).gatesMoved l (s.gates l))) ∧
  (∀ (s : State) (l : Fin 12) (k : Nat), ((s.slalom l).slot = some k ∧ (s.slalom l).enabled = true ∧ (s.slot k).armed = true ∧
        (s.slalom l).swapFirst (s.slot k).compare = false) →
      exec (.slalomGateChange l) s = .next ((((s.reach (s.slot k).compare).setSlalom l
        { s.slalom l with entry := (s.slalom l).cfg.entryAt (s.reach (s.slot k).compare).now }).setSlot k
        { s.slot k with compare := (s.slalom l).nextFire (s.reach (s.slot k).compare).now }).gatesMoved l (s.gates l))) ∧
  (∀ (s : State) (id : Nat) (c : Started), (s.AcceptsPlain id 0x0604 [(0x04, 36)] c ∧ c.desc.par 0 4 < 2 ^ 24) →
      exec (.setRebuildRate id) s = .next ((s.setFld (Reg.QOS_GROOM_RATE_RATE 1) (c.desc.par 0 4)).holderDone c))

/-- Chapter 09, start and decode, on a READY connection where commands may start. The oldest received command, whose CID is not
outstanding and which nothing ended before, starts with the lowest free tag and the colour its policers give it when they pass
it and its gate is open, leaving the rest in order, and is decoded; it stays at the front, held, when they do not, and waits
where no tag is free or its controller shuts down. On a follower the command starts with the colour of its verdict in the
order stream and is held until that is there. A command ended before its turn completes with that status, and one whose CID is
outstanding with Command ID Conflict, counted and raised. A release lets a held command and those behind it start. Decode ends
a command with the first failing step of Table 09-3: opcode 0/01h, fields 0/02h, SGL type 0/11h; for an I/O command, save a
Flush of all namespaces, namespace 0/0Bh and grant 2/86h (counted and raised); for a Write, Write Zeroes or Read past the end
0/80h, reservation 0/83h; and for the two that write, locked 7/82h and lost 7/81h. An I/O command that fails none, other than
Dataset Management, runs its CAPSULE hook, or ends 0/82h where the hook cannot run; a command with no hook has its key
checked: without data or on a discovery controller it goes on, one whose key does not cover its SGL ends 2/86h, counted and
raised, a short one 0/04h, and the others go on. -/
def Obligations.CommandsStartInOrderAndDecodeByTheTable : Prop :=
  (∀ (s u : State) (n t : Nat) (col : Colour) (r : RxCmd) (rs : List RxCmd), (s.mayStart = true ∧ (s.conn n).st = .ready ∧ (s.conn n).rxq = r :: rs ∧
        s.shuttingDown n = false ∧ r.ends = none ∧ s.cidInUse n r.entry.cid = false ∧ s.follows = false ∧ s.gateHolds n = false ∧
        s.meterCmd n r.entry = (u, col, true) ∧ u.freeTag = some t) →
      ∃ (w : State) (c : Cmd), exec (.commandStart n) s = .next (((w.decodeCmd t).stamp t 4).resumeFetch) ∧ w.cmd t = some c ∧ c.entry = r.entry ∧
        c.conn = n ∧ c.sqIndex = r.sqIndex ∧ c.colour = col ∧ c.phase = .decoded ∧ c.admin = ((s.conn n).admin || (s.conn n).ctrl.isNone) ∧
        (w.conn n).rxq = rs) ∧
  (∀ (s u : State) (n : Nat) (ok : Bool) (col : Colour) (r : RxCmd) (rs : List RxCmd), (s.mayStart = true ∧ (s.conn n).st = .ready ∧
        (s.conn n).rxq = r :: rs ∧ s.shuttingDown n = false ∧ r.ends = none ∧ s.cidInUse n r.entry.cid = false ∧ s.follows = false ∧
        s.meterCmd n r.entry = (u, col, ok) ∧ (ok = false ∨ s.gateHolds n = true)) →
      exec (.commandStart n) s = .next (((if !(s.conn n).admin && (s.conn n).ctrl.isSome && !r.held then (s.order n (.verdict r.sqIndex 1 col.code)).1
        else s).updConn n fun x => { x with rxq := { r with held := true } :: rs }).resumeFetch)) ∧
  (∀ (s u : State) (n : Nat) (col : Colour) (r : RxCmd) (rs : List RxCmd), (s.mayStart = true ∧ (s.conn n).st = .ready ∧ (s.conn n).rxq = r :: rs ∧
        (s.shuttingDown n = true ∨ (s.shuttingDown n = false ∧ r.ends = none ∧ s.cidInUse n r.entry.cid = false ∧ s.follows = false ∧
        s.gateHolds n = false ∧ s.meterCmd n r.entry = (u, col, true) ∧ u.freeTag = none))) →
      exec (.commandStart n) s = .next s.resumeFetch) ∧
  (∀ (s : State) (n t : Nat) (v : Nat × Colour) (r : RxCmd) (rs : List RxCmd), (s.mayStart = true ∧ (s.conn n).st = .ready ∧
        (s.conn n).admin = false ∧ (s.conn n).ctrl.isSome = true ∧ (s.conn n).rxq = r :: rs ∧ s.shuttingDown n = false ∧ r.ends = none ∧
        s.cidInUse n r.entry.cid = false ∧ s.follows = true ∧ ((s.conn n).verdicts.find? fun v => v.1 = r.sqIndex) = some v ∧ s.freeTag = some t) →
      ∃ (w : State) (c : Cmd), exec (.commandStart n) s = .next (((w.decodeCmd t).stamp t 4).resumeFetch) ∧ w.cmd t = some c ∧ c.entry = r.entry ∧
        c.conn = n ∧ c.sqIndex = r.sqIndex ∧ c.colour = v.2 ∧ c.phase = .decoded ∧ c.admin = false ∧ (w.conn n).rxq = rs) ∧
  (∀ (s : State) (n : Nat) (r : RxCmd) (rs : List RxCmd), (s.mayStart = true ∧ (s.conn n).st = .ready ∧ (s.conn n).admin = false ∧
        (s.conn n).ctrl.isSome = true ∧ (s.conn n).rxq = r :: rs ∧ s.shuttingDown n = false ∧ r.ends = none ∧ r.held = true ∧
        s.cidInUse n r.entry.cid = false ∧ s.follows = true ∧ ((s.conn n).verdicts.find? fun v => v.1 = r.sqIndex) = none) →
      exec (.commandStart n) s = .next ((s.updConn n fun x => { x with rxq := { r with held := true } :: rs }).resumeFetch)) ∧
  (∀ (s : State) (n sct sc : Nat) (dnr : Bool) (r : RxCmd) (rs : List RxCmd), (s.mayStart = true ∧ (s.conn n).st = .ready ∧ (s.conn n).rxq = r :: rs ∧
        s.shuttingDown n = false ∧ r.ends = some (sct, sc, dnr)) →
      exec (.commandStart n) s = .next (((s.updConn n fun x =>
        { x with rxq := rs, places := x.places - 1, sqHead := (r.sqIndex + 1) % x.queueSize }).endAtStart n r sct sc dnr).resumeFetch)) ∧
  (∀ (s : State) (n : Nat) (r : RxCmd) (rs : List RxCmd), (s.mayStart = true ∧ (s.conn n).st = .ready ∧ (s.conn n).rxq = r :: rs ∧
        s.shuttingDown n = false ∧ r.ends = none ∧ s.cidInUse n r.entry.cid = true) →
      exec (.commandStart n) s = .next (((((s.bump Reg.CMD_CID_CONFLICT_COUNT).raise Ev.CMD_CID_CONFLICT [((s.conn n).ctrl.map (· + 1)).getD 0,
        (s.conn n).qid]).updConn n fun x => { x with rxq := rs, places := x.places - 1, sqHead := (r.sqIndex + 1) % x.queueSize }).endAtStart n r 0 3
        true).resumeFetch)) ∧
  (∀ (s : State) (n : Nat), (s.mayStart = true ∧ ((s.conn n).rxq.head?.map RxCmd.held).getD false = true) →
      exec (.policerRelease n) s = .next (s.startAll n (s.conn n).rxq.length).resumeFetch) ∧
  (∀ (s : State) (t : Nat) (c : Cmd), (s.cmd t = some c ∧ s.opcodeOk c = false) →
      s.decodeCmd t = s.finish t 0 1 true) ∧
  (∀ (s : State) (t : Nat) (c : Cmd), (s.cmd t = some c ∧ s.opcodeOk c = true ∧ fieldsOk c = false) →
      s.decodeCmd t = s.finish t 0 2 true) ∧
  (∀ (s : State) (t : Nat) (c : Cmd), (s.cmd t = some c ∧ s.opcodeOk c = true ∧ fieldsOk c = true ∧ c.bytes ≠ 0 ∧ c.entry.sglType ≠ 0x40) →
      s.decodeCmd t = s.finish t 0 0x11 true) ∧
  (∀ (s : State) (t : Nat) (c : Cmd), (s.cmd t = some c ∧ s.opcodeOk c = true ∧ fieldsOk c = true ∧ (c.bytes = 0 ∨ c.entry.sglType = 0x40) ∧
        c.admin = false ∧ c.entry.opcode ≠ 0x7F ∧ (c.entry.opcode ≠ 0 ∨ c.entry.nsid ≠ 0xFFFFFFFF)) →
      (s.nsExists c.entry.nsid = false → s.decodeCmd t = s.finish t 0 0x0B true) ∧ (s.nsExists c.entry.nsid = true →
        s.granted (s.conn c.conn).pd c.entry.nsid (opReads c.entry.opcode) (opWrites c.entry.opcode) = false →
        s.decodeCmd t = ((s.bump Reg.XPT_ACCESS_DENIED_COUNT).raise Ev.XPT_ACCESS_DENIED [c.conn]).finish t 2 0x86 true)) ∧
  (∀ (s : State) (t : Nat) (c : Cmd), (s.cmd t = some c ∧ s.opcodeOk c = true ∧ fieldsOk c = true ∧ (c.bytes = 0 ∨ c.entry.sglType = 0x40) ∧
        c.admin = false ∧ (c.entry.opcode = 1 ∨ c.entry.opcode = 8) ∧ s.nsExists c.entry.nsid = true ∧
        s.granted (s.conn c.conn).pd c.entry.nsid false true = true) →
      ((s.ns c.entry.nsid).nsze < c.entry.slba + c.entry.nlb → s.decodeCmd t = s.finish t 0 0x80 true) ∧
        (c.entry.slba + c.entry.nlb ≤ (s.ns c.entry.nsid).nsze →
        ((s.ns c.entry.nsid).allows (s.ctrl ((s.conn c.conn).ctrl.getD 0)).hostId true = false → s.decodeCmd t = s.finish t 0 0x83 true) ∧
        ((s.ns c.entry.nsid).allows (s.ctrl ((s.conn c.conn).ctrl.getD 0)).hostId true = true →
        s.locked c.entry.nsid c.entry.slba c.entry.nlb = true → s.decodeCmd t = s.finish t 7 0x82 true) ∧
        ((s.ns c.entry.nsid).allows (s.ctrl ((s.conn c.conn).ctrl.getD 0)).hostId true = true →
        s.locked c.entry.nsid c.entry.slba c.entry.nlb = false → s.lostPart (s.ns c.entry.nsid).volume c.entry.slba c.entry.nlb = true →
        s.decodeCmd t = s.finish t 7 0x81 true))) ∧
  (∀ (s : State) (t : Nat) (c : Cmd), (s.cmd t = some c ∧ s.opcodeOk c = true ∧ fieldsOk c = true ∧ c.entry.sglType = 0x40 ∧ c.admin = false ∧
        c.entry.opcode = 2 ∧ s.nsExists c.entry.nsid = true ∧ s.granted (s.conn c.conn).pd c.entry.nsid true false = true) →
      ((s.ns c.entry.nsid).nsze < c.entry.slba + c.entry.nlb → s.decodeCmd t = s.finish t 0 0x80 true) ∧
        (c.entry.slba + c.entry.nlb ≤ (s.ns c.entry.nsid).nsze →
        (s.ns c.entry.nsid).allows (s.ctrl ((s.conn c.conn).ctrl.getD 0)).hostId false = false → s.decodeCmd t = s.finish t 0 0x83 true)) ∧
  (∀ (s : State) (t : Nat) (c : Cmd), (s.cmd t = some c ∧ s.decodeFails c = none) →
      (c.admin = false ∧ c.entry.opcode ≠ 0x7F ∧ c.entry.opcode ≠ 0x09 → (s.hookOn 1 = true →
        s.decodeCmd t = (s.updCmd t fun c => { c with phase := .hook }).invokeHook 1 t) ∧ (s.hookOn 1 = false → s.hookRefuses 1 = true →
        s.decodeCmd t = s.finish t 0 0x82 true) ∧ (s.hookOn 1 = false → s.hookRefuses 1 = false → s.decodeCmd t = s.keysCheck t)) ∧ (c.admin = true ∨
        c.entry.opcode = 0x7F ∨ c.entry.opcode = 0x09 → s.decodeCmd t = s.keysCheck t)) ∧
  (∀ (s : State) (t : Nat) (c : Cmd), (s.cmd t = some c) →
      (c.bytes = 0 ∨ s.discoveryConn (s.conn c.conn) = true → s.keysCheck t = s.proceed t c) ∧ (c.bytes ≠ 0 →
        s.discoveryConn (s.conn c.conn) = false → (c.adminConnect = false →
        s.keyCovers (s.conn c.conn) c.entry.sglKey c.entry.sglAddr c.entry.sglLen = false →
        s.keysCheck t = ((s.bump Reg.XPT_MKEY_REFUSED_COUNT).raise Ev.XPT_MKEY_REFUSED [c.conn]).finish t 2 0x86 true) ∧ (c.adminConnect = true ∨
        s.keyCovers (s.conn c.conn) c.entry.sglKey c.entry.sglAddr c.entry.sglLen = true →
        s.keysCheck t = if c.entry.sglLen < c.bytes then s.finish t 0 4 false else s.proceed t c)))

/-- Chapter 09, admin commands that have decoded. Identify answers the structure its CNS asks for and ends any other CNS 0/02h,
Get Log Page the page from its offset or Invalid Log Page; Abort ends a received command that has not started with Command
Abort Requested, and answers 1 where it finds none. Set and Get Features write and answer the values of the controller and of
a namespace; the write cache cannot be turned off and other features end 0/02h. Asynchronous Event Request waits for an event
or takes the oldest one, and a fifth ends 0/02h. Keep Alive restarts the timer and its expiry, judged at a wheel tick, resets
the controller with EVT_CMD_KATO and restarts it. Register Memory Key adds a key that is new and fits and ends another 0/02h,
or 0/81h where 256 are held; Deregister removes it. Thaw Queue of a queue that is not frozen succeeds, of the admin queue or
an unknown one ends in Invalid Queue Identifier, and of a frozen one answers its uncommitted commands and those not started,
unfreezes it, and tells the host the submission index to go on from. -/
def Obligations.AdminCommandsAnswerAndKeepState : Prop :=
  (∀ (s : State) (t : Nat) (c : Cmd), (s.ready t true 0x06 = some c) →
      (c.entry.cdw10 % 256 = 0 → exec (.nvmeIdentify t) s = .next (s.answerData t (s.identifyNs c.entry.nsid))) ∧ (c.entry.cdw10 % 256 = 1 →
        exec (.nvmeIdentify t) s = .next (s.answerData t (s.identifyCtrl ((s.conn c.conn).ctrl.getD 0)))) ∧ (c.entry.cdw10 % 256 = 2 →
        exec (.nvmeIdentify t) s = .next (s.answerData t (layoutBytes 4096 [(0, (((s.grantedNs (s.conn c.conn).pd).filter fun n => c.entry.nsid <
        n).take 1024).flatMap (leBytes 4))]))) ∧ (c.entry.cdw10 % 256 = 3 →
        exec (.nvmeIdentify t) s = .next (s.answerData t (layoutBytes 4096 [(0, [2, 16, 0, 0] ++ fit 16 (s.ns c.entry.nsid).nguid)]))) ∧
        (4 ≤ c.entry.cdw10 % 256 → exec (.nvmeIdentify t) s = .next (s.finish t 0 2 true))) ∧
  (∀ (s u : State) (t : Nat) (c : Cmd) (d : List Byte), (s.ready t true 0x02 = some c ∧
        s.logPage ((s.conn c.conn).ctrl.getD 0) (c.entry.cdw10 % 256) (c.entry.cdw12 + c.entry.cdw13 * 2 ^ 32 + c.bytes) = some (d, u)) →
      exec (.getLogPage t) s = .next (u.answerData t (fit c.bytes (d.drop (c.entry.cdw12 + c.entry.cdw13 * 2 ^ 32))))) ∧
  (∀ (s : State) (t : Nat) (c : Cmd), (s.ready t true 0x02 = some c ∧
        s.logPage ((s.conn c.conn).ctrl.getD 0) (c.entry.cdw10 % 256) (c.entry.cdw12 + c.entry.cdw13 * 2 ^ 32 + c.bytes) = none) →
      exec (.getLogPage t) s = .next (s.finish t 1 9 true)) ∧
  (∀ (s : State) (t n : Nat) (c : Cmd) (r : RxCmd), (s.ready t true 0x08 = some c ∧
        s.queueConn ((s.conn c.conn).ctrl.getD 0) (c.entry.cdw10 % 65536) = some n ∧
        ((s.conn n).rxq.find? fun r => r.entry.cid = c.entry.cdw10 / 65536) = some r) →
      exec (.nvmeAbort t) s = .next ((s.endUnstarted n (fun x => x = r) 0 7 true).success t 0)) ∧
  (∀ (s : State) (t n : Nat) (c : Cmd), (s.ready t true 0x08 = some c ∧ s.queueConn ((s.conn c.conn).ctrl.getD 0) (c.entry.cdw10 % 65536) = some n ∧
        ((s.conn n).rxq.find? fun r => r.entry.cid = c.entry.cdw10 / 65536) = none) →
      exec (.nvmeAbort t) s = .next (s.success t 1)) ∧
  (∀ (s : State) (t : Nat) (c : Cmd), (s.ready t true 0x09 = some c) →
      (c.entry.cdw10 % 256 = 0x07 → exec (.setFeatures t) s = .next ((s.updCtrl ((s.conn c.conn).ctrl.getD 0) fun x =>
        { x with ioqs := min (max (c.entry.cdw11 % 65536) (c.entry.cdw11 / 65536) + 1) (s.fld Reg.CMD_LIMITS_MAX_IOQ) }).success t ((min (max
        (c.entry.cdw11 % 65536) (c.entry.cdw11 / 65536) + 1) (s.fld Reg.CMD_LIMITS_MAX_IOQ) - 1) * 65537))) ∧ (c.entry.cdw10 % 256 = 0x0B →
        exec (.setFeatures t) s = .next ((s.updCtrl ((s.conn c.conn).ctrl.getD 0) fun x => { x with asyncMask := c.entry.cdw11 }).success t)) ∧
        (c.entry.cdw10 % 256 = 0x0F → exec (.setFeatures t) s = .next ((s.updCtrl ((s.conn c.conn).ctrl.getD 0) fun x =>
        { x with kato := c.entry.cdw11, katoAt := s.now + c.entry.cdw11 * 1000000 }).success t)) ∧ (c.entry.cdw10 % 256 = 0x82 →
        exec (.setFeatures t) s = .next ((s.updCtrl ((s.conn c.conn).ctrl.getD 0) fun x => { x with resvMask := c.entry.cdw11 }).success t)) ∧
        (c.entry.cdw10 % 256 = 0x83 → s.nsExists c.entry.nsid = true →
        exec (.setFeatures t) s = .next ((s.setResv c.entry.nsid { s.ns c.entry.nsid with ptpl := c.entry.cdw11 % 2 = 1 }).success t)) ∧
        (c.entry.cdw10 % 256 = 0x06 → exec (.setFeatures t) s = .next (if c.entry.cdw11 % 2 = 0 then s.finish t 0 2 true else s.success t)) ∧
        (c.entry.cdw10 % 256 ∉ [6, 7, 0x0B, 0x0F, 0x82, 0x83] → exec (.setFeatures t) s = .next (s.finish t 0 2 true))) ∧
  (∀ (s : State) (t : Nat) (c : Cmd), (s.ready t true 0x0A = some c) →
      (c.entry.cdw10 % 256 = 0x07 → exec (.getFeatures t) s = .next (s.success t (((s.ctrl ((s.conn c.conn).ctrl.getD 0)).ioqs - 1) * 65537))) ∧
        (c.entry.cdw10 % 256 = 0x0B → exec (.getFeatures t) s = .next (s.success t (s.ctrl ((s.conn c.conn).ctrl.getD 0)).asyncMask)) ∧
        (c.entry.cdw10 % 256 = 0x0F → exec (.getFeatures t) s = .next (s.success t (s.ctrl ((s.conn c.conn).ctrl.getD 0)).kato)) ∧
        (c.entry.cdw10 % 256 = 0x81 → exec (.getFeatures t) s = .next (s.answerData t (leBytes 16 (s.ctrl ((s.conn c.conn).ctrl.getD 0)).hostId))) ∧
        (c.entry.cdw10 % 256 = 0x82 → exec (.getFeatures t) s = .next (s.success t (s.ctrl ((s.conn c.conn).ctrl.getD 0)).resvMask)) ∧
        (c.entry.cdw10 % 256 = 0x83 → s.nsExists c.entry.nsid = true →
        exec (.getFeatures t) s = .next (s.success t (if (s.ns c.entry.nsid).ptpl then 1 else 0))) ∧ (c.entry.cdw10 % 256 = 0x06 →
        exec (.getFeatures t) s = .next (s.success t 1)) ∧ (c.entry.cdw10 % 256 ∉ [6, 7, 0x0B, 0x0F, 0x81, 0x82, 0x83] →
        exec (.getFeatures t) s = .next (s.finish t 0 2 true))) ∧
  (∀ (s : State) (t : Nat) (c : Cmd), (s.ready t true 0x0C = some c ∧ (s.ctrl ((s.conn c.conn).ctrl.getD 0)).aers.length < 4) →
      ((s.ctrl ((s.conn c.conn).ctrl.getD 0)).events = [] →
        exec (.asyncEventRequest t) s = .next ((s.updCmd t fun c => { c with phase := .waiting }).setCtrl ((s.conn c.conn).ctrl.getD 0)
        { s.ctrl ((s.conn c.conn).ctrl.getD 0) with aers := (s.ctrl ((s.conn c.conn).ctrl.getD 0)).aers ++ [t] })) ∧
        (∀ ty info page es, (s.ctrl ((s.conn c.conn).ctrl.getD 0)).events = (ty, info, page) :: es →
        exec (.asyncEventRequest t) s = .next ((s.setCtrl ((s.conn c.conn).ctrl.getD 0)
        { s.ctrl ((s.conn c.conn).ctrl.getD 0) with events := es }).success t (ty + info * 256 + page * 65536)))) ∧
  (∀ (s : State) (t : Nat) (c : Cmd), (s.ready t true 0x0C = some c ∧ 4 ≤ (s.ctrl ((s.conn c.conn).ctrl.getD 0)).aers.length) →
      exec (.asyncEventRequest t) s = .next (s.finish t 0 2 true)) ∧
  (∀ (s : State) (t : Nat) (c : Cmd), (s.ready t true 0x18 = some c) →
      exec (.keepAlive t) s = .next ((s.updCtrl ((s.conn c.conn).ctrl.getD 0) fun x => { x with katoAt := s.now + x.kato * 1000000 }).success t)) ∧
  (∀ (s u : State) (k : Fin 4096), ((s.ctrl k).used = true ∧ (s.ctrl k).kato ≠ 0 ∧ s.xpt.wheelSlot.isSome = true ∧
        u = ((s.reach (s.ctrl k).katoCheck).bump Reg.CMD_KATO_EXP_COUNT).raise Ev.CMD_KATO [k.val + 1, 0]) →
      exec (.keepAliveExpire k) s = .next ((u.resetCtrl k).updCtrl k fun x => { x with katoAt := u.now + x.kato * 1000000 })) ∧
  (∀ (s : State) (t : Nat) (c : Cmd), (s.ready t true 0xC4 = some c ∧
        ((s.ctrl ((s.conn c.conn).ctrl.getD 0)).mkeys.any fun m => m.1 = c.entry.cdw10) = false ∧ c.entry.cdw13 + c.entry.cdw14 * 2 ^ 32 ≠ 0 ∧
        c.entry.cdw11 + c.entry.cdw12 * 2 ^ 32 + (c.entry.cdw13 + c.entry.cdw14 * 2 ^ 32) ≤ 2 ^ 64 ∧
        (s.ctrl ((s.conn c.conn).ctrl.getD 0)).mkeys.length < 256) →
      exec (.registerMemoryKey t) s = .next ((s.setCtrl ((s.conn c.conn).ctrl.getD 0)
        { s.ctrl ((s.conn c.conn).ctrl.getD 0) with mkeys := (s.ctrl ((s.conn c.conn).ctrl.getD 0)).mkeys ++ [(c.entry.cdw10, c.entry.cdw11 + c.entry.cdw12 * 2 ^ 32, c.entry.cdw13 + c.entry.cdw14 * 2 ^ 32)] }).success
        t)) ∧
  (∀ (s : State) (t : Nat) (c : Cmd), (s.ready t true 0xC4 = some c) →
      ((s.ctrl ((s.conn c.conn).ctrl.getD 0)).mkeys.any (fun m => m.1 = c.entry.cdw10) = true ∨ c.entry.cdw13 + c.entry.cdw14 * 2 ^ 32 = 0 ∨
        2 ^ 64 < c.entry.cdw11 + c.entry.cdw12 * 2 ^ 32 + (c.entry.cdw13 + c.entry.cdw14 * 2 ^ 32) →
        exec (.registerMemoryKey t) s = .next (s.finish t 0 2 true)) ∧
        (¬ ((s.ctrl ((s.conn c.conn).ctrl.getD 0)).mkeys.any (fun m => m.1 = c.entry.cdw10) = true ∨ c.entry.cdw13 + c.entry.cdw14 * 2 ^ 32 = 0 ∨
        2 ^ 64 < c.entry.cdw11 + c.entry.cdw12 * 2 ^ 32 + (c.entry.cdw13 + c.entry.cdw14 * 2 ^ 32)) →
        256 ≤ (s.ctrl ((s.conn c.conn).ctrl.getD 0)).mkeys.length → exec (.registerMemoryKey t) s = .next (s.finish t 0 0x81 true))) ∧
  (∀ (s : State) (t : Nat) (c : Cmd), (s.ready t true 0xC5 = some c) →
      exec (.deregisterMemoryKey t) s = .next ((s.updCtrl ((s.conn c.conn).ctrl.getD 0) fun x =>
        { x with mkeys := x.mkeys.filter fun m => m.1 ≠ c.entry.cdw10 }).success t)) ∧
  (∀ (s : State) (t : Nat) (c : Cmd), (s.ready t true 0xC6 = some c ∧ (c.entry.cdw10 % 65536 = 0 ∨
        s.queueConn ((s.conn c.conn).ctrl.getD 0) (c.entry.cdw10 % 65536) = none)) →
      exec (.thawQueue t) s = .next (s.finish t 1 1 true)) ∧
  (∀ (s : State) (t n : Nat) (c : Cmd), (s.ready t true 0xC6 = some c ∧ c.entry.cdw10 % 65536 ≠ 0 ∧
        s.queueConn ((s.conn c.conn).ctrl.getD 0) (c.entry.cdw10 % 65536) = some n ∧ (s.conn n).frozen = false) →
      exec (.thawQueue t) s = .next (s.success t)) ∧
  (∀ (s u v : State) (t n : Nat) (c : Cmd), (s.ready t true 0xC6 = some c ∧ c.entry.cdw10 % 65536 ≠ 0 ∧
        s.queueConn ((s.conn c.conn).ctrl.getD 0) (c.entry.cdw10 % 65536) = some n ∧ (s.conn n).frozen = true ∧
        v = ((s.uncommitted n).map Prod.fst).foldl State.freezeOut s ∧
        u = (v.conn n).rxq.foldl (fun s r => (s.bump Reg.CMD_FROZEN_CPL_COUNT).completeUnstarted n r 7 0x80 false) (v.updConn n fun x =>
        { x.dropRx (fun _ => true) with frozen := false }) ∧ (u.conn n).reads = []) →
      exec (.thawQueue t) s = .next (((u.updCtrl ((s.conn c.conn).ctrl.getD 0) fun y =>
        { y with frozen := y.frozen.filter fun f => f.qid ≠ c.entry.cdw10 % 65536, frozenGen := y.frozenGen + 1 }).raise Ev.CMD_THAWED [(s.conn
        c.conn).ctrl.getD 0 + 1, c.entry.cdw10 % 65536]).success t (2 ^ 31 + if (u.conn n).pull then (u.conn n).sqFetch else (u.conn n).sqNext)))

/-- Chapter 09, Fabrics commands. Connect ends in Invalid Parameters on a connection that has a controller, in Controller Busy
while this twin does not serve, and 7/84h where TANDEM was refused. On an admin queue a host identifier of 0, a queue size
outside 2 to 32 or another subsystem than discovery ends 1/82h, a host that may not connect 1/84h, no free controller 1/81h;
else it creates the lowest free controller, with the host's domain and tenant or none on a discovery controller, binds the
connection and answers its identifier. On an I/O queue wrong parameters end 1/82h, another host than the controller's 1/84h,
and else it joins the controller of its CNTLID. Property Get reads CAP, VS, CC and CSTS; Property Set of CC enables a
controller, resets one that was enabled, and begins a shutdown, which goes on as the waiting work is woken; each ends 0/02h on
a connection without a controller. Disconnect succeeds and closes the connection. Authentication Send and Receive end in
Invalid Field in Command. -/
def Obligations.FabricsCommandsConnectAndSetTheController : Prop :=
  (∀ (s : State) (t : Nat) (c : Cmd) (d : ConnectData), (s.readyFabrics t 0x01 = some c ∧ (s.conn c.conn).ctrl.isSome = true) →
      exec (.fabricsConnect t d) s = .next (s.finish t 1 0x82 true)) ∧
  (∀ (s : State) (t : Nat) (c : Cmd) (d : ConnectData), (s.readyFabrics t 0x01 = some c ∧ (s.conn c.conn).ctrl = none ∧ s.connectBusy = true) →
      exec (.fabricsConnect t d) s = .next (s.finish t 1 0x81 false)) ∧
  (∀ (s : State) (t : Nat) (c : Cmd) (d : ConnectData), (s.readyFabrics t 0x01 = some c ∧ (s.conn c.conn).ctrl = none ∧ s.connectBusy = false ∧
        (s.conn c.conn).tandemRefused = true) →
      exec (.fabricsConnect t d) s = .next (s.finish t 7 0x84 true)) ∧
  (∀ (s : State) (t : Nat) (c : Cmd) (d : ConnectData), (s.readyFabrics t 0x01 = some c ∧ (s.conn c.conn).ctrl = none ∧ s.connectBusy = false ∧
        (s.conn c.conn).tandemRefused = false ∧ c.entry.cdw10 / 65536 = 0) →
      (d.hostId = 0 ∨ c.entry.cdw11 % 65536 + 1 < 2 ∨ 32 < c.entry.cdw11 % 65536 + 1 ∨ (d.own = false ∧ d.discovery = false) →
        exec (.fabricsConnect t d) s = .next (s.finish t 1 0x82 true)) ∧ (d.hostId ≠ 0 → 2 ≤ c.entry.cdw11 % 65536 + 1 →
        c.entry.cdw11 % 65536 + 1 ≤ 32 → d.own = true ∨ d.discovery = true → (s.hostAllowed (s.conn c.conn) d = false →
        exec (.fabricsConnect t d) s = .next (s.finish t 1 0x84 true)) ∧ (s.hostAllowed (s.conn c.conn) d = true → s.freeCtrl = none →
        exec (.fabricsConnect t d) s = .next (s.finish t 1 0x81 false)))) ∧
  (∀ (s : State) (t k : Nat) (c : Cmd) (d : ConnectData), (s.readyFabrics t 0x01 = some c ∧ (s.conn c.conn).ctrl = none ∧ s.connectBusy = false ∧
        (s.conn c.conn).tandemRefused = false ∧ c.entry.cdw10 / 65536 = 0 ∧ d.hostId ≠ 0 ∧ 2 ≤ c.entry.cdw11 % 65536 + 1 ∧
        c.entry.cdw11 % 65536 + 1 ≤ 32 ∧ d.discovery = true ∧ s.hostAllowed (s.conn c.conn) d = true ∧ s.freeCtrl = some k) →
      ∃ u : State, exec (.fabricsConnect t d) s = .next (u.success t (k + 1)) ∧ (u.ctrl k).used = true ∧ (u.ctrl k).discovery = true ∧
        (u.ctrl k).hostId = d.hostId ∧ (u.ctrl k).adminConn = c.conn ∧ (u.ctrl k).kato = c.entry.cdw12 ∧ (u.ctrl k).pd = noDomain ∧
        (u.ctrl k).tenant = noTenant ∧ (u.conn c.conn).ctrl = some k ∧ (u.conn c.conn).admin = true ∧ (u.conn c.conn).pd = noDomain ∧
        (u.conn c.conn).tenant = noTenant ∧ (∀ m, m ≠ k → u.ctrl m = s.ctrl m) ∧ (∀ m, m ≠ c.conn → u.conn m = s.conn m) ∧
        u = { s with xpt := u.xpt, cmdb := u.cmdb }) ∧
  (∀ (s : State) (t k h : Nat) (c : Cmd) (d : ConnectData), (s.readyFabrics t 0x01 = some c ∧ (s.conn c.conn).ctrl = none ∧ s.connectBusy = false ∧
        (s.conn c.conn).tandemRefused = false ∧ c.entry.cdw10 / 65536 = 0 ∧ d.hostId ≠ 0 ∧ 2 ≤ c.entry.cdw11 % 65536 + 1 ∧
        c.entry.cdw11 % 65536 + 1 ≤ 32 ∧ d.discovery = false ∧ d.own = true ∧ s.connectHost d = some h ∧ s.hostAllowed (s.conn c.conn) d = true ∧
        s.freeCtrl = some k) →
      ∃ u : State, exec (.fabricsConnect t d) s = .next (u.success t (k + 1)) ∧ (u.ctrl k).used = true ∧ (u.ctrl k).discovery = false ∧
        (u.ctrl k).hostId = d.hostId ∧ (u.ctrl k).adminConn = c.conn ∧ (u.ctrl k).kato = c.entry.cdw12 ∧
        (u.ctrl k).pd = (Assoc.get {} s.xpt.hosts h : HostEnt).pd ∧ (u.ctrl k).tenant = (Assoc.get {} s.xpt.hosts h : HostEnt).tenant ∧
        (u.conn c.conn).ctrl = some k ∧ (u.conn c.conn).admin = true ∧ (u.conn c.conn).pd = (u.ctrl k).pd ∧
        (u.conn c.conn).tenant = (u.ctrl k).tenant ∧ (∀ m, m ≠ k → u.ctrl m = s.ctrl m) ∧ (∀ m, m ≠ c.conn → u.conn m = s.conn m) ∧
        u = { s with xpt := u.xpt, cmdb := u.cmdb }) ∧
  (∀ (s : State) (t q : Nat) (c : Cmd) (d : ConnectData), (s.readyFabrics t 0x01 = some c ∧ (s.conn c.conn).ctrl = none ∧ s.connectBusy = false ∧
        (s.conn c.conn).tandemRefused = false ∧ q = c.entry.cdw10 / 65536 ∧ q ≠ 0 ∧ (d.hostId = 0 ∨ c.entry.cdw11 % 65536 + 1 < 2 ∨
        s.fld Reg.CMD_LIMITS_MAX_QD < c.entry.cdw11 % 65536 + 1 ∨ d.cntlid = 0 ∨ (s.ctrl (d.cntlid - 1)).used = false ∨
        (s.ctrl (d.cntlid - 1)).discovery = true ∨ (s.ctrl (d.cntlid - 1)).hostId ≠ d.hostId ∨ (s.ctrl (d.cntlid - 1)).ioqs < q ∨
        (s.queueConn (d.cntlid - 1) q).isSome = true ∨ d.own = false)) →
      exec (.fabricsConnect t d) s = .next (s.finish t 1 0x82 true)) ∧
  (∀ (s : State) (t q : Nat) (c : Cmd) (d : ConnectData) (x : Ctrl), (s.readyFabrics t 0x01 = some c ∧ (s.conn c.conn).ctrl = none ∧
        s.connectBusy = false ∧ (s.conn c.conn).tandemRefused = false ∧ q = c.entry.cdw10 / 65536 ∧ q ≠ 0 ∧ d.hostId ≠ 0 ∧
        2 ≤ c.entry.cdw11 % 65536 + 1 ∧ c.entry.cdw11 % 65536 + 1 ≤ s.fld Reg.CMD_LIMITS_MAX_QD ∧ d.cntlid ≠ 0 ∧ x = s.ctrl (d.cntlid - 1) ∧
        x.used = true ∧ x.discovery = false ∧ x.hostId = d.hostId ∧ q ≤ x.ioqs ∧ s.queueConn (d.cntlid - 1) q = none ∧ d.own = true) →
      (s.hostAllowed (s.conn c.conn) { d with discovery := false } = true → s.connectHost d = x.host →
        exec (.fabricsConnect t d) s = .next ((s.updConn c.conn fun y =>
        { y with ctrl := some (d.cntlid - 1), admin := false, qid := q, host := x.host, pd := x.pd, tenant := x.tenant }).success t (d.cntlid - 1 +
        1))) ∧ (s.hostAllowed (s.conn c.conn) { d with discovery := false } = false ∨ s.connectHost d ≠ x.host →
        exec (.fabricsConnect t d) s = .next (s.finish t 1 0x84 true))) ∧
  (∀ (s : State) (t k : Nat) (c : Cmd), (s.readyFabrics t 0x04 = some c ∧ (s.conn c.conn).ctrl = some k) →
      (c.entry.cdw11 = 0x00 → exec (.propertyGet t) s = .next (s.success t (1023 + 2 * 2 ^ 24) 0)) ∧ (c.entry.cdw11 = 0x08 →
        exec (.propertyGet t) s = .next (s.success t 0x20000)) ∧ (c.entry.cdw11 = 0x14 →
        exec (.propertyGet t) s = .next (s.success t (s.ctrl k).cc)) ∧ (c.entry.cdw11 = 0x1C →
        exec (.propertyGet t) s = .next (s.success t ((if (s.ctrl k).en then 1 else 0) + (s.ctrl k).shst * 4)))) ∧
  (∀ (s : State) (t k : Nat) (c : Cmd), (s.readyFabrics t 0x00 = some c ∧ (s.conn c.conn).ctrl = some k ∧ c.entry.cdw12 % 2 = 1 ∧
        c.entry.cdw12 / 2 ^ 14 % 4 = 0) →
      exec (.propertySetEnable t) s = .next ((s.setCtrl k { s.ctrl k with en := true, shn := 0, shst := 0 }).success t)) ∧
  (∀ (s : State) (t k : Nat) (c : Cmd), (s.readyFabrics t 0x00 = some c ∧ (s.conn c.conn).ctrl = some k ∧ c.entry.cdw12 % 2 = 0 ∧
        c.entry.cdw12 / 2 ^ 14 % 4 = 0) →
      exec (.propertySetReset t) s = .next (if (s.ctrl k).en then (s.success t).resetCtrl k else s.success t)) ∧
  (∀ (s : State) (t k : Nat) (c : Cmd), (s.readyFabrics t 0x00 = some c ∧ (s.conn c.conn).ctrl = some k ∧ c.entry.cdw12 / 2 ^ 14 % 4 ≠ 0) →
      exec (.propertySetShutdown t) s = .next (((s.setCtrl k
        { s.ctrl k with en := c.entry.cdw12 % 2 = 1, shn := c.entry.cdw12 / 2 ^ 14 % 4, shst := 1, shFlush := [], shRun := true }).success
        t).wakeFlush)) ∧
  (∀ (s : State) (t : Nat) (c : Cmd), ((s.conn c.conn).ctrl = none) →
      (s.readyFabrics t 0x04 = some c → exec (.propertyGet t) s = .next (s.finish t 0 2 true)) ∧ (s.readyFabrics t 0x00 = some c →
        exec (.propertySetEnable t) s = .next (s.finish t 0 2 true) ∧ exec (.propertySetReset t) s = .next (s.finish t 0 2 true) ∧
        exec (.propertySetShutdown t) s = .next (s.finish t 0 2 true))) ∧
  (∀ (s : State) (t : Nat) (c : Cmd), (s.readyFabrics t 0x08 = some c) →
      exec (.fabricsDisconnect t) s = .next ((s.success t).close c.conn 2)) ∧
  (∀ (s : State) (t : Nat) (c : Cmd), (s.readyFabrics t 0x05 = some c) →
      exec (.authenticationSend t) s = .next (s.finish t 0 2 true)) ∧
  (∀ (s : State) (t : Nat) (c : Cmd), (s.readyFabrics t 0x06 = some c) →
      exec (.authenticationReceive t) s = .next (s.finish t 0 2 true))

/-- Chapter 09, reservation commands, on the namespace x named and for the host identifier h of the controller. Register, with
PTPL as CPTPL asks, adds the key of a host that has none where fewer than 64 are registered, and conflicts where 64 are;
registering again with the same key, or ignoring the existing key, stores it anew and with another key conflicts;
unregistering or replacing needs the current key, unless it is ignored; a removal that ends a reservation of types 3 to 6
tells the registrants left. Report answers the registrants with extended data asked for and ends 0/02h without. A host that is
not registered with the current key it sends gets Reservation Conflict from Acquire and Release. Acquire of a namespace with
no reservation takes it with the type asked for, by its holder with the same type again succeeds, and else conflicts; where a
reservation of types 1 to 4 stands, a preempt whose key is neither a registrant's nor the holder's conflicts, and another
removes those registrants, takes the reservation of the same type where the key is its holder's, tells them, and with abort
ends their commands that have not started. A release by the holder with its type ends the reservation, telling the others for
types 3 to 6, with another type it ends 0/02h, and one by a registrant that does not hold it changes nothing; Clear removes
every registration and tells the others. -/
def Obligations.ReservationsAreKeptByKeyAndHolder : Prop :=
  (∀ (s : State) (t k1 k2 h : Nat) (c : Cmd) (x : Ns), (s.ready t false 0x0D = some c ∧ x = s.ns c.entry.nsid ∧
        h = (s.ctrl ((s.conn c.conn).ctrl.getD 0)).hostId ∧ c.entry.cdw10 % 8 = 0) →
      (x.keyOf h = none → x.regs.length < 64 → exec (.reservationRegister t k1 k2) s = .next ((s.setResv c.entry.nsid
        { x with ptpl := ptplAfter c.entry.cdw10 x.ptpl, regs := x.regs ++ [(h, k2)], rgen := x.rgen + 1 }).success t)) ∧ (x.keyOf h = none →
        64 ≤ x.regs.length → exec (.reservationRegister t k1 k2) s = .next (s.finish t 0 0x83 true)) ∧ (∀ k, x.keyOf h = some k → k = k2 ∨
        c.entry.cdw10.testBit 3 = true → exec (.reservationRegister t k1 k2) s = .next ((s.setResv c.entry.nsid
        { x with ptpl := ptplAfter c.entry.cdw10 x.ptpl, regs := x.regs.map fun r => if r.1 = h then (h, k2) else r, rgen := x.rgen + 1 }).success t))
        ∧ (∀ k, x.keyOf h = some k → k ≠ k2 → c.entry.cdw10.testBit 3 = false →
        exec (.reservationRegister t k1 k2) s = .next (s.finish t 0 0x83 true))) ∧
  (∀ (s : State) (t k1 k2 h : Nat) (c : Cmd) (x y : Ns), (s.ready t false 0x0D = some c ∧ x = s.ns c.entry.nsid ∧
        h = (s.ctrl ((s.conn c.conn).ctrl.getD 0)).hostId ∧ c.entry.cdw10 % 8 = 1 ∧
        y = { ({ x with ptpl := ptplAfter c.entry.cdw10 x.ptpl } : Ns).unregister h with rgen := x.rgen + 1 }) →
      (∀ k, x.keyOf h = some k → k = k1 ∨ c.entry.cdw10.testBit 3 = true → exec (.reservationRegister t k1 k2) s = .next ((if x.rtype ≠ 0 ∧
        y.rtype = 0 ∧ 3 ≤ x.rtype then (s.setResv c.entry.nsid y).resvNotify c.entry.nsid 2 (y.regs.map Prod.fst) else s.setResv c.entry.nsid
        y).success t)) ∧ (x.keyOf h = none ∨ (x.keyOf h ≠ some k1 ∧ c.entry.cdw10.testBit 3 = false) →
        exec (.reservationRegister t k1 k2) s = .next (s.finish t 0 0x83 true))) ∧
  (∀ (s : State) (t k1 k2 h : Nat) (c : Cmd) (x : Ns), (s.ready t false 0x0D = some c ∧ x = s.ns c.entry.nsid ∧
        h = (s.ctrl ((s.conn c.conn).ctrl.getD 0)).hostId ∧ c.entry.cdw10 % 8 = 2) →
      (∀ k, x.keyOf h = some k → k = k1 ∨ c.entry.cdw10.testBit 3 = true →
        exec (.reservationRegister t k1 k2) s = .next ((s.setResv c.entry.nsid
        { x with ptpl := ptplAfter c.entry.cdw10 x.ptpl, regs := x.regs.map fun r => if r.1 = h then (h, k2) else r, rgen := x.rgen + 1 }).success t))
        ∧ (x.keyOf h = none → c.entry.cdw10.testBit 3 = true → x.regs.length < 64 →
        exec (.reservationRegister t k1 k2) s = .next ((s.setResv c.entry.nsid
        { x with ptpl := ptplAfter c.entry.cdw10 x.ptpl, regs := x.regs ++ [(h, k2)], rgen := x.rgen + 1 }).success t)) ∧ (x.keyOf h ≠ some k1 →
        c.entry.cdw10.testBit 3 = false → exec (.reservationRegister t k1 k2) s = .next (s.finish t 0 0x83 true))) ∧
  (∀ (s : State) (t : Nat) (c : Cmd), (s.ready t false 0x0E = some c) →
      (c.entry.cdw11.testBit 0 = true → ∃ d : List Byte, exec (.reservationReport t) s = .next (s.answerData t (fit c.bytes d)) ∧
        d.length = 64 + 64 * (s.ns c.entry.nsid).regs.length ∧ d.take 4 = leBytes 4 (s.ns c.entry.nsid).rgen) ∧ (c.entry.cdw11.testBit 0 = false →
        exec (.reservationReport t) s = .next (s.finish t 0 2 true))) ∧
  (∀ (s : State) (t k p h : Nat) (c : Cmd) (x : Ns), (s.ready t false 0x11 = some c ∧ x = s.ns c.entry.nsid ∧
        h = (s.ctrl ((s.conn c.conn).ctrl.getD 0)).hostId ∧ c.entry.cdw10 % 8 = 0 ∧ c.entry.cdw10 / 256 % 256 ≠ 0 ∧ c.entry.cdw10 / 256 % 256 ≤ 6 ∧
        x.keyOf h = some k) →
      (x.rtype = 0 → exec (.reservationAcquire t k p) s = .next ((s.setResv c.entry.nsid
        { x with rtype := c.entry.cdw10 / 256 % 256, rholder := if 5 ≤ c.entry.cdw10 / 256 % 256 then none else some h }).success t)) ∧ (x.rtype ≠ 0 →
        x.holds h = true → x.rtype = c.entry.cdw10 / 256 % 256 → exec (.reservationAcquire t k p) s = .next (s.success t)) ∧ (x.rtype ≠ 0 →
        (x.holds h = false ∨ x.rtype ≠ c.entry.cdw10 / 256 % 256) → exec (.reservationAcquire t k p) s = .next (s.finish t 0 0x83 true))) ∧
  (∀ (s : State) (t k p h : Nat) (c : Cmd) (x : Ns) (hits : List Nat), (s.ready t false 0x11 = some c ∧ x = s.ns c.entry.nsid ∧
        h = (s.ctrl ((s.conn c.conn).ctrl.getD 0)).hostId ∧ c.entry.cdw10 % 8 ≠ 0 ∧ c.entry.cdw10 % 8 ≤ 2 ∧ c.entry.cdw10 / 256 % 256 ≠ 0 ∧
        c.entry.cdw10 / 256 % 256 ≤ 6 ∧ x.keyOf h = some k ∧ x.rtype ≠ 0 ∧ x.rtype < 5 ∧
        hits = (x.regs.filter fun r => r.1 ≠ h && r.2 = p).map Prod.fst) →
      (x.rholder.bind x.keyOf ≠ some p → hits = [] → exec (.reservationAcquire t k p) s = .next (s.finish t 0 0x83 true)) ∧
        (x.rholder.bind x.keyOf ≠ some p → hits ≠ [] →
        exec (.reservationAcquire t k p) s = .next ((if c.entry.cdw10 % 8 = 2 then ((s.setResv c.entry.nsid
        { x with regs := x.regs.filter fun r => !hits.contains r.1, rgen := x.rgen + 1 }).resvNotify c.entry.nsid 1 hits).preemptAbort c.entry.nsid
        hits else (s.setResv c.entry.nsid { x with regs := x.regs.filter fun r => !hits.contains r.1, rgen := x.rgen + 1 }).resvNotify c.entry.nsid 1
        hits).success t)) ∧ (x.rholder.bind x.keyOf = some p → x.rtype = c.entry.cdw10 / 256 % 256 →
        exec (.reservationAcquire t k p) s = .next ((if c.entry.cdw10 % 8 = 2 then ((s.setResv c.entry.nsid
        { x with regs := x.regs.filter fun r => !hits.contains r.1, rgen := x.rgen + 1, rholder := some h }).resvNotify c.entry.nsid 1
        hits).preemptAbort c.entry.nsid hits else (s.setResv c.entry.nsid
        { x with regs := x.regs.filter fun r => !hits.contains r.1, rgen := x.rgen + 1, rholder := some h }).resvNotify c.entry.nsid 1 hits).success
        t))) ∧
  (∀ (s : State) (t k p h : Nat) (c : Cmd) (x : Ns), (s.ready t false 0x11 = some c ∧ x = s.ns c.entry.nsid ∧
        h = (s.ctrl ((s.conn c.conn).ctrl.getD 0)).hostId ∧ c.entry.cdw10 % 8 ≤ 2 ∧ c.entry.cdw10 / 256 % 256 ≠ 0 ∧ c.entry.cdw10 / 256 % 256 ≤ 6 ∧
        x.keyOf h ≠ some k) →
      exec (.reservationAcquire t k p) s = .next (s.finish t 0 0x83 true)) ∧
  (∀ (s : State) (t k h : Nat) (c : Cmd) (x : Ns), (s.ready t false 0x15 = some c ∧ x = s.ns c.entry.nsid ∧
        h = (s.ctrl ((s.conn c.conn).ctrl.getD 0)).hostId ∧ c.entry.cdw10 % 8 = 0 ∧ x.keyOf h = some k) →
      (x.holds h = false → exec (.reservationRelease t k) s = .next (s.success t)) ∧ (x.holds h = true → x.rtype = c.entry.cdw10 / 256 % 256 →
        exec (.reservationRelease t k) s = .next ((if 3 ≤ x.rtype then (s.setResv c.entry.nsid { x with rtype := 0, rholder := none }).resvNotify
        c.entry.nsid 2 ((x.regs.map Prod.fst).filter fun g => g ≠ h) else s.setResv c.entry.nsid { x with rtype := 0, rholder := none }).success t)) ∧
        (x.holds h = true → x.rtype ≠ c.entry.cdw10 / 256 % 256 → exec (.reservationRelease t k) s = .next (s.finish t 0 2 true))) ∧
  (∀ (s : State) (t k h : Nat) (c : Cmd) (x : Ns), (s.ready t false 0x15 = some c ∧ x = s.ns c.entry.nsid ∧
        h = (s.ctrl ((s.conn c.conn).ctrl.getD 0)).hostId ∧ c.entry.cdw10 % 8 = 1 ∧ x.keyOf h = some k) →
      exec (.reservationRelease t k) s = .next (((s.setResv c.entry.nsid
        { x with regs := [], rtype := 0, rholder := none, rgen := x.rgen + 1 }).resvNotify c.entry.nsid 3 ((x.regs.map Prod.fst).filter fun g => g ≠
        h)).success t)) ∧
  (∀ (s : State) (t k h : Nat) (c : Cmd) (x : Ns), (s.ready t false 0x15 = some c ∧ x = s.ns c.entry.nsid ∧
        h = (s.ctrl ((s.conn c.conn).ctrl.getD 0)).hostId ∧ x.keyOf h ≠ some k) →
      exec (.reservationRelease t k) s = .next (s.finish t 0 0x83 true))

/-- Chapter 09. An accepted Create Namespace on a free NSID and a volume without one, with an unbound key, stores it with that key
as generation 1, raises the change and completes. An accepted Delete Namespace refuses a namespace with live retention locks,
is held while decoded commands use it, and else removes it at once. Quiescing ends when no started command is left and every
completion is acknowledged; after 10 ms it is abandoned with EVT_CMD_ACT_ABANDONED and the waiting command completes BUSY; the
new image then runs and fetching resumes on every READY connection. -/
def Obligations.NamespacesAreCreatedDeletedAndActivationQuiesces : Prop :=
  (∀ (s u : State) (id : Nat) (c : Started), (s.Accepts id 0x0203 [(0, 40)] (· = 48) (fun _ => true) c u ∧ leAt c.payload 0 4 ≠ 0 ∧
        leAt c.payload 0 4 ≤ 16384 ∧ leAt c.payload 6 2 ≤ 1023 ∧ leAt c.payload 0x14 4 ≤ 1 ∧ leAt c.payload 0x28 8 = 0 ∧
        (u.volume (leAt c.payload 4 2)).used = true ∧ leAt c.payload 8 8 ≠ 0 ∧ leAt c.payload 8 8 ≤ (u.volume (leAt c.payload 4 2)).extents * 4096 ∧
        (u.ns (leAt c.payload 0 4)).used = false ∧ u.nsOf (leAt c.payload 4 2) = none ∧ u.keyFree (leAt c.payload 0x10 4) = true) →
      exec (.createNamespace id) s = .next ((((u.setNs (leAt c.payload 0 4)
        { used := true, volume := leAt c.payload 4 2, tenant := leAt c.payload 6 2, nsze := leAt c.payload 8 8, ptpl := leAt c.payload 0x14 4 % 2 = 1, nguid := (c.payload.drop 0x18).take 16, gens := [(1, leAt c.payload 0x10 4 % 2 ^ 28)] }).bindKey
        (leAt c.payload 0x10 4) (leAt c.payload 0 4) 1).nsChanged (leAt c.payload 0 4) []).holderDone c)) ∧
  (∀ (s u : State) (id : Nat) (c : Started), (s.Accepts id 0x0204 [(0, 40)] (· = 8) (fun _ => true) c u ∧ leAt c.payload 4 4 = 0 ∧
        u.nsExists (leAt c.payload 0 4) = true) →
      (u.liveLocks (leAt c.payload 0 4) ≠ [] → exec (.deleteNamespace id) s = .next (u.complete c .retentionLocked)) ∧
        (u.liveLocks (leAt c.payload 0 4) = [] → (u.startDelete (leAt c.payload 0 4)).nsBusy (leAt c.payload 0 4) none = true →
        exec (.deleteNamespace id) s = .next ((u.startDelete (leAt c.payload 0 4)).hold c.id)) ∧ (u.liveLocks (leAt c.payload 0 4) = [] →
        (u.startDelete (leAt c.payload 0 4)).nsBusy (leAt c.payload 0 4) none = false →
        exec (.deleteNamespace id) s = .next (((u.startDelete (leAt c.payload 0 4)).removeNs (leAt c.payload 0 4)).holderDone c))) ∧
  (∀ (s : State) (n : Nat), (s.cmdb.act = .quiescing n ∧ s.quiesced = true) →
      exec .activationQuiesced s = .next { s with cmdb.act := .running s.now }) ∧
  (∀ (s : State) (n : Nat), (s.cmdb.act = .quiescing n) →
      exec .activationAbandon s = .next (((({ s with cmdb.act := .none } : State).reach (n + 10000000)).raise Ev.CMD_ACT_ABANDONED).completeWaiting
        0x0901 (fun _ => true) .busy)) ∧
  (∀ (s : State) (n : Nat), (s.cmdb.act = .running n) →
      ∃ u : State, u = (({ s with cmdb.act := .none } : State).runImage).completeWaiting 0x0901 (fun _ => true) .success ∧
        exec .activationResume s = .next ((u.xpt.conns.map Prod.fst).foldl (fun s n => if (s.conn n).st = .ready then s.fetchSq n 64 else s) u))

/-- Chapter 10. A write of LAY_CTL with BUILD set, with members set, no volume and the holder's write accepted, builds the layout:
its rows are those of the generator for the seed, no slot is in use and the layout is marked built; with a volume or with
BUILD clear it changes nothing. An accepted Create Volume stores the volume with the lowest free segments, a thick one
allocates each extent as well, and without enough segments or slots it ends LIMIT_EXCEEDED; an accepted Resize that grows it
adds segments, one that shrinks it below its namespace is refused, with locked blocks in what it would lose it ends
RETENTION_LOCKED, and else it frees the extents past the new size; an accepted Delete Volume without a namespace removes the
volume at once, with a locked namespace it ends RETENTION_LOCKED, and else it waits for the namespace's commands or removes
both. Each command that changes a volume has its volume page written and answers what it holds allocated. -/
def Obligations.LayoutIsBuiltAndVolumesAreKept : Prop :=
  (∀ (s : State) (v : Word), (getBits v 0 0 = 1 ∧ s.acceptsHolder true = true ∧ s.anyVolume = false ∧ s.geoN ≠ 0) →
      exec (.layoutBuild v) s = .next s.buildLayout) ∧
  (∀ (s : State), ((s.rg Reg.LAY_SEED_SEED.addr).toNat ≠ 0) →
      s.buildLayout.lay.built = true ∧ s.buildLayout.lay.slots = [] ∧ s.buildLayout.lay.volumes = s.lay.volumes ∧
        s.buildLayout.lay.rows = (buildRows (s.rg Reg.LAY_SEED_SEED.addr).toNat s.geoN s.geoW 4096 0 [] []).1) ∧
  (∀ (s : State) (v : Word), (s.anyVolume = true ∨ getBits v 0 0 = 0) →
      exec (.layoutBuild v) s = .next s) ∧
  (∀ (s : State) (id : Nat) (c : Started) (u : State), (s.AcceptsPlain id 0x0200 [(3, 1), (8, 32)] c ∧ c.desc.par 0 2 ≤ 16383 ∧ c.desc.par 2 1 ≤ 1 ∧
        c.desc.par 4 4 ≠ 0 ∧ c.desc.par 4 4 ≤ 536870912 ∧ (s.volume (c.desc.par 0 2)).used = false ∧ s.lay.built = true ∧
        u = (s.setVolume (c.desc.par 0 2) { used := true, extents := c.desc.par 4 4, segs := s.freeSegs.take (segsFor (c.desc.par 4 4)) }).persist
        (.volume (c.desc.par 0 2))) →
      (segsFor (c.desc.par 4 4) ≤ s.freeSegs.length → c.desc.par 2 1 = 0 →
        exec (.createVolume id) s = .next (u.holderDone c (u.allocated (c.desc.par 0 2)))) ∧ (segsFor (c.desc.par 4 4) ≤ s.freeSegs.length →
        c.desc.par 2 1 = 1 → c.desc.par 4 4 ≤ s.slotsFree →
        exec (.createVolume id) s = .next (((List.range (c.desc.par 4 4)).foldl (fun s e => (s.allocExtent (c.desc.par 0 2) e).1) u).holderDone c
        (((List.range (c.desc.par 4 4)).foldl (fun s e => (s.allocExtent (c.desc.par 0 2) e).1) u).allocated (c.desc.par 0 2)))) ∧
        (s.freeSegs.length < segsFor (c.desc.par 4 4) ∨ (c.desc.par 2 1 = 1 ∧ s.slotsFree < c.desc.par 4 4) →
        exec (.createVolume id) s = .next (s.complete c .limitExceeded))) ∧
  (∀ (s : State) (id : Nat) (c : Started), (s.AcceptsPlain id 0x0201 [(3, 1), (8, 32)] c ∧ c.desc.par 0 2 ≤ 16383 ∧ c.desc.par 2 1 = 0 ∧
        c.desc.par 4 4 ≠ 0 ∧ c.desc.par 4 4 ≤ 536870912 ∧ (s.volume (c.desc.par 0 2)).used = true ∧
        (s.volume (c.desc.par 0 2)).extents ≤ c.desc.par 4 4 ∧
        segsFor (c.desc.par 4 4) - (s.volume (c.desc.par 0 2)).segs.length ≤ s.freeSegs.length) →
      ∃ u : State, u = (s.setVolume (c.desc.par 0 2)
        { s.volume (c.desc.par 0 2) with extents := c.desc.par 4 4, segs := (s.volume (c.desc.par 0 2)).segs ++ s.freeSegs.take (segsFor (c.desc.par 4 4) - (s.volume (c.desc.par 0 2)).segs.length) }).persist
        (.volume (c.desc.par 0 2)) ∧ exec (.resizeVolume id) s = .next (u.holderDone c (u.allocated (c.desc.par 0 2)))) ∧
  (∀ (s : State) (id : Nat) (c : Started) (x : Volume) (locked : Bool), (s.AcceptsPlain id 0x0201 [(3, 1), (8, 32)] c ∧ c.desc.par 0 2 ≤ 16383 ∧
        c.desc.par 2 1 = 0 ∧ c.desc.par 4 4 ≠ 0 ∧ x = s.volume (c.desc.par 0 2) ∧ c.desc.par 4 4 < x.extents ∧ c.desc.par 4 4 ≤ 536870912 ∧
        x.used = true ∧ ((s.nsOf (c.desc.par 0 2)).map fun k => (s.ns k).nsze).getD 0 ≤ c.desc.par 4 4 * 4096 ∧
        locked = ((s.nsOf (c.desc.par 0 2)).map fun k => s.locked k (c.desc.par 4 4 * 4096) ((x.extents - c.desc.par 4 4) * 4096)).getD false) →
      (locked = true → exec (.resizeVolume id) s = .next (s.complete c .retentionLocked)) ∧ (locked = false →
        ∃ u v : State, u = ((x.map.map Prod.fst).filter fun e => decide (c.desc.par 4 4 ≤ e)).foldl (fun s e => s.freeExtent (c.desc.par 0 2) e) s ∧
        v = (u.setVolume (c.desc.par 0 2) { u.volume (c.desc.par 0 2) with extents := c.desc.par 4 4, segs := (u.volume (c.desc.par 0 2)).segs.take (segsFor (c.desc.par 4 4)) }).persist
        (.volume (c.desc.par 0 2)) ∧ exec (.resizeVolume id) s = .next (v.holderDone c (v.allocated (c.desc.par 0 2))))) ∧
  (∀ (s : State) (id n : Nat) (c : Started), (s.AcceptsPlain id 0x0201 [(3, 1), (8, 32)] c ∧ c.desc.par 0 2 ≤ 16383 ∧ c.desc.par 2 1 = 0 ∧
        c.desc.par 4 4 ≠ 0 ∧ c.desc.par 4 4 < (s.volume (c.desc.par 0 2)).extents ∧ c.desc.par 4 4 ≤ 536870912 ∧
        (s.volume (c.desc.par 0 2)).used = true ∧ s.nsOf (c.desc.par 0 2) = some n ∧ c.desc.par 4 4 * 4096 < (s.ns n).nsze) →
      exec (.resizeVolume id) s = .next (s.complete c .configConflict)) ∧
  (∀ (s u : State) (id : Nat) (c : Started), (s.Accepts id 0x0202 [(0, 40)] (· = 8) (fun _ => true) c u ∧ zeroAt c.payload 2 6 = true ∧
        (u.volume (leAt c.payload 0 2)).used = true ∧ u.nsOf (leAt c.payload 0 2) = none) →
      exec (.deleteVolume id) s = .next ((u.removeVolume (leAt c.payload 0 2)).holderDone c 0)) ∧
  (∀ (s u : State) (id n : Nat) (c : Started), (s.Accepts id 0x0202 [(0, 40)] (· = 8) (fun _ => true) c u ∧ zeroAt c.payload 2 6 = true ∧
        (u.volume (leAt c.payload 0 2)).used = true ∧ u.nsOf (leAt c.payload 0 2) = some n) →
      (u.liveLocks n ≠ [] → exec (.deleteVolume id) s = .next (u.complete c .retentionLocked)) ∧ (u.liveLocks n = [] →
        (u.startDelete n).nsBusy n none = true → exec (.deleteVolume id) s = .next ((u.startDelete n).hold c.id)) ∧ (u.liveLocks n = [] →
        (u.startDelete n).nsBusy n none = false → exec (.deleteVolume id) s = .next ((((u.startDelete n).removeNs n).removeVolume (leAt c.payload 0
        2)).holderDone c 0)))

/-- Chapter 10, destage. A stripe with dirty blocks, or one to be redone, and with no open record is destaged by the holder when
destage of it may issue, its extent is not being worked on and no suspect stripe of it waits for its check; with a full ring
EVT_SBG_RING_FULL is raised once instead. A second write of a stripe with an open record, or one that may not issue, changes
nothing. The record opens, and its data is issued, only when it is acknowledged and persisted; parity is issued only when all
data has landed, and the record clears only when all parity has landed, freeing its slot and its buffered blocks; the last
record of an extent being rebuilt stays for the end of that extent. A journal page goes, sealed, to the current copies of its
segment GATHER after its first change, and with at least two of them its records count as persisted; without counters for the
seals it stays to be written. MAP_GEN advances by one every 100 ms and a SAFE_GEN that advances is written to every
superblock. -/
def Obligations.StripeWritesFollowTheJournalOrder : Prop :=
  (∀ (s : State) (v e x : Nat) (rs : List (Nat × Nat × List Byte)), (s.hrn.holder = true ∧ s.lay.built = true ∧ s.mayDestage v e x = true ∧
        (s.mapEnt v e).alloc = true ∧ s.sbg.replaying = false ∧ (s.reb.suspect.contains (v, e) && !s.reb.suspectDone.contains (v, e, x)) = false ∧
        (s.dirtyOf v e x ≠ [] ∨ s.redoing v e x = true) ∧ s.extentBusy v e = false ∧
        (s.sbg.stripes.any fun j => j.volume = v && j.extent = e && j.stripe = x) = false) →
      (s.sbg.stripes.length < 1048576 → exec (.destageStripeStart v e x rs) s = .next (s.destage v e x rs)) ∧ (1048576 ≤ s.sbg.stripes.length →
        s.sbg.full = false → exec (.destageStripeStart v e x rs) s = .next (({ s with sbg.full := true } : State).raise Ev.SBG_RING_FULL)) ∧
        (1048576 ≤ s.sbg.stripes.length → s.sbg.full = true → exec (.destageStripeStart v e x rs) s = .next s)) ∧
  (∀ (s : State) (v e x : Nat) (rs : List (Nat × Nat × List Byte)), ((s.sbg.stripes.any fun j => j.volume = v && j.extent = e && j.stripe = x) = true
        ∨ s.mayDestage v e x = false) →
      exec (.destageStripeStart v e x rs) s = .next s) ∧
  (∀ (s : State) (n : Nat) (j : Stripe), (s.stripeAt n = some j ∧ j.phase = .building ∧ j.acked = true ∧ j.persisted = true) →
      exec (.recordOpen n) s = .next (s.issueStripe n j.dataW .data)) ∧
  (∀ (s : State) (n : Nat) (j : Stripe), (s.stripeAt n = some j ∧ (j.acked = false ∨ j.persisted = false)) →
      exec (.recordOpen n) s = .next s) ∧
  (∀ (s : State) (n : Nat) (j : Stripe), (s.stripeAt n = some j) →
      (j.phase = .data → j.left = 0 → exec (.stripeDataLanded n) s = .next (s.issueStripe n j.parityW .parity)) ∧ (j.left ≠ 0 →
        exec (.stripeDataLanded n) s = .next s)) ∧
  (∀ (s : State) (n : Nat) (j : Stripe), (s.stripeAt n = some j ∧ j.phase = .parity ∧ j.left = 0 ∧ (j.kind ≠ 1 ∨ s.reb.current = none ∨
        (s.sbg.stripes.any fun x => x.slot ≠ j.slot && x.kind = 1 && x.volume = j.volume && x.extent = j.extent) = true)) →
      exec (.stripeParityLanded n) s = .next (s.clearStripe j)) ∧
  (∀ (s : State) (n : Nat) (j : Stripe) (r : RbExtent), (s.stripeAt n = some j ∧ j.kind = 1 ∧ s.reb.current = some r ∧ j.volume = r.volume ∧
        j.extent = r.extent ∧ (s.sbg.stripes.any fun x => x.slot ≠ j.slot && x.kind = 1 && x.volume = r.volume && x.extent = r.extent) = false) →
      exec (.stripeParityLanded n) s = .next s) ∧
  (∀ (s : State) (n : Nat) (j : Stripe), (s.stripeAt n = some j ∧ (j.phase ≠ .parity ∨ j.left ≠ 0)) →
      exec (.stripeParityLanded n) s = .next s) ∧
  (∀ (s u v w : State) (p : Fin 16384) (t k : Nat) (ds : List Nat), ((s.sbg.dirtyPages.find? fun e => e.1 = p.val).map Prod.snd = some t ∧
        s.hrn.holder = true ∧ v = s.reach (t + s.gather) ∧ ds = v.segCurrent (p / 256) ∧ v.takeCtrs ds.length = (u, some k) ∧
        w = ((ds.map fun d => (d, 256 + p.val)).zip (List.range ds.length)).foldl (fun s d => s.emit (.journalPage d.1.1 d.1.2 (v.sealMeta d.1.1 d.1.2
        (k + d.2) (v.journalBytes p)) v.tim.floor)) u) →
      exec (.journalPageWrite p) s = .next { w with sbg := { w.sbg with dirtyPages := w.sbg.dirtyPages.del p, stripes := if ds.length < 2 then w.sbg.stripes else w.sbg.stripes.map fun j => if pageOf j.slot = p then { j with persisted := true } else j } })
        ∧
  (∀ (s u v : State) (p : Fin 16384) (t : Nat), ((s.sbg.dirtyPages.find? fun e => e.1 = p.val).map Prod.snd = some t ∧ s.hrn.holder = true ∧
        v = s.reach (t + s.gather) ∧ v.takeCtrs (v.segCurrent (p / 256)).length = (u, none)) →
      exec (.journalPageWrite p) s = .next u) ∧
  (∀ (s : State), ∃ u : State, u = (s.reach (s.lay.mapGenAt + mapGenPeriod)).nextMapGen ∧ u.lay.mapGen = s.lay.mapGen + 1 ∧
        exec .mapGenAdvance s = .next (if u.lay.safeGen < u.safeOf then ({ u with lay.safeGen := u.safeOf } : State).writeSuperblocks else u))

/-- Chapters 01 and 11. On a follower a decoded read waits unless its connection is in TANDEM and the follower has joined.
Elsewhere a read that meets a lost block ends in Unrecovered Read Error and issues nothing. A read whose blocks are neither
buffered nor allocated has zeros for every block and asks no drive. A read of one buffered block uses the sealed bytes of the
buffer. A read of one block on the drives takes a holding slot and is issued, or waits for one and raises EVT_CPH_HOLD_WAIT
once; a free slot goes to the read that has waited longest. -/
def Obligations.ReadsComeFromBufferZerosOrDrives : Prop :=
  (∀ (s : State) (t : Nat) (c : Cmd), (s.ready t false 0x02 = some c ∧ s.follows = true ∧ ((s.conn c.conn).tandem = false ∨ s.hrn.role = .joining)) →
      exec (.nvmeRead t) s = .next (s.updCmd t fun c' => { c' with phase := .waiting })) ∧
  (∀ (s : State) (t : Nat) (c : Cmd), (s.ready t false 0x02 = some c ∧ (s.follows = false ∨ ((s.conn c.conn).tandem = true ∧ s.hrn.role ≠ .joining)) ∧
        s.lostIn (s.ns c.entry.nsid).volume c.entry.slba c.entry.nlb = true) →
      exec (.nvmeRead t) s = .next (s.finish t 2 0x81 true)) ∧
  (∀ (s : State) (t : Nat) (c : Cmd), (s.ready t false 0x02 = some c ∧ (s.follows = false ∨ ((s.conn c.conn).tandem = true ∧ s.hrn.role ≠ .joining)) ∧
        s.lostIn (s.ns c.entry.nsid).volume c.entry.slba c.entry.nlb = false ∧
        (∀ i < c.entry.nlb, s.bufferedBlock c.entry.nsid (c.entry.slba + i) = none ∧
        (s.mapEnt (s.ns c.entry.nsid).volume ((c.entry.slba + i) / 4096)).alloc = false)) →
      exec (.nvmeRead t) s = .next (s.updCmd t fun c' =>
        { c' with phase := .reading, blocks := (List.range c.entry.nlb).map fun i => { lba := c.entry.slba + i, st := .plain (List.replicate 4096 0) }, fromBuffer := false }))
        ∧
  (∀ (s : State) (t : Nat) (c : Cmd) (b : BufBlk), (s.ready t false 0x02 = some c ∧ (s.follows = false ∨ ((s.conn c.conn).tandem = true ∧
        s.hrn.role ≠ .joining)) ∧ s.lostIn (s.ns c.entry.nsid).volume c.entry.slba c.entry.nlb = false ∧ c.entry.nlb = 1 ∧
        s.bufferedBlock c.entry.nsid c.entry.slba = some b) →
      exec (.nvmeRead t) s = .next (s.updCmd t fun c' =>
        { c' with phase := .reading, blocks := [{ lba := c.entry.slba, st := .held b.blk, buffered := true }], fromBuffer := true })) ∧
  (∀ (s : State) (t : Nat) (c : Cmd), (s.ready t false 0x02 = some c ∧ (s.follows = false ∨ ((s.conn c.conn).tandem = true ∧ s.hrn.role ≠ .joining)) ∧
        s.lostIn (s.ns c.entry.nsid).volume c.entry.slba c.entry.nlb = false ∧ c.entry.nlb = 1 ∧ s.bufferedBlock c.entry.nsid c.entry.slba = none ∧
        (s.mapEnt (s.ns c.entry.nsid).volume (c.entry.slba / 4096)).alloc = true) →
      exec (.nvmeRead t) s = .next ((s.updCmd t fun c' =>
        { c' with phase := .reading, blocks := [{ lba := c.entry.slba, st := .wait }], fromBuffer := false }).askBlock t 0)) ∧
  (∀ (s : State) (t i : Nat), (0 < s.slotsHeldFree ∨ (s.slotsHeldFree = 0 ∧ s.cph.waitRaised = true)) →
      s.askBlock t i = if 0 < s.slotsHeldFree then (s.takeHold.updBlk t i fun b => { b with slot := true }).startBlock t i else
        { s with cph.waiting := s.cph.waiting ++ [(t, i)] }) ∧
  (∀ (s : State) (t i : Nat), (s.slotsHeldFree = 0 ∧ s.cph.waitRaised = false) →
      s.askBlock t i = ({ s with cph.waiting := s.cph.waiting ++ [(t, i)], cph.waitRaised := true } : State).raise Ev.CPH_HOLD_WAIT) ∧
  (∀ (s : State) (t i : Nat) (ws : List (Nat × Nat)), (s.cph.waiting = (t, i) :: ws ∧ 0 < s.slotsHeldFree) →
      exec .holdSlotGrant s = .next ((({ s with cph.waiting := ws } : State).takeHold.updBlk t i fun b => { b with slot := true }).startBlock t i))

/-- Chapters 01 and 09. A write whose extents cannot be allocated ends in Capacity Exceeded with EVT_CMD_CAPACITY; one that is
allocated fetches its data when there is dirty room and none is held before it, mirror headroom and a saved nonce counter, and
else is held. A held write goes on when its turn and room have come, a held deallocation with the pieces left to it, and
fetching goes on behind both. Write Zeroes and deallocation work through their pieces cut at extents: a piece in an
unallocated extent has nothing to zero, a whole extent deallocated is freed, another is buffered as zeros while there is room,
and the first without room is held. A Dataset Management command with a range past the end ends 0/80h, with AD one on locked
blocks 7/82h and on partly lost blocks 7/81h; else it keeps the pieces of its ranges, or none without AD, and deallocates them
once its CAPSULE hook lets it, ending 0/82h where the hook cannot run. A Flush waits for the visible blocks whose completion
came before it. A new DIRTY_CAP within the ceiling is taken and carried to the peer, and one above it, or one this twin does
not accept, changes nothing. -/
def Obligations.WritesAreAdmittedBufferedAndFlushed : Prop :=
  (∀ (s u : State) (t : Nat) (h : Bool) (c : Cmd), (s.ready t false 0x01 = some c ∧
        s.allocRange (s.ns c.entry.nsid).volume c.entry.slba c.entry.nlb = (u, false)) →
      exec (.nvmeWrite t h) s = .next ((u.raise Ev.CMD_CAPACITY [c.entry.nsid]).finish t 0 0x81 true)) ∧
  (∀ (s u : State) (t : Nat) (h : Bool) (c : Cmd), (s.ready t false 0x01 = some c ∧
        s.allocRange (s.ns c.entry.nsid).volume c.entry.slba c.entry.nlb = (u, true)) →
      (u.room c.entry.nlb = true → u.heldBefore c.uid = false → h = true → u.mayEncrypt = true → exec (.nvmeWrite t h) s = .next (u.fetchData t c)) ∧
        (u.room c.entry.nlb = true → u.heldBefore c.uid = false → (h = false ∨ u.mayEncrypt = false) →
        exec (.nvmeWrite t h) s = .next (u.holdWrite t false)) ∧ ((u.room c.entry.nlb = false ∨ u.heldBefore c.uid = true) →
        exec (.nvmeWrite t h) s = .next (u.holdWrite t true))) ∧
  (∀ (s : State) (t : Nat) (c : Cmd), (s.cmd t = some c ∧ c.phase = .held ∧ s.heldBefore c.uid = false) →
      (c.entry.opcode = 0x01 → s.room c.entry.nlb = true → s.mayEncrypt = true →
        exec (.writeDataFetch t) s = .next (s.fetchData t c).noteHeld.resumeFetch) ∧ (c.entry.opcode = 0x01 → s.room c.entry.nlb = false ∨
        s.mayEncrypt = false → exec (.writeDataFetch t) s = .next s) ∧ (c.entry.opcode ≠ 0x01 →
        exec (.writeDataFetch t) s = .next (s.zeroPieces t c c.dealloc c.ranges).resumeFetch)) ∧
  (∀ (s : State) (t : Nat) (c : Cmd), (s.ready t false 0x08 = some c) →
      exec (.nvmeWriteZeroes t) s = .next (s.zeroPieces t c c.dealloc (cutRange 18 c.entry.slba c.entry.nlb))) ∧
  (∀ (s u : State) (t lba n : Nat) (c : Cmd) (d : Bool) (rs : List (Nat × Nat)), (u = s.clearLost (s.ns c.entry.nsid).volume lba n) →
      ((u.mapEnt (s.ns c.entry.nsid).volume (lba / 4096)).alloc = false → s.zeroPieces t c d ((lba, n) :: rs) = u.zeroPieces t c d rs) ∧
        ((u.mapEnt (s.ns c.entry.nsid).volume (lba / 4096)).alloc = true → (d = true → n = 4096 →
        s.zeroPieces t c d ((lba, n) :: rs) = (u.freeExtent (s.ns c.entry.nsid).volume (lba / 4096)).zeroPieces t c d rs) ∧ (d = false ∨ n ≠ 4096 →
        u.room n = true → s.zeroPieces t c d ((lba, n) :: rs) = (u.bufferZeros t c.entry.nsid (s.ns c.entry.nsid).volume lba n (!(u.conn
        c.conn).freeze)).zeroPieces t c d rs) ∧ (d = false ∨ n ≠ 4096 → u.room n = false →
        s.zeroPieces t c d ((lba, n) :: rs) = (u.updCmd t fun c' => { c' with ranges := (lba, n) :: rs }).holdWrite t true))) ∧
  (∀ (s u : State) (t : Nat) (c : Cmd) (ws rs : List (Nat × Nat)), (s.ready t false 0x09 = some c ∧ rs = ws.take (c.entry.cdw10 % 256 + 1) ∧
        u = s.updCmd t (fun c' => { c' with ranges := if c.dealloc then rs.flatMap fun r => cutRange (r.2 / 4096 + 2) r.1 r.2 else [] })) →
      ((rs.any fun r => decide ((s.ns c.entry.nsid).nsze < r.1 + r.2)) = true →
        exec (.nvmeDatasetManagement t ws) s = .next (s.finish t 0 0x80 true)) ∧
        ((rs.any fun r => decide ((s.ns c.entry.nsid).nsze < r.1 + r.2)) = false →
        ((c.dealloc && rs.any fun r => s.locked c.entry.nsid r.1 r.2) = true →
        exec (.nvmeDatasetManagement t ws) s = .next (s.finish t 7 0x82 true)) ∧
        ((c.dealloc && rs.any fun r => s.locked c.entry.nsid r.1 r.2) = false →
        ((c.dealloc && rs.any fun r => s.lostPart (s.ns c.entry.nsid).volume r.1 r.2) = true →
        exec (.nvmeDatasetManagement t ws) s = .next (s.finish t 7 0x81 true)) ∧
        ((c.dealloc && rs.any fun r => s.lostPart (s.ns c.entry.nsid).volume r.1 r.2) = false → (u.hookOn 1 = true →
        exec (.nvmeDatasetManagement t ws) s = .next ((u.updCmd t fun c' => { c' with phase := .hook }).invokeHook 1 t)) ∧ (u.hookOn 1 = false →
        u.hookRefuses 1 = true → exec (.nvmeDatasetManagement t ws) s = .next (u.finish t 0 0x82 true)) ∧ (u.hookOn 1 = false →
        u.hookRefuses 1 = false → exec (.nvmeDatasetManagement t ws) s = .next (u.deallocate t)))))) ∧
  (∀ (s : State) (t : Nat) (c : Cmd), (s.ready t false 0x00 = some c) →
      exec (.nvmeFlush t) s = .next ((s.updCmd t fun c' => { c' with phase := .waiting, bufs := s.coveredBy c }).wakeFlush)) ∧
  (∀ (s : State) (v : Word), (s.acceptsHolder true = true ∧ getBits v 23 0 ≤ 31665) →
      exec (.dirtyCapWrite v) s = .next (if (s.setCap v).hasPeer then (s.setCap v).carryChange (.carriedReg Reg.CMD_DIRTY_CAP_DIRTY_CAP.addr v) else
        s.setCap v)) ∧
  (∀ (s : State) (v : Word), (31665 < getBits v 23 0 ∨ s.acceptsHolder true = false) →
      exec (.dirtyCapWrite v) s = .next s)

/-- Chapters 10 and 14. An at-rest encryption of a call seals its blocks with consecutive nonces of the device's counter, or on a
follower for a core in tier 0 with the nonce given and the peer's tag, and answers SUCCESS; a decryption opens blocks until
one fails and answers SUCCESS or INTEGRITY with their number, and a verification does the same and moves nothing. Wire calls
encrypt with the SA's key and salt and append the ICV, or decrypt and answer INTEGRITY with the packet counted where the ICV
is wrong. A handle without a key or arguments that are not allowed are BAD_DESC, an address the core may not use ADDR_FAULT,
and pipelines that disagree INTERNAL. EC calls read their sources, write the code of chapter 10 to their destinations, with
its CRC-32C list where one is asked for, and answer with their number; a field out of its range, more erasures than parity or
an update outside the data is BAD_DESC. Encryption for a write takes its nonces first, or on a follower uses those it was
told, and aborts where the pipelines disagree; decryption for a read releases its blocks in order, a block never written
reading as zeros. A saved epoch lets encryption resume. -/
def Obligations.CipherAndCodeCallsAreChecked : Prop :=
  (∀ (s s1 s2 : State) (m : List Bool) (c : Call) (g k a b : Nat) (key : List Byte), (s.takeCtrs (c.arg 0x0A 2) = (s1, some k) ∧
        s1.runPipe false 0 m false = (s2, true) ∧ s.nextCall 2 = some c ∧ c.arg 8 1 = 0 ∧ c.atRestOk = true ∧
        s.handleKey (c.arg 0x0C 4) = some (g, key) ∧ c.arg 0x09 1 = 0 ∧ c.arg 0x30 8 = 0 ∧
        s.access c (c.arg 0x10 8) (c.arg 0x0A 2 * 4096) false = some a ∧ s.access c (c.arg 0x18 8) (c.arg 0x0A 2 * 4160) true = some b) →
      exec (.atRestEncrypt .call m) s = .next (({ s2 with mem := writeMem s2.mem b (sealRun key g (s2.prefixOf (if c.arg 0x0C 4 / 2 ^ 28 = 3 then 2 else 1)) (c.arg 0x20 4) (c.arg 0x24 4) (c.arg 0x0A 2) k (c.arg 0x28 8) (s2.bytes a (c.arg 0x0A 2 * 4096))).flatten }
        : State).answer c 0 (k % 2 ^ 32))) ∧
  (∀ (s s2 : State) (m : List Bool) (c : Call) (g a b : Nat) (key : List Byte), (s.runPipe false 0 m false = (s2, true) ∧ s.nextCall 2 = some c ∧
        c.arg 8 1 = 0 ∧ c.atRestOk = true ∧ s.handleKey (c.arg 0x0C 4) = some (g, key) ∧ c.arg 0x09 1 = 1 ∧ c.tier1 = false ∧ s.follows = true ∧
        s.access c (c.arg 0x10 8) (c.arg 0x0A 2 * 4096) false = some a ∧ s.access c (c.arg 0x18 8) (c.arg 0x0A 2 * 4160) true = some b) →
      exec (.atRestEncrypt .call m) s = .next (({ s2 with mem := writeMem s2.mem b (sealRun key g (s2.hrn.peerTag * 256 + (if c.arg 0x0C 4 / 2 ^ 28 = 3 then 2 else 1)) (c.arg 0x20 4) (c.arg 0x24 4) (c.arg 0x0A 2) (c.arg 0x30 8) (c.arg 0x28 8) (s2.bytes a (c.arg 0x0A 2 * 4096))).flatten }
        : State).answer c 0 ((c.arg 0x30 8) % 2 ^ 32))) ∧
  (∀ (s : State) (m : List Bool) (r : Bool) (c : Call), (s.nextCall 2 = some c ∧ (s.handleKey (c.arg 0x0C 4) = none ∨ c.atRestOk = false)) →
      (c.arg 8 1 = 0 → exec (.atRestEncrypt .call m) s = .next (s.answer c 2 0)) ∧ (c.arg 8 1 = 1 →
        exec (.atRestDecrypt .call m r) s = .next (s.answer c 2 0)) ∧ (c.arg 8 1 = 4 → exec (.atRestVerify m r) s = .next (s.answer c 2 0))) ∧
  (∀ (s : State) (m : List Bool) (r : Bool) (c : Call), (s.nextCall 2 = some c ∧ (s.handleKey (c.arg 0x0C 4)).isSome = true ∧ c.atRestOk = true ∧
        c.arg 0x09 1 = 0 ∧ c.arg 0x30 8 = 0) →
      (c.arg 8 1 = 0 → s.access c (c.arg 0x10 8) (c.arg 0x0A 2 * 4096) false = none ∨ s.access c (c.arg 0x18 8) (c.arg 0x0A 2 * 4160) true = none →
        exec (.atRestEncrypt .call m) s = .next (s.answer c 3 0)) ∧ (c.arg 8 1 = 1 → s.access c (c.arg 0x10 8) (c.arg 0x0A 2 * 4160) false = none ∨
        s.access c (c.arg 0x18 8) (c.arg 0x0A 2 * 4096) true = none → exec (.atRestDecrypt .call m r) s = .next (s.answer c 3 0)) ∧ (c.arg 8 1 = 4 →
        c.arg 0x18 8 = 0 → s.access c (c.arg 0x10 8) (c.arg 0x0A 2 * 4160) false = none → exec (.atRestVerify m r) s = .next (s.answer c 3 0))) ∧
  (∀ (s u : State) (m : List Bool) (r : Bool) (c : Call) (a b : Nat), (s.runPipe false 1 m r = (u, true) ∧ s.nextCall 2 = some c ∧ c.arg 8 1 = 1 ∧
        c.atRestOk = true ∧ (s.handleKey (c.arg 0x0C 4)).isSome = true ∧ c.arg 0x09 1 = 0 ∧ c.arg 0x30 8 = 0 ∧
        s.access c (c.arg 0x10 8) (c.arg 0x0A 2 * 4160) false = some a ∧ s.access c (c.arg 0x18 8) (c.arg 0x0A 2 * 4096) true = some b) →
      ∃ o, o = u.openRun true (u.callGens c) (c.arg 0x20 4) (c.arg 0x24 4) (c.arg 0x0A 2) (c.arg 0x28 8) (u.bytes a (c.arg 0x0A 2 * 4160)) 0 [] ∧
        exec (.atRestDecrypt .call m r) s = .next (({ o.1 with mem := writeMem o.1.mem b o.2.2.1 } : State).answer c (if o.2.2.2 then 0 else 6) (if
        o.2.2.2 then 0 else o.2.1))) ∧
  (∀ (s u : State) (m : List Bool) (r : Bool) (c : Call) (a : Nat), (s.runPipe false 4 m r = (u, true) ∧ s.nextCall 2 = some c ∧ c.arg 8 1 = 4 ∧
        c.atRestOk = true ∧ (s.handleKey (c.arg 0x0C 4)).isSome = true ∧ c.arg 0x09 1 = 0 ∧ c.arg 0x30 8 = 0 ∧
        s.access c (c.arg 0x10 8) (c.arg 0x0A 2 * 4160) false = some a ∧ c.arg 0x18 8 = 0) →
      ∃ o, o = u.openRun false (u.callGens c) (c.arg 0x20 4) (c.arg 0x24 4) (c.arg 0x0A 2) (c.arg 0x28 8) (u.bytes a (c.arg 0x0A 2 * 4160)) 0 [] ∧
        exec (.atRestVerify m r) s = .next (o.1.answer c (if o.2.2.2 then 0 else 6) 0)) ∧
  (∀ (s u : State) (c : Call) (a b h : Nat) (key salt : List Byte), (s.runPipe true 2 [false] false = (u, true) ∧ s.nextCall 2 = some c ∧
        c.arg 8 1 = 2 ∧ s.saKey (c.arg 0x0C 4) = some (key, salt) ∧ c.tier1 = false ∧ c.arg 0x0A 2 = 0 ∧ c.arg 0x09 1 = 0 ∧ c.arg 0x24 4 = 0 ∧
        s.access c (c.arg 0x10 8) (c.arg 0x20 4) false = some a ∧ s.access c (c.arg 0x18 8) (c.arg 0x20 4 + 16) true = some b ∧
        s.access c (c.arg 0x28 8) 8 false = some h) →
      ∃ ct, ct = fit (c.arg 0x20 4) (Config.gcmEncrypt key (salt ++ leBytes 8 (c.arg 0x30 8)) (u.bytes a (c.arg 0x20 4))) ∧
        exec (.wireEncrypt false) s = .next (({ u with mem := writeMem u.mem b (ct ++ fit 16 (Config.gcmTag key (salt ++ leBytes 8 (c.arg 0x30 8)) (u.bytes h 8 ++ leBytes 8 (c.arg 0x30 8)) ct)) }
        : State).answer c 0 (c.arg 0x30 8 % 2 ^ 32))) ∧
  (∀ (s u : State) (c : Call) (a b h : Nat) (key salt : List Byte), (s.runPipe true 3 [false] false = (u, true) ∧ s.nextCall 2 = some c ∧
        c.arg 8 1 = 3 ∧ s.saKey (c.arg 0x0C 4) = some (key, salt) ∧ c.tier1 = false ∧ c.arg 0x0A 2 = 0 ∧ c.arg 0x09 1 = 0 ∧ c.arg 0x24 4 = 0 ∧
        s.access c (c.arg 0x10 8) (c.arg 0x20 4 + 16) false = some a ∧ s.access c (c.arg 0x18 8) (c.arg 0x20 4) true = some b ∧
        s.access c (c.arg 0x28 8) 8 false = some h) →
      ∃ v : State, v = { u with mem := writeMem u.mem b (fit (c.arg 0x20 4) (Config.gcmDecrypt key (salt ++ leBytes 8 (c.arg 0x30 8)) (u.bytes a (c.arg 0x20 4)))) } ∧
        exec (.wireDecrypt false) s = .next (if fit 16 (Config.gcmTag key (salt ++ leBytes 8 (c.arg 0x30 8)) (u.bytes h 8 ++ leBytes 8 (c.arg 0x30 8))
        (u.bytes a (c.arg 0x20 4))) = v.bytes (a + c.arg 0x20 4) 16 then v.answer c 0 0 else (v.espDrop (c.arg 0x0C 4 % 2 ^ 28 / 2)).answer c 6 0)) ∧
  (∀ (s u : State) (mm : Bool) (c : Call) (a b h : Nat) (ks : List Byte × List Byte), (s.nextCall 2 = some c ∧ c.arg 8 1 = 2) →
      (s.saKey (c.arg 0x0C 4) = none ∨ c.tier1 = true ∨ c.arg 0x0A 2 ≠ 0 ∨ c.arg 0x09 1 ≠ 0 ∨ c.arg 0x24 4 ≠ 0 →
        exec (.wireEncrypt mm) s = .next (s.answer c 2 0)) ∧ (s.saKey (c.arg 0x0C 4) = some ks → c.tier1 = false → c.arg 0x0A 2 = 0 →
        c.arg 0x09 1 = 0 → c.arg 0x24 4 = 0 → (s.access c (c.arg 0x10 8) (c.arg 0x20 4) false = none →
        exec (.wireEncrypt mm) s = .next (s.answer c 3 0)) ∧ (s.access c (c.arg 0x10 8) (c.arg 0x20 4) false = some a →
        s.access c (c.arg 0x18 8) (c.arg 0x20 4 + 16) true = some b → s.access c (c.arg 0x28 8) 8 false = some h →
        s.runPipe true 2 [mm] false = (u, false) → exec (.wireEncrypt mm) s = .next (u.answer c 7 0)))) ∧
  (∀ (s u : State) (t k : Nat) (m : List Bool) (c : Cmd), (s.cmd t = some c ∧ s.follows = false ∧ c.phase = .sealing ∧
        s.takeCtrs c.entry.nlb = (u, some k)) →
      (∀ v : State, u.runPipe false 0 m false = (v, true) → exec (.atRestEncrypt (.tag t) m) s = .next (v.sealWrite t c k (v.prefixOf 1))) ∧
        (∀ v : State, u.runPipe false 0 m false = (v, false) → exec (.atRestEncrypt (.tag t) m) s = .next (v.finish t 0 6 false))) ∧
  (∀ (s u : State) (t : Nat) (m : List Bool) (c : Cmd) (x : Nat × Nat), (s.runPipe false 0 m false = (u, true) ∧ s.cmd t = some c ∧ s.follows = true ∧
        c.phase = .sealing ∧ ((s.conn c.conn).nonces.find? fun x => x.1 = c.sqIndex) = some x) →
      exec (.atRestEncrypt (.tag t) m) s = .next (((u.updConn c.conn fun y => { y with nonces := y.nonces.erase x }).sealWrite t c x.2 (u.hrn.peerTag
        * 256 + 1)).mirrored ((List.range c.entry.nlb).map fun i => u.lay.nextBuf + i))) ∧
  (∀ (s u : State) (t : Nat) (m : List Bool) (r : Bool) (c : Cmd), (s.cmd t = some c ∧ c.phase = .reading ∧ c.allHeld = true ∧
        s.runPipe false 1 m r = (u, true)) →
      exec (.atRestDecrypt (.tag t) m r) s = .next (u.openRead t c 0 c.blocks [])) ∧
  (∀ (s : State) (t i : Nat) (c : Cmd) (b : RdBlk) (bs : List RdBlk) (acc d blk : List Byte), (b.st = .held blk ∧
        openBlock (s.liveKeys c.entry.nsid) c.entry.nsid b.lba (s.mapEnt (s.ns c.entry.nsid).volume (b.lba / 4096)).gen blk = .zeros) →
      s.openRead t c i (b :: bs) acc = (s.bump Reg.CPH_ZERO_READ_COUNT).openRead t c (i + 1) bs (acc ++ List.replicate 4096 0)) ∧
  (∀ (s : State), (s.cph.saved = false ∧ s.cph.ctrEpoch ≠ 0 ∧ s.cph.ctrCount < 2 ^ 40 ∧ s.sec.write.isSome = true) →
      exec .ctrSaveDone s = .next { s with cph.saved := true }) ∧
  (∀ (s : State) (c : Call) (src dst : List Nat) (out : List (List Byte)), (out = (ecEncode (c.arg 0x0A 1) (src.map fun a => s.bytes a (c.arg 0x0C
        4))).map (fit (c.arg 0x0C 4)) ∧ s.nextCall 3 = some c ∧ c.arg 8 1 = 0 ∧ c.arg 0x09 1 ≠ 0 ∧ c.arg 0x09 1 ≤ 31 ∧ c.arg 0x0A 1 ≠ 0 ∧
        c.arg 0x0A 1 ≤ 4 ∧ 64 ≤ c.arg 0x0C 4 ∧ c.arg 0x0C 4 ≤ 266240 ∧ c.arg 0x0C 4 % 64 = 0 ∧ c.arg 0x14 4 = 0 ∧ c.arg 0x30 8 = 0 ∧
        s.addrList c (c.arg 0x18 8) (c.arg 0x09 1) (c.arg 0x0C 4) false = some src ∧
        s.addrList c (c.arg 0x20 8) (c.arg 0x0A 1) (c.arg 0x0C 4) true = some dst) →
      (c.arg 0x28 8 = 0 → exec .ecEncode s = .next (({ s with mem := (dst.zip out).foldl (fun m d => writeMem m d.1 d.2) s.mem } : State).answer c 0
        out.length)) ∧ (∀ a, c.arg 0x28 8 ≠ 0 → s.access c (c.arg 0x28 8) (4 * c.arg 0x0A 1) true = some a →
        exec .ecEncode s = .next (({ s with mem := writeMem ((dst.zip out).foldl (fun m d => writeMem m d.1 d.2) s.mem) a (out.flatMap fun d => leBytes 4 (crc32c d)) }
        : State).answer c 0 out.length))) ∧
  (∀ (s : State) (c : Call) (src dst : List Nat) (out : List (List Byte)), (out = (ecUpdate (c.arg 0x0B 1) ((src.map fun a => s.bytes a (c.arg 0x0C
        4)).getD 0 []) ((src.map fun a => s.bytes a (c.arg 0x0C 4)).getD 1 []) ((src.map fun a => s.bytes a (c.arg 0x0C 4)).drop 2)).map (fit (c.arg
        0x0C 4)) ∧ s.nextCall 3 = some c ∧ c.arg 8 1 = 1 ∧ c.arg 0x09 1 ≠ 0 ∧ c.arg 0x09 1 ≤ 31 ∧ c.arg 0x0A 1 ≠ 0 ∧ c.arg 0x0A 1 ≤ 4 ∧
        64 ≤ c.arg 0x0C 4 ∧ c.arg 0x0C 4 ≤ 266240 ∧ c.arg 0x0C 4 % 64 = 0 ∧ c.arg 0x14 4 = 0 ∧ c.arg 0x30 8 = 0 ∧
        s.addrList c (c.arg 0x18 8) (c.arg 0x0A 1 + 2) (c.arg 0x0C 4) false = some src ∧
        s.addrList c (c.arg 0x20 8) (c.arg 0x0A 1) (c.arg 0x0C 4) true = some dst ∧ c.arg 0x0B 1 < c.arg 0x09 1) →
      (c.arg 0x28 8 = 0 → exec .ecUpdate s = .next (({ s with mem := (dst.zip out).foldl (fun m d => writeMem m d.1 d.2) s.mem } : State).answer c 0
        out.length)) ∧ (∀ a, c.arg 0x28 8 ≠ 0 → s.access c (c.arg 0x28 8) (4 * c.arg 0x0A 1) true = some a →
        exec .ecUpdate s = .next (({ s with mem := writeMem ((dst.zip out).foldl (fun m d => writeMem m d.1 d.2) s.mem) a (out.flatMap fun d => leBytes 4 (crc32c d)) }
        : State).answer c 0 out.length))) ∧
  (∀ (s : State) (c : Call) (src dst : List Nat) (out : List (List Byte)), (out = (ecDecode (c.arg 0x09 1) ((c.erase false).zip (src.map fun a =>
        s.bytes a (c.arg 0x0C 4))) (c.erase true)).map (fit (c.arg 0x0C 4)) ∧ s.nextCall 3 = some c ∧ c.arg 8 1 = 2 ∧ c.arg 0x09 1 ≠ 0 ∧
        c.arg 0x09 1 ≤ 31 ∧ c.arg 0x0A 1 ≠ 0 ∧ c.arg 0x0A 1 ≤ 4 ∧ 64 ≤ c.arg 0x0C 4 ∧ c.arg 0x0C 4 ≤ 266240 ∧ c.arg 0x0C 4 % 64 = 0 ∧
        c.arg 0x14 4 = 0 ∧ c.arg 0x30 8 = 0 ∧ s.addrList c (c.arg 0x18 8) ((c.erase false).length) (c.arg 0x0C 4) false = some src ∧
        s.addrList c (c.arg 0x20 8) ((c.erase true).length) (c.arg 0x0C 4) true = some dst ∧ (c.erase true).length ≤ c.arg 0x0A 1 ∧
        c.arg 0x10 4 < 2 ^ (c.arg 0x09 1 + c.arg 0x0A 1)) →
      (c.arg 0x28 8 = 0 → exec .ecDecode s = .next (({ s with mem := (dst.zip out).foldl (fun m d => writeMem m d.1 d.2) s.mem } : State).answer c 0
        out.length)) ∧ (∀ a, c.arg 0x28 8 ≠ 0 → s.access c (c.arg 0x28 8) (4 * (c.erase true).length) true = some a →
        exec .ecDecode s = .next (({ s with mem := writeMem ((dst.zip out).foldl (fun m d => writeMem m d.1 d.2) s.mem) a (out.flatMap fun d => leBytes 4 (crc32c d)) }
        : State).answer c 0 out.length))) ∧
  (∀ (s : State) (c : Call), (s.nextCall 3 = some c) →
      (c.arg 8 1 = 2 → c.arg 0x0A 1 < (c.erase true).length → exec .ecDecode s = .next (s.answer c 2 0)) ∧ (c.arg 8 1 = 1 →
        c.arg 0x09 1 ≤ c.arg 0x0B 1 → exec .ecUpdate s = .next (s.answer c 2 0)) ∧ (c.arg 0x09 1 = 0 ∨ 31 < c.arg 0x09 1 ∨ c.arg 0x0A 1 = 0 ∨
        4 < c.arg 0x0A 1 ∨ c.arg 0x0C 4 < 64 ∨ 266240 < c.arg 0x0C 4 ∨ c.arg 0x0C 4 % 64 ≠ 0 ∨ c.arg 0x14 4 ≠ 0 ∨ c.arg 0x30 8 ≠ 0 → (c.arg 8 1 = 0 →
        exec .ecEncode s = .next (s.answer c 2 0)) ∧ (c.arg 8 1 = 1 → exec .ecUpdate s = .next (s.answer c 2 0)) ∧ (c.arg 8 1 = 2 →
        exec .ecDecode s = .next (s.answer c 2 0))))

/-- Chapter 14, Tables 14-1 to 14-3. A block sealed for a place (namespace, LBA, extent GEN) under generation g opens under any
list of live generations in which g's key is found, passing the guard, key and tag checks, and yields the decryption of its
own ciphertext under its own nonce. At an LBA that differs in its low 32 bits it fails at the guard, before any key is used;
where g is not live it fails at the key check. A block whose 64 bytes of metadata are zero reads as zeros. -/
def Obligations.SealedBlocksOpenAgain : Prop :=
  (∀ (key : List Byte) (gens : List (Nat × List Byte)) (g pre ctr nsid lba gen : Nat) (d : List Byte), (0 < g ∧ g < 2 ^ 32 ∧
        (gens.find? fun x => x.1 = g && keyCheck x.2 = keyCheck key) = some (g, key)) →
      openBlock gens nsid lba gen (sealBlock key g pre ctr nsid lba gen d) = .plain (fit 4096 (Config.gcmDecrypt key (leBytes 4 pre ++ leBytes 8 ctr)
        (fit 4096 (Config.gcmEncrypt key (leBytes 4 pre ++ leBytes 8 ctr) d))))) ∧
  (∀ (key : List Byte) (gens : List (Nat × List Byte)) (g pre ctr nsid lba lba' gen : Nat) (d : List Byte), (0 < g ∧ g < 2 ^ 32 ∧
        lba % 2 ^ 32 ≠ lba' % 2 ^ 32) →
      openBlock gens nsid lba' gen (sealBlock key g pre ctr nsid lba gen d) = .fails 1) ∧
  (∀ (key : List Byte) (gens : List (Nat × List Byte)) (g pre ctr nsid lba gen : Nat) (d : List Byte), (0 < g ∧ g < 2 ^ 32 ∧ (∀ x ∈ gens, x.1 ≠ g)) →
      openBlock gens nsid lba gen (sealBlock key g pre ctr nsid lba gen d) = .fails 2) ∧
  (∀ (gens : List (Nat × List Byte)) (nsid lba gen : Nat) (ct : List Byte), (ct.length = 4096) →
      openBlock gens nsid lba gen (ct ++ List.replicate 64 0) = .zeros)

/-- Chapter 11. The holder with no extent being rebuilt and a background slot free takes the next extent of the queue outside
DRAIN when the window is open or it has no redundancy left and no record of it is open, and rebuilds every stripe; with an
empty queue there is nothing to take. An extent whose records have not landed is not done; one whose records have landed has
its progress set and told to the peer, its progress page written, its records cleared and what was found lost sealed, and is
counted. A hedge starts for a read of a SUSPECT member only. A pass of the device or of a volume starts with SUCCESS when none
runs and BUSY when one does, stops at its next extent when told to, scrubs the stripes of its next extent in its window, and
ends with EVT_SCRUB_DONE when nothing is left; outside the pass a stripe is scrubbed only for the media repairs that wait for
it, which are counted. A suspect extent's stripe is scrubbed with the data deciding, and the last stripe takes the extent out. -/
def Obligations.RebuildAndScrubWorkExtentByExtent : Prop :=
  (∀ (s u : State) (rs : List (Nat × Nat × Nat × List Byte)) (bad : List (Nat × Nat × Nat)) (r : RbExtent), (s.nextRebuild = some r ∧
        s.hrn.holder = true ∧ s.reb.current = none ∧ s.pwr.st ≠ .drain ∧ (s.windowOpen 1 = true ∨ r.cls = 1) ∧ s.bgSlot = true ∧
        s.recordOpen r.volume r.extent = false ∧ u = ({ s with reb.current := some r, reb.toSeal := [] } : State).noteQueue) →
      exec (.rebuildExtentStart rs bad) s = .next ((List.range u.stripes).foldl (fun s x => s.rebuildStripe r rs bad x) u)) ∧
  (∀ (s : State) (rs : List (Nat × Nat × Nat × List Byte)) (bad : List (Nat × Nat × Nat)), (s.nextRebuild = none) →
      exec (.rebuildExtentStart rs bad) s = .next s.noteQueue) ∧
  (∀ (s : State) (rs : List (Nat × Nat × Nat × List Byte)) (r : RbExtent), (s.reb.current = some r ∧ (1 < (s.rebuildRecords r).length ∨
        (s.rebuildRecords r).any (fun j => j.phase ≠ .parity || j.left ≠ 0) = true)) →
      exec (.rebuildExtentDone rs) s = .next s) ∧
  (∀ (s u : State) (rs : List (Nat × Nat × Nat × List Byte)) (r : RbExtent) (js : List Stripe), (js = s.rebuildRecords r ∧
        u = ((r.positions.foldl (fun s p => s.setProgress r.row r.band p (r.cls ≠ 11)) s).setRow r.row
        { s.row r.row with homeless := (s.row r.row).homeless.filter fun h => !(h.1 = r.band && r.positions.contains h.2) }).tellTwin (.progress r.row
        r.band r.positions (r.cls ≠ 11)) ∧ s.reb.current = some r ∧ js.length ≤ 1 ∧ (js.all fun j => j.phase = .parity && j.left = 0) = true) →
      exec (.rebuildExtentDone rs) s = .next (((js.foldl State.clearStripe
        { (u.persist (.progress (slotKey r.row r.band))).bump Reg.LAY_RB_DONE_COUNT with reb.current := none }).sealFound r.volume r.extent
        rs).noteQueue)) ∧
  (∀ (s : State) (id t i q : Nat) (c : DrvCmd), (s.drv.cmds.find? (fun c => c.id = id) = some c ∧ c.use = .hostRead t i q) →
      ((s.member c.member).st = .suspect → exec (.hedgeTimerExpire id) s = .next ((s.reach (c.at_ + 4 * (s.member c.member).median)).gatherMore t i
        true)) ∧ ((s.member c.member).st ≠ .suspect → exec (.hedgeTimerExpire id) s = .next s)) ∧
  (∀ (s : State) (v e x : Nat) (rs : List (Nat × Nat × List Byte)), (s.hrn.holder = true ∧ s.reb.suspect.contains (v, e) = true ∧ x < s.stripes) →
      ∃ t, exec (.suspectScrubStripe v e x rs) s = .next t ∧ (v, e, x) ∈ t.reb.suspectDone ∧ (∀ z ∈ t.reb.suspect, z ∈ s.reb.suspect)) ∧
  (∀ (s : State) (v e x : Nat) (rs : List (Nat × Nat × List Byte)), (s.reb.suspect.contains (v, e) = false) →
      exec (.suspectScrubStripe v e x rs) s = .next s) ∧
  (∀ (s u : State) (id : Nat) (c : Started), (s.Accepts id 0x0603 [(5, 35)] (fun _ => true) (fun d => d.par 0 1 ≠ 1) c u ∧ c.desc.par 0 1 = 0 ∧
        c.desc.par 1 1 ≤ 1 ∧ c.desc.par 4 1 ≤ 1 ∧ (c.desc.par 4 1 = 1 → (u.volume (c.desc.par 2 2)).used = true)) →
      (u.reb.scrub.isSome = true → exec (.startScrubPass id) s = .next (u.complete c .busy)) ∧ (u.reb.scrub = none →
        exec (.startScrubPass id) s = .next ((u.startScrub (c.desc.par 1 1) (if c.desc.par 4 1 = 1 then some (c.desc.par 2 2) else none)).holderDone
        c))) ∧
  (∀ (s u : State) (id : Nat) (c : Started), (s.Accepts id 0x0603 [(5, 35)] (fun _ => true) (fun d => d.par 0 1 = 1) c u) →
      exec (.stopScrubPass id) s = .next (({ u with reb.scrub := u.reb.scrub.map fun p => { p with stopping := true } } : State).holderDone c)) ∧
  (∀ (s : State) (v e x : Nat) (rs : List (Nat × Nat × List Byte)) (p : ScrubPass), (s.hrn.holder = true ∧ (s.mapEnt v e).alloc = true ∧
        x < s.stripes ∧ s.bgSlot = true ∧ s.stripeOpen v (s.lbaOf e x 0 0) = false ∧ s.reb.scrub = some p ∧ p.left.head? = some (v, e) ∧
        s.windowOpen 2 = true) →
      ∃ u : State, u = s.scrubStripe v e x (p.mode = 1) rs ∧
        exec (.scrubStripe v e x rs) s = .next (if x + 1 < u.stripes then u else
        ({ u with reb.scrub := some { p with left := if p.stopping then [] else p.left.drop 1 }, reb.scrubbed := u.reb.scrubbed + 1 } :
        State).tellTwin (.scrubbed v e))) ∧
  (∀ (s : State) (v e x : Nat) (rs : List (Nat × Nat × List Byte)) (ms : List (Nat × Nat × Nat × Nat × Nat)), (ms = s.lay.repairs.filter (fun q => q.1
        = (s.mapEnt v e).row && q.2.1 = (s.mapEnt v e).band && q.2.2.2.1 = x) ∧ s.hrn.holder = true ∧ (s.mapEnt v e).alloc = true ∧ x < s.stripes ∧
        s.bgSlot = true ∧ s.stripeOpen v (s.lbaOf e x 0 0) = false ∧ (s.reb.scrub = none ∨ s.windowOpen 2 = false)) →
      exec (.scrubStripe v e x rs) s = .next (if ms = [] then s else (s.scrubStripe v e x true rs).bump Reg.LAY_MEDIA_REPAIR_COUNT ms.length)) ∧
  (∀ (s : State) (p : ScrubPass), (s.reb.scrub = some p) →
      (p.left = [] → exec .scrubPassDone s = .next (({ s with reb.scrub := none } : State).raise Ev.SCRUB_DONE)) ∧ (p.left ≠ [] →
        exec .scrubPassDone s = .next s))

/-- Chapter 11, members. A change by the holder along the table's moves is noted and written to the superblocks and, with a peer
present, carried to it and waits for its acknowledgement; without one it takes effect at once; a move the table does not have
changes nothing. An accepted Add Member of an absent index with no change waiting raises EVT_DRV_REQ_FAIL and answers the
requirement that the drive fails, a size past 128 TB among them, where the volume minimum is met; where none fails it takes
the port and the blocks, has the drive zeroed and becomes ACTIVE when the change is acknowledged; a drive smaller than the
layout's least is LIMIT_EXCEEDED and an index that is not absent CONFIG_CONFLICT. Return Member makes a SUSPECT member ACTIVE,
Drain Member an ACTIVE or SUSPECT one DRAINING when every row can be substituted and is LIMIT_EXCEEDED otherwise, Remove
Member a FAILED one ABSENT. A drained member with no extent left to move becomes ABSENT; a finished copy-back ends its
substitution, is told to the peer and written to the superblocks. Restoring without a superblock begins the claim of a new
shelf; with one it restores the layout and claims, or with fewer live members than the arbitration count turns the Harness off
with EVT_HRN_NO_QUORUM. -/
def Obligations.MembersChangeStateByTheTable : Prop :=
  (∀ (s : State) (d : Nat) (m : MState) (k : Nat) (cmd : Option Nat), (s.hrn.holder = true ∧ mayMove (s.member d).st m = true ∧
        (s.reb.changes.find? fun c => c.member = d) = none) →
      ∃ u : State, u = s.noteChange ⟨d, m, k, cmd⟩ ∧ (⟨d, m, k, cmd⟩ : MChange) ∈ u.reb.changes ∧ u.lay.sbSeq = s.lay.sbSeq + 1 ∧
        u.member d = s.member d ∧ (u.hasPeer = true → s.changeMember d m k cmd = u.carryChange (.controlMsg (.memberState d m.code))) ∧
        (u.hasPeer = false → s.changeMember d m k cmd = u.applyChange ⟨d, m, k, cmd⟩)) ∧
  (∀ (s : State) (d : Nat) (m : MState) (k : Nat) (cmd : Option Nat), (s.hrn.holder = false ∨ mayMove (s.member d).st m = false) →
      s.changeMember d m k cmd = s) ∧
  (∀ (s : State) (d : Fin 64) (ch : MChange), (s.reb.changes.find? (fun c => c.member = d.val) = some ch) →
      exec (.memberStateAck d) s = .next (s.applyChange ch)) ∧
  (∀ (s u : State) (id fails blocks : Nat) (c : Started), (s.Accepts id 0x0600 [(3, 37)] (fun _ => true) (fun d => d.par 2 1 ≠ 1) c u ∧
        c.desc.par 2 1 = 0 ∧ c.desc.par 1 1 ≤ 63 ∧ c.desc.par 0 1 < u.geoN) →
      ((u.member (c.desc.par 0 1)).st ≠ .absent ∨ (u.reb.changes.any fun ch => ch.member = c.desc.par 0 1) = true →
        exec (.addMember id fails blocks) s = .next (u.complete c .configConflict)) ∧ ((u.member (c.desc.par 0 1)).st = .absent →
        (u.reb.changes.any fun ch => ch.member = c.desc.par 0 1) = false → (u.lay.built = true → blocks < u.lay.minBlocks →
        exec (.addMember id fails blocks) s = .next (u.complete c .limitExceeded)) ∧ (u.lay.built = false ∨ u.lay.minBlocks ≤ blocks →
        (reqFails fails blocks ≠ 0 → exec (.addMember id fails blocks) s = .next (((u.setFld (Reg.DRV_PORT_STATUS_REQ_OK (c.desc.par 1 1)) 0).raise
        Ev.DRV_REQ_FAIL [c.desc.par 1 1, reqFails fails blocks]).complete c .invalidField 1 (reqFails fails blocks))) ∧ (reqFails fails blocks = 0 →
        exec (.addMember id fails blocks) s = .next ((((((u.setFld (Reg.DRV_PORT_STATUS_REQ_OK (c.desc.par 1 1)) 1).setFld (Reg.LAY_MEMBER_PORT
        (c.desc.par 0 1)) (c.desc.par 1 1)).setMember (c.desc.par 0 1) { st := .absent, blocks := blocks }).emit (.driveZero (c.desc.par 0 1) 0
        blocks)).hold c.id).changeMember (c.desc.par 0 1) .active 0 (some c.id)))))) ∧
  (∀ (s u : State) (id : Nat) (c : Started), (s.Accepts id 0x0600 [(3, 37)] (fun _ => true) (fun d => d.par 2 1 = 1) c u ∧ c.desc.par 0 1 < u.geoN ∧
        (u.member (c.desc.par 0 1)).st = .suspect ∧ (u.reb.changes.any fun ch => ch.member = c.desc.par 0 1) = false) →
      exec (.returnMember id) s = .next ((u.hold c.id).changeMember (c.desc.par 0 1) .active 0 (some c.id))) ∧
  (∀ (s : State) (id : Nat) (c : Started), (s.AcceptsPlain id 0x0601 [(1, 39)] c ∧ c.desc.par 0 1 < s.geoN ∧
        ((s.member (c.desc.par 0 1)).st = .active ∨ (s.member (c.desc.par 0 1)).st = .suspect) ∧
        (s.reb.changes.any fun ch => ch.member = c.desc.par 0 1) = false) →
      exec (.drainMember id) s = .next (if s.canSubstitute (c.desc.par 0 1) then (s.hold c.id).changeMember (c.desc.par 0 1) .draining 0 (some c.id)
        else s.complete c .limitExceeded)) ∧
  (∀ (s : State) (id : Nat) (c : Started), (s.AcceptsPlain id 0x0602 [(1, 39)] c ∧ c.desc.par 0 1 < s.geoN ∧
        (s.member (c.desc.par 0 1)).st = .failed ∧ (s.reb.changes.any fun ch => ch.member = c.desc.par 0 1) = false) →
      exec (.removeMember id) s = .next ((s.hold c.id).changeMember (c.desc.par 0 1) .absent 0 (some c.id))) ∧
  (∀ (s : State) (d : Fin 64), ((s.member d).st = .draining ∧
        (s.extents.any fun x => (s.row x.2.2.row).subs.any fun u => u.lost = d.val && !s.progressBit x.2.2.row x.2.2.band u.pos) = false ∧
        s.reb.current = none) →
      exec (.drainComplete d) s = .next (s.changeMember d .absent 8 none)) ∧
  (∀ (s : State) (r : Fin 4096) (p : Nat) (u : Sub), ((s.row r).subAt p = some u ∧ u.copyback = true ∧ s.hrn.holder = true ∧
        (s.extents.any fun e => e.2.2.row = r.val && s.progressBit r e.2.2.band p) = false) →
      ∃ v : State, v = (s.tellTwin (.subGone r p)).setRow r { s.row r with subs := (s.row r).subs.filter fun x => x ≠ u } ∧
        exec (.copybackDone r p) s = .next ((v.writeSuperblocks).raiseIf (!(v.lay.rows.any fun x => x.2.subs.any fun y => x.2.members.getD y.pos 64 =
        (s.row r).members.getD p 64)) Ev.RB_COPYBACK_DONE [(s.row r).members.getD p 64])) ∧
  (∀ (s : State) (ds : List (Nat × Nat × Nat)), (s.hrn.claim = .restoring) →
      exec (.memberRestore none ds) s = .next (s.beginClaim true)) ∧
  (∀ (s : State) (b : Superblock) (ds : List (Nat × Nat × Nat)) (n : Nat), (s.hrn.claim = .restoring ∧
        ((s.restore b ds).reb.members.count fun m => m.st = .active || m.st = .suspect) = n) →
      (n < (s.restore b ds).arbCount → exec (.memberRestore (some b) ds) s = .next ((({ s.restore b ds with hrn.claim := .none } : State).setFld
        Reg.HRN_CFG_EN 0).raise Ev.HRN_NO_QUORUM)) ∧ ((s.restore b ds).arbCount ≤ n →
        exec (.memberRestore (some b) ds) s = .next ((s.restore b ds).beginClaim false)))

/-- Chapter 12. A read that returns data ends, is counted and timed, and delivers its block; a write that ends is counted; an
error ends the command as failed and is a fault of the member on the holder's path: a write's fails the member, a read's media
error counts toward SUSPECT; a read that was aborted is issued again. A timeout aborts the command at CMD_TMO and is a fault
of the member. CSTS.CFS and SMART bit 3 fail the member, bits 0 and 2 make it SUSPECT. A port write past 8,192 queue pairs or
enabling an odd port in x4 mode is discarded; another is stored, and one that clears EN takes the link down. A link that
trains within the port's rate and lanes sets its status and raises EVT_DRV_LINK, and on the holder has the reservation of its
member checked; one that drops clears its status, raises EVT_DRV_LINK, and EVT_DRV_DPC where the port contained it, and starts
LINK_HOLD, whose end fails the member. AER, MI events, IBIs and NACKs are counted and raised, the last two on an enabled bus. -/
def Obligations.DrivePortsReportAndEndCommands : Prop :=
  (∀ (s u : State) (id : Nat) (c : DrvCmd) (b : List Byte), (s.drv.cmds.find? (fun c => c.id = id) = some c ∧
        u = { s with drv.cmds := s.drv.cmds.filter fun x => x.id ≠ id }) →
      (c.isRead = true → exec (.driveCompletion id (.data b)) s = .next (((u.countDrive c).noteRead c).driveData c b)) ∧ (c.isRead = false →
        exec (.driveCompletion id .done) s = .next ((u.countDrive c).driveWrote c))) ∧
  (∀ (s : State) (id : Nat) (c : DrvCmd), (s.drv.cmds.find? (fun c => c.id = id) = some c ∧ c.isRead = false) →
      exec (.driveCompletion id .error) s = .next (((s.countPort c.member 4 1).endFailed c).pathFault c.member fun s => s.changeMember c.member
        .failed 4 none)) ∧
  (∀ (s : State) (id : Nat) (c : DrvCmd), (s.drv.cmds.find? (fun c => c.id = id) = some c) →
      (c.isRead = true → exec (.driveCompletion id .mediaError) s = .next (((s.countPort c.member 4 1).endFailed c).pathFault c.member fun s =>
        s.mediaFault c.member) ∧ exec (.driveCompletion id .error) s = .next (((s.countPort c.member 4 1).endFailed c).pathFault c.member fun s => s)
        ∧ exec (.driveCompletion id .aborted) s = .next (({ s with drv.cmds := s.drv.cmds.filter fun x => x.id ≠ id } : State).drive c.member c.use
        true c.lba (.driveRead c.member c.lba))) ∧ (c.isRead = false →
        exec (.driveCompletion id .aborted) s = .next { s with drv.cmds := s.drv.cmds.filter fun x => x.id ≠ id })) ∧
  (∀ (s : State) (id : Nat) (c : DrvCmd), (s.drv.cmds.find? (fun c => c.id = id) = some c) →
      exec (.driveCmdTimeout id) s = .next ((((((s.reach (c.at_ + s.fld Reg.LAY_RB_DETECT_CMD_TMO * 1000000)).emit (.driveAbort c.id)).countPort
        c.member 5 1).countPort c.member 4 1).endFailed c).pathFault c.member fun s => s.timeoutFault c.member c.isRead)) ∧
  (∀ (s : State) (d : Fin 64) (n : Nat), (s.hrn.holder = true) →
      exec (.driveCfs d) s = .next (s.changeMember d .failed 9 none) ∧ (n.testBit 3 = true →
        exec (.smartWarning d n) s = .next (s.changeMember d .failed 10 none)) ∧ (n.testBit 3 = false → n.testBit 0 = true ∨ n.testBit 2 = true →
        exec (.smartWarning d n) s = .next (s.suspectMember d 11)) ∧ (n.testBit 3 = false → n.testBit 0 = false → n.testBit 2 = false →
        exec (.smartWarning d n) s = .next s)) ∧
  (∀ (s u : State) (p : Fin 64) (v : Word), ((s.flag Reg.DRV_CFG_WIDTH = false ∨ p.val % 2 = 0 ∨ v.getLsbD 0 = false) ∧ s.pairsWith p v ≤ 8192 ∧
        s.storeReg (Reg.DRV_PORT_CFG_EN p).addr v = some u) →
      exec (.drivePortEnable p v) s = .next (if v.getLsbD 0 = false ∧
        s.flag (Reg.DRV_PORT_STATUS_LINK_UP p) = true then u.driveLinkDown p false else u)) ∧
  (∀ (s : State) (p : Fin 64) (v : Word), (8192 < s.pairsWith p v ∨ (s.flag Reg.DRV_CFG_WIDTH = true ∧ p.val % 2 = 1 ∧ v.getLsbD 0 = true)) →
      exec (.drivePortEnable p v) s = .next s) ∧
  (∀ (s u : State) (p : Fin 64) (rate lanes g : Nat) (h : Option Nat), (u = (((({ s with drv.holdAt := Assoc.set 0 s.drv.holdAt p.val 0 } :
        State).setFld (Reg.DRV_PORT_STATUS_LINK_UP p) 1).setFld (Reg.DRV_PORT_STATUS_RATE p) rate).setFld (Reg.DRV_PORT_STATUS_LANES p) lanes) ∧
        s.flag (Reg.DRV_PORT_CFG_EN p) = true ∧ rate ≤ s.fld Reg.DRV_CFG_MAX_RATE ∧ 0 < lanes ∧ lanes ≤ (if s.flag Reg.DRV_CFG_WIDTH then 4 else 2) ∧
        s.pwr.st ≠ .deep) →
      ∃ v : State, v = ((u.setFld (Reg.DRV_PORT_STATUS_DPC p) 0).setFld (Reg.DRV_PORT_STATUS_QGRANT p) (min g (u.fld (Reg.DRV_PORT_CFG_QUEUES
        p)))).raise Ev.DRV_LINK [p, rate, lanes] ∧ (∀ d, v.memberOn p = some d → v.hrn.holder = true →
        exec (.driveLinkUp p rate lanes g h) s = .next (v.checkHold d h)) ∧ (v.memberOn p = none ∨ v.hrn.holder = false →
        exec (.driveLinkUp p rate lanes g h) s = .next v)) ∧
  (∀ (s : State) (p : Fin 64) (b : Bool), (s.flag (Reg.DRV_PORT_STATUS_LINK_UP p) = true) →
      exec (.driveLinkDown p b) s = .next (s.driveLinkDown p b)) ∧
  (∀ (s u : State) (p : Fin 64) (d : Nat), (Assoc.get 0 s.drv.holdAt p.val ≠ 0 ∧
        u = ({ s with drv.holdAt := Assoc.set 0 s.drv.holdAt p.val 0 } : State).reach (Assoc.get 0 s.drv.holdAt p.val) ∧ u.memberOn p = some d) →
      exec (.linkHoldExpire p) s = .next (u.pathFault d fun s => s.changeMember d .failed 3 none)) ∧
  (∀ (s : State) (p : Fin 64) (n : Nat), exec (.driveAer p true n) s = .next ((s.bump (Reg.DRV_AER_CNT_UNCORR p)).raise Ev.DRV_AER_UNCORR [p, n]) ∧
        exec (.driveAer p false n) s = .next ((s.bump (Reg.DRV_AER_CNT_CORR p)).raise Ev.DRV_AER_CORR [p]) ∧
        exec (.driveMiEvent p n) s = .next (s.raise Ev.DRV_MI [p, n])) ∧
  (∀ (s : State) (b : Fin 8) (a x : Nat), (s.flag (Reg.SBD_I3C_CFG_EN b) = true) →
      exec (.i3cIbi b a x) s = .next ((s.bump (Reg.SBD_I3C_ERR_IBI b)).raise Ev.I3C_IBI [b, a, x]) ∧
        exec (.i3cNack b a) s = .next ((s.bump (Reg.SBD_I3C_ERR_NACK b)).raise Ev.I3C_ERR [b, a]))

/-- Chapter 12, slot commands that are accepted from a command ring. Slot Configure, Enable, Disable and Clear Trip are BUSY for a
slot with a command running, else INVALID_FIELD for one that does not exist. Slot Configure on any slot that is not OFF is
CONFIG_CONFLICT; on an OFF one it is INVALID_FIELD with a field out of range or limits out of order, CONFIG_CONFLICT with a
measurement where there is none, and else takes its settings; Slot Locate sets LOCATE in any state. Slot Enable on an OFF slot
enters RAMP, with the gate off, PERST asserted and RAMP_TMO running, on any other CONFIG_CONFLICT. Slot Disable on an OFF slot
succeeds and changes nothing, in RAMP, TRIPPED and LOCKED is CONFIG_CONFLICT, on a powered slot whose member is live needs
FORCE, which fails the member; it sends the shutdown first, or with NOSHUT asserts PERST at once; the shutdown's answer or its
timeout asserts PERST, and 1 ms later the gate goes off and the command ends. Slot Clear Trip on TRIPPED waits for the
cool-down, on LOCKED enters OFF unless a short was found, and else is CONFIG_CONFLICT. The commands carried from the holder
are done by the follower as far as its own channel goes. -/
def Obligations.SlotCommandsAreCheckedInOrder : Prop :=
  (∀ (s u : State) (id : Nat) (c : Started), (s.Accepts id 0x0300 [(0x0C, 28)] (fun _ => true) (fun d => !isLocate d) c u) →
      (c.ring = carriedRing → exec (.slotConfigure id) s = .next ((u.setSlotCfg (c.desc.par 0 1) c.desc).complete c .success)) ∧
        (c.ring ≠ carriedRing → (u.slotBusy (c.desc.par 0 1) = true → exec (.slotConfigure id) s = .next (u.complete c .busy)) ∧
        (u.slotBusy (c.desc.par 0 1) = false → u.slotOk (c.desc.par 0 1) = false → exec (.slotConfigure id) s = .next (u.complete c .invalidField)) ∧
        (u.slotBusy (c.desc.par 0 1) = false → u.slotOk (c.desc.par 0 1) = true → (u.chan (c.desc.par 0 1)).st ≠ .off →
        exec (.slotConfigure id) s = .next (u.complete c .configConflict)) ∧ (u.slotBusy (c.desc.par 0 1) = false → u.slotOk (c.desc.par 0 1) = true →
        (u.chan (c.desc.par 0 1)).st = .off → (slotFieldsOk c.desc = false ∨ slotLimitsOk c.desc = false ∨ c.desc.par 6 2 < c.desc.par 5 1 + 2 →
        exec (.slotConfigure id) s = .next (u.complete c .invalidField)) ∧ (slotFieldsOk c.desc = true → slotLimitsOk c.desc = true →
        c.desc.par 5 1 + 2 ≤ c.desc.par 6 2 → exec (.slotConfigure id) s = .next (if c.desc.par 2 1 = 3 then u.complete c .configConflict else
        (u.setSlotCfg (c.desc.par 0 1) c.desc).holderDone c))))) ∧
  (∀ (s u : State) (id : Nat) (c : Started), (s.Accepts id 0x0300 [] (fun _ => true) isLocate c u) →
      ((c.desc.par 0 1) < 64 → exec (.slotLocate id) s = .next ((u.setFld (Reg.STR_SLOT_CFG_LOCATE (c.desc.par 0 1)) (c.desc.par 1 1 / 2 %
        2)).holderDone c)) ∧ (64 ≤ (c.desc.par 0 1) → exec (.slotLocate id) s = .next (u.complete c .invalidField))) ∧
  (∀ (s : State) (id : Nat) (c : Started), (s.AcceptsPlain id 0x0301 [(1, 39)] c) →
      (c.ring = carriedRing → exec (.slotEnable id) s = .next (s.complete c .success)) ∧ (c.ring ≠ carriedRing → (s.slotBusy (c.desc.par 0 1) = true →
        exec (.slotEnable id) s = .next (s.complete c .busy)) ∧ (s.slotBusy (c.desc.par 0 1) = false → s.slotOk (c.desc.par 0 1) = false →
        exec (.slotEnable id) s = .next (s.complete c .invalidField)) ∧ (s.slotBusy (c.desc.par 0 1) = false → s.slotOk (c.desc.par 0 1) = true →
        (s.chan (c.desc.par 0 1)).st ≠ .off → exec (.slotEnable id) s = .next (s.complete c .configConflict)) ∧ (s.slotBusy (c.desc.par 0 1) = false →
        s.slotOk (c.desc.par 0 1) = true → (s.chan (c.desc.par 0 1)).st = .off →
        exec (.slotEnable id) s = .next ((s.enterRamp (c.desc.par 0 1)).holderDone c)))) ∧
  (∀ (s : State) (n : Nat), ((s.enterRamp n).chan n).st = .ramp ∧ ((s.enterRamp n).chan n).perst = true ∧ ((s.enterRamp n).chan n).gate = false ∧
        ((s.enterRamp n).chan n).rampTmo = s.now + s.fld (Reg.STR_SLOT_CFG_RAMP_TMO n) * 1000000 ∧ (∀ m, m ≠ n → (s.enterRamp n).chan m = s.chan m) ∧
        s.enterRamp n = { s with str := (s.enterRamp n).str }) ∧
  (∀ (s : State) (id : Nat) (c : Started), (s.AcceptsPlain id 0x0302 [(2, 38)] c) →
      (s.slotBusy (c.desc.par 0 1) = true → exec (.slotDisable id) s = .next (s.complete c .busy)) ∧ (s.slotBusy (c.desc.par 0 1) = false →
        64 ≤ (c.desc.par 0 1) ∨ 4 ≤ c.desc.par 1 1 → exec (.slotDisable id) s = .next (s.complete c .invalidField)) ∧
        (s.slotBusy (c.desc.par 0 1) = false → (c.desc.par 0 1) < 64 → c.desc.par 1 1 < 4 → c.ring = carriedRing →
        exec (.slotDisable id) s = .next (if (s.chan (c.desc.par 0 1)).st.powered then (s.hold c.id).assertPerst (c.desc.par 0 1) c.id s.now else
        s.complete c .success))) ∧
  (∀ (s : State) (id : Nat) (c : Started), (s.AcceptsPlain id 0x0302 [(2, 38)] c ∧ c.ring ≠ carriedRing ∧ (c.desc.par 0 1) < 64 ∧
        s.slotBusy (c.desc.par 0 1) = false ∧ c.desc.par 1 1 < 4) →
      ((s.chan (c.desc.par 0 1)).st = .off → exec (.slotDisable id) s = .next (s.complete c .success)) ∧ ((s.chan (c.desc.par 0 1)).st = .ramp ∨
        (s.chan (c.desc.par 0 1)).st = .tripped ∨ (s.chan (c.desc.par 0 1)).st = .locked →
        exec (.slotDisable id) s = .next (s.complete c .configConflict)) ∧ ((s.chan (c.desc.par 0 1)).st = .on ∨
        (s.chan (c.desc.par 0 1)).st = .warn → (s.slotLive (c.desc.par 0 1) = true → (c.desc.par 1 1).testBit 0 = false →
        exec (.slotDisable id) s = .next (s.complete c .configConflict)) ∧ (∀ u, (s.slotLive (c.desc.par 0 1) = true ∧
        (c.desc.par 1 1).testBit 0 = true ∧ u = s.slotMember (c.desc.par 0 1) .failed 12) ∨ (s.slotLive (c.desc.par 0 1) = false ∧ u = s) →
        ((c.desc.par 1 1).testBit 1 = true → exec (.slotDisable id) s = .next ((u.hold c.id).assertPerst (c.desc.par 0 1) c.id (u.now + u.fld
        Reg.STR_CFG_SHUT_TMO * 100000000))) ∧ ((c.desc.par 1 1).testBit 1 = false →
        exec (.slotDisable id) s = .next (((u.hold c.id).updChan (c.desc.par 0 1) fun x =>
        { x with disabling := some ⟨c.id, u.now + u.fld Reg.STR_CFG_SHUT_TMO * 100000000, none⟩ }).emit (.driveShutdown (c.desc.par 0 1))))))) ∧
  (∀ (s : State) (n : Fin 64) (id till : Nat) (b : Bool), ((s.chan n).disabling = some ⟨id, till, none⟩) →
      exec (.slotShutdownDone n b) s = .next ((if b then s else s.reach till).assertPerst n id till)) ∧
  (∀ (s : State) (n : Fin 64) (id till t : Nat), ((s.chan n).disabling = some ⟨id, till, some t⟩) →
      exec (.slotGateOff n) s = .next (((s.reach t).enterOff n).endSlotCmd (some id) .success)) ∧
  (∀ (s : State) (id : Nat) (c : Started), (s.AcceptsPlain id 0x0303 [(1, 39)] c) →
      (s.slotBusy (c.desc.par 0 1) = true → exec (.slotClearTrip id) s = .next (s.complete c .busy)) ∧ (s.slotBusy (c.desc.par 0 1) = false →
        64 ≤ (c.desc.par 0 1) → exec (.slotClearTrip id) s = .next (s.complete c .invalidField)) ∧ (s.slotBusy (c.desc.par 0 1) = false →
        (c.desc.par 0 1) < 64 → ((s.chan (c.desc.par 0 1)).st = .locked → (s.chan (c.desc.par 0 1)).short = true →
        exec (.slotClearTrip id) s = .next (s.complete c .configConflict)) ∧ ((s.chan (c.desc.par 0 1)).st = .locked →
        (s.chan (c.desc.par 0 1)).short = false → exec (.slotClearTrip id) s = .next (((s.enterOff (c.desc.par 0 1)).updChan (c.desc.par 0 1) fun x =>
        { x with retries := 0 }).holderDone c)) ∧ ((s.chan (c.desc.par 0 1)).st = .tripped →
        exec (.slotClearTrip id) s = .next ((s.hold c.id).updChan (c.desc.par 0 1) fun x => { x with clearing := some c.id, retries := 0 })) ∧
        (c.ring ≠ carriedRing → (s.chan (c.desc.par 0 1)).st ≠ .locked → (s.chan (c.desc.par 0 1)).st ≠ .tripped →
        exec (.slotClearTrip id) s = .next (s.complete c .configConflict)) ∧ (c.ring = carriedRing → (s.chan (c.desc.par 0 1)).st.powered = true →
        exec (.slotClearTrip id) s = .next (((s.enterOff (c.desc.par 0 1)).updChan (c.desc.par 0 1) fun x => { x with retries := 0 }).complete c
        .success))))

/-- Chapter 12, channels; every row with a measurement records it first. Reaching the threshold in RAMP arms the breaker and
drives the gate on; PG in an armed RAMP with no fault timer enters ON, starts the PERST delay and is reported to the peer,
whose OFF channel enters RAMP; PG again in ON is noted and reported; PG lost in ON trips with CAUSE 4 unless VIN warns or the
device drains, when it is noted. RAMP_TMO without PG trips with CAUSE 3, an overcurrent of an armed channel starts the fault
timer and WARN, its expiry trips with CAUSE 2, its end before then goes back to ON or RAMP, and a fast trip trips a powered
channel with CAUSE 1 and takes over the cause of a trip of that moment. A trip turns the gate off, counts, raises EVT_STR_TRIP
and starts the cool-down. Cool-down ends in OFF after Slot Clear Trip, in RAMP with a retry left, and in LOCKED otherwise. A
current above 100 mA in OFF or TRIPPED locks the channel with CAUSE 5 and EVT_STR_FET_SHORT, and with none the short is gone.
Sixty seconds of ON clear the retries. A removal turns a powered or TRIPPED slot OFF with CAUSE 6, ends its command and takes
its member out, and insertion only marks the slot present. -/
def Obligations.ChannelsRampTripCoolAndLock : Prop :=
  (∀ (s u : State) (n : Fin 64) (m : Meas), (u = s.measure n m ∧ (u.chan n).st = .ramp) →
      exec (.rampThresholdReached n m) s = .next (u.updChan n fun x => { x with armed := true, gate := true })) ∧
  (∀ (s u : State) (n : Fin 64) (m : Meas), (u = s.measure n m ∧ (u.chan n).st = .ramp ∧ (u.chan n).pg = false ∧ (u.chan n).armed = true ∧
        (u.chan n).faultAt = none) →
      exec (.pgAssert n m) s = .next (((u.updChan n fun x =>
        { x with pg := true, perstAt := some (u.now + u.fld Reg.STR_CFG_PERST_DLY * 1000000) }).enterOn n).reportPg n)) ∧
  (∀ (s u : State) (n : Fin 64) (m : Meas), (u = s.measure n m ∧ (u.chan n).st = .on ∧ (u.chan n).pg = false ∧ (u.chan n).armed = true ∧
        (u.chan n).faultAt = none) →
      exec (.pgAssert n m) s = .next ((u.updChan n fun x =>
        { x with pg := true, perstAt := if x.perst && x.disabling.isNone then some (u.now + u.fld Reg.STR_CFG_PERST_DLY * 1000000) else x.perstAt }).reportPg
        n)) ∧
  (∀ (s u : State) (n : Fin 64) (m : Meas), (u = s.measure n m ∧ (u.chan n).st = .on) →
      (u.pwr.vinWarn = false → u.pwr.st ≠ .drain → exec (.pgLoss n m) s = .next (u.trip n 4)) ∧ ((u.pwr.vinWarn = true ∨ u.pwr.st = .drain) →
        exec (.pgLoss n m) s = .next (u.updChan n fun x => { x with pg := false, perstAt := none }))) ∧
  (∀ (s : State) (n : Fin 64), (((s.chan n).st = .ramp ∨ (s.chan n).st = .warn) ∧ (s.chan n).rampTmo ≠ 0 ∧ (s.chan n).pg = false) →
      exec (.rampTmoExpire n) s = .next ((s.reach (s.chan n).rampTmo).trip n 3)) ∧
  (∀ (s : State) (n k : Nat), ((s.chan n).disabling = none ∧ s.memberOn n = none) →
      ((s.trip n k).chan n).st = .tripped ∧ ((s.trip n k).chan n).cause = k ∧ ((s.trip n k).chan n).gate = false ∧
        ((s.trip n k).src Ev.STR_TRIP).pend = true ∧ (∀ m, m ≠ n → (s.trip n k).chan m = s.chan m)) ∧
  (∀ (s : State) (n : Fin 64) (t : Nat), ((s.chan n).perstAt = some t) →
      exec (.perstDlyExpire n) s = .next ((s.reach t).updChan n fun x => { x with perst := false, perstAt := none })) ∧
  (∀ (s : State) (n : Fin 64), (s.hrn.holder = false ∧ (s.chan n).st = .off) →
      exec (.peerPgReport n) s = .next (s.enterRamp n)) ∧
  (∀ (s u : State) (n : Fin 64) (m : Meas), (u = s.measure n m ∧ (u.chan n).armed = true ∧ ((u.chan n).st = .ramp ∨ (u.chan n).st = .on)) →
      exec (.faultTimerStart n m) s = .next (u.updChan n fun x =>
        { x with st := .warn, faultAt := some (u.now + u.fld (Reg.STR_SLOT_LIM_FAULT_TMR n) * 100000) })) ∧
  (∀ (s u : State) (n : Fin 64) (m : Meas) (t : Nat), (u = s.measure n m ∧ (u.chan n).st = .warn ∧ (u.chan n).faultAt = some t) →
      exec (.faultTimerExpire n m) s = .next ((u.reach t).trip n 2) ∧ (t ≤ u.now → exec (.faultTimerStop n m) s = .next (u.trip n 2)) ∧ (u.now < t →
        (u.chan n).pg = true → exec (.faultTimerStop n m) s = .next (u.enterOn n)) ∧ (u.now < t → (u.chan n).pg = false →
        exec (.faultTimerStop n m) s = .next (u.updChan n fun x => { x with st := .ramp, faultAt := none, perst := true, perstAt := none }))) ∧
  (∀ (s u : State) (n : Fin 64) (m : Meas), (u = s.measure n m) →
      ((u.chan n).st.powered = true → exec (.fastTrip n m) s = .next (u.trip n 1)) ∧ ((u.chan n).st.powered = false →
        exec (.fastTrip n m) s = .next (if (u.chan n).st = .tripped ∧ ((u.chan n).cause = 2 ∨ (u.chan n).cause = 3) ∧
        (u.chan n).coolAt = u.now + u.fld (Reg.STR_SLOT_CFG_COOL n) * 1000000000 then u.updChan n fun x => { x with cause := 1 } else u))) ∧
  (∀ (s u : State) (n : Fin 64), ((s.chan n).st = .tripped ∧ u = s.reach (s.chan n).coolAt) →
      (∀ id, (s.chan n).clearing = some id → exec (.coolDownEnd n) s = .next ((u.enterOff n).endSlotCmd (some id) .success)) ∧
        ((s.chan n).clearing = none → (s.chan n).cause ≠ 5 → (s.chan n).cause ≠ 6 → (s.chan n).retries < u.fld (Reg.STR_SLOT_CFG_RETRY n) →
        exec (.coolDownEnd n) s = .next (((u.updChan n fun x => { x with retries := x.retries + 1 }).raise Ev.STR_RETRY [n, (s.chan n).retries +
        1]).enterRamp n)) ∧ ((s.chan n).clearing = none → (s.chan n).cause = 5 ∨ (s.chan n).cause = 6 ∨
        u.fld (Reg.STR_SLOT_CFG_RETRY n) ≤ (s.chan n).retries → exec (.coolDownEnd n) s = .next (u.lock n))) ∧
  (∀ (s u v : State) (n : Fin 64) (m : Meas), (u = s.measure n m ∧
        v = (u.endSlotCmd (u.chan n).clearing .configConflict).updChan n (fun x => { x with cause := 5, short := true, clearing := none }) ∧
        (u.chan n).st.powered = false) →
      (100 < m.iout → (u.chan n).short = false → ((u.chan n).st ≠ .locked → exec (.fetShort n m) s = .next ((v.lock n).raise Ev.STR_FET_SHORT [n])) ∧
        ((u.chan n).st = .locked → exec (.fetShort n m) s = .next (v.raise Ev.STR_FET_SHORT [n]))) ∧ (m.iout < 100 →
        exec (.fetShort n m) s = .next (u.updChan n fun x => { x with short := false })) ∧ (100 ≤ m.iout → (u.chan n).short = true →
        exec (.fetShort n m) s = .next u)) ∧
  (∀ (s : State) (n : Fin 64), ((s.chan n).st = .on) →
      exec (.retriesClear n) s = .next ((s.reach ((s.chan n).onSince + 60 * 1000000000)).updChan n fun x => { x with retries := 0 })) ∧
  (∀ (s : State) (n : Fin 64), ((s.chan n).present = false) →
      exec (.presenceChange n true) s = .next ((s.updChan n fun x => { x with present := true }).raise Ev.DRV_PRESENT [n, 1]) ∧
        exec (.presenceChange n false) s = .next s) ∧
  (∀ (s u : State) (n : Fin 64), ((s.chan n).present = true ∧ u = (s.updChan n fun x => { x with present := false }).raise Ev.DRV_PRESENT [n, 0]) →
      ((s.chan n).st.powered = true ∨ (s.chan n).st = .tripped →
        exec (.presenceChange n false) s = .next ((((((u.enterOff n).updChan n fun x => { x with cause := 6 }).endSlotCmd ((s.chan n).disabling.map
        Disabling.id) .success).endSlotCmd (s.chan n).clearing .success).slotMember n .absent 1))) ∧ ((s.chan n).st.powered = false →
        (s.chan n).st ≠ .tripped → exec (.presenceChange n false) s = .next (u.slotMember n .absent 1)))

/-- Chapter 13, the link. With the Harness enabled a peer of the other strap that attests with a fitting version brings the link
up with its key, tag, role and HOLDER; the same strap, a failed attestation and a version mismatch raise EVT_HRN_JOIN_FAIL
with 1, 2 and 3. TWIN_FITTED and ARB5 keep their values once EN is 1. The first failed lane leaves the clean half up, a
failure in each half takes the link down; the loss ends a join, and leaves a SOLO twin alone. An unknown type is counted, a
failing flit is asked for again and the eighth time takes the link down. A LINK flit acknowledges flits sent, asks for them
again (which counts the replays) and moves ORD_ACK. A heartbeat brings the peer's role, HOLDER, epoch and floor, a peer that
is no longer a twin to carry to counts as gone, and a heartbeat is sent on slot 504 by a twin that is not FENCED. -/
def Obligations.HarnessTrainsDegradesAndReplays : Prop :=
  (∀ (s : State) (v : Word), (s.flag Reg.HRN_CFG_EN = false ∧ getBits (storedWord Reg.HRN_CFG_EN.addr (s.rg Reg.HRN_CFG_EN.addr) v) 0 0 = 1 ∧
        s.hrn.role = .solo ∧ s.hrn.holder = false) →
      ∃ u : State, u = { s.setRg Reg.HRN_CFG_EN.addr (storedWord Reg.HRN_CFG_EN.addr (s.rg Reg.HRN_CFG_EN.addr) v) with hrn.claim := .restoring } ∧
        exec (.harnessEnable v) s = .next (u.emit (.superblockReads ((List.range 64).filter fun p => u.flag (Reg.DRV_PORT_CFG_EN p))))) ∧
  (∀ (s : State) (v : Word), (s.flag Reg.HRN_CFG_EN = true) →
      exec (.harnessEnable v) s = .next ((s.setRg Reg.HRN_CFG_EN.addr (setBits (setBits (storedWord Reg.HRN_CFG_EN.addr (s.rg Reg.HRN_CFG_EN.addr) v)
        1 1 (s.fld Reg.HRN_CFG_TWIN_FITTED)) 3 3 (s.fld Reg.HRN_CFG_ARB5))).autoJoin)) ∧
  (∀ (s u : State) (p : PeerHello), (s.flag Reg.HRN_CFG_EN = true ∧ s.hrn.link = false ∧ s.hrn.barred = false ∧ s.hrn.silent = false ∧
        s.pwr.st ≠ .deep ∧ u = { s with hrn.lanes := 2, hrn.badLanes := [], hrn.barred := true }) →
      (p.twinB = s.glb.twinB → exec (.harnessLinkUp p) s = .next (u.raise Ev.HRN_JOIN_FAIL [1])) ∧ (p.twinB ≠ s.glb.twinB → s.attests p = false →
        exec (.harnessLinkUp p) s = .next (u.raise Ev.HRN_JOIN_FAIL [2])) ∧ (p.twinB ≠ s.glb.twinB → s.attests p = true → p.versionOk = false →
        exec (.harnessLinkUp p) s = .next (u.raise Ev.HRN_JOIN_FAIL [3])) ∧ (p.twinB ≠ s.glb.twinB → s.attests p = true → p.versionOk = true →
        ∃ v : State, v.hrn.link = true ∧ v.hrn.linkKey = linkKeyOf p ∧ v.hrn.peerTag = p.tag ∧ v.hrn.peerRole = some p.role ∧
        v.hrn.peerHolder = p.holder ∧ v.hrn.peerArb5 = p.arb5 ∧ v.hrn.lastHb = s.now ∧ v.hrn.lastAck = s.now ∧ v.hrn.role = s.hrn.role ∧
        exec (.harnessLinkUp p) s = .next ((v.raise Ev.HRN_LINK [1, 0]).meetHolder.autoJoin))) ∧
  (∀ (s u : State) (l : Fin 16), (s.hrn.lanes ≠ 0 ∧ s.hrn.badLanes.contains l.val = false ∧ u = { s with hrn.badLanes := l.val :: s.hrn.badLanes }) →
      (u.halfClean false = false → u.halfClean true = false → exec (.harnessLaneFault l) s = .next (u.linkLost l)) ∧ ((u.halfClean false = true ∨
        u.halfClean true = true) → s.hrn.lanes = 2 → exec (.harnessLaneFault l) s = .next (({ u with hrn.lanes := 1 } : State).raise Ev.HRN_LINK [2,
        l.val])) ∧ ((u.halfClean false = true ∨ u.halfClean true = true) → s.hrn.lanes = 1 → exec (.harnessLaneFault l) s = .next u)) ∧
  (∀ (s : State) (l : Fin 16), (s.hrn.lanes = 0 ∨ s.hrn.badLanes.contains l.val = true) →
      exec (.harnessLaneFault l) s = .next s) ∧
  (∀ (s u : State), (s.hrn.lanes ≠ 0 ∧ u = ({ s with hrn.link := false, hrn.linkKey := [], hrn.lanes := 0, hrn.barred := false, htx := {} } :
        State).raise Ev.HRN_LINK [0, 0]) →
      (s.hrn.role = .joining → exec .harnessLinkDown s = .next (u.joinFails 5)) ∧ (s.hrn.role = .solo →
        exec .harnessLinkDown s = .next (((u.dropJoin 5).endCmd u.hrn.leaving .configConflict).settleAlone)) ∧ (s.hrn.role = .active ∨
        s.hrn.role = .standby ∨ s.hrn.role = .fenced → exec .harnessLinkDown s = .next u)) ∧
  (∀ (s : State), (s.hrn.link = true) →
      exec (.flitBadRx true) s = .next (s.gotFlit.bump Reg.HRN_FLIT_BAD_COUNT) ∧ (s.hrn.rxFails < 8 →
        exec (.flitBadRx false) s = .next (({ s with hrn.rxFails := s.hrn.rxFails + 1 } : State).sendTwin (.replayRequest s.hrn.rxFlit))) ∧
        (8 ≤ s.hrn.rxFails → exec (.flitBadRx false) s = .next (s.linkLost 0))) ∧
  (∀ (s : State) (k v o : Nat), (s.hrn.link = true) →
      exec (.linkFlitRx (some k) none none) s = .next (s.flitAcked k) ∧ exec (.linkFlitRx none (some v) none) s = .next (s.resendFlits v) ∧
        exec (.linkFlitRx none none (some o)) s = .next (s.ordAcked o) ∧
        exec (.linkFlitRx (some k) (some v) (some o)) s = .next (((s.flitAcked k).resendFlits v).ordAcked o) ∧ (s.hrn.ackFlit ≤ k → k ≤ s.hrn.txFlit →
        s.flitAcked k = { s with hrn.lastAck := s.now, hrn.ackFlit := k }) ∧ (s.hrn.txFlit < k → s.flitAcked k = s) ∧ (s.hrn.ackFlit ≤ v →
        v < s.hrn.txFlit → s.resendFlits v = (s.bump Reg.HRN_FLIT_REPLAY_COUNT (s.hrn.txFlit - v)).emit (.flitsAgain v (s.hrn.txFlit - v)))) ∧
  (∀ (s u v : State) (b : Heartbeat), (s.hrn.link = true ∧ s.hrn.role ≠ .fenced ∧ u = s.gotFlit.discipline (b.time * 65536 + b.frac) ∧
        v = ({ u with hrn.lastHb := u.now, hrn.peerRole := some b.role, hrn.peerHolder := b.holder, hrn.peerFault := b.selfFault, hrn.peerDrain := b.drain, hrn.peerEpoch := b.epoch, hrn.ordHead := b.ordHead, tim.peerFloor := b.floor }
        : State)) →
      (v.hasPeer = true → exec (.heartbeatRx b) s = .next v.meetHolder.autoJoin) ∧ (v.hasPeer = false →
        exec (.heartbeatRx b) s = .next v.peerGone.meetHolder.autoJoin)) ∧
  (∀ (s u : State), ((s.slot 504).armed = true ∧ u = s.fire 504) →
      (u.hrn.link = true → u.hrn.role ≠ .fenced → ∃ b : Heartbeat, exec .heartbeatSend s = .next (u.sendTwin (.heartbeat b)) ∧ b.time = u.now ∧
        b.role = u.hrn.role ∧ b.holder = u.hrn.holder ∧ b.epoch = u.epoch ∧ b.floor = u.tim.floor) ∧ ((u.hrn.link = false ∨ u.hrn.role = .fenced) →
        exec .heartbeatSend s = .next u))

/-- Chapter 13, what arrives over the Harness on a twin that is not FENCED. A cross-posted packet is kept until the order stream
or the active takes it. Order entries are taken in, answered with ORD_ACK, by a follower alone; the digest records go to the
follower's list. A mirror acknowledgement marks its buffered blocks and records, and buffered writes that waited for them may
complete. A mirrored record replaces the one in its slot and is acknowledged, a cleared one frees its slot. A joiner puts
snapshot parts in place. CONTROL messages carry commands and time steps to a follower, a carried change waiting for the STATE
entry that names it, and cutover to a joiner, which becomes the STANDBY. -/
def Obligations.FollowerTakesInTheOrderStream : Prop :=
  (∀ (s : State) (i q k : Nat), (s.hrn.link = true ∧ s.hrn.role ≠ .fenced) →
      exec (.crosspostRx i q k) s = .next { s.gotFlit with hrn.posts := s.gotFlit.hrn.posts ++ [(i, q, k)] }) ∧
  (∀ (s u : State) (es : List OrderEntry), (s.hrn.link = true ∧ s.hrn.role ≠ .fenced ∧ u = s.gotFlit.takeEntries es) →
      (s.gotFlit.follows = true → exec (.orderRx es) s = .next ((u.sendTwin (.linkFlit u.hrn.rxFlit u.lastOrd)).wakeMgmt)) ∧
        (s.gotFlit.follows = false → exec (.orderRx es) s = .next s.gotFlit)) ∧
  (∀ (s : State) (e : OrderEntry) (es : List OrderEntry), (s.hrn.role = .standby) →
      (e.oseq = s.hrn.ordSeen % 2 ^ 32 → s.takeEntries (e :: es) = (s.takeEntry e).takeEntries es) ∧ (e.oseq ≠ s.hrn.ordSeen % 2 ^ 32 →
        s.takeEntries (e :: es) = s)) ∧
  (∀ (s : State) (bs rs : List Nat), (s.hrn.link = true ∧ s.hrn.role ≠ .fenced) →
      ∃ u : State, (∀ b ∈ u.lay.buffer, b.id ∈ bs → b.acked = true) ∧ (∀ j ∈ u.sbg.stripes, j.slot ∈ rs → j.acked = true) ∧
        exec (.mirrorAckRx bs rs) s = .next ((u.cmdb.cmds.map Prod.fst).foldl State.buffered u)) ∧
  (∀ (s u : State) (k n q v e x off nb m : Nat) (p : List Nat), (s.hrn.link = true ∧ s.hrn.role ≠ .fenced ∧ s.gotFlit.follows = true ∧
        u = { s.gotFlit with sbg.stripes := s.gotFlit.sbg.stripes.filter (fun j => j.slot ≠ n), lay.buffer := s.gotFlit.lay.buffer.filter fun b => b.stripe ≠ some n })
        →
      exec (.saddlebagRx k n q true v e x off nb m p) s = .next ((u.keepClean (s.gotFlit.lay.buffer.filter fun b => b.stripe = some
        n)).noteDirty.wakeFlush) ∧ ∃ w : State, exec (.saddlebagRx k n q false v e x off nb m p) s = .next (w.sendTwin (.mirrorAck [] [n])) ∧
        (∃ j ∈ w.sbg.stripes, j.slot = n ∧ j.kind = k ∧ j.seq = q ∧ j.volume = v ∧ j.extent = e ∧ j.stripe = x ∧ j.off = off ∧ j.nblk = nb ∧
        j.mask = m ∧ j.pcrc = p) ∧ w.sbg.seq = max s.gotFlit.sbg.seq (q + 1)) ∧
  (∀ (s : State) (rs : List (Nat × Nat)), (s.hrn.link = true ∧ s.hrn.role ≠ .fenced ∧ s.gotFlit.follows = true) →
      exec (.digestRx rs) s = .next { s.gotFlit with hrn.theirs := s.gotFlit.hrn.theirs ++ rs }) ∧
  (∀ (s : State) (p : StatePart), (s.hrn.link = true ∧ s.hrn.role = .joining ∧ s.gotFlit.hrn.role = .joining) →
      exec (.stateRx p) s = .next (s.gotFlit.takePart p)) ∧
  (∀ (s : State) (m : ControlMsg), (s.hrn.link = true ∧ s.hrn.role ≠ .fenced) →
      exec (.controlRx m) s = .next (s.gotFlit.takeControl m)) ∧
  (∀ (s : State) (d : Descriptor) (env : Option Envelope) (n : Nat), (s.follows = true) →
      (s.hrn.ctrlSeen = none → s.takeControl (.command d env) = s.applyTwin (.command d env)) ∧ (∀ k, s.hrn.ctrlSeen = some k →
        s.takeControl (.command d env) = if s.hrn.ctrlNamed.contains k then
        ({ s with hrn.ctrlSeen := some ((k + 1) % 2 ^ 32), hrn.ctrlNamed := s.hrn.ctrlNamed.filter (· ≠ k) } : State).applyTwin (.command d env) else
        { s with hrn.ctrlSeen := some ((k + 1) % 2 ^ 32), hrn.ctrlHeld := s.hrn.ctrlHeld ++ [(k, .command d env)] }) ∧
        s.takeControl (.stepTime n) = (s.stepForward n).raise Ev.TIME_STEP [n, 1]) ∧
  (∀ (s : State), (s.hrn.role = .joining) →
      s.takeControl .cutover = s.cutOver ∧ s.takeControl .demote = s ∧ s.cutOver.hrn.role = .standby)

/-- Chapter 13. Silence ends the swap, holds egress and arms arbitration, at once on the ACTIVE and after QUORUM_DLY on the
STANDBY. On a member of a round, a registration is followed by a Report, an empty Report by an Acquire, a lower epoch by a
Preempt, and a higher one loses; outside arbitration a loss fences the twin. Arbitration is won with more than half of the
arbiters and fences the twin when more than half are lost; a round whose members are all taken or failed makes the twin the
holder at its epoch. A refused member write raises EVT_HRN_CLAIM_LOST and fences with cause 4. A member that gives no answer
is not taken. The claims are done when every member is taken or failed, and the failed ones leave. A digest window is compared
when every record is there or DIG_WAIT has passed. A twin's own verdict of a self-check is raised and told to the peer; both
verdicts keep or fence the twin. -/
def Obligations.SilenceArbitrationAndClaimsDecideTheHolder : Prop :=
  (∀ (s u v : State) (d : Nat), (s.hrn.silent = false ∧ (s.hrn.role = .active ∧ d = 0 ∨ s.hrn.role = .standby ∧ d = 1) ∧
        u = (((s.reach (min s.hrn.lastHb s.hrn.lastAck + s.fld Reg.HRN_SILENCE_SILENCE * 1000)).raise Ev.HRN_SILENCE).endCmd (s.hrn.swap.bind
        SwapRun.id) .busy).endCmd s.hrn.upgrade .busy ∧
        v = ({ u with hrn.silent := true, hrn.swap := none, hrn.upgrade := none, hrn.check := none, hrn.round := none, hrn.link := false, hrn.linkKey := [], htx := {} }
        : State)) →
      ∃ w, exec .silenceDeclare s = .next w ∧ w = v.armArb (d * (u.fld Reg.HRN_SILENCE_QUORUM_DLY * 1000)) (u.epoch + 1) ∧
        w.hrn.arbAt = some (u.now + d * (u.fld Reg.HRN_SILENCE_QUORUM_DLY * 1000)) ∧ w.hrn.silent = true ∧ w.hrn.link = false ∧ w.hrn.swap = none) ∧
  (∀ (s : State) (t : Nat), (s.hrn.arbAt = some t) →
      exec .arbitrationStart s = .next ((s.reach t).startArb s.hrn.arbEpoch)) ∧
  (∀ (s : State) (t : Nat), (s.hrn.retryAt = some t) →
      exec .arbRetryExpire s = .next ((s.reach t).startArb s.claimEpoch)) ∧
  (∀ (s : State) (m : Fin 64) (r : CinchResult) (k : Round) (t : Take), (s.hrn.claim = .none ∧ s.hrn.round = some k ∧
        (k.takes.find? fun t => t.member = m.val && !t.st.ended) = some t) →
      exec (.cinchMemberResult m r) s = .next ((s.noteEpoch r).roundResult k t r)) ∧
  (∀ (t : Take) (own e k : Nat), (t.st = .registering → t.step .registered own e = (.reporting, some 0)) ∧ (t.st = .reporting →
        t.step (.report none) own e = (.acquiring, some 2)) ∧ (t.st = .reporting → keyTag k = own →
        t.step (.report (some k)) own e = (.taken, none)) ∧ (t.st = .reporting → keyTag k ≠ own → keyEpoch k < e →
        t.step (.report (some k)) own e = (.preempting, some 3)) ∧ (t.st = .reporting → keyTag k ≠ own → e ≤ keyEpoch k →
        t.step (.report (some k)) own e = (.lost, none)) ∧ (t.st = .acquiring → t.step .refused own e = (.reporting, some 0)) ∧ (t.st.ended = false →
        t.step .noAnswer own e = (.failed, none)) ∧ (t.st = .acquiring ∨ t.st = .preempting → t.step .acquired own e = (.taken, none))) ∧
  (∀ (s : State) (m : Fin 64) (t : Take) (r : CinchResult), (s.hrn.claim = .none ∧ s.hrn.round = none ∧
        s.hrn.retakes.find? (fun t => t.member = m.val) = some t) →
      exec (.cinchMemberResult m r) s = .next (s.retakeResult t r)) ∧
  (∀ (s : State) (m : Fin 64) (k : Round) (t : Take), (s.hrn.round = some k ∧ k.kind = .arbiters ∧
        (k.takes.find? fun t => t.member = m.val && !t.st.ended) = some t) →
      exec (.arbCmdTmoExpire m) s = .next ((s.reach (t.since + s.fld Reg.HRN_ARB_CFG_ARB_CMD_TMO * 1000)).roundResult k t .noAnswer)) ∧
  (∀ (s : State) (k : Round) (won lost : Nat), (s.hrn.round = some k ∧ k.kind = .arbiters ∧ won = (k.count fun t => t = .taken) ∧
        lost = (k.count fun t => t = .lost)) →
      (s.arbCount < 2 * won → exec .arbitrationDecided s = .next ((s.raise Ev.HRN_ARB_WON [k.epoch, won]).startRound .won (k.epoch + 1)
        s.liveMembers)) ∧ (2 * won ≤ s.arbCount → s.arbCount < 2 * lost → exec .arbitrationDecided s = .next (s.fence 1)) ∧ (2 * won ≤ s.arbCount →
        2 * lost ≤ s.arbCount → k.takes.all (fun t => t.st.ended) = true → exec .arbitrationDecided s = .next s.noQuorum) ∧ (2 * won ≤ s.arbCount →
        2 * lost ≤ s.arbCount → k.takes.all (fun t => t.st.ended) = false → exec .arbitrationDecided s = .next s)) ∧
  (∀ (s u : State) (k : Round), (s.hrn.round = some k ∧ k.kind ≠ .arbiters ∧ k.takes.all (fun t => t.st = .taken || t.st = .failed) = true ∧
        u = ({ s with hrn.holder := true, hrn.round := none, hrn.silent := false, hrn.retryAt := none } : State).setFld Reg.HRN_EPOCH_EPOCH k.epoch) →
      exec .claimRoundDone s = .next ((((k.takes.filter fun t => t.st = .failed).foldl (fun s t => s.changeMember t.member .failed 4 none)
        (u.roundLeads k.kind).rezero.loseMissing.judgeSlots)).fixArbs.autoJoin)) ∧
  (∀ (s : State) (m : Fin 64), (s.hrn.role ≠ .fenced) →
      exec (.claimLost m) s = .next ((s.raise Ev.HRN_CLAIM_LOST [m.val]).fence 4)) ∧
  (∀ (s : State) (l : List Nat) (t : Nat) (b : Bool), (s.hrn.claim = .reading l t b) →
      exec .claimLinkWaitExpire s = .next (({ s.reach t with hrn.claim := .reading l t true } : State).claimOn)) ∧
  (∀ (s : State), (s.hrn.claim = .waitLink) →
      exec (.hrnClaimWrite 0xC1A17000) s = .next (s.armArb 0 s.claimEpoch)) ∧
  (∀ (s : State) (w : Nat), (s.digWindow = some w ∧ s.hrn.role = .standby) →
      exec .digWaitExpire s = .next ((s.reach ((w + 1) * 4000 + s.fld Reg.HRN_DIG_DIG_WAIT * 1000)).compareWindow w) ∧ ((w + 1) * 4000 ≤ s.now →
        (s.hrn.own.all fun d => d.time / 4000 ≠ w || s.recReady d) = true → exec .digestWindowCompare s = .next (s.compareWindow w))) ∧
  (∀ (s u : State) (again made : Nat) (k : SelfCheck), (s.hrn.check = some k ∧ k.own = none) →
      ((s.ownFault k.since (again != made) = none ∧ u = s) ∨ (∃ n, s.ownFault k.since (again != made) = some n ∧ u = s.raise Ev.HRN_SELF_FAULT [n]) →
        exec (.selfCheckVerdict again made) s = .next ((({ u with hrn.check := some { k with own := some (s.ownFault k.since (again != made)) } } :
        State).sendTwin (.controlMsg (.verdict (s.ownFault k.since (again != made)).isSome))).settleCheck))) ∧
  (∀ (s u : State) (w c o : Nat) (own : Option Nat) (peer : Bool), (s.hrn.check = some
        { since := w, conn := c, oseq := o, own := some own, peer := some peer } ∧
        u = ({ s with hrn.check := none } : State).raiseIf (own.isSome && peer) Ev.HRN_BOTH_FAULT) →
      (s.hrn.role = .active → own.isSome = true → peer = false → s.settleCheck = (u.sendTwin (.controlMsg (.takeCinch true))).fence 3) ∧
        (s.hrn.role = .active → own.isSome = false ∨ peer = true → s.settleCheck = u.keepControl) ∧ (s.hrn.role = .standby → own.isSome = false →
        peer = true → s.settleCheck = u.takeCinch true) ∧ (s.hrn.role = .standby → own.isSome = true → s.settleCheck = u.fence 3) ∧
        (s.hrn.role = .standby → own.isSome = false → peer = false → s.settleCheck = u.fence 2))

/-- Chapter 13, the commands of the pair that are accepted. Pair starts a join of a JOINING peer, and is BUSY during a join or
swap; the cutover makes the holder ACTIVE and completes it. Role Swap of an ACTIVE with a STANDBY begins, waits for member
writes to end, tells the standby to take the cinch, and hands over, after which the old active is STANDBY. Leave Pair tells
the peer to leave, ends the join or swap, and leaves the twin alone until the peer answers; with no peer it is
CONFIG_CONFLICT. Set Egress Policy sets the default or a tenant's policy and with DEMOTE moves the TANDEM connections in
scope, whose number it answers; a scope, flag or tenant out of range is INVALID_FIELD. -/
def Obligations.PairCommandsJoinSwapAndLeave : Prop :=
  (∀ (s : State) (id : Nat) (c : Started), (s.AcceptsPlain id 0x0400 [(0, 40)] c) →
      ((s.hrn.join.isSome = true ∨ s.hrn.swap.isSome = true) → exec (.pair id) s = .next (s.complete c .busy)) ∧ (s.hrn.join = none →
        s.hrn.swap = none → s.mayJoin = true → exec (.pair id) s = .next ((s.hold c.id).startJoin (some c.id))) ∧ (s.hrn.join = none →
        s.hrn.swap = none → s.mayJoin = false → exec (.pair id) s = .next (s.complete c .configConflict))) ∧
  (∀ (s u v : State) (j : Join), (s.hrn.join = some j ∧ s.mayJoin = true ∧ (s.htx.queue.any fun m => m.kind = .state) = false ∧
        u = s.sendTwin (.controlMsg .cutover) ∧ v =
        (({ u with hrn.join := none, hrn.ordAck := u.hrn.oseq, hrn.lastHb := u.now, hrn.lastAck := u.now, hrn.peerRole := some .standby } :
        State).setRole .active 0)) →
      ∃ t, exec .joinCutover s = .next t ∧ (s.hrn.upgrade = none → t = ((v.registerAll u.epoch 0).raise Ev.HRN_JOIN_DONE).endCmd j.id .success)) ∧
  (∀ (s : State) (id : Nat) (c : Started), (s.AcceptsPlain id 0x0401 [(0, 40)] c) →
      ((s.hrn.join.isSome = true ∨ s.hrn.swap.isSome = true) → exec (.roleSwap id) s = .next (s.complete c .busy)) ∧ (s.hrn.join = none →
        s.hrn.swap = none → s.hrn.role = .active → s.hrn.peerRole = some .standby →
        exec (.roleSwap id) s = .next { s.hold c.id with hrn.swap := some { id := some c.id } }) ∧ (s.hrn.join = none → s.hrn.swap = none →
        s.hrn.role ≠ .active ∨ s.hrn.peerRole ≠ some .standby → exec (.roleSwap id) s = .next (s.complete c .configConflict))) ∧
  (∀ (s : State) (w : SwapRun), (s.hrn.swap = some w ∧ s.hrn.role = .active ∧ w.quiesced = false ∧ s.drv.cmds.all DrvCmd.isRead = true) →
      exec .swapQuiesced s = .next (({ s with hrn.swap := some { w with quiesced := true } } : State).sendTwin (.controlMsg (.takeCinch false)))) ∧
  (∀ (s : State) (w : SwapRun), (s.hrn.swap = some w ∧ s.hrn.role = .active ∧ w.taken = true ∧ s.hrn.upgrade = none) →
      ∃ t, exec .handover s = .next t ∧ t.hrn.role = .standby ∧ t.hrn.swap = none ∧ t.hrn.peerRole = some .active ∧
        t.fld Reg.HRN_EPOCH_EPOCH = (s.epoch + 1) % 2 ^ 32 ∧ (t.src Ev.HRN_SWAP).pend = true) ∧
  (∀ (s : State) (id : Nat) (c : Started), (s.AcceptsPlain id 0x0402 [(0, 40)] c ∧ s.hasPeer = false) →
      exec (.leavePair id) s = .next (s.complete c .configConflict)) ∧
  (∀ (s u : State) (id : Nat) (c : Started), (s.AcceptsPlain id 0x0402 [(0, 40)] c ∧ s.hasPeer = true ∧
        u = (((s.hold c.id).dropJoin 6).sendTwin (.controlMsg .leave)).endCmd ((((s.hold c.id).dropJoin 6).sendTwin (.controlMsg
        .leave)).hrn.swap.bind SwapRun.id) .configConflict) →
      (u.hrn.role = .active → exec (.leavePair id) s = .next (({ u with hrn.swap := none, hrn.leaving := some c.id } : State).becomeAlone 6)) ∧
        (u.hrn.role ≠ .active → exec (.leavePair id) s = .next (({ u with hrn.swap := none, hrn.leaving := some c.id } : State).settleAlone))) ∧
  (∀ (s u : State) (id : Nat) (c : Started) (ns : List Nat), (s.AcceptsPlain id 0x0403 [(4, 36)] c ∧ c.desc.par 1 1 < 8 ∧ (c.desc.par 0 1 = 0 ∧
        u = { s with hrn.tandemDefault := (c.desc.par 1 1).testBit 0 } ∨ c.desc.par 0 1 = 1 ∧ c.desc.par 2 2 < 1024 ∧
        u = { s with hrn.tandemTenant := Assoc.set 0 s.hrn.tandemTenant (c.desc.par 2 2) (if (c.desc.par 1 1).testBit 2 then 0 else if (c.desc.par 1 1).testBit 0 then 1 else 2) }) ∧
        ((c.desc.par 1 1).testBit 1 = true ∧ ns = u.tandemIn (if c.desc.par 0 1 = 0 then none else some (c.desc.par 2 2)) ∨
        (c.desc.par 1 1).testBit 1 = false ∧ ns = [])) →
      exec (.setEgressPolicy id) s = .next ((ns.foldl (fun s n => s.updConn n fun c => { c with demoting := true }) u).holderDone c ns.length)) ∧
  (∀ (s : State) (id : Nat) (c : Started), (s.AcceptsPlain id 0x0403 [(4, 36)] c ∧ (2 ≤ c.desc.par 0 1 ∨ 8 ≤ c.desc.par 1 1 ∨ c.desc.par 0 1 = 1 ∧
        1024 ≤ c.desc.par 2 2)) →
      exec (.setEgressPolicy id) s = .next (s.complete c .invalidField))

/-- Chapters 04, 07 and 15. EN of XPT_CFG going to 1 gives the wheel a timer slot, and with none free the write is discarded; With
EN already 1, no slot free, a field out of range or a write the holder alone may make, the write changes nothing. SEND in tier
0 answers ADDR_FAULT for a buffer it may not read, BAD_DESC for a sub-port or connection out of range or no cells, RESOURCE
without a tracking entry, waits without the cells to spare, and else answers SUCCESS with the TX_SEQ it takes. Enrol Host
enrols an empty slot with its domain, tenant and keys, CONFIG_CONFLICT for one in use without REPLACE or REMOVE and for the
removal of an empty one; a replacement or removal closes the host's connections first. Grant Namespace puts one grant of the
domain on the namespace in place of any other and raises EVT_CMD_NS_CHANGE, LIMIT_EXCEEDED for a new one past 1,024 of the
domain or 65,536 in all, INVALID_FIELD for a domain, access or namespace out of range; Revoke Grant removes it and completes
once no command that passed its check is left. -/
def Obligations.TransportStartsSendsQueueAndHostsAreGranted : Prop :=
  (∀ (s : State) (v : Word) (k : Nat), (s.flag Reg.XPT_CFG_EN = false ∧ getBits v 0 0 = 1 ∧ s.findSlot = some k ∧
        fieldsInRange Reg.XPT_CFG_EN.addr v = true ∧ s.acceptsHolder true = true) →
      ∃ t, exec (.xptEnable v) s = .next t ∧ t.flag Reg.XPT_CFG_EN = true ∧ t.xpt.wheelSlot = some k ∧
        t.slot k = { owner := 3, armed := true, compare := s.now + s.fld Reg.XPT_WHEEL_WHEEL_TICK * 1000, period := s.fld Reg.XPT_WHEEL_WHEEL_TICK * 1000 })
        ∧
  (∀ (s : State) (v : Word), (s.flag Reg.XPT_CFG_EN = true ∨ getBits v 0 0 = 0 ∨ s.findSlot = none ∨ fieldsInRange Reg.XPT_CFG_EN.addr v = false ∨
        s.acceptsHolder true = false) →
      exec (.xptEnable v) s = .next s) ∧
  (∀ (s : State) (src : SendFrom) (sub conn : Nat) (c : Call), (s.nextCall 5 = some c ∧ c.tier1 = false) →
      (s.sendLen c src = none → exec (.send src sub conn) s = .next (s.answer c 3 0)) ∧ (∀ len n, s.sendLen c src = some (len, n) → (32 ≤ sub ∨
        65536 ≤ conn ∨ n = 0 → exec (.send src sub conn) s = .next (s.answer c 2 0)) ∧ (sub < 32 → conn < 65536 → n ≠ 0 →
        s.canTrack true conn = false → exec (.send src sub conn) s = .next (s.answer c 4 0)) ∧ (sub < 32 → conn < 65536 → n ≠ 0 →
        s.canTrack true conn = true → s.mayGo (s.sendFrame sub conn len n) = false → exec (.send src sub conn) s = .next s))) ∧
  (∀ (s : State) (src : SendFrom) (sub conn len n : Nat) (c : Call), (s.nextCall 5 = some c ∧ c.tier1 = false ∧ s.sendLen c src = some (len, n) ∧
        sub < 32 ∧ conn < 65536 ∧ n ≠ 0 ∧ s.canTrack true conn = true ∧ s.mayGo (s.sendFrame sub conn len n) = true) →
      ∃ u : State, exec (.send src sub conn) s = .next (u.answer c 0 (s.reseq true conn).assign) ∧
        (u.reseq true conn).assign = ((s.reseq true conn).assign + 1) % 65536 ∧ ∃ f ∈ u.swc.frames, f.id = s.swc.nextId ∧ f.sub = sub ∧ f.len = len ∧
        f.cells = n ∧ f.conn = some conn ∧ f.seq = some (s.reseq true conn).assign) ∧
  (∀ (s u w : State) (id : Nat) (c : Started) (p : List Byte) (h : Nat) (x : HostEnt), (s.Accepts id 0x0205 [(0, 40)] (· = 2368) (fun _ => true) c u ∧
        p = c.payload ∧ h = leAt p 0 2 ∧ h < 4096 ∧ leAt p 2 2 < 4096 ∧ leAt p 4 2 < 1024 ∧ leAt p 6 1 < 8 ∧ leAt p 7 1 = 0 ∧ leAt p 0x1C 4 = 0 ∧
        ((leAt p 6 1).testBit 2 = true ∧ x = {} ∨ (leAt p 6 1).testBit 2 = false ∧
        x = { used := true, pd := leAt p 2 2, tenant := leAt p 4 2, plaintextOk := (leAt p 6 1).testBit 0, hostId := (p.drop 8).take 16, rsaE := leAt p 0x18 4, rsaN := (p.drop 0x20).take 384, mldsa := (p.drop 0x1A0).take 1952 }) ∧
        w = ({ u with xpt.hosts := Assoc.set {} u.xpt.hosts h x } : State).persist (.host h)) →
      ((Assoc.get {} u.xpt.hosts h : HostEnt).used = false → (leAt p 6 1).testBit 2 = false → exec (.enrolHost id) s = .next (w.holderDone c)) ∧
        ((Assoc.get {} u.xpt.hosts h : HostEnt).used = false → (leAt p 6 1).testBit 2 = true →
        exec (.enrolHost id) s = .next (u.complete c .configConflict)) ∧ ((Assoc.get {} u.xpt.hosts h : HostEnt).used = true → leAt p 6 1 < 2 →
        exec (.enrolHost id) s = .next (u.complete c .configConflict)) ∧ ((Assoc.get {} u.xpt.hosts h : HostEnt).used = true → 2 ≤ leAt p 6 1 →
        exec (.enrolHost id) s = .next (if ((w.hold c.id).closeHost h).hostClosed h && (((w.hold c.id).closeHost h).ctl.started.any fun y => y.id =
        c.id) then ((w.hold c.id).closeHost h).holderDone c else (w.hold c.id).closeHost h))) ∧
  (∀ (s u : State) (id : Nat) (c : Started) (p : List Byte) (pd n : Nat), (s.Accepts id 0x0206 [(0, 40)] (· = 24) (fun _ => true) c u ∧
        p = c.payload ∧ pd = leAt p 0 2 ∧ n = leAt p 4 4 ∧ pd < 4096 ∧ 1 ≤ leAt p 2 1 ∧ leAt p 2 1 ≤ 3 ∧ leAt p 3 1 = 0 ∧ leAt p 0x10 8 = 0 ∧
        u.nsExists n = true ∧ (u.xpt.grants.filter fun g => g.pd = pd).length < 1024 ∧ u.xpt.grants.length < 65536) →
      exec (.grantNamespace id) s = .next ((({ u with xpt.grants := (u.xpt.grants.filter fun g => !(g.pd = pd && g.nsid = n)) ++ [{ pd := pd, nsid := n, read := (leAt p 2 1).testBit 0, write := (leAt p 2 1).testBit 1, expiry := leAt p 8 8 }] }
        : State).nsChanged n [pd]).holderDone c)) ∧
  (∀ (s u : State) (id : Nat) (c : Started) (p : List Byte) (pd n : Nat), (s.Accepts id 0x0206 [(0, 40)] (· = 24) (fun _ => true) c u ∧
        p = c.payload ∧ pd = leAt p 0 2 ∧ n = leAt p 4 4) →
      (4096 ≤ pd ∨ leAt p 2 1 = 0 ∨ 4 ≤ leAt p 2 1 ∨ leAt p 3 1 ≠ 0 ∨ leAt p 0x10 8 ≠ 0 ∨ u.nsExists n = false →
        exec (.grantNamespace id) s = .next (u.complete c .invalidField)) ∧ (pd < 4096 → 1 ≤ leAt p 2 1 → leAt p 2 1 ≤ 3 → leAt p 3 1 = 0 →
        leAt p 0x10 8 = 0 → u.nsExists n = true → u.grantOf pd n = none → 1024 ≤ (u.xpt.grants.filter fun g => g.pd = pd).length ∨
        65536 ≤ u.xpt.grants.length → exec (.grantNamespace id) s = .next (u.complete c .limitExceeded))) ∧
  (∀ (s u v : State) (id : Nat) (c : Started) (pd n : Nat) (g : Grant), (s.Accepts id 0x0207 [(0, 40)] (· = 8) (fun _ => true) c u ∧
        pd = leAt c.payload 0 2 ∧ n = leAt c.payload 4 4 ∧ leAt c.payload 2 2 = 0 ∧ u.grantOf pd n = some g ∧
        v = { u with xpt.grants := u.xpt.grants.filter fun g => !(g.pd = pd && g.nsid = n) }) →
      v.grantOf pd n = none ∧ exec (.revokeGrant id) s = .next (if v.nsBusy n (some pd) then v.hold c.id else (v.nsChanged n [pd]).holderDone c))

/-- Chapter 14 and 15. Import Data Key puts the unwrapped key into the lowest empty slot, raises EVT_SEC_KEY_IMPORT and returns
the handle; with none empty it is LIMIT_EXCEEDED and with an unwrap that fails INVALID_FIELD. Rotate Data Key adds the next
generation and returns it, and starts a reseal where it asks for one; a fifth is LIMIT_EXCEEDED and a second reseal BUSY. A
step of a reseal seals the blocks of its extent again and marks it done, unless the buffer or the sealing slots are short. A
reseal that has walked every allocated extent, with no read holding a key, leaves only generations from its start on and
raises EVT_CPH_RESEAL_DONE; a namespace that is not resealed is left alone. Destroy Data Key destroys an unbound key; the
newest generation of a namespace is CONFIG_CONFLICT, another bound key is RETENTION_LOCKED under a live lock and waits for
reads, and a handle of no key is INVALID_FIELD. -/
def Obligations.DataKeysLiveFromImportToDestruction : Prop :=
  (∀ (s u : State) (id : Nat) (c : Started) (sk k : List Byte) (sr : Option (List Byte)), (s.Accepts id 0x0500 [(0, 40)] (· = 1544) (fun _ => true) c u)
        →
      (1024 ≤ leAt c.payload 0 2 ∨ zeroAt c.payload 2 6 = false ∨ zeroAt c.payload 0x604 4 = false →
        exec (.importDataKey id ⟨sk, sr⟩) s = .next (u.complete c .invalidField)) ∧ (leAt c.payload 0 2 < 1024 → zeroAt c.payload 2 6 = true →
        zeroAt c.payload 0x604 4 = true → (sr.bind (unwrapKey c.payload sk) = none →
        exec (.importDataKey id ⟨sk, sr⟩) s = .next (u.complete c .invalidField 1)) ∧ (sr.bind (unwrapKey c.payload sk) = some k →
        (u.freeKeySlot = none → exec (.importDataKey id ⟨sk, sr⟩) s = .next (u.complete c .limitExceeded)) ∧ (∀ i, u.freeKeySlot = some i →
        exec (.importDataKey id ⟨sk, sr⟩) s = .next (((u.setDataKey i { used := true, key := k }).raise Ev.SEC_KEY_IMPORT [2 ^ 28 + i, leAt c.payload
        0 2]).holderDone c (2 ^ 28 + i)))))) ∧
  (∀ (s u : State) (id : Nat) (c : Started) (n key : Nat), (s.Accepts id 0x0501 [(0, 40)] (· = 16) (fun _ => true) c u ∧ n = leAt c.payload 0 4 ∧
        key = leAt c.payload 4 4 ∧ leAt c.payload 8 1 ≤ 1 ∧ zeroAt c.payload 9 7 = true ∧ u.nsExists n = true ∧ u.keyFree key = true) →
      (4 ≤ (u.ns n).gens.length → exec (.rotateDataKey id) s = .next (u.complete c .limitExceeded)) ∧ ((u.ns n).gens.length < 4 →
        leAt c.payload 8 1 = 1 → (u.ns n).reseal.isSome = true → exec (.rotateDataKey id) s = .next (u.complete c .busy)) ∧
        (∀ gs g k, (u.ns n).gens = gs ++ [(g, k)] → gs.length < 3 → (leAt c.payload 8 1 = 0 →
        exec (.rotateDataKey id) s = .next (((((u.setNs n { u.ns n with gens := (u.ns n).gens ++ [(g + 1, key % 2 ^ 28)] }).bindKey key n (g +
        1)).persist (.ns n)).raise Ev.CPH_ROTATE [n, g + 1]).holderDone c (g + 1))) ∧ (leAt c.payload 8 1 = 1 → (u.ns n).reseal = none →
        exec (.rotateDataKey id) s = .next (((((u.setNs n
        { u.ns n with gens := (u.ns n).gens ++ [(g + 1, key % 2 ^ 28)], reseal := some (g + 1, []) }).bindKey key n (g + 1)).persist (.ns n)).raise
        Ev.CPH_ROTATE [n, g + 1]).holderDone c (g + 1))))) ∧
  (∀ (s u : State) (n start e : Nat) (done : List Nat) (rs : List (Nat × List Byte)), ((s.ns n).reseal = some (start, done) ∧ s.hrn.holder = true ∧
        s.windowOpen 2 = true ∧ s.bgSlot = true ∧ s.cph.saved = true ∧ (s.mapEnt (s.ns n).volume e).alloc = true ∧ done.contains e = false ∧
        s.resealRoom = true ∧ u = ((rs.filter fun r => r.1 / 4096 = e) ++ s.oldBuffered n start e).foldl (fun s r => s.resealBlock n start r) s) →
      (u.resealRoom = true → u.cph.saved = true → exec (.resealExtent n e rs) s = .next (u.setNs n { u.ns n with reseal := some (start, e :: done) }))
        ∧ (u.resealRoom = false ∨ u.cph.saved = false → exec (.resealExtent n e rs) s = .next u)) ∧
  (∀ (s : State) (n start : Nat) (done : List Nat), ((s.ns n).reseal = some (start, done) ∧ s.hrn.holder = true ∧
        (∀ e ∈ (s.volume (s.ns n).volume).map, e.2.alloc = true → e.1 ∈ done) ∧ s.keyInUse n = false) →
      ∃ t, exec (.resealDone n) s = .next t ∧ (t.ns n).gens = (s.ns n).gens.filter (fun g => decide (start ≤ g.1)) ∧ (t.ns n).reseal = none ∧
        (t.src Ev.CPH_RESEAL_DONE).pend = true ∧ (∀ g ∈ (s.ns n).gens, g.1 < start → t.dataKey g.2 = {})) ∧
  (∀ (s : State) (n e : Nat) (rs : List (Nat × List Byte)), ((s.ns n).reseal = none) →
      exec (.resealExtent n e rs) s = .next s ∧ exec (.resealDone n) s = .next s) ∧
  (∀ (s u : State) (id i : Nat) (c : Started), (s.Accepts id 0x0502 [(0, 40)] (· = 8) (fun _ => true) c u ∧ keySlot (leAt c.payload 0 4) = some i ∧
        leAt c.payload 4 4 = 0 ∧ (u.dataKey i).used = true) →
      ((u.dataKey i).bound = none → exec (.destroyDataKey id) s = .next ((u.destroyKey i).holderDone c)) ∧ (∀ n g, (u.dataKey i).bound = some (n, g) →
        ((u.ns n).gens.getLast?).map Prod.fst = some g → exec (.destroyDataKey id) s = .next (u.complete c .configConflict)) ∧
        (∀ n g, (u.dataKey i).bound = some (n, g) → ((u.ns n).gens.getLast?).map Prod.fst ≠ some g → u.liveLocks n ≠ [] →
        exec (.destroyDataKey id) s = .next (u.complete c .retentionLocked)) ∧ (∀ n g, (u.dataKey i).bound = some (n, g) → u.liveLocks n = [] →
        ((u.ns n).gens.getLast?).map Prod.fst ≠ some g →
        exec (.destroyDataKey id) s = .next (if u.keyInUse n then u.hold c.id else (u.destroyKey i).holderDone c))) ∧
  (∀ (s u : State) (id : Nat) (c : Started), (s.Accepts id 0x0502 [(0, 40)] (· = 8) (fun _ => true) c u) →
      (keySlot (leAt c.payload 0 4) = none → exec (.destroyDataKey id) s = .next (u.complete c .invalidField)) ∧
        (∀ i, keySlot (leAt c.payload 0 4) = some i → leAt c.payload 4 4 ≠ 0 ∨ (u.dataKey i).used = false →
        exec (.destroyDataKey id) s = .next (u.complete c .invalidField))) ∧
  (∀ (s : State) (i n g : Nat), ((s.dataKey i).bound = some (n, g)) →
      (s.destroyKey i).dataKey i = {} ∧ ((s.destroyKey i).ns n).gens = (s.ns n).gens.filter (fun x => x.1 ≠ g) ∧
        ((s.destroyKey i).src Ev.SEC_KEY_DESTROY).pend = true)

/-- Chapters 02 and 15. Enrol Administrator enters the slot's key, raises EVT_SEC_ADMIN and waits for a security record; an
enrolled slot without the replace flag, and the revocation of an empty or the last slot, is CONFIG_CONFLICT; a revocation
clears the slot. Set Retention adds a lock with RELEASE beyond the floor, raises EVT_SEC_RETENTION and writes the namespace's
metadata, LIMIT_EXCEEDED at 1,024 live locks of a namespace or 65,536 on the shelf, INVALID_FIELD for a range or RELEASE out
of bounds. A lock whose RELEASE the floor has passed expires and no other does; the review removes exactly the locks that have
expired. FLOOR_SAVE arms its slot anew and asks for a record, which holds the floor; one in progress is followed by another. -/
def Obligations.AdministratorsLocksAndTheFloorAreRecorded : Prop :=
  (∀ (s u : State) (id k : Nat) (c : Started) (p : List Byte), (s.Accepts id 0x0503 [(0, 40)] (· = 400) (fun _ => true) c u ∧ p = c.payload ∧
        k = leAt p 0 1 ∧ k < 16 ∧ leAt p 1 1 ≤ 1 ∧ zeroAt p 2 6 = true ∧ zeroAt p 12 4 = true) →
      (u.adminEnrolled k = true → leAt p 1 1 = 0 → exec (.enrolAdministrator id) s = .next (u.complete c .configConflict)) ∧
        ((u.adminEnrolled k = false ∨ leAt p 1 1 = 1) → ∃ t, exec (.enrolAdministrator id) s = .next t ∧ t.adminEnrolled k = true ∧
        Assoc.get [] t.sec.adminKeys k = (p.drop 8).take 4 ++ (p.drop 16).take 384 ∧ (t.src Ev.SEC_ADMIN).pend = true ∧ (∀ j, j ≠ k →
        t.adminEnrolled j = u.adminEnrolled j))) ∧
  (∀ (s u : State) (id k : Nat) (c : Started), (s.Accepts id 0x0504 [(0, 40)] (· = 8) (fun _ => true) c u ∧ k = leAt c.payload 0 1 ∧ k < 16 ∧
        zeroAt c.payload 1 7 = true) →
      ((u.adminEnrolled k = false ∨ u.sec.admins = BitVec.ofNat 16 (2 ^ k)) →
        exec (.revokeAdministrator id) s = .next (u.complete c .configConflict)) ∧ (u.adminEnrolled k = true →
        u.sec.admins ≠ BitVec.ofNat 16 (2 ^ k) → ∃ t, exec (.revokeAdministrator id) s = .next t ∧ t.adminEnrolled k = false ∧
        (t.src Ev.SEC_ADMIN).pend = true ∧ (∀ j, j ≠ k → t.adminEnrolled j = u.adminEnrolled j))) ∧
  (∀ (s u : State) (id n : Nat) (c : Started) (p : List Byte) (l : RetLock), (s.Accepts id 0x0208 [(0, 40)] (· = 32) (fun _ => true) c u ∧
        p = c.payload ∧ n = leAt p 0 4 ∧ l = { id := u.sec.nextLock, nsid := n, slba := leAt p 8 8, nlb := leAt p 16 8, release := leAt p 24 8 }) →
      (leAt p 4 4 ≠ 0 ∨ u.nsExists n = false ∨ l.nlb = 0 ∨ (u.ns n).nsze < l.slba + l.nlb ∨ l.release ≤ u.tim.floor →
        exec (.setRetention id) s = .next (u.complete c .invalidField)) ∧ (leAt p 4 4 = 0 → u.nsExists n = true → 1 ≤ l.nlb →
        l.slba + l.nlb ≤ (u.ns n).nsze → u.tim.floor < l.release → (1024 ≤ (u.liveLocks n).length ∨ 65536 ≤ u.allLocks.length →
        exec (.setRetention id) s = .next (u.complete c .limitExceeded)) ∧ ((u.liveLocks n).length < 1024 → u.allLocks.length < 65536 →
        exec (.setRetention id) s = .next ((((u.addLock l).persist (.ns n)).raise Ev.SEC_RETENTION [n, l.slba, l.release]).holderDone c)))) ∧
  (∀ (s : State) (l : RetLock) (lba : Nat), (l.expired = false ∧ l.slba ≤ lba ∧ lba < l.slba + l.nlb ∧ s.lockLive l = true) →
      (s.addLock l).locked l.nsid lba 1 = true) ∧
  (∀ (s : State) (k : Nat), ∃ t, exec (.retentionLockExpire k) s = .next t ∧ t = { s with sec.locks := t.sec.locks } ∧
        (∀ n, t.liveLocks n = s.liveLocks n)) ∧
  (∀ (s u : State), ((s.slot 506).armed = true) →
      exec .retentionReview s = .next (s.fire 506).reviewLocks ∧ u.reviewLocks.sec.locks = u.sec.locks.filter u.lockLive ∧
        exec .retentionReview { s with tim.slots := Assoc.set {} s.tim.slots 506 {} } = .next { s with tim.slots := Assoc.set {} s.tim.slots 506 {} })
        ∧
  (∀ (s u : State), ((s.slot 505).armed = true ∧ u = s.fireWith 505 (s.fld Reg.TIM_FLOOR_SAVE_FLOOR_SAVE * 1000000000)) →
      exec .floorSave s = .next (u.saveRecord []) ∧ ((s.slot 505).period ≠ 0 → (u.slot 505).armed = true ∧
        (u.slot 505).period = s.fld Reg.TIM_FLOOR_SAVE_FLOOR_SAVE * 1000000000) ∧ (u.sec.write = none → u.sec.due = none → u.sec.stopped = false →
        u.sec.placesLeft ≠ 0 → ∃ r, (u.saveRecord []).sec.write = some r ∧ r.content.floor = u.tim.floor ∧ r.waiters = []) ∧
        (u.sec.write.isSome = true → u.sec.due = none → u.saveRecord [] = { u with sec.due := some [] })) ∧
  (∀ (s : State), ((s.slot 505).armed = false) →
      exec .floorSave s = .next s)

/-- Chapters 04 and 15. Load Firmware Image puts an image whose digest, checks and read-back pass into the other boot slot and
raises EVT_SEC_FW_LOADED; a failing check rejects it with EVT_SEC_FW_REJECT, a failing read-back leaves the slot empty.
Activate Firmware of an image that passes every check names that slot in the next record, BUSY during another activation, a
join or a swap, and each check that fails ends it with its own status. The end of the soak advances the fuses to the pending
SVN. An extension key is enrolled; an extension that passes the checks is stored to replace the loaded one and raises its
key's floor, each failing check rejects it in order, and IMAGE_LEN 0 removes it; the replacement clears the faults, the hold
and the slots of the one before. The erased bank lets a waiting record start; the DRBG reseeds every 2^20 requests; an
uncorrectable SRAM error stops the core. -/
def Obligations.ImagesExtensionsAndFusesAreChecked : Prop :=
  (∀ (s : State) (id : Nat) (c : Started) (u : State) (l : FwLoad), (s.Accepts id 0x0900 [(12, 28)] (· = 32) (fun _ => true) c u) →
      (u.activating = true → exec (.loadFirmwareImage id (some l)) s = .next (u.complete c .busy)) ∧ (u.activating = false →
        exec (.loadFirmwareImage id none) s = .next (u.complete c .dataXferError)) ∧ (u.activating = false → l.img.digest ≠ c.payload →
        exec (.loadFirmwareImage id (some l)) s = .next ((u.raise Ev.SEC_FW_REJECT [0]).complete c .guardMismatch)) ∧ (u.activating = false →
        l.img.digest = c.payload → imageFails l u.sec.fuse ≠ 0 →
        exec (.loadFirmwareImage id (some l)) s = .next ((u.raise Ev.SEC_FW_REJECT [imageFails l u.sec.fuse]).complete c .invalidField (imageFails l
        u.sec.fuse))) ∧ (u.activating = false → l.img.digest = c.payload → imageFails l u.sec.fuse = 0 → l.readBackOk = false →
        exec (.loadFirmwareImage id (some l)) s = .next ((u.setOther none).complete c .dataXferError)) ∧ (u.activating = false →
        l.img.digest = c.payload → imageFails l u.sec.fuse = 0 → l.readBackOk = true →
        exec (.loadFirmwareImage id (some l)) s = .next (((u.setOther (some l)).raise Ev.SEC_FW_LOADED [l.img.svn, leAt l.img.version 0 8]).complete c
        .success))) ∧
  (∀ (s : State) (id : Nat) (c : Started) (u : State) (pv : Option (List Byte)) (l : FwLoad), (s.Accepts id 0x0901 [(0, 40)] (· = 32) (fun _ => true)
        c u ∧ u.slotOf (!u.sec.bootB) = some l) →
      (u.activating = true ∨ u.hrn.join.isSome = true ∨ u.hrn.swap.isSome = true → exec (.activateFirmware id pv) s = .next (u.complete c .busy)) ∧
        (u.activating = false → u.hrn.join = none → u.hrn.swap = none → (u.slotFails (!u.sec.bootB) ≠ 0 →
        exec (.activateFirmware id pv) s = .next (u.complete c .invalidField 1)) ∧ (u.slotFails (!u.sec.bootB) = 0 → l.img.digest ≠ c.payload →
        exec (.activateFirmware id pv) s = .next (u.complete c .guardMismatch)) ∧ (u.slotFails (!u.sec.bootB) = 0 → l.img.digest = c.payload →
        u.hasPeer = true → pv ≠ some l.img.version → exec (.activateFirmware id pv) s = .next (u.complete c .invalidField 2)) ∧
        (u.slotFails (!u.sec.bootB) = 0 → l.img.digest = c.payload → u.hasPeer = false ∨ pv = some l.img.version → (harnessVersion < l.img.hrnMin ∨
        l.img.hrnMax < harnessVersion → exec (.activateFirmware id pv) s = .next (u.complete c .invalidField 3)) ∧ (l.img.hrnMin ≤ harnessVersion →
        harnessVersion ≤ l.img.hrnMax → exec (.activateFirmware id pv) s = .next
        (({ u.hold c.id with sec.nextB := !u.sec.bootB, sec.after := some (if u.hasPeer then .sendStandby else .quiesce) } : State).saveRecord [])))))
        ∧
  (∀ (s : State) (id : Nat) (c : Started) (u : State) (pv : Option (List Byte)), (s.Accepts id 0x0901 [(0, 40)] (· = 32) (fun _ => true) c u ∧
        u.slotOf (!u.sec.bootB) = none) →
      exec (.activateFirmware id pv) s = .next (u.complete c .invalidField 1)) ∧
  (∀ (s : State), (s.pendingSvn ≠ 0 ∧ s.clk.bootDone = true ∧ s.activating = false ∧ s.sec.stopped = false) →
      ∃ t, exec .soakComplete s = .next t ∧ t.sec.fuse = s.pendingSvn ∧ (t.src Ev.SEC_FUSE).pend = true ∧
        s.sec.soakFrom + (s.fld Reg.SEC_SOAK_SVN_SOAK * 3600 - s.sec.soakBase) * 1000000000 ≤ t.now) ∧
  (∀ (s : State), (s.pendingSvn = 0) →
      exec .soakComplete s = .next s) ∧
  (∀ (s : State) (id k : Nat) (c : Started) (u : State) (p : List Byte) (a b : Bool), (s.Accepts id 0x0505 [(0, 40)] (· = 2352) (fun _ => true) c u ∧
        p = c.payload ∧ k = leAt p 0 1) →
      (k < 4 → zeroAt p 1 7 = true → zeroAt p 12 4 = true →
        exec (.enrolExtensionKey id true true) s = .next
        (({ (u.hold c.id).carry c with tck.keys := Assoc.set {} u.tck.keys k { enrolled := true, rsaE := leAt p 8 4, rsaN := (p.drop 16).take 384, mldsa := (p.drop 400).take 1952 } }
        : State).saveRecord [c.id])) ∧ (4 ≤ k ∨ zeroAt p 1 7 = false ∨ zeroAt p 12 4 = false ∨ a = false ∨ b = false →
        exec (.enrolExtensionKey id a b) s = .next (u.complete c .invalidField))) ∧
  (∀ (s : State) (id : Nat) (c : Started) (u : State) (x : ExtImage) (k : ExtKey), (s.Accepts id 0x0902 [(12, 28)] (· = 32) (fun _ => true) c u ∧
        c.desc.par 8 4 ≠ 0 ∧ k = Assoc.get {} u.tck.keys x.keySlot) →
      exec (.loadExtension id none) s = .next (u.complete c .dataXferError) ∧ (x.digest ≠ c.payload →
        exec (.loadExtension id (some x)) s = .next (u.rejectExt c .guardMismatch 0)) ∧ (x.digest = c.payload →
        (extFormatOk x (c.desc.par 8 4) = false → exec (.loadExtension id (some x)) s = .next (u.rejectExt c .invalidField 1)) ∧
        (extFormatOk x (c.desc.par 8 4) = true → (k.enrolled = false ∨ x.rsaOk = false ∨ x.mldsaOk = false →
        exec (.loadExtension id (some x)) s = .next (u.rejectExt c .guardSignature 1)) ∧ (k.enrolled = true → x.rsaOk = true → x.mldsaOk = true →
        (x.version < k.floor → exec (.loadExtension id (some x)) s = .next (u.rejectExt c .invalidField 2)) ∧ (k.floor ≤ x.version →
        0x10000000 < x.hbmLen → exec (.loadExtension id (some x)) s = .next (u.rejectExt c .limitExceeded 0)) ∧ (k.floor ≤ x.version →
        x.hbmLen ≤ 0x10000000 → exec (.loadExtension id (some x)) s = .next
        (({ u with tck.keys := Assoc.set {} u.tck.keys x.keySlot { k with floor := x.version } } : State).acceptExt c (some x))))))) ∧
  (∀ (s : State) (id : Nat) (c : Started) (u : State) (x : Option ExtImage), (s.Accepts id 0x0902 [(12, 28)] (· = 32) (fun _ => true) c u ∧
        c.desc.par 8 4 = 0) →
      exec (.loadExtension id x) s = .next (u.acceptExt c none)) ∧
  (∀ (s : State) (c : Started) (x : Option ExtImage) (e : Nat × Slot), (s.acceptExt c x).sec.extStored = x ∧ (s.swapExt x).tck.ext = x ∧
        (s.swapExt x).tck.faults = [] ∧ (s.swapExt x).tck.extDisabled = false ∧ (s.swapExt x).tck.next = none ∧ (e ∈ (s.swapExt x).tim.slots →
        e.2.owner ≠ 7)) ∧
  (∀ (s : State), (s.sec.erasing = true ∧ (s.sec.due = none ∨ s.sec.write.isSome = true)) →
      exec .recordBankErased s = .next { s with sec.erasing := false, sec.otherErased := true } ∧
        exec .recordBankErased { s with sec.erasing := false } = .next { s with sec.erasing := false }) ∧
  (∀ (s : State) (ws : List Nat), (s.sec.erasing = true ∧ s.sec.due = some ws ∧ s.sec.write = none) →
      exec .recordBankErased s = .next (({ s with sec.erasing := false, sec.otherErased := true } : State).startRecord ws)) ∧
  (∀ (s : State), (1048576 ≤ s.sec.drbgRequests → exec .drbgReseed s = .next { s with sec.drbgRequests := 0 }) ∧ (s.sec.drbgRequests < 1048576 →
        exec .drbgReseed s = .next s) ∧ exec .secSramEcc s = .next (({ s with sec.stopped := true } : State).raise Ev.SEC_FATAL))

/-- Chapter 15. In a device that runs and has booted, with the security core running, GET_VERSION, GET_CAPABILITIES and
NEGOTIATE_ALGORITHMS are answered, GET_DIGESTS with the digest of each chain, GET_CERTIFICATE with at most 4,096 bytes of the
chains of slots 0 to 2, CHALLENGE with every measurement and both signatures, and GET_MEASUREMENTS with their number, all of
them, or the one asked for, signed where asked; another slot or index is answered with an error. Nothing else changes. With
the security core stopped, the device asleep or not booted no request is answered. -/
def Obligations.SpdmIsAnsweredWhileTheSecurityCoreRuns : Prop :=
  (∀ (s : State) (slot offset length index : Nat) (sign : Bool), (s.awake = true ∧ s.clk.bootDone = true ∧ s.sec.stopped = false) →
      exec .spdmGetVersion s = .next (s.emit (.spdm .version)) ∧ exec .spdmGetCapabilities s = .next (s.emit (.spdm .capabilities)) ∧
        exec .spdmNegotiateAlgorithms s = .next (s.emit (.spdm .algorithms)) ∧
        exec .spdmGetDigests s = .next (s.emit (.spdm (.digests [Config.sha256 (s.chain 0), Config.sha256 (s.chain 1), Config.sha256 (s.chain 2)]))))
        ∧
  (∀ (s : State) (slot offset length : Nat) (tr : List Byte), (s.awake = true ∧ s.clk.bootDone = true ∧ s.sec.stopped = false) →
      (slot ≤ 2 → exec (.spdmGetCertificate slot offset length) s = .next (s.emit (.spdm (.certificate slot (((s.chain slot).drop offset).take (min
        length 4096)) (((s.chain slot).drop offset).length - min length 4096)))) ∧
        exec (.spdmChallenge ⟨slot, tr⟩) s = .next (s.emit (.spdm (.challengeAuth slot (s.blocks 8) (s.signBoth slot (Config.sha256 (tr ++ (s.blocks
        8).flatten))))))) ∧ (2 < slot → exec (.spdmGetCertificate slot offset length) s = .next (s.emit (.spdm (.error 1))) ∧
        exec (.spdmChallenge ⟨slot, tr⟩) s = .next (s.emit (.spdm (.error 1))))) ∧
  (∀ (s : State) (index slot : Nat) (tr : List Byte) (bs : List (Nat × List Byte)), (s.awake = true ∧ s.clk.bootDone = true ∧ s.sec.stopped = false ∧
        (index = 0 ∧ bs = [] ∨ index = 255 ∧ bs = ((List.range 8).map fun i => (i + 1, s.measurement (i + 1))) ∨ 1 ≤ index ∧ index ≤ 8 ∧
        bs = [(index, s.measurement index)])) →
      exec (.spdmGetMeasurements index none) s = .next (s.emit (.spdm (.measurements 8 bs none))) ∧ (slot ≤ 2 →
        exec (.spdmGetMeasurements index (some ⟨slot, tr⟩)) s = .next (s.emit (.spdm (.measurements 8 bs (some (s.signBoth slot (Config.sha256 (tr ++
        bs.flatMap Prod.snd)))))))) ∧ (2 < slot → exec (.spdmGetMeasurements index (some ⟨slot, tr⟩)) s = .next (s.emit (.spdm (.error 1))))) ∧
  (∀ (s : State) (index : Nat) (sign : Option SpdmSign), (s.awake = true ∧ s.clk.bootDone = true ∧ s.sec.stopped = false ∧ 8 < index ∧ index ≠ 255) →
      exec (.spdmGetMeasurements index sign) s = .next (s.emit (.spdm (.error 1)))) ∧
  (∀ (s : State) (slot offset length index : Nat) (sign : Option SpdmSign) (tr : List Byte), (s.awake = false ∨ s.clk.bootDone = false ∨
        s.sec.stopped = true) →
      exec .spdmGetVersion s = .next s ∧ exec .spdmGetCapabilities s = .next s ∧ exec .spdmNegotiateAlgorithms s = .next s ∧
        exec .spdmGetDigests s = .next s ∧ exec (.spdmGetCertificate slot offset length) s = .next s ∧ exec (.spdmChallenge ⟨slot, tr⟩) s = .next s ∧
        exec (.spdmGetMeasurements index sign) s = .next s)

/-- Chapter 16, in a device that runs. In DRAIN, or in a device that does not run, a REQ write is discarded; REQ = 0 leads to RUN,
from DEEP with FIO started and the ports of enabled fabric ports training; REQ = 1 and REQ = 2 lead to SLEEP and DEEP where
R318 holds (role SOLO or FENCED, every connection context IDLE, no dirty data, no open record), and otherwise, or between
SLEEP and DEEP, change nothing but REFUSED; entering a state sets it and raises EVT_PWR_STATE; DEEP drops a trained Harness
link and stops FIO with FIO_DEEP = 0. A domain that waits switches off once its blocks are disabled and hold no work, and
stays as it is until then; the Fixed domains are wanted in every state. -/
def Obligations.DeviceStatesAndDomainsSwitchAsAsked : Prop :=
  (∀ (s : State), (s.awake = true) →
      (s.pwr.st = .drain → exec .powerReqRun s = .next s) ∧ (s.pwr.st = .run → exec .powerReqRun s = .next (s.reqWritten 0)) ∧ (s.pwr.st = .sleep →
        exec .powerReqRun s = .next ((s.reqWritten 0).toState .run)) ∧ (s.pwr.st = .deep →
        exec .powerReqRun s = .next (((s.reqWritten 0).startFio.toState .run).trainPorts))) ∧
  (∀ (s : State), (s.awake = true ∧ (s.hrn.role = .solo ∨ s.hrn.role = .fenced) ∧ s.anyConn = false ∧ s.dirty = 0 ∧ s.sbg.stripes = []) →
      (s.pwr.st = .run → exec .powerReqSleep s = .next ((s.reqWritten 1).toState .sleep)) ∧ (s.pwr.st = .sleep →
        exec .powerReqSleep s = .next (s.reqWritten 1)) ∧ (s.pwr.st = .deep → exec .powerReqSleep s = .next { s with pwr.refused := true }) ∧
        (s.pwr.st = .sleep → exec .powerReqDeep s = .next { s with pwr.refused := true }) ∧ (s.pwr.st = .deep →
        exec .powerReqDeep s = .next (s.reqWritten 2))) ∧
  (∀ (s u : State), (s.awake = true ∧ (s.hrn.role = .solo ∨ s.hrn.role = .fenced) ∧ s.anyConn = false ∧ s.dirty = 0 ∧ s.sbg.stripes = [] ∧
        s.pwr.st = .run ∧ u = (s.reqWritten 2).dropLinks.toState .deep) →
      exec .powerReqDeep s = .next (if u.flag Reg.CLK_CFG_FIO_DEEP then u else u.stopFio) ∧ (s.hrn.lanes ≠ 0 → u.hrn.link = false) ∧
        (u.stopFio).clk.fioReady = false) ∧
  (∀ (s : State), (s.awake = true ∧ s.pwr.st = .run ∧ ((s.hrn.role ≠ .solo ∧ s.hrn.role ≠ .fenced) ∨ s.anyConn = true ∨ s.dirty ≠ 0 ∨
        s.sbg.stripes ≠ [])) →
      exec .powerReqSleep s = .next { s with pwr.refused := true } ∧ exec .powerReqDeep s = .next { s with pwr.refused := true }) ∧
  (∀ (s : State), (s.awake = false ∨ s.pwr.st = .drain) →
      exec .powerReqRun s = .next s ∧ exec .powerReqSleep s = .next s ∧ exec .powerReqDeep s = .next s) ∧
  (∀ (s : State) (st : DevState), (s.toState st).pwr.st = st ∧ ((s.toState st).src Ev.PWR_STATE).pend = true) ∧
  (∀ (s : State) (d : Fin 34), (s.flag (Reg.PWR_DOM_CFG_DOM_PEND d) = true ∧ s.flag (Reg.PWR_DOM_CFG_ON d) = true ∧ s.domDisabled d = true ∧
        s.domWork d = false) →
      exec (.domainSwitchOff d) s = .next ((s.setFld (Reg.PWR_DOM_CFG_ON d) 0).setFld (Reg.PWR_DOM_CFG_DOM_PEND d) 0)) ∧
  (∀ (s : State) (d : Fin 34), ((s.flag (Reg.PWR_DOM_CFG_DOM_PEND d) = false ∨ s.domDisabled d = false ∨ s.domWork d = true)) →
      exec (.domainSwitchOff d) s = .next s) ∧
  (∀ (s : State) (d : Nat), (d ∈ fixedDomains) →
      s.domWanted d = true)

/-- Chapter 16. VIN_WARN_N asserted records VIN and raises EVT_PWR_VIN_WARN; a device that runs and has booted enters DRAIN, at
PHASE 1 as holder and at its flush without HOLDER, any other stays as it is; an external low counts only with EXT_WARN = 1. At
the 5 µs check an active twin whose peer shows no DRAIN is FENCED with cause 3. PHASE 2 follows when no data is dirty; the
Flush of every ACTIVE member and PHASE 3 follow when no record is open and every page is written, for a twin without HOLDER at
once; until then nothing changes. When every Flush has completed and the record is written PHASE is 4 and EVT_PWR_DRAIN_DONE
is raised; RUN follows only when the release has come too. A security record that reads back right becomes the record of the
flash; one that does not is written again in the next place, and the second time it is lost, and the cold start goes on
without it. -/
def Obligations.TheDrainRunsItsStepsToTheEnd : Prop :=
  (∀ (s : State) (ext : Bool) (vin : Nat), (s.awake = true ∧ s.clk.bootDone = true ∧ s.pwr.vinWarn = false ∧ s.pwr.st ≠ .drain ∧ (ext = false ∨
        s.flag Reg.PWR_VIN_CFG_EXT_WARN = true)) →
      ∃ t, exec (.vinWarnAssert ext vin) s = .next t ∧ t.pwr.vinWarn = true ∧ t.pwr.ext = ext ∧ t.pwr.st = .drain ∧
        t.pwr.phase = (if s.hrn.holder then 1 else 3) ∧ t.pwr.drainAt = s.now ∧ (t.src Ev.PWR_VIN_WARN).pend = true) ∧
  (∀ (s : State) (ext : Bool) (vin : Nat), (s.pwr.powered = false ∨ s.pwr.vinWarn = true ∨ (s.flag Reg.PWR_VIN_CFG_EXT_WARN = false ∧ ext = true)) →
      exec (.vinWarnAssert ext vin) s = .next s) ∧
  (∀ (s : State) (ext : Bool) (vin : Nat), (s.pwr.powered = true ∧ s.pwr.vinWarn = false ∧ (ext = false ∨ s.flag Reg.PWR_VIN_CFG_EXT_WARN = true) ∧
        (s.awake = false ∨ s.clk.bootDone = false ∨ s.pwr.st = .drain)) →
      ∃ t, exec (.vinWarnAssert ext vin) s = .next t ∧ t.pwr = { s.pwr with vinWarn := true, ext := ext } ∧
        t.fld Reg.PWR_VIN_MEAS_VIN = min vin 4095 ∧ (t.src Ev.PWR_VIN_WARN).pend = true) ∧
  (∀ (s : State), (s.pwr.st = .drain ∧ s.pwr.drainChecked = false ∧ s.hrn.link = true ∧ s.hrn.peerDrain = false ∧ (s.hrn.role = .active ∨
        s.hrn.role = .standby)) →
      ∃ t, exec .drainPeerCheck s = .next t ∧ t.hrn.role = .fenced ∧ t.hrn.cause = 3 ∧ t.now = max s.now (s.pwr.drainAt + 5000) ∧
        (t.src Ev.HRN_FENCED).pend = true) ∧
  (∀ (s : State), (s.pwr.st = .drain ∧ s.pwr.drainChecked = false ∧ (s.hrn.link = false ∨ s.hrn.peerDrain = true ∨ s.hrn.role ≠ .active ∧
        s.hrn.role ≠ .standby)) →
      exec .drainPeerCheck s = .next (({ s with pwr.drainChecked := true } : State).reach (s.pwr.drainAt + 5000))) ∧
  (∀ (s u : State), (s.pwr.st = .drain ∧ (s.pwr.phase = 1 ∧ s.hrn.holder = true ∧ s.dirty = 0 ∧ u = { s with pwr.phase := 2 } ∨ (s.pwr.phase ≠ 1 ∨
        s.hrn.holder = false ∨ s.dirty ≠ 0) ∧ u = s)) →
      (u.pwr.phase = 2 ∧ s.sbg.stripes = [] ∧ s.sbg.dirtyPages = [] ∨ u.pwr.phase < 3 ∧ s.hrn.holder = false →
        exec .drainDestageDone s = .next u.startFlush) ∧ ((u.pwr.phase ≠ 2 ∨ s.sbg.stripes ≠ [] ∨ s.sbg.dirtyPages ≠ []) ∧ (3 ≤ u.pwr.phase ∨
        s.hrn.holder = true) → exec .drainDestageDone s = .next u)) ∧
  (∀ (s : State), (s.hrn.role ≠ .fenced ∧ s.reb.members = []) →
      s.startFlush = { s with pwr.phase := 3 }) ∧
  (∀ (s : State) (m : Nat) (x : Member), (s.pwr.st = .drain ∧ s.hrn.holder = true ∧ s.pwr.phase = 2 ∧ s.sbg.stripes = [] ∧ s.sbg.dirtyPages = [] ∧
        s.hrn.role ≠ .fenced ∧ (m, x) ∈ s.reb.members ∧ x.st = .active) →
      ∃ t, exec .drainDestageDone s = .next t ∧ t.pwr.phase = 3 ∧ .driveFlush m ∈ t.out ∧ ∃ c ∈ t.drv.cmds, c.member = m ∧ c.use = .flush) ∧
  (∀ (s : State), (s.pwr.st = .drain ∧ s.pwr.phase = 3 ∧ s.pwr.drainRec = true ∧ (∀ c ∈ s.drv.cmds, c.use ≠ .flush)) →
      ∃ t, exec .drainDone s = .next t ∧ (t.src Ev.PWR_DRAIN_DONE).pend = true ∧ (s.pwr.vinWarn = true → t.pwr.st = .drain ∧ t.pwr.phase = 4) ∧
        (s.pwr.vinWarn = false → t.pwr.st = .run ∧ t.pwr.phase = 0)) ∧
  (∀ (s : State), (s.awake = true ∧ s.pwr.vinWarn = true) →
      ∃ t, exec .vinWarnRelease s = .next t ∧ t.pwr.vinWarn = false ∧ (t.src Ev.PWR_VIN_OK).pend = true ∧ (s.pwr.st = .drain → s.pwr.phase = 4 →
        t.pwr.st = .run) ∧ (s.pwr.st = .drain → s.pwr.phase ≠ 4 → t.pwr.st = .drain ∧ t.pwr.phase = s.pwr.phase)) ∧
  (∀ (s : State) (w : RecWrite), (s.sec.write = some w) →
      ∃ t, exec (.securityRecordWritten true) s = .next t ∧ (s.sec.after = none → t.sec.flash = w.content) ∧ (w.waiters = [] → s.sec.due = none →
        s.sec.after = none → s.pwr.st = .drain → t.pwr.drainRec = true ∧ t.sec.write = none)) ∧
  (∀ (s : State), (s.sec.write = none) →
      exec (.securityRecordWritten true) s = .next s ∧ exec (.securityRecordWritten false) s = .next s) ∧
  (∀ (s : State) (w : RecWrite), (s.sec.write = some w ∧ w.retried = true) →
      exec (.securityRecordWritten false) s = .next (s.recordLost w.waiters).startSynea) ∧
  (∀ (s : State) (w : RecWrite), (s.sec.write = some w ∧ w.retried = false ∧ s.sec.placesLeft ≠ 0) →
      ∃ t, exec (.securityRecordWritten false) s = .next t ∧ t.sec.write = some { w with retried := true } ∧ t.sec.placesLeft = s.sec.placesLeft - 1 ∧
        t.sec.flash = s.sec.flash)

/-- Chapters 16 and 20. VIN below DROP_TH leaves only the fuses and the boot flash, and VIN rising starts the device cold. A rail
fault clears GOOD and sets FAULT of its rail, raises EVT_PWR_RAIL_FAULT, switches off the domains it feeds and stops the
device; a rail that faults again within 1 s of its restart is held off. A reading at TJ_WARN or above raises
EVT_PWR_THERM_WARN once, and again only after a cooling by 5 °C; another reading is only noted, and trips nothing. At 125 °C
the device enters thermal hold with every domain but 0 and 1 off, and stays there until a reset waits and the die has cooled. -/
def Obligations.SupplyRailAndTemperatureFaultsStopTheDevice : Prop :=
  (∀ (s : State), (s.pwr.powered = true) →
      exec .vinDrop s = .next { glb := s.glb, sec := s.sec.kept, pwr := { powered := false }, out := s.out, free := s.free, pending := s.pending }) ∧
  (∀ (s : State), (s.pwr.powered = false) →
      exec .powerUp s = .next { State.reset with glb := s.glb, sec := s.sec.kept, out := s.out, free := s.free, pending := s.pending }) ∧
  (∀ (s : State) (rail : Fin 6) (ov : Bool), (s.pwr.powered = true) →
      ∃ t, exec (.railFault rail ov) s = .next t ∧ t.pwr.railDown = true ∧ (t.src Ev.PWR_RAIL_FAULT).pend = true ∧
        (t.fld Reg.PWR_RAIL_STATUS_GOOD).testBit rail = false ∧ (t.fld Reg.PWR_RAIL_STATUS_FAULT).testBit rail = true ∧ t.awake = false ∧
        (∀ d ∈ railFeeds rail, t.flag (Reg.PWR_DOM_CFG_ON d) = false) ∧ (∀ at', s.pwr.railAt = some at' → s.now < at' + 1000000000 →
        t.pwr.railHold = true)) ∧
  (∀ (s : State) (sensor temp : Nat), (s.pwr.powered = true ∧ s.fld Reg.PWR_THERM_TJ_WARN ≤ temp) →
      exec (.thermalWarn sensor temp false) s = .next (if s.pwr.thermWarned then s.readTemp temp else
        ({ s.readTemp temp with pwr.thermWarned := true } : State).raise Ev.PWR_THERM_WARN [sensor, temp])) ∧
  (∀ (s : State) (sensor temp : Nat), (s.pwr.powered = true ∧ temp + 5 ≤ s.fld Reg.PWR_THERM_TJ_WARN) →
      exec (.thermalWarn sensor temp true) s = .next { s.readTemp temp with pwr.thermWarned := false }) ∧
  (∀ (s : State) (sensor temp : Nat) (b : Bool), (s.pwr.powered = true) →
      (temp < s.fld Reg.PWR_THERM_TJ_WARN → exec (.thermalWarn sensor temp false) s = .next (s.readTemp temp)) ∧
        (s.fld Reg.PWR_THERM_TJ_WARN < temp + 5 → exec (.thermalWarn sensor temp true) s = .next (s.readTemp temp)) ∧ (s.pwr.thermHold = true ∨
        temp < 125 → exec (.thermalTrip sensor temp) s = .next s)) ∧
  (∀ (s : State) (sensor temp : Nat), (s.pwr.powered = true ∧ s.pwr.thermHold = false ∧ 125 ≤ temp) →
      ∃ t, exec (.thermalTrip sensor temp) s = .next t ∧ t.pwr.thermHold = true ∧ t.awake = false ∧ (t.src Ev.PWR_THERM_TRIP).pend = true ∧
        (∀ d, 2 ≤ d → d < 34 → t.flag (Reg.PWR_DOM_CFG_ON d) = false)) ∧
  (∀ (s : State), (s.pwr.thermHold = true ∧ s.pwr.waitingResets ≠ []) →
      exec .thermalResetStart s = .next (({ s with pwr.thermHold := false } : State).fullReset (s.pwr.waitingResets ++ [7]))) ∧
  (∀ (s : State), ((s.pwr.thermHold = false ∨ s.pwr.waitingResets = [])) →
      exec .thermalResetStart s = .next s)

/-- Chapter 17, in a device outside reset. With FB_YIELD and a link a twin that has fallen back yields, the active telling the
standby to take the cinch and the standby telling the active; the results below are those of a device alone on its shelf (no
yield). An XA trip sets its bit in CLK_MON_STATUS, raises EVT_CLK_XA_FAIL, marks XA tripped and stops domain 9, and with FIO
ready moves domain 4 to FIO; an XB trip with XA good marks XB tripped and PLL6 then relocks to XA; with XA tripped TIME goes
to FIO; a FIO trip moves AON to SIO, stops the domains on FIO and starts FIO again; a PLL0 unlock moves domain 4 to FIO, or
stops it and starts FIO where FIO is not ready; a monitor that has tripped does not trip again. The table writes no result for
a trip in a reset: the model restarts the tree. -/
def Obligations.ClockTripsMoveDomainsToTheirFallback : Prop :=
  (∀ (s : State) (freq : Bool) (dev : Int), (s.treeUp = true ∧ s.clk.xaOk = true ∧ s.clk.resetHold = none ∧ s.hrn.role = .solo ∧ s.clk.fioReady = true ∧
        s.fld (Reg.CLK_CD_STATUS_SRC 4) = 0 ∧ s.fld (Reg.CLK_CD_STATUS_SRC 9) = 0) →
      ∃ t, exec (.xaTrip freq dev) s = .next t ∧ (t.rg Reg.CLK_MON_STATUS_XA_STOP.addr).getLsbD (if freq then 1 else 0) = true ∧
        (t.src Ev.CLK_XA_FAIL).pend = true ∧ (t.src Ev.CLK_FALLBACK).pend = true ∧ t.clk.xaTripped = true ∧ t.clk.xaOk = false ∧ t.clk.fallen = true ∧
        t.fld (Reg.CLK_CD_STATUS_SRC 4) = 1 ∧ t.fld (Reg.CLK_CD_STATUS_SRC 9) = 3 ∧ (s.hrn.lanes ≠ 0 → t.hrn.link = false)) ∧
  (∀ (s : State) (freq : Bool) (dev : Int), (s.treeUp = true ∧ s.clk.xbOk = true ∧ s.clk.resetHold = none ∧ s.clk.xaTripped = false ∧
        s.hrn.link = false ∧ s.pwr.st ≠ .deep) →
      ∃ t, exec (.xbTrip freq dev) s = .next t ∧ (t.rg Reg.CLK_MON_STATUS_XA_STOP.addr).getLsbD (if freq then 3 else 2) = true ∧
        (t.src Ev.CLK_XB_FAIL).pend = true ∧ t.clk = { s.clk with xbTripped := true, xbOk := false } ∧
        t.fld (Reg.CLK_CD_STATUS_SRC 3) = s.fld (Reg.CLK_CD_STATUS_SRC 3)) ∧
  (∀ (s : State), (s.treeUp = true ∧ s.clk.xbTripped = true ∧ s.clk.xaTripped = false ∧ s.tim.onXA = false ∧ s.hrn.link = false) →
      exec .pll6Relock s = .next (({ s with tim.onXA := true, clk.fallen := true } : State).raise Ev.CLK_FALLBACK [3, 0])) ∧
  (∀ (s u : State) (freq : Bool) (dev : Int), (s.treeUp = true ∧ s.clk.resetHold = none) →
      (s.clk.xaOk = true → u = (s.setRg Reg.CLK_MEAS_XA_DEV.addr (BitVec.ofNat 32 (ppm dev))).trips 0 Ev.CLK_XA_FAIL freq dev →
        exec (.xaTrip freq dev) s = .next u.loseXa.fallbackYield) ∧ (s.clk.xbOk = true →
        u = (s.setRg Reg.CLK_MEAS_XB_DEV.addr (BitVec.ofNat 32 (ppm dev))).trips 2 Ev.CLK_XB_FAIL freq dev →
        exec (.xbTrip freq dev) s = .next u.loseXb.fallbackYield) ∧ (s.clk.xbTripped = true → s.clk.xaTripped = false → s.tim.onXA = false →
        exec .pll6Relock s = .next ((({ s with tim.onXA := true, clk.fallen := true } : State).raise Ev.CLK_FALLBACK [3, 0]).fallbackYield)) ∧
        (s.clk.xbTripped = false ∨ s.clk.xaTripped = true ∨ s.tim.onXA = true → exec .pll6Relock s = .next s)) ∧
  (∀ (u : State), (u.clk.fallen = true → u.flag Reg.CLK_CFG_FB_YIELD = true → u.hrn.link = true → u.fallbackYield = u.yieldSelf) ∧
        ((u.clk.fallen = false ∨ u.flag Reg.CLK_CFG_FB_YIELD = false ∨ u.hrn.link = false) → u.fallbackYield = u) ∧ (u.hrn.role = .active →
        u.yieldSelf = (u.sendTwin (.controlMsg (.takeCinch true))).fence 3) ∧ (u.hrn.role = .standby →
        u.yieldSelf = (u.sendTwin (.controlMsg .yielded)).fence 3) ∧ (u.hrn.role ≠ .active → u.hrn.role ≠ .standby → u.yieldSelf = u)) ∧
  (∀ (s : State) (freq : Bool) (dev : Int), (s.treeUp = true ∧ s.clk.fioReady = true ∧ s.hrn.link = false ∧ s.fld (Reg.CLK_CD_STATUS_SRC 0) = 0) →
      ∃ t, exec (.fioTrip freq dev) s = .next t ∧ (t.src Ev.CLK_FIO_FAIL).pend = true ∧ (t.src Ev.CLK_FALLBACK).pend = true ∧ t.clk.fioReady = false ∧
        t.clk.fioStart = some s.now ∧ t.fld (Reg.CLK_CD_STATUS_SRC 0) = 2 ∧ (∀ c, c < 11 → s.fld (Reg.CLK_CD_STATUS_SRC c) = 1 →
        t.fld (Reg.CLK_CD_STATUS_SRC c) = 3 ∧ c ∈ t.clk.waitFio)) ∧
  (∀ (s : State), (s.treeUp = true ∧ s.clk.pllLock.getLsbD 0 = true ∧ s.clk.resetHold = none ∧ s.hrn.link = false ∧
        s.fld (Reg.CLK_CD_STATUS_SRC 4) = 0) →
      ∃ t, exec (.pllUnlock 0) s = .next t ∧ (t.src Ev.CLK_PLL_UNLOCK).pend = true ∧ t.clk.pllLock.getLsbD 0 = false ∧ t.clk.fallen = true ∧
        (s.clk.fioReady = true → t.fld (Reg.CLK_CD_STATUS_SRC 4) = 1 ∧ (t.src Ev.CLK_FALLBACK).pend = true) ∧ (s.clk.fioReady = false →
        t.fld (Reg.CLK_CD_STATUS_SRC 4) = 3 ∧ 4 ∈ t.clk.waitFio ∧ t.clk.fioStart.isSome = true)) ∧
  (∀ (s : State) (freq : Bool) (dev : Int) (pll : Fin 8), (s.treeUp = true) →
      (s.clk.xaOk = false → exec (.xaTrip freq dev) s = .next s) ∧ (s.clk.xbOk = false → exec (.xbTrip freq dev) s = .next s) ∧
        (s.clk.pllLock.getLsbD pll = false → exec (.pllUnlock pll) s = .next s)) ∧
  (∀ (s : State) (freq : Bool) (dev : Int) (t : Nat), (s.treeUp = true ∧ s.clk.xaOk = true ∧ s.clk.resetHold = some t ∧ s.pwr.st ≠ .deep) →
      exec (.xaTrip freq dev) s = .next (((s.setRg Reg.CLK_MEAS_XA_DEV.addr (BitVec.ofNat 32 (ppm dev))).trips 0 Ev.CLK_XA_FAIL freq
        dev).restartTree))

/-- Chapter 17. FIO ready lets the domains that waited restart on it, and at the start puts the ROM's domains on it; FIO not ready
200 µs after its start is clock-fault hold, with AON on SIO and every other domain stopped, and shelf time past the deadline.
The PLL lock of the start moves domains 1, 2 and 10 off FIO and boots the ROM; a crystal that has not started counts as a stop
trip with EVT_CLK_XTAL_TMO. A domain that waits is gated once its blocks are idle and not before. The holder's replay takes in
the metadata and does every record of the best copies again, having lost the journal first raises EVT_SBG_ALL_LOST; it ends,
when the stripes it wrote are closed, with EVT_SBG_REPLAY and its counts. IO_READY reads 1, with EVT_CLK_IO_READY, when every
bit of CLK_STARTUP is 1 and not before. A joiner that loses the holder leaves its join. -/
def Obligations.ClocksStartGateAndLetHostIoIn : Prop :=
  (∀ (s u : State) (t0 : Nat), (s.clk.fioStart = some t0 ∧ u = { s with clk.fioReady := true, clk.fioStart := none, clk.waitFio := [] }) →
      (s.treeUp = true → s.clk.starting = true → s.clk.resetHold = none →
        exec .fioReady s = .next (u.resetCauses (if s.clk.warm then [] else [0])).romOnFio) ∧ (s.treeUp = true → s.clk.starting = false ∨
        s.clk.resetHold.isSome = true → exec .fioReady s = .next (s.clk.waitFio.foldl State.restartOnFio u)) ∧ (s.treeUp = false →
        exec .fioReady s = .next s)) ∧
  (∀ (s : State) (t0 : Nat), (s.clk.fioStart = some t0 ∧ s.treeUp = true ∧ s.clk.starting = false) →
      ∃ t, exec .fioReady s = .next t ∧ t.clk.fioReady = true ∧ t.clk.fioStart = none ∧ t.clk.waitFio = [] ∧ (s.clk.waitFio = [0] →
        t.fld (Reg.CLK_CD_STATUS_SRC 0) = 0) ∧ (∀ c, s.clk.waitFio = [c] → 1 ≤ c → c < 12 → t.fld (Reg.CLK_CD_STATUS_SRC c) = 1 ∧
        (t.src Ev.CLK_FALLBACK).pend = true)) ∧
  (∀ (s : State) (t0 : Nat), (s.clk.fioStart = some t0 ∧ s.treeUp = true) →
      ∃ t, exec .fioStartTimeout s = .next t ∧ t.clk.hold = true ∧ t.awake = false ∧ t.now = max s.now (t0 + 200000) ∧
        t.fld (Reg.CLK_CD_STATUS_SRC 0) = 2 ∧ (∀ c, 1 ≤ c → c < 11 → t.fld (Reg.CLK_CD_STATUS_SRC c) = 3) ∧ t.hrn.link = false) ∧
  (∀ (s : State), (s.clk.fioStart = none) →
      exec .fioStartTimeout s = .next s ∧ exec .fioReady s = .next s) ∧
  (∀ (s : State), (s.treeStarting = true ∧ s.clk.xaTripped = false) →
      ∃ t, exec .startupPllLock s = .next t ∧ t.clk.starting = false ∧ t.clk.pllLock = 0xFF ∧ t.clk.xaOk = true ∧
        (∀ c ∈ [1, 2, 10], t.fld (Reg.CLK_CD_STATUS_SRC c) = 0)) ∧
  (∀ (s : State), (s.treeStarting = true ∧ s.clk.xaTripped = false) →
      ∃ t, exec (.xtalTmoExpire false) s = .next t ∧ t.clk.xaTripped = true ∧ t.clk.starting = false ∧ (t.src Ev.CLK_XA_FAIL).pend = true ∧
        (t.src Ev.CLK_XTAL_TMO).pend = true ∧ (t.rg Reg.CLK_MON_STATUS_XA_STOP.addr).getLsbD 0 = true) ∧
  (∀ (s : State), (s.treeUp = true ∧ s.awake = true ∧ s.clk.fioReady = true ∧ s.clk.xbTripped = false ∧ (s.clk.starting = true ∨
        s.clk.xaTripped = true ∧ s.clk.bootDone = false)) →
      exec (.xtalTmoExpire true) s = .next (((s.trips 2 Ev.CLK_XB_FAIL false 0).raise Ev.CLK_XTAL_TMO [1]).loseXb)) ∧
  (∀ (s : State), (s.treeStarting = false ∨ s.clk.xaTripped = true) →
      exec .startupPllLock s = .next s ∧ exec (.xtalTmoExpire false) s = .next s) ∧
  (∀ (s : State) (d : Fin 12), (s.flag (Reg.CLK_CD_STATUS_GATE_PEND d) = true ∧ s.clockWork d = false ∧ s.flag (Reg.CLK_CD_STATUS_GATED d) = false) →
      exec (.clockGate d) s = .next ((s.setFld (Reg.CLK_CD_STATUS_GATED d) 1).setFld (Reg.CLK_CD_STATUS_GATE_PEND d) 0)) ∧
  (∀ (s : State) (d : Fin 12), ((s.flag (Reg.CLK_CD_STATUS_GATE_PEND d) = false ∨ s.clockWork d = true)) →
      exec (.clockGate d) s = .next s) ∧
  (∀ (s u : State) (maps nss locks : List StatePart) (cs : List JournalCopy), (s.sbg.replaying = true ∧ s.sbg.loaded = false ∧ s.hrn.holder = true ∧
        s.awake = true ∧ u = (maps ++ nss ++ locks).foldl (fun s p => s.takePart (coldPart p)) s) →
      (u.journalLost = false → exec (.powerUpReplay maps nss locks cs) s = .next (((bestCopies cs).filter JournalCopy.opened).foldl State.replayOne
        { u with sbg.loaded := true, sbg.replayed := 0, sbg.repaired := 0 }).endReplay) ∧ (u.journalLost = true →
        exec (.powerUpReplay maps nss locks cs) s = .next (((bestCopies cs).filter JournalCopy.opened).foldl State.replayOne
        { (u.raise Ev.SBG_ALL_LOST).suspectWindow with sbg.loaded := true, sbg.replayed := 0, sbg.repaired := 0 }).endReplay)) ∧
  (∀ (s : State), (s.sbg.replaying = true ∧ s.sbg.loaded = true ∧ s.sbg.stripes = []) →
      ∃ t, t = s.endReplay ∧ t.sbg.replaying = false ∧ t.fld Reg.SBG_REPLAY_REPLAYED = min s.sbg.replayed 65535 ∧
        t.fld Reg.SBG_REPLAY_REPAIRED = min s.sbg.repaired 65535 ∧ (t.src Ev.SBG_REPLAY).pend = true ∧ t.tim.floor = s.tim.floor ∧
        (s.clk.warm = false → s.tim.floor ≤ t.now)) ∧
  (∀ (s : State) (maps nss locks : List StatePart) (cs : List JournalCopy), (s.sbg.replaying = false ∨ s.sbg.loaded = true ∨ s.hrn.holder = false ∨
        s.awake = false) →
      exec (.powerUpReplay maps nss locks cs) s = .next s) ∧
  (∀ (s : State), (s.awake = true ∧ s.clk.bootDone = true ∧ s.clk.ioReady = false ∧ s.startupBits = 0x3FF) →
      ∃ t, exec .ioReady s = .next t ∧ t.clk.ioReady = true ∧ t.clk.startup = 0x3FF ∧ (t.src Ev.CLK_IO_READY).pend = true ∧
        t.clk.readyMs = min ((s.now - s.clk.resetAt) / 1000000) 0xFFFFFF) ∧
  (∀ (s : State), (s.startupBits ≠ 0x3FF ∨ s.awake = false ∨ s.clk.bootDone = false ∨ s.clk.ioReady = true) →
      exec .ioReady s = .next s) ∧
  (∀ (s : State), (s.hrn.role = .joining) →
      exec .joinHolderLost s = .next (s.joinFails 5)) ∧
  (∀ (s : State), (s.hrn.role ≠ .joining) →
      exec .joinHolderLost s = .next s)

/-- Chapter 18. Configure Window enables a stopped window with a timer slot that first fires at the next multiple of its period,
and stops one; a window's close fires its slot, writes its entries or counts them lost, and opens the next window in the same
cycle; a loaded TELEMETRY hook is then called, and the results below are those without one. BUSY, LIMIT_EXCEEDED and
INVALID_FIELD refuse a running window, a missing slot and a field out of range. Read Counters transfers the counters named, 8
bytes each, and clears them when asked, DATA_XFER_ERROR where the transfer fails. Configure Sampling restarts the sample ring,
INVALID_FIELD for a field out of range. A HEAD write releases the slots up to its index, all of them where HEAD of a full ring
is written as it is, and one beyond TAIL or the ring changes nothing. A PCIe error stops the ring and raises
EVT_TEL_RING_FAULT. -/
def Obligations.WindowsCountersAndSamplesReport : Prop :=
  (∀ (s : State) (id : Nat) (c : Started) (k : Nat) (x : Window), (s.AcceptsPlain id 0x0800 [(0x11, 23)] c ∧ c.desc.par 0 1 < 8 ∧ (c.desc.par 1 1 = 1 ∨
        c.desc.par 1 1 = 3) ∧ (s.window (c.desc.par 0 1)).enabled = false ∧
        x = { enabled := true, ports := c.desc.par 2 1, period := c.desc.par 4 4, start := s.now, isPartial := true, ring := TelRing.start (c.desc.par 8 8) (c.desc.par 3 1) (c.desc.par 0x10 1) ((c.desc.par 1 1).testBit 1) } ∧
        1 ≤ c.desc.par 4 4 ∧ c.desc.par 4 4 ≤ 10000 ∧ x.ports ≠ 0 ∧ x.ring.base % 4096 = 0 ∧ 4 ≤ x.ring.log2 ∧ x.ring.log2 ≤ 16 ∧
        4 * (s.windowSubs x).length ≤ x.ring.size ∧ s.findSlot = some k) →
      exec (.configureWindow id) s = .next (((s.setSlot k
        { owner := 4, armed := true, compare := (s.now / (c.desc.par 4 4 * 1000000) + 1) * (c.desc.par 4 4 * 1000000), period := c.desc.par 4 4 * 1000000, action := 2, target := c.desc.par 0 1 }).setWindow
        (c.desc.par 0 1) { x with slot := some k }).complete c .success)) ∧
  (∀ (s : State) (id : Nat) (c : Started), (s.AcceptsPlain id 0x0800 [(0x11, 23)] c ∧ c.desc.par 0 1 < 8 ∧ c.desc.par 1 1 = 0 ∧
        (s.window (c.desc.par 0 1)).slot = none) →
      exec (.configureWindow id) s = .next ((s.setWindow (c.desc.par 0 1) { s.window (c.desc.par 0 1) with enabled := false, slot := none }).complete
        c .success)) ∧
  (∀ (s : State) (id k : Nat) (c : Started), (s.AcceptsPlain id 0x0800 [(0x11, 23)] c) →
      (8 ≤ c.desc.par 0 1 ∨ 4 ≤ c.desc.par 1 1 → exec (.configureWindow id) s = .next (s.complete c .invalidField)) ∧ (c.desc.par 0 1 < 8 →
        (c.desc.par 1 1 = 1 ∨ c.desc.par 1 1 = 3) → (s.window (c.desc.par 0 1)).enabled = true →
        exec (.configureWindow id) s = .next (s.complete c .busy)) ∧ (c.desc.par 0 1 < 8 → c.desc.par 1 1 = 0 ∨ c.desc.par 1 1 = 2 →
        (s.window (c.desc.par 0 1)).slot = some k → exec (.configureWindow id) s = .next (((s.setSlot k {}).setWindow (c.desc.par 0 1)
        { s.window (c.desc.par 0 1) with enabled := false, slot := none }).complete c .success))) ∧
  (∀ (s : State) (w : Fin 8) (k : Nat), ((s.window w).slot = some k ∧ (s.window w).enabled = true) →
      ∃ u, u = (s.fire k).closeWindow w ∧ (u.hookOn 4 = true → exec (.windowClose w) s = .next (u.invokeHook 4 w)) ∧ (u.hookOn 4 = false →
        exec (.windowClose w) s = .next u)) ∧
  (∀ (s : State) (w : Fin 8), ((s.window w).slot = none ∨ (s.window w).enabled = false) →
      exec (.windowClose w) s = .next s) ∧
  (∀ (s u : State) (w : Fin 8) (k : Nat) (x : Window), (x = (s.window w) ∧ x.slot = some k ∧ x.enabled = true ∧ s.hookOn 4 = false ∧
        x.ring.err = false ∧ 2 * (s.windowSubs x).length ≤ x.ring.free ∧ x.ring.irq = false ∧
        u = (s.fire k).setWindow w { x with seq := (x.seq + 1) % 2 ^ 32 }) →
      ∃ t, exec (.windowClose w) s = .next t ∧ t.out = (u.writeClose w (x.stepped.getD u.now) ((s.windowSubs x).flatMap fun k => [(k, 0), (k,
        1)])).out ∧ (t.window w).seq = (x.seq + 1) % 2 ^ 32 ∧ (t.window w).isPartial = false ∧ (t.window w).acc = [] ∧
        (t.window w).ring.used = x.ring.used + 2 * (s.windowSubs x).length) ∧
  (∀ (s : State) (w : Fin 8) (k : Nat), ((s.window w).slot = some k ∧ (s.window w).enabled = true ∧ s.hookOn 4 = false ∧
        (s.window w).ring.err = true) →
      ∃ t, exec (.windowClose w) s = .next t ∧ (t.window w).seq = ((s.window w).seq + 1) % 2 ^ 32 ∧
        (t.window w).start = (s.window w).stepped.getD (max s.now (s.slot k).compare) ∧ (t.window w).isPartial = false ∧ (t.window w).acc = [] ∧
        t = { s with tim := t.tim, tel := t.tel }) ∧
  (∀ (s : State) (w : Fin 8) (k : Nat), ((s.window w).slot = some k ∧ (s.window w).enabled = true ∧ s.hookOn 4 = false ∧
        (s.window w).ring.err = false ∧ (s.window w).ring.free < 2 * (s.windowSubs (s.window w)).length) →
      ∃ t, exec (.windowClose w) s = .next t ∧ (t.window w).seq = ((s.window w).seq + 1) % 2 ^ 32 ∧ (t.src Ev.TEL_OVERRUN).pend = true ∧
        t.fld (Reg.TEL_WIN_LOST_LOST w) = satAdd (((Reg.TEL_WIN_LOST_LOST w).hi + 1) - (Reg.TEL_WIN_LOST_LOST w).lo) (s.fld (Reg.TEL_WIN_LOST_LOST w))
        1 ∧ t.out = s.out) ∧
  (∀ (s : State) (id : Nat) (c : Started), (s.AcceptsPlain id 0x0801 [(0x05, 35)] c ∧ 1 ≤ c.desc.par 2 2 ∧ c.desc.par 0 2 + c.desc.par 2 2 ≤ 4096 ∧
        c.desc.par 4 1 = 1 ∧ c.desc.dataLen.toNat = 8 * c.desc.par 2 2) →
      ∃ t : State, exec (.readCounters id true) s = .next (t.complete c .success) ∧
        t.out = .hostData c.desc.dataPtr.toNat ((List.range (c.desc.par 2 2)).flatMap fun i => leBytes 8 (s.counter (c.desc.par 0 2 + i))) :: s.out ∧
        (∀ i, c.desc.par 0 2 ≤ i → i < c.desc.par 0 2 + c.desc.par 2 2 → t.counter i = 0) ∧ (∀ i, (i < c.desc.par 0 2 ∨
        c.desc.par 0 2 + c.desc.par 2 2 ≤ i) → t.counter i = s.counter i) ∧ t = { s with tel.counters := t.tel.counters, out := t.out }) ∧
  (∀ (s : State) (id : Nat) (c : Started) (b : Bool), (s.AcceptsPlain id 0x0801 [(0x05, 35)] c) →
      (c.desc.par 2 2 = 0 ∨ 4096 < c.desc.par 0 2 + c.desc.par 2 2 ∨ 2 ≤ c.desc.par 4 1 ∨ c.desc.dataLen.toNat ≠ 8 * c.desc.par 2 2 →
        exec (.readCounters id b) s = .next (s.complete c .invalidField)) ∧ (1 ≤ c.desc.par 2 2 → c.desc.par 0 2 + c.desc.par 2 2 ≤ 4096 →
        c.desc.par 4 1 ≤ 1 → c.desc.dataLen.toNat = 8 * c.desc.par 2 2 → exec (.readCounters id false) s = .next (s.complete c .dataXferError) ∧
        (c.desc.par 4 1 = 0 → exec (.readCounters id true) s = .next ((s.emit (.hostData c.desc.dataPtr.toNat ((List.range (c.desc.par 2 2)).flatMap
        fun i => leBytes 8 (s.counter (c.desc.par 0 2 + i))))).complete c .success)))) ∧
  (∀ (s : State) (id : Nat) (c : Started), (s.AcceptsPlain id 0x0802 [(0x06, 2), (0x10, 24)] c ∧ (c.desc.par 0 1 ≠ 0 ∧ c.desc.par 0 1 < 8 ∨
        24 < c.desc.par 0 1 ∨ 4 ≤ c.desc.par 1 1 ∨ c.desc.par 2 1 < 4 ∨ 16 < c.desc.par 2 1 ∨ 1024 ≤ c.desc.par 4 2 ∨ c.desc.par 8 8 % 4096 ≠ 0)) →
      exec (.configureSampling id) s = .next (s.complete c .invalidField)) ∧
  (∀ (s : State) (id : Nat) (c : Started), (s.AcceptsPlain id 0x0802 [(0x06, 2), (0x10, 24)] c ∧ (c.desc.par 0 1 = 0 ∨ (8 ≤ c.desc.par 0 1 ∧
        c.desc.par 0 1 ≤ 24)) ∧ c.desc.par 1 1 < 4 ∧ 4 ≤ c.desc.par 2 1 ∧ c.desc.par 2 1 ≤ 16 ∧ c.desc.par 4 2 < 1024 ∧ c.desc.par 8 8 % 4096 = 0) →
      exec (.configureSampling id) s = .next ((s.setSampling
        { rate := c.desc.par 0 1, tenantOnly := (c.desc.par 1 1).testBit 1, tenant := c.desc.par 4 2, dropRaised := s.tel.sampling.dropRaised, ring := TelRing.start (c.desc.par 8 8) (c.desc.par 2 1) (c.desc.par 3 1) ((c.desc.par 1 1).testBit 0) }).complete
        c .success)) ∧
  (∀ (s : State) (w : Fin 8) (v : Word) (r : TelRing), (r = (s.window w).ring ∧ getBits v 15 0 < r.size ∧
        0 < (getBits v 15 0 + r.size - r.head) % r.size ∧ (getBits v 15 0 + r.size - r.head) % r.size ≤ r.used) →
      exec (.telWinHeadWrite w v) s = .next (s.setWindow w
        { s.window w with ring := { r with head := getBits v 15 0, used := r.used - (getBits v 15 0 + r.size - r.head) % r.size } })) ∧
  (∀ (s : State) (w : Fin 8) (v : Word) (r : TelRing), (r = (s.window w).ring) →
      ((r.size ≤ getBits v 15 0 ∨ r.used < (getBits v 15 0 + r.size - r.head) % r.size) →
        exec (.telWinHeadWrite w v) s = .next (s.setWindow w (s.window w))) ∧ (getBits v 15 0 < r.size →
        (getBits v 15 0 + r.size - r.head) % r.size = 0 →
        exec (.telWinHeadWrite w v) s = .next (s.setWindow w (if r.used = r.size then { s.window w with ring := { r with used := 0 } } else s.window
        w)))) ∧
  (∀ (s : State) (v : Word), (s.tel.sampling.ring.size ≤ getBits v 15 0) →
      exec (.telSmpHeadWrite v) s = .next s) ∧
  (∀ (s : State) (v : Word) (r : TelRing), (r = s.tel.sampling.ring ∧ getBits v 15 0 < r.size ∧ 0 < (getBits v 15 0 + r.size - r.head) % r.size ∧
        (getBits v 15 0 + r.size - r.head) % r.size ≤ r.used) →
      exec (.telSmpHeadWrite v) s = .next (s.setSampling
        { s.tel.sampling with ring := { r with head := getBits v 15 0, used := r.used - (getBits v 15 0 + r.size - r.head) % r.size } })) ∧
  (∀ (s : State) (w : Fin 8), exec (.telRingFault ⟨w.val, by omega⟩) s = .next ((s.setWindow w
        { s.window w with ring := { (s.window w).ring with err := true } }).raise Ev.TEL_RING_FAULT [w.val]) ∧
        exec (.telRingFault 8) s = .next ((s.setSampling { s.tel.sampling with ring := { s.tel.sampling.ring with err := true } }).raise
        Ev.TEL_RING_FAULT [8]))
end

