-- ==== Sys2Proof/Laws/Assoc.lean ====
section
/-! SUPPORT. Sparse arrays: reading after a write, and the canonical form. -/
set_option Elab.async false
namespace Sys2Proof.Machine

variable {α : Type}

@[simp] theorem Assoc.get_nil (d : α) (k : Nat) : Assoc.get d [] k = d := rfl

theorem Assoc.get_put_same (d : α) (m : Assoc α) (k : Nat) (v : α) : (m.put k v).get d k = v := by
  induction m with
  | nil => simp [Assoc.put, Assoc.get]
  | cons e m ih =>
    obtain ⟨i, w⟩ := e
    simp only [Assoc.put]
    split
    · simp [Assoc.get]
    · split
      · simp [Assoc.get]
      · simp [Assoc.get, *]

theorem Assoc.get_put_other (d : α) (m : Assoc α) (k j : Nat) (v : α) (h : j ≠ k) :
    (m.put k v).get d j = m.get d j := by
  induction m with
  | nil => simp [Assoc.put, Assoc.get, h.symm]
  | cons e m ih =>
    obtain ⟨i, w⟩ := e
    simp only [Assoc.put]
    split
    · simp [Assoc.get, h.symm]
    · split
      · next hi => subst hi; simp [Assoc.get, h.symm]
      · simp [Assoc.get, ih]

theorem Assoc.get_del_same (d : α) (m : Assoc α) (k : Nat) : (m.del k).get d k = d := by
  induction m with
  | nil => rfl
  | cons e m ih =>
    obtain ⟨i, w⟩ := e
    simp only [Assoc.del]
    split
    · exact ih
    · simp [Assoc.get, *]

theorem Assoc.get_del_other (d : α) (m : Assoc α) (k j : Nat) (h : j ≠ k) : (m.del k).get d j = m.get d j := by
  induction m with
  | nil => rfl
  | cons e m ih =>
    obtain ⟨i, w⟩ := e
    simp only [Assoc.del]
    split
    · next hi => subst hi; simp [Assoc.get, h.symm, ih]
    · simp [Assoc.get, ih]

/-- A read after a write of the same index gives the value written. -/
@[simp] theorem Assoc.get_set_same [DecidableEq α] (d : α) (m : Assoc α) (k : Nat) (v : α) :
    (m.set d k v).get d k = v := by
  unfold Assoc.set
  split
  · next h => rw [Assoc.get_del_same, h]
  · exact Assoc.get_put_same d m k v

/-- A write leaves every other index as it was. -/
@[simp] theorem Assoc.get_set_other [DecidableEq α] (d d' : α) (m : Assoc α) (k j : Nat) (v : α) (h : j ≠ k) :
    (m.set d' k v).get d j = m.get d j := by
  unfold Assoc.set
  split
  · exact Assoc.get_del_other d m k j h
  · exact Assoc.get_put_other d m k j v h

/-- Reading any index after a write. -/
theorem Assoc.get_set [DecidableEq α] (d : α) (m : Assoc α) (k j : Nat) (v : α) :
    (m.set d k v).get d j = if j = k then v else m.get d j := by
  split
  · next h => subst h; simp
  · next h => simp [h]

@[simp] theorem Assoc.get_upd_same [DecidableEq α] (d : α) (m : Assoc α) (k : Nat) (f : α → α) :
    (m.upd d k f).get d k = f (m.get d k) := Assoc.get_set_same d m k _

@[simp] theorem Assoc.get_upd_other [DecidableEq α] (d : α) (m : Assoc α) (k j : Nat) (f : α → α) (h : j ≠ k) :
    (m.upd d k f).get d j = m.get d j := Assoc.get_set_other d d m k j _ h

/-! ### The canonical form -/

/-- Every index of the list is above `b`. -/
def Assoc.above (b : Nat) (m : Assoc α) : Prop := ∀ e ∈ m, b < e.1

/-- The canonical form said index by index: the rest is above the head, no value is the default, the rest is canonical. -/
theorem Assoc.wf_cons [DecidableEq α] (d : α) (i : Nat) (v : α) (m : Assoc α) :
    Assoc.wf d ((i, v) :: m) = true ↔ Assoc.above i m ∧ v ≠ d ∧ Assoc.wf d m = true := by
  induction m generalizing i v with
  | nil => simp [Assoc.wf, Assoc.above]
  | cons e m ih =>
    obtain ⟨j, w⟩ := e
    have hj := ih j w
    simp only [Assoc.wf, Bool.and_eq_true, decide_eq_true_eq]
    constructor
    · rintro ⟨⟨h1, h2⟩, h3⟩
      refine ⟨?_, h2, h3⟩
      intro e he
      rcases List.mem_cons.mp he with rfl | he
      · exact h1
      · exact Nat.lt_trans h1 ((hj.mp h3).1 e he)
    · rintro ⟨h1, h2, h3⟩
      exact ⟨⟨h1 _ (List.mem_cons_self ..), h2⟩, h3⟩

theorem Assoc.mem_del (m : Assoc α) (k : Nat) (e : Nat × α) (h : e ∈ m.del k) : e ∈ m := by
  induction m with
  | nil => exact h
  | cons x m ih =>
    obtain ⟨i, w⟩ := x
    simp only [Assoc.del] at h
    split at h
    · exact List.mem_cons_of_mem _ (ih h)
    · rcases List.mem_cons.mp h with rfl | h
      · exact List.mem_cons_self ..
      · exact List.mem_cons_of_mem _ (ih h)

theorem Assoc.wf_del [DecidableEq α] (d : α) (m : Assoc α) (k : Nat) (h : m.wf d = true) : (m.del k).wf d = true := by
  induction m with
  | nil => rfl
  | cons x m ih =>
    obtain ⟨i, w⟩ := x
    obtain ⟨h1, h2, h3⟩ := (Assoc.wf_cons d i w m).mp h
    simp only [Assoc.del]
    split
    · exact ih h3
    · exact (Assoc.wf_cons d i w _).mpr ⟨fun e he => h1 e (Assoc.mem_del m k e he), h2, ih h3⟩

theorem Assoc.mem_put (m : Assoc α) (k : Nat) (v : α) (e : Nat × α) (h : e ∈ m.put k v) : e = (k, v) ∨ e ∈ m := by
  induction m with
  | nil => simpa [Assoc.put] using h
  | cons x m ih =>
    obtain ⟨i, w⟩ := x
    simp only [Assoc.put] at h
    split at h
    · simpa using h
    · split at h
      · rcases List.mem_cons.mp h with h | h
        · exact .inl h
        · exact .inr (List.mem_cons_of_mem _ h)
      · rcases List.mem_cons.mp h with rfl | h
        · exact .inr (List.mem_cons_self ..)
        · rcases ih h with h | h
          · exact .inl h
          · exact .inr (List.mem_cons_of_mem _ h)

theorem Assoc.wf_put [DecidableEq α] (d : α) (m : Assoc α) (k : Nat) (v : α) (hv : v ≠ d) (h : m.wf d = true) :
    (m.put k v).wf d = true := by
  induction m with
  | nil => simpa [Assoc.put, Assoc.wf] using hv
  | cons x m ih =>
    obtain ⟨i, w⟩ := x
    obtain ⟨h1, h2, h3⟩ := (Assoc.wf_cons d i w m).mp h
    simp only [Assoc.put]
    split
    · next hk =>
      refine (Assoc.wf_cons d k v _).mpr ⟨?_, hv, h⟩
      intro e he
      rcases List.mem_cons.mp he with rfl | he
      · exact hk
      · exact Nat.lt_trans hk (h1 e he)
    · split
      · next hk => subst hk; exact (Assoc.wf_cons d i v m).mpr ⟨h1, hv, h3⟩
      · next hk hne =>
        refine (Assoc.wf_cons d i w _).mpr ⟨?_, h2, ih h3⟩
        intro e he
        rcases Assoc.mem_put m k v e he with rfl | he
        · omega
        · exact h1 e he

/-- Every write keeps the canonical form. -/
theorem Assoc.wf_set [DecidableEq α] (d : α) (m : Assoc α) (k : Nat) (v : α) (h : m.wf d = true) :
    (m.set d k v).wf d = true := by
  unfold Assoc.set
  split
  · exact Assoc.wf_del d m k h
  · next hv => exact Assoc.wf_put d m k v hv h

/-- Removing entries keeps the canonical form. -/
theorem Assoc.wf_filter [DecidableEq α] (d : α) (m : Assoc α) (p : Nat × α → Bool) (h : m.wf d = true) :
    Assoc.wf d (m.filter p) = true := by
  induction m with
  | nil => rfl
  | cons x m ih =>
    obtain ⟨i, w⟩ := x
    obtain ⟨h1, h2, h3⟩ := (Assoc.wf_cons d i w m).mp h
    rw [List.filter_cons]
    split
    · exact (Assoc.wf_cons d i w _).mpr ⟨fun e he => h1 e (List.mem_filter.mp he).1, h2, ih h3⟩
    · exact ih h3

end Sys2Proof.Machine
end

