-- ==== Sys2Proof/Laws/State.lean ====
section
/-! SUPPORT. One lemma per field of State for every basic update: what the register, event, timer and ring operations of
Flags.lean and Ops.lean leave as it was. -/
set_option Elab.async false
namespace Sys2Proof.Machine

/-! ### Registers, interfaces, counters -/

@[simp] theorem State.setRg_shadow (s : State) (a : Nat) (w : Word) : (s.setRg a w).shadow = s.shadow := (rfl)
@[simp] theorem State.setRg_staged (s : State) (a : Nat) (w : Word) : (s.setRg a w).staged = s.staged := (rfl)
@[simp] theorem State.setRg_mem (s : State) (a : Nat) (w : Word) : (s.setRg a w).mem = s.mem := (rfl)
@[simp] theorem State.setRg_glb (s : State) (a : Nat) (w : Word) : (s.setRg a w).glb = s.glb := (rfl)
@[simp] theorem State.setRg_tim (s : State) (a : Nat) (w : Word) : (s.setRg a w).tim = s.tim := (rfl)
@[simp] theorem State.setRg_ctl (s : State) (a : Nat) (w : Word) : (s.setRg a w).ctl = s.ctl := (rfl)
@[simp] theorem State.setRg_evt (s : State) (a : Nat) (w : Word) : (s.setRg a w).evt = s.evt := (rfl)
@[simp] theorem State.setRg_tck (s : State) (a : Nat) (w : Word) : (s.setRg a w).tck = s.tck := (rfl)
@[simp] theorem State.setRg_net (s : State) (a : Nat) (w : Word) : (s.setRg a w).net = s.net := (rfl)
@[simp] theorem State.setRg_swc (s : State) (a : Nat) (w : Word) : (s.setRg a w).swc = s.swc := (rfl)
@[simp] theorem State.setRg_tbl (s : State) (a : Nat) (w : Word) : (s.setRg a w).tbl = s.tbl := (rfl)
@[simp] theorem State.setRg_xpt (s : State) (a : Nat) (w : Word) : (s.setRg a w).xpt = s.xpt := (rfl)
@[simp] theorem State.setRg_qos (s : State) (a : Nat) (w : Word) : (s.setRg a w).qos = s.qos := (rfl)
@[simp] theorem State.setRg_cmdb (s : State) (a : Nat) (w : Word) : (s.setRg a w).cmdb = s.cmdb := (rfl)
@[simp] theorem State.setRg_lay (s : State) (a : Nat) (w : Word) : (s.setRg a w).lay = s.lay := (rfl)
@[simp] theorem State.setRg_reb (s : State) (a : Nat) (w : Word) : (s.setRg a w).reb = s.reb := (rfl)
@[simp] theorem State.setRg_sbg (s : State) (a : Nat) (w : Word) : (s.setRg a w).sbg = s.sbg := (rfl)
@[simp] theorem State.setRg_drv (s : State) (a : Nat) (w : Word) : (s.setRg a w).drv = s.drv := (rfl)
@[simp] theorem State.setRg_str (s : State) (a : Nat) (w : Word) : (s.setRg a w).str = s.str := (rfl)
@[simp] theorem State.setRg_hrn (s : State) (a : Nat) (w : Word) : (s.setRg a w).hrn = s.hrn := (rfl)
@[simp] theorem State.setRg_htx (s : State) (a : Nat) (w : Word) : (s.setRg a w).htx = s.htx := (rfl)
@[simp] theorem State.setRg_cph (s : State) (a : Nat) (w : Word) : (s.setRg a w).cph = s.cph := (rfl)
@[simp] theorem State.setRg_sec (s : State) (a : Nat) (w : Word) : (s.setRg a w).sec = s.sec := (rfl)
@[simp] theorem State.setRg_pwr (s : State) (a : Nat) (w : Word) : (s.setRg a w).pwr = s.pwr := (rfl)
@[simp] theorem State.setRg_clk (s : State) (a : Nat) (w : Word) : (s.setRg a w).clk = s.clk := (rfl)
@[simp] theorem State.setRg_tel (s : State) (a : Nat) (w : Word) : (s.setRg a w).tel = s.tel := (rfl)
@[simp] theorem State.setRg_out (s : State) (a : Nat) (w : Word) : (s.setRg a w).out = s.out := (rfl)
@[simp] theorem State.setRg_free (s : State) (a : Nat) (w : Word) : (s.setRg a w).free = s.free := (rfl)
@[simp] theorem State.setRg_pending (s : State) (a : Nat) (w : Word) : (s.setRg a w).pending = s.pending := (rfl)
@[simp] theorem State.setFld_shadow (s : State) (r : Ref) (v : Nat) : (s.setFld r v).shadow = s.shadow := (rfl)
@[simp] theorem State.setFld_staged (s : State) (r : Ref) (v : Nat) : (s.setFld r v).staged = s.staged := (rfl)
@[simp] theorem State.setFld_mem (s : State) (r : Ref) (v : Nat) : (s.setFld r v).mem = s.mem := (rfl)
@[simp] theorem State.setFld_glb (s : State) (r : Ref) (v : Nat) : (s.setFld r v).glb = s.glb := (rfl)
@[simp] theorem State.setFld_tim (s : State) (r : Ref) (v : Nat) : (s.setFld r v).tim = s.tim := (rfl)
@[simp] theorem State.setFld_ctl (s : State) (r : Ref) (v : Nat) : (s.setFld r v).ctl = s.ctl := (rfl)
@[simp] theorem State.setFld_evt (s : State) (r : Ref) (v : Nat) : (s.setFld r v).evt = s.evt := (rfl)
@[simp] theorem State.setFld_tck (s : State) (r : Ref) (v : Nat) : (s.setFld r v).tck = s.tck := (rfl)
@[simp] theorem State.setFld_net (s : State) (r : Ref) (v : Nat) : (s.setFld r v).net = s.net := (rfl)
@[simp] theorem State.setFld_swc (s : State) (r : Ref) (v : Nat) : (s.setFld r v).swc = s.swc := (rfl)
@[simp] theorem State.setFld_tbl (s : State) (r : Ref) (v : Nat) : (s.setFld r v).tbl = s.tbl := (rfl)
@[simp] theorem State.setFld_xpt (s : State) (r : Ref) (v : Nat) : (s.setFld r v).xpt = s.xpt := (rfl)
@[simp] theorem State.setFld_qos (s : State) (r : Ref) (v : Nat) : (s.setFld r v).qos = s.qos := (rfl)
@[simp] theorem State.setFld_cmdb (s : State) (r : Ref) (v : Nat) : (s.setFld r v).cmdb = s.cmdb := (rfl)
@[simp] theorem State.setFld_lay (s : State) (r : Ref) (v : Nat) : (s.setFld r v).lay = s.lay := (rfl)
@[simp] theorem State.setFld_reb (s : State) (r : Ref) (v : Nat) : (s.setFld r v).reb = s.reb := (rfl)
@[simp] theorem State.setFld_sbg (s : State) (r : Ref) (v : Nat) : (s.setFld r v).sbg = s.sbg := (rfl)
@[simp] theorem State.setFld_drv (s : State) (r : Ref) (v : Nat) : (s.setFld r v).drv = s.drv := (rfl)
@[simp] theorem State.setFld_str (s : State) (r : Ref) (v : Nat) : (s.setFld r v).str = s.str := (rfl)
@[simp] theorem State.setFld_hrn (s : State) (r : Ref) (v : Nat) : (s.setFld r v).hrn = s.hrn := (rfl)
@[simp] theorem State.setFld_htx (s : State) (r : Ref) (v : Nat) : (s.setFld r v).htx = s.htx := (rfl)
@[simp] theorem State.setFld_cph (s : State) (r : Ref) (v : Nat) : (s.setFld r v).cph = s.cph := (rfl)
@[simp] theorem State.setFld_sec (s : State) (r : Ref) (v : Nat) : (s.setFld r v).sec = s.sec := (rfl)
@[simp] theorem State.setFld_pwr (s : State) (r : Ref) (v : Nat) : (s.setFld r v).pwr = s.pwr := (rfl)
@[simp] theorem State.setFld_clk (s : State) (r : Ref) (v : Nat) : (s.setFld r v).clk = s.clk := (rfl)
@[simp] theorem State.setFld_tel (s : State) (r : Ref) (v : Nat) : (s.setFld r v).tel = s.tel := (rfl)
@[simp] theorem State.setFld_out (s : State) (r : Ref) (v : Nat) : (s.setFld r v).out = s.out := (rfl)
@[simp] theorem State.setFld_free (s : State) (r : Ref) (v : Nat) : (s.setFld r v).free = s.free := (rfl)
@[simp] theorem State.setFld_pending (s : State) (r : Ref) (v : Nat) : (s.setFld r v).pending = s.pending := (rfl)
@[simp] theorem State.bump_shadow (s : State) (r : Ref) (n : Nat) : (s.bump r n).shadow = s.shadow := (rfl)
@[simp] theorem State.bump_staged (s : State) (r : Ref) (n : Nat) : (s.bump r n).staged = s.staged := (rfl)
@[simp] theorem State.bump_mem (s : State) (r : Ref) (n : Nat) : (s.bump r n).mem = s.mem := (rfl)
@[simp] theorem State.bump_glb (s : State) (r : Ref) (n : Nat) : (s.bump r n).glb = s.glb := (rfl)
@[simp] theorem State.bump_tim (s : State) (r : Ref) (n : Nat) : (s.bump r n).tim = s.tim := (rfl)
@[simp] theorem State.bump_ctl (s : State) (r : Ref) (n : Nat) : (s.bump r n).ctl = s.ctl := (rfl)
@[simp] theorem State.bump_evt (s : State) (r : Ref) (n : Nat) : (s.bump r n).evt = s.evt := (rfl)
@[simp] theorem State.bump_tck (s : State) (r : Ref) (n : Nat) : (s.bump r n).tck = s.tck := (rfl)
@[simp] theorem State.bump_net (s : State) (r : Ref) (n : Nat) : (s.bump r n).net = s.net := (rfl)
@[simp] theorem State.bump_swc (s : State) (r : Ref) (n : Nat) : (s.bump r n).swc = s.swc := (rfl)
@[simp] theorem State.bump_tbl (s : State) (r : Ref) (n : Nat) : (s.bump r n).tbl = s.tbl := (rfl)
@[simp] theorem State.bump_xpt (s : State) (r : Ref) (n : Nat) : (s.bump r n).xpt = s.xpt := (rfl)
@[simp] theorem State.bump_qos (s : State) (r : Ref) (n : Nat) : (s.bump r n).qos = s.qos := (rfl)
@[simp] theorem State.bump_cmdb (s : State) (r : Ref) (n : Nat) : (s.bump r n).cmdb = s.cmdb := (rfl)
@[simp] theorem State.bump_lay (s : State) (r : Ref) (n : Nat) : (s.bump r n).lay = s.lay := (rfl)
@[simp] theorem State.bump_reb (s : State) (r : Ref) (n : Nat) : (s.bump r n).reb = s.reb := (rfl)
@[simp] theorem State.bump_sbg (s : State) (r : Ref) (n : Nat) : (s.bump r n).sbg = s.sbg := (rfl)
@[simp] theorem State.bump_drv (s : State) (r : Ref) (n : Nat) : (s.bump r n).drv = s.drv := (rfl)
@[simp] theorem State.bump_str (s : State) (r : Ref) (n : Nat) : (s.bump r n).str = s.str := (rfl)
@[simp] theorem State.bump_hrn (s : State) (r : Ref) (n : Nat) : (s.bump r n).hrn = s.hrn := (rfl)
@[simp] theorem State.bump_htx (s : State) (r : Ref) (n : Nat) : (s.bump r n).htx = s.htx := (rfl)
@[simp] theorem State.bump_cph (s : State) (r : Ref) (n : Nat) : (s.bump r n).cph = s.cph := (rfl)
@[simp] theorem State.bump_sec (s : State) (r : Ref) (n : Nat) : (s.bump r n).sec = s.sec := (rfl)
@[simp] theorem State.bump_pwr (s : State) (r : Ref) (n : Nat) : (s.bump r n).pwr = s.pwr := (rfl)
@[simp] theorem State.bump_clk (s : State) (r : Ref) (n : Nat) : (s.bump r n).clk = s.clk := (rfl)
@[simp] theorem State.bump_tel (s : State) (r : Ref) (n : Nat) : (s.bump r n).tel = s.tel := (rfl)
@[simp] theorem State.bump_out (s : State) (r : Ref) (n : Nat) : (s.bump r n).out = s.out := (rfl)
@[simp] theorem State.bump_free (s : State) (r : Ref) (n : Nat) : (s.bump r n).free = s.free := (rfl)
@[simp] theorem State.bump_pending (s : State) (r : Ref) (n : Nat) : (s.bump r n).pending = s.pending := (rfl)
@[simp] theorem State.emit_regs (s : State) (o : Out) : (s.emit o).regs = s.regs := (rfl)
@[simp] theorem State.emit_shadow (s : State) (o : Out) : (s.emit o).shadow = s.shadow := (rfl)
@[simp] theorem State.emit_staged (s : State) (o : Out) : (s.emit o).staged = s.staged := (rfl)
@[simp] theorem State.emit_mem (s : State) (o : Out) : (s.emit o).mem = s.mem := (rfl)
@[simp] theorem State.emit_glb (s : State) (o : Out) : (s.emit o).glb = s.glb := (rfl)
@[simp] theorem State.emit_tim (s : State) (o : Out) : (s.emit o).tim = s.tim := (rfl)
@[simp] theorem State.emit_ctl (s : State) (o : Out) : (s.emit o).ctl = s.ctl := (rfl)
@[simp] theorem State.emit_evt (s : State) (o : Out) : (s.emit o).evt = s.evt := (rfl)
@[simp] theorem State.emit_tck (s : State) (o : Out) : (s.emit o).tck = s.tck := (rfl)
@[simp] theorem State.emit_net (s : State) (o : Out) : (s.emit o).net = s.net := (rfl)
@[simp] theorem State.emit_swc (s : State) (o : Out) : (s.emit o).swc = s.swc := (rfl)
@[simp] theorem State.emit_tbl (s : State) (o : Out) : (s.emit o).tbl = s.tbl := (rfl)
@[simp] theorem State.emit_xpt (s : State) (o : Out) : (s.emit o).xpt = s.xpt := (rfl)
@[simp] theorem State.emit_qos (s : State) (o : Out) : (s.emit o).qos = s.qos := (rfl)
@[simp] theorem State.emit_cmdb (s : State) (o : Out) : (s.emit o).cmdb = s.cmdb := (rfl)
@[simp] theorem State.emit_lay (s : State) (o : Out) : (s.emit o).lay = s.lay := (rfl)
@[simp] theorem State.emit_reb (s : State) (o : Out) : (s.emit o).reb = s.reb := (rfl)
@[simp] theorem State.emit_sbg (s : State) (o : Out) : (s.emit o).sbg = s.sbg := (rfl)
@[simp] theorem State.emit_drv (s : State) (o : Out) : (s.emit o).drv = s.drv := (rfl)
@[simp] theorem State.emit_str (s : State) (o : Out) : (s.emit o).str = s.str := (rfl)
@[simp] theorem State.emit_hrn (s : State) (o : Out) : (s.emit o).hrn = s.hrn := (rfl)
@[simp] theorem State.emit_htx (s : State) (o : Out) : (s.emit o).htx = s.htx := (rfl)
@[simp] theorem State.emit_cph (s : State) (o : Out) : (s.emit o).cph = s.cph := (rfl)
@[simp] theorem State.emit_sec (s : State) (o : Out) : (s.emit o).sec = s.sec := (rfl)
@[simp] theorem State.emit_pwr (s : State) (o : Out) : (s.emit o).pwr = s.pwr := (rfl)
@[simp] theorem State.emit_clk (s : State) (o : Out) : (s.emit o).clk = s.clk := (rfl)
@[simp] theorem State.emit_tel (s : State) (o : Out) : (s.emit o).tel = s.tel := (rfl)
@[simp] theorem State.emit_free (s : State) (o : Out) : (s.emit o).free = s.free := (rfl)
@[simp] theorem State.emit_pending (s : State) (o : Out) : (s.emit o).pending = s.pending := (rfl)
@[simp] theorem State.emit_out (s : State) (o : Out) : (s.emit o).out = o :: s.out := (rfl)
@[simp] theorem State.draw_regs (s : State) (w : Nat) : ((s.draw w).2).regs = s.regs := (rfl)
@[simp] theorem State.draw_shadow (s : State) (w : Nat) : ((s.draw w).2).shadow = s.shadow := (rfl)
@[simp] theorem State.draw_staged (s : State) (w : Nat) : ((s.draw w).2).staged = s.staged := (rfl)
@[simp] theorem State.draw_mem (s : State) (w : Nat) : ((s.draw w).2).mem = s.mem := (rfl)
@[simp] theorem State.draw_glb (s : State) (w : Nat) : ((s.draw w).2).glb = s.glb := (rfl)
@[simp] theorem State.draw_tim (s : State) (w : Nat) : ((s.draw w).2).tim = s.tim := (rfl)
@[simp] theorem State.draw_ctl (s : State) (w : Nat) : ((s.draw w).2).ctl = s.ctl := (rfl)
@[simp] theorem State.draw_evt (s : State) (w : Nat) : ((s.draw w).2).evt = s.evt := (rfl)
@[simp] theorem State.draw_tck (s : State) (w : Nat) : ((s.draw w).2).tck = s.tck := (rfl)
@[simp] theorem State.draw_net (s : State) (w : Nat) : ((s.draw w).2).net = s.net := (rfl)
@[simp] theorem State.draw_swc (s : State) (w : Nat) : ((s.draw w).2).swc = s.swc := (rfl)
@[simp] theorem State.draw_tbl (s : State) (w : Nat) : ((s.draw w).2).tbl = s.tbl := (rfl)
@[simp] theorem State.draw_xpt (s : State) (w : Nat) : ((s.draw w).2).xpt = s.xpt := (rfl)
@[simp] theorem State.draw_qos (s : State) (w : Nat) : ((s.draw w).2).qos = s.qos := (rfl)
@[simp] theorem State.draw_cmdb (s : State) (w : Nat) : ((s.draw w).2).cmdb = s.cmdb := (rfl)
@[simp] theorem State.draw_lay (s : State) (w : Nat) : ((s.draw w).2).lay = s.lay := (rfl)
@[simp] theorem State.draw_reb (s : State) (w : Nat) : ((s.draw w).2).reb = s.reb := (rfl)
@[simp] theorem State.draw_sbg (s : State) (w : Nat) : ((s.draw w).2).sbg = s.sbg := (rfl)
@[simp] theorem State.draw_drv (s : State) (w : Nat) : ((s.draw w).2).drv = s.drv := (rfl)
@[simp] theorem State.draw_str (s : State) (w : Nat) : ((s.draw w).2).str = s.str := (rfl)
@[simp] theorem State.draw_hrn (s : State) (w : Nat) : ((s.draw w).2).hrn = s.hrn := (rfl)
@[simp] theorem State.draw_htx (s : State) (w : Nat) : ((s.draw w).2).htx = s.htx := (rfl)
@[simp] theorem State.draw_cph (s : State) (w : Nat) : ((s.draw w).2).cph = s.cph := (rfl)
@[simp] theorem State.draw_sec (s : State) (w : Nat) : ((s.draw w).2).sec = s.sec := (rfl)
@[simp] theorem State.draw_pwr (s : State) (w : Nat) : ((s.draw w).2).pwr = s.pwr := (rfl)
@[simp] theorem State.draw_clk (s : State) (w : Nat) : ((s.draw w).2).clk = s.clk := (rfl)
@[simp] theorem State.draw_tel (s : State) (w : Nat) : ((s.draw w).2).tel = s.tel := (rfl)
@[simp] theorem State.draw_out (s : State) (w : Nat) : ((s.draw w).2).out = s.out := (rfl)
@[simp] theorem State.draw_pending (s : State) (w : Nat) : ((s.draw w).2).pending = s.pending := (rfl)
@[simp] theorem State.draw_free (s : State) (w : Nat) : (s.draw w).2.free = s.free + 1 := (rfl)
@[simp] theorem State.drawBelow_regs (s : State) (n : Nat) : ((s.drawBelow n).2).regs = s.regs := (rfl)
@[simp] theorem State.drawBelow_shadow (s : State) (n : Nat) : ((s.drawBelow n).2).shadow = s.shadow := (rfl)
@[simp] theorem State.drawBelow_staged (s : State) (n : Nat) : ((s.drawBelow n).2).staged = s.staged := (rfl)
@[simp] theorem State.drawBelow_mem (s : State) (n : Nat) : ((s.drawBelow n).2).mem = s.mem := (rfl)
@[simp] theorem State.drawBelow_glb (s : State) (n : Nat) : ((s.drawBelow n).2).glb = s.glb := (rfl)
@[simp] theorem State.drawBelow_tim (s : State) (n : Nat) : ((s.drawBelow n).2).tim = s.tim := (rfl)
@[simp] theorem State.drawBelow_ctl (s : State) (n : Nat) : ((s.drawBelow n).2).ctl = s.ctl := (rfl)
@[simp] theorem State.drawBelow_evt (s : State) (n : Nat) : ((s.drawBelow n).2).evt = s.evt := (rfl)
@[simp] theorem State.drawBelow_tck (s : State) (n : Nat) : ((s.drawBelow n).2).tck = s.tck := (rfl)
@[simp] theorem State.drawBelow_net (s : State) (n : Nat) : ((s.drawBelow n).2).net = s.net := (rfl)
@[simp] theorem State.drawBelow_swc (s : State) (n : Nat) : ((s.drawBelow n).2).swc = s.swc := (rfl)
@[simp] theorem State.drawBelow_tbl (s : State) (n : Nat) : ((s.drawBelow n).2).tbl = s.tbl := (rfl)
@[simp] theorem State.drawBelow_xpt (s : State) (n : Nat) : ((s.drawBelow n).2).xpt = s.xpt := (rfl)
@[simp] theorem State.drawBelow_qos (s : State) (n : Nat) : ((s.drawBelow n).2).qos = s.qos := (rfl)
@[simp] theorem State.drawBelow_cmdb (s : State) (n : Nat) : ((s.drawBelow n).2).cmdb = s.cmdb := (rfl)
@[simp] theorem State.drawBelow_lay (s : State) (n : Nat) : ((s.drawBelow n).2).lay = s.lay := (rfl)
@[simp] theorem State.drawBelow_reb (s : State) (n : Nat) : ((s.drawBelow n).2).reb = s.reb := (rfl)
@[simp] theorem State.drawBelow_sbg (s : State) (n : Nat) : ((s.drawBelow n).2).sbg = s.sbg := (rfl)
@[simp] theorem State.drawBelow_drv (s : State) (n : Nat) : ((s.drawBelow n).2).drv = s.drv := (rfl)
@[simp] theorem State.drawBelow_str (s : State) (n : Nat) : ((s.drawBelow n).2).str = s.str := (rfl)
@[simp] theorem State.drawBelow_hrn (s : State) (n : Nat) : ((s.drawBelow n).2).hrn = s.hrn := (rfl)
@[simp] theorem State.drawBelow_htx (s : State) (n : Nat) : ((s.drawBelow n).2).htx = s.htx := (rfl)
@[simp] theorem State.drawBelow_cph (s : State) (n : Nat) : ((s.drawBelow n).2).cph = s.cph := (rfl)
@[simp] theorem State.drawBelow_sec (s : State) (n : Nat) : ((s.drawBelow n).2).sec = s.sec := (rfl)
@[simp] theorem State.drawBelow_pwr (s : State) (n : Nat) : ((s.drawBelow n).2).pwr = s.pwr := (rfl)
@[simp] theorem State.drawBelow_clk (s : State) (n : Nat) : ((s.drawBelow n).2).clk = s.clk := (rfl)
@[simp] theorem State.drawBelow_tel (s : State) (n : Nat) : ((s.drawBelow n).2).tel = s.tel := (rfl)
@[simp] theorem State.drawBelow_out (s : State) (n : Nat) : ((s.drawBelow n).2).out = s.out := (rfl)
@[simp] theorem State.drawBelow_pending (s : State) (n : Nat) : ((s.drawBelow n).2).pending = s.pending := (rfl)
@[simp] theorem State.drawBelow_free (s : State) (n : Nat) : (s.drawBelow n).2.free = s.free + 1 := (rfl)
@[simp] theorem State.setSrc_regs (s : State) (n : Nat) (e : Src) : (s.setSrc n e).regs = s.regs := (rfl)
@[simp] theorem State.setSrc_shadow (s : State) (n : Nat) (e : Src) : (s.setSrc n e).shadow = s.shadow := (rfl)
@[simp] theorem State.setSrc_staged (s : State) (n : Nat) (e : Src) : (s.setSrc n e).staged = s.staged := (rfl)
@[simp] theorem State.setSrc_mem (s : State) (n : Nat) (e : Src) : (s.setSrc n e).mem = s.mem := (rfl)
@[simp] theorem State.setSrc_glb (s : State) (n : Nat) (e : Src) : (s.setSrc n e).glb = s.glb := (rfl)
@[simp] theorem State.setSrc_tim (s : State) (n : Nat) (e : Src) : (s.setSrc n e).tim = s.tim := (rfl)
@[simp] theorem State.setSrc_ctl (s : State) (n : Nat) (e : Src) : (s.setSrc n e).ctl = s.ctl := (rfl)
@[simp] theorem State.setSrc_tck (s : State) (n : Nat) (e : Src) : (s.setSrc n e).tck = s.tck := (rfl)
@[simp] theorem State.setSrc_net (s : State) (n : Nat) (e : Src) : (s.setSrc n e).net = s.net := (rfl)
@[simp] theorem State.setSrc_swc (s : State) (n : Nat) (e : Src) : (s.setSrc n e).swc = s.swc := (rfl)
@[simp] theorem State.setSrc_tbl (s : State) (n : Nat) (e : Src) : (s.setSrc n e).tbl = s.tbl := (rfl)
@[simp] theorem State.setSrc_xpt (s : State) (n : Nat) (e : Src) : (s.setSrc n e).xpt = s.xpt := (rfl)
@[simp] theorem State.setSrc_qos (s : State) (n : Nat) (e : Src) : (s.setSrc n e).qos = s.qos := (rfl)
@[simp] theorem State.setSrc_cmdb (s : State) (n : Nat) (e : Src) : (s.setSrc n e).cmdb = s.cmdb := (rfl)
@[simp] theorem State.setSrc_lay (s : State) (n : Nat) (e : Src) : (s.setSrc n e).lay = s.lay := (rfl)
@[simp] theorem State.setSrc_reb (s : State) (n : Nat) (e : Src) : (s.setSrc n e).reb = s.reb := (rfl)
@[simp] theorem State.setSrc_sbg (s : State) (n : Nat) (e : Src) : (s.setSrc n e).sbg = s.sbg := (rfl)
@[simp] theorem State.setSrc_drv (s : State) (n : Nat) (e : Src) : (s.setSrc n e).drv = s.drv := (rfl)
@[simp] theorem State.setSrc_str (s : State) (n : Nat) (e : Src) : (s.setSrc n e).str = s.str := (rfl)
@[simp] theorem State.setSrc_hrn (s : State) (n : Nat) (e : Src) : (s.setSrc n e).hrn = s.hrn := (rfl)
@[simp] theorem State.setSrc_htx (s : State) (n : Nat) (e : Src) : (s.setSrc n e).htx = s.htx := (rfl)
@[simp] theorem State.setSrc_cph (s : State) (n : Nat) (e : Src) : (s.setSrc n e).cph = s.cph := (rfl)
@[simp] theorem State.setSrc_sec (s : State) (n : Nat) (e : Src) : (s.setSrc n e).sec = s.sec := (rfl)
@[simp] theorem State.setSrc_pwr (s : State) (n : Nat) (e : Src) : (s.setSrc n e).pwr = s.pwr := (rfl)
@[simp] theorem State.setSrc_clk (s : State) (n : Nat) (e : Src) : (s.setSrc n e).clk = s.clk := (rfl)
@[simp] theorem State.setSrc_tel (s : State) (n : Nat) (e : Src) : (s.setSrc n e).tel = s.tel := (rfl)
@[simp] theorem State.setSrc_out (s : State) (n : Nat) (e : Src) : (s.setSrc n e).out = s.out := (rfl)
@[simp] theorem State.setSrc_free (s : State) (n : Nat) (e : Src) : (s.setSrc n e).free = s.free := (rfl)
@[simp] theorem State.setSrc_pending (s : State) (n : Nat) (e : Src) : (s.setSrc n e).pending = s.pending := (rfl)
@[simp] theorem State.count_regs (s : State) (i n : Nat) : (s.count i n).regs = s.regs := (rfl)
@[simp] theorem State.count_shadow (s : State) (i n : Nat) : (s.count i n).shadow = s.shadow := (rfl)
@[simp] theorem State.count_staged (s : State) (i n : Nat) : (s.count i n).staged = s.staged := (rfl)
@[simp] theorem State.count_mem (s : State) (i n : Nat) : (s.count i n).mem = s.mem := (rfl)
@[simp] theorem State.count_glb (s : State) (i n : Nat) : (s.count i n).glb = s.glb := (rfl)
@[simp] theorem State.count_tim (s : State) (i n : Nat) : (s.count i n).tim = s.tim := (rfl)
@[simp] theorem State.count_ctl (s : State) (i n : Nat) : (s.count i n).ctl = s.ctl := (rfl)
@[simp] theorem State.count_evt (s : State) (i n : Nat) : (s.count i n).evt = s.evt := (rfl)
@[simp] theorem State.count_tck (s : State) (i n : Nat) : (s.count i n).tck = s.tck := (rfl)
@[simp] theorem State.count_net (s : State) (i n : Nat) : (s.count i n).net = s.net := (rfl)
@[simp] theorem State.count_swc (s : State) (i n : Nat) : (s.count i n).swc = s.swc := (rfl)
@[simp] theorem State.count_tbl (s : State) (i n : Nat) : (s.count i n).tbl = s.tbl := (rfl)
@[simp] theorem State.count_xpt (s : State) (i n : Nat) : (s.count i n).xpt = s.xpt := (rfl)
@[simp] theorem State.count_qos (s : State) (i n : Nat) : (s.count i n).qos = s.qos := (rfl)
@[simp] theorem State.count_cmdb (s : State) (i n : Nat) : (s.count i n).cmdb = s.cmdb := (rfl)
@[simp] theorem State.count_lay (s : State) (i n : Nat) : (s.count i n).lay = s.lay := (rfl)
@[simp] theorem State.count_reb (s : State) (i n : Nat) : (s.count i n).reb = s.reb := (rfl)
@[simp] theorem State.count_sbg (s : State) (i n : Nat) : (s.count i n).sbg = s.sbg := (rfl)
@[simp] theorem State.count_drv (s : State) (i n : Nat) : (s.count i n).drv = s.drv := (rfl)
@[simp] theorem State.count_str (s : State) (i n : Nat) : (s.count i n).str = s.str := (rfl)
@[simp] theorem State.count_hrn (s : State) (i n : Nat) : (s.count i n).hrn = s.hrn := (rfl)
@[simp] theorem State.count_htx (s : State) (i n : Nat) : (s.count i n).htx = s.htx := (rfl)
@[simp] theorem State.count_cph (s : State) (i n : Nat) : (s.count i n).cph = s.cph := (rfl)
@[simp] theorem State.count_sec (s : State) (i n : Nat) : (s.count i n).sec = s.sec := (rfl)
@[simp] theorem State.count_pwr (s : State) (i n : Nat) : (s.count i n).pwr = s.pwr := (rfl)
@[simp] theorem State.count_clk (s : State) (i n : Nat) : (s.count i n).clk = s.clk := (rfl)
@[simp] theorem State.count_out (s : State) (i n : Nat) : (s.count i n).out = s.out := (rfl)
@[simp] theorem State.count_free (s : State) (i n : Nat) : (s.count i n).free = s.free := (rfl)
@[simp] theorem State.count_pending (s : State) (i n : Nat) : (s.count i n).pending = s.pending := (rfl)

/-! ### Events: a raised event changes its source, its counter, the record of own faults and what is sent -/

theorem State.sendTwin_frame (s : State) (o : Out) : s.sendTwin o =
    { s with htx := (s.sendTwin o).htx } := by
  unfold State.sendTwin; dsimp only; split_ifs <;> rfl
@[simp] theorem State.sendTwin_regs (s : State) (o : Out) : (s.sendTwin o).regs = s.regs := by rw [State.sendTwin_frame]
@[simp] theorem State.sendTwin_shadow (s : State) (o : Out) : (s.sendTwin o).shadow = s.shadow := by rw [State.sendTwin_frame]
@[simp] theorem State.sendTwin_staged (s : State) (o : Out) : (s.sendTwin o).staged = s.staged := by rw [State.sendTwin_frame]
@[simp] theorem State.sendTwin_mem (s : State) (o : Out) : (s.sendTwin o).mem = s.mem := by rw [State.sendTwin_frame]
@[simp] theorem State.sendTwin_glb (s : State) (o : Out) : (s.sendTwin o).glb = s.glb := by rw [State.sendTwin_frame]
@[simp] theorem State.sendTwin_tim (s : State) (o : Out) : (s.sendTwin o).tim = s.tim := by rw [State.sendTwin_frame]
@[simp] theorem State.sendTwin_ctl (s : State) (o : Out) : (s.sendTwin o).ctl = s.ctl := by rw [State.sendTwin_frame]
@[simp] theorem State.sendTwin_evt (s : State) (o : Out) : (s.sendTwin o).evt = s.evt := by rw [State.sendTwin_frame]
@[simp] theorem State.sendTwin_tck (s : State) (o : Out) : (s.sendTwin o).tck = s.tck := by rw [State.sendTwin_frame]
@[simp] theorem State.sendTwin_net (s : State) (o : Out) : (s.sendTwin o).net = s.net := by rw [State.sendTwin_frame]
@[simp] theorem State.sendTwin_swc (s : State) (o : Out) : (s.sendTwin o).swc = s.swc := by rw [State.sendTwin_frame]
@[simp] theorem State.sendTwin_tbl (s : State) (o : Out) : (s.sendTwin o).tbl = s.tbl := by rw [State.sendTwin_frame]
@[simp] theorem State.sendTwin_xpt (s : State) (o : Out) : (s.sendTwin o).xpt = s.xpt := by rw [State.sendTwin_frame]
@[simp] theorem State.sendTwin_qos (s : State) (o : Out) : (s.sendTwin o).qos = s.qos := by rw [State.sendTwin_frame]
@[simp] theorem State.sendTwin_cmdb (s : State) (o : Out) : (s.sendTwin o).cmdb = s.cmdb := by rw [State.sendTwin_frame]
@[simp] theorem State.sendTwin_lay (s : State) (o : Out) : (s.sendTwin o).lay = s.lay := by rw [State.sendTwin_frame]
@[simp] theorem State.sendTwin_reb (s : State) (o : Out) : (s.sendTwin o).reb = s.reb := by rw [State.sendTwin_frame]
@[simp] theorem State.sendTwin_sbg (s : State) (o : Out) : (s.sendTwin o).sbg = s.sbg := by rw [State.sendTwin_frame]
@[simp] theorem State.sendTwin_drv (s : State) (o : Out) : (s.sendTwin o).drv = s.drv := by rw [State.sendTwin_frame]
@[simp] theorem State.sendTwin_str (s : State) (o : Out) : (s.sendTwin o).str = s.str := by rw [State.sendTwin_frame]
@[simp] theorem State.sendTwin_hrn (s : State) (o : Out) : (s.sendTwin o).hrn = s.hrn := by rw [State.sendTwin_frame]
@[simp] theorem State.sendTwin_cph (s : State) (o : Out) : (s.sendTwin o).cph = s.cph := by rw [State.sendTwin_frame]
@[simp] theorem State.sendTwin_sec (s : State) (o : Out) : (s.sendTwin o).sec = s.sec := by rw [State.sendTwin_frame]
@[simp] theorem State.sendTwin_pwr (s : State) (o : Out) : (s.sendTwin o).pwr = s.pwr := by rw [State.sendTwin_frame]
@[simp] theorem State.sendTwin_clk (s : State) (o : Out) : (s.sendTwin o).clk = s.clk := by rw [State.sendTwin_frame]
@[simp] theorem State.sendTwin_tel (s : State) (o : Out) : (s.sendTwin o).tel = s.tel := by rw [State.sendTwin_frame]
@[simp] theorem State.sendTwin_out (s : State) (o : Out) : (s.sendTwin o).out = s.out := by rw [State.sendTwin_frame]
@[simp] theorem State.sendTwin_free (s : State) (o : Out) : (s.sendTwin o).free = s.free := by rw [State.sendTwin_frame]
@[simp] theorem State.sendTwin_pending (s : State) (o : Out) : (s.sendTwin o).pending = s.pending := by rw [State.sendTwin_frame]
@[simp] theorem State.raise_regs (s : State) (n : Nat) (d : List Nat) : (s.raise n d).regs = s.regs := by
 unfold State.raise; dsimp only; split_ifs <;> simp
@[simp] theorem State.raise_shadow (s : State) (n : Nat) (d : List Nat) : (s.raise n d).shadow = s.shadow := by
 unfold State.raise; dsimp only; split_ifs <;> simp
@[simp] theorem State.raise_staged (s : State) (n : Nat) (d : List Nat) : (s.raise n d).staged = s.staged := by
 unfold State.raise; dsimp only; split_ifs <;> simp
@[simp] theorem State.raise_mem (s : State) (n : Nat) (d : List Nat) : (s.raise n d).mem = s.mem := by
 unfold State.raise; dsimp only; split_ifs <;> simp
@[simp] theorem State.raise_glb (s : State) (n : Nat) (d : List Nat) : (s.raise n d).glb = s.glb := by
 unfold State.raise; dsimp only; split_ifs <;> simp
@[simp] theorem State.raise_tim (s : State) (n : Nat) (d : List Nat) : (s.raise n d).tim = s.tim := by
 unfold State.raise; dsimp only; split_ifs <;> simp
@[simp] theorem State.raise_ctl (s : State) (n : Nat) (d : List Nat) : (s.raise n d).ctl = s.ctl := by
 unfold State.raise; dsimp only; split_ifs <;> simp
@[simp] theorem State.raise_tck (s : State) (n : Nat) (d : List Nat) : (s.raise n d).tck = s.tck := by
 unfold State.raise; dsimp only; split_ifs <;> simp
@[simp] theorem State.raise_net (s : State) (n : Nat) (d : List Nat) : (s.raise n d).net = s.net := by
 unfold State.raise; dsimp only; split_ifs <;> simp
@[simp] theorem State.raise_swc (s : State) (n : Nat) (d : List Nat) : (s.raise n d).swc = s.swc := by
 unfold State.raise; dsimp only; split_ifs <;> simp
@[simp] theorem State.raise_tbl (s : State) (n : Nat) (d : List Nat) : (s.raise n d).tbl = s.tbl := by
 unfold State.raise; dsimp only; split_ifs <;> simp
@[simp] theorem State.raise_xpt (s : State) (n : Nat) (d : List Nat) : (s.raise n d).xpt = s.xpt := by
 unfold State.raise; dsimp only; split_ifs <;> simp
@[simp] theorem State.raise_qos (s : State) (n : Nat) (d : List Nat) : (s.raise n d).qos = s.qos := by
 unfold State.raise; dsimp only; split_ifs <;> simp
@[simp] theorem State.raise_cmdb (s : State) (n : Nat) (d : List Nat) : (s.raise n d).cmdb = s.cmdb := by
 unfold State.raise; dsimp only; split_ifs <;> simp
@[simp] theorem State.raise_lay (s : State) (n : Nat) (d : List Nat) : (s.raise n d).lay = s.lay := by
 unfold State.raise; dsimp only; split_ifs <;> simp
@[simp] theorem State.raise_reb (s : State) (n : Nat) (d : List Nat) : (s.raise n d).reb = s.reb := by
 unfold State.raise; dsimp only; split_ifs <;> simp
@[simp] theorem State.raise_sbg (s : State) (n : Nat) (d : List Nat) : (s.raise n d).sbg = s.sbg := by
 unfold State.raise; dsimp only; split_ifs <;> simp
@[simp] theorem State.raise_drv (s : State) (n : Nat) (d : List Nat) : (s.raise n d).drv = s.drv := by
 unfold State.raise; dsimp only; split_ifs <;> simp
@[simp] theorem State.raise_str (s : State) (n : Nat) (d : List Nat) : (s.raise n d).str = s.str := by
 unfold State.raise; dsimp only; split_ifs <;> simp
@[simp] theorem State.raise_cph (s : State) (n : Nat) (d : List Nat) : (s.raise n d).cph = s.cph := by
 unfold State.raise; dsimp only; split_ifs <;> simp
@[simp] theorem State.raise_sec (s : State) (n : Nat) (d : List Nat) : (s.raise n d).sec = s.sec := by
 unfold State.raise; dsimp only; split_ifs <;> simp
@[simp] theorem State.raise_pwr (s : State) (n : Nat) (d : List Nat) : (s.raise n d).pwr = s.pwr := by
 unfold State.raise; dsimp only; split_ifs <;> simp
@[simp] theorem State.raise_clk (s : State) (n : Nat) (d : List Nat) : (s.raise n d).clk = s.clk := by
 unfold State.raise; dsimp only; split_ifs <;> simp
@[simp] theorem State.raise_free (s : State) (n : Nat) (d : List Nat) : (s.raise n d).free = s.free := by
 unfold State.raise; dsimp only; split_ifs <;> simp
@[simp] theorem State.raise_pending (s : State) (n : Nat) (d : List Nat) : (s.raise n d).pending = s.pending := by
 unfold State.raise; dsimp only; split_ifs <;> simp
@[simp] theorem State.raiseIf_regs (s : State) (c : Bool) (n : Nat) (d : List Nat) : (s.raiseIf c n d).regs = s.regs := by
 unfold State.raiseIf; split_ifs <;> simp
@[simp] theorem State.raiseIf_shadow (s : State) (c : Bool) (n : Nat) (d : List Nat) : (s.raiseIf c n d).shadow = s.shadow := by
 unfold State.raiseIf; split_ifs <;> simp
@[simp] theorem State.raiseIf_staged (s : State) (c : Bool) (n : Nat) (d : List Nat) : (s.raiseIf c n d).staged = s.staged := by
 unfold State.raiseIf; split_ifs <;> simp
@[simp] theorem State.raiseIf_mem (s : State) (c : Bool) (n : Nat) (d : List Nat) : (s.raiseIf c n d).mem = s.mem := by
 unfold State.raiseIf; split_ifs <;> simp
@[simp] theorem State.raiseIf_glb (s : State) (c : Bool) (n : Nat) (d : List Nat) : (s.raiseIf c n d).glb = s.glb := by
 unfold State.raiseIf; split_ifs <;> simp
@[simp] theorem State.raiseIf_tim (s : State) (c : Bool) (n : Nat) (d : List Nat) : (s.raiseIf c n d).tim = s.tim := by
 unfold State.raiseIf; split_ifs <;> simp
@[simp] theorem State.raiseIf_ctl (s : State) (c : Bool) (n : Nat) (d : List Nat) : (s.raiseIf c n d).ctl = s.ctl := by
 unfold State.raiseIf; split_ifs <;> simp
@[simp] theorem State.raiseIf_tck (s : State) (c : Bool) (n : Nat) (d : List Nat) : (s.raiseIf c n d).tck = s.tck := by
 unfold State.raiseIf; split_ifs <;> simp
@[simp] theorem State.raiseIf_net (s : State) (c : Bool) (n : Nat) (d : List Nat) : (s.raiseIf c n d).net = s.net := by
 unfold State.raiseIf; split_ifs <;> simp
@[simp] theorem State.raiseIf_swc (s : State) (c : Bool) (n : Nat) (d : List Nat) : (s.raiseIf c n d).swc = s.swc := by
 unfold State.raiseIf; split_ifs <;> simp
@[simp] theorem State.raiseIf_tbl (s : State) (c : Bool) (n : Nat) (d : List Nat) : (s.raiseIf c n d).tbl = s.tbl := by
 unfold State.raiseIf; split_ifs <;> simp
@[simp] theorem State.raiseIf_xpt (s : State) (c : Bool) (n : Nat) (d : List Nat) : (s.raiseIf c n d).xpt = s.xpt := by
 unfold State.raiseIf; split_ifs <;> simp
@[simp] theorem State.raiseIf_qos (s : State) (c : Bool) (n : Nat) (d : List Nat) : (s.raiseIf c n d).qos = s.qos := by
 unfold State.raiseIf; split_ifs <;> simp
@[simp] theorem State.raiseIf_cmdb (s : State) (c : Bool) (n : Nat) (d : List Nat) : (s.raiseIf c n d).cmdb = s.cmdb := by
 unfold State.raiseIf; split_ifs <;> simp
@[simp] theorem State.raiseIf_lay (s : State) (c : Bool) (n : Nat) (d : List Nat) : (s.raiseIf c n d).lay = s.lay := by
 unfold State.raiseIf; split_ifs <;> simp
@[simp] theorem State.raiseIf_reb (s : State) (c : Bool) (n : Nat) (d : List Nat) : (s.raiseIf c n d).reb = s.reb := by
 unfold State.raiseIf; split_ifs <;> simp
@[simp] theorem State.raiseIf_sbg (s : State) (c : Bool) (n : Nat) (d : List Nat) : (s.raiseIf c n d).sbg = s.sbg := by
 unfold State.raiseIf; split_ifs <;> simp
@[simp] theorem State.raiseIf_drv (s : State) (c : Bool) (n : Nat) (d : List Nat) : (s.raiseIf c n d).drv = s.drv := by
 unfold State.raiseIf; split_ifs <;> simp
@[simp] theorem State.raiseIf_str (s : State) (c : Bool) (n : Nat) (d : List Nat) : (s.raiseIf c n d).str = s.str := by
 unfold State.raiseIf; split_ifs <;> simp
@[simp] theorem State.raiseIf_cph (s : State) (c : Bool) (n : Nat) (d : List Nat) : (s.raiseIf c n d).cph = s.cph := by
 unfold State.raiseIf; split_ifs <;> simp
@[simp] theorem State.raiseIf_sec (s : State) (c : Bool) (n : Nat) (d : List Nat) : (s.raiseIf c n d).sec = s.sec := by
 unfold State.raiseIf; split_ifs <;> simp
@[simp] theorem State.raiseIf_pwr (s : State) (c : Bool) (n : Nat) (d : List Nat) : (s.raiseIf c n d).pwr = s.pwr := by
 unfold State.raiseIf; split_ifs <;> simp
@[simp] theorem State.raiseIf_clk (s : State) (c : Bool) (n : Nat) (d : List Nat) : (s.raiseIf c n d).clk = s.clk := by
 unfold State.raiseIf; split_ifs <;> simp
@[simp] theorem State.raiseIf_free (s : State) (c : Bool) (n : Nat) (d : List Nat) : (s.raiseIf c n d).free = s.free := by
 unfold State.raiseIf; split_ifs <;> simp
@[simp] theorem State.raiseIf_pending (s : State) (c : Bool) (n : Nat) (d : List Nat) : (s.raiseIf c n d).pending = s.pending := by
 unfold State.raiseIf; split_ifs <;> simp

/-- What a raised event does to the harness: an own fault is recorded, nothing else changes. -/
@[simp] theorem State.raise_hrn (s : State) (n : Nat) (d : List Nat) :
    (s.raise n d).hrn = if faultSources.contains n then { s.hrn with fault := some (n, s.now) } else s.hrn := by
  unfold State.raise; dsimp only; split_ifs <;> simp <;> rfl

/-- What a raised event does to telemetry: its counter counts. -/
@[simp] theorem State.raise_tel (s : State) (n : Nat) (d : List Nat) : (s.raise n d).tel = (s.count n).tel := by
  unfold State.raise; dsimp only; split_ifs <;> simp [State.count] <;> rfl

/-- What a raised event does to the event unit: its source, and for an NMI the record of the last one. -/
@[simp] theorem State.raise_evt (s : State) (n : Nat) (d : List Nat) :
    (s.raise n d).evt = if srcClass n = .nmi
      then { s.evt with srcs := s.evt.srcs.set {} n ((s.src n).occur d s.now), nmiLast := n, nmiFromPeer := false }
      else { s.evt with srcs := s.evt.srcs.set {} n ((s.src n).occur d s.now) } := by
  unfold State.raise; dsimp only; split_ifs <;> simp [State.setSrc]

/-- What a raised event sends by itself: for an NMI the NMI. -/
theorem State.raise_out (s : State) (n : Nat) (d : List Nat) :
    (s.raise n d).out = if srcClass n = .nmi then .nmi n :: s.out else s.out := by
  unfold State.raise; dsimp only; split_ifs <;> simp_all [State.setSrc, State.count, State.emit]

/-- What a raised event queues for the peer: nothing, or for an NMI its copy. -/
theorem State.raise_htx (s : State) (n : Nat) (d : List Nat) :
    (s.raise n d).htx = if srcClass n = .nmi then (s.sendTwin (.nmiToPeer n (d.take 8))).htx else s.htx := by
  unfold State.raise; dsimp only; split_ifs <;> simp [State.sendTwin] <;> split_ifs <;> simp_all

/-- An event that is no NMI queues nothing. -/
@[simp] theorem State.raise_htx_of_class (s : State) (n : Nat) (d : List Nat) (h : srcClass n ≠ .nmi) :
    (s.raise n d).htx = s.htx := by simp [State.raise_htx, h]

/-- An event that is no NMI sends nothing. -/
@[simp] theorem State.raise_out_of_class (s : State) (n : Nat) (d : List Nat) (h : srcClass n ≠ .nmi) :
    (s.raise n d).out = s.out := by simp [State.raise_out, h]

theorem Src.occur_pend (e : Src) (d : List Nat) (t : Nat) : (e.occur d t).pend = true := by
  unfold Src.occur; split_ifs <;> rfl

/-- The raised source takes the occurrence (R56). -/
@[simp] theorem State.raise_src_same (s : State) (n : Nat) (d : List Nat) :
    (s.raise n d).src n = (s.src n).occur d s.now := by
  unfold State.src; rw [State.raise_evt]; split_ifs <;> simp [State.src]

/-- Every other source is as it was. -/
@[simp] theorem State.raise_src_other (s : State) (n m : Nat) (d : List Nat) (h : m ≠ n) :
    (s.raise n d).src m = s.src m := by
  unfold State.src; rw [State.raise_evt]; split_ifs <;> simp [h]

@[simp] theorem State.raise_counter_same (s : State) (n : Nat) (d : List Nat) :
    (s.raise n d).counter n = satAdd 64 (s.counter n) 1 := by
  unfold State.counter; rw [State.raise_tel]; simp [State.count, State.counter]

@[simp] theorem State.raise_counter_other (s : State) (n m : Nat) (d : List Nat) (h : m ≠ n) :
    (s.raise n d).counter m = s.counter m := by
  unfold State.counter; rw [State.raise_tel]; simp [State.count, h]

@[simp] theorem State.raise_rg (s : State) (n a : Nat) (d : List Nat) : (s.raise n d).rg a = s.rg a := by
  simp [State.rg]

@[simp] theorem State.raise_fld (s : State) (n : Nat) (r : Ref) (d : List Nat) : (s.raise n d).fld r = s.fld r := by
  simp [State.fld]

@[simp] theorem State.raise_flag (s : State) (n : Nat) (r : Ref) (d : List Nat) : (s.raise n d).flag r = s.flag r := by
  simp [State.flag]

@[simp] theorem State.raise_now (s : State) (n : Nat) (d : List Nat) : (s.raise n d).now = s.now := by
  simp [State.now]

@[simp] theorem State.emit_fld (s : State) (o : Out) (r : Ref) : (s.emit o).fld r = s.fld r := (rfl)
@[simp] theorem State.emit_src (s : State) (o : Out) (n : Nat) : (s.emit o).src n = s.src n := (rfl)
@[simp] theorem State.emit_now (s : State) (o : Out) : (s.emit o).now = s.now := (rfl)

/-! ### Register fields -/

@[simp] theorem State.setRg_rg_same (s : State) (a : Nat) (w : Word) : (s.setRg a w).rg a = w := by
  simp [State.rg, State.setRg]

@[simp] theorem State.setRg_rg_other (s : State) (a b : Nat) (w : Word) (h : b ≠ a) : (s.setRg a w).rg b = s.rg b := by
  simp [State.rg, State.setRg, h]

theorem getBits_lt (w : Word) (hi lo : Nat) : getBits w hi lo < 2 ^ (hi + 1 - lo) := Nat.mod_lt _ (Nat.two_pow_pos _)

/-- A field reads what was written to it, cut to its width. -/
theorem getBits_setBits (w : Word) (hi lo v : Nat) (h : lo ≤ hi) (h2 : hi < 32) :
    getBits (setBits w hi lo v) hi lo = v % 2 ^ (hi + 1 - lo) := by
  unfold setBits getBits
  generalize hk : hi + 1 - lo = k
  have hw := w.isLt
  generalize w.toNat = x at hw
  have hkl : 2 ^ lo * 2 ^ k * 2 ^ (31 - hi) = 2 ^ 32 := by
    rw [← Nat.pow_add, ← Nat.pow_add]; congr 1; omega
  generalize hA : 2 ^ lo = A at *
  generalize hB : 2 ^ k = B at *
  generalize hC : 2 ^ (31 - hi) = C at *
  have hApos : 0 < A := by rw [← hA]; exact Nat.two_pow_pos _
  have hBpos : 0 < B := by rw [← hB]; exact Nat.two_pow_pos _
  have hx : x = (x / A / B) * B * A + (x / A % B) * A + x % A := by
    have h1 := Nat.div_add_mod x A
    have h2 := Nat.div_add_mod (x / A) B
    nlinarith
  have hq : x / A / B < C := by
    rw [Nat.div_div_eq_div_mul]
    exact (Nat.div_lt_iff_lt_mul (by positivity)).mpr (by rw [Nat.mul_comm, ← Nat.mul_assoc] at *; nlinarith)
  have hsub : x - x / A % B * A = (x / A / B) * B * A + x % A := by omega
  rw [hsub]
  have hr : x % A < A := Nat.mod_lt _ hApos
  have hvB : v % B < B := Nat.mod_lt _ hBpos
  have hlt : (x / A / B) * B * A + x % A + v % B * A < 2 ^ 32 := by
    rw [← hkl]
    have : (x / A / B) + 1 ≤ C := hq
    have h3 : (x / A / B + 1) * (A * B) ≤ C * (A * B) := Nat.mul_le_mul_right _ this
    have h4 : (v % B + 1) * A ≤ B * A := Nat.mul_le_mul_right _ hvB
    nlinarith
  rw [BitVec.toNat_ofNat, Nat.mod_eq_of_lt hlt]
  have : (x / A / B) * B * A + x % A + v % B * A = x % A + A * ((x / A / B) * B + v % B) := by ring
  rw [this, Nat.add_mul_div_left _ _ hApos, Nat.div_eq_of_lt hr, Nat.zero_add, Nat.add_comm, Nat.add_mul_mod_self_right,
    Nat.mod_mod]

/-- A field set reads what was put there, cut to its width. -/
theorem State.setFld_fld_same (s : State) (r : Ref) (v : Nat) (h : r.lo ≤ r.hi) (h2 : r.hi < 32) :
    (s.setFld r v).fld r = v % 2 ^ (r.hi + 1 - r.lo) := by
  simp [State.fld, State.setFld, getBits_setBits, h, h2]

/-- A field of another register is as it was. -/
theorem State.setFld_fld_other (s : State) (r q : Ref) (v : Nat) (h : q.addr ≠ r.addr) :
    (s.setFld r v).fld q = s.fld q := by
  simp [State.fld, State.setFld, h]


/-! ### Timer slots and shelf time -/

@[simp] theorem State.setSlot_regs (s : State) (n : Nat) (x : Slot) : (s.setSlot n x).regs = s.regs := (rfl)
@[simp] theorem State.setSlot_shadow (s : State) (n : Nat) (x : Slot) : (s.setSlot n x).shadow = s.shadow := (rfl)
@[simp] theorem State.setSlot_staged (s : State) (n : Nat) (x : Slot) : (s.setSlot n x).staged = s.staged := (rfl)
@[simp] theorem State.setSlot_mem (s : State) (n : Nat) (x : Slot) : (s.setSlot n x).mem = s.mem := (rfl)
@[simp] theorem State.setSlot_glb (s : State) (n : Nat) (x : Slot) : (s.setSlot n x).glb = s.glb := (rfl)
@[simp] theorem State.setSlot_ctl (s : State) (n : Nat) (x : Slot) : (s.setSlot n x).ctl = s.ctl := (rfl)
@[simp] theorem State.setSlot_evt (s : State) (n : Nat) (x : Slot) : (s.setSlot n x).evt = s.evt := (rfl)
@[simp] theorem State.setSlot_tck (s : State) (n : Nat) (x : Slot) : (s.setSlot n x).tck = s.tck := (rfl)
@[simp] theorem State.setSlot_net (s : State) (n : Nat) (x : Slot) : (s.setSlot n x).net = s.net := (rfl)
@[simp] theorem State.setSlot_swc (s : State) (n : Nat) (x : Slot) : (s.setSlot n x).swc = s.swc := (rfl)
@[simp] theorem State.setSlot_tbl (s : State) (n : Nat) (x : Slot) : (s.setSlot n x).tbl = s.tbl := (rfl)
@[simp] theorem State.setSlot_xpt (s : State) (n : Nat) (x : Slot) : (s.setSlot n x).xpt = s.xpt := (rfl)
@[simp] theorem State.setSlot_qos (s : State) (n : Nat) (x : Slot) : (s.setSlot n x).qos = s.qos := (rfl)
@[simp] theorem State.setSlot_cmdb (s : State) (n : Nat) (x : Slot) : (s.setSlot n x).cmdb = s.cmdb := (rfl)
@[simp] theorem State.setSlot_lay (s : State) (n : Nat) (x : Slot) : (s.setSlot n x).lay = s.lay := (rfl)
@[simp] theorem State.setSlot_reb (s : State) (n : Nat) (x : Slot) : (s.setSlot n x).reb = s.reb := (rfl)
@[simp] theorem State.setSlot_sbg (s : State) (n : Nat) (x : Slot) : (s.setSlot n x).sbg = s.sbg := (rfl)
@[simp] theorem State.setSlot_drv (s : State) (n : Nat) (x : Slot) : (s.setSlot n x).drv = s.drv := (rfl)
@[simp] theorem State.setSlot_str (s : State) (n : Nat) (x : Slot) : (s.setSlot n x).str = s.str := (rfl)
@[simp] theorem State.setSlot_hrn (s : State) (n : Nat) (x : Slot) : (s.setSlot n x).hrn = s.hrn := (rfl)
@[simp] theorem State.setSlot_htx (s : State) (n : Nat) (x : Slot) : (s.setSlot n x).htx = s.htx := (rfl)
@[simp] theorem State.setSlot_cph (s : State) (n : Nat) (x : Slot) : (s.setSlot n x).cph = s.cph := (rfl)
@[simp] theorem State.setSlot_sec (s : State) (n : Nat) (x : Slot) : (s.setSlot n x).sec = s.sec := (rfl)
@[simp] theorem State.setSlot_pwr (s : State) (n : Nat) (x : Slot) : (s.setSlot n x).pwr = s.pwr := (rfl)
@[simp] theorem State.setSlot_clk (s : State) (n : Nat) (x : Slot) : (s.setSlot n x).clk = s.clk := (rfl)
@[simp] theorem State.setSlot_tel (s : State) (n : Nat) (x : Slot) : (s.setSlot n x).tel = s.tel := (rfl)
@[simp] theorem State.setSlot_out (s : State) (n : Nat) (x : Slot) : (s.setSlot n x).out = s.out := (rfl)
@[simp] theorem State.setSlot_free (s : State) (n : Nat) (x : Slot) : (s.setSlot n x).free = s.free := (rfl)
@[simp] theorem State.setSlot_pending (s : State) (n : Nat) (x : Slot) : (s.setSlot n x).pending = s.pending := (rfl)
theorem State.reach_frame (s : State) (t : Nat) : s.reach t =
    { s with tim := (s.reach t).tim } := by
  unfold State.reach; split_ifs <;> rfl
@[simp] theorem State.reach_regs (s : State) (t : Nat) : (s.reach t).regs = s.regs := by rw [State.reach_frame]
@[simp] theorem State.reach_shadow (s : State) (t : Nat) : (s.reach t).shadow = s.shadow := by rw [State.reach_frame]
@[simp] theorem State.reach_staged (s : State) (t : Nat) : (s.reach t).staged = s.staged := by rw [State.reach_frame]
@[simp] theorem State.reach_mem (s : State) (t : Nat) : (s.reach t).mem = s.mem := by rw [State.reach_frame]
@[simp] theorem State.reach_glb (s : State) (t : Nat) : (s.reach t).glb = s.glb := by rw [State.reach_frame]
@[simp] theorem State.reach_ctl (s : State) (t : Nat) : (s.reach t).ctl = s.ctl := by rw [State.reach_frame]
@[simp] theorem State.reach_evt (s : State) (t : Nat) : (s.reach t).evt = s.evt := by rw [State.reach_frame]
@[simp] theorem State.reach_tck (s : State) (t : Nat) : (s.reach t).tck = s.tck := by rw [State.reach_frame]
@[simp] theorem State.reach_net (s : State) (t : Nat) : (s.reach t).net = s.net := by rw [State.reach_frame]
@[simp] theorem State.reach_swc (s : State) (t : Nat) : (s.reach t).swc = s.swc := by rw [State.reach_frame]
@[simp] theorem State.reach_tbl (s : State) (t : Nat) : (s.reach t).tbl = s.tbl := by rw [State.reach_frame]
@[simp] theorem State.reach_xpt (s : State) (t : Nat) : (s.reach t).xpt = s.xpt := by rw [State.reach_frame]
@[simp] theorem State.reach_qos (s : State) (t : Nat) : (s.reach t).qos = s.qos := by rw [State.reach_frame]
@[simp] theorem State.reach_cmdb (s : State) (t : Nat) : (s.reach t).cmdb = s.cmdb := by rw [State.reach_frame]
@[simp] theorem State.reach_lay (s : State) (t : Nat) : (s.reach t).lay = s.lay := by rw [State.reach_frame]
@[simp] theorem State.reach_reb (s : State) (t : Nat) : (s.reach t).reb = s.reb := by rw [State.reach_frame]
@[simp] theorem State.reach_sbg (s : State) (t : Nat) : (s.reach t).sbg = s.sbg := by rw [State.reach_frame]
@[simp] theorem State.reach_drv (s : State) (t : Nat) : (s.reach t).drv = s.drv := by rw [State.reach_frame]
@[simp] theorem State.reach_str (s : State) (t : Nat) : (s.reach t).str = s.str := by rw [State.reach_frame]
@[simp] theorem State.reach_hrn (s : State) (t : Nat) : (s.reach t).hrn = s.hrn := by rw [State.reach_frame]
@[simp] theorem State.reach_htx (s : State) (t : Nat) : (s.reach t).htx = s.htx := by rw [State.reach_frame]
@[simp] theorem State.reach_cph (s : State) (t : Nat) : (s.reach t).cph = s.cph := by rw [State.reach_frame]
@[simp] theorem State.reach_sec (s : State) (t : Nat) : (s.reach t).sec = s.sec := by rw [State.reach_frame]
@[simp] theorem State.reach_pwr (s : State) (t : Nat) : (s.reach t).pwr = s.pwr := by rw [State.reach_frame]
@[simp] theorem State.reach_clk (s : State) (t : Nat) : (s.reach t).clk = s.clk := by rw [State.reach_frame]
@[simp] theorem State.reach_tel (s : State) (t : Nat) : (s.reach t).tel = s.tel := by rw [State.reach_frame]
@[simp] theorem State.reach_out (s : State) (t : Nat) : (s.reach t).out = s.out := by rw [State.reach_frame]
@[simp] theorem State.reach_free (s : State) (t : Nat) : (s.reach t).free = s.free := by rw [State.reach_frame]
@[simp] theorem State.reach_pending (s : State) (t : Nat) : (s.reach t).pending = s.pending := by rw [State.reach_frame]
@[simp] theorem State.fireWith_regs (s : State) (n p : Nat) : (s.fireWith n p).regs = s.regs := by
 unfold State.fireWith; simp
@[simp] theorem State.fireWith_shadow (s : State) (n p : Nat) : (s.fireWith n p).shadow = s.shadow := by
 unfold State.fireWith; simp
@[simp] theorem State.fireWith_staged (s : State) (n p : Nat) : (s.fireWith n p).staged = s.staged := by
 unfold State.fireWith; simp
@[simp] theorem State.fireWith_mem (s : State) (n p : Nat) : (s.fireWith n p).mem = s.mem := by
 unfold State.fireWith; simp
@[simp] theorem State.fireWith_glb (s : State) (n p : Nat) : (s.fireWith n p).glb = s.glb := by
 unfold State.fireWith; simp
@[simp] theorem State.fireWith_ctl (s : State) (n p : Nat) : (s.fireWith n p).ctl = s.ctl := by
 unfold State.fireWith; simp
@[simp] theorem State.fireWith_evt (s : State) (n p : Nat) : (s.fireWith n p).evt = s.evt := by
 unfold State.fireWith; simp
@[simp] theorem State.fireWith_tck (s : State) (n p : Nat) : (s.fireWith n p).tck = s.tck := by
 unfold State.fireWith; simp
@[simp] theorem State.fireWith_net (s : State) (n p : Nat) : (s.fireWith n p).net = s.net := by
 unfold State.fireWith; simp
@[simp] theorem State.fireWith_swc (s : State) (n p : Nat) : (s.fireWith n p).swc = s.swc := by
 unfold State.fireWith; simp
@[simp] theorem State.fireWith_tbl (s : State) (n p : Nat) : (s.fireWith n p).tbl = s.tbl := by
 unfold State.fireWith; simp
@[simp] theorem State.fireWith_xpt (s : State) (n p : Nat) : (s.fireWith n p).xpt = s.xpt := by
 unfold State.fireWith; simp
@[simp] theorem State.fireWith_qos (s : State) (n p : Nat) : (s.fireWith n p).qos = s.qos := by
 unfold State.fireWith; simp
@[simp] theorem State.fireWith_cmdb (s : State) (n p : Nat) : (s.fireWith n p).cmdb = s.cmdb := by
 unfold State.fireWith; simp
@[simp] theorem State.fireWith_lay (s : State) (n p : Nat) : (s.fireWith n p).lay = s.lay := by
 unfold State.fireWith; simp
@[simp] theorem State.fireWith_reb (s : State) (n p : Nat) : (s.fireWith n p).reb = s.reb := by
 unfold State.fireWith; simp
@[simp] theorem State.fireWith_sbg (s : State) (n p : Nat) : (s.fireWith n p).sbg = s.sbg := by
 unfold State.fireWith; simp
@[simp] theorem State.fireWith_drv (s : State) (n p : Nat) : (s.fireWith n p).drv = s.drv := by
 unfold State.fireWith; simp
@[simp] theorem State.fireWith_str (s : State) (n p : Nat) : (s.fireWith n p).str = s.str := by
 unfold State.fireWith; simp
@[simp] theorem State.fireWith_hrn (s : State) (n p : Nat) : (s.fireWith n p).hrn = s.hrn := by
 unfold State.fireWith; simp
@[simp] theorem State.fireWith_htx (s : State) (n p : Nat) : (s.fireWith n p).htx = s.htx := by
 unfold State.fireWith; simp
@[simp] theorem State.fireWith_cph (s : State) (n p : Nat) : (s.fireWith n p).cph = s.cph := by
 unfold State.fireWith; simp
@[simp] theorem State.fireWith_sec (s : State) (n p : Nat) : (s.fireWith n p).sec = s.sec := by
 unfold State.fireWith; simp
@[simp] theorem State.fireWith_pwr (s : State) (n p : Nat) : (s.fireWith n p).pwr = s.pwr := by
 unfold State.fireWith; simp
@[simp] theorem State.fireWith_clk (s : State) (n p : Nat) : (s.fireWith n p).clk = s.clk := by
 unfold State.fireWith; simp
@[simp] theorem State.fireWith_tel (s : State) (n p : Nat) : (s.fireWith n p).tel = s.tel := by
 unfold State.fireWith; simp
@[simp] theorem State.fireWith_out (s : State) (n p : Nat) : (s.fireWith n p).out = s.out := by
 unfold State.fireWith; simp
@[simp] theorem State.fireWith_free (s : State) (n p : Nat) : (s.fireWith n p).free = s.free := by
 unfold State.fireWith; simp
@[simp] theorem State.fireWith_pending (s : State) (n p : Nat) : (s.fireWith n p).pending = s.pending := by
 unfold State.fireWith; simp
@[simp] theorem State.fire_regs (s : State) (n : Nat) : (s.fire n).regs = s.regs := by
 unfold State.fire; simp
@[simp] theorem State.fire_shadow (s : State) (n : Nat) : (s.fire n).shadow = s.shadow := by
 unfold State.fire; simp
@[simp] theorem State.fire_staged (s : State) (n : Nat) : (s.fire n).staged = s.staged := by
 unfold State.fire; simp
@[simp] theorem State.fire_mem (s : State) (n : Nat) : (s.fire n).mem = s.mem := by
 unfold State.fire; simp
@[simp] theorem State.fire_glb (s : State) (n : Nat) : (s.fire n).glb = s.glb := by
 unfold State.fire; simp
@[simp] theorem State.fire_ctl (s : State) (n : Nat) : (s.fire n).ctl = s.ctl := by
 unfold State.fire; simp
@[simp] theorem State.fire_evt (s : State) (n : Nat) : (s.fire n).evt = s.evt := by
 unfold State.fire; simp
@[simp] theorem State.fire_tck (s : State) (n : Nat) : (s.fire n).tck = s.tck := by
 unfold State.fire; simp
@[simp] theorem State.fire_net (s : State) (n : Nat) : (s.fire n).net = s.net := by
 unfold State.fire; simp
@[simp] theorem State.fire_swc (s : State) (n : Nat) : (s.fire n).swc = s.swc := by
 unfold State.fire; simp
@[simp] theorem State.fire_tbl (s : State) (n : Nat) : (s.fire n).tbl = s.tbl := by
 unfold State.fire; simp
@[simp] theorem State.fire_xpt (s : State) (n : Nat) : (s.fire n).xpt = s.xpt := by
 unfold State.fire; simp
@[simp] theorem State.fire_qos (s : State) (n : Nat) : (s.fire n).qos = s.qos := by
 unfold State.fire; simp
@[simp] theorem State.fire_cmdb (s : State) (n : Nat) : (s.fire n).cmdb = s.cmdb := by
 unfold State.fire; simp
@[simp] theorem State.fire_lay (s : State) (n : Nat) : (s.fire n).lay = s.lay := by
 unfold State.fire; simp
@[simp] theorem State.fire_reb (s : State) (n : Nat) : (s.fire n).reb = s.reb := by
 unfold State.fire; simp
@[simp] theorem State.fire_sbg (s : State) (n : Nat) : (s.fire n).sbg = s.sbg := by
 unfold State.fire; simp
@[simp] theorem State.fire_drv (s : State) (n : Nat) : (s.fire n).drv = s.drv := by
 unfold State.fire; simp
@[simp] theorem State.fire_str (s : State) (n : Nat) : (s.fire n).str = s.str := by
 unfold State.fire; simp
@[simp] theorem State.fire_hrn (s : State) (n : Nat) : (s.fire n).hrn = s.hrn := by
 unfold State.fire; simp
@[simp] theorem State.fire_htx (s : State) (n : Nat) : (s.fire n).htx = s.htx := by
 unfold State.fire; simp
@[simp] theorem State.fire_cph (s : State) (n : Nat) : (s.fire n).cph = s.cph := by
 unfold State.fire; simp
@[simp] theorem State.fire_sec (s : State) (n : Nat) : (s.fire n).sec = s.sec := by
 unfold State.fire; simp
@[simp] theorem State.fire_pwr (s : State) (n : Nat) : (s.fire n).pwr = s.pwr := by
 unfold State.fire; simp
@[simp] theorem State.fire_clk (s : State) (n : Nat) : (s.fire n).clk = s.clk := by
 unfold State.fire; simp
@[simp] theorem State.fire_tel (s : State) (n : Nat) : (s.fire n).tel = s.tel := by
 unfold State.fire; simp
@[simp] theorem State.fire_out (s : State) (n : Nat) : (s.fire n).out = s.out := by
 unfold State.fire; simp
@[simp] theorem State.fire_free (s : State) (n : Nat) : (s.fire n).free = s.free := by
 unfold State.fire; simp
@[simp] theorem State.fire_pending (s : State) (n : Nat) : (s.fire n).pending = s.pending := by
 unfold State.fire; simp

@[simp] theorem State.setSlot_tim (s : State) (n : Nat) (x : Slot) :
    (s.setSlot n x).tim = { s.tim with slots := s.tim.slots.set {} n x } := (rfl)

@[simp] theorem State.reach_tim (s : State) (t : Nat) :
    (s.reach t).tim = { s.tim with ns := max s.tim.ns t, frac := if s.tim.ns < t then 0 else s.tim.frac } := by
  unfold State.reach
  split_ifs with h
  · simp [Nat.max_eq_right (Nat.le_of_lt h)]
  · simp [Nat.max_eq_left (Nat.le_of_not_lt h)]

/-- What a firing slot does to the timers: shelf time has reached its compare time, and the slot is disarmed or moves on. -/
@[simp] theorem State.fireWith_tim (s : State) (n p : Nat) :
    (s.fireWith n p).tim = { s.tim with
      ns := max s.tim.ns (s.slot n).compare
      frac := if s.tim.ns < (s.slot n).compare then 0 else s.tim.frac
      slots := s.tim.slots.set {} n (if (s.slot n).period = 0 then { s.slot n with armed := false }
        else { s.slot n with compare := (s.slot n).compare + p, period := p }) } := by
  simp [State.fireWith]

@[simp] theorem State.setSlot_slot_same (s : State) (n : Nat) (x : Slot) : (s.setSlot n x).slot n = x := by
  simp [State.slot, State.setSlot]

@[simp] theorem State.setSlot_slot_other (s : State) (n m : Nat) (x : Slot) (h : m ≠ n) :
    (s.setSlot n x).slot m = s.slot m := by
  simp [State.slot, State.setSlot, h]

@[simp] theorem State.reach_slot (s : State) (t n : Nat) : (s.reach t).slot n = s.slot n := by
  unfold State.reach; split_ifs <;> rfl

/-- Reaching an instant moves shelf time up to it and never back. -/
theorem State.reach_now (s : State) (t : Nat) : (s.reach t).now = max s.now t := by
  unfold State.reach State.now
  split_ifs with h
  · simp only; omega
  · omega

theorem State.fireWith_now (s : State) (n p : Nat) : (s.fireWith n p).now = max s.now (s.slot n).compare := by
  unfold State.fireWith; exact State.reach_now s _

/-- A slot that fires: a one-shot slot is disarmed, a periodic one moves its compare time on (R35). -/
theorem State.fireWith_slot_same (s : State) (n p : Nat) :
    (s.fireWith n p).slot n = if (s.slot n).period = 0 then { s.slot n with armed := false }
      else { s.slot n with compare := (s.slot n).compare + p, period := p } := by
  simp [State.fireWith]

theorem State.fireWith_slot_other (s : State) (n m p : Nat) (h : m ≠ n) : (s.fireWith n p).slot m = s.slot m := by
  simp [State.fireWith, h]


/-! ### Rings and started commands -/

@[simp] theorem State.setCring_regs (s : State) (n : Nat) (r : CRing) : (s.setCring n r).regs = s.regs := (rfl)
@[simp] theorem State.setCring_shadow (s : State) (n : Nat) (r : CRing) : (s.setCring n r).shadow = s.shadow := (rfl)
@[simp] theorem State.setCring_staged (s : State) (n : Nat) (r : CRing) : (s.setCring n r).staged = s.staged := (rfl)
@[simp] theorem State.setCring_mem (s : State) (n : Nat) (r : CRing) : (s.setCring n r).mem = s.mem := (rfl)
@[simp] theorem State.setCring_glb (s : State) (n : Nat) (r : CRing) : (s.setCring n r).glb = s.glb := (rfl)
@[simp] theorem State.setCring_tim (s : State) (n : Nat) (r : CRing) : (s.setCring n r).tim = s.tim := (rfl)
@[simp] theorem State.setCring_evt (s : State) (n : Nat) (r : CRing) : (s.setCring n r).evt = s.evt := (rfl)
@[simp] theorem State.setCring_tck (s : State) (n : Nat) (r : CRing) : (s.setCring n r).tck = s.tck := (rfl)
@[simp] theorem State.setCring_net (s : State) (n : Nat) (r : CRing) : (s.setCring n r).net = s.net := (rfl)
@[simp] theorem State.setCring_swc (s : State) (n : Nat) (r : CRing) : (s.setCring n r).swc = s.swc := (rfl)
@[simp] theorem State.setCring_tbl (s : State) (n : Nat) (r : CRing) : (s.setCring n r).tbl = s.tbl := (rfl)
@[simp] theorem State.setCring_xpt (s : State) (n : Nat) (r : CRing) : (s.setCring n r).xpt = s.xpt := (rfl)
@[simp] theorem State.setCring_qos (s : State) (n : Nat) (r : CRing) : (s.setCring n r).qos = s.qos := (rfl)
@[simp] theorem State.setCring_cmdb (s : State) (n : Nat) (r : CRing) : (s.setCring n r).cmdb = s.cmdb := (rfl)
@[simp] theorem State.setCring_lay (s : State) (n : Nat) (r : CRing) : (s.setCring n r).lay = s.lay := (rfl)
@[simp] theorem State.setCring_reb (s : State) (n : Nat) (r : CRing) : (s.setCring n r).reb = s.reb := (rfl)
@[simp] theorem State.setCring_sbg (s : State) (n : Nat) (r : CRing) : (s.setCring n r).sbg = s.sbg := (rfl)
@[simp] theorem State.setCring_drv (s : State) (n : Nat) (r : CRing) : (s.setCring n r).drv = s.drv := (rfl)
@[simp] theorem State.setCring_str (s : State) (n : Nat) (r : CRing) : (s.setCring n r).str = s.str := (rfl)
@[simp] theorem State.setCring_hrn (s : State) (n : Nat) (r : CRing) : (s.setCring n r).hrn = s.hrn := (rfl)
@[simp] theorem State.setCring_htx (s : State) (n : Nat) (r : CRing) : (s.setCring n r).htx = s.htx := (rfl)
@[simp] theorem State.setCring_cph (s : State) (n : Nat) (r : CRing) : (s.setCring n r).cph = s.cph := (rfl)
@[simp] theorem State.setCring_sec (s : State) (n : Nat) (r : CRing) : (s.setCring n r).sec = s.sec := (rfl)
@[simp] theorem State.setCring_pwr (s : State) (n : Nat) (r : CRing) : (s.setCring n r).pwr = s.pwr := (rfl)
@[simp] theorem State.setCring_clk (s : State) (n : Nat) (r : CRing) : (s.setCring n r).clk = s.clk := (rfl)
@[simp] theorem State.setCring_tel (s : State) (n : Nat) (r : CRing) : (s.setCring n r).tel = s.tel := (rfl)
@[simp] theorem State.setCring_out (s : State) (n : Nat) (r : CRing) : (s.setCring n r).out = s.out := (rfl)
@[simp] theorem State.setCring_free (s : State) (n : Nat) (r : CRing) : (s.setCring n r).free = s.free := (rfl)
@[simp] theorem State.setCring_pending (s : State) (n : Nat) (r : CRing) : (s.setCring n r).pending = s.pending := (rfl)
@[simp] theorem State.setEring_regs (s : State) (n : Nat) (r : ERing) : (s.setEring n r).regs = s.regs := (rfl)
@[simp] theorem State.setEring_shadow (s : State) (n : Nat) (r : ERing) : (s.setEring n r).shadow = s.shadow := (rfl)
@[simp] theorem State.setEring_staged (s : State) (n : Nat) (r : ERing) : (s.setEring n r).staged = s.staged := (rfl)
@[simp] theorem State.setEring_mem (s : State) (n : Nat) (r : ERing) : (s.setEring n r).mem = s.mem := (rfl)
@[simp] theorem State.setEring_glb (s : State) (n : Nat) (r : ERing) : (s.setEring n r).glb = s.glb := (rfl)
@[simp] theorem State.setEring_tim (s : State) (n : Nat) (r : ERing) : (s.setEring n r).tim = s.tim := (rfl)
@[simp] theorem State.setEring_evt (s : State) (n : Nat) (r : ERing) : (s.setEring n r).evt = s.evt := (rfl)
@[simp] theorem State.setEring_tck (s : State) (n : Nat) (r : ERing) : (s.setEring n r).tck = s.tck := (rfl)
@[simp] theorem State.setEring_net (s : State) (n : Nat) (r : ERing) : (s.setEring n r).net = s.net := (rfl)
@[simp] theorem State.setEring_swc (s : State) (n : Nat) (r : ERing) : (s.setEring n r).swc = s.swc := (rfl)
@[simp] theorem State.setEring_tbl (s : State) (n : Nat) (r : ERing) : (s.setEring n r).tbl = s.tbl := (rfl)
@[simp] theorem State.setEring_xpt (s : State) (n : Nat) (r : ERing) : (s.setEring n r).xpt = s.xpt := (rfl)
@[simp] theorem State.setEring_qos (s : State) (n : Nat) (r : ERing) : (s.setEring n r).qos = s.qos := (rfl)
@[simp] theorem State.setEring_cmdb (s : State) (n : Nat) (r : ERing) : (s.setEring n r).cmdb = s.cmdb := (rfl)
@[simp] theorem State.setEring_lay (s : State) (n : Nat) (r : ERing) : (s.setEring n r).lay = s.lay := (rfl)
@[simp] theorem State.setEring_reb (s : State) (n : Nat) (r : ERing) : (s.setEring n r).reb = s.reb := (rfl)
@[simp] theorem State.setEring_sbg (s : State) (n : Nat) (r : ERing) : (s.setEring n r).sbg = s.sbg := (rfl)
@[simp] theorem State.setEring_drv (s : State) (n : Nat) (r : ERing) : (s.setEring n r).drv = s.drv := (rfl)
@[simp] theorem State.setEring_str (s : State) (n : Nat) (r : ERing) : (s.setEring n r).str = s.str := (rfl)
@[simp] theorem State.setEring_hrn (s : State) (n : Nat) (r : ERing) : (s.setEring n r).hrn = s.hrn := (rfl)
@[simp] theorem State.setEring_htx (s : State) (n : Nat) (r : ERing) : (s.setEring n r).htx = s.htx := (rfl)
@[simp] theorem State.setEring_cph (s : State) (n : Nat) (r : ERing) : (s.setEring n r).cph = s.cph := (rfl)
@[simp] theorem State.setEring_sec (s : State) (n : Nat) (r : ERing) : (s.setEring n r).sec = s.sec := (rfl)
@[simp] theorem State.setEring_pwr (s : State) (n : Nat) (r : ERing) : (s.setEring n r).pwr = s.pwr := (rfl)
@[simp] theorem State.setEring_clk (s : State) (n : Nat) (r : ERing) : (s.setEring n r).clk = s.clk := (rfl)
@[simp] theorem State.setEring_tel (s : State) (n : Nat) (r : ERing) : (s.setEring n r).tel = s.tel := (rfl)
@[simp] theorem State.setEring_out (s : State) (n : Nat) (r : ERing) : (s.setEring n r).out = s.out := (rfl)
@[simp] theorem State.setEring_free (s : State) (n : Nat) (r : ERing) : (s.setEring n r).free = s.free := (rfl)
@[simp] theorem State.setEring_pending (s : State) (n : Nat) (r : ERing) : (s.setEring n r).pending = s.pending := (rfl)
theorem State.writeEntry_frame (s : State) (n : Nat) (mk : Bool → Entry) (u : Bool) : s.writeEntry n mk u =
    { s with ctl := (s.writeEntry n mk u).ctl, out := (s.writeEntry n mk u).out } := by
  unfold State.writeEntry; dsimp only; split_ifs <;> rfl
@[simp] theorem State.writeEntry_regs (s : State) (n : Nat) (mk : Bool → Entry) (u : Bool) : (s.writeEntry n mk u).regs = s.regs := by rw [State.writeEntry_frame]
@[simp] theorem State.writeEntry_shadow (s : State) (n : Nat) (mk : Bool → Entry) (u : Bool) : (s.writeEntry n mk u).shadow = s.shadow := by rw [State.writeEntry_frame]
@[simp] theorem State.writeEntry_staged (s : State) (n : Nat) (mk : Bool → Entry) (u : Bool) : (s.writeEntry n mk u).staged = s.staged := by rw [State.writeEntry_frame]
@[simp] theorem State.writeEntry_mem (s : State) (n : Nat) (mk : Bool → Entry) (u : Bool) : (s.writeEntry n mk u).mem = s.mem := by rw [State.writeEntry_frame]
@[simp] theorem State.writeEntry_glb (s : State) (n : Nat) (mk : Bool → Entry) (u : Bool) : (s.writeEntry n mk u).glb = s.glb := by rw [State.writeEntry_frame]
@[simp] theorem State.writeEntry_tim (s : State) (n : Nat) (mk : Bool → Entry) (u : Bool) : (s.writeEntry n mk u).tim = s.tim := by rw [State.writeEntry_frame]
@[simp] theorem State.writeEntry_evt (s : State) (n : Nat) (mk : Bool → Entry) (u : Bool) : (s.writeEntry n mk u).evt = s.evt := by rw [State.writeEntry_frame]
@[simp] theorem State.writeEntry_tck (s : State) (n : Nat) (mk : Bool → Entry) (u : Bool) : (s.writeEntry n mk u).tck = s.tck := by rw [State.writeEntry_frame]
@[simp] theorem State.writeEntry_net (s : State) (n : Nat) (mk : Bool → Entry) (u : Bool) : (s.writeEntry n mk u).net = s.net := by rw [State.writeEntry_frame]
@[simp] theorem State.writeEntry_swc (s : State) (n : Nat) (mk : Bool → Entry) (u : Bool) : (s.writeEntry n mk u).swc = s.swc := by rw [State.writeEntry_frame]
@[simp] theorem State.writeEntry_tbl (s : State) (n : Nat) (mk : Bool → Entry) (u : Bool) : (s.writeEntry n mk u).tbl = s.tbl := by rw [State.writeEntry_frame]
@[simp] theorem State.writeEntry_xpt (s : State) (n : Nat) (mk : Bool → Entry) (u : Bool) : (s.writeEntry n mk u).xpt = s.xpt := by rw [State.writeEntry_frame]
@[simp] theorem State.writeEntry_qos (s : State) (n : Nat) (mk : Bool → Entry) (u : Bool) : (s.writeEntry n mk u).qos = s.qos := by rw [State.writeEntry_frame]
@[simp] theorem State.writeEntry_cmdb (s : State) (n : Nat) (mk : Bool → Entry) (u : Bool) : (s.writeEntry n mk u).cmdb = s.cmdb := by rw [State.writeEntry_frame]
@[simp] theorem State.writeEntry_lay (s : State) (n : Nat) (mk : Bool → Entry) (u : Bool) : (s.writeEntry n mk u).lay = s.lay := by rw [State.writeEntry_frame]
@[simp] theorem State.writeEntry_reb (s : State) (n : Nat) (mk : Bool → Entry) (u : Bool) : (s.writeEntry n mk u).reb = s.reb := by rw [State.writeEntry_frame]
@[simp] theorem State.writeEntry_sbg (s : State) (n : Nat) (mk : Bool → Entry) (u : Bool) : (s.writeEntry n mk u).sbg = s.sbg := by rw [State.writeEntry_frame]
@[simp] theorem State.writeEntry_drv (s : State) (n : Nat) (mk : Bool → Entry) (u : Bool) : (s.writeEntry n mk u).drv = s.drv := by rw [State.writeEntry_frame]
@[simp] theorem State.writeEntry_str (s : State) (n : Nat) (mk : Bool → Entry) (u : Bool) : (s.writeEntry n mk u).str = s.str := by rw [State.writeEntry_frame]
@[simp] theorem State.writeEntry_hrn (s : State) (n : Nat) (mk : Bool → Entry) (u : Bool) : (s.writeEntry n mk u).hrn = s.hrn := by rw [State.writeEntry_frame]
@[simp] theorem State.writeEntry_htx (s : State) (n : Nat) (mk : Bool → Entry) (u : Bool) : (s.writeEntry n mk u).htx = s.htx := by rw [State.writeEntry_frame]
@[simp] theorem State.writeEntry_cph (s : State) (n : Nat) (mk : Bool → Entry) (u : Bool) : (s.writeEntry n mk u).cph = s.cph := by rw [State.writeEntry_frame]
@[simp] theorem State.writeEntry_sec (s : State) (n : Nat) (mk : Bool → Entry) (u : Bool) : (s.writeEntry n mk u).sec = s.sec := by rw [State.writeEntry_frame]
@[simp] theorem State.writeEntry_pwr (s : State) (n : Nat) (mk : Bool → Entry) (u : Bool) : (s.writeEntry n mk u).pwr = s.pwr := by rw [State.writeEntry_frame]
@[simp] theorem State.writeEntry_clk (s : State) (n : Nat) (mk : Bool → Entry) (u : Bool) : (s.writeEntry n mk u).clk = s.clk := by rw [State.writeEntry_frame]
@[simp] theorem State.writeEntry_tel (s : State) (n : Nat) (mk : Bool → Entry) (u : Bool) : (s.writeEntry n mk u).tel = s.tel := by rw [State.writeEntry_frame]
@[simp] theorem State.writeEntry_free (s : State) (n : Nat) (mk : Bool → Entry) (u : Bool) : (s.writeEntry n mk u).free = s.free := by rw [State.writeEntry_frame]
@[simp] theorem State.writeEntry_pending (s : State) (n : Nat) (mk : Bool → Entry) (u : Bool) : (s.writeEntry n mk u).pending = s.pending := by rw [State.writeEntry_frame]
@[simp] theorem State.writeCompletion_regs (s : State) (n : Nat) (x : Completion) : (s.writeCompletion n x).regs = s.regs := by
 unfold State.writeCompletion; simp
@[simp] theorem State.writeCompletion_shadow (s : State) (n : Nat) (x : Completion) : (s.writeCompletion n x).shadow = s.shadow := by
 unfold State.writeCompletion; simp
@[simp] theorem State.writeCompletion_staged (s : State) (n : Nat) (x : Completion) : (s.writeCompletion n x).staged = s.staged := by
 unfold State.writeCompletion; simp
@[simp] theorem State.writeCompletion_mem (s : State) (n : Nat) (x : Completion) : (s.writeCompletion n x).mem = s.mem := by
 unfold State.writeCompletion; simp
@[simp] theorem State.writeCompletion_glb (s : State) (n : Nat) (x : Completion) : (s.writeCompletion n x).glb = s.glb := by
 unfold State.writeCompletion; simp
@[simp] theorem State.writeCompletion_tim (s : State) (n : Nat) (x : Completion) : (s.writeCompletion n x).tim = s.tim := by
 unfold State.writeCompletion; simp
@[simp] theorem State.writeCompletion_evt (s : State) (n : Nat) (x : Completion) : (s.writeCompletion n x).evt = s.evt := by
 unfold State.writeCompletion; simp
@[simp] theorem State.writeCompletion_tck (s : State) (n : Nat) (x : Completion) : (s.writeCompletion n x).tck = s.tck := by
 unfold State.writeCompletion; simp
@[simp] theorem State.writeCompletion_net (s : State) (n : Nat) (x : Completion) : (s.writeCompletion n x).net = s.net := by
 unfold State.writeCompletion; simp
@[simp] theorem State.writeCompletion_swc (s : State) (n : Nat) (x : Completion) : (s.writeCompletion n x).swc = s.swc := by
 unfold State.writeCompletion; simp
@[simp] theorem State.writeCompletion_tbl (s : State) (n : Nat) (x : Completion) : (s.writeCompletion n x).tbl = s.tbl := by
 unfold State.writeCompletion; simp
@[simp] theorem State.writeCompletion_xpt (s : State) (n : Nat) (x : Completion) : (s.writeCompletion n x).xpt = s.xpt := by
 unfold State.writeCompletion; simp
@[simp] theorem State.writeCompletion_qos (s : State) (n : Nat) (x : Completion) : (s.writeCompletion n x).qos = s.qos := by
 unfold State.writeCompletion; simp
@[simp] theorem State.writeCompletion_cmdb (s : State) (n : Nat) (x : Completion) : (s.writeCompletion n x).cmdb = s.cmdb := by
 unfold State.writeCompletion; simp
@[simp] theorem State.writeCompletion_lay (s : State) (n : Nat) (x : Completion) : (s.writeCompletion n x).lay = s.lay := by
 unfold State.writeCompletion; simp
@[simp] theorem State.writeCompletion_reb (s : State) (n : Nat) (x : Completion) : (s.writeCompletion n x).reb = s.reb := by
 unfold State.writeCompletion; simp
@[simp] theorem State.writeCompletion_sbg (s : State) (n : Nat) (x : Completion) : (s.writeCompletion n x).sbg = s.sbg := by
 unfold State.writeCompletion; simp
@[simp] theorem State.writeCompletion_drv (s : State) (n : Nat) (x : Completion) : (s.writeCompletion n x).drv = s.drv := by
 unfold State.writeCompletion; simp
@[simp] theorem State.writeCompletion_str (s : State) (n : Nat) (x : Completion) : (s.writeCompletion n x).str = s.str := by
 unfold State.writeCompletion; simp
@[simp] theorem State.writeCompletion_hrn (s : State) (n : Nat) (x : Completion) : (s.writeCompletion n x).hrn = s.hrn := by
 unfold State.writeCompletion; simp
@[simp] theorem State.writeCompletion_htx (s : State) (n : Nat) (x : Completion) : (s.writeCompletion n x).htx = s.htx := by
 unfold State.writeCompletion; simp
@[simp] theorem State.writeCompletion_cph (s : State) (n : Nat) (x : Completion) : (s.writeCompletion n x).cph = s.cph := by
 unfold State.writeCompletion; simp
@[simp] theorem State.writeCompletion_sec (s : State) (n : Nat) (x : Completion) : (s.writeCompletion n x).sec = s.sec := by
 unfold State.writeCompletion; simp
@[simp] theorem State.writeCompletion_pwr (s : State) (n : Nat) (x : Completion) : (s.writeCompletion n x).pwr = s.pwr := by
 unfold State.writeCompletion; simp
@[simp] theorem State.writeCompletion_clk (s : State) (n : Nat) (x : Completion) : (s.writeCompletion n x).clk = s.clk := by
 unfold State.writeCompletion; simp
@[simp] theorem State.writeCompletion_tel (s : State) (n : Nat) (x : Completion) : (s.writeCompletion n x).tel = s.tel := by
 unfold State.writeCompletion; simp
@[simp] theorem State.writeCompletion_free (s : State) (n : Nat) (x : Completion) : (s.writeCompletion n x).free = s.free := by
 unfold State.writeCompletion; simp
@[simp] theorem State.writeCompletion_pending (s : State) (n : Nat) (x : Completion) : (s.writeCompletion n x).pending = s.pending := by
 unfold State.writeCompletion; simp
@[simp] theorem State.postCompletion_regs (s : State) (n : Nat) (x : Completion) : (s.postCompletion n x).regs = s.regs := by
 unfold State.postCompletion; dsimp only; split_ifs <;> simp
@[simp] theorem State.postCompletion_shadow (s : State) (n : Nat) (x : Completion) : (s.postCompletion n x).shadow = s.shadow := by
 unfold State.postCompletion; dsimp only; split_ifs <;> simp
@[simp] theorem State.postCompletion_staged (s : State) (n : Nat) (x : Completion) : (s.postCompletion n x).staged = s.staged := by
 unfold State.postCompletion; dsimp only; split_ifs <;> simp
@[simp] theorem State.postCompletion_mem (s : State) (n : Nat) (x : Completion) : (s.postCompletion n x).mem = s.mem := by
 unfold State.postCompletion; dsimp only; split_ifs <;> simp
@[simp] theorem State.postCompletion_glb (s : State) (n : Nat) (x : Completion) : (s.postCompletion n x).glb = s.glb := by
 unfold State.postCompletion; dsimp only; split_ifs <;> simp
@[simp] theorem State.postCompletion_tim (s : State) (n : Nat) (x : Completion) : (s.postCompletion n x).tim = s.tim := by
 unfold State.postCompletion; dsimp only; split_ifs <;> simp
@[simp] theorem State.postCompletion_evt (s : State) (n : Nat) (x : Completion) : (s.postCompletion n x).evt = s.evt := by
 unfold State.postCompletion; dsimp only; split_ifs <;> simp
@[simp] theorem State.postCompletion_tck (s : State) (n : Nat) (x : Completion) : (s.postCompletion n x).tck = s.tck := by
 unfold State.postCompletion; dsimp only; split_ifs <;> simp
@[simp] theorem State.postCompletion_net (s : State) (n : Nat) (x : Completion) : (s.postCompletion n x).net = s.net := by
 unfold State.postCompletion; dsimp only; split_ifs <;> simp
@[simp] theorem State.postCompletion_swc (s : State) (n : Nat) (x : Completion) : (s.postCompletion n x).swc = s.swc := by
 unfold State.postCompletion; dsimp only; split_ifs <;> simp
@[simp] theorem State.postCompletion_tbl (s : State) (n : Nat) (x : Completion) : (s.postCompletion n x).tbl = s.tbl := by
 unfold State.postCompletion; dsimp only; split_ifs <;> simp
@[simp] theorem State.postCompletion_xpt (s : State) (n : Nat) (x : Completion) : (s.postCompletion n x).xpt = s.xpt := by
 unfold State.postCompletion; dsimp only; split_ifs <;> simp
@[simp] theorem State.postCompletion_qos (s : State) (n : Nat) (x : Completion) : (s.postCompletion n x).qos = s.qos := by
 unfold State.postCompletion; dsimp only; split_ifs <;> simp
@[simp] theorem State.postCompletion_cmdb (s : State) (n : Nat) (x : Completion) : (s.postCompletion n x).cmdb = s.cmdb := by
 unfold State.postCompletion; dsimp only; split_ifs <;> simp
@[simp] theorem State.postCompletion_lay (s : State) (n : Nat) (x : Completion) : (s.postCompletion n x).lay = s.lay := by
 unfold State.postCompletion; dsimp only; split_ifs <;> simp
@[simp] theorem State.postCompletion_reb (s : State) (n : Nat) (x : Completion) : (s.postCompletion n x).reb = s.reb := by
 unfold State.postCompletion; dsimp only; split_ifs <;> simp
@[simp] theorem State.postCompletion_sbg (s : State) (n : Nat) (x : Completion) : (s.postCompletion n x).sbg = s.sbg := by
 unfold State.postCompletion; dsimp only; split_ifs <;> simp
@[simp] theorem State.postCompletion_drv (s : State) (n : Nat) (x : Completion) : (s.postCompletion n x).drv = s.drv := by
 unfold State.postCompletion; dsimp only; split_ifs <;> simp
@[simp] theorem State.postCompletion_str (s : State) (n : Nat) (x : Completion) : (s.postCompletion n x).str = s.str := by
 unfold State.postCompletion; dsimp only; split_ifs <;> simp
@[simp] theorem State.postCompletion_hrn (s : State) (n : Nat) (x : Completion) : (s.postCompletion n x).hrn = s.hrn := by
 unfold State.postCompletion; dsimp only; split_ifs <;> simp
@[simp] theorem State.postCompletion_htx (s : State) (n : Nat) (x : Completion) : (s.postCompletion n x).htx = s.htx := by
 unfold State.postCompletion; dsimp only; split_ifs <;> simp
@[simp] theorem State.postCompletion_cph (s : State) (n : Nat) (x : Completion) : (s.postCompletion n x).cph = s.cph := by
 unfold State.postCompletion; dsimp only; split_ifs <;> simp
@[simp] theorem State.postCompletion_sec (s : State) (n : Nat) (x : Completion) : (s.postCompletion n x).sec = s.sec := by
 unfold State.postCompletion; dsimp only; split_ifs <;> simp
@[simp] theorem State.postCompletion_pwr (s : State) (n : Nat) (x : Completion) : (s.postCompletion n x).pwr = s.pwr := by
 unfold State.postCompletion; dsimp only; split_ifs <;> simp
@[simp] theorem State.postCompletion_clk (s : State) (n : Nat) (x : Completion) : (s.postCompletion n x).clk = s.clk := by
 unfold State.postCompletion; dsimp only; split_ifs <;> simp
@[simp] theorem State.postCompletion_tel (s : State) (n : Nat) (x : Completion) : (s.postCompletion n x).tel = s.tel := by
 unfold State.postCompletion; dsimp only; split_ifs <;> simp
@[simp] theorem State.postCompletion_free (s : State) (n : Nat) (x : Completion) : (s.postCompletion n x).free = s.free := by
 unfold State.postCompletion; dsimp only; split_ifs <;> simp
@[simp] theorem State.postCompletion_pending (s : State) (n : Nat) (x : Completion) : (s.postCompletion n x).pending = s.pending := by
 unfold State.postCompletion; dsimp only; split_ifs <;> simp
@[simp] theorem State.complete_regs (s : State) (c : Started) (st : MStatus) (a b : Nat) : (s.complete c st a b).regs = s.regs := by
 unfold State.complete; dsimp only; split_ifs <;> simp
@[simp] theorem State.complete_shadow (s : State) (c : Started) (st : MStatus) (a b : Nat) : (s.complete c st a b).shadow = s.shadow := by
 unfold State.complete; dsimp only; split_ifs <;> simp
@[simp] theorem State.complete_staged (s : State) (c : Started) (st : MStatus) (a b : Nat) : (s.complete c st a b).staged = s.staged := by
 unfold State.complete; dsimp only; split_ifs <;> simp
@[simp] theorem State.complete_mem (s : State) (c : Started) (st : MStatus) (a b : Nat) : (s.complete c st a b).mem = s.mem := by
 unfold State.complete; dsimp only; split_ifs <;> simp
@[simp] theorem State.complete_glb (s : State) (c : Started) (st : MStatus) (a b : Nat) : (s.complete c st a b).glb = s.glb := by
 unfold State.complete; dsimp only; split_ifs <;> simp
@[simp] theorem State.complete_tim (s : State) (c : Started) (st : MStatus) (a b : Nat) : (s.complete c st a b).tim = s.tim := by
 unfold State.complete; dsimp only; split_ifs <;> simp
@[simp] theorem State.complete_evt (s : State) (c : Started) (st : MStatus) (a b : Nat) : (s.complete c st a b).evt = s.evt := by
 unfold State.complete; dsimp only; split_ifs <;> simp
@[simp] theorem State.complete_tck (s : State) (c : Started) (st : MStatus) (a b : Nat) : (s.complete c st a b).tck = s.tck := by
 unfold State.complete; dsimp only; split_ifs <;> simp
@[simp] theorem State.complete_net (s : State) (c : Started) (st : MStatus) (a b : Nat) : (s.complete c st a b).net = s.net := by
 unfold State.complete; dsimp only; split_ifs <;> simp
@[simp] theorem State.complete_swc (s : State) (c : Started) (st : MStatus) (a b : Nat) : (s.complete c st a b).swc = s.swc := by
 unfold State.complete; dsimp only; split_ifs <;> simp
@[simp] theorem State.complete_tbl (s : State) (c : Started) (st : MStatus) (a b : Nat) : (s.complete c st a b).tbl = s.tbl := by
 unfold State.complete; dsimp only; split_ifs <;> simp
@[simp] theorem State.complete_xpt (s : State) (c : Started) (st : MStatus) (a b : Nat) : (s.complete c st a b).xpt = s.xpt := by
 unfold State.complete; dsimp only; split_ifs <;> simp
@[simp] theorem State.complete_qos (s : State) (c : Started) (st : MStatus) (a b : Nat) : (s.complete c st a b).qos = s.qos := by
 unfold State.complete; dsimp only; split_ifs <;> simp
@[simp] theorem State.complete_cmdb (s : State) (c : Started) (st : MStatus) (a b : Nat) : (s.complete c st a b).cmdb = s.cmdb := by
 unfold State.complete; dsimp only; split_ifs <;> simp
@[simp] theorem State.complete_lay (s : State) (c : Started) (st : MStatus) (a b : Nat) : (s.complete c st a b).lay = s.lay := by
 unfold State.complete; dsimp only; split_ifs <;> simp
@[simp] theorem State.complete_reb (s : State) (c : Started) (st : MStatus) (a b : Nat) : (s.complete c st a b).reb = s.reb := by
 unfold State.complete; dsimp only; split_ifs <;> simp
@[simp] theorem State.complete_sbg (s : State) (c : Started) (st : MStatus) (a b : Nat) : (s.complete c st a b).sbg = s.sbg := by
 unfold State.complete; dsimp only; split_ifs <;> simp
@[simp] theorem State.complete_drv (s : State) (c : Started) (st : MStatus) (a b : Nat) : (s.complete c st a b).drv = s.drv := by
 unfold State.complete; dsimp only; split_ifs <;> simp
@[simp] theorem State.complete_str (s : State) (c : Started) (st : MStatus) (a b : Nat) : (s.complete c st a b).str = s.str := by
 unfold State.complete; dsimp only; split_ifs <;> simp
@[simp] theorem State.complete_hrn (s : State) (c : Started) (st : MStatus) (a b : Nat) : (s.complete c st a b).hrn = s.hrn := by
 unfold State.complete; dsimp only; split_ifs <;> simp
@[simp] theorem State.complete_cph (s : State) (c : Started) (st : MStatus) (a b : Nat) : (s.complete c st a b).cph = s.cph := by
 unfold State.complete; dsimp only; split_ifs <;> simp
@[simp] theorem State.complete_sec (s : State) (c : Started) (st : MStatus) (a b : Nat) : (s.complete c st a b).sec = s.sec := by
 unfold State.complete; dsimp only; split_ifs <;> simp
@[simp] theorem State.complete_pwr (s : State) (c : Started) (st : MStatus) (a b : Nat) : (s.complete c st a b).pwr = s.pwr := by
 unfold State.complete; dsimp only; split_ifs <;> simp
@[simp] theorem State.complete_clk (s : State) (c : Started) (st : MStatus) (a b : Nat) : (s.complete c st a b).clk = s.clk := by
 unfold State.complete; dsimp only; split_ifs <;> simp
@[simp] theorem State.complete_tel (s : State) (c : Started) (st : MStatus) (a b : Nat) : (s.complete c st a b).tel = s.tel := by
 unfold State.complete; dsimp only; split_ifs <;> simp
@[simp] theorem State.complete_free (s : State) (c : Started) (st : MStatus) (a b : Nat) : (s.complete c st a b).free = s.free := by
 unfold State.complete; dsimp only; split_ifs <;> simp
@[simp] theorem State.complete_pending (s : State) (c : Started) (st : MStatus) (a b : Nat) : (s.complete c st a b).pending = s.pending := by
 unfold State.complete; dsimp only; split_ifs <;> simp
@[simp] theorem State.updStarted_regs (s : State) (i : Nat) (f : Started → Started) : (s.updStarted i f).regs = s.regs := (rfl)
@[simp] theorem State.updStarted_shadow (s : State) (i : Nat) (f : Started → Started) : (s.updStarted i f).shadow = s.shadow := (rfl)
@[simp] theorem State.updStarted_staged (s : State) (i : Nat) (f : Started → Started) : (s.updStarted i f).staged = s.staged := (rfl)
@[simp] theorem State.updStarted_mem (s : State) (i : Nat) (f : Started → Started) : (s.updStarted i f).mem = s.mem := (rfl)
@[simp] theorem State.updStarted_glb (s : State) (i : Nat) (f : Started → Started) : (s.updStarted i f).glb = s.glb := (rfl)
@[simp] theorem State.updStarted_tim (s : State) (i : Nat) (f : Started → Started) : (s.updStarted i f).tim = s.tim := (rfl)
@[simp] theorem State.updStarted_evt (s : State) (i : Nat) (f : Started → Started) : (s.updStarted i f).evt = s.evt := (rfl)
@[simp] theorem State.updStarted_tck (s : State) (i : Nat) (f : Started → Started) : (s.updStarted i f).tck = s.tck := (rfl)
@[simp] theorem State.updStarted_net (s : State) (i : Nat) (f : Started → Started) : (s.updStarted i f).net = s.net := (rfl)
@[simp] theorem State.updStarted_swc (s : State) (i : Nat) (f : Started → Started) : (s.updStarted i f).swc = s.swc := (rfl)
@[simp] theorem State.updStarted_tbl (s : State) (i : Nat) (f : Started → Started) : (s.updStarted i f).tbl = s.tbl := (rfl)
@[simp] theorem State.updStarted_xpt (s : State) (i : Nat) (f : Started → Started) : (s.updStarted i f).xpt = s.xpt := (rfl)
@[simp] theorem State.updStarted_qos (s : State) (i : Nat) (f : Started → Started) : (s.updStarted i f).qos = s.qos := (rfl)
@[simp] theorem State.updStarted_cmdb (s : State) (i : Nat) (f : Started → Started) : (s.updStarted i f).cmdb = s.cmdb := (rfl)
@[simp] theorem State.updStarted_lay (s : State) (i : Nat) (f : Started → Started) : (s.updStarted i f).lay = s.lay := (rfl)
@[simp] theorem State.updStarted_reb (s : State) (i : Nat) (f : Started → Started) : (s.updStarted i f).reb = s.reb := (rfl)
@[simp] theorem State.updStarted_sbg (s : State) (i : Nat) (f : Started → Started) : (s.updStarted i f).sbg = s.sbg := (rfl)
@[simp] theorem State.updStarted_drv (s : State) (i : Nat) (f : Started → Started) : (s.updStarted i f).drv = s.drv := (rfl)
@[simp] theorem State.updStarted_str (s : State) (i : Nat) (f : Started → Started) : (s.updStarted i f).str = s.str := (rfl)
@[simp] theorem State.updStarted_hrn (s : State) (i : Nat) (f : Started → Started) : (s.updStarted i f).hrn = s.hrn := (rfl)
@[simp] theorem State.updStarted_htx (s : State) (i : Nat) (f : Started → Started) : (s.updStarted i f).htx = s.htx := (rfl)
@[simp] theorem State.updStarted_cph (s : State) (i : Nat) (f : Started → Started) : (s.updStarted i f).cph = s.cph := (rfl)
@[simp] theorem State.updStarted_sec (s : State) (i : Nat) (f : Started → Started) : (s.updStarted i f).sec = s.sec := (rfl)
@[simp] theorem State.updStarted_pwr (s : State) (i : Nat) (f : Started → Started) : (s.updStarted i f).pwr = s.pwr := (rfl)
@[simp] theorem State.updStarted_clk (s : State) (i : Nat) (f : Started → Started) : (s.updStarted i f).clk = s.clk := (rfl)
@[simp] theorem State.updStarted_tel (s : State) (i : Nat) (f : Started → Started) : (s.updStarted i f).tel = s.tel := (rfl)
@[simp] theorem State.updStarted_out (s : State) (i : Nat) (f : Started → Started) : (s.updStarted i f).out = s.out := (rfl)
@[simp] theorem State.updStarted_free (s : State) (i : Nat) (f : Started → Started) : (s.updStarted i f).free = s.free := (rfl)
@[simp] theorem State.updStarted_pending (s : State) (i : Nat) (f : Started → Started) : (s.updStarted i f).pending = s.pending := (rfl)
@[simp] theorem State.clearMirror_regs (s : State) : (s.clearMirror).regs = s.regs := (rfl)
@[simp] theorem State.clearMirror_shadow (s : State) : (s.clearMirror).shadow = s.shadow := (rfl)
@[simp] theorem State.clearMirror_staged (s : State) : (s.clearMirror).staged = s.staged := (rfl)
@[simp] theorem State.clearMirror_mem (s : State) : (s.clearMirror).mem = s.mem := (rfl)
@[simp] theorem State.clearMirror_glb (s : State) : (s.clearMirror).glb = s.glb := (rfl)
@[simp] theorem State.clearMirror_tim (s : State) : (s.clearMirror).tim = s.tim := (rfl)
@[simp] theorem State.clearMirror_ctl (s : State) : (s.clearMirror).ctl = s.ctl := (rfl)
@[simp] theorem State.clearMirror_evt (s : State) : (s.clearMirror).evt = s.evt := (rfl)
@[simp] theorem State.clearMirror_tck (s : State) : (s.clearMirror).tck = s.tck := (rfl)
@[simp] theorem State.clearMirror_net (s : State) : (s.clearMirror).net = s.net := (rfl)
@[simp] theorem State.clearMirror_swc (s : State) : (s.clearMirror).swc = s.swc := (rfl)
@[simp] theorem State.clearMirror_tbl (s : State) : (s.clearMirror).tbl = s.tbl := (rfl)
@[simp] theorem State.clearMirror_xpt (s : State) : (s.clearMirror).xpt = s.xpt := (rfl)
@[simp] theorem State.clearMirror_qos (s : State) : (s.clearMirror).qos = s.qos := (rfl)
@[simp] theorem State.clearMirror_lay (s : State) : (s.clearMirror).lay = s.lay := (rfl)
@[simp] theorem State.clearMirror_reb (s : State) : (s.clearMirror).reb = s.reb := (rfl)
@[simp] theorem State.clearMirror_sbg (s : State) : (s.clearMirror).sbg = s.sbg := (rfl)
@[simp] theorem State.clearMirror_drv (s : State) : (s.clearMirror).drv = s.drv := (rfl)
@[simp] theorem State.clearMirror_str (s : State) : (s.clearMirror).str = s.str := (rfl)
@[simp] theorem State.clearMirror_hrn (s : State) : (s.clearMirror).hrn = s.hrn := (rfl)
@[simp] theorem State.clearMirror_htx (s : State) : (s.clearMirror).htx = s.htx := (rfl)
@[simp] theorem State.clearMirror_cph (s : State) : (s.clearMirror).cph = s.cph := (rfl)
@[simp] theorem State.clearMirror_sec (s : State) : (s.clearMirror).sec = s.sec := (rfl)
@[simp] theorem State.clearMirror_pwr (s : State) : (s.clearMirror).pwr = s.pwr := (rfl)
@[simp] theorem State.clearMirror_clk (s : State) : (s.clearMirror).clk = s.clk := (rfl)
@[simp] theorem State.clearMirror_tel (s : State) : (s.clearMirror).tel = s.tel := (rfl)
@[simp] theorem State.clearMirror_out (s : State) : (s.clearMirror).out = s.out := (rfl)
@[simp] theorem State.clearMirror_free (s : State) : (s.clearMirror).free = s.free := (rfl)
@[simp] theorem State.clearMirror_pending (s : State) : (s.clearMirror).pending = s.pending := (rfl)
@[simp] theorem State.lagDemote_regs (s : State) : (s.lagDemote).regs = s.regs := by
 unfold State.lagDemote; simp
@[simp] theorem State.lagDemote_shadow (s : State) : (s.lagDemote).shadow = s.shadow := by
 unfold State.lagDemote; simp
@[simp] theorem State.lagDemote_staged (s : State) : (s.lagDemote).staged = s.staged := by
 unfold State.lagDemote; simp
@[simp] theorem State.lagDemote_mem (s : State) : (s.lagDemote).mem = s.mem := by
 unfold State.lagDemote; simp
@[simp] theorem State.lagDemote_glb (s : State) : (s.lagDemote).glb = s.glb := by
 unfold State.lagDemote; simp
@[simp] theorem State.lagDemote_tim (s : State) : (s.lagDemote).tim = s.tim := by
 unfold State.lagDemote; simp
@[simp] theorem State.lagDemote_ctl (s : State) : (s.lagDemote).ctl = s.ctl := by
 unfold State.lagDemote; simp
@[simp] theorem State.lagDemote_tck (s : State) : (s.lagDemote).tck = s.tck := by
 unfold State.lagDemote; simp
@[simp] theorem State.lagDemote_net (s : State) : (s.lagDemote).net = s.net := by
 unfold State.lagDemote; simp
@[simp] theorem State.lagDemote_swc (s : State) : (s.lagDemote).swc = s.swc := by
 unfold State.lagDemote; simp
@[simp] theorem State.lagDemote_tbl (s : State) : (s.lagDemote).tbl = s.tbl := by
 unfold State.lagDemote; simp
@[simp] theorem State.lagDemote_xpt (s : State) : (s.lagDemote).xpt = s.xpt := by
 unfold State.lagDemote; simp
@[simp] theorem State.lagDemote_qos (s : State) : (s.lagDemote).qos = s.qos := by
 unfold State.lagDemote; simp
@[simp] theorem State.lagDemote_lay (s : State) : (s.lagDemote).lay = s.lay := by
 unfold State.lagDemote; simp
@[simp] theorem State.lagDemote_reb (s : State) : (s.lagDemote).reb = s.reb := by
 unfold State.lagDemote; simp
@[simp] theorem State.lagDemote_drv (s : State) : (s.lagDemote).drv = s.drv := by
 unfold State.lagDemote; simp
@[simp] theorem State.lagDemote_str (s : State) : (s.lagDemote).str = s.str := by
 unfold State.lagDemote; simp
@[simp] theorem State.lagDemote_cph (s : State) : (s.lagDemote).cph = s.cph := by
 unfold State.lagDemote; simp
@[simp] theorem State.lagDemote_sec (s : State) : (s.lagDemote).sec = s.sec := by
 unfold State.lagDemote; simp
@[simp] theorem State.lagDemote_pwr (s : State) : (s.lagDemote).pwr = s.pwr := by
 unfold State.lagDemote; simp
@[simp] theorem State.lagDemote_clk (s : State) : (s.lagDemote).clk = s.clk := by
 unfold State.lagDemote; simp
@[simp] theorem State.lagDemote_free (s : State) : (s.lagDemote).free = s.free := by
 unfold State.lagDemote; simp
@[simp] theorem State.lagDemote_pending (s : State) : (s.lagDemote).pending = s.pending := by
 unfold State.lagDemote; simp
@[simp] theorem State.order_regs (s : State) (n : Nat) (x : OrderKind) : ((s.order n x).1).regs = s.regs := by
 unfold State.order; dsimp only; split_ifs <;> simp
@[simp] theorem State.order_shadow (s : State) (n : Nat) (x : OrderKind) : ((s.order n x).1).shadow = s.shadow := by
 unfold State.order; dsimp only; split_ifs <;> simp
@[simp] theorem State.order_staged (s : State) (n : Nat) (x : OrderKind) : ((s.order n x).1).staged = s.staged := by
 unfold State.order; dsimp only; split_ifs <;> simp
@[simp] theorem State.order_mem (s : State) (n : Nat) (x : OrderKind) : ((s.order n x).1).mem = s.mem := by
 unfold State.order; dsimp only; split_ifs <;> simp
@[simp] theorem State.order_glb (s : State) (n : Nat) (x : OrderKind) : ((s.order n x).1).glb = s.glb := by
 unfold State.order; dsimp only; split_ifs <;> simp
@[simp] theorem State.order_tim (s : State) (n : Nat) (x : OrderKind) : ((s.order n x).1).tim = s.tim := by
 unfold State.order; dsimp only; split_ifs <;> simp
@[simp] theorem State.order_ctl (s : State) (n : Nat) (x : OrderKind) : ((s.order n x).1).ctl = s.ctl := by
 unfold State.order; dsimp only; split_ifs <;> simp
@[simp] theorem State.order_tck (s : State) (n : Nat) (x : OrderKind) : ((s.order n x).1).tck = s.tck := by
 unfold State.order; dsimp only; split_ifs <;> simp
@[simp] theorem State.order_net (s : State) (n : Nat) (x : OrderKind) : ((s.order n x).1).net = s.net := by
 unfold State.order; dsimp only; split_ifs <;> simp
@[simp] theorem State.order_swc (s : State) (n : Nat) (x : OrderKind) : ((s.order n x).1).swc = s.swc := by
 unfold State.order; dsimp only; split_ifs <;> simp
@[simp] theorem State.order_tbl (s : State) (n : Nat) (x : OrderKind) : ((s.order n x).1).tbl = s.tbl := by
 unfold State.order; dsimp only; split_ifs <;> simp
@[simp] theorem State.order_xpt (s : State) (n : Nat) (x : OrderKind) : ((s.order n x).1).xpt = s.xpt := by
 unfold State.order; dsimp only; split_ifs <;> simp
@[simp] theorem State.order_qos (s : State) (n : Nat) (x : OrderKind) : ((s.order n x).1).qos = s.qos := by
 unfold State.order; dsimp only; split_ifs <;> simp
@[simp] theorem State.order_lay (s : State) (n : Nat) (x : OrderKind) : ((s.order n x).1).lay = s.lay := by
 unfold State.order; dsimp only; split_ifs <;> simp
@[simp] theorem State.order_reb (s : State) (n : Nat) (x : OrderKind) : ((s.order n x).1).reb = s.reb := by
 unfold State.order; dsimp only; split_ifs <;> simp
@[simp] theorem State.order_drv (s : State) (n : Nat) (x : OrderKind) : ((s.order n x).1).drv = s.drv := by
 unfold State.order; dsimp only; split_ifs <;> simp
@[simp] theorem State.order_str (s : State) (n : Nat) (x : OrderKind) : ((s.order n x).1).str = s.str := by
 unfold State.order; dsimp only; split_ifs <;> simp
@[simp] theorem State.order_cph (s : State) (n : Nat) (x : OrderKind) : ((s.order n x).1).cph = s.cph := by
 unfold State.order; dsimp only; split_ifs <;> simp
@[simp] theorem State.order_sec (s : State) (n : Nat) (x : OrderKind) : ((s.order n x).1).sec = s.sec := by
 unfold State.order; dsimp only; split_ifs <;> simp
@[simp] theorem State.order_pwr (s : State) (n : Nat) (x : OrderKind) : ((s.order n x).1).pwr = s.pwr := by
 unfold State.order; dsimp only; split_ifs <;> simp
@[simp] theorem State.order_clk (s : State) (n : Nat) (x : OrderKind) : ((s.order n x).1).clk = s.clk := by
 unfold State.order; dsimp only; split_ifs <;> simp
@[simp] theorem State.order_free (s : State) (n : Nat) (x : OrderKind) : ((s.order n x).1).free = s.free := by
 unfold State.order; dsimp only; split_ifs <;> simp
@[simp] theorem State.order_pending (s : State) (n : Nat) (x : OrderKind) : ((s.order n x).1).pending = s.pending := by
 unfold State.order; dsimp only; split_ifs <;> simp
@[simp] theorem State.carryChange_regs (s : State) (m : Out) : (s.carryChange m).regs = s.regs := by
 unfold State.carryChange; simp
@[simp] theorem State.carryChange_shadow (s : State) (m : Out) : (s.carryChange m).shadow = s.shadow := by
 unfold State.carryChange; simp
@[simp] theorem State.carryChange_staged (s : State) (m : Out) : (s.carryChange m).staged = s.staged := by
 unfold State.carryChange; simp
@[simp] theorem State.carryChange_mem (s : State) (m : Out) : (s.carryChange m).mem = s.mem := by
 unfold State.carryChange; simp
@[simp] theorem State.carryChange_glb (s : State) (m : Out) : (s.carryChange m).glb = s.glb := by
 unfold State.carryChange; simp
@[simp] theorem State.carryChange_tim (s : State) (m : Out) : (s.carryChange m).tim = s.tim := by
 unfold State.carryChange; simp
@[simp] theorem State.carryChange_ctl (s : State) (m : Out) : (s.carryChange m).ctl = s.ctl := by
 unfold State.carryChange; simp
@[simp] theorem State.carryChange_tck (s : State) (m : Out) : (s.carryChange m).tck = s.tck := by
 unfold State.carryChange; simp
@[simp] theorem State.carryChange_net (s : State) (m : Out) : (s.carryChange m).net = s.net := by
 unfold State.carryChange; simp
@[simp] theorem State.carryChange_swc (s : State) (m : Out) : (s.carryChange m).swc = s.swc := by
 unfold State.carryChange; simp
@[simp] theorem State.carryChange_tbl (s : State) (m : Out) : (s.carryChange m).tbl = s.tbl := by
 unfold State.carryChange; simp
@[simp] theorem State.carryChange_xpt (s : State) (m : Out) : (s.carryChange m).xpt = s.xpt := by
 unfold State.carryChange; simp
@[simp] theorem State.carryChange_qos (s : State) (m : Out) : (s.carryChange m).qos = s.qos := by
 unfold State.carryChange; simp
@[simp] theorem State.carryChange_lay (s : State) (m : Out) : (s.carryChange m).lay = s.lay := by
 unfold State.carryChange; simp
@[simp] theorem State.carryChange_reb (s : State) (m : Out) : (s.carryChange m).reb = s.reb := by
 unfold State.carryChange; simp
@[simp] theorem State.carryChange_drv (s : State) (m : Out) : (s.carryChange m).drv = s.drv := by
 unfold State.carryChange; simp
@[simp] theorem State.carryChange_str (s : State) (m : Out) : (s.carryChange m).str = s.str := by
 unfold State.carryChange; simp
@[simp] theorem State.carryChange_cph (s : State) (m : Out) : (s.carryChange m).cph = s.cph := by
 unfold State.carryChange; simp
@[simp] theorem State.carryChange_sec (s : State) (m : Out) : (s.carryChange m).sec = s.sec := by
 unfold State.carryChange; simp
@[simp] theorem State.carryChange_pwr (s : State) (m : Out) : (s.carryChange m).pwr = s.pwr := by
 unfold State.carryChange; simp
@[simp] theorem State.carryChange_clk (s : State) (m : Out) : (s.carryChange m).clk = s.clk := by
 unfold State.carryChange; simp
@[simp] theorem State.carryChange_free (s : State) (m : Out) : (s.carryChange m).free = s.free := by
 unfold State.carryChange; simp
@[simp] theorem State.carryChange_pending (s : State) (m : Out) : (s.carryChange m).pending = s.pending := by
 unfold State.carryChange; simp
@[simp] theorem State.hold_regs (s : State) (i : Nat) : (s.hold i).regs = s.regs := (rfl)
@[simp] theorem State.hold_shadow (s : State) (i : Nat) : (s.hold i).shadow = s.shadow := (rfl)
@[simp] theorem State.hold_staged (s : State) (i : Nat) : (s.hold i).staged = s.staged := (rfl)
@[simp] theorem State.hold_mem (s : State) (i : Nat) : (s.hold i).mem = s.mem := (rfl)
@[simp] theorem State.hold_glb (s : State) (i : Nat) : (s.hold i).glb = s.glb := (rfl)
@[simp] theorem State.hold_tim (s : State) (i : Nat) : (s.hold i).tim = s.tim := (rfl)
@[simp] theorem State.hold_evt (s : State) (i : Nat) : (s.hold i).evt = s.evt := (rfl)
@[simp] theorem State.hold_tck (s : State) (i : Nat) : (s.hold i).tck = s.tck := (rfl)
@[simp] theorem State.hold_net (s : State) (i : Nat) : (s.hold i).net = s.net := (rfl)
@[simp] theorem State.hold_swc (s : State) (i : Nat) : (s.hold i).swc = s.swc := (rfl)
@[simp] theorem State.hold_tbl (s : State) (i : Nat) : (s.hold i).tbl = s.tbl := (rfl)
@[simp] theorem State.hold_xpt (s : State) (i : Nat) : (s.hold i).xpt = s.xpt := (rfl)
@[simp] theorem State.hold_qos (s : State) (i : Nat) : (s.hold i).qos = s.qos := (rfl)
@[simp] theorem State.hold_cmdb (s : State) (i : Nat) : (s.hold i).cmdb = s.cmdb := (rfl)
@[simp] theorem State.hold_lay (s : State) (i : Nat) : (s.hold i).lay = s.lay := (rfl)
@[simp] theorem State.hold_reb (s : State) (i : Nat) : (s.hold i).reb = s.reb := (rfl)
@[simp] theorem State.hold_sbg (s : State) (i : Nat) : (s.hold i).sbg = s.sbg := (rfl)
@[simp] theorem State.hold_drv (s : State) (i : Nat) : (s.hold i).drv = s.drv := (rfl)
@[simp] theorem State.hold_str (s : State) (i : Nat) : (s.hold i).str = s.str := (rfl)
@[simp] theorem State.hold_hrn (s : State) (i : Nat) : (s.hold i).hrn = s.hrn := (rfl)
@[simp] theorem State.hold_htx (s : State) (i : Nat) : (s.hold i).htx = s.htx := (rfl)
@[simp] theorem State.hold_cph (s : State) (i : Nat) : (s.hold i).cph = s.cph := (rfl)
@[simp] theorem State.hold_sec (s : State) (i : Nat) : (s.hold i).sec = s.sec := (rfl)
@[simp] theorem State.hold_pwr (s : State) (i : Nat) : (s.hold i).pwr = s.pwr := (rfl)
@[simp] theorem State.hold_clk (s : State) (i : Nat) : (s.hold i).clk = s.clk := (rfl)
@[simp] theorem State.hold_tel (s : State) (i : Nat) : (s.hold i).tel = s.tel := (rfl)
@[simp] theorem State.hold_out (s : State) (i : Nat) : (s.hold i).out = s.out := (rfl)
@[simp] theorem State.hold_free (s : State) (i : Nat) : (s.hold i).free = s.free := (rfl)
@[simp] theorem State.hold_pending (s : State) (i : Nat) : (s.hold i).pending = s.pending := (rfl)
@[simp] theorem State.carry_regs (s : State) (c : Started) : (s.carry c).regs = s.regs := by
 unfold State.carry; split_ifs <;> simp
@[simp] theorem State.carry_shadow (s : State) (c : Started) : (s.carry c).shadow = s.shadow := by
 unfold State.carry; split_ifs <;> simp
@[simp] theorem State.carry_staged (s : State) (c : Started) : (s.carry c).staged = s.staged := by
 unfold State.carry; split_ifs <;> simp
@[simp] theorem State.carry_mem (s : State) (c : Started) : (s.carry c).mem = s.mem := by
 unfold State.carry; split_ifs <;> simp
@[simp] theorem State.carry_glb (s : State) (c : Started) : (s.carry c).glb = s.glb := by
 unfold State.carry; split_ifs <;> simp
@[simp] theorem State.carry_tim (s : State) (c : Started) : (s.carry c).tim = s.tim := by
 unfold State.carry; split_ifs <;> simp
@[simp] theorem State.carry_tck (s : State) (c : Started) : (s.carry c).tck = s.tck := by
 unfold State.carry; split_ifs <;> simp
@[simp] theorem State.carry_net (s : State) (c : Started) : (s.carry c).net = s.net := by
 unfold State.carry; split_ifs <;> simp
@[simp] theorem State.carry_swc (s : State) (c : Started) : (s.carry c).swc = s.swc := by
 unfold State.carry; split_ifs <;> simp
@[simp] theorem State.carry_tbl (s : State) (c : Started) : (s.carry c).tbl = s.tbl := by
 unfold State.carry; split_ifs <;> simp
@[simp] theorem State.carry_xpt (s : State) (c : Started) : (s.carry c).xpt = s.xpt := by
 unfold State.carry; split_ifs <;> simp
@[simp] theorem State.carry_qos (s : State) (c : Started) : (s.carry c).qos = s.qos := by
 unfold State.carry; split_ifs <;> simp
@[simp] theorem State.carry_lay (s : State) (c : Started) : (s.carry c).lay = s.lay := by
 unfold State.carry; split_ifs <;> simp
@[simp] theorem State.carry_reb (s : State) (c : Started) : (s.carry c).reb = s.reb := by
 unfold State.carry; split_ifs <;> simp
@[simp] theorem State.carry_drv (s : State) (c : Started) : (s.carry c).drv = s.drv := by
 unfold State.carry; split_ifs <;> simp
@[simp] theorem State.carry_str (s : State) (c : Started) : (s.carry c).str = s.str := by
 unfold State.carry; split_ifs <;> simp
@[simp] theorem State.carry_cph (s : State) (c : Started) : (s.carry c).cph = s.cph := by
 unfold State.carry; split_ifs <;> simp
@[simp] theorem State.carry_sec (s : State) (c : Started) : (s.carry c).sec = s.sec := by
 unfold State.carry; split_ifs <;> simp
@[simp] theorem State.carry_pwr (s : State) (c : Started) : (s.carry c).pwr = s.pwr := by
 unfold State.carry; split_ifs <;> simp
@[simp] theorem State.carry_clk (s : State) (c : Started) : (s.carry c).clk = s.clk := by
 unfold State.carry; split_ifs <;> simp
@[simp] theorem State.carry_free (s : State) (c : Started) : (s.carry c).free = s.free := by
 unfold State.carry; split_ifs <;> simp
@[simp] theorem State.carry_pending (s : State) (c : Started) : (s.carry c).pending = s.pending := by
 unfold State.carry; split_ifs <;> simp
@[simp] theorem State.holderEnd_regs (s : State) (c : Started) (st : MStatus) (a b : Nat) : (s.holderEnd c st a b).regs = s.regs := by
 unfold State.holderEnd; split_ifs <;> simp
@[simp] theorem State.holderEnd_shadow (s : State) (c : Started) (st : MStatus) (a b : Nat) : (s.holderEnd c st a b).shadow = s.shadow := by
 unfold State.holderEnd; split_ifs <;> simp
@[simp] theorem State.holderEnd_staged (s : State) (c : Started) (st : MStatus) (a b : Nat) : (s.holderEnd c st a b).staged = s.staged := by
 unfold State.holderEnd; split_ifs <;> simp
@[simp] theorem State.holderEnd_mem (s : State) (c : Started) (st : MStatus) (a b : Nat) : (s.holderEnd c st a b).mem = s.mem := by
 unfold State.holderEnd; split_ifs <;> simp
@[simp] theorem State.holderEnd_glb (s : State) (c : Started) (st : MStatus) (a b : Nat) : (s.holderEnd c st a b).glb = s.glb := by
 unfold State.holderEnd; split_ifs <;> simp
@[simp] theorem State.holderEnd_tim (s : State) (c : Started) (st : MStatus) (a b : Nat) : (s.holderEnd c st a b).tim = s.tim := by
 unfold State.holderEnd; split_ifs <;> simp
@[simp] theorem State.holderEnd_tck (s : State) (c : Started) (st : MStatus) (a b : Nat) : (s.holderEnd c st a b).tck = s.tck := by
 unfold State.holderEnd; split_ifs <;> simp
@[simp] theorem State.holderEnd_net (s : State) (c : Started) (st : MStatus) (a b : Nat) : (s.holderEnd c st a b).net = s.net := by
 unfold State.holderEnd; split_ifs <;> simp
@[simp] theorem State.holderEnd_swc (s : State) (c : Started) (st : MStatus) (a b : Nat) : (s.holderEnd c st a b).swc = s.swc := by
 unfold State.holderEnd; split_ifs <;> simp
@[simp] theorem State.holderEnd_tbl (s : State) (c : Started) (st : MStatus) (a b : Nat) : (s.holderEnd c st a b).tbl = s.tbl := by
 unfold State.holderEnd; split_ifs <;> simp
@[simp] theorem State.holderEnd_xpt (s : State) (c : Started) (st : MStatus) (a b : Nat) : (s.holderEnd c st a b).xpt = s.xpt := by
 unfold State.holderEnd; split_ifs <;> simp
@[simp] theorem State.holderEnd_qos (s : State) (c : Started) (st : MStatus) (a b : Nat) : (s.holderEnd c st a b).qos = s.qos := by
 unfold State.holderEnd; split_ifs <;> simp
@[simp] theorem State.holderEnd_lay (s : State) (c : Started) (st : MStatus) (a b : Nat) : (s.holderEnd c st a b).lay = s.lay := by
 unfold State.holderEnd; split_ifs <;> simp
@[simp] theorem State.holderEnd_reb (s : State) (c : Started) (st : MStatus) (a b : Nat) : (s.holderEnd c st a b).reb = s.reb := by
 unfold State.holderEnd; split_ifs <;> simp
@[simp] theorem State.holderEnd_drv (s : State) (c : Started) (st : MStatus) (a b : Nat) : (s.holderEnd c st a b).drv = s.drv := by
 unfold State.holderEnd; split_ifs <;> simp
@[simp] theorem State.holderEnd_str (s : State) (c : Started) (st : MStatus) (a b : Nat) : (s.holderEnd c st a b).str = s.str := by
 unfold State.holderEnd; split_ifs <;> simp
@[simp] theorem State.holderEnd_cph (s : State) (c : Started) (st : MStatus) (a b : Nat) : (s.holderEnd c st a b).cph = s.cph := by
 unfold State.holderEnd; split_ifs <;> simp
@[simp] theorem State.holderEnd_sec (s : State) (c : Started) (st : MStatus) (a b : Nat) : (s.holderEnd c st a b).sec = s.sec := by
 unfold State.holderEnd; split_ifs <;> simp
@[simp] theorem State.holderEnd_pwr (s : State) (c : Started) (st : MStatus) (a b : Nat) : (s.holderEnd c st a b).pwr = s.pwr := by
 unfold State.holderEnd; split_ifs <;> simp
@[simp] theorem State.holderEnd_clk (s : State) (c : Started) (st : MStatus) (a b : Nat) : (s.holderEnd c st a b).clk = s.clk := by
 unfold State.holderEnd; split_ifs <;> simp
@[simp] theorem State.holderEnd_free (s : State) (c : Started) (st : MStatus) (a b : Nat) : (s.holderEnd c st a b).free = s.free := by
 unfold State.holderEnd; split_ifs <;> simp
@[simp] theorem State.holderEnd_pending (s : State) (c : Started) (st : MStatus) (a b : Nat) : (s.holderEnd c st a b).pending = s.pending := by
 unfold State.holderEnd; split_ifs <;> simp
@[simp] theorem State.ownDone_regs (s : State) (c : Started) : (s.ownDone c).regs = s.regs := by
 unfold State.ownDone; split_ifs <;> simp
@[simp] theorem State.ownDone_shadow (s : State) (c : Started) : (s.ownDone c).shadow = s.shadow := by
 unfold State.ownDone; split_ifs <;> simp
@[simp] theorem State.ownDone_staged (s : State) (c : Started) : (s.ownDone c).staged = s.staged := by
 unfold State.ownDone; split_ifs <;> simp
@[simp] theorem State.ownDone_mem (s : State) (c : Started) : (s.ownDone c).mem = s.mem := by
 unfold State.ownDone; split_ifs <;> simp
@[simp] theorem State.ownDone_glb (s : State) (c : Started) : (s.ownDone c).glb = s.glb := by
 unfold State.ownDone; split_ifs <;> simp
@[simp] theorem State.ownDone_tim (s : State) (c : Started) : (s.ownDone c).tim = s.tim := by
 unfold State.ownDone; split_ifs <;> simp
@[simp] theorem State.ownDone_evt (s : State) (c : Started) : (s.ownDone c).evt = s.evt := by
 unfold State.ownDone; split_ifs <;> simp
@[simp] theorem State.ownDone_tck (s : State) (c : Started) : (s.ownDone c).tck = s.tck := by
 unfold State.ownDone; split_ifs <;> simp
@[simp] theorem State.ownDone_net (s : State) (c : Started) : (s.ownDone c).net = s.net := by
 unfold State.ownDone; split_ifs <;> simp
@[simp] theorem State.ownDone_swc (s : State) (c : Started) : (s.ownDone c).swc = s.swc := by
 unfold State.ownDone; split_ifs <;> simp
@[simp] theorem State.ownDone_tbl (s : State) (c : Started) : (s.ownDone c).tbl = s.tbl := by
 unfold State.ownDone; split_ifs <;> simp
@[simp] theorem State.ownDone_xpt (s : State) (c : Started) : (s.ownDone c).xpt = s.xpt := by
 unfold State.ownDone; split_ifs <;> simp
@[simp] theorem State.ownDone_qos (s : State) (c : Started) : (s.ownDone c).qos = s.qos := by
 unfold State.ownDone; split_ifs <;> simp
@[simp] theorem State.ownDone_cmdb (s : State) (c : Started) : (s.ownDone c).cmdb = s.cmdb := by
 unfold State.ownDone; split_ifs <;> simp
@[simp] theorem State.ownDone_lay (s : State) (c : Started) : (s.ownDone c).lay = s.lay := by
 unfold State.ownDone; split_ifs <;> simp
@[simp] theorem State.ownDone_reb (s : State) (c : Started) : (s.ownDone c).reb = s.reb := by
 unfold State.ownDone; split_ifs <;> simp
@[simp] theorem State.ownDone_sbg (s : State) (c : Started) : (s.ownDone c).sbg = s.sbg := by
 unfold State.ownDone; split_ifs <;> simp
@[simp] theorem State.ownDone_drv (s : State) (c : Started) : (s.ownDone c).drv = s.drv := by
 unfold State.ownDone; split_ifs <;> simp
@[simp] theorem State.ownDone_str (s : State) (c : Started) : (s.ownDone c).str = s.str := by
 unfold State.ownDone; split_ifs <;> simp
@[simp] theorem State.ownDone_hrn (s : State) (c : Started) : (s.ownDone c).hrn = s.hrn := by
 unfold State.ownDone; split_ifs <;> simp
@[simp] theorem State.ownDone_cph (s : State) (c : Started) : (s.ownDone c).cph = s.cph := by
 unfold State.ownDone; split_ifs <;> simp
@[simp] theorem State.ownDone_sec (s : State) (c : Started) : (s.ownDone c).sec = s.sec := by
 unfold State.ownDone; split_ifs <;> simp
@[simp] theorem State.ownDone_pwr (s : State) (c : Started) : (s.ownDone c).pwr = s.pwr := by
 unfold State.ownDone; split_ifs <;> simp
@[simp] theorem State.ownDone_clk (s : State) (c : Started) : (s.ownDone c).clk = s.clk := by
 unfold State.ownDone; split_ifs <;> simp
@[simp] theorem State.ownDone_tel (s : State) (c : Started) : (s.ownDone c).tel = s.tel := by
 unfold State.ownDone; split_ifs <;> simp
@[simp] theorem State.ownDone_free (s : State) (c : Started) : (s.ownDone c).free = s.free := by
 unfold State.ownDone; split_ifs <;> simp
@[simp] theorem State.ownDone_pending (s : State) (c : Started) : (s.ownDone c).pending = s.pending := by
 unfold State.ownDone; split_ifs <;> simp
@[simp] theorem State.holderDone_regs (s : State) (c : Started) (a b : Nat) : (s.holderDone c a b).regs = s.regs := by
 unfold State.holderDone; simp
@[simp] theorem State.holderDone_shadow (s : State) (c : Started) (a b : Nat) : (s.holderDone c a b).shadow = s.shadow := by
 unfold State.holderDone; simp
@[simp] theorem State.holderDone_staged (s : State) (c : Started) (a b : Nat) : (s.holderDone c a b).staged = s.staged := by
 unfold State.holderDone; simp
@[simp] theorem State.holderDone_mem (s : State) (c : Started) (a b : Nat) : (s.holderDone c a b).mem = s.mem := by
 unfold State.holderDone; simp
@[simp] theorem State.holderDone_glb (s : State) (c : Started) (a b : Nat) : (s.holderDone c a b).glb = s.glb := by
 unfold State.holderDone; simp
@[simp] theorem State.holderDone_tim (s : State) (c : Started) (a b : Nat) : (s.holderDone c a b).tim = s.tim := by
 unfold State.holderDone; simp
@[simp] theorem State.holderDone_tck (s : State) (c : Started) (a b : Nat) : (s.holderDone c a b).tck = s.tck := by
 unfold State.holderDone; simp
@[simp] theorem State.holderDone_net (s : State) (c : Started) (a b : Nat) : (s.holderDone c a b).net = s.net := by
 unfold State.holderDone; simp
@[simp] theorem State.holderDone_swc (s : State) (c : Started) (a b : Nat) : (s.holderDone c a b).swc = s.swc := by
 unfold State.holderDone; simp
@[simp] theorem State.holderDone_tbl (s : State) (c : Started) (a b : Nat) : (s.holderDone c a b).tbl = s.tbl := by
 unfold State.holderDone; simp
@[simp] theorem State.holderDone_xpt (s : State) (c : Started) (a b : Nat) : (s.holderDone c a b).xpt = s.xpt := by
 unfold State.holderDone; simp
@[simp] theorem State.holderDone_qos (s : State) (c : Started) (a b : Nat) : (s.holderDone c a b).qos = s.qos := by
 unfold State.holderDone; simp
@[simp] theorem State.holderDone_lay (s : State) (c : Started) (a b : Nat) : (s.holderDone c a b).lay = s.lay := by
 unfold State.holderDone; simp
@[simp] theorem State.holderDone_reb (s : State) (c : Started) (a b : Nat) : (s.holderDone c a b).reb = s.reb := by
 unfold State.holderDone; simp
@[simp] theorem State.holderDone_drv (s : State) (c : Started) (a b : Nat) : (s.holderDone c a b).drv = s.drv := by
 unfold State.holderDone; simp
@[simp] theorem State.holderDone_str (s : State) (c : Started) (a b : Nat) : (s.holderDone c a b).str = s.str := by
 unfold State.holderDone; simp
@[simp] theorem State.holderDone_cph (s : State) (c : Started) (a b : Nat) : (s.holderDone c a b).cph = s.cph := by
 unfold State.holderDone; simp
@[simp] theorem State.holderDone_sec (s : State) (c : Started) (a b : Nat) : (s.holderDone c a b).sec = s.sec := by
 unfold State.holderDone; simp
@[simp] theorem State.holderDone_pwr (s : State) (c : Started) (a b : Nat) : (s.holderDone c a b).pwr = s.pwr := by
 unfold State.holderDone; simp
@[simp] theorem State.holderDone_clk (s : State) (c : Started) (a b : Nat) : (s.holderDone c a b).clk = s.clk := by
 unfold State.holderDone; simp
@[simp] theorem State.holderDone_free (s : State) (c : Started) (a b : Nat) : (s.holderDone c a b).free = s.free := by
 unfold State.holderDone; simp
@[simp] theorem State.holderDone_pending (s : State) (c : Started) (a b : Nat) : (s.holderDone c a b).pending = s.pending := by
 unfold State.holderDone; simp
@[simp] theorem State.completeWaiting_regs (s : State) (op : Nat) (p : Started → Bool) (st : MStatus) (a b : Nat) : (s.completeWaiting op p st a b).regs = s.regs := by
 unfold State.completeWaiting; split <;> simp
@[simp] theorem State.completeWaiting_shadow (s : State) (op : Nat) (p : Started → Bool) (st : MStatus) (a b : Nat) : (s.completeWaiting op p st a b).shadow = s.shadow := by
 unfold State.completeWaiting; split <;> simp
@[simp] theorem State.completeWaiting_staged (s : State) (op : Nat) (p : Started → Bool) (st : MStatus) (a b : Nat) : (s.completeWaiting op p st a b).staged = s.staged := by
 unfold State.completeWaiting; split <;> simp
@[simp] theorem State.completeWaiting_mem (s : State) (op : Nat) (p : Started → Bool) (st : MStatus) (a b : Nat) : (s.completeWaiting op p st a b).mem = s.mem := by
 unfold State.completeWaiting; split <;> simp
@[simp] theorem State.completeWaiting_glb (s : State) (op : Nat) (p : Started → Bool) (st : MStatus) (a b : Nat) : (s.completeWaiting op p st a b).glb = s.glb := by
 unfold State.completeWaiting; split <;> simp
@[simp] theorem State.completeWaiting_tim (s : State) (op : Nat) (p : Started → Bool) (st : MStatus) (a b : Nat) : (s.completeWaiting op p st a b).tim = s.tim := by
 unfold State.completeWaiting; split <;> simp
@[simp] theorem State.completeWaiting_evt (s : State) (op : Nat) (p : Started → Bool) (st : MStatus) (a b : Nat) : (s.completeWaiting op p st a b).evt = s.evt := by
 unfold State.completeWaiting; split <;> simp
@[simp] theorem State.completeWaiting_tck (s : State) (op : Nat) (p : Started → Bool) (st : MStatus) (a b : Nat) : (s.completeWaiting op p st a b).tck = s.tck := by
 unfold State.completeWaiting; split <;> simp
@[simp] theorem State.completeWaiting_net (s : State) (op : Nat) (p : Started → Bool) (st : MStatus) (a b : Nat) : (s.completeWaiting op p st a b).net = s.net := by
 unfold State.completeWaiting; split <;> simp
@[simp] theorem State.completeWaiting_swc (s : State) (op : Nat) (p : Started → Bool) (st : MStatus) (a b : Nat) : (s.completeWaiting op p st a b).swc = s.swc := by
 unfold State.completeWaiting; split <;> simp
@[simp] theorem State.completeWaiting_tbl (s : State) (op : Nat) (p : Started → Bool) (st : MStatus) (a b : Nat) : (s.completeWaiting op p st a b).tbl = s.tbl := by
 unfold State.completeWaiting; split <;> simp
@[simp] theorem State.completeWaiting_xpt (s : State) (op : Nat) (p : Started → Bool) (st : MStatus) (a b : Nat) : (s.completeWaiting op p st a b).xpt = s.xpt := by
 unfold State.completeWaiting; split <;> simp
@[simp] theorem State.completeWaiting_qos (s : State) (op : Nat) (p : Started → Bool) (st : MStatus) (a b : Nat) : (s.completeWaiting op p st a b).qos = s.qos := by
 unfold State.completeWaiting; split <;> simp
@[simp] theorem State.completeWaiting_cmdb (s : State) (op : Nat) (p : Started → Bool) (st : MStatus) (a b : Nat) : (s.completeWaiting op p st a b).cmdb = s.cmdb := by
 unfold State.completeWaiting; split <;> simp
@[simp] theorem State.completeWaiting_lay (s : State) (op : Nat) (p : Started → Bool) (st : MStatus) (a b : Nat) : (s.completeWaiting op p st a b).lay = s.lay := by
 unfold State.completeWaiting; split <;> simp
@[simp] theorem State.completeWaiting_reb (s : State) (op : Nat) (p : Started → Bool) (st : MStatus) (a b : Nat) : (s.completeWaiting op p st a b).reb = s.reb := by
 unfold State.completeWaiting; split <;> simp
@[simp] theorem State.completeWaiting_sbg (s : State) (op : Nat) (p : Started → Bool) (st : MStatus) (a b : Nat) : (s.completeWaiting op p st a b).sbg = s.sbg := by
 unfold State.completeWaiting; split <;> simp
@[simp] theorem State.completeWaiting_drv (s : State) (op : Nat) (p : Started → Bool) (st : MStatus) (a b : Nat) : (s.completeWaiting op p st a b).drv = s.drv := by
 unfold State.completeWaiting; split <;> simp
@[simp] theorem State.completeWaiting_str (s : State) (op : Nat) (p : Started → Bool) (st : MStatus) (a b : Nat) : (s.completeWaiting op p st a b).str = s.str := by
 unfold State.completeWaiting; split <;> simp
@[simp] theorem State.completeWaiting_hrn (s : State) (op : Nat) (p : Started → Bool) (st : MStatus) (a b : Nat) : (s.completeWaiting op p st a b).hrn = s.hrn := by
 unfold State.completeWaiting; split <;> simp
@[simp] theorem State.completeWaiting_cph (s : State) (op : Nat) (p : Started → Bool) (st : MStatus) (a b : Nat) : (s.completeWaiting op p st a b).cph = s.cph := by
 unfold State.completeWaiting; split <;> simp
@[simp] theorem State.completeWaiting_sec (s : State) (op : Nat) (p : Started → Bool) (st : MStatus) (a b : Nat) : (s.completeWaiting op p st a b).sec = s.sec := by
 unfold State.completeWaiting; split <;> simp
@[simp] theorem State.completeWaiting_pwr (s : State) (op : Nat) (p : Started → Bool) (st : MStatus) (a b : Nat) : (s.completeWaiting op p st a b).pwr = s.pwr := by
 unfold State.completeWaiting; split <;> simp
@[simp] theorem State.completeWaiting_clk (s : State) (op : Nat) (p : Started → Bool) (st : MStatus) (a b : Nat) : (s.completeWaiting op p st a b).clk = s.clk := by
 unfold State.completeWaiting; split <;> simp
@[simp] theorem State.completeWaiting_tel (s : State) (op : Nat) (p : Started → Bool) (st : MStatus) (a b : Nat) : (s.completeWaiting op p st a b).tel = s.tel := by
 unfold State.completeWaiting; split <;> simp
@[simp] theorem State.completeWaiting_free (s : State) (op : Nat) (p : Started → Bool) (st : MStatus) (a b : Nat) : (s.completeWaiting op p st a b).free = s.free := by
 unfold State.completeWaiting; split <;> simp
@[simp] theorem State.completeWaiting_pending (s : State) (op : Nat) (p : Started → Bool) (st : MStatus) (a b : Nat) : (s.completeWaiting op p st a b).pending = s.pending := by
 unfold State.completeWaiting; split <;> simp
@[simp] theorem State.random_regs (s : State) (w : Nat) : ((s.random w).2).regs = s.regs := (rfl)
@[simp] theorem State.random_shadow (s : State) (w : Nat) : ((s.random w).2).shadow = s.shadow := (rfl)
@[simp] theorem State.random_staged (s : State) (w : Nat) : ((s.random w).2).staged = s.staged := (rfl)
@[simp] theorem State.random_mem (s : State) (w : Nat) : ((s.random w).2).mem = s.mem := (rfl)
@[simp] theorem State.random_glb (s : State) (w : Nat) : ((s.random w).2).glb = s.glb := (rfl)
@[simp] theorem State.random_tim (s : State) (w : Nat) : ((s.random w).2).tim = s.tim := (rfl)
@[simp] theorem State.random_ctl (s : State) (w : Nat) : ((s.random w).2).ctl = s.ctl := (rfl)
@[simp] theorem State.random_evt (s : State) (w : Nat) : ((s.random w).2).evt = s.evt := (rfl)
@[simp] theorem State.random_tck (s : State) (w : Nat) : ((s.random w).2).tck = s.tck := (rfl)
@[simp] theorem State.random_net (s : State) (w : Nat) : ((s.random w).2).net = s.net := (rfl)
@[simp] theorem State.random_swc (s : State) (w : Nat) : ((s.random w).2).swc = s.swc := (rfl)
@[simp] theorem State.random_tbl (s : State) (w : Nat) : ((s.random w).2).tbl = s.tbl := (rfl)
@[simp] theorem State.random_xpt (s : State) (w : Nat) : ((s.random w).2).xpt = s.xpt := (rfl)
@[simp] theorem State.random_qos (s : State) (w : Nat) : ((s.random w).2).qos = s.qos := (rfl)
@[simp] theorem State.random_cmdb (s : State) (w : Nat) : ((s.random w).2).cmdb = s.cmdb := (rfl)
@[simp] theorem State.random_lay (s : State) (w : Nat) : ((s.random w).2).lay = s.lay := (rfl)
@[simp] theorem State.random_reb (s : State) (w : Nat) : ((s.random w).2).reb = s.reb := (rfl)
@[simp] theorem State.random_sbg (s : State) (w : Nat) : ((s.random w).2).sbg = s.sbg := (rfl)
@[simp] theorem State.random_drv (s : State) (w : Nat) : ((s.random w).2).drv = s.drv := (rfl)
@[simp] theorem State.random_str (s : State) (w : Nat) : ((s.random w).2).str = s.str := (rfl)
@[simp] theorem State.random_hrn (s : State) (w : Nat) : ((s.random w).2).hrn = s.hrn := (rfl)
@[simp] theorem State.random_htx (s : State) (w : Nat) : ((s.random w).2).htx = s.htx := (rfl)
@[simp] theorem State.random_cph (s : State) (w : Nat) : ((s.random w).2).cph = s.cph := (rfl)
@[simp] theorem State.random_pwr (s : State) (w : Nat) : ((s.random w).2).pwr = s.pwr := (rfl)
@[simp] theorem State.random_clk (s : State) (w : Nat) : ((s.random w).2).clk = s.clk := (rfl)
@[simp] theorem State.random_tel (s : State) (w : Nat) : ((s.random w).2).tel = s.tel := (rfl)
@[simp] theorem State.random_out (s : State) (w : Nat) : ((s.random w).2).out = s.out := (rfl)
@[simp] theorem State.random_pending (s : State) (w : Nat) : ((s.random w).2).pending = s.pending := (rfl)
@[simp] theorem State.spendNonce_regs (s : State) (v : BitVec 128) : (s.spendNonce v).regs = s.regs := (rfl)
@[simp] theorem State.spendNonce_shadow (s : State) (v : BitVec 128) : (s.spendNonce v).shadow = s.shadow := (rfl)
@[simp] theorem State.spendNonce_staged (s : State) (v : BitVec 128) : (s.spendNonce v).staged = s.staged := (rfl)
@[simp] theorem State.spendNonce_mem (s : State) (v : BitVec 128) : (s.spendNonce v).mem = s.mem := (rfl)
@[simp] theorem State.spendNonce_glb (s : State) (v : BitVec 128) : (s.spendNonce v).glb = s.glb := (rfl)
@[simp] theorem State.spendNonce_tim (s : State) (v : BitVec 128) : (s.spendNonce v).tim = s.tim := (rfl)
@[simp] theorem State.spendNonce_evt (s : State) (v : BitVec 128) : (s.spendNonce v).evt = s.evt := (rfl)
@[simp] theorem State.spendNonce_tck (s : State) (v : BitVec 128) : (s.spendNonce v).tck = s.tck := (rfl)
@[simp] theorem State.spendNonce_net (s : State) (v : BitVec 128) : (s.spendNonce v).net = s.net := (rfl)
@[simp] theorem State.spendNonce_swc (s : State) (v : BitVec 128) : (s.spendNonce v).swc = s.swc := (rfl)
@[simp] theorem State.spendNonce_tbl (s : State) (v : BitVec 128) : (s.spendNonce v).tbl = s.tbl := (rfl)
@[simp] theorem State.spendNonce_xpt (s : State) (v : BitVec 128) : (s.spendNonce v).xpt = s.xpt := (rfl)
@[simp] theorem State.spendNonce_qos (s : State) (v : BitVec 128) : (s.spendNonce v).qos = s.qos := (rfl)
@[simp] theorem State.spendNonce_cmdb (s : State) (v : BitVec 128) : (s.spendNonce v).cmdb = s.cmdb := (rfl)
@[simp] theorem State.spendNonce_lay (s : State) (v : BitVec 128) : (s.spendNonce v).lay = s.lay := (rfl)
@[simp] theorem State.spendNonce_reb (s : State) (v : BitVec 128) : (s.spendNonce v).reb = s.reb := (rfl)
@[simp] theorem State.spendNonce_sbg (s : State) (v : BitVec 128) : (s.spendNonce v).sbg = s.sbg := (rfl)
@[simp] theorem State.spendNonce_drv (s : State) (v : BitVec 128) : (s.spendNonce v).drv = s.drv := (rfl)
@[simp] theorem State.spendNonce_str (s : State) (v : BitVec 128) : (s.spendNonce v).str = s.str := (rfl)
@[simp] theorem State.spendNonce_hrn (s : State) (v : BitVec 128) : (s.spendNonce v).hrn = s.hrn := (rfl)
@[simp] theorem State.spendNonce_htx (s : State) (v : BitVec 128) : (s.spendNonce v).htx = s.htx := (rfl)
@[simp] theorem State.spendNonce_cph (s : State) (v : BitVec 128) : (s.spendNonce v).cph = s.cph := (rfl)
@[simp] theorem State.spendNonce_sec (s : State) (v : BitVec 128) : (s.spendNonce v).sec = s.sec := (rfl)
@[simp] theorem State.spendNonce_pwr (s : State) (v : BitVec 128) : (s.spendNonce v).pwr = s.pwr := (rfl)
@[simp] theorem State.spendNonce_clk (s : State) (v : BitVec 128) : (s.spendNonce v).clk = s.clk := (rfl)
@[simp] theorem State.spendNonce_tel (s : State) (v : BitVec 128) : (s.spendNonce v).tel = s.tel := (rfl)
@[simp] theorem State.spendNonce_out (s : State) (v : BitVec 128) : (s.spendNonce v).out = s.out := (rfl)
@[simp] theorem State.spendNonce_free (s : State) (v : BitVec 128) : (s.spendNonce v).free = s.free := (rfl)
@[simp] theorem State.spendNonce_pending (s : State) (v : BitVec 128) : (s.spendNonce v).pending = s.pending := (rfl)
@[simp] theorem State.guardFail_regs (s : State) (n : Nat) (st : MStatus) : (s.guardFail n st).regs = s.regs := by
 unfold State.guardFail; dsimp only; split_ifs <;> simp
@[simp] theorem State.guardFail_shadow (s : State) (n : Nat) (st : MStatus) : (s.guardFail n st).shadow = s.shadow := by
 unfold State.guardFail; dsimp only; split_ifs <;> simp
@[simp] theorem State.guardFail_staged (s : State) (n : Nat) (st : MStatus) : (s.guardFail n st).staged = s.staged := by
 unfold State.guardFail; dsimp only; split_ifs <;> simp
@[simp] theorem State.guardFail_mem (s : State) (n : Nat) (st : MStatus) : (s.guardFail n st).mem = s.mem := by
 unfold State.guardFail; dsimp only; split_ifs <;> simp
@[simp] theorem State.guardFail_glb (s : State) (n : Nat) (st : MStatus) : (s.guardFail n st).glb = s.glb := by
 unfold State.guardFail; dsimp only; split_ifs <;> simp
@[simp] theorem State.guardFail_tim (s : State) (n : Nat) (st : MStatus) : (s.guardFail n st).tim = s.tim := by
 unfold State.guardFail; dsimp only; split_ifs <;> simp
@[simp] theorem State.guardFail_tck (s : State) (n : Nat) (st : MStatus) : (s.guardFail n st).tck = s.tck := by
 unfold State.guardFail; dsimp only; split_ifs <;> simp
@[simp] theorem State.guardFail_net (s : State) (n : Nat) (st : MStatus) : (s.guardFail n st).net = s.net := by
 unfold State.guardFail; dsimp only; split_ifs <;> simp
@[simp] theorem State.guardFail_swc (s : State) (n : Nat) (st : MStatus) : (s.guardFail n st).swc = s.swc := by
 unfold State.guardFail; dsimp only; split_ifs <;> simp
@[simp] theorem State.guardFail_tbl (s : State) (n : Nat) (st : MStatus) : (s.guardFail n st).tbl = s.tbl := by
 unfold State.guardFail; dsimp only; split_ifs <;> simp
@[simp] theorem State.guardFail_xpt (s : State) (n : Nat) (st : MStatus) : (s.guardFail n st).xpt = s.xpt := by
 unfold State.guardFail; dsimp only; split_ifs <;> simp
@[simp] theorem State.guardFail_qos (s : State) (n : Nat) (st : MStatus) : (s.guardFail n st).qos = s.qos := by
 unfold State.guardFail; dsimp only; split_ifs <;> simp
@[simp] theorem State.guardFail_cmdb (s : State) (n : Nat) (st : MStatus) : (s.guardFail n st).cmdb = s.cmdb := by
 unfold State.guardFail; dsimp only; split_ifs <;> simp
@[simp] theorem State.guardFail_lay (s : State) (n : Nat) (st : MStatus) : (s.guardFail n st).lay = s.lay := by
 unfold State.guardFail; dsimp only; split_ifs <;> simp
@[simp] theorem State.guardFail_reb (s : State) (n : Nat) (st : MStatus) : (s.guardFail n st).reb = s.reb := by
 unfold State.guardFail; dsimp only; split_ifs <;> simp
@[simp] theorem State.guardFail_sbg (s : State) (n : Nat) (st : MStatus) : (s.guardFail n st).sbg = s.sbg := by
 unfold State.guardFail; dsimp only; split_ifs <;> simp
@[simp] theorem State.guardFail_drv (s : State) (n : Nat) (st : MStatus) : (s.guardFail n st).drv = s.drv := by
 unfold State.guardFail; dsimp only; split_ifs <;> simp
@[simp] theorem State.guardFail_str (s : State) (n : Nat) (st : MStatus) : (s.guardFail n st).str = s.str := by
 unfold State.guardFail; dsimp only; split_ifs <;> simp
@[simp] theorem State.guardFail_cph (s : State) (n : Nat) (st : MStatus) : (s.guardFail n st).cph = s.cph := by
 unfold State.guardFail; dsimp only; split_ifs <;> simp
@[simp] theorem State.guardFail_sec (s : State) (n : Nat) (st : MStatus) : (s.guardFail n st).sec = s.sec := by
 unfold State.guardFail; dsimp only; split_ifs <;> simp
@[simp] theorem State.guardFail_pwr (s : State) (n : Nat) (st : MStatus) : (s.guardFail n st).pwr = s.pwr := by
 unfold State.guardFail; dsimp only; split_ifs <;> simp
@[simp] theorem State.guardFail_clk (s : State) (n : Nat) (st : MStatus) : (s.guardFail n st).clk = s.clk := by
 unfold State.guardFail; dsimp only; split_ifs <;> simp
@[simp] theorem State.guardFail_free (s : State) (n : Nat) (st : MStatus) : (s.guardFail n st).free = s.free := by
 unfold State.guardFail; dsimp only; split_ifs <;> simp
@[simp] theorem State.guardFail_pending (s : State) (n : Nat) (st : MStatus) : (s.guardFail n st).pending = s.pending := by
 unfold State.guardFail; dsimp only; split_ifs <;> simp
@[simp] theorem State.missSlot_regs (s : State) (t n : Nat) : (s.missSlot t n).regs = s.regs := by
 unfold State.missSlot; dsimp only; split_ifs <;> simp
@[simp] theorem State.missSlot_shadow (s : State) (t n : Nat) : (s.missSlot t n).shadow = s.shadow := by
 unfold State.missSlot; dsimp only; split_ifs <;> simp
@[simp] theorem State.missSlot_staged (s : State) (t n : Nat) : (s.missSlot t n).staged = s.staged := by
 unfold State.missSlot; dsimp only; split_ifs <;> simp
@[simp] theorem State.missSlot_mem (s : State) (t n : Nat) : (s.missSlot t n).mem = s.mem := by
 unfold State.missSlot; dsimp only; split_ifs <;> simp
@[simp] theorem State.missSlot_glb (s : State) (t n : Nat) : (s.missSlot t n).glb = s.glb := by
 unfold State.missSlot; dsimp only; split_ifs <;> simp
@[simp] theorem State.missSlot_ctl (s : State) (t n : Nat) : (s.missSlot t n).ctl = s.ctl := by
 unfold State.missSlot; dsimp only; split_ifs <;> simp
@[simp] theorem State.missSlot_tck (s : State) (t n : Nat) : (s.missSlot t n).tck = s.tck := by
 unfold State.missSlot; dsimp only; split_ifs <;> simp
@[simp] theorem State.missSlot_net (s : State) (t n : Nat) : (s.missSlot t n).net = s.net := by
 unfold State.missSlot; dsimp only; split_ifs <;> simp
@[simp] theorem State.missSlot_swc (s : State) (t n : Nat) : (s.missSlot t n).swc = s.swc := by
 unfold State.missSlot; dsimp only; split_ifs <;> simp
@[simp] theorem State.missSlot_tbl (s : State) (t n : Nat) : (s.missSlot t n).tbl = s.tbl := by
 unfold State.missSlot; dsimp only; split_ifs <;> simp
@[simp] theorem State.missSlot_xpt (s : State) (t n : Nat) : (s.missSlot t n).xpt = s.xpt := by
 unfold State.missSlot; dsimp only; split_ifs <;> simp
@[simp] theorem State.missSlot_qos (s : State) (t n : Nat) : (s.missSlot t n).qos = s.qos := by
 unfold State.missSlot; dsimp only; split_ifs <;> simp
@[simp] theorem State.missSlot_cmdb (s : State) (t n : Nat) : (s.missSlot t n).cmdb = s.cmdb := by
 unfold State.missSlot; dsimp only; split_ifs <;> simp
@[simp] theorem State.missSlot_lay (s : State) (t n : Nat) : (s.missSlot t n).lay = s.lay := by
 unfold State.missSlot; dsimp only; split_ifs <;> simp
@[simp] theorem State.missSlot_reb (s : State) (t n : Nat) : (s.missSlot t n).reb = s.reb := by
 unfold State.missSlot; dsimp only; split_ifs <;> simp
@[simp] theorem State.missSlot_sbg (s : State) (t n : Nat) : (s.missSlot t n).sbg = s.sbg := by
 unfold State.missSlot; dsimp only; split_ifs <;> simp
@[simp] theorem State.missSlot_drv (s : State) (t n : Nat) : (s.missSlot t n).drv = s.drv := by
 unfold State.missSlot; dsimp only; split_ifs <;> simp
@[simp] theorem State.missSlot_str (s : State) (t n : Nat) : (s.missSlot t n).str = s.str := by
 unfold State.missSlot; dsimp only; split_ifs <;> simp
@[simp] theorem State.missSlot_cph (s : State) (t n : Nat) : (s.missSlot t n).cph = s.cph := by
 unfold State.missSlot; dsimp only; split_ifs <;> simp
@[simp] theorem State.missSlot_sec (s : State) (t n : Nat) : (s.missSlot t n).sec = s.sec := by
 unfold State.missSlot; dsimp only; split_ifs <;> simp
@[simp] theorem State.missSlot_pwr (s : State) (t n : Nat) : (s.missSlot t n).pwr = s.pwr := by
 unfold State.missSlot; dsimp only; split_ifs <;> simp
@[simp] theorem State.missSlot_clk (s : State) (t n : Nat) : (s.missSlot t n).clk = s.clk := by
 unfold State.missSlot; dsimp only; split_ifs <;> simp
@[simp] theorem State.missSlot_free (s : State) (t n : Nat) : (s.missSlot t n).free = s.free := by
 unfold State.missSlot; dsimp only; split_ifs <;> simp
@[simp] theorem State.missSlot_pending (s : State) (t n : Nat) : (s.missSlot t n).pending = s.pending := by
 unfold State.missSlot; dsimp only; split_ifs <;> simp
theorem State.stepWindow_frame (s : State) (t n : Nat) : s.stepWindow t n =
    { s with tel := (s.stepWindow t n).tel } := by
  unfold State.stepWindow; dsimp only; split_ifs <;> rfl
@[simp] theorem State.stepWindow_regs (s : State) (t n : Nat) : (s.stepWindow t n).regs = s.regs := by rw [State.stepWindow_frame]
@[simp] theorem State.stepWindow_shadow (s : State) (t n : Nat) : (s.stepWindow t n).shadow = s.shadow := by rw [State.stepWindow_frame]
@[simp] theorem State.stepWindow_staged (s : State) (t n : Nat) : (s.stepWindow t n).staged = s.staged := by rw [State.stepWindow_frame]
@[simp] theorem State.stepWindow_mem (s : State) (t n : Nat) : (s.stepWindow t n).mem = s.mem := by rw [State.stepWindow_frame]
@[simp] theorem State.stepWindow_glb (s : State) (t n : Nat) : (s.stepWindow t n).glb = s.glb := by rw [State.stepWindow_frame]
@[simp] theorem State.stepWindow_tim (s : State) (t n : Nat) : (s.stepWindow t n).tim = s.tim := by rw [State.stepWindow_frame]
@[simp] theorem State.stepWindow_ctl (s : State) (t n : Nat) : (s.stepWindow t n).ctl = s.ctl := by rw [State.stepWindow_frame]
@[simp] theorem State.stepWindow_evt (s : State) (t n : Nat) : (s.stepWindow t n).evt = s.evt := by rw [State.stepWindow_frame]
@[simp] theorem State.stepWindow_tck (s : State) (t n : Nat) : (s.stepWindow t n).tck = s.tck := by rw [State.stepWindow_frame]
@[simp] theorem State.stepWindow_net (s : State) (t n : Nat) : (s.stepWindow t n).net = s.net := by rw [State.stepWindow_frame]
@[simp] theorem State.stepWindow_swc (s : State) (t n : Nat) : (s.stepWindow t n).swc = s.swc := by rw [State.stepWindow_frame]
@[simp] theorem State.stepWindow_tbl (s : State) (t n : Nat) : (s.stepWindow t n).tbl = s.tbl := by rw [State.stepWindow_frame]
@[simp] theorem State.stepWindow_xpt (s : State) (t n : Nat) : (s.stepWindow t n).xpt = s.xpt := by rw [State.stepWindow_frame]
@[simp] theorem State.stepWindow_qos (s : State) (t n : Nat) : (s.stepWindow t n).qos = s.qos := by rw [State.stepWindow_frame]
@[simp] theorem State.stepWindow_cmdb (s : State) (t n : Nat) : (s.stepWindow t n).cmdb = s.cmdb := by rw [State.stepWindow_frame]
@[simp] theorem State.stepWindow_lay (s : State) (t n : Nat) : (s.stepWindow t n).lay = s.lay := by rw [State.stepWindow_frame]
@[simp] theorem State.stepWindow_reb (s : State) (t n : Nat) : (s.stepWindow t n).reb = s.reb := by rw [State.stepWindow_frame]
@[simp] theorem State.stepWindow_sbg (s : State) (t n : Nat) : (s.stepWindow t n).sbg = s.sbg := by rw [State.stepWindow_frame]
@[simp] theorem State.stepWindow_drv (s : State) (t n : Nat) : (s.stepWindow t n).drv = s.drv := by rw [State.stepWindow_frame]
@[simp] theorem State.stepWindow_str (s : State) (t n : Nat) : (s.stepWindow t n).str = s.str := by rw [State.stepWindow_frame]
@[simp] theorem State.stepWindow_hrn (s : State) (t n : Nat) : (s.stepWindow t n).hrn = s.hrn := by rw [State.stepWindow_frame]
@[simp] theorem State.stepWindow_htx (s : State) (t n : Nat) : (s.stepWindow t n).htx = s.htx := by rw [State.stepWindow_frame]
@[simp] theorem State.stepWindow_cph (s : State) (t n : Nat) : (s.stepWindow t n).cph = s.cph := by rw [State.stepWindow_frame]
@[simp] theorem State.stepWindow_sec (s : State) (t n : Nat) : (s.stepWindow t n).sec = s.sec := by rw [State.stepWindow_frame]
@[simp] theorem State.stepWindow_pwr (s : State) (t n : Nat) : (s.stepWindow t n).pwr = s.pwr := by rw [State.stepWindow_frame]
@[simp] theorem State.stepWindow_clk (s : State) (t n : Nat) : (s.stepWindow t n).clk = s.clk := by rw [State.stepWindow_frame]
@[simp] theorem State.stepWindow_out (s : State) (t n : Nat) : (s.stepWindow t n).out = s.out := by rw [State.stepWindow_frame]
@[simp] theorem State.stepWindow_free (s : State) (t n : Nat) : (s.stepWindow t n).free = s.free := by rw [State.stepWindow_frame]
@[simp] theorem State.stepWindow_pending (s : State) (t n : Nat) : (s.stepWindow t n).pending = s.pending := by rw [State.stepWindow_frame]
@[simp] theorem State.carryReg_regs (s : State) (a : Nat) (v : Word) : (s.carryReg a v).regs = s.regs := by
 unfold State.carryReg; split_ifs <;> simp
@[simp] theorem State.carryReg_shadow (s : State) (a : Nat) (v : Word) : (s.carryReg a v).shadow = s.shadow := by
 unfold State.carryReg; split_ifs <;> simp
@[simp] theorem State.carryReg_staged (s : State) (a : Nat) (v : Word) : (s.carryReg a v).staged = s.staged := by
 unfold State.carryReg; split_ifs <;> simp
@[simp] theorem State.carryReg_mem (s : State) (a : Nat) (v : Word) : (s.carryReg a v).mem = s.mem := by
 unfold State.carryReg; split_ifs <;> simp
@[simp] theorem State.carryReg_glb (s : State) (a : Nat) (v : Word) : (s.carryReg a v).glb = s.glb := by
 unfold State.carryReg; split_ifs <;> simp
@[simp] theorem State.carryReg_tim (s : State) (a : Nat) (v : Word) : (s.carryReg a v).tim = s.tim := by
 unfold State.carryReg; split_ifs <;> simp
@[simp] theorem State.carryReg_ctl (s : State) (a : Nat) (v : Word) : (s.carryReg a v).ctl = s.ctl := by
 unfold State.carryReg; split_ifs <;> simp
@[simp] theorem State.carryReg_tck (s : State) (a : Nat) (v : Word) : (s.carryReg a v).tck = s.tck := by
 unfold State.carryReg; split_ifs <;> simp
@[simp] theorem State.carryReg_net (s : State) (a : Nat) (v : Word) : (s.carryReg a v).net = s.net := by
 unfold State.carryReg; split_ifs <;> simp
@[simp] theorem State.carryReg_swc (s : State) (a : Nat) (v : Word) : (s.carryReg a v).swc = s.swc := by
 unfold State.carryReg; split_ifs <;> simp
@[simp] theorem State.carryReg_tbl (s : State) (a : Nat) (v : Word) : (s.carryReg a v).tbl = s.tbl := by
 unfold State.carryReg; split_ifs <;> simp
@[simp] theorem State.carryReg_xpt (s : State) (a : Nat) (v : Word) : (s.carryReg a v).xpt = s.xpt := by
 unfold State.carryReg; split_ifs <;> simp
@[simp] theorem State.carryReg_qos (s : State) (a : Nat) (v : Word) : (s.carryReg a v).qos = s.qos := by
 unfold State.carryReg; split_ifs <;> simp
@[simp] theorem State.carryReg_lay (s : State) (a : Nat) (v : Word) : (s.carryReg a v).lay = s.lay := by
 unfold State.carryReg; split_ifs <;> simp
@[simp] theorem State.carryReg_reb (s : State) (a : Nat) (v : Word) : (s.carryReg a v).reb = s.reb := by
 unfold State.carryReg; split_ifs <;> simp
@[simp] theorem State.carryReg_drv (s : State) (a : Nat) (v : Word) : (s.carryReg a v).drv = s.drv := by
 unfold State.carryReg; split_ifs <;> simp
@[simp] theorem State.carryReg_str (s : State) (a : Nat) (v : Word) : (s.carryReg a v).str = s.str := by
 unfold State.carryReg; split_ifs <;> simp
@[simp] theorem State.carryReg_cph (s : State) (a : Nat) (v : Word) : (s.carryReg a v).cph = s.cph := by
 unfold State.carryReg; split_ifs <;> simp
@[simp] theorem State.carryReg_sec (s : State) (a : Nat) (v : Word) : (s.carryReg a v).sec = s.sec := by
 unfold State.carryReg; split_ifs <;> simp
@[simp] theorem State.carryReg_pwr (s : State) (a : Nat) (v : Word) : (s.carryReg a v).pwr = s.pwr := by
 unfold State.carryReg; split_ifs <;> simp
@[simp] theorem State.carryReg_clk (s : State) (a : Nat) (v : Word) : (s.carryReg a v).clk = s.clk := by
 unfold State.carryReg; split_ifs <;> simp
@[simp] theorem State.carryReg_free (s : State) (a : Nat) (v : Word) : (s.carryReg a v).free = s.free := by
 unfold State.carryReg; split_ifs <;> simp
@[simp] theorem State.carryReg_pending (s : State) (a : Nat) (v : Word) : (s.carryReg a v).pending = s.pending := by
 unfold State.carryReg; split_ifs <;> simp

theorem State.flag_iff (s : State) (r : Ref) : s.flag r = true ↔ s.fld r = 1 := by simp [State.flag]
theorem State.flag_iff_not (s : State) (r : Ref) : s.flag r = false ↔ s.fld r ≠ 1 := by simp [State.flag]


/-! ### What reads registers and shelf time reads the same after an operation that leaves them alone -/

@[simp] theorem State.setRg_now (s : State) (a : Nat) (w : Word) : (s.setRg a w).now = s.now := by simp only [State.now, State.setRg_tim]
@[simp] theorem State.setRg_src (s : State) (a : Nat) (w : Word) (k : Nat) : (s.setRg a w).src k = s.src k := by simp only [State.src, State.setRg_evt]
@[simp] theorem State.setFld_now (s : State) (r : Ref) (v : Nat) : (s.setFld r v).now = s.now := by simp only [State.now, State.setFld_tim]
@[simp] theorem State.setFld_src (s : State) (r : Ref) (v : Nat) (k : Nat) : (s.setFld r v).src k = s.src k := by simp only [State.src, State.setFld_evt]
@[simp] theorem State.bump_now (s : State) (r : Ref) (n : Nat) : (s.bump r n).now = s.now := by simp only [State.now, State.bump_tim]
@[simp] theorem State.bump_src (s : State) (r : Ref) (n : Nat) (k : Nat) : (s.bump r n).src k = s.src k := by simp only [State.src, State.bump_evt]
@[simp] theorem State.emit_rg (s : State) (o : Out) (k : Nat) : (s.emit o).rg k = s.rg k := by simp only [State.rg, State.emit_regs]
@[simp] theorem State.emit_flag (s : State) (o : Out) (k : Ref) : (s.emit o).flag k = s.flag k := by unfold State.flag; rw [State.emit_fld]
@[simp] theorem State.draw_rg (s : State) (w : Nat) (k : Nat) : ((s.draw w).2).rg k = s.rg k := by simp only [State.rg, State.draw_regs]
@[simp] theorem State.draw_fld (s : State) (w : Nat) (k : Ref) : ((s.draw w).2).fld k = s.fld k := by simp only [State.fld, State.rg, State.draw_regs]
@[simp] theorem State.draw_flag (s : State) (w : Nat) (k : Ref) : ((s.draw w).2).flag k = s.flag k := by unfold State.flag; rw [State.draw_fld]
@[simp] theorem State.draw_now (s : State) (w : Nat) : ((s.draw w).2).now = s.now := by simp only [State.now, State.draw_tim]
@[simp] theorem State.draw_src (s : State) (w : Nat) (k : Nat) : ((s.draw w).2).src k = s.src k := by simp only [State.src, State.draw_evt]
@[simp] theorem State.drawBelow_rg (s : State) (n : Nat) (k : Nat) : ((s.drawBelow n).2).rg k = s.rg k := by simp only [State.rg, State.drawBelow_regs]
@[simp] theorem State.drawBelow_fld (s : State) (n : Nat) (k : Ref) : ((s.drawBelow n).2).fld k = s.fld k := by simp only [State.fld, State.rg, State.drawBelow_regs]
@[simp] theorem State.drawBelow_flag (s : State) (n : Nat) (k : Ref) : ((s.drawBelow n).2).flag k = s.flag k := by unfold State.flag; rw [State.drawBelow_fld]
@[simp] theorem State.drawBelow_now (s : State) (n : Nat) : ((s.drawBelow n).2).now = s.now := by simp only [State.now, State.drawBelow_tim]
@[simp] theorem State.drawBelow_src (s : State) (n : Nat) (k : Nat) : ((s.drawBelow n).2).src k = s.src k := by simp only [State.src, State.drawBelow_evt]
@[simp] theorem State.setSrc_rg (s : State) (n : Nat) (e : Src) (k : Nat) : (s.setSrc n e).rg k = s.rg k := by simp only [State.rg, State.setSrc_regs]
@[simp] theorem State.setSrc_fld (s : State) (n : Nat) (e : Src) (k : Ref) : (s.setSrc n e).fld k = s.fld k := by simp only [State.fld, State.rg, State.setSrc_regs]
@[simp] theorem State.setSrc_flag (s : State) (n : Nat) (e : Src) (k : Ref) : (s.setSrc n e).flag k = s.flag k := by unfold State.flag; rw [State.setSrc_fld]
@[simp] theorem State.setSrc_now (s : State) (n : Nat) (e : Src) : (s.setSrc n e).now = s.now := by simp only [State.now, State.setSrc_tim]
@[simp] theorem State.count_rg (s : State) (i n : Nat) (k : Nat) : (s.count i n).rg k = s.rg k := by simp only [State.rg, State.count_regs]
@[simp] theorem State.count_fld (s : State) (i n : Nat) (k : Ref) : (s.count i n).fld k = s.fld k := by simp only [State.fld, State.rg, State.count_regs]
@[simp] theorem State.count_flag (s : State) (i n : Nat) (k : Ref) : (s.count i n).flag k = s.flag k := by unfold State.flag; rw [State.count_fld]
@[simp] theorem State.count_now (s : State) (i n : Nat) : (s.count i n).now = s.now := by simp only [State.now, State.count_tim]
@[simp] theorem State.count_src (s : State) (i n : Nat) (k : Nat) : (s.count i n).src k = s.src k := by simp only [State.src, State.count_evt]
@[simp] theorem State.sendTwin_rg (s : State) (o : Out) (k : Nat) : (s.sendTwin o).rg k = s.rg k := by simp only [State.rg, State.sendTwin_regs]
@[simp] theorem State.sendTwin_fld (s : State) (o : Out) (k : Ref) : (s.sendTwin o).fld k = s.fld k := by simp only [State.fld, State.rg, State.sendTwin_regs]
@[simp] theorem State.sendTwin_flag (s : State) (o : Out) (k : Ref) : (s.sendTwin o).flag k = s.flag k := by unfold State.flag; rw [State.sendTwin_fld]
@[simp] theorem State.sendTwin_now (s : State) (o : Out) : (s.sendTwin o).now = s.now := by simp only [State.now, State.sendTwin_tim]
@[simp] theorem State.sendTwin_src (s : State) (o : Out) (k : Nat) : (s.sendTwin o).src k = s.src k := by simp only [State.src, State.sendTwin_evt]
@[simp] theorem State.raiseIf_rg (s : State) (c : Bool) (n : Nat) (d : List Nat) (k : Nat) : (s.raiseIf c n d).rg k = s.rg k := by simp only [State.rg, State.raiseIf_regs]
@[simp] theorem State.raiseIf_fld (s : State) (c : Bool) (n : Nat) (d : List Nat) (k : Ref) : (s.raiseIf c n d).fld k = s.fld k := by simp only [State.fld, State.rg, State.raiseIf_regs]
@[simp] theorem State.raiseIf_flag (s : State) (c : Bool) (n : Nat) (d : List Nat) (k : Ref) : (s.raiseIf c n d).flag k = s.flag k := by unfold State.flag; rw [State.raiseIf_fld]
@[simp] theorem State.raiseIf_now (s : State) (c : Bool) (n : Nat) (d : List Nat) : (s.raiseIf c n d).now = s.now := by simp only [State.now, State.raiseIf_tim]
@[simp] theorem State.setSlot_rg (s : State) (n : Nat) (x : Slot) (k : Nat) : (s.setSlot n x).rg k = s.rg k := by simp only [State.rg, State.setSlot_regs]
@[simp] theorem State.setSlot_fld (s : State) (n : Nat) (x : Slot) (k : Ref) : (s.setSlot n x).fld k = s.fld k := by simp only [State.fld, State.rg, State.setSlot_regs]
@[simp] theorem State.setSlot_flag (s : State) (n : Nat) (x : Slot) (k : Ref) : (s.setSlot n x).flag k = s.flag k := by unfold State.flag; rw [State.setSlot_fld]
@[simp] theorem State.setSlot_src (s : State) (n : Nat) (x : Slot) (k : Nat) : (s.setSlot n x).src k = s.src k := by simp only [State.src, State.setSlot_evt]
@[simp] theorem State.reach_rg (s : State) (t : Nat) (k : Nat) : (s.reach t).rg k = s.rg k := by simp only [State.rg, State.reach_regs]
@[simp] theorem State.reach_fld (s : State) (t : Nat) (k : Ref) : (s.reach t).fld k = s.fld k := by simp only [State.fld, State.rg, State.reach_regs]
@[simp] theorem State.reach_flag (s : State) (t : Nat) (k : Ref) : (s.reach t).flag k = s.flag k := by unfold State.flag; rw [State.reach_fld]
@[simp] theorem State.reach_src (s : State) (t : Nat) (k : Nat) : (s.reach t).src k = s.src k := by simp only [State.src, State.reach_evt]
@[simp] theorem State.fireWith_rg (s : State) (n p : Nat) (k : Nat) : (s.fireWith n p).rg k = s.rg k := by simp only [State.rg, State.fireWith_regs]
@[simp] theorem State.fireWith_fld (s : State) (n p : Nat) (k : Ref) : (s.fireWith n p).fld k = s.fld k := by simp only [State.fld, State.rg, State.fireWith_regs]
@[simp] theorem State.fireWith_flag (s : State) (n p : Nat) (k : Ref) : (s.fireWith n p).flag k = s.flag k := by unfold State.flag; rw [State.fireWith_fld]
@[simp] theorem State.fireWith_src (s : State) (n p : Nat) (k : Nat) : (s.fireWith n p).src k = s.src k := by simp only [State.src, State.fireWith_evt]
@[simp] theorem State.fire_rg (s : State) (n : Nat) (k : Nat) : (s.fire n).rg k = s.rg k := by simp only [State.rg, State.fire_regs]
@[simp] theorem State.fire_fld (s : State) (n : Nat) (k : Ref) : (s.fire n).fld k = s.fld k := by simp only [State.fld, State.rg, State.fire_regs]
@[simp] theorem State.fire_flag (s : State) (n : Nat) (k : Ref) : (s.fire n).flag k = s.flag k := by unfold State.flag; rw [State.fire_fld]
@[simp] theorem State.fire_src (s : State) (n : Nat) (k : Nat) : (s.fire n).src k = s.src k := by simp only [State.src, State.fire_evt]
@[simp] theorem State.setCring_rg (s : State) (n : Nat) (r : CRing) (k : Nat) : (s.setCring n r).rg k = s.rg k := by simp only [State.rg, State.setCring_regs]
@[simp] theorem State.setCring_fld (s : State) (n : Nat) (r : CRing) (k : Ref) : (s.setCring n r).fld k = s.fld k := by simp only [State.fld, State.rg, State.setCring_regs]
@[simp] theorem State.setCring_flag (s : State) (n : Nat) (r : CRing) (k : Ref) : (s.setCring n r).flag k = s.flag k := by unfold State.flag; rw [State.setCring_fld]
@[simp] theorem State.setCring_now (s : State) (n : Nat) (r : CRing) : (s.setCring n r).now = s.now := by simp only [State.now, State.setCring_tim]
@[simp] theorem State.setCring_src (s : State) (n : Nat) (r : CRing) (k : Nat) : (s.setCring n r).src k = s.src k := by simp only [State.src, State.setCring_evt]
@[simp] theorem State.setEring_rg (s : State) (n : Nat) (r : ERing) (k : Nat) : (s.setEring n r).rg k = s.rg k := by simp only [State.rg, State.setEring_regs]
@[simp] theorem State.setEring_fld (s : State) (n : Nat) (r : ERing) (k : Ref) : (s.setEring n r).fld k = s.fld k := by simp only [State.fld, State.rg, State.setEring_regs]
@[simp] theorem State.setEring_flag (s : State) (n : Nat) (r : ERing) (k : Ref) : (s.setEring n r).flag k = s.flag k := by unfold State.flag; rw [State.setEring_fld]
@[simp] theorem State.setEring_now (s : State) (n : Nat) (r : ERing) : (s.setEring n r).now = s.now := by simp only [State.now, State.setEring_tim]
@[simp] theorem State.setEring_src (s : State) (n : Nat) (r : ERing) (k : Nat) : (s.setEring n r).src k = s.src k := by simp only [State.src, State.setEring_evt]
@[simp] theorem State.writeEntry_rg (s : State) (n : Nat) (mk : Bool → Entry) (u : Bool) (k : Nat) : (s.writeEntry n mk u).rg k = s.rg k := by simp only [State.rg, State.writeEntry_regs]
@[simp] theorem State.writeEntry_fld (s : State) (n : Nat) (mk : Bool → Entry) (u : Bool) (k : Ref) : (s.writeEntry n mk u).fld k = s.fld k := by simp only [State.fld, State.rg, State.writeEntry_regs]
@[simp] theorem State.writeEntry_flag (s : State) (n : Nat) (mk : Bool → Entry) (u : Bool) (k : Ref) : (s.writeEntry n mk u).flag k = s.flag k := by unfold State.flag; rw [State.writeEntry_fld]
@[simp] theorem State.writeEntry_now (s : State) (n : Nat) (mk : Bool → Entry) (u : Bool) : (s.writeEntry n mk u).now = s.now := by simp only [State.now, State.writeEntry_tim]
@[simp] theorem State.writeEntry_src (s : State) (n : Nat) (mk : Bool → Entry) (u : Bool) (k : Nat) : (s.writeEntry n mk u).src k = s.src k := by simp only [State.src, State.writeEntry_evt]
@[simp] theorem State.writeCompletion_rg (s : State) (n : Nat) (x : Completion) (k : Nat) : (s.writeCompletion n x).rg k = s.rg k := by simp only [State.rg, State.writeCompletion_regs]
@[simp] theorem State.writeCompletion_fld (s : State) (n : Nat) (x : Completion) (k : Ref) : (s.writeCompletion n x).fld k = s.fld k := by simp only [State.fld, State.rg, State.writeCompletion_regs]
@[simp] theorem State.writeCompletion_flag (s : State) (n : Nat) (x : Completion) (k : Ref) : (s.writeCompletion n x).flag k = s.flag k := by unfold State.flag; rw [State.writeCompletion_fld]
@[simp] theorem State.writeCompletion_now (s : State) (n : Nat) (x : Completion) : (s.writeCompletion n x).now = s.now := by simp only [State.now, State.writeCompletion_tim]
@[simp] theorem State.writeCompletion_src (s : State) (n : Nat) (x : Completion) (k : Nat) : (s.writeCompletion n x).src k = s.src k := by simp only [State.src, State.writeCompletion_evt]
@[simp] theorem State.postCompletion_rg (s : State) (n : Nat) (x : Completion) (k : Nat) : (s.postCompletion n x).rg k = s.rg k := by simp only [State.rg, State.postCompletion_regs]
@[simp] theorem State.postCompletion_fld (s : State) (n : Nat) (x : Completion) (k : Ref) : (s.postCompletion n x).fld k = s.fld k := by simp only [State.fld, State.rg, State.postCompletion_regs]
@[simp] theorem State.postCompletion_flag (s : State) (n : Nat) (x : Completion) (k : Ref) : (s.postCompletion n x).flag k = s.flag k := by unfold State.flag; rw [State.postCompletion_fld]
@[simp] theorem State.postCompletion_now (s : State) (n : Nat) (x : Completion) : (s.postCompletion n x).now = s.now := by simp only [State.now, State.postCompletion_tim]
@[simp] theorem State.postCompletion_src (s : State) (n : Nat) (x : Completion) (k : Nat) : (s.postCompletion n x).src k = s.src k := by simp only [State.src, State.postCompletion_evt]
@[simp] theorem State.complete_rg (s : State) (c : Started) (st : MStatus) (a b : Nat) (k : Nat) : (s.complete c st a b).rg k = s.rg k := by simp only [State.rg, State.complete_regs]
@[simp] theorem State.complete_fld (s : State) (c : Started) (st : MStatus) (a b : Nat) (k : Ref) : (s.complete c st a b).fld k = s.fld k := by simp only [State.fld, State.rg, State.complete_regs]
@[simp] theorem State.complete_flag (s : State) (c : Started) (st : MStatus) (a b : Nat) (k : Ref) : (s.complete c st a b).flag k = s.flag k := by unfold State.flag; rw [State.complete_fld]
@[simp] theorem State.complete_now (s : State) (c : Started) (st : MStatus) (a b : Nat) : (s.complete c st a b).now = s.now := by simp only [State.now, State.complete_tim]
@[simp] theorem State.complete_src (s : State) (c : Started) (st : MStatus) (a b : Nat) (k : Nat) : (s.complete c st a b).src k = s.src k := by simp only [State.src, State.complete_evt]
@[simp] theorem State.updStarted_rg (s : State) (i : Nat) (f : Started → Started) (k : Nat) : (s.updStarted i f).rg k = s.rg k := by simp only [State.rg, State.updStarted_regs]
@[simp] theorem State.updStarted_fld (s : State) (i : Nat) (f : Started → Started) (k : Ref) : (s.updStarted i f).fld k = s.fld k := by simp only [State.fld, State.rg, State.updStarted_regs]
@[simp] theorem State.updStarted_flag (s : State) (i : Nat) (f : Started → Started) (k : Ref) : (s.updStarted i f).flag k = s.flag k := by unfold State.flag; rw [State.updStarted_fld]
@[simp] theorem State.updStarted_now (s : State) (i : Nat) (f : Started → Started) : (s.updStarted i f).now = s.now := by simp only [State.now, State.updStarted_tim]
@[simp] theorem State.updStarted_src (s : State) (i : Nat) (f : Started → Started) (k : Nat) : (s.updStarted i f).src k = s.src k := by simp only [State.src, State.updStarted_evt]
@[simp] theorem State.clearMirror_rg (s : State)  (k : Nat) : (s.clearMirror).rg k = s.rg k := by simp only [State.rg, State.clearMirror_regs]
@[simp] theorem State.clearMirror_fld (s : State)  (k : Ref) : (s.clearMirror).fld k = s.fld k := by simp only [State.fld, State.rg, State.clearMirror_regs]
@[simp] theorem State.clearMirror_flag (s : State)  (k : Ref) : (s.clearMirror).flag k = s.flag k := by unfold State.flag; rw [State.clearMirror_fld]
@[simp] theorem State.clearMirror_now (s : State)  : (s.clearMirror).now = s.now := by simp only [State.now, State.clearMirror_tim]
@[simp] theorem State.clearMirror_src (s : State)  (k : Nat) : (s.clearMirror).src k = s.src k := by simp only [State.src, State.clearMirror_evt]
@[simp] theorem State.lagDemote_rg (s : State)  (k : Nat) : (s.lagDemote).rg k = s.rg k := by simp only [State.rg, State.lagDemote_regs]
@[simp] theorem State.lagDemote_fld (s : State)  (k : Ref) : (s.lagDemote).fld k = s.fld k := by simp only [State.fld, State.rg, State.lagDemote_regs]
@[simp] theorem State.lagDemote_flag (s : State)  (k : Ref) : (s.lagDemote).flag k = s.flag k := by unfold State.flag; rw [State.lagDemote_fld]
@[simp] theorem State.lagDemote_now (s : State)  : (s.lagDemote).now = s.now := by simp only [State.now, State.lagDemote_tim]
@[simp] theorem State.order_rg (s : State) (n : Nat) (x : OrderKind) (k : Nat) : ((s.order n x).1).rg k = s.rg k := by simp only [State.rg, State.order_regs]
@[simp] theorem State.order_fld (s : State) (n : Nat) (x : OrderKind) (k : Ref) : ((s.order n x).1).fld k = s.fld k := by simp only [State.fld, State.rg, State.order_regs]
@[simp] theorem State.order_flag (s : State) (n : Nat) (x : OrderKind) (k : Ref) : ((s.order n x).1).flag k = s.flag k := by unfold State.flag; rw [State.order_fld]
@[simp] theorem State.order_now (s : State) (n : Nat) (x : OrderKind) : ((s.order n x).1).now = s.now := by simp only [State.now, State.order_tim]
@[simp] theorem State.carryChange_rg (s : State) (m : Out) (k : Nat) : (s.carryChange m).rg k = s.rg k := by simp only [State.rg, State.carryChange_regs]
@[simp] theorem State.carryChange_fld (s : State) (m : Out) (k : Ref) : (s.carryChange m).fld k = s.fld k := by simp only [State.fld, State.rg, State.carryChange_regs]
@[simp] theorem State.carryChange_flag (s : State) (m : Out) (k : Ref) : (s.carryChange m).flag k = s.flag k := by unfold State.flag; rw [State.carryChange_fld]
@[simp] theorem State.carryChange_now (s : State) (m : Out) : (s.carryChange m).now = s.now := by simp only [State.now, State.carryChange_tim]
@[simp] theorem State.hold_rg (s : State) (i : Nat) (k : Nat) : (s.hold i).rg k = s.rg k := by simp only [State.rg, State.hold_regs]
@[simp] theorem State.hold_fld (s : State) (i : Nat) (k : Ref) : (s.hold i).fld k = s.fld k := by simp only [State.fld, State.rg, State.hold_regs]
@[simp] theorem State.hold_flag (s : State) (i : Nat) (k : Ref) : (s.hold i).flag k = s.flag k := by unfold State.flag; rw [State.hold_fld]
@[simp] theorem State.hold_now (s : State) (i : Nat) : (s.hold i).now = s.now := by simp only [State.now, State.hold_tim]
@[simp] theorem State.hold_src (s : State) (i : Nat) (k : Nat) : (s.hold i).src k = s.src k := by simp only [State.src, State.hold_evt]
@[simp] theorem State.carry_rg (s : State) (c : Started) (k : Nat) : (s.carry c).rg k = s.rg k := by simp only [State.rg, State.carry_regs]
@[simp] theorem State.carry_fld (s : State) (c : Started) (k : Ref) : (s.carry c).fld k = s.fld k := by simp only [State.fld, State.rg, State.carry_regs]
@[simp] theorem State.carry_flag (s : State) (c : Started) (k : Ref) : (s.carry c).flag k = s.flag k := by unfold State.flag; rw [State.carry_fld]
@[simp] theorem State.carry_now (s : State) (c : Started) : (s.carry c).now = s.now := by simp only [State.now, State.carry_tim]
@[simp] theorem State.holderEnd_rg (s : State) (c : Started) (st : MStatus) (a b : Nat) (k : Nat) : (s.holderEnd c st a b).rg k = s.rg k := by simp only [State.rg, State.holderEnd_regs]
@[simp] theorem State.holderEnd_fld (s : State) (c : Started) (st : MStatus) (a b : Nat) (k : Ref) : (s.holderEnd c st a b).fld k = s.fld k := by simp only [State.fld, State.rg, State.holderEnd_regs]
@[simp] theorem State.holderEnd_flag (s : State) (c : Started) (st : MStatus) (a b : Nat) (k : Ref) : (s.holderEnd c st a b).flag k = s.flag k := by unfold State.flag; rw [State.holderEnd_fld]
@[simp] theorem State.holderEnd_now (s : State) (c : Started) (st : MStatus) (a b : Nat) : (s.holderEnd c st a b).now = s.now := by simp only [State.now, State.holderEnd_tim]
@[simp] theorem State.ownDone_rg (s : State) (c : Started) (k : Nat) : (s.ownDone c).rg k = s.rg k := by simp only [State.rg, State.ownDone_regs]
@[simp] theorem State.ownDone_fld (s : State) (c : Started) (k : Ref) : (s.ownDone c).fld k = s.fld k := by simp only [State.fld, State.rg, State.ownDone_regs]
@[simp] theorem State.ownDone_flag (s : State) (c : Started) (k : Ref) : (s.ownDone c).flag k = s.flag k := by unfold State.flag; rw [State.ownDone_fld]
@[simp] theorem State.ownDone_now (s : State) (c : Started) : (s.ownDone c).now = s.now := by simp only [State.now, State.ownDone_tim]
@[simp] theorem State.ownDone_src (s : State) (c : Started) (k : Nat) : (s.ownDone c).src k = s.src k := by simp only [State.src, State.ownDone_evt]
@[simp] theorem State.holderDone_rg (s : State) (c : Started) (a b : Nat) (k : Nat) : (s.holderDone c a b).rg k = s.rg k := by simp only [State.rg, State.holderDone_regs]
@[simp] theorem State.holderDone_fld (s : State) (c : Started) (a b : Nat) (k : Ref) : (s.holderDone c a b).fld k = s.fld k := by simp only [State.fld, State.rg, State.holderDone_regs]
@[simp] theorem State.holderDone_flag (s : State) (c : Started) (a b : Nat) (k : Ref) : (s.holderDone c a b).flag k = s.flag k := by unfold State.flag; rw [State.holderDone_fld]
@[simp] theorem State.holderDone_now (s : State) (c : Started) (a b : Nat) : (s.holderDone c a b).now = s.now := by simp only [State.now, State.holderDone_tim]
@[simp] theorem State.completeWaiting_rg (s : State) (op : Nat) (p : Started → Bool) (st : MStatus) (a b : Nat) (k : Nat) : (s.completeWaiting op p st a b).rg k = s.rg k := by simp only [State.rg, State.completeWaiting_regs]
@[simp] theorem State.completeWaiting_fld (s : State) (op : Nat) (p : Started → Bool) (st : MStatus) (a b : Nat) (k : Ref) : (s.completeWaiting op p st a b).fld k = s.fld k := by simp only [State.fld, State.rg, State.completeWaiting_regs]
@[simp] theorem State.completeWaiting_flag (s : State) (op : Nat) (p : Started → Bool) (st : MStatus) (a b : Nat) (k : Ref) : (s.completeWaiting op p st a b).flag k = s.flag k := by unfold State.flag; rw [State.completeWaiting_fld]
@[simp] theorem State.completeWaiting_now (s : State) (op : Nat) (p : Started → Bool) (st : MStatus) (a b : Nat) : (s.completeWaiting op p st a b).now = s.now := by simp only [State.now, State.completeWaiting_tim]
@[simp] theorem State.completeWaiting_src (s : State) (op : Nat) (p : Started → Bool) (st : MStatus) (a b : Nat) (k : Nat) : (s.completeWaiting op p st a b).src k = s.src k := by simp only [State.src, State.completeWaiting_evt]
@[simp] theorem State.random_rg (s : State) (w : Nat) (k : Nat) : ((s.random w).2).rg k = s.rg k := by simp only [State.rg, State.random_regs]
@[simp] theorem State.random_fld (s : State) (w : Nat) (k : Ref) : ((s.random w).2).fld k = s.fld k := by simp only [State.fld, State.rg, State.random_regs]
@[simp] theorem State.random_flag (s : State) (w : Nat) (k : Ref) : ((s.random w).2).flag k = s.flag k := by unfold State.flag; rw [State.random_fld]
@[simp] theorem State.random_now (s : State) (w : Nat) : ((s.random w).2).now = s.now := by simp only [State.now, State.random_tim]
@[simp] theorem State.random_src (s : State) (w : Nat) (k : Nat) : ((s.random w).2).src k = s.src k := by simp only [State.src, State.random_evt]
@[simp] theorem State.spendNonce_rg (s : State) (v : BitVec 128) (k : Nat) : (s.spendNonce v).rg k = s.rg k := by simp only [State.rg, State.spendNonce_regs]
@[simp] theorem State.spendNonce_fld (s : State) (v : BitVec 128) (k : Ref) : (s.spendNonce v).fld k = s.fld k := by simp only [State.fld, State.rg, State.spendNonce_regs]
@[simp] theorem State.spendNonce_flag (s : State) (v : BitVec 128) (k : Ref) : (s.spendNonce v).flag k = s.flag k := by unfold State.flag; rw [State.spendNonce_fld]
@[simp] theorem State.spendNonce_now (s : State) (v : BitVec 128) : (s.spendNonce v).now = s.now := by simp only [State.now, State.spendNonce_tim]
@[simp] theorem State.spendNonce_src (s : State) (v : BitVec 128) (k : Nat) : (s.spendNonce v).src k = s.src k := by simp only [State.src, State.spendNonce_evt]
@[simp] theorem State.guardFail_rg (s : State) (n : Nat) (st : MStatus) (k : Nat) : (s.guardFail n st).rg k = s.rg k := by simp only [State.rg, State.guardFail_regs]
@[simp] theorem State.guardFail_fld (s : State) (n : Nat) (st : MStatus) (k : Ref) : (s.guardFail n st).fld k = s.fld k := by simp only [State.fld, State.rg, State.guardFail_regs]
@[simp] theorem State.guardFail_flag (s : State) (n : Nat) (st : MStatus) (k : Ref) : (s.guardFail n st).flag k = s.flag k := by unfold State.flag; rw [State.guardFail_fld]
@[simp] theorem State.guardFail_now (s : State) (n : Nat) (st : MStatus) : (s.guardFail n st).now = s.now := by simp only [State.now, State.guardFail_tim]
@[simp] theorem State.missSlot_rg (s : State) (t n : Nat) (k : Nat) : (s.missSlot t n).rg k = s.rg k := by simp only [State.rg, State.missSlot_regs]
@[simp] theorem State.missSlot_fld (s : State) (t n : Nat) (k : Ref) : (s.missSlot t n).fld k = s.fld k := by simp only [State.fld, State.rg, State.missSlot_regs]
@[simp] theorem State.missSlot_flag (s : State) (t n : Nat) (k : Ref) : (s.missSlot t n).flag k = s.flag k := by unfold State.flag; rw [State.missSlot_fld]
@[simp] theorem State.stepWindow_rg (s : State) (t n : Nat) (k : Nat) : (s.stepWindow t n).rg k = s.rg k := by simp only [State.rg, State.stepWindow_regs]
@[simp] theorem State.stepWindow_fld (s : State) (t n : Nat) (k : Ref) : (s.stepWindow t n).fld k = s.fld k := by simp only [State.fld, State.rg, State.stepWindow_regs]
@[simp] theorem State.stepWindow_flag (s : State) (t n : Nat) (k : Ref) : (s.stepWindow t n).flag k = s.flag k := by unfold State.flag; rw [State.stepWindow_fld]
@[simp] theorem State.stepWindow_now (s : State) (t n : Nat) : (s.stepWindow t n).now = s.now := by simp only [State.now, State.stepWindow_tim]
@[simp] theorem State.stepWindow_src (s : State) (t n : Nat) (k : Nat) : (s.stepWindow t n).src k = s.src k := by simp only [State.src, State.stepWindow_evt]
@[simp] theorem State.carryReg_rg (s : State) (a : Nat) (v : Word) (k : Nat) : (s.carryReg a v).rg k = s.rg k := by simp only [State.rg, State.carryReg_regs]
@[simp] theorem State.carryReg_fld (s : State) (a : Nat) (v : Word) (k : Ref) : (s.carryReg a v).fld k = s.fld k := by simp only [State.fld, State.rg, State.carryReg_regs]
@[simp] theorem State.carryReg_flag (s : State) (a : Nat) (v : Word) (k : Ref) : (s.carryReg a v).flag k = s.flag k := by unfold State.flag; rw [State.carryReg_fld]
@[simp] theorem State.carryReg_now (s : State) (a : Nat) (v : Word) : (s.carryReg a v).now = s.now := by simp only [State.now, State.carryReg_tim]

end Sys2Proof.Machine
end

