-- ==== Sys2Proof/Laws/FrameCore.lean ====
section
/-! SUPPORT. Frames of the definitions of Flags, Ops, Meter, Traffic: each leaves the queue of commands as it is, and memory as it is or in
its canonical form. -/
set_option maxRecDepth 8000
set_option Elab.async false
set_option linter.all false
namespace Sys2Proof.Machine

/-! ### How the two projections pass through control structure -/

@[simp] theorem State.pending_ite (c : Prop) [Decidable c] (a b : State) :
    (if c then a else b).pending = if c then a.pending else b.pending := apply_ite State.pending c a b

@[simp] theorem State.mem_ite (c : Prop) [Decidable c] (a b : State) :
    (if c then a else b).mem = if c then a.mem else b.mem := apply_ite State.mem c a b

/-- A fold of a function that leaves the queue leaves it. -/
@[simp] theorem State.foldl_pending {α : Type} (g : State → α → State) (h : ∀ u a, (g u a).pending = u.pending) (l : List α) (s : State) :
    (l.foldl g s).pending = s.pending := by
  induction l generalizing s with
  | nil => rfl
  | cons a l ih => rw [List.foldl_cons, ih, h]

/-- A fold of a function that leaves memory leaves it. -/
@[simp] theorem State.foldl_mem {α : Type} (g : State → α → State) (h : ∀ u a, (g u a).mem = u.mem) (l : List α) (s : State) :
    (l.foldl g s).mem = s.mem := by
  induction l generalizing s with
  | nil => rfl
  | cons a l ih => rw [List.foldl_cons, ih, h]

/-- A fold of a function that keeps memory canonical keeps it canonical. -/
theorem State.foldl_wf {α : Type} (g : State → α → State) (h : ∀ u a, Memory.wf u.mem = true → Memory.wf (g u a).mem = true)
    (l : List α) (s : State) (hs : Memory.wf s.mem = true) : Memory.wf (l.foldl g s).mem = true := by
  induction l generalizing s with
  | nil => exact hs
  | cons a l ih => exact ih _ (h _ _ hs)

@[simp] theorem writeMem_wf (m : List Host.Cell) (a : Nat) (b : List Byte) (h : Memory.wf m = true) : Memory.wf (writeMem m a b) = true := by
  induction b generalizing m a with
  | nil => exact h
  | cons x b ih => exact ih _ _ (Assoc.wf_set 0 m a x h)

@[simp] theorem Memory.wf_filter (m : List Host.Cell) (p : Host.Cell → Bool) (h : Memory.wf m = true) : Memory.wf (m.filter p) = true :=
  Assoc.wf_filter 0 m p h

@[simp] theorem State.foldr_pending {α : Type} (g : α → State → State) (h : ∀ a u, (g a u).pending = u.pending) (l : List α) (s : State) :
    (l.foldr g s).pending = s.pending := by
  induction l with
  | nil => rfl
  | cons a l ih => rw [List.foldr_cons, h, ih]

@[simp] theorem State.foldr_mem {α : Type} (g : α → State → State) (h : ∀ a u, (g a u).mem = u.mem) (l : List α) (s : State) :
    (l.foldr g s).mem = s.mem := by
  induction l with
  | nil => rfl
  | cons a l ih => rw [List.foldr_cons, h, ih]


@[simp] theorem State.setRg_same (s : State) (x0) (x1) :
    (State.setRg s x0 x1).pending = s.pending ∧ (State.setRg s x0 x1).mem = s.mem := by
  unfold State.setRg; constructor <;> simp

@[simp] theorem State.setFld_same (s : State) (x0) (x1) :
    (State.setFld s x0 x1).pending = s.pending ∧ (State.setFld s x0 x1).mem = s.mem := by
  unfold State.setFld; constructor <;> simp

@[simp] theorem State.bump_same (s : State) (x0) (x1) :
    (State.bump s x0 x1).pending = s.pending ∧ (State.bump s x0 x1).mem = s.mem := by
  unfold State.bump; constructor <;> simp

@[simp] theorem State.emit_same (s : State) (x0) : (State.emit s x0).pending = s.pending ∧ (State.emit s x0).mem = s.mem := by
  unfold State.emit; constructor <;> simp

@[simp] theorem State.sendTwin_same (s : State) (x0) :
    (State.sendTwin s x0).pending = s.pending ∧ (State.sendTwin s x0).mem = s.mem := by
  unfold State.sendTwin; constructor <;> simp

@[simp] theorem State.draw_same (s : State) (x0) :
    ((State.draw s x0).2).pending = s.pending ∧ ((State.draw s x0).2).mem = s.mem := by
  unfold State.draw; constructor <;> simp

@[simp] theorem State.drawBelow_same (s : State) (x0) :
    ((State.drawBelow s x0).2).pending = s.pending ∧ ((State.drawBelow s x0).2).mem = s.mem := by
  unfold State.drawBelow; constructor <;> simp

@[simp] theorem State.setSrc_same (s : State) (x0) (x1) :
    (State.setSrc s x0 x1).pending = s.pending ∧ (State.setSrc s x0 x1).mem = s.mem := by
  unfold State.setSrc; constructor <;> simp

@[simp] theorem State.count_same (s : State) (x0) (x1) :
    (State.count s x0 x1).pending = s.pending ∧ (State.count s x0 x1).mem = s.mem := by
  unfold State.count; constructor <;> simp

@[simp] theorem State.raise_same (s : State) (x0) (x1) :
    (State.raise s x0 x1).pending = s.pending ∧ (State.raise s x0 x1).mem = s.mem := by
  unfold State.raise; constructor <;> simp

@[simp] theorem State.raiseIf_same (s : State) (x0) (x1) (x2) :
    (State.raiseIf s x0 x1 x2).pending = s.pending ∧ (State.raiseIf s x0 x1 x2).mem = s.mem := by
  unfold State.raiseIf; constructor <;> simp

@[simp] theorem State.setCring_same (s : State) (x0) (x1) :
    (State.setCring s x0 x1).pending = s.pending ∧ (State.setCring s x0 x1).mem = s.mem := by
  unfold State.setCring; constructor <;> simp

@[simp] theorem State.setEring_same (s : State) (x0) (x1) :
    (State.setEring s x0 x1).pending = s.pending ∧ (State.setEring s x0 x1).mem = s.mem := by
  unfold State.setEring; constructor <;> simp

@[simp] theorem State.writeEntry_same (s : State) (x0) (x1) (x2) :
    (State.writeEntry s x0 x1 x2).pending = s.pending ∧ (State.writeEntry s x0 x1 x2).mem = s.mem := by
  unfold State.writeEntry; constructor <;> simp

@[simp] theorem State.writeCompletion_same (s : State) (x0) (x1) :
    (State.writeCompletion s x0 x1).pending = s.pending ∧ (State.writeCompletion s x0 x1).mem = s.mem := by
  unfold State.writeCompletion; constructor <;> simp

@[simp] theorem State.writeOwed_same (s : State) (x0) (x1) :
    (State.writeOwed s x0 x1).pending = s.pending ∧ (State.writeOwed s x0 x1).mem = s.mem := by
  induction x1 generalizing s <;> first | (simp_all [State.writeOwed]; done) | (constructor <;> (simp only [State.writeOwed]; (repeat' split) <;> simp_all))

@[simp] theorem State.postCompletion_same (s : State) (x0) (x1) :
    (State.postCompletion s x0 x1).pending = s.pending ∧ (State.postCompletion s x0 x1).mem = s.mem := by
  unfold State.postCompletion; constructor <;> simp

@[simp] theorem State.complete_same (s : State) (x0) (x1) (x2) (x3) :
    (State.complete s x0 x1 x2 x3).pending = s.pending ∧ (State.complete s x0 x1 x2 x3).mem = s.mem := by
  unfold State.complete; constructor <;> simp

@[simp] theorem State.hold_same (s : State) (x0) : (State.hold s x0).pending = s.pending ∧ (State.hold s x0).mem = s.mem := by
  unfold State.hold; constructor <;> simp

@[simp] theorem State.completeWaiting_same (s : State) (x0) (x1) (x2) (x3) (x4) :
    (State.completeWaiting s x0 x1 x2 x3 x4).pending = s.pending ∧ (State.completeWaiting s x0 x1 x2 x3 x4).mem = s.mem := by
  constructor <;> (simp only [State.completeWaiting]; (repeat' split) <;> simp_all)

@[simp] theorem State.random_same (s : State) (x0) :
    ((State.random s x0).2).pending = s.pending ∧ ((State.random s x0).2).mem = s.mem := by
  unfold State.random; constructor <;> simp

@[simp] theorem State.guardFail_same (s : State) (x0) (x1) :
    (State.guardFail s x0 x1).pending = s.pending ∧ (State.guardFail s x0 x1).mem = s.mem := by
  unfold State.guardFail; constructor <;> simp

@[simp] theorem State.spendNonce_same (s : State) (x0) :
    (State.spendNonce s x0).pending = s.pending ∧ (State.spendNonce s x0).mem = s.mem := by
  unfold State.spendNonce; constructor <;> simp

@[simp] theorem State.runGuard_same (s : State) (x0) (x1) :
    ((State.runGuard s x0 x1).1).pending = s.pending ∧ ((State.runGuard s x0 x1).1).mem = s.mem := by
  constructor <;> (simp only [State.runGuard]; (repeat' split) <;> simp_all)

@[simp] theorem State.runMgmt_pending (s : State) (id op : Nat) (rs : List (Nat × Nat)) (p : Nat → Bool) (q : Descriptor → Bool)
    (b : Started → State → State) (h : ∀ c u, (b c u).pending = u.pending) : (s.runMgmt id op rs p q b).pending = s.pending := by
  simp only [State.runMgmt]; (repeat' split) <;> first | (simp_all; done) | (simp; grind [State.runGuard_same]) | grind [State.runGuard_same]

@[simp] theorem State.runMgmt_mem (s : State) (id op : Nat) (rs : List (Nat × Nat)) (p : Nat → Bool) (q : Descriptor → Bool)
    (b : Started → State → State) (h : ∀ c u, (b c u).mem = u.mem) : (s.runMgmt id op rs p q b).mem = s.mem := by
  simp only [State.runMgmt]; (repeat' split) <;> first | (simp_all; done) | (simp; grind [State.runGuard_same]) | grind [State.runGuard_same]

theorem State.runMgmt_both (s : State) (id op : Nat) (rs : List (Nat × Nat)) (p : Nat → Bool) (q : Descriptor → Bool)
    (b : Started → State → State) (h : ∀ c u, (b c u).pending = u.pending ∧ (b c u).mem = u.mem) :
    (s.runMgmt id op rs p q b).pending = s.pending ∧ (s.runMgmt id op rs p q b).mem = s.mem :=
  ⟨State.runMgmt_pending s id op rs p q b fun c u => (h c u).1, State.runMgmt_mem s id op rs p q b fun c u => (h c u).2⟩

theorem State.runMgmt_wfs (s : State) (id op : Nat) (rs : List (Nat × Nat)) (p : Nat → Bool) (q : Descriptor → Bool)
    (b : Started → State → State) (h : ∀ c u, (b c u).pending = u.pending ∧ (Memory.wf u.mem = true → Memory.wf (b c u).mem = true)) :
    (s.runMgmt id op rs p q b).pending = s.pending ∧ (Memory.wf s.mem = true → Memory.wf (s.runMgmt id op rs p q b).mem = true) := by
  refine ⟨State.runMgmt_pending s id op rs p q b fun c u => (h c u).1, fun hw => ?_⟩
  simp only [State.runMgmt]; (repeat' split) <;> first | (simp_all; done) | (simp; grind [State.runGuard_same]) | grind [State.runGuard_same]

@[simp] theorem State.runPlain_pending (s : State) (id op : Nat) (rs : List (Nat × Nat))
    (b : Started → State → State) (h : ∀ c u, (b c u).pending = u.pending) : (s.runPlain id op rs b).pending = s.pending :=
  State.runMgmt_pending s id op rs _ _ b h

@[simp] theorem State.runPlain_mem (s : State) (id op : Nat) (rs : List (Nat × Nat))
    (b : Started → State → State) (h : ∀ c u, (b c u).mem = u.mem) : (s.runPlain id op rs b).mem = s.mem :=
  State.runMgmt_mem s id op rs _ _ b h

theorem State.runPlain_both (s : State) (id op : Nat) (rs : List (Nat × Nat))
    (b : Started → State → State) (h : ∀ c u, (b c u).pending = u.pending ∧ (b c u).mem = u.mem) :
    (s.runPlain id op rs b).pending = s.pending ∧ (s.runPlain id op rs b).mem = s.mem :=
  State.runMgmt_both s id op rs _ _ b h

@[simp] theorem State.updStarted_same (s : State) (x0) (x1) :
    (State.updStarted s x0 x1).pending = s.pending ∧ (State.updStarted s x0 x1).mem = s.mem := by
  unfold State.updStarted; constructor <;> simp

@[simp] theorem State.clearMirror_same (s : State) :
    (State.clearMirror s).pending = s.pending ∧ (State.clearMirror s).mem = s.mem := by
  unfold State.clearMirror; constructor <;> simp

@[simp] theorem State.lagDemote_same (s : State) : (State.lagDemote s).pending = s.pending ∧ (State.lagDemote s).mem = s.mem := by
  unfold State.lagDemote; constructor <;> simp

@[simp] theorem State.order_same (s : State) (x0) (x1) :
    ((State.order s x0 x1).1).pending = s.pending ∧ ((State.order s x0 x1).1).mem = s.mem := by
  constructor <;> (simp only [State.order]; (repeat' split) <;> simp_all)

@[simp] theorem State.carryChange_same (s : State) (x0) :
    (State.carryChange s x0).pending = s.pending ∧ (State.carryChange s x0).mem = s.mem := by
  unfold State.carryChange; constructor <;> simp

@[simp] theorem State.carry_same (s : State) (x0) : (State.carry s x0).pending = s.pending ∧ (State.carry s x0).mem = s.mem := by
  unfold State.carry; constructor <;> simp

@[simp] theorem State.holderEnd_same (s : State) (x0) (x1) (x2) (x3) :
    (State.holderEnd s x0 x1 x2 x3).pending = s.pending ∧ (State.holderEnd s x0 x1 x2 x3).mem = s.mem := by
  unfold State.holderEnd; constructor <;> simp

@[simp] theorem State.holderDone_same (s : State) (x0) (x1) (x2) :
    (State.holderDone s x0 x1 x2).pending = s.pending ∧ (State.holderDone s x0 x1 x2).mem = s.mem := by
  unfold State.holderDone; constructor <;> simp

@[simp] theorem State.ownDone_same (s : State) (x0) :
    (State.ownDone s x0).pending = s.pending ∧ (State.ownDone s x0).mem = s.mem := by
  unfold State.ownDone; constructor <;> simp

@[simp] theorem State.peerTook_same (s : State) (x0) :
    (State.peerTook s x0).pending = s.pending ∧ (State.peerTook s x0).mem = s.mem := by
  constructor <;> (simp only [State.peerTook]; (repeat' split) <;> simp_all)

@[simp] theorem State.peerGone_same (s : State) : (State.peerGone s).pending = s.pending ∧ (State.peerGone s).mem = s.mem := by
  unfold State.peerGone; constructor <;> simp

@[simp] theorem State.setSlot_same (s : State) (x0) (x1) :
    (State.setSlot s x0 x1).pending = s.pending ∧ (State.setSlot s x0 x1).mem = s.mem := by
  unfold State.setSlot; constructor <;> simp

@[simp] theorem State.reach_same (s : State) (x0) : (State.reach s x0).pending = s.pending ∧ (State.reach s x0).mem = s.mem := by
  unfold State.reach; constructor <;> simp

@[simp] theorem State.startAt_same (s : State) (x0) :
    (State.startAt s x0).pending = s.pending ∧ (State.startAt s x0).mem = s.mem := by
  unfold State.startAt; constructor <;> simp

@[simp] theorem State.takeFloor_same (s : State) (x0) :
    (State.takeFloor s x0).pending = s.pending ∧ (State.takeFloor s x0).mem = s.mem := by
  unfold State.takeFloor; constructor <;> simp

@[simp] theorem State.fireWith_same (s : State) (x0) (x1) :
    (State.fireWith s x0 x1).pending = s.pending ∧ (State.fireWith s x0 x1).mem = s.mem := by
  unfold State.fireWith; constructor <;> simp

@[simp] theorem State.fire_same (s : State) (x0) : (State.fire s x0).pending = s.pending ∧ (State.fire s x0).mem = s.mem := by
  unfold State.fire; constructor <;> simp

@[simp] theorem State.missSlot_same (s : State) (x0) (x1) :
    (State.missSlot s x0 x1).pending = s.pending ∧ (State.missSlot s x0 x1).mem = s.mem := by
  unfold State.missSlot; constructor <;> simp

@[simp] theorem State.stepWindow_same (s : State) (x0) (x1) :
    (State.stepWindow s x0 x1).pending = s.pending ∧ (State.stepWindow s x0 x1).mem = s.mem := by
  unfold State.stepWindow; constructor <;> simp

@[simp] theorem State.stepTime_same (s : State) (x0) :
    (State.stepTime s x0).pending = s.pending ∧ (State.stepTime s x0).mem = s.mem := by
  unfold State.stepTime; constructor <;> simp

@[simp] theorem State.when_pending (s : State) (c : Bool) (f : State → State) (h : ∀ u, (f u).pending = u.pending) :
    (s.when c f).pending = s.pending := by unfold State.when; split <;> simp [h]

@[simp] theorem State.when_mem (s : State) (c : Bool) (f : State → State) (h : ∀ u, (f u).mem = u.mem) :
    (s.when c f).mem = s.mem := by unfold State.when; split <;> simp [h]

theorem State.when_wf (s : State) (c : Bool) (f : State → State) (h : Memory.wf s.mem = true → Memory.wf (f s).mem = true)
    (hs : Memory.wf s.mem = true) : Memory.wf (s.when c f).mem = true := by unfold State.when; split <;> simp_all

@[simp] theorem State.wedge_same (s : State) (x0) : (State.wedge s x0).pending = s.pending ∧ (State.wedge s x0).mem = s.mem := by
  unfold State.wedge; constructor <;> simp

@[simp] theorem State.setPolicer_same (s : State) (x0) (x1) :
    (State.setPolicer s x0 x1).pending = s.pending ∧ (State.setPolicer s x0 x1).mem = s.mem := by
  unfold State.setPolicer; constructor <;> simp

@[simp] theorem State.meterOn_same (s : State) (x0) (x1) (x2) (x3) :
    ((State.meterOn s x0 x1 x2 x3).1).pending = s.pending ∧ ((State.meterOn s x0 x1 x2 x3).1).mem = s.mem := by
  constructor <;> (simp only [State.meterOn]; (repeat' split) <;> simp_all)

@[simp] theorem State.strictPass_same (s : State) (x0) (x1) (x2) (x3) :
    ((State.strictPass s x0 x1 x2 x3).1).pending = s.pending ∧ ((State.strictPass s x0 x1 x2 x3).1).mem = s.mem := by
  constructor <;> (simp only [State.strictPass]; (repeat' split) <;> simp_all)

@[simp] theorem State.setSlalom_same (s : State) (x0) (x1) :
    (State.setSlalom s x0 x1).pending = s.pending ∧ (State.setSlalom s x0 x1).mem = s.mem := by
  unfold State.setSlalom; constructor <;> simp

@[simp] theorem State.slalomStep_same (s : State) (x0) (x1) :
    (State.slalomStep s x0 x1).pending = s.pending ∧ (State.slalomStep s x0 x1).mem = s.mem := by
  constructor <;> (simp only [State.slalomStep]; (repeat' split) <;> simp_all)

theorem execConfigurePolicer_same (x0) (s : State) :
    ∀ t, execConfigurePolicer x0 s = .next t → (t).pending = s.pending ∧ (t).mem = s.mem := by
  intro t h; simp only [execConfigurePolicer, Host.Outcome.next.injEq] at h; subst h
  apply State.runMgmt_both; intros; constructor <;> ((try dsimp only); (repeat' split) <;> simp_all)

theorem execFreePolicer_same (x0) (s : State) :
    ∀ t, execFreePolicer x0 s = .next t → (t).pending = s.pending ∧ (t).mem = s.mem := by
  intro t h; simp only [execFreePolicer, Host.Outcome.next.injEq] at h; subst h
  apply State.runMgmt_both; intros; constructor <;> ((try dsimp only); (repeat' split) <;> simp_all)

theorem execConfigureShaper_same (x0) (s : State) :
    ∀ t, execConfigureShaper x0 s = .next t → (t).pending = s.pending ∧ (t).mem = s.mem := by
  intro t h; simp only [execConfigureShaper, Host.Outcome.next.injEq] at h; subst h
  apply State.runMgmt_both; intros; constructor <;> ((try dsimp only); (repeat' split) <;> simp_all)

theorem execFreeShaper_same (x0) (s : State) : ∀ t, execFreeShaper x0 s = .next t → (t).pending = s.pending ∧ (t).mem = s.mem := by
  intro t h; simp only [execFreeShaper, Host.Outcome.next.injEq] at h; subst h
  apply State.runMgmt_both; intros; constructor <;> ((try dsimp only); (repeat' split) <;> simp_all)

theorem execSetRebuildRate_same (x0) (s : State) :
    ∀ t, execSetRebuildRate x0 s = .next t → (t).pending = s.pending ∧ (t).mem = s.mem := by
  intro t h; simp only [execSetRebuildRate, Host.Outcome.next.injEq] at h; subst h
  apply State.runPlain_both; intros; constructor <;> ((try dsimp only); (repeat' split) <;> simp_all)

end Sys2Proof.Machine
end

