-- ==== Sys2Proof/Laws/FrameSwitch.lean ====
section
/-! SUPPORT. Frames of the definitions of Tack, Tables, Switch, Telemetry, Store: each leaves the queue of commands as it is, and memory as it is or in
its canonical form. -/
set_option maxRecDepth 8000
set_option Elab.async false
set_option linter.all false
namespace Sys2Proof.Machine

@[simp] theorem State.extFault_same (s : State) : (State.extFault s).pending = s.pending ∧ (State.extFault s).mem = s.mem := by
  unfold State.extFault; constructor <;> simp

@[simp] theorem State.issue_same (s : State) (x0) (x1) (x2) (x3) :
    (State.issue s x0 x1 x2 x3).pending = s.pending ∧ (State.issue s x0 x1 x2 x3).mem = s.mem := by
  unfold State.issue; constructor <;> simp

@[simp] theorem State.pcall_same (s : State) (x0) (x1) (x2) (x3) :
    (State.pcall s x0 x1 x2 x3).pending = s.pending ∧ (State.pcall s x0 x1 x2 x3).mem = s.mem := by
  unfold State.pcall; constructor <;> simp

@[simp] theorem State.take_same (s : State) (x0) (x1) :
    (State.take s x0 x1).pending = s.pending ∧ (State.take s x0 x1).mem = s.mem := by
  unfold State.take; constructor <;> simp

@[simp] theorem State.askTicket_same (s : State) (x0) (x1) (x2) (x3) :
    (State.askTicket s x0 x1 x2 x3).pending = s.pending ∧ (State.askTicket s x0 x1 x2 x3).mem = s.mem := by
  constructor <;> (simp only [State.askTicket]; (repeat' split) <;> simp_all)

@[simp] theorem State.post_same (s : State) (x0) (x1) (x2) :
    (State.post s x0 x1 x2).pending = s.pending ∧ (State.post s x0 x1 x2).mem = s.mem := by
  unfold State.post; constructor <;> simp

@[simp] theorem State.closeCall_same (s : State) (x0) :
    (State.closeCall s x0).pending = s.pending ∧ (Memory.wf s.mem = true → Memory.wf (State.closeCall s x0).mem = true) := by
  unfold State.closeCall; dsimp only; constructor
  · (repeat' split) <;> simp_all
  · intro hw; (repeat' split) <;> simp_all

@[simp] theorem State.tellCaller_same (s : State) (x0) (x1) :
    (State.tellCaller s x0 x1).pending = s.pending ∧ (State.tellCaller s x0 x1).mem = s.mem := by
  constructor <;> (simp only [State.tellCaller]; (repeat' split) <;> simp_all)

@[simp] theorem State.unstall_same (s : State) (x0) :
    (State.unstall s x0).pending = s.pending ∧ (State.unstall s x0).mem = s.mem := by
  constructor <;> (simp only [State.unstall]; (repeat' split) <;> simp_all)

theorem execPrimitiveComplete_same (x0) (x1) (s : State) :
    ∀ t, execPrimitiveComplete x0 x1 s = .next t → (t).pending = s.pending ∧ (Memory.wf s.mem = true → Memory.wf (t).mem = true) := by
  intro t h; simp only [execPrimitiveComplete, State.when, State.pathFault, Host.Outcome.next.injEq] at h; subst h; constructor
  · (repeat' split) <;> simp_all
  · intro hw; (repeat' split) <;> simp_all

@[simp] theorem State.answer_same (s : State) (x0) (x1) (x2) :
    (State.answer s x0 x1 x2).pending = s.pending ∧ (State.answer s x0 x1 x2).mem = s.mem := by
  unfold State.answer; constructor <;> simp

theorem State.engine_both (s : State) (prim : Nat) (b : Call → State → Nat × Nat × State)
    (h : ∀ c u, (b c u).2.2.pending = u.pending ∧ (b c u).2.2.mem = u.mem) :
    (s.engine prim b).pending = s.pending ∧ (s.engine prim b).mem = s.mem := by
  simp only [State.engine]; split
  · simp
  · next c _ => exact ⟨by simp [(h c s).1], by simp [(h c s).2]⟩

theorem State.engine_wf (s : State) (prim : Nat) (b : Call → State → Nat × Nat × State)
    (h : ∀ c u, (b c u).2.2.pending = u.pending ∧ (Memory.wf u.mem = true → Memory.wf (b c u).2.2.mem = true)) :
    (s.engine prim b).pending = s.pending ∧ (Memory.wf s.mem = true → Memory.wf (s.engine prim b).mem = true) := by
  simp only [State.engine]; split
  · simp
  · next c _ => exact ⟨by simp [(h c s).1], fun hw => by simpa using (h c s).2 hw⟩

theorem execParse_same (x0) (x1) (x2) (s : State) :
    ∀ t, execParse x0 x1 x2 s = .next t → (t).pending = s.pending ∧ (Memory.wf s.mem = true → Memory.wf (t).mem = true) := by
  intro t h; simp only [execParse, Host.Outcome.next.injEq] at h; subst h
  apply State.engine_wf; intro c u; constructor
  · (try dsimp only); (repeat' split) <;> simp_all
  · intro hw; (try dsimp only); (repeat' split) <;> simp_all

@[simp] theorem State.setQueue_same (s : State) (x0) (x1) :
    (State.setQueue s x0 x1).pending = s.pending ∧ (State.setQueue s x0 x1).mem = s.mem := by
  unfold State.setQueue; constructor <;> simp

theorem execRingProduce_same (x0) (x1) (x2) (s : State) :
    ∀ t, execRingProduce x0 x1 x2 s = .next t → (t).pending = s.pending ∧ (t).mem = s.mem := by
  intro t h; simp only [execRingProduce, Host.Outcome.next.injEq] at h; subst h
  apply State.engine_both; intros; constructor <;> ((try dsimp only); (repeat' split) <;> simp_all)

theorem execRingConsume_same (x0) (x1) (s : State) :
    ∀ t, execRingConsume x0 x1 s = .next t → (t).pending = s.pending ∧ (Memory.wf s.mem = true → Memory.wf (t).mem = true) := by
  intro t h; simp only [execRingConsume, Host.Outcome.next.injEq] at h; subst h
  apply State.engine_wf; intro c u; constructor
  · (try dsimp only); (repeat' split) <;> simp_all
  · intro hw; (try dsimp only); (repeat' split) <;> simp_all

theorem execRingDoorbell_same (x0) (s : State) :
    ∀ t, execRingDoorbell x0 s = .next t → (t).pending = s.pending ∧ (t).mem = s.mem := by
  intro t h; simp only [execRingDoorbell, Host.Outcome.next.injEq] at h; subst h
  apply State.engine_both; intros; constructor <;> ((try dsimp only); (repeat' split) <;> simp_all)

theorem execTimeRead_same (x0) (s : State) :
    ∀ t, execTimeRead x0 s = .next t → (t).pending = s.pending ∧ (Memory.wf s.mem = true → Memory.wf (t).mem = true) := by
  intro t h; simp only [execTimeRead, Host.Outcome.next.injEq] at h; subst h
  apply State.engine_wf; intro c u; constructor
  · (try dsimp only); (repeat' split) <;> simp_all
  · intro hw; (try dsimp only); (repeat' split) <;> simp_all

theorem execTimeAllocate_same (x0) (x1) (x2) (x3) (x4) (s : State) :
    ∀ t, execTimeAllocate x0 x1 x2 x3 x4 s = .next t → (t).pending = s.pending ∧ (t).mem = s.mem := by
  intro t h; simp only [execTimeAllocate, Host.Outcome.next.injEq] at h; subst h
  apply State.engine_both; intros; constructor <;> ((try dsimp only); (repeat' split) <;> simp_all)

theorem execTimeArm_same (x0) (x1) (x2) (x3) (x4) (s : State) :
    ∀ t, execTimeArm x0 x1 x2 x3 x4 s = .next t → (t).pending = s.pending ∧ (t).mem = s.mem := by
  intro t h; simp only [execTimeArm, Host.Outcome.next.injEq] at h; subst h
  apply State.engine_both; intros; constructor <;> ((try dsimp only); (repeat' split) <;> simp_all)

theorem execTimeFree_same (x0) (s : State) : ∀ t, execTimeFree x0 s = .next t → (t).pending = s.pending ∧ (t).mem = s.mem := by
  intro t h; simp only [execTimeFree, Host.Outcome.next.injEq] at h; subst h
  apply State.engine_both; intros; constructor <;> ((try dsimp only); (repeat' split) <;> simp_all)

@[simp] theorem State.countCall_pending (s : State) (c : Call) (k : Nat) (f : State → Nat × Nat × State)
    (h : (f s).2.2.pending = s.pending) : (s.countCall c k f).2.2.pending = s.pending := by
  unfold State.countCall; (repeat' split) <;> simp [h]

@[simp] theorem State.countCall_mem (s : State) (c : Call) (k : Nat) (f : State → Nat × Nat × State)
    (h : (f s).2.2.mem = s.mem) : (s.countCall c k f).2.2.mem = s.mem := by
  unfold State.countCall; (repeat' split) <;> simp [h]

theorem execCountAdd_same (x0 x1 : Nat) (s : State) :
    ∀ t, execCountAdd x0 x1 s = .next t → t.pending = s.pending ∧ t.mem = s.mem := by
  intro t h; simp only [execCountAdd, Host.Outcome.next.injEq] at h; subst h
  apply State.engine_both; intro c u
  constructor
  · rw [State.countCall_pending]; rfl
  · rw [State.countCall_mem]; rfl

theorem execCountRead_same (x0 : Nat) (s : State) : ∀ t, execCountRead x0 s = .next t → t.pending = s.pending ∧ t.mem = s.mem := by
  intro t h; simp only [execCountRead, Host.Outcome.next.injEq] at h; subst h
  apply State.engine_both; intro c u
  constructor
  · rw [State.countCall_pending]; rfl
  · rw [State.countCall_mem]; rfl

theorem execCountReadClear_same (x0 : Nat) (s : State) :
    ∀ t, execCountReadClear x0 s = .next t → t.pending = s.pending ∧ t.mem = s.mem := by
  intro t h; simp only [execCountReadClear, Host.Outcome.next.injEq] at h; subst h
  apply State.engine_both; intro c u
  constructor
  · rw [State.countCall_pending]; rfl
  · rw [State.countCall_mem]; rfl

@[simp] theorem State.setLock_same (s : State) (x0) (x1) :
    (State.setLock s x0 x1).pending = s.pending ∧ (State.setLock s x0 x1).mem = s.mem := by
  unfold State.setLock; constructor <;> simp

theorem execLockAcquire_same (x0) (x1) (s : State) :
    ∀ t, execLockAcquire x0 x1 s = .next t → (t).pending = s.pending ∧ (t).mem = s.mem := by
  intro t h; simp only [execLockAcquire, State.when, State.pathFault, Host.Outcome.next.injEq] at h; subst h; constructor <;> ((repeat' split) <;> simp)

theorem execLockGrant_same (x0) (s : State) : ∀ t, execLockGrant x0 s = .next t → (t).pending = s.pending ∧ (t).mem = s.mem := by
  intro t h; simp only [execLockGrant, State.when, State.pathFault, Host.Outcome.next.injEq] at h; subst h; constructor <;> ((repeat' split) <;> simp)

theorem execLockRelease_same (x0) (s : State) :
    ∀ t, execLockRelease x0 s = .next t → (t).pending = s.pending ∧ (t).mem = s.mem := by
  intro t h; simp only [execLockRelease, Host.Outcome.next.injEq] at h; subst h
  apply State.engine_both; intros; constructor <;> ((try dsimp only); (repeat' split) <;> simp_all)

theorem zeroMem_wf (m : List Host.Cell) (a n : Nat) (h : Memory.wf m = true) : Memory.wf (zeroMem m a n) = true :=
  Memory.wf_filter m _ h

theorem foldMem_wf {α : Type} (g : List Host.Cell → α → List Host.Cell) (h : ∀ m a, Memory.wf m = true → Memory.wf (g m a) = true)
    (l : List α) (m : List Host.Cell) (hm : Memory.wf m = true) : Memory.wf (l.foldl g m) = true := by
  induction l generalizing m with
  | nil => exact hm
  | cons a l ih => exact ih _ (h _ _ hm)

@[simp] theorem State.placeExt_same (s : State) (x0) : (State.placeExt s x0).pending = s.pending ∧ (Memory.wf s.mem = true → Memory.wf (State.placeExt s x0).mem = true) :=
  ⟨rfl, fun h => by
    unfold State.placeExt
    exact foldMem_wf _ (fun _ _ h => writeMem_wf _ _ _ h) _ _ (foldMem_wf _ (fun _ _ h => writeMem_wf _ _ _ (zeroMem_wf _ _ _ h)) _ _ h)⟩

@[simp] theorem State.clearExt_same (s : State) (x0) : (State.clearExt s x0).pending = s.pending ∧ (Memory.wf s.mem = true → Memory.wf (State.clearExt s x0).mem = true) :=
  ⟨by unfold State.clearExt; dsimp only, fun h => by
    unfold State.clearExt; dsimp only
    apply zeroMem_wf
    exact foldMem_wf _ (fun _ _ h => zeroMem_wf _ _ _ h) _ _ h⟩

@[simp] theorem State.swapExt_same (s : State) (x0) :
    (State.swapExt s x0).pending = s.pending ∧ (Memory.wf s.mem = true → Memory.wf (State.swapExt s x0).mem = true) := by
  unfold State.swapExt; dsimp only; constructor
  · (repeat' split) <;> simp_all
  · intro hw; (repeat' split) <;> simp_all

@[simp] theorem State.invokeHook_same (s : State) (x0) (x1) :
    (State.invokeHook s x0 x1).pending = s.pending ∧ (State.invokeHook s x0 x1).mem = s.mem := by
  constructor <;> (simp only [State.invokeHook]; (repeat' split) <;> simp_all)

@[simp] theorem State.timerHook_same (s : State) (x0) (x1) :
    (State.timerHook s x0 x1).pending = s.pending ∧ (State.timerHook s x0 x1).mem = s.mem := by
  unfold State.timerHook; constructor <;> simp

theorem execSlotDoorbellFire_same (x0) (s : State) :
    ∀ t, execSlotDoorbellFire x0 s = .next t → (t).pending = s.pending ∧ (t).mem = s.mem := by
  intro t h; simp only [execSlotDoorbellFire, Host.Outcome.next.injEq] at h; subst h; constructor <;> simp [State.when]

theorem execTackEccUncorrectable_same (x0) (s : State) :
    ∀ t, execTackEccUncorrectable x0 s = .next t → (t).pending = s.pending ∧ (t).mem = s.mem := by
  intro t h; simp only [execTackEccUncorrectable, Host.Outcome.next.injEq] at h; subst h; constructor <;> simp [State.when]

theorem execTackEccCorrected_same (x : Fin 32) (s : State) :
    ∀ t, execTackEccCorrected x s = .next t → t.pending = s.pending ∧ t.mem = s.mem := by
  intro t h
  unfold execTackEccCorrected at h
  injection h with h
  rw [← h, (State.raise_same _ _ _).1, (State.raise_same _ _ _).2, (State.bump_same _ _ _).1, (State.bump_same _ _ _).2]
  exact ⟨rfl, rfl⟩

@[simp] theorem State.setTable_same (s : State) (x0) (x1) :
    (State.setTable s x0 x1).pending = s.pending ∧ (State.setTable s x0 x1).mem = s.mem := by
  unfold State.setTable; constructor <;> simp

@[simp] theorem State.putSlot_same (s : State) (x0) (x1) (x2) :
    (State.putSlot s x0 x1 x2).pending = s.pending ∧ (State.putSlot s x0 x1 x2).mem = s.mem := by
  unfold State.putSlot; constructor <;> simp

@[simp] theorem State.runPath_same (s : State) (x0) (x1) :
    (State.runPath s x0 x1).pending = s.pending ∧ (State.runPath s x0 x1).mem = s.mem := by
  unfold State.runPath; constructor <;> simp

theorem State.placeEntry_same (s : State) (x0) (x1) :
    ∀ t, State.placeEntry s x0 x1 = some t → (t).pending = s.pending ∧ (t).mem = s.mem := by
  intro t h; simp only [State.placeEntry] at h
  (repeat' split at h) <;> first
    | (injection h with h; rw [← h]; constructor <;> first | rfl | (simp; done) | simp_all)
    | (cases h; done)
    | (simp_all; done)

@[simp] theorem State.onBank_same (s : State) (x0) (x1) :
    (State.onBank s x0 x1).pending = s.pending ∧ (State.onBank s x0 x1).mem = s.mem := by
  unfold State.onBank; constructor <;> simp

@[simp] theorem State.asBank_same (s : State) (x0) (x1) :
    (State.asBank s x0 x1).pending = s.pending ∧ (State.asBank s x0 x1).mem = s.mem := by
  unfold State.asBank; constructor <;> simp

@[simp] theorem State.bankPut_same (s : State) (x0) (x1) :
    (State.bankPut s x0 x1).pending = s.pending ∧ (State.bankPut s x0 x1).mem = s.mem := by
  unfold State.bankPut; constructor <;> simp

@[simp] theorem State.bankDel_same (s : State) (x0) (x1) :
    (State.bankDel s x0 x1).pending = s.pending ∧ (State.bankDel s x0 x1).mem = s.mem := by
  unfold State.bankDel; constructor <;> simp

@[simp] theorem State.writeSlot_same (s : State) (x0) (x1) (x2) :
    (State.writeSlot s x0 x1 x2).pending = s.pending ∧ (State.writeSlot s x0 x1 x2).mem = s.mem := by
  unfold State.writeSlot; constructor <;> simp

@[simp] theorem State.refreshAt_same (s : State) (x0) (x1) :
    (State.refreshAt s x0 x1).pending = s.pending ∧ (State.refreshAt s x0 x1).mem = s.mem := by
  unfold State.refreshAt; constructor <;> simp

@[simp] theorem State.victim_same (s : State) (x0) (x1) :
    ((State.victim s x0 x1).2).pending = s.pending ∧ ((State.victim s x0 x1).2).mem = s.mem := by
  constructor <;> (simp only [State.victim]; (repeat' split) <;> simp_all)

@[simp] theorem State.insertFail_same (s : State) (x0) :
    (State.insertFail s x0).pending = s.pending ∧ (State.insertFail s x0).mem = s.mem := by
  unfold State.insertFail; constructor <;> simp

@[simp] theorem State.tblInsert_same (s : State) (x0) (x1) :
    ((State.tblInsert s x0 x1).1).pending = s.pending ∧ ((State.tblInsert s x0 x1).1).mem = s.mem := by
  constructor <;> (simp only [State.tblInsert]; (repeat' split) <;> (first | (simp_all; done) | ((try simp); first | exact (State.placeEntry_same _ _ _ _ ‹_›).1 | exact (State.placeEntry_same _ _ _ _ ‹_›).2) | (simp; grind [State.placeEntry_same, State.victim_same]) | grind [State.placeEntry_same, State.victim_same]))

@[simp] theorem State.tblDelete_same (s : State) (x0) (x1) :
    (State.tblDelete s x0 x1).pending = s.pending ∧ (State.tblDelete s x0 x1).mem = s.mem := by
  constructor <;> (simp only [State.tblDelete]; (repeat' split) <;> simp_all)

@[simp] theorem State.setVolume_same (s : State) (x0) (x1) :
    (State.setVolume s x0 x1).pending = s.pending ∧ (State.setVolume s x0 x1).mem = s.mem := by
  unfold State.setVolume; constructor <;> simp

@[simp] theorem State.useWay_same (s : State) (x0) : (State.useWay s x0).pending = s.pending ∧ (State.useWay s x0).mem = s.mem := by
  unfold State.useWay; constructor <;> simp

@[simp] theorem State.fillExtent_same (s : State) (x0) (x1) :
    (State.fillExtent s x0 x1).pending = s.pending ∧ (State.fillExtent s x0 x1).mem = s.mem := by
  constructor <;> (simp only [State.fillExtent]; (repeat' split) <;> simp_all)

@[simp] theorem State.setMapEnt_same (s : State) (x0) (x1) (x2) :
    (State.setMapEnt s x0 x1 x2).pending = s.pending ∧ (State.setMapEnt s x0 x1 x2).mem = s.mem := by
  constructor <;> (simp only [State.setMapEnt]; (repeat' split) <;> simp_all)

@[simp] theorem State.lookup_same (s : State) (x0) (x1) (x2) :
    ((State.lookup s x0 x1 x2).1).pending = s.pending ∧ ((State.lookup s x0 x1 x2).1).mem = s.mem := by
  constructor <;> (simp only [State.lookup]; (repeat' split) <;> simp_all)

@[simp] theorem State.applyMove_same (s : State) (x0) (x1) :
    (State.applyMove s x0 x1).pending = s.pending ∧ (State.applyMove s x0 x1).mem = s.mem := by
  unfold State.applyMove; constructor <;> simp

@[simp] theorem State.settlePin_same (s : State) (x0) :
    (State.settlePin s x0).pending = s.pending ∧ (State.settlePin s x0).mem = s.mem := by
  constructor <;> (simp only [State.settlePin]; (repeat' split) <;> simp_all)

@[simp] theorem State.learn_same (s : State) (x0) : (State.learn s x0).pending = s.pending ∧ (State.learn s x0).mem = s.mem := by
  constructor <;> (simp only [State.learn]; (repeat' split) <;> simp_all)

@[simp] theorem State.flowInstall_same (s : State) (x0) (x1) :
    ((State.flowInstall s x0 x1).1).pending = s.pending ∧ ((State.flowInstall s x0 x1).1).mem = s.mem := by
  constructor <;> (simp only [State.flowInstall]; (repeat' split) <;> simp_all)

@[simp] theorem State.useCells_same (s : State) (x0) :
    (State.useCells s x0).pending = s.pending ∧ (State.useCells s x0).mem = s.mem := by
  unfold State.useCells; constructor <;> simp

@[simp] theorem State.giveCells_same (s : State) (x0) :
    (State.giveCells s x0).pending = s.pending ∧ (State.giveCells s x0).mem = s.mem := by
  unfold State.giveCells; constructor <;> simp

@[simp] theorem State.updFrame_same (s : State) (x0) (x1) :
    (State.updFrame s x0 x1).pending = s.pending ∧ (State.updFrame s x0 x1).mem = s.mem := by
  unfold State.updFrame; constructor <;> simp

@[simp] theorem State.removeFrame_same (s : State) (x0) :
    (State.removeFrame s x0).pending = s.pending ∧ (State.removeFrame s x0).mem = s.mem := by
  unfold State.removeFrame; constructor <;> simp

@[simp] theorem State.deliver_same (s : State) (x0) :
    (State.deliver s x0).pending = s.pending ∧ (State.deliver s x0).mem = s.mem := by
  unfold State.deliver; constructor <;> simp

@[simp] theorem State.wred_same (s : State) (x0) (x1) (x2) (x3) (x4) :
    ((State.wred s x0 x1 x2 x3 x4).1).pending = s.pending ∧ ((State.wred s x0 x1 x2 x3 x4).1).mem = s.mem := by
  constructor <;> (simp only [State.wred]; (repeat' split) <;> simp_all)

@[simp] theorem State.setReseq_same (s : State) (x0) (x1) (x2) :
    (State.setReseq s x0 x1 x2).pending = s.pending ∧ (State.setReseq s x0 x1 x2).mem = s.mem := by
  unfold State.setReseq; constructor <;> simp

@[simp] theorem State.releaseFrame_same (s : State) (x0) :
    (State.releaseFrame s x0).pending = s.pending ∧ (State.releaseFrame s x0).mem = s.mem := by
  constructor <;> (simp only [State.releaseFrame]; (repeat' split) <;> simp_all)

@[simp] theorem State.settleReseq_same (s : State) (x0) (x1) (x2) :
    (State.settleReseq s x0 x1 x2).pending = s.pending ∧ (State.settleReseq s x0 x1 x2).mem = s.mem := by
  unfold State.settleReseq; constructor <;> simp

@[simp] theorem State.discardSeq_same (s : State) (x0) (x1) (x2) :
    (State.discardSeq s x0 x1 x2).pending = s.pending ∧ (State.discardSeq s x0 x1 x2).mem = s.mem := by
  unfold State.discardSeq; constructor <;> simp

@[simp] theorem State.loseSeq_same (s : State) (x0) (x1) :
    (State.loseSeq s x0 x1).pending = s.pending ∧ (State.loseSeq s x0 x1).mem = s.mem := by
  unfold State.loseSeq; constructor <;> simp

@[simp] theorem State.dropFrame_same (s : State) (x0) :
    (State.dropFrame s x0).pending = s.pending ∧ (State.dropFrame s x0).mem = s.mem := by
  constructor <;> (simp only [State.dropFrame]; (repeat' split) <;> simp_all)

@[simp] theorem State.loseUntil_same (s : State) (x0) (x1) (x2) (x3) :
    (State.loseUntil s x0 x1 x2 x3).pending = s.pending ∧ (State.loseUntil s x0 x1 x2 x3).mem = s.mem := by
  induction x3 generalizing s <;> first | (simp_all [State.loseUntil]; done) | (constructor <;> (simp only [State.loseUntil]; (repeat' split) <;> simp_all))

@[simp] theorem State.arriveSeq_same (s : State) (x0) (x1) (x2) (x3) :
    (State.arriveSeq s x0 x1 x2 x3).pending = s.pending ∧ (State.arriveSeq s x0 x1 x2 x3).mem = s.mem := by
  constructor <;> (simp only [State.arriveSeq]; (repeat' split) <;> simp_all)

@[simp] theorem State.setSub_same (s : State) (x0) (x1) :
    (State.setSub s x0 x1).pending = s.pending ∧ (State.setSub s x0 x1).mem = s.mem := by
  unfold State.setSub; constructor <;> simp

@[simp] theorem State.onWindows_same (s : State) (x0) (x1) :
    (State.onWindows s x0 x1).pending = s.pending ∧ (State.onWindows s x0 x1).mem = s.mem := by
  unfold State.onWindows; constructor <;> simp

@[simp] theorem State.countFrame_same (s : State) (x0) (x1) (x2) (x3) :
    (State.countFrame s x0 x1 x2 x3).pending = s.pending ∧ (State.countFrame s x0 x1 x2 x3).mem = s.mem := by
  unfold State.countFrame; constructor <;> simp

@[simp] theorem State.countDrop_same (s : State) (x0) (x1) :
    (State.countDrop s x0 x1).pending = s.pending ∧ (State.countDrop s x0 x1).mem = s.mem := by
  unfold State.countDrop; constructor <;> simp

@[simp] theorem State.chargeTenant_same (s : State) (x0) :
    (State.chargeTenant s x0).pending = s.pending ∧ (State.chargeTenant s x0).mem = s.mem := by
  constructor <;> (simp only [State.chargeTenant]; (repeat' split) <;> simp_all)

@[simp] theorem State.egressVerdict_same (s : State) (x0) (x1) :
    (State.egressVerdict s x0 x1).pending = s.pending ∧ (State.egressVerdict s x0 x1).mem = s.mem := by
  constructor <;> (simp only [State.egressVerdict]; (repeat' split) <;> simp_all)

@[simp] theorem State.joinQueue_same (s : State) (x0) (x1) :
    (State.joinQueue s x0 x1).pending = s.pending ∧ (State.joinQueue s x0 x1).mem = s.mem := by
  unfold State.joinQueue; constructor <;> simp

@[simp] theorem State.enterQueue_same (s : State) (x0) :
    (State.enterQueue s x0).pending = s.pending ∧ (State.enterQueue s x0).mem = s.mem := by
  unfold State.enterQueue; constructor <;> simp

theorem State.pullOne_same (s : State) (x0 x1 : Nat) : ∀ t, s.pullOne x0 x1 = some t → t.pending = s.pending ∧ t.mem = s.mem := by
  intro t h; simp only [State.pullOne] at h
  split at h
  · cases h
  · rw [Option.map_eq_some_iff] at h
    obtain ⟨f, -, h⟩ := h
    rw [← h]; constructor <;> simp

@[simp] theorem State.pullClass_same (s : State) (x0) (x1) (x2) :
    (State.pullClass s x0 x1 x2).pending = s.pending ∧ (State.pullClass s x0 x1 x2).mem = s.mem := by
  induction x2 generalizing s <;> first | (simp_all [State.pullClass]; done) | (constructor <;> (simp only [State.pullClass]; (repeat' split) <;> grind [State.pullOne_same]))

@[simp] theorem State.pullAll_same (s : State) (x0) :
    (State.pullAll s x0).pending = s.pending ∧ (State.pullAll s x0).mem = s.mem := by
  unfold State.pullAll; constructor <;> simp

@[simp] theorem State.selectFrame_same (s : State) (x0) (x1) :
    ((State.selectFrame s x0 x1).1).pending = s.pending ∧ ((State.selectFrame s x0 x1).1).mem = s.mem := by
  constructor <;> (simp only [State.selectFrame]; (repeat' split) <;> simp_all)

@[simp] theorem State.bufferFrame_same (s : State) (x0) :
    (State.bufferFrame s x0).pending = s.pending ∧ (State.bufferFrame s x0).mem = s.mem := by
  constructor <;> (simp only [State.bufferFrame]; (repeat' split) <;> simp_all)

@[simp] theorem State.setWindow_same (s : State) (x0) (x1) :
    (State.setWindow s x0 x1).pending = s.pending ∧ (State.setWindow s x0 x1).mem = s.mem := by
  unfold State.setWindow; constructor <;> simp

@[simp] theorem State.setSampling_same (s : State) (x0) :
    (State.setSampling s x0).pending = s.pending ∧ (State.setSampling s x0).mem = s.mem := by
  unfold State.setSampling; constructor <;> simp

@[simp] theorem State.writeClose_same (s : State) (x0) (x1) (x2) :
    (State.writeClose s x0 x1 x2).pending = s.pending ∧ (State.writeClose s x0 x1 x2).mem = s.mem := by
  induction x2 generalizing s <;> first | (simp_all [State.writeClose]; done) | (constructor <;> (simp only [State.writeClose]; (repeat' split) <;> simp_all))

@[simp] theorem State.closeWindow_same (s : State) (x0) :
    (State.closeWindow s x0).pending = s.pending ∧ (State.closeWindow s x0).mem = s.mem := by
  unfold State.closeWindow; constructor <;> simp

@[simp] theorem State.windowEnds_same (s : State) (x0) :
    (State.windowEnds s x0).pending = s.pending ∧ (State.windowEnds s x0).mem = s.mem := by
  unfold State.windowEnds; constructor <;> simp

theorem execWindowClose_same (x0) (s : State) :
    ∀ t, execWindowClose x0 s = .next t → (t).pending = s.pending ∧ (t).mem = s.mem := by
  intro t h; simp only [execWindowClose, State.when, State.pathFault, Host.Outcome.next.injEq] at h; subst h; constructor <;> ((repeat' split) <;> simp)

theorem execConfigureWindow_same (x0) (s : State) :
    ∀ t, execConfigureWindow x0 s = .next t → (t).pending = s.pending ∧ (t).mem = s.mem := by
  intro t h; simp only [execConfigureWindow, Host.Outcome.next.injEq] at h; subst h
  apply State.runPlain_both; intros; constructor <;> ((try dsimp only); (repeat' split) <;> simp_all)

theorem execReadCounters_same (x0) (x1) (s : State) :
    ∀ t, execReadCounters x0 x1 s = .next t → (t).pending = s.pending ∧ (t).mem = s.mem := by
  intro t h; simp only [execReadCounters, Host.Outcome.next.injEq] at h; subst h
  apply State.runPlain_both; intros; constructor <;> ((try dsimp only); (repeat' split) <;> simp_all)

theorem execConfigureSampling_same (x0) (s : State) :
    ∀ t, execConfigureSampling x0 s = .next t → (t).pending = s.pending ∧ (t).mem = s.mem := by
  intro t h; simp only [execConfigureSampling, Host.Outcome.next.injEq] at h; subst h
  apply State.runPlain_both; intros; constructor <;> ((try dsimp only); (repeat' split) <;> simp_all)

@[simp] theorem State.writeBib_same (s : State) (x0) (x1) :
    (State.writeBib s x0 x1).pending = s.pending ∧ (State.writeBib s x0 x1).mem = s.mem := by
  unfold State.writeBib; constructor <;> simp

theorem execTelWinHeadWrite_same (x0) (x1) (s : State) :
    ∀ t, execTelWinHeadWrite x0 x1 s = .next t → (t).pending = s.pending ∧ (t).mem = s.mem := by
  intro t h; simp only [execTelWinHeadWrite, Host.Outcome.next.injEq] at h; subst h; constructor <;> simp [State.when]

theorem execTelSmpHeadWrite_same (x0) (s : State) :
    ∀ t, execTelSmpHeadWrite x0 s = .next t → (t).pending = s.pending ∧ (t).mem = s.mem := by
  intro t h; simp only [execTelSmpHeadWrite, Host.Outcome.next.injEq] at h; subst h; constructor <;> simp [State.when]

theorem execTelRingFault_same (x0) (s : State) :
    ∀ t, execTelRingFault x0 s = .next t → (t).pending = s.pending ∧ (t).mem = s.mem := by
  intro t h; simp only [execTelRingFault, Host.Outcome.next.injEq] at h; subst h; constructor <;> simp [State.when]

@[simp] theorem State.noteDirty_same (s : State) : (State.noteDirty s).pending = s.pending ∧ (State.noteDirty s).mem = s.mem := by
  unfold State.noteDirty; constructor <;> simp

@[simp] theorem State.setBuffer_same (s : State) (x0) :
    (State.setBuffer s x0).pending = s.pending ∧ (State.setBuffer s x0).mem = s.mem := by
  unfold State.setBuffer; constructor <;> simp

@[simp] theorem State.reclaim_same (s : State) : (State.reclaim s).pending = s.pending ∧ (State.reclaim s).mem = s.mem := by
  unfold State.reclaim; constructor <;> simp

@[simp] theorem State.dropClean_same (s : State) (x0) :
    (State.dropClean s x0).pending = s.pending ∧ (State.dropClean s x0).mem = s.mem := by
  unfold State.dropClean; constructor <;> simp

@[simp] theorem State.keepClean_same (s : State) (x0) :
    (State.keepClean s x0).pending = s.pending ∧ (State.keepClean s x0).mem = s.mem := by
  unfold State.keepClean; constructor <;> simp

@[simp] theorem State.carryReg_same (s : State) (x0) (x1) :
    (State.carryReg s x0 x1).pending = s.pending ∧ (State.carryReg s x0 x1).mem = s.mem := by
  unfold State.carryReg; constructor <;> simp

theorem State.storeReg_same (s : State) (x0) (x1) :
    ∀ t, State.storeReg s x0 x1 = some t → (t).pending = s.pending ∧ (t).mem = s.mem := by
  intro t h; simp only [State.storeReg] at h
  (repeat' split at h) <;> first
    | (injection h with h; rw [← h]; constructor <;> first | rfl | (simp; done) | simp_all)
    | (cases h; done)
    | (simp_all; done)

@[simp] theorem State.setXptCfg_same (s : State) (x0) :
    (State.setXptCfg s x0).pending = s.pending ∧ (State.setXptCfg s x0).mem = s.mem := by
  constructor <;> (simp only [State.setXptCfg]; (repeat' split) <;> simp_all)

@[simp] theorem State.writeXptCfg_same (s : State) (x0) :
    (State.writeXptCfg s x0).pending = s.pending ∧ (State.writeXptCfg s x0).mem = s.mem := by
  unfold State.writeXptCfg; constructor <;> simp

end Sys2Proof.Machine
end

