-- ==== Sys2Proof/Laws/FrameTransport.lean ====
section
/-! SUPPORT. Frames of the definitions of Conn, Record, Seal, Place, Packets, Connect: each leaves the queue of commands as it is, and memory as it is or in
its canonical form. -/
set_option maxRecDepth 8000
set_option Elab.async false
set_option linter.all false
namespace Sys2Proof.Machine

@[simp] theorem State.setConn_same (s : State) (x0) (x1) :
    (State.setConn s x0 x1).pending = s.pending ∧ (State.setConn s x0 x1).mem = s.mem := by
  unfold State.setConn; constructor <;> simp

@[simp] theorem State.updConn_same (s : State) (x0) (x1) :
    (State.updConn s x0 x1).pending = s.pending ∧ (State.updConn s x0 x1).mem = s.mem := by
  unfold State.updConn; constructor <;> simp

@[simp] theorem State.sendDigest_same (s : State) (x0) (x1) (x2) (x3) :
    (State.sendDigest s x0 x1 x2 x3).pending = s.pending ∧ (State.sendDigest s x0 x1 x2 x3).mem = s.mem := by
  constructor <;> (simp only [State.sendDigest]; (repeat' split) <;> simp_all)

@[simp] theorem State.leadFrom_same (s : State) (x0) :
    (State.leadFrom s x0).pending = s.pending ∧ (State.leadFrom s x0).mem = s.mem := by
  unfold State.leadFrom; constructor <;> simp

@[simp] theorem State.orderTx_same (s : State) (x0) :
    ((State.orderTx s x0).1).pending = s.pending ∧ ((State.orderTx s x0).1).mem = s.mem := by
  constructor <;> (simp only [State.orderTx]; (repeat' split) <;> simp_all)

@[simp] theorem State.launch_same (s : State) (x0) : (State.launch s x0).pending = s.pending ∧ (State.launch s x0).mem = s.mem := by
  unfold State.launch; constructor <;> simp

@[simp] theorem State.relaunch_same (s : State) : (State.relaunch s).pending = s.pending ∧ (State.relaunch s).mem = s.mem := by
  unfold State.relaunch; constructor <;> simp

@[simp] theorem State.sendPkt_same (s : State) (x0) (x1) (x2) (x3) (x4) :
    (State.sendPkt s x0 x1 x2 x3 x4).pending = s.pending ∧ (State.sendPkt s x0 x1 x2 x3 x4).mem = s.mem := by
  unfold State.sendPkt; constructor <;> simp

@[simp] theorem State.armRetx_same (s : State) (x0) :
    (State.armRetx s x0).pending = s.pending ∧ (State.armRetx s x0).mem = s.mem := by
  unfold State.armRetx; constructor <;> simp

@[simp] theorem State.issueReq_same (s : State) (x0) (x1) (x2) (x3) :
    (State.issueReq s x0 x1 x2 x3).pending = s.pending ∧ (State.issueReq s x0 x1 x2 x3).mem = s.mem := by
  unfold State.issueReq; constructor <;> simp

@[simp] theorem State.updCmd_same (s : State) (x0) (x1) :
    (State.updCmd s x0 x1).pending = s.pending ∧ (State.updCmd s x0 x1).mem = s.mem := by
  unfold State.updCmd; constructor <;> simp

@[simp] theorem State.stamp_same (s : State) (x0) (x1) :
    (State.stamp s x0 x1).pending = s.pending ∧ (State.stamp s x0 x1).mem = s.mem := by
  unfold State.stamp; constructor <;> simp

@[simp] theorem State.dropTag_same (s : State) (x0) :
    (State.dropTag s x0).pending = s.pending ∧ (State.dropTag s x0).mem = s.mem := by
  unfold State.dropTag; constructor <;> simp

@[simp] theorem State.cplLeft_same (s : State) (x0) (x1) (x2) :
    (State.cplLeft s x0 x1 x2).pending = s.pending ∧ (State.cplLeft s x0 x1 x2).mem = s.mem := by
  constructor <;> (simp only [State.cplLeft]; (repeat' split) <;> simp_all)

@[simp] theorem State.packetLeft_same (s : State) (x0) (x1) :
    (State.packetLeft s x0 x1).pending = s.pending ∧ (State.packetLeft s x0 x1).mem = s.mem := by
  constructor <;> (simp only [State.packetLeft]; (repeat' split) <;> simp_all)

@[simp] theorem State.setRec_same (s : State) (x0) (x1) :
    (State.setRec s x0 x1).pending = s.pending ∧ (State.setRec s x0 x1).mem = s.mem := by
  unfold State.setRec; constructor <;> simp

@[simp] theorem State.followTx_same (s : State) (x0) (x1) (x2) (x3) (x4) :
    (State.followTx s x0 x1 x2 x3 x4).pending = s.pending ∧ (State.followTx s x0 x1 x2 x3 x4).mem = s.mem := by
  unfold State.followTx; constructor <;> simp

@[simp] theorem State.buildTx_same (s : State) (x0) (x1) (x2) :
    (State.buildTx s x0 x1 x2).pending = s.pending ∧ (State.buildTx s x0 x1 x2).mem = s.mem := by
  constructor <;> (simp only [State.buildTx]; (repeat' split) <;> simp_all)

@[simp] theorem State.matchTx_same (s : State) (x0) :
    (State.matchTx s x0).pending = s.pending ∧ (State.matchTx s x0).mem = s.mem := by
  constructor <;> (simp only [State.matchTx]; (repeat' split) <;> simp_all)

@[simp] theorem State.await_same (s : State) (x0) (x1) :
    (State.await s x0 x1).pending = s.pending ∧ (State.await s x0 x1).mem = s.mem := by
  unfold State.await; constructor <;> simp

@[simp] theorem State.sendCtl_same (s : State) (x0) (x1) (x2) :
    (State.sendCtl s x0 x1 x2).pending = s.pending ∧ (State.sendCtl s x0 x1 x2).mem = s.mem := by
  unfold State.sendCtl; constructor <;> simp

@[simp] theorem State.sendReq_same (s : State) (x0) (x1) (x2) (x3) :
    (State.sendReq s x0 x1 x2 x3).pending = s.pending ∧ (State.sendReq s x0 x1 x2 x3).mem = s.mem := by
  unfold State.sendReq; constructor <;> simp

@[simp] theorem State.sendRead_same (s : State) (x0) (x1) (x2) (x3) (x4) :
    (State.sendRead s x0 x1 x2 x3 x4).pending = s.pending ∧ (State.sendRead s x0 x1 x2 x3 x4).mem = s.mem := by
  unfold State.sendRead; constructor <;> simp

@[simp] theorem State.sendData_same (s : State) (x0) (x1) (x2) (x3) (x4) (x5) (x6) :
    (State.sendData s x0 x1 x2 x3 x4 x5 x6).pending = s.pending ∧ (State.sendData s x0 x1 x2 x3 x4 x5 x6).mem = s.mem := by
  first
  | (induction x6 generalizing s <;> first | (simp_all [State.sendData]; done) | (constructor <;> (simp only [State.sendData]; (repeat' split) <;> (first | (simp_all; done) | (refine (State.foldl_pending _ (fun u a => ?_) _ _).trans ?_ <;> first | rfl | (simp; done) | ((try dsimp only); (repeat' split) <;> simp_all; done)) | (refine (State.foldl_mem _ (fun u a => ?_) _ _).trans ?_ <;> first | rfl | (simp; done) | ((try dsimp only); (repeat' split) <;> simp_all; done))))); done)
  | fun_induction State.sendData s x0 x1 x2 x3 x4 x5 x6 <;> (first | (simp_all; done) | (refine (State.foldl_pending _ (fun u a => ?_) _ _).trans ?_ <;> first | rfl | (simp; done) | ((try dsimp only); (repeat' split) <;> simp_all; done)) | (refine (State.foldl_mem _ (fun u a => ?_) _ _).trans ?_ <;> first | rfl | (simp; done) | ((try dsimp only); (repeat' split) <;> simp_all; done))) | (constructor <;> ((repeat' split) <;> (first | (simp_all; done) | (refine (State.foldl_pending _ (fun u a => ?_) _ _).trans ?_ <;> first | rfl | (simp; done) | ((try dsimp only); (repeat' split) <;> simp_all; done)) | (refine (State.foldl_mem _ (fun u a => ?_) _ _).trans ?_ <;> first | rfl | (simp; done) | ((try dsimp only); (repeat' split) <;> simp_all; done)))))

@[simp] theorem State.setCtrl_same (s : State) (x0) (x1) :
    (State.setCtrl s x0 x1).pending = s.pending ∧ (State.setCtrl s x0 x1).mem = s.mem := by
  unfold State.setCtrl; constructor <;> simp

@[simp] theorem State.updCtrl_same (s : State) (x0) (x1) :
    (State.updCtrl s x0 x1).pending = s.pending ∧ (State.updCtrl s x0 x1).mem = s.mem := by
  unfold State.updCtrl; constructor <;> simp

@[simp] theorem State.setNs_same (s : State) (x0) (x1) :
    (State.setNs s x0 x1).pending = s.pending ∧ (State.setNs s x0 x1).mem = s.mem := by
  unfold State.setNs; constructor <;> simp

@[simp] theorem State.flushReady_same (s : State) (x0) (x1) (x2) :
    (State.flushReady s x0 x1 x2).pending = s.pending ∧ (State.flushReady s x0 x1 x2).mem = s.mem := by
  induction x2 generalizing s <;> first | (simp_all [State.flushReady]; done) | (constructor <;> (simp only [State.flushReady]; (repeat' split) <;> simp_all))

@[simp] theorem State.putCqe_same (s : State) (x0) (x1) (x2) (x3) :
    (State.putCqe s x0 x1 x2 x3).pending = s.pending ∧ (State.putCqe s x0 x1 x2 x3).mem = s.mem := by
  unfold State.putCqe; constructor <;> simp

@[simp] theorem State.sendCpl_same (s : State) (x0) :
    (State.sendCpl s x0).pending = s.pending ∧ (State.sendCpl s x0).mem = s.mem := by
  constructor <;> (simp only [State.sendCpl]; (repeat' split) <;> simp_all)

@[simp] theorem State.completeUnstarted_same (s : State) (x0) (x1) (x2) (x3) (x4) :
    (State.completeUnstarted s x0 x1 x2 x3 x4).pending = s.pending ∧ (State.completeUnstarted s x0 x1 x2 x3 x4).mem = s.mem := by
  unfold State.completeUnstarted; constructor <;> simp

@[simp] theorem State.hostEvent_same (s : State) (x0) (x1) (x2) (x3) :
    (State.hostEvent s x0 x1 x2 x3).pending = s.pending ∧ (State.hostEvent s x0 x1 x2 x3).mem = s.mem := by
  constructor <;> (simp only [State.hostEvent]; (repeat' split) <;> simp_all)

@[simp] theorem State.showBufs_same (s : State) (x0) :
    (State.showBufs s x0).pending = s.pending ∧ (State.showBufs s x0).mem = s.mem := by
  unfold State.showBufs; constructor <;> simp

@[simp] theorem State.discardBufs_same (s : State) (x0) :
    (State.discardBufs s x0).pending = s.pending ∧ (State.discardBufs s x0).mem = s.mem := by
  unfold State.discardBufs; constructor <;> simp

@[simp] theorem State.freezeOut_same (s : State) (x0) :
    (State.freezeOut s x0).pending = s.pending ∧ (State.freezeOut s x0).mem = s.mem := by
  constructor <;> (simp only [State.freezeOut]; (repeat' split) <;> simp_all)

@[simp] theorem State.freezeQueue_same (s : State) (x0) (x1) (x2) :
    (State.freezeQueue s x0 x1 x2).pending = s.pending ∧ (State.freezeQueue s x0 x1 x2).mem = s.mem := by
  unfold State.freezeQueue; constructor <;> simp

@[simp] theorem State.commit_same (s : State) (x0) : (State.commit s x0).pending = s.pending ∧ (State.commit s x0).mem = s.mem := by
  constructor <;> (simp only [State.commit]; (repeat' split) <;> simp_all)

@[simp] theorem State.commitQueue_same (s : State) (x0) (x1) :
    (State.commitQueue s x0 x1).pending = s.pending ∧ (State.commitQueue s x0 x1).mem = s.mem := by
  induction x1 generalizing s <;> first | (simp_all [State.commitQueue]; done) | (constructor <;> (simp only [State.commitQueue]; (repeat' split) <;> simp_all))

@[simp] theorem State.settle_same (s : State) (x0) : (State.settle s x0).pending = s.pending ∧ (State.settle s x0).mem = s.mem := by
  constructor <;> (simp only [State.settle]; (repeat' split) <;> simp_all)

@[simp] theorem State.finish_same (s : State) (x0) (x1) (x2) (x3) (x4) (x5) :
    (State.finish s x0 x1 x2 x3 x4 x5).pending = s.pending ∧ (State.finish s x0 x1 x2 x3 x4 x5).mem = s.mem := by
  constructor <;> (simp only [State.finish]; (repeat' split) <;> simp_all)

@[simp] theorem State.success_same (s : State) (x0) (x1) (x2) :
    (State.success s x0 x1 x2).pending = s.pending ∧ (State.success s x0 x1 x2).mem = s.mem := by
  unfold State.success; constructor <;> simp

@[simp] theorem State.endCommands_same (s : State) (x0) :
    (State.endCommands s x0).pending = s.pending ∧ (State.endCommands s x0).mem = s.mem := by
  constructor <;> (simp only [State.endCommands]; (repeat' split) <;> (first | (refine (State.foldl_pending _ (fun u a => ?_) _ _).trans ?_ <;> first | rfl | (simp; done) | ((try dsimp only); (repeat' split) <;> simp_all; done)) | (refine (State.foldl_mem _ (fun u a => ?_) _ _).trans ?_ <;> first | rfl | (simp; done) | ((try dsimp only); (repeat' split) <;> simp_all; done))))

@[simp] theorem State.abortUnstarted_same (s : State) (x0) :
    (State.abortUnstarted s x0).pending = s.pending ∧ (State.abortUnstarted s x0).mem = s.mem := by
  unfold State.abortUnstarted; constructor <;> simp

@[simp] theorem State.closeConn_same (s : State) (x0) (x1) :
    (State.closeConn s x0 x1).pending = s.pending ∧ (State.closeConn s x0 x1).mem = s.mem := by
  unfold State.closeConn; constructor <;> simp

@[simp] theorem State.resetCtrl_same (s : State) (x0) :
    (State.resetCtrl s x0).pending = s.pending ∧ (State.resetCtrl s x0).mem = s.mem := by
  unfold State.resetCtrl; constructor <;> simp

@[simp] theorem State.close_same (s : State) (x0) (x1) :
    (State.close s x0 x1).pending = s.pending ∧ (State.close s x0 x1).mem = s.mem := by
  constructor <;> (simp only [State.close]; (repeat' split) <;> simp_all)

@[simp] theorem State.connError_same (s : State) (x0) (x1) :
    (State.connError s x0 x1).pending = s.pending ∧ (State.connError s x0 x1).mem = s.mem := by
  unfold State.connError; constructor <;> simp

@[simp] theorem State.evictFor_same (s : State) (x0) (x1) :
    (State.evictFor s x0 x1).pending = s.pending ∧ (State.evictFor s x0 x1).mem = s.mem := by
  induction x1 generalizing s <;> first | (simp_all [State.evictFor]; done) | (constructor <;> (simp only [State.evictFor]; (repeat' split) <;> simp_all))

@[simp] theorem State.evictWaiting_same (s : State) (x0) :
    (State.evictWaiting s x0).pending = s.pending ∧ (State.evictWaiting s x0).mem = s.mem := by
  unfold State.evictWaiting; constructor <;> simp

@[simp] theorem State.wantSlot_same (s : State) (x0) :
    (State.wantSlot s x0).pending = s.pending ∧ (State.wantSlot s x0).mem = s.mem := by
  unfold State.wantSlot; constructor <;> simp

@[simp] theorem State.grantSlot_same (s : State) : (State.grantSlot s).pending = s.pending ∧ (State.grantSlot s).mem = s.mem := by
  constructor <;> (simp only [State.grantSlot]; (repeat' split) <;> simp_all)

@[simp] theorem State.keepResident_same (s : State) (x0) :
    (State.keepResident s x0).pending = s.pending ∧ (State.keepResident s x0).mem = s.mem := by
  unfold State.keepResident; constructor <;> simp

@[simp] theorem State.touch_same (s : State) (x0) : (State.touch s x0).pending = s.pending ∧ (State.touch s x0).mem = s.mem := by
  unfold State.touch; constructor <;> simp

theorem State.takePlace_same (s : State) : ∀ t, State.takePlace s = some t → (t).pending = s.pending ∧ (t).mem = s.mem := by
  intro t h; simp only [State.takePlace] at h
  (repeat' split at h) <;> first
    | (injection h with h; rw [← h]; constructor <;> first | rfl | (simp; done) | simp_all)
    | (cases h; done)
    | (simp_all; done)

@[simp] theorem State.program_same (s : State) (x0) :
    (State.program s x0).pending = s.pending ∧ (State.program s x0).mem = s.mem := by
  unfold State.program; constructor <;> simp

@[simp] theorem State.keepErased_same (s : State) :
    (State.keepErased s).pending = s.pending ∧ (State.keepErased s).mem = s.mem := by
  unfold State.keepErased; constructor <;> simp

@[simp] theorem State.startRecord_same (s : State) (x0) :
    (State.startRecord s x0).pending = s.pending ∧ (State.startRecord s x0).mem = s.mem := by
  constructor <;> (simp only [State.startRecord]; (repeat' split) <;> (first | (simp_all; done) | ((try simp); first | exact (State.takePlace_same _ _ ‹_›).1 | exact (State.takePlace_same _ _ ‹_›).2)))

@[simp] theorem State.saveRecord_same (s : State) (x0) :
    (State.saveRecord s x0).pending = s.pending ∧ (State.saveRecord s x0).mem = s.mem := by
  constructor <;> (simp only [State.saveRecord]; (repeat' split) <;> simp_all)

@[simp] theorem State.recordWaiters_same (s : State) (x0) :
    (State.recordWaiters s x0).pending = s.pending ∧ (State.recordWaiters s x0).mem = s.mem := by
  constructor <;> (simp only [State.recordWaiters]; (repeat' split) <;> (first | (refine (State.foldl_pending _ (fun u a => ?_) _ _).trans ?_ <;> first | rfl | (simp; done) | ((try dsimp only); (repeat' split) <;> simp_all; done)) | (refine (State.foldl_mem _ (fun u a => ?_) _ _).trans ?_ <;> first | rfl | (simp; done) | ((try dsimp only); (repeat' split) <;> simp_all; done))))

@[simp] theorem State.recordOk_same (s : State) (x0) :
    (State.recordOk s x0).pending = s.pending ∧ (State.recordOk s x0).mem = s.mem := by
  constructor <;> (simp only [State.recordOk]; (repeat' split) <;> simp_all)

@[simp] theorem State.recordLost_same (s : State) (x0) :
    (State.recordLost s x0).pending = s.pending ∧ (State.recordLost s x0).mem = s.mem := by
  unfold State.recordLost; constructor <;> simp

@[simp] theorem State.recordBad_same (s : State) (x0) :
    (State.recordBad s x0).pending = s.pending ∧ (State.recordBad s x0).mem = s.mem := by
  constructor <;> (simp only [State.recordBad]; (repeat' split) <;> (first | (simp_all; done) | ((try simp); first | exact (State.takePlace_same _ _ ‹_›).1 | exact (State.takePlace_same _ _ ‹_›).2)))

@[simp] theorem State.nextEpoch_same (s : State) : (State.nextEpoch s).pending = s.pending ∧ (State.nextEpoch s).mem = s.mem := by
  unfold State.nextEpoch; constructor <;> simp

@[simp] theorem State.setDataKey_same (s : State) (x0) (x1) :
    (State.setDataKey s x0 x1).pending = s.pending ∧ (State.setDataKey s x0 x1).mem = s.mem := by
  unfold State.setDataKey; constructor <;> simp

@[simp] theorem State.takeCtrs_same (s : State) (x0) :
    ((State.takeCtrs s x0).1).pending = s.pending ∧ ((State.takeCtrs s x0).1).mem = s.mem := by
  constructor <;> (simp only [State.takeCtrs]; (repeat' split) <;> simp_all)

@[simp] theorem State.writeCopies_same (s : State) (x0) (x1) :
    ((State.writeCopies s x0 x1).1).pending = s.pending ∧ ((State.writeCopies s x0 x1).1).mem = s.mem := by
  constructor <;> (simp only [State.writeCopies]; (repeat' split) <;> (simp; grind [State.takeCtrs_same]))

@[simp] theorem State.cipherWedged_same (s : State) :
    (State.cipherWedged s).pending = s.pending ∧ (State.cipherWedged s).mem = s.mem := by
  unfold State.cipherWedged; constructor <;> simp

@[simp] theorem State.mismatch_same (s : State) (x0) (x1) (x2) :
    (State.mismatch s x0 x1 x2).pending = s.pending ∧ (State.mismatch s x0 x1 x2).mem = s.mem := by
  unfold State.mismatch; constructor <;> simp

@[simp] theorem State.runPipe_same (s : State) (x0) (x1) (x2) (x3) :
    ((State.runPipe s x0 x1 x2 x3).1).pending = s.pending ∧ ((State.runPipe s x0 x1 x2 x3).1).mem = s.mem := by
  constructor <;> (simp only [State.runPipe]; (repeat' split) <;> simp_all)

@[simp] theorem State.takeHold_same (s : State) : (State.takeHold s).pending = s.pending ∧ (State.takeHold s).mem = s.mem := by
  unfold State.takeHold; constructor <;> simp

@[simp] theorem State.freeHold_same (s : State) (x0) :
    (State.freeHold s x0).pending = s.pending ∧ (State.freeHold s x0).mem = s.mem := by
  unfold State.freeHold; constructor <;> simp

@[simp] theorem State.setRow_same (s : State) (x0) (x1) :
    (State.setRow s x0 x1).pending = s.pending ∧ (State.setRow s x0 x1).mem = s.mem := by
  unfold State.setRow; constructor <;> simp

@[simp] theorem State.setMember_same (s : State) (x0) (x1) :
    (State.setMember s x0 x1).pending = s.pending ∧ (State.setMember s x0 x1).mem = s.mem := by
  unfold State.setMember; constructor <;> simp

@[simp] theorem State.setProgress_same (s : State) (x0) (x1) (x2) (x3) :
    (State.setProgress s x0 x1 x2 x3).pending = s.pending ∧ (State.setProgress s x0 x1 x2 x3).mem = s.mem := by
  unfold State.setProgress; constructor <;> simp

@[simp] theorem State.drive_same (s : State) (x0) (x1) (x2) (x3) (x4) :
    (State.drive s x0 x1 x2 x3 x4).pending = s.pending ∧ (State.drive s x0 x1 x2 x3 x4).mem = s.mem := by
  unfold State.drive; constructor <;> simp

@[simp] theorem State.persist_same (s : State) (x0) :
    (State.persist s x0).pending = s.pending ∧ (State.persist s x0).mem = s.mem := by
  constructor <;> (simp only [State.persist]; (repeat' split) <;> grind [State.writeCopies_same])

@[simp] theorem State.retryPages_same (s : State) :
    (State.retryPages s).pending = s.pending ∧ (State.retryPages s).mem = s.mem := by
  unfold State.retryPages; constructor <;> simp

@[simp] theorem State.persistMap_same (s : State) (x0) (x1) :
    (State.persistMap s x0 x1).pending = s.pending ∧ (State.persistMap s x0 x1).mem = s.mem := by
  constructor <;> (simp only [State.persistMap]; (repeat' split) <;> simp_all)

@[simp] theorem State.tellTwin_same (s : State) (x0) :
    (State.tellTwin s x0).pending = s.pending ∧ (State.tellTwin s x0).mem = s.mem := by
  unfold State.tellTwin; constructor <;> simp

@[simp] theorem State.changeMap_same (s : State) (x0) (x1) (x2) :
    (State.changeMap s x0 x1 x2).pending = s.pending ∧ (State.changeMap s x0 x1 x2).mem = s.mem := by
  unfold State.changeMap; constructor <;> simp

@[simp] theorem State.noteFree_same (s : State) : (State.noteFree s).pending = s.pending ∧ (State.noteFree s).mem = s.mem := by
  unfold State.noteFree; constructor <;> simp

@[simp] theorem State.allocExtent_same (s : State) (x0) (x1) :
    ((State.allocExtent s x0 x1).1).pending = s.pending ∧ ((State.allocExtent s x0 x1).1).mem = s.mem := by
  constructor <;> (simp only [State.allocExtent]; (repeat' split) <;> simp_all)

@[simp] theorem State.zeroSlot_same (s : State) (x0) (x1) :
    (State.zeroSlot s x0 x1).pending = s.pending ∧ (State.zeroSlot s x0 x1).mem = s.mem := by
  unfold State.zeroSlot; constructor <;> simp

@[simp] theorem State.clearLost_same (s : State) (x0) (x1) (x2) :
    (State.clearLost s x0 x1 x2).pending = s.pending ∧ (State.clearLost s x0 x1 x2).mem = s.mem := by
  unfold State.clearLost; constructor <;> simp

@[simp] theorem State.dropSlot_same (s : State) (x0) :
    (State.dropSlot s x0).pending = s.pending ∧ (State.dropSlot s x0).mem = s.mem := by
  unfold State.dropSlot; constructor <;> simp

@[simp] theorem State.freeExtent_same (s : State) (x0) (x1) :
    (State.freeExtent s x0 x1).pending = s.pending ∧ (State.freeExtent s x0 x1).mem = s.mem := by
  unfold State.freeExtent; constructor <;> simp

@[simp] theorem State.zeroDone_same (s : State) (x0) (x1) :
    (State.zeroDone s x0 x1).pending = s.pending ∧ (State.zeroDone s x0 x1).mem = s.mem := by
  unfold State.zeroDone; constructor <;> simp

@[simp] theorem State.rezero_same (s : State) : (State.rezero s).pending = s.pending ∧ (State.rezero s).mem = s.mem := by
  unfold State.rezero; constructor <;> simp

@[simp] theorem State.takeMapEntry_same (s : State) (x0) (x1) (x2) :
    (State.takeMapEntry s x0 x1 x2).pending = s.pending ∧ (State.takeMapEntry s x0 x1 x2).mem = s.mem := by
  unfold State.takeMapEntry; constructor <;> simp

@[simp] theorem State.coarsen_same (s : State) : (State.coarsen s).pending = s.pending ∧ (State.coarsen s).mem = s.mem := by
  constructor <;> (simp only [State.coarsen]; (repeat' split) <;> simp_all)

@[simp] theorem State.tellLost_same (s : State) (x0) :
    (State.tellLost s x0).pending = s.pending ∧ (State.tellLost s x0).mem = s.mem := by
  constructor <;> (simp only [State.tellLost]; (repeat' split) <;> simp_all)

@[simp] theorem State.loseBlock_same (s : State) (x0) (x1) (x2) :
    (State.loseBlock s x0 x1 x2).pending = s.pending ∧ (State.loseBlock s x0 x1 x2).mem = s.mem := by
  unfold State.loseBlock; constructor <;> simp

@[simp] theorem State.espDrop_same (s : State) (x0) :
    (State.espDrop s x0).pending = s.pending ∧ (State.espDrop s x0).mem = s.mem := by
  unfold State.espDrop; constructor <;> simp

@[simp] theorem State.forget_same (s : State) (x0) : (State.forget s x0).pending = s.pending ∧ (State.forget s x0).mem = s.mem := by
  constructor <;> (simp only [State.forget]; (repeat' split) <;> simp_all)

@[simp] theorem State.infoOf_same (s : State) (x0) :
    ((State.infoOf s x0).1).pending = s.pending ∧ ((State.infoOf s x0).1).mem = s.mem := by
  constructor <;> (simp only [State.infoOf]; (repeat' split) <;> simp_all)

@[simp] theorem State.noteCe_same (s : State) (x0) (x1) :
    (State.noteCe s x0 x1).pending = s.pending ∧ (State.noteCe s x0 x1).mem = s.mem := by
  unfold State.noteCe; constructor <;> simp

@[simp] theorem State.sendAck_same (s : State) (x0) :
    (State.sendAck s x0).pending = s.pending ∧ (State.sendAck s x0).mem = s.mem := by
  unfold State.sendAck; constructor <;> simp

@[simp] theorem State.noteReq_same (s : State) (x0) (x1) :
    (State.noteReq s x0 x1).pending = s.pending ∧ (State.noteReq s x0 x1).mem = s.mem := by
  unfold State.noteReq; constructor <;> simp

@[simp] theorem State.protoError_same (s : State) (x0) (x1) (x2) :
    (State.protoError s x0 x1 x2).pending = s.pending ∧ (State.protoError s x0 x1 x2).mem = s.mem := by
  unfold State.protoError; constructor <;> simp

@[simp] theorem State.receive_same (s : State) (x0) (x1) (x2) :
    (State.receive s x0 x1 x2).pending = s.pending ∧ (State.receive s x0 x1 x2).mem = s.mem := by
  constructor <;> (simp only [State.receive]; (repeat' split) <;> simp_all)

@[simp] theorem State.fetchSq_same (s : State) (x0) (x1) :
    (State.fetchSq s x0 x1).pending = s.pending ∧ (State.fetchSq s x0 x1).mem = s.mem := by
  induction x1 generalizing s <;> first | (simp_all [State.fetchSq]; done) | (constructor <;> (simp only [State.fetchSq]; (repeat' split) <;> simp_all))

@[simp] theorem State.resumeFetch_same (s : State) :
    (State.resumeFetch s).pending = s.pending ∧ (State.resumeFetch s).mem = s.mem := by
  unfold State.resumeFetch; constructor <;> simp

@[simp] theorem State.pullIndices_same (s : State) (x0) (x1) (x2) :
    (State.pullIndices s x0 x1 x2).pending = s.pending ∧ (State.pullIndices s x0 x1 x2).mem = s.mem := by
  unfold State.pullIndices; constructor <;> simp

@[simp] theorem State.regionRead_same (s : State) (x0) (x1) (x2) (x3) :
    (State.regionRead s x0 x1 x2 x3).pending = s.pending ∧ (State.regionRead s x0 x1 x2 x3).mem = s.mem := by
  unfold State.regionRead; constructor <;> simp

@[simp] theorem State.sendRnr_same (s : State) (x0) (x1) (x2) :
    (State.sendRnr s x0 x1 x2).pending = s.pending ∧ (State.sendRnr s x0 x1 x2).mem = s.mem := by
  unfold State.sendRnr; constructor <;> simp

@[simp] theorem State.execReq_same (s : State) (x0) (x1) :
    (State.execReq s x0 x1).pending = s.pending ∧ (State.execReq s x0 x1).mem = s.mem := by
  constructor <;> (simp only [State.execReq]; (repeat' split) <;> simp_all)

@[simp] theorem State.dupReq_same (s : State) (x0) (x1) :
    (State.dupReq s x0 x1).pending = s.pending ∧ (State.dupReq s x0 x1).mem = s.mem := by
  constructor <;> (simp only [State.dupReq]; (repeat' split) <;> simp_all)

@[simp] theorem State.nakReq_same (s : State) (x0) (x1) :
    (State.nakReq s x0 x1).pending = s.pending ∧ (State.nakReq s x0 x1).mem = s.mem := by
  constructor <;> (simp only [State.nakReq]; (repeat' split) <;> simp_all)

@[simp] theorem State.obey_same (s : State) (x0) (x1) (x2) :
    (State.obey s x0 x1 x2).pending = s.pending ∧ (State.obey s x0 x1 x2).mem = s.mem := by
  constructor <;> (simp only [State.obey]; (repeat' split) <;> simp_all)

@[simp] theorem State.requestIn_same (s : State) (x0) (x1) (x2) (x3) :
    (State.requestIn s x0 x1 x2 x3).pending = s.pending ∧ (State.requestIn s x0 x1 x2 x3).mem = s.mem := by
  unfold State.requestIn; constructor <;> simp

@[simp] theorem State.park_same (s : State) (x0) (x1) (x2) (x3) :
    (State.park s x0 x1 x2 x3).pending = s.pending ∧ (State.park s x0 x1 x2 x3).mem = s.mem := by
  unfold State.park; constructor <;> simp

@[simp] theorem State.takeRequest_same (s : State) (x0) (x1) (x2) (x3) :
    (State.takeRequest s x0 x1 x2 x3).pending = s.pending ∧ (State.takeRequest s x0 x1 x2 x3).mem = s.mem := by
  unfold State.takeRequest; constructor <;> simp

@[simp] theorem State.reinstall_same (s : State) (x0) :
    (State.reinstall s x0).pending = s.pending ∧ (State.reinstall s x0).mem = s.mem := by
  unfold State.reinstall; constructor <;> simp

@[simp] theorem State.ackExpire_same (s : State) (x0) :
    (State.ackExpire s x0).pending = s.pending ∧ (State.ackExpire s x0).mem = s.mem := by
  unfold State.ackExpire; constructor <;> simp

@[simp] theorem State.atWheel_pending (s : State) (d : Option Nat) (f : State → State) (h : ∀ u, (f u).pending = u.pending) :
    (s.atWheel d f).pending = s.pending := by
  simp only [State.atWheel]; split <;> simp [h]

@[simp] theorem State.atWheel_mem (s : State) (d : Option Nat) (f : State → State) (h : ∀ u, (f u).mem = u.mem) :
    (s.atWheel d f).mem = s.mem := by
  simp only [State.atWheel]; split <;> simp [h]

theorem State.atWheel_both (s : State) (d : Option Nat) (f : State → State) (h : ∀ u, (f u).pending = u.pending ∧ (f u).mem = u.mem) : (s.atWheel d f).pending = s.pending ∧ (s.atWheel d f).mem = s.mem :=
  ⟨by simp [h], by simp [h]⟩

theorem execAckSend_same (x0) (s : State) : ∀ t, execAckSend x0 s = .next t → t.pending = s.pending ∧ t.mem = s.mem := by
  intro t h; simp only [execAckSend, Host.Outcome.next.injEq] at h; subst h
  split
  · simp
  · exact State.atWheel_both _ _ _ fun u => ⟨by simp, by simp⟩

@[simp] theorem State.ackTo_same (s : State) (x0) (x1) :
    (State.ackTo s x0 x1).pending = s.pending ∧ (State.ackTo s x0 x1).mem = s.mem := by
  unfold State.ackTo; constructor <;> simp

@[simp] theorem State.reissueRead_same (s : State) (x0) :
    (State.reissueRead s x0).pending = s.pending ∧ (State.reissueRead s x0).mem = s.mem := by
  constructor <;> (simp only [State.reissueRead]; (repeat' split) <;> simp_all)

@[simp] theorem State.ackUpTo_same (s : State) (x0) (x1) :
    (State.ackUpTo s x0 x1).pending = s.pending ∧ (State.ackUpTo s x0 x1).mem = s.mem := by
  constructor <;> (simp only [State.ackUpTo]; (repeat' split) <;> simp_all)

@[simp] theorem State.resendOne_same (s : State) (x0) (x1) (x2) :
    ((State.resendOne s x0 x1 x2).1).pending = s.pending ∧ ((State.resendOne s x0 x1 x2).1).mem = s.mem := by
  constructor <;> (simp only [State.resendOne]; (repeat' split) <;> simp_all)

@[simp] theorem State.resendList_same (s : State) (x0) (x1) (x2) :
    (State.resendList s x0 x1 x2).pending = s.pending ∧ (State.resendList s x0 x1 x2).mem = s.mem := by
  first
  | (induction x2 generalizing s <;> first | (simp_all [State.resendList]; done) | (constructor <;> (simp only [State.resendList]; (repeat' split) <;> (first | (simp_all; done) | (simp; grind [State.resendOne_same]) | grind [State.resendOne_same] | (refine (State.foldl_pending _ (fun u a => ?_) _ _).trans ?_ <;> first | rfl | (simp; done) | ((try dsimp only); (repeat' split) <;> simp_all; done)) | (refine (State.foldl_mem _ (fun u a => ?_) _ _).trans ?_ <;> first | rfl | (simp; done) | ((try dsimp only); (repeat' split) <;> simp_all; done)) | grind [State.resendOne_same]))); done)
  | fun_induction State.resendList s x0 x1 x2 <;> (first | (simp_all; done) | (simp; grind [State.resendOne_same]) | grind [State.resendOne_same] | (refine (State.foldl_pending _ (fun u a => ?_) _ _).trans ?_ <;> first | rfl | (simp; done) | ((try dsimp only); (repeat' split) <;> simp_all; done)) | (refine (State.foldl_mem _ (fun u a => ?_) _ _).trans ?_ <;> first | rfl | (simp; done) | ((try dsimp only); (repeat' split) <;> simp_all; done)) | grind [State.resendOne_same]) | (constructor <;> ((repeat' split) <;> (first | (simp_all; done) | (simp; grind [State.resendOne_same]) | grind [State.resendOne_same] | (refine (State.foldl_pending _ (fun u a => ?_) _ _).trans ?_ <;> first | rfl | (simp; done) | ((try dsimp only); (repeat' split) <;> simp_all; done)) | (refine (State.foldl_mem _ (fun u a => ?_) _ _).trans ?_ <;> first | rfl | (simp; done) | ((try dsimp only); (repeat' split) <;> simp_all; done)) | grind [State.resendOne_same])))

@[simp] theorem State.resend_same (s : State) (x0) (x1) :
    (State.resend s x0 x1).pending = s.pending ∧ (State.resend s x0 x1).mem = s.mem := by
  unfold State.resend; constructor <;> simp

@[simp] theorem State.takeNak_same (s : State) (x0) (x1) (x2) :
    (State.takeNak s x0 x1 x2).pending = s.pending ∧ (State.takeNak s x0 x1 x2).mem = s.mem := by
  constructor <;> (simp only [State.takeNak]; (repeat' split) <;> simp_all)

theorem execRnrWaitExpire_same (x0) (s : State) :
    ∀ t, execRnrWaitExpire x0 s = .next t → (t).pending = s.pending ∧ (t).mem = s.mem := by
  intro t h; simp only [execRnrWaitExpire, State.when, State.pathFault, Host.Outcome.next.injEq] at h; subst h; constructor <;> ((repeat' split) <;> simp)

@[simp] theorem State.retxExpire_same (s : State) (x0) :
    (State.retxExpire s x0).pending = s.pending ∧ (State.retxExpire s x0).mem = s.mem := by
  unfold State.retxExpire; constructor <;> simp

theorem execRetransmitDeadline_same (x0) (s : State) :
    ∀ t, execRetransmitDeadline x0 s = .next t → (t).pending = s.pending ∧ (t).mem = s.mem := by
  intro t h; simp only [execRetransmitDeadline, Host.Outcome.next.injEq] at h; subst h
  apply State.atWheel_both; intros; constructor <;> ((try dsimp only); (repeat' split) <;> simp_all)

@[simp] theorem State.dataArrived_same (s : State) (x0) (x1) :
    (State.dataArrived s x0 x1).pending = s.pending ∧ (State.dataArrived s x0 x1).mem = s.mem := by
  constructor <;> (simp only [State.dataArrived]; (repeat' split) <;> simp_all)

@[simp] theorem State.readDone_same (s : State) (x0) (x1) :
    (State.readDone s x0 x1).pending = s.pending ∧ (State.readDone s x0 x1).mem = s.mem := by
  constructor <;> (simp only [State.readDone]; (repeat' split) <;> simp_all)

@[simp] theorem State.takeReadResp_same (s : State) (x0) (x1) (x2) :
    (State.takeReadResp s x0 x1 x2).pending = s.pending ∧ (State.takeReadResp s x0 x1 x2).mem = s.mem := by
  constructor <;> (simp only [State.takeReadResp]; (repeat' split) <;> simp_all)

@[simp] theorem State.takeAnswer_same (s : State) (x0) (x1) (x2) (x3) :
    (State.takeAnswer s x0 x1 x2 x3).pending = s.pending ∧ (State.takeAnswer s x0 x1 x2 x3).mem = s.mem := by
  constructor <;> (simp only [State.takeAnswer]; (repeat' split) <;> simp_all)

@[simp] theorem State.takePacket_same (s : State) (x0) (x1) (x2) (x3) :
    (State.takePacket s x0 x1 x2 x3).pending = s.pending ∧ (State.takePacket s x0 x1 x2 x3).mem = s.mem := by
  constructor <;> (simp only [State.takePacket]; (repeat' split) <;> simp_all)

@[simp] theorem State.runNamed_same (s : State) (x0) (x1) :
    (State.runNamed s x0 x1).pending = s.pending ∧ (State.runNamed s x0 x1).mem = s.mem := by
  induction x1 generalizing s <;> first | (simp_all [State.runNamed]; done) | (constructor <;> (simp only [State.runNamed]; (repeat' split) <;> simp_all))

@[simp] theorem State.packetIn_same (s : State) (x0) (x1) :
    (State.packetIn s x0 x1).pending = s.pending ∧ (State.packetIn s x0 x1).mem = s.mem := by
  unfold State.packetIn; constructor <;> simp

theorem execCapsuleRx_same (x0) (x1) (s : State) :
    ∀ t, execCapsuleRx x0 x1 s = .next t → (t).pending = s.pending ∧ (t).mem = s.mem := by
  intro t h; simp only [execCapsuleRx, Host.Outcome.next.injEq] at h; subst h; constructor <;> simp [State.when]

theorem execPullSetupRx_same (x0) (x1) (s : State) :
    ∀ t, execPullSetupRx x0 x1 s = .next t → (t).pending = s.pending ∧ (t).mem = s.mem := by
  intro t h; simp only [execPullSetupRx, State.when, State.pathFault, Host.Outcome.next.injEq] at h; subst h; constructor <;> ((repeat' split) <;> simp)

theorem execPullDoorbellRx_same (x0) (x1) (x2) (x3) (x4) (s : State) :
    ∀ t, execPullDoorbellRx x0 x1 x2 x3 x4 s = .next t → (t).pending = s.pending ∧ (t).mem = s.mem := by
  intro t h; simp only [execPullDoorbellRx, Host.Outcome.next.injEq] at h; subst h; constructor <;> simp [State.when]

theorem execDeviceRegionRead_same (x0) (x1) (x2) (s : State) :
    ∀ t, execDeviceRegionRead x0 x1 x2 s = .next t → (t).pending = s.pending ∧ (t).mem = s.mem := by
  intro t h; simp only [execDeviceRegionRead, Host.Outcome.next.injEq] at h; subst h; constructor <;> simp [State.when]

theorem execRdmaRequestRx_same (x0) (x1) (s : State) :
    ∀ t, execRdmaRequestRx x0 x1 s = .next t → (t).pending = s.pending ∧ (t).mem = s.mem := by
  intro t h; simp only [execRdmaRequestRx, Host.Outcome.next.injEq] at h; subst h; constructor <;> simp [State.when]

theorem execAckRx_same (x0) (s : State) : ∀ t, execAckRx x0 s = .next t → (t).pending = s.pending ∧ (t).mem = s.mem := by
  intro t h; simp only [execAckRx, Host.Outcome.next.injEq] at h; subst h; constructor <;> simp [State.when]

theorem execNakRx_same (x0) (x1) (s : State) : ∀ t, execNakRx x0 x1 s = .next t → (t).pending = s.pending ∧ (t).mem = s.mem := by
  intro t h; simp only [execNakRx, Host.Outcome.next.injEq] at h; subst h; constructor <;> simp [State.when]

theorem execReadResponseRx_same (x0) (x1) (s : State) :
    ∀ t, execReadResponseRx x0 x1 s = .next t → (t).pending = s.pending ∧ (t).mem = s.mem := by
  intro t h; simp only [execReadResponseRx, Host.Outcome.next.injEq] at h; subst h; constructor <;> simp [State.when]

theorem execContextFetchDone_same (x0) (x1) (s : State) :
    ∀ t, execContextFetchDone x0 x1 s = .next t → (t).pending = s.pending ∧ (t).mem = s.mem := by
  intro t h; simp only [execContextFetchDone, Host.Outcome.next.injEq] at h; subst h; constructor <;> simp [State.when]

theorem execContextWritebackDone_same (x0) (s : State) :
    ∀ t, execContextWritebackDone x0 s = .next t → (t).pending = s.pending ∧ (t).mem = s.mem := by
  intro t h; simp only [execContextWritebackDone, Host.Outcome.next.injEq] at h; subst h; constructor <;> simp [State.when]

theorem execCqGatherExpire_same (x0) (s : State) :
    ∀ t, execCqGatherExpire x0 s = .next t → (t).pending = s.pending ∧ (t).mem = s.mem := by
  intro t h; simp only [execCqGatherExpire, State.when, State.pathFault, Host.Outcome.next.injEq] at h; subst h; constructor <;> ((repeat' split) <;> simp)

@[simp] theorem State.armRate_same (s : State) (x0) :
    (State.armRate s x0).pending = s.pending ∧ (State.armRate s x0).mem = s.mem := by
  unfold State.armRate; constructor <;> simp

@[simp] theorem State.cutRate_same (s : State) (x0) :
    (State.cutRate s x0).pending = s.pending ∧ (State.cutRate s x0).mem = s.mem := by
  unfold State.cutRate; constructor <;> simp

theorem execCnpRx_same (x0) (s : State) : ∀ t, execCnpRx x0 s = .next t → (t).pending = s.pending ∧ (t).mem = s.mem := by
  intro t h; simp only [execCnpRx, Host.Outcome.next.injEq] at h; subst h; constructor <;> simp [State.when]

@[simp] theorem State.alphaExpire_same (s : State) (x0) :
    (State.alphaExpire s x0).pending = s.pending ∧ (State.alphaExpire s x0).mem = s.mem := by
  unfold State.alphaExpire; constructor <;> simp

theorem execAlphaPeriodExpire_same (x0) (s : State) :
    ∀ t, execAlphaPeriodExpire x0 s = .next t → (t).pending = s.pending ∧ (t).mem = s.mem := by
  intro t h; simp only [execAlphaPeriodExpire, Host.Outcome.next.injEq] at h; subst h
  apply State.atWheel_both; intros; constructor <;> ((try dsimp only); (repeat' split) <;> simp_all)

@[simp] theorem State.rateStep_same (s : State) (x0) :
    (State.rateStep s x0).pending = s.pending ∧ (State.rateStep s x0).mem = s.mem := by
  unfold State.rateStep; constructor <;> simp

@[simp] theorem State.rateExpire_same (s : State) (x0) :
    (State.rateExpire s x0).pending = s.pending ∧ (State.rateExpire s x0).mem = s.mem := by
  unfold State.rateExpire; constructor <;> simp

theorem execRateIncrease_same (x0) (s : State) : ∀ t, execRateIncrease x0 s = .next t → t.pending = s.pending ∧ t.mem = s.mem := by
  intro t h; simp only [execRateIncrease, Host.Outcome.next.injEq] at h; subst h
  split
  · simp
  · exact State.atWheel_both _ _ _ fun u => ⟨by simp, by simp⟩

@[simp] theorem State.resumeRates_same (s : State) :
    (State.resumeRates s).pending = s.pending ∧ (State.resumeRates s).mem = s.mem := by
  unfold State.resumeRates; constructor <;> simp

@[simp] theorem State.ccResumed_same (o s : State) : (o.ccResumed s).pending = s.pending ∧ (o.ccResumed s).mem = s.mem := by
  unfold State.ccResumed; constructor <;> ((repeat' split) <;> simp)

@[simp] theorem State.wheelConn_same (s : State) (x0) :
    (State.wheelConn s x0).pending = s.pending ∧ (State.wheelConn s x0).mem = s.mem := by
  unfold State.wheelConn; constructor <;> simp

theorem execWheelTick_same (s : State) : ∀ t, execWheelTick s = .next t → (t).pending = s.pending ∧ (t).mem = s.mem := by
  intro t h; simp only [execWheelTick, State.when, State.pathFault, Host.Outcome.next.injEq] at h; subst h; constructor <;> ((repeat' split) <;> simp)

theorem execNeighbourRequestRx_same (x0) (x1) (s : State) :
    ∀ t, execNeighbourRequestRx x0 x1 s = .next t → (t).pending = s.pending ∧ (t).mem = s.mem := by
  intro t h; simp only [execNeighbourRequestRx, Host.Outcome.next.injEq] at h; subst h; constructor <;> simp [State.when]

@[simp] theorem State.refuseReq_same (s : State) (x0) (x1) :
    (State.refuseReq s x0 x1).pending = s.pending ∧ (State.refuseReq s x0 x1).mem = s.mem := by
  unfold State.refuseReq; constructor <;> simp

@[simp] theorem State.residentNow_same (s : State) (x0) :
    (State.residentNow s x0).pending = s.pending ∧ (State.residentNow s x0).mem = s.mem := by
  unfold State.residentNow; constructor <;> simp

@[simp] theorem State.openConn_same (s : State) (x0) (x1) (x2) (x3) (x4) :
    (State.openConn s x0 x1 x2 x3 x4).pending = s.pending ∧ (State.openConn s x0 x1 x2 x3 x4).mem = s.mem := by
  unfold State.openConn; constructor <;> simp

@[simp] theorem State.admitReq_same (s : State) (x0) (x1) :
    (State.admitReq s x0 x1).pending = s.pending ∧ (State.admitReq s x0 x1).mem = s.mem := by
  unfold State.admitReq; constructor <;> simp

@[simp] theorem State.installReq_same (s : State) (x0) (x1) :
    (State.installReq s x0 x1).pending = s.pending ∧ (State.installReq s x0 x1).mem = s.mem := by
  unfold State.installReq; constructor <;> simp

theorem execCmReqRx_same (x0) (s : State) : ∀ t, execCmReqRx x0 s = .next t → (t).pending = s.pending ∧ (t).mem = s.mem := by
  intro t h; simp only [execCmReqRx, State.when, State.pathFault, Host.Outcome.next.injEq] at h; subst h; constructor <;> ((repeat' split) <;> simp)

@[simp] theorem State.enterReady_same (s : State) (x0) :
    (State.enterReady s x0).pending = s.pending ∧ (State.enterReady s x0).mem = s.mem := by
  unfold State.enterReady; constructor <;> simp

@[simp] theorem State.admitConn_same (s : State) (x0) :
    (State.admitConn s x0).pending = s.pending ∧ (State.admitConn s x0).mem = s.mem := by
  unfold State.admitConn; constructor <;> simp

theorem execCmRtuRx_same (x0) (s : State) : ∀ t, execCmRtuRx x0 s = .next t → (t).pending = s.pending ∧ (t).mem = s.mem := by
  intro t h; simp only [execCmRtuRx, Host.Outcome.next.injEq] at h; subst h; constructor <;> simp [State.when]

@[simp] theorem State.enterClosed_same (s : State) (x0) :
    (State.enterClosed s x0).pending = s.pending ∧ (State.enterClosed s x0).mem = s.mem := by
  constructor <;> (simp only [State.enterClosed]; (repeat' split) <;> simp_all)

theorem execCmDreqRx_same (x0) (s : State) : ∀ t, execCmDreqRx x0 s = .next t → (t).pending = s.pending ∧ (t).mem = s.mem := by
  intro t h; simp only [execCmDreqRx, Host.Outcome.next.injEq] at h; subst h; constructor <;> simp [State.when]

theorem execCmDrepRx_same (x0) (s : State) : ∀ t, execCmDrepRx x0 s = .next t → (t).pending = s.pending ∧ (t).mem = s.mem := by
  intro t h; simp only [execCmDrepRx, Host.Outcome.next.injEq] at h; subst h; constructor <;> simp [State.when]

theorem execCmTmoExpire_same (x0) (s : State) :
    ∀ t, execCmTmoExpire x0 s = .next t → (t).pending = s.pending ∧ (t).mem = s.mem := by
  intro t h; simp only [execCmTmoExpire, State.when, State.pathFault, Host.Outcome.next.injEq] at h; subst h; constructor <;> ((repeat' split) <;> simp)

theorem execQuietTmoExpire_same (x0) (s : State) :
    ∀ t, execQuietTmoExpire x0 s = .next t → (t).pending = s.pending ∧ (t).mem = s.mem := by
  intro t h; simp only [execQuietTmoExpire, State.when, State.pathFault, Host.Outcome.next.injEq] at h; subst h; constructor <;> ((repeat' split) <;> simp)

@[simp] theorem State.sendMsg_same (s : State) (n : Nat) (b : Bool) (f : Nat) (m : List Byte) :
    (s.sendMsg n b f m).pending = s.pending ∧ (s.sendMsg n b f m).mem = s.mem := by
  induction f generalizing s b m with
  | zero => exact ⟨rfl, rfl⟩
  | succ f ih => simp only [State.sendMsg]; split <;> simp [ih]

@[simp] theorem State.keyFail_same (s : State) (x0) (x1) :
    (State.keyFail s x0 x1).pending = s.pending ∧ (State.keyFail s x0 x1).mem = s.mem := by
  unfold State.keyFail; constructor <;> simp

@[simp] theorem State.noteMsg_same (s : State) (x0) (x1) :
    (State.noteMsg s x0 x1).pending = s.pending ∧ (State.noteMsg s x0 x1).mem = s.mem := by
  unfold State.noteMsg; constructor <;> simp

theorem execSheathK1Rx_same (x0) (x1) (s : State) :
    ∀ t, execSheathK1Rx x0 x1 s = .next t → (t).pending = s.pending ∧ (t).mem = s.mem := by
  intro t h; simp only [execSheathK1Rx, Host.Outcome.next.injEq] at h; subst h; constructor <;> simp [State.when]

@[simp] theorem State.installSas_same (s : State) (x0) (x1) (x2) (x3) :
    (State.installSas s x0 x1 x2 x3).pending = s.pending ∧ (State.installSas s x0 x1 x2 x3).mem = s.mem := by
  unfold State.installSas; constructor <;> simp

theorem execSheathK3Rx_same (x0) (x1) (s : State) :
    ∀ t, execSheathK3Rx x0 x1 s = .next t → (t).pending = s.pending ∧ (t).mem = s.mem := by
  intro t h; simp only [execSheathK3Rx, State.when, State.pathFault, Host.Outcome.next.injEq] at h; subst h; constructor <;> ((repeat' split) <;> simp)

theorem execKeyTmoExpire_same (x0) (s : State) :
    ∀ t, execKeyTmoExpire x0 s = .next t → (t).pending = s.pending ∧ (t).mem = s.mem := by
  intro t h; simp only [execKeyTmoExpire, State.when, State.pathFault, Host.Outcome.next.injEq] at h; subst h; constructor <;> ((repeat' split) <;> simp)

@[simp] theorem State.flowLost_same (s : State) (x0) (x1) :
    (State.flowLost s x0 x1).pending = s.pending ∧ (State.flowLost s x0 x1).mem = s.mem := by
  unfold State.flowLost; constructor <;> simp

end Sys2Proof.Machine
end

