-- ==== Sys2Proof/Laws/FrameCommands.lean ====
section
/-! SUPPORT. Frames of the definitions of Cmds, Reads, Commands: each leaves the queue of commands as it is, and memory as it is or in
its canonical form. -/
set_option maxRecDepth 8000
set_option Elab.async false
set_option linter.all false
namespace Sys2Proof.Machine

@[simp] theorem State.proceed_same (s : State) (x0) (x1) :
    (State.proceed s x0 x1).pending = s.pending ∧ (State.proceed s x0 x1).mem = s.mem := by
  unfold State.proceed; constructor <;> simp

@[simp] theorem State.keysCheck_same (s : State) (x0) :
    (State.keysCheck s x0).pending = s.pending ∧ (State.keysCheck s x0).mem = s.mem := by
  constructor <;> (simp only [State.keysCheck]; (repeat' split) <;> simp_all)

@[simp] theorem State.decodeCmd_same (s : State) (x0) :
    (State.decodeCmd s x0).pending = s.pending ∧ (State.decodeCmd s x0).mem = s.mem := by
  constructor <;> (simp only [State.decodeCmd]; (repeat' split) <;> simp_all)

@[simp] theorem State.meterCmd_same (s : State) (x0) (x1) :
    ((State.meterCmd s x0 x1).1).pending = s.pending ∧ ((State.meterCmd s x0 x1).1).mem = s.mem := by
  constructor <;> (simp only [State.meterCmd]; (repeat' split) <;> simp_all)

@[simp] theorem State.endUnstarted_same (s : State) (x0) (x1) (x2) (x3) (x4) :
    (State.endUnstarted s x0 x1 x2 x3 x4).pending = s.pending ∧ (State.endUnstarted s x0 x1 x2 x3 x4).mem = s.mem := by
  unfold State.endUnstarted; constructor <;> simp

@[simp] theorem State.endAtStart_same (s : State) (x0) (x1) (x2) (x3) (x4) :
    (State.endAtStart s x0 x1 x2 x3 x4).pending = s.pending ∧ (State.endAtStart s x0 x1 x2 x3 x4).mem = s.mem := by
  constructor <;> (simp only [State.endAtStart]; (repeat' split) <;> simp_all)

@[simp] theorem State.startCmd_same (s : State) (x0) :
    (State.startCmd s x0).pending = s.pending ∧ (State.startCmd s x0).mem = s.mem := by
  simp only [State.startCmd]
  split
  · exact ⟨rfl, rfl⟩
  · next r rs _ =>
    split
    · exact ⟨rfl, rfl⟩
    · split
      · simp
      · split
        · simp
        · generalize hp : (if (s.follows && (!(s.conn x0).admin && (s.conn x0).ctrl.isSome)) = true then _ else s.meterCmd x0 r.entry) = p
          obtain ⟨s', col, ok⟩ := p
          have hs : s'.pending = s.pending ∧ s'.mem = s.mem := by
            have hm := State.meterCmd_same s x0 r.entry
            clear * - hp hm
            split at hp
            · split at hp <;> (simp only [Prod.mk.injEq] at hp; rw [← hp.1]; first | exact ⟨rfl, rfl⟩ | simp)
            · rw [hp] at hm; exact hm
          clear hp
          split
          · constructor <;> (simp; try (split <;> simp))
          · split
            · exact ⟨rfl, rfl⟩
            · constructor <;> (simp [hs.1, hs.2]; done)

@[simp] theorem State.startAll_same (s : State) (x0) (x1) :
    (State.startAll s x0 x1).pending = s.pending ∧ (State.startAll s x0 x1).mem = s.mem := by
  induction x1 generalizing s <;> first | (simp_all [State.startAll]; done) | (constructor <;> (simp only [State.startAll]; (repeat' split) <;> simp_all))

@[simp] theorem State.startTurn_same (s : State) (x0) :
    (State.startTurn s x0).pending = s.pending ∧ (State.startTurn s x0).mem = s.mem := by
  unfold State.startTurn; constructor <;> simp

@[simp] theorem State.startTurns_same (s : State) (x0) (x1) :
    (State.startTurns s x0 x1).pending = s.pending ∧ (State.startTurns s x0 x1).mem = s.mem := by
  induction x1 generalizing s <;> first | (simp_all [State.startTurns]; done) | (constructor <;> (simp only [State.startTurns]; (repeat' split) <;> simp_all))

@[simp] theorem State.startHeld_same (s : State) (x0) :
    (State.startHeld s x0).pending = s.pending ∧ (State.startHeld s x0).mem = s.mem := by
  unfold State.startHeld; constructor <;> simp

@[simp] theorem State.wakeFlush_same (s : State) : (State.wakeFlush s).pending = s.pending ∧ (State.wakeFlush s).mem = s.mem := by
  unfold State.wakeFlush; constructor <;> simp

@[simp] theorem State.nsChanged_same (s : State) (x0) (x1) :
    (State.nsChanged s x0 x1).pending = s.pending ∧ (State.nsChanged s x0 x1).mem = s.mem := by
  unfold State.nsChanged; constructor <;> simp

@[simp] theorem State.removeNs_same (s : State) (x0) :
    (State.removeNs s x0).pending = s.pending ∧ (State.removeNs s x0).mem = s.mem := by
  unfold State.removeNs; constructor <;> simp

@[simp] theorem State.removeVolume_same (s : State) (x0) :
    (State.removeVolume s x0).pending = s.pending ∧ (State.removeVolume s x0).mem = s.mem := by
  unfold State.removeVolume; constructor <;> simp

@[simp] theorem State.buffered_same (s : State) (x0) :
    (State.buffered s x0).pending = s.pending ∧ (State.buffered s x0).mem = s.mem := by
  constructor <;> (simp only [State.buffered]; (repeat' split) <;> simp_all)

@[simp] theorem State.retireGens_same (s : State) (x0) (x1) :
    (State.retireGens s x0 x1).pending = s.pending ∧ (State.retireGens s x0 x1).mem = s.mem := by
  unfold State.retireGens; constructor <;> simp

@[simp] theorem State.destroyKey_same (s : State) (x0) :
    (State.destroyKey s x0).pending = s.pending ∧ (State.destroyKey s x0).mem = s.mem := by
  constructor <;> (simp only [State.destroyKey]; (repeat' split) <;> simp_all)

@[simp] theorem State.wakeMgmt_same (s : State) : (State.wakeMgmt s).pending = s.pending ∧ (State.wakeMgmt s).mem = s.mem := by
  constructor <;> (simp only [State.wakeMgmt]; (repeat' split) <;> (first | (refine (State.foldl_pending _ (fun u a => ?_) _ _).trans ?_ <;> first | rfl | (simp; done) | ((try dsimp only); (repeat' split) <;> simp_all; done)) | (refine (State.foldl_mem _ (fun u a => ?_) _ _).trans ?_ <;> first | rfl | (simp; done) | ((try dsimp only); (repeat' split) <;> simp_all; done))))

@[simp] theorem State.updBlk_same (s : State) (x0) (x1) (x2) :
    (State.updBlk s x0 x1 x2).pending = s.pending ∧ (State.updBlk s x0 x1 x2).mem = s.mem := by
  unfold State.updBlk; constructor <;> simp

@[simp] theorem State.failRead_same (s : State) (x0) (x1) (x2) (x3) :
    (State.failRead s x0 x1 x2 x3).pending = s.pending ∧ (State.failRead s x0 x1 x2 x3).mem = s.mem := by
  constructor <;> (simp only [State.failRead]; (repeat' split) <;> simp_all)

@[simp] theorem State.readPos_same (s : State) (x0) (x1) (x2) (x3) (x4) (x5) (x6) :
    (State.readPos s x0 x1 x2 x3 x4 x5 x6).pending = s.pending ∧ (State.readPos s x0 x1 x2 x3 x4 x5 x6).mem = s.mem := by
  unfold State.readPos; constructor <;> simp

@[simp] theorem State.gatherMore_same (s : State) (x0) (x1) (x2) :
    (State.gatherMore s x0 x1 x2).pending = s.pending ∧ (State.gatherMore s x0 x1 x2).mem = s.mem := by
  constructor <;> (simp only [State.gatherMore]; (repeat' split) <;> simp_all)

@[simp] theorem State.startBlock_same (s : State) (x0) (x1) :
    (State.startBlock s x0 x1).pending = s.pending ∧ (State.startBlock s x0 x1).mem = s.mem := by
  constructor <;> (simp only [State.startBlock]; (repeat' split) <;> simp_all)

@[simp] theorem State.askBlock_same (s : State) (x0) (x1) :
    (State.askBlock s x0 x1).pending = s.pending ∧ (State.askBlock s x0 x1).mem = s.mem := by
  unfold State.askBlock; constructor <;> simp

theorem execHoldSlotGrant_same (s : State) : ∀ t, execHoldSlotGrant s = .next t → (t).pending = s.pending ∧ (t).mem = s.mem := by
  intro t h; simp only [execHoldSlotGrant, State.when, State.pathFault, Host.Outcome.next.injEq] at h; subst h; constructor <;> ((repeat' split) <;> simp)

theorem execNvmeRead_same (x0) (s : State) : ∀ t, execNvmeRead x0 s = .next t → (t).pending = s.pending ∧ (t).mem = s.mem := by
  intro t h; simp only [execNvmeRead, State.when, State.pathFault, Host.Outcome.next.injEq] at h; subst h; constructor <;> ((repeat' split) <;> (first | (simp_all [-List.reduceReplicate]; done) | (refine (State.foldl_pending _ (fun u a => ?_) _ _).trans ?_ <;> first | rfl | (simp [-List.reduceReplicate]; done) | ((try dsimp only); (repeat' split) <;> simp_all [-List.reduceReplicate]; done)) | (refine (State.foldl_mem _ (fun u a => ?_) _ _).trans ?_ <;> first | rfl | (simp [-List.reduceReplicate]; done) | ((try dsimp only); (repeat' split) <;> simp_all [-List.reduceReplicate]; done))))

@[simp] theorem State.readArrived_same (s : State) (x0) (x1) (x2) (x3) :
    (State.readArrived s x0 x1 x2 x3).pending = s.pending ∧ (State.readArrived s x0 x1 x2 x3).mem = s.mem := by
  constructor <;> (simp only [State.readArrived]; (repeat' split) <;> simp_all)

@[simp] theorem State.readFailed_same (s : State) (x0) (x1) (x2) :
    (State.readFailed s x0 x1 x2).pending = s.pending ∧ (State.readFailed s x0 x1 x2).mem = s.mem := by
  constructor <;> (simp only [State.readFailed]; (repeat' split) <;> simp_all)

@[simp] theorem State.retryBlocks_same (s : State) :
    (State.retryBlocks s).pending = s.pending ∧ (State.retryBlocks s).mem = s.mem := by
  unfold State.retryBlocks; constructor <;> simp

@[simp] theorem State.countOpened_same (s : State) (x0) :
    (State.countOpened s x0).pending = s.pending ∧ (State.countOpened s x0).mem = s.mem := by
  constructor <;> (simp only [State.countOpened]; (repeat' split) <;> simp_all)

@[simp] theorem State.releaseRead_same (s : State) (x0) (x1) (x2) :
    (State.releaseRead s x0 x1 x2).pending = s.pending ∧ (State.releaseRead s x0 x1 x2).mem = s.mem := by
  unfold State.releaseRead; constructor <;> simp

@[simp] theorem State.openRead_same (s : State) (t : Nat) (c : Cmd) (i : Nat) (bs : List RdBlk) (acc : List Byte) :
    (s.openRead t c i bs acc).pending = s.pending ∧ (s.openRead t c i bs acc).mem = s.mem := by
  induction bs generalizing s i acc with
  | nil => simp [State.openRead]
  | cons b bs ih =>
    simp only [State.openRead]
    split
    · simp [ih]
    · split
      · simp [ih, -List.reduceReplicate]
      · simp [ih]
      · (repeat' split) <;> simp
    · simp

theorem State.cipherCall_wf (s : State) (op : Nat) (b : Call → State → Option (Nat × Nat × State))
    (h : ∀ c u x y t, b c u = some (x, y, t) → t.pending = u.pending ∧ (Memory.wf u.mem = true → Memory.wf t.mem = true)) :
    (s.cipherCall op b).pending = s.pending ∧ (Memory.wf s.mem = true → Memory.wf (s.cipherCall op b).mem = true) := by
  simp only [State.cipherCall]
  split
  · simp
  · next c _ =>
    split
    · split
      · simp
      · next x y t e => exact ⟨by simpa using (h c s x y t e).1, fun hw => by simpa using (h c s x y t e).2 hw⟩
    · split <;> simp

@[simp] theorem State.encryptCall_same (s : State) (x0 : List Bool) :
    (s.encryptCall x0).pending = s.pending ∧ (Memory.wf s.mem = true → Memory.wf (s.encryptCall x0).mem = true) := by
  unfold State.encryptCall
  apply State.cipherCall_wf; intro c u x y t h
  have e := State.takeCtrs_same u (c.arg 0x0A 2)
  dsimp only at h
  (repeat' split at h) <;> first
    | (cases h; done)
    | (simp only [Option.some.injEq, Prod.mk.injEq] at h; obtain ⟨-, -, rfl⟩ := h; first | (constructor <;> simp_all; done) | grind [State.runPipe_same, writeMem_wf])

@[simp] theorem State.openRun_same (s : State) (rel : Bool) (gens : List (Nat × List Byte)) (nsid gen n lba : Nat) (d : List Byte) (done : Nat) (acc : List Byte) :
    (s.openRun rel gens nsid gen n lba d done acc).1.pending = s.pending ∧ (s.openRun rel gens nsid gen n lba d done acc).1.mem = s.mem := by
  induction n generalizing s lba d done acc with
  | zero => exact ⟨rfl, rfl⟩
  | succ n ih =>
    simp only [State.openRun]
    split
    · constructor <;> (simp only [ih]; split <;> simp)
    · constructor <;> (simp only [ih]; split <;> simp)
    · constructor <;> (dsimp only; split <;> simp)

@[simp] theorem State.decryptCall_same (s : State) (op : Nat) (m : List Bool) (r : Bool) :
    (s.decryptCall op m r).pending = s.pending ∧ (Memory.wf s.mem = true → Memory.wf (s.decryptCall op m r).mem = true) := by
  unfold State.decryptCall
  apply State.cipherCall_wf; intro c u x y t h
  dsimp only at h
  (repeat' split at h) <;> first
    | (cases h; done)
    | (simp only [Option.some.injEq, Prod.mk.injEq] at h; obtain ⟨-, -, rfl⟩ := h; first | (constructor <;> simp_all; done) | grind [State.runPipe_same, State.openRun_same, writeMem_wf])

theorem execAtRestDecrypt_same (x0) (x1) (x2) (s : State) :
    ∀ t, execAtRestDecrypt x0 x1 x2 s = .next t → (t).pending = s.pending ∧ (Memory.wf s.mem = true → Memory.wf (t).mem = true) := by
  intro t h; simp only [execAtRestDecrypt, State.when, State.pathFault, Host.Outcome.next.injEq] at h; subst h; constructor
  · (repeat' split) <;> simp_all
  · intro hw; (repeat' split) <;> simp_all

theorem execAtRestVerify_same (x0) (x1) (s : State) :
    ∀ t, execAtRestVerify x0 x1 s = .next t → (t).pending = s.pending ∧ (Memory.wf s.mem = true → Memory.wf (t).mem = true) := by
  intro t h; simp only [execAtRestVerify, State.when, State.pathFault, Host.Outcome.next.injEq] at h; subst h; constructor
  · (repeat' split) <;> simp_all
  · intro hw; (repeat' split) <;> simp_all

@[simp] theorem State.wireCall_same (s : State) (e m : Bool) :
    (s.wireCall e m).pending = s.pending ∧ (Memory.wf s.mem = true → Memory.wf (s.wireCall e m).mem = true) := by
  unfold State.wireCall
  apply State.cipherCall_wf; intro c u x y t h
  dsimp only at h
  (repeat' split at h) <;> first
    | (cases h; done)
    | (simp only [Option.some.injEq, Prod.mk.injEq] at h; obtain ⟨-, -, rfl⟩ := h; first | (constructor <;> simp_all; done) | grind [State.runPipe_same, State.espDrop_same, writeMem_wf])

theorem execWireEncrypt_same (x0) (s : State) :
    ∀ t, execWireEncrypt x0 s = .next t → (t).pending = s.pending ∧ (Memory.wf s.mem = true → Memory.wf (t).mem = true) := by
  intro t h; simp only [execWireEncrypt, State.when, State.pathFault, Host.Outcome.next.injEq] at h; subst h; constructor
  · (repeat' split) <;> simp_all
  · intro hw; (repeat' split) <;> simp_all

theorem execWireDecrypt_same (x0) (s : State) :
    ∀ t, execWireDecrypt x0 s = .next t → (t).pending = s.pending ∧ (Memory.wf s.mem = true → Memory.wf (t).mem = true) := by
  intro t h; simp only [execWireDecrypt, State.when, State.pathFault, Host.Outcome.next.injEq] at h; subst h; constructor
  · (repeat' split) <;> simp_all
  · intro hw; (repeat' split) <;> simp_all

theorem execCtrSaveDone_same (s : State) : ∀ t, execCtrSaveDone s = .next t → (t).pending = s.pending ∧ (t).mem = s.mem := by
  intro t h; simp only [execCtrSaveDone, Host.Outcome.next.injEq] at h; subst h; constructor <;> simp [State.when]

theorem writeMem_foldl_wf (l : List (Nat × List Byte)) (m : List Host.Cell) (h : Memory.wf m = true) :
    Memory.wf (l.foldl (fun m d => writeMem m d.1 d.2) m) = true := by
  induction l generalizing m with
  | nil => exact h
  | cons a l ih => exact ih _ (writeMem_wf m a.1 a.2 h)

@[simp] theorem State.ecCall_same (s : State) (op : Nat) (ok : Call → Bool) (a b : Call → Nat) (f : Call → List (List Byte) → List (List Byte)) :
    (s.ecCall op ok a b f).pending = s.pending ∧ (Memory.wf s.mem = true → Memory.wf (s.ecCall op ok a b f).mem = true) := by
  unfold State.ecCall
  constructor
  · dsimp only; (repeat' split) <;> simp
  · intro hw
    dsimp only
    (repeat' split) <;> first
      | (simp_all; done)
      | (simp only [(State.answer_same _ _ _ _).2]; apply writeMem_foldl_wf; exact hw)
      | (simp only [(State.answer_same _ _ _ _).2]; apply writeMem_wf; apply writeMem_foldl_wf; exact hw)

theorem execEcEncode_same (s : State) :
    ∀ t, execEcEncode s = .next t → (t).pending = s.pending ∧ (Memory.wf s.mem = true → Memory.wf (t).mem = true) := by
  intro t h; simp only [execEcEncode, State.when, State.pathFault, Host.Outcome.next.injEq] at h; subst h; constructor
  · (repeat' split) <;> simp_all
  · intro hw; (repeat' split) <;> simp_all

theorem execEcUpdate_same (s : State) :
    ∀ t, execEcUpdate s = .next t → (t).pending = s.pending ∧ (Memory.wf s.mem = true → Memory.wf (t).mem = true) := by
  intro t h; simp only [execEcUpdate, State.when, State.pathFault, Host.Outcome.next.injEq] at h; subst h; constructor
  · (repeat' split) <;> simp_all
  · intro hw; (repeat' split) <;> simp_all

theorem execEcDecode_same (s : State) :
    ∀ t, execEcDecode s = .next t → (t).pending = s.pending ∧ (Memory.wf s.mem = true → Memory.wf (t).mem = true) := by
  intro t h; simp only [execEcDecode, State.when, State.pathFault, Host.Outcome.next.injEq] at h; subst h; constructor
  · (repeat' split) <;> simp_all
  · intro hw; (repeat' split) <;> simp_all

theorem execCommandStart_same (x0) (s : State) :
    ∀ t, execCommandStart x0 s = .next t → (t).pending = s.pending ∧ (t).mem = s.mem := by
  intro t h; simp only [execCommandStart, Host.Outcome.next.injEq] at h; subst h; constructor <;> simp [State.when]

theorem execPolicerRelease_same (x0) (s : State) :
    ∀ t, execPolicerRelease x0 s = .next t → (t).pending = s.pending ∧ (t).mem = s.mem := by
  intro t h; simp only [execPolicerRelease, Host.Outcome.next.injEq] at h; subst h; constructor <;> simp [State.when]

@[simp] theorem State.answerData_same (s : State) (x0) (x1) :
    (State.answerData s x0 x1).pending = s.pending ∧ (State.answerData s x0 x1).mem = s.mem := by
  constructor <;> (simp only [State.answerData]; (repeat' split) <;> simp_all)

@[simp] theorem State.drawBytes_same (s : State) (x0) :
    ((State.drawBytes s x0).2).pending = s.pending ∧ ((State.drawBytes s x0).2).mem = s.mem := by
  unfold State.drawBytes; constructor <;> simp

theorem execNvmeIdentify_same (x0) (s : State) :
    ∀ t, execNvmeIdentify x0 s = .next t → (t).pending = s.pending ∧ (t).mem = s.mem := by
  intro t h; simp only [execNvmeIdentify, State.when, State.pathFault, Host.Outcome.next.injEq] at h; subst h; constructor <;> ((repeat' split) <;> simp)

theorem State.logPage_same (s : State) (x0) (x1) (x2) :
    ∀ t, State.logPage s x0 x1 x2 = some t → (t.2).pending = s.pending ∧ (t.2).mem = s.mem := by
  intro t h; simp only [State.logPage] at h
  (repeat' split at h) <;> first
    | (injection h with h; rw [← h]; constructor <;> first | rfl | (simp; done) | simp_all)
    | (cases h; done)
    | (simp_all; done)

theorem execGetLogPage_same (x0) (s : State) : ∀ t, execGetLogPage x0 s = .next t → (t).pending = s.pending ∧ (t).mem = s.mem := by
  intro t h; simp only [execGetLogPage, State.when, State.pathFault, Host.Outcome.next.injEq] at h; subst h; constructor <;> ((repeat' split) <;> (first | (simp_all; done) | ((try simp); first | exact (State.logPage_same _ _ _ _ _ ‹_›).1 | exact (State.logPage_same _ _ _ _ _ ‹_›).2)))

theorem execNvmeAbort_same (x0) (s : State) : ∀ t, execNvmeAbort x0 s = .next t → (t).pending = s.pending ∧ (t).mem = s.mem := by
  intro t h; simp only [execNvmeAbort, State.when, State.pathFault, Host.Outcome.next.injEq] at h; subst h; constructor <;> ((repeat' split) <;> simp)

@[simp] theorem State.setResv_same (s : State) (x0) (x1) :
    (State.setResv s x0 x1).pending = s.pending ∧ (State.setResv s x0 x1).mem = s.mem := by
  unfold State.setResv; constructor <;> simp

theorem execSetFeatures_same (x0) (s : State) :
    ∀ t, execSetFeatures x0 s = .next t → (t).pending = s.pending ∧ (t).mem = s.mem := by
  intro t h; simp only [execSetFeatures, State.when, State.pathFault, Host.Outcome.next.injEq] at h; subst h; constructor <;> ((repeat' split) <;> simp)

theorem execGetFeatures_same (x0) (s : State) :
    ∀ t, execGetFeatures x0 s = .next t → (t).pending = s.pending ∧ (t).mem = s.mem := by
  intro t h; simp only [execGetFeatures, State.when, State.pathFault, Host.Outcome.next.injEq] at h; subst h; constructor <;> ((repeat' split) <;> simp)

theorem execAsyncEventRequest_same (x0) (s : State) :
    ∀ t, execAsyncEventRequest x0 s = .next t → (t).pending = s.pending ∧ (t).mem = s.mem := by
  intro t h; simp only [execAsyncEventRequest, State.when, State.pathFault, Host.Outcome.next.injEq] at h; subst h; constructor <;> ((repeat' split) <;> simp)

theorem execKeepAlive_same (x0) (s : State) : ∀ t, execKeepAlive x0 s = .next t → (t).pending = s.pending ∧ (t).mem = s.mem := by
  intro t h; simp only [execKeepAlive, State.when, State.pathFault, Host.Outcome.next.injEq] at h; subst h; constructor <;> ((repeat' split) <;> simp)

theorem execKeepAliveExpire_same (x0) (s : State) :
    ∀ t, execKeepAliveExpire x0 s = .next t → (t).pending = s.pending ∧ (t).mem = s.mem := by
  intro t h; simp only [execKeepAliveExpire, Host.Outcome.next.injEq] at h; subst h; constructor <;> simp [State.when]

theorem execRegisterMemoryKey_same (x0) (s : State) :
    ∀ t, execRegisterMemoryKey x0 s = .next t → (t).pending = s.pending ∧ (t).mem = s.mem := by
  intro t h; simp only [execRegisterMemoryKey, State.when, State.pathFault, Host.Outcome.next.injEq] at h; subst h; constructor <;> ((repeat' split) <;> simp)

theorem execDeregisterMemoryKey_same (x0) (s : State) :
    ∀ t, execDeregisterMemoryKey x0 s = .next t → (t).pending = s.pending ∧ (t).mem = s.mem := by
  intro t h; simp only [execDeregisterMemoryKey, State.when, State.pathFault, Host.Outcome.next.injEq] at h; subst h; constructor <;> ((repeat' split) <;> simp)

theorem execThawQueue_same (x0) (s : State) : ∀ t, execThawQueue x0 s = .next t → (t).pending = s.pending ∧ (t).mem = s.mem := by
  intro t h; simp only [execThawQueue, State.when, State.pathFault, Host.Outcome.next.injEq] at h; subst h; constructor <;> ((repeat' split) <;> simp)

@[simp] theorem State.connectAdmin_same (s : State) (x0) (x1) (x2) :
    (State.connectAdmin s x0 x1 x2).pending = s.pending ∧ (State.connectAdmin s x0 x1 x2).mem = s.mem := by
  constructor <;> (simp only [State.connectAdmin]; (repeat' split) <;> simp_all)

@[simp] theorem State.connectIo_same (s : State) (x0) (x1) (x2) (x3) :
    (State.connectIo s x0 x1 x2 x3).pending = s.pending ∧ (State.connectIo s x0 x1 x2 x3).mem = s.mem := by
  unfold State.connectIo; constructor <;> simp

theorem execFabricsConnect_same (x0) (x1) (s : State) :
    ∀ t, execFabricsConnect x0 x1 s = .next t → (t).pending = s.pending ∧ (t).mem = s.mem := by
  intro t h; simp only [execFabricsConnect, State.when, State.pathFault, Host.Outcome.next.injEq] at h; subst h; constructor <;> ((repeat' split) <;> simp)

theorem execPropertyGet_same (x0) (s : State) :
    ∀ t, execPropertyGet x0 s = .next t → (t).pending = s.pending ∧ (t).mem = s.mem := by
  intro t h; simp only [execPropertyGet, State.when, State.pathFault, Host.Outcome.next.injEq] at h; subst h; constructor <;> ((repeat' split) <;> simp)

@[simp] theorem State.setCc_pending (s : State) (t : Nat) (f : Nat → Nat → Ctrl → State → State) (h : ∀ a b c u, (f a b c u).pending = u.pending) :
    (s.setCc t f).pending = s.pending := by
  simp only [State.setCc]; (repeat' split) <;> simp [h]

@[simp] theorem State.setCc_mem (s : State) (t : Nat) (f : Nat → Nat → Ctrl → State → State) (h : ∀ a b c u, (f a b c u).mem = u.mem) :
    (s.setCc t f).mem = s.mem := by
  simp only [State.setCc]; (repeat' split) <;> simp [h]

theorem State.setCc_both (s : State) (t : Nat) (f : Nat → Nat → Ctrl → State → State) (h : ∀ a b c u, (f a b c u).pending = u.pending ∧ (f a b c u).mem = u.mem) : (s.setCc t f).pending = s.pending ∧ (s.setCc t f).mem = s.mem :=
  ⟨by simp [h], by simp [h]⟩

theorem execPropertySetEnable_same (x0) (s : State) :
    ∀ t, execPropertySetEnable x0 s = .next t → (t).pending = s.pending ∧ (t).mem = s.mem := by
  intro t h; simp only [execPropertySetEnable, Host.Outcome.next.injEq] at h; subst h
  apply State.setCc_both; intros; constructor <;> ((try dsimp only); (repeat' split) <;> simp_all)

theorem execPropertySetReset_same (x0) (s : State) :
    ∀ t, execPropertySetReset x0 s = .next t → (t).pending = s.pending ∧ (t).mem = s.mem := by
  intro t h; simp only [execPropertySetReset, Host.Outcome.next.injEq] at h; subst h
  apply State.setCc_both; intros; constructor <;> ((try dsimp only); (repeat' split) <;> simp_all)

theorem execPropertySetShutdown_same (x0) (s : State) :
    ∀ t, execPropertySetShutdown x0 s = .next t → (t).pending = s.pending ∧ (t).mem = s.mem := by
  intro t h; simp only [execPropertySetShutdown, Host.Outcome.next.injEq] at h; subst h
  apply State.setCc_both; intros; constructor <;> ((try dsimp only); (repeat' split) <;> simp_all)

theorem execFabricsDisconnect_same (x0) (s : State) :
    ∀ t, execFabricsDisconnect x0 s = .next t → (t).pending = s.pending ∧ (t).mem = s.mem := by
  intro t h; simp only [execFabricsDisconnect, State.when, State.pathFault, Host.Outcome.next.injEq] at h; subst h; constructor <;> ((repeat' split) <;> simp)

theorem execAuthenticationSend_same (x0) (s : State) :
    ∀ t, execAuthenticationSend x0 s = .next t → (t).pending = s.pending ∧ (t).mem = s.mem := by
  intro t h; simp only [execAuthenticationSend, State.when, State.pathFault, Host.Outcome.next.injEq] at h; subst h; constructor <;> ((repeat' split) <;> simp)

theorem execAuthenticationReceive_same (x0) (s : State) :
    ∀ t, execAuthenticationReceive x0 s = .next t → (t).pending = s.pending ∧ (t).mem = s.mem := by
  intro t h; simp only [execAuthenticationReceive, State.when, State.pathFault, Host.Outcome.next.injEq] at h; subst h; constructor <;> ((repeat' split) <;> simp)

@[simp] theorem State.resvNotify_same (s : State) (x0) (x1) (x2) :
    (State.resvNotify s x0 x1 x2).pending = s.pending ∧ (State.resvNotify s x0 x1 x2).mem = s.mem := by
  unfold State.resvNotify; constructor <;> simp

theorem execReservationRegister_same (x0) (x1) (x2) (s : State) :
    ∀ t, execReservationRegister x0 x1 x2 s = .next t → (t).pending = s.pending ∧ (t).mem = s.mem := by
  intro t h; simp only [execReservationRegister, State.when, State.pathFault, Host.Outcome.next.injEq] at h; subst h; constructor <;> ((repeat' split) <;> simp)

theorem execReservationReport_same (x0) (s : State) :
    ∀ t, execReservationReport x0 s = .next t → (t).pending = s.pending ∧ (t).mem = s.mem := by
  intro t h; simp only [execReservationReport, State.when, State.pathFault, Host.Outcome.next.injEq] at h; subst h; constructor <;> ((repeat' split) <;> simp)

@[simp] theorem State.preemptAbort_same (s : State) (x0) (x1) :
    (State.preemptAbort s x0 x1).pending = s.pending ∧ (State.preemptAbort s x0 x1).mem = s.mem := by
  unfold State.preemptAbort; constructor <;> simp

theorem execReservationAcquire_same (x0) (x1) (x2) (s : State) :
    ∀ t, execReservationAcquire x0 x1 x2 s = .next t → (t).pending = s.pending ∧ (t).mem = s.mem := by
  intro t h; simp only [execReservationAcquire, State.when, State.pathFault, Host.Outcome.next.injEq] at h; subst h; constructor <;> ((repeat' split) <;> simp)

theorem execReservationRelease_same (x0) (x1) (s : State) :
    ∀ t, execReservationRelease x0 x1 s = .next t → (t).pending = s.pending ∧ (t).mem = s.mem := by
  intro t h; simp only [execReservationRelease, State.when, State.pathFault, Host.Outcome.next.injEq] at h; subst h; constructor <;> ((repeat' split) <;> simp)

@[simp] theorem State.bindKey_same (s : State) (x0) (x1) (x2) :
    (State.bindKey s x0 x1 x2).pending = s.pending ∧ (State.bindKey s x0 x1 x2).mem = s.mem := by
  constructor <;> (simp only [State.bindKey]; (repeat' split) <;> simp_all)

theorem execCreateNamespace_same (x0) (s : State) :
    ∀ t, execCreateNamespace x0 s = .next t → (t).pending = s.pending ∧ (t).mem = s.mem := by
  intro t h; simp only [execCreateNamespace, Host.Outcome.next.injEq] at h; subst h
  apply State.runMgmt_both; intros; constructor <;> ((try dsimp only); (repeat' split) <;> simp_all)

@[simp] theorem State.startDelete_same (s : State) (x0) :
    (State.startDelete s x0).pending = s.pending ∧ (State.startDelete s x0).mem = s.mem := by
  unfold State.startDelete; constructor <;> simp

theorem execDeleteNamespace_same (x0) (s : State) :
    ∀ t, execDeleteNamespace x0 s = .next t → (t).pending = s.pending ∧ (t).mem = s.mem := by
  intro t h; simp only [execDeleteNamespace, Host.Outcome.next.injEq] at h; subst h
  apply State.runMgmt_both; intros; constructor <;> ((try dsimp only); (repeat' split) <;> simp_all)

theorem execActivationQuiesced_same (s : State) :
    ∀ t, execActivationQuiesced s = .next t → (t).pending = s.pending ∧ (t).mem = s.mem := by
  intro t h; simp only [execActivationQuiesced, State.when, State.pathFault, Host.Outcome.next.injEq] at h; subst h; constructor <;> ((repeat' split) <;> simp)

theorem execActivationAbandon_same (s : State) :
    ∀ t, execActivationAbandon s = .next t → (t).pending = s.pending ∧ (t).mem = s.mem := by
  intro t h; simp only [execActivationAbandon, State.when, State.pathFault, Host.Outcome.next.injEq] at h; subst h; constructor <;> ((repeat' split) <;> simp)

@[simp] theorem State.runSlot_same (s : State) (x0) (x1) :
    (State.runSlot s x0 x1).pending = s.pending ∧ (State.runSlot s x0 x1).mem = s.mem := by
  constructor <;> (simp only [State.runSlot]; (repeat' split) <;> simp_all)

@[simp] theorem State.runImage_same (s : State) : (State.runImage s).pending = s.pending ∧ (State.runImage s).mem = s.mem := by
  unfold State.runImage; constructor <;> simp

theorem execActivationResume_same (s : State) :
    ∀ t, execActivationResume s = .next t → (t).pending = s.pending ∧ (t).mem = s.mem := by
  intro t h; simp only [execActivationResume, State.when, State.pathFault, Host.Outcome.next.injEq] at h; subst h; constructor <;> ((repeat' split) <;> simp)

end Sys2Proof.Machine
end

