-- ==== Sys2Proof/Laws/FrameStore.lean ====
section
/-! SUPPORT. Frames of the definitions of Writes, Layout, Members, Forward, Time: each leaves the queue of commands as it is, and memory as it is or in
its canonical form. -/
set_option maxRecDepth 8000
set_option Elab.async false
set_option linter.all false
namespace Sys2Proof.Machine

@[simp] theorem State.allocRange_same (s : State) (x0) (x1) (x2) :
    ((State.allocRange s x0 x1 x2).1).pending = s.pending ∧ ((State.allocRange s x0 x1 x2).1).mem = s.mem := by
  constructor <;> (simp only [State.allocRange]; (repeat' split) <;> simp_all)

@[simp] theorem State.holdWrite_same (s : State) (x0) (x1) :
    (State.holdWrite s x0 x1).pending = s.pending ∧ (State.holdWrite s x0 x1).mem = s.mem := by
  unfold State.holdWrite; constructor <;> simp

@[simp] theorem State.noteHeld_same (s : State) : (State.noteHeld s).pending = s.pending ∧ (State.noteHeld s).mem = s.mem := by
  unfold State.noteHeld; constructor <;> simp

@[simp] theorem State.fetchData_same (s : State) (x0) (x1) :
    (State.fetchData s x0 x1).pending = s.pending ∧ (State.fetchData s x0 x1).mem = s.mem := by
  unfold State.fetchData; constructor <;> simp

@[simp] theorem State.admitWrite_same (s : State) (x0) (x1) (x2) :
    (State.admitWrite s x0 x1 x2).pending = s.pending ∧ (State.admitWrite s x0 x1 x2).mem = s.mem := by
  unfold State.admitWrite; constructor <;> simp

theorem State.raiseFinish_same (s r : State) (e t a b : Nat) (d : Bool) (n : List Nat) (h : r.pending = s.pending ∧ r.mem = s.mem) :
    ((r.raise e n).finish t a b d).pending = s.pending ∧ ((r.raise e n).finish t a b d).mem = s.mem :=
  ⟨by rw [(State.finish_same _ _ _ _ _ _ _).1, (State.raise_same _ _ _).1, h.1],
   by rw [(State.finish_same _ _ _ _ _ _ _).2, (State.raise_same _ _ _).2, h.2]⟩

theorem State.writeTail_same (s : State) (r : State × Bool) (t e b : Nat) (n : List Nat) (c : Cmd) (k : Bool)
    (h : r.1.pending = s.pending ∧ r.1.mem = s.mem) :
    (if r.2 = true then r.1.admitWrite t c k else (r.1.raise e n).finish t 0 b true).pending = s.pending ∧
    (if r.2 = true then r.1.admitWrite t c k else (r.1.raise e n).finish t 0 b true).mem = s.mem :=
  ⟨by rw [State.pending_ite, (State.admitWrite_same _ _ _ _).1, (State.raiseFinish_same s r.1 e t 0 b true n h).1, h.1, ite_self],
   by rw [State.mem_ite, (State.admitWrite_same _ _ _ _).2, (State.raiseFinish_same s r.1 e t 0 b true n h).2, h.2, ite_self]⟩

@[simp] theorem State.writeCmd_same (s : State) (t : Nat) (c : Cmd) (h : Bool) :
    (s.writeCmd t c h).pending = s.pending ∧ (s.writeCmd t c h).mem = s.mem :=
  State.writeTail_same s (s.allocRange (s.ns c.entry.nsid).volume c.entry.slba c.entry.nlb) t _ _ _ c h (State.allocRange_same s _ _ _)

theorem execNvmeWrite_same (x0) (x1) (s : State) :
    ∀ t, execNvmeWrite x0 x1 s = .next t → (t).pending = s.pending ∧ (t).mem = s.mem := by
  intro t h; simp only [execNvmeWrite, State.when, State.pathFault, Host.Outcome.next.injEq] at h; subst h; constructor <;> ((repeat' split) <;> simp)

@[simp] theorem State.mirrored_same (s : State) (x0) :
    (State.mirrored s x0).pending = s.pending ∧ (State.mirrored s x0).mem = s.mem := by
  unfold State.mirrored; constructor <;> simp

@[simp] theorem State.bufferZeros_same (s : State) (x0) (x1) (x2) (x3) (x4) (x5) :
    (State.bufferZeros s x0 x1 x2 x3 x4 x5).pending = s.pending ∧ (State.bufferZeros s x0 x1 x2 x3 x4 x5).mem = s.mem := by
  constructor <;> (simp only [State.bufferZeros]; (repeat' split) <;> simp_all [-List.reduceReplicate])

@[simp] theorem State.zeroPieces_same (s : State) (x0) (x1) (x2) (x3) :
    (State.zeroPieces s x0 x1 x2 x3).pending = s.pending ∧ (State.zeroPieces s x0 x1 x2 x3).mem = s.mem := by
  induction x3 generalizing s <;> first | (simp_all [-List.reduceReplicate, State.zeroPieces]; done) | (constructor <;> (simp only [State.zeroPieces]; (repeat' split) <;> simp_all [-List.reduceReplicate]))

theorem execNvmeWriteZeroes_same (x0) (s : State) :
    ∀ t, execNvmeWriteZeroes x0 s = .next t → (t).pending = s.pending ∧ (t).mem = s.mem := by
  intro t h; simp only [execNvmeWriteZeroes, State.when, State.pathFault, Host.Outcome.next.injEq] at h; subst h; constructor <;> ((repeat' split) <;> simp)

@[simp] theorem State.deallocate_same (s : State) (x0) :
    (State.deallocate s x0).pending = s.pending ∧ (State.deallocate s x0).mem = s.mem := by
  constructor <;> (simp only [State.deallocate]; (repeat' split) <;> simp_all)

theorem execNvmeDatasetManagement_same (x0) (x1) (s : State) :
    ∀ t, execNvmeDatasetManagement x0 x1 s = .next t → (t).pending = s.pending ∧ (t).mem = s.mem := by
  intro t h; simp only [execNvmeDatasetManagement, State.when, State.pathFault, Host.Outcome.next.injEq] at h; subst h; constructor <;> ((repeat' split) <;> simp)

theorem execWriteDataFetch_same (x0) (s : State) :
    ∀ t, execWriteDataFetch x0 s = .next t → (t).pending = s.pending ∧ (t).mem = s.mem := by
  intro t h; simp only [execWriteDataFetch, State.when, State.pathFault, Host.Outcome.next.injEq] at h; subst h; constructor <;> ((repeat' split) <;> simp)

@[simp] theorem State.sealWrite_same (s : State) (x0) (x1) (x2) (x3) :
    (State.sealWrite s x0 x1 x2 x3).pending = s.pending ∧ (State.sealWrite s x0 x1 x2 x3).mem = s.mem := by
  unfold State.sealWrite; constructor <;> simp

@[simp] theorem State.sealFollowed_same (s : State) (x0) (x1) :
    (State.sealFollowed s x0 x1).pending = s.pending ∧ (State.sealFollowed s x0 x1).mem = s.mem := by
  constructor <;> (simp only [State.sealFollowed]; (repeat' split) <;> simp_all)

theorem execAtRestEncrypt_same (x0) (x1) (s : State) :
    ∀ t, execAtRestEncrypt x0 x1 s = .next t → (t).pending = s.pending ∧ (Memory.wf s.mem = true → Memory.wf (t).mem = true) := by
  intro t h; simp only [execAtRestEncrypt, State.when, State.pathFault, Host.Outcome.next.injEq] at h; subst h; constructor
  · (repeat' split) <;> (first | (simp_all; done) | grind [State.sealFollowed_same, State.takeCtrs_same, State.runPipe_same, State.sealWrite_same, State.finish_same])
  · intro hw; (repeat' split) <;> (first | (simp_all; done) | grind [State.sealFollowed_same, State.takeCtrs_same, State.runPipe_same, State.sealWrite_same, State.finish_same])

theorem execNvmeFlush_same (x0) (s : State) : ∀ t, execNvmeFlush x0 s = .next t → (t).pending = s.pending ∧ (t).mem = s.mem := by
  intro t h; simp only [execNvmeFlush, State.when, State.pathFault, Host.Outcome.next.injEq] at h; subst h; constructor <;> ((repeat' split) <;> simp)

@[simp] theorem State.setCap_same (s : State) (x0) : (State.setCap s x0).pending = s.pending ∧ (State.setCap s x0).mem = s.mem := by
  unfold State.setCap; constructor <;> simp

theorem execDirtyCapWrite_same (x0) (s : State) :
    ∀ t, execDirtyCapWrite x0 s = .next t → (t).pending = s.pending ∧ (t).mem = s.mem := by
  intro t h; simp only [execDirtyCapWrite, Host.Outcome.next.injEq] at h; subst h; constructor <;> simp [State.when]

@[simp] theorem State.layoutSeed_same (s : State) :
    ((State.layoutSeed s).2).pending = s.pending ∧ ((State.layoutSeed s).2).mem = s.mem := by
  constructor <;> (simp only [State.layoutSeed]; (repeat' split) <;> simp_all)

@[simp] theorem State.tellLayout_same (s : State) (x0) :
    (State.tellLayout s x0).pending = s.pending ∧ (State.tellLayout s x0).mem = s.mem := by
  unfold State.tellLayout; constructor <;> simp

@[simp] theorem State.buildLayout_same (s : State) :
    (State.buildLayout s).pending = s.pending ∧ (State.buildLayout s).mem = s.mem := by
  unfold State.buildLayout; constructor <;> simp

theorem execLayoutBuild_same (x0) (s : State) :
    ∀ t, execLayoutBuild x0 s = .next t → (t).pending = s.pending ∧ (t).mem = s.mem := by
  intro t h; simp only [execLayoutBuild, Host.Outcome.next.injEq] at h; subst h; constructor <;> simp [State.when]

theorem execCreateVolume_same (x0) (s : State) :
    ∀ t, execCreateVolume x0 s = .next t → (t).pending = s.pending ∧ (t).mem = s.mem := by
  intro t h; simp only [execCreateVolume, Host.Outcome.next.injEq] at h; subst h
  apply State.runPlain_both; intros; constructor <;> ((try dsimp only); (repeat' split) <;> simp_all)

theorem execResizeVolume_same (x0) (s : State) :
    ∀ t, execResizeVolume x0 s = .next t → (t).pending = s.pending ∧ (t).mem = s.mem := by
  intro t h; simp only [execResizeVolume, Host.Outcome.next.injEq] at h; subst h
  apply State.runPlain_both; intros; constructor <;> ((try dsimp only); (repeat' split) <;> simp_all)

theorem execDeleteVolume_same (x0) (s : State) :
    ∀ t, execDeleteVolume x0 s = .next t → (t).pending = s.pending ∧ (t).mem = s.mem := by
  intro t h; simp only [execDeleteVolume, Host.Outcome.next.injEq] at h; subst h
  apply State.runMgmt_both; intros; constructor <;> ((try dsimp only); (repeat' split) <;> simp_all)

@[simp] theorem State.touchPage_same (s : State) (x0) :
    (State.touchPage s x0).pending = s.pending ∧ (State.touchPage s x0).mem = s.mem := by
  unfold State.touchPage; constructor <;> simp

@[simp] theorem State.addStripe_same (s : State) (x0) :
    (State.addStripe s x0).pending = s.pending ∧ (State.addStripe s x0).mem = s.mem := by
  unfold State.addStripe; constructor <;> simp

@[simp] theorem State.loseUnread_same (s : State) (x0) (x1) (x2) :
    (State.loseUnread s x0 x1 x2).pending = s.pending ∧ (State.loseUnread s x0 x1 x2).mem = s.mem := by
  unfold State.loseUnread; constructor <;> simp

@[simp] theorem State.dropUnread_same (s : State) (x0) (x1) (x2) :
    (State.dropUnread s x0 x1 x2).pending = s.pending ∧ (State.dropUnread s x0 x1 x2).mem = s.mem := by
  constructor <;> (simp only [State.dropUnread]; (repeat' split) <;> simp_all)

@[simp] theorem State.countPath_same (s : State) (x0) :
    (State.countPath s x0).pending = s.pending ∧ (State.countPath s x0).mem = s.mem := by
  constructor <;> (simp only [State.countPath]; (repeat' split) <;> simp_all)

@[simp] theorem State.openDestage_same (s : State) (x0) (x1) :
    (State.openDestage s x0 x1).pending = s.pending ∧ (State.openDestage s x0 x1).mem = s.mem := by
  unfold State.openDestage; constructor <;> simp

@[simp] theorem State.destage_same (s : State) (x0) (x1) (x2) (x3) :
    (State.destage s x0 x1 x2 x3).pending = s.pending ∧ (State.destage s x0 x1 x2 x3).mem = s.mem := by
  unfold State.destage; constructor <;> simp

@[simp] theorem State.reopenRecords_same (s : State) :
    (State.reopenRecords s).pending = s.pending ∧ (State.reopenRecords s).mem = s.mem := by
  unfold State.reopenRecords; constructor <;> simp

theorem execDestageStripeStart_same (x0) (x1) (x2) (x3) (s : State) :
    ∀ t, execDestageStripeStart x0 x1 x2 x3 s = .next t → (t).pending = s.pending ∧ (t).mem = s.mem := by
  intro t h; simp only [execDestageStripeStart, Host.Outcome.next.injEq] at h; subst h; constructor <;> simp [State.when]

@[simp] theorem State.writeJournal_same (s : State) (x0) (x1) :
    ((State.writeJournal s x0 x1).1).pending = s.pending ∧ ((State.writeJournal s x0 x1).1).mem = s.mem := by
  unfold State.writeJournal; constructor <;> simp

@[simp] theorem State.writePage_same (s : State) (x0) :
    (State.writePage s x0).pending = s.pending ∧ (State.writePage s x0).mem = s.mem := by
  constructor <;> (simp only [State.writePage]; (repeat' split) <;> grind [State.writeJournal_same])

theorem execJournalPageWrite_same (x0) (s : State) :
    ∀ t, execJournalPageWrite x0 s = .next t → (t).pending = s.pending ∧ (t).mem = s.mem := by
  intro t h; simp only [execJournalPageWrite, State.when, State.pathFault, Host.Outcome.next.injEq] at h; subst h; constructor <;> ((repeat' split) <;> simp)

@[simp] theorem State.issueStripe_same (s : State) (x0) (x1) (x2) :
    (State.issueStripe s x0 x1 x2).pending = s.pending ∧ (State.issueStripe s x0 x1 x2).mem = s.mem := by
  unfold State.issueStripe; constructor <;> simp

theorem execRecordOpen_same (x0) (s : State) : ∀ t, execRecordOpen x0 s = .next t → (t).pending = s.pending ∧ (t).mem = s.mem := by
  intro t h; simp only [execRecordOpen, State.when, State.pathFault, Host.Outcome.next.injEq] at h; subst h; constructor <;> ((repeat' split) <;> simp)

theorem execStripeDataLanded_same (x0) (s : State) :
    ∀ t, execStripeDataLanded x0 s = .next t → (t).pending = s.pending ∧ (t).mem = s.mem := by
  intro t h; simp only [execStripeDataLanded, State.when, State.pathFault, Host.Outcome.next.injEq] at h; subst h; constructor <;> ((repeat' split) <;> simp)

@[simp] theorem State.freePending_same (s : State) :
    (State.freePending s).pending = s.pending ∧ (State.freePending s).mem = s.mem := by
  unfold State.freePending; constructor <;> simp

@[simp] theorem State.clearStripe_same (s : State) (x0) :
    (State.clearStripe s x0).pending = s.pending ∧ (State.clearStripe s x0).mem = s.mem := by
  unfold State.clearStripe; constructor <;> simp

theorem execStripeParityLanded_same (x0) (s : State) :
    ∀ t, execStripeParityLanded x0 s = .next t → (t).pending = s.pending ∧ (t).mem = s.mem := by
  intro t h; simp only [execStripeParityLanded, State.when, State.pathFault, Host.Outcome.next.injEq] at h; subst h; constructor <;> ((repeat' split) <;> simp)

@[simp] theorem State.writeSuperblocks_same (s : State) :
    (State.writeSuperblocks s).pending = s.pending ∧ (State.writeSuperblocks s).mem = s.mem := by
  unfold State.writeSuperblocks; constructor <;> simp

@[simp] theorem State.nextMapGen_same (s : State) :
    (State.nextMapGen s).pending = s.pending ∧ (State.nextMapGen s).mem = s.mem := by
  unfold State.nextMapGen; constructor <;> simp

theorem execMapGenAdvance_same (s : State) : ∀ t, execMapGenAdvance s = .next t → (t).pending = s.pending ∧ (t).mem = s.mem := by
  intro t h; simp only [execMapGenAdvance, Host.Outcome.next.injEq] at h; subst h; constructor <;> simp [State.when]

@[simp] theorem State.clearRowBits_same (s : State) (x0) (x1) :
    (State.clearRowBits s x0 x1).pending = s.pending ∧ (State.clearRowBits s x0 x1).mem = s.mem := by
  unfold State.clearRowBits; constructor <;> simp

@[simp] theorem State.substitute_same (s : State) (x0) (x1) (x2) :
    (State.substitute s x0 x1 x2).pending = s.pending ∧ (State.substitute s x0 x1 x2).mem = s.mem := by
  constructor <;> (simp only [State.substitute]; (repeat' split) <;> simp_all)

@[simp] theorem State.replaceOnto_same (s : State) (x0) (x1) :
    (State.replaceOnto s x0 x1).pending = s.pending ∧ (State.replaceOnto s x0 x1).mem = s.mem := by
  unfold State.replaceOnto; constructor <;> simp

@[simp] theorem State.replaceHome_same (s : State) (x0) (x1) (x2) :
    (State.replaceHome s x0 x1 x2).pending = s.pending ∧ (State.replaceHome s x0 x1 x2).mem = s.mem := by
  constructor <;> (simp only [State.replaceHome]; (repeat' split) <;> simp_all)

@[simp] theorem State.leaveHome_same (s : State) (x0) (x1) :
    (State.leaveHome s x0 x1).pending = s.pending ∧ (State.leaveHome s x0 x1).mem = s.mem := by
  unfold State.leaveHome; constructor <;> simp

@[simp] theorem State.substituteRow_same (s : State) (x0) (x1) :
    (State.substituteRow s x0 x1).pending = s.pending ∧ (State.substituteRow s x0 x1).mem = s.mem := by
  unfold State.substituteRow; constructor <;> simp

@[simp] theorem State.substituteMember_same (s : State) (x0) :
    (State.substituteMember s x0).pending = s.pending ∧ (State.substituteMember s x0).mem = s.mem := by
  unfold State.substituteMember; constructor <;> simp

@[simp] theorem State.noteQueue_same (s : State) : (State.noteQueue s).pending = s.pending ∧ (State.noteQueue s).mem = s.mem := by
  unfold State.noteQueue; constructor <;> simp

@[simp] theorem State.abandonRebuild_same (s : State) (x0) :
    (State.abandonRebuild s x0).pending = s.pending ∧ (State.abandonRebuild s x0).mem = s.mem := by
  constructor <;> (simp only [State.abandonRebuild]; (repeat' split) <;> simp_all)

@[simp] theorem State.suspectWindow_same (s : State) :
    (State.suspectWindow s).pending = s.pending ∧ (State.suspectWindow s).mem = s.mem := by
  unfold State.suspectWindow; constructor <;> simp

@[simp] theorem State.dropCopy_same (s : State) (x0) (x1) :
    (State.dropCopy s x0 x1).pending = s.pending ∧ (State.dropCopy s x0 x1).mem = s.mem := by
  unfold State.dropCopy; constructor <;> simp

@[simp] theorem State.takeCopy_same (s : State) (x0) (x1) (x2) :
    (State.takeCopy s x0 x1 x2).pending = s.pending ∧ (State.takeCopy s x0 x1 x2).mem = s.mem := by
  unfold State.takeCopy; constructor <;> simp

@[simp] theorem State.moveCopy_same (s : State) (x0) (x1) :
    (State.moveCopy s x0 x1).pending = s.pending ∧ (State.moveCopy s x0 x1).mem = s.mem := by
  constructor <;> (simp only [State.moveCopy]; (repeat' split) <;> simp_all)

@[simp] theorem State.loseCopies_same (s : State) (x0) :
    (State.loseCopies s x0).pending = s.pending ∧ (State.loseCopies s x0).mem = s.mem := by
  unfold State.loseCopies; constructor <;> simp

@[simp] theorem State.stripeWriteDone_same (s : State) (x0) :
    (State.stripeWriteDone s x0).pending = s.pending ∧ (State.stripeWriteDone s x0).mem = s.mem := by
  unfold State.stripeWriteDone; constructor <;> simp

@[simp] theorem State.endFailed_same (s : State) (x0) :
    (State.endFailed s x0).pending = s.pending ∧ (State.endFailed s x0).mem = s.mem := by
  constructor <;> (simp only [State.endFailed]; (repeat' split) <;> simp_all)

@[simp] theorem State.endMember_same (s : State) (x0) :
    (State.endMember s x0).pending = s.pending ∧ (State.endMember s x0).mem = s.mem := by
  unfold State.endMember; constructor <;> simp

@[simp] theorem State.replaceArb_same (s : State) (x0) :
    (State.replaceArb s x0).pending = s.pending ∧ (State.replaceArb s x0).mem = s.mem := by
  constructor <;> (simp only [State.replaceArb]; (repeat' split) <;> simp_all)

@[simp] theorem State.fixArbs_same (s : State) : (State.fixArbs s).pending = s.pending ∧ (State.fixArbs s).mem = s.mem := by
  unfold State.fixArbs; constructor <;> simp

@[simp] theorem State.substituted_same (s : State) (x0) :
    (State.substituted s x0).pending = s.pending ∧ (State.substituted s x0).mem = s.mem := by
  unfold State.substituted; constructor <;> simp

@[simp] theorem State.memberLost_same (s : State) (x0) :
    (State.memberLost s x0).pending = s.pending ∧ (State.memberLost s x0).mem = s.mem := by
  unfold State.memberLost; constructor <;> simp

@[simp] theorem State.memberGone_same (s : State) (x0) (x1) (x2) :
    (State.memberGone s x0 x1 x2).pending = s.pending ∧ (State.memberGone s x0 x1 x2).mem = s.mem := by
  unfold State.memberGone; constructor <;> simp

@[simp] theorem State.backHome_same (s : State) (x0) (x1) :
    (State.backHome s x0 x1).pending = s.pending ∧ (State.backHome s x0 x1).mem = s.mem := by
  constructor <;> (simp only [State.backHome]; (repeat' split) <;> simp_all)

@[simp] theorem State.memberBack_same (s : State) (x0) :
    (State.memberBack s x0).pending = s.pending ∧ (State.memberBack s x0).mem = s.mem := by
  unfold State.memberBack; constructor <;> simp

@[simp] theorem State.enterMState_same (s : State) (x0) (x1) (x2) :
    (State.enterMState s x0 x1 x2).pending = s.pending ∧ (State.enterMState s x0 x1 x2).mem = s.mem := by
  constructor <;> (simp only [State.enterMState]; (repeat' split) <;> simp_all)

@[simp] theorem State.applyChange_same (s : State) (x0) :
    (State.applyChange s x0).pending = s.pending ∧ (State.applyChange s x0).mem = s.mem := by
  constructor <;> (simp only [State.applyChange]; (repeat' split) <;> simp_all)

@[simp] theorem State.noteChange_same (s : State) (x0) :
    (State.noteChange s x0).pending = s.pending ∧ (State.noteChange s x0).mem = s.mem := by
  unfold State.noteChange; constructor <;> simp

@[simp] theorem State.changeMember_same (s : State) (x0) (x1) (x2) (x3) :
    (State.changeMember s x0 x1 x2 x3).pending = s.pending ∧ (State.changeMember s x0 x1 x2 x3).mem = s.mem := by
  unfold State.changeMember; constructor <;> simp

@[simp] theorem State.suspectMember_same (s : State) (x0) (x1) :
    (State.suspectMember s x0 x1).pending = s.pending ∧ (State.suspectMember s x0 x1).mem = s.mem := by
  unfold State.suspectMember; constructor <;> simp

@[simp] theorem State.mediaFault_same (s : State) (x0) :
    (State.mediaFault s x0).pending = s.pending ∧ (State.mediaFault s x0).mem = s.mem := by
  unfold State.mediaFault; constructor <;> simp

@[simp] theorem State.timeoutFault_same (s : State) (x0) (x1) :
    (State.timeoutFault s x0 x1).pending = s.pending ∧ (State.timeoutFault s x0 x1).mem = s.mem := by
  unfold State.timeoutFault; constructor <;> simp

@[simp] theorem State.countPort_same (s : State) (x0) (x1) (x2) :
    (State.countPort s x0 x1 x2).pending = s.pending ∧ (State.countPort s x0 x1 x2).mem = s.mem := by
  unfold State.countPort; constructor <;> simp

@[simp] theorem State.refreshTable_same (s : State) (x0) :
    (State.refreshTable s x0).pending = s.pending ∧ (State.refreshTable s x0).mem = s.mem := by
  unfold State.refreshTable; constructor <;> simp

@[simp] theorem State.stepForward_same (s : State) (x0) :
    (State.stepForward s x0).pending = s.pending ∧ (State.stepForward s x0).mem = s.mem := by
  unfold State.stepForward; constructor <;> simp

@[simp] theorem State.enterTime_same (s : State) (x0) :
    (State.enterTime s x0).pending = s.pending ∧ (State.enterTime s x0).mem = s.mem := by
  constructor <;> (simp only [State.enterTime]; (repeat' split) <;> simp_all)

@[simp] theorem State.setServo_same (s : State) (x0) :
    (State.setServo s x0).pending = s.pending ∧ (State.setServo s x0).mem = s.mem := by
  unfold State.setServo; constructor <;> simp

@[simp] theorem State.setCorr_same (s : State) (x0) :
    (State.setCorr s x0).pending = s.pending ∧ (State.setCorr s x0).mem = s.mem := by
  unfold State.setCorr; constructor <;> simp

@[simp] theorem State.enterLocked_same (s : State) :
    (State.enterLocked s).pending = s.pending ∧ (State.enterLocked s).mem = s.mem := by
  unfold State.enterLocked; constructor <;> simp

@[simp] theorem State.enterHoldover_same (s : State) :
    (State.enterHoldover s).pending = s.pending ∧ (State.enterHoldover s).mem = s.mem := by
  unfold State.enterHoldover; constructor <;> simp

@[simp] theorem State.enterFreerun_same (s : State) :
    (State.enterFreerun s).pending = s.pending ∧ (State.enterFreerun s).mem = s.mem := by
  unfold State.enterFreerun; constructor <;> simp

@[simp] theorem State.leaveTwinTime_same (s : State) :
    (State.leaveTwinTime s).pending = s.pending ∧ (State.leaveTwinTime s).mem = s.mem := by
  unfold State.leaveTwinTime; constructor <;> simp

@[simp] theorem State.enterTwinTime_same (s : State) :
    (State.enterTwinTime s).pending = s.pending ∧ (State.enterTwinTime s).mem = s.mem := by
  unfold State.enterTwinTime; constructor <;> simp

@[simp] theorem State.servoStep_same (s : State) (x0) :
    (State.servoStep s x0).pending = s.pending ∧ (State.servoStep s x0).mem = s.mem := by
  unfold State.servoStep; constructor <;> simp

@[simp] theorem State.applyOffset_same (s : State) (x0) :
    (State.applyOffset s x0).pending = s.pending ∧ (State.applyOffset s x0).mem = s.mem := by
  unfold State.applyOffset; constructor <;> simp

theorem execPtpAnnounceRx_same (x0) (x1) (s : State) :
    ∀ t, execPtpAnnounceRx x0 x1 s = .next t → (t).pending = s.pending ∧ (t).mem = s.mem := by
  intro t h; simp only [execPtpAnnounceRx, State.when, State.pathFault, Host.Outcome.next.injEq] at h; subst h; constructor <;> ((repeat' split) <;> simp)

@[simp] theorem State.dropMaster_same (s : State) :
    (State.dropMaster s).pending = s.pending ∧ (State.dropMaster s).mem = s.mem := by
  unfold State.dropMaster; constructor <;> simp

@[simp] theorem State.recheckMaster_same (s : State) :
    (State.recheckMaster s).pending = s.pending ∧ (State.recheckMaster s).mem = s.mem := by
  constructor <;> (simp only [State.recheckMaster]; (repeat' split) <;> simp_all)

@[simp] theorem State.twinCompare_same (s : State) :
    (State.twinCompare s).pending = s.pending ∧ (State.twinCompare s).mem = s.mem := by
  unfold State.twinCompare; constructor <;> simp

theorem execPtpSyncRx_same (x0) (x1) (x2) (x3) (s : State) :
    ∀ t, execPtpSyncRx x0 x1 x2 x3 s = .next t → (t).pending = s.pending ∧ (t).mem = s.mem := by
  intro t h; simp only [execPtpSyncRx, State.when, State.pathFault, Host.Outcome.next.injEq] at h; subst h; constructor <;> ((repeat' split) <;> simp)

theorem execPtpDelayRespRx_same (x0) (x1) (s : State) :
    ∀ t, execPtpDelayRespRx x0 x1 s = .next t → (t).pending = s.pending ∧ (t).mem = s.mem := by
  intro t h; simp only [execPtpDelayRespRx, State.when, State.pathFault, Host.Outcome.next.injEq] at h; subst h; constructor <;> ((repeat' split) <;> simp)

theorem execDelayReqSend_same (s : State) : ∀ t, execDelayReqSend s = .next t → (t).pending = s.pending ∧ (t).mem = s.mem := by
  intro t h; simp only [execDelayReqSend, Host.Outcome.next.injEq] at h; subst h; constructor <;> simp [State.when]

@[simp] theorem State.loseServo_same (s : State) : (State.loseServo s).pending = s.pending ∧ (State.loseServo s).mem = s.mem := by
  unfold State.loseServo; constructor <;> simp

theorem execSyncLossCheck_same (s : State) : ∀ t, execSyncLossCheck s = .next t → (t).pending = s.pending ∧ (t).mem = s.mem := by
  intro t h; simp only [execSyncLossCheck, Host.Outcome.next.injEq] at h; subst h; constructor <;> simp [State.when]

theorem execAnnounceTimeout_same (s : State) :
    ∀ t, execAnnounceTimeout s = .next t → (t).pending = s.pending ∧ (t).mem = s.mem := by
  intro t h; simp only [execAnnounceTimeout, Host.Outcome.next.injEq] at h; subst h; constructor <;> simp [State.when]

theorem execServoUpdate_same (s : State) : ∀ t, execServoUpdate s = .next t → (t).pending = s.pending ∧ (t).mem = s.mem := by
  intro t h; simp only [execServoUpdate, Host.Outcome.next.injEq] at h; subst h; constructor <;> simp [State.when]

theorem execHoldoverMeanUpdate_same (s : State) :
    ∀ t, execHoldoverMeanUpdate s = .next t → (t).pending = s.pending ∧ (t).mem = s.mem := by
  intro t h; simp only [execHoldoverMeanUpdate, Host.Outcome.next.injEq] at h; subst h; constructor <;> simp [State.when]

@[simp] theorem State.commandStep_same (s : State) (x0) :
    (State.commandStep s x0).pending = s.pending ∧ (State.commandStep s x0).mem = s.mem := by
  unfold State.commandStep; constructor <;> simp

theorem execStepShelfTime_same (x0) (s : State) :
    ∀ t, execStepShelfTime x0 s = .next t → (t).pending = s.pending ∧ (t).mem = s.mem := by
  intro t h; simp only [execStepShelfTime, Host.Outcome.next.injEq] at h; subst h
  apply State.runPlain_both; intros; constructor <;> ((try dsimp only); (repeat' split) <;> simp_all)

@[simp] theorem State.holdFloor_same (s : State) : (State.holdFloor s).pending = s.pending ∧ (State.holdFloor s).mem = s.mem := by
  unfold State.holdFloor; constructor <;> simp

theorem execFloorAdvance_same (s : State) : ∀ t, execFloorAdvance s = .next t → (t).pending = s.pending ∧ (t).mem = s.mem := by
  intro t h; simp only [execFloorAdvance, Host.Outcome.next.injEq] at h; subst h; constructor <;> simp [State.when]

end Sys2Proof.Machine
end

