-- ==== Sys2Proof/Laws/FrameNet.lean ====
section
/-! SUPPORT. Frames of the definitions of Fabric, Pair, Rebuild, Reset: each leaves the queue of commands as it is, and memory as it is or in
its canonical form. -/
set_option maxRecDepth 8000
set_option Elab.async false
set_option linter.all false
namespace Sys2Proof.Machine

@[simp] theorem State.linkEvent_same (s : State) (x0) (x1) :
    (State.linkEvent s x0 x1).pending = s.pending ∧ (State.linkEvent s x0 x1).mem = s.mem := by
  unfold State.linkEvent; constructor <;> simp

@[simp] theorem State.dropLink_same (s : State) (x0) :
    (State.dropLink s x0).pending = s.pending ∧ (State.dropLink s x0).mem = s.mem := by
  unfold State.dropLink; constructor <;> simp

@[simp] theorem State.subDown_same (s : State) (x0) :
    (State.subDown s x0).pending = s.pending ∧ (State.subDown s x0).mem = s.mem := by
  unfold State.subDown; constructor <;> simp

@[simp] theorem State.portDown_same (s : State) (x0) :
    (State.portDown s x0).pending = s.pending ∧ (State.portDown s x0).mem = s.mem := by
  unfold State.portDown; constructor <;> simp

@[simp] theorem State.darken_same (s : State) : (State.darken s).pending = s.pending ∧ (State.darken s).mem = s.mem := by
  unfold State.darken; constructor <;> simp

theorem execNetPortEnable_same (x0) (x1) (s : State) :
    ∀ t, execNetPortEnable x0 x1 s = .next t → (t).pending = s.pending ∧ (t).mem = s.mem := by
  intro t h; simp only [execNetPortEnable, State.when, State.pathFault, Host.Outcome.next.injEq] at h; subst h; constructor <;> ((repeat' split) <;> (first | (simp_all; done) | ((try simp); first | exact (State.storeReg_same _ _ _ _ ‹_›).1 | exact (State.storeReg_same _ _ _ _ ‹_›).2)))

theorem execNetPortDisable_same (x0) (x1) (s : State) :
    ∀ t, execNetPortDisable x0 x1 s = .next t → (t).pending = s.pending ∧ (t).mem = s.mem := by
  intro t h; simp only [execNetPortDisable, Host.Outcome.next.injEq] at h; subst h; constructor <;> simp [State.when]

theorem execNetLinkUp_same (x0) (x1) (s : State) :
    ∀ t, execNetLinkUp x0 x1 s = .next t → (t).pending = s.pending ∧ (t).mem = s.mem := by
  intro t h; simp only [execNetLinkUp, Host.Outcome.next.injEq] at h; subst h; constructor <;> simp [State.when]

theorem execNetLinkDown_same (x0) (x1) (s : State) :
    ∀ t, execNetLinkDown x0 x1 s = .next t → (t).pending = s.pending ∧ (t).mem = s.mem := by
  intro t h; simp only [execNetLinkDown, Host.Outcome.next.injEq] at h; subst h; constructor <;> simp [State.when]

@[simp] theorem State.flowHit_same (s : State) (x0) :
    ((State.flowHit s x0).1).pending = s.pending ∧ ((State.flowHit s x0).1).mem = s.mem := by
  constructor <;> (simp only [State.flowHit]; (repeat' split) <;> grind [State.lookup_same])

@[simp] theorem State.policeIn_same (s : State) (x0) (x1) (x2) :
    ((State.policeIn s x0 x1 x2).1).pending = s.pending ∧ ((State.policeIn s x0 x1 x2).1).mem = s.mem := by
  constructor <;> (simp only [State.policeIn]; (repeat' split) <;> simp_all)

@[simp] theorem State.takeIn_same (s : State) (x0) (x1) (x2) (x3) (x4) :
    (State.takeIn s x0 x1 x2 x3 x4).pending = s.pending ∧ (State.takeIn s x0 x1 x2 x3 x4).mem = s.mem := by
  unfold State.takeIn; constructor <;> simp

@[simp] theorem State.receiveFrame_same (s : State) (x0) (x1) :
    (State.receiveFrame s x0 x1).pending = s.pending ∧ (State.receiveFrame s x0 x1).mem = s.mem := by
  constructor <;> (simp only [State.receiveFrame]; (repeat' split) <;> grind [State.countFrame_same, State.strictPass_same, State.countDrop_same, State.policeIn_same, State.wred_same, State.takeIn_same])

theorem execFrameReceive_same (x0) (x1) (x2) (s : State) :
    ∀ t, execFrameReceive x0 x1 x2 s = .next t → (t).pending = s.pending ∧ (t).mem = s.mem := by
  intro t h; simp only [execFrameReceive, Host.Outcome.next.injEq] at h; subst h; constructor <;> simp [State.when]

@[simp] theorem State.crosspost_same (s : State) (x0) :
    (State.crosspost s x0).pending = s.pending ∧ (State.crosspost s x0).mem = s.mem := by
  unfold State.crosspost; constructor <;> simp

@[simp] theorem State.takeRest_same (s : State) (x0) :
    ((State.takeRest s x0).1).pending = s.pending ∧ ((State.takeRest s x0).1).mem = s.mem := by
  constructor <;> (simp only [State.takeRest]; (repeat' split) <;> simp_all)

@[simp] theorem State.forward_same (s : State) (x0) :
    (State.forward s x0).pending = s.pending ∧ (State.forward s x0).mem = s.mem := by
  constructor <;> (simp only [State.forward]; (repeat' split) <;> simp_all)

@[simp] theorem State.deliverDue_same (s : State) :
    (State.deliverDue s).pending = s.pending ∧ (State.deliverDue s).mem = s.mem := by
  unfold State.deliverDue; constructor <;> simp

@[simp] theorem State.dropId_same (s : State) (x0) : (State.dropId s x0).pending = s.pending ∧ (State.dropId s x0).mem = s.mem := by
  constructor <;> (simp only [State.dropId]; (repeat' split) <;> simp_all)

theorem execCutThroughStart_same (x0) (s : State) :
    ∀ t, execCutThroughStart x0 s = .next t → (t).pending = s.pending ∧ (t).mem = s.mem := by
  intro t h; simp only [execCutThroughStart, State.when, State.pathFault, Host.Outcome.next.injEq] at h; subst h; constructor <;> ((repeat' split) <;> simp)

@[simp] theorem State.frameBad_same (s : State) (x0) :
    (State.frameBad s x0).pending = s.pending ∧ (State.frameBad s x0).mem = s.mem := by
  unfold State.frameBad; constructor <;> simp

theorem execFrameFoundBad_same (x0) (x1) (s : State) :
    ∀ t, execFrameFoundBad x0 x1 s = .next t → (t).pending = s.pending ∧ (t).mem = s.mem := by
  intro t h; simp only [execFrameFoundBad, State.when, State.pathFault, Host.Outcome.next.injEq] at h; subst h; constructor <;> ((repeat' split) <;> simp)

theorem execBufferEccUncorrectable_same (x0) (s : State) :
    ∀ t, execBufferEccUncorrectable x0 s = .next t → (t).pending = s.pending ∧ (t).mem = s.mem := by
  intro t h; simp only [execBufferEccUncorrectable, State.when, State.pathFault, Host.Outcome.next.injEq] at h; subst h; constructor <;> ((repeat' split) <;> simp)

theorem execBufferEccCorrected_same (s : State) :
    ∀ t, execBufferEccCorrected s = .next t → (t).pending = s.pending ∧ (t).mem = s.mem := by
  intro t h; simp only [execBufferEccCorrected, Host.Outcome.next.injEq] at h; subst h; constructor <;> simp [State.when]

@[simp] theorem State.finishFrame_same (s : State) (x0) :
    (State.finishFrame s x0).pending = s.pending ∧ (State.finishFrame s x0).mem = s.mem := by
  constructor <;> (simp only [State.finishFrame]; (repeat' split) <;> simp_all)

@[simp] theorem State.lagDrop_same (s : State) (x0) :
    (State.lagDrop s x0).pending = s.pending ∧ (State.lagDrop s x0).mem = s.mem := by
  constructor <;> (simp only [State.lagDrop]; (repeat' split) <;> simp_all)

@[simp] theorem State.startFrame_same (s : State) (x0) (x1) :
    (State.startFrame s x0 x1).pending = s.pending ∧ (State.startFrame s x0 x1).mem = s.mem := by
  constructor <;> (simp only [State.startFrame]; (repeat' split) <;> simp_all)

@[simp] theorem State.startWaiting_same (s : State) :
    (State.startWaiting s).pending = s.pending ∧ (State.startWaiting s).mem = s.mem := by
  unfold State.startWaiting; constructor <;> simp

@[simp] theorem State.dropLate_same (s : State) (x0) :
    (State.dropLate s x0).pending = s.pending ∧ (State.dropLate s x0).mem = s.mem := by
  unfold State.dropLate; constructor <;> simp

@[simp] theorem State.startNext_same (s : State) (x0) (x1) :
    (State.startNext s x0 x1).pending = s.pending ∧ (State.startNext s x0 x1).mem = s.mem := by
  constructor <;> (simp only [State.startNext]; (repeat' split) <;> grind [State.selectFrame_same, State.startFrame_same])

theorem execFrameTransmit_same (x0) (x1) (s : State) :
    ∀ t, execFrameTransmit x0 x1 s = .next t → (t).pending = s.pending ∧ (t).mem = s.mem := by
  intro t h; simp only [execFrameTransmit, Host.Outcome.next.injEq] at h; subst h; constructor <;> simp [State.when]

theorem execTlagDrop_same (x0) (s : State) : ∀ t, execTlagDrop x0 s = .next t → (t).pending = s.pending ∧ (t).mem = s.mem := by
  intro t h; simp only [execTlagDrop, State.when, State.pathFault, Host.Outcome.next.injEq] at h; subst h; constructor <;> ((repeat' split) <;> simp)

theorem execReseqArrival_same (x0) (x1) (s : State) :
    ∀ t, execReseqArrival x0 x1 s = .next t → (t).pending = s.pending ∧ (t).mem = s.mem := by
  intro t h; simp only [execReseqArrival, State.when, State.pathFault, Host.Outcome.next.injEq] at h; subst h; constructor <;> ((repeat' split) <;> simp)

theorem execReseqDiscardReport_same (x0) (x1) (x2) (s : State) :
    ∀ t, execReseqDiscardReport x0 x1 x2 s = .next t → (t).pending = s.pending ∧ (t).mem = s.mem := by
  intro t h; simp only [execReseqDiscardReport, State.when, State.pathFault, Host.Outcome.next.injEq] at h; subst h; constructor <;> ((repeat' split) <;> simp)

theorem execReseqTimeout_same (x0) (x1) (s : State) :
    ∀ t, execReseqTimeout x0 x1 s = .next t → (t).pending = s.pending ∧ (t).mem = s.mem := by
  intro t h; simp only [execReseqTimeout, Host.Outcome.next.injEq] at h; subst h; constructor <;> simp [State.when]

theorem execWredProfileCommit_same (x0) (s : State) :
    ∀ t, execWredProfileCommit x0 s = .next t → (t).pending = s.pending ∧ (t).mem = s.mem := by
  intro t h; simp only [execWredProfileCommit, Host.Outcome.next.injEq] at h; subst h; constructor <;> simp [State.when]

@[simp] theorem State.reserve_same (s : State) (x0) (x1) (x2) (x3) (x4) :
    (State.reserve s x0 x1 x2 x3 x4).pending = s.pending ∧ (State.reserve s x0 x1 x2 x3 x4).mem = s.mem := by
  unfold State.reserve; constructor <;> simp

@[simp] theorem State.registerAll_same (s : State) (x0) (x1) :
    (State.registerAll s x0 x1).pending = s.pending ∧ (State.registerAll s x0 x1).mem = s.mem := by
  unfold State.registerAll; constructor <;> simp

@[simp] theorem State.setRole_same (s : State) (x0) (x1) :
    (State.setRole s x0 x1).pending = s.pending ∧ (State.setRole s x0 x1).mem = s.mem := by
  unfold State.setRole; constructor <;> simp

@[simp] theorem State.endCmd_same (s : State) (x0) (x1) (x2) :
    (State.endCmd s x0 x1 x2).pending = s.pending ∧ (State.endCmd s x0 x1 x2).mem = s.mem := by
  constructor <;> (simp only [State.endCmd]; (repeat' split) <;> simp_all)

@[simp] theorem State.endPairWork_same (s : State) :
    (State.endPairWork s).pending = s.pending ∧ (State.endPairWork s).mem = s.mem := by
  unfold State.endPairWork; constructor <;> simp

@[simp] theorem State.abortDrives_same (s : State) :
    (State.abortDrives s).pending = s.pending ∧ (State.abortDrives s).mem = s.mem := by
  unfold State.abortDrives; constructor <;> simp

@[simp] theorem State.fence_same (s : State) (x0) : (State.fence s x0).pending = s.pending ∧ (State.fence s x0).mem = s.mem := by
  unfold State.fence; constructor <;> simp

@[simp] theorem State.loseClaim_same (s : State) (x0) :
    (State.loseClaim s x0).pending = s.pending ∧ (State.loseClaim s x0).mem = s.mem := by
  unfold State.loseClaim; constructor <;> simp

@[simp] theorem State.settleAlone_same (s : State) :
    (State.settleAlone s).pending = s.pending ∧ (State.settleAlone s).mem = s.mem := by
  unfold State.settleAlone; constructor <;> simp

@[simp] theorem State.becomeAlone_same (s : State) (x0) :
    (State.becomeAlone s x0).pending = s.pending ∧ (State.becomeAlone s x0).mem = s.mem := by
  unfold State.becomeAlone; constructor <;> simp

@[simp] theorem State.resumeConn_same (s : State) (x0) :
    (State.resumeConn s x0).pending = s.pending ∧ (State.resumeConn s x0).mem = s.mem := by
  constructor <;> (simp only [State.resumeConn]; (repeat' split) <;> (first | (simp_all; done) | (refine (State.foldl_pending _ (fun u a => ?_) _ _).trans ?_ <;> first | rfl | (simp; done) | ((try dsimp only); (repeat' split) <;> simp_all; done)) | (refine (State.foldl_mem _ (fun u a => ?_) _ _).trans ?_ <;> first | rfl | (simp; done) | ((try dsimp only); (repeat' split) <;> simp_all; done))))

@[simp] theorem State.takeUnnamed_same (s : State) :
    (State.takeUnnamed s).pending = s.pending ∧ (State.takeUnnamed s).mem = s.mem := by
  unfold State.takeUnnamed; constructor <;> simp

@[simp] theorem State.takeOver_same (s : State) : (State.takeOver s).pending = s.pending ∧ (State.takeOver s).mem = s.mem := by
  unfold State.takeOver; constructor <;> simp

@[simp] theorem State.startRound_same (s : State) (x0) (x1) (x2) :
    (State.startRound s x0 x1 x2).pending = s.pending ∧ (State.startRound s x0 x1 x2).mem = s.mem := by
  unfold State.startRound; constructor <;> simp

@[simp] theorem State.startClaim_same (s : State) :
    (State.startClaim s).pending = s.pending ∧ (State.startClaim s).mem = s.mem := by
  unfold State.startClaim; constructor <;> simp

@[simp] theorem State.armArb_same (s : State) (x0) (x1) :
    (State.armArb s x0 x1).pending = s.pending ∧ (State.armArb s x0 x1).mem = s.mem := by
  unfold State.armArb; constructor <;> simp

@[simp] theorem State.dropShelf_same (s : State) : (State.dropShelf s).pending = s.pending ∧ (State.dropShelf s).mem = s.mem := by
  unfold State.dropShelf; constructor <;> simp

@[simp] theorem State.becomeJoining_same (s : State) :
    (State.becomeJoining s).pending = s.pending ∧ (State.becomeJoining s).mem = s.mem := by
  unfold State.becomeJoining; constructor <;> simp

@[simp] theorem State.startJoin_same (s : State) (x0) :
    (State.startJoin s x0).pending = s.pending ∧ (State.startJoin s x0).mem = s.mem := by
  unfold State.startJoin; constructor <;> simp

@[simp] theorem State.joinStarts_same (s : State) (x0) (x1) :
    (State.joinStarts s x0 x1).pending = s.pending ∧ (State.joinStarts s x0 x1).mem = s.mem := by
  unfold State.joinStarts; constructor <;> simp

@[simp] theorem State.autoJoin_same (s : State) : (State.autoJoin s).pending = s.pending ∧ (State.autoJoin s).mem = s.mem := by
  unfold State.autoJoin; constructor <;> simp

@[simp] theorem State.joinFails_same (s : State) (x0) :
    (State.joinFails s x0).pending = s.pending ∧ (State.joinFails s x0).mem = s.mem := by
  unfold State.joinFails; constructor <;> simp

@[simp] theorem State.dropJoin_same (s : State) (x0) :
    (State.dropJoin s x0).pending = s.pending ∧ (State.dropJoin s x0).mem = s.mem := by
  constructor <;> (simp only [State.dropJoin]; (repeat' split) <;> simp_all)

@[simp] theorem State.claimLinked_same (s : State) :
    (State.claimLinked s).pending = s.pending ∧ (State.claimLinked s).mem = s.mem := by
  unfold State.claimLinked; constructor <;> simp

@[simp] theorem State.claimUnlinked_same (s : State) :
    (State.claimUnlinked s).pending = s.pending ∧ (State.claimUnlinked s).mem = s.mem := by
  unfold State.claimUnlinked; constructor <;> simp

@[simp] theorem State.claimOn_same (s : State) : (State.claimOn s).pending = s.pending ∧ (State.claimOn s).mem = s.mem := by
  constructor <;> (simp only [State.claimOn]; (repeat' split) <;> simp_all)

@[simp] theorem State.beginClaim_same (s : State) (x0) :
    (State.beginClaim s x0).pending = s.pending ∧ (State.beginClaim s x0).mem = s.mem := by
  unfold State.beginClaim; constructor <;> simp

@[simp] theorem State.rebuildStripe_same (s : State) (x0) (x1) (x2) (x3) :
    (State.rebuildStripe s x0 x1 x2 x3).pending = s.pending ∧ (State.rebuildStripe s x0 x1 x2 x3).mem = s.mem := by
  unfold State.rebuildStripe; constructor <;> simp

theorem execRebuildExtentStart_same (x0) (x1) (s : State) :
    ∀ t, execRebuildExtentStart x0 x1 s = .next t → (t).pending = s.pending ∧ (t).mem = s.mem := by
  intro t h; simp only [execRebuildExtentStart, State.when, State.pathFault, Host.Outcome.next.injEq] at h; subst h; constructor <;> ((repeat' split) <;> simp)

@[simp] theorem State.sealStripe_same (s : State) (x0) (x1) (x2) (x3) (x4) :
    (State.sealStripe s x0 x1 x2 x3 x4).pending = s.pending ∧ (State.sealStripe s x0 x1 x2 x3 x4).mem = s.mem := by
  constructor <;> (simp only [State.sealStripe]; (repeat' split) <;> simp_all [-List.reduceReplicate])

@[simp] theorem State.sealFound_same (s : State) (x0) (x1) (x2) :
    (State.sealFound s x0 x1 x2).pending = s.pending ∧ (State.sealFound s x0 x1 x2).mem = s.mem := by
  unfold State.sealFound; constructor <;> simp

theorem execRebuildExtentDone_same (x0) (s : State) :
    ∀ t, execRebuildExtentDone x0 s = .next t → (t).pending = s.pending ∧ (t).mem = s.mem := by
  intro t h; simp only [execRebuildExtentDone, State.when, State.pathFault, Host.Outcome.next.injEq] at h; subst h; constructor <;> ((repeat' split) <;> simp)

theorem execHedgeTimerExpire_same (x0) (s : State) :
    ∀ t, execHedgeTimerExpire x0 s = .next t → (t).pending = s.pending ∧ (t).mem = s.mem := by
  intro t h; simp only [execHedgeTimerExpire, State.when, State.pathFault, Host.Outcome.next.injEq] at h; subst h; constructor <;> ((repeat' split) <;> simp)

@[simp] theorem State.scrubStripe_same (s : State) (x0) (x1) (x2) (x3) (x4) :
    (State.scrubStripe s x0 x1 x2 x3 x4).pending = s.pending ∧ (State.scrubStripe s x0 x1 x2 x3 x4).mem = s.mem := by
  unfold State.scrubStripe; constructor <;> simp

theorem execSuspectScrubStripe_same (x0) (x1) (x2) (x3) (s : State) :
    ∀ t, execSuspectScrubStripe x0 x1 x2 x3 s = .next t → (t).pending = s.pending ∧ (t).mem = s.mem := by
  intro t h; simp only [execSuspectScrubStripe, Host.Outcome.next.injEq] at h; subst h; constructor <;> simp [-List.reduceReplicate, State.when]

@[simp] theorem State.startScrub_same (s : State) (x0) (x1) :
    (State.startScrub s x0 x1).pending = s.pending ∧ (State.startScrub s x0 x1).mem = s.mem := by
  unfold State.startScrub; constructor <;> simp

@[simp] theorem State.autoScrub_same (s : State) : (State.autoScrub s).pending = s.pending ∧ (State.autoScrub s).mem = s.mem := by
  unfold State.autoScrub; constructor <;> simp

theorem execStartScrubPass_same (x0) (s : State) :
    ∀ t, execStartScrubPass x0 s = .next t → (t).pending = s.pending ∧ (t).mem = s.mem := by
  intro t h; simp only [execStartScrubPass, Host.Outcome.next.injEq] at h; subst h
  apply State.runMgmt_both; intros; constructor <;> ((try dsimp only); (repeat' split) <;> simp_all)

theorem execStopScrubPass_same (x0) (s : State) :
    ∀ t, execStopScrubPass x0 s = .next t → (t).pending = s.pending ∧ (t).mem = s.mem := by
  intro t h; simp only [execStopScrubPass, Host.Outcome.next.injEq] at h; subst h
  apply State.runMgmt_both; intros; constructor <;> ((try dsimp only); (repeat' split) <;> simp_all)

theorem execScrubStripe_same (x0) (x1) (x2) (x3) (s : State) :
    ∀ t, execScrubStripe x0 x1 x2 x3 s = .next t → (t).pending = s.pending ∧ (t).mem = s.mem := by
  intro t h; simp only [execScrubStripe, State.when, State.pathFault, Host.Outcome.next.injEq] at h; subst h; constructor <;> ((repeat' split) <;> simp)

theorem execScrubPassDone_same (s : State) : ∀ t, execScrubPassDone s = .next t → (t).pending = s.pending ∧ (t).mem = s.mem := by
  intro t h; simp only [execScrubPassDone, State.when, State.pathFault, Host.Outcome.next.injEq] at h; subst h; constructor <;> ((repeat' split) <;> simp)

theorem execAddMember_same (x0) (x1) (x2) (s : State) :
    ∀ t, execAddMember x0 x1 x2 s = .next t → (t).pending = s.pending ∧ (t).mem = s.mem := by
  intro t h; simp only [execAddMember, Host.Outcome.next.injEq] at h; subst h
  apply State.runMgmt_both; intros; constructor <;> ((try dsimp only); (repeat' split) <;> simp_all)

theorem execReturnMember_same (x0) (s : State) :
    ∀ t, execReturnMember x0 s = .next t → (t).pending = s.pending ∧ (t).mem = s.mem := by
  intro t h; simp only [execReturnMember, Host.Outcome.next.injEq] at h; subst h
  apply State.runMgmt_both; intros; constructor <;> ((try dsimp only); (repeat' split) <;> simp_all)

theorem execDrainMember_same (x0) (s : State) :
    ∀ t, execDrainMember x0 s = .next t → (t).pending = s.pending ∧ (t).mem = s.mem := by
  intro t h; simp only [execDrainMember, Host.Outcome.next.injEq] at h; subst h
  apply State.runPlain_both; intros; constructor <;> ((try dsimp only); (repeat' split) <;> simp_all)

theorem execRemoveMember_same (x0) (s : State) :
    ∀ t, execRemoveMember x0 s = .next t → (t).pending = s.pending ∧ (t).mem = s.mem := by
  intro t h; simp only [execRemoveMember, Host.Outcome.next.injEq] at h; subst h
  apply State.runPlain_both; intros; constructor <;> ((try dsimp only); (repeat' split) <;> simp_all)

theorem execDrainComplete_same (x0) (s : State) :
    ∀ t, execDrainComplete x0 s = .next t → (t).pending = s.pending ∧ (t).mem = s.mem := by
  intro t h; simp only [execDrainComplete, Host.Outcome.next.injEq] at h; subst h; constructor <;> simp [State.when]

theorem execCopybackDone_same (x0) (x1) (s : State) :
    ∀ t, execCopybackDone x0 x1 s = .next t → (t).pending = s.pending ∧ (t).mem = s.mem := by
  intro t h; simp only [execCopybackDone, State.when, State.pathFault, Host.Outcome.next.injEq] at h; subst h; constructor <;> ((repeat' split) <;> simp)

@[simp] theorem State.memberAcked_same (s : State) (x0) :
    (State.memberAcked s x0).pending = s.pending ∧ (State.memberAcked s x0).mem = s.mem := by
  constructor <;> (simp only [State.memberAcked]; (repeat' split) <;> simp_all)

theorem execMemberStateAck_same (x0) (s : State) :
    ∀ t, execMemberStateAck x0 s = .next t → (t).pending = s.pending ∧ (t).mem = s.mem := by
  intro t h; simp only [execMemberStateAck, Host.Outcome.next.injEq] at h; subst h; constructor <;> simp [State.when]

@[simp] theorem State.restore_same (s : State) (x0) (x1) :
    (State.restore s x0 x1).pending = s.pending ∧ (State.restore s x0 x1).mem = s.mem := by
  constructor <;> (simp only [State.restore]; (repeat' split) <;> (first | (refine (State.foldl_pending _ (fun u a => ?_) _ _).trans ?_ <;> first | rfl | (simp; done) | ((try dsimp only); (repeat' split) <;> simp_all; done)) | (refine (State.foldl_mem _ (fun u a => ?_) _ _).trans ?_ <;> first | rfl | (simp; done) | ((try dsimp only); (repeat' split) <;> simp_all; done))))

theorem execMemberRestore_same (x0) (x1) (s : State) :
    ∀ t, execMemberRestore x0 x1 s = .next t → (t).pending = s.pending ∧ (t).mem = s.mem := by
  intro t h; simp only [execMemberRestore, State.when, State.pathFault, Host.Outcome.next.injEq] at h; subst h; constructor <;> ((repeat' split) <;> simp)

@[simp] theorem State.resetCauses_same (s : State) (x0) :
    (State.resetCauses s x0).pending = s.pending ∧ (State.resetCauses s x0).mem = s.mem := by
  unfold State.resetCauses; constructor <;> simp

@[simp] theorem State.kept_same (s : State) :
    (State.kept s).pending = s.pending ∧ (Memory.wf s.mem = true → Memory.wf (State.kept s).mem = true) := by
  unfold State.kept; dsimp only; constructor
  · (repeat' split) <;> simp_all
  · intro hw; (repeat' split) <;> simp_all

@[simp] theorem State.beginReset_same (s : State) (x0) :
    (State.beginReset s x0).pending = s.pending ∧ (Memory.wf s.mem = true → Memory.wf (State.beginReset s x0).mem = true) := by
  unfold State.beginReset; dsimp only; constructor
  · (repeat' split) <;> simp_all
  · intro hw; (repeat' split) <;> simp_all

@[simp] theorem State.fullReset_same (s : State) (x0) :
    (State.fullReset s x0).pending = s.pending ∧ (Memory.wf s.mem = true → Memory.wf (State.fullReset s x0).mem = true) := by
  unfold State.fullReset; dsimp only; constructor
  · (repeat' split) <;> simp_all
  · intro hw; (repeat' split) <;> simp_all

@[simp] theorem State.bootRom_same (s : State) : (State.bootRom s).pending = s.pending ∧ (State.bootRom s).mem = s.mem := by
  unfold State.bootRom; constructor <;> simp

@[simp] theorem State.startupBit_same (s : State) (x0) :
    (State.startupBit s x0).pending = s.pending ∧ (State.startupBit s x0).mem = s.mem := by
  unfold State.startupBit; constructor <;> simp

@[simp] theorem State.restoreRecord_same (s : State) :
    (State.restoreRecord s).pending = s.pending ∧ (State.restoreRecord s).mem = s.mem := by
  unfold State.restoreRecord; constructor <;> simp

@[simp] theorem State.boot_same (s : State) : (State.boot s).pending = s.pending ∧ (State.boot s).mem = s.mem := by
  unfold State.boot; constructor <;> simp

@[simp] theorem State.armFloorSave_same (s : State) :
    (State.armFloorSave s).pending = s.pending ∧ (State.armFloorSave s).mem = s.mem := by
  unfold State.armFloorSave; constructor <;> simp

@[simp] theorem State.reloadExt_same (s : State) :
    (State.reloadExt s).pending = s.pending ∧ (Memory.wf s.mem = true → Memory.wf (State.reloadExt s).mem = true) := by
  unfold State.reloadExt
  exact ⟨by simp, fun hw => by simpa using (State.swapExt_same s s.sec.extStored).2 hw⟩

@[simp] theorem State.bootDone_same (s : State) :
    (State.bootDone s).pending = s.pending ∧ (Memory.wf s.mem = true → Memory.wf (State.bootDone s).mem = true) := by
  unfold State.bootDone; dsimp only; constructor
  · (repeat' split) <;> simp_all
  · intro hw; (repeat' split) <;> simp_all

@[simp] theorem State.romOnFio_same (s : State) : (State.romOnFio s).pending = s.pending ∧ (State.romOnFio s).mem = s.mem := by
  unfold State.romOnFio; constructor <;> simp

@[simp] theorem State.mapsLoaded_same (s : State) :
    (State.mapsLoaded s).pending = s.pending ∧ (State.mapsLoaded s).mem = s.mem := by
  unfold State.mapsLoaded; constructor <;> simp

theorem execResetRelease_same (s : State) : ∀ t, execResetRelease s = .next t → (t).pending = s.pending ∧ (t).mem = s.mem := by
  intro t h; simp only [execResetRelease, State.when, State.pathFault, Host.Outcome.next.injEq] at h; subst h; constructor <;> ((repeat' split) <;> simp)

theorem execResetPin_same (s : State) :
    ∀ t, execResetPin s = .next t → (t).pending = s.pending ∧ (Memory.wf s.mem = true → Memory.wf (t).mem = true) := by
  intro t h; simp only [execResetPin, State.when, State.pathFault, Host.Outcome.next.injEq] at h; subst h; constructor
  · (repeat' split) <;> simp_all
  · intro hw; (repeat' split) <;> simp_all

theorem execResetNRelease_same (s : State) : ∀ t, execResetNRelease s = .next t → (t).pending = s.pending ∧ (t).mem = s.mem := by
  intro t h; simp only [execResetNRelease, Host.Outcome.next.injEq] at h; subst h; constructor <;> simp [State.when]

theorem execGlbResetWrite_same (x0) (s : State) :
    ∀ t, execGlbResetWrite x0 s = .next t → (t).pending = s.pending ∧ (Memory.wf s.mem = true → Memory.wf (t).mem = true) := by
  intro t h; simp only [execGlbResetWrite, State.when, State.pathFault, Host.Outcome.next.injEq] at h; subst h; constructor
  · (repeat' split) <;> simp_all
  · intro hw; (repeat' split) <;> simp_all

theorem execAutoReset_same (s : State) :
    ∀ t, execAutoReset s = .next t → (t).pending = s.pending ∧ (Memory.wf s.mem = true → Memory.wf (t).mem = true) := by
  intro t h; simp only [execAutoReset, State.when, State.pathFault, Host.Outcome.next.injEq] at h; subst h; constructor
  · (repeat' split) <;> simp_all
  · intro hw; (repeat' split) <;> simp_all

theorem execTestReset_same (s : State) : ∀ t, execTestReset s = .next t → (t).pending = s.pending ∧ (t).mem = s.mem := by
  intro t h; simp only [execTestReset, Host.Outcome.next.injEq] at h; subst h; constructor <;> simp [State.when]

end Sys2Proof.Machine
end

