-- ==== Sys2Proof/Laws/FrameDrives.lean ====
section
/-! SUPPORT. Frames of the definitions of Drives, Stirrup, Harness: each leaves the queue of commands as it is, and memory as it is or in
its canonical form. -/
set_option maxRecDepth 8000
set_option Elab.async false
set_option linter.all false
namespace Sys2Proof.Machine

@[simp] theorem State.pathFault_pending (s : State) (d : Nat) (f : State → State) (h : ∀ u, (f u).pending = u.pending) :
    (s.pathFault d f).pending = s.pending := by
  simp only [State.pathFault]; (repeat' split) <;> simp [h]

@[simp] theorem State.pathFault_mem (s : State) (d : Nat) (f : State → State) (h : ∀ u, (f u).mem = u.mem) :
    (s.pathFault d f).mem = s.mem := by
  simp only [State.pathFault]; (repeat' split) <;> simp [h]

theorem State.pathFault_both (s : State) (d : Nat) (f : State → State) (h : ∀ u, (f u).pending = u.pending ∧ (f u).mem = u.mem) : (s.pathFault d f).pending = s.pending ∧ (s.pathFault d f).mem = s.mem :=
  ⟨by simp [h], by simp [h]⟩

@[simp] theorem State.countDrive_same (s : State) (x0) :
    (State.countDrive s x0).pending = s.pending ∧ (State.countDrive s x0).mem = s.mem := by
  unfold State.countDrive; constructor <;> simp

@[simp] theorem State.noteRead_same (s : State) (x0) :
    (State.noteRead s x0).pending = s.pending ∧ (State.noteRead s x0).mem = s.mem := by
  unfold State.noteRead; constructor <;> simp

@[simp] theorem State.driveData_same (s : State) (x0) (x1) :
    (State.driveData s x0 x1).pending = s.pending ∧ (State.driveData s x0 x1).mem = s.mem := by
  constructor <;> (simp only [State.driveData]; (repeat' split) <;> simp_all)

@[simp] theorem State.driveWrote_same (s : State) (x0) :
    (State.driveWrote s x0).pending = s.pending ∧ (State.driveWrote s x0).mem = s.mem := by
  constructor <;> (simp only [State.driveWrote]; (repeat' split) <;> simp_all)

@[simp] theorem State.driveError_same (s : State) (x0) (x1) :
    (State.driveError s x0 x1).pending = s.pending ∧ (State.driveError s x0 x1).mem = s.mem := by
  unfold State.driveError; constructor <;> simp

theorem execDriveCompletion_same (x0) (x1) (s : State) :
    ∀ t, execDriveCompletion x0 x1 s = .next t → (t).pending = s.pending ∧ (t).mem = s.mem := by
  intro t h; simp only [execDriveCompletion, State.when, State.pathFault, Host.Outcome.next.injEq] at h; subst h; constructor <;> ((repeat' split) <;> simp)

@[simp] theorem State.abortLate_same (s : State) (x0) :
    (State.abortLate s x0).pending = s.pending ∧ (State.abortLate s x0).mem = s.mem := by
  unfold State.abortLate; constructor <;> simp

theorem execDriveCmdTimeout_same (x0) (s : State) :
    ∀ t, execDriveCmdTimeout x0 s = .next t → (t).pending = s.pending ∧ (t).mem = s.mem := by
  intro t h; simp only [execDriveCmdTimeout, State.when, State.pathFault, Host.Outcome.next.injEq] at h; subst h; constructor <;> ((repeat' split) <;> simp)

theorem execDriveCfs_same (x0) (s : State) : ∀ t, execDriveCfs x0 s = .next t → (t).pending = s.pending ∧ (t).mem = s.mem := by
  intro t h; simp only [execDriveCfs, Host.Outcome.next.injEq] at h; subst h; constructor <;> simp [State.when]

theorem execSmartWarning_same (x0) (x1) (s : State) :
    ∀ t, execSmartWarning x0 x1 s = .next t → (t).pending = s.pending ∧ (t).mem = s.mem := by
  intro t h; simp only [execSmartWarning, Host.Outcome.next.injEq] at h; subst h; constructor <;> simp [State.when]

@[simp] theorem State.driveLinkDown_same (s : State) (x0) (x1) :
    (State.driveLinkDown s x0 x1).pending = s.pending ∧ (State.driveLinkDown s x0 x1).mem = s.mem := by
  unfold State.driveLinkDown; constructor <;> simp

theorem execDrivePortEnable_same (x0) (x1) (s : State) :
    ∀ t, execDrivePortEnable x0 x1 s = .next t → (t).pending = s.pending ∧ (t).mem = s.mem := by
  intro t h; simp only [execDrivePortEnable, State.when, State.pathFault, Host.Outcome.next.injEq] at h; subst h; constructor <;> ((repeat' split) <;> (first | (simp_all; done) | ((try simp); first | exact (State.storeReg_same _ _ _ _ ‹_›).1 | exact (State.storeReg_same _ _ _ _ ‹_›).2)))

@[simp] theorem State.retake_same (s : State) (x0) : (State.retake s x0).pending = s.pending ∧ (State.retake s x0).mem = s.mem := by
  unfold State.retake; constructor <;> simp

@[simp] theorem State.checkHold_same (s : State) (x0) (x1) :
    (State.checkHold s x0 x1).pending = s.pending ∧ (State.checkHold s x0 x1).mem = s.mem := by
  constructor <;> (simp only [State.checkHold]; (repeat' split) <;> simp_all)

theorem execDriveLinkUp_same (x0) (x1) (x2) (x3) (x4) (s : State) :
    ∀ t, execDriveLinkUp x0 x1 x2 x3 x4 s = .next t → (t).pending = s.pending ∧ (t).mem = s.mem := by
  intro t h; simp only [execDriveLinkUp, State.when, State.pathFault, Host.Outcome.next.injEq] at h; subst h; constructor <;> ((repeat' split) <;> simp)

theorem execDriveLinkDown_same (x0) (x1) (s : State) :
    ∀ t, execDriveLinkDown x0 x1 s = .next t → (t).pending = s.pending ∧ (t).mem = s.mem := by
  intro t h; simp only [execDriveLinkDown, Host.Outcome.next.injEq] at h; subst h; constructor <;> simp [State.when]

theorem execLinkHoldExpire_same (x0) (s : State) :
    ∀ t, execLinkHoldExpire x0 s = .next t → (t).pending = s.pending ∧ (t).mem = s.mem := by
  intro t h; simp only [execLinkHoldExpire, State.when, State.pathFault, Host.Outcome.next.injEq] at h; subst h; constructor <;> ((repeat' split) <;> simp)

theorem execDriveAer_same (x0) (x1) (x2) (s : State) :
    ∀ t, execDriveAer x0 x1 x2 s = .next t → (t).pending = s.pending ∧ (t).mem = s.mem := by
  intro t h; simp only [execDriveAer, Host.Outcome.next.injEq] at h; subst h; constructor <;> simp [State.when]

theorem execDriveMiEvent_same (x0) (x1) (s : State) :
    ∀ t, execDriveMiEvent x0 x1 s = .next t → (t).pending = s.pending ∧ (t).mem = s.mem := by
  intro t h; simp only [execDriveMiEvent, Host.Outcome.next.injEq] at h; subst h; constructor <;> simp [State.when]

theorem execI3cIbi_same (x0) (x1) (x2) (s : State) :
    ∀ t, execI3cIbi x0 x1 x2 s = .next t → (t).pending = s.pending ∧ (t).mem = s.mem := by
  intro t h; simp only [execI3cIbi, Host.Outcome.next.injEq] at h; subst h; constructor <;> simp [State.when]

theorem execI3cNack_same (x0) (x1) (s : State) :
    ∀ t, execI3cNack x0 x1 s = .next t → (t).pending = s.pending ∧ (t).mem = s.mem := by
  intro t h; simp only [execI3cNack, Host.Outcome.next.injEq] at h; subst h; constructor <;> simp [State.when]

@[simp] theorem State.setChan_same (s : State) (x0) (x1) :
    (State.setChan s x0 x1).pending = s.pending ∧ (State.setChan s x0 x1).mem = s.mem := by
  unfold State.setChan; constructor <;> simp

@[simp] theorem State.updChan_same (s : State) (x0) (x1) :
    (State.updChan s x0 x1).pending = s.pending ∧ (State.updChan s x0 x1).mem = s.mem := by
  unfold State.updChan; constructor <;> simp

@[simp] theorem State.slotMember_same (s : State) (x0) (x1) (x2) :
    (State.slotMember s x0 x1 x2).pending = s.pending ∧ (State.slotMember s x0 x1 x2).mem = s.mem := by
  constructor <;> (simp only [State.slotMember]; (repeat' split) <;> simp_all)

@[simp] theorem State.measure_same (s : State) (x0) (x1) :
    (State.measure s x0 x1).pending = s.pending ∧ (State.measure s x0 x1).mem = s.mem := by
  unfold State.measure; constructor <;> simp

@[simp] theorem State.endSlotCmd_same (s : State) (x0) (x1) :
    (State.endSlotCmd s x0 x1).pending = s.pending ∧ (State.endSlotCmd s x0 x1).mem = s.mem := by
  constructor <;> (simp only [State.endSlotCmd]; (repeat' split) <;> simp_all)

@[simp] theorem State.enterRamp_same (s : State) (x0) :
    (State.enterRamp s x0).pending = s.pending ∧ (State.enterRamp s x0).mem = s.mem := by
  unfold State.enterRamp; constructor <;> simp

@[simp] theorem State.enterOn_same (s : State) (x0) :
    (State.enterOn s x0).pending = s.pending ∧ (State.enterOn s x0).mem = s.mem := by
  unfold State.enterOn; constructor <;> simp

@[simp] theorem State.enterOff_same (s : State) (x0) :
    (State.enterOff s x0).pending = s.pending ∧ (State.enterOff s x0).mem = s.mem := by
  unfold State.enterOff; constructor <;> simp

@[simp] theorem State.lock_same (s : State) (x0) : (State.lock s x0).pending = s.pending ∧ (State.lock s x0).mem = s.mem := by
  unfold State.lock; constructor <;> simp

@[simp] theorem State.trip_same (s : State) (x0) (x1) :
    (State.trip s x0 x1).pending = s.pending ∧ (State.trip s x0 x1).mem = s.mem := by
  unfold State.trip; constructor <;> simp

@[simp] theorem State.setSlotCfg_same (s : State) (x0) (x1) :
    (State.setSlotCfg s x0 x1).pending = s.pending ∧ (State.setSlotCfg s x0 x1).mem = s.mem := by
  unfold State.setSlotCfg; constructor <;> simp

theorem execSlotConfigure_same (x0) (s : State) :
    ∀ t, execSlotConfigure x0 s = .next t → (t).pending = s.pending ∧ (t).mem = s.mem := by
  intro t h; simp only [execSlotConfigure, Host.Outcome.next.injEq] at h; subst h
  apply State.runMgmt_both; intros; constructor <;> ((try dsimp only); (repeat' split) <;> simp_all)

theorem execSlotLocate_same (x0) (s : State) : ∀ t, execSlotLocate x0 s = .next t → (t).pending = s.pending ∧ (t).mem = s.mem := by
  intro t h; simp only [execSlotLocate, Host.Outcome.next.injEq] at h; subst h
  apply State.runMgmt_both; intros; constructor <;> ((try dsimp only); (repeat' split) <;> simp_all)

theorem execSlotEnable_same (x0) (s : State) : ∀ t, execSlotEnable x0 s = .next t → (t).pending = s.pending ∧ (t).mem = s.mem := by
  intro t h; simp only [execSlotEnable, Host.Outcome.next.injEq] at h; subst h
  apply State.runPlain_both; intros; constructor <;> ((try dsimp only); (repeat' split) <;> simp_all)

@[simp] theorem State.assertPerst_same (s : State) (x0) (x1) (x2) :
    (State.assertPerst s x0 x1 x2).pending = s.pending ∧ (State.assertPerst s x0 x1 x2).mem = s.mem := by
  unfold State.assertPerst; constructor <;> simp

theorem execSlotDisable_same (x0) (s : State) :
    ∀ t, execSlotDisable x0 s = .next t → (t).pending = s.pending ∧ (t).mem = s.mem := by
  intro t h; simp only [execSlotDisable, Host.Outcome.next.injEq] at h; subst h
  apply State.runPlain_both; intros; constructor <;> ((try dsimp only); (repeat' split) <;> simp_all)

theorem execSlotShutdownDone_same (x0) (x1) (s : State) :
    ∀ t, execSlotShutdownDone x0 x1 s = .next t → (t).pending = s.pending ∧ (t).mem = s.mem := by
  intro t h; simp only [execSlotShutdownDone, State.when, State.pathFault, Host.Outcome.next.injEq] at h; subst h; constructor <;> ((repeat' split) <;> simp)

theorem execSlotGateOff_same (x0) (s : State) :
    ∀ t, execSlotGateOff x0 s = .next t → (t).pending = s.pending ∧ (t).mem = s.mem := by
  intro t h; simp only [execSlotGateOff, State.when, State.pathFault, Host.Outcome.next.injEq] at h; subst h; constructor <;> ((repeat' split) <;> simp)

theorem execSlotClearTrip_same (x0) (s : State) :
    ∀ t, execSlotClearTrip x0 s = .next t → (t).pending = s.pending ∧ (t).mem = s.mem := by
  intro t h; simp only [execSlotClearTrip, Host.Outcome.next.injEq] at h; subst h
  apply State.runPlain_both; intros; constructor <;> ((try dsimp only); (repeat' split) <;> simp_all)

theorem execRampThresholdReached_same (x0) (x1) (s : State) :
    ∀ t, execRampThresholdReached x0 x1 s = .next t → (t).pending = s.pending ∧ (t).mem = s.mem := by
  intro t h; simp only [execRampThresholdReached, Host.Outcome.next.injEq] at h; subst h; constructor <;> simp [State.when]

@[simp] theorem State.reportPg_same (s : State) (x0) :
    (State.reportPg s x0).pending = s.pending ∧ (State.reportPg s x0).mem = s.mem := by
  unfold State.reportPg; constructor <;> simp

theorem execPgAssert_same (x0) (x1) (s : State) :
    ∀ t, execPgAssert x0 x1 s = .next t → (t).pending = s.pending ∧ (t).mem = s.mem := by
  intro t h; simp only [execPgAssert, Host.Outcome.next.injEq] at h; subst h; constructor <;> simp [State.when]

theorem execPgLoss_same (x0) (x1) (s : State) : ∀ t, execPgLoss x0 x1 s = .next t → (t).pending = s.pending ∧ (t).mem = s.mem := by
  intro t h; simp only [execPgLoss, Host.Outcome.next.injEq] at h; subst h; constructor <;> simp [State.when]

theorem execRampTmoExpire_same (x0) (s : State) :
    ∀ t, execRampTmoExpire x0 s = .next t → (t).pending = s.pending ∧ (t).mem = s.mem := by
  intro t h; simp only [execRampTmoExpire, Host.Outcome.next.injEq] at h; subst h; constructor <;> simp [State.when]

theorem execPerstDlyExpire_same (x0) (s : State) :
    ∀ t, execPerstDlyExpire x0 s = .next t → (t).pending = s.pending ∧ (t).mem = s.mem := by
  intro t h; simp only [execPerstDlyExpire, State.when, State.pathFault, Host.Outcome.next.injEq] at h; subst h; constructor <;> ((repeat' split) <;> simp)

@[simp] theorem State.peerPg_same (s : State) (x0) : (State.peerPg s x0).pending = s.pending ∧ (State.peerPg s x0).mem = s.mem := by
  unfold State.peerPg; constructor <;> simp

theorem execPeerPgReport_same (x0) (s : State) :
    ∀ t, execPeerPgReport x0 s = .next t → (t).pending = s.pending ∧ (t).mem = s.mem := by
  intro t h; simp only [execPeerPgReport, Host.Outcome.next.injEq] at h; subst h; constructor <;> simp [State.when]

theorem execFaultTimerStart_same (x0) (x1) (s : State) :
    ∀ t, execFaultTimerStart x0 x1 s = .next t → (t).pending = s.pending ∧ (t).mem = s.mem := by
  intro t h; simp only [execFaultTimerStart, Host.Outcome.next.injEq] at h; subst h; constructor <;> simp [State.when]

theorem execFaultTimerStop_same (x0) (x1) (s : State) :
    ∀ t, execFaultTimerStop x0 x1 s = .next t → (t).pending = s.pending ∧ (t).mem = s.mem := by
  intro t h; simp only [execFaultTimerStop, State.when, State.pathFault, Host.Outcome.next.injEq] at h; subst h; constructor <;> ((repeat' split) <;> simp)

theorem execFaultTimerExpire_same (x0) (x1) (s : State) :
    ∀ t, execFaultTimerExpire x0 x1 s = .next t → (t).pending = s.pending ∧ (t).mem = s.mem := by
  intro t h; simp only [execFaultTimerExpire, State.when, State.pathFault, Host.Outcome.next.injEq] at h; subst h; constructor <;> ((repeat' split) <;> simp)

theorem execFastTrip_same (x0) (x1) (s : State) :
    ∀ t, execFastTrip x0 x1 s = .next t → (t).pending = s.pending ∧ (t).mem = s.mem := by
  intro t h; simp only [execFastTrip, Host.Outcome.next.injEq] at h; subst h; constructor <;> simp [State.when]

theorem execCoolDownEnd_same (x0) (s : State) :
    ∀ t, execCoolDownEnd x0 s = .next t → (t).pending = s.pending ∧ (t).mem = s.mem := by
  intro t h; simp only [execCoolDownEnd, State.when, State.pathFault, Host.Outcome.next.injEq] at h; subst h; constructor <;> ((repeat' split) <;> simp)

theorem execFetShort_same (x0) (x1) (s : State) :
    ∀ t, execFetShort x0 x1 s = .next t → (t).pending = s.pending ∧ (t).mem = s.mem := by
  intro t h; simp only [execFetShort, Host.Outcome.next.injEq] at h; subst h; constructor <;> simp [State.when]

theorem execRetriesClear_same (x0) (s : State) :
    ∀ t, execRetriesClear x0 s = .next t → (t).pending = s.pending ∧ (t).mem = s.mem := by
  intro t h; simp only [execRetriesClear, Host.Outcome.next.injEq] at h; subst h; constructor <;> simp [State.when]

@[simp] theorem State.judgeSlots_same (s : State) :
    (State.judgeSlots s).pending = s.pending ∧ (State.judgeSlots s).mem = s.mem := by
  unfold State.judgeSlots; constructor <;> simp

theorem execPresenceChange_same (x0) (x1) (s : State) :
    ∀ t, execPresenceChange x0 x1 s = .next t → (t).pending = s.pending ∧ (t).mem = s.mem := by
  intro t h; simp only [execPresenceChange, Host.Outcome.next.injEq] at h; subst h; constructor <;> simp [State.when]

@[simp] theorem State.linkLost_same (s : State) (x0) :
    (State.linkLost s x0).pending = s.pending ∧ (State.linkLost s x0).mem = s.mem := by
  constructor <;> (simp only [State.linkLost]; (repeat' split) <;> simp_all)

@[simp] theorem State.gotFlit_same (s : State) : (State.gotFlit s).pending = s.pending ∧ (State.gotFlit s).mem = s.mem := by
  unfold State.gotFlit; constructor <;> simp

@[simp] theorem State.onFlit_pending (s : State) (f : State → State) (h : ∀ u, (f u).pending = u.pending) :
    (s.onFlit f).pending = s.pending := by
  simp only [State.onFlit, State.when]; (repeat' split) <;> simp [h]

@[simp] theorem State.onFlit_mem (s : State) (f : State → State) (h : ∀ u, (f u).mem = u.mem) : (s.onFlit f).mem = s.mem := by
  simp only [State.onFlit, State.when]; (repeat' split) <;> simp [h]

theorem State.onFlit_both (s : State) (f : State → State) (h : ∀ u, (f u).pending = u.pending ∧ (f u).mem = u.mem) : (s.onFlit f).pending = s.pending ∧ (s.onFlit f).mem = s.mem :=
  ⟨by simp [h], by simp [h]⟩

@[simp] theorem State.meetHolder_same (s : State) :
    (State.meetHolder s).pending = s.pending ∧ (State.meetHolder s).mem = s.mem := by
  constructor <;> (simp only [State.meetHolder]; (repeat' split) <;> simp_all)

theorem execHarnessEnable_same (x0) (s : State) :
    ∀ t, execHarnessEnable x0 s = .next t → (t).pending = s.pending ∧ (t).mem = s.mem := by
  intro t h; simp only [execHarnessEnable, Host.Outcome.next.injEq] at h; subst h; constructor <;> simp [State.when]

theorem execHarnessLinkUp_same (x0) (s : State) :
    ∀ t, execHarnessLinkUp x0 s = .next t → (t).pending = s.pending ∧ (t).mem = s.mem := by
  intro t h; simp only [execHarnessLinkUp, Host.Outcome.next.injEq] at h; subst h; constructor <;> simp [State.when]

theorem execHarnessLaneFault_same (x0) (s : State) :
    ∀ t, execHarnessLaneFault x0 s = .next t → (t).pending = s.pending ∧ (t).mem = s.mem := by
  intro t h; simp only [execHarnessLaneFault, Host.Outcome.next.injEq] at h; subst h; constructor <;> simp [State.when]

theorem execHarnessLinkDown_same (s : State) :
    ∀ t, execHarnessLinkDown s = .next t → (t).pending = s.pending ∧ (t).mem = s.mem := by
  intro t h; simp only [execHarnessLinkDown, Host.Outcome.next.injEq] at h; subst h; constructor <;> simp [State.when]

theorem execFlitBadRx_same (x0) (s : State) : ∀ t, execFlitBadRx x0 s = .next t → (t).pending = s.pending ∧ (t).mem = s.mem := by
  intro t h; simp only [execFlitBadRx, Host.Outcome.next.injEq] at h; subst h; constructor <;> simp [State.when]

@[simp] theorem State.ordAcked_same (s : State) (x0) :
    (State.ordAcked s x0).pending = s.pending ∧ (State.ordAcked s x0).mem = s.mem := by
  unfold State.ordAcked; constructor <;> simp

@[simp] theorem State.flitAcked_same (s : State) (x0) :
    (State.flitAcked s x0).pending = s.pending ∧ (State.flitAcked s x0).mem = s.mem := by
  unfold State.flitAcked; constructor <;> simp

@[simp] theorem State.resendFlits_same (s : State) (x0) :
    (State.resendFlits s x0).pending = s.pending ∧ (State.resendFlits s x0).mem = s.mem := by
  unfold State.resendFlits; constructor <;> simp

theorem execLinkFlitRx_same (x0) (x1) (x2) (s : State) :
    ∀ t, execLinkFlitRx x0 x1 x2 s = .next t → (t).pending = s.pending ∧ (t).mem = s.mem := by
  intro t h; simp only [execLinkFlitRx, State.when, State.pathFault, Host.Outcome.next.injEq] at h; subst h; constructor <;> ((repeat' split) <;> simp)

@[simp] theorem State.discipline_same (s : State) (x0) :
    (State.discipline s x0).pending = s.pending ∧ (State.discipline s x0).mem = s.mem := by
  unfold State.discipline; constructor <;> simp

theorem execHeartbeatRx_same (x0) (s : State) :
    ∀ t, execHeartbeatRx x0 s = .next t → (t).pending = s.pending ∧ (t).mem = s.mem := by
  intro t h; simp only [execHeartbeatRx, Host.Outcome.next.injEq] at h; subst h
  apply State.onFlit_both; intros; constructor <;> ((try dsimp only); (repeat' split) <;> simp_all)

@[simp] theorem State.sendHeartbeat_same (s : State) :
    (State.sendHeartbeat s).pending = s.pending ∧ (State.sendHeartbeat s).mem = s.mem := by
  unfold State.sendHeartbeat; constructor <;> simp

theorem execHeartbeatSend_same (s : State) : ∀ t, execHeartbeatSend s = .next t → (t).pending = s.pending ∧ (t).mem = s.mem := by
  intro t h; simp only [execHeartbeatSend, Host.Outcome.next.injEq] at h; subst h; constructor <;> simp [State.when]

theorem execCrosspostRx_same (x0 x1 x2) (s : State) :
    ∀ t, execCrosspostRx x0 x1 x2 s = .next t → t.pending = s.pending ∧ t.mem = s.mem := by
  intro t h; simp only [execCrosspostRx, Host.Outcome.next.injEq] at h; subst h
  exact State.onFlit_both s _ fun u => ⟨rfl, rfl⟩

@[simp] theorem State.takeResend_same (s : State) (x0) (x1) (x2) (x3) :
    (State.takeResend s x0 x1 x2 x3).pending = s.pending ∧ (State.takeResend s x0 x1 x2 x3).mem = s.mem := by
  constructor <;> (simp only [State.takeResend]; (repeat' split) <;> simp_all)

@[simp] theorem State.awaitTx_same (s : State) (x0) (x1) (x2) :
    (State.awaitTx s x0 x1 x2).pending = s.pending ∧ (State.awaitTx s x0 x1 x2).mem = s.mem := by
  constructor <;> (simp only [State.awaitTx]; (repeat' split) <;> simp_all)

@[simp] theorem State.takeData_same (s : State) (x0) (x1) (x2) (x3) (x4) :
    (State.takeData s x0 x1 x2 x3 x4).pending = s.pending ∧ (State.takeData s x0 x1 x2 x3 x4).mem = s.mem := by
  unfold State.takeData; constructor <;> simp

@[simp] theorem State.takeAck_same (s : State) (x0) (x1) (x2) :
    (State.takeAck s x0 x1 x2).pending = s.pending ∧ (State.takeAck s x0 x1 x2).mem = s.mem := by
  unfold State.takeAck; constructor <;> simp

@[simp] theorem State.takeTx_same (s : State) (e : OrderEntry) : (s.takeTx e).pending = s.pending ∧ (s.takeTx e).mem = s.mem := by
  unfold State.takeTx
  split
  · dsimp only; (repeat' split) <;> simp
  · exact ⟨rfl, rfl⟩

@[simp] theorem State.takeProgress_same (s : State) (x0) (x1) (x2) (x3) :
    (State.takeProgress s x0 x1 x2 x3).pending = s.pending ∧ (State.takeProgress s x0 x1 x2 x3).mem = s.mem := by
  unfold State.takeProgress; constructor <;> simp

@[simp] theorem State.startCarried_same (s : State) (x0) (x1) (x2) :
    (State.startCarried s x0 x1 x2).pending = s.pending ∧ (State.startCarried s x0 x1 x2).mem = s.mem := by
  unfold State.startCarried; constructor <;> simp

@[simp] theorem State.takeRegister_same (s : State) (x0) (x1) :
    (State.takeRegister s x0 x1).pending = s.pending ∧ (State.takeRegister s x0 x1).mem = s.mem := by
  unfold State.takeRegister; constructor <;> simp

@[simp] theorem State.applyTwin_same (s : State) (x0) :
    (State.applyTwin s x0).pending = s.pending ∧ (State.applyTwin s x0).mem = s.mem := by
  constructor <;> (simp only [State.applyTwin]; (repeat' split) <;> simp_all)

@[simp] theorem State.takeChange_same (s : State) (x0) :
    (State.takeChange s x0).pending = s.pending ∧ (State.takeChange s x0).mem = s.mem := by
  constructor <;> (simp only [State.takeChange]; (repeat' split) <;> simp_all)

@[simp] theorem State.nameChange_same (s : State) (x0) :
    (State.nameChange s x0).pending = s.pending ∧ (State.nameChange s x0).mem = s.mem := by
  constructor <;> (simp only [State.nameChange]; (repeat' split) <;> simp_all)

@[simp] theorem State.becomeActive_same (s : State) :
    (State.becomeActive s).pending = s.pending ∧ (State.becomeActive s).mem = s.mem := by
  unfold State.becomeActive; constructor <;> simp

@[simp] theorem State.followEgress_same (s : State) (x0) (x1) (x2) :
    (State.followEgress s x0 x1 x2).pending = s.pending ∧ (State.followEgress s x0 x1 x2).mem = s.mem := by
  constructor <;> (simp only [State.followEgress]; (repeat' split) <;> simp_all)

@[simp] theorem State.takeEntry_same (s : State) (x0) :
    (State.takeEntry s x0).pending = s.pending ∧ (State.takeEntry s x0).mem = s.mem := by
  constructor <;> (simp only [State.takeEntry]; (repeat' split) <;> simp_all)

theorem State.takeTail_same (s u : State) (e : OrderEntry) (es : List OrderEntry)
    (ih : ∀ s : State, (s.takeEntries es).pending = s.pending ∧ (s.takeEntries es).mem = s.mem)
    (h : u.pending = s.pending ∧ u.mem = s.mem) :
    (if e.oseq = u.hrn.ordSeen % 2 ^ 32 then (u.takeEntry e).takeEntries es else u).pending = s.pending ∧
    (if e.oseq = u.hrn.ordSeen % 2 ^ 32 then (u.takeEntry e).takeEntries es else u).mem = s.mem :=
  ⟨by rw [State.pending_ite, (ih _).1, (State.takeEntry_same _ _).1, h.1, ite_self],
   by rw [State.mem_ite, (ih _).2, (State.takeEntry_same _ _).2, h.2, ite_self]⟩

@[simp] theorem State.takeEntries_same (s : State) (es : List OrderEntry) :
    (s.takeEntries es).pending = s.pending ∧ (s.takeEntries es).mem = s.mem := by
  induction es generalizing s with
  | nil => exact ⟨rfl, rfl⟩
  | cons e es ih => exact State.takeTail_same s _ e es ih ⟨by rw [State.pending_ite]; exact ite_self _, by rw [State.mem_ite]; exact ite_self _⟩

theorem execOrderRx_same (x0) (s : State) : ∀ t, execOrderRx x0 s = .next t → (t).pending = s.pending ∧ (t).mem = s.mem := by
  intro t h; simp only [execOrderRx, Host.Outcome.next.injEq] at h; subst h
  apply State.onFlit_both; intros; constructor <;> ((try dsimp only); (repeat' split) <;> simp_all)

theorem execMirrorAckRx_same (x0) (x1) (s : State) :
    ∀ t, execMirrorAckRx x0 x1 s = .next t → (t).pending = s.pending ∧ (t).mem = s.mem := by
  intro t h; simp only [execMirrorAckRx, Host.Outcome.next.injEq] at h; subst h
  apply State.onFlit_both; intros; constructor <;> ((try dsimp only); (repeat' split) <;> simp_all)

theorem execSaddlebagRx_same (x0) (x1) (x2) (x3) (x4) (x5) (x6) (x7) (x8) (x9) (x10) (s : State) :
    ∀ t, execSaddlebagRx x0 x1 x2 x3 x4 x5 x6 x7 x8 x9 x10 s = .next t → (t).pending = s.pending ∧ (t).mem = s.mem := by
  intro t h; simp only [execSaddlebagRx, Host.Outcome.next.injEq] at h; subst h
  apply State.onFlit_both; intros; constructor <;> ((try dsimp only); (repeat' split) <;> simp_all)

theorem execDigestRx_same (x0) (s : State) : ∀ t, execDigestRx x0 s = .next t → (t).pending = s.pending ∧ (t).mem = s.mem := by
  intro t h; simp only [execDigestRx, Host.Outcome.next.injEq] at h; subst h
  apply State.onFlit_both; intros; constructor <;> ((try dsimp only); (repeat' split) <;> simp_all)

@[simp] theorem State.takePart_same (s : State) (x0) :
    (State.takePart s x0).pending = s.pending ∧ (State.takePart s x0).mem = s.mem := by
  constructor <;> (simp only [State.takePart]; (repeat' split) <;> simp_all)

theorem execStateRx_same (x0) (s : State) : ∀ t, execStateRx x0 s = .next t → (t).pending = s.pending ∧ (t).mem = s.mem := by
  intro t h; simp only [execStateRx, Host.Outcome.next.injEq] at h; subst h
  apply State.onFlit_both; intros; constructor <;> ((try dsimp only); (repeat' split) <;> simp_all)

@[simp] theorem State.discardTwin_same (s : State) :
    (State.discardTwin s).pending = s.pending ∧ (State.discardTwin s).mem = s.mem := by
  unfold State.discardTwin; constructor <;> simp

@[simp] theorem State.leavePair_same (s : State) : (State.leavePair s).pending = s.pending ∧ (State.leavePair s).mem = s.mem := by
  unfold State.leavePair; constructor <;> simp

@[simp] theorem State.cutOver_same (s : State) : (State.cutOver s).pending = s.pending ∧ (State.cutOver s).mem = s.mem := by
  unfold State.cutOver; constructor <;> simp

@[simp] theorem State.takeCinch_same (s : State) (x0) :
    (State.takeCinch s x0).pending = s.pending ∧ (State.takeCinch s x0).mem = s.mem := by
  unfold State.takeCinch; constructor <;> simp

@[simp] theorem State.keepControl_same (s : State) :
    (State.keepControl s).pending = s.pending ∧ (State.keepControl s).mem = s.mem := by
  unfold State.keepControl; constructor <;> simp

@[simp] theorem State.settleCheck_same (s : State) :
    (State.settleCheck s).pending = s.pending ∧ (State.settleCheck s).mem = s.mem := by
  constructor <;> (simp only [State.settleCheck]; (repeat' split) <;> simp_all)

theorem State.takeControl_connection (s : State) (n) (req) (psn va key) :
    (s.takeControl (.connection n req psn va key)).pending = s.pending ∧ (s.takeControl (.connection n req psn va key)).mem = s.mem := by
  constructor <;> (simp only [State.takeControl, State.when]; (repeat' split) <;> simp)

theorem State.takeControl_keyed (s : State) (n host spi) (okm) (sq rq msn) :
    (s.takeControl (.keyed n host spi okm sq rq msn)).pending = s.pending ∧ (s.takeControl (.keyed n host spi okm sq rq msn)).mem = s.mem := by
  constructor <;> (simp only [State.takeControl, State.when]; (repeat' split) <;> simp)

theorem State.takeControl_memberAck (s : State) (m) :
    (s.takeControl (.memberAck m)).pending = s.pending ∧ (s.takeControl (.memberAck m)).mem = s.mem := by
  constructor <;> (simp only [State.takeControl, State.when]; (repeat' split) <;> simp)

theorem State.takeControl_slotPg (s : State) (n) :
    (s.takeControl (.slotPg n)).pending = s.pending ∧ (s.takeControl (.slotPg n)).mem = s.mem := by
  constructor <;> (simp only [State.takeControl, State.when]; (repeat' split) <;> simp)

theorem State.takeControl_stepTime (s : State) (ns) :
    (s.takeControl (.stepTime ns)).pending = s.pending ∧ (s.takeControl (.stepTime ns)).mem = s.mem := by
  constructor <;> (simp only [State.takeControl, State.when]; (repeat' split) <;> simp)

theorem State.takeControl_joinStart (s : State) (e n) :
    (s.takeControl (.joinStart e n)).pending = s.pending ∧ (s.takeControl (.joinStart e n)).mem = s.mem := by
  constructor <;> (simp only [State.takeControl, State.when]; (repeat' split) <;> simp)

theorem State.takeControl_cutover (s : State)  :
    (s.takeControl (.cutover )).pending = s.pending ∧ (s.takeControl (.cutover )).mem = s.mem := by
  constructor <;> (simp only [State.takeControl, State.when]; (repeat' split) <;> simp)

theorem State.takeControl_demote (s : State)  :
    (s.takeControl (.demote )).pending = s.pending ∧ (s.takeControl (.demote )).mem = s.mem := by
  constructor <;> (simp only [State.takeControl, State.when]; (repeat' split) <;> simp)

theorem State.takeControl_leave (s : State)  :
    (s.takeControl (.leave )).pending = s.pending ∧ (s.takeControl (.leave )).mem = s.mem := by
  constructor <;> (simp only [State.takeControl, State.when]; (repeat' split) <;> simp)

theorem State.takeControl_left (s : State)  :
    (s.takeControl (.left )).pending = s.pending ∧ (s.takeControl (.left )).mem = s.mem := by
  constructor <;> (simp only [State.takeControl, State.when]; (repeat' split) <;> simp)

theorem State.takeControl_takeCinch (s : State) (y) :
    (s.takeControl (.takeCinch y)).pending = s.pending ∧ (s.takeControl (.takeCinch y)).mem = s.mem := by
  constructor <;> (simp only [State.takeControl, State.when]; (repeat' split) <;> simp)

theorem State.takeControl_cinchTaken (s : State)  :
    (s.takeControl (.cinchTaken )).pending = s.pending ∧ (s.takeControl (.cinchTaken )).mem = s.mem := by
  exact ⟨rfl, rfl⟩

theorem State.takeControl_restart (s : State)  :
    (s.takeControl (.restart )).pending = s.pending ∧ (s.takeControl (.restart )).mem = s.mem := by
  constructor <;> (simp only [State.takeControl, State.when]; (repeat' split) <;> simp)

theorem State.takeControl_yielded (s : State)  :
    (s.takeControl (.yielded )).pending = s.pending ∧ (s.takeControl (.yielded )).mem = s.mem := by
  constructor <;> (simp only [State.takeControl, State.when]; (repeat' split) <;> simp)

theorem State.takeControl_taken (s : State) (op) :
    (s.takeControl (.taken op)).pending = s.pending ∧ (s.takeControl (.taken op)).mem = s.mem := by
  constructor <;> (simp only [State.takeControl, State.when]; (repeat' split) <;> simp)

theorem State.takeControl_selfCheck (s : State) (w c o) :
    (s.takeControl (.selfCheck w c o)).pending = s.pending ∧ (s.takeControl (.selfCheck w c o)).mem = s.mem := by
  constructor <;> (simp only [State.takeControl, State.when]; (repeat' split) <;> simp)

theorem State.takeControl_verdict (s : State) (f) :
    (s.takeControl (.verdict f)).pending = s.pending ∧ (s.takeControl (.verdict f)).mem = s.mem := by
  constructor <;> (simp only [State.takeControl, State.when]; (repeat' split) <;> simp)

theorem State.takeControl_event (s : State) (n) (d) :
    (s.takeControl (.event n d)).pending = s.pending ∧ (s.takeControl (.event n d)).mem = s.mem := by
  constructor <;> (simp only [State.takeControl, State.when]; (repeat' split) <;> simp)

theorem State.takeControl_change (s : State) (m : ControlMsg) :
    (s.when s.follows fun s => s.takeChange m).pending = s.pending ∧ (s.when s.follows fun s => s.takeChange m).mem = s.mem :=
  ⟨State.when_pending _ _ _ fun u => by simp, State.when_mem _ _ _ fun u => by simp⟩

@[simp] theorem State.takeControl_same (s : State) (m : ControlMsg) :
    (s.takeControl m).pending = s.pending ∧ (s.takeControl m).mem = s.mem := by
  cases m
  · exact State.takeControl_change s _
  · exact State.takeControl_connection s _ _ _ _ _
  · exact State.takeControl_keyed s _ _ _ _ _ _ _
  · exact State.takeControl_change s _
  · exact State.takeControl_change s _
  · exact State.takeControl_change s _
  · exact State.takeControl_memberAck s _
  · exact State.takeControl_change s _
  · exact State.takeControl_slotPg s _
  · exact State.takeControl_change s _
  · exact State.takeControl_change s _
  · exact State.takeControl_change s _
  · exact State.takeControl_change s _
  · exact State.takeControl_change s _
  · exact State.takeControl_change s _
  · exact State.takeControl_change s _
  · exact State.takeControl_change s _
  · exact State.takeControl_stepTime s _
  · exact State.takeControl_joinStart s _ _
  · exact State.takeControl_cutover s
  · exact State.takeControl_demote s
  · exact State.takeControl_leave s
  · exact State.takeControl_left s
  · exact State.takeControl_takeCinch s _
  · exact State.takeControl_cinchTaken s
  · exact State.takeControl_restart s
  · exact State.takeControl_yielded s
  · exact State.takeControl_selfCheck s _ _ _
  · exact State.takeControl_verdict s _
  · exact State.takeControl_taken s _
  · exact State.takeControl_event s _ _

theorem execControlRx_same (x0) (s : State) : ∀ t, execControlRx x0 s = .next t → (t).pending = s.pending ∧ (t).mem = s.mem := by
  intro t h; simp only [execControlRx, Host.Outcome.next.injEq] at h; subst h
  apply State.onFlit_both; intros; constructor <;> ((try dsimp only); (repeat' split) <;> simp_all)

end Sys2Proof.Machine
end

