-- ==== Sys2Proof/Laws/FrameTrust.lean ====
section
/-! SUPPORT. Frames of the definitions of Claim, Trust, Power: each leaves the queue of commands as it is, and memory as it is or in
its canonical form. -/
set_option maxRecDepth 8000
set_option Elab.async false
set_option linter.all false
namespace Sys2Proof.Machine

@[simp] theorem State.compareWindow_same (s : State) (x0) :
    (State.compareWindow s x0).pending = s.pending ∧ (State.compareWindow s x0).mem = s.mem := by
  constructor <;> (simp only [State.compareWindow]; (repeat' split) <;> simp_all)

theorem execDigestWindowCompare_same (s : State) :
    ∀ t, execDigestWindowCompare s = .next t → (t).pending = s.pending ∧ (t).mem = s.mem := by
  intro t h; simp only [execDigestWindowCompare, State.when, State.pathFault, Host.Outcome.next.injEq] at h; subst h; constructor <;> ((repeat' split) <;> simp)

theorem execDigWaitExpire_same (s : State) : ∀ t, execDigWaitExpire s = .next t → (t).pending = s.pending ∧ (t).mem = s.mem := by
  intro t h; simp only [execDigWaitExpire, State.when, State.pathFault, Host.Outcome.next.injEq] at h; subst h; constructor <;> ((repeat' split) <;> simp)

theorem execSelfCheckVerdict_same (x0) (x1) (s : State) :
    ∀ t, execSelfCheckVerdict x0 x1 s = .next t → (t).pending = s.pending ∧ (t).mem = s.mem := by
  intro t h; simp only [execSelfCheckVerdict, State.when, State.pathFault, Host.Outcome.next.injEq] at h; subst h; constructor <;> ((repeat' split) <;> simp)

theorem execSilenceDeclare_same (s : State) : ∀ t, execSilenceDeclare s = .next t → (t).pending = s.pending ∧ (t).mem = s.mem := by
  intro t h; simp only [execSilenceDeclare, Host.Outcome.next.injEq] at h; subst h; constructor <;> simp [State.when]

@[simp] theorem State.startArb_same (s : State) (x0) :
    (State.startArb s x0).pending = s.pending ∧ (State.startArb s x0).mem = s.mem := by
  unfold State.startArb; constructor <;> simp

theorem execArbitrationStart_same (s : State) :
    ∀ t, execArbitrationStart s = .next t → (t).pending = s.pending ∧ (t).mem = s.mem := by
  intro t h; simp only [execArbitrationStart, State.when, State.pathFault, Host.Outcome.next.injEq] at h; subst h; constructor <;> ((repeat' split) <;> simp)

@[simp] theorem State.claimReport_same (s : State) (x0) (x1) (x2) (x3) (x4) :
    (State.claimReport s x0 x1 x2 x3 x4).pending = s.pending ∧ (State.claimReport s x0 x1 x2 x3 x4).mem = s.mem := by
  constructor <;> (simp only [State.claimReport]; (repeat' split) <;> simp_all)

@[simp] theorem State.noteEpoch_same (s : State) (x0) :
    (State.noteEpoch s x0).pending = s.pending ∧ (State.noteEpoch s x0).mem = s.mem := by
  constructor <;> (simp only [State.noteEpoch]; (repeat' split) <;> simp_all)

@[simp] theorem State.roundResult_same (s : State) (x0) (x1) (x2) :
    (State.roundResult s x0 x1 x2).pending = s.pending ∧ (State.roundResult s x0 x1 x2).mem = s.mem := by
  constructor <;> (simp only [State.roundResult]; (repeat' split) <;> simp_all)

@[simp] theorem State.retakeResult_same (s : State) (x0) (x1) :
    (State.retakeResult s x0 x1).pending = s.pending ∧ (State.retakeResult s x0 x1).mem = s.mem := by
  constructor <;> (simp only [State.retakeResult]; (repeat' split) <;> simp_all)

theorem execCinchMemberResult_same (x0) (x1) (s : State) :
    ∀ t, execCinchMemberResult x0 x1 s = .next t → (t).pending = s.pending ∧ (t).mem = s.mem := by
  intro t h; simp only [execCinchMemberResult, State.when, State.pathFault, Host.Outcome.next.injEq] at h; subst h; constructor <;> ((repeat' split) <;> simp)

theorem execArbCmdTmoExpire_same (x0) (s : State) :
    ∀ t, execArbCmdTmoExpire x0 s = .next t → (t).pending = s.pending ∧ (t).mem = s.mem := by
  intro t h; simp only [execArbCmdTmoExpire, State.when, State.pathFault, Host.Outcome.next.injEq] at h; subst h; constructor <;> ((repeat' split) <;> simp)

@[simp] theorem State.noQuorum_same (s : State) : (State.noQuorum s).pending = s.pending ∧ (State.noQuorum s).mem = s.mem := by
  unfold State.noQuorum; constructor <;> simp

theorem execArbitrationDecided_same (s : State) :
    ∀ t, execArbitrationDecided s = .next t → (t).pending = s.pending ∧ (t).mem = s.mem := by
  intro t h; simp only [execArbitrationDecided, State.when, State.pathFault, Host.Outcome.next.injEq] at h; subst h; constructor <;> ((repeat' split) <;> simp)

theorem execArbRetryExpire_same (s : State) : ∀ t, execArbRetryExpire s = .next t → (t).pending = s.pending ∧ (t).mem = s.mem := by
  intro t h; simp only [execArbRetryExpire, State.when, State.pathFault, Host.Outcome.next.injEq] at h; subst h; constructor <;> ((repeat' split) <;> simp)

@[simp] theorem State.setHolder_same (s : State) : (State.setHolder s).pending = s.pending ∧ (State.setHolder s).mem = s.mem := by
  unfold State.setHolder; constructor <;> simp

@[simp] theorem State.winAlone_same (s : State) (x0) :
    (State.winAlone s x0).pending = s.pending ∧ (State.winAlone s x0).mem = s.mem := by
  unfold State.winAlone; constructor <;> simp

@[simp] theorem State.roundLeads_same (s : State) (x0) :
    (State.roundLeads s x0).pending = s.pending ∧ (State.roundLeads s x0).mem = s.mem := by
  constructor <;> (simp only [State.roundLeads]; (repeat' split) <;> simp_all)

@[simp] theorem State.loseMissing_same (s : State) :
    (State.loseMissing s).pending = s.pending ∧ (State.loseMissing s).mem = s.mem := by
  unfold State.loseMissing; constructor <;> simp

theorem execClaimRoundDone_same (s : State) : ∀ t, execClaimRoundDone s = .next t → (t).pending = s.pending ∧ (t).mem = s.mem := by
  intro t h; simp only [execClaimRoundDone, State.when, State.pathFault, Host.Outcome.next.injEq] at h; subst h; constructor <;> ((repeat' split) <;> simp)

theorem execClaimLost_same (x0) (s : State) : ∀ t, execClaimLost x0 s = .next t → (t).pending = s.pending ∧ (t).mem = s.mem := by
  intro t h; simp only [execClaimLost, Host.Outcome.next.injEq] at h; subst h; constructor <;> simp [State.when]

theorem execClaimLinkWaitExpire_same (s : State) :
    ∀ t, execClaimLinkWaitExpire s = .next t → (t).pending = s.pending ∧ (t).mem = s.mem := by
  intro t h; simp only [execClaimLinkWaitExpire, State.when, State.pathFault, Host.Outcome.next.injEq] at h; subst h; constructor <;> ((repeat' split) <;> simp)

theorem execHrnClaimWrite_same (x0) (s : State) :
    ∀ t, execHrnClaimWrite x0 s = .next t → (t).pending = s.pending ∧ (t).mem = s.mem := by
  intro t h; simp only [execHrnClaimWrite, Host.Outcome.next.injEq] at h; subst h; constructor <;> simp [State.when]

theorem execPair_same (x0) (s : State) : ∀ t, execPair x0 s = .next t → (t).pending = s.pending ∧ (t).mem = s.mem := by
  intro t h; simp only [execPair, Host.Outcome.next.injEq] at h; subst h
  apply State.runPlain_both; intros; constructor <;> ((try dsimp only); (repeat' split) <;> simp_all)

theorem execJoinCutover_same (s : State) : ∀ t, execJoinCutover s = .next t → (t).pending = s.pending ∧ (t).mem = s.mem := by
  intro t h; simp only [execJoinCutover, State.when, State.pathFault, Host.Outcome.next.injEq] at h; subst h; constructor <;> ((repeat' split) <;> simp)

theorem execRoleSwap_same (x0) (s : State) : ∀ t, execRoleSwap x0 s = .next t → (t).pending = s.pending ∧ (t).mem = s.mem := by
  intro t h; simp only [execRoleSwap, Host.Outcome.next.injEq] at h; subst h
  apply State.runPlain_both; intros; constructor <;> ((try dsimp only); (repeat' split) <;> simp_all)

theorem execSwapQuiesced_same (s : State) : ∀ t, execSwapQuiesced s = .next t → (t).pending = s.pending ∧ (t).mem = s.mem := by
  intro t h; simp only [execSwapQuiesced, State.when, State.pathFault, Host.Outcome.next.injEq] at h; subst h; constructor <;> ((repeat' split) <;> simp)

theorem execHandover_same (s : State) :
    ∀ t, execHandover s = .next t → (t).pending = s.pending ∧ (Memory.wf s.mem = true → Memory.wf (t).mem = true) := by
  intro t h; simp only [execHandover, State.when, State.pathFault, Host.Outcome.next.injEq] at h; subst h; constructor
  · (repeat' split) <;> simp_all
  · intro hw; (repeat' split) <;> simp_all

theorem execLeavePair_same (x0) (s : State) : ∀ t, execLeavePair x0 s = .next t → (t).pending = s.pending ∧ (t).mem = s.mem := by
  intro t h; simp only [execLeavePair, Host.Outcome.next.injEq] at h; subst h
  apply State.runPlain_both; intros; constructor <;> ((try dsimp only); (repeat' split) <;> simp_all)

theorem execSetEgressPolicy_same (x0) (s : State) :
    ∀ t, execSetEgressPolicy x0 s = .next t → (t).pending = s.pending ∧ (t).mem = s.mem := by
  intro t h; simp only [execSetEgressPolicy, Host.Outcome.next.injEq] at h; subst h
  apply State.runPlain_both; intros; constructor <;> ((try dsimp only); (repeat' split) <;> simp_all)

theorem execXptEnable_same (x0) (s : State) : ∀ t, execXptEnable x0 s = .next t → (t).pending = s.pending ∧ (t).mem = s.mem := by
  intro t h; simp only [execXptEnable, Host.Outcome.next.injEq] at h; subst h; constructor <;> simp [State.when]

theorem execSend_same (x0) (x1) (x2) (s : State) :
    ∀ t, execSend x0 x1 x2 s = .next t → (t).pending = s.pending ∧ (t).mem = s.mem := by
  intro t h; simp only [execSend, State.when, State.pathFault, Host.Outcome.next.injEq] at h; subst h; constructor <;> ((repeat' split) <;> simp)

@[simp] theorem State.closeHost_same (s : State) (x0) :
    (State.closeHost s x0).pending = s.pending ∧ (State.closeHost s x0).mem = s.mem := by
  unfold State.closeHost; constructor <;> simp

theorem execEnrolHost_same (x0) (s : State) : ∀ t, execEnrolHost x0 s = .next t → (t).pending = s.pending ∧ (t).mem = s.mem := by
  intro t h; simp only [execEnrolHost, Host.Outcome.next.injEq] at h; subst h
  apply State.runMgmt_both; intros; constructor <;> ((try dsimp only); (repeat' split) <;> simp_all)

theorem execGrantNamespace_same (x0) (s : State) :
    ∀ t, execGrantNamespace x0 s = .next t → (t).pending = s.pending ∧ (t).mem = s.mem := by
  intro t h; simp only [execGrantNamespace, Host.Outcome.next.injEq] at h; subst h
  apply State.runMgmt_both; intros; constructor <;> ((try dsimp only); (repeat' split) <;> simp_all)

theorem execRevokeGrant_same (x0) (s : State) :
    ∀ t, execRevokeGrant x0 s = .next t → (t).pending = s.pending ∧ (t).mem = s.mem := by
  intro t h; simp only [execRevokeGrant, Host.Outcome.next.injEq] at h; subst h
  apply State.runMgmt_both; intros; constructor <;> ((try dsimp only); (repeat' split) <;> simp_all)

theorem execRotateDataKey_same (x0) (s : State) :
    ∀ t, execRotateDataKey x0 s = .next t → (t).pending = s.pending ∧ (t).mem = s.mem := by
  intro t h; simp only [execRotateDataKey, Host.Outcome.next.injEq] at h; subst h
  apply State.runMgmt_both; intros; constructor <;> ((try dsimp only); (repeat' split) <;> simp_all)

@[simp] theorem State.resealBlock_same (s : State) (x0) (x1) (x2) :
    (State.resealBlock s x0 x1 x2).pending = s.pending ∧ (State.resealBlock s x0 x1 x2).mem = s.mem := by
  constructor <;> (simp only [State.resealBlock]; (repeat' split) <;> grind [State.countOpened_same, State.takeCtrs_same, State.showBufs_same])

theorem execResealExtent_same (x0) (x1) (x2) (s : State) :
    ∀ t, execResealExtent x0 x1 x2 s = .next t → (t).pending = s.pending ∧ (t).mem = s.mem := by
  intro t h; simp only [execResealExtent, State.when, State.pathFault, Host.Outcome.next.injEq] at h; subst h; constructor <;> ((repeat' split) <;> simp)

theorem execResealDone_same (x0) (s : State) : ∀ t, execResealDone x0 s = .next t → (t).pending = s.pending ∧ (t).mem = s.mem := by
  intro t h; simp only [execResealDone, State.when, State.pathFault, Host.Outcome.next.injEq] at h; subst h; constructor <;> ((repeat' split) <;> simp)

theorem execImportDataKey_same (x0) (x1) (s : State) :
    ∀ t, execImportDataKey x0 x1 s = .next t → (t).pending = s.pending ∧ (t).mem = s.mem := by
  intro t h; simp only [execImportDataKey, Host.Outcome.next.injEq] at h; subst h
  apply State.runMgmt_both; intros; constructor <;> ((try dsimp only); (repeat' split) <;> simp_all)

theorem execDestroyDataKey_same (x0) (s : State) :
    ∀ t, execDestroyDataKey x0 s = .next t → (t).pending = s.pending ∧ (t).mem = s.mem := by
  intro t h; simp only [execDestroyDataKey, Host.Outcome.next.injEq] at h; subst h
  apply State.runMgmt_both; intros; constructor <;> ((try dsimp only); (repeat' split) <;> simp_all)

theorem execEnrolAdministrator_same (x0) (s : State) :
    ∀ t, execEnrolAdministrator x0 s = .next t → (t).pending = s.pending ∧ (t).mem = s.mem := by
  intro t h; simp only [execEnrolAdministrator, Host.Outcome.next.injEq] at h; subst h
  apply State.runMgmt_both; intros; constructor <;> ((try dsimp only); (repeat' split) <;> simp_all)

theorem execRevokeAdministrator_same (x0) (s : State) :
    ∀ t, execRevokeAdministrator x0 s = .next t → (t).pending = s.pending ∧ (t).mem = s.mem := by
  intro t h; simp only [execRevokeAdministrator, Host.Outcome.next.injEq] at h; subst h
  apply State.runMgmt_both; intros; constructor <;> ((try dsimp only); (repeat' split) <;> simp_all)

@[simp] theorem State.addLock_same (s : State) (x0) :
    (State.addLock s x0).pending = s.pending ∧ (State.addLock s x0).mem = s.mem := by
  unfold State.addLock; constructor <;> simp

theorem execSetRetention_same (x0) (s : State) :
    ∀ t, execSetRetention x0 s = .next t → (t).pending = s.pending ∧ (t).mem = s.mem := by
  intro t h; simp only [execSetRetention, Host.Outcome.next.injEq] at h; subst h
  apply State.runMgmt_both; intros; constructor <;> ((try dsimp only); (repeat' split) <;> simp_all)

theorem execRetentionLockExpire_same (x0) (s : State) :
    ∀ t, execRetentionLockExpire x0 s = .next t → (t).pending = s.pending ∧ (t).mem = s.mem := by
  intro t h; simp only [execRetentionLockExpire, Host.Outcome.next.injEq] at h; subst h; constructor <;> simp [State.when]

@[simp] theorem State.reviewLocks_same (s : State) :
    (State.reviewLocks s).pending = s.pending ∧ (State.reviewLocks s).mem = s.mem := by
  unfold State.reviewLocks; constructor <;> simp

theorem execRetentionReview_same (s : State) :
    ∀ t, execRetentionReview s = .next t → (t).pending = s.pending ∧ (t).mem = s.mem := by
  intro t h; simp only [execRetentionReview, Host.Outcome.next.injEq] at h; subst h; constructor <;> simp [State.when]

theorem execFloorSave_same (s : State) : ∀ t, execFloorSave s = .next t → (t).pending = s.pending ∧ (t).mem = s.mem := by
  intro t h; simp only [execFloorSave, Host.Outcome.next.injEq] at h; subst h; constructor <;> simp [State.when]

@[simp] theorem State.setOther_same (s : State) (x0) :
    (State.setOther s x0).pending = s.pending ∧ (State.setOther s x0).mem = s.mem := by
  unfold State.setOther; constructor <;> simp

theorem execLoadFirmwareImage_same (x0) (x1) (s : State) :
    ∀ t, execLoadFirmwareImage x0 x1 s = .next t → (t).pending = s.pending ∧ (t).mem = s.mem := by
  intro t h; simp only [execLoadFirmwareImage, Host.Outcome.next.injEq] at h; subst h
  apply State.runMgmt_both; intros; constructor <;> ((try dsimp only); (repeat' split) <;> simp_all)

theorem execActivateFirmware_same (x0) (x1) (s : State) :
    ∀ t, execActivateFirmware x0 x1 s = .next t → (t).pending = s.pending ∧ (t).mem = s.mem := by
  intro t h; simp only [execActivateFirmware, Host.Outcome.next.injEq] at h; subst h
  apply State.runMgmt_both; intros; constructor <;> ((try dsimp only); (repeat' split) <;> simp_all)

@[simp] theorem State.tellActivation_same (s : State) :
    (State.tellActivation s).pending = s.pending ∧ (State.tellActivation s).mem = s.mem := by
  unfold State.tellActivation; constructor <;> simp

@[simp] theorem State.afterRecord_same (s : State) :
    (State.afterRecord s).pending = s.pending ∧ (Memory.wf s.mem = true → Memory.wf (State.afterRecord s).mem = true) := by
  unfold State.afterRecord; dsimp only; constructor
  · (repeat' split) <;> simp_all
  · intro hw; (repeat' split) <;> simp_all

theorem execSoakComplete_same (s : State) : ∀ t, execSoakComplete s = .next t → (t).pending = s.pending ∧ (t).mem = s.mem := by
  intro t h; simp only [execSoakComplete, Host.Outcome.next.injEq] at h; subst h; constructor <;> simp [State.when]

theorem execDrbgReseed_same (s : State) : ∀ t, execDrbgReseed s = .next t → (t).pending = s.pending ∧ (t).mem = s.mem := by
  intro t h; simp only [execDrbgReseed, Host.Outcome.next.injEq] at h; subst h; constructor <;> simp [State.when]

theorem execSecSramEcc_same (s : State) : ∀ t, execSecSramEcc s = .next t → (t).pending = s.pending ∧ (t).mem = s.mem := by
  intro t h; simp only [execSecSramEcc, Host.Outcome.next.injEq] at h; subst h; constructor <;> simp [State.when]

theorem execRecordBankErased_same (s : State) :
    ∀ t, execRecordBankErased s = .next t → (t).pending = s.pending ∧ (t).mem = s.mem := by
  intro t h; simp only [execRecordBankErased, State.when, State.pathFault, Host.Outcome.next.injEq] at h; subst h; constructor <;> ((repeat' split) <;> simp)

theorem execEnrolExtensionKey_same (x0) (x1) (x2) (s : State) :
    ∀ t, execEnrolExtensionKey x0 x1 x2 s = .next t → (t).pending = s.pending ∧ (t).mem = s.mem := by
  intro t h; simp only [execEnrolExtensionKey, Host.Outcome.next.injEq] at h; subst h
  apply State.runMgmt_both; intros; constructor <;> ((try dsimp only); (repeat' split) <;> simp_all)

@[simp] theorem State.takeExt_same (s : State) :
    (State.takeExt s).pending = s.pending ∧ (Memory.wf s.mem = true → Memory.wf (State.takeExt s).mem = true) := by
  unfold State.takeExt; dsimp only; constructor
  · (repeat' split) <;> simp_all
  · intro hw; (repeat' split) <;> simp_all

@[simp] theorem State.acceptExt_same (s : State) (x0) (x1) :
    (State.acceptExt s x0 x1).pending = s.pending ∧ (Memory.wf s.mem = true → Memory.wf (State.acceptExt s x0 x1).mem = true) := by
  unfold State.acceptExt; dsimp only; constructor
  · (repeat' split) <;> simp_all
  · intro hw; (repeat' split) <;> simp_all

@[simp] theorem State.rejectExt_same (s : State) (x0) (x1) (x2) :
    (State.rejectExt s x0 x1 x2).pending = s.pending ∧ (State.rejectExt s x0 x1 x2).mem = s.mem := by
  unfold State.rejectExt; constructor <;> simp

theorem execLoadExtension_same (x0) (x1) (s : State) :
    ∀ t, execLoadExtension x0 x1 s = .next t → (t).pending = s.pending ∧ (Memory.wf s.mem = true → Memory.wf (t).mem = true) := by
  intro t h; simp only [execLoadExtension, Host.Outcome.next.injEq] at h; subst h
  apply State.runMgmt_wfs; intro c u; constructor
  · (try dsimp only); (repeat' split) <;> simp_all
  · intro hw; (try dsimp only); (repeat' split) <;> simp_all

@[simp] theorem State.answerSpdm_same (s : State) (x0) :
    (State.answerSpdm s x0).pending = s.pending ∧ (State.answerSpdm s x0).mem = s.mem := by
  unfold State.answerSpdm; constructor <;> simp

theorem execSpdmGetVersion_same (s : State) : ∀ t, execSpdmGetVersion s = .next t → (t).pending = s.pending ∧ (t).mem = s.mem := by
  intro t h; simp only [execSpdmGetVersion, Host.Outcome.next.injEq] at h; subst h; constructor <;> simp [State.when]

theorem execSpdmGetCapabilities_same (s : State) :
    ∀ t, execSpdmGetCapabilities s = .next t → (t).pending = s.pending ∧ (t).mem = s.mem := by
  intro t h; simp only [execSpdmGetCapabilities, Host.Outcome.next.injEq] at h; subst h; constructor <;> simp [State.when]

theorem execSpdmNegotiateAlgorithms_same (s : State) :
    ∀ t, execSpdmNegotiateAlgorithms s = .next t → (t).pending = s.pending ∧ (t).mem = s.mem := by
  intro t h; simp only [execSpdmNegotiateAlgorithms, Host.Outcome.next.injEq] at h; subst h; constructor <;> simp [State.when]

theorem execSpdmGetDigests_same (s : State) : ∀ t, execSpdmGetDigests s = .next t → (t).pending = s.pending ∧ (t).mem = s.mem := by
  intro t h; simp only [execSpdmGetDigests, Host.Outcome.next.injEq] at h; subst h; constructor <;> simp [State.when]

theorem execSpdmGetCertificate_same (x0) (x1) (x2) (s : State) :
    ∀ t, execSpdmGetCertificate x0 x1 x2 s = .next t → (t).pending = s.pending ∧ (t).mem = s.mem := by
  intro t h; simp only [execSpdmGetCertificate, Host.Outcome.next.injEq] at h; subst h; constructor <;> simp [State.when]

theorem execSpdmChallenge_same (x0) (s : State) :
    ∀ t, execSpdmChallenge x0 s = .next t → (t).pending = s.pending ∧ (t).mem = s.mem := by
  intro t h; simp only [execSpdmChallenge, Host.Outcome.next.injEq] at h; subst h; constructor <;> simp [State.when]

theorem execSpdmGetMeasurements_same (x0) (x1) (s : State) :
    ∀ t, execSpdmGetMeasurements x0 x1 s = .next t → (t).pending = s.pending ∧ (t).mem = s.mem := by
  intro t h; simp only [execSpdmGetMeasurements, Host.Outcome.next.injEq] at h; subst h; constructor <;> simp [State.when]

@[simp] theorem State.dropRegs_same (s : State) (x0) (x1) :
    (State.dropRegs s x0 x1).pending = s.pending ∧ (State.dropRegs s x0 x1).mem = s.mem := by
  unfold State.dropRegs; constructor <;> simp

@[simp] theorem State.dropPorts_same (s : State) (x0) (x1) :
    (State.dropPorts s x0 x1).pending = s.pending ∧ (State.dropPorts s x0 x1).mem = s.mem := by
  unfold State.dropPorts; constructor <;> simp

@[simp] theorem State.restartClusters_same (s : State) (x0) :
    (State.restartClusters s x0).pending = s.pending ∧ (Memory.wf s.mem = true → Memory.wf (State.restartClusters s x0).mem = true) := by
  unfold State.restartClusters; dsimp only; constructor
  · (repeat' split) <;> simp_all
  · intro hw; (repeat' split) <;> simp_all

@[simp] theorem State.domReset_same (s : State) (x0) :
    (State.domReset s x0).pending = s.pending ∧ (Memory.wf s.mem = true → Memory.wf (State.domReset s x0).mem = true) := by
  unfold State.domReset; dsimp only; constructor
  · (repeat' split) <;> simp_all
  · intro hw; (repeat' split) <;> simp_all

@[simp] theorem State.domOff_same (s : State) (x0) : (State.domOff s x0).pending = s.pending ∧ (State.domOff s x0).mem = s.mem := by
  unfold State.domOff; constructor <;> simp

@[simp] theorem State.domOn_same (s : State) (x0) :
    (State.domOn s x0).pending = s.pending ∧ (Memory.wf s.mem = true → Memory.wf (State.domOn s x0).mem = true) := by
  unfold State.domOn; dsimp only; constructor
  · (repeat' split) <;> simp_all
  · intro hw; (repeat' split) <;> simp_all

@[simp] theorem State.domApply_same (s : State) (d : Nat) :
    (s.domApply d).pending = s.pending ∧ (Memory.wf s.mem = true → Memory.wf (s.domApply d).mem = true) := by
  unfold State.domApply
  split
  · exact State.domOn_same s d
  · exact ⟨(State.domOff_same s d).1, fun hw => by rw [(State.domOff_same s d).2]; exact hw⟩

@[simp] theorem State.gateClock_same (s : State) (x0) :
    (State.gateClock s x0).pending = s.pending ∧ (State.gateClock s x0).mem = s.mem := by
  unfold State.gateClock; constructor <;> simp

@[simp] theorem State.ungateClock_same (s : State) (x0) :
    (State.ungateClock s x0).pending = s.pending ∧ (State.ungateClock s x0).mem = s.mem := by
  unfold State.ungateClock; constructor <;> simp

@[simp] theorem State.clockApply_same (s : State) (x0) :
    (State.clockApply s x0).pending = s.pending ∧ (State.clockApply s x0).mem = s.mem := by
  unfold State.clockApply; constructor <;> simp

theorem execClockGate_same (x0) (s : State) : ∀ t, execClockGate x0 s = .next t → (t).pending = s.pending ∧ (t).mem = s.mem := by
  intro t h; simp only [execClockGate, Host.Outcome.next.injEq] at h; subst h; constructor <;> simp [State.when]

theorem execDomainSwitchOff_same (x0) (s : State) :
    ∀ t, execDomainSwitchOff x0 s = .next t → (t).pending = s.pending ∧ (t).mem = s.mem := by
  intro t h; simp only [execDomainSwitchOff, Host.Outcome.next.injEq] at h; subst h; constructor <;> simp [State.when]

theorem State.same_ite {s t u : State} {c : Prop} [Decidable c] (h : t.pending = s.pending ∧ t.mem = s.mem)
    (k : u.pending = s.pending ∧ u.mem = s.mem) :
    (if c then t else u).pending = s.pending ∧ (if c then t else u).mem = s.mem := by
  split
  · exact h
  · exact k

theorem State.same_trans {s t u : State} (h : t.pending = s.pending ∧ t.mem = s.mem) (k : u.pending = t.pending ∧ u.mem = t.mem) :
    u.pending = s.pending ∧ u.mem = s.mem := ⟨k.1.trans h.1, k.2.trans h.2⟩

theorem State.kept_trans {s t u : State} (h : t.pending = s.pending ∧ (Memory.wf s.mem = true → Memory.wf t.mem = true))
    (k : u.pending = t.pending ∧ (Memory.wf t.mem = true → Memory.wf u.mem = true)) :
    u.pending = s.pending ∧ (Memory.wf s.mem = true → Memory.wf u.mem = true) := ⟨k.1.trans h.1, fun hw => k.2 (h.2 hw)⟩

theorem State.kept_of_same {s t : State} (h : t.pending = s.pending ∧ t.mem = s.mem) :
    t.pending = s.pending ∧ (Memory.wf s.mem = true → Memory.wf t.mem = true) := ⟨h.1, fun hw => by rw [h.2]; exact hw⟩

theorem State.kept_ite {s t u : State} {c : Prop} [Decidable c]
    (h : t.pending = s.pending ∧ (Memory.wf s.mem = true → Memory.wf t.mem = true))
    (k : u.pending = s.pending ∧ (Memory.wf s.mem = true → Memory.wf u.mem = true)) :
    (if c then t else u).pending = s.pending ∧ (Memory.wf s.mem = true → Memory.wf (if c then t else u).mem = true) := by
  split
  · exact h
  · exact k

theorem State.kept_foldl {α : Type} {g : State → α → State}
    (h : ∀ u a, (g u a).pending = u.pending ∧ (Memory.wf u.mem = true → Memory.wf (g u a).mem = true)) (l : List α) (s : State) :
    (l.foldl g s).pending = s.pending ∧ (Memory.wf s.mem = true → Memory.wf (l.foldl g s).mem = true) :=
  ⟨State.foldl_pending g (fun u a => (h u a).1) l s, State.foldl_wf g (fun u a => (h u a).2) l s⟩

@[simp] theorem State.toState_same (s : State) (st : DevState) :
    (s.toState st).pending = s.pending ∧ (Memory.wf s.mem = true → Memory.wf (s.toState st).mem = true) := by
  unfold State.toState
  refine State.kept_trans ?_ (State.kept_foldl (fun u a => State.kept_ite (State.kept_of_same (State.ungateClock_same u a)) ⟨rfl, id⟩) _ _)
  refine State.kept_trans ?_ (State.kept_foldl (fun u a => State.kept_ite ⟨rfl, id⟩ (State.kept_of_same (State.gateClock_same u a))) _ _)
  refine State.kept_trans ?_ (State.kept_foldl (fun u a => State.kept_ite (State.domOn_same u a) ⟨rfl, id⟩) _ _)
  refine State.kept_trans ?_ (State.kept_foldl (fun u a => State.kept_ite ⟨rfl, id⟩ (State.kept_of_same (State.domOff_same u a))) _ _)
  exact State.kept_of_same (State.raise_same _ _ _)

@[simp] theorem State.dropLinks_same (s : State) : (State.dropLinks s).pending = s.pending ∧ (State.dropLinks s).mem = s.mem := by
  unfold State.dropLinks; constructor <;> simp

@[simp] theorem State.trainPorts_same (s : State) :
    (State.trainPorts s).pending = s.pending ∧ (State.trainPorts s).mem = s.mem := by
  unfold State.trainPorts; constructor <;> simp

@[simp] theorem State.startFio_same (s : State) : (State.startFio s).pending = s.pending ∧ (State.startFio s).mem = s.mem := by
  unfold State.startFio; constructor <;> simp

@[simp] theorem State.moveClock_same (s : State) (x0) (x1) :
    (State.moveClock s x0 x1).pending = s.pending ∧ (State.moveClock s x0 x1).mem = s.mem := by
  unfold State.moveClock; constructor <;> simp

@[simp] theorem State.stopFio_same (s : State) : (State.stopFio s).pending = s.pending ∧ (State.stopFio s).mem = s.mem := by
  unfold State.stopFio; constructor <;> simp

@[simp] theorem State.reqWritten_same (s : State) (x0) :
    (State.reqWritten s x0).pending = s.pending ∧ (State.reqWritten s x0).mem = s.mem := by
  unfold State.reqWritten; constructor <;> simp

@[simp] theorem State.resumeHost_same (s : State) :
    (State.resumeHost s).pending = s.pending ∧ (State.resumeHost s).mem = s.mem := by
  unfold State.resumeHost; constructor <;> simp

theorem execPowerReqRun_same (s : State) :
    ∀ t, execPowerReqRun s = .next t → (t).pending = s.pending ∧ (Memory.wf s.mem = true → Memory.wf (t).mem = true) := by
  intro t h; simp only [execPowerReqRun, State.when, State.pathFault, Host.Outcome.next.injEq] at h; subst h; constructor
  · (repeat' split) <;> simp_all
  · intro hw; (repeat' split) <;> simp_all

theorem execPowerReqSleep_same (s : State) :
    ∀ t, execPowerReqSleep s = .next t → (t).pending = s.pending ∧ (Memory.wf s.mem = true → Memory.wf (t).mem = true) := by
  intro t h; simp only [execPowerReqSleep, State.when, State.pathFault, Host.Outcome.next.injEq] at h; subst h; constructor
  · (repeat' split) <;> simp_all
  · intro hw; (repeat' split) <;> simp_all

theorem execPowerReqDeep_same (s : State) :
    ∀ t, execPowerReqDeep s = .next t → (t).pending = s.pending ∧ (Memory.wf s.mem = true → Memory.wf (t).mem = true) := by
  intro t h; simp only [execPowerReqDeep, State.when, State.pathFault, Host.Outcome.next.injEq] at h; subst h; constructor
  · (repeat' split) <;> simp_all
  · intro hw; (repeat' split) <;> simp_all

@[simp] theorem State.yieldSelf_same (s : State) : (State.yieldSelf s).pending = s.pending ∧ (State.yieldSelf s).mem = s.mem := by
  constructor <;> (simp only [State.yieldSelf]; (repeat' split) <;> simp_all)

@[simp] theorem State.dropPartial_same (s : State) :
    (State.dropPartial s).pending = s.pending ∧ (State.dropPartial s).mem = s.mem := by
  unfold State.dropPartial; constructor <;> simp

@[simp] theorem State.drainActivation_same (s : State) :
    (State.drainActivation s).pending = s.pending ∧ (State.drainActivation s).mem = s.mem := by
  constructor <;> (simp only [State.drainActivation]; (repeat' split) <;> simp_all)

@[simp] theorem State.startFlush_same (s : State) :
    (State.startFlush s).pending = s.pending ∧ (State.startFlush s).mem = s.mem := by
  unfold State.startFlush; constructor <;> simp

@[simp] theorem State.enterDrain_same (s : State) :
    (State.enterDrain s).pending = s.pending ∧ (Memory.wf s.mem = true → Memory.wf (State.enterDrain s).mem = true) := by
  unfold State.enterDrain; dsimp only; constructor
  · (repeat' split) <;> simp_all
  · intro hw; (repeat' split) <;> simp_all

theorem execVinWarnAssert_same (x0) (x1) (s : State) :
    ∀ t, execVinWarnAssert x0 x1 s = .next t → (t).pending = s.pending ∧ (Memory.wf s.mem = true → Memory.wf (t).mem = true) := by
  intro t h; simp only [execVinWarnAssert, State.when, State.pathFault, Host.Outcome.next.injEq] at h; subst h; constructor
  · (repeat' split) <;> simp_all
  · intro hw; (repeat' split) <;> simp_all

theorem execDrainPeerCheck_same (s : State) : ∀ t, execDrainPeerCheck s = .next t → (t).pending = s.pending ∧ (t).mem = s.mem := by
  intro t h; simp only [execDrainPeerCheck, Host.Outcome.next.injEq] at h; subst h; constructor <;> simp [State.when]

theorem execDrainDestageDone_same (s : State) :
    ∀ t, execDrainDestageDone s = .next t → (t).pending = s.pending ∧ (t).mem = s.mem := by
  intro t h; simp only [execDrainDestageDone, Host.Outcome.next.injEq] at h; subst h; constructor <;> simp [State.when]

@[simp] theorem State.leaveDrain_same (s : State) :
    (State.leaveDrain s).pending = s.pending ∧ (Memory.wf s.mem = true → Memory.wf (State.leaveDrain s).mem = true) := by
  unfold State.leaveDrain; dsimp only; constructor
  · (repeat' split) <;> simp_all
  · intro hw; (repeat' split) <;> simp_all

theorem execDrainDone_same (s : State) :
    ∀ t, execDrainDone s = .next t → (t).pending = s.pending ∧ (Memory.wf s.mem = true → Memory.wf (t).mem = true) := by
  intro t h; simp only [execDrainDone, State.when, State.pathFault, Host.Outcome.next.injEq] at h; subst h; constructor
  · (repeat' split) <;> simp_all
  · intro hw; (repeat' split) <;> simp_all

theorem execVinWarnRelease_same (s : State) :
    ∀ t, execVinWarnRelease s = .next t → (t).pending = s.pending ∧ (Memory.wf s.mem = true → Memory.wf (t).mem = true) := by
  intro t h; simp only [execVinWarnRelease, State.when, State.pathFault, Host.Outcome.next.injEq] at h; subst h; constructor
  · (repeat' split) <;> simp_all
  · intro hw; (repeat' split) <;> simp_all

@[simp] theorem State.startSynea_same (s : State) :
    (State.startSynea s).pending = s.pending ∧ (Memory.wf s.mem = true → Memory.wf (State.startSynea s).mem = true) := by
  unfold State.startSynea; dsimp only; constructor
  · (repeat' split) <;> simp_all
  · intro hw; (repeat' split) <;> simp_all

theorem execSecurityRecordWritten_same (x0) (s : State) :
    ∀ t, execSecurityRecordWritten x0 s = .next t → (t).pending = s.pending ∧ (Memory.wf s.mem = true → Memory.wf (t).mem = true) := by
  intro t h; simp only [execSecurityRecordWritten, State.when, State.pathFault, Host.Outcome.next.injEq] at h; subst h; constructor
  · (repeat' split) <;> simp_all
  · intro hw; (repeat' split) <;> simp_all

theorem execVinDrop_same (s : State) :
    ∀ t, execVinDrop s = .next t → t.pending = s.pending ∧ (Memory.wf s.mem = true → Memory.wf t.mem = true) := by
  intro t h
  unfold execVinDrop State.when at h
  injection h with h
  subst h
  exact State.kept_ite ⟨rfl, fun _ => rfl⟩ ⟨rfl, id⟩

theorem execPowerUp_same (s : State) :
    ∀ t, execPowerUp s = .next t → t.pending = s.pending ∧ (Memory.wf s.mem = true → Memory.wf t.mem = true) := by
  intro t h
  unfold execPowerUp State.when at h
  injection h with h
  subst h
  exact State.kept_ite ⟨rfl, fun _ => rfl⟩ ⟨rfl, id⟩

@[simp] theorem State.cutDomains_same (s : State) (x0) :
    (State.cutDomains s x0).pending = s.pending ∧ (State.cutDomains s x0).mem = s.mem := by
  unfold State.cutDomains; constructor <;> simp

@[simp] theorem State.stopDead_same (s : State) : (State.stopDead s).pending = s.pending ∧ (State.stopDead s).mem = s.mem := by
  unfold State.stopDead; constructor <;> simp

theorem execRailFault_same (x0) (x1) (s : State) :
    ∀ t, execRailFault x0 x1 s = .next t → (t).pending = s.pending ∧ (t).mem = s.mem := by
  intro t h; simp only [execRailFault, Host.Outcome.next.injEq] at h; subst h; constructor <;> simp [State.when]

@[simp] theorem State.readTemp_same (s : State) (x0) :
    (State.readTemp s x0).pending = s.pending ∧ (State.readTemp s x0).mem = s.mem := by
  unfold State.readTemp; constructor <;> simp

theorem execThermalWarn_same (x0) (x1) (x2) (s : State) :
    ∀ t, execThermalWarn x0 x1 x2 s = .next t → (t).pending = s.pending ∧ (t).mem = s.mem := by
  intro t h; simp only [execThermalWarn, Host.Outcome.next.injEq] at h; subst h; constructor <;> simp [State.when]

theorem execThermalTrip_same (x0) (x1) (s : State) :
    ∀ t, execThermalTrip x0 x1 s = .next t → (t).pending = s.pending ∧ (t).mem = s.mem := by
  intro t h; simp only [execThermalTrip, Host.Outcome.next.injEq] at h; subst h; constructor <;> simp [State.when]

theorem execThermalResetStart_same (s : State) :
    ∀ t, execThermalResetStart s = .next t → (t).pending = s.pending ∧ (Memory.wf s.mem = true → Memory.wf (t).mem = true) := by
  intro t h; simp only [execThermalResetStart, State.when, State.pathFault, Host.Outcome.next.injEq] at h; subst h; constructor
  · (repeat' split) <;> simp_all
  · intro hw; (repeat' split) <;> simp_all

end Sys2Proof.Machine
end

