-- ==== Sys2Proof/Laws/FrameControl.lean ====
section
/-! SUPPORT. Frames of the definitions of Clocks, Control, Gates, Lookup: each leaves the queue of commands as it is, and memory as it is or in
its canonical form. -/
set_option maxRecDepth 8000
set_option Elab.async false
set_option linter.all false
namespace Sys2Proof.Machine

@[simp] theorem State.stopSerdes_same (s : State) :
    (State.stopSerdes s).pending = s.pending ∧ (State.stopSerdes s).mem = s.mem := by
  unfold State.stopSerdes; constructor <;> simp

@[simp] theorem State.toFio_same (s : State) (x0) : (State.toFio s x0).pending = s.pending ∧ (State.toFio s x0).mem = s.mem := by
  unfold State.toFio; constructor <;> simp

@[simp] theorem State.allToFio_same (s : State) (x0) :
    (State.allToFio s x0).pending = s.pending ∧ (State.allToFio s x0).mem = s.mem := by
  unfold State.allToFio; constructor <;> simp

@[simp] theorem State.fallbackYield_same (s : State) :
    (State.fallbackYield s).pending = s.pending ∧ (State.fallbackYield s).mem = s.mem := by
  unfold State.fallbackYield; constructor <;> simp

@[simp] theorem State.wakeFio_same (s : State) : (State.wakeFio s).pending = s.pending ∧ (State.wakeFio s).mem = s.mem := by
  unfold State.wakeFio; constructor <;> simp

@[simp] theorem State.trips_same (s : State) (x0) (x1) (x2) (x3) :
    (State.trips s x0 x1 x2 x3).pending = s.pending ∧ (State.trips s x0 x1 x2 x3).mem = s.mem := by
  unfold State.trips; constructor <;> simp

@[simp] theorem State.restartTree_same (s : State) :
    (State.restartTree s).pending = s.pending ∧ (State.restartTree s).mem = s.mem := by
  unfold State.restartTree; constructor <;> simp

@[simp] theorem State.loseXa_same (s : State) : (State.loseXa s).pending = s.pending ∧ (State.loseXa s).mem = s.mem := by
  unfold State.loseXa; constructor <;> simp

@[simp] theorem State.loseXb_same (s : State) : (State.loseXb s).pending = s.pending ∧ (State.loseXb s).mem = s.mem := by
  unfold State.loseXb; constructor <;> simp

theorem execXaTrip_same (x0) (x1) (s : State) : ∀ t, execXaTrip x0 x1 s = .next t → (t).pending = s.pending ∧ (t).mem = s.mem := by
  intro t h; simp only [execXaTrip, Host.Outcome.next.injEq] at h; subst h; constructor <;> simp [State.when]

theorem execXbTrip_same (x0) (x1) (s : State) : ∀ t, execXbTrip x0 x1 s = .next t → (t).pending = s.pending ∧ (t).mem = s.mem := by
  intro t h; simp only [execXbTrip, Host.Outcome.next.injEq] at h; subst h; constructor <;> simp [State.when]

theorem execPll6Relock_same (s : State) : ∀ t, execPll6Relock s = .next t → (t).pending = s.pending ∧ (t).mem = s.mem := by
  intro t h; simp only [execPll6Relock, Host.Outcome.next.injEq] at h; subst h; constructor <;> simp [State.when]

theorem execFioTrip_same (x0) (x1) (s : State) :
    ∀ t, execFioTrip x0 x1 s = .next t → (t).pending = s.pending ∧ (t).mem = s.mem := by
  intro t h; simp only [execFioTrip, Host.Outcome.next.injEq] at h; subst h; constructor <;> simp [State.when]

theorem execPllUnlock_same (x0) (s : State) : ∀ t, execPllUnlock x0 s = .next t → (t).pending = s.pending ∧ (t).mem = s.mem := by
  intro t h; simp only [execPllUnlock, Host.Outcome.next.injEq] at h; subst h; constructor <;> simp [State.when]

@[simp] theorem State.restartOnFio_same (s : State) (x0) :
    (State.restartOnFio s x0).pending = s.pending ∧ (State.restartOnFio s x0).mem = s.mem := by
  unfold State.restartOnFio; constructor <;> simp

theorem execFioReady_same (s : State) : ∀ t, execFioReady s = .next t → (t).pending = s.pending ∧ (t).mem = s.mem := by
  intro t h; simp only [execFioReady, State.when, State.pathFault, Host.Outcome.next.injEq] at h; subst h; constructor <;> ((repeat' split) <;> simp)

theorem execFioStartTimeout_same (s : State) :
    ∀ t, execFioStartTimeout s = .next t → t.pending = s.pending ∧ t.mem = s.mem := by
  intro t h
  unfold execFioStartTimeout State.when at h
  injection h with h
  subst h
  split
  · exact ⟨rfl, rfl⟩
  · refine State.same_ite ?_ ⟨rfl, rfl⟩
    refine State.same_trans ?_ (State.moveClock_same _ 0 2)
    refine State.same_trans ?_ ⟨State.foldl_pending _ (fun u a => (State.moveClock_same u a 3).1) _ _,
      State.foldl_mem _ (fun u a => (State.moveClock_same u a 3).2) _ _⟩
    exact State.same_trans (State.reach_same ..) (State.stopDead_same _)

@[simp] theorem State.treeStarted_same (s : State) :
    (State.treeStarted s).pending = s.pending ∧ (State.treeStarted s).mem = s.mem := by
  unfold State.treeStarted; constructor <;> simp

theorem execStartupPllLock_same (s : State) : ∀ t, execStartupPllLock s = .next t → (t).pending = s.pending ∧ (t).mem = s.mem := by
  intro t h; simp only [execStartupPllLock, Host.Outcome.next.injEq] at h; subst h; constructor <;> simp [State.when]

theorem execXtalTmoExpire_same (x0) (s : State) :
    ∀ t, execXtalTmoExpire x0 s = .next t → (t).pending = s.pending ∧ (t).mem = s.mem := by
  intro t h; simp only [execXtalTmoExpire, Host.Outcome.next.injEq] at h; subst h; constructor <;> simp [State.when]

@[simp] theorem State.replayOne_same (s : State) (x0) :
    (State.replayOne s x0).pending = s.pending ∧ (State.replayOne s x0).mem = s.mem := by
  unfold State.replayOne; constructor <;> simp

@[simp] theorem State.endReplay_same (s : State) : (State.endReplay s).pending = s.pending ∧ (State.endReplay s).mem = s.mem := by
  unfold State.endReplay; constructor <;> simp

theorem execPowerUpReplay_same (x0) (x1) (x2) (x3) (s : State) :
    ∀ t, execPowerUpReplay x0 x1 x2 x3 s = .next t → (t).pending = s.pending ∧ (t).mem = s.mem := by
  intro t h; simp only [execPowerUpReplay, Host.Outcome.next.injEq] at h; subst h; constructor <;> simp [State.when]

theorem execIoReady_same (s : State) : ∀ t, execIoReady s = .next t → (t).pending = s.pending ∧ (t).mem = s.mem := by
  intro t h; simp only [execIoReady, Host.Outcome.next.injEq] at h; subst h; constructor <;> simp [State.when]

theorem execJoinHolderLost_same (s : State) : ∀ t, execJoinHolderLost s = .next t → (t).pending = s.pending ∧ (t).mem = s.mem := by
  intro t h; simp only [execJoinHolderLost, Host.Outcome.next.injEq] at h; subst h; constructor <;> simp [State.when]

@[simp] theorem State.settleSrc_same (s : State) (x0) :
    (State.settleSrc s x0).pending = s.pending ∧ (State.settleSrc s x0).mem = s.mem := by
  unfold State.settleSrc; constructor <;> simp

@[simp] theorem State.settleAll_same (s : State) : (State.settleAll s).pending = s.pending ∧ (State.settleAll s).mem = s.mem := by
  unfold State.settleAll; constructor <;> simp

@[simp] theorem State.unreserve_same (s : State) (x0) :
    (State.unreserve s x0).pending = s.pending ∧ (State.unreserve s x0).mem = s.mem := by
  unfold State.unreserve; constructor <;> simp

@[simp] theorem State.stopRing_same (s : State) (x0) :
    (State.stopRing s x0).pending = s.pending ∧ (State.stopRing s x0).mem = s.mem := by
  unfold State.stopRing; constructor <;> simp

@[simp] theorem State.writeCringCfg_same (s : State) (x0) :
    (State.writeCringCfg s x0).pending = s.pending ∧ (State.writeCringCfg s x0).mem = s.mem := by
  unfold State.writeCringCfg; constructor <;> simp

@[simp] theorem State.writeEringCfg_same (s : State) (x0) :
    (State.writeEringCfg s x0).pending = s.pending ∧ (State.writeEringCfg s x0).mem = s.mem := by
  unfold State.writeEringCfg; constructor <;> simp

@[simp] theorem State.writeRingCfg_same (s : State) (x0) :
    (State.writeRingCfg s x0).pending = s.pending ∧ (State.writeRingCfg s x0).mem = s.mem := by
  unfold State.writeRingCfg; constructor <;> simp

theorem execRingEnable_same (x0) (s : State) : ∀ t, execRingEnable x0 s = .next t → (t).pending = s.pending ∧ (t).mem = s.mem := by
  intro t h; simp only [execRingEnable, Host.Outcome.next.injEq] at h; subst h; constructor <;> simp [State.when]

theorem execRingDisable_same (x0) (s : State) :
    ∀ t, execRingDisable x0 s = .next t → (t).pending = s.pending ∧ (t).mem = s.mem := by
  intro t h; simp only [execRingDisable, Host.Outcome.next.injEq] at h; subst h; constructor <;> simp [State.when]

@[simp] theorem State.disableRings_same (s : State) :
    (State.disableRings s).pending = s.pending ∧ (State.disableRings s).mem = s.mem := by
  unfold State.disableRings; constructor <;> simp

theorem execCtlDisableAll_same (s : State) : ∀ t, execCtlDisableAll s = .next t → (t).pending = s.pending ∧ (t).mem = s.mem := by
  intro t h; simp only [execCtlDisableAll, Host.Outcome.next.injEq] at h; subst h; constructor <;> simp [State.when]

@[simp] theorem State.cdb_same (s : State) (x0) (x1) :
    (State.cdb s x0 x1).pending = s.pending ∧ (State.cdb s x0 x1).mem = s.mem := by
  unfold State.cdb; constructor <;> simp

@[simp] theorem State.edb_same (s : State) (x0) (x1) :
    (State.edb s x0 x1).pending = s.pending ∧ (State.edb s x0 x1).mem = s.mem := by
  unfold State.edb; constructor <;> simp

@[simp] theorem State.doorbell_same (s : State) (x0) (x1) (x2) :
    (State.doorbell s x0 x1 x2).pending = s.pending ∧ (State.doorbell s x0 x1 x2).mem = s.mem := by
  unfold State.doorbell; constructor <;> simp

theorem execCdbWrite_same (x0) (x1) (x2) (s : State) :
    ∀ t, execCdbWrite x0 x1 x2 s = .next t → (t).pending = s.pending ∧ (t).mem = s.mem := by
  intro t h; simp only [execCdbWrite, Host.Outcome.next.injEq] at h; subst h; constructor <;> simp [State.when]

theorem execEdbWrite_same (x0) (x1) (x2) (s : State) :
    ∀ t, execEdbWrite x0 x1 x2 s = .next t → (t).pending = s.pending ∧ (t).mem = s.mem := by
  intro t h; simp only [execEdbWrite, Host.Outcome.next.injEq] at h; subst h; constructor <;> simp [State.when]

@[simp] theorem State.startMgmt_same (s : State) (x0) (x1) (x2) :
    (State.startMgmt s x0 x1 x2).pending = s.pending ∧ (State.startMgmt s x0 x1 x2).mem = s.mem := by
  unfold State.startMgmt; constructor <;> simp

theorem execCommandFetch_same (x0) (x1) (x2) (s : State) :
    ∀ t, execCommandFetch x0 x1 x2 s = .next t → (t).pending = s.pending ∧ (t).mem = s.mem := by
  intro t h; simp only [execCommandFetch, State.when, State.pathFault, Host.Outcome.next.injEq] at h; subst h; constructor <;> ((repeat' split) <;> simp)

theorem execRingFault_same (x0) (x1) (s : State) :
    ∀ t, execRingFault x0 x1 s = .next t → (t).pending = s.pending ∧ (t).mem = s.mem := by
  intro t h; simp only [execRingFault, Host.Outcome.next.injEq] at h; subst h; constructor <;> simp [State.when]

theorem execEventEntryWrite_same (x0) (s : State) :
    ∀ t, execEventEntryWrite x0 s = .next t → (t).pending = s.pending ∧ (t).mem = s.mem := by
  intro t h; simp only [execEventEntryWrite, State.when, State.pathFault, Host.Outcome.next.injEq] at h; subst h; constructor <;> ((repeat' split) <;> simp)

theorem execCoalTimeExpire_same (x0) (s : State) :
    ∀ t, execCoalTimeExpire x0 s = .next t → (t).pending = s.pending ∧ (t).mem = s.mem := by
  intro t h; simp only [execCoalTimeExpire, Host.Outcome.next.injEq] at h; subst h; constructor <;> simp [State.when]

theorem execNop_same (x0) (s : State) : ∀ t, execNop x0 s = .next t → (t).pending = s.pending ∧ (t).mem = s.mem := by
  intro t h; simp only [execNop, Host.Outcome.next.injEq] at h; subst h
  apply State.runPlain_both; intros; constructor <;> ((try dsimp only); (repeat' split) <;> simp_all)

theorem execIdentifyDevice_same (x0) (x1) (s : State) :
    ∀ t, execIdentifyDevice x0 x1 s = .next t → (t).pending = s.pending ∧ (t).mem = s.mem := by
  intro t h; simp only [execIdentifyDevice, Host.Outcome.next.injEq] at h; subst h
  apply State.runPlain_both; intros; constructor <;> ((try dsimp only); (repeat' split) <;> simp_all)

theorem execGetNonce_same (x0) (s : State) : ∀ t, execGetNonce x0 s = .next t → (t).pending = s.pending ∧ (t).mem = s.mem := by
  intro t h; simp only [execGetNonce, Host.Outcome.next.injEq] at h; subst h
  apply State.runPlain_both; intros; constructor <;> ((try dsimp only); (repeat' split) <;> simp_all)

theorem execGuardStormEnd_same (s : State) : ∀ t, execGuardStormEnd s = .next t → (t).pending = s.pending ∧ (t).mem = s.mem := by
  intro t h; simp only [execGuardStormEnd, Host.Outcome.next.injEq] at h; subst h; constructor <;> simp [State.when]

@[simp] theorem State.clearPend_same (s : State) (x0) (x1) :
    (State.clearPend s x0 x1).pending = s.pending ∧ (State.clearPend s x0 x1).mem = s.mem := by
  unfold State.clearPend; constructor <;> simp

theorem execEvtPendClear_same (x0) (x1) (s : State) :
    ∀ t, execEvtPendClear x0 x1 s = .next t → (t).pending = s.pending ∧ (t).mem = s.mem := by
  intro t h; simp only [execEvtPendClear, Host.Outcome.next.injEq] at h; subst h; constructor <;> simp [State.when]

theorem execEvtSrcCfgWrite_same (x0) (s : State) :
    ∀ t, execEvtSrcCfgWrite x0 s = .next t → (t).pending = s.pending ∧ (t).mem = s.mem := by
  intro t h; simp only [execEvtSrcCfgWrite, Host.Outcome.next.injEq] at h; subst h; constructor <;> simp [State.when]

theorem execMgmtEndpointReset_same (s : State) :
    ∀ t, execMgmtEndpointReset s = .next t → (t).pending = s.pending ∧ (t).mem = s.mem := by
  intro t h; simp only [execMgmtEndpointReset, Host.Outcome.next.injEq] at h; subst h; constructor <;> simp [State.when]

theorem execFuncWedged_same (x0) (s : State) : ∀ t, execFuncWedged x0 s = .next t → (t).pending = s.pending ∧ (t).mem = s.mem := by
  intro t h; simp only [execFuncWedged, State.when, State.pathFault, Host.Outcome.next.injEq] at h; subst h; constructor <;> ((repeat' split) <;> simp)

@[simp] theorem State.gatesMoved_same (s : State) (x0) (x1) :
    (State.gatesMoved s x0 x1).pending = s.pending ∧ (State.gatesMoved s x0 x1).mem = s.mem := by
  unfold State.gatesMoved; constructor <;> simp

theorem execSlalomGateChange_same (x0) (s : State) :
    ∀ t, execSlalomGateChange x0 s = .next t → (t).pending = s.pending ∧ (t).mem = s.mem := by
  intro t h; simp only [execSlalomGateChange, State.when, State.pathFault, Host.Outcome.next.injEq] at h; subst h; constructor <;> ((repeat' split) <;> simp)

theorem execSlalomSwap_same (x0) (s : State) : ∀ t, execSlalomSwap x0 s = .next t → (t).pending = s.pending ∧ (t).mem = s.mem := by
  intro t h; simp only [execSlalomSwap, State.when, State.pathFault, Host.Outcome.next.injEq] at h; subst h; constructor <;> ((repeat' split) <;> simp)

theorem execLoadSlalomList_same (x0) (x1) (s : State) :
    ∀ t, execLoadSlalomList x0 x1 s = .next t → (t).pending = s.pending ∧ (t).mem = s.mem := by
  intro t h; simp only [execLoadSlalomList, Host.Outcome.next.injEq] at h; subst h
  apply State.runPlain_both; intros; constructor <;> ((try dsimp only); (repeat' split) <;> simp_all)

theorem execLookup_same (table key o d : Nat) (s : State) :
    ∀ t, execLookup table key o d s = .next t → t.pending = s.pending ∧ (Memory.wf s.mem = true → Memory.wf t.mem = true) := by
  intro t h
  unfold execLookup at h
  injection h with h
  subst h
  apply State.engine_wf
  intro c u
  split
  · exact ⟨rfl, id⟩
  · split
    · next k p _ _ =>
      have e := State.lookup_same u table (u.bytes k (keySize table)) d
      revert e
      generalize u.lookup table (u.bytes k (keySize table)) d = r
      rcases r with ⟨v, _ | ⟨i, x⟩⟩ <;> intro e
      · exact State.kept_of_same e
      · exact ⟨e.1, fun hw => writeMem_wf _ _ _ (by rw [e.2]; exact hw)⟩
    · exact ⟨rfl, id⟩

theorem execExtentCacheFill_same (x0) (x1) (s : State) :
    ∀ t, execExtentCacheFill x0 x1 s = .next t → (t).pending = s.pending ∧ (t).mem = s.mem := by
  intro t h; simp only [execExtentCacheFill, Host.Outcome.next.injEq] at h; subst h; constructor <;> simp [State.when]

@[simp] theorem State.emptyTable_same (s : State) (x0) :
    (State.emptyTable s x0).pending = s.pending ∧ (State.emptyTable s x0).mem = s.mem := by
  unfold State.emptyTable; constructor <;> simp

theorem execTableEnable_same (x0) (x1) (s : State) :
    ∀ t, execTableEnable x0 x1 s = .next t → (t).pending = s.pending ∧ (t).mem = s.mem := by
  intro t h; simp only [execTableEnable, State.when, State.pathFault, Host.Outcome.next.injEq] at h; subst h; constructor <;> ((repeat' split) <;> (first | (simp_all; done) | ((try simp); first | exact (State.storeReg_same _ _ _ _ ‹_›).1 | exact (State.storeReg_same _ _ _ _ ‹_›).2)))

theorem execTableDisable_same (x0) (x1) (s : State) :
    ∀ t, execTableDisable x0 x1 s = .next t → (t).pending = s.pending ∧ (t).mem = s.mem := by
  intro t h; simp only [execTableDisable, State.when, State.pathFault, Host.Outcome.next.injEq] at h; subst h; constructor <;> ((repeat' split) <;> (first | (simp_all; done) | ((try simp); first | exact (State.storeReg_same _ _ _ _ ‹_›).1 | exact (State.storeReg_same _ _ _ _ ‹_›).2)))

@[simp] theorem State.freeSweeper_same (s : State) (x0) :
    (State.freeSweeper s x0).pending = s.pending ∧ (State.freeSweeper s x0).mem = s.mem := by
  constructor <;> (simp only [State.freeSweeper]; (repeat' split) <;> simp_all)

theorem State.storeIf_same (s u : State) (b : Prop) [Decidable b] (a : Nat) (v : Word)
    (h : (if b then s.storeReg a v else none) = some u) : u.pending = s.pending ∧ u.mem = s.mem := by
  split at h
  · exact State.storeReg_same s a v u h
  · cases h

theorem execAgeLimitWrite_same (table : Fin 3) (sweep : Bool) (value : Word) (s : State) :
    ∀ t, execAgeLimitWrite table sweep value s = .next t → t.pending = s.pending ∧ t.mem = s.mem := by
  intro t h
  unfold execAgeLimitWrite State.when at h
  injection h with h
  subst h
  split
  · dsimp only
    split
    · exact ⟨rfl, rfl⟩
    · next u hu =>
      have e := State.storeIf_same _ _ _ _ _ hu
      constructor <;> (repeat' split) <;> simp [e.1, e.2]
  · exact ⟨rfl, rfl⟩

@[simp] theorem State.entryGone_same (s : State) (x0) (x1) (x2) :
    (State.entryGone s x0 x1 x2).pending = s.pending ∧ (State.entryGone s x0 x1 x2).mem = s.mem := by
  unfold State.entryGone; constructor <;> simp

@[simp] theorem State.sweepAtIndex_same (s : State) (x0) (x1) :
    (State.sweepAtIndex s x0 x1).pending = s.pending ∧ (State.sweepAtIndex s x0 x1).mem = s.mem := by
  unfold State.sweepAtIndex; constructor <;> simp

@[simp] theorem State.learnAll_same (s : State) : (State.learnAll s).pending = s.pending ∧ (State.learnAll s).mem = s.mem := by
  unfold State.learnAll; constructor <;> simp

@[simp] theorem State.sweepStash_same (s : State) (x0) :
    (State.sweepStash s x0).pending = s.pending ∧ (State.sweepStash s x0).mem = s.mem := by
  unfold State.sweepStash; constructor <;> simp

theorem execTableSweep_same (x0) (s : State) : ∀ t, execTableSweep x0 s = .next t → (t).pending = s.pending ∧ (t).mem = s.mem := by
  intro t h; simp only [execTableSweep, State.when, State.pathFault, Host.Outcome.next.injEq] at h; subst h; constructor <;> ((repeat' split) <;> simp)

theorem execLearnEvent_same (x0) (s : State) : ∀ t, execLearnEvent x0 s = .next t → (t).pending = s.pending ∧ (t).mem = s.mem := by
  intro t h; simp only [execLearnEvent, Host.Outcome.next.injEq] at h; subst h; constructor <;> simp [State.when]

theorem execLearnApply_same (s : State) : ∀ t, execLearnApply s = .next t → (t).pending = s.pending ∧ (t).mem = s.mem := by
  intro t h; simp only [execLearnApply, State.when, State.pathFault, Host.Outcome.next.injEq] at h; subst h; constructor <;> ((repeat' split) <;> simp)

theorem execPinEnd_same (x0) (s : State) : ∀ t, execPinEnd x0 s = .next t → (t).pending = s.pending ∧ (t).mem = s.mem := by
  intro t h; simp only [execPinEnd, Host.Outcome.next.injEq] at h; subst h; constructor <;> simp [State.when]

theorem execTableEccUncorrectable_same (x0) (x1) (s : State) :
    ∀ t, execTableEccUncorrectable x0 x1 s = .next t → (t).pending = s.pending ∧ (t).mem = s.mem := by
  intro t h; simp only [execTableEccUncorrectable, Host.Outcome.next.injEq] at h; subst h; constructor <;> simp [State.when]

theorem execTableEccCorrected_same (x0) (s : State) :
    ∀ t, execTableEccCorrected x0 s = .next t → (t).pending = s.pending ∧ (t).mem = s.mem := by
  intro t h; simp only [execTableEccCorrected, Host.Outcome.next.injEq] at h; subst h; constructor <;> simp [State.when]

theorem execTableRead_same (x0) (x1) (s : State) :
    ∀ t, execTableRead x0 x1 s = .next t → (t).pending = s.pending ∧ (t).mem = s.mem := by
  intro t h; simp only [execTableRead, Host.Outcome.next.injEq] at h; subst h
  apply State.runPlain_both; intros; constructor <;> ((try dsimp only); (repeat' split) <;> simp_all)

@[simp] theorem State.eachEntry_pending (s : State) (t : Nat) (b : List Byte) (f : State → List Byte → State × Option MStatus)
    (h : ∀ u e, (f u e).1.pending = u.pending) (n i : Nat) : (s.eachEntry t b f n i).1.pending = s.pending := by
  induction n generalizing s i with
  | zero => rfl
  | succ n ih =>
    have e := h s (bufEntry t b i)
    simp only [State.eachEntry]
    split <;> simp_all

@[simp] theorem State.eachEntry_mem (s : State) (t : Nat) (b : List Byte) (f : State → List Byte → State × Option MStatus)
    (h : ∀ u e, (f u e).1.mem = u.mem) (n i : Nat) : (s.eachEntry t b f n i).1.mem = s.mem := by
  induction n generalizing s i with
  | zero => rfl
  | succ n ih =>
    have e := h s (bufEntry t b i)
    simp only [State.eachEntry]
    split <;> simp_all

@[simp] theorem State.onEntries_pending (s : State) (c : Started) (d : Option (List Byte)) (f : Nat → State → List Byte → State × Option MStatus)
    (h : ∀ t u e, (f t u e).1.pending = u.pending) : (s.onEntries c d f).pending = s.pending := by
  simp only [State.onEntries]
  split
  · simp
  · split
    · simp
    · next b =>
      split
      · simp
      · have e := State.eachEntry_pending s (c.desc.par 0 1) b (f (c.desc.par 0 1)) (h _) (c.desc.dataLen.toNat / entrySize (c.desc.par 0 1)) 0
        split <;> simp_all

@[simp] theorem State.onEntries_mem (s : State) (c : Started) (d : Option (List Byte)) (f : Nat → State → List Byte → State × Option MStatus)
    (h : ∀ t u e, (f t u e).1.mem = u.mem) : (s.onEntries c d f).mem = s.mem := by
  simp only [State.onEntries]
  split
  · simp
  · split
    · simp
    · next b =>
      split
      · simp
      · have e := State.eachEntry_mem s (c.desc.par 0 1) b (f (c.desc.par 0 1)) (h _) (c.desc.dataLen.toNat / entrySize (c.desc.par 0 1)) 0
        split <;> simp_all

theorem State.onEntries_both (s : State) (c : Started) (d : Option (List Byte)) (f : Nat → State → List Byte → State × Option MStatus) (h : ∀ t u e, (f t u e).1.pending = u.pending ∧ (f t u e).1.mem = u.mem) : (s.onEntries c d f).pending = s.pending ∧ (s.onEntries c d f).mem = s.mem :=
  ⟨by simp [h], by simp [h]⟩

@[simp] theorem State.writeEntryOf_same (x0) (s : State) (x1) :
    ((State.writeEntryOf x0 s x1).1).pending = s.pending ∧ ((State.writeEntryOf x0 s x1).1).mem = s.mem := by
  constructor <;> (simp only [State.writeEntryOf]; (repeat' split) <;> grind [State.tblInsert_same])

theorem execTableInsert_same (x0) (x1) (s : State) :
    ∀ t, execTableInsert x0 x1 s = .next t → (t).pending = s.pending ∧ (t).mem = s.mem := by
  intro t h; simp only [execTableInsert, Host.Outcome.next.injEq] at h; subst h
  apply State.runMgmt_both; intros; constructor <;> ((try dsimp only); (repeat' split) <;> simp_all)

theorem execTableDelete_same (x0) (x1) (s : State) :
    ∀ t, execTableDelete x0 x1 s = .next t → (t).pending = s.pending ∧ (t).mem = s.mem := by
  intro t h; simp only [execTableDelete, Host.Outcome.next.injEq] at h; subst h
  apply State.runMgmt_both; intros; constructor <;> ((try dsimp only); (repeat' split) <;> simp_all)

@[simp] theorem State.lockEntry_same (x0) (x1) (s : State) (x2) :
    ((State.lockEntry x0 x1 s x2).1).pending = s.pending ∧ ((State.lockEntry x0 x1 s x2).1).mem = s.mem := by
  constructor <;> (simp only [State.lockEntry]; (repeat' split) <;> simp_all)

theorem execTableLock_same (x0) (x1) (s : State) :
    ∀ t, execTableLock x0 x1 s = .next t → (t).pending = s.pending ∧ (t).mem = s.mem := by
  intro t h; simp only [execTableLock, Host.Outcome.next.injEq] at h; subst h
  apply State.runMgmt_both; intros; constructor <;> ((try dsimp only); (repeat' split) <;> simp_all)

theorem execTableUnlock_same (x0) (x1) (s : State) :
    ∀ t, execTableUnlock x0 x1 s = .next t → (t).pending = s.pending ∧ (t).mem = s.mem := by
  intro t h; simp only [execTableUnlock, Host.Outcome.next.injEq] at h; subst h
  apply State.runMgmt_both; intros; constructor <;> ((try dsimp only); (repeat' split) <;> simp_all)

theorem execTableRehash_same (x0) (s : State) :
    ∀ t, execTableRehash x0 s = .next t → (t).pending = s.pending ∧ (t).mem = s.mem := by
  intro t h; simp only [execTableRehash, Host.Outcome.next.injEq] at h; subst h
  apply State.runPlain_both; intros; constructor <;> ((try dsimp only); (repeat' split) <;> simp_all)

@[simp] theorem State.copyAll_same (s : State) (x0) (x1) :
    (State.copyAll s x0 x1).pending = s.pending ∧ (State.copyAll s x0 x1).mem = s.mem := by
  unfold State.copyAll; constructor <;> simp

@[simp] theorem State.switchBank_same (s : State) (x0) (x1) :
    (State.switchBank s x0 x1).pending = s.pending ∧ (State.switchBank s x0 x1).mem = s.mem := by
  unfold State.switchBank; constructor <;> simp

@[simp] theorem State.abandonBank_same (s : State) (x0) (x1) :
    (State.abandonBank s x0 x1).pending = s.pending ∧ (State.abandonBank s x0 x1).mem = s.mem := by
  unfold State.abandonBank; constructor <;> simp

theorem execRehashSwitch_same (x0) (s : State) :
    ∀ t, execRehashSwitch x0 s = .next t → (t).pending = s.pending ∧ (t).mem = s.mem := by
  intro t h; simp only [execRehashSwitch, State.when, State.pathFault, Host.Outcome.next.injEq] at h; subst h; constructor <;> ((repeat' split) <;> simp)

end Sys2Proof.Machine
end

