-- ==== Sys2Proof/Laws/FrameRegisters.lean ====
section
/-! SUPPORT. Frames of the definitions of Hooks, View, Registers, Tick: each leaves the queue of commands as it is, and memory as it is or in
its canonical form. -/
set_option maxRecDepth 8000
set_option Elab.async false
set_option linter.all false
namespace Sys2Proof.Machine

@[simp] theorem State.hookAct_same (s : State) (x0) (x1) (x2) :
    (State.hookAct s x0 x1 x2).pending = s.pending ∧ (State.hookAct s x0 x1 x2).mem = s.mem := by
  constructor <;> (simp only [State.hookAct]; (repeat' split) <;> simp_all)

@[simp] theorem State.endRun_same (s : State) (x0) : (State.endRun s x0).pending = s.pending ∧ (State.endRun s x0).mem = s.mem := by
  unfold State.endRun; constructor <;> simp

@[simp] theorem State.startHook_same (s : State) (x0) :
    (State.startHook s x0).pending = s.pending ∧ (State.startHook s x0).mem = s.mem := by
  unfold State.startHook; constructor <;> simp

@[simp] theorem State.hookBoundary_same (s : State) :
    (State.hookBoundary s).pending = s.pending ∧ (Memory.wf s.mem = true → Memory.wf (State.hookBoundary s).mem = true) := by
  unfold State.hookBoundary; dsimp only; constructor
  · (repeat' split) <;> simp_all
  · intro hw; (repeat' split) <;> simp_all

@[simp] theorem State.abandon_same (s : State) (x0) (x1) :
    (State.abandon s x0 x1).pending = s.pending ∧ (Memory.wf s.mem = true → Memory.wf (State.abandon s x0 x1).mem = true) := by
  unfold State.abandon; dsimp only; constructor
  · (repeat' split) <;> simp_all
  · intro hw; (repeat' split) <;> simp_all

theorem execHookReturn_same (x0) (x1) (s : State) :
    ∀ t, execHookReturn x0 x1 s = .next t → (t).pending = s.pending ∧ (Memory.wf s.mem = true → Memory.wf (t).mem = true) := by
  intro t h; simp only [execHookReturn, State.when, State.pathFault, Host.Outcome.next.injEq] at h; subst h; constructor
  · (repeat' split) <;> simp_all
  · intro hw; (repeat' split) <;> simp_all

theorem execHookOverrun_same (x0) (s : State) :
    ∀ t, execHookOverrun x0 s = .next t → (t).pending = s.pending ∧ (Memory.wf s.mem = true → Memory.wf (t).mem = true) := by
  intro t h; simp only [execHookOverrun, State.when, State.pathFault, Host.Outcome.next.injEq] at h; subst h; constructor
  · (repeat' split) <;> simp_all
  · intro hw; (repeat' split) <;> simp_all

@[simp] theorem State.exception_same (s : State) (x0) (x1) :
    (State.exception s x0 x1).pending = s.pending ∧ (Memory.wf s.mem = true → Memory.wf (State.exception s x0 x1).mem = true) := by
  unfold State.exception; dsimp only; constructor
  · (repeat' split) <;> simp_all
  · intro hw; (repeat' split) <;> simp_all

theorem execPcall_same (x0) (x1) (x2) (x3) (s : State) :
    ∀ t, execPcall x0 x1 x2 x3 s = .next t → (t).pending = s.pending ∧ (Memory.wf s.mem = true → Memory.wf (t).mem = true) := by
  intro t h; simp only [execPcall, State.when, State.pathFault, Host.Outcome.next.injEq] at h; subst h; constructor
  · (repeat' split) <;> simp_all
  · intro hw; (repeat' split) <;> simp_all

theorem execPwait_same (x0) (x1) (x2) (x3) (s : State) :
    ∀ t, execPwait x0 x1 x2 x3 s = .next t → (t).pending = s.pending ∧ (Memory.wf s.mem = true → Memory.wf (t).mem = true) := by
  intro t h; simp only [execPwait, State.when, State.pathFault, Host.Outcome.next.injEq] at h; subst h; constructor
  · (repeat' split) <;> simp_all
  · intro hw; (repeat' split) <;> simp_all

theorem execPpoll_same (x0) (x1) (x2) (x3) (s : State) :
    ∀ t, execPpoll x0 x1 x2 x3 s = .next t → (t).pending = s.pending ∧ (Memory.wf s.mem = true → Memory.wf (t).mem = true) := by
  intro t h; simp only [execPpoll, State.when, State.pathFault, Host.Outcome.next.injEq] at h; subst h; constructor
  · (repeat' split) <;> simp_all
  · intro hw; (repeat' split) <;> simp_all

theorem execHookFault_same (x0) (s : State) :
    ∀ t, execHookFault x0 s = .next t → (t).pending = s.pending ∧ (Memory.wf s.mem = true → Memory.wf (t).mem = true) := by
  intro t h; simp only [execHookFault, State.when, State.pathFault, Host.Outcome.next.injEq] at h; subst h; constructor
  · (repeat' split) <;> simp_all
  · intro hw; (repeat' split) <;> simp_all

@[simp] theorem State.readValue_same (s : State) (x0) :
    ((State.readValue s x0).2).pending = s.pending ∧ ((State.readValue s x0).2).mem = s.mem := by
  constructor <;> (simp only [State.readValue]; (repeat' split) <;> simp_all)

theorem State.ran_same (s : State) (o : Host.Outcome State Fault Refusal)
    (h : ∀ t, o = .next t → t.pending = s.pending ∧ t.mem = s.mem) : (s.ran o).pending = s.pending ∧ (s.ran o).mem = s.mem := by
  cases o with
  | next t => exact h t rfl
  | fault f => exact ⟨rfl, rfl⟩
  | refused r => exact ⟨rfl, rfl⟩

theorem State.ran_wf (s : State) (o : Host.Outcome State Fault Refusal)
    (h : ∀ t, o = .next t → t.pending = s.pending ∧ (Memory.wf s.mem = true → Memory.wf t.mem = true)) :
    (s.ran o).pending = s.pending ∧ (Memory.wf s.mem = true → Memory.wf (s.ran o).mem = true) := by
  cases o with
  | next t => exact h t rfl
  | fault f => exact ⟨rfl, id⟩
  | refused r => exact ⟨rfl, id⟩

@[simp] theorem State.put_same (s : State) (a : Nat) (v : Word) : (s.put a v).pending = s.pending ∧ (s.put a v).mem = s.mem := by
  unfold State.put
  cases h : s.storeReg a v with
  | none => exact ⟨rfl, rfl⟩
  | some t => exact State.storeReg_same s a v t h

@[simp] theorem State.putIf_same (s : State) (x0) (x1) (x2) :
    (State.putIf s x0 x1 x2).pending = s.pending ∧ (State.putIf s x0 x1 x2).mem = s.mem := by
  unfold State.putIf; constructor <;> simp

@[simp] theorem State.stage_same (s : State) (x0) (x1) :
    (State.stage s x0 x1).pending = s.pending ∧ (State.stage s x0 x1).mem = s.mem := by
  unfold State.stage; constructor <;> simp

@[simp] theorem State.unstage_same (s : State) (x0) (x1) :
    (State.unstage s x0 x1).pending = s.pending ∧ (State.unstage s x0 x1).mem = s.mem := by
  unfold State.unstage; constructor <;> simp

@[simp] theorem State.putPair_same (s : State) (x0) (x1) :
    (State.putPair s x0 x1).pending = s.pending ∧ (State.putPair s x0 x1).mem = s.mem := by
  unfold State.putPair; constructor <;> simp

@[simp] theorem State.stopPtp_same (s : State) : (State.stopPtp s).pending = s.pending ∧ (State.stopPtp s).mem = s.mem := by
  unfold State.stopPtp; constructor <;> simp

@[simp] theorem State.moveDelay_same (s : State) (x0) (x1) (x2) :
    (State.moveDelay s x0 x1 x2).pending = s.pending ∧ (State.moveDelay s x0 x1 x2).mem = s.mem := by
  unfold State.moveDelay; constructor <;> simp

@[simp] theorem State.writeTim_same (s : State) (base : Nat) (i : Nat) (a : Nat) (v : Word) :
    (s.writeTim base i a v).pending = s.pending ∧ (Memory.wf s.mem = true → Memory.wf (s.writeTim base i a v).mem = true) := by
  unfold State.writeTim
  (try dsimp only)
  repeat' first
    | with_reducible refine State.kept_ite ?_ ?_
    | (with_reducible apply State.ran_wf; first | with_reducible apply execGlbResetWrite_same)
    | (with_reducible apply State.kept_of_same; with_reducible apply State.ran_same; first | with_reducible apply execGlbResetWrite_same)
    | with_reducible exact State.kept_of_same (State.put_same ..)
    | with_reducible exact State.kept_of_same (State.putIf_same ..)
    | with_reducible exact State.kept_trans (State.kept_of_same (State.put_same s _ _)) (State.putIf_same ..)
    | with_reducible exact State.kept_trans (State.kept_of_same (State.put_same s _ _)) (State.kept_of_same (State.putIf_same ..))
    | with_reducible exact State.kept_of_same (State.stage_same ..)
    | with_reducible exact State.kept_trans (State.kept_of_same (State.put_same s _ _)) (State.stage_same ..)
    | with_reducible exact State.kept_trans (State.kept_of_same (State.put_same s _ _)) (State.kept_of_same (State.stage_same ..))
    | with_reducible exact State.kept_of_same (State.putPair_same ..)
    | with_reducible exact State.kept_trans (State.kept_of_same (State.put_same s _ _)) (State.putPair_same ..)
    | with_reducible exact State.kept_trans (State.kept_of_same (State.put_same s _ _)) (State.kept_of_same (State.putPair_same ..))
    | with_reducible exact State.kept_of_same (State.stopPtp_same ..)
    | with_reducible exact State.stopPtp_same ..
    | with_reducible exact State.kept_trans (State.kept_of_same (State.put_same s _ _)) (State.stopPtp_same ..)
    | with_reducible exact State.kept_trans (State.kept_of_same (State.put_same s _ _)) (State.kept_of_same (State.stopPtp_same ..))
    | with_reducible exact State.kept_of_same (State.moveDelay_same ..)
    | with_reducible exact State.moveDelay_same ..
    | with_reducible exact State.kept_trans (State.kept_of_same (State.put_same s _ _)) (State.moveDelay_same ..)
    | with_reducible exact State.kept_trans (State.kept_of_same (State.put_same s _ _)) (State.kept_of_same (State.moveDelay_same ..))
    | with_reducible exact State.kept_of_same (State.recheckMaster_same ..)
    | with_reducible exact State.recheckMaster_same ..
    | with_reducible exact State.kept_trans (State.kept_of_same (State.put_same s _ _)) (State.recheckMaster_same ..)
    | with_reducible exact State.kept_trans (State.kept_of_same (State.put_same s _ _)) (State.kept_of_same (State.recheckMaster_same ..))
    | with_reducible exact ⟨rfl, id⟩

@[simp] theorem State.writeBase_same (s : State) (x0) :
    (State.writeBase s x0).pending = s.pending ∧ (State.writeBase s x0).mem = s.mem := by
  unfold State.writeBase; constructor <;> simp

@[simp] theorem State.writeCoal_same (s : State) (x0) :
    (State.writeCoal s x0).pending = s.pending ∧ (State.writeCoal s x0).mem = s.mem := by
  unfold State.writeCoal; constructor <;> simp

@[simp] theorem State.writeCtl_same (s : State) (a : Nat) (v : Word) :
    (s.writeCtl a v).pending = s.pending ∧ (s.writeCtl a v).mem = s.mem := by
  unfold State.writeCtl
  (try dsimp only)
  repeat' first
    | with_reducible refine State.same_ite ?_ ?_
    | (with_reducible apply State.ran_same; first | with_reducible apply execCtlDisableAll_same | with_reducible apply execEvtSrcCfgWrite_same)
    | with_reducible exact State.put_same ..
    | with_reducible exact State.putIf_same ..
    | with_reducible exact State.same_trans (State.put_same s _ _) (State.putIf_same ..)
    | with_reducible exact State.stage_same ..
    | with_reducible exact State.same_trans (State.put_same s _ _) (State.stage_same ..)
    | with_reducible exact State.putPair_same ..
    | with_reducible exact State.same_trans (State.put_same s _ _) (State.putPair_same ..)
    | with_reducible exact State.writeBase_same ..
    | with_reducible exact State.same_trans (State.put_same s _ _) (State.writeBase_same ..)
    | with_reducible exact State.writeCringCfg_same ..
    | with_reducible exact State.same_trans (State.put_same s _ _) (State.writeCringCfg_same ..)
    | with_reducible exact State.writeEringCfg_same ..
    | with_reducible exact State.same_trans (State.put_same s _ _) (State.writeEringCfg_same ..)
    | with_reducible exact State.writeCoal_same ..
    | with_reducible exact State.same_trans (State.put_same s _ _) (State.writeCoal_same ..)
    | with_reducible exact State.clearPend_same ..
    | with_reducible exact State.same_trans (State.put_same s _ _) (State.clearPend_same ..)
    | with_reducible exact ⟨rfl, rfl⟩

@[simp] theorem State.writePortCfg_same (s : State) (n : Fin 8) (a : Nat) (v : Word) :
    (s.writePortCfg n a v).pending = s.pending ∧ (s.writePortCfg n a v).mem = s.mem := by
  unfold State.writePortCfg
  (try dsimp only)
  repeat' first
    | with_reducible refine State.same_ite ?_ ?_
    | (with_reducible apply State.ran_same; first | with_reducible apply execNetPortDisable_same | with_reducible apply execNetPortEnable_same)
    | with_reducible exact State.put_same ..
    | with_reducible exact State.putIf_same ..
    | with_reducible exact State.same_trans (State.put_same s _ _) (State.putIf_same ..)
    | with_reducible exact State.stage_same ..
    | with_reducible exact State.same_trans (State.put_same s _ _) (State.stage_same ..)
    | with_reducible exact State.putPair_same ..
    | with_reducible exact State.same_trans (State.put_same s _ _) (State.putPair_same ..)
    | with_reducible exact ⟨rfl, rfl⟩

@[simp] theorem State.writeFabric_same (s : State) (base : Nat) (i : Nat) (a : Nat) (v : Word) :
    (s.writeFabric base i a v).pending = s.pending ∧ (s.writeFabric base i a v).mem = s.mem := by
  unfold State.writeFabric
  (try dsimp only)
  repeat' first
    | with_reducible refine State.same_ite ?_ ?_
    | (with_reducible apply State.ran_same; first | with_reducible apply execWredProfileCommit_same)
    | with_reducible exact State.put_same ..
    | with_reducible exact State.putIf_same ..
    | with_reducible exact State.same_trans (State.put_same s _ _) (State.putIf_same ..)
    | with_reducible exact State.stage_same ..
    | with_reducible exact State.same_trans (State.put_same s _ _) (State.stage_same ..)
    | with_reducible exact State.putPair_same ..
    | with_reducible exact State.same_trans (State.put_same s _ _) (State.putPair_same ..)
    | with_reducible exact State.writePortCfg_same ..
    | with_reducible exact State.same_trans (State.put_same s _ _) (State.writePortCfg_same ..)
    | with_reducible exact ⟨rfl, rfl⟩

@[simp] theorem State.writeTblCfg_same (s : State) (t : Fin 3) (a : Nat) (v : Word) :
    (s.writeTblCfg t a v).pending = s.pending ∧ (s.writeTblCfg t a v).mem = s.mem := by
  unfold State.writeTblCfg
  (try dsimp only)
  repeat' first
    | with_reducible refine State.same_ite ?_ ?_
    | (with_reducible apply State.ran_same; first | with_reducible apply execTableDisable_same | with_reducible apply execTableEnable_same)
    | with_reducible exact State.put_same ..
    | with_reducible exact State.putIf_same ..
    | with_reducible exact State.same_trans (State.put_same s _ _) (State.putIf_same ..)
    | with_reducible exact State.stage_same ..
    | with_reducible exact State.same_trans (State.put_same s _ _) (State.stage_same ..)
    | with_reducible exact State.putPair_same ..
    | with_reducible exact State.same_trans (State.put_same s _ _) (State.putPair_same ..)
    | with_reducible exact ⟨rfl, rfl⟩

@[simp] theorem State.writeIpCfg_same (s : State) (x0) (x1) :
    (State.writeIpCfg s x0 x1).pending = s.pending ∧ (State.writeIpCfg s x0 x1).mem = s.mem := by
  unfold State.writeIpCfg; constructor <;> simp

@[simp] theorem State.writeXpt_same (s : State) (base : Nat) (i : Nat) (a : Nat) (v : Word) :
    (s.writeXpt base i a v).pending = s.pending ∧ (s.writeXpt base i a v).mem = s.mem := by
  unfold State.writeXpt
  (try dsimp only)
  repeat' first
    | with_reducible refine State.same_ite ?_ ?_
    | (with_reducible apply State.ran_same; first | with_reducible apply execAgeLimitWrite_same)
    | with_reducible exact State.put_same ..
    | with_reducible exact State.putIf_same ..
    | with_reducible exact State.same_trans (State.put_same s _ _) (State.putIf_same ..)
    | with_reducible exact State.stage_same ..
    | with_reducible exact State.same_trans (State.put_same s _ _) (State.stage_same ..)
    | with_reducible exact State.putPair_same ..
    | with_reducible exact State.same_trans (State.put_same s _ _) (State.putPair_same ..)
    | with_reducible exact State.writeTblCfg_same ..
    | with_reducible exact State.same_trans (State.put_same s _ _) (State.writeTblCfg_same ..)
    | with_reducible exact State.writeXptCfg_same ..
    | with_reducible exact State.same_trans (State.put_same s _ _) (State.writeXptCfg_same ..)
    | with_reducible exact State.writeIpCfg_same ..
    | with_reducible exact State.same_trans (State.put_same s _ _) (State.writeIpCfg_same ..)
    | with_reducible exact ⟨rfl, rfl⟩
    | with_reducible exact State.same_trans (State.writeXptCfg_same s _) (State.ccResumed_same ..)

@[simp] theorem State.writeStore_same (s : State) (base : Nat) (a : Nat) (v : Word) :
    (s.writeStore base a v).pending = s.pending ∧ (s.writeStore base a v).mem = s.mem := by
  unfold State.writeStore
  (try dsimp only)
  repeat' first
    | with_reducible refine State.same_ite ?_ ?_
    | (with_reducible apply State.ran_same; first | with_reducible apply execDirtyCapWrite_same | with_reducible apply execLayoutBuild_same)
    | with_reducible exact State.put_same ..
    | with_reducible exact State.putIf_same ..
    | with_reducible exact State.same_trans (State.put_same s _ _) (State.putIf_same ..)
    | with_reducible exact State.stage_same ..
    | with_reducible exact State.same_trans (State.put_same s _ _) (State.stage_same ..)
    | with_reducible exact State.putPair_same ..
    | with_reducible exact State.same_trans (State.put_same s _ _) (State.putPair_same ..)
    | with_reducible exact ⟨rfl, rfl⟩

@[simp] theorem State.writeDrives_same (s : State) (base : Nat) (i : Nat) (a : Nat) (v : Word) :
    (s.writeDrives base i a v).pending = s.pending ∧ (s.writeDrives base i a v).mem = s.mem := by
  unfold State.writeDrives
  (try dsimp only)
  repeat' first
    | with_reducible refine State.same_ite ?_ ?_
    | (with_reducible apply State.ran_same; first | with_reducible apply execDrivePortEnable_same | with_reducible apply execHarnessEnable_same | with_reducible apply execHrnClaimWrite_same)
    | with_reducible exact State.put_same ..
    | with_reducible exact State.putIf_same ..
    | with_reducible exact State.same_trans (State.put_same s _ _) (State.putIf_same ..)
    | with_reducible exact State.stage_same ..
    | with_reducible exact State.same_trans (State.put_same s _ _) (State.stage_same ..)
    | with_reducible exact State.putPair_same ..
    | with_reducible exact State.same_trans (State.put_same s _ _) (State.putPair_same ..)
    | with_reducible exact ⟨rfl, rfl⟩

@[simp] theorem State.writeReq_same (s : State) (v : Word) :
    (s.writeReq v).pending = s.pending ∧ (Memory.wf s.mem = true → Memory.wf (s.writeReq v).mem = true) := by
  unfold State.writeReq
  split
  · exact State.ran_wf _ _ (execPowerReqRun_same s)
  · exact State.ran_wf _ _ (execPowerReqSleep_same s)
  · exact State.ran_wf _ _ (execPowerReqDeep_same s)
  · exact ⟨rfl, id⟩

@[simp] theorem State.writePower_same (s : State) (base : Nat) (i : Nat) (a : Nat) (v : Word) :
    (s.writePower base i a v).pending = s.pending ∧ (Memory.wf s.mem = true → Memory.wf (s.writePower base i a v).mem = true) := by
  unfold State.writePower
  (try dsimp only)
  repeat' first
    | with_reducible refine State.kept_ite ?_ ?_
    | (with_reducible apply State.ran_wf; first | with_reducible apply execTelWinHeadWrite_same | with_reducible apply execTelSmpHeadWrite_same)
    | (with_reducible apply State.kept_of_same; with_reducible apply State.ran_same; first | with_reducible apply execTelWinHeadWrite_same | with_reducible apply execTelSmpHeadWrite_same)
    | with_reducible exact State.kept_of_same (State.put_same ..)
    | with_reducible exact State.kept_of_same (State.putIf_same ..)
    | with_reducible exact State.kept_trans (State.kept_of_same (State.put_same s _ _)) (State.putIf_same ..)
    | with_reducible exact State.kept_trans (State.kept_of_same (State.put_same s _ _)) (State.kept_of_same (State.putIf_same ..))
    | with_reducible exact State.kept_of_same (State.stage_same ..)
    | with_reducible exact State.kept_trans (State.kept_of_same (State.put_same s _ _)) (State.stage_same ..)
    | with_reducible exact State.kept_trans (State.kept_of_same (State.put_same s _ _)) (State.kept_of_same (State.stage_same ..))
    | with_reducible exact State.kept_of_same (State.putPair_same ..)
    | with_reducible exact State.kept_trans (State.kept_of_same (State.put_same s _ _)) (State.putPair_same ..)
    | with_reducible exact State.kept_trans (State.kept_of_same (State.put_same s _ _)) (State.kept_of_same (State.putPair_same ..))
    | with_reducible exact State.kept_of_same (State.writeReq_same ..)
    | with_reducible exact State.writeReq_same ..
    | with_reducible exact State.kept_trans (State.kept_of_same (State.put_same s _ _)) (State.writeReq_same ..)
    | with_reducible exact State.kept_trans (State.kept_of_same (State.put_same s _ _)) (State.kept_of_same (State.writeReq_same ..))
    | with_reducible exact State.kept_of_same (State.domApply_same ..)
    | with_reducible exact State.domApply_same ..
    | with_reducible exact State.kept_trans (State.kept_of_same (State.put_same s _ _)) (State.domApply_same ..)
    | with_reducible exact State.kept_trans (State.kept_of_same (State.put_same s _ _)) (State.kept_of_same (State.domApply_same ..))
    | with_reducible exact State.kept_of_same (State.clockApply_same ..)
    | with_reducible exact State.clockApply_same ..
    | with_reducible exact State.kept_trans (State.kept_of_same (State.put_same s _ _)) (State.clockApply_same ..)
    | with_reducible exact State.kept_trans (State.kept_of_same (State.put_same s _ _)) (State.kept_of_same (State.clockApply_same ..))
    | with_reducible exact ⟨rfl, id⟩

@[simp] theorem State.writeReg_same (s : State) (base : Nat) (i : Nat) (a : Nat) (v : Word) :
    (s.writeReg base i a v).pending = s.pending ∧ (Memory.wf s.mem = true → Memory.wf (s.writeReg base i a v).mem = true) := by
  unfold State.writeReg
  (try dsimp only)
  repeat' first
    | with_reducible refine State.kept_ite ?_ ?_
    | with_reducible exact State.kept_of_same (State.put_same ..)
    | with_reducible exact State.kept_of_same (State.putIf_same ..)
    | with_reducible exact State.kept_trans (State.kept_of_same (State.put_same s _ _)) (State.putIf_same ..)
    | with_reducible exact State.kept_trans (State.kept_of_same (State.put_same s _ _)) (State.kept_of_same (State.putIf_same ..))
    | with_reducible exact State.kept_of_same (State.stage_same ..)
    | with_reducible exact State.kept_trans (State.kept_of_same (State.put_same s _ _)) (State.stage_same ..)
    | with_reducible exact State.kept_trans (State.kept_of_same (State.put_same s _ _)) (State.kept_of_same (State.stage_same ..))
    | with_reducible exact State.kept_of_same (State.putPair_same ..)
    | with_reducible exact State.kept_trans (State.kept_of_same (State.put_same s _ _)) (State.putPair_same ..)
    | with_reducible exact State.kept_trans (State.kept_of_same (State.put_same s _ _)) (State.kept_of_same (State.putPair_same ..))
    | with_reducible exact State.kept_of_same (State.writeTim_same ..)
    | with_reducible exact State.writeTim_same ..
    | with_reducible exact State.kept_trans (State.kept_of_same (State.put_same s _ _)) (State.writeTim_same ..)
    | with_reducible exact State.kept_trans (State.kept_of_same (State.put_same s _ _)) (State.kept_of_same (State.writeTim_same ..))
    | with_reducible exact State.kept_of_same (State.writePower_same ..)
    | with_reducible exact State.writePower_same ..
    | with_reducible exact State.kept_trans (State.kept_of_same (State.put_same s _ _)) (State.writePower_same ..)
    | with_reducible exact State.kept_trans (State.kept_of_same (State.put_same s _ _)) (State.kept_of_same (State.writePower_same ..))
    | with_reducible exact State.kept_of_same (State.writeCtl_same ..)
    | with_reducible exact State.writeCtl_same ..
    | with_reducible exact State.kept_trans (State.kept_of_same (State.put_same s _ _)) (State.writeCtl_same ..)
    | with_reducible exact State.kept_trans (State.kept_of_same (State.put_same s _ _)) (State.kept_of_same (State.writeCtl_same ..))
    | with_reducible exact State.kept_of_same (State.writeFabric_same ..)
    | with_reducible exact State.writeFabric_same ..
    | with_reducible exact State.kept_trans (State.kept_of_same (State.put_same s _ _)) (State.writeFabric_same ..)
    | with_reducible exact State.kept_trans (State.kept_of_same (State.put_same s _ _)) (State.kept_of_same (State.writeFabric_same ..))
    | with_reducible exact State.kept_of_same (State.writeXpt_same ..)
    | with_reducible exact State.writeXpt_same ..
    | with_reducible exact State.kept_trans (State.kept_of_same (State.put_same s _ _)) (State.writeXpt_same ..)
    | with_reducible exact State.kept_trans (State.kept_of_same (State.put_same s _ _)) (State.kept_of_same (State.writeXpt_same ..))
    | with_reducible exact State.kept_of_same (State.writeStore_same ..)
    | with_reducible exact State.writeStore_same ..
    | with_reducible exact State.kept_trans (State.kept_of_same (State.put_same s _ _)) (State.writeStore_same ..)
    | with_reducible exact State.kept_trans (State.kept_of_same (State.put_same s _ _)) (State.kept_of_same (State.writeStore_same ..))
    | with_reducible exact State.kept_of_same (State.writeDrives_same ..)
    | with_reducible exact State.writeDrives_same ..
    | with_reducible exact State.kept_trans (State.kept_of_same (State.put_same s _ _)) (State.writeDrives_same ..)
    | with_reducible exact State.kept_trans (State.kept_of_same (State.put_same s _ _)) (State.kept_of_same (State.writeDrives_same ..))
    | with_reducible exact ⟨rfl, id⟩

@[simp] theorem State.badAccess_same (s : State) (x0) (x1) (x2) :
    (State.badAccess s x0 x1 x2).pending = s.pending ∧ (State.badAccess s x0 x1 x2).mem = s.mem := by
  unfold State.badAccess; constructor <;> simp

theorem execBarAccessBad_same (x0) (x1) (x2) (s : State) :
    ∀ t, execBarAccessBad x0 x1 x2 s = .next t → (t).pending = s.pending ∧ (t).mem = s.mem := by
  intro t h; simp only [execBarAccessBad, Host.Outcome.next.injEq] at h; subst h; constructor <;> simp [State.when]

theorem execRegisterWrite_same (x0) (x1) (s : State) :
    ∀ t, execRegisterWrite x0 x1 s = .next t → (t).pending = s.pending ∧ (Memory.wf s.mem = true → Memory.wf (t).mem = true) := by
  intro t h; simp only [execRegisterWrite, State.when, State.pathFault, Host.Outcome.next.injEq] at h; subst h; constructor
  · (repeat' split) <;> simp_all
  · intro hw; (repeat' split) <;> simp_all

@[simp] theorem State.clearPolicer_same (s : State) (x0) :
    (State.clearPolicer s x0).pending = s.pending ∧ (State.clearPolicer s x0).mem = s.mem := by
  unfold State.clearPolicer; constructor <;> simp

@[simp] theorem State.clearRead_same (s : State) (x0) :
    (State.clearRead s x0).pending = s.pending ∧ (State.clearRead s x0).mem = s.mem := by
  unfold State.clearRead; constructor <;> simp

@[simp] theorem State.latch_same (s : State) (x0) : (State.latch s x0).pending = s.pending ∧ (State.latch s x0).mem = s.mem := by
  constructor <;> (simp only [State.latch]; (repeat' split) <;> simp_all)

@[simp] theorem State.readReg_same (s : State) (x0) :
    ((State.readReg s x0).2).pending = s.pending ∧ ((State.readReg s x0).2).mem = s.mem := by
  unfold State.readReg; constructor <;> simp

theorem execReadClearRegister_same (x0) (s : State) :
    ∀ t, execReadClearRegister x0 s = .next t → (t).pending = s.pending ∧ (t).mem = s.mem := by
  intro t h; simp only [execReadClearRegister, Host.Outcome.next.injEq] at h; subst h; constructor <;> simp [State.when]

theorem execLowWordRead_same (x0) (s : State) :
    ∀ t, execLowWordRead x0 s = .next t → (t).pending = s.pending ∧ (t).mem = s.mem := by
  intro t h; simp only [execLowWordRead, Host.Outcome.next.injEq] at h; subst h; constructor <;> simp [State.when]

@[simp] theorem State.imageRead_same (s : State) (o n : Nat) :
    (s.imageRead o n).2.pending = s.pending ∧ (s.imageRead o n).2.mem = s.mem := by
  induction n generalizing s o with
  | zero => exact ⟨rfl, rfl⟩
  | succ n ih =>
    unfold State.imageRead
    dsimp only
    refine State.same_trans ?_ (ih _ _)
    split
    · exact State.readReg_same ..
    · exact State.raise_same ..

@[simp] theorem State.imageWrite_same (s : State) (o : Nat) (vs : List Word) :
    (s.imageWrite o vs).pending = s.pending ∧ (Memory.wf s.mem = true → Memory.wf (s.imageWrite o vs).mem = true) := by
  induction vs generalizing s o with
  | nil => exact ⟨rfl, id⟩
  | cons v vs ih =>
    unfold State.imageWrite
    dsimp only
    refine State.kept_trans ?_ (ih _ _)
    split
    · exact State.writeReg_same ..
    · exact State.kept_of_same (State.raise_same ..)

@[simp] theorem State.moveRead_same (s : State) (x0) (x1) (x2) :
    ((State.moveRead s x0 x1 x2).2).pending = s.pending ∧ ((State.moveRead s x0 x1 x2).2).mem = s.mem := by
  constructor <;> (simp only [State.moveRead]; (repeat' split) <;> simp_all)

@[simp] theorem State.moveWrite_same (s : State) (x0) (x1) (x2) :
    (State.moveWrite s x0 x1 x2).pending = s.pending ∧ (Memory.wf s.mem = true → Memory.wf (State.moveWrite s x0 x1 x2).mem = true) := by
  unfold State.moveWrite; dsimp only; constructor
  · (repeat' split) <;> simp_all
  · intro hw; (repeat' split) <;> simp_all

theorem execMove_same (x0) (x1) (x2) (s : State) :
    ∀ t, execMove x0 x1 x2 s = .next t → (t).pending = s.pending ∧ (Memory.wf s.mem = true → Memory.wf (t).mem = true) := by
  intro t h; simp only [execMove, Host.Outcome.next.injEq] at h; subst h
  apply State.engine_wf; intro c u; constructor
  · (try dsimp only); (repeat' split) <;> simp_all
  · intro hw; (try dsimp only); (repeat' split) <;> simp_all


@[simp] theorem State.advance_same (s : State) : (State.advance s).pending = s.pending ∧ (State.advance s).mem = s.mem := by
  unfold State.advance; constructor <;> simp

@[simp] theorem State.advanceList_same (s : State) (x0) :
    (State.advanceList s x0).pending = s.pending ∧ (State.advanceList s x0).mem = s.mem := by
  unfold State.advanceList; constructor <;> simp

@[simp] theorem State.timeAction_same (s : State) (n : Nat) :
    (s.timeAction n).pending = s.pending ∧ (s.timeAction n).mem = s.mem := by
  unfold State.timeAction
  dsimp only
  split
  · split
    · exact State.ran_same _ _ (execSlotDoorbellFire_same _ s)
    · exact ⟨rfl, rfl⟩
  all_goals simp [State.when]
  all_goals constructor <;> ((repeat' split) <;> simp)

@[simp] theorem State.fireSlot_same (s : State) (n : Nat) : (s.fireSlot n).pending = s.pending ∧ (s.fireSlot n).mem = s.mem := by
  unfold State.fireSlot
  dsimp only
  split
  · exact State.ran_same _ _ (execHeartbeatSend_same s)
  · exact State.ran_same _ _ (execFloorSave_same s)
  · exact State.ran_same _ _ (execRetentionReview_same s)
  · exact State.ran_same _ _ (execDelayReqSend_same s)
  · exact State.ran_same _ _ (execSyncLossCheck_same s)
  · exact State.ran_same _ _ (execAnnounceTimeout_same s)
  · exact State.ran_same _ _ (execServoUpdate_same s)
  · exact State.ran_same _ _ (execHoldoverMeanUpdate_same s)
  · repeat' first
      | with_reducible refine State.same_ite ?_ ?_
      | (with_reducible apply State.ran_same; with_reducible first | apply execWheelTick_same | apply execTableSweep_same | apply execWindowClose_same)
      | with_reducible exact State.timeAction_same ..
      | (with_reducible apply State.ran_same; split <;> with_reducible first | apply execSlalomSwap_same | apply execSlalomGateChange_same)
      | (split <;> first | exact State.ran_same _ _ (execSlotDoorbellFire_same _ s) | exact ⟨rfl, rfl⟩)

@[simp] theorem State.sendFlit_same (s : State) (x0) :
    (State.sendFlit s x0).pending = s.pending ∧ (State.sendFlit s x0).mem = s.mem := by
  unfold State.sendFlit; constructor <;> simp

@[simp] theorem State.sendFlits_same (x0) (s : State) :
    (State.sendFlits x0 s).pending = s.pending ∧ (State.sendFlits x0 s).mem = s.mem := by
  induction x0 generalizing s <;> first | (simp_all [State.sendFlits]; done) | (constructor <;> (simp only [State.sendFlits]; (repeat' split) <;> simp_all))

@[simp] theorem State.driveTwin_same (s : State) : (State.driveTwin s).pending = s.pending ∧ (State.driveTwin s).mem = s.mem := by
  unfold State.driveTwin; constructor <;> simp

@[simp] theorem State.settleSolo_same (s : State) :
    (State.settleSolo s).pending = s.pending ∧ (State.settleSolo s).mem = s.mem := by
  unfold State.settleSolo; constructor <;> simp

@[simp] theorem State.tick_same (s : State) : s.tick.pending = s.pending ∧ s.tick.mem = s.mem := by
  have e (u : State) : ((u.dueSlots.take 16).foldl State.fireSlot u).pending = u.pending ∧
      ((u.dueSlots.take 16).foldl State.fireSlot u).mem = u.mem :=
    ⟨State.foldl_pending _ (fun u a => (State.fireSlot_same u a).1) _ _, State.foldl_mem _ (fun u a => (State.fireSlot_same u a).2) _ _⟩
  unfold State.tick State.when
  refine State.same_trans (State.same_ite (s := s) (t := s.advance.driveTwin) (u := s) ?_ ⟨rfl, rfl⟩) (State.same_ite ?_ ⟨rfl, rfl⟩)
  · exact State.same_trans (State.advance_same s) (State.driveTwin_same _)
  · refine State.same_trans ?_ (State.wakeMgmt_same _)
    refine State.same_trans ?_ (State.evictWaiting_same _ _)
    refine State.same_trans ?_ (State.wakeFlush_same _)
    refine State.same_trans ?_ (State.endReplay_same _)
    refine State.same_trans ?_ (State.retryPages_same _)
    refine State.same_trans ?_ (State.deliverDue_same _)
    exact State.same_trans (e _) (State.settleSolo_same _)

end Sys2Proof.Machine
end

