-- ==== Sys2Proof/Laws/Mgmt.lean ====
section
/-! SUPPORT. Management commands: what running an accepted command does, and what a command that is not there does. -/
set_option Elab.async false
namespace Sys2Proof.Machine

/-- An accepted command runs its own meaning on the state the checks leave. -/
theorem State.runMgmt_accepted {s u : State} {id op : Nat} {rsvd : List (Nat × Nat)} {payOk : Nat → Bool}
    {sel : Descriptor → Bool} {c : Started} (h : s.Accepts id op rsvd payOk sel c u) (body : Started → State → State) :
    s.runMgmt id op rsvd payOk sel body = body c u := by
  obtain ⟨hf, r, hr, h⟩ := h
  unfold State.runMgmt
  rw [hf, hr]
  dsimp only
  rcases h with ⟨h1, rfl⟩ | ⟨h1, h2, ⟨h3, rfl⟩ | ⟨h3, h4, h5, h6⟩⟩
  · rw [if_pos h1]
  · rw [if_neg h1, h2]; simp [h3]
  · rw [if_neg h1, h2]; simp [h3, h4, h5, h6]

theorem State.runPlain_accepted {s : State} {id op : Nat} {rsvd : List (Nat × Nat)} {c : Started}
    (h : s.AcceptsPlain id op rsvd c) (body : Started → State → State) :
    s.runPlain id op rsvd body = body c s := State.runMgmt_accepted h body

/-- A row whose command was not started changes nothing. -/
theorem State.runMgmt_absent {s : State} {id op : Nat} {rsvd : List (Nat × Nat)} {payOk : Nat → Bool}
    {sel : Descriptor → Bool} (h : ∀ c ∈ s.ctl.started, c.id ≠ id) (body : Started → State → State) :
    s.runMgmt id op rsvd payOk sel body = s := by
  unfold State.runMgmt
  have : s.ctl.started.find? (fun c => c.id = id && c.desc.opcode.toNat = op && !c.waits && sel c.desc) = none := by
    rw [List.find?_eq_none]
    intro c hc
    simp [h c hc]
  rw [this]

end Sys2Proof.Machine
end

