-- ==== Sys2Proof/Tests/Slice0.lean ====
section
/-! SUPPORT. Tests: an ill-formed term for each check of WellFormed, single commands on small states, and for every clause of a
statement that has hypotheses a state and operands that meet them together. -/
set_option maxRecDepth 4000
set_option Elab.async false
open Sys2Proof Sys2Proof.Machine
namespace Sys2Proof.Tests

/-! ### Ill-formed operands are refused by each check -/

/-- BAR0 is 1 MiB (Table 03-2). -/
theorem test_wf_bar0 : (Instr.barAccessBad true 2 0x100000).wf = false := by decide
/-- A register is 32 bits wide and aligned (R2). -/
theorem test_wf_register : (Instr.registerWrite 0xC01A 1).wf = false := by decide
theorem test_wf_register_good : (Instr.registerWrite 0xC018 1).wf = true := by decide
/-- The MSI-X table and pending bits end at 0x104000, the doorbell page at 0x101000, as the model numbers them (log entry 118). -/
theorem test_wf_msix : (Instr.registerWrite 0x104000 1).wf = false := by decide
theorem test_wf_doorbell_read : (Instr.readClearRegister 0x101000).wf = false := by decide
theorem test_wf_read_good : (Instr.readClearRegister 0x100004).wf = true := by decide
/-- The doorbell page is 4 KiB. -/
theorem test_wf_doorbell : (Instr.cdbWrite 0x1000 4 0).wf = false := by decide
/-- 65,536 connections and 65,536 tags (Table 00-1). -/
theorem test_wf_connection : (Instr.commandStart 65536).wf = false := by decide
theorem test_wf_tag : (Instr.nvmeFlush 65536).wf = false := by decide
/-- 8 ports of 4 sub-ports. -/
theorem test_wf_subport : (Instr.neighbourRequestRx 0 32).wf = false := by decide
/-- A core address has 64 bits. -/
theorem test_wf_address : (Instr.pcall 0 0 0x0B (2 ^ 64)).wf = false := by decide
/-- The three words have the major opcode custom-0 (Table 04-2). -/
theorem test_wf_custom0 : (Instr.pwait 0 0 0x13 0).wf = false := by decide
theorem test_wf_custom0_good : (Instr.ppoll 0 0 0x200B 0).wf = true := by decide
/-- The Saddlebag ring has 1,048,576 records (R184). -/
theorem test_wf_record : (Instr.recordOpen 1048576).wf = false := by decide
/-- A stored block is 4,160 bytes (R169). -/
theorem test_wf_block : (Instr.scrubStripe 0 0 0 [(0, 0, [1])]).wf = false := by decide
/-- The table gives no row any bits. -/
theorem test_no_word_spells_a_command : decodeTableWord 32 0 = none := rfl

/-! ### Single commands; the expected values are the manual's -/

/-- The state after a command that answers a next state. -/
def after (o : Host.Outcome State Fault Refusal) : State :=
  match o with
  | .next t => t
  | _ => State.reset

/-- A powered device that runs. -/
def running : State := { State.reset with pwr.powered := true, clk.resetHold := none, clk.hold := false }

/-- CRC-32C of the nine digits, the published check value. -/
theorem test_crc32c : crc32c [0x31, 0x32, 0x33, 0x34, 0x35, 0x36, 0x37, 0x38, 0x39] = 0xE3069283 := by decide +kernel
/-- SLEW_MAX is 1 to 500: a write of 100 is kept, one of 501 is discarded whole (R368). -/
theorem test_slew_write : ((after (exec (.registerWrite 0xC018 100) running)).readValue 0xC018).1 = 100 := by decide +kernel
theorem test_slew_out_of_range : ((after (exec (.registerWrite 0xC018 501) running)).readValue 0xC018).1 = 500 := by decide +kernel
/-- A 16-bit read raises EVT_BAR_ACCESS, source 0, and answers all ones (R2). -/
theorem test_bar_access_bad : ((after (exec (.barAccessBad false 2 0xC018) running)).src 0).pend = true := by decide +kernel
theorem test_bar_access_answer :
    .barAnswer 0xC018 0xFFFFFFFF ∈ (after (exec (.barAccessBad false 2 0xC018) running)).out := by decide +kernel
/-- W1C clears the bits written 1, RW takes the written bits, RO keeps its own (Table 00-3). -/
theorem test_w1c : Fld.write ⟨"F", 3, 0, .w1c, 0, 0, 15⟩ 0x5 0xF = 0xA := by decide
theorem test_ro : Fld.write ⟨"F", 3, 0, .ro, 0, 0, 15⟩ 0x5 0xF = 0xF := by decide
theorem test_rw : Fld.write ⟨"F", 3, 0, .rw, 0, 0, 15⟩ 0x5 0xF = 0x5 := by decide
/-- Key imports are guarded Holder commands; Nop is neither (Table 03-6). -/
theorem test_row_import : mgmtRow 0x0500 = some ⟨0x0500, true, true, false⟩ := by decide
theorem test_row_unknown : mgmtRow 0x0006 = none := by decide
/-- An idle step moves shelf time by 8 ns (R21). -/
theorem test_idle_tick : (after (step running)).tim.ns = 8 := by decide +kernel
/-- Bytes stored high read back high, and memory stays in its form. -/
theorem test_store_last : Assoc.get (0 : Byte) (writeMem [(5, 9)] 4 [7, 0]) 4 = 7 := by decide
theorem test_store_zero_unlists : writeMem [(5, 9)] 4 [7, 0] = [(4, 7)] := by decide


/-! ### States that the witnesses use -/

/-- Write one field of a register of a state. -/
def wSet (s : State) (r : Ref) (v : Nat) : State := s.setFld r v
def wMaster : PtpMaster := ⟨1, 6, 33, 1, 1, 77, 1, 0, 1, 0, 0, 0⟩
/-- A state in which the PTP client listens on port 0. -/
def wPtp : State := { (State.reset.setFld Reg.TIM_CTL_PTP_EN 1).setFld Reg.TIM_CTL_PTP_PORTS 255 with net.subs := [(0, { up := true })] }
def wDesc (op par : Nat) : Descriptor := { opcode := BitVec.ofNat 16 op, params := BitVec.ofNat 320 par }
def wStarted (op par : Nat) : Started := ⟨1, carriedRing, 0, wDesc op par, none, 0, 0, false, false, false, none⟩
/-- A state with one started command, carried from the holder. -/
def wCmd (op par : Nat) : State := { State.reset with ctl.started := [wStarted op par] }
theorem wAccepts (s : State) (op par : Nat) {rsvd : List (Nat × Nat)} {payOk : Nat → Bool} {sel : Descriptor → Bool}
    (h1 : s.ctl.started = [wStarted op par]) (h : (mgmtRow op).isSome = true) (h2 : (wDesc op par).opcode.toNat = op)
    (hs : sel (wDesc op par) = true) : s.Accepts 1 op rsvd payOk sel (wStarted op par) s := by
  obtain ⟨r, hr⟩ := Option.isSome_iff_exists.mp h
  refine ⟨?_, r, hr, .inl ⟨rfl, rfl⟩⟩
  rw [h1]
  simp [wStarted, h2, hs]
/-- A booted state with command ring 0 and event ring 0 enabled. -/
def wRings : State := { State.reset with
  regs := [(Reg.CTL_CFG_EN.addr, 1)], clk.bootDone := true, clk.hold := false, clk.resetHold := none, pwr.powered := true, hrn.role := .solo,
  ctl.crings := [(0, { enabled := true, tail := 2 })], ctl.erings := [(0, { enabled := true })] }
def wHookRun : HookRun := { core := 0, hook := 1, subject := 0 }
def wHook : State := { State.reset with tck.runs := [wHookRun] }
def wCall (done : Bool) : Call := { core := 0, slot := 0, seq := 0, prim := 0, done := done }
def wCalls (done : Bool) : State := { State.reset with tck.calls := [wCall done] }
/-- The same with lookup tables 0 to 2 on. -/
def wOn (op par : Nat) : State :=
  (((wCmd op par).setFld (Reg.TBL_CFG_EN 0) 1).setFld (Reg.TBL_CFG_EN 1) 1).setFld (Reg.TBL_CFG_EN 2) 1
def wLk : State := { State.reset with
  regs := [(0x30000, 0x1E0E01)], tck.calls := [{ wCall false with prim := 1 }],
  tbl.tables := [(0, { stash := [List.replicate 32 0] })] }
def wUp : State := { wRings with net.subs := [(0, { up := true })] }
def wEspKey : List Byte := List.replicate 36 0 ++ [50] ++ List.replicate 3 0
def wFlow : State := { wUp with
  regs := [(0x30100, 0x1E1101)],
  swc.frames := [{ id := 0, ingress := true, stage := .arriving, key := some wEspKey }],
  tbl.tables := [(1, { stash := [wEspKey ++ List.replicate 24 0] })] }
def wSt (d : Descriptor) : Started := ⟨1, carriedRing, 0, d, none, 0, 0, false, false, false, none⟩
def wIn (s : State) (d : Descriptor) : State := { s with ctl.started := [wSt d] }
theorem wAcc (s : State) (d : Descriptor) (op : Nat) {rsvd : List (Nat × Nat)} {payOk : Nat → Bool} {sel : Descriptor → Bool}
    (h : (mgmtRow op).isSome = true) (h2 : d.opcode.toNat = op) (hs : sel d = true) :
    (wIn s d).Accepts 1 op rsvd payOk sel (wSt d) (wIn s d) := by
  obtain ⟨r, hr⟩ := Option.isSome_iff_exists.mp h
  refine ⟨?_, r, hr, .inl ⟨rfl, rfl⟩⟩
  simp [wIn, wSt, h2, hs]
def wConn (c : Conn) : State := { wUp with xpt.conns := [(0, c)] }
def wReq : CmReq := { addr := 0 }
def wPkt : RxPkt := { conn := 0 }
def wRead : ReadOp := ⟨0, 2, 0, [], .data 0, 0, 0, 0, false⟩
/-- An enabled transport whose connection 0 is READY and resident. -/
def wReady (c : Conn) : State := (wConn { c with st := .ready, residence := .resident }).setFld Reg.XPT_CFG_EN 1
def wCc : State := (wReady {}).setFld Reg.XPT_CFG_CC_EN 1
def wK3 : State := { wConn { st := .keying, k2Sent := true, k1 := List.replicate 60 0 } with
  xpt.hosts := [(0, { used := true, hostId := List.replicate 16 0 })] }
/-- The first 0x5D0 bytes of a K3: TYPE, VERSION, LEN and an SPI. -/
def wK3Head : List Byte := [3, 1, 0, 0, 0, 0, 0x14, 0x5D, 0, 0, 1, 0] ++ List.replicate 1476 0
/-- A K3 of those bytes whose CONFIRM_H is right. -/
def wK3Msg : SheathMsg :=
  { bytes := wK3Head ++ ((wK3.conn 0).confirmH wK3Head ((wK3.conn 0).okmOf wK3Head [] [])).take 32 ++ List.replicate 3693 0
    ssRsa := some [], sigOk := true }
def wAdmit : State := { (((wUp.setFld (Reg.XPT_IP_CFG_VALID 0) 1).setFld Reg.XPT_CFG_EN 1).setFld (Reg.TBL_CFG_EN 1) 1) with
  clk.ioReady := true, xpt.hosts := [(0, { used := true, plaintextOk := true })] }
def wAdmReq : CmReq := { addr := 0, host := some 0 }
theorem wSnd {α : Type} {x : α × Bool} (h : x.2 = true) : x = (x.1, true) := Prod.ext rfl h
theorem wAdmitFlow : (wAdmit.flowInstall (flowKey wAdmReq.key) 0).2 = 0 := by decide +kernel
/-- A state in which tag 0 holds a decoded command of connection 0, whose controller is 0. -/
def wNvme (admin : Bool) (e : SqEntry) : State := { (wConn { st := .ready, ctrl := some 0, admin := admin }) with
  clk.ioReady := true, cmdb.cmds := [(0, { uid := 0, conn := 0, sqIndex := 0, entry := e, admin := admin })],
  cmdb.ctrls := [(0, { used := true, hostId := 1 })], cmdb.nss := [(1, { used := true, nsze := 4096 })] }
def wNvmeCmd (admin : Bool) (e : SqEntry) : Cmd := { uid := 0, conn := 0, sqIndex := 0, entry := e, admin := admin }
/-- The same state on the STANDBY. -/
def wStandby (s : State) : State := { s with hrn.role := .standby }
/-- The same with a Fabrics command on a connection that has no controller. -/
def wFresh (e : SqEntry) : State := { ((wNvme true e).setFld Reg.CMD_CFG_EN 1) with
  xpt.conns := [(0, { st := .ready, admin := true })], cmdb.ctrls := [], hrn.holder := true }
/-- A started command with a payload, carried from the holder. -/
def wStP (d : Descriptor) (p : List Byte) : Started := { wSt d with env := some { command := d, payload := p } }
def wInP (s : State) (d : Descriptor) (p : List Byte) : State := { s with ctl.started := [wStP d p] }
theorem wAccP (s : State) (d : Descriptor) (p : List Byte) (op : Nat) {rsvd : List (Nat × Nat)} {payOk : Nat → Bool} {sel : Descriptor → Bool}
    (h : (mgmtRow op).isSome = true) (h2 : d.opcode.toNat = op) (hs : sel d = true) :
    (wInP s d p).Accepts 1 op rsvd payOk sel (wStP d p) (wInP s d p) := by
  obtain ⟨r, hr⟩ := Option.isSome_iff_exists.mp h
  refine ⟨?_, r, hr, .inl ⟨rfl, rfl⟩⟩
  simp [wInP, wStP, wSt, h2, hs]
/-- A booted state with these namespaces, one volume of one extent and one unbound data key. -/
def wNs (l : List (Nat × Ns)) : State := { wUp with cmdb.nss := l, lay.volumes := [(0, { used := true, extents := 1 })], cph.keys := [(0, { used := true })] }
theorem wPair {α β : Type} {x : α × β} {b : β} (h : x.2 = b) : x = (x.1, b) := by subst h; rfl
/-- A call of a core in tier 0 to the CIPHER (2) or EC (3) engine, with these ARGS. -/
def wEngC (prim : Nat) (args : List Byte) : Call := { wCall false with prim := prim, args := args }
/-- A state in which that call waits; data key 0 exists and connection 0 has wire keys. -/
def wEng (prim : Nat) (args : List Byte) : State := { wUp with
  tck.calls := [wEngC prim args], cph.keys := [(0, { used := true })], cph.saved := true,
  xpt.conns := [(0, { okm := List.replicate 72 0 })] }
/-- ARGS of a CIPHER call: operation, NBLK, handle, SRC, DST, LEN or NSID, and the header address. -/
def wCipher (op n handle src dst len hdr : Nat) : List Byte :=
  leBytes 1 op ++ [0] ++ leBytes 2 n ++ leBytes 4 handle ++ leBytes 8 src ++ leBytes 8 dst ++ leBytes 4 len ++ leBytes 4 0 ++
    leBytes 8 hdr ++ leBytes 8 0
/-- The same ARGS with NONCE_IN set. -/
def wCipherN (a : List Byte) : List Byte := a.take 1 ++ [1] ++ a.drop 2
/-- ARGS of an EC call of one source and one destination of 64 bytes. -/
def wEc (op erase : Nat) : List Byte :=
  leBytes 1 op ++ [1, 1, 0] ++ leBytes 4 64 ++ leBytes 4 erase ++ leBytes 4 0 ++ leBytes 8 0x400 ++ leBytes 8 0x800 ++ leBytes 8 0 ++
    leBytes 8 0
/-- A state in which tag 0 holds a command being read, written or held. -/
def wPhase (op : Nat) (c : Cmd) : State := { wNvme false { opcode := op, nsid := 1 } with cmdb.cmds := [(0, c)], cph.saved := true }
def wStripe : Stripe := ⟨0, 0, 7, 0, 0, 0, 0, 0, 1, 1, 0, 0, 1, [], [], [], .building, true, true, 0⟩
/-- A holder with a built layout, an allocated extent and one dirty block. -/
def wDirty : State := { ((wUp.setFld Reg.LAY_GEOM_K 4).setFld Reg.LAY_GEOM_N 8) with
  hrn.holder := true, lay.built := true, cmdb.forced := true, cph.saved := true,
  lay.volumes := [(0, { used := true, extents := 1, map := [(0, { alloc := true })] })],
  lay.buffer := [{ id := 0, nsid := 1, volume := 0, lba := 0, blk := [], cmd := none, visible := true }] }
def wOpen (j : Stripe) : State := { wUp with sbg.stripes := [j] }
/-- A holder with eight member indexes, all ACTIVE, and one drive read of member 0 out. -/
def wMem (st : MState) (use : DrvUse) (rd : Bool) : State := { ((wUp.setFld Reg.LAY_GEOM_K 4).setFld Reg.LAY_GEOM_N 8) with
  hrn.holder := true, reb.members := [(0, { st := st }), (1, { st := .active }), (2, { st := .active }), (3, { st := .active })],
  drv.cmds := [⟨3, 0, use, rd, 0, 0, 0⟩] }
def wSb : Superblock := ⟨1, 0, 1, [], 1, 0, [], 1, 1, 0, 0⟩
def wRb : RbExtent := ⟨0, 0, 0, 0, [], 1⟩
def wRebuild : State := { wDirty with lay.buffer := [], lay.rows := [(0, { members := [0], ranks := [0], rebuildHome := [0] })] }
def wRebuildExt : RbExtent := ⟨0, 0, 0, 0, [0], 1⟩
def wScrub : State := { wDirty with lay.buffer := [], reb.scrub := some ⟨0, none, [(0, 0)], false⟩ }
theorem wGet {α : Type} {x : Option α} (h : x.isSome = true) : x = some (x.get h) := (Option.some_get h).symm
def wCh (c : Chan) : State := { wUp with str.chans := [(0, c)], hrn.holder := true }
def wSlotDesc : Descriptor := wDesc 0x0300 (4 * 2 ^ 8 * 2 ^ 24 + 10 * 2 ^ 40 + 100 * 2 ^ 48 + 10 * 2 ^ 64 + 60 * 2 ^ 72 + 100 * 2 ^ 80 + 10 * 2 ^ 88)
/-- The same command started from ring 0. -/
def wStRing (d : Descriptor) : Started := { wSt d with ring := 0 }
def wRing (s : State) (d : Descriptor) : State := { s with ctl.started := [wStRing d] }
theorem wRingAcc (s : State) (d : Descriptor) (op : Nat) (r : MgmtRow) {rsvd : List (Nat × Nat)}
    (h : mgmtRow op = some r) (h2 : d.opcode.toNat = op) (hg : r.guarded = false) (h3 : d.wellFormed = true)
    (hc : (wRing s d).commonChecks r rsvd d = none) :
    (wRing s d).AcceptsPlain 1 op rsvd (wStRing d) := by
  refine ⟨?_, r, h, .inr ⟨by simp [wStRing, carriedRing], hc, .inl ⟨hg, rfl⟩⟩⟩
  simp [wRing, wStRing, wSt, h2]
/-- A twin in a role whose Harness carries flits. -/
def wPair2 (r : TwinRole) : State := { wUp with hrn.role := r, hrn.link := true, hrn.lanes := 2, hrn.holder := r = .active || r = .solo }
def wHello : PeerHello := { twinB := true, chainOk := true, versionOk := true, tag := 5, role := .solo, holder := false, arb5 := false }
def wBeat : Heartbeat := ⟨5, 0, .active, true, false, false, 1, 3, 9⟩
def wEnv : Envelope := { version := 1, adminSlot := 0, rsvd03 := 0, payloadLen := 0, nonce := 7, signedTime := 0, command := wDesc 0x0207 0, payload := [], sigOk := true }
/-- A store-and-forward switch and one frame that has arrived. -/
def wStore : State := { wUp.setFld Reg.SWC_CFG_CT_EN 0 with swc.frames := [{ id := 0, ingress := true, stage := .arriving }] }
/-- A cut-through switch with no cell left for the rest of the frame that arrives. -/
def wTrunc : State := { wUp.setFld Reg.SWC_CFG_CT_EN 1 with
  swc.used := bufferCells, swc.frames := [{ id := 0, ingress := true, stage := .arriving, len := 600, cells := 1 }] }

/-- A connection with a wheel whose next tick is at 9. -/
def wWheel (c : Conn) : State := { wConn c with
  xpt.wheelSlot := some 7, tim.slots := [(7, { owner := 3, armed := true, compare := 9, period := 9 })] }
theorem wLeLen (n v : Nat) : (leBytes n v).length = n := by induction n generalizing v <;> simp_all [leBytes]
theorem wK3Confirm : (wK3Msg.bytes.drop 0x5D0).take 32 = (wK3.conn 0).confirmH wK3Msg.bytes ((wK3.conn 0).okmOf wK3Msg.bytes wK3Msg.ssKem []) := by
  have hl : wK3Head.length = 0x5D0 := by decide +kernel
  have th (x : List Byte) : (wK3.conn 0).th1 (wK3Head ++ x) = (wK3.conn 0).th1 wK3Head := by
    unfold Conn.th1
    rw [List.take_append_of_le_length (Nat.le_of_eq hl.symm)]
  have e : wK3Msg.bytes = wK3Head ++ (((wK3.conn 0).confirmH wK3Head ((wK3.conn 0).okmOf wK3Head [] [])).take 32 ++ List.replicate 3693 0) :=
    List.append_assoc ..
  have o : (wK3.conn 0).okmOf wK3Msg.bytes wK3Msg.ssKem [] = (wK3.conn 0).okmOf wK3Head [] [] := by
    rw [e]; unfold Conn.okmOf; rw [th]; rfl
  have c (k : List Byte) : (wK3.conn 0).confirmH wK3Msg.bytes k = (wK3.conn 0).confirmH wK3Head k := by
    rw [e]; unfold Conn.confirmH; rw [th]
  have n (k : List Byte) : ((wK3.conn 0).confirmH wK3Head k).length = 32 := by simp [Conn.confirmH, beBytes, wLeLen]
  rw [o, c, e, List.drop_append_of_le_length (Nat.le_of_eq hl.symm), ← hl, List.drop_length, List.nil_append,
    List.take_append_of_le_length (by rw [List.length_take, n]; decide), List.take_take, ← n ((wK3.conn 0).okmOf wK3Head [] []), Nat.min_self, List.take_length]
/-- A namespace policer that a Write finds empty. -/
def wRed : State := { (wNvme false { opcode := 24 }).updConn 0 fun x =>
    { x with rxq := [{ entry := { opcode := 1, nsid := 1, cid := 1 }, sqIndex := 0 }] } with
  qos.policers := [(0, { used := true, attach := 2, target := 1, writes := true, reads := true })] }
/-- A twin that serves, with a controller whose host is not enrolled. -/
def wFresh2 : State := { ((wFresh { opcode := 0x7F, fctype := 1, cdw10 := 65536, cdw11 := 31 }).setFld Reg.CMD_LIMITS_MAX_QD 1024) with
  cmdb.ctrls := [(0, { used := true, hostId := 7, ioqs := 64 })] }

/-! ### Witnesses: the hypotheses of each clause can hold together -/

theorem witness_StepRunsTheFrontCommand_0 : ∃ (c : Instr) (cs : List Instr) (s : State), s.pending = c :: cs :=
  ⟨.nop 1, [], { State.reset with pending := [.nop 1] }, by decide⟩

theorem witness_StepRunsTheFrontCommand_1 : ∃ (s : State), s.pending = [] :=
  ⟨State.reset, by decide⟩

theorem witness_StepKeepsMemoryCanonical_0 : ∃ (s : State), Memory.wf s.mem = true :=
  ⟨State.reset, by decide⟩

theorem witness_OnlyStoringCommandsChangeMemory_0 : ∃ (c : Instr) (s : State), stores c = false :=
  ⟨.nop 1, State.reset, by decide⟩

theorem witness_WrittenBytesReadBackAndNoOthersChange_0 : ∃ (m : List Host.Cell) (a i : Nat) (b : List Byte), i < b.length :=
  ⟨[], 5, 1, [1, 2], by decide⟩

theorem witness_WrittenBytesReadBackAndNoOthersChange_1 : ∃ (m : List Host.Cell) (a j : Nat) (b : List Byte), j < a ∨ a + b.length ≤ j :=
  ⟨[], 5, 7, [1, 2], by decide⟩

theorem witness_WrittenBytesReadBackAndNoOthersChange_2 : ∃ (s : State) (a : Nat) (b : List Byte), Memory.wf s.mem = true :=
  ⟨State.reset, 5, [1, 2], by decide⟩

theorem witness_NoncesAreIssuedForALifeAndUsedOnce_0 : ∃ (s : State) (id : Nat) (c : Started), s.AcceptsPlain id 2 [(0, 40)] c ∧
    s.sec.stopped = false ∧ s.ctl.storm = false :=
  ⟨wCmd 2 0, 1, wStarted 2 0, wAccepts _ 2 0 rfl rfl rfl rfl, rfl, rfl⟩

theorem witness_NoncesAreIssuedForALifeAndUsedOnce_1 : ∃ (s : State) (τ E : Nat) (v : BitVec 128), (⟨v, E⟩ : Nonce) ∈ s.ctl.nonces ∧
    (∀ n ∈ s.ctl.nonces, n.value = v → n.expires = E) :=
  ⟨{ State.reset with ctl.nonces := [⟨7, 9⟩] }, 3, 9, 7, by decide⟩

theorem witness_NoncesAreIssuedForALifeAndUsedOnce_2 : ∃ (s : State) (c : Started) (e : Envelope) (payOk : Nat → Bool), c.env = some e ∧
    envelopeOk c.desc e payOk = true ∧ s.guardKeyOk c.desc e = true :=
  ⟨{ State.reset with sec.admins := 1 }, { wStarted 0x0207 0 with desc := { wDesc 0x0207 0 with dataLen := 0x1E0 }, env := some wEnv }, wEnv, fun _ => true, rfl, by decide, by decide⟩

theorem witness_ZeroMetadataReadsAsZeros_0 : ∃ (s : State) (gens : List (Nat × List Byte)) (nsid gen lba : Nat) (ct : List Byte), ct.length
    = 4096 :=
  ⟨State.reset, [], 1, 0, 0, List.replicate 4096 0, List.length_replicate⟩

theorem witness_ZeroMetadataReadsAsZeros_1 : ∃ (s u : State) (n k pre : Nat), s.cph.ctrEpoch ≠ 0 ∧ s.cph.ctrEpoch < 2 ^ 24 ∧
    s.cph.ctrCount < 2 ^ 40 ∧ s.takeCtrs n = (u, some k) :=
  ⟨{ State.reset with cph.ctrEpoch := 1, cph.saved := true }, _, 1, 2 ^ 40, 0, by decide, by decide, by decide, wPair (by decide +kernel)⟩

theorem witness_DrainRefusesAllButFourCommands_0 : ∃ (s : State) (id op : Nat) (c : Started) (r : MgmtRow) (rs : List (Nat × Nat)) (pay :
    Nat → Bool) (sel : Descriptor → Bool) (body : Started → State → State), s.pwr.st = .drain ∧
    s.ctl.started.find? (fun c => c.id = id && c.desc.opcode.toNat = op && !c.waits && sel c.desc) = some c ∧ mgmtRow op = some r ∧
    c.ring ≠ carriedRing ∧ c.desc.wellFormed = true ∧ op ∉ [0x0000, 0x0001, 0x0100, 0x0801] :=
  ⟨{ State.reset with pwr.st := .drain, ctl.started := [{ wStarted 2 0 with ring := 0 }] }, 1, 2, { wStarted 2 0 with ring := 0 }, _, [], fun _ => true, fun _ => true, fun _ s => s, rfl, by decide, rfl, by decide, by decide, by decide⟩

theorem witness_DrainRefusesAllButFourCommands_1 : ∃ (s : State) (op : Nat) (r : MgmtRow) (rs : List (Nat × Nat)) (d : Descriptor), mgmtRow
    op = some r ∧ op ∈ [0x0000, 0x0001, 0x0100, 0x0801] :=
  ⟨State.reset, 0, _, [], wDesc 0 0, rfl, by decide⟩

theorem witness_OccurrencesAreCoalescedNeverDropped_0 : ∃ (s : State) (n : Nat) (d : List Nat), (s.src n).ringEn = true :=
  ⟨{ State.reset with evt.srcs := [(5, { ringEn := true, count := 1 })] }, 5, [], by decide⟩

theorem witness_OccurrencesAreCoalescedNeverDropped_1 : ∃ (s : State) (n : Nat) (d : List Nat), (s.src n).ringEn = false :=
  ⟨State.reset, 64, [], by decide⟩

theorem witness_OccurrencesAreCoalescedNeverDropped_2 : ∃ (s : State) (n m : Nat) (d : List Nat), m ≠ n :=
  ⟨State.reset, 64, 65, [], by decide⟩

theorem witness_OccurrencesAreCoalescedNeverDropped_3 : ∃ (s : State) (n : Nat) (d : List Nat), srcClass n = .nmi :=
  ⟨State.reset, 5, [], by decide⟩

theorem witness_CompletionsUseTheirReservedSlot_0 : ∃ (s : State) (c : Started) (st : MStatus) (r0 r1 : Nat), c.ring ≠ carriedRing ∧
    c.drop = false ∧ (s.ering c.ering).posts = true ∧ (s.ering c.ering).owed = [] ∧ (s.ering c.ering).used < (s.ering c.ering).size :=
  ⟨wRings, { wStarted 0 0 with ring := 0 }, .success, 0, 0, by decide⟩

theorem witness_CompletionsUseTheirReservedSlot_1 : ∃ (s : State) (c : Started) (st : MStatus) (r0 r1 : Nat), c.ring ≠ carriedRing ∧
    c.drop = false ∧ (s.ering c.ering).posts = true ∧ ((s.ering c.ering).owed ≠ [] ∨ (s.ering c.ering).size ≤ (s.ering c.ering).used) :=
  ⟨{ wRings with ctl.erings := [(0, { enabled := true, used := 16, reserved := 1 })] }, { wStarted 0 0 with ring := 0 }, .success, 0, 0, by decide⟩

theorem witness_CompletionsUseTheirReservedSlot_2 : ∃ (s : State) (c : Started) (st : MStatus) (r0 r1 : Nat), c.ring ≠ carriedRing ∧
    (c.drop = true ∨ (s.ering c.ering).posts = false) :=
  ⟨State.reset, { wStarted 0 0 with ring := 0 }, .success, 0, 0, by decide⟩

theorem witness_CompletionsUseTheirReservedSlot_3 : ∃ (s : State) (c : Started) (st : MStatus) (r0 r1 : Nat), c.ring = carriedRing ∧
    c.drop = false :=
  ⟨State.reset, wStarted 0 0, .success, 0, 0, by decide⟩

theorem witness_RegisterAccessesReadAndWriteWhatTheTablesSay_0 : ∃ (s : State) (a i j : Nat) (v : Word) (d : RegDesc), s.responds true a =
    true ∧ a < 0x102000 ∧ regAt a = some (d, i, j) :=
  ⟨wRings, 0x80008, _, _, 30, _, by decide, by decide, rfl⟩

theorem witness_RegisterAccessesReadAndWriteWhatTheTablesSay_1 : ∃ (s : State) (a : Nat) (v : Word), s.responds true a = true ∧
    0x78000 ≤ a ∧ a < 0x90000 ∧ (regAt a).isSome = true ∧ s.acceptsWrite a = true ∧ fieldsInRange a v = true :=
  ⟨wRings, 0x80008, 30, by decide⟩

theorem witness_RegisterAccessesReadAndWriteWhatTheTablesSay_2 : ∃ (s : State) (a : Nat) (v : Word), s.responds true a = true ∧
    0x78000 ≤ a ∧ a < 0x90000 ∧ (regAt a).isSome = true ∧ fieldsInRange a v = false :=
  ⟨wRings, 0x80008, 0, by decide⟩

theorem witness_RegisterAccessesReadAndWriteWhatTheTablesSay_3 : ∃ (s : State) (a : Nat) (v : Word), s.responds true a = true ∧
    0x102000 ≤ a :=
  ⟨wRings, 0x102004, 9, by decide⟩

theorem witness_RegisterAccessesReadAndWriteWhatTheTablesSay_4 : ∃ (s : State) (a : Nat), s.responds false a = true ∧ a < 0x100000 ∧
    (regAt a).isSome = true ∧ shadowed a = false ∧ a ≠ 0x8010 :=
  ⟨wRings, 0x78030, by decide⟩

theorem witness_RegisterAccessesReadAndWriteWhatTheTablesSay_5 : ∃ (s : State) (a : Nat), s.responds false a = true ∧ a < 0x100000 ∧
    (regAt a).isSome = true ∧ shadowed a = true :=
  ⟨wRings, 0xC00C, by decide⟩

theorem witness_RegisterAccessesReadAndWriteWhatTheTablesSay_6 : ∃ (s : State) (a : Nat), s.responds false a = true ∧ 0x78010 ≤ a ∧
    a < 0x90000 ∧ (regAt a).isSome = true ∧ shadowed a = false ∧ highOf a = none ∧ a ≠ Reg.CPH_HOLD_MIN_MIN_FREE.addr :=
  ⟨wRings, 0x78034, by decide⟩

theorem witness_RegisterAccessesReadAndWriteWhatTheTablesSay_7 : ∃ (s : State) (a : Nat), s.responds false a = true ∧ 0x102000 ≤ a :=
  ⟨wRings, 0x102004, by decide⟩

theorem witness_RegisterAccessesReadAndWriteWhatTheTablesSay_8 : ∃ (s : State) (a : Nat), s.responds false a = true ∧ 0x100000 ≤ a ∧
    a < 0x102000 :=
  ⟨wRings, 0x100004, by decide⟩

theorem witness_RegisterAccessesReadAndWriteWhatTheTablesSay_9 : ∃ (s : State) (a h : Nat), s.responds false a = true ∧ highOf a = some h :=
  ⟨wRings, 0xC008, 0xC00C, by decide⟩

theorem witness_RegisterAccessesReadAndWriteWhatTheTablesSay_10 : ∃ (s : State) (width a : Nat), s.responds false a = true ∧ (width ≠ 4 ∨
    a % 4 ≠ 0) :=
  ⟨wRings, 2, 0x78000, by decide⟩

theorem witness_RegisterAccessesReadAndWriteWhatTheTablesSay_11 : ∃ (s : State) (width a : Nat), s.responds true a = true ∧ (width ≠ 4 ∨
    a % 4 ≠ 0 ∨ regAt a = none) :=
  ⟨wRings, 4, 0xF0000, by decide⟩

theorem witness_RegisterAccessesReadAndWriteWhatTheTablesSay_12 : ∃ (s : State) (a : Nat), s.responds false a = true ∧ a % 4 = 0 ∧
    regAt a = none :=
  ⟨wRings, 0xF0000, by decide⟩

theorem witness_ResetsKeepWhatTheTableKeeps_0 : ∃ (s : State), s.pwr.powered = true ∧ s.pwr.railHold = false ∧ s.pwr.thermHold = false ∧
    s.clk.resetHold = none :=
  ⟨wRings, by decide⟩

theorem witness_ResetsKeepWhatTheTableKeeps_1 : ∃ (s : State) (v : Word), v ≠ 0xD15CA4D0 :=
  ⟨State.reset, 0, by decide⟩

theorem witness_ResetsKeepWhatTheTableKeeps_2 : ∃ (s : State), s.pwr.powered = true ∧ s.clk.pinHeld = false ∧ s.pwr.railHold = false ∧
    s.pwr.thermHold = false ∧ s.clk.resetHold = none :=
  ⟨wRings, by decide⟩

theorem witness_ResetsKeepWhatTheTableKeeps_3 : ∃ (s : State) (w : Nat), s.ctl.wedgedAt = some w ∧ s.flag Reg.GLB_WDOG_AUTO_RESET = true ∧
    s.pwr.powered = true ∧ s.pwr.railHold = false ∧ s.pwr.thermHold = false ∧ s.clk.resetHold = none :=
  ⟨({ wRings with ctl.wedgedAt := some 5 }).setFld Reg.GLB_WDOG_AUTO_RESET 1, 5, by decide⟩

theorem witness_ResetsKeepWhatTheTableKeeps_5 : ∃ (s : State) (e : Nat), s.clk.resetHold = some e ∧ s.clk.pinHeld = false ∧
    s.clk.fioReady = true :=
  ⟨{ State.reset with clk.resetHold := some 5, clk.fioReady := true, clk.pinHeld := false }, 5, by decide⟩

theorem witness_ResetsKeepWhatTheTableKeeps_7 : ∃ (s : State) (core : Fin 256) (code : Nat) (r : HookRun), s.coreRuns core = true ∧
    s.runOn core = some r ∧ code < hookCodes r.hook :=
  ⟨wHook, 0, 1, wHookRun, by decide⟩

theorem witness_ResetsKeepWhatTheTableKeeps_8 : ∃ (s : State) (core : Fin 256) (r : HookRun), s.runOn core = some r :=
  ⟨wHook, 0, wHookRun, by decide⟩

theorem witness_ResetsKeepWhatTheTableKeeps_9 : ∃ (s : State) (l : Fin 12) (k : Nat), (s.slalom l).slot = some k ∧
    (s.slalom l).enabled = true ∧ (s.slot k).armed = true ∧ (s.slalom l).swapFirst (s.slot k).compare = false :=
  ⟨{ State.reset with tim.slots := [(7, { owner := 2, armed := true, compare := 100 })], qos.lists := [(0, { enabled := true, slot := some 7 })] }, 0, 7, by decide⟩

theorem witness_PtpClientFollowsItsGrandmaster_0 : ∃ (s : State) (k : Fin 32) (m : PtpMaster), s.ptpPort k = true ∧
    s.ptpSupported m = true ∧ (∀ g ∈ s.tim.gm, betterMaster m g k s.tim.gmPort = true ∨ (g.identity = m.identity ∧ s.tim.gmPort = k)) :=
  ⟨wPtp, 0, wMaster, by decide⟩

theorem witness_PtpClientFollowsItsGrandmaster_1 : ∃ (s : State) (k : Fin 32) (ident origin : Nat) (corr : Int), s.ptpPort k = true ∧
    s.tim.gmPort = k ∧ s.tim.gm.map PtpMaster.identity = some ident ∧ s.tim.st ≠ .twin ∧ s.tim.st ≠ .locked :=
  ⟨{ wPtp with tim.gm := some wMaster }, 0, wMaster.identity, 0, 0, by decide⟩

theorem witness_PtpClientFollowsItsGrandmaster_2 : ∃ (s : State) (k : Fin 32) (ident origin : Nat) (corr : Int), s.ptpPort k = true ∧
    s.tim.gmPort = k ∧ s.tim.gm.map PtpMaster.identity = some ident ∧ s.tim.st = .locked :=
  ⟨{ wPtp with tim.gm := some wMaster, tim.st := .locked }, 0, wMaster.identity, 0, 0, by decide⟩

theorem witness_PtpClientFollowsItsGrandmaster_3 : ∃ (s : State) (k : Fin 32) (t4 : Nat), s.ptpPort k = true ∧ s.tim.gmPort = k ∧
    s.tim.gm ≠ none ∧ s.fld Reg.TIM_CTL_DELAY_MECH = 0 :=
  ⟨{ wPtp with tim.gm := some wMaster }, 0, 5, by decide⟩

theorem witness_PtpClientFollowsItsGrandmaster_4 : ∃ (s : State) (k : Fin 32) (t2 t3 : Nat), s.ptpPort k = true ∧ s.tim.gmPort = k ∧
    s.tim.gm ≠ none ∧ s.fld Reg.TIM_CTL_DELAY_MECH = 1 :=
  ⟨{ wPtp.setFld Reg.TIM_CTL_DELAY_MECH 1 with tim.gm := some wMaster }, 0, 5, 6, by decide⟩

theorem witness_PtpClientFollowsItsGrandmaster_5 : ∃ (s : State), s.flag Reg.TIM_CTL_PTP_EN = true ∧ s.tim.gm ≠ none :=
  ⟨{ wPtp with tim.gm := some wMaster }, by decide⟩

theorem witness_ServoLossHoldoverAndFloor_0 : ∃ (s : State), s.tim.st = .locked ∧ s.tim.syncsSeen = false ∧
    s.fld Reg.TIM_HOLD_LOSS_INTERVALS ≤ s.tim.missedSyncs + 1 :=
  ⟨{ wPtp with tim.st := .locked, tim.missedSyncs := 8 }, by decide⟩

theorem witness_ServoLossHoldoverAndFloor_1 : ∃ (s : State), s.tim.st = .locked ∧ s.tim.announceSeen = false ∧ s.tim.gm ≠ none :=
  ⟨{ wPtp with tim.st := .locked, tim.gm := some wMaster }, by decide⟩

theorem witness_ServoLossHoldoverAndFloor_2 : ∃ (s : State), s.tim.st = .acquiring ∧ 16 ≤ s.tim.goodSyncs ∧ s.tim.newOffset = false :=
  ⟨{ State.reset with tim.st := .acquiring, tim.goodSyncs := 16 }, by decide⟩

theorem witness_ServoLossHoldoverAndFloor_3 : ∃ (s : State), s.tim.st = .locked :=
  ⟨{ State.reset with tim.st := .locked }, by decide⟩

theorem witness_ServoLossHoldoverAndFloor_4 : ∃ (s : State) (id : Nat) (c : Started), s.AcceptsPlain id 0x0003 [(0x08, 32)] c ∧
    c.desc.par 0 8 ≠ 0 ∧ c.desc.par 0 8 < 2 ^ 63 :=
  ⟨wCmd 0x0003 5, 1, wStarted 0x0003 5, wAccepts _ 0x0003 5 rfl rfl rfl rfl, by decide⟩

theorem witness_ServoLossHoldoverAndFloor_5 : ∃ (s : State), s.clk.xaTripped = false :=
  ⟨State.reset, by decide⟩

theorem witness_ServoLossHoldoverAndFloor_6 : ∃ (s : State), s.clk.xaTripped = true :=
  ⟨{ State.reset with clk.xaTripped := true }, by decide⟩

theorem witness_RingsAreEnabledDisabledAndRung_0 : ∃ (s : State) (v : Word), getBits v 0 0 = 1 ∧ s.selEvent = true ∧ 4 ≤ getBits v 5 1 ∧
    getBits v 5 1 ≤ 16 ∧ (s.ering s.selRing).enabled = false ∧ s.flag Reg.CTL_CFG_EN = true ∧ s.clk.bootDone = true :=
  ⟨wRings.setFld Reg.CTL_RING_SEL_TYPE 1 |>.setFld Reg.CTL_RING_SEL_RING 9, 9, by decide⟩

theorem witness_RingsAreEnabledDisabledAndRung_1 : ∃ (s : State) (v : Word), getBits v 0 0 = 1 ∧ s.selEvent = false ∧ 4 ≤ getBits v 4 1 ∧
    getBits v 4 1 ≤ 12 ∧ (s.cring s.selRing).enabled = false ∧ s.flag Reg.CTL_CFG_EN = true ∧ s.clk.bootDone = true ∧
    (s.ering (getBits v 15 8)).enabled = true :=
  ⟨wRings.setFld Reg.CTL_RING_SEL_RING 9, 9, by decide⟩

theorem witness_RingsAreEnabledDisabledAndRung_2 : ∃ (s : State) (v : Word), getBits v 0 0 = 0 ∧ s.selEvent = false ∧ 4 ≤ getBits v 4 1 ∧
    getBits v 4 1 ≤ 12 ∧ (s.cring s.selRing).enabled = true ∧ getBits v 4 1 = (s.cring s.selRing).log2 ∧
    getBits v 15 8 = (s.cring s.selRing).ering :=
  ⟨wRings, 8, by decide⟩

theorem witness_RingsAreEnabledDisabledAndRung_3 : ∃ (s : State) (v : Word), getBits v 0 0 = 0 ∧ s.selEvent = true ∧ 4 ≤ getBits v 5 1 ∧
    getBits v 5 1 ≤ 16 ∧ (s.ering s.selRing).enabled = true ∧ getBits v 5 1 = (s.ering s.selRing).log2 ∧ (s.eringBound s.selRing = false ∨
    (s.ering s.selRing).err = true) :=
  ⟨({ wRings with ctl.crings := [] }).setFld Reg.CTL_RING_SEL_TYPE 1, 8, by decide⟩

theorem witness_RingsAreEnabledDisabledAndRung_5 : ∃ (s : State) (n : Fin 256) (idx : Nat), (s.cring n).enabled = true ∧
    idx < (s.cring n).size ∧ idx < 2 ^ 16 ∧ idx ≠ (s.cring n).tail ∧
    ((s.cring n).tail + (s.cring n).size - (s.cring n).head) % (s.cring n).size ≤ (idx + (s.cring n).size - (s.cring n).head) % (s.cring
    n).size :=
  ⟨wRings, 0, 3, by decide⟩

theorem witness_RingsAreEnabledDisabledAndRung_6 : ∃ (s : State) (n : Fin 256) (idx : Nat), (s.cring n).enabled = true ∧
    (s.cring n).size ≤ idx ∧ idx < 2 ^ 16 :=
  ⟨wRings, 0, 16, by decide⟩

theorem witness_RingsAreEnabledDisabledAndRung_7 : ∃ (s : State) (n : Fin 256) (idx : Nat), (s.ering n).enabled = true ∧
    idx < (s.ering n).size ∧ idx < 2 ^ 16 ∧ 0 < (idx + (s.ering n).size - (s.ering n).head) % (s.ering n).size ∧
    (idx + (s.ering n).size - (s.ering n).head) % (s.ering n).size ≤ (s.ering n).used :=
  ⟨{ wRings with ctl.erings := [(0, { enabled := true, used := 5 })] }, 0, 3, by decide⟩

theorem witness_RingsAreEnabledDisabledAndRung_8 : ∃ (s : State) (n : Fin 256), (s.cring n).enabled = true ∧ (s.cring n).err = false :=
  ⟨wRings, 0, by decide⟩

theorem witness_RingsAreEnabledDisabledAndRung_9 : ∃ (s : State) (n : Fin 256), (s.ering n).enabled = true ∧ (s.ering n).err = false :=
  ⟨wRings, 0, by decide⟩

theorem witness_CommandsAreFetchedAndAnswered_0 : ∃ (s : State) (n : Fin 256) (d : Descriptor) (env : Option Envelope), s.nextRing = some
    n.val ∧ (s.cring n).fence = none ∧ (d.fence && s.ringActive n) = false ∧ (mgmtRow d.opcode.toNat).isSome = true :=
  ⟨wRings, 0, wDesc 0 0, none, by decide⟩

theorem witness_CommandsAreFetchedAndAnswered_1 : ∃ (s : State) (n : Fin 256) (d : Descriptor) (env : Option Envelope), s.nextRing = some
    n.val ∧ (s.cring n).fence = none ∧ (d.fence && s.ringActive n) = false ∧ mgmtRow d.opcode.toNat = none :=
  ⟨wRings, 0, wDesc 0xFFFF 0, none, by decide⟩

theorem witness_CommandsAreFetchedAndAnswered_2 : ∃ (s : State) (n : Fin 256) (d : Descriptor) (env : Option Envelope), s.nextRing = some
    n.val ∧ (s.cring n).fence = none ∧ (d.fence && s.ringActive n) = true :=
  ⟨{ wRings with ctl.started := [{ wStarted 0 0 with ring := 0 }] }, 0, { wDesc 0 0 with flags := 2 }, none, by decide⟩

theorem witness_CommandsAreFetchedAndAnswered_3 : ∃ (s : State) (n : Fin 256) (d d' : Descriptor) (env env' : Option Envelope), s.nextRing =
    some n.val ∧ (s.cring n).fence = some (d, env) ∧ (mgmtRow d.opcode.toNat).isSome = true :=
  ⟨{ wRings with ctl.crings := [(0, { enabled := true, tail := 2, fence := some (wDesc 0 0, none) })] }, 0, wDesc 0 0, wDesc 0 0, none, none, by decide⟩

theorem witness_CommandsAreFetchedAndAnswered_4 : ∃ (s : State) (n : Fin 256) (i : Nat), s.awake = true ∧ s.ctlRuns = true ∧
    (s.ering n).enabled = true ∧ (s.ering n).err = false ∧ 0 < (s.ering n).free ∧ s.nextEntry n = some i ∧
    (s.src i).old.find? (fun o => o.ring = n.val) = none :=
  ⟨{ wRings with evt.srcs := [(5, { ringEn := true, count := 3 })], pwr.powered := true, clk.hold := false, clk.resetHold := none }, 0, 5, by decide⟩

theorem witness_CommandsAreFetchedAndAnswered_5 : ∃ (s : State) (n : Fin 256) (i : Nat) (o : OldCount), s.awake = true ∧ s.ctlRuns = true ∧
    (s.ering n).enabled = true ∧ (s.ering n).err = false ∧ 0 < (s.ering n).free ∧ s.nextEntry n = some i ∧
    (s.src i).old.find? (fun o => o.ring = n.val) = some o :=
  ⟨{ wRings with evt.srcs := [(5, { ringEn := true, ering := 1, count := 3, old := [⟨0, 2, [], 7⟩] })], pwr.powered := true, clk.hold := false, clk.resetHold := none }, 0, 5, ⟨0, 2, [], 7⟩, by decide⟩

theorem witness_CommandsAreFetchedAndAnswered_6 : ∃ (s : State) (n : Fin 256), (s.ering n).enabled = true ∧ (s.ering n).coalTime ≠ 0 ∧
    (s.ering n).unsignalled ≠ 0 :=
  ⟨{ wRings with ctl.erings := [(0, { enabled := true, coalTime := 5, unsignalled := 5 })] }, 0, by decide⟩

theorem witness_CommandsAreFetchedAndAnswered_7 : ∃ (s : State) (id : Nat) (c : Started), s.AcceptsPlain id 0x0000 [(0, 40)] c :=
  ⟨wCmd 0 0, 1, wStarted 0 0, wAccepts _ 0 0 rfl rfl rfl rfl⟩

theorem witness_CommandsAreFetchedAndAnswered_8 : ∃ (s : State) (id : Nat) (c : Started), s.AcceptsPlain id 0x0001 [(0, 40)] c ∧
    c.desc.dataLen = 4096 :=
  ⟨wIn State.reset { opcode := 1, dataLen := 4096 }, 1, wSt { opcode := 1, dataLen := 4096 }, ⟨rfl, _, rfl, .inl ⟨rfl, rfl⟩⟩, rfl⟩

theorem witness_CommandsAreFetchedAndAnswered_9 : ∃ (s : State) (id : Nat) (c : Started), s.AcceptsPlain id 0x0002 [(0, 40)] c ∧
    s.sec.stopped = false ∧ s.ctl.storm = false :=
  ⟨wCmd 2 0, 1, wStarted 2 0, wAccepts _ 2 0 rfl rfl rfl rfl, by decide, by decide⟩

theorem witness_CommandsAreFetchedAndAnswered_10 : ∃ (s : State), s.ctl.storm = true :=
  ⟨{ State.reset with ctl.storm := true }, by decide⟩

theorem witness_CommandsAreFetchedAndAnswered_12 : ∃ (s : State) (b : Fin 22), b.val ≠ 4 ∧ s.holdsWork b = true ∧
    s.ctl.wedged.getLsbD b = false :=
  ⟨wCalls false, 19, by decide⟩

theorem witness_CommandsAreFetchedAndAnswered_13 : ∃ (s : State) (c : Started) (cs : List Started), s.ctl.started = c :: cs ∧
    s.ctl.wedged.getLsbD 4 = false :=
  ⟨wCmd 0 0, wStarted 0 0, [], by decide⟩

theorem witness_PrimitiveCallsIssueAndComplete_0 : ∃ (s : State) (core : Fin 256) (f : BitVec 7) (r : BitVec 25) (w : Word) (a : Nat),
    s.coreRuns core = true ∧ getBits w 24 20 = 0 ∧ getBits w 14 12 = 0 ∧ getBits w 31 25 ≤ 9 ∧ s.mayReadAt core a = true ∧
    (s.outstanding core).length < 16 ∧ (s.inTier1 core = true → s.tier1May (getBits w 31 25) = true) ∧ w = customWord f r :=
  ⟨State.reset, 3, 4, 0x0B, 4 * 2 ^ 25 + 0x0B, 0, by decide⟩

theorem witness_PrimitiveCallsIssueAndComplete_1 : ∃ (s : State) (core : Fin 256) (f : BitVec 7) (r : BitVec 25) (w : Word) (a : Nat),
    s.coreRuns core = true ∧ getBits w 24 20 = 0 ∧ getBits w 14 12 = 0 ∧ getBits w 31 25 ≤ 9 ∧ s.mayReadAt core a = true ∧
    16 ≤ (s.outstanding core).length ∧ w = customWord f r :=
  ⟨{ State.reset with tck.calls := (List.range 16).map fun k => { wCall false with slot := k } }, 0, 4, 0x0B, 4 * 2 ^ 25 + 0x0B, 0, by decide⟩

theorem witness_PrimitiveCallsIssueAndComplete_2 : ∃ (s : State) (core : Fin 256) (f : BitVec 7) (r : BitVec 25) (w : Word) (a : Nat) (k :
    BitVec 64), s.coreRuns core = true ∧ (getBits w 24 20 ≠ 0 ∨ 3 ≤ getBits w 14 12 ∨ (getBits w 14 12 = 0 ∧ 9 < getBits w 31 25) ∨
    (getBits w 14 12 ≠ 0 ∧ getBits w 31 25 ≠ 0)) ∧ w = customWord f r :=
  ⟨State.reset, 3, 10, 0x0B, 10 * 2 ^ 25 + 0x0B, 0, 0, by decide⟩

theorem witness_PrimitiveCallsIssueAndComplete_3 : ∃ (s : State) (core : Fin 256) (f : BitVec 7) (r : BitVec 25) (w : Word) (k : BitVec 64)
    (c : Call), s.coreRuns core = true ∧ getBits w 24 20 = 0 ∧ getBits w 31 25 = 0 ∧ s.callOf core k.toNat = some c ∧ c.done = true ∧
    w = customWord f r :=
  ⟨wCalls true, 0, 0, 0x100B, 0x100B, 0, wCall true, by decide⟩

theorem witness_PrimitiveCallsIssueAndComplete_4 : ∃ (s : State) (core : Fin 256) (f : BitVec 7) (r : BitVec 25) (w : Word) (k : BitVec 64)
    (c : Call), s.coreRuns core = true ∧ getBits w 24 20 = 0 ∧ getBits w 31 25 = 0 ∧ s.callOf core k.toNat = some c ∧ c.done = false ∧
    w = customWord f r :=
  ⟨wCalls false, 0, 0, 0x200B, 0x200B, 0, wCall false, by decide⟩

theorem witness_PrimitiveCallsIssueAndComplete_5 : ∃ (s : State) (core : Fin 256) (f : BitVec 7) (r : BitVec 25) (w : Word) (k : BitVec 64),
    s.coreRuns core = true ∧ getBits w 24 20 = 0 ∧ getBits w 31 25 = 0 ∧ s.callOf core k.toNat = none ∧ w = customWord f r :=
  ⟨State.reset, 0, 0, 0x100B, 0x100B, 0, by decide⟩

theorem witness_PrimitiveCallsIssueAndComplete_6 : ∃ (s : State) (core : Fin 256) (slot : Fin 16) (c : Call), s.tck.calls.find? (fun c =>
    c.core = core.val && c.slot = slot.val && !c.done && c.res.isSome) = some c :=
  ⟨{ State.reset with tck.calls := [{ wCall false with res := some (0, 7), addr := 64, notify := true }] }, 0, 0, { wCall false with res := some (0, 7), addr := 64, notify := true }, by decide⟩

theorem witness_PrimitiveCallsIssueAndComplete_7 : ∃ (s : State) (core : Fin 256) (slot : Fin 16) (c : Call) (st r : Nat), s.tck.calls.find?
    (fun c => c.core = core.val && c.slot = slot.val && !c.done && c.res.isSome) = some c ∧ c.res = some (st, r) ∧ c.addr ≠ 0 ∧
    c.notify = false ∧ c.orphan = false ∧ (∀ x ∈ s.tck.waits, x.core ≠ core.val) ∧ (∀ x ∈ s.tck.stalls, x.core ≠ core.val) :=
  ⟨{ State.reset with tck.calls := [{ wCall false with res := some (0, 7), addr := 64 }] }, 0, 0, { wCall false with res := some (0, 7), addr := 64 }, 0, 7, by decide⟩

theorem witness_PrimitiveCallsIssueAndComplete_8 : ∃ (s : State) (n : Fin 512), (s.slot n).owner ≠ 0 ∧ (s.slot n).owner ≠ 2 ∧
    (s.slot n).armed = true ∧ (s.slot n).action = 0 ∧ s.xpt.wheelSlot ≠ some n.val :=
  ⟨{ State.reset with tim.slots := [(7, { owner := 3, armed := true })] }, 7, by decide⟩

theorem witness_EnginesServeTheCalls_0 : ∃ (s : State) (c : Call) (src dst : Loc) (n : Nat), s.nextCall 4 = some c ∧ n ≤ 0x200000 ∧
    s.moveMay c src n false = true ∧ s.moveMay c dst n true = true :=
  ⟨{ State.reset with tck.calls := [{ wCall false with prim := 4 }] }, { wCall false with prim := 4 }, .addr 0, .cell 3, 8, by decide⟩

theorem witness_EnginesServeTheCalls_1 : ∃ (s : State) (c : Call) (src dst n p q : Nat), s.nextCall 4 = some c ∧ n ≤ 0x200000 ∧
    inImage src = false ∧ inImage dst = false ∧ s.access c src n false = some p ∧ s.access c dst n true = some q :=
  ⟨{ State.reset with tck.calls := [{ wCall false with prim := 4 }] }, { wCall false with prim := 4 }, 0, 64, 8, 0x04000000, 0x04000040, by decide⟩

theorem witness_EnginesServeTheCalls_2 : ∃ (s : State) (c : Call) (src dst : Loc) (n : Nat), s.nextCall 4 = some c ∧ n ≤ 0x200000 ∧
    (s.moveMay c src n false = false ∨ s.moveMay c dst n true = false) :=
  ⟨{ State.reset with tck.calls := [{ wCall false with prim := 4 }] }, { wCall false with prim := 4 }, .addr 0x200000, .addr 64, 8, by decide⟩

theorem witness_EnginesServeTheCalls_3 : ∃ (s : State) (c : Call) (o p : Nat) (offs : List Byte), s.nextCall 0 = some c ∧
    s.access c o offs.length true = some p :=
  ⟨wCalls false, wCall false, 0, 0x04000000, [1], by decide⟩

theorem witness_EnginesServeTheCalls_4 : ∃ (s : State) (c : Call) (q a n p : Nat), s.nextCall 6 = some c ∧ q ≤ 74239 ∧
    s.access c a n false = some p :=
  ⟨{ State.reset with tck.calls := [{ wCall false with prim := 6 }] }, { wCall false with prim := 6 }, 0, 0, 8, 0x04000000, by decide⟩

theorem witness_EnginesServeTheCalls_5 : ∃ (s : State) (c : Call) (q a p : Nat) (e : List Byte) (es : List (List Byte)), s.nextCall 6 = some
    c ∧ q ≤ 74239 ∧ (s.queue q).entries = e :: es ∧ s.access c a e.length true = some p :=
  ⟨{ State.reset with tck.calls := [{ wCall false with prim := 6 }], tck.queues := [(0, { entries := [[1]] })] }, { wCall false with prim := 6 }, 0, 0, 0x04000000, [1], [], by decide⟩

theorem witness_EnginesServeTheCalls_6 : ∃ (s : State) (c : Call) (q : Nat), s.nextCall 6 = some c ∧ q ≤ 74239 :=
  ⟨{ State.reset with tck.calls := [{ wCall false with prim := 6 }] }, { wCall false with prim := 6 }, 0, by decide⟩

theorem witness_EnginesServeTheCalls_7 : ∃ (s : State) (c : Call) (o p : Nat), s.nextCall 7 = some c ∧ s.access c o 8 true = some p :=
  ⟨{ State.reset with tck.calls := [{ wCall false with prim := 7 }] }, { wCall false with prim := 7 }, 0, 0x04000000, by decide⟩

theorem witness_SlotsCountersAndLocksOfTheCores_0 : ∃ (s : State) (c : Call) (o cmp per act tgt n : Nat), s.nextCall 7 = some c ∧ act < 5 ∧
    (c.tier1 = true → s.tier1Slots < 256) ∧ s.findSlot = some n :=
  ⟨{ State.reset with tck.calls := [{ wCall false with prim := 7 }] }, { wCall false with prim := 7 }, 0, 9, 9, 0, 0, 0, by decide⟩

theorem witness_SlotsCountersAndLocksOfTheCores_1 : ∃ (s : State) (c : Call) (k cmp per act tgt : Nat), s.nextCall 7 = some c ∧ act < 5 ∧
    k ≤ 503 ∧ (s.slot k).owner ≠ 0 ∧ (c.tier1 = true → (s.slot k).owner = 7) :=
  ⟨{ State.reset with tck.calls := [{ wCall false with prim := 7 }], tim.slots := [(7, { owner := 3 })] }, { wCall false with prim := 7 }, 7, 9, 9, 0, 0, by decide⟩

theorem witness_SlotsCountersAndLocksOfTheCores_2 : ∃ (s : State) (c : Call) (k : Nat), s.nextCall 7 = some c ∧ k ≤ 503 ∧
    (s.slot k).owner ≠ 0 ∧ (c.tier1 = true → (s.slot k).owner = 7) :=
  ⟨{ State.reset with tck.calls := [{ wCall false with prim := 7 }], tim.slots := [(7, { owner := 3 })] }, { wCall false with prim := 7 }, 7, by decide⟩

theorem witness_SlotsCountersAndLocksOfTheCores_3 : ∃ (s : State) (c : Call) (k cmp per act tgt : Nat), s.nextCall 7 = some c ∧ 503 < k ∧
    c.tier1 = false :=
  ⟨{ State.reset with tck.calls := [{ wCall false with prim := 7 }] }, { wCall false with prim := 7 }, 504, 9, 9, 0, 0, by decide⟩

theorem witness_SlotsCountersAndLocksOfTheCores_4 : ∃ (s : State) (c : Call) (k n : Nat), s.nextCall 8 = some c ∧ k ≤ 4095 ∧
    (c.tier1 = true → 3840 ≤ k) :=
  ⟨{ State.reset with tck.calls := [{ wCall false with prim := 8 }] }, { wCall false with prim := 8 }, 4095, 1, by decide⟩

theorem witness_SlotsCountersAndLocksOfTheCores_5 : ∃ (s : State) (c : Call) (l : Nat) (w : Bool), s.nextCall 9 = some c ∧ l ≤ 65535 ∧
    s.lockHolder l = 0 :=
  ⟨{ State.reset with tck.calls := [{ wCall false with prim := 9 }] }, { wCall false with prim := 9 }, 5, true, by decide⟩

theorem witness_SlotsCountersAndLocksOfTheCores_6 : ∃ (s : State) (c : Call) (l : Nat), s.nextCall 9 = some c ∧ l ≤ 65535 ∧
    s.lockHolder l ≠ 0 :=
  ⟨{ State.reset with tck.calls := [{ wCall false with prim := 9 }], tck.locks := [(5, 2)] }, { wCall false with prim := 9 }, 5, by decide⟩

theorem witness_SlotsCountersAndLocksOfTheCores_7 : ∃ (s : State) (c : Call) (l : Nat), s.nextCall 9 = some c ∧ l ≤ 65535 ∧
    s.lockHolder l ≠ 0 :=
  ⟨{ State.reset with tck.calls := [{ wCall false with prim := 9 }], tck.locks := [(5, 2)] }, { wCall false with prim := 9 }, 5, by decide⟩

theorem witness_SlotsCountersAndLocksOfTheCores_8 : ∃ (s : State) (c : Call) (l : Nat), s.lockHolder l = 0 ∧ s.nextWaiter l = some c :=
  ⟨{ State.reset with tck.calls := [{ wCall false with prim := 9, waitsLock := some 5 }] }, { wCall false with prim := 9, waitsLock := some 5 }, 5, by decide⟩

theorem witness_SlotsCountersAndLocksOfTheCores_9 : ∃ (s : State) (c : Call) (l : Nat), s.nextCall 9 = some c ∧ l ≤ 65535 :=
  ⟨{ State.reset with tck.calls := [{ wCall false with prim := 9 }] }, { wCall false with prim := 9 }, 5, by decide⟩

theorem witness_PortsComeUpAndTakeFramesIn_0 : ∃ (s : State) (p : Fin 8) (v : Word), s.flag (Reg.NET_PORT_CFG_EN p) = false ∧
    v.getLsbD 0 = true ∧ getBits v 2 1 ≠ 3 ∧ s.hrn.role ≠ .fenced ∧ fieldsInRange (Reg.NET_PORT_CFG_EN p).addr v = true ∧
    s.acceptsWrite (Reg.NET_PORT_CFG_EN p).addr = true :=
  ⟨wRings, 0, 0x11000001, by decide⟩

theorem witness_PortsComeUpAndTakeFramesIn_1 : ∃ (s : State) (p : Fin 8) (v : Word), s.flag (Reg.NET_PORT_CFG_EN p) = true ∧
    v.getLsbD 0 = false ∧ getBits v 2 1 = s.fld (Reg.NET_PORT_CFG_MODE p) ∧ getBits v 29 16 = s.fld (Reg.NET_PORT_CFG_MAX_FRAME p) :=
  ⟨wRings.setFld (Reg.NET_PORT_CFG_EN 0) 1, 0, 0x11000000, by decide⟩

theorem witness_PortsComeUpAndTakeFramesIn_2 : ∃ (s : State) (p : Fin 8) (q : Fin 4), s.flag (Reg.NET_PORT_CFG_EN p) = true ∧
    (s.subPort (4 * p.val + q.val)).training = true ∧ s.pwr.st ≠ .deep :=
  ⟨{ wRings.setFld (Reg.NET_PORT_CFG_EN 0) 1 with net.subs := [(1, { training := true })] }, 0, 1, by decide⟩

theorem witness_PortsComeUpAndTakeFramesIn_3 : ∃ (s : State) (p : Fin 8) (q : Fin 4), (s.subPort (4 * p.val + q.val)).up = true :=
  ⟨wUp, 0, 0, by decide⟩

theorem witness_PortsComeUpAndTakeFramesIn_4 : ∃ (s : State) (p : Fin 8) (q : Fin 4) (f : RxFrame), (s.subPort (4 * p.val + q.val)).up =
    true :=
  ⟨wUp, 0, 0, { len := 64 }, by decide⟩

theorem witness_PortsComeUpAndTakeFramesIn_5 : ∃ (s : State) (i : Nat) (f : Frame), s.frame i = some f ∧ f.ingress = true ∧
    f.stage = .arriving ∧ s.flag Reg.SWC_CFG_CT_EN = true ∧ ((s.forward f).takeRest i).2 = false :=
  ⟨{ wUp with swc.frames := [{ id := 0, ingress := true, stage := .arriving }] }.setFld Reg.SWC_CFG_CT_EN 1, 0, { id := 0, ingress := true, stage := .arriving }, by decide⟩

theorem witness_PortsComeUpAndTakeFramesIn_6 : ∃ (s : State) (i : Nat) (f : Frame), s.frame i = some f ∧ f.ingress = true ∧
    f.stage = .arriving ∧ s.flag Reg.SWC_CFG_CT_EN = true ∧ ((s.forward f).takeRest i).2 = true :=
  ⟨wTrunc, 0, { id := 0, ingress := true, stage := .arriving, len := 600, cells := 1 }, by decide⟩

theorem witness_PortsComeUpAndTakeFramesIn_7 : ∃ (s u : State) (i : Nat) (f g : Frame), s.frame i = some f ∧ f.ingress = true ∧
    f.stage = .arriving ∧ s.flag Reg.SWC_CFG_CT_EN = false ∧ (s.reach f.endAt).takeRest i = (u, false) ∧
    (u.updFrame i fun f => { f with whole := true }).frame i = some g :=
  ⟨wStore, _, 0, { id := 0, ingress := true, stage := .arriving }, { id := 0, ingress := true, stage := .arriving, whole := true }, by decide, by decide, by decide, by decide, wPair (by decide), by decide +kernel⟩

theorem witness_PortsComeUpAndTakeFramesIn_8 : ∃ (s u : State) (f : Frame) (c : Nat), s.flowHit f.key = (u, some c) ∧
    u.canTrack false c = true ∧ f.isEsp = true :=
  ⟨wFlow, _, { id := 0, ingress := true, stage := .arriving, key := some wEspKey }, 0, wPair (by decide +kernel), by decide, by decide⟩

theorem witness_PortsComeUpAndTakeFramesIn_9 : ∃ (s : State) (f : Frame), (s.flowHit f.key).2 = none :=
  ⟨wUp, { id := 0, ingress := true, stage := .arriving }, by decide⟩

theorem witness_PortsComeUpAndTakeFramesIn_10 : ∃ (s : State) (i : Nat) (f : Frame), s.frame i = some f ∧ f.ingress = true ∧
    f.whole = false :=
  ⟨{ wUp with swc.frames := [{ id := 0, ingress := true }] }, 0, { id := 0, ingress := true }, by decide⟩

theorem witness_PortsComeUpAndTakeFramesIn_11 : ∃ (s : State) (i : Nat) (f : Frame), s.frame i = some f ∧ (f.ingress = true ∨
    f.stage ≠ .sending) :=
  ⟨{ wUp with swc.frames := [{ id := 0, ingress := true }] }, 0, { id := 0, ingress := true }, by decide⟩

theorem witness_PortsComeUpAndTakeFramesIn_12 : ∃ (s : State) (i : Nat) (f : Frame), s.frame i = some f ∧ f.ingress = false ∧
    f.stage = .sending ∧ f.bad = false :=
  ⟨{ wUp with swc.frames := [{ id := 0, stage := .sending }] }, 0, { id := 0, stage := .sending }, by decide⟩

theorem witness_PortsComeUpAndTakeFramesIn_13 : ∃ (s : State) (i : Nat) (f : Frame), s.frame i = some f ∧ (f.ingress = true ∨
    f.stage ≠ .sending) :=
  ⟨{ wUp with swc.frames := [{ id := 0, ingress := true }] }, 0, { id := 0, ingress := true }, by decide⟩

theorem witness_FramesLeaveInOrder_0 : ∃ (s : State) (i c q : Nat) (f : Frame), s.frame i = some f ∧ f.conn = some c ∧ f.seq = some q ∧
    f.ingress = true ∧ f.stage = .forwarded ∧ (∀ w ∈ (s.reseq false c).waiting, w.2 ≠ i) :=
  ⟨{ wUp with swc.frames := [{ id := 0, ingress := true, stage := .forwarded, conn := some 1, seq := some 0 }] }, 0, 1, 0, { id := 0, ingress := true, stage := .forwarded, conn := some 1, seq := some 0 }, by decide⟩

theorem witness_FramesLeaveInOrder_1 : ∃ (s : State) (i c q : Nat) (f : Frame), s.frame i = some f ∧ f.conn = some c ∧ f.seq = some q ∧
    f.ingress = false ∧ f.stage = .building ∧ (∀ w ∈ (s.reseq true c).waiting, w.2 ≠ i) :=
  ⟨{ wUp with swc.frames := [{ id := 0, stage := .building, conn := some 1, seq := some 0 }] }, 0, 1, 0, { id := 0, stage := .building, conn := some 1, seq := some 0 }, by decide⟩

theorem witness_FramesLeaveInOrder_2 : ∃ (s : State) (eg : Bool) (c q : Nat) (f : Frame), s.swc.frames.find? (fun f => f.ingress = !eg &&
    f.conn = some c && f.seq = some q) = some f :=
  ⟨{ wUp with swc.frames := [{ id := 0, conn := some 1, seq := some 0 }] }, true, 1, 0, { id := 0, conn := some 1, seq := some 0 }, by decide⟩

theorem witness_FramesLeaveInOrder_3 : ∃ (s : State) (eg : Bool) (c q : Nat), (∀ f ∈ s.swc.frames, f.conn ≠ some c) ∧
    seqAhead (s.reseq eg c).next q < (s.reseq eg c).outstanding :=
  ⟨{ wUp with swc.rx := [(1, { assign := 1 })] }, false, 1, 0, by decide⟩

theorem witness_FramesLeaveInOrder_4 : ∃ (s : State) (eg : Bool) (c : Nat), (s.reseq eg c).waiting ≠ [] ∧ (s.reseq eg c).deadline ≠ 0 ∧
    (s.reach (s.reseq eg c).deadline).gapCloses eg c = false :=
  ⟨{ wUp with swc.rx := [(1, { assign := 2, waiting := [(1, 0)], deadline := 9 })] }, false, 1, by decide⟩

theorem witness_FramesLeaveInOrder_5 : ∃ (s : State) (v : Word), getBits (s.stagedColour Reg.SWC_WRED_GREEN_MIN_TH.addr (s.profile (s.fld
    Reg.SWC_WRED_SEL_PROFILE)).green) 23 12 < getBits (s.stagedColour Reg.SWC_WRED_GREEN_MIN_TH.addr (s.profile (s.fld
    Reg.SWC_WRED_SEL_PROFILE)).green) 11 0 :=
  ⟨{ wUp with staged := [(Reg.SWC_WRED_GREEN_MIN_TH.addr, 5)] }, 0, by decide⟩

theorem witness_FramesLeaveInOrder_6 : ∃ (s : State) (v g y r : Word), s.stagedColour Reg.SWC_WRED_GREEN_MIN_TH.addr (s.profile (s.fld
    Reg.SWC_WRED_SEL_PROFILE)).green = g ∧ s.stagedColour (Reg.SWC_WRED_GREEN_MIN_TH.addr + 4) (s.profile (s.fld
    Reg.SWC_WRED_SEL_PROFILE)).yellow = y ∧ s.stagedColour (Reg.SWC_WRED_GREEN_MIN_TH.addr + 8) (s.profile (s.fld
    Reg.SWC_WRED_SEL_PROFILE)).red = r ∧ getBits g 11 0 ≤ getBits g 23 12 ∧ getBits y 11 0 ≤ getBits y 23 12 ∧
    getBits r 11 0 ≤ getBits r 23 12 :=
  ⟨{ wUp with staged := [(Reg.SWC_WRED_GREEN_MIN_TH.addr, 0x5000)] }, 0, 0x5000, wUp.stagedColour 0 (wUp.profile 0).yellow, wUp.stagedColour 0 (wUp.profile 0).red, by decide⟩

theorem witness_FramesLeaveInOrder_7 : ∃ (s : State) (p : Fin 8) (q : Fin 4) (w : State) (f : Frame), (s.subPort (4 * p.val + q.val)).up =
    true ∧ s.cmdb.cmds.length ≠ 65536 ∧ (((((s.finishFrame (4 * p.val + q.val)).relaunch).pullAll (4 * p.val + q.val)).wakeMgmt).dropLate (4
    * p.val + q.val)).selectFrame p (4 * p.val + q.val) = (w, some f) :=
  ⟨{ wUp with swc.frames := [{ id := 0, len := 64 }] }, 0, 0, _, _, by decide, by decide, rfl⟩

theorem witness_FramesLeaveInOrder_8 : ∃ (s : State) (i : Nat) (f : Frame), s.frame i = some f ∧ s.hrn.role = .standby ∧ f.ingress = false ∧
    f.conn.isSome = true ∧ f.stage ≠ .sending :=
  ⟨{ wUp with hrn.role := .standby, swc.frames := [{ id := 0, conn := some 1 }] }, 0, { id := 0, conn := some 1 }, by decide⟩

theorem witness_TablesAreEnabledSweptAndLearned_0 : ∃ (s : State) (k : Fin 3) (v : Word), s.tableOn k = false ∧ v.getLsbD 0 = true ∧
    s.tblCfgOk k v = true ∧ fieldsInRange (Reg.TBL_CFG_EN k).addr v = true ∧ s.acceptsWrite (Reg.TBL_CFG_EN k).addr = true ∧
    (s.table k).bank = none :=
  ⟨wRings, 2, 0x1E0001, by decide⟩

theorem witness_TablesAreEnabledSweptAndLearned_1 : ∃ (s : State) (k : Fin 3) (v : Word), s.tableOn k = true ∧ v.getLsbD 0 = false ∧
    s.tblCfgOk k v = true ∧ fieldsInRange (Reg.TBL_CFG_EN k).addr v = true ∧ s.acceptsWrite (Reg.TBL_CFG_EN k).addr = true ∧
    (s.table k).bank = none :=
  ⟨wRings.setFld (Reg.TBL_CFG_EN 2) 1, 2, 0x1E0000, by decide⟩

theorem witness_TablesAreEnabledSweptAndLearned_2 : ∃ (s : State) (k : Fin 3) (v : Word), s.tableOn k = true ∧ v.getLsbD 0 = false ∧
    s.tblCfgOk k v = true ∧ fieldsInRange (Reg.TBL_CFG_EN k).addr v = true ∧ s.acceptsWrite (Reg.TBL_CFG_EN k).addr = true :=
  ⟨{ wRings.setFld (Reg.TBL_CFG_EN 1) 1 with tbl.tables := [(1, { bank := some { seed0 := 1, seed1 := 2 } })] }, 1, 0x1E1100, by decide⟩

theorem witness_TablesAreEnabledSweptAndLearned_3 : ∃ (s : State) (c : Call) (n ka o j p dis : Nat) (u : State) (i : Nat) (e : List Byte),
    s.nextCall 1 = some c ∧ n ≤ 2 ∧ s.access c ka (keySize n) false = some j ∧ s.access c o (entrySize n) true = some p ∧
    s.lookup n (s.bytes j (keySize n)) dis = (u, some (i, e)) :=
  ⟨wLk, { wCall false with prim := 1 }, 0, 0, 0, 0x04000000, 0x04000000, 0, wLk, 16384, List.replicate 32 0, by decide, by decide, by decide, by decide, by decide +kernel⟩

theorem witness_TablesAreEnabledSweptAndLearned_4 : ∃ (s : State) (c : Call) (n ka o j p dis : Nat) (u : State), s.nextCall 1 = some c ∧
    n ≤ 2 ∧ s.access c ka (keySize n) false = some j ∧ s.access c o (entrySize n) true = some p ∧
    s.lookup n (s.bytes j (keySize n)) dis = (u, none) :=
  ⟨{ State.reset with tck.calls := [{ wCall false with prim := 1 }] }, { wCall false with prim := 1 }, 0, 0, 0, 0x04000000, 0x04000000, 0, { State.reset with tck.calls := [{ wCall false with prim := 1 }] }, by decide, by decide, by decide, by decide, rfl⟩

theorem witness_TablesAreEnabledSweptAndLearned_5 : ∃ (s : State) (v e : Nat), s.tableOn 2 = true ∧ (s.mapEnt v e).alloc = true ∧
    s.findEntry 2 (cacheKey v e) = none :=
  ⟨{ wRings.setFld (Reg.TBL_CFG_EN 2) 1 with lay.volumes := [(0, { map := [(0, { alloc := true })] })] }, 0, 0, by decide⟩

theorem witness_TablesAreEnabledSweptAndLearned_6 : ∃ (s : State) (k : Fin 3) (v : Word) (n : Nat), k.val ≠ 2 ∧ getBits v 15 0 ≠ 0 ∧
    sweepFits (s.buckets k) (s.fld (Reg.TBL_SWEEP_SWEEP_BATCH k)) (s.fld (Reg.TBL_SWEEP_SWEEP_PERIOD k)) (getBits v 15 0) (s.fld
    (Reg.TBL_CFG_TICK_LOG2 k)) = true ∧ fieldsInRange (Reg.TBL_AGE_AGE_LIMIT k).addr v = true ∧
    s.acceptsWrite (Reg.TBL_AGE_AGE_LIMIT k).addr = true ∧ (s.table k).sweepSlot = none ∧ s.findSlot = some n :=
  ⟨wRings, 0, 4096, 0, by decide⟩

theorem witness_TablesAreEnabledSweptAndLearned_7 : ∃ (s : State) (k : Fin 2) (n : Nat), s.engineTaken k = false ∧
    (s.table k).sweepSlot = some n :=
  ⟨{ State.reset with tbl.tables := [(0, { sweepSlot := some 5 })] }, 0, 5, by decide⟩

theorem witness_TablesAreEnabledSweptAndLearned_8 : ∃ (s : State) (l : Learned), s.tableOn 0 = true ∧
    (s.fld Reg.TBL_LEARN_CFG_LEARN_PORTS).testBit l.port = true :=
  ⟨(wRings.setFld (Reg.TBL_CFG_EN 0) 1).setFld Reg.TBL_LEARN_CFG_LEARN_PORTS 255, ⟨[], [], 0, 0, 0⟩, by decide⟩

theorem witness_TablesAreEnabledSweptAndLearned_9 : ∃ (s : State) (l : Learned) (ls : List Learned), s.engineTaken 0 = false ∧
    s.tbl.learn = l :: ls ∧ s.tableOn 0 = true :=
  ⟨{ wRings.setFld (Reg.TBL_CFG_EN 0) 1 with tbl.learn := [⟨[], [], 0, 0, 0⟩] }, ⟨[], [], 0, 0, 0⟩, [], by decide⟩

theorem witness_TablesAreEnabledSweptAndLearned_10 : ∃ (s : State) (i : Nat), entryValid 0 (s.entryAt 0 i) = true ∧
    entryPinned 0 (s.entryAt 0 i) = true :=
  ⟨{ State.reset with tbl.tables := [(0, { entries := [(3, List.replicate 32 9)] })] }, 3, by decide⟩

theorem witness_TablesAreEnabledSweptAndLearned_11 : ∃ (s : State) (k : Fin 3) (i : Nat), entryValid k (s.entryAt k i) = true :=
  ⟨{ State.reset with tbl.tables := [(0, { entries := [(3, List.replicate 32 1)] })] }, 0, 3, by decide⟩

theorem witness_TableCommandsReadWriteLockAndRehash_0 : ∃ (s : State) (id : Nat) (c : Started), s.AcceptsPlain id 0x0100 [(2, 2), (0x0C,
    28)] c ∧ c.desc.par 0 1 ≤ 2 ∧ c.desc.par 1 1 = 0 ∧ c.desc.dataLen.toNat = c.desc.par 8 4 * entrySize (c.desc.par 0 1) ∧
    c.desc.par 4 4 + c.desc.par 8 4 ≤ s.tableSize (c.desc.par 0 1) ∧ c.desc.dataLen.toNat / entrySize (c.desc.par 0 1) = c.desc.par 8 4 :=
  ⟨wCmd 0x0100 0, 1, wStarted 0x0100 0, wAccepts _ 0x0100 0 rfl rfl rfl rfl, by decide⟩

theorem witness_TableCommandsReadWriteLockAndRehash_1 : ∃ (s : State) (id : Nat) (c : Started) (b : List Byte), s.AcceptsPlain id 0x0100
    [(2, 2), (0x0C, 28)] c ∧ c.desc.par 0 1 ≤ 2 ∧ c.desc.par 1 1 = 1 ∧ c.desc.par 4 8 = 0 ∧
    c.desc.dataLen.toNat % entrySize (c.desc.par 0 1) = 0 :=
  ⟨wCmd 0x0100 256, 1, wStarted 0x0100 256, [], wAccepts _ 0x0100 256 rfl rfl rfl rfl, by decide⟩

theorem witness_TableCommandsReadWriteLockAndRehash_2 : ∃ (s : State) (id : Nat) (c : Started) (b : List Byte) (u : State) (n : Nat),
    s.Accepts id 0x0101 [(2, 38)] (fun _ => true) (fun d => d.par 1 1 ≠ 1) c s ∧ c.desc.par 0 1 ≤ 1 ∧ c.desc.par 1 1 = 0 ∧
    c.desc.dataLen.toNat % entrySize (c.desc.par 0 1) = 0 ∧ s.tableOn (c.desc.par 0 1) = true ∧
    s.eachEntry (c.desc.par 0 1) b (State.writeEntryOf (c.desc.par 0 1)) (c.desc.dataLen.toNat / entrySize (c.desc.par 0 1)) 0 = (u, n,
    none) :=
  ⟨wOn 0x0101 0, 1, wStarted 0x0101 0, [], wOn 0x0101 0, 0, wAccepts _ 0x0101 0 rfl rfl rfl rfl, by decide, by decide, by decide, by decide, rfl⟩

theorem witness_TableCommandsReadWriteLockAndRehash_3 : ∃ (s : State) (id : Nat) (c : Started) (b : List Byte) (u : State) (n : Nat),
    s.Accepts id 0x0101 [(2, 38)] (fun _ => true) (fun d => d.par 1 1 = 1) c s ∧ c.desc.par 0 1 ≤ 2 ∧ c.desc.par 1 1 = 1 ∧
    c.desc.dataLen.toNat % entrySize (c.desc.par 0 1) = 0 ∧ s.tableOn (c.desc.par 0 1) = true ∧
    s.eachEntry (c.desc.par 0 1) b (fun s e => (s.tblDelete (c.desc.par 0 1) (entryKey (c.desc.par 0 1) e), none)) (c.desc.dataLen.toNat /
    entrySize (c.desc.par 0 1)) 0 = (u, n, none) :=
  ⟨wOn 0x0101 256, 1, wStarted 0x0101 256, [], wOn 0x0101 256, 0, wAccepts _ 0x0101 256 rfl rfl rfl rfl, by decide, by decide, by decide, by decide, rfl⟩

theorem witness_TableCommandsReadWriteLockAndRehash_4 : ∃ (s : State) (id : Nat) (c : Started) (b : List Byte) (u : State) (n : Nat),
    s.Accepts id 0x0102 [(2, 38)] (fun _ => true) (fun d => d.par 1 1 ≠ 1) c s ∧ c.desc.par 0 1 ≤ 2 ∧ c.desc.par 1 1 = 0 ∧
    c.desc.dataLen.toNat % entrySize (c.desc.par 0 1) = 0 ∧ s.tableOn (c.desc.par 0 1) = true ∧
    s.eachEntry (c.desc.par 0 1) b (State.lockEntry true (c.desc.par 0 1)) (c.desc.dataLen.toNat / entrySize (c.desc.par 0 1)) 0 = (u, n,
    none) :=
  ⟨wOn 0x0102 0, 1, wStarted 0x0102 0, [], wOn 0x0102 0, 0, wAccepts _ 0x0102 0 rfl rfl rfl rfl, by decide, by decide, by decide, by decide, rfl⟩

theorem witness_TableCommandsReadWriteLockAndRehash_5 : ∃ (s : State) (id : Nat) (c : Started) (b : List Byte) (u : State) (n : Nat),
    s.Accepts id 0x0102 [(2, 38)] (fun _ => true) (fun d => d.par 1 1 = 1) c s ∧ c.desc.par 0 1 ≤ 2 ∧ c.desc.par 1 1 = 1 ∧
    c.desc.dataLen.toNat % entrySize (c.desc.par 0 1) = 0 ∧ s.tableOn (c.desc.par 0 1) = true ∧
    s.eachEntry (c.desc.par 0 1) b (State.lockEntry false (c.desc.par 0 1)) (c.desc.dataLen.toNat / entrySize (c.desc.par 0 1)) 0 = (u, n,
    none) :=
  ⟨wOn 0x0102 256, 1, wStarted 0x0102 256, [], wOn 0x0102 256, 0, wAccepts _ 0x0102 256 rfl rfl rfl rfl, by decide, by decide, by decide, by decide, rfl⟩

theorem witness_TableCommandsReadWriteLockAndRehash_6 : ∃ (s : State) (id : Nat) (c : Started), s.AcceptsPlain id 0x0103 [(2, 2), (0x0C,
    28)] c ∧ c.desc.par 0 1 ≤ 1 ∧ c.desc.par 1 1 = 1 ∧ c.desc.par 4 4 ≠ c.desc.par 8 4 ∧ s.tableOn (c.desc.par 0 1) = true ∧
    s.tbl.tables.any (fun x => x.2.bank.isSome) = false :=
  ⟨wOn 0x0103 (256 + 2 ^ 32), 1, wStarted 0x0103 (256 + 2 ^ 32), wAccepts _ 0x0103 (256 + 2 ^ 32) rfl rfl rfl rfl, by decide⟩

theorem witness_TableCommandsReadWriteLockAndRehash_7 : ∃ (s : State) (id : Nat) (c : Started), s.AcceptsPlain id 0x0103 [(2, 2), (0x0C,
    28)] c ∧ c.desc.par 0 1 ≤ 1 ∧ c.desc.par 1 1 = 0 ∧ c.desc.par 4 8 = 0 ∧ s.tableOn (c.desc.par 0 1) = true ∧
    s.tbl.tables.any (fun x => x.2.bank.isSome) = false :=
  ⟨wOn 0x0103 0, 1, wStarted 0x0103 0, wAccepts _ 0x0103 0 rfl rfl rfl rfl, by decide⟩

theorem witness_TableCommandsReadWriteLockAndRehash_8 : ∃ (s u : State) (t : Fin 2) (b : Bank), s.windowOpen 3 = true ∧
    s.engineTaken t = false ∧ (s.table t).bank.isSome = true ∧
    (if t.val = 0 then s.learnAll else s).copyAll t (((if t.val = 0 then s.learnAll else s).table t).entries.map Prod.snd ++ ((if t.val = 0
    then s.learnAll else s).table t).stash) = u ∧ (u.table t).bank = some b ∧ b.full = false :=
  ⟨{ wUp with tbl.tables := [(1, { bank := some { seed0 := 1, seed1 := 2 } })] }, _, 1, _, by decide, by decide, by decide, rfl, rfl, rfl⟩

theorem witness_TableCommandsReadWriteLockAndRehash_9 : ∃ (s u : State) (t : Fin 2) (b : Bank), s.windowOpen 3 = true ∧
    s.engineTaken t = false ∧ (s.table t).bank.isSome = true ∧
    (if t.val = 0 then s.learnAll else s).copyAll t (((if t.val = 0 then s.learnAll else s).table t).entries.map Prod.snd ++ ((if t.val = 0
    then s.learnAll else s).table t).stash) = u ∧ (u.table t).bank = some b ∧ b.full = true :=
  ⟨{ wUp with tbl.tables := [(1, { bank := some { seed0 := 1, seed1 := 2, full := true } })] }, _, 1, _, by decide, by decide, by decide, rfl, rfl, rfl⟩

theorem witness_ConnectionsOpenKeyAndClose_0 : ∃ (s : State) (a : Fin 16) (q : Nat), s.flag (Reg.XPT_IP_CFG_VALID a) = true ∧
    (s.subPort q).up = true :=
  ⟨wUp.setFld (Reg.XPT_IP_CFG_VALID 0) 1, 0, 0, by decide⟩

theorem witness_ConnectionsOpenKeyAndClose_1 : ∃ (s : State) (r : CmReq), s.flag Reg.XPT_CFG_EN = true ∧
    s.flag (Reg.XPT_IP_CFG_VALID r.addr) = true ∧ s.clk.bootDone = true ∧ s.follows = false ∧ s.clk.ioReady = false :=
  ⟨(wUp.setFld (Reg.XPT_IP_CFG_VALID 0) 1).setFld Reg.XPT_CFG_EN 1, wReq, by decide⟩

theorem witness_ConnectionsOpenKeyAndClose_2 : ∃ (s : State) (r : CmReq) (n : Nat) (u : State), s.flag Reg.XPT_CFG_EN = true ∧
    s.flag (Reg.XPT_IP_CFG_VALID r.addr) = true ∧ s.clk.bootDone = true ∧ s.follows = false ∧ s.clk.ioReady = true ∧ s.pwr.st ≠ .sleep ∧
    s.pwr.st ≠ .deep ∧ ((s.grantOptions r (!(s.reqHost r).used) (s.reqHost r).tenant).sheath = true ∨
    (if (s.reqHost r).used then (s.reqHost r).plaintextOk else s.flag (Reg.XPT_IP_CFG_DISC_PLAIN r.addr)) = true) ∧ s.freeConn = some n ∧
    s.slotObtainable = true ∧ s.flowInstall (flowKey r.key) n = (u, 0) :=
  ⟨wAdmit, wAdmReq, 0, (wAdmit.flowInstall (flowKey wAdmReq.key) 0).1, by decide, by decide, by decide, by decide, by decide, by decide, by decide, by decide, by decide +kernel, by decide +kernel, wPair wAdmitFlow⟩

theorem witness_ConnectionsOpenKeyAndClose_3 : ∃ (s : State) (n : Nat), (s.conn n).st = .reqRcvd ∧ (s.conn n).sheath = true :=
  ⟨wConn { st := .reqRcvd, sheath := true }, 0, by decide⟩

theorem witness_ConnectionsOpenKeyAndClose_4 : ∃ (s : State) (n : Nat), (s.conn n).st = .reqRcvd ∧ (s.conn n).sheath = false ∧
    s.hookOn 0 = false ∧ s.hookRefuses 0 = false :=
  ⟨wConn { st := .reqRcvd }, 0, by decide⟩

theorem witness_ConnectionsOpenKeyAndClose_5 : ∃ (s : State) (n : Nat), (s.conn n).st = .reqRcvd ∧ (s.conn n).sheath = false :=
  ⟨wConn { st := .reqRcvd }, 0, by decide⟩

theorem witness_ConnectionsOpenKeyAndClose_6 : ∃ (s : State) (n : Nat), (s.conn n).st = .ready :=
  ⟨wConn { st := .ready }, 0, by decide⟩

theorem witness_ConnectionsOpenKeyAndClose_7 : ∃ (s : State) (n : Nat), (s.conn n).st = .closing :=
  ⟨wConn { st := .closing }, 0, by decide⟩

theorem witness_ConnectionsOpenKeyAndClose_8 : ∃ (s : State) (n d : Nat), (s.conn n).cmAt = some d ∧ (s.conn n).st = .reqRcvd :=
  ⟨wConn { st := .reqRcvd, cmAt := some 5 }, 0, 5, by decide⟩

theorem witness_ConnectionsOpenKeyAndClose_9 : ∃ (s : State) (n d : Nat), (s.conn n).cmAt = some d ∧ (s.conn n).st = .closing :=
  ⟨wConn { st := .closing, cmAt := some 5 }, 0, 5, by decide⟩

theorem witness_ConnectionsOpenKeyAndClose_10 : ∃ (s : State) (n d : Nat), (s.conn n).quietAt = some d ∧ (s.conn n).st = .closed :=
  ⟨wConn { st := .closed, quietAt := some 5 }, 0, 5, by decide⟩

theorem witness_ConnectionsOpenKeyAndClose_11 : ∃ (s : State) (n : Nat) (m : SheathMsg) (u : State), (s.conn n).st = .keying ∧
    s.sec.stopped = false ∧ s.follows = false ∧ (s.conn n).k2Sent = false ∧ sheathShape m 1 60 = true ∧ zeroAt m.bytes 0x38 4 = true ∧
    u = s.noteCe n m.ce :=
  ⟨wConn { st := .keying }, 0, { bytes := [1, 1, 0, 0, 0, 0, 0, 60] ++ List.replicate 52 0 }, _, by decide, by decide, by decide, by decide, by decide, by decide, rfl⟩

theorem witness_ConnectionsOpenKeyAndClose_12 : ∃ (s : State) (n h : Nat) (m : SheathMsg) (ss : List Byte) (okm : List Byte) (u : State),
    (s.conn n).st = .keying ∧ s.sec.stopped = false ∧ s.follows = false ∧ (s.conn n).k2Sent = true ∧ u = s.noteCe n m.ce ∧
    u.hostOfId (((s.conn n).k1.drop 0x28).take 16) = some h ∧ sheathShape m 3 5213 = true ∧ 256 ≤ beAt m.bytes 8 4 ∧
    zeroAt m.bytes 0x0C 4 = true ∧ m.ssRsa = some ss ∧ okm = (s.conn n).okmOf m.bytes m.ssKem ss ∧
    (m.bytes.drop 0x5D0).take 32 = (s.conn n).confirmH m.bytes okm ∧ m.sigOk = true :=
  ⟨wK3, 0, 0, wK3Msg, [], _, _, by decide, by decide, by decide, by decide, rfl, by decide, by decide +kernel, by decide +kernel, by decide +kernel, rfl, rfl, wK3Confirm, rfl⟩

theorem witness_ConnectionsOpenKeyAndClose_13 : ∃ (s : State) (n d : Nat), (s.conn n).keyAt = some d ∧ (s.conn n).st = .keying :=
  ⟨wConn { st := .keying, keyAt := some 5 }, 0, 5, by decide⟩

theorem witness_RequestsInSequenceAreExecuted_0 : ∃ (s : State) (p : RxPkt) (op : ReqOp), s.InSequence p op :=
  ⟨wReady {}, wPkt, .capsule { opcode := 2 }, by decide⟩

theorem witness_RequestsInSequenceAreExecuted_1 : ∃ (s : State) (p : RxPkt) (e : SqEntry) (c : Conn), s.InSequence p (.capsule e) ∧
    c = (s.taken p 0).conn p.conn :=
  ⟨wReady {}, wPkt, { opcode := 2 }, _, by decide, rfl⟩

theorem witness_RequestsInSequenceAreExecuted_2 : ∃ (s : State) (p : RxPkt) (ty rs sq cq sb sk ck cb len : Nat) (c : Conn), s.InSequence p
    (.pullSetup ty rs sq cq sb sk ck cb len) ∧ c = (s.taken p 0).conn p.conn :=
  ⟨wReady { pull := true }, wPkt, 16, 0, 16, 16, 0, 0, 0, 0, 64, _, by decide, rfl⟩

theorem witness_RequestsInSequenceAreExecuted_3 : ∃ (s : State) (p : RxPkt) (v imm : Nat) (c : Conn), s.InSequence p (.doorbell 0 8 v imm) ∧
    c = (s.taken p 0).conn p.conn ∧ imm < 2 ^ 16 ∧ v < 2 ^ 16 :=
  ⟨wReady { pull := true, pullReady := true }, wPkt, 0, 0, _, by decide, rfl, by decide⟩

theorem witness_RequestsInSequenceAreExecuted_4 : ∃ (s : State) (p : RxPkt) (off len : Nat) (c : Conn), s.InSequence p (.read off len) ∧
    c = (s.taken p 0).conn p.conn :=
  ⟨wReady { pull := true }, wPkt, 0, 16, _, by decide, rfl⟩

theorem witness_RequestsInSequenceAreExecuted_5 : ∃ (s : State) (p : RxPkt) (op : ReqOp) (v : Nat), s.Authentic p ∧
    ((s.noted p).conn p.conn).residence = .resident ∧ v = (s.heard p).verdictOf p op ∧ v ≠ 0 :=
  ⟨wReady { rqPsn := 5 }, wPkt, .unsupported, _, by decide, by decide, rfl, by decide⟩

theorem witness_RequestsInSequenceAreExecuted_6 : ∃ (s : State) (p : RxPkt) (e : SqEntry) (op : ReqOp), s.flag Reg.XPT_CFG_EN = true ∧
    (s.conn p.conn).st = .ready ∧ (s.conn p.conn).authentic p.conn p = false :=
  ⟨wReady { sheath := true }, wPkt, { opcode := 2 }, .unsupported, by decide⟩

theorem witness_RequestsInSequenceAreExecuted_7 : ∃ (s : State) (n : Nat), (s.conn n).residence = .fetching ∧ (s.conn n).parked = [] :=
  ⟨wConn { residence := .fetching }, 0, by decide⟩

theorem witness_RequestsInSequenceAreExecuted_8 : ∃ (s : State) (n : Nat) (r : Parked) (rs : List Parked), (s.conn n).residence = .fetching
    ∧ (s.conn n).parked = r :: rs ∧ (s.conn n).st = .ready :=
  ⟨wConn { residence := .fetching, st := .ready, parked := [⟨wPkt, .unsupported, {}, none⟩] }, 0, ⟨wPkt, .unsupported, {}, none⟩, [], by decide⟩

theorem witness_RequestsInSequenceAreExecuted_9 : ∃ (s : State) (n : Nat), (s.conn n).residence = .fetching :=
  ⟨wConn { residence := .fetching }, 0, by decide⟩

theorem witness_RequestsInSequenceAreExecuted_10 : ∃ (s : State) (n : Nat), (s.conn n).residence = .writeback :=
  ⟨wConn { residence := .writeback }, 0, by decide⟩

theorem witness_AcksRetriesAndRates_0 : ∃ (s : State) (n d t : Nat), (s.conn n).ackAt = some d ∧ (s.conn n).unacked ≠ 0 ∧
    (s.conn n).unacked < s.fld Reg.XPT_ACK_ACK_COAL ∧ s.wheelAt d = some t :=
  ⟨wWheel { ackAt := some 5, unacked := 1 }, 0, 5, 9, by decide⟩

theorem witness_AcksRetriesAndRates_1 : ∃ (s : State) (n : Nat), (s.conn n).unacked ≠ 0 ∧ s.fld Reg.XPT_ACK_ACK_COAL ≤ (s.conn n).unacked :=
  ⟨wConn { unacked := 100 }, 0, by decide⟩

theorem witness_AcksRetriesAndRates_2 : ∃ (s : State) (p : RxPkt), s.Authentic p ∧ (s.heardAnswer p).answerVerdict p .ack = 0 :=
  ⟨wReady { sqPsn := 3 }, wPkt, by decide, by decide⟩

theorem witness_AcksRetriesAndRates_3 : ∃ (s : State) (n psn : Nat), (s.conn n).reads = [] ∧
    psnAhead (s.conn n).unaPsn psn < psnAhead (s.conn n).unaPsn (s.conn n).sqPsn :=
  ⟨wReady { sqPsn := 3 }, 0, 0, rfl, by decide⟩

theorem witness_AcksRetriesAndRates_4 : ∃ (s : State) (p : RxPkt) (code : NakCode), s.Authentic p ∧
    (s.heardAnswer p).answerVerdict p (.nak code) = 0 :=
  ⟨wReady { sqPsn := 3 }, wPkt, .sequence, by decide, by decide⟩

theorem witness_AcksRetriesAndRates_5 : ∃ (s : State) (n : Nat), 0 < psnAhead (s.conn n).unaPsn (s.conn n).sqPsn :=
  ⟨wReady { sqPsn := 3 }, 0, by decide⟩

theorem witness_AcksRetriesAndRates_6 : ∃ (s : State) (n d q : Nat), (s.conn n).rnrAt = some (d, q) :=
  ⟨wConn { rnrAt := some (5, 0) }, 0, 5, 0, by decide⟩

theorem witness_AcksRetriesAndRates_7 : ∃ (s : State) (n d t : Nat), (s.conn n).retxAt = some d ∧ ((s.conn n).st = .ready ∨
    (s.conn n).st = .keying) ∧ (s.conn n).unaPsn ≠ (s.conn n).sqPsn ∧ s.wheelAt d = some t :=
  ⟨wWheel { st := .ready, retxAt := some 5, sqPsn := 3 }, 0, 5, 9, by decide⟩

theorem witness_AcksRetriesAndRates_8 : ∃ (s : State) (p : RxPkt) (b : List Byte) (v : Nat), s.Authentic p ∧
    v = (s.heardAnswer p).answerVerdict p (.readResponse b) :=
  ⟨wReady { reads := [wRead] }, wPkt, [], _, by decide, rfl⟩

theorem witness_AcksRetriesAndRates_9 : ∃ (s : State) (n psn : Nat) (b : List Byte) (r : ReadOp) (rs : List ReadOp), (s.conn n).reads = r ::
    rs ∧ psnAhead (psnAdd r.psn r.got) psn = 0 ∧ r.got + 1 < r.n :=
  ⟨wReady { reads := [wRead] }, 0, 0, [], wRead, [], by decide⟩

theorem witness_AcksRetriesAndRates_10 : ∃ (s : State) (p : RxPkt) (u : State), (s.conn p.conn).st = .ready ∧
    (s.conn p.conn).authentic p.conn p = true ∧ u = (((s.forget p).bump Reg.XPT_CNP_RX_COUNT).updConn p.conn fun c => c.seeEsn
    p.esp).keepResident p.conn ∧ (u.conn p.conn).residence = .resident ∧ u.flag Reg.XPT_CFG_CC_EN = true :=
  ⟨wCc, wPkt, _, by decide, by decide, rfl, by decide +kernel, by decide +kernel⟩

theorem witness_AcksRetriesAndRates_11 : ∃ (s : State) (n d t : Nat), (s.conn n).alphaAt = some d ∧ s.flag Reg.XPT_CFG_CC_EN = true ∧
    s.wheelAt d = some t :=
  ⟨(wWheel { alphaAt := some 5 }).setFld Reg.XPT_CFG_CC_EN 1, 0, 5, 9, by decide⟩

theorem witness_AcksRetriesAndRates_12 : ∃ (s : State) (n d t : Nat), (s.conn n).rateAt = some d ∧ (s.conn n).stage < s.fld Reg.XPT_CC_A_F ∧
    s.flag Reg.XPT_CFG_CC_EN = true ∧ s.bytesDue (s.conn n) = false ∧ s.wheelAt d = some t :=
  ⟨(wWheel { rateAt := some 5 }).setFld Reg.XPT_CFG_CC_EN 1, 0, 5, 9, by decide⟩

theorem witness_AcksRetriesAndRates_13 : ∃ (s : State) (n : Nat), s.bytesDue (s.conn n) = true ∧ (s.conn n).stage < s.fld Reg.XPT_CC_A_F ∧
    s.flag Reg.XPT_CFG_CC_EN = true :=
  ⟨(wWheel { rateAt := some 5, byteCnt := 2 ^ 40 }).setFld Reg.XPT_CFG_CC_EN 1, 0, by decide⟩

theorem witness_AcksRetriesAndRates_14 : ∃ (s : State) (k : Nat), s.xpt.wheelSlot = some k ∧
    s.now < (s.slot k).compare + (s.slot k).period :=
  ⟨{ State.reset with xpt.wheelSlot := some 7, tim.slots := [(7, { owner := 3, armed := true, compare := 9, period := 9 })] }, 7, by decide⟩

theorem witness_AcksRetriesAndRates_15 : ∃ (s : State) (n d : Nat), (s.conn n).gatherAt = some d :=
  ⟨wConn { gatherAt := some 5 }, 0, 5, by decide⟩

theorem witness_PolicersShapersAndSlalomLists_0 : ∃ (s : State) (id : Nat) (c : Started), s.Accepts id 0x0701 [(0x09, 3), (0x1C, 12)] (fun _
    => true) (fun d => kindOf d ≠ 2 && kindOf d ≠ 3) c s ∧ kindOf c.desc = 0 ∧ policerValid c.desc = true ∧
    (s.policer (c.desc.par 0 2)).used = false ∧ s.policerOn (policerOf c.desc).attach (policerOf c.desc).target = none :=
  ⟨wIn State.reset { opcode := 0x0701, params := 2 * 2 ^ 24 + 2 ^ 32 + 13 * 2 ^ 64 }, 1, _, wAcc _ _ _ rfl rfl rfl, by decide⟩

theorem witness_PolicersShapersAndSlalomLists_1 : ∃ (s : State) (id : Nat) (c : Started) (o : Policer), s.Accepts id 0x0701 [(0x09, 3),
    (0x1C, 12)] (fun _ => true) (fun d => kindOf d ≠ 2 && kindOf d ≠ 3) c s ∧ kindOf c.desc = 0 ∧ policerValid c.desc = true ∧
    o = s.policer (c.desc.par 0 2) ∧ o.used = true ∧ (∀ k, s.policerOn (policerOf c.desc).attach (policerOf c.desc).target = some k →
    k = c.desc.par 0 2) :=
  ⟨wIn { State.reset with qos.policers := [(0, { used := true, attach := 2, target := 1, cntG := 5 })] } { opcode := 0x0701, params := 2 * 2 ^ 24 + 2 ^ 32 + 13 * 2 ^ 64 }, 1, _, { used := true, attach := 2, target := 1, cntG := 5 }, wAcc _ _ _ rfl rfl rfl, by decide, by decide, by decide, by decide, fun k h => (Option.some.inj (h.symm.trans (by decide : _ = some 0))).trans (by decide)⟩

theorem witness_PolicersShapersAndSlalomLists_2 : ∃ (s : State) (id : Nat) (c : Started), s.Accepts id 0x0701 [(0x09, 3), (0x1C, 12)] (fun _
    => true) (fun d => kindOf d ≠ 2 && kindOf d ≠ 3) c s ∧ kindOf c.desc = 1 ∧ strictValid c.desc = true ∧
    (Assoc.get {} s.qos.stricts (c.desc.par 0 2) : Strict).used = false ∧
    s.strictOn (strictOf c.desc).sub (strictOf c.desc).cls (strictOf c.desc).egress = none :=
  ⟨wIn State.reset { opcode := 0x0701, params := 2 ^ 16 + 9216 * 2 ^ 128 }, 1, _, wAcc _ _ _ rfl rfl rfl, by decide⟩

theorem witness_PolicersShapersAndSlalomLists_3 : ∃ (s : State) (id : Nat) (c : Started), s.Accepts id 0x0701 [(0x09, 3), (0x1C, 12)] (fun _
    => true) (fun d => kindOf d = 2 || kindOf d = 3) c s ∧ kindOf c.desc = 2 ∧ c.desc.par 0 2 < 16384 :=
  ⟨wIn State.reset { opcode := 0x0701, params := 2 * 2 ^ 16 }, 1, _, wAcc _ _ _ rfl rfl rfl, by decide⟩

theorem witness_PolicersShapersAndSlalomLists_4 : ∃ (s : State) (id : Nat) (c : Started), s.Accepts id 0x0701 [(0x09, 3), (0x1C, 12)] (fun _
    => true) (fun d => kindOf d = 2 || kindOf d = 3) c s ∧ kindOf c.desc = 3 ∧ c.desc.par 0 2 < 256 :=
  ⟨wIn State.reset { opcode := 0x0701, params := 3 * 2 ^ 16 }, 1, _, wAcc _ _ _ rfl rfl rfl, by decide⟩

theorem witness_PolicersShapersAndSlalomLists_5 : ∃ (s : State) (id : Nat) (c : Started), s.Accepts id 0x0702 [(0x03, 1), (0x11, 23)] (fun _
    => true) (fun d => kindOf d ≠ 2) c s ∧ kindOf c.desc = 0 ∧ c.desc.par 0 2 < 4096 ∧ c.desc.par 4 2 < 1024 ∧ c.desc.par 6 1 < 32 ∧
    c.desc.par 7 1 ≠ 0 ∧ c.desc.par 0x10 1 < 8 ∧ (c.desc.par 8 4 = 0 ∨ 9216 ≤ c.desc.par 0x0C 4) ∧
    (s.qos.tshapers.all fun e => !e.2.used) = true ∧ (Assoc.get {} s.qos.tshapers (c.desc.par 0 2) : Shaper).used = false :=
  ⟨wIn State.reset { opcode := 0x0702, params := 2 ^ 56 + 9216 * 2 ^ 96 }, 1, _, wAcc _ _ _ rfl rfl rfl, by decide⟩

theorem witness_PolicersShapersAndSlalomLists_6 : ∃ (s : State) (id : Nat) (c : Started), s.Accepts id 0x0702 [(0x03, 1), (0x11, 23)] (fun _
    => true) (fun d => kindOf d ≠ 2) c s ∧ kindOf c.desc = 1 ∧ c.desc.par 0 2 < 32 ∧ (c.desc.par 8 4 = 0 ∨ 9216 ≤ c.desc.par 0x0C 4) ∧
    (Assoc.get {} s.qos.pshapers (c.desc.par 0 2) : Shaper).used = false :=
  ⟨wIn State.reset { opcode := 0x0702, params := 2 ^ 16 + 9216 * 2 ^ 96 }, 1, _, wAcc _ _ _ rfl rfl rfl, by decide⟩

theorem witness_PolicersShapersAndSlalomLists_7 : ∃ (s : State) (id : Nat) (c : Started), s.Accepts id 0x0702 [(0x03, 1), (0x11, 23)] (fun _
    => true) (fun d => kindOf d = 2) c s ∧ c.desc.par 0 2 < 4096 :=
  ⟨wIn State.reset { opcode := 0x0702, params := 2 * 2 ^ 16 }, 1, _, wAcc _ _ _ rfl rfl rfl, by decide⟩

theorem witness_PolicersShapersAndSlalomLists_8 : ∃ (s : State) (id : Nat) (c : Started) (b : List Byte) (k : Nat) (g : SlalomCfg) (y :
    Slalom), s.AcceptsPlain id 0x0700 [(0x06, 2), (0x18, 16)] c ∧ c.desc.par 0 1 < 12 ∧ c.desc.par 1 1 < 2 ∧ c.desc.par 2 1 < 4 ∧
    (8 ≤ c.desc.par 0 1 → c.desc.par 1 1 = 0 ∧ c.desc.par 3 1 < 2) ∧ c.desc.dataLen.toNat = 4 * c.desc.par 4 2 ∧
    b.length = 4 * c.desc.par 4 2 ∧ g = { entries := slalomEntries (c.desc.par 4 2) b, unit := c.desc.par 2 1, guard := (c.desc.par 1 1).testBit 0, dflt := c.desc.par 3 1, base := c.desc.par 8 8, cycle := c.desc.par 0x10 8 } ∧
    slalomValid (c.desc.par 0 1) g (c.desc.par 4 2) = true ∧
    y = { s.slalom (c.desc.par 0 1) with pending := some (g, swapTime g.base g.cycle s.now), dflt := if (s.slalom (c.desc.par 0 1)).enabled then (s.slalom (c.desc.par 0 1)).dflt else some (c.desc.par 3 1) } ∧
    (s.slalom (c.desc.par 0 1)).slot = none ∧ s.findSlot = some k :=
  ⟨wIn State.reset { opcode := 0x0700, dataLen := 4, params := 2 ^ 32 + 1000 * 2 ^ 128 }, 1, _, [1, 0, 0, 255], 0, _, _, wAcc _ _ _ rfl rfl rfl, by decide, by decide, by decide, by decide, by decide, by decide, rfl, by decide, rfl, by decide⟩

theorem witness_PolicersShapersAndSlalomLists_9 : ∃ (s : State) (id : Nat) (c : Started) (b : List Byte) (k : Nat) (g : SlalomCfg) (y :
    Slalom), s.AcceptsPlain id 0x0700 [(0x06, 2), (0x18, 16)] c ∧ c.desc.par 0 1 < 12 ∧ c.desc.par 1 1 < 2 ∧ c.desc.par 2 1 < 4 ∧
    (8 ≤ c.desc.par 0 1 → c.desc.par 1 1 = 0 ∧ c.desc.par 3 1 < 2) ∧ c.desc.dataLen.toNat = 4 * c.desc.par 4 2 ∧
    b.length = 4 * c.desc.par 4 2 ∧ g = { entries := slalomEntries (c.desc.par 4 2) b, unit := c.desc.par 2 1, guard := (c.desc.par 1 1).testBit 0, dflt := c.desc.par 3 1, base := c.desc.par 8 8, cycle := c.desc.par 0x10 8 } ∧
    slalomValid (c.desc.par 0 1) g (c.desc.par 4 2) = true ∧
    y = { s.slalom (c.desc.par 0 1) with pending := some (g, swapTime g.base g.cycle s.now), dflt := if (s.slalom (c.desc.par 0 1)).enabled then (s.slalom (c.desc.par 0 1)).dflt else some (c.desc.par 3 1) } ∧
    (s.slalom (c.desc.par 0 1)).slot = some k :=
  ⟨wIn { State.reset with qos.lists := [(8, { slot := some 7 })] } { opcode := 0x0700, dataLen := 4, params := 8 + 2 ^ 32 + 1000 * 2 ^ 128 }, 1, _, [1, 0, 0, 1], 7, _, _, wAcc _ _ _ rfl rfl rfl, by decide, by decide, by decide, by decide, by decide, by decide, rfl, by decide, rfl, by decide⟩

theorem witness_PolicersShapersAndSlalomLists_10 : ∃ (s : State) (id : Nat) (c : Started) (b : Option (List Byte)), s.AcceptsPlain id 0x0700
    [(0x06, 2), (0x18, 16)] c ∧ c.desc.par 0 1 < 12 ∧ c.desc.par 1 1 = 2 ∧ c.desc.par 2 1 < 4 ∧ (8 ≤ c.desc.par 0 1 → c.desc.par 3 1 < 2) :=
  ⟨wIn State.reset { opcode := 0x0700, params := 2 * 2 ^ 8 }, 1, _, none, wAcc _ _ _ rfl rfl rfl, by decide⟩

theorem witness_PolicersShapersAndSlalomLists_11 : ∃ (s : State) (l : Fin 12) (g : SlalomCfg) (w k : Nat), (s.slalom l).pending = some (g,
    w) ∧ (s.slalom l).slot = some k :=
  ⟨{ State.reset with qos.lists := [(0, { pending := some ({}, 5), slot := some 7 })] }, 0, {}, 5, 7, by decide⟩

theorem witness_PolicersShapersAndSlalomLists_12 : ∃ (s : State) (l : Fin 12) (k : Nat), (s.slalom l).slot = some k ∧
    (s.slalom l).enabled = true ∧ (s.slot k).armed = true ∧ (s.slalom l).swapFirst (s.slot k).compare = false :=
  ⟨{ State.reset with tim.slots := [(7, { owner := 1, armed := true, compare := 9 })], qos.lists := [(0, { enabled := true, slot := some 7 })] }, 0, 7, by decide⟩

theorem witness_PolicersShapersAndSlalomLists_13 : ∃ (s : State) (id : Nat) (c : Started), s.AcceptsPlain id 0x0604 [(0x04, 36)] c ∧
    c.desc.par 0 4 < 2 ^ 24 :=
  ⟨wIn State.reset { opcode := 0x0604, params := 77 }, 1, _, wAcc _ _ _ rfl rfl rfl, by decide⟩

theorem witness_CommandsStartInOrderAndDecodeByTheTable_0 : ∃ (s u : State) (n t : Nat) (col : Colour) (r : RxCmd) (rs : List RxCmd),
    s.mayStart = true ∧ (s.conn n).st = .ready ∧ (s.conn n).rxq = r :: rs ∧ s.shuttingDown n = false ∧ r.ends = none ∧
    s.cidInUse n r.entry.cid = false ∧ s.follows = false ∧ s.gateHolds n = false ∧ s.meterCmd n r.entry = (u, col, true) ∧
    u.freeTag = some t :=
  ⟨(wNvme true { opcode := 24 }).updConn 0 fun x => { x with rxq := [{ entry := { opcode := 24, cid := 1 }, sqIndex := 0 }] }, (wNvme true { opcode := 24 }).updConn 0 fun x => { x with rxq := [{ entry := { opcode := 24, cid := 1 }, sqIndex := 0 }] }, 0, 1, .green, { entry := { opcode := 24, cid := 1 }, sqIndex := 0 }, [], by decide, by decide, by decide, by decide, by decide, by decide, by decide, by decide, rfl, by decide⟩

theorem witness_CommandsStartInOrderAndDecodeByTheTable_1 : ∃ (s u : State) (n : Nat) (ok : Bool) (col : Colour) (r : RxCmd) (rs : List
    RxCmd), s.mayStart = true ∧ (s.conn n).st = .ready ∧ (s.conn n).rxq = r :: rs ∧ s.shuttingDown n = false ∧ r.ends = none ∧
    s.cidInUse n r.entry.cid = false ∧ s.follows = false ∧ s.meterCmd n r.entry = (u, col, ok) ∧ (ok = false ∨ s.gateHolds n = true) :=
  ⟨wRed, _, 0, false, .red, { entry := { opcode := 1, nsid := 1, cid := 1 }, sqIndex := 0 }, [], by decide, by decide, by decide, by decide, by decide, by decide, by decide, rfl, by decide⟩

theorem witness_CommandsStartInOrderAndDecodeByTheTable_2 : ∃ (s u : State) (n : Nat) (col : Colour) (r : RxCmd) (rs : List RxCmd),
    s.mayStart = true ∧ (s.conn n).st = .ready ∧ (s.conn n).rxq = r :: rs ∧ (s.shuttingDown n = true ∨ (s.shuttingDown n = false ∧
    r.ends = none ∧ s.cidInUse n r.entry.cid = false ∧ s.follows = false ∧ s.gateHolds n = false ∧ s.meterCmd n r.entry = (u, col, true) ∧
    u.freeTag = none)) :=
  ⟨{ (wNvme false { opcode := 24 }).updConn 0 fun x => { x with rxq := [{ entry := { opcode := 24, cid := 1 }, sqIndex := 0 }] } with cmdb.ctrls := [(0, { used := true, shn := 1 })] }, State.reset, 0, .green, { entry := { opcode := 24, cid := 1 }, sqIndex := 0 }, [], by decide, by decide, by decide, .inl (by decide)⟩

theorem witness_CommandsStartInOrderAndDecodeByTheTable_3 : ∃ (s : State) (n t : Nat) (v : Nat × Colour) (r : RxCmd) (rs : List RxCmd),
    s.mayStart = true ∧ (s.conn n).st = .ready ∧ (s.conn n).admin = false ∧ (s.conn n).ctrl.isSome = true ∧ (s.conn n).rxq = r :: rs ∧
    s.shuttingDown n = false ∧ r.ends = none ∧ s.cidInUse n r.entry.cid = false ∧ s.follows = true ∧
    ((s.conn n).verdicts.find? fun v => v.1 = r.sqIndex) = some v ∧ s.freeTag = some t :=
  ⟨wStandby ((wNvme false { opcode := 24 }).updConn 0 fun x => { x with tandem := true, rxq := [{ entry := { opcode := 1, cid := 1 }, sqIndex := 0 }], verdicts := [(0, .yellow)] }), 0, 1, (0, .yellow), { entry := { opcode := 1, cid := 1 }, sqIndex := 0 }, [], by decide⟩

theorem witness_CommandsStartInOrderAndDecodeByTheTable_4 : ∃ (s : State) (n : Nat) (r : RxCmd) (rs : List RxCmd), s.mayStart = true ∧
    (s.conn n).st = .ready ∧ (s.conn n).admin = false ∧ (s.conn n).ctrl.isSome = true ∧ (s.conn n).rxq = r :: rs ∧
    s.shuttingDown n = false ∧ r.ends = none ∧ r.held = true ∧ s.cidInUse n r.entry.cid = false ∧ s.follows = true ∧
    ((s.conn n).verdicts.find? fun v => v.1 = r.sqIndex) = none :=
  ⟨wStandby ((wNvme false { opcode := 24 }).updConn 0 fun x => { x with tandem := true, rxq := [{ entry := { opcode := 1, cid := 1 }, sqIndex := 0, held := true }] }), 0, { entry := { opcode := 1, cid := 1 }, sqIndex := 0, held := true }, [], by decide⟩

theorem witness_CommandsStartInOrderAndDecodeByTheTable_5 : ∃ (s : State) (n sct sc : Nat) (dnr : Bool) (r : RxCmd) (rs : List RxCmd),
    s.mayStart = true ∧ (s.conn n).st = .ready ∧ (s.conn n).rxq = r :: rs ∧ s.shuttingDown n = false ∧ r.ends = some (sct, sc, dnr) :=
  ⟨(wNvme true { opcode := 24 }).updConn 0 fun x => { x with rxq := [{ entry := { opcode := 24 }, sqIndex := 0, ends := some (0, 7, true) }] }, 0, 0, 7, true, { entry := { opcode := 24 }, sqIndex := 0, ends := some (0, 7, true) }, [], by decide⟩

theorem witness_CommandsStartInOrderAndDecodeByTheTable_6 : ∃ (s : State) (n : Nat) (r : RxCmd) (rs : List RxCmd), s.mayStart = true ∧
    (s.conn n).st = .ready ∧ (s.conn n).rxq = r :: rs ∧ s.shuttingDown n = false ∧ r.ends = none ∧ s.cidInUse n r.entry.cid = true :=
  ⟨(wNvme true { opcode := 24 }).updConn 0 fun x => { x with rxq := [{ entry := { opcode := 24 }, sqIndex := 0 }] }, 0, { entry := { opcode := 24 }, sqIndex := 0 }, [], by decide⟩

theorem witness_CommandsStartInOrderAndDecodeByTheTable_7 : ∃ (s : State) (n : Nat), s.mayStart = true ∧
    ((s.conn n).rxq.head?.map RxCmd.held).getD false = true :=
  ⟨(wNvme true { opcode := 24 }).updConn 0 fun x => { x with rxq := [{ entry := { opcode := 24 }, sqIndex := 0, held := true }] }, 0, by decide⟩

theorem witness_CommandsStartInOrderAndDecodeByTheTable_8 : ∃ (s : State) (t : Nat) (c : Cmd), s.cmd t = some c ∧ s.opcodeOk c = false :=
  ⟨wNvme true { opcode := 255 }, 0, wNvmeCmd true { opcode := 255 }, by decide⟩

theorem witness_CommandsStartInOrderAndDecodeByTheTable_9 : ∃ (s : State) (t : Nat) (c : Cmd), s.cmd t = some c ∧ s.opcodeOk c = true ∧
    fieldsOk c = false :=
  ⟨wNvme true { opcode := 24, rsvd := 1 }, 0, wNvmeCmd true { opcode := 24, rsvd := 1 }, by decide⟩

theorem witness_CommandsStartInOrderAndDecodeByTheTable_10 : ∃ (s : State) (t : Nat) (c : Cmd), s.cmd t = some c ∧ s.opcodeOk c = true ∧
    fieldsOk c = true ∧ c.bytes ≠ 0 ∧ c.entry.sglType ≠ 0x40 :=
  ⟨wNvme false { opcode := 2, sglType := 0 }, 0, wNvmeCmd false { opcode := 2, sglType := 0 }, by decide⟩

theorem witness_CommandsStartInOrderAndDecodeByTheTable_11 : ∃ (s : State) (t : Nat) (c : Cmd), s.cmd t = some c ∧ s.opcodeOk c = true ∧
    fieldsOk c = true ∧ (c.bytes = 0 ∨ c.entry.sglType = 0x40) ∧ c.admin = false ∧ c.entry.opcode ≠ 0x7F ∧ (c.entry.opcode ≠ 0 ∨
    c.entry.nsid ≠ 0xFFFFFFFF) :=
  ⟨wNvme false { opcode := 2, nsid := 1 }, 0, wNvmeCmd false { opcode := 2, nsid := 1 }, by decide⟩

theorem witness_CommandsStartInOrderAndDecodeByTheTable_12 : ∃ (s : State) (t : Nat) (c : Cmd), s.cmd t = some c ∧ s.opcodeOk c = true ∧
    fieldsOk c = true ∧ (c.bytes = 0 ∨ c.entry.sglType = 0x40) ∧ c.admin = false ∧ (c.entry.opcode = 1 ∨ c.entry.opcode = 8) ∧
    s.nsExists c.entry.nsid = true ∧ s.granted (s.conn c.conn).pd c.entry.nsid false true = true :=
  ⟨{ wNvme false { opcode := 1, nsid := 1 } with xpt.grants := [{ pd := 0, nsid := 1, read := true, write := true, expiry := 0 }] }, 0, wNvmeCmd false { opcode := 1, nsid := 1 }, by decide⟩

theorem witness_CommandsStartInOrderAndDecodeByTheTable_13 : ∃ (s : State) (t : Nat) (c : Cmd), s.cmd t = some c ∧ s.opcodeOk c = true ∧
    fieldsOk c = true ∧ c.entry.sglType = 0x40 ∧ c.admin = false ∧ c.entry.opcode = 2 ∧ s.nsExists c.entry.nsid = true ∧
    s.granted (s.conn c.conn).pd c.entry.nsid true false = true :=
  ⟨{ wNvme false { opcode := 2, nsid := 1 } with xpt.grants := [{ pd := 0, nsid := 1, read := true, write := true, expiry := 0 }] }, 0, wNvmeCmd false { opcode := 2, nsid := 1 }, by decide⟩

theorem witness_CommandsStartInOrderAndDecodeByTheTable_14 : ∃ (s : State) (t : Nat) (c : Cmd), s.cmd t = some c ∧ s.decodeFails c = none :=
  ⟨wNvme true { opcode := 24 }, 0, wNvmeCmd true { opcode := 24 }, by decide⟩

theorem witness_CommandsStartInOrderAndDecodeByTheTable_15 : ∃ (s : State) (t : Nat) (c : Cmd), s.cmd t = some c :=
  ⟨wNvme true { opcode := 24 }, 0, wNvmeCmd true { opcode := 24 }, by decide⟩

theorem witness_AdminCommandsAnswerAndKeepState_0 : ∃ (s : State) (t : Nat) (c : Cmd), s.ready t true 0x06 = some c :=
  ⟨wNvme true { opcode := 6, cdw10 := 1 }, 0, wNvmeCmd true { opcode := 6, cdw10 := 1 }, by decide⟩

theorem witness_AdminCommandsAnswerAndKeepState_1 : ∃ (s u : State) (t : Nat) (c : Cmd) (d : List Byte), s.ready t true 0x02 = some c ∧
    s.logPage ((s.conn c.conn).ctrl.getD 0) (c.entry.cdw10 % 256) (c.entry.cdw12 + c.entry.cdw13 * 2 ^ 32 + c.bytes) = some (d, u) :=
  ⟨wNvme true { opcode := 2, cdw10 := 0xC3 }, _, 0, wNvmeCmd true { opcode := 2, cdw10 := 0xC3 }, (wNvme true { opcode := 2, cdw10 := 0xC3 }).timePage, by decide, rfl⟩

theorem witness_AdminCommandsAnswerAndKeepState_2 : ∃ (s : State) (t : Nat) (c : Cmd), s.ready t true 0x02 = some c ∧
    s.logPage ((s.conn c.conn).ctrl.getD 0) (c.entry.cdw10 % 256) (c.entry.cdw12 + c.entry.cdw13 * 2 ^ 32 + c.bytes) = none :=
  ⟨wNvme true { opcode := 2, cdw10 := 0xC4 }, 0, wNvmeCmd true { opcode := 2, cdw10 := 0xC4 }, by decide⟩

theorem witness_AdminCommandsAnswerAndKeepState_3 : ∃ (s : State) (t n : Nat) (c : Cmd) (r : RxCmd), s.ready t true 0x08 = some c ∧
    s.queueConn ((s.conn c.conn).ctrl.getD 0) (c.entry.cdw10 % 65536) = some n ∧
    ((s.conn n).rxq.find? fun r => r.entry.cid = c.entry.cdw10 / 65536) = some r :=
  ⟨(wNvme true { opcode := 8 }).updConn 0 fun x => { x with rxq := [{ entry := { opcode := 24 }, sqIndex := 0 }] }, 0, 0, wNvmeCmd true { opcode := 8 }, { entry := { opcode := 24 }, sqIndex := 0 }, by decide⟩

theorem witness_AdminCommandsAnswerAndKeepState_4 : ∃ (s : State) (t n : Nat) (c : Cmd), s.ready t true 0x08 = some c ∧
    s.queueConn ((s.conn c.conn).ctrl.getD 0) (c.entry.cdw10 % 65536) = some n ∧
    ((s.conn n).rxq.find? fun r => r.entry.cid = c.entry.cdw10 / 65536) = none :=
  ⟨wNvme true { opcode := 8 }, 0, 0, wNvmeCmd true { opcode := 8 }, by decide⟩

theorem witness_AdminCommandsAnswerAndKeepState_5 : ∃ (s : State) (t : Nat) (c : Cmd), s.ready t true 0x09 = some c :=
  ⟨wNvme true { opcode := 9, cdw10 := 0x0F }, 0, wNvmeCmd true { opcode := 9, cdw10 := 0x0F }, by decide⟩

theorem witness_AdminCommandsAnswerAndKeepState_6 : ∃ (s : State) (t : Nat) (c : Cmd), s.ready t true 0x0A = some c :=
  ⟨wNvme true { opcode := 10, cdw10 := 0x0F }, 0, wNvmeCmd true { opcode := 10, cdw10 := 0x0F }, by decide⟩

theorem witness_AdminCommandsAnswerAndKeepState_7 : ∃ (s : State) (t : Nat) (c : Cmd), s.ready t true 0x0C = some c ∧
    (s.ctrl ((s.conn c.conn).ctrl.getD 0)).aers.length < 4 :=
  ⟨wNvme true { opcode := 12 }, 0, wNvmeCmd true { opcode := 12 }, by decide⟩

theorem witness_AdminCommandsAnswerAndKeepState_8 : ∃ (s : State) (t : Nat) (c : Cmd), s.ready t true 0x0C = some c ∧
    4 ≤ (s.ctrl ((s.conn c.conn).ctrl.getD 0)).aers.length :=
  ⟨{ wNvme true { opcode := 12 } with cmdb.ctrls := [(0, { used := true, aers := [1, 2, 3, 4] })] }, 0, wNvmeCmd true { opcode := 12 }, by decide⟩

theorem witness_AdminCommandsAnswerAndKeepState_9 : ∃ (s : State) (t : Nat) (c : Cmd), s.ready t true 0x18 = some c :=
  ⟨wNvme true { opcode := 24 }, 0, wNvmeCmd true { opcode := 24 }, by decide⟩

theorem witness_AdminCommandsAnswerAndKeepState_10 : ∃ (s u : State) (k : Fin 4096), (s.ctrl k).used = true ∧ (s.ctrl k).kato ≠ 0 ∧
    s.xpt.wheelSlot.isSome = true ∧ u = ((s.reach (s.ctrl k).katoCheck).bump Reg.CMD_KATO_EXP_COUNT).raise Ev.CMD_KATO [k.val + 1, 0] :=
  ⟨{ wNvme true { opcode := 24 } with cmdb.ctrls := [(0, { used := true, kato := 5 })], xpt.wheelSlot := some 1 }, _, 0, by decide, by decide, by decide, rfl⟩

theorem witness_AdminCommandsAnswerAndKeepState_11 : ∃ (s : State) (t : Nat) (c : Cmd), s.ready t true 0xC4 = some c ∧
    ((s.ctrl ((s.conn c.conn).ctrl.getD 0)).mkeys.any fun m => m.1 = c.entry.cdw10) = false ∧ c.entry.cdw13 + c.entry.cdw14 * 2 ^ 32 ≠ 0 ∧
    c.entry.cdw11 + c.entry.cdw12 * 2 ^ 32 + (c.entry.cdw13 + c.entry.cdw14 * 2 ^ 32) ≤ 2 ^ 64 ∧
    (s.ctrl ((s.conn c.conn).ctrl.getD 0)).mkeys.length < 256 :=
  ⟨wNvme true { opcode := 0xC4, cdw13 := 1 }, 0, wNvmeCmd true { opcode := 0xC4, cdw13 := 1 }, by decide⟩

theorem witness_AdminCommandsAnswerAndKeepState_12 : ∃ (s : State) (t : Nat) (c : Cmd), s.ready t true 0xC4 = some c :=
  ⟨wNvme true { opcode := 0xC4, cdw13 := 0 }, 0, wNvmeCmd true { opcode := 0xC4, cdw13 := 0 }, by decide⟩

theorem witness_AdminCommandsAnswerAndKeepState_13 : ∃ (s : State) (t : Nat) (c : Cmd), s.ready t true 0xC5 = some c :=
  ⟨wNvme true { opcode := 0xC5 }, 0, wNvmeCmd true { opcode := 0xC5 }, by decide⟩

theorem witness_AdminCommandsAnswerAndKeepState_14 : ∃ (s : State) (t : Nat) (c : Cmd), s.ready t true 0xC6 = some c ∧
    (c.entry.cdw10 % 65536 = 0 ∨ s.queueConn ((s.conn c.conn).ctrl.getD 0) (c.entry.cdw10 % 65536) = none) :=
  ⟨wNvme true { opcode := 0xC6, cdw10 := 1 }, 0, wNvmeCmd true { opcode := 0xC6, cdw10 := 1 }, by decide⟩

theorem witness_AdminCommandsAnswerAndKeepState_15 : ∃ (s : State) (t n : Nat) (c : Cmd), s.ready t true 0xC6 = some c ∧
    c.entry.cdw10 % 65536 ≠ 0 ∧ s.queueConn ((s.conn c.conn).ctrl.getD 0) (c.entry.cdw10 % 65536) = some n ∧ (s.conn n).frozen = false :=
  ⟨(wNvme true { opcode := 0xC6, cdw10 := 1 }).setConn 1 { st := .ready, ctrl := some 0, qid := 1 }, 0, 1, wNvmeCmd true { opcode := 0xC6, cdw10 := 1 }, by decide⟩

theorem witness_AdminCommandsAnswerAndKeepState_16 : ∃ (s u v : State) (t n : Nat) (c : Cmd), s.ready t true 0xC6 = some c ∧
    c.entry.cdw10 % 65536 ≠ 0 ∧ s.queueConn ((s.conn c.conn).ctrl.getD 0) (c.entry.cdw10 % 65536) = some n ∧ (s.conn n).frozen = true ∧
    v = ((s.uncommitted n).map Prod.fst).foldl State.freezeOut s ∧
    u = (v.conn n).rxq.foldl (fun s r => (s.bump Reg.CMD_FROZEN_CPL_COUNT).completeUnstarted n r 7 0x80 false) (v.updConn n fun x =>
    { x.dropRx (fun _ => true) with frozen := false }) ∧ (u.conn n).reads = [] :=
  ⟨(wNvme true { opcode := 0xC6, cdw10 := 1 }).setConn 1 { st := .ready, ctrl := some 0, qid := 1, frozen := true }, _, _, 0, 1, wNvmeCmd true { opcode := 0xC6, cdw10 := 1 }, by decide, by decide, by decide, by decide, rfl, rfl, by decide⟩

theorem witness_FabricsCommandsConnectAndSetTheController_0 : ∃ (s : State) (t : Nat) (c : Cmd) (d : ConnectData), s.readyFabrics t 0x01 =
    some c ∧ (s.conn c.conn).ctrl.isSome = true :=
  ⟨wNvme true { opcode := 0x7F, fctype := 1 }, 0, wNvmeCmd true { opcode := 0x7F, fctype := 1 }, {}, by decide⟩

theorem witness_FabricsCommandsConnectAndSetTheController_1 : ∃ (s : State) (t : Nat) (c : Cmd) (d : ConnectData), s.readyFabrics t 0x01 =
    some c ∧ (s.conn c.conn).ctrl = none ∧ s.connectBusy = true :=
  ⟨{ wFresh { opcode := 0x7F, fctype := 1 } with clk.ioReady := false }, 0, wNvmeCmd true { opcode := 0x7F, fctype := 1 }, {}, by decide⟩

theorem witness_FabricsCommandsConnectAndSetTheController_2 : ∃ (s : State) (t : Nat) (c : Cmd) (d : ConnectData), s.readyFabrics t 0x01 =
    some c ∧ (s.conn c.conn).ctrl = none ∧ s.connectBusy = false ∧ (s.conn c.conn).tandemRefused = true :=
  ⟨(wFresh { opcode := 0x7F, fctype := 1 }).updConn 0 fun x => { x with tandemRefused := true }, 0, wNvmeCmd true { opcode := 0x7F, fctype := 1 }, {}, by decide⟩

theorem witness_FabricsCommandsConnectAndSetTheController_3 : ∃ (s : State) (t : Nat) (c : Cmd) (d : ConnectData), s.readyFabrics t 0x01 =
    some c ∧ (s.conn c.conn).ctrl = none ∧ s.connectBusy = false ∧ (s.conn c.conn).tandemRefused = false ∧ c.entry.cdw10 / 65536 = 0 :=
  ⟨wFresh { opcode := 0x7F, fctype := 1, cdw11 := 31 }, 0, wNvmeCmd true { opcode := 0x7F, fctype := 1, cdw11 := 31 }, { hostId := 7, discovery := true }, by decide⟩

theorem witness_FabricsCommandsConnectAndSetTheController_4 : ∃ (s : State) (t k : Nat) (c : Cmd) (d : ConnectData), s.readyFabrics t 0x01 =
    some c ∧ (s.conn c.conn).ctrl = none ∧ s.connectBusy = false ∧ (s.conn c.conn).tandemRefused = false ∧ c.entry.cdw10 / 65536 = 0 ∧
    d.hostId ≠ 0 ∧ 2 ≤ c.entry.cdw11 % 65536 + 1 ∧ c.entry.cdw11 % 65536 + 1 ≤ 32 ∧ d.discovery = true ∧
    s.hostAllowed (s.conn c.conn) d = true ∧ s.freeCtrl = some k :=
  ⟨(wFresh { opcode := 0x7F, fctype := 1, cdw11 := 31 }).setFld (Reg.XPT_IP_CFG_DISC_PLAIN 0) 1, 0, 0, wNvmeCmd true { opcode := 0x7F, fctype := 1, cdw11 := 31 }, { hostId := 7, discovery := true }, by decide⟩

theorem witness_FabricsCommandsConnectAndSetTheController_5 : ∃ (s : State) (t k h : Nat) (c : Cmd) (d : ConnectData), s.readyFabrics t 0x01
    = some c ∧ (s.conn c.conn).ctrl = none ∧ s.connectBusy = false ∧ (s.conn c.conn).tandemRefused = false ∧ c.entry.cdw10 / 65536 = 0 ∧
    d.hostId ≠ 0 ∧ 2 ≤ c.entry.cdw11 % 65536 + 1 ∧ c.entry.cdw11 % 65536 + 1 ≤ 32 ∧ d.discovery = false ∧ d.own = true ∧
    s.connectHost d = some h ∧ s.hostAllowed (s.conn c.conn) d = true ∧ s.freeCtrl = some k :=
  ⟨{ wFresh { opcode := 0x7F, fctype := 1, cdw11 := 31 } with xpt.hosts := [(0, { used := true, plaintextOk := true, hostId := (Config.sha256 []).take 16 })] }, 0, 0, 0, wNvmeCmd true { opcode := 0x7F, fctype := 1, cdw11 := 31 }, { hostId := 7 }, by decide, by decide, by decide, by decide, by decide, by decide, by decide, by decide, rfl, rfl, by simp [State.connectHost, State.hostOfId, wFresh, wNvme], by simp [State.hostAllowed, State.connectHost, State.hostOfId, wFresh, wNvme, State.conn, Assoc.get, State.setFld]; exact .inl rfl, by decide⟩

theorem witness_FabricsCommandsConnectAndSetTheController_6 : ∃ (s : State) (t q : Nat) (c : Cmd) (d : ConnectData), s.readyFabrics t 0x01 =
    some c ∧ (s.conn c.conn).ctrl = none ∧ s.connectBusy = false ∧ (s.conn c.conn).tandemRefused = false ∧ q = c.entry.cdw10 / 65536 ∧
    q ≠ 0 ∧ (d.hostId = 0 ∨ c.entry.cdw11 % 65536 + 1 < 2 ∨ s.fld Reg.CMD_LIMITS_MAX_QD < c.entry.cdw11 % 65536 + 1 ∨ d.cntlid = 0 ∨
    (s.ctrl (d.cntlid - 1)).used = false ∨ (s.ctrl (d.cntlid - 1)).discovery = true ∨ (s.ctrl (d.cntlid - 1)).hostId ≠ d.hostId ∨
    (s.ctrl (d.cntlid - 1)).ioqs < q ∨ (s.queueConn (d.cntlid - 1) q).isSome = true ∨ d.own = false) :=
  ⟨wFresh { opcode := 0x7F, fctype := 1, cdw10 := 65536, cdw11 := 31 }, 0, 1, wNvmeCmd true { opcode := 0x7F, fctype := 1, cdw10 := 65536, cdw11 := 31 }, {}, by decide⟩

theorem witness_FabricsCommandsConnectAndSetTheController_7 : ∃ (s : State) (t q : Nat) (c : Cmd) (d : ConnectData) (x : Ctrl),
    s.readyFabrics t 0x01 = some c ∧ (s.conn c.conn).ctrl = none ∧ s.connectBusy = false ∧ (s.conn c.conn).tandemRefused = false ∧
    q = c.entry.cdw10 / 65536 ∧ q ≠ 0 ∧ d.hostId ≠ 0 ∧ 2 ≤ c.entry.cdw11 % 65536 + 1 ∧
    c.entry.cdw11 % 65536 + 1 ≤ s.fld Reg.CMD_LIMITS_MAX_QD ∧ d.cntlid ≠ 0 ∧ x = s.ctrl (d.cntlid - 1) ∧ x.used = true ∧
    x.discovery = false ∧ x.hostId = d.hostId ∧ q ≤ x.ioqs ∧ s.queueConn (d.cntlid - 1) q = none ∧ d.own = true :=
  ⟨wFresh2, 0, 1, wNvmeCmd true { opcode := 0x7F, fctype := 1, cdw10 := 65536, cdw11 := 31 }, { hostId := 7, cntlid := 1 }, { used := true, hostId := 7, ioqs := 64 }, by decide⟩

theorem witness_FabricsCommandsConnectAndSetTheController_8 : ∃ (s : State) (t k : Nat) (c : Cmd), s.readyFabrics t 0x04 = some c ∧
    (s.conn c.conn).ctrl = some k :=
  ⟨wNvme true { opcode := 0x7F, fctype := 4 }, 0, 0, wNvmeCmd true { opcode := 0x7F, fctype := 4 }, by decide⟩

theorem witness_FabricsCommandsConnectAndSetTheController_9 : ∃ (s : State) (t k : Nat) (c : Cmd), s.readyFabrics t 0x00 = some c ∧
    (s.conn c.conn).ctrl = some k ∧ c.entry.cdw12 % 2 = 1 ∧ c.entry.cdw12 / 2 ^ 14 % 4 = 0 :=
  ⟨wNvme true { opcode := 0x7F, cdw12 := 1 }, 0, 0, wNvmeCmd true { opcode := 0x7F, cdw12 := 1 }, by decide⟩

theorem witness_FabricsCommandsConnectAndSetTheController_10 : ∃ (s : State) (t k : Nat) (c : Cmd), s.readyFabrics t 0x00 = some c ∧
    (s.conn c.conn).ctrl = some k ∧ c.entry.cdw12 % 2 = 0 ∧ c.entry.cdw12 / 2 ^ 14 % 4 = 0 :=
  ⟨wNvme true { opcode := 0x7F }, 0, 0, wNvmeCmd true { opcode := 0x7F }, by decide⟩

theorem witness_FabricsCommandsConnectAndSetTheController_11 : ∃ (s : State) (t k : Nat) (c : Cmd), s.readyFabrics t 0x00 = some c ∧
    (s.conn c.conn).ctrl = some k ∧ c.entry.cdw12 / 2 ^ 14 % 4 ≠ 0 :=
  ⟨wNvme true { opcode := 0x7F, cdw12 := 16384 }, 0, 0, wNvmeCmd true { opcode := 0x7F, cdw12 := 16384 }, by decide⟩

theorem witness_FabricsCommandsConnectAndSetTheController_12 : ∃ (s : State) (t : Nat) (c : Cmd), (s.conn c.conn).ctrl = none :=
  ⟨wFresh { opcode := 0x7F }, 0, wNvmeCmd true { opcode := 0x7F }, by decide⟩

theorem witness_FabricsCommandsConnectAndSetTheController_13 : ∃ (s : State) (t : Nat) (c : Cmd), s.readyFabrics t 0x08 = some c :=
  ⟨wNvme true { opcode := 0x7F, fctype := 8 }, 0, wNvmeCmd true { opcode := 0x7F, fctype := 8 }, by decide⟩

theorem witness_FabricsCommandsConnectAndSetTheController_14 : ∃ (s : State) (t : Nat) (c : Cmd), s.readyFabrics t 0x05 = some c :=
  ⟨wNvme true { opcode := 0x7F, fctype := 5 }, 0, wNvmeCmd true { opcode := 0x7F, fctype := 5 }, by decide⟩

theorem witness_FabricsCommandsConnectAndSetTheController_15 : ∃ (s : State) (t : Nat) (c : Cmd), s.readyFabrics t 0x06 = some c :=
  ⟨wNvme true { opcode := 0x7F, fctype := 6 }, 0, wNvmeCmd true { opcode := 0x7F, fctype := 6 }, by decide⟩

theorem witness_ReservationsAreKeptByKeyAndHolder_0 : ∃ (s : State) (t k1 k2 h : Nat) (c : Cmd) (x : Ns), s.ready t false 0x0D = some c ∧
    x = s.ns c.entry.nsid ∧ h = (s.ctrl ((s.conn c.conn).ctrl.getD 0)).hostId ∧ c.entry.cdw10 % 8 = 0 :=
  ⟨wNvme false { opcode := 13, nsid := 1 }, 0, 0, 5, 1, wNvmeCmd false { opcode := 13, nsid := 1 }, { used := true, nsze := 4096 }, by decide⟩

theorem witness_ReservationsAreKeptByKeyAndHolder_1 : ∃ (s : State) (t k1 k2 h : Nat) (c : Cmd) (x y : Ns), s.ready t false 0x0D = some c ∧
    x = s.ns c.entry.nsid ∧ h = (s.ctrl ((s.conn c.conn).ctrl.getD 0)).hostId ∧ c.entry.cdw10 % 8 = 1 ∧
    y = { ({ x with ptpl := ptplAfter c.entry.cdw10 x.ptpl } : Ns).unregister h with rgen := x.rgen + 1 } :=
  ⟨{ wNvme false { opcode := 13, nsid := 1, cdw10 := 1 } with cmdb.nss := [(1, { used := true, regs := [(1, 5)] })] }, 0, 5, 0, 1, wNvmeCmd false { opcode := 13, nsid := 1, cdw10 := 1 }, { used := true, regs := [(1, 5)] }, { used := true, rgen := 1 }, by decide⟩

theorem witness_ReservationsAreKeptByKeyAndHolder_2 : ∃ (s : State) (t k1 k2 h : Nat) (c : Cmd) (x : Ns), s.ready t false 0x0D = some c ∧
    x = s.ns c.entry.nsid ∧ h = (s.ctrl ((s.conn c.conn).ctrl.getD 0)).hostId ∧ c.entry.cdw10 % 8 = 2 :=
  ⟨{ wNvme false { opcode := 13, nsid := 1, cdw10 := 2 } with cmdb.nss := [(1, { used := true, regs := [(1, 5)] })] }, 0, 5, 0, 1, wNvmeCmd false { opcode := 13, nsid := 1, cdw10 := 2 }, { used := true, regs := [(1, 5)] }, by decide⟩

theorem witness_ReservationsAreKeptByKeyAndHolder_3 : ∃ (s : State) (t : Nat) (c : Cmd), s.ready t false 0x0E = some c :=
  ⟨wNvme false { opcode := 14, nsid := 1, cdw11 := 1 }, 0, wNvmeCmd false { opcode := 14, nsid := 1, cdw11 := 1 }, by decide⟩

theorem witness_ReservationsAreKeptByKeyAndHolder_4 : ∃ (s : State) (t k p h : Nat) (c : Cmd) (x : Ns), s.ready t false 0x11 = some c ∧
    x = s.ns c.entry.nsid ∧ h = (s.ctrl ((s.conn c.conn).ctrl.getD 0)).hostId ∧ c.entry.cdw10 % 8 = 0 ∧ c.entry.cdw10 / 256 % 256 ≠ 0 ∧
    c.entry.cdw10 / 256 % 256 ≤ 6 ∧ x.keyOf h = some k :=
  ⟨{ wNvme false { opcode := 17, nsid := 1, cdw10 := 256 } with cmdb.nss := [(1, { used := true, regs := [(1, 5)] })] }, 0, 5, 0, 1, wNvmeCmd false { opcode := 17, nsid := 1, cdw10 := 256 }, { used := true, regs := [(1, 5)] }, by decide⟩

theorem witness_ReservationsAreKeptByKeyAndHolder_5 : ∃ (s : State) (t k p h : Nat) (c : Cmd) (x : Ns) (hits : List Nat), s.ready t false
    0x11 = some c ∧ x = s.ns c.entry.nsid ∧ h = (s.ctrl ((s.conn c.conn).ctrl.getD 0)).hostId ∧ c.entry.cdw10 % 8 ≠ 0 ∧
    c.entry.cdw10 % 8 ≤ 2 ∧ c.entry.cdw10 / 256 % 256 ≠ 0 ∧ c.entry.cdw10 / 256 % 256 ≤ 6 ∧ x.keyOf h = some k ∧ x.rtype ≠ 0 ∧ x.rtype < 5 ∧
    hits = (x.regs.filter fun r => r.1 ≠ h && r.2 = p).map Prod.fst :=
  ⟨{ wNvme false { opcode := 17, nsid := 1, cdw10 := 257 } with cmdb.nss := [(1, { used := true, regs := [(1, 5), (2, 9)], rtype := 1, rholder := some 2 })] }, 0, 5, 9, 1, wNvmeCmd false { opcode := 17, nsid := 1, cdw10 := 257 }, { used := true, regs := [(1, 5), (2, 9)], rtype := 1, rholder := some 2 }, [2], by decide⟩

theorem witness_ReservationsAreKeptByKeyAndHolder_6 : ∃ (s : State) (t k p h : Nat) (c : Cmd) (x : Ns), s.ready t false 0x11 = some c ∧
    x = s.ns c.entry.nsid ∧ h = (s.ctrl ((s.conn c.conn).ctrl.getD 0)).hostId ∧ c.entry.cdw10 % 8 ≤ 2 ∧ c.entry.cdw10 / 256 % 256 ≠ 0 ∧
    c.entry.cdw10 / 256 % 256 ≤ 6 ∧ x.keyOf h ≠ some k :=
  ⟨wNvme false { opcode := 17, nsid := 1, cdw10 := 256 }, 0, 5, 0, 1, wNvmeCmd false { opcode := 17, nsid := 1, cdw10 := 256 }, { used := true, nsze := 4096 }, by decide⟩

theorem witness_ReservationsAreKeptByKeyAndHolder_7 : ∃ (s : State) (t k h : Nat) (c : Cmd) (x : Ns), s.ready t false 0x15 = some c ∧
    x = s.ns c.entry.nsid ∧ h = (s.ctrl ((s.conn c.conn).ctrl.getD 0)).hostId ∧ c.entry.cdw10 % 8 = 0 ∧ x.keyOf h = some k :=
  ⟨{ wNvme false { opcode := 21, nsid := 1, cdw10 := 256 } with cmdb.nss := [(1, { used := true, regs := [(1, 5)] })] }, 0, 5, 1, wNvmeCmd false { opcode := 21, nsid := 1, cdw10 := 256 }, { used := true, regs := [(1, 5)] }, by decide⟩

theorem witness_ReservationsAreKeptByKeyAndHolder_8 : ∃ (s : State) (t k h : Nat) (c : Cmd) (x : Ns), s.ready t false 0x15 = some c ∧
    x = s.ns c.entry.nsid ∧ h = (s.ctrl ((s.conn c.conn).ctrl.getD 0)).hostId ∧ c.entry.cdw10 % 8 = 1 ∧ x.keyOf h = some k :=
  ⟨{ wNvme false { opcode := 21, nsid := 1, cdw10 := 1 } with cmdb.nss := [(1, { used := true, regs := [(1, 5)] })] }, 0, 5, 1, wNvmeCmd false { opcode := 21, nsid := 1, cdw10 := 1 }, { used := true, regs := [(1, 5)] }, by decide⟩

theorem witness_ReservationsAreKeptByKeyAndHolder_9 : ∃ (s : State) (t k h : Nat) (c : Cmd) (x : Ns), s.ready t false 0x15 = some c ∧
    x = s.ns c.entry.nsid ∧ h = (s.ctrl ((s.conn c.conn).ctrl.getD 0)).hostId ∧ x.keyOf h ≠ some k :=
  ⟨wNvme false { opcode := 21, nsid := 1 }, 0, 5, 1, wNvmeCmd false { opcode := 21, nsid := 1 }, { used := true, nsze := 4096 }, by decide⟩

theorem witness_NamespacesAreCreatedDeletedAndActivationQuiesces_0 : ∃ (s u : State) (id : Nat) (c : Started), s.Accepts id 0x0203 [(0, 40)]
    (· = 48) (fun _ => true) c u ∧ leAt c.payload 0 4 ≠ 0 ∧ leAt c.payload 0 4 ≤ 16384 ∧ leAt c.payload 6 2 ≤ 1023 ∧
    leAt c.payload 0x14 4 ≤ 1 ∧ leAt c.payload 0x28 8 = 0 ∧ (u.volume (leAt c.payload 4 2)).used = true ∧ leAt c.payload 8 8 ≠ 0 ∧
    leAt c.payload 8 8 ≤ (u.volume (leAt c.payload 4 2)).extents * 4096 ∧ (u.ns (leAt c.payload 0 4)).used = false ∧
    u.nsOf (leAt c.payload 4 2) = none ∧ u.keyFree (leAt c.payload 0x10 4) = true :=
  ⟨_, _, 1, _, wAccP (wNs []) (wDesc 0x0203 0) (leBytes 8 1 ++ leBytes 8 4096 ++ leBytes 8 (2 ^ 28) ++ leBytes 24 0) 0x0203 rfl rfl rfl, by decide, by decide, by decide, by decide, by decide, by decide, by decide, by decide, by decide, by decide, by decide⟩

theorem witness_NamespacesAreCreatedDeletedAndActivationQuiesces_1 : ∃ (s u : State) (id : Nat) (c : Started), s.Accepts id 0x0204 [(0, 40)]
    (· = 8) (fun _ => true) c u ∧ leAt c.payload 4 4 = 0 ∧ u.nsExists (leAt c.payload 0 4) = true :=
  ⟨_, _, 1, _, wAccP (wNs [(1, { used := true })]) (wDesc 0x0204 0) (leBytes 8 1) 0x0204 rfl rfl rfl, by decide, by decide⟩

theorem witness_NamespacesAreCreatedDeletedAndActivationQuiesces_2 : ∃ (s : State) (n : Nat), s.cmdb.act = .quiescing n ∧
    s.quiesced = true :=
  ⟨{ wUp with cmdb.act := .quiescing 5 }, 5, by decide⟩

theorem witness_NamespacesAreCreatedDeletedAndActivationQuiesces_3 : ∃ (s : State) (n : Nat), s.cmdb.act = .quiescing n :=
  ⟨{ wUp with cmdb.act := .quiescing 5 }, 5, by decide⟩

theorem witness_NamespacesAreCreatedDeletedAndActivationQuiesces_4 : ∃ (s : State) (n : Nat), s.cmdb.act = .running n :=
  ⟨{ wUp with cmdb.act := .running 5 }, 5, by decide⟩

theorem witness_LayoutIsBuiltAndVolumesAreKept_0 : ∃ (s : State) (v : Word), getBits v 0 0 = 1 ∧ s.acceptsHolder true = true ∧
    s.anyVolume = false ∧ s.geoN ≠ 0 :=
  ⟨wDirty.setVolume 0 {}, 1, by decide⟩

theorem witness_LayoutIsBuiltAndVolumesAreKept_1 : ∃ (s : State), (s.rg Reg.LAY_SEED_SEED.addr).toNat ≠ 0 :=
  ⟨wDirty.setRg Reg.LAY_SEED_SEED.addr 1, by decide⟩

theorem witness_LayoutIsBuiltAndVolumesAreKept_2 : ∃ (s : State) (v : Word), s.anyVolume = true ∨ getBits v 0 0 = 0 :=
  ⟨wDirty, 1, by decide⟩

theorem witness_LayoutIsBuiltAndVolumesAreKept_3 : ∃ (s : State) (id : Nat) (c : Started) (u : State), s.AcceptsPlain id 0x0200 [(3, 1), (8,
    32)] c ∧ c.desc.par 0 2 ≤ 16383 ∧ c.desc.par 2 1 ≤ 1 ∧ c.desc.par 4 4 ≠ 0 ∧ c.desc.par 4 4 ≤ 536870912 ∧
    (s.volume (c.desc.par 0 2)).used = false ∧ s.lay.built = true ∧
    u = (s.setVolume (c.desc.par 0 2) { used := true, extents := c.desc.par 4 4, segs := s.freeSegs.take (segsFor (c.desc.par 4 4)) }).persist
    (.volume (c.desc.par 0 2)) :=
  ⟨wIn wDirty (wDesc 0x0200 (1 + 2 ^ 32)), 1, _, _, wAcc wDirty (wDesc 0x0200 (1 + 2 ^ 32)) 0x0200 rfl rfl rfl, by decide, by decide, by decide, by decide, by decide, by decide, rfl⟩

theorem witness_LayoutIsBuiltAndVolumesAreKept_4 : ∃ (s : State) (id : Nat) (c : Started), s.AcceptsPlain id 0x0201 [(3, 1), (8, 32)] c ∧
    c.desc.par 0 2 ≤ 16383 ∧ c.desc.par 2 1 = 0 ∧ c.desc.par 4 4 ≠ 0 ∧ c.desc.par 4 4 ≤ 536870912 ∧
    (s.volume (c.desc.par 0 2)).used = true ∧ (s.volume (c.desc.par 0 2)).extents ≤ c.desc.par 4 4 ∧
    segsFor (c.desc.par 4 4) - (s.volume (c.desc.par 0 2)).segs.length ≤ s.freeSegs.length :=
  ⟨wIn wDirty (wDesc 0x0201 (2 ^ 33)), 1, _, wAcc wDirty (wDesc 0x0201 (2 ^ 33)) 0x0201 rfl rfl rfl, by decide, by decide, by decide, by decide, by decide, by decide, by decide +kernel⟩

theorem witness_LayoutIsBuiltAndVolumesAreKept_5 : ∃ (s : State) (id : Nat) (c : Started) (x : Volume) (locked : Bool), s.AcceptsPlain id
    0x0201 [(3, 1), (8, 32)] c ∧ c.desc.par 0 2 ≤ 16383 ∧ c.desc.par 2 1 = 0 ∧ c.desc.par 4 4 ≠ 0 ∧ x = s.volume (c.desc.par 0 2) ∧
    c.desc.par 4 4 < x.extents ∧ c.desc.par 4 4 ≤ 536870912 ∧ x.used = true ∧
    ((s.nsOf (c.desc.par 0 2)).map fun k => (s.ns k).nsze).getD 0 ≤ c.desc.par 4 4 * 4096 ∧
    locked = ((s.nsOf (c.desc.par 0 2)).map fun k => s.locked k (c.desc.par 4 4 * 4096) ((x.extents - c.desc.par 4 4) * 4096)).getD false :=
  ⟨wIn { wDirty with lay.volumes := [(0, { used := true, extents := 2 })], cmdb.nss := [(1, { used := true, nsze := 4096 })] } (wDesc 0x0201 (2 ^ 32)), 1, _, _, _, wAcc _ (wDesc 0x0201 (2 ^ 32)) 0x0201 rfl rfl rfl, by decide, by decide, by decide, rfl, by decide, by decide, by decide, by decide, rfl⟩

theorem witness_LayoutIsBuiltAndVolumesAreKept_6 : ∃ (s : State) (id n : Nat) (c : Started), s.AcceptsPlain id 0x0201 [(3, 1), (8, 32)] c ∧
    c.desc.par 0 2 ≤ 16383 ∧ c.desc.par 2 1 = 0 ∧ c.desc.par 4 4 ≠ 0 ∧ c.desc.par 4 4 < (s.volume (c.desc.par 0 2)).extents ∧
    c.desc.par 4 4 ≤ 536870912 ∧ (s.volume (c.desc.par 0 2)).used = true ∧ s.nsOf (c.desc.par 0 2) = some n ∧
    c.desc.par 4 4 * 4096 < (s.ns n).nsze :=
  ⟨wIn { wDirty with lay.volumes := [(0, { used := true, extents := 2 })], cmdb.nss := [(1, { used := true, nsze := 8192 })] } (wDesc 0x0201 (2 ^ 32)), 1, 1, _, wAcc _ (wDesc 0x0201 (2 ^ 32)) 0x0201 rfl rfl rfl, by decide, by decide, by decide, by decide, by decide, by decide, by decide, by decide⟩

theorem witness_LayoutIsBuiltAndVolumesAreKept_7 : ∃ (s u : State) (id : Nat) (c : Started), s.Accepts id 0x0202 [(0, 40)] (· = 8) (fun _ =>
    true) c u ∧ zeroAt c.payload 2 6 = true ∧ (u.volume (leAt c.payload 0 2)).used = true ∧ u.nsOf (leAt c.payload 0 2) = none :=
  ⟨_, _, 1, _, wAccP wDirty (wDesc 0x0202 0) (leBytes 8 0) 0x0202 rfl rfl rfl, by decide, by decide, by decide⟩

theorem witness_LayoutIsBuiltAndVolumesAreKept_8 : ∃ (s u : State) (id n : Nat) (c : Started), s.Accepts id 0x0202 [(0, 40)] (· = 8) (fun _
    => true) c u ∧ zeroAt c.payload 2 6 = true ∧ (u.volume (leAt c.payload 0 2)).used = true ∧ u.nsOf (leAt c.payload 0 2) = some n :=
  ⟨_, _, 1, 1, _, wAccP { wDirty with cmdb.nss := [(1, { used := true, nsze := 4096 })] } (wDesc 0x0202 0) (leBytes 8 0) 0x0202 rfl rfl rfl, by decide, by decide, by decide⟩

theorem witness_StripeWritesFollowTheJournalOrder_0 : ∃ (s : State) (v e x : Nat) (rs : List (Nat × Nat × List Byte)), s.hrn.holder = true ∧
    s.lay.built = true ∧ s.mayDestage v e x = true ∧ (s.mapEnt v e).alloc = true ∧ s.sbg.replaying = false ∧
    (s.reb.suspect.contains (v, e) && !s.reb.suspectDone.contains (v, e, x)) = false ∧ (s.dirtyOf v e x ≠ [] ∨ s.redoing v e x = true) ∧
    s.extentBusy v e = false ∧ (s.sbg.stripes.any fun j => j.volume = v && j.extent = e && j.stripe = x) = false :=
  ⟨wDirty, 0, 0, 0, [], by decide⟩

theorem witness_StripeWritesFollowTheJournalOrder_1 : ∃ (s : State) (v e x : Nat) (rs : List (Nat × Nat × List Byte)), (s.sbg.stripes.any
    fun j => j.volume = v && j.extent = e && j.stripe = x) = true ∨ s.mayDestage v e x = false :=
  ⟨wOpen wStripe, 7, 0, 0, [], by decide⟩

theorem witness_StripeWritesFollowTheJournalOrder_2 : ∃ (s : State) (n : Nat) (j : Stripe), s.stripeAt n = some j ∧ j.phase = .building ∧
    j.acked = true ∧ j.persisted = true :=
  ⟨wOpen wStripe, 0, wStripe, by decide⟩

theorem witness_StripeWritesFollowTheJournalOrder_3 : ∃ (s : State) (n : Nat) (j : Stripe), s.stripeAt n = some j ∧ (j.acked = false ∨
    j.persisted = false) :=
  ⟨wOpen { wStripe with acked := false }, 0, { wStripe with acked := false }, by decide⟩

theorem witness_StripeWritesFollowTheJournalOrder_4 : ∃ (s : State) (n : Nat) (j : Stripe), s.stripeAt n = some j :=
  ⟨wOpen { wStripe with phase := .data }, 0, { wStripe with phase := .data }, by decide⟩

theorem witness_StripeWritesFollowTheJournalOrder_5 : ∃ (s : State) (n : Nat) (j : Stripe), s.stripeAt n = some j ∧ j.phase = .parity ∧
    j.left = 0 ∧ (j.kind ≠ 1 ∨ s.reb.current = none ∨
    (s.sbg.stripes.any fun x => x.slot ≠ j.slot && x.kind = 1 && x.volume = j.volume && x.extent = j.extent) = true) :=
  ⟨wOpen { wStripe with phase := .parity }, 0, { wStripe with phase := .parity }, by decide⟩

theorem witness_StripeWritesFollowTheJournalOrder_6 : ∃ (s : State) (n : Nat) (j : Stripe) (r : RbExtent), s.stripeAt n = some j ∧
    j.kind = 1 ∧ s.reb.current = some r ∧ j.volume = r.volume ∧ j.extent = r.extent ∧
    (s.sbg.stripes.any fun x => x.slot ≠ j.slot && x.kind = 1 && x.volume = r.volume && x.extent = r.extent) = false :=
  ⟨{ wOpen { wStripe with phase := .parity, kind := 1 } with reb.current := some { wRb with volume := 7 } }, 0, { wStripe with phase := .parity, kind := 1 }, { wRb with volume := 7 }, by decide⟩

theorem witness_StripeWritesFollowTheJournalOrder_7 : ∃ (s : State) (n : Nat) (j : Stripe), s.stripeAt n = some j ∧ (j.phase ≠ .parity ∨
    j.left ≠ 0) :=
  ⟨wOpen wStripe, 0, wStripe, by decide⟩

theorem witness_StripeWritesFollowTheJournalOrder_8 : ∃ (s u v w : State) (p : Fin 16384) (t k : Nat) (ds : List Nat),
    (s.sbg.dirtyPages.find? fun e => e.1 = p.val).map Prod.snd = some t ∧ s.hrn.holder = true ∧ v = s.reach (t + s.gather) ∧
    ds = v.segCurrent (p / 256) ∧ v.takeCtrs ds.length = (u, some k) ∧
    w = ((ds.map fun d => (d, 256 + p.val)).zip (List.range ds.length)).foldl (fun s d => s.emit (.journalPage d.1.1 d.1.2 (v.sealMeta d.1.1
    d.1.2 (k + d.2) (v.journalBytes p)) v.tim.floor)) u :=
  ⟨{ wDirty with sbg.dirtyPages := [(0, 5)], reb.members := (List.range 8).map fun d => (d, { st := .active }) }, _, _, _, 0, 5, 0, _, by decide, by decide, rfl, rfl, wPair (by decide +kernel), rfl⟩

theorem witness_StripeWritesFollowTheJournalOrder_9 : ∃ (s u v : State) (p : Fin 16384) (t : Nat), (s.sbg.dirtyPages.find? fun e => e.1 =
    p.val).map Prod.snd = some t ∧ s.hrn.holder = true ∧ v = s.reach (t + s.gather) ∧
    v.takeCtrs (v.segCurrent (p / 256)).length = (u, none) :=
  ⟨{ wDirty with sbg.dirtyPages := [(0, 5)], cph.saved := false }, _, _, 0, 5, by decide, by decide, rfl, rfl⟩

theorem witness_ReadsComeFromBufferZerosOrDrives_0 : ∃ (s : State) (t : Nat) (c : Cmd), s.ready t false 0x02 = some c ∧ s.follows = true ∧
    ((s.conn c.conn).tandem = false ∨ s.hrn.role = .joining) :=
  ⟨wStandby (wNvme false { opcode := 2, nsid := 1 }), 0, wNvmeCmd false { opcode := 2, nsid := 1 }, by decide⟩

theorem witness_ReadsComeFromBufferZerosOrDrives_1 : ∃ (s : State) (t : Nat) (c : Cmd), s.ready t false 0x02 = some c ∧ (s.follows = false ∨
    ((s.conn c.conn).tandem = true ∧ s.hrn.role ≠ .joining)) ∧ s.lostIn (s.ns c.entry.nsid).volume c.entry.slba c.entry.nlb = true :=
  ⟨{ wNvme false { opcode := 2, nsid := 1 } with cmdb.lost := [⟨0, 0, 1, 1, 0⟩] }, 0, wNvmeCmd false { opcode := 2, nsid := 1 }, by decide⟩

theorem witness_ReadsComeFromBufferZerosOrDrives_2 : ∃ (s : State) (t : Nat) (c : Cmd), s.ready t false 0x02 = some c ∧ (s.follows = false ∨
    ((s.conn c.conn).tandem = true ∧ s.hrn.role ≠ .joining)) ∧ s.lostIn (s.ns c.entry.nsid).volume c.entry.slba c.entry.nlb = false ∧
    (∀ i < c.entry.nlb, s.bufferedBlock c.entry.nsid (c.entry.slba + i) = none ∧
    (s.mapEnt (s.ns c.entry.nsid).volume ((c.entry.slba + i) / 4096)).alloc = false) :=
  ⟨wNvme false { opcode := 2, nsid := 1 }, 0, wNvmeCmd false { opcode := 2, nsid := 1 }, by decide, by decide, by decide, fun i _ => ⟨rfl, rfl⟩⟩

theorem witness_ReadsComeFromBufferZerosOrDrives_3 : ∃ (s : State) (t : Nat) (c : Cmd) (b : BufBlk), s.ready t false 0x02 = some c ∧
    (s.follows = false ∨ ((s.conn c.conn).tandem = true ∧ s.hrn.role ≠ .joining)) ∧
    s.lostIn (s.ns c.entry.nsid).volume c.entry.slba c.entry.nlb = false ∧ c.entry.nlb = 1 ∧
    s.bufferedBlock c.entry.nsid c.entry.slba = some b :=
  ⟨{ wNvme false { opcode := 2, nsid := 1 } with lay.buffer := [{ id := 0, nsid := 1, volume := 0, lba := 0, blk := [], cmd := none, visible := true }] }, 0, wNvmeCmd false { opcode := 2, nsid := 1 }, { id := 0, nsid := 1, volume := 0, lba := 0, blk := [], cmd := none, visible := true }, by decide⟩

theorem witness_ReadsComeFromBufferZerosOrDrives_4 : ∃ (s : State) (t : Nat) (c : Cmd), s.ready t false 0x02 = some c ∧ (s.follows = false ∨
    ((s.conn c.conn).tandem = true ∧ s.hrn.role ≠ .joining)) ∧ s.lostIn (s.ns c.entry.nsid).volume c.entry.slba c.entry.nlb = false ∧
    c.entry.nlb = 1 ∧ s.bufferedBlock c.entry.nsid c.entry.slba = none ∧
    (s.mapEnt (s.ns c.entry.nsid).volume (c.entry.slba / 4096)).alloc = true :=
  ⟨{ wNvme false { opcode := 2, nsid := 1 } with lay.volumes := [(0, { used := true, extents := 1, map := [(0, { alloc := true })] })] }, 0, wNvmeCmd false { opcode := 2, nsid := 1 }, by decide⟩

theorem witness_ReadsComeFromBufferZerosOrDrives_5 : ∃ (s : State) (t i : Nat), 0 < s.slotsHeldFree ∨ (s.slotsHeldFree = 0 ∧
    s.cph.waitRaised = true) :=
  ⟨wUp, 0, 0, by decide⟩

theorem witness_ReadsComeFromBufferZerosOrDrives_6 : ∃ (s : State) (t i : Nat), s.slotsHeldFree = 0 ∧ s.cph.waitRaised = false :=
  ⟨{ wUp with cph.held := 15104 }, 0, 0, by decide⟩

theorem witness_ReadsComeFromBufferZerosOrDrives_7 : ∃ (s : State) (t i : Nat) (ws : List (Nat × Nat)), s.cph.waiting = (t, i) :: ws ∧
    0 < s.slotsHeldFree :=
  ⟨{ wUp with cph.waiting := [(0, 0)] }, 0, 0, [], by decide⟩

theorem witness_WritesAreAdmittedBufferedAndFlushed_0 : ∃ (s u : State) (t : Nat) (h : Bool) (c : Cmd), s.ready t false 0x01 = some c ∧
    s.allocRange (s.ns c.entry.nsid).volume c.entry.slba c.entry.nlb = (u, false) :=
  ⟨wNvme false { opcode := 1, nsid := 1 }, _, 0, true, wNvmeCmd false { opcode := 1, nsid := 1 }, by decide, wPair (by decide +kernel)⟩

theorem witness_WritesAreAdmittedBufferedAndFlushed_1 : ∃ (s u : State) (t : Nat) (h : Bool) (c : Cmd), s.ready t false 0x01 = some c ∧
    s.allocRange (s.ns c.entry.nsid).volume c.entry.slba c.entry.nlb = (u, true) :=
  ⟨{ wNvme false { opcode := 1, nsid := 1 } with lay.volumes := [(0, { used := true, extents := 1, map := [(0, { alloc := true })] })] }, _, 0, true, wNvmeCmd false { opcode := 1, nsid := 1 }, by decide, wPair (by decide +kernel)⟩

theorem witness_WritesAreAdmittedBufferedAndFlushed_2 : ∃ (s : State) (t : Nat) (c : Cmd), s.cmd t = some c ∧ c.phase = .held ∧
    s.heldBefore c.uid = false :=
  ⟨wPhase 1 { wNvmeCmd false { opcode := 1, nsid := 1 } with phase := .held }, 0, { wNvmeCmd false { opcode := 1, nsid := 1 } with phase := .held }, by decide⟩

theorem witness_WritesAreAdmittedBufferedAndFlushed_3 : ∃ (s : State) (t : Nat) (c : Cmd), s.ready t false 0x08 = some c :=
  ⟨wNvme false { opcode := 8, nsid := 1 }, 0, wNvmeCmd false { opcode := 8, nsid := 1 }, by decide⟩

theorem witness_WritesAreAdmittedBufferedAndFlushed_4 : ∃ (s u : State) (t lba n : Nat) (c : Cmd) (d : Bool) (rs : List (Nat × Nat)), u =
    s.clearLost (s.ns c.entry.nsid).volume lba n :=
  ⟨wNvme false { opcode := 8, nsid := 1 }, _, 0, 0, 1, wNvmeCmd false { opcode := 8, nsid := 1 }, false, [], rfl⟩

theorem witness_WritesAreAdmittedBufferedAndFlushed_5 : ∃ (s u : State) (t : Nat) (c : Cmd) (ws rs : List (Nat × Nat)), s.ready t false 0x09
    = some c ∧ rs = ws.take (c.entry.cdw10 % 256 + 1) ∧
    u = s.updCmd t (fun c' => { c' with ranges := if c.dealloc then rs.flatMap fun r => cutRange (r.2 / 4096 + 2) r.1 r.2 else [] }) :=
  ⟨wNvme false { opcode := 9, nsid := 1, cdw11 := 4 }, _, 0, wNvmeCmd false { opcode := 9, nsid := 1, cdw11 := 4 }, [(0, 8)], _, by decide, rfl, rfl⟩

theorem witness_WritesAreAdmittedBufferedAndFlushed_6 : ∃ (s : State) (t : Nat) (c : Cmd), s.ready t false 0x00 = some c :=
  ⟨wNvme false { opcode := 0, nsid := 1 }, 0, wNvmeCmd false { opcode := 0, nsid := 1 }, by decide⟩

theorem witness_WritesAreAdmittedBufferedAndFlushed_7 : ∃ (s : State) (v : Word), s.acceptsHolder true = true ∧ getBits v 23 0 ≤ 31665 :=
  ⟨wUp, 5, by decide⟩

theorem witness_WritesAreAdmittedBufferedAndFlushed_8 : ∃ (s : State) (v : Word), 31665 < getBits v 23 0 ∨ s.acceptsHolder true = false :=
  ⟨wUp, 0xFFFFFF, by decide⟩

theorem witness_CipherAndCodeCallsAreChecked_0 : ∃ (s s1 s2 : State) (m : List Bool) (c : Call) (g k a b : Nat) (key : List Byte),
    s.takeCtrs (c.arg 0x0A 2) = (s1, some k) ∧ s1.runPipe false 0 m false = (s2, true) ∧ s.nextCall 2 = some c ∧ c.arg 8 1 = 0 ∧
    c.atRestOk = true ∧ s.handleKey (c.arg 0x0C 4) = some (g, key) ∧ c.arg 0x09 1 = 0 ∧ c.arg 0x30 8 = 0 ∧
    s.access c (c.arg 0x10 8) (c.arg 0x0A 2 * 4096) false = some a ∧ s.access c (c.arg 0x18 8) (c.arg 0x0A 2 * 4160) true = some b :=
  ⟨wEng 2 (wCipher 0 1 (2 ^ 28) 0 0x10000 1 0), _, _, [], wEngC 2 (wCipher 0 1 (2 ^ 28) 0 0x10000 1 0), 0, 0, 0x04000000, 0x04010000, [], wPair (by decide +kernel), wPair (by decide +kernel), by decide +kernel⟩

theorem witness_CipherAndCodeCallsAreChecked_1 : ∃ (s s2 : State) (m : List Bool) (c : Call) (g a b : Nat) (key : List Byte), s.runPipe
    false 0 m false = (s2, true) ∧ s.nextCall 2 = some c ∧ c.arg 8 1 = 0 ∧ c.atRestOk = true ∧ s.handleKey (c.arg 0x0C 4) = some (g, key) ∧
    c.arg 0x09 1 = 1 ∧ c.tier1 = false ∧ s.follows = true ∧ s.access c (c.arg 0x10 8) (c.arg 0x0A 2 * 4096) false = some a ∧
    s.access c (c.arg 0x18 8) (c.arg 0x0A 2 * 4160) true = some b :=
  ⟨wStandby (wEng 2 (wCipherN (wCipher 0 1 (2 ^ 28) 0 0x10000 1 0))), _, [], wEngC 2 (wCipherN (wCipher 0 1 (2 ^ 28) 0 0x10000 1 0)), 0, 0x04000000, 0x04010000, [], wPair (by decide +kernel), by decide +kernel⟩

theorem witness_CipherAndCodeCallsAreChecked_2 : ∃ (s : State) (m : List Bool) (r : Bool) (c : Call), s.nextCall 2 = some c ∧
    (s.handleKey (c.arg 0x0C 4) = none ∨ c.atRestOk = false) :=
  ⟨wEng 2 (wCipher 0 1 0 0 0 1 0), [], false, wEngC 2 (wCipher 0 1 0 0 0 1 0), by decide⟩

theorem witness_CipherAndCodeCallsAreChecked_3 : ∃ (s : State) (m : List Bool) (r : Bool) (c : Call), s.nextCall 2 = some c ∧
    (s.handleKey (c.arg 0x0C 4)).isSome = true ∧ c.atRestOk = true ∧ c.arg 0x09 1 = 0 ∧ c.arg 0x30 8 = 0 :=
  ⟨wEng 2 (wCipher 0 1 (2 ^ 28) 0 0 1 0), [], false, wEngC 2 (wCipher 0 1 (2 ^ 28) 0 0 1 0), by decide⟩

theorem witness_CipherAndCodeCallsAreChecked_4 : ∃ (s u : State) (m : List Bool) (r : Bool) (c : Call) (a b : Nat), s.runPipe false 1 m r =
    (u, true) ∧ s.nextCall 2 = some c ∧ c.arg 8 1 = 1 ∧ c.atRestOk = true ∧ (s.handleKey (c.arg 0x0C 4)).isSome = true ∧ c.arg 0x09 1 = 0 ∧
    c.arg 0x30 8 = 0 ∧ s.access c (c.arg 0x10 8) (c.arg 0x0A 2 * 4160) false = some a ∧
    s.access c (c.arg 0x18 8) (c.arg 0x0A 2 * 4096) true = some b :=
  ⟨wEng 2 (wCipher 1 1 (2 ^ 28) 0x10000 0 1 0), _, [], false, wEngC 2 (wCipher 1 1 (2 ^ 28) 0x10000 0 1 0), 0x04010000, 0x04000000, wPair (by decide +kernel), by decide +kernel⟩

theorem witness_CipherAndCodeCallsAreChecked_5 : ∃ (s u : State) (m : List Bool) (r : Bool) (c : Call) (a : Nat), s.runPipe false 4 m r =
    (u, true) ∧ s.nextCall 2 = some c ∧ c.arg 8 1 = 4 ∧ c.atRestOk = true ∧ (s.handleKey (c.arg 0x0C 4)).isSome = true ∧ c.arg 0x09 1 = 0 ∧
    c.arg 0x30 8 = 0 ∧ s.access c (c.arg 0x10 8) (c.arg 0x0A 2 * 4160) false = some a ∧ c.arg 0x18 8 = 0 :=
  ⟨wEng 2 (wCipher 4 1 (2 ^ 28) 0x10000 0 1 0), _, [], false, wEngC 2 (wCipher 4 1 (2 ^ 28) 0x10000 0 1 0), 0x04010000, wPair (by decide +kernel), by decide +kernel⟩

theorem witness_CipherAndCodeCallsAreChecked_6 : ∃ (s u : State) (c : Call) (a b h : Nat) (key salt : List Byte), s.runPipe true 2 [false]
    false = (u, true) ∧ s.nextCall 2 = some c ∧ c.arg 8 1 = 2 ∧ s.saKey (c.arg 0x0C 4) = some (key, salt) ∧ c.tier1 = false ∧
    c.arg 0x0A 2 = 0 ∧ c.arg 0x09 1 = 0 ∧ c.arg 0x24 4 = 0 ∧ s.access c (c.arg 0x10 8) (c.arg 0x20 4) false = some a ∧
    s.access c (c.arg 0x18 8) (c.arg 0x20 4 + 16) true = some b ∧ s.access c (c.arg 0x28 8) 8 false = some h :=
  ⟨wEng 2 (wCipher 2 0 (2 ^ 29) 0 0x100 16 0x200), _, wEngC 2 (wCipher 2 0 (2 ^ 29) 0 0x100 16 0x200), 0x04000000, 0x04000100, 0x04000200, List.replicate 32 0, List.replicate 4 0, wPair (by decide +kernel), by decide +kernel⟩

theorem witness_CipherAndCodeCallsAreChecked_7 : ∃ (s u : State) (c : Call) (a b h : Nat) (key salt : List Byte), s.runPipe true 3 [false]
    false = (u, true) ∧ s.nextCall 2 = some c ∧ c.arg 8 1 = 3 ∧ s.saKey (c.arg 0x0C 4) = some (key, salt) ∧ c.tier1 = false ∧
    c.arg 0x0A 2 = 0 ∧ c.arg 0x09 1 = 0 ∧ c.arg 0x24 4 = 0 ∧ s.access c (c.arg 0x10 8) (c.arg 0x20 4 + 16) false = some a ∧
    s.access c (c.arg 0x18 8) (c.arg 0x20 4) true = some b ∧ s.access c (c.arg 0x28 8) 8 false = some h :=
  ⟨wEng 2 (wCipher 3 0 (2 ^ 29) 0 0x100 16 0x200), _, wEngC 2 (wCipher 3 0 (2 ^ 29) 0 0x100 16 0x200), 0x04000000, 0x04000100, 0x04000200, List.replicate 32 0, List.replicate 4 0, wPair (by decide +kernel), by decide +kernel⟩

theorem witness_CipherAndCodeCallsAreChecked_8 : ∃ (s u : State) (mm : Bool) (c : Call) (a b h : Nat) (ks : List Byte × List Byte),
    s.nextCall 2 = some c ∧ c.arg 8 1 = 2 :=
  ⟨wEng 2 (wCipher 2 0 (2 ^ 29) 0 0x100 16 0x200), wUp, false, wEngC 2 (wCipher 2 0 (2 ^ 29) 0 0x100 16 0x200), 0, 0, 0, ([], []), by decide⟩

theorem witness_CipherAndCodeCallsAreChecked_9 : ∃ (s u : State) (t k : Nat) (m : List Bool) (c : Cmd), s.cmd t = some c ∧
    s.follows = false ∧ c.phase = .sealing ∧ s.takeCtrs c.entry.nlb = (u, some k) :=
  ⟨wPhase 1 { wNvmeCmd false { opcode := 1, nsid := 1 } with phase := .sealing }, _, 0, 0, [], { wNvmeCmd false { opcode := 1, nsid := 1 } with phase := .sealing }, by decide, by decide, by decide, wPair (by decide +kernel)⟩

theorem witness_CipherAndCodeCallsAreChecked_10 : ∃ (s u : State) (t : Nat) (m : List Bool) (c : Cmd) (x : Nat × Nat), s.runPipe false 0 m
    false = (u, true) ∧ s.cmd t = some c ∧ s.follows = true ∧ c.phase = .sealing ∧
    ((s.conn c.conn).nonces.find? fun x => x.1 = c.sqIndex) = some x :=
  ⟨wStandby ((wPhase 1 { wNvmeCmd false { opcode := 1, nsid := 1 } with phase := .sealing }).updConn 0 fun x => { x with nonces := [(0, 9)] }), _, 0, [], { wNvmeCmd false { opcode := 1, nsid := 1 } with phase := .sealing }, (0, 9), wPair (by decide +kernel), by decide +kernel⟩

theorem witness_CipherAndCodeCallsAreChecked_11 : ∃ (s u : State) (t : Nat) (m : List Bool) (r : Bool) (c : Cmd), s.cmd t = some c ∧
    c.phase = .reading ∧ c.allHeld = true ∧ s.runPipe false 1 m r = (u, true) :=
  ⟨wPhase 2 { wNvmeCmd false { opcode := 2, nsid := 1 } with phase := .reading }, _, 0, [], false, { wNvmeCmd false { opcode := 2, nsid := 1 } with phase := .reading }, by decide, by decide, by decide, wPair (by decide +kernel)⟩

theorem witness_CipherAndCodeCallsAreChecked_12 : ∃ (s : State) (t i : Nat) (c : Cmd) (b : RdBlk) (bs : List RdBlk) (acc d blk : List Byte),
    b.st = .held blk ∧ openBlock (s.liveKeys c.entry.nsid) c.entry.nsid b.lba (s.mapEnt (s.ns c.entry.nsid).volume (b.lba / 4096)).gen blk =
    .zeros :=
  ⟨wUp, 0, 0, wNvmeCmd false { opcode := 2 }, { lba := 0, st := .held [] }, [], [], [], [], rfl, by decide +kernel⟩

theorem witness_CipherAndCodeCallsAreChecked_13 : ∃ (s : State), s.cph.saved = false ∧ s.cph.ctrEpoch ≠ 0 ∧ s.cph.ctrCount < 2 ^ 40 ∧
    s.sec.write.isSome = true :=
  ⟨{ wUp with sec.write := some { content := {} }, cph.ctrEpoch := 1 }, by decide, by decide, by decide, rfl⟩

theorem witness_CipherAndCodeCallsAreChecked_14 : ∃ (s : State) (c : Call) (src dst : List Nat) (out : List (List Byte)), out = (ecEncode
    (c.arg 0x0A 1) (src.map fun a => s.bytes a (c.arg 0x0C 4))).map (fit (c.arg 0x0C 4)) ∧ s.nextCall 3 = some c ∧ c.arg 8 1 = 0 ∧
    c.arg 0x09 1 ≠ 0 ∧ c.arg 0x09 1 ≤ 31 ∧ c.arg 0x0A 1 ≠ 0 ∧ c.arg 0x0A 1 ≤ 4 ∧ 64 ≤ c.arg 0x0C 4 ∧ c.arg 0x0C 4 ≤ 266240 ∧
    c.arg 0x0C 4 % 64 = 0 ∧ c.arg 0x14 4 = 0 ∧ c.arg 0x30 8 = 0 ∧
    s.addrList c (c.arg 0x18 8) (c.arg 0x09 1) (c.arg 0x0C 4) false = some src ∧
    s.addrList c (c.arg 0x20 8) (c.arg 0x0A 1) (c.arg 0x0C 4) true = some dst :=
  ⟨wEng 3 (wEc 0 0), wEngC 3 (wEc 0 0), [0x04000000], [0x04000000], _, rfl, by decide +kernel⟩

theorem witness_CipherAndCodeCallsAreChecked_15 : ∃ (s : State) (c : Call) (src dst : List Nat) (out : List (List Byte)), out = (ecUpdate
    (c.arg 0x0B 1) ((src.map fun a => s.bytes a (c.arg 0x0C 4)).getD 0 []) ((src.map fun a => s.bytes a (c.arg 0x0C 4)).getD 1 []) ((src.map
    fun a => s.bytes a (c.arg 0x0C 4)).drop 2)).map (fit (c.arg 0x0C 4)) ∧ s.nextCall 3 = some c ∧ c.arg 8 1 = 1 ∧ c.arg 0x09 1 ≠ 0 ∧
    c.arg 0x09 1 ≤ 31 ∧ c.arg 0x0A 1 ≠ 0 ∧ c.arg 0x0A 1 ≤ 4 ∧ 64 ≤ c.arg 0x0C 4 ∧ c.arg 0x0C 4 ≤ 266240 ∧ c.arg 0x0C 4 % 64 = 0 ∧
    c.arg 0x14 4 = 0 ∧ c.arg 0x30 8 = 0 ∧ s.addrList c (c.arg 0x18 8) (c.arg 0x0A 1 + 2) (c.arg 0x0C 4) false = some src ∧
    s.addrList c (c.arg 0x20 8) (c.arg 0x0A 1) (c.arg 0x0C 4) true = some dst ∧ c.arg 0x0B 1 < c.arg 0x09 1 :=
  ⟨wEng 3 (wEc 1 0), wEngC 3 (wEc 1 0), [0x04000000, 0x04000000, 0x04000000], [0x04000000], _, rfl, by decide +kernel⟩

theorem witness_CipherAndCodeCallsAreChecked_16 : ∃ (s : State) (c : Call) (src dst : List Nat) (out : List (List Byte)), out = (ecDecode
    (c.arg 0x09 1) ((c.erase false).zip (src.map fun a => s.bytes a (c.arg 0x0C 4))) (c.erase true)).map (fit (c.arg 0x0C 4)) ∧
    s.nextCall 3 = some c ∧ c.arg 8 1 = 2 ∧ c.arg 0x09 1 ≠ 0 ∧ c.arg 0x09 1 ≤ 31 ∧ c.arg 0x0A 1 ≠ 0 ∧ c.arg 0x0A 1 ≤ 4 ∧ 64 ≤ c.arg 0x0C 4 ∧
    c.arg 0x0C 4 ≤ 266240 ∧ c.arg 0x0C 4 % 64 = 0 ∧ c.arg 0x14 4 = 0 ∧ c.arg 0x30 8 = 0 ∧
    s.addrList c (c.arg 0x18 8) ((c.erase false).length) (c.arg 0x0C 4) false = some src ∧
    s.addrList c (c.arg 0x20 8) ((c.erase true).length) (c.arg 0x0C 4) true = some dst ∧ (c.erase true).length ≤ c.arg 0x0A 1 ∧
    c.arg 0x10 4 < 2 ^ (c.arg 0x09 1 + c.arg 0x0A 1) :=
  ⟨wEng 3 (wEc 2 1), wEngC 3 (wEc 2 1), [0x04000000], [0x04000000], _, rfl, by decide +kernel⟩

theorem witness_CipherAndCodeCallsAreChecked_17 : ∃ (s : State) (c : Call), s.nextCall 3 = some c :=
  ⟨wEng 3 (wEc 2 3), wEngC 3 (wEc 2 3), by decide⟩

theorem witness_SealedBlocksOpenAgain_0 : ∃ (key : List Byte) (gens : List (Nat × List Byte)) (g pre ctr nsid lba gen : Nat) (d : List
    Byte), 0 < g ∧ g < 2 ^ 32 ∧ (gens.find? fun x => x.1 = g && keyCheck x.2 = keyCheck key) = some (g, key) :=
  ⟨[], [(1, [])], 1, 0, 0, 1, 0, 0, [], by decide, by decide, by simp⟩

theorem witness_SealedBlocksOpenAgain_1 : ∃ (key : List Byte) (gens : List (Nat × List Byte)) (g pre ctr nsid lba lba' gen : Nat) (d : List
    Byte), 0 < g ∧ g < 2 ^ 32 ∧ lba % 2 ^ 32 ≠ lba' % 2 ^ 32 :=
  ⟨[], [], 1, 0, 0, 1, 0, 1, 0, [], by decide⟩

theorem witness_SealedBlocksOpenAgain_2 : ∃ (key : List Byte) (gens : List (Nat × List Byte)) (g pre ctr nsid lba gen : Nat) (d : List
    Byte), 0 < g ∧ g < 2 ^ 32 ∧ (∀ x ∈ gens, x.1 ≠ g) :=
  ⟨[], [], 1, 0, 0, 1, 0, 0, [], by decide, by decide, by simp⟩

theorem witness_SealedBlocksOpenAgain_3 : ∃ (gens : List (Nat × List Byte)) (nsid lba gen : Nat) (ct : List Byte), ct.length = 4096 :=
  ⟨[], 1, 0, 0, List.replicate 4096 0, List.length_replicate⟩

theorem witness_RebuildAndScrubWorkExtentByExtent_0 : ∃ (s u : State) (rs : List (Nat × Nat × Nat × List Byte)) (bad : List (Nat × Nat ×
    Nat)) (r : RbExtent), s.nextRebuild = some r ∧ s.hrn.holder = true ∧ s.reb.current = none ∧ s.pwr.st ≠ .drain ∧ (s.windowOpen 1 = true ∨
    r.cls = 1) ∧ s.bgSlot = true ∧ s.recordOpen r.volume r.extent = false ∧
    u = ({ s with reb.current := some r, reb.toSeal := [] } : State).noteQueue :=
  ⟨wRebuild, _, [], [], wRebuildExt, by decide +kernel, by decide, by decide, by decide, by decide, by decide, by decide, rfl⟩

theorem witness_RebuildAndScrubWorkExtentByExtent_1 : ∃ (s : State) (rs : List (Nat × Nat × Nat × List Byte)) (bad : List (Nat × Nat ×
    Nat)), s.nextRebuild = none :=
  ⟨wUp, [], [], by decide⟩

theorem witness_RebuildAndScrubWorkExtentByExtent_2 : ∃ (s : State) (rs : List (Nat × Nat × Nat × List Byte)) (r : RbExtent), s.reb.current
    = some r ∧ (1 < (s.rebuildRecords r).length ∨ (s.rebuildRecords r).any (fun j => j.phase ≠ .parity || j.left ≠ 0) = true) :=
  ⟨{ wOpen { wStripe with kind := 1, volume := 0 } with reb.current := some wRb }, [], wRb, by decide⟩

theorem witness_RebuildAndScrubWorkExtentByExtent_3 : ∃ (s u : State) (rs : List (Nat × Nat × Nat × List Byte)) (r : RbExtent) (js : List
    Stripe), js = s.rebuildRecords r ∧ u = ((r.positions.foldl (fun s p => s.setProgress r.row r.band p (r.cls ≠ 11)) s).setRow r.row
    { s.row r.row with homeless := (s.row r.row).homeless.filter fun h => !(h.1 = r.band && r.positions.contains h.2) }).tellTwin (.progress
    r.row r.band r.positions (r.cls ≠ 11)) ∧ s.reb.current = some r ∧ js.length ≤ 1 ∧
    (js.all fun j => j.phase = .parity && j.left = 0) = true :=
  ⟨{ wUp with reb.current := some wRb }, _, [], wRb, _, rfl, rfl, by decide⟩

theorem witness_RebuildAndScrubWorkExtentByExtent_4 : ∃ (s : State) (id t i q : Nat) (c : DrvCmd), s.drv.cmds.find? (fun c => c.id = id) =
    some c ∧ c.use = .hostRead t i q :=
  ⟨wMem .suspect (.hostRead 0 0 0) true, 3, 0, 0, 0, ⟨3, 0, .hostRead 0 0 0, true, 0, 0, 0⟩, by decide⟩

theorem witness_RebuildAndScrubWorkExtentByExtent_5 : ∃ (s : State) (v e x : Nat) (rs : List (Nat × Nat × List Byte)), s.hrn.holder = true ∧
    s.reb.suspect.contains (v, e) = true ∧ x < s.stripes :=
  ⟨{ ((wUp.setFld Reg.LAY_GEOM_K 4).setFld Reg.LAY_GEOM_N 8) with hrn.holder := true, reb.suspect := [(0, 0)] }, 0, 0, 0, [], by decide⟩

theorem witness_RebuildAndScrubWorkExtentByExtent_6 : ∃ (s : State) (v e x : Nat) (rs : List (Nat × Nat × List Byte)),
    s.reb.suspect.contains (v, e) = false :=
  ⟨wUp, 0, 0, 0, [], by decide⟩

theorem witness_RebuildAndScrubWorkExtentByExtent_7 : ∃ (s u : State) (id : Nat) (c : Started), s.Accepts id 0x0603 [(5, 35)] (fun _ =>
    true) (fun d => d.par 0 1 ≠ 1) c u ∧ c.desc.par 0 1 = 0 ∧ c.desc.par 1 1 ≤ 1 ∧ c.desc.par 4 1 ≤ 1 ∧ (c.desc.par 4 1 = 1 →
    (u.volume (c.desc.par 2 2)).used = true) :=
  ⟨wIn wUp (wDesc 0x0603 0), _, 1, _, wAcc wUp (wDesc 0x0603 0) 0x0603 rfl rfl rfl, by decide⟩

theorem witness_RebuildAndScrubWorkExtentByExtent_8 : ∃ (s u : State) (id : Nat) (c : Started), s.Accepts id 0x0603 [(5, 35)] (fun _ =>
    true) (fun d => d.par 0 1 = 1) c u :=
  ⟨wIn wUp (wDesc 0x0603 1), _, 1, _, wAcc wUp (wDesc 0x0603 1) 0x0603 rfl rfl rfl⟩

theorem witness_RebuildAndScrubWorkExtentByExtent_9 : ∃ (s : State) (v e x : Nat) (rs : List (Nat × Nat × List Byte)) (p : ScrubPass),
    s.hrn.holder = true ∧ (s.mapEnt v e).alloc = true ∧ x < s.stripes ∧ s.bgSlot = true ∧ s.stripeOpen v (s.lbaOf e x 0 0) = false ∧
    s.reb.scrub = some p ∧ p.left.head? = some (v, e) ∧ s.windowOpen 2 = true :=
  ⟨wScrub, 0, 0, 0, [], ⟨0, none, [(0, 0)], false⟩, by decide⟩

theorem witness_RebuildAndScrubWorkExtentByExtent_10 : ∃ (s : State) (v e x : Nat) (rs : List (Nat × Nat × List Byte)) (ms : List (Nat × Nat
    × Nat × Nat × Nat)), ms = s.lay.repairs.filter (fun q => q.1 = (s.mapEnt v e).row && q.2.1 = (s.mapEnt v e).band && q.2.2.2.1 = x) ∧
    s.hrn.holder = true ∧ (s.mapEnt v e).alloc = true ∧ x < s.stripes ∧ s.bgSlot = true ∧ s.stripeOpen v (s.lbaOf e x 0 0) = false ∧
    (s.reb.scrub = none ∨ s.windowOpen 2 = false) :=
  ⟨{ wScrub with reb.scrub := none }, 0, 0, 0, [], _, rfl, by decide⟩

theorem witness_RebuildAndScrubWorkExtentByExtent_11 : ∃ (s : State) (p : ScrubPass), s.reb.scrub = some p :=
  ⟨{ wUp with reb.scrub := some ⟨0, none, [], false⟩ }, ⟨0, none, [], false⟩, by decide⟩

theorem witness_MembersChangeStateByTheTable_0 : ∃ (s : State) (d : Nat) (m : MState) (k : Nat) (cmd : Option Nat), s.hrn.holder = true ∧
    mayMove (s.member d).st m = true ∧ (s.reb.changes.find? fun c => c.member = d) = none :=
  ⟨{ wMem .active .flush true with hrn.link := true, hrn.peerRole := some .standby }, 0, .failed, 9, none, by decide⟩

theorem witness_MembersChangeStateByTheTable_1 : ∃ (s : State) (d : Nat) (m : MState) (k : Nat) (cmd : Option Nat), s.hrn.holder = false ∨
    mayMove (s.member d).st m = false :=
  ⟨wMem .absent .flush true, 0, .suspect, 9, none, by decide⟩

theorem witness_MembersChangeStateByTheTable_2 : ∃ (s : State) (d : Fin 64) (ch : MChange), s.reb.changes.find? (fun c => c.member = d.val)
    = some ch :=
  ⟨{ wMem .active .flush true with reb.changes := [⟨0, .failed, 9, none⟩] }, 0, ⟨0, .failed, 9, none⟩, by decide⟩

theorem witness_MembersChangeStateByTheTable_3 : ∃ (s u : State) (id fails blocks : Nat) (c : Started), s.Accepts id 0x0600 [(3, 37)] (fun _
    => true) (fun d => d.par 2 1 ≠ 1) c u ∧ c.desc.par 2 1 = 0 ∧ c.desc.par 1 1 ≤ 63 ∧ c.desc.par 0 1 < u.geoN :=
  ⟨wIn (wMem .absent .flush true) (wDesc 0x0600 0), _, 1, 0, 5, _, wAcc (wMem .absent .flush true) (wDesc 0x0600 0) 0x0600 rfl rfl rfl, by decide⟩

theorem witness_MembersChangeStateByTheTable_4 : ∃ (s u : State) (id : Nat) (c : Started), s.Accepts id 0x0600 [(3, 37)] (fun _ => true)
    (fun d => d.par 2 1 = 1) c u ∧ c.desc.par 0 1 < u.geoN ∧ (u.member (c.desc.par 0 1)).st = .suspect ∧
    (u.reb.changes.any fun ch => ch.member = c.desc.par 0 1) = false :=
  ⟨wIn (wMem .suspect .flush true) (wDesc 0x0600 (2 ^ 16)), _, 1, _, wAcc (wMem .suspect .flush true) (wDesc 0x0600 (2 ^ 16)) 0x0600 rfl rfl rfl, by decide, by decide, by decide⟩

theorem witness_MembersChangeStateByTheTable_5 : ∃ (s : State) (id : Nat) (c : Started), s.AcceptsPlain id 0x0601 [(1, 39)] c ∧
    c.desc.par 0 1 < s.geoN ∧ ((s.member (c.desc.par 0 1)).st = .active ∨ (s.member (c.desc.par 0 1)).st = .suspect) ∧
    (s.reb.changes.any fun ch => ch.member = c.desc.par 0 1) = false :=
  ⟨wIn (wMem .active .flush true) (wDesc 0x0601 0), 1, _, wAcc (wMem .active .flush true) (wDesc 0x0601 0) 0x0601 rfl rfl rfl, by decide, by decide, by decide⟩

theorem witness_MembersChangeStateByTheTable_6 : ∃ (s : State) (id : Nat) (c : Started), s.AcceptsPlain id 0x0602 [(1, 39)] c ∧
    c.desc.par 0 1 < s.geoN ∧ (s.member (c.desc.par 0 1)).st = .failed ∧ (s.reb.changes.any fun ch => ch.member = c.desc.par 0 1) = false :=
  ⟨wIn (wMem .failed .flush true) (wDesc 0x0602 0), 1, _, wAcc (wMem .failed .flush true) (wDesc 0x0602 0) 0x0602 rfl rfl rfl, by decide, by decide, by decide⟩

theorem witness_MembersChangeStateByTheTable_7 : ∃ (s : State) (d : Fin 64), (s.member d).st = .draining ∧
    (s.extents.any fun x => (s.row x.2.2.row).subs.any fun u => u.lost = d.val && !s.progressBit x.2.2.row x.2.2.band u.pos) = false ∧
    s.reb.current = none :=
  ⟨wMem .draining .flush true, 0, by decide⟩

theorem witness_MembersChangeStateByTheTable_8 : ∃ (s : State) (r : Fin 4096) (p : Nat) (u : Sub), (s.row r).subAt p = some u ∧
    u.copyback = true ∧ s.hrn.holder = true ∧ (s.extents.any fun e => e.2.2.row = r.val && s.progressBit r e.2.2.band p) = false :=
  ⟨{ wUp with hrn.holder := true, lay.rows := [(0, { members := [0], ranks := [0], subs := [⟨0, 1, 0, 0, true⟩] })] }, 0, 0, ⟨0, 1, 0, 0, true⟩, by decide⟩

theorem witness_MembersChangeStateByTheTable_9 : ∃ (s : State) (ds : List (Nat × Nat × Nat)), s.hrn.claim = .restoring :=
  ⟨{ wUp with hrn.claim := .restoring }, [], by decide⟩

theorem witness_MembersChangeStateByTheTable_10 : ∃ (s : State) (b : Superblock) (ds : List (Nat × Nat × Nat)) (n : Nat), s.hrn.claim =
    .restoring ∧ ((s.restore b ds).reb.members.count fun m => m.st = .active || m.st = .suspect) = n :=
  ⟨{ wUp with hrn.claim := .restoring }, wSb, [], 0, by decide⟩

theorem witness_DrivePortsReportAndEndCommands_0 : ∃ (s u : State) (id : Nat) (c : DrvCmd) (b : List Byte), s.drv.cmds.find? (fun c => c.id
    = id) = some c ∧ u = { s with drv.cmds := s.drv.cmds.filter fun x => x.id ≠ id } :=
  ⟨wMem .active .flush true, _, 3, ⟨3, 0, .flush, true, 0, 0, 0⟩, [], by decide, rfl⟩

theorem witness_DrivePortsReportAndEndCommands_1 : ∃ (s : State) (id : Nat) (c : DrvCmd), s.drv.cmds.find? (fun c => c.id = id) = some c ∧
    c.isRead = false :=
  ⟨wMem .active .flush false, 3, ⟨3, 0, .flush, false, 0, 0, 0⟩, by decide⟩

theorem witness_DrivePortsReportAndEndCommands_2 : ∃ (s : State) (id : Nat) (c : DrvCmd), s.drv.cmds.find? (fun c => c.id = id) = some c :=
  ⟨wMem .active .flush true, 3, ⟨3, 0, .flush, true, 0, 0, 0⟩, by decide⟩

theorem witness_DrivePortsReportAndEndCommands_3 : ∃ (s : State) (id : Nat) (c : DrvCmd), s.drv.cmds.find? (fun c => c.id = id) = some c :=
  ⟨wMem .active .flush false, 3, ⟨3, 0, .flush, false, 0, 0, 0⟩, by decide⟩

theorem witness_DrivePortsReportAndEndCommands_4 : ∃ (s : State) (d : Fin 64) (n : Nat), s.hrn.holder = true :=
  ⟨wMem .active .flush true, 0, 0, by decide⟩

theorem witness_DrivePortsReportAndEndCommands_5 : ∃ (s u : State) (p : Fin 64) (v : Word), (s.flag Reg.DRV_CFG_WIDTH = false ∨
    p.val % 2 = 0 ∨ v.getLsbD 0 = false) ∧ s.pairsWith p v ≤ 8192 ∧ s.storeReg (Reg.DRV_PORT_CFG_EN p).addr v = some u :=
  ⟨wUp, _, 0, 131137, by decide, by decide +kernel, wGet (by decide +kernel)⟩

theorem witness_DrivePortsReportAndEndCommands_6 : ∃ (s : State) (p : Fin 64) (v : Word), 8192 < s.pairsWith p v ∨
    (s.flag Reg.DRV_CFG_WIDTH = true ∧ p.val % 2 = 1 ∧ v.getLsbD 0 = true) :=
  ⟨wUp.setFld Reg.DRV_CFG_WIDTH 1, 1, 1, by decide⟩

theorem witness_DrivePortsReportAndEndCommands_7 : ∃ (s u : State) (p : Fin 64) (rate lanes g : Nat) (h : Option Nat), u =
    (((({ s with drv.holdAt := Assoc.set 0 s.drv.holdAt p.val 0 } : State).setFld (Reg.DRV_PORT_STATUS_LINK_UP p) 1).setFld
    (Reg.DRV_PORT_STATUS_RATE p) rate).setFld (Reg.DRV_PORT_STATUS_LANES p) lanes) ∧ s.flag (Reg.DRV_PORT_CFG_EN p) = true ∧
    rate ≤ s.fld Reg.DRV_CFG_MAX_RATE ∧ 0 < lanes ∧ lanes ≤ (if s.flag Reg.DRV_CFG_WIDTH then 4 else 2) ∧ s.pwr.st ≠ .deep :=
  ⟨wUp.setFld (Reg.DRV_PORT_CFG_EN 0) 1, _, 0, 0, 1, 1, none, rfl, by decide⟩

theorem witness_DrivePortsReportAndEndCommands_8 : ∃ (s : State) (p : Fin 64) (b : Bool), s.flag (Reg.DRV_PORT_STATUS_LINK_UP p) = true :=
  ⟨wUp.setFld (Reg.DRV_PORT_STATUS_LINK_UP 0) 1, 0, true, by decide⟩

theorem witness_DrivePortsReportAndEndCommands_9 : ∃ (s u : State) (p : Fin 64) (d : Nat), Assoc.get 0 s.drv.holdAt p.val ≠ 0 ∧
    u = ({ s with drv.holdAt := Assoc.set 0 s.drv.holdAt p.val 0 } : State).reach (Assoc.get 0 s.drv.holdAt p.val) ∧
    u.memberOn p = some d :=
  ⟨{ wMem .active .flush true with drv.holdAt := [(0, 5)] }, _, 0, 0, by decide, rfl, by decide⟩

theorem witness_DrivePortsReportAndEndCommands_11 : ∃ (s : State) (b : Fin 8) (a x : Nat), s.flag (Reg.SBD_I3C_CFG_EN b) = true :=
  ⟨wUp.setFld (Reg.SBD_I3C_CFG_EN 0) 1, 0, 0, 0, by decide⟩

theorem witness_SlotCommandsAreCheckedInOrder_0 : ∃ (s u : State) (id : Nat) (c : Started), s.Accepts id 0x0300 [(0x0C, 28)] (fun _ => true)
    (fun d => !isLocate d) c u :=
  ⟨wIn (wCh {}) wSlotDesc, _, 1, _, wAcc (wCh {}) wSlotDesc 0x0300 rfl rfl rfl⟩

theorem witness_SlotCommandsAreCheckedInOrder_1 : ∃ (s u : State) (id : Nat) (c : Started), s.Accepts id 0x0300 [] (fun _ => true) isLocate
    c u :=
  ⟨wIn (wCh {}) (wDesc 0x0300 256), _, 1, _, wAcc (wCh {}) (wDesc 0x0300 256) 0x0300 rfl rfl rfl⟩

theorem witness_SlotCommandsAreCheckedInOrder_2 : ∃ (s : State) (id : Nat) (c : Started), s.AcceptsPlain id 0x0301 [(1, 39)] c :=
  ⟨wRing (wCh {}) (wDesc 0x0301 0), 1, _, wRingAcc (wCh {}) (wDesc 0x0301 0) 0x0301 ⟨0x0301, false, true, true⟩ rfl rfl rfl rfl (by decide)⟩

theorem witness_SlotCommandsAreCheckedInOrder_4 : ∃ (s : State) (id : Nat) (c : Started), s.AcceptsPlain id 0x0302 [(2, 38)] c :=
  ⟨wRing (wCh {}) (wDesc 0x0302 0), 1, _, wRingAcc (wCh {}) (wDesc 0x0302 0) 0x0302 ⟨0x0302, false, true, true⟩ rfl rfl rfl rfl (by decide)⟩

theorem witness_SlotCommandsAreCheckedInOrder_5 : ∃ (s : State) (id : Nat) (c : Started), s.AcceptsPlain id 0x0302 [(2, 38)] c ∧
    c.ring ≠ carriedRing ∧ (c.desc.par 0 1) < 64 ∧ s.slotBusy (c.desc.par 0 1) = false ∧ c.desc.par 1 1 < 4 :=
  ⟨wRing (wCh {}) (wDesc 0x0302 0), 1, _, wRingAcc (wCh {}) (wDesc 0x0302 0) 0x0302 ⟨0x0302, false, true, true⟩ rfl rfl rfl rfl (by decide), by decide⟩

theorem witness_SlotCommandsAreCheckedInOrder_6 : ∃ (s : State) (n : Fin 64) (id till : Nat) (b : Bool), (s.chan n).disabling = some
    ⟨id, till, none⟩ :=
  ⟨wCh { disabling := some ⟨1, 5, none⟩ }, 0, 1, 5, true, by decide⟩

theorem witness_SlotCommandsAreCheckedInOrder_7 : ∃ (s : State) (n : Fin 64) (id till t : Nat), (s.chan n).disabling = some
    ⟨id, till, some t⟩ :=
  ⟨wCh { disabling := some ⟨1, 5, some 7⟩ }, 0, 1, 5, 7, by decide⟩

theorem witness_SlotCommandsAreCheckedInOrder_8 : ∃ (s : State) (id : Nat) (c : Started), s.AcceptsPlain id 0x0303 [(1, 39)] c :=
  ⟨wIn (wCh { st := .locked }) (wDesc 0x0303 0), 1, _, wAcc (wCh { st := .locked }) (wDesc 0x0303 0) 0x0303 rfl rfl rfl⟩

theorem witness_ChannelsRampTripCoolAndLock_0 : ∃ (s u : State) (n : Fin 64) (m : Meas), u = s.measure n m ∧ (u.chan n).st = .ramp :=
  ⟨wCh { st := .ramp }, _, 0, ⟨1, 1⟩, rfl, by decide⟩

theorem witness_ChannelsRampTripCoolAndLock_1 : ∃ (s u : State) (n : Fin 64) (m : Meas), u = s.measure n m ∧ (u.chan n).st = .ramp ∧
    (u.chan n).pg = false ∧ (u.chan n).armed = true ∧ (u.chan n).faultAt = none :=
  ⟨wCh { st := .ramp, armed := true }, _, 0, ⟨1, 1⟩, rfl, by decide, by decide, by decide, by decide⟩

theorem witness_ChannelsRampTripCoolAndLock_2 : ∃ (s u : State) (n : Fin 64) (m : Meas), u = s.measure n m ∧ (u.chan n).st = .on ∧
    (u.chan n).pg = false ∧ (u.chan n).armed = true ∧ (u.chan n).faultAt = none :=
  ⟨wCh { st := .on, armed := true }, _, 0, ⟨1, 1⟩, rfl, by decide, by decide, by decide, by decide⟩

theorem witness_ChannelsRampTripCoolAndLock_3 : ∃ (s u : State) (n : Fin 64) (m : Meas), u = s.measure n m ∧ (u.chan n).st = .on :=
  ⟨wCh { st := .on }, _, 0, ⟨1, 1⟩, rfl, by decide⟩

theorem witness_ChannelsRampTripCoolAndLock_4 : ∃ (s : State) (n : Fin 64), ((s.chan n).st = .ramp ∨ (s.chan n).st = .warn) ∧
    (s.chan n).rampTmo ≠ 0 ∧ (s.chan n).pg = false :=
  ⟨wCh { st := .ramp, rampTmo := 5 }, 0, by decide⟩

theorem witness_ChannelsRampTripCoolAndLock_5 : ∃ (s : State) (n k : Nat), (s.chan n).disabling = none ∧ s.memberOn n = none :=
  ⟨wCh { st := .on }, 0, 2, by decide⟩

theorem witness_ChannelsRampTripCoolAndLock_6 : ∃ (s : State) (n : Fin 64) (t : Nat), (s.chan n).perstAt = some t :=
  ⟨wCh { perstAt := some 5 }, 0, 5, by decide⟩

theorem witness_ChannelsRampTripCoolAndLock_7 : ∃ (s : State) (n : Fin 64), s.hrn.holder = false ∧ (s.chan n).st = .off :=
  ⟨wUp, 0, by decide⟩

theorem witness_ChannelsRampTripCoolAndLock_8 : ∃ (s u : State) (n : Fin 64) (m : Meas), u = s.measure n m ∧ (u.chan n).armed = true ∧
    ((u.chan n).st = .ramp ∨ (u.chan n).st = .on) :=
  ⟨wCh { st := .on, armed := true }, _, 0, ⟨1, 1⟩, rfl, by decide, by decide⟩

theorem witness_ChannelsRampTripCoolAndLock_9 : ∃ (s u : State) (n : Fin 64) (m : Meas) (t : Nat), u = s.measure n m ∧
    (u.chan n).st = .warn ∧ (u.chan n).faultAt = some t :=
  ⟨wCh { st := .warn, faultAt := some 5 }, _, 0, ⟨1, 1⟩, 5, rfl, by decide, by decide⟩

theorem witness_ChannelsRampTripCoolAndLock_10 : ∃ (s u : State) (n : Fin 64) (m : Meas), u = s.measure n m :=
  ⟨wCh { st := .on }, _, 0, ⟨1, 1⟩, rfl⟩

theorem witness_ChannelsRampTripCoolAndLock_11 : ∃ (s u : State) (n : Fin 64), (s.chan n).st = .tripped ∧ u = s.reach (s.chan n).coolAt :=
  ⟨wCh { st := .tripped, coolAt := 5 }, _, 0, by decide, rfl⟩

theorem witness_ChannelsRampTripCoolAndLock_12 : ∃ (s u v : State) (n : Fin 64) (m : Meas), u = s.measure n m ∧
    v = (u.endSlotCmd (u.chan n).clearing .configConflict).updChan n (fun x => { x with cause := 5, short := true, clearing := none }) ∧
    (u.chan n).st.powered = false :=
  ⟨wCh {}, _, _, 0, ⟨101, 1⟩, rfl, rfl, by decide⟩

theorem witness_ChannelsRampTripCoolAndLock_13 : ∃ (s : State) (n : Fin 64), (s.chan n).st = .on :=
  ⟨wCh { st := .on }, 0, by decide⟩

theorem witness_ChannelsRampTripCoolAndLock_14 : ∃ (s : State) (n : Fin 64), (s.chan n).present = false :=
  ⟨wCh {}, 0, by decide⟩

theorem witness_ChannelsRampTripCoolAndLock_15 : ∃ (s u : State) (n : Fin 64), (s.chan n).present = true ∧
    u = (s.updChan n fun x => { x with present := false }).raise Ev.DRV_PRESENT [n, 0] :=
  ⟨wCh { st := .on, present := true }, _, 0, by decide, rfl⟩

theorem witness_HarnessTrainsDegradesAndReplays_0 : ∃ (s : State) (v : Word), s.flag Reg.HRN_CFG_EN = false ∧
    getBits (storedWord Reg.HRN_CFG_EN.addr (s.rg Reg.HRN_CFG_EN.addr) v) 0 0 = 1 ∧ s.hrn.role = .solo ∧ s.hrn.holder = false :=
  ⟨wUp, 1, by decide⟩

theorem witness_HarnessTrainsDegradesAndReplays_1 : ∃ (s : State) (v : Word), s.flag Reg.HRN_CFG_EN = true :=
  ⟨wUp.setFld Reg.HRN_CFG_EN 1, 0, by decide⟩

theorem witness_HarnessTrainsDegradesAndReplays_2 : ∃ (s u : State) (p : PeerHello), s.flag Reg.HRN_CFG_EN = true ∧ s.hrn.link = false ∧
    s.hrn.barred = false ∧ s.hrn.silent = false ∧ s.pwr.st ≠ .deep ∧
    u = { s with hrn.lanes := 2, hrn.badLanes := [], hrn.barred := true } :=
  ⟨wUp.setFld Reg.HRN_CFG_EN 1, _, wHello, by decide, rfl, rfl, rfl, by decide, rfl⟩

theorem witness_HarnessTrainsDegradesAndReplays_3 : ∃ (s u : State) (l : Fin 16), s.hrn.lanes ≠ 0 ∧ s.hrn.badLanes.contains l.val = false ∧
    u = { s with hrn.badLanes := l.val :: s.hrn.badLanes } :=
  ⟨wPair2 .active, _, 3, by decide, by decide, rfl⟩

theorem witness_HarnessTrainsDegradesAndReplays_4 : ∃ (s : State) (l : Fin 16), s.hrn.lanes = 0 ∨ s.hrn.badLanes.contains l.val = true :=
  ⟨wUp, 3, .inl rfl⟩

theorem witness_HarnessTrainsDegradesAndReplays_5 : ∃ (s u : State), s.hrn.lanes ≠ 0 ∧
    u = ({ s with hrn.link := false, hrn.linkKey := [], hrn.lanes := 0, hrn.barred := false, htx := {} } : State).raise Ev.HRN_LINK [0, 0]
    :=
  ⟨wPair2 .active, _, by decide, rfl⟩

theorem witness_HarnessTrainsDegradesAndReplays_6 : ∃ (s : State), s.hrn.link = true :=
  ⟨wPair2 .active, by decide⟩

theorem witness_HarnessTrainsDegradesAndReplays_7 : ∃ (s : State) (k v o : Nat), s.hrn.link = true :=
  ⟨wPair2 .active, 0, 0, 0, by decide⟩

theorem witness_HarnessTrainsDegradesAndReplays_8 : ∃ (s u v : State) (b : Heartbeat), s.hrn.link = true ∧ s.hrn.role ≠ .fenced ∧
    u = s.gotFlit.discipline (b.time * 65536 + b.frac) ∧
    v = ({ u with hrn.lastHb := u.now, hrn.peerRole := some b.role, hrn.peerHolder := b.holder, hrn.peerFault := b.selfFault, hrn.peerDrain := b.drain, hrn.peerEpoch := b.epoch, hrn.ordHead := b.ordHead, tim.peerFloor := b.floor }
    : State) :=
  ⟨wPair2 .active, _, _, wBeat, by decide, by decide, rfl, rfl⟩

theorem witness_HarnessTrainsDegradesAndReplays_9 : ∃ (s u : State), (s.slot 504).armed = true ∧ u = s.fire 504 :=
  ⟨wPair2 .active |>.setSlot 504 { owner := 1, armed := true, compare := 0, period := 20000 }, _, by decide, rfl⟩

theorem witness_FollowerTakesInTheOrderStream_0 : ∃ (s : State) (i q k : Nat), s.hrn.link = true ∧ s.hrn.role ≠ .fenced :=
  ⟨wPair2 .active, 0, 0, 0, by decide⟩

theorem witness_FollowerTakesInTheOrderStream_1 : ∃ (s u : State) (es : List OrderEntry), s.hrn.link = true ∧ s.hrn.role ≠ .fenced ∧
    u = s.gotFlit.takeEntries es :=
  ⟨wPair2 .standby, _, [], by decide, by decide, rfl⟩

theorem witness_FollowerTakesInTheOrderStream_2 : ∃ (s : State) (e : OrderEntry) (es : List OrderEntry), s.hrn.role = .standby :=
  ⟨wPair2 .standby, ⟨0, 0, 0, .state 0⟩, [], by decide⟩

theorem witness_FollowerTakesInTheOrderStream_3 : ∃ (s : State) (bs rs : List Nat), s.hrn.link = true ∧ s.hrn.role ≠ .fenced :=
  ⟨wPair2 .active, [], [], by decide⟩

theorem witness_FollowerTakesInTheOrderStream_4 : ∃ (s u : State) (k n q v e x off nb m : Nat) (p : List Nat), s.hrn.link = true ∧
    s.hrn.role ≠ .fenced ∧ s.gotFlit.follows = true ∧
    u = { s.gotFlit with sbg.stripes := s.gotFlit.sbg.stripes.filter (fun j => j.slot ≠ n), lay.buffer := s.gotFlit.lay.buffer.filter fun b => b.stripe ≠ some n }
    :=
  ⟨wPair2 .standby, _, 0, 0, 0, 0, 0, 0, 0, 0, 0, [], by decide, by decide, by decide, rfl⟩

theorem witness_FollowerTakesInTheOrderStream_5 : ∃ (s : State) (rs : List (Nat × Nat)), s.hrn.link = true ∧ s.hrn.role ≠ .fenced ∧
    s.gotFlit.follows = true :=
  ⟨wPair2 .standby, [], by decide⟩

theorem witness_FollowerTakesInTheOrderStream_6 : ∃ (s : State) (p : StatePart), s.hrn.link = true ∧ s.hrn.role = .joining ∧
    s.gotFlit.hrn.role = .joining :=
  ⟨wPair2 .joining, .percent 5, by decide⟩

theorem witness_FollowerTakesInTheOrderStream_7 : ∃ (s : State) (m : ControlMsg), s.hrn.link = true ∧ s.hrn.role ≠ .fenced :=
  ⟨wPair2 .standby, .left, by decide⟩

theorem witness_FollowerTakesInTheOrderStream_8 : ∃ (s : State) (d : Descriptor) (env : Option Envelope) (n : Nat), s.follows = true :=
  ⟨wPair2 .standby, wDesc 0 0, none, 5, by decide⟩

theorem witness_FollowerTakesInTheOrderStream_9 : ∃ (s : State), s.hrn.role = .joining :=
  ⟨wPair2 .joining, by decide⟩

theorem witness_SilenceArbitrationAndClaimsDecideTheHolder_0 : ∃ (s u v : State) (d : Nat), s.hrn.silent = false ∧ (s.hrn.role = .active ∧
    d = 0 ∨ s.hrn.role = .standby ∧ d = 1) ∧ u = (((s.reach (min s.hrn.lastHb s.hrn.lastAck + s.fld Reg.HRN_SILENCE_SILENCE * 1000)).raise
    Ev.HRN_SILENCE).endCmd (s.hrn.swap.bind SwapRun.id) .busy).endCmd s.hrn.upgrade .busy ∧
    v = ({ u with hrn.silent := true, hrn.swap := none, hrn.upgrade := none, hrn.check := none, hrn.round := none, hrn.link := false, hrn.linkKey := [], htx := {} }
    : State) :=
  ⟨wPair2 .active, _, _, 0, by decide, .inl ⟨rfl, rfl⟩, rfl, rfl⟩

theorem witness_SilenceArbitrationAndClaimsDecideTheHolder_1 : ∃ (s : State) (t : Nat), s.hrn.arbAt = some t :=
  ⟨{ wPair2 .active with hrn.arbAt := some 5 }, 5, by decide⟩

theorem witness_SilenceArbitrationAndClaimsDecideTheHolder_2 : ∃ (s : State) (t : Nat), s.hrn.retryAt = some t :=
  ⟨{ wUp with hrn.retryAt := some 5 }, 5, by decide⟩

theorem witness_SilenceArbitrationAndClaimsDecideTheHolder_3 : ∃ (s : State) (m : Fin 64) (r : CinchResult) (k : Round) (t : Take),
    s.hrn.claim = .none ∧ s.hrn.round = some k ∧ (k.takes.find? fun t => t.member = m.val && !t.st.ended) = some t :=
  ⟨{ wUp with hrn.round := some ⟨.arbiters, 3, [{ member := 0 }]⟩ }, 0, .registered, ⟨.arbiters, 3, [{ member := 0 }]⟩, { member := 0 }, by decide⟩

theorem witness_SilenceArbitrationAndClaimsDecideTheHolder_5 : ∃ (s : State) (m : Fin 64) (t : Take) (r : CinchResult), s.hrn.claim = .none
    ∧ s.hrn.round = none ∧ s.hrn.retakes.find? (fun t => t.member = m.val) = some t :=
  ⟨{ wUp with hrn.retakes := [{ member := 0 }] }, 0, { member := 0 }, .registered, by decide⟩

theorem witness_SilenceArbitrationAndClaimsDecideTheHolder_6 : ∃ (s : State) (m : Fin 64) (k : Round) (t : Take), s.hrn.round = some k ∧
    k.kind = .arbiters ∧ (k.takes.find? fun t => t.member = m.val && !t.st.ended) = some t :=
  ⟨{ wUp with hrn.round := some ⟨.arbiters, 3, [{ member := 0 }]⟩ }, 0, ⟨.arbiters, 3, [{ member := 0 }]⟩, { member := 0 }, by decide⟩

theorem witness_SilenceArbitrationAndClaimsDecideTheHolder_7 : ∃ (s : State) (k : Round) (won lost : Nat), s.hrn.round = some k ∧
    k.kind = .arbiters ∧ won = (k.count fun t => t = .taken) ∧ lost = (k.count fun t => t = .lost) :=
  ⟨{ wUp with hrn.round := some ⟨.arbiters, 3, []⟩ }, ⟨.arbiters, 3, []⟩, _, _, rfl, rfl, rfl, rfl⟩

theorem witness_SilenceArbitrationAndClaimsDecideTheHolder_8 : ∃ (s u : State) (k : Round), s.hrn.round = some k ∧ k.kind ≠ .arbiters ∧
    k.takes.all (fun t => t.st = .taken || t.st = .failed) = true ∧
    u = ({ s with hrn.holder := true, hrn.round := none, hrn.silent := false, hrn.retryAt := none } : State).setFld Reg.HRN_EPOCH_EPOCH
    k.epoch :=
  ⟨{ wUp with hrn.round := some ⟨.startup, 3, []⟩ }, _, ⟨.startup, 3, []⟩, rfl, by decide, rfl, rfl⟩

theorem witness_SilenceArbitrationAndClaimsDecideTheHolder_9 : ∃ (s : State) (m : Fin 64), s.hrn.role ≠ .fenced :=
  ⟨wPair2 .active, 0, by decide⟩

theorem witness_SilenceArbitrationAndClaimsDecideTheHolder_10 : ∃ (s : State) (l : List Nat) (t : Nat) (b : Bool), s.hrn.claim = .reading l
    t b :=
  ⟨{ wUp with hrn.claim := .reading [] 5 false }, [], 5, false, by decide⟩

theorem witness_SilenceArbitrationAndClaimsDecideTheHolder_11 : ∃ (s : State), s.hrn.claim = .waitLink :=
  ⟨{ wUp with hrn.claim := .waitLink }, by decide⟩

theorem witness_SilenceArbitrationAndClaimsDecideTheHolder_12 : ∃ (s : State) (w : Nat), s.digWindow = some w ∧ s.hrn.role = .standby :=
  ⟨{ wPair2 .standby with hrn.own := [⟨0, 0, 0, none⟩] }, 0, by decide⟩

theorem witness_SilenceArbitrationAndClaimsDecideTheHolder_13 : ∃ (s u : State) (again made : Nat) (k : SelfCheck), s.hrn.check = some k ∧
    k.own = none :=
  ⟨{ wPair2 .standby with hrn.check := some { since := 0, conn := 0, oseq := 0 } }, State.reset, 0, 0, { since := 0, conn := 0, oseq := 0 }, by decide⟩

theorem witness_SilenceArbitrationAndClaimsDecideTheHolder_14 : ∃ (s u : State) (w c o : Nat) (own : Option Nat) (peer : Bool), s.hrn.check
    = some { since := w, conn := c, oseq := o, own := some own, peer := some peer } ∧
    u = ({ s with hrn.check := none } : State).raiseIf (own.isSome && peer) Ev.HRN_BOTH_FAULT :=
  ⟨{ wPair2 .standby with hrn.check := some { since := 0, conn := 0, oseq := 0, own := some none, peer := some false } }, _, 0, 0, 0, none, false, rfl, rfl⟩

theorem witness_PairCommandsJoinSwapAndLeave_0 : ∃ (s : State) (id : Nat) (c : Started), s.AcceptsPlain id 0x0400 [(0, 40)] c :=
  ⟨wIn (wPair2 .solo) (wDesc 0x0400 0), 1, _, wAcc (wPair2 .solo) (wDesc 0x0400 0) 0x0400 rfl rfl rfl⟩

theorem witness_PairCommandsJoinSwapAndLeave_1 : ∃ (s u v : State) (j : Join), s.hrn.join = some j ∧ s.mayJoin = true ∧
    (s.htx.queue.any fun m => m.kind = .state) = false ∧ u = s.sendTwin (.controlMsg .cutover) ∧
    v = (({ u with hrn.join := none, hrn.ordAck := u.hrn.oseq, hrn.lastHb := u.now, hrn.lastAck := u.now, hrn.peerRole := some .standby } :
    State).setRole .active 0) :=
  ⟨{ wPair2 .solo with hrn.peerRole := some .joining, hrn.join := some { id := none } }, _, _, { id := none }, by decide, by decide, by decide, rfl, rfl⟩

theorem witness_PairCommandsJoinSwapAndLeave_2 : ∃ (s : State) (id : Nat) (c : Started), s.AcceptsPlain id 0x0401 [(0, 40)] c :=
  ⟨wIn (wPair2 .active) (wDesc 0x0401 0), 1, _, wAcc (wPair2 .active) (wDesc 0x0401 0) 0x0401 rfl rfl rfl⟩

theorem witness_PairCommandsJoinSwapAndLeave_3 : ∃ (s : State) (w : SwapRun), s.hrn.swap = some w ∧ s.hrn.role = .active ∧
    w.quiesced = false ∧ s.drv.cmds.all DrvCmd.isRead = true :=
  ⟨{ wPair2 .active with hrn.swap := some { id := none } }, { id := none }, by decide⟩

theorem witness_PairCommandsJoinSwapAndLeave_4 : ∃ (s : State) (w : SwapRun), s.hrn.swap = some w ∧ s.hrn.role = .active ∧ w.taken = true ∧
    s.hrn.upgrade = none :=
  ⟨{ wPair2 .active with hrn.swap := some { id := none, taken := true } }, { id := none, taken := true }, by decide⟩

theorem witness_PairCommandsJoinSwapAndLeave_5 : ∃ (s : State) (id : Nat) (c : Started), s.AcceptsPlain id 0x0402 [(0, 40)] c ∧
    s.hasPeer = false :=
  ⟨wIn wUp (wDesc 0x0402 0), 1, _, wAcc wUp (wDesc 0x0402 0) 0x0402 rfl rfl rfl, by decide⟩

theorem witness_PairCommandsJoinSwapAndLeave_6 : ∃ (s u : State) (id : Nat) (c : Started), s.AcceptsPlain id 0x0402 [(0, 40)] c ∧
    s.hasPeer = true ∧ u = (((s.hold c.id).dropJoin 6).sendTwin (.controlMsg .leave)).endCmd ((((s.hold c.id).dropJoin 6).sendTwin
    (.controlMsg .leave)).hrn.swap.bind SwapRun.id) .configConflict :=
  ⟨wIn { wPair2 .active with hrn.peerRole := some .standby } (wDesc 0x0402 0), _, 1, _, wAcc _ (wDesc 0x0402 0) 0x0402 rfl rfl rfl, by decide, rfl⟩

theorem witness_PairCommandsJoinSwapAndLeave_7 : ∃ (s u : State) (id : Nat) (c : Started) (ns : List Nat), s.AcceptsPlain id 0x0403 [(4,
    36)] c ∧ c.desc.par 1 1 < 8 ∧ (c.desc.par 0 1 = 0 ∧ u = { s with hrn.tandemDefault := (c.desc.par 1 1).testBit 0 } ∨
    c.desc.par 0 1 = 1 ∧ c.desc.par 2 2 < 1024 ∧ u =
    { s with hrn.tandemTenant := Assoc.set 0 s.hrn.tandemTenant (c.desc.par 2 2) (if (c.desc.par 1 1).testBit 2 then 0 else if (c.desc.par 1 1).testBit 0 then 1 else 2) }) ∧
    ((c.desc.par 1 1).testBit 1 = true ∧ ns = u.tandemIn (if c.desc.par 0 1 = 0 then none else some (c.desc.par 2 2)) ∨
    (c.desc.par 1 1).testBit 1 = false ∧ ns = []) :=
  ⟨wIn wUp (wDesc 0x0403 0), _, 1, _, _, wAcc wUp (wDesc 0x0403 0) 0x0403 rfl rfl rfl, by decide, .inl ⟨rfl, rfl⟩, .inr ⟨rfl, rfl⟩⟩

theorem witness_PairCommandsJoinSwapAndLeave_8 : ∃ (s : State) (id : Nat) (c : Started), s.AcceptsPlain id 0x0403 [(4, 36)] c ∧
    (2 ≤ c.desc.par 0 1 ∨ 8 ≤ c.desc.par 1 1 ∨ c.desc.par 0 1 = 1 ∧ 1024 ≤ c.desc.par 2 2) :=
  ⟨wIn wUp (wDesc 0x0403 2), 1, _, wAcc wUp (wDesc 0x0403 2) 0x0403 rfl rfl rfl, by decide⟩

theorem witness_TransportStartsSendsQueueAndHostsAreGranted_0 : ∃ (s : State) (v : Word) (k : Nat), s.flag Reg.XPT_CFG_EN = false ∧
    getBits v 0 0 = 1 ∧ s.findSlot = some k ∧ fieldsInRange Reg.XPT_CFG_EN.addr v = true ∧ s.acceptsHolder true = true :=
  ⟨{ wUp with hrn.holder := true, hrn.link := false }, 0x101, 0, by decide +kernel⟩

theorem witness_TransportStartsSendsQueueAndHostsAreGranted_1 : ∃ (s : State) (v : Word), s.flag Reg.XPT_CFG_EN = true ∨ getBits v 0 0 = 0 ∨
    s.findSlot = none ∨ fieldsInRange Reg.XPT_CFG_EN.addr v = false ∨ s.acceptsHolder true = false :=
  ⟨{ wUp with tim.slots := (List.range 504).map fun i => (i, { owner := 1 }) }, 1, .inr (.inr (.inl (by decide +kernel)))⟩

theorem witness_TransportStartsSendsQueueAndHostsAreGranted_2 : ∃ (s : State) (src : SendFrom) (sub conn : Nat) (c : Call), s.nextCall 5 =
    some c ∧ c.tier1 = false :=
  ⟨wEng 5 [], .cells [], 0, 0, wEngC 5 [], by decide +kernel⟩

theorem witness_TransportStartsSendsQueueAndHostsAreGranted_3 : ∃ (s : State) (src : SendFrom) (sub conn len n : Nat) (c : Call), s.nextCall
    5 = some c ∧ c.tier1 = false ∧ s.sendLen c src = some (len, n) ∧ sub < 32 ∧ conn < 65536 ∧ n ≠ 0 ∧ s.canTrack true conn = true ∧
    s.mayGo (s.sendFrame sub conn len n) = true :=
  ⟨{ wEng 5 [] with swc.cells := [(1, [0])] }, .cells [1], 0, 0, 1, 1, wEngC 5 [], by decide +kernel⟩

theorem witness_TransportStartsSendsQueueAndHostsAreGranted_4 : ∃ (s u w : State) (id : Nat) (c : Started) (p : List Byte) (h : Nat) (x :
    HostEnt), s.Accepts id 0x0205 [(0, 40)] (· = 2368) (fun _ => true) c u ∧ p = c.payload ∧ h = leAt p 0 2 ∧ h < 4096 ∧ leAt p 2 2 < 4096 ∧
    leAt p 4 2 < 1024 ∧ leAt p 6 1 < 8 ∧ leAt p 7 1 = 0 ∧ leAt p 0x1C 4 = 0 ∧ ((leAt p 6 1).testBit 2 = true ∧ x = {} ∨
    (leAt p 6 1).testBit 2 = false ∧ x = { used := true, pd := leAt p 2 2, tenant := leAt p 4 2, plaintextOk := (leAt p 6 1).testBit 0, hostId := (p.drop 8).take 16, rsaE := leAt p 0x18 4, rsaN := (p.drop 0x20).take 384, mldsa := (p.drop 0x1A0).take 1952 }) ∧
    w = ({ u with xpt.hosts := Assoc.set {} u.xpt.hosts h x } : State).persist (.host h) :=
  ⟨_, _, _, 1, _, _, _, _, wAccP wUp (wDesc 0x0205 0) (leBytes 8 5) 0x0205 rfl rfl rfl, rfl, rfl, by decide, by decide, by decide, by decide, by decide, by decide, .inr ⟨by decide, rfl⟩, rfl⟩

theorem witness_TransportStartsSendsQueueAndHostsAreGranted_5 : ∃ (s u : State) (id : Nat) (c : Started) (p : List Byte) (pd n : Nat),
    s.Accepts id 0x0206 [(0, 40)] (· = 24) (fun _ => true) c u ∧ p = c.payload ∧ pd = leAt p 0 2 ∧ n = leAt p 4 4 ∧ pd < 4096 ∧
    1 ≤ leAt p 2 1 ∧ leAt p 2 1 ≤ 3 ∧ leAt p 3 1 = 0 ∧ leAt p 0x10 8 = 0 ∧ u.nsExists n = true ∧
    (u.xpt.grants.filter fun g => g.pd = pd).length < 1024 ∧ u.xpt.grants.length < 65536 :=
  ⟨_, _, 1, _, _, _, _, wAccP (wNs [(1, { used := true })]) (wDesc 0x0206 0) (leBytes 2 7 ++ [3, 0] ++ leBytes 4 1 ++ leBytes 16 0) 0x0206 rfl rfl rfl, rfl, rfl, rfl, by decide, by decide, by decide, by decide, by decide, by decide, by decide, by decide⟩

theorem witness_TransportStartsSendsQueueAndHostsAreGranted_6 : ∃ (s u : State) (id : Nat) (c : Started) (p : List Byte) (pd n : Nat),
    s.Accepts id 0x0206 [(0, 40)] (· = 24) (fun _ => true) c u ∧ p = c.payload ∧ pd = leAt p 0 2 ∧ n = leAt p 4 4 :=
  ⟨_, _, 1, _, _, _, _, wAccP (wNs [(1, { used := true })]) (wDesc 0x0206 0) (leBytes 2 7 ++ [3, 0] ++ leBytes 4 1 ++ leBytes 16 0) 0x0206 rfl rfl rfl, rfl, rfl, rfl⟩

theorem witness_TransportStartsSendsQueueAndHostsAreGranted_7 : ∃ (s u v : State) (id : Nat) (c : Started) (pd n : Nat) (g : Grant),
    s.Accepts id 0x0207 [(0, 40)] (· = 8) (fun _ => true) c u ∧ pd = leAt c.payload 0 2 ∧ n = leAt c.payload 4 4 ∧ leAt c.payload 2 2 = 0 ∧
    u.grantOf pd n = some g ∧ v = { u with xpt.grants := u.xpt.grants.filter fun g => !(g.pd = pd && g.nsid = n) } :=
  ⟨_, _, _, 1, _, 7, 1, _, wAccP { wUp with xpt.grants := [⟨7, 1, true, false, 0⟩] } (wDesc 0x0207 0) (leBytes 4 7 ++ leBytes 4 1) 0x0207 rfl rfl rfl, by decide, by decide, by decide, rfl, rfl⟩

theorem witness_DataKeysLiveFromImportToDestruction_0 : ∃ (s u : State) (id : Nat) (c : Started) (sk k : List Byte) (sr : Option (List
    Byte)), s.Accepts id 0x0500 [(0, 40)] (· = 1544) (fun _ => true) c u :=
  ⟨_, _, 1, _, [], [], none, wAccP wUp (wDesc 0x0500 0) (leBytes 8 3) 0x0500 rfl rfl rfl⟩

theorem witness_DataKeysLiveFromImportToDestruction_1 : ∃ (s u : State) (id : Nat) (c : Started) (n key : Nat), s.Accepts id 0x0501 [(0,
    40)] (· = 16) (fun _ => true) c u ∧ n = leAt c.payload 0 4 ∧ key = leAt c.payload 4 4 ∧ leAt c.payload 8 1 ≤ 1 ∧
    zeroAt c.payload 9 7 = true ∧ u.nsExists n = true ∧ u.keyFree key = true :=
  ⟨_, _, 1, _, _, _, wAccP (wNs [(1, { used := true, gens := [(1, 5)] })]) (wDesc 0x0501 0) (leBytes 4 1 ++ leBytes 4 (2 ^ 28) ++ leBytes 8 0) 0x0501 rfl rfl rfl, rfl, rfl, by decide, by decide, by decide, by decide⟩

theorem witness_DataKeysLiveFromImportToDestruction_2 : ∃ (s u : State) (n start e : Nat) (done : List Nat) (rs : List (Nat × List Byte)),
    (s.ns n).reseal = some (start, done) ∧ s.hrn.holder = true ∧ s.windowOpen 2 = true ∧ s.bgSlot = true ∧ s.cph.saved = true ∧
    (s.mapEnt (s.ns n).volume e).alloc = true ∧ done.contains e = false ∧ s.resealRoom = true ∧
    u = ((rs.filter fun r => r.1 / 4096 = e) ++ s.oldBuffered n start e).foldl (fun s r => s.resealBlock n start r) s :=
  ⟨{ wNs [(1, { used := true, reseal := some (2, []) })] with hrn.holder := true, cph.saved := true, lay.volumes := [(0, { used := true, extents := 1, map := [(0, { alloc := true })] })] }, _, 1, 2, 0, [], [], by decide +kernel, rfl, by decide +kernel, by decide +kernel, rfl, by decide +kernel, rfl, by decide +kernel, rfl⟩

theorem witness_DataKeysLiveFromImportToDestruction_3 : ∃ (s : State) (n start : Nat) (done : List Nat), (s.ns n).reseal = some (start,
    done) ∧ s.hrn.holder = true ∧ (∀ e ∈ (s.volume (s.ns n).volume).map, e.2.alloc = true → e.1 ∈ done) ∧ s.keyInUse n = false :=
  ⟨{ wNs [(1, { used := true, gens := [(1, 0), (2, 1)], reseal := some (2, [0]) })] with hrn.holder := true }, 1, 2, [0], by decide +kernel⟩

theorem witness_DataKeysLiveFromImportToDestruction_4 : ∃ (s : State) (n e : Nat) (rs : List (Nat × List Byte)), (s.ns n).reseal = none :=
  ⟨wUp, 1, 0, [], by decide⟩

theorem witness_DataKeysLiveFromImportToDestruction_5 : ∃ (s u : State) (id i : Nat) (c : Started), s.Accepts id 0x0502 [(0, 40)] (· = 8)
    (fun _ => true) c u ∧ keySlot (leAt c.payload 0 4) = some i ∧ leAt c.payload 4 4 = 0 ∧ (u.dataKey i).used = true :=
  ⟨_, _, 1, 0, _, wAccP (wNs []) (wDesc 0x0502 0) (leBytes 8 (2 ^ 28)) 0x0502 rfl rfl rfl, by decide, by decide, by decide⟩

theorem witness_DataKeysLiveFromImportToDestruction_6 : ∃ (s u : State) (id : Nat) (c : Started), s.Accepts id 0x0502 [(0, 40)] (· = 8) (fun
    _ => true) c u :=
  ⟨_, _, 1, _, wAccP (wNs []) (wDesc 0x0502 0) (leBytes 8 (2 ^ 28)) 0x0502 rfl rfl rfl⟩

theorem witness_DataKeysLiveFromImportToDestruction_7 : ∃ (s : State) (i n g : Nat), (s.dataKey i).bound = some (n, g) :=
  ⟨{ wNs [(1, { gens := [(1, 0), (2, 1)] })] with cph.keys := [(0, { used := true, bound := some (1, 1) })] }, 0, 1, 1, by decide⟩

theorem witness_AdministratorsLocksAndTheFloorAreRecorded_0 : ∃ (s u : State) (id k : Nat) (c : Started) (p : List Byte), s.Accepts id
    0x0503 [(0, 40)] (· = 400) (fun _ => true) c u ∧ p = c.payload ∧ k = leAt p 0 1 ∧ k < 16 ∧ leAt p 1 1 ≤ 1 ∧ zeroAt p 2 6 = true ∧
    zeroAt p 12 4 = true :=
  ⟨_, _, 1, _, _, _, wAccP wUp (wDesc 0x0503 0) (leBytes 8 3 ++ leBytes 8 65537) 0x0503 rfl rfl rfl, rfl, rfl, by decide, by decide, by decide, by decide⟩

theorem witness_AdministratorsLocksAndTheFloorAreRecorded_1 : ∃ (s u : State) (id k : Nat) (c : Started), s.Accepts id 0x0504 [(0, 40)] (· =
    8) (fun _ => true) c u ∧ k = leAt c.payload 0 1 ∧ k < 16 ∧ zeroAt c.payload 1 7 = true :=
  ⟨_, _, 1, _, _, wAccP { wUp with sec.admins := 3 } (wDesc 0x0504 0) (leBytes 8 1) 0x0504 rfl rfl rfl, rfl, by decide, by decide⟩

theorem witness_AdministratorsLocksAndTheFloorAreRecorded_2 : ∃ (s u : State) (id n : Nat) (c : Started) (p : List Byte) (l : RetLock),
    s.Accepts id 0x0208 [(0, 40)] (· = 32) (fun _ => true) c u ∧ p = c.payload ∧ n = leAt p 0 4 ∧
    l = { id := u.sec.nextLock, nsid := n, slba := leAt p 8 8, nlb := leAt p 16 8, release := leAt p 24 8 } :=
  ⟨_, _, 1, _, _, _, _, wAccP (wNs [(1, { used := true, nsze := 4096 })]) (wDesc 0x0208 0) (leBytes 8 1 ++ leBytes 8 10 ++ leBytes 8 20 ++ leBytes 8 1000) 0x0208 rfl rfl rfl, rfl, rfl, rfl⟩

theorem witness_AdministratorsLocksAndTheFloorAreRecorded_3 : ∃ (s : State) (l : RetLock) (lba : Nat), l.expired = false ∧ l.slba ≤ lba ∧
    lba < l.slba + l.nlb ∧ s.lockLive l = true :=
  ⟨wUp, { id := 0, nsid := 1, slba := 0, nlb := 4, release := 10 }, 2, by decide⟩

theorem witness_AdministratorsLocksAndTheFloorAreRecorded_5 : ∃ (s u : State), (s.slot 506).armed = true :=
  ⟨State.reset, State.reset, by decide⟩

theorem witness_AdministratorsLocksAndTheFloorAreRecorded_6 : ∃ (s u : State), (s.slot 505).armed = true ∧
    u = s.fireWith 505 (s.fld Reg.TIM_FLOOR_SAVE_FLOOR_SAVE * 1000000000) :=
  ⟨{ State.reset with tim.slots := Assoc.set {} State.reset.tim.slots 505 { owner := 6, armed := true, period := 5 } }, _, by decide, rfl⟩

theorem witness_AdministratorsLocksAndTheFloorAreRecorded_7 : ∃ (s : State), (s.slot 505).armed = false :=
  ⟨{ State.reset with tim.slots := [] }, by decide⟩

theorem witness_ImagesExtensionsAndFusesAreChecked_0 : ∃ (s : State) (id : Nat) (c : Started) (u : State) (l : FwLoad), s.Accepts id 0x0900
    [(12, 28)] (· = 32) (fun _ => true) c u :=
  ⟨_, 1, _, _, {}, wAccP wUp (wDesc 0x0900 0) [] 0x0900 rfl rfl rfl⟩

theorem witness_ImagesExtensionsAndFusesAreChecked_1 : ∃ (s : State) (id : Nat) (c : Started) (u : State) (pv : Option (List Byte)) (l :
    FwLoad), s.Accepts id 0x0901 [(0, 40)] (· = 32) (fun _ => true) c u ∧ u.slotOf (!u.sec.bootB) = some l :=
  ⟨_, 1, _, _, none, {}, wAccP { wUp with sec.slotB := some {} } (wDesc 0x0901 0) [] 0x0901 rfl rfl rfl, by decide +kernel⟩

theorem witness_ImagesExtensionsAndFusesAreChecked_2 : ∃ (s : State) (id : Nat) (c : Started) (u : State) (pv : Option (List Byte)),
    s.Accepts id 0x0901 [(0, 40)] (· = 32) (fun _ => true) c u ∧ u.slotOf (!u.sec.bootB) = none :=
  ⟨_, 1, _, _, none, wAccP wUp (wDesc 0x0901 0) [] 0x0901 rfl rfl rfl, by decide +kernel⟩

theorem witness_ImagesExtensionsAndFusesAreChecked_3 : ∃ (s : State), s.pendingSvn ≠ 0 ∧ s.clk.bootDone = true ∧ s.activating = false ∧
    s.sec.stopped = false :=
  ⟨{ wUp with sec.run := { svn := 2 } }, by decide⟩

theorem witness_ImagesExtensionsAndFusesAreChecked_4 : ∃ (s : State), s.pendingSvn = 0 :=
  ⟨wUp, by decide⟩

theorem witness_ImagesExtensionsAndFusesAreChecked_5 : ∃ (s : State) (id k : Nat) (c : Started) (u : State) (p : List Byte) (a b : Bool),
    s.Accepts id 0x0505 [(0, 40)] (· = 2352) (fun _ => true) c u ∧ p = c.payload ∧ k = leAt p 0 1 :=
  ⟨_, 1, _, _, _, _, true, true, wAccP wUp (wDesc 0x0505 0) (leBytes 8 2 ++ leBytes 8 65537) 0x0505 rfl rfl rfl, rfl, rfl⟩

theorem witness_ImagesExtensionsAndFusesAreChecked_6 : ∃ (s : State) (id : Nat) (c : Started) (u : State) (x : ExtImage) (k : ExtKey),
    s.Accepts id 0x0902 [(12, 28)] (· = 32) (fun _ => true) c u ∧ c.desc.par 8 4 ≠ 0 ∧ k = Assoc.get {} u.tck.keys x.keySlot :=
  ⟨_, 1, _, _, { total := 3757 }, _, wAccP wUp (wDesc 0x0902 (3757 * 2 ^ 64)) [] 0x0902 rfl rfl rfl, by decide, rfl⟩

theorem witness_ImagesExtensionsAndFusesAreChecked_7 : ∃ (s : State) (id : Nat) (c : Started) (u : State) (x : Option ExtImage), s.Accepts
    id 0x0902 [(12, 28)] (· = 32) (fun _ => true) c u ∧ c.desc.par 8 4 = 0 :=
  ⟨_, 1, _, _, none, wAccP wUp (wDesc 0x0902 0) [] 0x0902 rfl rfl rfl, by decide⟩

theorem witness_ImagesExtensionsAndFusesAreChecked_9 : ∃ (s : State), s.sec.erasing = true ∧ (s.sec.due = none ∨
    s.sec.write.isSome = true) :=
  ⟨{ wUp with sec.erasing := true }, rfl, .inl rfl⟩

theorem witness_ImagesExtensionsAndFusesAreChecked_10 : ∃ (s : State) (ws : List Nat), s.sec.erasing = true ∧ s.sec.due = some ws ∧
    s.sec.write = none :=
  ⟨{ wUp with sec.erasing := true, sec.due := some [] }, [], by decide⟩

theorem witness_SpdmIsAnsweredWhileTheSecurityCoreRuns_0 : ∃ (s : State) (slot offset length index : Nat) (sign : Bool), s.awake = true ∧
    s.clk.bootDone = true ∧ s.sec.stopped = false :=
  ⟨wUp, 0, 0, 0, 0, false, by decide⟩

theorem witness_SpdmIsAnsweredWhileTheSecurityCoreRuns_1 : ∃ (s : State) (slot offset length : Nat) (tr : List Byte), s.awake = true ∧
    s.clk.bootDone = true ∧ s.sec.stopped = false :=
  ⟨wUp, 0, 0, 0, [], by decide⟩

theorem witness_SpdmIsAnsweredWhileTheSecurityCoreRuns_2 : ∃ (s : State) (index slot : Nat) (tr : List Byte) (bs : List (Nat × List Byte)),
    s.awake = true ∧ s.clk.bootDone = true ∧ s.sec.stopped = false ∧ (index = 0 ∧ bs = [] ∨ index = 255 ∧
    bs = ((List.range 8).map fun i => (i + 1, s.measurement (i + 1))) ∨ 1 ≤ index ∧ index ≤ 8 ∧ bs = [(index, s.measurement index)]) :=
  ⟨wUp, 0, 0, [], [], by decide, by decide, by decide, .inl ⟨rfl, rfl⟩⟩

theorem witness_SpdmIsAnsweredWhileTheSecurityCoreRuns_3 : ∃ (s : State) (index : Nat) (sign : Option SpdmSign), s.awake = true ∧
    s.clk.bootDone = true ∧ s.sec.stopped = false ∧ 8 < index ∧ index ≠ 255 :=
  ⟨wUp, 9, some ⟨0, []⟩, by decide⟩

theorem witness_SpdmIsAnsweredWhileTheSecurityCoreRuns_4 : ∃ (s : State) (slot offset length index : Nat) (sign : Option SpdmSign) (tr :
    List Byte), s.awake = false ∨ s.clk.bootDone = false ∨ s.sec.stopped = true :=
  ⟨{ wUp with sec.stopped := true }, 0, 0, 0, 0, none, [], .inr (.inr rfl)⟩

theorem witness_DeviceStatesAndDomainsSwitchAsAsked_0 : ∃ (s : State), s.awake = true :=
  ⟨wUp, by decide⟩

theorem witness_DeviceStatesAndDomainsSwitchAsAsked_1 : ∃ (s : State), s.awake = true ∧ (s.hrn.role = .solo ∨ s.hrn.role = .fenced) ∧
    s.anyConn = false ∧ s.dirty = 0 ∧ s.sbg.stripes = [] :=
  ⟨wUp, by decide⟩

theorem witness_DeviceStatesAndDomainsSwitchAsAsked_2 : ∃ (s u : State), s.awake = true ∧ (s.hrn.role = .solo ∨ s.hrn.role = .fenced) ∧
    s.anyConn = false ∧ s.dirty = 0 ∧ s.sbg.stripes = [] ∧ s.pwr.st = .run ∧ u = (s.reqWritten 2).dropLinks.toState .deep :=
  ⟨wUp, _, by decide, by decide, by decide, by decide, by decide, by decide, rfl⟩

theorem witness_DeviceStatesAndDomainsSwitchAsAsked_3 : ∃ (s : State), s.awake = true ∧ s.pwr.st = .run ∧ ((s.hrn.role ≠ .solo ∧
    s.hrn.role ≠ .fenced) ∨ s.anyConn = true ∨ s.dirty ≠ 0 ∨ s.sbg.stripes ≠ []) :=
  ⟨wPair2 .active, by decide⟩

theorem witness_DeviceStatesAndDomainsSwitchAsAsked_4 : ∃ (s : State), s.awake = false ∨ s.pwr.st = .drain :=
  ⟨{ wUp with pwr.st := .drain }, .inr rfl⟩

theorem witness_DeviceStatesAndDomainsSwitchAsAsked_6 : ∃ (s : State) (d : Fin 34), s.flag (Reg.PWR_DOM_CFG_DOM_PEND d) = true ∧
    s.flag (Reg.PWR_DOM_CFG_ON d) = true ∧ s.domDisabled d = true ∧ s.domWork d = false :=
  ⟨(State.reset.setFld (Reg.PWR_DOM_CFG_DOM_PEND 16) 1).setFld (Reg.PWR_DOM_CFG_ON 16) 1, 16, by decide⟩

theorem witness_DeviceStatesAndDomainsSwitchAsAsked_7 : ∃ (s : State) (d : Fin 34), (s.flag (Reg.PWR_DOM_CFG_DOM_PEND d) = false ∨
    s.domDisabled d = false ∨ s.domWork d = true) :=
  ⟨State.reset, 16, by decide⟩

theorem witness_DeviceStatesAndDomainsSwitchAsAsked_8 : ∃ (s : State) (d : Nat), d ∈ fixedDomains :=
  ⟨State.reset, 31, by decide⟩

theorem witness_TheDrainRunsItsStepsToTheEnd_0 : ∃ (s : State) (ext : Bool) (vin : Nat), s.awake = true ∧ s.clk.bootDone = true ∧
    s.pwr.vinWarn = false ∧ s.pwr.st ≠ .drain ∧ (ext = false ∨ s.flag Reg.PWR_VIN_CFG_EXT_WARN = true) :=
  ⟨wUp, false, 2200, by decide⟩

theorem witness_TheDrainRunsItsStepsToTheEnd_1 : ∃ (s : State) (ext : Bool) (vin : Nat), s.pwr.powered = false ∨ s.pwr.vinWarn = true ∨
    (s.flag Reg.PWR_VIN_CFG_EXT_WARN = false ∧ ext = true) :=
  ⟨State.reset.setFld Reg.PWR_VIN_CFG_EXT_WARN 0, true, 2200, .inr (.inr ⟨by decide, rfl⟩)⟩

theorem witness_TheDrainRunsItsStepsToTheEnd_2 : ∃ (s : State) (ext : Bool) (vin : Nat), s.pwr.powered = true ∧ s.pwr.vinWarn = false ∧
    (ext = false ∨ s.flag Reg.PWR_VIN_CFG_EXT_WARN = true) ∧ (s.awake = false ∨ s.clk.bootDone = false ∨ s.pwr.st = .drain) :=
  ⟨{ wUp with clk.bootDone := false }, false, 2200, by decide⟩

theorem witness_TheDrainRunsItsStepsToTheEnd_3 : ∃ (s : State), s.pwr.st = .drain ∧ s.pwr.drainChecked = false ∧ s.hrn.link = true ∧
    s.hrn.peerDrain = false ∧ (s.hrn.role = .active ∨ s.hrn.role = .standby) :=
  ⟨{ wPair2 .active with pwr.st := .drain, hrn.link := true }, by decide⟩

theorem witness_TheDrainRunsItsStepsToTheEnd_4 : ∃ (s : State), s.pwr.st = .drain ∧ s.pwr.drainChecked = false ∧ (s.hrn.link = false ∨
    s.hrn.peerDrain = true ∨ s.hrn.role ≠ .active ∧ s.hrn.role ≠ .standby) :=
  ⟨{ wUp with pwr.st := .drain }, rfl, rfl, .inl rfl⟩

theorem witness_TheDrainRunsItsStepsToTheEnd_5 : ∃ (s u : State), s.pwr.st = .drain ∧ (s.pwr.phase = 1 ∧ s.hrn.holder = true ∧ s.dirty = 0 ∧
    u = { s with pwr.phase := 2 } ∨ (s.pwr.phase ≠ 1 ∨ s.hrn.holder = false ∨ s.dirty ≠ 0) ∧ u = s) :=
  ⟨{ wUp with pwr.st := .drain, pwr.phase := 1, hrn.holder := true, sbg.dirtyPages := [(0, 0)] }, _, rfl, .inl ⟨rfl, rfl, by decide, rfl⟩⟩

theorem witness_TheDrainRunsItsStepsToTheEnd_6 : ∃ (s : State), s.hrn.role ≠ .fenced ∧ s.reb.members = [] :=
  ⟨wUp, by decide⟩

theorem witness_TheDrainRunsItsStepsToTheEnd_7 : ∃ (s : State) (m : Nat) (x : Member), s.pwr.st = .drain ∧ s.hrn.holder = true ∧
    s.pwr.phase = 2 ∧ s.sbg.stripes = [] ∧ s.sbg.dirtyPages = [] ∧ s.hrn.role ≠ .fenced ∧ (m, x) ∈ s.reb.members ∧ x.st = .active :=
  ⟨{ wUp with pwr.st := .drain, pwr.phase := 2, hrn.holder := true, reb.members := [(3, { st := .active })] }, 3, { st := .active }, by decide⟩

theorem witness_TheDrainRunsItsStepsToTheEnd_8 : ∃ (s : State), s.pwr.st = .drain ∧ s.pwr.phase = 3 ∧ s.pwr.drainRec = true ∧
    (∀ c ∈ s.drv.cmds, c.use ≠ .flush) :=
  ⟨{ wUp with pwr.st := .drain, pwr.phase := 3, pwr.drainRec := true }, by decide⟩

theorem witness_TheDrainRunsItsStepsToTheEnd_9 : ∃ (s : State), s.awake = true ∧ s.pwr.vinWarn = true :=
  ⟨{ wUp with pwr.st := .drain, pwr.phase := 3, pwr.vinWarn := true }, by decide⟩

theorem witness_TheDrainRunsItsStepsToTheEnd_10 : ∃ (s : State) (w : RecWrite), s.sec.write = some w :=
  ⟨{ wUp with sec.write := some { content := {} }, pwr.st := .drain }, { content := {} }, by decide⟩

theorem witness_TheDrainRunsItsStepsToTheEnd_11 : ∃ (s : State), s.sec.write = none :=
  ⟨wUp, by decide⟩

theorem witness_TheDrainRunsItsStepsToTheEnd_12 : ∃ (s : State) (w : RecWrite), s.sec.write = some w ∧ w.retried = true :=
  ⟨{ wUp with sec.write := some { content := {}, retried := true } }, { content := {}, retried := true }, by decide⟩

theorem witness_TheDrainRunsItsStepsToTheEnd_13 : ∃ (s : State) (w : RecWrite), s.sec.write = some w ∧ w.retried = false ∧
    s.sec.placesLeft ≠ 0 :=
  ⟨{ wUp with sec.write := some { content := {} } }, { content := {} }, by decide⟩

theorem witness_SupplyRailAndTemperatureFaultsStopTheDevice_0 : ∃ (s : State), s.pwr.powered = true :=
  ⟨wUp, by decide⟩

theorem witness_SupplyRailAndTemperatureFaultsStopTheDevice_1 : ∃ (s : State), s.pwr.powered = false :=
  ⟨{ wUp with pwr.powered := false }, by decide⟩

theorem witness_SupplyRailAndTemperatureFaultsStopTheDevice_2 : ∃ (s : State) (rail : Fin 6) (ov : Bool), s.pwr.powered = true :=
  ⟨wUp, 2, true, by decide⟩

theorem witness_SupplyRailAndTemperatureFaultsStopTheDevice_3 : ∃ (s : State) (sensor temp : Nat), s.pwr.powered = true ∧
    s.fld Reg.PWR_THERM_TJ_WARN ≤ temp :=
  ⟨wUp, 0, 130, by decide⟩

theorem witness_SupplyRailAndTemperatureFaultsStopTheDevice_4 : ∃ (s : State) (sensor temp : Nat), s.pwr.powered = true ∧
    temp + 5 ≤ s.fld Reg.PWR_THERM_TJ_WARN :=
  ⟨wUp, 0, 50, by decide⟩

theorem witness_SupplyRailAndTemperatureFaultsStopTheDevice_5 : ∃ (s : State) (sensor temp : Nat) (b : Bool), s.pwr.powered = true :=
  ⟨wUp, 0, 50, false, by decide⟩

theorem witness_SupplyRailAndTemperatureFaultsStopTheDevice_6 : ∃ (s : State) (sensor temp : Nat), s.pwr.powered = true ∧
    s.pwr.thermHold = false ∧ 125 ≤ temp :=
  ⟨wUp, 0, 125, by decide⟩

theorem witness_SupplyRailAndTemperatureFaultsStopTheDevice_7 : ∃ (s : State), s.pwr.thermHold = true ∧ s.pwr.waitingResets ≠ [] :=
  ⟨{ wUp with pwr.thermHold := true, pwr.waitingResets := [1] }, by decide⟩

theorem witness_SupplyRailAndTemperatureFaultsStopTheDevice_8 : ∃ (s : State), (s.pwr.thermHold = false ∨ s.pwr.waitingResets = []) :=
  ⟨wUp, by decide⟩

theorem witness_ClockTripsMoveDomainsToTheirFallback_0 : ∃ (s : State) (freq : Bool) (dev : Int), s.treeUp = true ∧ s.clk.xaOk = true ∧
    s.clk.resetHold = none ∧ s.hrn.role = .solo ∧ s.clk.fioReady = true ∧ s.fld (Reg.CLK_CD_STATUS_SRC 4) = 0 ∧
    s.fld (Reg.CLK_CD_STATUS_SRC 9) = 0 :=
  ⟨{ wUp with clk.xaOk := true, clk.fioReady := true }, true, -100, by decide⟩

theorem witness_ClockTripsMoveDomainsToTheirFallback_1 : ∃ (s : State) (freq : Bool) (dev : Int), s.treeUp = true ∧ s.clk.xbOk = true ∧
    s.clk.resetHold = none ∧ s.clk.xaTripped = false ∧ s.hrn.link = false ∧ s.pwr.st ≠ .deep :=
  ⟨{ wUp with clk.xbOk := true }, false, 7, by decide⟩

theorem witness_ClockTripsMoveDomainsToTheirFallback_2 : ∃ (s : State), s.treeUp = true ∧ s.clk.xbTripped = true ∧ s.clk.xaTripped = false ∧
    s.tim.onXA = false ∧ s.hrn.link = false :=
  ⟨{ wUp with clk.xbTripped := true }, by decide⟩

theorem witness_ClockTripsMoveDomainsToTheirFallback_3 : ∃ (s u : State) (freq : Bool) (dev : Int), s.treeUp = true ∧
    s.clk.resetHold = none :=
  ⟨wUp, wUp, false, 7, by decide⟩

theorem witness_ClockTripsMoveDomainsToTheirFallback_5 : ∃ (s : State) (freq : Bool) (dev : Int), s.treeUp = true ∧ s.clk.fioReady = true ∧
    s.hrn.link = false ∧ s.fld (Reg.CLK_CD_STATUS_SRC 0) = 0 :=
  ⟨{ wUp with clk.fioReady := true }, false, 0, by decide⟩

theorem witness_ClockTripsMoveDomainsToTheirFallback_6 : ∃ (s : State), s.treeUp = true ∧ s.clk.pllLock.getLsbD 0 = true ∧
    s.clk.resetHold = none ∧ s.hrn.link = false ∧ s.fld (Reg.CLK_CD_STATUS_SRC 4) = 0 :=
  ⟨{ wUp with clk.pllLock := 0xFF }, by decide⟩

theorem witness_ClockTripsMoveDomainsToTheirFallback_7 : ∃ (s : State) (freq : Bool) (dev : Int) (pll : Fin 8), s.treeUp = true :=
  ⟨wUp, false, 0, 0, by decide⟩

theorem witness_ClockTripsMoveDomainsToTheirFallback_8 : ∃ (s : State) (freq : Bool) (dev : Int) (t : Nat), s.treeUp = true ∧
    s.clk.xaOk = true ∧ s.clk.resetHold = some t ∧ s.pwr.st ≠ .deep :=
  ⟨{ wUp with clk.xaOk := true, clk.resetHold := some 5 }, false, 0, 5, by decide⟩

theorem witness_ClocksStartGateAndLetHostIoIn_0 : ∃ (s u : State) (t0 : Nat), s.clk.fioStart = some t0 ∧
    u = { s with clk.fioReady := true, clk.fioStart := none, clk.waitFio := [] } :=
  ⟨{ wUp with clk.starting := true, clk.fioStart := some 0, clk.waitFio := [4] }, _, 0, rfl, rfl⟩

theorem witness_ClocksStartGateAndLetHostIoIn_1 : ∃ (s : State) (t0 : Nat), s.clk.fioStart = some t0 ∧ s.treeUp = true ∧
    s.clk.starting = false :=
  ⟨{ wUp with clk.starting := false, clk.fioStart := some 0, clk.waitFio := [4] }, 0, by decide⟩

theorem witness_ClocksStartGateAndLetHostIoIn_2 : ∃ (s : State) (t0 : Nat), s.clk.fioStart = some t0 ∧ s.treeUp = true :=
  ⟨{ wUp with clk.fioStart := some 0 }, 0, by decide⟩

theorem witness_ClocksStartGateAndLetHostIoIn_3 : ∃ (s : State), s.clk.fioStart = none :=
  ⟨{ wUp with clk.fioStart := none }, by decide⟩

theorem witness_ClocksStartGateAndLetHostIoIn_4 : ∃ (s : State), s.treeStarting = true ∧ s.clk.xaTripped = false :=
  ⟨{ State.reset with clk.fioReady := true, clk.fioStart := none }, by decide⟩

theorem witness_ClocksStartGateAndLetHostIoIn_5 : ∃ (s : State), s.treeStarting = true ∧ s.clk.xaTripped = false :=
  ⟨{ State.reset with clk.fioReady := true, clk.fioStart := none }, by decide⟩

theorem witness_ClocksStartGateAndLetHostIoIn_6 : ∃ (s : State), s.treeUp = true ∧ s.awake = true ∧ s.clk.fioReady = true ∧
    s.clk.xbTripped = false ∧ (s.clk.starting = true ∨ s.clk.xaTripped = true ∧ s.clk.bootDone = false) :=
  ⟨{ wUp with clk.starting := true, clk.fioReady := true }, by decide, by decide, rfl, rfl, .inl rfl⟩

theorem witness_ClocksStartGateAndLetHostIoIn_7 : ∃ (s : State), s.treeStarting = false ∨ s.clk.xaTripped = true :=
  ⟨wUp, .inl (by decide)⟩

theorem witness_ClocksStartGateAndLetHostIoIn_8 : ∃ (s : State) (d : Fin 12), s.flag (Reg.CLK_CD_STATUS_GATE_PEND d) = true ∧
    s.clockWork d = false ∧ s.flag (Reg.CLK_CD_STATUS_GATED d) = false :=
  ⟨State.reset.setFld (Reg.CLK_CD_STATUS_GATE_PEND 4) 1, 4, by decide⟩

theorem witness_ClocksStartGateAndLetHostIoIn_9 : ∃ (s : State) (d : Fin 12), (s.flag (Reg.CLK_CD_STATUS_GATE_PEND d) = false ∨
    s.clockWork d = true) :=
  ⟨State.reset, 4, by decide⟩

theorem witness_ClocksStartGateAndLetHostIoIn_10 : ∃ (s u : State) (maps nss locks : List StatePart) (cs : List JournalCopy),
    s.sbg.replaying = true ∧ s.sbg.loaded = false ∧ s.hrn.holder = true ∧ s.awake = true ∧
    u = (maps ++ nss ++ locks).foldl (fun s p => s.takePart (coldPart p)) s :=
  ⟨{ wUp with sbg.replaying := true, hrn.holder := true, reb.members := [(0, { st := .active })] }, _, [], [], [], [], rfl, rfl, rfl, by decide, rfl⟩

theorem witness_ClocksStartGateAndLetHostIoIn_11 : ∃ (s : State), s.sbg.replaying = true ∧ s.sbg.loaded = true ∧ s.sbg.stripes = [] :=
  ⟨{ wUp with sbg.replaying := true, sbg.loaded := true }, by decide⟩

theorem witness_ClocksStartGateAndLetHostIoIn_12 : ∃ (s : State) (maps nss locks : List StatePart) (cs : List JournalCopy), s.sbg.replaying
    = false ∨ s.sbg.loaded = true ∨ s.hrn.holder = false ∨ s.awake = false :=
  ⟨wUp, [], [], [], [], .inl (by decide)⟩

theorem witness_ClocksStartGateAndLetHostIoIn_13 : ∃ (s : State), s.awake = true ∧ s.clk.bootDone = true ∧ s.clk.ioReady = false ∧
    s.startupBits = 0x3FF :=
  ⟨{ wUp with clk.startup := 0x3FF }, by decide⟩

theorem witness_ClocksStartGateAndLetHostIoIn_14 : ∃ (s : State), s.startupBits ≠ 0x3FF ∨ s.awake = false ∨ s.clk.bootDone = false ∨
    s.clk.ioReady = true :=
  ⟨wUp, .inl (by decide)⟩

theorem witness_ClocksStartGateAndLetHostIoIn_15 : ∃ (s : State), s.hrn.role = .joining :=
  ⟨wPair2 .joining, by decide⟩

theorem witness_ClocksStartGateAndLetHostIoIn_16 : ∃ (s : State), s.hrn.role ≠ .joining :=
  ⟨wUp, by decide⟩

theorem witness_WindowsCountersAndSamplesReport_0 : ∃ (s : State) (id : Nat) (c : Started) (k : Nat) (x : Window), s.AcceptsPlain id 0x0800
    [(0x11, 23)] c ∧ c.desc.par 0 1 < 8 ∧ (c.desc.par 1 1 = 1 ∨ c.desc.par 1 1 = 3) ∧ (s.window (c.desc.par 0 1)).enabled = false ∧
    x = { enabled := true, ports := c.desc.par 2 1, period := c.desc.par 4 4, start := s.now, isPartial := true, ring := TelRing.start (c.desc.par 8 8) (c.desc.par 3 1) (c.desc.par 0x10 1) ((c.desc.par 1 1).testBit 1) } ∧
    1 ≤ c.desc.par 4 4 ∧ c.desc.par 4 4 ≤ 10000 ∧ x.ports ≠ 0 ∧ x.ring.base % 4096 = 0 ∧ 4 ≤ x.ring.log2 ∧ x.ring.log2 ≤ 16 ∧
    4 * (s.windowSubs x).length ≤ x.ring.size ∧ s.findSlot = some k :=
  ⟨wIn State.reset { opcode := 0x0800, params := 2 ^ 8 + 2 ^ 16 + 4 * 2 ^ 24 + 5 * 2 ^ 32 }, 1, _, 0, _, wAcc _ _ _ rfl rfl rfl, by decide, by decide, by decide, rfl, by decide⟩

theorem witness_WindowsCountersAndSamplesReport_1 : ∃ (s : State) (id : Nat) (c : Started), s.AcceptsPlain id 0x0800 [(0x11, 23)] c ∧
    c.desc.par 0 1 < 8 ∧ c.desc.par 1 1 = 0 ∧ (s.window (c.desc.par 0 1)).slot = none :=
  ⟨wIn State.reset { opcode := 0x0800, params := 0 }, 1, _, wAcc _ _ _ rfl rfl rfl, by decide⟩

theorem witness_WindowsCountersAndSamplesReport_2 : ∃ (s : State) (id k : Nat) (c : Started), s.AcceptsPlain id 0x0800 [(0x11, 23)] c :=
  ⟨wIn State.reset { opcode := 0x0800, params := 0 }, 1, 0, _, wAcc _ _ _ rfl rfl rfl⟩

theorem witness_WindowsCountersAndSamplesReport_3 : ∃ (s : State) (w : Fin 8) (k : Nat), (s.window w).slot = some k ∧
    (s.window w).enabled = true :=
  ⟨{ State.reset with tel.windows := [(0, { enabled := true, slot := some 7, ring := { err := true } })] }, 0, 7, by decide⟩

theorem witness_WindowsCountersAndSamplesReport_4 : ∃ (s : State) (w : Fin 8), (s.window w).slot = none ∨ (s.window w).enabled = false :=
  ⟨State.reset, 0, .inl rfl⟩

theorem witness_WindowsCountersAndSamplesReport_5 : ∃ (s u : State) (w : Fin 8) (k : Nat) (x : Window), x = (s.window w) ∧ x.slot = some k ∧
    x.enabled = true ∧ s.hookOn 4 = false ∧ x.ring.err = false ∧ 2 * (s.windowSubs x).length ≤ x.ring.free ∧ x.ring.irq = false ∧
    u = (s.fire k).setWindow w { x with seq := (x.seq + 1) % 2 ^ 32 } :=
  ⟨{ State.reset with tel.windows := [(0, { enabled := true, slot := some 7, ports := 1, ring := { log2 := 4 } })] }, _, 0, 7, _, rfl, rfl, rfl, by decide +kernel, rfl, by decide +kernel, rfl, rfl⟩

theorem witness_WindowsCountersAndSamplesReport_6 : ∃ (s : State) (w : Fin 8) (k : Nat), (s.window w).slot = some k ∧
    (s.window w).enabled = true ∧ s.hookOn 4 = false ∧ (s.window w).ring.err = true :=
  ⟨{ State.reset with tel.windows := [(0, { enabled := true, slot := some 7, ring := { err := true } })] }, 0, 7, by decide⟩

theorem witness_WindowsCountersAndSamplesReport_7 : ∃ (s : State) (w : Fin 8) (k : Nat), (s.window w).slot = some k ∧
    (s.window w).enabled = true ∧ s.hookOn 4 = false ∧ (s.window w).ring.err = false ∧
    (s.window w).ring.free < 2 * (s.windowSubs (s.window w)).length :=
  ⟨{ State.reset with tel.windows := [(0, { enabled := true, slot := some 7, ports := 1, ring := { log2 := 0, used := 1 } })] }, 0, 7, by decide⟩

theorem witness_WindowsCountersAndSamplesReport_8 : ∃ (s : State) (id : Nat) (c : Started), s.AcceptsPlain id 0x0801 [(0x05, 35)] c ∧
    1 ≤ c.desc.par 2 2 ∧ c.desc.par 0 2 + c.desc.par 2 2 ≤ 4096 ∧ c.desc.par 4 1 = 1 ∧ c.desc.dataLen.toNat = 8 * c.desc.par 2 2 :=
  ⟨wIn State.reset { opcode := 0x0801, dataLen := 8, params := 2 ^ 16 + 2 ^ 32 }, 1, _, wAcc _ _ _ rfl rfl rfl, by decide⟩

theorem witness_WindowsCountersAndSamplesReport_9 : ∃ (s : State) (id : Nat) (c : Started) (b : Bool), s.AcceptsPlain id 0x0801 [(0x05, 35)]
    c :=
  ⟨wIn State.reset { opcode := 0x0801, dataLen := 8, params := 2 ^ 16 + 2 ^ 32 }, 1, _, false, wAcc _ _ _ rfl rfl rfl⟩

theorem witness_WindowsCountersAndSamplesReport_10 : ∃ (s : State) (id : Nat) (c : Started), s.AcceptsPlain id 0x0802 [(0x06, 2), (0x10,
    24)] c ∧ (c.desc.par 0 1 ≠ 0 ∧ c.desc.par 0 1 < 8 ∨ 24 < c.desc.par 0 1 ∨ 4 ≤ c.desc.par 1 1 ∨ c.desc.par 2 1 < 4 ∨
    16 < c.desc.par 2 1 ∨ 1024 ≤ c.desc.par 4 2 ∨ c.desc.par 8 8 % 4096 ≠ 0) :=
  ⟨wIn State.reset { opcode := 0x0802, params := 0 }, 1, _, wAcc _ _ _ rfl rfl rfl, by decide⟩

theorem witness_WindowsCountersAndSamplesReport_11 : ∃ (s : State) (id : Nat) (c : Started), s.AcceptsPlain id 0x0802 [(0x06, 2), (0x10,
    24)] c ∧ (c.desc.par 0 1 = 0 ∨ (8 ≤ c.desc.par 0 1 ∧ c.desc.par 0 1 ≤ 24)) ∧ c.desc.par 1 1 < 4 ∧ 4 ≤ c.desc.par 2 1 ∧
    c.desc.par 2 1 ≤ 16 ∧ c.desc.par 4 2 < 1024 ∧ c.desc.par 8 8 % 4096 = 0 :=
  ⟨wIn State.reset { opcode := 0x0802, params := 4 * 2 ^ 16 }, 1, _, wAcc _ _ _ rfl rfl rfl, by decide⟩

theorem witness_WindowsCountersAndSamplesReport_12 : ∃ (s : State) (w : Fin 8) (v : Word) (r : TelRing), r = (s.window w).ring ∧
    getBits v 15 0 < r.size ∧ 0 < (getBits v 15 0 + r.size - r.head) % r.size ∧ (getBits v 15 0 + r.size - r.head) % r.size ≤ r.used :=
  ⟨{ State.reset with tel.windows := [(0, { ring := { log2 := 4, used := 3 } })] }, 0, 2, _, rfl, by decide⟩

theorem witness_WindowsCountersAndSamplesReport_13 : ∃ (s : State) (w : Fin 8) (v : Word) (r : TelRing), r = (s.window w).ring :=
  ⟨{ State.reset with tel.windows := [(0, { ring := { log2 := 4, used := 3 } })] }, 0, 9, _, rfl⟩

theorem witness_WindowsCountersAndSamplesReport_14 : ∃ (s : State) (v : Word), s.tel.sampling.ring.size ≤ getBits v 15 0 :=
  ⟨State.reset, 0xFFFF, by decide⟩

theorem witness_WindowsCountersAndSamplesReport_15 : ∃ (s : State) (v : Word) (r : TelRing), r = s.tel.sampling.ring ∧
    getBits v 15 0 < r.size ∧ 0 < (getBits v 15 0 + r.size - r.head) % r.size ∧ (getBits v 15 0 + r.size - r.head) % r.size ≤ r.used :=
  ⟨{ State.reset with tel.sampling := { ring := { log2 := 4, used := 3 } } }, 2, _, rfl, by decide⟩

end Sys2Proof.Tests
end

section
/-! Proofs of the scope family: what a step does with the queue of waiting commands, and what every command leaves unchanged. -/
namespace Sys2Proof.Machine

/-! ### A CIPHER verify call stores nothing -/

/-- A CIPHER call whose body leaves memory leaves memory, for the answer to the call stores nothing. -/
theorem State.cipherCall_mem (s : State) (op : Nat) (b : Call → State → Option (Nat × Nat × State))
    (h : ∀ c u x y t, b c u = some (x, y, t) → t.mem = u.mem) : (s.cipherCall op b).mem = s.mem := by
  unfold State.cipherCall
  split
  · rfl
  · next c _ =>
    split
    · split
      · rfl
      · next x y t e => exact (State.answer_same t c x y).2.trans (h c s x y t e)
    · split
      · exact (State.answer_same s c 2 0).2
      · rfl

/-- OP 4, at-rest verify, checks the blocks and releases nothing (R278). -/
theorem State.decryptCall_verify_mem (s : State) (m : List Bool) (r : Bool) : (s.decryptCall 4 m r).mem = s.mem := by
  unfold State.decryptCall
  apply State.cipherCall_mem
  intro c u x y t h
  have hpipe := (State.runPipe_same u false 4 m r).2
  simp only [↓reduceIte] at h
  split at h
  · cases h; rfl
  · split at h
    · split at h
      · cases h; exact hpipe
      · split at h
        · cases h; exact (State.openRun_same ..).2.trans hpipe
        · cases h; exact (State.openRun_same ..).2.trans hpipe
    · cases h; rfl

theorem execAtRestVerify_mem {m : List Bool} {r : Bool} {s t : State} (h : execAtRestVerify m r s = .next t) : t.mem = s.mem := by
  cases h
  exact State.decryptCall_verify_mem s m r

/-! ### What every command leaves unchanged -/

/-- No command ends a run: each meaning answers a next state on every path. -/
theorem exec_answers_next (c : Instr) (s : State) : ∃ t, exec c s = .next t := by
  cases c <;> exact ⟨_, rfl⟩

/-- What command `c` may do to the queue and to memory when it takes `s` to `t`: the queue stays, memory changes only if `stores` lists
the command, and memory stays in its canonical form. -/
structure CommandFrame (c : Instr) (s t : State) : Prop where
  pending : t.pending = s.pending
  mem : stores c = false → t.mem = s.mem
  wf : Memory.wf s.mem = true → Memory.wf t.mem = true

theorem CommandFrame.of_same {c : Instr} {s t : State} (h : t.pending = s.pending ∧ t.mem = s.mem) : CommandFrame c s t where
  pending := h.1
  mem _ := h.2
  wf := (State.kept_of_same h).2

theorem CommandFrame.of_stores {c : Instr} {s t : State} (hc : stores c = true)
    (h : t.pending = s.pending ∧ (Memory.wf s.mem = true → Memory.wf t.mem = true)) : CommandFrame c s t where
  pending := h.1
  mem hf := absurd (hf.symm.trans hc) Bool.false_ne_true
  wf := h.2

/-- Every command keeps its frame, each by the frame lemma of its own meaning. -/
theorem exec_frame {c : Instr} {s t : State} (h : exec c s = .next t) : CommandFrame c s t := by
  cases c with
  | barAccessBad => exact .of_same (execBarAccessBad_same _ _ _ s t h)
  | registerWrite => exact .of_stores rfl (execRegisterWrite_same _ _ s t h)
  | readClearRegister => exact .of_same (execReadClearRegister_same _ s t h)
  | lowWordRead => exact .of_same (execLowWordRead_same _ s t h)
  | ptpAnnounceRx => exact .of_same (execPtpAnnounceRx_same _ _ s t h)
  | ptpSyncRx => exact .of_same (execPtpSyncRx_same _ _ _ _ s t h)
  | ptpDelayRespRx => exact .of_same (execPtpDelayRespRx_same _ _ s t h)
  | delayReqSend => exact .of_same (execDelayReqSend_same s t h)
  | syncLossCheck => exact .of_same (execSyncLossCheck_same s t h)
  | announceTimeout => exact .of_same (execAnnounceTimeout_same s t h)
  | servoUpdate => exact .of_same (execServoUpdate_same s t h)
  | holdoverMeanUpdate => exact .of_same (execHoldoverMeanUpdate_same s t h)
  | stepShelfTime => exact .of_same (execStepShelfTime_same _ s t h)
  | floorAdvance => exact .of_same (execFloorAdvance_same s t h)
  | floorSave => exact .of_same (execFloorSave_same s t h)
  | retentionReview => exact .of_same (execRetentionReview_same s t h)
  | retentionLockExpire => exact .of_same (execRetentionLockExpire_same _ s t h)
  | slotDoorbellFire => exact .of_same (execSlotDoorbellFire_same _ s t h)
  | ringEnable => exact .of_same (execRingEnable_same _ s t h)
  | ringDisable => exact .of_same (execRingDisable_same _ s t h)
  | ctlDisableAll => exact .of_same (execCtlDisableAll_same s t h)
  | cdbWrite => exact .of_same (execCdbWrite_same _ _ _ s t h)
  | edbWrite => exact .of_same (execEdbWrite_same _ _ _ s t h)
  | commandFetch => exact .of_same (execCommandFetch_same _ _ _ s t h)
  | ringFault => exact .of_same (execRingFault_same _ _ s t h)
  | eventEntryWrite => exact .of_same (execEventEntryWrite_same _ s t h)
  | coalTimeExpire => exact .of_same (execCoalTimeExpire_same _ s t h)
  | nop => exact .of_same (execNop_same _ s t h)
  | identifyDevice => exact .of_same (execIdentifyDevice_same _ _ s t h)
  | getNonce => exact .of_same (execGetNonce_same _ s t h)
  | guardStormEnd => exact .of_same (execGuardStormEnd_same s t h)
  | evtPendClear => exact .of_same (execEvtPendClear_same _ _ s t h)
  | evtSrcCfgWrite => exact .of_same (execEvtSrcCfgWrite_same _ s t h)
  | mgmtEndpointReset => exact .of_same (execMgmtEndpointReset_same s t h)
  | funcWedged => exact .of_same (execFuncWedged_same _ s t h)
  | autoReset => exact .of_stores rfl (execAutoReset_same s t h)
  | glbResetWrite => exact .of_stores rfl (execGlbResetWrite_same _ s t h)
  | pcall => exact .of_stores rfl (execPcall_same _ _ _ _ s t h)
  | pwait => exact .of_stores rfl (execPwait_same _ _ _ _ s t h)
  | ppoll => exact .of_stores rfl (execPpoll_same _ _ _ _ s t h)
  | primitiveComplete => exact .of_stores rfl (execPrimitiveComplete_same _ _ s t h)
  | parse => exact .of_stores rfl (execParse_same _ _ _ s t h)
  | lookup => exact .of_stores rfl (execLookup_same _ _ _ _ s t h)
  | extentCacheFill => exact .of_same (execExtentCacheFill_same _ _ s t h)
  | atRestEncrypt => exact .of_stores rfl (execAtRestEncrypt_same _ _ s t h)
  | ctrSaveDone => exact .of_same (execCtrSaveDone_same s t h)
  | atRestDecrypt => exact .of_stores rfl (execAtRestDecrypt_same _ _ _ s t h)
  | atRestVerify m r => exact .of_same ⟨(execAtRestVerify_same m r s t h).1, execAtRestVerify_mem h⟩
  | wireEncrypt => exact .of_stores rfl (execWireEncrypt_same _ s t h)
  | wireDecrypt => exact .of_stores rfl (execWireDecrypt_same _ s t h)
  | ecEncode => exact .of_stores rfl (execEcEncode_same s t h)
  | ecUpdate => exact .of_stores rfl (execEcUpdate_same s t h)
  | ecDecode => exact .of_stores rfl (execEcDecode_same s t h)
  | move => exact .of_stores rfl (execMove_same _ _ _ s t h)
  | send => exact .of_same (execSend_same _ _ _ s t h)
  | ringProduce => exact .of_same (execRingProduce_same _ _ _ s t h)
  | ringConsume => exact .of_stores rfl (execRingConsume_same _ _ s t h)
  | ringDoorbell => exact .of_same (execRingDoorbell_same _ s t h)
  | timeRead => exact .of_stores rfl (execTimeRead_same _ s t h)
  | timeAllocate o c p a g => exact .of_same (execTimeAllocate_same o c p a g s t h)
  | timeArm => exact .of_same (execTimeArm_same _ _ _ _ _ s t h)
  | timeFree => exact .of_same (execTimeFree_same _ s t h)
  | countAdd => exact .of_same (execCountAdd_same _ _ s t h)
  | countRead => exact .of_same (execCountRead_same _ s t h)
  | countReadClear => exact .of_same (execCountReadClear_same _ s t h)
  | lockAcquire => exact .of_same (execLockAcquire_same _ _ s t h)
  | lockGrant => exact .of_same (execLockGrant_same _ s t h)
  | lockRelease => exact .of_same (execLockRelease_same _ s t h)
  | hookReturn => exact .of_stores rfl (execHookReturn_same _ _ s t h)
  | hookOverrun => exact .of_stores rfl (execHookOverrun_same _ s t h)
  | hookFault => exact .of_stores rfl (execHookFault_same _ s t h)
  | tackEccUncorrectable => exact .of_same (execTackEccUncorrectable_same _ s t h)
  | tackEccCorrected => exact .of_same (execTackEccCorrected_same _ s t h)
  | enrolExtensionKey => exact .of_same (execEnrolExtensionKey_same _ _ _ s t h)
  | loadExtension => exact .of_stores rfl (execLoadExtension_same _ _ s t h)
  | netPortEnable => exact .of_same (execNetPortEnable_same _ _ s t h)
  | netPortDisable => exact .of_same (execNetPortDisable_same _ _ s t h)
  | netLinkUp => exact .of_same (execNetLinkUp_same _ _ s t h)
  | netLinkDown => exact .of_same (execNetLinkDown_same _ _ s t h)
  | frameReceive => exact .of_same (execFrameReceive_same _ _ _ s t h)
  | cutThroughStart => exact .of_same (execCutThroughStart_same _ s t h)
  | frameFoundBad => exact .of_same (execFrameFoundBad_same _ _ s t h)
  | frameTransmit => exact .of_same (execFrameTransmit_same _ _ s t h)
  | bufferEccUncorrectable => exact .of_same (execBufferEccUncorrectable_same _ s t h)
  | bufferEccCorrected => exact .of_same (execBufferEccCorrected_same s t h)
  | reseqArrival => exact .of_same (execReseqArrival_same _ _ s t h)
  | reseqDiscardReport => exact .of_same (execReseqDiscardReport_same _ _ _ s t h)
  | reseqTimeout => exact .of_same (execReseqTimeout_same _ _ s t h)
  | wredProfileCommit => exact .of_same (execWredProfileCommit_same _ s t h)
  | tableEnable => exact .of_same (execTableEnable_same _ _ s t h)
  | tableDisable => exact .of_same (execTableDisable_same _ _ s t h)
  | ageLimitWrite => exact .of_same (execAgeLimitWrite_same _ _ _ s t h)
  | learnEvent => exact .of_same (execLearnEvent_same _ s t h)
  | learnApply => exact .of_same (execLearnApply_same s t h)
  | pinEnd => exact .of_same (execPinEnd_same _ s t h)
  | tableSweep => exact .of_same (execTableSweep_same _ s t h)
  | tableEccUncorrectable => exact .of_same (execTableEccUncorrectable_same _ _ s t h)
  | tableEccCorrected => exact .of_same (execTableEccCorrected_same _ s t h)
  | tableRead => exact .of_same (execTableRead_same _ _ s t h)
  | tableInsert => exact .of_same (execTableInsert_same _ _ s t h)
  | tableDelete => exact .of_same (execTableDelete_same _ _ s t h)
  | tableLock => exact .of_same (execTableLock_same _ _ s t h)
  | tableUnlock => exact .of_same (execTableUnlock_same _ _ s t h)
  | tableRehash => exact .of_same (execTableRehash_same _ s t h)
  | rehashSwitch => exact .of_same (execRehashSwitch_same _ s t h)
  | neighbourRequestRx => exact .of_same (execNeighbourRequestRx_same _ _ s t h)
  | cmReqRx => exact .of_same (execCmReqRx_same _ s t h)
  | cmRtuRx => exact .of_same (execCmRtuRx_same _ s t h)
  | cmDreqRx => exact .of_same (execCmDreqRx_same _ s t h)
  | cmDrepRx => exact .of_same (execCmDrepRx_same _ s t h)
  | cmTmoExpire => exact .of_same (execCmTmoExpire_same _ s t h)
  | quietTmoExpire => exact .of_same (execQuietTmoExpire_same _ s t h)
  | sheathK1Rx => exact .of_same (execSheathK1Rx_same _ _ s t h)
  | sheathK3Rx => exact .of_same (execSheathK3Rx_same _ _ s t h)
  | keyTmoExpire => exact .of_same (execKeyTmoExpire_same _ s t h)
  | capsuleRx => exact .of_same (execCapsuleRx_same _ _ s t h)
  | pullSetupRx => exact .of_same (execPullSetupRx_same _ _ s t h)
  | pullDoorbellRx => exact .of_same (execPullDoorbellRx_same _ _ _ _ _ s t h)
  | deviceRegionRead => exact .of_same (execDeviceRegionRead_same _ _ _ s t h)
  | rdmaRequestRx => exact .of_same (execRdmaRequestRx_same _ _ s t h)
  | contextFetchDone => exact .of_same (execContextFetchDone_same _ _ s t h)
  | ackSend => exact .of_same (execAckSend_same _ s t h)
  | ackRx => exact .of_same (execAckRx_same _ s t h)
  | nakRx => exact .of_same (execNakRx_same _ _ s t h)
  | rnrWaitExpire => exact .of_same (execRnrWaitExpire_same _ s t h)
  | retransmitDeadline => exact .of_same (execRetransmitDeadline_same _ s t h)
  | readResponseRx => exact .of_same (execReadResponseRx_same _ _ s t h)
  | cnpRx => exact .of_same (execCnpRx_same _ s t h)
  | alphaPeriodExpire => exact .of_same (execAlphaPeriodExpire_same _ s t h)
  | rateIncrease => exact .of_same (execRateIncrease_same _ s t h)
  | xptEnable => exact .of_same (execXptEnable_same _ s t h)
  | wheelTick => exact .of_same (execWheelTick_same s t h)
  | enrolHost => exact .of_same (execEnrolHost_same _ s t h)
  | grantNamespace => exact .of_same (execGrantNamespace_same _ s t h)
  | revokeGrant => exact .of_same (execRevokeGrant_same _ s t h)
  | registerMemoryKey => exact .of_same (execRegisterMemoryKey_same _ s t h)
  | deregisterMemoryKey => exact .of_same (execDeregisterMemoryKey_same _ s t h)
  | configurePolicer => exact .of_same (execConfigurePolicer_same _ s t h)
  | freePolicer => exact .of_same (execFreePolicer_same _ s t h)
  | configureShaper => exact .of_same (execConfigureShaper_same _ s t h)
  | freeShaper => exact .of_same (execFreeShaper_same _ s t h)
  | policerRelease => exact .of_same (execPolicerRelease_same _ s t h)
  | loadSlalomList => exact .of_same (execLoadSlalomList_same _ _ s t h)
  | slalomSwap => exact .of_same (execSlalomSwap_same _ s t h)
  | slalomGateChange => exact .of_same (execSlalomGateChange_same _ s t h)
  | setRebuildRate => exact .of_same (execSetRebuildRate_same _ s t h)
  | commandStart => exact .of_same (execCommandStart_same _ s t h)
  | nvmeRead => exact .of_same (execNvmeRead_same _ s t h)
  | nvmeWrite => exact .of_same (execNvmeWrite_same _ _ s t h)
  | writeDataFetch => exact .of_same (execWriteDataFetch_same _ s t h)
  | nvmeWriteZeroes => exact .of_same (execNvmeWriteZeroes_same _ s t h)
  | nvmeDatasetManagement => exact .of_same (execNvmeDatasetManagement_same _ _ s t h)
  | nvmeFlush => exact .of_same (execNvmeFlush_same _ s t h)
  | reservationRegister => exact .of_same (execReservationRegister_same _ _ _ s t h)
  | reservationReport => exact .of_same (execReservationReport_same _ s t h)
  | reservationAcquire => exact .of_same (execReservationAcquire_same _ _ _ s t h)
  | reservationRelease => exact .of_same (execReservationRelease_same _ _ s t h)
  | getLogPage => exact .of_same (execGetLogPage_same _ s t h)
  | nvmeIdentify => exact .of_same (execNvmeIdentify_same _ s t h)
  | nvmeAbort => exact .of_same (execNvmeAbort_same _ s t h)
  | setFeatures => exact .of_same (execSetFeatures_same _ s t h)
  | getFeatures => exact .of_same (execGetFeatures_same _ s t h)
  | asyncEventRequest => exact .of_same (execAsyncEventRequest_same _ s t h)
  | keepAlive => exact .of_same (execKeepAlive_same _ s t h)
  | keepAliveExpire => exact .of_same (execKeepAliveExpire_same _ s t h)
  | fabricsConnect => exact .of_same (execFabricsConnect_same _ _ s t h)
  | propertyGet => exact .of_same (execPropertyGet_same _ s t h)
  | propertySetEnable => exact .of_same (execPropertySetEnable_same _ s t h)
  | propertySetReset => exact .of_same (execPropertySetReset_same _ s t h)
  | propertySetShutdown => exact .of_same (execPropertySetShutdown_same _ s t h)
  | fabricsDisconnect => exact .of_same (execFabricsDisconnect_same _ s t h)
  | authenticationSend => exact .of_same (execAuthenticationSend_same _ s t h)
  | authenticationReceive => exact .of_same (execAuthenticationReceive_same _ s t h)
  | thawQueue => exact .of_same (execThawQueue_same _ s t h)
  | dirtyCapWrite => exact .of_same (execDirtyCapWrite_same _ s t h)
  | createNamespace => exact .of_same (execCreateNamespace_same _ s t h)
  | deleteNamespace => exact .of_same (execDeleteNamespace_same _ s t h)
  | activationQuiesced => exact .of_same (execActivationQuiesced_same s t h)
  | activationAbandon => exact .of_same (execActivationAbandon_same s t h)
  | activationResume => exact .of_same (execActivationResume_same s t h)
  | layoutBuild => exact .of_same (execLayoutBuild_same _ s t h)
  | createVolume => exact .of_same (execCreateVolume_same _ s t h)
  | resizeVolume => exact .of_same (execResizeVolume_same _ s t h)
  | deleteVolume => exact .of_same (execDeleteVolume_same _ s t h)
  | destageStripeStart => exact .of_same (execDestageStripeStart_same _ _ _ _ s t h)
  | journalPageWrite => exact .of_same (execJournalPageWrite_same _ s t h)
  | recordOpen => exact .of_same (execRecordOpen_same _ s t h)
  | stripeDataLanded => exact .of_same (execStripeDataLanded_same _ s t h)
  | stripeParityLanded => exact .of_same (execStripeParityLanded_same _ s t h)
  | mapGenAdvance => exact .of_same (execMapGenAdvance_same s t h)
  | driveCompletion => exact .of_same (execDriveCompletion_same _ _ s t h)
  | driveCmdTimeout => exact .of_same (execDriveCmdTimeout_same _ s t h)
  | driveCfs => exact .of_same (execDriveCfs_same _ s t h)
  | smartWarning => exact .of_same (execSmartWarning_same _ _ s t h)
  | linkHoldExpire => exact .of_same (execLinkHoldExpire_same _ s t h)
  | memberStateAck => exact .of_same (execMemberStateAck_same _ s t h)
  | memberRestore => exact .of_same (execMemberRestore_same _ _ s t h)
  | rebuildExtentStart => exact .of_same (execRebuildExtentStart_same _ _ s t h)
  | rebuildExtentDone => exact .of_same (execRebuildExtentDone_same _ s t h)
  | hedgeTimerExpire => exact .of_same (execHedgeTimerExpire_same _ s t h)
  | suspectScrubStripe => exact .of_same (execSuspectScrubStripe_same _ _ _ _ s t h)
  | startScrubPass => exact .of_same (execStartScrubPass_same _ s t h)
  | stopScrubPass => exact .of_same (execStopScrubPass_same _ s t h)
  | scrubStripe => exact .of_same (execScrubStripe_same _ _ _ _ s t h)
  | scrubPassDone => exact .of_same (execScrubPassDone_same s t h)
  | addMember => exact .of_same (execAddMember_same _ _ _ s t h)
  | returnMember => exact .of_same (execReturnMember_same _ s t h)
  | drainMember => exact .of_same (execDrainMember_same _ s t h)
  | drainComplete => exact .of_same (execDrainComplete_same _ s t h)
  | copybackDone => exact .of_same (execCopybackDone_same _ _ s t h)
  | removeMember => exact .of_same (execRemoveMember_same _ s t h)
  | drivePortEnable => exact .of_same (execDrivePortEnable_same _ _ s t h)
  | driveLinkUp => exact .of_same (execDriveLinkUp_same _ _ _ _ _ s t h)
  | driveLinkDown => exact .of_same (execDriveLinkDown_same _ _ s t h)
  | driveAer => exact .of_same (execDriveAer_same _ _ _ s t h)
  | driveMiEvent => exact .of_same (execDriveMiEvent_same _ _ s t h)
  | presenceChange => exact .of_same (execPresenceChange_same _ _ s t h)
  | i3cIbi => exact .of_same (execI3cIbi_same _ _ _ s t h)
  | i3cNack => exact .of_same (execI3cNack_same _ _ s t h)
  | slotConfigure => exact .of_same (execSlotConfigure_same _ s t h)
  | slotLocate => exact .of_same (execSlotLocate_same _ s t h)
  | slotEnable => exact .of_same (execSlotEnable_same _ s t h)
  | slotDisable => exact .of_same (execSlotDisable_same _ s t h)
  | slotShutdownDone => exact .of_same (execSlotShutdownDone_same _ _ s t h)
  | slotGateOff => exact .of_same (execSlotGateOff_same _ s t h)
  | slotClearTrip => exact .of_same (execSlotClearTrip_same _ s t h)
  | rampThresholdReached => exact .of_same (execRampThresholdReached_same _ _ s t h)
  | pgAssert => exact .of_same (execPgAssert_same _ _ s t h)
  | pgLoss => exact .of_same (execPgLoss_same _ _ s t h)
  | faultTimerStart => exact .of_same (execFaultTimerStart_same _ _ s t h)
  | faultTimerStop => exact .of_same (execFaultTimerStop_same _ _ s t h)
  | faultTimerExpire => exact .of_same (execFaultTimerExpire_same _ _ s t h)
  | fastTrip => exact .of_same (execFastTrip_same _ _ s t h)
  | rampTmoExpire => exact .of_same (execRampTmoExpire_same _ s t h)
  | coolDownEnd => exact .of_same (execCoolDownEnd_same _ s t h)
  | fetShort => exact .of_same (execFetShort_same _ _ s t h)
  | retriesClear => exact .of_same (execRetriesClear_same _ s t h)
  | perstDlyExpire => exact .of_same (execPerstDlyExpire_same _ s t h)
  | peerPgReport => exact .of_same (execPeerPgReport_same _ s t h)
  | harnessEnable => exact .of_same (execHarnessEnable_same _ s t h)
  | harnessLinkUp => exact .of_same (execHarnessLinkUp_same _ s t h)
  | harnessLaneFault => exact .of_same (execHarnessLaneFault_same _ s t h)
  | harnessLinkDown => exact .of_same (execHarnessLinkDown_same s t h)
  | flitBadRx => exact .of_same (execFlitBadRx_same _ s t h)
  | linkFlitRx => exact .of_same (execLinkFlitRx_same _ _ _ s t h)
  | crosspostRx => exact .of_same (execCrosspostRx_same _ _ _ s t h)
  | orderRx => exact .of_same (execOrderRx_same _ s t h)
  | mirrorAckRx => exact .of_same (execMirrorAckRx_same _ _ s t h)
  | saddlebagRx => exact .of_same (execSaddlebagRx_same _ _ _ _ _ _ _ _ _ _ _ s t h)
  | digestRx => exact .of_same (execDigestRx_same _ s t h)
  | heartbeatRx => exact .of_same (execHeartbeatRx_same _ s t h)
  | heartbeatSend => exact .of_same (execHeartbeatSend_same s t h)
  | stateRx => exact .of_same (execStateRx_same _ s t h)
  | controlRx => exact .of_same (execControlRx_same _ s t h)
  | tlagDrop => exact .of_same (execTlagDrop_same _ s t h)
  | digestWindowCompare => exact .of_same (execDigestWindowCompare_same s t h)
  | digWaitExpire => exact .of_same (execDigWaitExpire_same s t h)
  | selfCheckVerdict => exact .of_same (execSelfCheckVerdict_same _ _ s t h)
  | silenceDeclare => exact .of_same (execSilenceDeclare_same s t h)
  | arbitrationStart => exact .of_same (execArbitrationStart_same s t h)
  | cinchMemberResult => exact .of_same (execCinchMemberResult_same _ _ s t h)
  | arbCmdTmoExpire => exact .of_same (execArbCmdTmoExpire_same _ s t h)
  | arbitrationDecided => exact .of_same (execArbitrationDecided_same s t h)
  | arbRetryExpire => exact .of_same (execArbRetryExpire_same s t h)
  | claimRoundDone => exact .of_same (execClaimRoundDone_same s t h)
  | claimLost => exact .of_same (execClaimLost_same _ s t h)
  | claimLinkWaitExpire => exact .of_same (execClaimLinkWaitExpire_same s t h)
  | hrnClaimWrite => exact .of_same (execHrnClaimWrite_same _ s t h)
  | pair => exact .of_same (execPair_same _ s t h)
  | joinCutover => exact .of_same (execJoinCutover_same s t h)
  | roleSwap => exact .of_same (execRoleSwap_same _ s t h)
  | swapQuiesced => exact .of_same (execSwapQuiesced_same s t h)
  | handover => exact .of_stores rfl (execHandover_same s t h)
  | leavePair => exact .of_same (execLeavePair_same _ s t h)
  | setEgressPolicy => exact .of_same (execSetEgressPolicy_same _ s t h)
  | holdSlotGrant => exact .of_same (execHoldSlotGrant_same s t h)
  | rotateDataKey => exact .of_same (execRotateDataKey_same _ s t h)
  | resealExtent => exact .of_same (execResealExtent_same _ _ _ s t h)
  | resealDone => exact .of_same (execResealDone_same _ s t h)
  | importDataKey => exact .of_same (execImportDataKey_same _ _ s t h)
  | destroyDataKey => exact .of_same (execDestroyDataKey_same _ s t h)
  | enrolAdministrator => exact .of_same (execEnrolAdministrator_same _ s t h)
  | revokeAdministrator => exact .of_same (execRevokeAdministrator_same _ s t h)
  | setRetention => exact .of_same (execSetRetention_same _ s t h)
  | loadFirmwareImage => exact .of_same (execLoadFirmwareImage_same _ _ s t h)
  | activateFirmware => exact .of_same (execActivateFirmware_same _ _ s t h)
  | soakComplete => exact .of_same (execSoakComplete_same s t h)
  | securityRecordWritten => exact .of_stores rfl (execSecurityRecordWritten_same _ s t h)
  | drbgReseed => exact .of_same (execDrbgReseed_same s t h)
  | secSramEcc => exact .of_same (execSecSramEcc_same s t h)
  | spdmGetVersion => exact .of_same (execSpdmGetVersion_same s t h)
  | spdmGetCapabilities => exact .of_same (execSpdmGetCapabilities_same s t h)
  | spdmNegotiateAlgorithms => exact .of_same (execSpdmNegotiateAlgorithms_same s t h)
  | spdmGetDigests => exact .of_same (execSpdmGetDigests_same s t h)
  | spdmGetCertificate => exact .of_same (execSpdmGetCertificate_same _ _ _ s t h)
  | spdmChallenge => exact .of_same (execSpdmChallenge_same _ s t h)
  | spdmGetMeasurements => exact .of_same (execSpdmGetMeasurements_same _ _ s t h)
  | powerReqRun => exact .of_stores rfl (execPowerReqRun_same s t h)
  | powerReqSleep => exact .of_stores rfl (execPowerReqSleep_same s t h)
  | powerReqDeep => exact .of_stores rfl (execPowerReqDeep_same s t h)
  | domainSwitchOff => exact .of_same (execDomainSwitchOff_same _ s t h)
  | vinWarnAssert => exact .of_stores rfl (execVinWarnAssert_same _ _ s t h)
  | drainPeerCheck => exact .of_same (execDrainPeerCheck_same s t h)
  | drainDestageDone => exact .of_same (execDrainDestageDone_same s t h)
  | drainDone => exact .of_stores rfl (execDrainDone_same s t h)
  | vinWarnRelease => exact .of_stores rfl (execVinWarnRelease_same s t h)
  | vinDrop => exact .of_stores rfl (execVinDrop_same s t h)
  | powerUp => exact .of_stores rfl (execPowerUp_same s t h)
  | railFault => exact .of_same (execRailFault_same _ _ s t h)
  | xaTrip => exact .of_same (execXaTrip_same _ _ s t h)
  | xbTrip => exact .of_same (execXbTrip_same _ _ s t h)
  | fioTrip => exact .of_same (execFioTrip_same _ _ s t h)
  | pllUnlock => exact .of_same (execPllUnlock_same _ s t h)
  | pll6Relock => exact .of_same (execPll6Relock_same s t h)
  | fioReady => exact .of_same (execFioReady_same s t h)
  | fioStartTimeout => exact .of_same (execFioStartTimeout_same s t h)
  | xtalTmoExpire => exact .of_same (execXtalTmoExpire_same _ s t h)
  | clockGate => exact .of_same (execClockGate_same _ s t h)
  | resetPin => exact .of_stores rfl (execResetPin_same s t h)
  | resetRelease => exact .of_same (execResetRelease_same s t h)
  | testReset => exact .of_same (execTestReset_same s t h)
  | powerUpReplay => exact .of_same (execPowerUpReplay_same _ _ _ _ s t h)
  | ioReady => exact .of_same (execIoReady_same s t h)
  | readCounters => exact .of_same (execReadCounters_same _ _ s t h)
  | configureWindow => exact .of_same (execConfigureWindow_same _ s t h)
  | windowClose => exact .of_same (execWindowClose_same _ s t h)
  | configureSampling => exact .of_same (execConfigureSampling_same _ s t h)
  | telWinHeadWrite => exact .of_same (execTelWinHeadWrite_same _ _ s t h)
  | telSmpHeadWrite => exact .of_same (execTelSmpHeadWrite_same _ s t h)
  | telRingFault => exact .of_same (execTelRingFault_same _ s t h)
  | thermalWarn => exact .of_same (execThermalWarn_same _ _ _ s t h)
  | thermalTrip => exact .of_same (execThermalTrip_same _ _ s t h)
  | thermalResetStart => exact .of_stores rfl (execThermalResetStart_same s t h)
  | cqGatherExpire => exact .of_same (execCqGatherExpire_same _ s t h)
  | joinHolderLost => exact .of_same (execJoinHolderLost_same s t h)
  | resetNRelease => exact .of_same (execResetNRelease_same s t h)
  | startupPllLock => exact .of_same (execStartupPllLock_same s t h)
  | recordBankErased => exact .of_same (execRecordBankErased_same s t h)
  | contextWritebackDone => exact .of_same (execContextWritebackDone_same _ s t h)

/-! ### The two cases of the queue -/

theorem step_of_pending_cons {c : Instr} {cs : List Instr} {s : State} (h : s.pending = c :: cs) :
    step s = exec c { s with pending := cs } := by
  rw [step, h]

/-- The idle tick is the model's choice (log entry 1). -/
theorem step_of_pending_nil {s : State} (h : s.pending = []) : step s = .next s.tick := by
  rw [step, h]

/-! ### The obligations -/

/-- Settles O4: a command's meaning answers a next state, and its frame keeps the queue. -/
theorem commandsLeaveTheQueueToTheStep : Obligations.CommandsLeaveTheQueueToTheStep := by
  intro c s
  obtain ⟨t, ht⟩ := exec_answers_next c s
  exact ⟨t, ht, (exec_frame ht).pending⟩

/-- Settles O1, by the two cases of the queue. -/
theorem stepRunsTheFrontCommand : Obligations.StepRunsTheFrontCommand :=
  ⟨fun _ _ _ => step_of_pending_cons, fun _ => step_of_pending_nil⟩

end Sys2Proof.Machine
end

section
/-! Proofs of the reads of family 01 (R15, R201, R205, R282): what a read finds for each of its blocks, and which blocks ask
the drives. -/
namespace Sys2Proof.Machine

/-! ### The blocks of a read -/

/-- A block that reads as zeros. -/
def zeroRdBlk (lba : Nat) : RdBlk := { lba := lba, st := .plain (List.replicate 4096 0) }

@[simp] theorem zeroRdBlk_st_ne_wait (lba : Nat) : (zeroRdBlk lba).st ≠ .wait := RdSt.noConfusion

@[simp] theorem zeroRdBlk_buffered (lba : Nat) : (zeroRdBlk lba).buffered = false := rfl

/-- What a read finds for block `lba` of namespace `n` on volume `v`: its sealed bytes in the buffer, or a wait for the drives,
or the zeros of an unallocated extent. -/
def State.readBlk (s : State) (n v lba : Nat) : RdBlk :=
  match s.bufferedBlock n lba with
  | some b => { lba := lba, st := .held b.blk, buffered := true }
  | none =>
    if (s.mapEnt v (lba / 4096)).alloc then { lba := lba, st := .wait }
    else zeroRdBlk lba

theorem State.readBlk_of_buffered {s : State} {n lba : Nat} {b : BufBlk} (v : Nat) (hb : s.bufferedBlock n lba = some b) :
    s.readBlk n v lba = { lba := lba, st := .held b.blk, buffered := true } := by
  rw [State.readBlk, hb]

theorem State.readBlk_of_allocated {s : State} {n v lba : Nat} (hb : s.bufferedBlock n lba = none)
    (ha : (s.mapEnt v (lba / 4096)).alloc = true) : s.readBlk n v lba = { lba := lba, st := .wait } := by
  rw [State.readBlk, hb]
  exact if_pos ha

theorem State.readBlk_of_unallocated {s : State} {n v lba : Nat} (hb : s.bufferedBlock n lba = none)
    (ha : (s.mapEnt v (lba / 4096)).alloc = false) : s.readBlk n v lba = zeroRdBlk lba := by
  rw [State.readBlk, hb]
  exact if_neg (ne_true_of_eq_false ha)

/-- What a read command finds for all its blocks, in order. -/
def State.readBlks (s : State) (c : Cmd) : List RdBlk :=
  (List.range c.entry.nlb).map fun i => s.readBlk c.entry.nsid (s.ns c.entry.nsid).volume (c.entry.slba + i)

theorem State.readBlks_of_one {s : State} {c : Cmd} (h : c.entry.nlb = 1) :
    s.readBlks c = [s.readBlk c.entry.nsid (s.ns c.entry.nsid).volume c.entry.slba] := by
  simp [State.readBlks, h]

/-- A read that meets neither buffered nor allocated blocks finds zeros alone. -/
theorem State.readBlks_of_unallocated {s : State} {c : Cmd}
    (h : ∀ i < c.entry.nlb, s.bufferedBlock c.entry.nsid (c.entry.slba + i) = none ∧
      (s.mapEnt (s.ns c.entry.nsid).volume ((c.entry.slba + i) / 4096)).alloc = false) :
    s.readBlks c = (List.range c.entry.nlb).map fun i => zeroRdBlk (c.entry.slba + i) := by
  refine List.map_congr_left fun i hi => ?_
  obtain ⟨hb, ha⟩ := h i (List.mem_range.mp hi)
  exact State.readBlk_of_unallocated hb ha

/-! ### The blocks that ask the drives -/

/-- Each block that waits asks for its holding slot, in order. -/
def State.askWaiting (s : State) (t : Nat) (bs : List RdBlk) : State :=
  (List.range bs.length).foldl (fun s i =>
    match (bs.getD i { lba := 0, st := .wait }).st with
    | .wait => s.askBlock t i
    | _ => s) s

/-- A read none of whose blocks waits asks no drive. -/
theorem State.askWaiting_of_none {t : Nat} {bs : List RdBlk} (s : State) (h : ∀ b ∈ bs, b.st ≠ .wait) :
    s.askWaiting t bs = s := by
  refine (List.foldl_ext _ (fun s _ => s) s fun u i hi => ?_).trans (List.foldl_fixed _)
  have hi' : i < bs.length := List.mem_range.mp hi
  have hw : (bs.getD i { lba := 0, st := .wait }).st ≠ .wait := by
    rw [List.getD_eq_getElem _ _ hi']
    exact h _ (List.getElem_mem hi')
  split
  · next he => exact absurd he hw
  · rfl

theorem State.askWaiting_of_one (s : State) (t : Nat) {b : RdBlk} (h : b.st = .wait) : s.askWaiting t [b] = s.askBlock t 0 := by
  simp [State.askWaiting, h]

/-! ### Started reads -/

/-- Whether a read waits on a follower: its connection is a LEAD one, or the follower has not joined (log entry 28). -/
def State.readWaits (s : State) (c : Cmd) : Bool := s.follows && (!(s.conn c.conn).tandem || s.hrn.role = .joining)

theorem State.readWaits_iff {s : State} {c : Cmd} :
    s.readWaits c = true ↔ s.follows = true ∧ ((s.conn c.conn).tandem = false ∨ s.hrn.role = .joining) := by
  simp [State.readWaits]

theorem State.readWaits_eq_false_iff {s : State} {c : Cmd} :
    s.readWaits c = false ↔ s.follows = false ∨ ((s.conn c.conn).tandem = true ∧ s.hrn.role ≠ .joining) := by
  cases hf : s.follows <;> simp [State.readWaits, hf]

theorem exec_nvmeRead_waits {s : State} {t : Nat} {c : Cmd} (hc : s.ready t false 0x02 = some c) (hw : s.readWaits c = true) :
    exec (.nvmeRead t) s = .next (s.updCmd t fun c' => { c' with phase := .waiting }) := by
  change execNvmeRead t s = _
  unfold execNvmeRead
  rw [hc]
  exact congrArg _ (if_pos hw)

theorem exec_nvmeRead_lost {s : State} {t : Nat} {c : Cmd} (hc : s.ready t false 0x02 = some c) (hw : s.readWaits c = false)
    (hl : s.lostIn (s.ns c.entry.nsid).volume c.entry.slba c.entry.nlb = true) :
    exec (.nvmeRead t) s = .next (s.finish t 2 0x81 true) := by
  change execNvmeRead t s = _
  unfold execNvmeRead
  rw [hc]
  exact congrArg _ ((if_neg (ne_true_of_eq_false hw)).trans (if_pos hl))

section StartedRead
variable {s : State} {t : Nat} {c : Cmd} (hc : s.ready t false 0x02 = some c) (hw : s.readWaits c = false)
  (hl : s.lostIn (s.ns c.entry.nsid).volume c.entry.slba c.entry.nlb = false)
include hc hw hl

/-- A read that neither waits nor meets a lost block keeps what it finds for its blocks, and asks the drives for the rest. -/
theorem exec_nvmeRead_started :
    exec (.nvmeRead t) s = .next ((s.updCmd t fun c' =>
      { c' with phase := .reading, blocks := s.readBlks c, fromBuffer := (s.readBlks c).any fun b => b.buffered }).askWaiting t
        (s.readBlks c)) := by
  change execNvmeRead t s = _
  unfold execNvmeRead
  rw [hc]
  exact congrArg _ ((if_neg (ne_true_of_eq_false hw)).trans (if_neg (ne_true_of_eq_false hl)))

/-- A started read none of whose blocks waits asks no drive. -/
theorem exec_nvmeRead_of_none_waiting {bs : List RdBlk} {k : Bool} (hbs : s.readBlks c = bs) (hn : ∀ b ∈ bs, b.st ≠ .wait)
    (hk : (bs.any fun b => b.buffered) = k) :
    exec (.nvmeRead t) s = .next (s.updCmd t fun c' => { c' with phase := .reading, blocks := bs, fromBuffer := k }) := by
  rw [exec_nvmeRead_started hc hw hl, hbs, hk, State.askWaiting_of_none _ hn]

theorem exec_nvmeRead_unallocated
    (h : ∀ i < c.entry.nlb, s.bufferedBlock c.entry.nsid (c.entry.slba + i) = none ∧
      (s.mapEnt (s.ns c.entry.nsid).volume ((c.entry.slba + i) / 4096)).alloc = false) :
    exec (.nvmeRead t) s = .next (s.updCmd t fun c' =>
      { c' with
        phase := .reading
        blocks := (List.range c.entry.nlb).map fun i => zeroRdBlk (c.entry.slba + i)
        fromBuffer := false }) :=
  exec_nvmeRead_of_none_waiting hc hw hl (State.readBlks_of_unallocated h) (by simp) (by simp)

theorem exec_nvmeRead_one_buffered {b : BufBlk} (h1 : c.entry.nlb = 1)
    (hb : s.bufferedBlock c.entry.nsid c.entry.slba = some b) :
    exec (.nvmeRead t) s = .next (s.updCmd t fun c' =>
      { c' with
        phase := .reading
        blocks := [{ lba := c.entry.slba, st := .held b.blk, buffered := true }]
        fromBuffer := true }) :=
  exec_nvmeRead_of_none_waiting hc hw hl ((State.readBlks_of_one h1).trans (by rw [State.readBlk_of_buffered _ hb])) (by simp) rfl

theorem exec_nvmeRead_one_on_drives (h1 : c.entry.nlb = 1) (hb : s.bufferedBlock c.entry.nsid c.entry.slba = none)
    (ha : (s.mapEnt (s.ns c.entry.nsid).volume (c.entry.slba / 4096)).alloc = true) :
    exec (.nvmeRead t) s = .next ((s.updCmd t fun c' =>
      { c' with phase := .reading, blocks := [{ lba := c.entry.slba, st := .wait }], fromBuffer := false }).askBlock t 0) := by
  rw [exec_nvmeRead_started hc hw hl, State.readBlks_of_one h1, State.readBlk_of_allocated hb ha, State.askWaiting_of_one _ t rfl]
  rfl

end StartedRead

/-! ### Holding slots -/

theorem State.askBlock_of_free {s : State} (t i : Nat) (hf : 0 < s.slotsHeldFree) :
    s.askBlock t i = (s.takeHold.updBlk t i fun b => { b with slot := true }).startBlock t i := if_pos hf

theorem State.askBlock_of_full_raised {s : State} (t i : Nat) (hf : s.slotsHeldFree = 0) (hr : s.cph.waitRaised = true) :
    s.askBlock t i = { s with cph.waiting := s.cph.waiting ++ [(t, i)] } := by
  simp [State.askBlock, hf, hr]

theorem State.askBlock_of_full_first {s : State} (t i : Nat) (hf : s.slotsHeldFree = 0) (hr : s.cph.waitRaised = false) :
    s.askBlock t i = ({ s with cph.waiting := s.cph.waiting ++ [(t, i)], cph.waitRaised := true } : State).raise Ev.CPH_HOLD_WAIT := by
  simp [State.askBlock, hf, hr]

/-- A block that asks takes a free slot, or waits behind the others where the wait has been raised. -/
theorem State.askBlock_eq {s : State} (t i : Nat) (h : 0 < s.slotsHeldFree ∨ (s.slotsHeldFree = 0 ∧ s.cph.waitRaised = true)) :
    s.askBlock t i = if 0 < s.slotsHeldFree then (s.takeHold.updBlk t i fun b => { b with slot := true }).startBlock t i else
      { s with cph.waiting := s.cph.waiting ++ [(t, i)] } := by
  rcases h with hf | ⟨hf, hr⟩
  · rw [State.askBlock_of_free t i hf, if_pos hf]
  · rw [State.askBlock_of_full_raised t i hf hr, if_neg hf.not_gt]

theorem exec_holdSlotGrant {s : State} {t i : Nat} {ws : List (Nat × Nat)} (hw : s.cph.waiting = (t, i) :: ws)
    (hf : 0 < s.slotsHeldFree) :
    exec .holdSlotGrant s =
      .next ((({ s with cph.waiting := ws } : State).takeHold.updBlk t i fun b => { b with slot := true }).startBlock t i) := by
  change execHoldSlotGrant s = _
  unfold execHoldSlotGrant
  rw [hw]
  exact congrArg _ (if_pos hf)

/-- Settles O36: each clause is the case of NVME_READ, of a block that asks, or of HOLD_SLOT_GRANT that its hypotheses select. -/
theorem readsComeFromBufferZerosOrDrives : Obligations.ReadsComeFromBufferZerosOrDrives := by
  refine ⟨?waits, ?lost, ?zeros, ?buffered, ?drives, fun s t i h => State.askBlock_eq t i h,
    fun s t i h => State.askBlock_of_full_first t i h.1 h.2, fun s t i ws h => exec_holdSlotGrant h.1 h.2⟩
  case waits =>
    intro s t c h
    obtain ⟨hc, hw⟩ := h
    exact exec_nvmeRead_waits hc (State.readWaits_iff.mpr hw)
  case lost =>
    intro s t c h
    obtain ⟨hc, hw, hl⟩ := h
    exact exec_nvmeRead_lost hc (State.readWaits_eq_false_iff.mpr hw) hl
  case zeros =>
    intro s t c h
    obtain ⟨hc, hw, hl, hz⟩ := h
    exact exec_nvmeRead_unallocated hc (State.readWaits_eq_false_iff.mpr hw) hl hz
  case buffered =>
    intro s t c b h
    obtain ⟨hc, hw, hl, h1, hb⟩ := h
    exact exec_nvmeRead_one_buffered hc (State.readWaits_eq_false_iff.mpr hw) hl h1 hb
  case drives =>
    intro s t c h
    obtain ⟨hc, hw, hl, h1, hb, ha⟩ := h
    exact exec_nvmeRead_one_on_drives hc (State.readWaits_eq_false_iff.mpr hw) hl h1 hb ha

end Sys2Proof.Machine
end

section
/-! Proofs of the writes of family 01 (R16, R17, R155, R158, R161, R176, R274): admission, held commands, zeroing by extents,
Dataset Management, Flush and the dirty cap. -/
namespace Sys2Proof.Machine

/-! ### Writes -/

theorem exec_nvmeWrite_of_ready {s : State} {t : Nat} {c : Cmd} (hc : s.ready t false 0x01 = some c) (h : Bool) :
    exec (.nvmeWrite t h) s = .next (s.writeCmd t c h) := by
  change execNvmeWrite t h s = _
  rw [execNvmeWrite, hc]

theorem State.writeCmd_of_full {s u : State} {c : Cmd}
    (ha : s.allocRange (s.ns c.entry.nsid).volume c.entry.slba c.entry.nlb = (u, false)) (t : Nat) (h : Bool) :
    s.writeCmd t c h = (u.raise Ev.CMD_CAPACITY [c.entry.nsid]).finish t 0 0x81 true := by
  rw [State.writeCmd, ha]
  rfl

theorem State.writeCmd_of_allocated {s u : State} {c : Cmd}
    (ha : s.allocRange (s.ns c.entry.nsid).volume c.entry.slba c.entry.nlb = (u, true)) (t : Nat) (h : Bool) :
    s.writeCmd t c h = u.admitWrite t c h := by
  rw [State.writeCmd, ha]
  rfl

theorem State.admitWrite_fetches {u : State} {c : Cmd} (hr : u.room c.entry.nlb = true) (hb : u.heldBefore c.uid = false)
    (hm : u.mayEncrypt = true) (t : Nat) : u.admitWrite t c true = u.fetchData t c := by
  simp [State.admitWrite, hr, hb, hm]

/-- Without mirror headroom or a saved nonce counter a write is held, but not for dirty room. -/
theorem State.admitWrite_holds {u : State} {c : Cmd} {h : Bool} (hr : u.room c.entry.nlb = true)
    (hb : u.heldBefore c.uid = false) (hm : h = false ∨ u.mayEncrypt = false) (t : Nat) :
    u.admitWrite t c h = u.holdWrite t false := by
  rcases hm with hm | hm <;> simp [State.admitWrite, hr, hb, hm]

/-- Without dirty room, or behind an older held write, a write is held for dirty room. -/
theorem State.admitWrite_holds_dirty {u : State} {c : Cmd} (hr : u.room c.entry.nlb = false ∨ u.heldBefore c.uid = true)
    (t : Nat) (h : Bool) : u.admitWrite t c h = u.holdWrite t true := by
  rcases hr with hr | hr <;> simp [State.admitWrite, hr]

/-! ### Held commands -/

section HeldCommand
variable {s : State} {t : Nat} {c : Cmd} (hc : s.cmd t = some c) (hp : c.phase = .held) (hb : s.heldBefore c.uid = false)
include hc hp hb

/-- A held command whose turn has come is a write with its room, a write without, or a zeroing command. -/
theorem exec_writeDataFetch_in_turn :
    exec (.writeDataFetch t) s = .next (
      if c.entry.opcode = 0x01 then
        if s.room c.entry.nlb && s.mayEncrypt then (s.fetchData t c).noteHeld.resumeFetch else s
      else (s.zeroPieces t c c.dealloc c.ranges).resumeFetch) := by
  change execWriteDataFetch t s = _
  rw [execWriteDataFetch, hc]
  exact congrArg _ (if_neg (by simp [hp, hb]))

theorem exec_writeDataFetch_fetches (ho : c.entry.opcode = 0x01) (hr : s.room c.entry.nlb = true) (hm : s.mayEncrypt = true) :
    exec (.writeDataFetch t) s = .next (s.fetchData t c).noteHeld.resumeFetch := by
  simp [exec_writeDataFetch_in_turn hc hp hb, ho, hr, hm]

theorem exec_writeDataFetch_keeps (ho : c.entry.opcode = 0x01) (h : s.room c.entry.nlb = false ∨ s.mayEncrypt = false) :
    exec (.writeDataFetch t) s = .next s := by
  rcases h with h | h <;> simp [exec_writeDataFetch_in_turn hc hp hb, ho, h]

theorem exec_writeDataFetch_zeroes (ho : c.entry.opcode ≠ 0x01) :
    exec (.writeDataFetch t) s = .next (s.zeroPieces t c c.dealloc c.ranges).resumeFetch := by
  rw [exec_writeDataFetch_in_turn hc hp hb, if_neg ho]

end HeldCommand

/-! ### Zeroing by pieces -/

theorem exec_nvmeWriteZeroes_of_ready {s : State} {t : Nat} {c : Cmd} (hc : s.ready t false 0x08 = some c) :
    exec (.nvmeWriteZeroes t) s = .next (s.zeroPieces t c c.dealloc (cutRange 18 c.entry.slba c.entry.nlb)) := by
  change execNvmeWriteZeroes t s = _
  rw [execNvmeWriteZeroes, hc]

section Piece
variable {s u : State} {lba n : Nat} {c : Cmd} {d : Bool} (hu : u = s.clearLost (s.ns c.entry.nsid).volume lba n)
include hu

theorem State.zeroPieces_of_unallocated (ha : (u.mapEnt (s.ns c.entry.nsid).volume (lba / 4096)).alloc = false) (t : Nat)
    (rs : List (Nat × Nat)) : s.zeroPieces t c d ((lba, n) :: rs) = u.zeroPieces t c d rs := by
  simp [State.zeroPieces, ← hu, ha]

theorem State.zeroPieces_of_whole_extent (ha : (u.mapEnt (s.ns c.entry.nsid).volume (lba / 4096)).alloc = true)
    (hd : d = true) (hn : n = 4096) (t : Nat) (rs : List (Nat × Nat)) :
    s.zeroPieces t c d ((lba, n) :: rs) = (u.freeExtent (s.ns c.entry.nsid).volume (lba / 4096)).zeroPieces t c d rs := by
  subst hd hn
  simp [State.zeroPieces, ← hu, ha]

theorem State.zeroPieces_of_room (ha : (u.mapEnt (s.ns c.entry.nsid).volume (lba / 4096)).alloc = true)
    (hd : d = false ∨ n ≠ 4096) (hr : u.room n = true) (t : Nat) (rs : List (Nat × Nat)) :
    s.zeroPieces t c d ((lba, n) :: rs) = (u.bufferZeros t c.entry.nsid (s.ns c.entry.nsid).volume lba n
      (!(u.conn c.conn).freeze)).zeroPieces t c d rs := by
  rcases hd with hd | hd <;> simp [State.zeroPieces, ← hu, ha, hd, hr]

theorem State.zeroPieces_of_no_room (ha : (u.mapEnt (s.ns c.entry.nsid).volume (lba / 4096)).alloc = true)
    (hd : d = false ∨ n ≠ 4096) (hr : u.room n = false) (t : Nat) (rs : List (Nat × Nat)) :
    s.zeroPieces t c d ((lba, n) :: rs) = (u.updCmd t fun c' => { c' with ranges := (lba, n) :: rs }).holdWrite t true := by
  rcases hd with hd | hd <;> simp [State.zeroPieces, ← hu, ha, hd, hr]

end Piece

/-! ### Dataset Management (log entry 126) -/

/-- The ranges that a Dataset Management command names in its data: as many as NR of its command says. -/
def Cmd.dsmRanges (c : Cmd) (ws : List (Nat × Nat)) : List (Nat × Nat) := ws.take (c.entry.cdw10 % 256 + 1)

/-- The pieces that a Dataset Management command keeps of its ranges: none without AD. -/
def Cmd.dsmPieces (c : Cmd) (ws : List (Nat × Nat)) : List (Nat × Nat) :=
  if c.dealloc then (c.dsmRanges ws).flatMap fun r => cutRange (r.2 / 4096 + 2) r.1 r.2 else []

section DatasetManagement
variable {s : State} {t : Nat} {c : Cmd} {ws : List (Nat × Nat)} (hc : s.ready t false 0x09 = some c)
include hc

theorem exec_nvmeDatasetManagement_pastEnd
    (he : ((c.dsmRanges ws).any fun r => decide ((s.ns c.entry.nsid).nsze < r.1 + r.2)) = true) :
    exec (.nvmeDatasetManagement t ws) s = .next (s.finish t 0 0x80 true) := by
  change execNvmeDatasetManagement t ws s = _
  rw [execNvmeDatasetManagement, hc]
  exact congrArg _ (if_pos he)

variable (he : ((c.dsmRanges ws).any fun r => decide ((s.ns c.entry.nsid).nsze < r.1 + r.2)) = false)
include he

theorem exec_nvmeDatasetManagement_locked
    (hl : (c.dealloc && (c.dsmRanges ws).any fun r => s.locked c.entry.nsid r.1 r.2) = true) :
    exec (.nvmeDatasetManagement t ws) s = .next (s.finish t 7 0x82 true) := by
  change execNvmeDatasetManagement t ws s = _
  rw [execNvmeDatasetManagement, hc]
  exact congrArg _ ((if_neg (ne_true_of_eq_false he)).trans (if_pos hl))

variable (hl : (c.dealloc && (c.dsmRanges ws).any fun r => s.locked c.entry.nsid r.1 r.2) = false)
include hl

theorem exec_nvmeDatasetManagement_lostPart
    (hp : (c.dealloc && (c.dsmRanges ws).any fun r => s.lostPart (s.ns c.entry.nsid).volume r.1 r.2) = true) :
    exec (.nvmeDatasetManagement t ws) s = .next (s.finish t 7 0x81 true) := by
  change execNvmeDatasetManagement t ws s = _
  rw [execNvmeDatasetManagement, hc]
  exact congrArg _ ((if_neg (ne_true_of_eq_false he)).trans ((if_neg (ne_true_of_eq_false hl)).trans (if_pos hp)))

variable (hp : (c.dealloc && (c.dsmRanges ws).any fun r => s.lostPart (s.ns c.entry.nsid).volume r.1 r.2) = false)
include hp

/-- A command that passes its checks keeps its pieces and goes to its CAPSULE hook. -/
theorem exec_nvmeDatasetManagement_checked {u : State} (hu : u = s.updCmd t fun c' => { c' with ranges := c.dsmPieces ws }) :
    exec (.nvmeDatasetManagement t ws) s = .next (
      if u.hookOn 1 then (u.updCmd t fun c' => { c' with phase := .hook }).invokeHook 1 t
      else if u.hookRefuses 1 then u.finish t 0 0x82 true
      else u.deallocate t) := by
  subst hu
  change execNvmeDatasetManagement t ws s = _
  rw [execNvmeDatasetManagement, hc]
  exact congrArg _ ((if_neg (ne_true_of_eq_false he)).trans ((if_neg (ne_true_of_eq_false hl)).trans (if_neg (ne_true_of_eq_false hp))))

end DatasetManagement

/-! ### Flush and the cap -/

theorem exec_nvmeFlush_of_ready {s : State} {t : Nat} {c : Cmd} (hc : s.ready t false 0x00 = some c) :
    exec (.nvmeFlush t) s = .next ((s.updCmd t fun c' => { c' with phase := .waiting, bufs := s.coveredBy c }).wakeFlush) := by
  change execNvmeFlush t s = _
  rw [execNvmeFlush, hc]

theorem exec_dirtyCapWrite_taken {s : State} {v : Word} (hs : s.acceptsHolder true = true) (hv : getBits v 23 0 ≤ 31665) :
    exec (.dirtyCapWrite v) s = .next (if (s.setCap v).hasPeer then
      (s.setCap v).carryChange (.carriedReg Reg.CMD_DIRTY_CAP_DIRTY_CAP.addr v) else s.setCap v) :=
  congrArg _ (if_pos (by simp [hs, hv]))

theorem exec_dirtyCapWrite_discarded {s : State} {v : Word} (h : 31665 < getBits v 23 0 ∨ s.acceptsHolder true = false) :
    exec (.dirtyCapWrite v) s = .next s := by
  refine congrArg _ (if_neg ?_)
  rcases h with h | h <;> simp [h]

/-- Settles O37: each clause is the case of its command, or of one piece of a zeroing command, that its hypotheses select. -/
theorem writesAreAdmittedBufferedAndFlushed : Obligations.WritesAreAdmittedBufferedAndFlushed := by
  refine ⟨?full, ?allocated, ?held, fun s t c hc => exec_nvmeWriteZeroes_of_ready hc, ?piece, ?dsm,
    fun s t c hc => exec_nvmeFlush_of_ready hc, fun s v h => exec_dirtyCapWrite_taken h.1 h.2,
    fun s v h => exec_dirtyCapWrite_discarded h⟩
  case full =>
    intro s u t h c ⟨hc, ha⟩
    rw [exec_nvmeWrite_of_ready hc, State.writeCmd_of_full ha]
  case allocated =>
    intro s u t h c ⟨hc, ha⟩
    rw [exec_nvmeWrite_of_ready hc, State.writeCmd_of_allocated ha]
    refine ⟨?_, fun hr hb hm => ?_, fun hr => ?_⟩
    · rintro hr hb rfl hm
      rw [State.admitWrite_fetches hr hb hm]
    · rw [State.admitWrite_holds hr hb hm]
    · rw [State.admitWrite_holds_dirty hr]
  case held =>
    intro s t c ⟨hc, hp, hb⟩
    exact ⟨exec_writeDataFetch_fetches hc hp hb, exec_writeDataFetch_keeps hc hp hb, exec_writeDataFetch_zeroes hc hp hb⟩
  case piece =>
    intro s u t lba n c d rs hu
    exact ⟨fun ha => State.zeroPieces_of_unallocated hu ha t rs, fun ha =>
      ⟨fun hd hn => State.zeroPieces_of_whole_extent hu ha hd hn t rs, fun hd hr => State.zeroPieces_of_room hu ha hd hr t rs,
        fun hd hr => State.zeroPieces_of_no_room hu ha hd hr t rs⟩⟩
  case dsm =>
    intro s u t c ws rs ⟨hc, hrs, hu⟩
    subst hrs
    refine ⟨exec_nvmeDatasetManagement_pastEnd hc, fun he => ⟨exec_nvmeDatasetManagement_locked hc he, fun hl =>
      ⟨exec_nvmeDatasetManagement_lostPart hc he hl, fun hp => ?_⟩⟩⟩
    rw [exec_nvmeDatasetManagement_checked hc he hl hp hu]
    exact ⟨fun hk => by rw [if_pos hk], fun hk hf => by rw [if_neg (ne_true_of_eq_false hk), if_pos hf],
      fun hk hf => by rw [if_neg (ne_true_of_eq_false hk), if_neg (ne_true_of_eq_false hf)]⟩

end Sys2Proof.Machine
end

section
/-! Proofs of family 02: the operations that start a held command leave the timers as they are. -/
namespace Sys2Proof.Machine

/-! ### How a field passes through control structure -/

/-- A fold of a function that leaves a reading of the state as it is leaves it. -/
theorem State.foldl_keeps {α β : Type} (f : State → β) (g : State → α → State) (h : ∀ u a, f (g u a) = f u) (l : List α) (s : State) :
    f (l.foldl g s) = f s := by
  induction l generalizing s with
  | nil => rfl
  | cons a l ih => rw [List.foldl_cons, ih, h]

@[simp] theorem State.foldl_tim {α : Type} (g : State → α → State) (h : ∀ u a, (g u a).tim = u.tim) (l : List α) (s : State) :
    (l.foldl g s).tim = s.tim := State.foldl_keeps State.tim g h l s

@[simp] theorem State.tim_ite (c : Prop) [Decidable c] (a b : State) : (if c then a else b).tim = if c then a.tim else b.tim :=
  apply_ite State.tim c a b

/-! ### Connections and commands -/

@[simp] theorem State.setConn_tim (s : State) (n : Nat) (x : Conn) : (s.setConn n x).tim = s.tim := (rfl)
@[simp] theorem State.updConn_tim (s : State) (n : Nat) (f : Conn → Conn) : (s.updConn n f).tim = s.tim := (rfl)
@[simp] theorem State.setCtrl_tim (s : State) (k : Nat) (x : Ctrl) : (s.setCtrl k x).tim = s.tim := (rfl)
@[simp] theorem State.updCtrl_tim (s : State) (k : Nat) (f : Ctrl → Ctrl) : (s.updCtrl k f).tim = s.tim := (rfl)
@[simp] theorem State.updCmd_tim (s : State) (t : Nat) (f : Cmd → Cmd) : (s.updCmd t f).tim = s.tim := (rfl)
@[simp] theorem State.stamp_tim (s : State) (t k : Nat) : (s.stamp t k).tim = s.tim := (rfl)
@[simp] theorem State.dropTag_tim (s : State) (t : Nat) : (s.dropTag t).tim = s.tim := (rfl)
@[simp] theorem State.setPolicer_tim (s : State) (i : Nat) (p : Policer) : (s.setPolicer i p).tim = s.tim := (rfl)
@[simp] theorem State.setReseq_tim (s : State) (d : Bool) (c : Nat) (r : Reseq) : (s.setReseq d c r).tim = s.tim := by
  unfold State.setReseq; split <;> rfl
@[simp] theorem State.useCells_tim (s : State) (n : Nat) : (s.useCells n).tim = s.tim := by
  simp [State.useCells]
@[simp] theorem State.setRec_tim (s : State) (o r : Nat) : (s.setRec o r).tim = s.tim := (rfl)
@[simp] theorem State.armRetx_tim (s : State) (n : Nat) : (s.armRetx n).tim = s.tim := (rfl)
@[simp] theorem State.setSampling_tim (s : State) (x : Sampling) : (s.setSampling x).tim = s.tim := (rfl)
@[simp] theorem State.writeBib_tim (s : State) (c : Cmd) (q : Cqe) : (s.writeBib c q).tim = s.tim := by
  simp [State.writeBib]

/-! ### Packets -/

@[simp] theorem State.leadFrom_tim (s : State) (n : Nat) : (s.leadFrom n).tim = s.tim := by simp [State.leadFrom]

@[simp] theorem State.sendDigest_tim (s : State) (o : Option Nat) (n psn : Nat) (b : Body) : (s.sendDigest o n psn b).tim = s.tim := by
  cases o with
  | none => rfl
  | some o => exact State.sendTwin_tim s _

@[simp] theorem State.orderTx_tim (s : State) (f : Frame) : (s.orderTx f).1.tim = s.tim := by
  unfold State.orderTx
  split
  · rfl
  · split <;> simp

@[simp] theorem State.bufferFrame_tim (s : State) (f : Frame) : (s.bufferFrame f).tim = s.tim := by
  unfold State.bufferFrame; dsimp only; split <;> simp

@[simp] theorem State.launch_tim (s : State) (f : Frame) : (s.launch f).tim = s.tim := by simp [State.launch]

@[simp] theorem State.sendPkt_tim (s : State) (n : Nat) (b : Body) (psn : Nat) (x : Bool) (c : Colour) :
    (s.sendPkt n b psn x c).tim = s.tim := State.launch_tim s _

@[simp] theorem State.issueReq_tim (s : State) (n : Nat) (b : Body) (k : Nat) (c : Colour) : (s.issueReq n b k c).tim = s.tim := by
  simp [State.issueReq]

/-- A completion that leaves frees its tag; the timers stay. -/
@[simp] theorem State.cplLeft_tim (s : State) (n uid : Nat) (q : Cqe) : (s.cplLeft n uid q).tim = s.tim := by
  unfold State.cplLeft
  dsimp only
  split
  · simp
  · split <;> simp

@[simp] theorem State.packetLeft_tim (s : State) (n : Nat) (b : Body) : (s.packetLeft n b).tim = s.tim := by
  unfold State.packetLeft
  dsimp only
  split
  · split <;> simp
  all_goals simp

@[simp] theorem State.followTx_tim (s : State) (e : OrderEntry) (x psn esn : Nat) (b : Body) :
    (s.followTx e x psn esn b).tim = s.tim := by
  simp [State.followTx]

@[simp] theorem State.buildTx_tim (s : State) (e : OrderEntry) (b : Body) (again : Bool) : (s.buildTx e b again).tim = s.tim := by
  unfold State.buildTx; split <;> simp

@[simp] theorem State.matchTx_tim (s : State) (n : Nat) : (s.matchTx n).tim = s.tim := by
  unfold State.matchTx
  split
  · rfl
  · split <;> simp

@[simp] theorem State.await_tim (s : State) (n : Nat) (b : Body) : (s.await n b).tim = s.tim := by simp [State.await]

@[simp] theorem State.sendReq_tim (s : State) (n : Nat) (b : Body) (k : Nat) (c : Colour) : (s.sendReq n b k c).tim = s.tim := by
  simp [State.sendReq]

@[simp] theorem State.sendRead_tim (s : State) (n va key len : Nat) (use : ReadFor) : (s.sendRead n va key len use).tim = s.tim := by
  simp [State.sendRead]

@[simp] theorem State.fetchSq_tim (s : State) (n f : Nat) : (s.fetchSq n f).tim = s.tim := by
  induction f generalizing s with
  | zero => rfl
  | succ f ih => simp [State.fetchSq, ih]

@[simp] theorem State.resumeFetch_tim (s : State) : s.resumeFetch.tim = s.tim := by simp [State.resumeFetch]

/-! ### Completions -/

@[simp] theorem State.flushReady_tim (s : State) (n most f : Nat) : (s.flushReady n most f).tim = s.tim := by
  induction f generalizing s with
  | zero => rfl
  | succ f ih => simp [State.flushReady, ih]

@[simp] theorem State.putCqe_tim (s : State) (n uid : Nat) (q : Cqe) (c : Colour) : (s.putCqe n uid q c).tim = s.tim := by
  simp [State.putCqe]

@[simp] theorem State.sendCpl_tim (s : State) (t : Nat) : (s.sendCpl t).tim = s.tim := by
  unfold State.sendCpl
  split
  · rfl
  · split <;> simp

@[simp] theorem State.completeUnstarted_tim (s : State) (n : Nat) (r : RxCmd) (sct sc : Nat) (d : Bool) :
    (s.completeUnstarted n r sct sc d).tim = s.tim := by simp [State.completeUnstarted]

@[simp] theorem State.dropClean_tim (s : State) (p : BufBlk → Bool) : (s.dropClean p).tim = s.tim := (rfl)
@[simp] theorem State.reclaim_tim (s : State) : s.reclaim.tim = s.tim := by simp [State.reclaim]
@[simp] theorem State.noteDirty_tim (s : State) : s.noteDirty.tim = s.tim := by simp [State.noteDirty]
@[simp] theorem State.setBuffer_tim (s : State) (b : List BufBlk) : (s.setBuffer b).tim = s.tim := by simp [State.setBuffer]
@[simp] theorem State.showBufs_tim (s : State) (ids : List Nat) : (s.showBufs ids).tim = s.tim := by simp [State.showBufs]
@[simp] theorem State.discardBufs_tim (s : State) (ids : List Nat) : (s.discardBufs ids).tim = s.tim := State.setBuffer_tim s _

@[simp] theorem State.hostEvent_tim (s : State) (k x i p : Nat) : (s.hostEvent k x i p).tim = s.tim := by
  unfold State.hostEvent
  dsimp only
  split
  · rfl
  · split
    · split <;> simp
    · split <;> simp

@[simp] theorem State.freezeOut_tim (s : State) (t : Nat) : (s.freezeOut t).tim = s.tim := by
  unfold State.freezeOut; split <;> simp

@[simp] theorem State.freezeQueue_tim (s : State) (n : Nat) (c : Cmd) (q : Cqe) : (s.freezeQueue n c q).tim = s.tim := by
  simp [State.freezeQueue]

@[simp] theorem State.commit_tim (s : State) (t : Nat) : (s.commit t).tim = s.tim := by
  unfold State.commit; split <;> simp

@[simp] theorem State.commitQueue_tim (s : State) (n f : Nat) : (s.commitQueue n f).tim = s.tim := by
  induction f generalizing s with
  | zero => rfl
  | succ f ih =>
    unfold State.commitQueue
    split
    · rfl
    · split
      · rfl
      · simp [ih]

@[simp] theorem State.settle_tim (s : State) (t : Nat) : (s.settle t).tim = s.tim := by
  unfold State.settle; split <;> simp

@[simp] theorem State.invokeHook_tim (s : State) (h x : Nat) : (s.invokeHook h x).tim = s.tim := by
  unfold State.invokeHook; split <;> rfl

@[simp] theorem State.finish_tim (s : State) (t sct sc : Nat) (d : Bool) (a b : Nat) : (s.finish t sct sc d a b).tim = s.tim := by
  unfold State.finish; split <;> simp

/-! ### The start of commands -/

@[simp] theorem State.proceed_tim (s : State) (t : Nat) (c : Cmd) : (s.proceed t c).tim = s.tim := by simp [State.proceed]

@[simp] theorem State.keysCheck_tim (s : State) (t : Nat) : (s.keysCheck t).tim = s.tim := by
  unfold State.keysCheck; split <;> simp

@[simp] theorem State.decodeCmd_tim (s : State) (t : Nat) : (s.decodeCmd t).tim = s.tim := by
  unfold State.decodeCmd
  split
  · rfl
  · split <;> simp

@[simp] theorem State.endAtStart_tim (s : State) (n : Nat) (r : RxCmd) (sct sc : Nat) (d : Bool) :
    (s.endAtStart n r sct sc d).tim = s.tim := by
  unfold State.endAtStart
  dsimp only
  split
  · split <;> simp
  · simp

/-- Metering a command charges policers and nothing else. -/
@[simp] theorem State.meterCmd_tim (s : State) (n : Nat) (e : SqEntry) : (s.meterCmd n e).1.tim = s.tim := by
  unfold State.meterCmd
  dsimp only
  repeat' split
  all_goals simp

@[simp] theorem State.startCmd_tim (s : State) (n : Nat) : (s.startCmd n).tim = s.tim := by
  simp only [State.startCmd]
  split
  · rfl
  next r rs _ =>
    split
    · rfl
    split
    · rw [State.endAtStart_tim, State.updConn_tim]
    split
    · rw [State.endAtStart_tim, State.updConn_tim, State.raise_tim, State.bump_tim]
    -- the verdict of the order stream on a twin that follows it, else the policers'
    generalize hp : (if (s.follows && (!(s.conn n).admin && (s.conn n).ctrl.isSome)) = true then _ else s.meterCmd n r.entry) = p
    have hu : p.1.tim = s.tim := by
      rw [← hp]
      split
      · split <;> simp
      · simp
    clear hp
    split
    · simp only [State.updConn_tim, State.tim_ite, State.order_tim, ite_self]
    split
    · rfl
    · simp only [State.stamp_tim, State.decodeCmd_tim, State.updConn_tim, State.tim_ite, State.order_tim, ite_self, hu]

@[simp] theorem State.startTurn_tim (s : State) (ns : List Nat) : (s.startTurn ns).tim = s.tim :=
  State.foldl_tim _ (fun u n => by simp) ns s

@[simp] theorem State.startTurns_tim (s : State) (ns : List Nat) (f : Nat) : (s.startTurns ns f).tim = s.tim := by
  induction f generalizing s with
  | zero => rfl
  | succ f ih => simp [State.startTurns, ih]

@[simp] theorem State.startHeld_tim (s : State) (p : Conn → Bool) : (s.startHeld p).tim = s.tim := by simp [State.startHeld]

end Sys2Proof.Machine
end

section
/-! Proofs of the PTP client of family 02 (R23, R24, R25, R29, R38): the selection of a grandmaster, the Syncs, the path delay and the
requests. -/
namespace Sys2Proof.Machine

/-! ### Operations under a condition -/

@[simp] theorem State.when_true (s : State) (f : State → State) : s.when true f = f s := rfl
@[simp] theorem State.when_false (s : State) (f : State → State) : s.when false f = s := rfl

/-! ### The selection of a grandmaster -/

/-- An Announce selects its master where none is selected, where it is better than the selected one, or is that one again (R23). -/
theorem exec_ptpAnnounceRx_selects {s : State} {k : Fin 32} {m : PtpMaster} (hp : s.ptpPort k = true) (hm : s.ptpSupported m = true)
    (hg : ∀ g ∈ s.tim.gm, betterMaster m g k s.tim.gmPort = true ∨ (g.identity = m.identity ∧ s.tim.gmPort = k)) :
    exec (.ptpAnnounceRx k m) s = .next { s with tim.gm := some m, tim.gmPort := k, tim.announceSeen := true } := by
  change execPtpAnnounceRx k m s = _
  simp only [execPtpAnnounceRx, hp, hm, Bool.and_self, State.when_true]
  cases hs : s.tim.gm with
  | none => rfl
  | some g =>
    rcases hg g hs with hb | ⟨hi, hk⟩
    · simp [hb]
    · simp [hi, hk]

/-! ### Syncs -/

/-- What a Sync of the selected grandmaster sent at `t1` and received at `t2` leaves in the time unit of a twin whose servo is applied: the
offset measured (R24), the run of Syncs within 100 ns, and the Sync seen (R25). -/
def Tim.takeSync (m : Tim) (t1 t2 : Int) : Tim :=
  let o := t1 + m.pathDelay - t2
  { m with offset := o, newOffset := true, syncsSeen := true, missedSyncs := 0, syncT1 := t1, syncT2 := t2, lastSync := m.ns,
           goodSyncs := if o.natAbs < 200000 then m.goodSyncs + 1 else 0 }

section SelectedSync
variable {s : State} {k : Fin 32} {ident origin : Nat} {corr : Int} (hp : s.ptpPort k = true) (hk : s.tim.gmPort = k)
  (hg : s.tim.gm.map PtpMaster.identity = some ident)
include hp hk hg

theorem exec_ptpSyncRx_locked (hst : s.tim.st = .locked) :
    exec (.ptpSyncRx k ident origin corr) s =
      .next { s with tim := s.tim.takeSync (((origin : Int) + corr) * 2000) (s.stampIn s.tim.gmPort) } := by
  change execPtpSyncRx k ident origin corr s = _
  simp [execPtpSyncRx, hp, hk, hg, hst, State.servoSt, State.ownAhead, Tim.takeSync, State.now]

/-- A Sync takes a client that is not LOCKED to ACQUIRING; after FREERUN its first correction is still to come (R26). -/
theorem exec_ptpSyncRx_acquiring (ht : s.tim.st ≠ .twin) (hl : s.tim.st ≠ .locked) :
    exec (.ptpSyncRx k ident origin corr) s =
      .next { s with tim := { s.tim.takeSync (((origin : Int) + corr) * 2000) (s.stampIn s.tim.gmPort) with
        st := .acquiring
        firstFix := s.tim.firstFix || decide (s.tim.st = .freerun) } } := by
  change execPtpSyncRx k ident origin corr s = _
  cases hst : s.tim.st with
  | freerun =>
    simp [execPtpSyncRx, hp, hk, hg, hst, State.servoSt, State.ownAhead, Tim.takeSync, State.setServo, State.enterTime, State.now]
  | holdover =>
    simp [execPtpSyncRx, hp, hk, hg, hst, State.servoSt, State.ownAhead, Tim.takeSync, State.setServo, State.enterTime, State.now]
  | acquiring => simp [execPtpSyncRx, hp, hk, hg, hst, State.servoSt, State.ownAhead, Tim.takeSync, State.now]
  | locked => exact absurd hst hl
  | twin => exact absurd hst ht

end SelectedSync

/-! ### The path delay -/

section DelayResponse
variable {s : State} {k : Fin 32} (hp : s.ptpPort k = true) (hk : s.tim.gmPort = k) (hg : s.tim.gm ≠ none)
include hp hk hg

theorem exec_ptpDelayRespRx_endToEnd (hm : s.fld Reg.TIM_CTL_DELAY_MECH = 0) (t4 : Nat) :
    exec (.ptpDelayRespRx k (.endToEnd t4)) s = .next
      { s with tim.pathDelay := ((s.tim.syncT2 - s.tim.syncT1) + ((t4 : Int) * 2000 - s.tim.reqT3)) / 2 } := by
  change execPtpDelayRespRx k (.endToEnd t4) s = _
  simp [execPtpDelayRespRx, hp, hk, Option.isSome_iff_ne_none.mpr hg, hm]

theorem exec_ptpDelayRespRx_peerToPeer (hm : s.fld Reg.TIM_CTL_DELAY_MECH = 1) (t2 t3 : Nat) :
    exec (.ptpDelayRespRx k (.peerToPeer t2 t3)) s = .next
      { s with tim.pathDelay := ((s.stampIn s.tim.gmPort - s.tim.reqT3) - ((t3 : Int) - t2) * 2000) / 2 } := by
  change execPtpDelayRespRx k (.peerToPeer t2 t3) s = _
  simp [execPtpDelayRespRx, hp, hk, Option.isSome_iff_ne_none.mpr hg, hm]

end DelayResponse

/-! ### The requests -/

/-- A firing slot changes the timers alone. -/
theorem State.fireWith_frame (s : State) (n p : Nat) : s.fireWith n p = { s with tim := (s.fireWith n p).tim } := by
  unfold State.fireWith
  dsimp only
  conv_lhs => rw [State.reach_frame]
  rfl

/-- Slot 507 fires, and a client with a grandmaster sends its request and keeps the request's timestamp (R24, R38). -/
theorem exec_delayReqSend_sends {s u : State} (hu : u = s.fireWith 507 (s.ptpPeriod PtpMaster.logMinDelay))
    (hf : s.flag Reg.TIM_CTL_PTP_EN = true) (hg : s.tim.gm ≠ none) :
    exec .delayReqSend s = .next (({ u with tim.reqT3 := u.stampOut s.tim.gmPort } : State).emit
      (.delayReq s.tim.gmPort (s.fld Reg.TIM_CTL_DELAY_MECH = 1))) := by
  subst hu
  change execDelayReqSend s = _
  simp [execDelayReqSend, hf, Option.isSome_iff_ne_none.mpr hg]

/-- Settles O14: each clause is the case of the Announce, the Sync, the Delay_Resp or the request that its hypotheses select. -/
theorem ptpClientFollowsItsGrandmaster : Obligations.PtpClientFollowsItsGrandmaster := by
  refine ⟨?announce, ?acquiring, ?locked, ?endToEnd, ?peerToPeer, ?request⟩
  case announce =>
    intro s k m ⟨hp, hm, hg⟩
    exact exec_ptpAnnounceRx_selects hp hm hg
  case acquiring =>
    intro s k ident origin corr ⟨hp, hk, hg, ht, hl⟩
    exact ⟨_, exec_ptpSyncRx_acquiring hp hk hg ht hl, rfl, rfl, rfl, rfl, rfl, rfl⟩
  case locked =>
    intro s k ident origin corr ⟨hp, hk, hg, hst⟩
    exact ⟨_, exec_ptpSyncRx_locked hp hk hg hst, hst, rfl, rfl, rfl, rfl, rfl⟩
  case endToEnd =>
    intro s k t4 ⟨hp, hk, hg, hm⟩
    exact exec_ptpDelayRespRx_endToEnd hp hk hg hm t4
  case peerToPeer =>
    intro s k t2 t3 ⟨hp, hk, hg, hm⟩
    exact exec_ptpDelayRespRx_peerToPeer hp hk hg hm t2 t3
  case request =>
    intro s ⟨hf, hg⟩
    refine ⟨_, exec_delayReqSend_sends rfl hf hg, by simp, rfl, ?_⟩
    rw [State.fireWith_frame]
    rfl

end Sys2Proof.Machine
end

section
/-! Proofs of the supervision of the servo, of steps of shelf time and of the secure time floor of family 02 (R25 to R27, R31, R39). -/
namespace Sys2Proof.Machine

/-! ### Events of the time unit -/

/-- An event that is no NMI and no fault of the twin's own changes the event unit and its counter alone. -/
theorem State.raise_frame (s : State) {n : Nat} (hc : srcClass n ≠ .nmi) (hf : faultSources.contains n = false) (d : List Nat) :
    s.raise n d = { s with evt := (s.raise n d).evt, tel := (s.raise n d).tel } := by
  unfold State.raise
  simp only [hc, hf, if_false, Bool.false_eq_true]
  rfl

/-! ### The span of corrections -/

/-- The mean of R25 reads the span of LOCKED, the corrections applied in it and the one in force. -/
theorem State.corrMean_congr {s t : State} (hs : t.corrSpan = s.corrSpan) (hl : t.tim.lastSync = s.tim.lastSync)
    (hc : t.tim.corrs = s.tim.corrs) (hv : t.servoCorr = s.servoCorr) : t.corrMean = s.corrMean := by
  simp only [State.corrMean, hs, hl, hc, hv]

@[simp] theorem State.fireWith_corrSpan (s : State) (n p : Nat) : (s.fireWith n p).corrSpan = s.corrSpan := by
  simp [State.corrSpan]

@[simp] theorem State.fireWith_servoCorr (s : State) (n p : Nat) : (s.fireWith n p).servoCorr = s.servoCorr := by
  simp [State.servoCorr]

@[simp] theorem State.fireWith_corrMean (s : State) (n p : Nat) : (s.fireWith n p).corrMean = s.corrMean :=
  State.corrMean_congr (by simp) (by simp) (by simp) (by simp)

/-! ### Entry to HOLDOVER and to LOCKED -/

/-- A loss in LOCKED enters HOLDOVER: its event is raised, the mean correction is applied, and a slew in progress stops (R25). -/
theorem State.loseServo_of_locked {s : State} (h : s.tim.st = .locked) :
    s.loseServo = { ({ s with tim.st := .holdover } : State).raise Ev.TIME_HOLDOVER with
      tim := { s.tim with st := .holdover, corr := s.corrMean, meanCorr := s.corrMean, slewing := false, slewLeft := 0, goodSyncs := 0,
                          newOffset := false } } := by
  simp [State.loseServo, State.enterHoldover, State.setServo, State.setCorr, State.servoSt, State.enterTime, h]

/-- A loss in LOCKED that follows a change of the time unit alone: HOLDOVER on the mean of the corrections, with its event. -/
theorem State.loseServo_effect {s v t : State} (ht : t = v.loseServo) (hv : v = { s with tim := v.tim }) (h : v.tim.st = .locked) :
    t.tim.st = .holdover ∧ t.tim.corr = v.corrMean ∧ t.tim.slewing = false ∧
      t.src Ev.TIME_HOLDOVER = (s.src Ev.TIME_HOLDOVER).occur [] t.now ∧ t = { s with tim := t.tim, evt := t.evt, tel := t.tel } := by
  rw [ht, State.loseServo_of_locked h]
  refine ⟨rfl, rfl, rfl, ?_, ?_⟩
  · rw [hv]
    exact State.raise_src_same _ _ _
  · rw [State.raise_frame _ (by decide) (by decide), hv]

/-- Sixteen good Syncs in ACQUIRING enter LOCKED with its event: the span of corrections begins (R25, R26). -/
theorem State.enterLocked_of_acquiring {s : State} (h : s.tim.st = .acquiring) :
    s.enterLocked = ({ s with tim := { s.tim with
      st := .locked, lockedAt := s.now, corrs := [(s.now, s.tim.corr)], firstFix := false } } : State).raise Ev.TIME_LOCKED := by
  simp [State.enterLocked, State.setServo, State.servoCorr, State.enterTime, h]

/-! ### The loss of the selected grandmaster -/

theorem State.dropMaster_src (s : State) (n : Nat) : s.dropMaster.src n = s.src n := rfl
theorem State.dropMaster_now (s : State) : s.dropMaster.now = s.now := rfl

theorem State.dropMaster_frame {s t : State} (h : t = { s with tim := t.tim, evt := t.evt, tel := t.tel }) :
    t.dropMaster = { s with tim := t.dropMaster.tim, evt := t.dropMaster.evt, tel := t.dropMaster.tel } :=
  congrArg State.dropMaster h

/-! ### The slots of the supervision -/

/-- Slot 508 has fired at the end of an interval without a Sync (R25). -/
def State.missedSync (s : State) : State :=
  let u := s.fireWith 508 (s.ptpPeriod PtpMaster.logSync)
  { u with tim.missedSyncs := u.tim.missedSyncs + 1 }

theorem State.missedSync_frame (s : State) : s.missedSync = { s with tim := s.missedSync.tim } := by
  rw [State.missedSync, State.fireWith_frame]

@[simp] theorem State.missedSync_st (s : State) : s.missedSync.tim.st = s.tim.st := by simp [State.missedSync]

@[simp] theorem State.missedSync_missedSyncs (s : State) : s.missedSync.tim.missedSyncs = s.tim.missedSyncs + 1 := by
  simp [State.missedSync]

@[simp] theorem State.missedSync_fld (s : State) (r : Ref) : s.missedSync.fld r = s.fld r :=
  State.fireWith_fld s 508 (s.ptpPeriod PtpMaster.logSync) r

@[simp] theorem State.missedSync_corrMean (s : State) : s.missedSync.corrMean = s.corrMean :=
  State.fireWith_corrMean s 508 (s.ptpPeriod PtpMaster.logSync)

/-- With no Sync in LOSS_INTERVALS intervals the servo has lost its grandmaster. -/
theorem exec_syncLossCheck_lost {s : State} (hs : s.tim.syncsSeen = false)
    (hm : s.fld Reg.TIM_HOLD_LOSS_INTERVALS ≤ s.tim.missedSyncs + 1) : exec .syncLossCheck s = .next s.missedSync.loseServo := by
  have hs' : (s.fireWith 508 (s.ptpPeriod PtpMaster.logSync)).tim.syncsSeen ≠ true := by simp [hs]
  have hm' : s.missedSync.fld Reg.TIM_HOLD_LOSS_INTERVALS ≤ s.missedSync.tim.missedSyncs := by simpa using hm
  change execSyncLossCheck s = _
  exact congrArg _ ((if_neg hs').trans (if_pos (decide_eq_true hm')))

/-- Slot 509 fires; with no Announce of the selected grandmaster in its interval the servo has lost it (log entry 11). -/
theorem exec_announceTimeout_lost {s u : State} (hu : u = s.fireWith 509 (s.ptpPeriod PtpMaster.logAnnounce))
    (ha : s.tim.announceSeen = false) (hg : s.tim.gm ≠ none) : exec .announceTimeout s = .next u.loseServo.dropMaster := by
  have ha' : u.tim.announceSeen = false := by simpa [hu] using ha
  have hg' : u.tim.gm.isNone = false := by simpa [hu, Option.isSome_iff_ne_none] using hg
  change execAnnounceTimeout s = _
  unfold execAnnounceTimeout
  rw [← hu]
  exact congrArg _ (if_neg (by simp [ha', hg']))

/-- Slot 510 fires; sixteen good Syncs in ACQUIRING lock the servo, and no offset waits for its correction. -/
theorem exec_servoUpdate_locks {s u : State} (hu : u = s.fireWith 510 (s.ptpPeriod PtpMaster.logSync)) (hst : s.tim.st = .acquiring)
    (hg : 16 ≤ s.tim.goodSyncs) (ho : s.tim.newOffset = false) : exec .servoUpdate s = .next u.enterLocked := by
  have hst' : u.tim.st = .acquiring := by simpa [hu] using hst
  have hg' : 16 ≤ u.tim.goodSyncs := by simpa [hu] using hg
  have ho' : u.tim.newOffset = false := by simpa [hu] using ho
  change execServoUpdate s = _
  unfold execServoUpdate
  rw [← hu]
  simp [State.servoSt, hst', hg', State.enterLocked_of_acquiring hst', ho']

/-- Slot 511 fires; in LOCKED the mean is brought up to date, and corrections that the span has left are dropped but for the newest. -/
theorem exec_holdoverMeanUpdate_locked {s u : State} (hu : u = s.fire 511) (hst : s.tim.st = .locked) :
    exec .holdoverMeanUpdate s = .next { u with
      tim.meanCorr := s.corrMean
      tim.corrs := (s.tim.corrs.filter fun e => s.corrSpan ≤ e.1) ++ (s.tim.corrs.filter fun e => e.1 < s.corrSpan).take 1 } := by
  subst hu
  change execHoldoverMeanUpdate s = _
  simp [execHoldoverMeanUpdate, State.fire, State.servoSt, hst]

/-! ### Steps of shelf time -/

/-- A fold of a function that leaves shelf time leaves it. -/
theorem State.foldl_now {α : Type} (g : State → α → State) (h : ∀ u a, (g u a).now = u.now) (l : List α) (s : State) :
    (l.foldl g s).now = s.now := State.foldl_keeps State.now g h l s

@[simp] theorem State.now_ite (c : Prop) [Decidable c] (a b : State) : (if c then a else b).now = if c then a.now else b.now :=
  apply_ite State.now c a b

@[simp] theorem State.setSlot_now (s : State) (n : Nat) (x : Slot) : (s.setSlot n x).now = s.now := (rfl)

@[simp] theorem State.missSlot_now (s : State) (t n : Nat) : (s.missSlot t n).now = s.now := by simp [State.missSlot]

@[simp] theorem State.setSlalom_now (s : State) (l : Nat) (x : Slalom) : (s.setSlalom l x).now = s.now := (rfl)

@[simp] theorem State.slalomStep_now (s : State) (t l : Nat) : (s.slalomStep t l).now = s.now := by
  unfold State.slalomStep
  dsimp only
  split
  · rfl
  · split <;> simp

@[simp] theorem State.refreshTable_now (s : State) (t : Nat) : (s.refreshTable t).now = s.now := (rfl)

theorem State.withConns_now (s : State) (cs : Assoc Conn) : ({ s with xpt.conns := cs } : State).now = s.now := rfl

theorem State.startHeld_now (s : State) (p : Conn → Bool) : (s.startHeld p).now = s.now := congrArg Tim.ns (State.startHeld_tim s p)

/-- Shelf time steps by the amount; the slots passed are handled at the new time (R39). -/
theorem State.stepTime_now (s : State) (a : Nat) : (s.stepTime a).now = s.now + a :=
  State.foldl_now _ (fun u n => by simp) _ _

/-- What follows a forward step (slots, lists, tables, deadlines, held commands) leaves the time it reached. -/
theorem State.stepForward_now (s : State) (a : Nat) : (s.stepForward a).now = s.now + a := by
  unfold State.stepForward
  dsimp only
  rw [State.startHeld_now, State.withConns_now, State.refreshTable_now, State.refreshTable_now,
    State.foldl_now _ fun u l => State.slalomStep_now u s.now l, State.stepTime_now]

theorem State.commandStep_now (s : State) (a : Nat) : (s.commandStep a).now = s.now + a := by
  unfold State.commandStep
  dsimp only
  rw [State.raise_now, State.stepForward_now]
  split <;> split <;> rfl

theorem State.commandStep_pend (s : State) (a : Nat) : ((s.commandStep a).src Ev.TIME_STEP).pend = true := by
  unfold State.commandStep
  dsimp only
  rw [State.raise_src_same, Src.occur_pend]

theorem exec_stepShelfTime_accepted {s : State} {id : Nat} {c : Started} (h : s.AcceptsPlain id 0x0003 [(0x08, 32)] c)
    (h0 : c.desc.par 0 8 ≠ 0) (h63 : c.desc.par 0 8 < 2 ^ 63) :
    exec (.stepShelfTime id) s =
      .next ((s.commandStep (c.desc.par 0 8)).holderDone c (s.commandStep (c.desc.par 0 8)).now (c.desc.par 0 8)) := by
  change execStepShelfTime id s = _
  unfold execStepShelfTime
  rw [State.runPlain_accepted h]
  exact congrArg _ (if_neg (by simpa [h0] using h63))

/-! ### The floor -/

theorem exec_floorAdvance_running {s : State} (h : s.clk.xaTripped = false) :
    exec .floorAdvance s = .next { s with
      tim.floorRef := s.now, tim.floorHold := false
      tim.floor := s.tim.floor + min 1000200 (max 999800 (s.now - s.tim.floorRef)) } := by
  change execFloorAdvance s = _
  simp [execFloorAdvance, h]

theorem exec_floorAdvance_tripped {s : State} (h : s.clk.xaTripped = true) :
    exec .floorAdvance s = .next ({ s with tim.floorRef := s.now } : State).holdFloor := by
  change execFloorAdvance s = _
  simp [execFloorAdvance, h]

@[simp] theorem State.holdFloor_floor (s : State) : s.holdFloor.tim.floor = s.tim.floor := by
  unfold State.holdFloor; split <;> simp

@[simp] theorem State.holdFloor_floorHold (s : State) : s.holdFloor.tim.floorHold = true := by
  unfold State.holdFloor
  split
  · assumption
  · simp

theorem State.holdFloor_pend {s : State} (h : s.tim.floorHold = false) : (s.holdFloor.src Ev.FLOOR_HOLD).pend = true := by
  unfold State.holdFloor
  rw [if_neg (by simp [h]), State.raise_src_same, Src.occur_pend]

/-- Settles O15: each clause is the case of the slot, the command or the floor's advance that its hypotheses select. -/
theorem servoLossHoldoverAndFloor : Obligations.ServoLossHoldoverAndFloor := by
  refine ⟨?sync, ?announce, ?locks, ?mean, ?step, fun s h => exec_floorAdvance_running h, ?held⟩
  case sync =>
    intro s ⟨hst, hs, hm⟩
    obtain ⟨hh, hc, hl, he, hf⟩ := State.loseServo_effect rfl s.missedSync_frame (by simp [hst])
    exact ⟨_, exec_syncLossCheck_lost hs hm, hh, hc.trans s.missedSync_corrMean, hl, he, hf⟩
  case announce =>
    intro s ⟨hst, ha, hg⟩
    obtain ⟨hh, hc, hl, he, hf⟩ := State.loseServo_effect rfl (State.fireWith_frame s 509 (s.ptpPeriod PtpMaster.logAnnounce))
      (by simp [hst])
    rw [State.fireWith_corrMean] at hc
    refine ⟨_, exec_announceTimeout_lost rfl ha hg, hh, rfl, hc, hl, ?_, State.dropMaster_frame hf⟩
    rwa [State.dropMaster_src, State.dropMaster_now]
  case locks =>
    intro s ⟨hst, hg, ho⟩
    refine ⟨_, exec_servoUpdate_locks rfl hst hg ho, ?_⟩
    rw [State.enterLocked_of_acquiring (by simpa using hst), State.fireWith_frame]
    refine ⟨by simp, ?_, State.raise_frame _ (by decide) (by decide) _⟩
    rw [State.raise_src_same, State.raise_now]
    rfl
  case mean =>
    intro s hst
    refine ⟨_, exec_holdoverMeanUpdate_locked rfl hst, rfl, fun e he hs => ?_, ?_⟩
    · exact List.mem_append_left _ (List.mem_filter.mpr ⟨he, decide_eq_true hs⟩)
    · rw [State.fire, State.fireWith_frame]
  case step =>
    intro s id c ⟨h, h0, h63⟩
    exact ⟨exec_stepShelfTime_accepted h h0 h63, State.commandStep_now s _, State.commandStep_pend s _⟩
  case held =>
    intro s h
    exact ⟨_, exec_floorAdvance_tripped h, by simp, by simp, fun hf => State.holdFloor_pend hf⟩

end Sys2Proof.Machine
end

section
/-! Proofs of the primitive calls of family 02 (R63 to R66, R71): their words, their issue, their outcomes, their completion, and the
doorbell slots and ECC errors of the Tack clusters. -/
namespace Sys2Proof.Machine

/-! ### The words of the primitive instructions (Table 04-2) -/

section Word
variable {w : Word} (h2 : getBits w 24 20 = 0)
include h2

theorem primOp_pcall (h3 : getBits w 14 12 = 0) (h7 : getBits w 31 25 ≤ 9) : primOp w = .pcall (getBits w 31 25) (getBits w 11 7) := by
  simp [primOp, h2, h3, h7]

theorem primOp_pwait (h3 : getBits w 14 12 = 1) (h7 : getBits w 31 25 = 0) : primOp w = .pwait (getBits w 11 7) := by
  simp [primOp, h2, h3, h7]

theorem primOp_ppoll (h3 : getBits w 14 12 = 2) (h7 : getBits w 31 25 = 0) : primOp w = .ppoll (getBits w 11 7) := by
  simp [primOp, h2, h3, h7]

end Word

/-- An rs2 other than x0, an undefined funct3 or an undefined funct7 makes an illegal instruction. -/
theorem primOp_illegal {w : Word} (h : getBits w 24 20 ≠ 0 ∨ 3 ≤ getBits w 14 12 ∨ (getBits w 14 12 = 0 ∧ 9 < getBits w 31 25) ∨
    (getBits w 14 12 ≠ 0 ∧ getBits w 31 25 ≠ 0)) : primOp w = .illegal := by
  unfold primOp
  dsimp only
  split
  · rfl
  next h2 =>
    have h' := h.resolve_left h2
    split
    next h3 => exact if_pos (by omega)
    next h3 => exact if_pos (by omega)
    next h3 => exact if_pos (by omega)
    · rfl

/-! ### The instructions on a core that runs -/

section RunningCore
variable {s : State} {core : Fin 256} {f : BitVec 7} {r : BitVec 25} (hr : s.coreRuns core = true)
include hr

theorem exec_pcall_illegal (hw : primOp (customWord f r) = .illegal) (a : Nat) :
    exec (.pcall core f r a) s = .next (s.exception core (.illegalInstruction core)) := by
  change execPcall core f r a s = _
  simp [execPcall, hr, hw]

theorem exec_pwait_illegal (hw : primOp (customWord f r) = .illegal) (k : BitVec 64) :
    exec (.pwait core f r k) s = .next (s.exception core (.illegalInstruction core)) := by
  change execPwait core f r k s = _
  simp [execPwait, hr, hw]

theorem exec_ppoll_illegal (hw : primOp (customWord f r) = .illegal) (k : BitVec 64) :
    exec (.ppoll core f r k) s = .next (s.exception core (.illegalInstruction core)) := by
  change execPpoll core f r k s = _
  simp [execPpoll, hr, hw]

theorem exec_pcall_readable {p rd a : Nat} (hw : primOp (customWord f r) = .pcall p rd) (ha : s.mayReadAt core a = true) :
    exec (.pcall core f r a) s = .next (s.pcall core p rd a) := by
  change execPcall core f r a s = _
  simp [execPcall, hr, hw, ha]

theorem exec_pwait_asks {rd : Nat} (hw : primOp (customWord f r) = .pwait rd) (k : BitVec 64) :
    exec (.pwait core f r k) s = .next (s.askTicket core k.toNat rd true) := by
  change execPwait core f r k s = _
  simp [execPwait, hr, hw]

theorem exec_ppoll_asks {rd : Nat} (hw : primOp (customWord f r) = .ppoll rd) (k : BitVec 64) :
    exec (.ppoll core f r k) s = .next (s.askTicket core k.toNat rd false) := by
  change execPpoll core f r k s = _
  simp [execPpoll, hr, hw]

end RunningCore

/-! ### Issue -/

theorem State.pcall_full {s : State} {core : Nat} (h : 16 ≤ (s.outstanding core).length) (p rd a : Nat) :
    s.pcall core p rd a = { s with tck.stalls := s.tck.stalls ++ [⟨core, p, a, rd⟩] } := if_pos h

theorem State.pcall_free {s : State} {core : Nat} (h : (s.outstanding core).length < 16) (p rd a : Nat) :
    s.pcall core p rd a = s.issue core p a rd := if_neg (Nat.not_le.mpr h)

/-- A call that its tier permits joins the list with the slot and sequence the core takes next, and its ticket goes to rd (R65, R66). -/
theorem State.issue_permitted {s : State} {core p : Nat} (h : s.inTier1 core = true → s.tier1May p = true) (a rd : Nat) :
    ∃ c : Call, c.core = core ∧ c.slot = (s.newTicket core).1 ∧ c.prim = p ∧ c.done = false ∧
      s.issue core p a rd = ((({ s with
        tck.calls := s.tck.calls ++ [c]
        tck.seqs := Assoc.set 0 s.tck.seqs (core * 16 + (s.newTicket core).1) (((s.newTicket core).2 + 1) % 4096) } : State).bump
          (Reg.TCK_PCALL_CNT_CALLS p)).emit (.coreResult core rd ((s.newTicket core).1 + 16 * (s.newTicket core).2))) := by
  have hd : (s.inTier1 core && !s.tier1May p) = false := Bool.and_eq_false_imp.mpr fun ht => by rw [h ht, Bool.not_true]
  exact ⟨_, rfl, rfl, rfl, rfl, if_neg (ne_true_of_eq_false hd)⟩

/-! ### Outcomes -/

section Ticket
variable {s : State} {core k : Nat} {c : Call}

theorem State.askTicket_done (hc : s.callOf core k = some c) (hd : c.done = true) (rd : Nat) (wait : Bool) :
    s.askTicket core k rd wait = s.take c rd := by
  simp [State.askTicket, hc, hd]

theorem State.askTicket_running_wait (hc : s.callOf core k = some c) (hd : c.done = false) (rd : Nat) :
    s.askTicket core k rd true = { s with tck.waits := s.tck.waits ++ [⟨core, k, rd⟩] } := by
  simp [State.askTicket, hc, hd]

theorem State.askTicket_running_poll (hc : s.callOf core k = some c) (hd : c.done = false) (rd : Nat) :
    s.askTicket core k rd false = s.emit (.coreResult core rd (outcomeOf 0xFFFF 0)) := by
  simp [State.askTicket, hc, hd]

theorem State.askTicket_stale (hc : s.callOf core k = none) (rd : Nat) (wait : Bool) :
    s.askTicket core k rd wait = s.emit (.coreResult core rd (outcomeOf 0xFFFE 0)) := by
  simp [State.askTicket, hc]

end Ticket

/-! ### Completion -/

theorem exec_primitiveComplete_found {s : State} {core : Fin 256} {slot : Fin 16} {c : Call}
    (h : s.tck.calls.find? (fun c => c.core = core.val && c.slot = slot.val && !c.done && c.res.isSome) = some c) :
    exec (.primitiveComplete core slot) s = .next (((s.closeCall c).tellCaller core c).unstall core) := by
  change execPrimitiveComplete core slot s = _
  rw [execPrimitiveComplete, h]

theorem State.closeCall_writes {s : State} {c : Call} {st r : Nat} (hc : c.res = some (st, r)) (ha : c.addr ≠ 0)
    (ho : c.orphan = false) :
    s.closeCall c = { s with
      mem := writeMem (writeMem s.mem (c.addr + 0x38) (leBytes 2 st)) (c.addr + 0x3C) (leBytes 4 r)
      tck.calls := s.tck.calls.map fun x => if x.core = c.core && x.ticket = c.ticket && !x.done then { x with done := true } else x } := by
  simp [State.closeCall, hc, ha, ho]

/-- A caller that asked for no notification and waits for nothing is told nothing. -/
theorem State.tellCaller_silent {s : State} {core : Nat} {c : Call} (hn : c.notify = false) (hw : ∀ x ∈ s.tck.waits, x.core ≠ core) :
    s.tellCaller core c = s := by
  have hf : s.tck.waits.find? (fun w => w.core = core && w.ticket = c.ticket) = none :=
    List.find?_eq_none.mpr fun x hx => by simp [hw x hx]
  simp only [State.tellCaller, hn, State.when_false, hf]

theorem State.unstall_idle {s : State} {core : Nat} (h : ∀ x ∈ s.tck.stalls, x.core ≠ core) : s.unstall core = s := by
  have hf : s.tck.stalls.find? (fun x => x.core = core) = none := List.find?_eq_none.mpr fun x hx => by simp [h x hx]
  rw [State.unstall, hf]

/-! ### Doorbell slots -/

theorem exec_slotDoorbellFire_armed {s : State} {n : Fin 512} (ho : (s.slot n).owner ≠ 0) (h2 : (s.slot n).owner ≠ 2)
    (ha : (s.slot n).armed = true) (h0 : (s.slot n).action = 0) (hx : s.xpt.wheelSlot ≠ some n.val) :
    exec (.slotDoorbellFire n) s = .next (((s.fire n).post ((s.slot n).target / 65536) ((s.slot n).target % 65536) n).timerHook n
      (s.slot n).owner) := by
  change execSlotDoorbellFire n s = _
  simp [execSlotDoorbellFire, ho, h2, ha, h0, hx]

/-- Settles O18: each clause is the case of the instruction, the completion, the slot or the ECC error that its hypotheses select. -/
theorem primitiveCallsIssueAndComplete : Obligations.PrimitiveCallsIssueAndComplete := by
  refine ⟨?issue, ?stall, ?illegal, ?done, ?running, ?stale, fun s core slot c h => exec_primitiveComplete_found h, ?complete, ?slot,
    fun s k => ⟨rfl, rfl⟩⟩
  case issue =>
    rintro s core f r w a ⟨hr, h2, h3, h7, ha, hn, ht, rfl⟩
    obtain ⟨c, hcore, hslot, hprim, hdone, he⟩ := State.issue_permitted ht a (getBits (customWord f r) 11 7)
    refine ⟨_, exec_pcall_readable hr (primOp_pcall h2 h3 h7) ha, ?_⟩
    rw [State.pcall_free hn, he]
    exact ⟨List.mem_cons_self .., ⟨c, rfl, hcore, hslot, hprim, hdone⟩, rfl⟩
  case stall =>
    rintro s core f r w a ⟨hr, h2, h3, h7, ha, hn, rfl⟩
    rw [exec_pcall_readable hr (primOp_pcall h2 h3 h7) ha, State.pcall_full hn]
  case illegal =>
    rintro s core f r w a k ⟨hr, hi, rfl⟩
    have hw := primOp_illegal hi
    exact ⟨exec_pcall_illegal hr hw a, exec_pwait_illegal hr hw k, exec_ppoll_illegal hr hw k⟩
  case done =>
    rintro s core f r w k c ⟨hr, h2, h7, hc, hd, rfl⟩
    refine ⟨fun h3 => ?_, fun h3 => ?_⟩
    · rw [exec_pwait_asks hr (primOp_pwait h2 h3 h7), State.askTicket_done hc hd]
    · rw [exec_ppoll_asks hr (primOp_ppoll h2 h3 h7), State.askTicket_done hc hd]
  case running =>
    rintro s core f r w k c ⟨hr, h2, h7, hc, hd, rfl⟩
    refine ⟨fun h3 => ?_, fun h3 => ?_⟩
    · rw [exec_pwait_asks hr (primOp_pwait h2 h3 h7), State.askTicket_running_wait hc hd]
    · rw [exec_ppoll_asks hr (primOp_ppoll h2 h3 h7), State.askTicket_running_poll hc hd]
  case stale =>
    rintro s core f r w k ⟨hr, h2, h7, hc, rfl⟩
    refine ⟨fun h3 => ?_, fun h3 => ?_⟩
    · rw [exec_pwait_asks hr (primOp_pwait h2 h3 h7), State.askTicket_stale hc]
    · rw [exec_ppoll_asks hr (primOp_ppoll h2 h3 h7), State.askTicket_stale hc]
  case complete =>
    intro s core slot c st r ⟨hf, hc, ha, hn, ho, hwaits, hstalls⟩
    rw [exec_primitiveComplete_found hf, State.tellCaller_silent (s := s.closeCall c) hn hwaits,
      State.unstall_idle (s := s.closeCall c) hstalls, State.closeCall_writes hc ha ho]
  case slot =>
    intro s n ⟨ho, h2, ha, h0, hx⟩
    exact exec_slotDoorbellFire_armed ho h2 ha h0 hx

end Sys2Proof.Machine
end

section
/-! Proofs of TIME, COUNT and LOCK of family 02 (R35, R36, R38, R68, R70, R343, R357). -/
namespace Sys2Proof.Machine

/-! ### Engines -/

/-- An engine with a call to take records what its body answers. -/
theorem State.engine_takes {s : State} {prim : Nat} {c : Call} (h : s.nextCall prim = some c) (body : Call → State → Nat × Nat × State) :
    s.engine prim body = (body c s).2.2.answer c (body c s).1 (body c s).2.1 := by
  rw [State.engine, h]

/-- The same for a body whose answer is known. -/
theorem State.engine_answers {s t : State} {prim st r : Nat} {c : Call} {body : Call → State → Nat × Nat × State}
    (h : s.nextCall prim = some c) (hb : body c s = (st, r, t)) : s.engine prim body = t.answer c st r := by
  rw [State.engine_takes h, hb]

/-! ### TIME -/

section TimeCall
variable {s : State} {c : Call} (hc : s.nextCall 7 = some c)
include hc

theorem exec_timeAllocate_free {act n : Nat} (ha : act < 5) (ht : c.tier1 = true → s.tier1Slots < 256) (hn : s.findSlot = some n)
    (o cmp per tgt : Nat) :
    exec (.timeAllocate o cmp per act tgt) s = .next ((s.setSlot n
      { owner := if c.tier1 then 7 else if o = 0 then 3 else o, armed := true, compare := cmp, period := per, action := act,
        target := tgt }).answer c 0 n) := by
  have ht' : (c.tier1 && decide (256 ≤ s.tier1Slots)) = false :=
    Bool.and_eq_false_imp.mpr fun h => decide_eq_false (Nat.not_le.mpr (ht h))
  exact congrArg _ (State.engine_answers hc (by simp [Nat.not_le.mpr ha, ht', hn]))

section OwnSlot
variable {k : Nat} (hk : k ≤ 503) (ho : (s.slot k).owner ≠ 0) (ht : c.tier1 = true → (s.slot k).owner = 7)
include hk ho ht

theorem exec_timeArm_own {act : Nat} (ha : act < 5) (cmp per tgt : Nat) :
    exec (.timeArm k cmp per act tgt) s = .next ((s.setSlot k
      { s.slot k with armed := true, compare := cmp, period := per, action := act, target := tgt }).answer c 0 k) :=
  congrArg _ (State.engine_answers hc (by simpa [Nat.not_le.mpr ha, Nat.not_lt.mpr hk, ho] using ht))

theorem exec_timeFree_own : exec (.timeFree k) s = .next ((s.setSlot k {}).answer c 0 k) :=
  congrArg _ (State.engine_answers hc (by simpa [Nat.not_lt.mpr hk, ho] using ht))

end OwnSlot

section ReservedSlot
variable {k : Nat} (hk : 503 < k) (ht : c.tier1 = false)
include hk ht

theorem exec_timeArm_reserved (cmp per act tgt : Nat) : exec (.timeArm k cmp per act tgt) s = .next (s.answer c 2 0) :=
  congrArg _ (State.engine_answers hc (by simp [hk, ht]))

theorem exec_timeFree_reserved : exec (.timeFree k) s = .next (s.answer c 2 0) :=
  congrArg _ (State.engine_answers hc (by simp [hk, ht]))

end ReservedSlot
end TimeCall

/-! ### COUNT -/

/-- A COUNT call on a counter that its tier reaches does what it names (R70). -/
theorem State.countCall_reached {s : State} {c : Call} {k : Nat} (hk : k ≤ 4095) (ht : c.tier1 = true → 3840 ≤ k)
    (f : State → Nat × Nat × State) : s.countCall c k f = f s := by
  have ht' : (c.tier1 && decide (k < 3840)) = false :=
    Bool.and_eq_false_imp.mpr fun h => decide_eq_false (Nat.not_lt.mpr (ht h))
  simp [State.countCall, Nat.not_lt.mpr hk, ht']

theorem State.count_counter_same (s : State) (k n : Nat) : (s.count k n).counter k = satAdd 64 (s.counter k) n := by
  simp [State.count, State.counter]

section CountCall
variable {s : State} {c : Call} {k : Nat} (hc : s.nextCall 8 = some c) (hk : k ≤ 4095) (ht : c.tier1 = true → 3840 ≤ k)
include hc hk ht

theorem exec_countAdd_reached (n : Nat) :
    exec (.countAdd k n) s = .next ((s.count k n).answer c 0 (satAdd 64 (s.counter k) n % 2 ^ 32)) :=
  congrArg _ (State.engine_answers hc ((State.countCall_reached hk ht _).trans (by simp only [State.count_counter_same])))

theorem exec_countRead_reached : exec (.countRead k) s = .next (s.answer c 0 (s.counter k % 2 ^ 32)) :=
  congrArg _ (State.engine_answers hc (State.countCall_reached hk ht _))

theorem exec_countReadClear_reached :
    exec (.countReadClear k) s =
      .next (({ s with tel.counters := Assoc.set 0 s.tel.counters k 0 } : State).answer c 0 (s.counter k % 2 ^ 32)) :=
  congrArg _ (State.engine_answers hc (State.countCall_reached hk ht _))

end CountCall

/-! ### LOCK -/

section LockCall
variable {s : State} {c : Call} {l : Nat} (hc : s.nextCall 9 = some c) (hl : l ≤ 65535)
include hc hl

theorem exec_lockAcquire_free (hh : s.lockHolder l = 0) (w : Bool) :
    exec (.lockAcquire l w) s = .next ((s.setLock l (c.core + 1)).answer c 0 1) := by
  change execLockAcquire l w s = _
  simp [execLockAcquire, hc, Nat.not_lt.mpr hl, hh]

theorem exec_lockAcquire_busy (hh : s.lockHolder l ≠ 0) : exec (.lockAcquire l false) s = .next (s.answer c 8 0) := by
  change execLockAcquire l false s = _
  simp [execLockAcquire, hc, Nat.not_lt.mpr hl, hh]

/-- A caller that waits for a held lock keeps its call, which notes the lock; the engine goes on past its cluster (R68). -/
theorem exec_lockAcquire_waits (hh : s.lockHolder l ≠ 0) :
    exec (.lockAcquire l true) s = .next { s with
      tck.calls := s.tck.calls.map fun x => if x.core = c.core && x.ticket = c.ticket && !x.done then { x with waitsLock := some l } else x
      tck.rr := Assoc.set 0 s.tck.rr 9 ((c.core / 8 + 1) % 32) } := by
  change execLockAcquire l true s = _
  simp [execLockAcquire, hc, Nat.not_lt.mpr hl, hh]

/-- Only the holder's release frees a lock; another's completes with BAD_DESC. -/
theorem exec_lockRelease_taken :
    exec (.lockRelease l) s = .next (if s.lockHolder l = c.core + 1 then (s.setLock l 0).answer c 0 0 else s.answer c 2 0) := by
  split
  next hh => exact congrArg _ (State.engine_answers hc (by simp [Nat.not_lt.mpr hl, hh]))
  next hh => exact congrArg _ (State.engine_answers hc (by simp [hh]))

end LockCall

theorem exec_lockGrant_waiter {s : State} {c : Call} {l : Nat} (hh : s.lockHolder l = 0) (hw : s.nextWaiter l = some c) :
    exec (.lockGrant l) s = .next ((s.setLock l (c.core + 1)).answer c 0 1) := by
  change execLockGrant l s = _
  simp [execLockGrant, hh, hw]

/-- Settles O20: each clause is the case of its TIME, COUNT or LOCK command that its hypotheses select. -/
theorem slotsCountersAndLocksOfTheCores : Obligations.SlotsCountersAndLocksOfTheCores := by
  refine ⟨?allocate, ?arm, ?free, ?reserved, ?count, ?acquire, ?busy, ?waits, ?grant, ?release⟩
  case allocate =>
    intro s c o cmp per act tgt n ⟨hc, ha, ht, hn⟩
    exact exec_timeAllocate_free hc ha ht hn o cmp per tgt
  case arm =>
    intro s c k cmp per act tgt ⟨hc, ha, hk, ho, ht⟩
    exact exec_timeArm_own hc hk ho ht ha cmp per tgt
  case free =>
    intro s c k ⟨hc, hk, ho, ht⟩
    exact exec_timeFree_own hc hk ho ht
  case reserved =>
    intro s c k cmp per act tgt ⟨hc, hk, ht⟩
    exact ⟨exec_timeArm_reserved hc hk ht cmp per act tgt, exec_timeFree_reserved hc hk ht⟩
  case count =>
    intro s c k n ⟨hc, hk, ht⟩
    exact ⟨exec_countAdd_reached hc hk ht n, exec_countRead_reached hc hk ht, exec_countReadClear_reached hc hk ht⟩
  case acquire =>
    intro s c l w ⟨hc, hl, hh⟩
    exact exec_lockAcquire_free hc hl hh w
  case busy =>
    intro s c l ⟨hc, hl, hh⟩
    exact exec_lockAcquire_busy hc hl hh
  case waits =>
    intro s c l ⟨hc, hl, hh⟩
    exact ⟨_, exec_lockAcquire_waits hc hl hh, rfl, rfl⟩
  case grant =>
    intro s c l ⟨hh, hw⟩
    exact exec_lockGrant_waiter hh hw
  case release =>
    intro s c l ⟨hc, hl⟩
    exact exec_lockRelease_taken hc hl

end Sys2Proof.Machine
end

section
/-! Proofs of the rings of family 03 (R44, R46 to R48): what a ring and its commands read after an entry or a completion. -/
namespace Sys2Proof.Machine

/-! ### Reading rings -/

@[simp] theorem State.setEring_ering_same (s : State) (n : Nat) (r : ERing) : (s.setEring n r).ering n = r :=
  Assoc.get_set_same _ _ _ _

@[simp] theorem State.setEring_ering_other (s : State) (n m : Nat) (r : ERing) (h : m ≠ n) : (s.setEring n r).ering m = s.ering m :=
  Assoc.get_set_other _ _ _ _ _ _ h

@[simp] theorem State.setCring_cring_same (s : State) (n : Nat) (r : CRing) : (s.setCring n r).cring n = r :=
  Assoc.get_set_same _ _ _ _

@[simp] theorem State.setCring_ering (s : State) (n m : Nat) (r : CRing) : (s.setCring n r).ering m = s.ering m := (rfl)
@[simp] theorem State.emit_ering (s : State) (o : Out) (m : Nat) : (s.emit o).ering m = s.ering m := (rfl)

/-! ### Entries -/

/-- An entry changes the event rings and the interface alone. -/
theorem State.writeEntry_ctl (s : State) (n : Nat) (mk : Bool → Entry) (u : Bool) :
    (s.writeEntry n mk u).ctl = { s.ctl with erings := (s.writeEntry n mk u).ctl.erings } := by
  unfold State.writeEntry
  dsimp only
  split <;> rfl

/-- Its ring moves on by one and keeps its reservations. -/
theorem State.writeEntry_ering_same (s : State) (n : Nat) (mk : Bool → Entry) (u : Bool) :
    ((s.writeEntry n mk u).ering n).tail = (s.ering n).advance.tail ∧ ((s.writeEntry n mk u).ering n).reserved = (s.ering n).reserved := by
  unfold State.writeEntry
  dsimp only
  split <;> simp [ERing.advance]

@[simp] theorem State.writeEntry_ering_other (s : State) (n m : Nat) (mk : Bool → Entry) (u : Bool) (h : m ≠ n) :
    (s.writeEntry n mk u).ering m = s.ering m := by
  unfold State.writeEntry
  dsimp only
  split <;> simp [h]

/-- The entry stands at the ring's tail with the ring's phase. -/
theorem State.mem_writeEntry_out (s : State) (n : Nat) (mk : Bool → Entry) (u : Bool) :
    Out.ringEntry n (s.ering n).tail (mk (s.ering n).phase) ∈ (s.writeEntry n mk u).out := by
  unfold State.writeEntry
  dsimp only
  split <;> simp

/-! ### Completions -/

/-- A ring whose completion is no longer reserved. -/
def ERing.release (r : ERing) : ERing := { r with reserved := r.reserved - 1 }

/-- The entry fields of a command's completion. -/
def State.completionOf (s : State) (c : Started) (st : MStatus) (r0 r1 : Nat) : Completion :=
  ⟨c.ring, c.desc.cid, st.code, c.chead, r0, r1, s.now⟩

/-- The command is no longer started. -/
def State.takeOff (s : State) (c : Started) : State := { s with ctl.started := s.ctl.started.filter fun x => x.id ≠ c.id }

theorem State.postCompletion_released {s : State} {n : Nat} (ho : (s.ering n).owed = []) (hu : (s.ering n).used < (s.ering n).size)
    (k : Completion) : s.postCompletion n k = (s.setEring n (s.ering n).release).writeCompletion n k :=
  if_pos (by simp [ho]; exact hu)

theorem State.postCompletion_full {s : State} {n : Nat} (h : (s.ering n).owed ≠ [] ∨ (s.ering n).size ≤ (s.ering n).used)
    (k : Completion) :
    s.postCompletion n k = s.setEring n { s.ering n with reserved := (s.ering n).reserved - 1, owed := (s.ering n).owed ++ [k] } :=
  if_neg (by
    rcases h with h | h
    · simp [h]
    · exact fun hc => absurd (of_decide_eq_true (Bool.and_eq_true_iff.mp hc).2) (Nat.not_lt.mpr h))

/-- A completion changes the event rings alone of the control block. -/
theorem State.postCompletion_ctl (s : State) (n : Nat) (k : Completion) :
    (s.postCompletion n k).ctl = { s.ctl with erings := (s.postCompletion n k).ctl.erings } := by
  unfold State.postCompletion
  dsimp only
  split
  · exact State.writeEntry_ctl _ _ _ _
  · rfl

section Complete
variable {s : State} {c : Started}

/-- A command of a ring that takes completions has its completion posted. -/
theorem State.complete_posts (hr : c.ring ≠ carriedRing) (hd : c.drop = false) (hp : (s.ering c.ering).posts = true) (st : MStatus)
    (r0 r1 : Nat) : s.complete c st r0 r1 = (s.takeOff c).postCompletion c.ering (s.completionOf c st r0 r1) :=
  (if_neg hr).trans (if_neg (by rw [hd]; exact fun h => absurd ((congrArg not hp).symm.trans h) Bool.false_ne_true))

/-- A command whose completion is discarded only comes off. -/
theorem State.complete_discards (hr : c.ring ≠ carriedRing) (h : c.drop = true ∨ (s.ering c.ering).posts = false) (st : MStatus)
    (r0 r1 : Nat) : s.complete c st r0 r1 = s.takeOff c :=
  (if_neg hr).trans (if_pos (by
    rcases h with h | h
    · rw [h]; rfl
    · exact (Bool.or_eq_true _ _).mpr (.inr (congrArg not h))))

/-- A command carried from the holder is answered to it (log entry 103). -/
theorem State.complete_carried (hr : c.ring = carriedRing) (hd : c.drop = false) (st : MStatus) (r0 r1 : Nat) :
    s.complete c st r0 r1 = (s.takeOff c).sendTwin (.controlMsg (.taken c.desc.opcode.toNat)) :=
  (if_pos hr).trans (if_neg (by simp [hd]))

/-- Of the control block a completion changes the event rings and the list of started commands. -/
theorem State.complete_ctl (s : State) (c : Started) (st : MStatus) (r0 r1 : Nat) :
    (s.complete c st r0 r1).ctl = { (s.takeOff c).ctl with erings := (s.complete c st r0 r1).ctl.erings } := by
  unfold State.complete
  dsimp only
  split
  · split
    · rfl
    · simp [State.takeOff]
  · split
    · rfl
    · exact State.postCompletion_ctl _ _ _

@[simp] theorem State.complete_nonces (s : State) (c : Started) (st : MStatus) (r0 r1 : Nat) :
    (s.complete c st r0 r1).ctl.nonces = s.ctl.nonces := by
  rw [State.complete_ctl]; rfl

/-- With a released slot free the completion is written there, and its reservation is used. -/
theorem State.complete_writes (hr : c.ring ≠ carriedRing) (hd : c.drop = false) (hp : (s.ering c.ering).posts = true)
    (ho : (s.ering c.ering).owed = []) (hu : (s.ering c.ering).used < (s.ering c.ering).size) (st : MStatus) (r0 r1 : Nat) :
    s.complete c st r0 r1 = ((s.takeOff c).setEring c.ering (s.ering c.ering).release).writeCompletion c.ering (s.completionOf c st r0 r1) :=
  (State.complete_posts hr hd hp st r0 r1).trans (State.postCompletion_released (s := s.takeOff c) ho hu _)

end Complete

/-- Settles O11: each clause is the case of a completion that its hypotheses select. -/
theorem completionsUseTheirReservedSlot : Obligations.CompletionsUseTheirReservedSlot := by
  refine ⟨?written, ?waits, ?discarded, ?carried⟩
  case written =>
    intro s c st r0 r1 ⟨hr, hd, hp, ho, hu⟩
    have hstarted : (s.complete c st r0 r1).ctl.started = s.ctl.started.filter fun x => x.id ≠ c.id := by
      rw [State.complete_ctl]; rfl
    rw [State.complete_writes hr hd hp ho hu] at hstarted ⊢
    have hring := State.writeEntry_ering_same ((s.takeOff c).setEring c.ering (s.ering c.ering).release) c.ering
      (fun ph => .completion ph c.ring c.desc.cid st.code c.chead r0 r1 s.now) false
    have hentry := State.mem_writeEntry_out ((s.takeOff c).setEring c.ering (s.ering c.ering).release) c.ering
      (fun ph => .completion ph c.ring c.desc.cid st.code c.chead r0 r1 s.now) false
    rw [State.setEring_ering_same] at hring hentry
    obtain ⟨htail, hreserved⟩ := hring
    exact ⟨hentry, hreserved, htail, hstarted,
      fun n hn => (State.writeEntry_ering_other _ _ _ _ _ hn).trans (State.setEring_ering_other _ _ _ _ hn)⟩
  case waits =>
    intro s c st r0 r1 ⟨hr, hd, hp, h⟩
    exact (State.complete_posts hr hd hp st r0 r1).trans (State.postCompletion_full (s := s.takeOff c) h _)
  case discarded =>
    intro s c st r0 r1 ⟨hr, h⟩
    exact State.complete_discards hr h st r0 r1
  case carried =>
    intro s c st r0 r1 ⟨hr, hd⟩
    exact State.complete_carried hr hd st r0 r1

end Sys2Proof.Machine
end

section
/-! Proofs of the guard and of DRAIN of family 03 (R52 to R54, R373): the issue and the use of nonces, and the checks before a command. -/
namespace Sys2Proof.Machine

/-! ### Issue -/

/-- The nonce that Get Nonce issues now: a draw, valid for NONCE_LIFE seconds of shelf time. -/
def State.newNonce (s : State) : Nonce :=
  ⟨(s.random 128).1, s.now + s.fld Reg.CTL_GUARD_CFG_NONCE_LIFE * 1000000000⟩

/-- The outstanding nonces with the new one, before the oldest are discarded. -/
def State.withNewNonce (s : State) : List Nonce := (s.ctl.nonces.filter fun n => s.now < n.expires) ++ [s.newNonce]

/-- The nonce is issued: the newest 64 stay outstanding. -/
def State.issueNonce (s : State) : State :=
  { (s.random 128).2 with ctl.nonces := s.withNewNonce.drop (s.withNewNonce.length - 64) }

theorem State.newNonce_mem_issueNonce (s : State) : s.newNonce ∈ s.issueNonce.ctl.nonces := by
  change _ ∈ s.withNewNonce.drop _
  rw [State.withNewNonce, List.drop_append_of_le_length (by simp)]
  simp

theorem State.issueNonce_length (s : State) : s.issueNonce.ctl.nonces.length ≤ 64 := by
  change (s.withNewNonce.drop _).length ≤ 64
  rw [List.length_drop]
  omega

/-- With no nonce expired, those outstanding stay but for the oldest of 64. -/
theorem State.issueNonce_of_live {s : State} (h : ∀ n ∈ s.ctl.nonces, s.now < n.expires) :
    s.issueNonce.ctl.nonces =
      (if s.ctl.nonces.length < 64 then s.ctl.nonces else s.ctl.nonces.drop (s.ctl.nonces.length - 63)) ++ [s.newNonce] := by
  have hall : s.withNewNonce = s.ctl.nonces ++ [s.newNonce] :=
    congrArg (· ++ [s.newNonce]) (List.filter_eq_self.mpr fun n hn => decide_eq_true (h n hn))
  change s.withNewNonce.drop _ = _
  rw [hall, List.drop_append_of_le_length (by simp), List.length_append, List.length_singleton]
  split
  · next hlt => rw [show s.ctl.nonces.length + 1 - 64 = 0 by omega, List.drop_zero]
  · rfl

/-- Get Nonce answers the draw in RESULT0 and RESULT1. -/
theorem exec_getNonce_issues {s : State} {id : Nat} {c : Started} (h : s.AcceptsPlain id 2 [(0, 40)] c) (hr : s.sec.stopped = false)
    (hs : s.ctl.storm = false) :
    exec (.getNonce id) s = .next (s.issueNonce.complete c .success (s.newNonce.value.toNat % 2 ^ 64) (s.newNonce.value.toNat / 2 ^ 64)) := by
  change Host.Outcome.next (s.runPlain id 0x0002 [(0, 40)] _) = _
  rw [State.runPlain_accepted h, hr, hs]
  rfl

/-! ### Use -/

/-- A nonce whose value has one expiry is live before it. -/
theorem State.nonceLive_eq {s : State} {v : BitVec 128} {E : Nat} (hm : (⟨v, E⟩ : Nonce) ∈ s.ctl.nonces)
    (hu : ∀ n ∈ s.ctl.nonces, n.value = v → n.expires = E) : s.nonceLive v = decide (s.now < E) := by
  rw [Bool.eq_iff_iff, decide_eq_true_iff, State.nonceLive, List.any_eq_true]
  constructor
  · rintro ⟨n, hn, h⟩
    obtain ⟨hv, hlt⟩ := Bool.and_eq_true_iff.mp h
    exact hu n hn (of_decide_eq_true hv) ▸ of_decide_eq_true hlt
  · exact fun h => ⟨_, hm, by simpa using h⟩

theorem State.nonceLive_spendNonce (s : State) (v : BitVec 128) : (s.spendNonce v).nonceLive v = false := by
  rw [State.nonceLive, List.any_eq_false]
  intro n hn
  have hv : n.value ≠ v := of_decide_eq_true (List.mem_filter.mp hn).2
  simp [hv]

@[simp] theorem State.guardFail_nonces (s : State) (k : Nat) (st : MStatus) : (s.guardFail k st).ctl.nonces = s.ctl.nonces := by
  unfold State.guardFail
  dsimp only
  split <;> simp

/-- Liveness reads the list of nonces and shelf time. -/
theorem State.nonceLive_congr {s t : State} (hn : t.ctl.nonces = s.ctl.nonces) (ht : t.now = s.now) (v : BitVec 128) :
    t.nonceLive v = s.nonceLive v := by
  rw [State.nonceLive, hn, ht]; rfl

theorem State.guardFail_nonceLive (s : State) (k : Nat) (st : MStatus) (v : BitVec 128) : (s.guardFail k st).nonceLive v = s.nonceLive v :=
  State.nonceLive_congr (State.guardFail_nonces s k st) (State.guardFail_now s k st) v

/-- The guard checks pass only with a live nonce, which is their second check. -/
theorem State.guardChecks_dead {s : State} {d : Descriptor} {e : Envelope} : s.guardChecks d e false ≠ none := by
  unfold State.guardChecks
  dsimp only
  split <;> simp

section Guard
variable {s : State} {c : Started} {e : Envelope} {payOk : Nat → Bool}

/-- With every check passed the nonce is consumed and nothing else changes. -/
theorem State.runGuard_passes (he : c.env = some e) (hf : envelopeOk c.desc e payOk = true) (hk : s.guardKeyOk c.desc e = true)
    (hg : s.guardChecks c.desc e (s.nonceLive e.nonce) = none) : s.runGuard c payOk = (s.spendNonce e.nonce, none) := by
  unfold State.runGuard
  rw [he]
  simp [hf, hk, hg]

/-- A check that fails counts as a failure of the guard, and the nonce is consumed all the same. -/
theorem State.runGuard_fails {st : MStatus} (he : c.env = some e) (hf : envelopeOk c.desc e payOk = true)
    (hk : s.guardKeyOk c.desc e = true) (hg : s.guardChecks c.desc e (s.nonceLive e.nonce) = some st) :
    s.runGuard c payOk = ((s.spendNonce e.nonce).guardFail e.adminSlot.toNat st, some st) := by
  unfold State.runGuard
  rw [he]
  simp [hf, hk, hg]

end Guard

/-- Settles O7: what Get Nonce issues, what liveness of one outstanding nonce is, and what the guard does with the envelope's nonce. -/
theorem noncesAreIssuedForALifeAndUsedOnce : Obligations.NoncesAreIssuedForALifeAndUsedOnce := by
  refine ⟨?issued, ?live, ?used⟩
  case issued =>
    intro s id c ⟨h, hr, hs⟩
    refine ⟨_, exec_getNonce_issues h hr hs, ?_⟩
    rw [State.complete_nonces]
    exact ⟨s.newNonce_mem_issueNonce, s.issueNonce_length, State.issueNonce_of_live⟩
  case live =>
    intro s τ E v ⟨hm, hu⟩
    exact State.nonceLive_eq (s := { s with tim.ns := τ }) hm hu
  case used =>
    intro s c e payOk ⟨he, hf, hk⟩
    have hspent := s.nonceLive_spendNonce e.nonce
    cases hg : s.guardChecks c.desc e (s.nonceLive e.nonce) with
    | none =>
      rw [State.runGuard_passes he hf hk hg]
      refine ⟨hspent, fun _ => ?_⟩
      by_contra hdead
      rw [Bool.eq_false_of_not_eq_true hdead] at hg
      exact State.guardChecks_dead hg
    | some st =>
      rw [State.runGuard_fails he hf hk hg]
      exact ⟨(State.guardFail_nonceLive _ _ _ _).trans hspent, nofun⟩

/-! ### DRAIN -/

theorem mgmtRow_opcode {op : Nat} {r : MgmtRow} (h : mgmtRow op = some r) : r.opcode = op :=
  of_decide_eq_true (List.find?_some (p := fun r : MgmtRow => decide (r.opcode = op)) h)

/-- The check of DRAIN follows the form of the descriptor and comes before every other. -/
theorem State.commonChecks_draining {s : State} {r : MgmtRow} {d : Descriptor} (hw : d.wellFormed = true) (hs : s.pwr.st = .drain)
    (hr : r.opcode ∉ drainOps) (rs : List (Nat × Nat)) : s.commonChecks r rs d = some .deviceDraining := by
  simp [State.commonChecks, hw, hs, hr]

/-- A row that R52 allows in DRAIN is never refused for it. -/
theorem State.commonChecks_allowed {s : State} {r : MgmtRow} (hr : r.opcode ∈ drainOps) (rs : List (Nat × Nat)) (d : Descriptor) :
    s.commonChecks r rs d ≠ some .deviceDraining := by
  have hc : (decide (s.pwr.st = .drain) && !drainOps.contains r.opcode) = false := by
    rw [List.contains_iff_mem.mpr hr]; exact Bool.and_false _
  simp only [State.commonChecks, hc, Bool.false_eq_true, if_false]
  split_ifs <;> simp

/-- A command of this twin's rings that fails a check of R373 completes with that check's status. -/
theorem State.runMgmt_refused {s : State} {id op : Nat} {rsvd : List (Nat × Nat)} {payOk : Nat → Bool} {sel : Descriptor → Bool}
    {c : Started} {r : MgmtRow} {st : MStatus}
    (hf : s.ctl.started.find? (fun c => c.id = id && c.desc.opcode.toNat = op && !c.waits && sel c.desc) = some c)
    (hr : mgmtRow op = some r) (hc : c.ring ≠ carriedRing) (hs : s.commonChecks r rsvd c.desc = some st)
    (body : Started → State → State) : s.runMgmt id op rsvd payOk sel body = s.complete c st := by
  unfold State.runMgmt
  rw [hf, hr]
  dsimp only
  rw [if_neg hc, hs]

/-- Settles O9: in DRAIN the third check refuses every row but those of R52. -/
theorem drainRefusesAllButFourCommands : Obligations.DrainRefusesAllButFourCommands := by
  refine ⟨?refused, ?allowed⟩
  case refused =>
    intro s id op c r rs pay sel body ⟨hs, hf, hr, hc, hw, ho⟩
    have hop : r.opcode ∉ drainOps := (mgmtRow_opcode hr).symm ▸ ho
    exact State.runMgmt_refused hf hr hc (State.commonChecks_draining hw hs hop rs) body
  case allowed =>
    intro s op r rs d ⟨hr, ho⟩
    exact State.commonChecks_allowed ((mgmtRow_opcode hr).symm ▸ ho) rs d

end Sys2Proof.Machine
end

section
/-! Proofs of the event sources of family 03 (R56, R57): an occurrence is coalesced into its source. -/
namespace Sys2Proof.Machine

/-! ### Occurrences -/

theorem Src.occur_of_ringEn {e : Src} (h : e.ringEn = true) (d : List Nat) (t : Nat) :
    e.occur d t = { e with pend := true, count := if e.count = 0 then 1 else min (e.count + 1) 65535,
                           detail := if e.count = 0 then d else e.detail, time := if e.count = 0 then t else e.time } := by
  unfold Src.occur
  rw [if_pos h]
  split <;> rfl

theorem Src.occur_of_not_ringEn {e : Src} (h : e.ringEn = false) (d : List Nat) (t : Nat) : e.occur d t = { e with pend := true } :=
  if_neg (by simp [h])

/-! ### ALERT_N -/

/-- What reads as other than the default is listed. -/
theorem Assoc.mem_of_get_ne {α : Type} {d : α} {m : Assoc α} {k : Nat} (h : m.get d k ≠ d) : (k, m.get d k) ∈ m := by
  induction m with
  | nil => exact absurd rfl h
  | cons e m ih =>
    obtain ⟨i, v⟩ := e
    by_cases hk : i = k
    · simp [Assoc.get, hk]
    · simp only [Assoc.get, if_neg hk] at h ⊢
      exact List.mem_cons_of_mem _ (ih h)

/-- A pending NMI source asserts ALERT_N. -/
theorem State.alert_of_pend {s : State} {n : Nat} (hc : srcClass n = .nmi) (hp : (s.src n).pend = true) : s.alert = true := by
  have hne : s.src n ≠ {} := fun h => absurd (hp.symm.trans (congrArg Src.pend h)) Bool.noConfusion
  exact List.any_eq_true.mpr ⟨_, Assoc.mem_of_get_ne hne, by simp [hc]; exact hp⟩

/-- Settles O10: an occurrence changes its own source as R56 says, and a pending NMI asserts ALERT_N. -/
theorem occurrencesAreCoalescedNeverDropped : Obligations.OccurrencesAreCoalescedNeverDropped := by
  refine ⟨?counted, ?uncounted, ?other, ?alert⟩
  case counted =>
    intro s n d h
    exact (State.raise_src_same s n d).trans (Src.occur_of_ringEn h d s.now)
  case uncounted =>
    intro s n d h
    exact (State.raise_src_same s n d).trans (Src.occur_of_not_ringEn h d s.now)
  case other =>
    intro s n m d h
    exact State.raise_src_other s n m d h
  case alert =>
    intro s n d h
    exact State.alert_of_pend h (by rw [State.raise_src_same]; exact Src.occur_pend _ _ _)

end Sys2Proof.Machine
end

section
/-! Proofs of the resets of family 03 (R59, R338, R339, Table 17-6), of the ends of a hook (R71) and of a gate change (R145, R147). -/
namespace Sys2Proof.Machine

/-! ### What the loss of the fabric links leaves alone -/

/-- The blocks that no frame and no fabric link belongs to: time, identity, trust, layout, power and clocks. -/
def State.outsideLinks (s : State) : Tim × Glb × Sec × Lay × Pwr × Clk := (s.tim, s.glb, s.sec, s.lay, s.pwr, s.clk)

@[simp] theorem State.foldl_outsideLinks {α : Type} (g : State → α → State) (h : ∀ u a, (g u a).outsideLinks = u.outsideLinks)
    (l : List α) (s : State) : (l.foldl g s).outsideLinks = s.outsideLinks := State.foldl_keeps State.outsideLinks g h l s

@[simp] theorem State.outsideLinks_ite (c : Prop) [Decidable c] (a b : State) :
    (if c then a else b).outsideLinks = if c then a.outsideLinks else b.outsideLinks := apply_ite State.outsideLinks c a b

@[simp] theorem State.withSwc_outsideLinks (s : State) (x : Swc) : ({ s with swc := x } : State).outsideLinks = s.outsideLinks := rfl

@[simp] theorem State.emit_outsideLinks (s : State) (o : Out) : (s.emit o).outsideLinks = s.outsideLinks := rfl

@[simp] theorem State.setSub_outsideLinks (s : State) (k : Nat) (x : SubPort) : (s.setSub k x).outsideLinks = s.outsideLinks := rfl

@[simp] theorem State.sendTwin_outsideLinks (s : State) (o : Out) : (s.sendTwin o).outsideLinks = s.outsideLinks := by
  simp [State.outsideLinks]

@[simp] theorem State.raise_outsideLinks (s : State) (n : Nat) (d : List Nat) : (s.raise n d).outsideLinks = s.outsideLinks := by
  simp [State.outsideLinks]

@[simp] theorem State.giveCells_outsideLinks (s : State) (n : Nat) : (s.giveCells n).outsideLinks = s.outsideLinks := by
  simp [State.giveCells]

@[simp] theorem State.removeFrame_outsideLinks (s : State) (f : Frame) : (s.removeFrame f).outsideLinks = s.outsideLinks := by
  simp [State.removeFrame]

@[simp] theorem State.deliver_outsideLinks (s : State) (f : Frame) : (s.deliver f).outsideLinks = s.outsideLinks := by
  unfold State.deliver
  dsimp only
  split <;> exact State.removeFrame_outsideLinks s f

@[simp] theorem State.releaseFrame_outsideLinks (s : State) (i : Nat) : (s.releaseFrame i).outsideLinks = s.outsideLinks := by
  unfold State.releaseFrame
  split
  · rfl
  · simp [State.updFrame]

@[simp] theorem State.setReseq_outsideLinks (s : State) (eg : Bool) (c : Nat) (r : Reseq) :
    (s.setReseq eg c r).outsideLinks = s.outsideLinks := by
  simp [State.setReseq]

@[simp] theorem State.settleReseq_outsideLinks (s : State) (eg : Bool) (c : Nat) (r : Reseq) :
    (s.settleReseq eg c r).outsideLinks = s.outsideLinks := by
  simp [State.settleReseq]

@[simp] theorem State.discardSeq_outsideLinks (s : State) (eg : Bool) (c q : Nat) : (s.discardSeq eg c q).outsideLinks = s.outsideLinks := by
  simp [State.discardSeq]

@[simp] theorem State.dropFrame_outsideLinks (s : State) (f : Frame) : (s.dropFrame f).outsideLinks = s.outsideLinks := by
  unfold State.dropFrame
  dsimp only
  split <;> split <;> simp

@[simp] theorem State.dropLink_outsideLinks (s : State) (k : Nat) : (s.dropLink k).outsideLinks = s.outsideLinks := by
  refine State.foldl_outsideLinks _ (fun u f => ?_) _ s
  split_ifs <;> simp

@[simp] theorem State.subDown_outsideLinks (s : State) (k : Nat) : (s.subDown k).outsideLinks = s.outsideLinks := by
  simp [State.subDown, State.linkEvent]

@[simp] theorem State.portDown_outsideLinks (s : State) (n : Nat) : (s.portDown n).outsideLinks = s.outsideLinks := by
  simp [State.portDown]

@[simp] theorem State.darken_outsideLinks (s : State) : s.darken.outsideLinks = s.outsideLinks := by
  simp [State.darken]

theorem State.darken_blocks (s : State) : s.darken.tim = s.tim ∧ s.darken.glb = s.glb ∧ s.darken.sec = s.sec ∧ s.darken.lay = s.lay ∧
    s.darken.pwr = s.pwr ∧ s.darken.clk = s.clk := by
  simpa only [State.outsideLinks, Prod.mk.injEq] using s.darken_outsideLinks

/-! ### The cause of a reset -/

theorem getBits_bit (w : Word) (b : Nat) : getBits w b b = (w.getLsbD b).toNat := by
  rw [getBits, Nat.add_sub_cancel_left, pow_one, ← Nat.toNat_testBit]
  rfl

/-- Setting one bit of a word. -/
theorem setBits_bit (w : Word) (b : Nat) : setBits w b b 1 = w ||| BitVec.twoPow 32 b := by
  rw [setBits, getBits_bit, Nat.add_sub_cancel_left]
  cases hb : w.getLsbD b with
  | true =>
    have hle : 2 ^ b ≤ w.toNat := Nat.ge_two_pow_of_testBit hb
    rw [show w.toNat - true.toNat * 2 ^ b + 1 % 2 ^ 1 * 2 ^ b = w.toNat by simp; omega, BitVec.ofNat_toNat, BitVec.setWidth_eq]
    ext i hi
    by_cases h : i = b
    · subst h; simp_all
    · simp [h]
  | false =>
    rw [← BitVec.add_eq_or_of_and_eq_zero]
    · exact BitVec.eq_of_toNat_eq (by simp [BitVec.toNat_twoPow])
    · ext i hi
      by_cases h : i = b
      · subst h; simp_all
      · simp [h]

/-- A bit set stays set while others are set, and every bit named is set. -/
theorem getLsbD_foldl_setBits {b : Nat} (hb : b < 32) (cs : List Nat) (w : Word) (h : b ∈ cs ∨ w.getLsbD b = true) :
    (cs.foldl (fun w c => setBits w c c 1) w).getLsbD b = true := by
  induction cs generalizing w with
  | nil => simpa using h
  | cons c cs ih =>
    rw [List.foldl_cons]
    apply ih
    rw [setBits_bit]
    rcases h with h | h
    · rcases List.mem_cons.mp h with rfl | h
      · exact .inr (by simp [hb])
      · exact .inl h
    · exact .inr (by simp [h])

/-! ### A full-device reset -/

/-- A powered device that is in no hold and no reset begins one. -/
theorem State.fullReset_begins {s : State} (hp : s.pwr.powered = true) (hr : s.pwr.railHold = false) (ht : s.pwr.thermHold = false)
    (hh : s.clk.resetHold = none) (cs : List Nat) : s.fullReset cs = s.beginReset cs := by
  simp [State.fullReset, hp, hr, ht, hh]

/-- What a full-device reset that begins in `s` leaves in `t` (Table 17-6): the hold of 10 µs and the pin, the always-on domain and HBM;
rings, sources, calls and shadows are gone. -/
structure ResetFrame (s t : State) : Prop where
  resetHold : t.clk.resetHold = some (s.now + 10000)
  pinHeld : t.clk.pinHeld = s.clk.pinHeld
  ctl : t.ctl = {}
  evt : t.evt = {}
  tck : t.tck = {}
  shadow : t.shadow = []
  glb : t.glb = s.glb
  fuse : t.sec.fuse = s.sec.fuse
  volumes : t.lay.volumes = s.lay.volumes
  mem : t.mem = s.mem.filter fun c => decide (0x1000000000 ≤ c.1)
  pending : t.pending = s.pending

theorem State.beginReset_frame (s : State) (cs : List Nat) : ResetFrame s (s.beginReset cs) := by
  obtain ⟨htim, hglb, hsec, hlay, -, hclk⟩ := s.darken_blocks
  obtain ⟨hpending, hmem⟩ := s.darken_same
  have hpin : s.darken.clk.pinHeld = s.clk.pinHeld := by rw [hclk]
  have hfuse : s.darken.sec.fuse = s.sec.fuse := by rw [hsec]
  have hvolumes : s.darken.lay.volumes = s.lay.volumes := by rw [hlay]
  unfold State.beginReset
  generalize s.darken = u at *
  exact {
    resetHold := congrArg (fun t : Tim => some (t.ns + 10000)) htim
    pinHeld := hpin
    ctl := rfl
    evt := rfl
    tck := rfl
    shadow := rfl
    glb := hglb
    fuse := hfuse
    volumes := hvolumes
    mem := congrArg (List.filter fun c : Host.Cell => decide (0x1000000000 ≤ c.1)) hmem
    pending := hpending }

theorem State.resetCauses_rg (s : State) (cs : List Nat) :
    (s.resetCauses cs).rg 0x20 = cs.foldl (fun w b => setBits w b b 1) (s.rg 0x20) := State.setRg_rg_same _ _ _

/-- A reset sets the causes given, and may set others. -/
theorem State.beginReset_causes (s : State) (cs : List Nat) :
    ∃ (l : List Nat) (w : Word), (s.beginReset cs).rg 0x20 = l.foldl (fun w b => setBits w b b 1) w ∧ ∀ b ∈ cs, b ∈ l := by
  unfold State.beginReset
  generalize s.darken = u
  exact ⟨_, _, (State.setRg_rg_other _ _ _ _ (by decide)).trans (u.kept.resetCauses_rg _), fun b hb => by simp [hb]⟩

/-- GLB_RESET_CAUSE shows each cause of the reset. -/
theorem State.beginReset_cause (s : State) {cs : List Nat} {b : Nat} (hb : b < 32) (h : b ∈ cs) :
    (s.beginReset cs).flag ⟨0x20, b, b⟩ = true := by
  obtain ⟨l, w, hl, hcs⟩ := s.beginReset_causes cs
  rw [State.flag_iff, State.fld, getBits_bit, hl, getLsbD_foldl_setBits hb l w (.inl (hcs b h))]
  rfl

theorem exec_glbResetWrite_key (s : State) : exec (.glbResetWrite 0xD15CA4D0) s = .next (s.fullReset [2]) := by
  change execGlbResetWrite _ s = _
  simp only [execGlbResetWrite, decide_true, State.when_true]

theorem exec_glbResetWrite_other {v : Word} (h : v ≠ 0xD15CA4D0) (s : State) : exec (.glbResetWrite v) s = .next s := by
  change execGlbResetWrite v s = _
  simp only [execGlbResetWrite, decide_eq_false h, State.when_false]

theorem exec_resetPin_high {s : State} (hp : s.pwr.powered = true) (hh : s.clk.pinHeld = false) :
    exec .resetPin s = .next (({ s with clk.pinHeld := true } : State).fullReset [1]) := by
  change execResetPin s = _
  simp only [execResetPin, hp, hh, Bool.not_false, Bool.and_self, State.when_true]

theorem exec_autoReset_due {s : State} {w : Nat} (hw : s.ctl.wedgedAt = some w) (hf : s.flag Reg.GLB_WDOG_AUTO_RESET = true) :
    exec .autoReset s = .next ((s.reach (w + 1000000)).fullReset [3]) := by
  change execAutoReset s = _
  unfold execAutoReset
  rw [hw]
  exact congrArg _ (if_pos hf)

/-- The state in which the hold of a reset has ended at `e`, and the rails and clocks count as started (R338, R340). -/
def State.holdEnded (s : State) (e : Nat) : State := ({ s.reach e with clk.resetHold := none, tim.corr := 0 }).startupBit 0

/-- What starts then: the boot with the tree running, else the ROM on FIO once that is ready. -/
def State.startWarm (s : State) : State :=
  let s : State := if s.clk.fioReady then s else { s with clk.fioStart := some s.now }
  if !s.clk.starting then s.boot else if s.clk.fioReady then s.romOnFio else s

theorem State.startWarm_ready {s : State} (h : s.clk.fioReady = true) : s.startWarm = if s.clk.starting then s.romOnFio else s.boot := by
  unfold State.startWarm
  rw [if_pos h]
  cases hs : s.clk.starting <;> simp [hs, h]

/-- With RESET_N high the warm start begins when the hold ends. -/
theorem exec_resetRelease_high {s : State} {e : Nat} (hh : s.clk.resetHold = some e) (hp : s.clk.pinHeld = false) :
    exec .resetRelease s = .next (s.holdEnded e).startWarm := by
  change execResetRelease s = _
  unfold execResetRelease
  rw [hh, hp]
  rfl

@[simp] theorem State.holdEnded_fioReady (s : State) (e : Nat) : (s.holdEnded e).clk.fioReady = s.clk.fioReady := by
  simp [State.holdEnded, State.startupBit]

@[simp] theorem State.holdEnded_starting (s : State) (e : Nat) : (s.holdEnded e).clk.starting = s.clk.starting := by
  simp [State.holdEnded, State.startupBit]

/-! ### Hooks and gates -/

theorem exec_hookReturn_defined {s : State} {core : Fin 256} {code : Nat} {r : HookRun} (hc : s.coreRuns core = true)
    (hr : s.runOn core = some r) (hd : code < hookCodes r.hook) :
    exec (.hookReturn core code) s = .next ((s.endRun core).hookAct r.hook r.subject code).hookBoundary := by
  change execHookReturn core code s = _
  simp only [execHookReturn, hc, State.when_true, hr, if_pos hd]

theorem exec_hookOverrun_running {s : State} {core : Fin 256} {r : HookRun} (hr : s.runOn core = some r) :
    exec (.hookOverrun core) s = .next (s.abandon r Ev.EXT_OVERRUN) := by
  change execHookOverrun core s = _
  simp only [execHookOverrun, hr]

theorem exec_hookFault_running {s : State} {core : Fin 256} {r : HookRun} (hr : s.runOn core = some r) :
    exec (.hookFault core) s = .next (s.abandon r Ev.EXT_FAULT) := by
  change execHookFault core s = _
  simp only [execHookFault, hr]

/-- A list that is due moves to the entry in force at that instant, and its slot to the next change. -/
theorem exec_slalomGateChange_due {s : State} {l : Fin 12} {k : Nat} (hk : (s.slalom l).slot = some k)
    (he : (s.slalom l).enabled = true) (ha : (s.slot k).armed = true) (hw : (s.slalom l).swapFirst (s.slot k).compare = false) :
    exec (.slalomGateChange l) s = .next ((((s.reach (s.slot k).compare).setSlalom l
      { s.slalom l with entry := (s.slalom l).cfg.entryAt (max s.now (s.slot k).compare) }).setSlot k
      { s.slot k with compare := (s.slalom l).nextFire (max s.now (s.slot k).compare) }).gatesMoved l (s.gates l)) := by
  change execSlalomGateChange l s = _
  simp [execSlalomGateChange, hk, he, ha, hw, State.reach_now]

/-- Settles O13: each clause is the case of its command that its hypotheses select; a reset's clauses read what it keeps. -/
theorem resetsKeepWhatTheTableKeeps : Obligations.ResetsKeepWhatTheTableKeeps := by
  refine ⟨?key, ?other, ?pin, ?auto, ?pinHigh, ?release, ?tap, ?hookReturn, ?hookEnds, ?gate⟩
  case key =>
    intro s ⟨hp, hr, ht, hh⟩
    have f := s.beginReset_frame [2]
    refine ⟨s.beginReset [2], ?_, f.resetHold, f.ctl, f.evt, f.tck, f.shadow, f.glb, f.fuse, f.volumes, f.mem,
      s.beginReset_cause (by decide) (List.mem_singleton_self 2), f.pending⟩
    rw [exec_glbResetWrite_key, State.fullReset_begins hp hr ht hh]
  case other =>
    intro s v h
    exact exec_glbResetWrite_other h s
  case pin =>
    intro s ⟨hp, hn, hr, ht, hh⟩
    let u : State := { s with clk.pinHeld := true }
    have f := u.beginReset_frame [1]
    refine ⟨u.beginReset [1], ?_, f.resetHold, f.pinHeld, f.ctl, f.glb, f.fuse, u.beginReset_cause (by decide) (List.mem_singleton_self 1)⟩
    rw [exec_resetPin_high hp hn, State.fullReset_begins (s := u) hp hr ht hh]
  case auto =>
    intro s w ⟨hw, hf, hp, hr, ht, hh⟩
    have f := (s.reach (w + 1000000)).beginReset_frame [3]
    refine ⟨_, ?_, s.reach_now _ ▸ f.resetHold, f.ctl, f.glb.trans (s.reach_glb _),
      State.beginReset_cause _ (by decide) (List.mem_singleton_self 3)⟩
    rw [exec_autoReset_due hw hf, State.fullReset_begins] <;> simpa
  case pinHigh => exact fun s => rfl
  case release =>
    intro s e ⟨hh, hp, hf⟩
    rw [exec_resetRelease_high hh hp, State.startWarm_ready ((s.holdEnded_fioReady e).trans hf), State.holdEnded_starting]
    rfl
  case tap => exact fun s => rfl
  case hookReturn =>
    intro s core code r ⟨hc, hr, hd⟩
    exact exec_hookReturn_defined hc hr hd
  case hookEnds =>
    intro s core r hr
    exact ⟨exec_hookOverrun_running hr, exec_hookFault_running hr⟩
  case gate =>
    intro s l k ⟨hk, he, ha, hw⟩
    exact exec_slalomGateChange_due hk he ha hw

end Sys2Proof.Machine
end

section
/-! Proofs of the rings of family 03 (R42, R43, R45, R47, R58, R60): their configuration, their doorbells, their errors and their reset. -/
namespace Sys2Proof.Machine

/-! ### What an operation on rings leaves alone -/

/-- The state with its rings and started commands left out. -/
def State.beyondRings (s : State) : State := { s with ctl.crings := [], ctl.erings := [], ctl.started := [] }

theorem State.eq_of_beyondRings {s t : State} (h : t.beyondRings = s.beyondRings) :
    t = { s with ctl := { s.ctl with crings := t.ctl.crings, erings := t.ctl.erings, started := t.ctl.started } } :=
  congrArg (fun u : State => { u with ctl := { u.ctl with crings := t.ctl.crings, erings := t.ctl.erings, started := t.ctl.started } }) h

@[simp] theorem State.foldl_beyondRings {α : Type} (g : State → α → State) (h : ∀ u a, (g u a).beyondRings = u.beyondRings)
    (l : List α) (s : State) : (l.foldl g s).beyondRings = s.beyondRings := State.foldl_keeps State.beyondRings g h l s

@[simp] theorem State.setCring_beyondRings (s : State) (n : Nat) (r : CRing) : (s.setCring n r).beyondRings = s.beyondRings := rfl

@[simp] theorem State.unreserve_beyondRings (s : State) (n : Nat) : (s.unreserve n).beyondRings = s.beyondRings := rfl

/-- The state without the commands fetched from ring `n` and not started (R43). -/
def State.dropUnstarted (s : State) (n : Nat) : State :=
  let gone := s.ctl.started.filter fun c => c.ring = n && s.unstarted c
  gone.foldl (fun s c => s.unreserve c.ering) { s with ctl.started := s.ctl.started.filter fun c => !(gone.any fun x => x.id = c.id) }

@[simp] theorem State.dropUnstarted_beyondRings (s : State) (n : Nat) : (s.dropUnstarted n).beyondRings = s.beyondRings :=
  State.foldl_beyondRings (fun (u : State) (c : Started) => u.unreserve c.ering) (fun u c => u.unreserve_beyondRings c.ering) _ _

@[simp] theorem State.stopRing_beyondRings (s : State) (n : Nat) : (s.stopRing n).beyondRings = s.beyondRings := by
  change ((if (s.cring n).fence.isSome then (s.dropUnstarted n).unreserve (s.cring n).ering else s.dropUnstarted n).setCring n _).beyondRings = _
  split <;> simp

@[simp] theorem State.disableRings_beyondRings (s : State) : s.disableRings.beyondRings = s.beyondRings :=
  State.foldl_beyondRings State.stopRing State.stopRing_beyondRings _ s

/-- Disabling the rings changes the control block alone. -/
theorem State.disableRings_frame (s : State) : ∃ c, s.disableRings = { s with ctl := c } :=
  ⟨_, State.eq_of_beyondRings s.disableRings_beyondRings⟩

/-- The state with its event sources left out. -/
def State.beyondSources (s : State) : State := { s with evt.srcs := [] }

theorem State.eq_of_beyondSources {s t : State} (h : t.beyondSources = s.beyondSources) : t = { s with evt.srcs := t.evt.srcs } :=
  congrArg (fun u : State => { u with evt.srcs := t.evt.srcs }) h

theorem State.settleAll_beyondSources (s : State) : s.settleAll.beyondSources = s.beyondSources :=
  State.foldl_keeps State.beyondSources State.settleSrc (fun _ _ => rfl) _ s

/-- Settling counts changes the event sources alone (R60). -/
theorem State.settleAll_frame (s : State) : ∃ x, s.settleAll = { s with evt.srcs := x } :=
  ⟨_, State.eq_of_beyondSources s.settleAll_beyondSources⟩

@[simp] theorem State.settleAll_ctl (s : State) : s.settleAll.ctl = s.ctl := by
  obtain ⟨x, h⟩ := s.settleAll_frame
  rw [h]

@[simp] theorem State.settleAll_fld (s : State) (r : Ref) : s.settleAll.fld r = s.fld r := by
  obtain ⟨x, h⟩ := s.settleAll_frame
  rw [h]
  rfl

@[simp] theorem State.disableRings_fld (s : State) (r : Ref) : s.disableRings.fld r = s.fld r := by
  obtain ⟨c, h⟩ := s.disableRings_frame
  rw [h]
  rfl

@[simp] theorem State.disableRings_nonces (s : State) : s.disableRings.ctl.nonces = s.ctl.nonces := by
  rw [State.eq_of_beyondRings s.disableRings_beyondRings]

/-! ### All rings disabled -/

theorem Assoc.mem_mapAll {α : Type} [DecidableEq α] {d : α} {m : Assoc α} {f : Nat → α → α} {e : Nat × α} (h : e ∈ m.mapAll d f) :
    ∃ x ∈ m, e = (x.1, f x.1 x.2) := by
  obtain ⟨x, hx, he⟩ := List.mem_filterMap.mp h
  split at he
  · exact absurd he (by simp)
  · exact ⟨x, hx, (Option.some.inj he).symm⟩

theorem State.disableRings_crings (s : State) : ∀ e ∈ s.disableRings.ctl.crings, e.2.enabled = false := by
  intro e he
  obtain ⟨x, -, rfl⟩ := Assoc.mem_mapAll (d := ({} : CRing)) (f := fun _ r => { r with enabled := false }) he
  rfl

theorem State.disableRings_erings (s : State) : ∀ e ∈ s.disableRings.ctl.erings, e.2.enabled = false := by
  intro e he
  obtain ⟨x, -, rfl⟩ := Assoc.mem_mapAll (d := ({} : ERing)) (f := fun _ r => { r with enabled := false }) he
  rfl

theorem State.setFld_en_zero (s : State) : (s.setFld Reg.CTL_CFG_EN 0).fld Reg.CTL_CFG_EN = 0 :=
  State.setFld_fld_same s Reg.CTL_CFG_EN 0 (by decide) (by decide)

theorem exec_ctlDisableAll (s : State) : exec .ctlDisableAll s = .next (s.setFld Reg.CTL_CFG_EN 0).disableRings.settleAll := rfl

theorem State.disabled_frame {s t : State} (ht : t = (s.setFld Reg.CTL_CFG_EN 0).disableRings.settleAll) :
    t = { s with regs := t.regs, ctl := t.ctl, evt := t.evt } := by
  obtain ⟨c, hc⟩ := (s.setFld Reg.CTL_CFG_EN 0).disableRings_frame
  obtain ⟨x, hx⟩ := State.settleAll_frame { s.setFld Reg.CTL_CFG_EN 0 with ctl := c }
  rw [hc, hx] at ht
  rw [ht]
  rfl

/-! ### Configuration -/

section RingConfig
variable {s : State} {v : Word}

theorem exec_ringEnable_written (hv : getBits v 0 0 = 1) : exec (.ringEnable v) s = .next (s.writeRingCfg v) := by
  change execRingEnable v s = _
  simp only [execRingEnable, hv, decide_true, State.when_true]

theorem exec_ringDisable_written (hv : getBits v 0 0 = 0) : exec (.ringDisable v) s = .next (s.writeRingCfg v) := by
  change execRingDisable v s = _
  simp only [execRingDisable, hv, decide_true, State.when_true]

/-- An event ring is enabled and starts empty, with the reservations of commands still running (R42, R48). -/
theorem State.writeRingCfg_enables_ering (hv : getBits v 0 0 = 1) (hs : s.selEvent = true) (h4 : 4 ≤ getBits v 5 1) (h16 : getBits v 5 1 ≤ 16)
    (he : (s.ering s.selRing).enabled = false) (hc : s.flag Reg.CTL_CFG_EN = true) (hb : s.clk.bootDone = true) :
    s.writeRingCfg v = (s.setEring s.selRing
      { base := (s.ering s.selRing).base, enabled := true, log2 := getBits v 5 1, vector := getBits v 15 8,
        coalCount := (s.ering s.selRing).coalCount, coalTime := (s.ering s.selRing).coalTime, reserved := s.owes s.selRing }).settleAll := by
  simp [State.writeRingCfg, State.writeEringCfg, hv, hs, Nat.not_lt.mpr h4, Nat.not_lt.mpr h16, he, hc, hb]

/-- A command ring is enabled, bound to an enabled event ring, and starts empty (R42). -/
theorem State.writeRingCfg_enables_cring (hv : getBits v 0 0 = 1) (hs : s.selEvent = false) (h4 : 4 ≤ getBits v 4 1) (h12 : getBits v 4 1 ≤ 12)
    (he : (s.cring s.selRing).enabled = false) (hc : s.flag Reg.CTL_CFG_EN = true) (hb : s.clk.bootDone = true)
    (hr : (s.ering (getBits v 15 8)).enabled = true) :
    s.writeRingCfg v = s.setCring s.selRing
      { base := (s.cring s.selRing).base, enabled := true, log2 := getBits v 4 1, ering := getBits v 15 8 } := by
  simp [State.writeRingCfg, State.writeCringCfg, hv, hs, Nat.not_lt.mpr h4, Nat.not_lt.mpr h12, he, hc, hb, hr]

/-- A command ring is disabled with its size and binding kept, and stops (R43). -/
theorem State.writeRingCfg_disables_cring (hv : getBits v 0 0 = 0) (hs : s.selEvent = false) (h4 : 4 ≤ getBits v 4 1) (h12 : getBits v 4 1 ≤ 12)
    (he : (s.cring s.selRing).enabled = true) (hl : getBits v 4 1 = (s.cring s.selRing).log2)
    (hr : getBits v 15 8 = (s.cring s.selRing).ering) :
    s.writeRingCfg v = (s.setCring s.selRing { s.cring s.selRing with enabled := false }).stopRing s.selRing := by
  simp [State.writeRingCfg, State.writeCringCfg, hv, hs, Nat.not_lt.mpr h4, Nat.not_lt.mpr h12, he, hl.symm, hr.symm]

/-- An event ring that nothing needs, or that is in error, is disabled (R42). -/
theorem State.writeRingCfg_disables_ering (hv : getBits v 0 0 = 0) (hs : s.selEvent = true) (h4 : 4 ≤ getBits v 5 1) (h16 : getBits v 5 1 ≤ 16)
    (he : (s.ering s.selRing).enabled = true) (hl : getBits v 5 1 = (s.ering s.selRing).log2)
    (hn : s.eringBound s.selRing = false ∨ (s.ering s.selRing).err = true) :
    s.writeRingCfg v = (s.setEring s.selRing { s.ering s.selRing with enabled := false, vector := getBits v 15 8 }).settleAll := by
  have hfree : (s.eringBound s.selRing && !(s.ering s.selRing).err) = false := by
    rcases hn with h | h <;> simp [h]
  simp [State.writeRingCfg, State.writeEringCfg, hv, hs, Nat.not_lt.mpr h4, Nat.not_lt.mpr h16, he, hl.symm, hfree]

end RingConfig

/-! ### Doorbells -/

/-- Offset 4n of the page is the tail doorbell of command ring n. -/
theorem exec_cdbWrite_ring (s : State) (n : Fin 256) {idx : Nat} (hi : idx < 2 ^ 16) :
    exec (.cdbWrite (4 * n.val) 4 (BitVec.ofNat 32 idx)) s = .next (s.cdb n idx) := by
  have hoff : 4 * n.val < 0x400 := by omega
  have hn : 4 * n.val % 0x400 / 4 = n.val := by omega
  have hv : (BitVec.ofNat 32 idx).toNat = idx := by rw [BitVec.toNat_ofNat]; omega
  change execCdbWrite _ _ _ s = _
  rw [execCdbWrite, State.doorbell, hv, hn]
  simp [hoff, show ¬ 0x800 ≤ 4 * n.val by omega, show ¬ 65536 ≤ idx by omega]

/-- Offset 400h + 4n of the page is the head doorbell of event ring n. -/
theorem exec_edbWrite_ring (s : State) (n : Fin 256) {idx : Nat} (hi : idx < 2 ^ 16) :
    exec (.edbWrite (0x400 + 4 * n.val) 4 (BitVec.ofNat 32 idx)) s = .next (s.edb n idx) := by
  have hn : (0x400 + 4 * n.val) % 0x400 / 4 = n.val := by omega
  have hv : (BitVec.ofNat 32 idx).toNat = idx := by rw [BitVec.toNat_ofNat]; omega
  change execEdbWrite _ _ _ s = _
  rw [execEdbWrite, State.doorbell, hv, hn]
  simp [show ¬ 0x400 + 4 * n.val < 0x400 by omega, show ¬ 0x800 ≤ 0x400 + 4 * n.val by omega, show ¬ 65536 ≤ idx by omega,
    show (0x400 + 4 * n.val) % 4 = 0 by omega]

section CommandDoorbell
variable {s : State} {n idx : Nat} (he : (s.cring n).enabled = true)
include he

/-- A tail doorbell that moves the tail forward sets it. -/
theorem State.cdb_forward (hi : idx < (s.cring n).size) (ht : idx ≠ (s.cring n).tail)
    (hf : ((s.cring n).tail + (s.cring n).size - (s.cring n).head) % (s.cring n).size ≤
      (idx + (s.cring n).size - (s.cring n).head) % (s.cring n).size) : s.cdb n idx = s.setCring n { s.cring n with tail := idx } := by
  simp [State.cdb, he, Nat.not_le.mpr hi, ht, Nat.not_lt.mpr hf]

theorem State.cdb_beyond_size (hi : (s.cring n).size ≤ idx) : s.cdb n idx = s.raise Ev.DOORBELL_BAD [n, idx] := by
  simp [State.cdb, he, hi]

end CommandDoorbell

/-- A head doorbell releases the slots up to its index, into which owed completions go (R44). -/
theorem State.edb_releases {s : State} {n idx k : Nat} (he : (s.ering n).enabled = true) (hi : idx < (s.ering n).size)
    (hk : (idx + (s.ering n).size - (s.ering n).head) % (s.ering n).size = k) (h0 : 0 < k) (hu : k ≤ (s.ering n).used) :
    s.edb n idx = (s.setEring n { s.ering n with head := idx, used := (s.ering n).used - k }).writeOwed n (s.ering n).owed.length := by
  simp [State.edb, he, Nat.not_le.mpr hi, hk, Nat.ne_of_gt h0, Nat.not_lt.mpr hu]

/-! ### Errors -/

theorem exec_ringFault_command {s : State} {n : Fin 256} (he : (s.cring n).enabled = true) (hr : (s.cring n).err = false) :
    exec (.ringFault false n) s = .next (((s.setCring n { s.cring n with err := true }).stopRing n).raise Ev.RING_FAULT [0, n.val]) := by
  change execRingFault false n s = _
  simp only [execRingFault, he, hr, Bool.false_eq_true, if_false, Bool.not_false, Bool.and_self, State.when_true]

theorem exec_ringFault_event {s : State} {n : Fin 256} (he : (s.ering n).enabled = true) (hr : (s.ering n).err = false) :
    exec (.ringFault true n) s = .next ((s.setEring n { s.ering n with err := true }).raise Ev.RING_FAULT [1, n.val]) := by
  change execRingFault true n s = _
  simp only [execRingFault, he, hr, if_true, Bool.not_false, Bool.and_self, State.when_true]

/-! ### Reset of the management endpoint -/

/-- The control block after the reset: every ring and CTL register at its reset value, every completion to be dropped (R58). -/
def State.endpointCleared (s : State) : State :=
  let u := ((s.disableRings.setFld Reg.CTL_CFG_EN 0).setFld Reg.CTL_RING_SEL_RING 0).setFld Reg.CTL_RING_SEL_TYPE 0
  { u with ctl.crings := [], ctl.erings := [], ctl.rr := 0, ctl.started := u.ctl.started.map fun c => { c with drop := true },
           evt.msix := [], staged := u.staged.filter fun e => e.1 < 0x10000 || 0x14000 ≤ e.1 }

theorem exec_mgmtEndpointReset (s : State) : exec .mgmtEndpointReset s = .next (s.endpointCleared.settleAll.raise Ev.MGMT_FLR) := rfl

theorem State.endpointCleared_en (s : State) : s.endpointCleared.fld Reg.CTL_CFG_EN = 0 :=
  (State.setFld_fld_other _ Reg.CTL_RING_SEL_TYPE Reg.CTL_CFG_EN 0 (by decide)).trans
    ((State.setFld_fld_other _ Reg.CTL_RING_SEL_RING Reg.CTL_CFG_EN 0 (by decide)).trans s.disableRings.setFld_en_zero)

theorem State.endpointCleared_drops (s : State) : ∀ c ∈ s.endpointCleared.ctl.started, c.drop = true := by
  intro c hc
  obtain ⟨x, -, rfl⟩ := List.mem_map.mp hc
  rfl

theorem State.endpointCleared_frame (s : State) :
    ∃ r w c e, s.endpointCleared = { s with regs := r, staged := w, ctl := c, evt := e } := by
  obtain ⟨c, hc⟩ := s.disableRings_frame
  exact ⟨s.endpointCleared.regs, s.endpointCleared.staged, s.endpointCleared.ctl, s.endpointCleared.evt,
    by unfold State.endpointCleared; rw [hc]; rfl⟩

theorem State.endpointReset_frame {s t : State} (ht : t = s.endpointCleared.settleAll.raise Ev.MGMT_FLR) :
    t = { s with regs := t.regs, staged := t.staged, ctl := t.ctl, evt := t.evt, tel := t.tel } := by
  obtain ⟨r, w, c, e, hs⟩ := s.endpointCleared_frame
  obtain ⟨x, hx⟩ := s.endpointCleared.settleAll_frame
  rw [hx, State.raise_frame _ (by decide) (by decide), hs] at ht
  rw [ht]

/-! ### The routing of a source -/

/-- What a source's settings and pending bit read. -/
def Src.settings (e : Src) : Bool × Bool × Nat × Bool := (e.ringEn, e.alertEn, e.ering, e.pend)

@[simp] theorem Src.foldl_merge_settings (l : List OldCount) (e : Src) : (l.foldl Src.merge e).settings = e.settings := by
  induction l generalizing e with
  | nil => rfl
  | cons o l ih => exact (ih (e.merge o)).trans rfl

@[simp] theorem State.setSrc_src_same (s : State) (n : Nat) (e : Src) : (s.setSrc n e).src n = e := Assoc.get_set_same _ _ _ _

/-- The counts that a source keeps do not change how it is routed (R60). -/
theorem Src.route_settings (e : Src) (r a : Bool) (n : Nat) : (e.route r a n).settings = (r, a, n, e.pend) := by
  unfold Src.route
  split
  · next h =>
    obtain ⟨hr, hn⟩ := Bool.and_eq_true_iff.mp h
    rw [of_decide_eq_true hr, of_decide_eq_true hn]
    rfl
  · dsimp only
    split
    · exact (Src.foldl_merge_settings _ _).trans rfl
    · rfl

theorem State.settleSrc_settings (s : State) (n : Nat) : ((s.settleSrc n).src n).settings = (s.src n).settings := by
  unfold State.settleSrc
  dsimp only
  rw [State.setSrc_src_same]
  split
  · exact (Src.foldl_merge_settings _ _).trans rfl
  · rfl

/-- The source that EVT_SRC_SEL selects takes the settings written and keeps its pending bit. -/
theorem exec_evtSrcCfgWrite_settings (s : State) (v : Word) : ∃ t, exec (.evtSrcCfgWrite v) s = .next t ∧
    (t.src (s.fld Reg.EVT_SRC_SEL_SRC)).settings =
      (decide (getBits v 0 0 = 1), decide (getBits v 1 1 = 1), getBits v 15 8, (s.src (s.fld Reg.EVT_SRC_SEL_SRC)).pend) ∧
    t = { s with evt := t.evt } := by
  refine ⟨_, rfl, ?_, rfl⟩
  rw [State.settleSrc_settings, State.setSrc_src_same, Src.route_settings]

/-- Settles O16: each clause is the case of its command that its hypotheses select. -/
theorem ringsAreEnabledDisabledAndRung : Obligations.RingsAreEnabledDisabledAndRung := by
  refine ⟨?enableEvent, ?enableCommand, ?disableCommand, ?disableEvent, ?disableAll, ?tail, ?tailBad, ?head, ?faultCommand, ?faultEvent,
    ?reset, ?routing⟩
  case enableEvent =>
    intro s v ⟨hv, hs, h4, h16, he, hc, hb⟩
    rw [exec_ringEnable_written hv, State.writeRingCfg_enables_ering hv hs h4 h16 he hc hb]
  case enableCommand =>
    intro s v ⟨hv, hs, h4, h12, he, hc, hb, hr⟩
    rw [exec_ringEnable_written hv, State.writeRingCfg_enables_cring hv hs h4 h12 he hc hb hr]
  case disableCommand =>
    intro s v ⟨hv, hs, h4, h12, he, hl, hr⟩
    rw [exec_ringDisable_written hv, State.writeRingCfg_disables_cring hv hs h4 h12 he hl hr]
  case disableEvent =>
    intro s v ⟨hv, hs, h4, h16, he, hl, hn⟩
    rw [exec_ringDisable_written hv, State.writeRingCfg_disables_ering hv hs h4 h16 he hl hn]
  case disableAll =>
    intro s
    refine ⟨_, exec_ctlDisableAll s, ?_, ?_, ?_, State.disabled_frame rfl⟩
    · rw [State.settleAll_fld, State.disableRings_fld, State.setFld_en_zero]
    · rw [State.settleAll_ctl]
      exact State.disableRings_crings _
    · rw [State.settleAll_ctl]
      exact State.disableRings_erings _
  case tail =>
    intro s n idx ⟨he, hi, hw, ht, hf⟩
    rw [exec_cdbWrite_ring s n hw, State.cdb_forward he hi ht hf]
  case tailBad =>
    intro s n idx ⟨he, hi, hw⟩
    rw [exec_cdbWrite_ring s n hw, State.cdb_beyond_size he hi]
  case head =>
    intro s n idx ⟨he, hi, hw, h0, hu⟩
    rw [exec_edbWrite_ring s n hw, State.edb_releases he hi rfl h0 hu]
  case faultCommand =>
    intro s n ⟨he, hr⟩
    exact exec_ringFault_command he hr
  case faultEvent =>
    intro s n ⟨he, hr⟩
    exact exec_ringFault_event he hr
  case reset =>
    intro s
    refine ⟨_, exec_mgmtEndpointReset s, ?_, ?_, ?_, ?_, ?_, State.endpointReset_frame rfl⟩
    · intro n
      rw [State.cring, State.ering, State.raise_ctl, State.settleAll_ctl]
      exact ⟨rfl, rfl⟩
    · rw [State.raise_ctl, State.settleAll_ctl]
      exact s.endpointCleared_drops
    · rw [State.raise_fld, State.settleAll_fld, State.endpointCleared_en]
    · rw [State.raise_src_same]
      exact Src.occur_pend _ _ _
    · rw [State.raise_ctl, State.settleAll_ctl]
      exact s.disableRings_nonces
  case routing =>
    intro s v
    obtain ⟨t, ht, hset, hframe⟩ := exec_evtSrcCfgWrite_settings s v
    obtain ⟨hring, halert, hering, hpend⟩ := by simpa only [Src.settings, Prod.mk.injEq] using hset
    exact ⟨t, ht, ⟨hring, halert, hering, hpend⟩, hframe⟩

end Sys2Proof.Machine
end

section
/-! Proofs of the commands and the event entries of family 03 (R46, R48, R50, R54, R57, R59). -/
namespace Sys2Proof.Machine

/-! ### Command fetch -/

/-- The round-robin pointer moves past ring `n`. -/
def State.servedRing (s : State) (n : Nat) : State := { s with ctl.rr := (n + 1) % 256 }

/-- Ring `n` is served: the pointer moves past it, and its event ring keeps one slot more for a completion. -/
def State.reserveFor (s : State) (n : Nat) : State :=
  (s.servedRing n).setEring (s.cring n).ering
    { s.ering (s.cring n).ering with reserved := (s.ering (s.cring n).ering).reserved + 1 }

/-- A command ring whose head descriptor has been read. -/
def CRing.fetched (r : CRing) : CRing := { r with head := (r.head + 1) % r.size }

/-- The command that a descriptor of ring `n` starts. -/
def State.newStarted (s : State) (n : Nat) (r : CRing) (d : Descriptor) (env : Option Envelope) : Started :=
  { id := s.ctl.nextId, ring := n, ering := r.ering, desc := d, env := env, chead := r.head, time := s.now, waits := false, drop := false }

/-- A command joins those started. -/
def State.addStarted (s : State) (c : Started) : State :=
  { s with ctl.started := s.ctl.started ++ [c], ctl.nextId := s.ctl.nextId + 1 }

theorem State.startMgmt_defined {d : Descriptor} (h : (mgmtRow d.opcode.toNat).isSome = true) (s : State) (n : Nat) (r : CRing)
    (env : Option Envelope) :
    (s.setCring n r).startMgmt n d env = (s.setCring n r).addStarted (s.newStarted n r d env) := by
  unfold State.startMgmt
  rw [State.setCring_cring_same, if_neg (by simp [Option.isSome_iff_ne_none.mp h])]
  rfl

theorem State.startMgmt_undefined {d : Descriptor} (h : mgmtRow d.opcode.toNat = none) (s : State) (n : Nat) (r : CRing)
    (env : Option Envelope) :
    (s.setCring n r).startMgmt n d env =
      ((s.setCring n r).addStarted (s.newStarted n r d env)).complete (s.newStarted n r d env) .invalidOpcode := by
  unfold State.startMgmt
  rw [State.setCring_cring_same, if_pos (by simp [h])]
  rfl

section Fetch
variable {s : State} {n : Fin 256}

/-- The ring whose turn it is has its head descriptor started, unless it is held. -/
theorem exec_commandFetch_starts {d : Descriptor} {env : Option Envelope} (hn : s.nextRing = some n.val) (hf : (s.cring n).fence = none)
    (hd : (d.fence && s.ringActive n) = false) :
    exec (.commandFetch n d env) s = .next (((s.reserveFor n).setCring n (s.cring n).fetched).startMgmt n d env) := by
  change execCommandFetch n d env s = _
  simp only [execCommandFetch, hn, decide_true, State.when_true, hf, CRing.fetched]
  have hd' : (d.fence && (s.reserveFor n).ringActive n) = false := hd
  exact congrArg _ (if_neg (ne_true_of_eq_false hd'))

/-- A FENCE descriptor is held while a command of its ring is started. -/
theorem exec_commandFetch_holds {d : Descriptor} {env : Option Envelope} (hn : s.nextRing = some n.val) (hf : (s.cring n).fence = none)
    (hd : (d.fence && s.ringActive n) = true) :
    exec (.commandFetch n d env) s =
      .next ((s.reserveFor n).setCring n { (s.cring n).fetched with fence := some (d, env) }) := by
  change execCommandFetch n d env s = _
  simp only [execCommandFetch, hn, decide_true, State.when_true, hf]
  have hd' : (d.fence && (s.reserveFor n).ringActive n) = true := hd
  exact congrArg _ (if_pos hd')

/-- A descriptor held is started at the ring's next turn. -/
theorem exec_commandFetch_resumes {d : Descriptor} {env : Option Envelope} (hn : s.nextRing = some n.val)
    (hf : (s.cring n).fence = some (d, env)) (d' : Descriptor) (env' : Option Envelope) :
    exec (.commandFetch n d' env') s = .next (((s.servedRing n).setCring n { s.cring n with fence := none }).startMgmt n d env) := by
  change execCommandFetch n d' env' s = _
  simp only [execCommandFetch, hn, decide_true, State.when_true, hf]
  rfl

end Fetch

theorem State.reserveFor_reserved (s : State) (n : Nat) :
    ((s.reserveFor n).ering (s.cring n).ering).reserved = (s.ering (s.cring n).ering).reserved + 1 := by
  rw [State.reserveFor, State.setEring_ering_same]

theorem State.served_started (s : State) (n : Nat) (r : CRing) (c : Started) :
    (((s.reserveFor n).setCring n r).addStarted c).ctl.started = s.ctl.started ++ [c] := rfl

/-- Serving a ring and starting its command change the control block alone. -/
theorem State.served_frame (s : State) (n : Nat) (r : CRing) (c : Started) :
    ((s.reserveFor n).setCring n r).addStarted c = { s with ctl := (((s.reserveFor n).setCring n r).addStarted c).ctl } := by
  obtain ⟨x, h⟩ : ∃ x, s.reserveFor n = { s with ctl := x } := ⟨_, rfl⟩
  rw [h]
  rfl

@[simp] theorem State.addStarted_cring (s : State) (c : Started) (n : Nat) : (s.addStarted c).cring n = s.cring n := (rfl)
@[simp] theorem State.addStarted_ering (s : State) (c : Started) (n : Nat) : (s.addStarted c).ering n = s.ering n := (rfl)

/-! ### Event entries -/

section EventEntry
variable {s : State} {n : Fin 256} {i : Nat} (ha : s.awake = true) (hc : s.ctlRuns = true) (he : (s.ering n).enabled = true)
  (hr : (s.ering n).err = false) (hf : 0 < (s.ering n).free) (hi : s.nextEntry n = some i)
include ha hc he hr hf hi

/-- The source's own entry carries its count, which returns to 0. -/
theorem exec_eventEntryWrite_current (ho : (s.src i).old.find? (fun o => o.ring = n.val) = none) :
    exec (.eventEntryWrite n) s = .next ((s.setSrc i { s.src i with count := 0, detail := [], time := 0 }).writeEntry n
      (fun ph => .event ph (srcClass i).code i (s.src i).count (s.src i).detail (s.src i).time)
      (srcClass i = .nmi || srcClass i = .error)) := by
  change execEventEntryWrite n s = _
  simp only [execEventEntryWrite, ha, hc, he, hr, hf, hi, ho, Bool.not_false, Bool.and_self, decide_true, State.when_true]

/-- A count kept for a ring that the source left is written there. -/
theorem exec_eventEntryWrite_old {o : OldCount} (ho : (s.src i).old.find? (fun o => o.ring = n.val) = some o) :
    exec (.eventEntryWrite n) s = .next ((s.setSrc i { s.src i with old := (s.src i).old.filter fun o => o.ring ≠ n.val }).writeEntry n
      (fun ph => .event ph (srcClass i).code i o.count o.detail o.time) (srcClass i = .nmi || srcClass i = .error)) := by
  change execEventEntryWrite n s = _
  simp only [execEventEntryWrite, ha, hc, he, hr, hf, hi, ho, Bool.not_false, Bool.and_self, decide_true, State.when_true]

end EventEntry

/-- An entry of source `i`, which changes to `e`: the source, the entry at the ring's tail, and what stays. -/
theorem State.sourceEntry_effect {s t : State} {n i : Nat} {e : Src} {mk : Bool → Entry} {u : Bool}
    (ht : t = (s.setSrc i e).writeEntry n mk u) :
    t.src i = e ∧ .ringEntry n (s.ering n).tail (mk (s.ering n).phase) ∈ t.out ∧
      t = { s with ctl := t.ctl, evt := t.evt, out := t.out } := by
  subst ht
  refine ⟨?_, State.mem_writeEntry_out (s.setSrc i e) n mk u, ?_⟩
  · rw [State.writeEntry_src, State.setSrc_src_same]
  · obtain ⟨c, o, h⟩ : ∃ c o, (s.setSrc i e).writeEntry n mk u = { s.setSrc i e with ctl := c, out := o } :=
      ⟨_, _, State.writeEntry_frame _ _ _ _⟩
    rw [h]
    rfl

theorem exec_coalTimeExpire_due {s : State} {n : Fin 256} (he : (s.ering n).enabled = true) (hc : (s.ering n).coalTime ≠ 0)
    (hu : (s.ering n).unsignalled ≠ 0) :
    exec (.coalTimeExpire n) s = .next (((s.reach ((s.ering n).firstAt + (s.ering n).coalTime * 1000)).setEring n
      { s.ering n with unsignalled := 0 }).emit (.msix (s.ering n).vector)) := by
  change execCoalTimeExpire n s = _
  simp only [execCoalTimeExpire, he, decide_eq_true hc, decide_eq_true hu, Bool.and_self, State.when_true]

/-! ### Commands without checks of their own -/

theorem exec_nop_accepted {s : State} {id : Nat} {c : Started} (h : s.AcceptsPlain id 0x0000 [(0, 40)] c) :
    exec (.nop id) s = .next (s.complete c .success) :=
  congrArg _ (State.runPlain_accepted h _)

theorem exec_identifyDevice_accepted {s : State} {id : Nat} {c : Started} (h : s.AcceptsPlain id 0x0001 [(0, 40)] c)
    (hl : c.desc.dataLen = 4096) :
    exec (.identifyDevice id true) s = .next ((s.emit (.hostData c.desc.dataPtr.toNat s.identify)).complete c .success) := by
  refine congrArg _ ((State.runPlain_accepted h _).trans ?_)
  rw [hl]
  rfl

/-- The storm ends at `e`, and no failure counts any longer (R54). -/
def State.endStorm (s : State) (e : Nat) : State := { s.reach e with ctl.storm := false, ctl.fails := [] }

theorem State.endStorm_now (s : State) (e : Nat) : (s.endStorm e).now = max s.now e := s.reach_now e

theorem State.endStorm_ctl (s : State) (e : Nat) : (s.endStorm e).ctl.storm = false ∧ (s.endStorm e).ctl.fails = [] := ⟨rfl, rfl⟩

theorem State.endStorm_frame (s : State) (e : Nat) : s.endStorm e = { s with tim := (s.endStorm e).tim, ctl := (s.endStorm e).ctl } := by
  obtain ⟨m, h⟩ : ∃ m, s.reach e = { s with tim := m } := ⟨_, s.reach_frame e⟩
  rw [State.endStorm, h]

theorem exec_guardStormEnd_storm {s : State} (h : s.ctl.storm = true) :
    exec .guardStormEnd s = .next (s.endStorm (s.ctl.lastFail + 10000000000)) := by
  change execGuardStormEnd s = _
  simp only [execGuardStormEnd, h, State.when_true, State.endStorm]

/-! ### Pending bits -/

/-- Clear the pending bit of source 32n + b where bit b of `v` is set. -/
def State.clearPendBit (n : Nat) (v : Word) (s : State) (b : Nat) : State :=
  if v.getLsbD b then s.setSrc (32 * n + b) { s.src (32 * n + b) with pend := false } else s

theorem State.clearPendBit_pend (n : Nat) (v : Word) (s : State) (a b : Nat) :
    ((s.clearPendBit n v a).src (32 * n + b)).pend = ((s.src (32 * n + b)).pend && !(decide (b = a) && v.getLsbD b)) := by
  unfold State.clearPendBit
  by_cases hab : b = a
  · subst hab
    cases hv : v.getLsbD b <;> simp
  · split
    · rw [State.src, State.setSrc, Assoc.get_set_other _ _ _ _ _ _ (by omega)]
      simp [hab, State.src]
    · simp [hab]

theorem State.foldl_clearPendBit_pend (n : Nat) (v : Word) (l : List Nat) (s : State) (b : Nat) :
    ((l.foldl (State.clearPendBit n v) s).src (32 * n + b)).pend = ((s.src (32 * n + b)).pend && !(decide (b ∈ l) && v.getLsbD b)) := by
  induction l generalizing s with
  | nil => simp
  | cons a l ih =>
    rw [List.foldl_cons, ih, State.clearPendBit_pend]
    cases v.getLsbD b <;> by_cases hab : b = a <;> simp [hab]

/-- A W1C write clears the bits that it names and no others. -/
theorem State.clearPend_pend (s : State) (n : Nat) (v : Word) {b : Nat} (hb : b < 32) :
    ((s.clearPend n v).src (32 * n + b)).pend = ((s.src (32 * n + b)).pend && !v.getLsbD b) := by
  have h := State.foldl_clearPendBit_pend n v (List.range 32) s b
  rwa [decide_eq_true (List.mem_range.mpr hb), Bool.true_and] at h

theorem State.clearPend_beyondSources (s : State) (n : Nat) (v : Word) : (s.clearPend n v).beyondSources = s.beyondSources := by
  refine State.foldl_keeps State.beyondSources (State.clearPendBit n v) (fun u b => ?_) (List.range 32) s
  unfold State.clearPendBit
  split <;> rfl

/-! ### Wedged functions -/

theorem State.wedge_fresh {s : State} {b : Fin 22} (h : s.ctl.wedged.getLsbD b = false) :
    s.wedge b = ({ s with ctl.wedged := s.ctl.wedged ||| BitVec.ofNat 22 (2 ^ b.val), ctl.wedgedAt := some (s.ctl.wedgedAt.getD s.now) } :
      State).raise Ev.FUNC_WEDGED [b.val] := by
  unfold State.wedge
  rw [h]
  rfl

theorem State.wedge_now (s : State) (b : Fin 22) : (s.wedge b).now = s.now := by
  cases h : s.ctl.wedged.getLsbD b with
  | false => rw [State.wedge_fresh h, State.raise_now]; rfl
  | true => rw [State.wedge, h, Bool.not_true, State.when_false]

/-- A block found wedged has its bit set and its event raised, and the commands started stay. -/
theorem State.wedge_effect {s : State} {b : Fin 22} (h : s.ctl.wedged.getLsbD b = false) :
    (s.wedge b).ctl.wedged = s.ctl.wedged ||| BitVec.ofNat 22 (2 ^ b.val) ∧ ((s.wedge b).src Ev.FUNC_WEDGED).pend = true ∧
      (s.wedge b).ctl.started = s.ctl.started := by
  rw [State.wedge_fresh h, State.raise_ctl, State.raise_src_same]
  exact ⟨rfl, Src.occur_pend _ _ _, rfl⟩

theorem exec_funcWedged_working {s : State} {b : Fin 22} (hb : b.val ≠ 4) (hw : s.holdsWork b = true) :
    exec (.funcWedged b) s = .next (s.wedge b) := by
  change execFuncWedged b s = _
  simp only [execFuncWedged, if_neg hb, hw, State.when_true]

/-- The control block is wedged WEDGE_TMO after the start of its oldest command. -/
theorem exec_funcWedged_control {s : State} {c : Started} {cs : List Started} (h : s.ctl.started = c :: cs) :
    exec (.funcWedged 4) s = .next ((s.reach (c.time + s.fld Reg.GLB_WDOG_WEDGE_TMO * 1000000 + 1)).wedge 4) := by
  change execFuncWedged 4 s = _
  unfold execFuncWedged
  dsimp only
  rw [if_pos (by decide), h]

/-- Settles O17: each clause is the case of its command that its hypotheses select. -/
theorem commandsAreFetchedAndAnswered : Obligations.CommandsAreFetchedAndAnswered := by
  refine ⟨?starts, ?undefined, ?holds, ?resumes, ?entry, ?oldEntry, ?coalesced, ?nop, ?identify, ?nonce, ?storm, ?pending, ?wedged, ?control⟩
  case starts =>
    intro s n d env ⟨hn, hf, hd, ho⟩
    rw [exec_commandFetch_starts hn hf hd, State.startMgmt_defined ho]
    refine ⟨_, rfl, rfl, ?_, ?_, State.served_started _ _ _ _, State.served_frame _ _ _ _⟩
    · rw [State.addStarted_cring, State.setCring_cring_same]
      rfl
    · rw [State.addStarted_ering, State.setCring_ering, State.reserveFor_reserved]
  case undefined =>
    intro s n d env ⟨hn, hf, hd, ho⟩
    rw [exec_commandFetch_starts hn hf hd, State.startMgmt_undefined ho]
    exact ⟨_, _, rfl, rfl, rfl⟩
  case holds =>
    intro s n d env ⟨hn, hf, hd⟩
    rw [exec_commandFetch_holds hn hf hd]
    refine ⟨_, rfl, ?_, ?_, rfl, s.reserveFor_reserved n⟩
    · rw [State.setCring_cring_same]
    · rw [State.setCring_cring_same]
      rfl
  case resumes =>
    intro s n d d' env env' ⟨hn, hf, ho⟩
    rw [exec_commandFetch_resumes hn hf, State.startMgmt_defined ho]
    refine ⟨_, rfl, ?_, rfl⟩
    rw [State.addStarted_cring, State.setCring_cring_same]
  case entry =>
    intro s n i ⟨ha, hc, he, hr, hf, hi, ho⟩
    exact ⟨_, exec_eventEntryWrite_current ha hc he hr hf hi ho, State.sourceEntry_effect rfl⟩
  case oldEntry =>
    intro s n i o ⟨ha, hc, he, hr, hf, hi, ho⟩
    exact ⟨_, exec_eventEntryWrite_old ha hc he hr hf hi ho, State.sourceEntry_effect rfl⟩
  case coalesced =>
    intro s n ⟨he, hc, hu⟩
    exact exec_coalTimeExpire_due he hc hu
  case nop => exact fun s id c h => exec_nop_accepted h
  case identify =>
    intro s id c ⟨h, hl⟩
    exact exec_identifyDevice_accepted h hl
  case nonce =>
    intro s id c ⟨h, hr, hs⟩
    exact ⟨s.issueNonce, exec_getNonce_issues h hr hs, s.newNonce_mem_issueNonce, s.issueNonce_length, rfl⟩
  case storm =>
    intro s h
    obtain ⟨hstorm, hfails⟩ := s.endStorm_ctl (s.ctl.lastFail + 10000000000)
    exact ⟨_, exec_guardStormEnd_storm h, hstorm, hfails, s.endStorm_now _, s.endStorm_frame _⟩
  case pending =>
    intro s n v
    exact ⟨_, rfl, fun b hb => s.clearPend_pend n v hb, State.eq_of_beyondSources (s.clearPend_beyondSources n v)⟩
  case wedged =>
    intro s b ⟨hb, hw, hf⟩
    rw [exec_funcWedged_working hb hw, State.wedge_fresh hf]
  case control =>
    intro s c cs ⟨h, hf⟩
    obtain ⟨hwedged, hpend, hstarted⟩ :=
      State.wedge_effect (s := s.reach (c.time + s.fld Reg.GLB_WDOG_WEDGE_TMO * 1000000 + 1)) (b := 4) (by rw [State.reach_ctl]; exact hf)
    rw [State.reach_ctl] at hwedged hstarted
    exact ⟨_, exec_funcWedged_control h, hwedged, (State.wedge_now _ _).trans (s.reach_now _), hpend, hstarted⟩

end Sys2Proof.Machine
end

section
/-! Proofs of memory of family 04 (Table 04-1, R62, R66): what a store changes, which commands store, and that every step keeps the canonical
form. -/
namespace Sys2Proof.Machine

/-! ### A store of bytes -/

theorem writeMem_get_other (m : List Host.Cell) {a j : Nat} {b : List Byte} (h : j < a ∨ a + b.length ≤ j) :
    Assoc.get (0 : Byte) (writeMem m a b) j = Assoc.get (0 : Byte) m j := by
  induction b generalizing m a with
  | nil => rfl
  | cons x b ih =>
    rw [List.length_cons] at h
    exact (ih _ (by omega)).trans (Assoc.get_set_other _ _ _ _ _ _ (by omega))

/-- The byte at the lowest address is stored first, and the store of the rest leaves it. -/
theorem writeMem_get_same (m : List Host.Cell) (a : Nat) {b : List Byte} {i : Nat} (h : i < b.length) :
    Assoc.get (0 : Byte) (writeMem m a b) (a + i) = b.getD i 0 := by
  induction b generalizing m a i with
  | nil => exact absurd h (Nat.not_lt_zero i)
  | cons x b ih =>
    cases i with
    | zero => exact (writeMem_get_other _ (.inl (Nat.lt_succ_self a))).trans (Assoc.get_set_same _ _ _ _)
    | succ i =>
      rw [show a + (i + 1) = a + 1 + i by omega]
      exact ih _ _ (Nat.lt_of_succ_lt_succ h)

/-- Reading back a stored list of bytes gives the list. -/
theorem State.bytes_of_writeMem {s : State} {m : List Host.Cell} {a : Nat} {b : List Byte} (h : s.mem = writeMem m a b) :
    s.bytes a b.length = b := by
  refine List.ext_getElem (by simp [State.bytes]) fun i _ hi => ?_
  have hbyte : s.byte (a + i) = b.getD i 0 := by rw [State.byte, h, writeMem_get_same m a hi]
  simp [State.bytes, hbyte, hi]

/-- Settles O6: a byte stored reads back, and an address outside the store reads as before. -/
theorem writtenBytesReadBackAndNoOthersChange : Obligations.WrittenBytesReadBackAndNoOthersChange :=
  ⟨fun m a _ _ h => writeMem_get_same m a h, fun m _ _ _ h => writeMem_get_other m h,
    fun _ a b h => ⟨State.bytes_of_writeMem rfl, writeMem_wf _ a b h⟩⟩

/-! ### Commands and steps -/

/-- Settles O3, by the two cases of the queue: a tick leaves memory, and a command's frame keeps the form. -/
theorem stepKeepsMemoryCanonical : Obligations.StepKeepsMemoryCanonical := by
  intro s h
  cases hq : s.pending with
  | nil => exact ⟨s.tick, step_of_pending_nil hq, s.tick_same.2.symm ▸ h⟩
  | cons c cs =>
    obtain ⟨t, ht⟩ := exec_answers_next c { s with pending := cs }
    exact ⟨t, (step_of_pending_cons hq).trans ht, (exec_frame ht).wf h⟩

/-- A byte reads as before where memory is as before. -/
theorem State.byte_congr {s t : State} (h : t.mem = s.mem) (a : Nat) : t.byte a = s.byte a := by
  rw [State.byte, h, State.byte]

/-- Settles O5: a command that does not store leaves memory by its frame, and so does a tick. -/
theorem onlyStoringCommandsChangeMemory : Obligations.OnlyStoringCommandsChangeMemory := by
  refine ⟨fun c s hc => ?_, fun s a => State.byte_congr s.tick_same.2 a⟩
  obtain ⟨t, ht⟩ := exec_answers_next c s
  have hmem := (exec_frame ht).mem hc
  exact ⟨t, ht, hmem, State.byte_congr hmem⟩

end Sys2Proof.Machine
end

section
/-! Proofs of the PARSE, MOVE, RING and TIME_READ calls of family 04 (R64, R67, Table 04-4). -/
namespace Sys2Proof.Machine

/-- An access that the call's core allows goes to the physical place of its address. -/
theorem State.physAddr_of_access {s : State} {c : Call} {a n p : Nat} {w : Bool} (h : s.access c a n w = some p) :
    physAddr c.core a = some p := by
  unfold State.access at h
  split at h
  next ha _ =>
    split at h
    · cases h
    · exact ha.trans h
  · cases h

/-! ### MOVE -/

/-- A move from memory reads the bytes at the place of the source. -/
theorem State.moveRead_memory {s : State} {c : Call} {a n p : Nat} (hi : inImage a = false) (h : s.access c a n false = some p) :
    s.moveRead c (.addr a) n = (s.bytes p n, s) := by
  simp [State.moveRead, hi, State.physAddr_of_access h]

/-- A move to memory stores the bytes at the place of the destination. -/
theorem State.moveWrite_memory {s : State} {c : Call} {a n p : Nat} (hi : inImage a = false) (h : s.access c a n true = some p)
    (d : List Byte) : s.moveWrite c (.addr a) d = { s with mem := writeMem s.mem p d } := by
  simp [State.moveWrite, hi, State.physAddr_of_access h]

section MoveCall
variable {s : State} {c : Call} {n : Nat} (hc : s.nextCall 4 = some c) (hn : n ≤ 0x200000)
include hc hn

theorem exec_move_allowed {src dst : Loc} (hs : s.moveMay c src n false = true) (hd : s.moveMay c dst n true = true) :
    exec (.move src dst n) s = .next (((s.moveRead c src n).2.moveWrite c dst (s.moveRead c src n).1).answer c 0 n) :=
  congrArg _ (State.engine_answers hc (by simp [Nat.not_lt.mpr hn, hs, hd]))

theorem exec_move_refused {src dst : Loc} (h : s.moveMay c src n false = false ∨ s.moveMay c dst n true = false) :
    exec (.move src dst n) s = .next (s.answer c 3 0) :=
  congrArg _ (State.engine_answers hc (by
    rw [if_neg (Nat.not_lt.mpr hn), if_pos (by simpa [Bool.and_eq_false_iff] using h)]))

theorem exec_move_memory {src dst p q : Nat} (hsi : inImage src = false) (hdi : inImage dst = false)
    (hs : s.access c src n false = some p) (hd : s.access c dst n true = some q) :
    exec (.move (.addr src) (.addr dst) n) s = .next (({ s with mem := writeMem s.mem q (s.bytes p n) } : State).answer c 0 n) := by
  have hsrc : s.moveMay c (.addr src) n false = true := Option.isSome_of_eq_some hs
  have hdst : s.moveMay c (.addr dst) n true = true := Option.isSome_of_eq_some hd
  rw [exec_move_allowed hc hn hsrc hdst, State.moveRead_memory hsi hs, State.moveWrite_memory hdi hd]

end MoveCall

/-! ### PARSE -/

theorem exec_parse_writes {s : State} {c : Call} {o p : Nat} {offs : List Byte} (hc : s.nextCall 0 = some c)
    (ha : s.access c o offs.length true = some p) :
    exec (.parse true o offs) s =
      .next (({ s with mem := writeMem s.mem p offs, free := s.free + 1 } : State).answer c 0 (Config.freeBits 32 s.free).toNat) :=
  congrArg _ (State.engine_answers hc (by simp [ha, State.draw]))

/-! ### RING -/

section RingCall
variable {s : State} {c : Call} {q : Nat} (hc : s.nextCall 6 = some c) (hq : q ≤ 74239)
include hc hq

theorem exec_ringProduce_appends {a n p : Nat} (ha : s.access c a n false = some p) :
    exec (.ringProduce q a n) s = .next ((s.setQueue q
      { s.queue q with tail := (s.queue q).tail + 1, entries := (s.queue q).entries ++ [s.bytes p n] }).answer c 0
      ((s.queue q).tail + 1)) :=
  congrArg _ (State.engine_answers hc (by simp [Nat.not_lt.mpr hq, ha]))

theorem exec_ringConsume_oldest {a p : Nat} {e : List Byte} {es : List (List Byte)} (he : (s.queue q).entries = e :: es)
    (ha : s.access c a e.length true = some p) :
    exec (.ringConsume q a) s = .next ((({ s with mem := writeMem s.mem p e } : State).setQueue q
      { s.queue q with head := (s.queue q).head + 1, entries := es }).answer c 0 ((s.queue q).head + 1)) :=
  congrArg _ (State.engine_answers hc (by simp [Nat.not_lt.mpr hq, he, ha]))

theorem exec_ringDoorbell_rings :
    exec (.ringDoorbell q) s = .next ((s.emit (.queueDoorbell q (s.queue q).tail)).answer c 0 (s.queue q).tail) :=
  congrArg _ (State.engine_answers hc (by simp [Nat.not_lt.mpr hq]))

end RingCall

/-! ### TIME_READ -/

theorem exec_timeRead_writes {s : State} {c : Call} {o p : Nat} (hc : s.nextCall 7 = some c) (ha : s.access c o 8 true = some p) :
    exec (.timeRead o) s = .next (({ s with mem := writeMem s.mem p (leBytes 8 s.now) } : State).answer c 0 0) :=
  congrArg _ (State.engine_answers hc (by simp [ha]))

/-- Settles O19: each clause is the case of its engine's call that its hypotheses select. The free RESULT of PARSE and the reach of MOVE to
registers are the model's choices (log entries 13, 14). -/
theorem enginesServeTheCalls : Obligations.EnginesServeTheCalls := by
  refine ⟨?move, ?moveMemory, ?moveRefused, ?parse, ?produce, ?consume, ?doorbell, ?time⟩
  case move =>
    intro s c src dst n ⟨hc, hn, hs, hd⟩
    exact exec_move_allowed hc hn hs hd
  case moveMemory =>
    intro s c src dst n p q ⟨hc, hn, hsi, hdi, hs, hd⟩
    exact exec_move_memory hc hn hsi hdi hs hd
  case moveRefused =>
    intro s c src dst n ⟨hc, hn, h⟩
    exact exec_move_refused hc hn h
  case parse =>
    intro s c o p offs ⟨hc, ha⟩
    exact exec_parse_writes hc ha
  case produce =>
    intro s c q a n p ⟨hc, hq, ha⟩
    exact exec_ringProduce_appends hc hq ha
  case consume =>
    intro s c q a p e es ⟨hc, hq, he, ha⟩
    exact exec_ringConsume_oldest hc hq he ha
  case doorbell =>
    intro s c q ⟨hc, hq⟩
    exact exec_ringDoorbell_rings hc hq
  case time =>
    intro s c o p ⟨hc, ha⟩
    exact exec_timeRead_writes hc ha

end Sys2Proof.Machine
end

section
/-! Proofs of the writing of security records of family 04 (R303, R310, R325): what it leaves unchanged. -/
namespace Sys2Proof.Machine

/-- The state with what the writing of records changes left out: the record under way and the one due, the erased places, the requests to the
DRBG, the draws and the outputs. -/
def State.beyondRecords (s : State) : State :=
  { s with
    sec := { s.sec with
      write := none, due := none, placesLeft := 0, bank1 := false, otherErased := false, erasing := false, drbgRequests := 0 }
    out := [], free := 0 }

theorem State.takePlace_beyondRecords {s t : State} (h : s.takePlace = some t) : t.beyondRecords = s.beyondRecords := by
  unfold State.takePlace at h
  split at h
  · cases h; rfl
  · split at h
    · cases h; rfl
    · cases h

theorem State.program_beyondRecords (s : State) (w : RecWrite) : (s.program w).beyondRecords = s.beyondRecords := rfl

theorem State.keepErased_beyondRecords (s : State) : s.keepErased.beyondRecords = s.beyondRecords := by
  unfold State.keepErased
  split <;> rfl

theorem State.startRecord_beyondRecords (s : State) (ws : List Nat) : (s.startRecord ws).beyondRecords = s.beyondRecords := by
  unfold State.startRecord
  split
  · rfl
  · dsimp only
    split
    · exact State.keepErased_beyondRecords _
    next t ht =>
      calc (({ t with sec.due := none } : State).program { content := s.recordNow, waiters := ws }).keepErased.beyondRecords
        _ = t.beyondRecords := (State.keepErased_beyondRecords _).trans (State.program_beyondRecords _ _)
        _ = s.beyondRecords := State.takePlace_beyondRecords ht

theorem State.saveRecord_beyondRecords (s : State) (ws : List Nat) : (s.saveRecord ws).beyondRecords = s.beyondRecords := by
  unfold State.saveRecord
  dsimp only
  split
  · rfl
  · exact State.startRecord_beyondRecords s _

@[simp] theorem State.saveRecord_now (s : State) (ws : List Nat) : (s.saveRecord ws).now = s.now :=
  (congrArg State.now (s.saveRecord_beyondRecords ws) :)

@[simp] theorem State.saveRecord_src (s : State) (ws : List Nat) (n : Nat) : (s.saveRecord ws).src n = s.src n :=
  (congrArg (State.src · n) (s.saveRecord_beyondRecords ws) :)

@[simp] theorem State.saveRecord_fuse (s : State) (ws : List Nat) : (s.saveRecord ws).sec.fuse = s.sec.fuse :=
  (congrArg (fun u : State => u.sec.fuse) (s.saveRecord_beyondRecords ws) :)

@[simp] theorem State.saveRecord_extStored (s : State) (ws : List Nat) : (s.saveRecord ws).sec.extStored = s.sec.extStored :=
  (congrArg (fun u : State => u.sec.extStored) (s.saveRecord_beyondRecords ws) :)

end Sys2Proof.Machine
end

section
/-! Proofs of the firmware and extension images of family 04 (R69, R73 to R75, R290, R294 to R296, R325). -/
namespace Sys2Proof.Machine

/-! ### Load Firmware Image (R295) -/

section LoadImage
variable {s u : State} {id : Nat} {c : Started} {l : FwLoad} (h : s.Accepts id 0x0900 [(12, 28)] (· = 32) (fun _ => true) c u)
include h

theorem exec_loadFirmwareImage_busy (ha : u.activating = true) :
    exec (.loadFirmwareImage id (some l)) s = .next (u.complete c .busy) :=
  congrArg _ ((State.runMgmt_accepted h _).trans (if_pos ha))

section Idle
variable (ha : u.activating = false)
include ha

theorem exec_loadFirmwareImage_unread : exec (.loadFirmwareImage id none) s = .next (u.complete c .dataXferError) :=
  congrArg _ ((State.runMgmt_accepted h _).trans (by simp [ha]))

theorem exec_loadFirmwareImage_otherDigest (hd : l.img.digest ≠ c.payload) :
    exec (.loadFirmwareImage id (some l)) s = .next ((u.raise Ev.SEC_FW_REJECT [0]).complete c .guardMismatch) :=
  congrArg _ ((State.runMgmt_accepted h _).trans (by simp [ha, hd]))

section RightDigest
variable (hd : l.img.digest = c.payload)
include hd

theorem exec_loadFirmwareImage_failsCheck (hk : imageFails l u.sec.fuse ≠ 0) :
    exec (.loadFirmwareImage id (some l)) s =
      .next ((u.raise Ev.SEC_FW_REJECT [imageFails l u.sec.fuse]).complete c .invalidField (imageFails l u.sec.fuse)) :=
  congrArg _ ((State.runMgmt_accepted h _).trans (by simp [ha, hd, hk]))

theorem exec_loadFirmwareImage_badReadBack (hk : imageFails l u.sec.fuse = 0) (hr : l.readBackOk = false) :
    exec (.loadFirmwareImage id (some l)) s = .next ((u.setOther none).complete c .dataXferError) :=
  congrArg _ ((State.runMgmt_accepted h _).trans (by simp [ha, hd, hk, hr]))

theorem exec_loadFirmwareImage_loads (hk : imageFails l u.sec.fuse = 0) (hr : l.readBackOk = true) :
    exec (.loadFirmwareImage id (some l)) s =
      .next (((u.setOther (some l)).raise Ev.SEC_FW_LOADED [l.img.svn, leAt l.img.version 0 8]).complete c .success) :=
  congrArg _ ((State.runMgmt_accepted h _).trans (by simp [ha, hd, hk, hr]))

end RightDigest
end Idle
end LoadImage

/-! ### Activate Firmware (R296) -/

section Activate
variable {s u : State} {id : Nat} {c : Started} (h : s.Accepts id 0x0901 [(0, 40)] (· = 32) (fun _ => true) c u)
  (pv : Option (List Byte))
include h

theorem exec_activateFirmware_emptySlot (hl : u.slotOf (!u.sec.bootB) = none) :
    exec (.activateFirmware id pv) s = .next (u.complete c .invalidField 1) :=
  congrArg _ ((State.runMgmt_accepted h _).trans (by simp [hl]))

section FilledSlot
variable {l : FwLoad} (hl : u.slotOf (!u.sec.bootB) = some l)
include hl

/-- A join or a swap keeps an activation from beginning, as another activation does (log entry 142). -/
theorem exec_activateFirmware_busy (hb : u.activating = true ∨ u.hrn.join.isSome = true ∨ u.hrn.swap.isSome = true) :
    exec (.activateFirmware id pv) s = .next (u.complete c .busy) :=
  congrArg _ ((State.runMgmt_accepted h _).trans (by
    simp only [hl]
    exact if_pos (by simpa [or_assoc] using hb)))

section Idle
variable (ha : u.activating = false) (hj : u.hrn.join = none) (hw : u.hrn.swap = none)
include ha hj hw

theorem exec_activateFirmware_failsCheck (hf : u.slotFails (!u.sec.bootB) ≠ 0) :
    exec (.activateFirmware id pv) s = .next (u.complete c .invalidField 1) :=
  congrArg _ ((State.runMgmt_accepted h _).trans (by simp [hl, ha, hj, hw, hf]))

section SoundImage
variable (hf : u.slotFails (!u.sec.bootB) = 0)
include hf

theorem exec_activateFirmware_otherDigest (hd : l.img.digest ≠ c.payload) :
    exec (.activateFirmware id pv) s = .next (u.complete c .guardMismatch) :=
  congrArg _ ((State.runMgmt_accepted h _).trans (by simp [hl, ha, hj, hw, hf, hd]))

variable (hd : l.img.digest = c.payload)
include hd

theorem exec_activateFirmware_peerDiffers (hp : u.hasPeer = true) (hv : pv ≠ some l.img.version) :
    exec (.activateFirmware id pv) s = .next (u.complete c .invalidField 2) :=
  congrArg _ ((State.runMgmt_accepted h _).trans (by simp [hl, ha, hj, hw, hf, hd, hp, hv]))

variable (hv : ¬(u.hasPeer = true ∧ ¬pv = some l.img.version))
include hv

theorem exec_activateFirmware_otherProtocol (hr : harnessVersion < l.img.hrnMin ∨ l.img.hrnMax < harnessVersion) :
    exec (.activateFirmware id pv) s = .next (u.complete c .invalidField 3) :=
  congrArg _ ((State.runMgmt_accepted h _).trans (by simp [hl, ha, hj, hw, hf, hd, hv, hr]))

theorem exec_activateFirmware_begins (hmin : l.img.hrnMin ≤ harnessVersion) (hmax : harnessVersion ≤ l.img.hrnMax) :
    exec (.activateFirmware id pv) s =
      .next (({ u.hold c.id with
        sec.nextB := !u.sec.bootB, sec.after := some (if u.hasPeer then .sendStandby else .quiesce) } : State).saveRecord []) :=
  congrArg _ ((State.runMgmt_accepted h _).trans (by
    simp [hl, ha, hj, hw, hf, hd, hv, Nat.not_lt.mpr hmin, Nat.not_lt.mpr hmax]))

end SoundImage
end Idle
end FilledSlot
end Activate

/-! ### The soak (R294) -/

/-- The shelf time at which the soak has run its time. -/
def State.soakEnd (s : State) : Nat := s.sec.soakFrom + (s.fld Reg.SEC_SOAK_SVN_SOAK * 3600 - s.sec.soakBase) * 1000000000

/-- The state at `t` in which the fuses hold the pending SVN. -/
def State.soakedAt (s : State) (t : Nat) : State := { s.reach t with sec.fuse := s.pendingSvn, sec.soakBase := 0 }

theorem State.soakedAt_now (s : State) (t : Nat) : (s.soakedAt t).now = max s.now t := s.reach_now t

theorem State.reach_pendingSvn (s : State) (t : Nat) : (s.reach t).pendingSvn = s.pendingSvn := by
  simp [State.pendingSvn]

theorem exec_soakComplete_due {s : State} (hp : s.pendingSvn ≠ 0) (hb : s.clk.bootDone = true) (ha : s.activating = false)
    (hs : s.sec.stopped = false) :
    exec .soakComplete s = .next (((s.soakedAt s.soakEnd).raise Ev.SEC_FUSE [s.pendingSvn]).saveRecord []) := by
  change execSoakComplete s = _
  simp [execSoakComplete, hp, hb, ha, hs, State.soakedAt, State.soakEnd, State.reach_pendingSvn]

theorem exec_soakComplete_none {s : State} (hp : s.pendingSvn = 0) : exec .soakComplete s = .next s := by
  change execSoakComplete s = _
  simp [execSoakComplete, hp]

/-! ### Enrol Extension Key (R73) -/

section EnrolKey
variable {s u : State} {id : Nat} {c : Started} (h : s.Accepts id 0x0505 [(0, 40)] (· = 2352) (fun _ => true) c u)
include h

theorem exec_enrolExtensionKey_records (hk : leAt c.payload 0 1 < 4) (h1 : zeroAt c.payload 1 7 = true)
    (h12 : zeroAt c.payload 12 4 = true) :
    exec (.enrolExtensionKey id true true) s =
      .next (({ (u.hold c.id).carry c with
        tck.keys := Assoc.set {} u.tck.keys (leAt c.payload 0 1)
          { enrolled := true, rsaE := leAt c.payload 8 4, rsaN := (c.payload.drop 16).take 384,
            mldsa := (c.payload.drop 400).take 1952 } } : State).saveRecord [c.id]) :=
  congrArg _ ((State.runMgmt_accepted h _).trans (by simp [Nat.not_lt.mpr (Nat.le_of_lt_succ hk), h1, h12]))

theorem exec_enrolExtensionKey_refused {a b : Bool} (hr : 3 < leAt c.payload 0 1 ∨ zeroAt c.payload 1 7 = false ∨
    zeroAt c.payload 12 4 = false ∨ a = false ∨ b = false) :
    exec (.enrolExtensionKey id a b) s = .next (u.complete c .invalidField) :=
  congrArg _ ((State.runMgmt_accepted h _).trans (if_pos (by simpa [or_assoc] using hr)))

end EnrolKey

/-! ### Load Extension (R74, R75) -/

section LoadExt
variable {s u : State} {id : Nat} {c : Started} (h : s.Accepts id 0x0902 [(12, 28)] (· = 32) (fun _ => true) c u)
include h

/-- IMAGE_LEN 0 puts no image in place of the loaded one (log entry 152). -/
theorem exec_loadExtension_unloads (hn : c.desc.par 8 4 = 0) (x : Option ExtImage) :
    exec (.loadExtension id x) s = .next (u.acceptExt c none) :=
  congrArg _ ((State.runMgmt_accepted h _).trans (if_pos hn))

section Image
variable (hn : c.desc.par 8 4 ≠ 0)
include hn

theorem exec_loadExtension_unread : exec (.loadExtension id none) s = .next (u.complete c .dataXferError) :=
  congrArg _ ((State.runMgmt_accepted h _).trans (if_neg hn))

variable {x : ExtImage}

theorem exec_loadExtension_otherDigest (hd : x.digest ≠ c.payload) :
    exec (.loadExtension id (some x)) s = .next (u.rejectExt c .guardMismatch 0) :=
  congrArg _ ((State.runMgmt_accepted h _).trans (by simp [hn, hd]))

section RightDigest
variable (hd : x.digest = c.payload)
include hd

theorem exec_loadExtension_badFormat (hf : extFormatOk x (c.desc.par 8 4) = false) :
    exec (.loadExtension id (some x)) s = .next (u.rejectExt c .invalidField 1) :=
  congrArg _ ((State.runMgmt_accepted h _).trans (by simp [hn, hd, hf]))

section Format
variable {k : ExtKey} (hk : k = Assoc.get {} u.tck.keys x.keySlot) (hf : extFormatOk x (c.desc.par 8 4) = true)
include hk hf

theorem exec_loadExtension_badSignature (hs : k.enrolled = false ∨ x.rsaOk = false ∨ x.mldsaOk = false) :
    exec (.loadExtension id (some x)) s = .next (u.rejectExt c .guardSignature 1) := by
  have hs' : (!k.enrolled || !x.rsaOk || !x.mldsaOk) = true := by simpa [or_assoc] using hs
  exact congrArg _ ((State.runMgmt_accepted h _).trans (by simp only [hn, hd, hf, ← hk, hs']; simp))

section Signed
variable (he : k.enrolled = true) (hr : x.rsaOk = true) (hm : x.mldsaOk = true)
include he hr hm

theorem exec_loadExtension_belowFloor (hv : x.version < k.floor) :
    exec (.loadExtension id (some x)) s = .next (u.rejectExt c .invalidField 2) :=
  congrArg _ ((State.runMgmt_accepted h _).trans (by simp [hn, hd, hf, ← hk, he, hr, hm, hv]))

variable (hv : k.floor ≤ x.version)
include hv

theorem exec_loadExtension_overHbm (hb : 0x10000000 < x.hbmLen) :
    exec (.loadExtension id (some x)) s = .next (u.rejectExt c .limitExceeded 0) :=
  congrArg _ ((State.runMgmt_accepted h _).trans (by simp [hn, hd, hf, ← hk, he, hr, hm, Nat.not_lt.mpr hv, hb]))

theorem exec_loadExtension_loads (hb : x.hbmLen ≤ 0x10000000) :
    exec (.loadExtension id (some x)) s =
      .next (({ u with tck.keys := Assoc.set {} u.tck.keys x.keySlot { k with floor := x.version } } : State).acceptExt c (some x)) :=
  congrArg _ ((State.runMgmt_accepted h _).trans (by simp [hn, hd, hf, ← hk, he, hr, hm, Nat.not_lt.mpr hv, Nat.not_lt.mpr hb]))

end Signed
end Format
end RightDigest
end Image
end LoadExt

/-! ### The replacement of the extension (R69, R75) -/

theorem State.clearExt_frame (s : State) (n : Nat) : ∃ m, s.clearExt n = { s with mem := m } := ⟨_, rfl⟩

theorem State.placeExt_frame (s : State) (x : ExtImage) : ∃ m, s.placeExt x = { s with mem := m } := ⟨_, rfl⟩

/-- The replacement frees the timer slots of tier 1 and starts the faults anew; memory is cleared and takes the new image. -/
theorem State.swapExt_frame (s : State) (x : Option ExtImage) : ∃ m, s.swapExt x = { s with
    mem := m, tim.slots := s.tim.slots.filter fun e => e.2.owner ≠ 7
    tck.ext := x, tck.extDisabled := false, tck.faults := [], tck.next := none } := by
  obtain ⟨m, hm⟩ := s.clearExt_frame 0x10000000
  unfold State.swapExt
  rw [hm]
  cases x with
  | none => exact ⟨m, rfl⟩
  | some i =>
    obtain ⟨m', hm'⟩ := State.placeExt_frame { s with mem := m } i
    dsimp only
    rw [hm']
    exact ⟨m', rfl⟩

theorem State.swapExt_sec (s : State) (x : Option ExtImage) : (s.swapExt x).sec = s.sec := by
  obtain ⟨m, hm⟩ := s.swapExt_frame x
  rw [hm]

theorem State.reclaim_sec (s : State) : s.reclaim.sec = s.sec := by
  simp only [State.reclaim, apply_ite State.sec, ite_self]

theorem State.takeExt_sec (s : State) : s.takeExt.sec = s.sec := by
  unfold State.takeExt
  split
  · rfl
  · dsimp only
    split <;> simp [State.reclaim_sec, State.swapExt_sec]

theorem State.acceptExt_extStored (s : State) (c : Started) (x : Option ExtImage) : (s.acceptExt c x).sec.extStored = x := by
  unfold State.acceptExt
  dsimp only
  split <;> simp [State.takeExt_sec]

/-! ### The security core (R290, R325) -/

theorem exec_recordBankErased_frees {s : State} (he : s.sec.erasing = true) (h : s.sec.due = none ∨ s.sec.write.isSome = true) :
    exec .recordBankErased s = .next { s with sec.erasing := false, sec.otherErased := true } := by
  change execRecordBankErased s = _
  rw [execRecordBankErased, he, State.when_true]
  dsimp only
  split
  next hd hw => simp [hd, hw] at h
  · rfl

theorem exec_recordBankErased_idle {s : State} (he : s.sec.erasing = false) : exec .recordBankErased s = .next s := by
  change execRecordBankErased s = _
  rw [execRecordBankErased, he, State.when_false]

theorem exec_recordBankErased_starts {s : State} {ws : List Nat} (he : s.sec.erasing = true) (hd : s.sec.due = some ws)
    (hw : s.sec.write = none) :
    exec .recordBankErased s = .next (({ s with sec.erasing := false, sec.otherErased := true } : State).startRecord ws) := by
  change execRecordBankErased s = _
  rw [execRecordBankErased, he, State.when_true]
  simp only [hd, hw]

theorem exec_drbgReseed_due {s : State} (h : 1048576 ≤ s.sec.drbgRequests) :
    exec .drbgReseed s = .next { s with sec.drbgRequests := 0 } := by
  change execDrbgReseed s = _
  simp [execDrbgReseed, h]

theorem exec_drbgReseed_early {s : State} (h : s.sec.drbgRequests < 1048576) : exec .drbgReseed s = .next s := by
  change execDrbgReseed s = _
  simp [execDrbgReseed, Nat.not_le.mpr h]

/-- Settles O52: each clause is the case of its command that its hypotheses select. BUSY during a join or a swap, the
end of a load and what IMAGE_LEN 0 does are the model's reading (log entries 142, 37, 152). -/
theorem imagesExtensionsAndFusesAreChecked : Obligations.ImagesExtensionsAndFusesAreChecked := by
  refine ⟨?load, ?activate, ?empty, ?soak, fun s h => exec_soakComplete_none h, ?enrol, ?extension, ?unload, ?swap, ?erased, ?erasedDue,
    ?core⟩
  case load =>
    intro s id c u l h
    exact ⟨exec_loadFirmwareImage_busy h, exec_loadFirmwareImage_unread h, exec_loadFirmwareImage_otherDigest h,
      exec_loadFirmwareImage_failsCheck h, exec_loadFirmwareImage_badReadBack h, exec_loadFirmwareImage_loads h⟩
  case activate =>
    intro s id c u pv l ⟨h, hl⟩
    refine ⟨exec_activateFirmware_busy h pv hl, fun ha hj hw => ⟨exec_activateFirmware_failsCheck h pv hl ha hj hw,
      exec_activateFirmware_otherDigest h pv hl ha hj hw, exec_activateFirmware_peerDiffers h pv hl ha hj hw,
      fun hf hd hv => ?_⟩⟩
    have hv' : ¬(u.hasPeer = true ∧ ¬pv = some l.img.version) := by
      rcases hv with hv | hv <;> simp [hv]
    exact ⟨exec_activateFirmware_otherProtocol h pv hl ha hj hw hf hd hv', exec_activateFirmware_begins h pv hl ha hj hw hf hd hv'⟩
  case empty =>
    intro s id c u pv ⟨h, hl⟩
    exact exec_activateFirmware_emptySlot h pv hl
  case soak =>
    intro s ⟨hp, hb, ha, hs⟩
    refine ⟨_, exec_soakComplete_due hp hb ha hs, ?_, ?_, ?_⟩
    · rw [State.saveRecord_fuse, State.raise_sec]; rfl
    · rw [State.saveRecord_src, State.raise_src_same]; exact Src.occur_pend _ _ _
    · rw [State.saveRecord_now, State.raise_now, State.soakedAt_now]
      exact Nat.le_max_right s.now s.soakEnd
  case enrol =>
    rintro s id _ c u _ a b ⟨h, rfl, rfl⟩
    exact ⟨exec_enrolExtensionKey_records h, exec_enrolExtensionKey_refused h⟩
  case extension =>
    intro s id c u x k ⟨h, hn, hk⟩
    refine ⟨exec_loadExtension_unread h hn, exec_loadExtension_otherDigest h hn, fun hd => ⟨exec_loadExtension_badFormat h hn hd,
      fun hf => ⟨exec_loadExtension_badSignature h hn hd hk hf, fun he hr hm => ⟨exec_loadExtension_belowFloor h hn hd hk hf he hr hm,
        exec_loadExtension_overHbm h hn hd hk hf he hr hm, exec_loadExtension_loads h hn hd hk hf he hr hm⟩⟩⟩⟩
  case unload =>
    intro s id c u x ⟨h, hn⟩
    exact exec_loadExtension_unloads h hn x
  case swap =>
    intro s c x e
    obtain ⟨m, hm⟩ := s.swapExt_frame x
    rw [hm]
    exact ⟨s.acceptExt_extStored c x, rfl, rfl, rfl, rfl, fun he => of_decide_eq_true (List.mem_filter.mp he).2⟩
  case erased =>
    intro s ⟨he, h⟩
    exact ⟨exec_recordBankErased_frees he h, exec_recordBankErased_idle rfl⟩
  case erasedDue =>
    intro s ws ⟨he, hd, hw⟩
    exact exec_recordBankErased_starts he hd hw
  case core =>
    intro s
    exact ⟨exec_drbgReseed_due, exec_drbgReseed_early, rfl⟩

end Sys2Proof.Machine
end

section
/-! Proofs of the transport's EN of family 05 (R124, R371): what a write of XPT_CFG stores, and the slot that the wheel takes. -/
namespace Sys2Proof.Machine

/-! ### The stored word -/

/-- A field above bit 0 leaves bit 0 as it is. -/
theorem getBits_setBits_above (w : Word) (hi v : Nat) {lo : Nat} (h : 0 < lo) : getBits (setBits w hi lo v) 0 0 = getBits w 0 0 := by
  obtain ⟨k, rfl⟩ : ∃ k, lo = k + 1 := ⟨lo - 1, by omega⟩
  have hle : getBits w hi (k + 1) * 2 ^ (k + 1) ≤ w.toNat :=
    (Nat.mul_le_mul_right _ (Nat.mod_le _ _)).trans (Nat.div_mul_le_self _ _)
  unfold setBits
  generalize getBits w hi (k + 1) = a at hle ⊢
  generalize v % 2 ^ (hi + 1 - (k + 1)) = b
  simp only [getBits, BitVec.toNat_ofNat, pow_succ, ← mul_assoc, pow_zero] at *
  omega

theorem fieldsAt_xptCfg : fieldsAt Reg.XPT_CFG_EN.addr =
    [⟨"EN", 0, 0, .rw, 0, 0, 1⟩, ⟨"CC_EN", 1, 1, .rw, 1, 0, 1⟩, ⟨"RP_ECN", 2, 2, .rw, 1, 0, 1⟩,
      ⟨"PMTU_MAX", 10, 8, .rw, 5, 1, 5⟩] := rfl

theorem carriedAt_xptCfg : carriedAt Reg.XPT_CFG_EN.addr = true := rfl

/-- XPT_CFG takes EN from the word written. -/
theorem storedWord_xptCfg_en (old v : Word) : getBits (storedWord Reg.XPT_CFG_EN.addr old v) 0 0 = getBits v 0 0 := by
  rw [storedWord, fieldsAt_xptCfg]
  simp only [List.foldl_cons, List.foldl_nil, Fld.write]
  rw [getBits_setBits_above _ _ _ (by omega), getBits_setBits_above _ _ _ (by omega), getBits_setBits_above _ _ _ (by omega),
    getBits_setBits _ _ _ _ le_rfl (by omega)]
  exact Nat.mod_eq_of_lt (getBits_lt v 0 0)

theorem State.acceptsWrite_xptCfg (s : State) : s.acceptsWrite Reg.XPT_CFG_EN.addr = s.acceptsHolder true := by
  rw [State.acceptsWrite, carriedAt_xptCfg]; rfl

/-! ### The resumption of congestion control -/

/-- The state with the connections left out. -/
def State.beyondConns (s : State) : State := { s with xpt.conns := [] }

theorem State.updConn_beyondConns (s : State) (n : Nat) (f : Conn → Conn) : (s.updConn n f).beyondConns = s.beyondConns := rfl

theorem State.armRate_beyondConns (s : State) (n : Nat) : (s.armRate n).beyondConns = s.beyondConns := State.updConn_beyondConns s n _

theorem State.resumeRates_beyondConns (s : State) : s.resumeRates.beyondConns = s.beyondConns := by
  unfold State.resumeRates
  refine State.foldl_keeps State.beyondConns _ (fun u n => ?_) _ s
  dsimp only
  split
  · rw [State.armRate_beyondConns, State.updConn_beyondConns]
  · rw [State.updConn_beyondConns]

theorem State.ccResumed_beyondConns (s t : State) : (s.ccResumed t).beyondConns = t.beyondConns := by
  unfold State.ccResumed
  split
  · exact t.resumeRates_beyondConns
  · rfl

@[simp] theorem State.ccResumed_flag (s t : State) (r : Ref) : (s.ccResumed t).flag r = t.flag r :=
  (congrArg (State.flag · r) (s.ccResumed_beyondConns t) :)

@[simp] theorem State.ccResumed_slot (s t : State) (n : Nat) : (s.ccResumed t).slot n = t.slot n :=
  (congrArg (State.slot · n) (s.ccResumed_beyondConns t) :)

@[simp] theorem State.ccResumed_wheelSlot (s t : State) : (s.ccResumed t).xpt.wheelSlot = t.xpt.wheelSlot :=
  (congrArg (fun u : State => u.xpt.wheelSlot) (s.ccResumed_beyondConns t) :)

/-- Nothing resumes where nothing has changed. -/
@[simp] theorem State.ccResumed_self (s : State) : s.ccResumed s = s := if_neg (by simp)

/-! ### The start of the wheel -/

/-- The wheel's slot as the start of the transport at state `s` arms it (R124). -/
def State.wheelArmed (s : State) : Slot :=
  { owner := 3, armed := true, compare := s.now + s.fld Reg.XPT_WHEEL_WHEEL_TICK * 1000, period := s.fld Reg.XPT_WHEEL_WHEEL_TICK * 1000 }

/-- The state in which XPT_CFG holds `w` and the wheel has taken slot `k`. -/
def State.wheelStarted (s : State) (w : Word) (k : Nat) : State :=
  { (s.setRg Reg.XPT_CFG_EN.addr w).setSlot k s.wheelArmed with xpt.wheelSlot := some k }

theorem State.wheelStarted_en (s : State) {w : Word} (k : Nat) (hw : getBits w 0 0 = 1) :
    (s.wheelStarted w k).flag Reg.XPT_CFG_EN = true := by
  change decide (getBits ((s.setRg Reg.XPT_CFG_EN.addr w).rg Reg.XPT_CFG_EN.addr) 0 0 = 1) = true
  rw [State.setRg_rg_same, hw]
  rfl

theorem State.wheelStarted_slot (s : State) (w : Word) (k : Nat) : (s.wheelStarted w k).slot k = s.wheelArmed :=
  State.setSlot_slot_same (s.setRg Reg.XPT_CFG_EN.addr w) k s.wheelArmed

@[simp] theorem State.carryReg_slot (s : State) (a : Nat) (v : Word) (n : Nat) : (s.carryReg a v).slot n = s.slot n := by
  rw [State.slot, State.carryReg_tim, State.slot]

section WriteCfg
variable {s : State} {v : Word}

theorem State.setXptCfg_starts {w : Word} {k : Nat} (he : s.flag Reg.XPT_CFG_EN = false) (hw : getBits w 0 0 = 1)
    (hk : s.findSlot = some k) : s.setXptCfg w = s.wheelStarted w k := by
  simp only [State.setXptCfg, he, hw, hk, decide_true, reduceIte, reduceCtorEq]
  rfl

theorem exec_xptEnable_starts {k : Nat} (he : s.flag Reg.XPT_CFG_EN = false) (hv : getBits v 0 0 = 1) (hk : s.findSlot = some k)
    (hr : fieldsInRange Reg.XPT_CFG_EN.addr v = true) (ha : s.acceptsHolder true = true) :
    exec (.xptEnable v) s = .next (s.ccResumed ((s.wheelStarted (storedWord Reg.XPT_CFG_EN.addr (s.rg Reg.XPT_CFG_EN.addr) v) k).carryReg
      Reg.XPT_CFG_EN.addr v)) := by
  have hset := State.setXptCfg_starts he ((storedWord_xptCfg_en (s.rg Reg.XPT_CFG_EN.addr) v).trans hv) hk
  change execXptEnable v s = _
  simp [execXptEnable, State.writeXptCfg, State.acceptsWrite_xptCfg, he, hv, hk, hr, ha, hset]

/-- A write that does not take EN from 0 to 1 is no start of the transport. -/
theorem exec_xptEnable_none (h : s.flag Reg.XPT_CFG_EN = true ∨ getBits v 0 0 = 0) : exec (.xptEnable v) s = .next s := by
  refine congrArg _ (if_neg ?_)
  rcases h with h | h <;> simp [h]

/-- A start with no slot free, with a field out of range (R368), or on a twin that may not write what the holder carries (R371) is discarded. -/
theorem exec_xptEnable_discarded (he : s.flag Reg.XPT_CFG_EN = false) (hv : getBits v 0 0 = 1)
    (h : s.findSlot = none ∨ fieldsInRange Reg.XPT_CFG_EN.addr v = false ∨ s.acceptsHolder true = false) :
    exec (.xptEnable v) s = .next s := by
  have hw : s.writeXptCfg v = s := by
    refine if_neg ?_
    rw [State.acceptsWrite_xptCfg]
    rcases h with h | h | h <;> simp [he, hv, h]
  change execXptEnable v s = _
  simp [execXptEnable, he, hv, hw]

end WriteCfg

end Sys2Proof.Machine
end

section
/-! Proofs of SEND of family 05 (R67, R79, R85): the frame that goes into the buffer and the TX_SEQ it takes. -/
namespace Sys2Proof.Machine

/-! ### The order stream leaves the switch core and the frame's place -/

@[simp] theorem State.updConn_swc (s : State) (n : Nat) (f : Conn → Conn) : (s.updConn n f).swc = s.swc := (rfl)

@[simp] theorem State.leadFrom_swc (s : State) (n : Nat) : (s.leadFrom n).swc = s.swc := by
  unfold State.leadFrom; dsimp only; split <;> rfl

@[simp] theorem State.sendDigest_swc (s : State) (o : Option Nat) (n psn : Nat) (b : Body) : (s.sendDigest o n psn b).swc = s.swc := by
  cases o with
  | none => rfl
  | some o => exact State.sendTwin_swc s _

@[simp] theorem State.orderTx_swc (s : State) (f : Frame) : (s.orderTx f).1.swc = s.swc := by
  unfold State.orderTx
  split
  · rfl
  · split
    · rfl
    · dsimp only
      split <;> simp

/-- The order stream gives a frame its ESN, its OSEQ and its time, and nothing else. -/
theorem State.orderTx_frame (s : State) (f : Frame) : ∃ e o t, (s.orderTx f).2 = { f with esn := e, oseq := o, ordTime := t } := by
  unfold State.orderTx
  split
  · exact ⟨_, _, _, rfl⟩
  · split <;> exact ⟨_, _, _, rfl⟩

/-! ### A frame enters the buffer -/

theorem State.useCells_place (s : State) (n : Nat) :
    (s.useCells n).swc.frames = s.swc.frames ∧ (s.useCells n).swc.nextId = s.swc.nextId ∧ (s.useCells n).swc.tx = s.swc.tx := by
  unfold State.useCells
  dsimp only
  split
  · rw [State.raise_swc]; exact ⟨rfl, rfl, rfl⟩
  · exact ⟨rfl, rfl, rfl⟩

/-- A frame of connection `c` as it goes into the buffer of state `s`: with its identifier and the TX_SEQ it takes. -/
def State.inBuffer (s : State) (f : Frame) (c : Nat) : Frame :=
  { f with id := s.swc.nextId, seq := some (s.reseq true c).assign, stage := .building }

section BufferFrame
variable (s : State) {f : Frame} {c : Nat} (hf : f.conn = some c)
include hf

theorem State.inBuffer_mem_bufferFrame : s.inBuffer f c ∈ (s.bufferFrame f).swc.frames := by
  obtain ⟨-, hid, htx⟩ := s.useCells_place f.cells
  simp [State.bufferFrame, hf, State.inBuffer, State.reseq, hid, htx]

theorem State.bufferFrame_assign : ((s.bufferFrame f).reseq true c).assign = ((s.reseq true c).assign + 1) % 65536 := by
  obtain ⟨-, -, htx⟩ := s.useCells_place f.cells
  simp [State.bufferFrame, hf, State.reseq, State.setReseq, htx]

end BufferFrame

section Launch
variable {s : State} {f : Frame} {c : Nat} (hf : f.conn = some c) (hgo : s.mayGo f = true)

include hgo in
theorem State.launch_buffers : s.launch f = (s.orderTx f).1.bufferFrame (s.orderTx f).2 := if_pos hgo

include hf hgo

/-- A frame that may go is in the buffer once launched, with the next identifier and the TX_SEQ of its connection. -/
theorem State.launch_queues : ∃ g ∈ (s.launch f).swc.frames, g.id = s.swc.nextId ∧ g.sub = f.sub ∧ g.len = f.len ∧
    g.cells = f.cells ∧ g.conn = some c ∧ g.seq = some (s.reseq true c).assign := by
  obtain ⟨e, o, t, hr⟩ := s.orderTx_frame f
  have hm := (s.orderTx f).1.inBuffer_mem_bufferFrame (f := { f with esn := e, oseq := o, ordTime := t }) hf
  rw [← hr, ← State.launch_buffers hgo] at hm
  refine ⟨_, hm, ?_⟩
  simp only [State.inBuffer, State.reseq, State.orderTx_swc, hr, hf, and_self]

theorem State.launch_assign : ((s.launch f).reseq true c).assign = ((s.reseq true c).assign + 1) % 65536 := by
  obtain ⟨e, o, t, hr⟩ := s.orderTx_frame f
  rw [State.launch_buffers hgo, hr, State.bufferFrame_assign (f := { f with esn := e, oseq := o, ordTime := t }) _ hf, State.reseq,
    State.orderTx_swc, State.reseq]

end Launch

/-! ### SEND -/

section SendCall
variable {s : State} {src : SendFrom} {c : Call} (hc : s.nextCall 5 = some c)
include hc

theorem exec_send_unreadable (hl : s.sendLen c src = none) (sub conn : Nat) : exec (.send src sub conn) s = .next (s.answer c 3 0) := by
  change execSend src sub conn s = _
  simp [execSend, hc, hl]

section Readable
variable {sub conn len n : Nat} (hl : s.sendLen c src = some (len, n))
include hl

theorem exec_send_badDesc (h : 32 ≤ sub ∨ 65536 ≤ conn ∨ n = 0) : exec (.send src sub conn) s = .next (s.answer c 2 0) := by
  change execSend src sub conn s = _
  simp [execSend, hc, hl, or_assoc, h]

section Described
variable (hs : sub < 32) (hn : conn < 65536) (h0 : n ≠ 0)
include hs hn h0

theorem exec_send_described : exec (.send src sub conn) s =
    .next (if s.canTrack true conn = false then s.answer c 4 0
      else s.when (s.mayGo (s.sendFrame sub conn len n)) fun s' =>
        (s'.launch (s.sendFrame sub conn len n)).answer c 0 (s'.reseq true conn).assign) := by
  change execSend src sub conn s = _
  simp [execSend, hc, hl, Nat.not_le.mpr hs, Nat.not_le.mpr hn, h0]

theorem exec_send_untracked (ht : s.canTrack true conn = false) : exec (.send src sub conn) s = .next (s.answer c 4 0) := by
  rw [exec_send_described hc hl hs hn h0, if_pos ht]

theorem exec_send_stalls (ht : s.canTrack true conn = true) (hgo : s.mayGo (s.sendFrame sub conn len n) = false) :
    exec (.send src sub conn) s = .next s := by
  rw [exec_send_described hc hl hs hn h0, if_neg (by simp [ht]), hgo, State.when_false]

theorem exec_send_queues (ht : s.canTrack true conn = true) (hgo : s.mayGo (s.sendFrame sub conn len n) = true) :
    exec (.send src sub conn) s = .next ((s.launch (s.sendFrame sub conn len n)).answer c 0 (s.reseq true conn).assign) := by
  rw [exec_send_described hc hl hs hn h0, if_neg (by simp [ht]), hgo, State.when_true]

end Described
end Readable
end SendCall

end Sys2Proof.Machine
end

section
/-! Proofs of the hosts and grants of family 05 (R130, R131). -/
namespace Sys2Proof.Machine

/-! ### Enrol Host -/

/-- The fields of Enrol Host's payload lie in their ranges and its reserved ones are 0. -/
def hostFieldsOk (p : List Byte) : Prop :=
  leAt p 0 2 < 4096 ∧ leAt p 2 2 < 4096 ∧ leAt p 4 2 < 1024 ∧ leAt p 6 1 < 8 ∧ leAt p 7 1 = 0 ∧ leAt p 0x1C 4 = 0

/-- What Enrol Host's payload makes of its slot: empty with REMOVE, else the host it describes. -/
def payloadHost (p : List Byte) : HostEnt :=
  if (leAt p 6 1).testBit 2 then {} else
    { used := true, pd := leAt p 2 2, tenant := leAt p 4 2, plaintextOk := (leAt p 6 1).testBit 0, hostId := (p.drop 8).take 16,
      rsaE := leAt p 0x18 4, rsaN := (p.drop 0x20).take 384, mldsa := (p.drop 0x1A0).take 1952 }

theorem eq_payloadHost {p : List Byte} {x : HostEnt} (h : (leAt p 6 1).testBit 2 = true ∧ x = {} ∨ (leAt p 6 1).testBit 2 = false ∧
    x = { used := true, pd := leAt p 2 2, tenant := leAt p 4 2, plaintextOk := (leAt p 6 1).testBit 0, hostId := (p.drop 8).take 16,
          rsaE := leAt p 0x18 4, rsaN := (p.drop 0x20).take 384, mldsa := (p.drop 0x1A0).take 1952 }) : x = payloadHost p := by
  rw [payloadHost]
  rcases h with ⟨hb, rfl⟩ | ⟨hb, rfl⟩ <;> simp [hb]

/-- The state in which the payload's slot holds its host. -/
def State.withHost (s : State) (p : List Byte) : State :=
  ({ s with xpt.hosts := Assoc.set {} s.xpt.hosts (leAt p 0 2) (payloadHost p) } : State).persist (.host (leAt p 0 2))

/-- Command `c` closes the connections of host slot `h` and completes where none is left to wait for. -/
def State.closingHost (s : State) (c : Started) (h : Nat) : State :=
  if ((s.hold c.id).closeHost h).hostClosed h && (((s.hold c.id).closeHost h).ctl.started.any fun y => y.id = c.id)
  then ((s.hold c.id).closeHost h).holderDone c else (s.hold c.id).closeHost h

/-- REPLACE is bit 1 and REMOVE bit 2 of three flags: neither is set below 2, and one is from there on. -/
theorem replace_or_remove {f : Nat} (h : f < 8) : (f.testBit 1 || f.testBit 2) = decide (2 ≤ f) := by
  revert h f; decide

section EnrolHost
variable {s u : State} {id : Nat} {c : Started} (h : s.Accepts id 0x0205 [(0, 40)] (· = 2368) (fun _ => true) c u)
  (hp : hostFieldsOk c.payload)
include h hp

theorem exec_enrolHost_inRange : exec (.enrolHost id) s =
    .next (if ((Assoc.get {} u.xpt.hosts (leAt c.payload 0 2) : HostEnt).used && !(leAt c.payload 6 1).testBit 1 &&
          !(leAt c.payload 6 1).testBit 2) ||
        ((leAt c.payload 6 1).testBit 2 && !(Assoc.get {} u.xpt.hosts (leAt c.payload 0 2) : HostEnt).used) then
        u.complete c .configConflict
      else if !(Assoc.get {} u.xpt.hosts (leAt c.payload 0 2) : HostEnt).used then (u.withHost c.payload).holderDone c
      else (u.withHost c.payload).closingHost c (leAt c.payload 0 2)) := by
  obtain ⟨h0, h2, h4, h6, h7, h1C⟩ := hp
  exact congrArg _ ((State.runMgmt_accepted h _).trans (if_neg (by simp only [Bool.or_eq_true, decide_eq_true_eq]; omega)))

section EmptySlot
variable (hu : (Assoc.get {} u.xpt.hosts (leAt c.payload 0 2) : HostEnt).used = false)
include hu

theorem exec_enrolHost_enrols (hr : (leAt c.payload 6 1).testBit 2 = false) :
    exec (.enrolHost id) s = .next ((u.withHost c.payload).holderDone c) := by
  simp [exec_enrolHost_inRange h hp, hu, hr]

theorem exec_enrolHost_removesEmpty (hr : (leAt c.payload 6 1).testBit 2 = true) :
    exec (.enrolHost id) s = .next (u.complete c .configConflict) := by
  simp [exec_enrolHost_inRange h hp, hu, hr]

end EmptySlot

section UsedSlot
variable (hu : (Assoc.get {} u.xpt.hosts (leAt c.payload 0 2) : HostEnt).used = true)
include hu

theorem exec_enrolHost_inUse (hf : leAt c.payload 6 1 < 2) : exec (.enrolHost id) s = .next (u.complete c .configConflict) := by
  rw [exec_enrolHost_inRange h hp, hu, Nat.testBit_eq_false_of_lt hf, Nat.testBit_eq_false_of_lt (i := 2) (by omega)]
  rfl

/-- A replacement or a removal completes once the host's connections have closed. -/
theorem exec_enrolHost_closes (hf : 2 ≤ leAt c.payload 6 1) :
    exec (.enrolHost id) s = .next ((u.withHost c.payload).closingHost c (leAt c.payload 0 2)) := by
  have hb : ((leAt c.payload 6 1).testBit 1 || (leAt c.payload 6 1).testBit 2) = true := by
    obtain ⟨-, -, -, h8, -⟩ := hp
    rw [replace_or_remove h8, decide_eq_true hf]
  rw [exec_enrolHost_inRange h hp, hu, if_neg (by simpa [or_iff_not_imp_left] using hb)]
  rfl

end UsedSlot
end EnrolHost

/-! ### Grants -/

/-- The state without the grant of domain `pd` on namespace `n`. -/
def State.withoutGrant (s : State) (pd n : Nat) : State :=
  { s with xpt.grants := s.xpt.grants.filter fun g => !(g.pd = pd && g.nsid = n) }

theorem State.grantOf_withoutGrant (s : State) (pd n : Nat) : (s.withoutGrant pd n).grantOf pd n = none :=
  List.find?_eq_none.mpr fun _ hg => by simpa [imp_iff_not_or] using (List.mem_filter.mp hg).2

/-- The grant that Grant Namespace's payload describes. -/
def payloadGrant (p : List Byte) : Grant :=
  { pd := leAt p 0 2, nsid := leAt p 4 4, read := (leAt p 2 1).testBit 0, write := (leAt p 2 1).testBit 1, expiry := leAt p 8 8 }

/-- The state in which the payload's grant stands last and alone for its domain and namespace. -/
def State.withGrant (s : State) (p : List Byte) : State :=
  { s with xpt.grants := (s.xpt.grants.filter fun g => !(g.pd = leAt p 0 2 && g.nsid = leAt p 4 4)) ++ [payloadGrant p] }

section GrantNamespace
variable {s u : State} {id : Nat} {c : Started} (h : s.Accepts id 0x0206 [(0, 40)] (· = 24) (fun _ => true) c u)
include h

theorem exec_grantNamespace_outOfRange (hr : 4096 ≤ leAt c.payload 0 2 ∨ leAt c.payload 2 1 = 0 ∨ 4 ≤ leAt c.payload 2 1 ∨
    leAt c.payload 3 1 ≠ 0 ∨ leAt c.payload 0x10 8 ≠ 0 ∨ u.nsExists (leAt c.payload 4 4) = false) :
    exec (.grantNamespace id) s = .next (u.complete c .invalidField) :=
  congrArg _ ((State.runMgmt_accepted h _).trans (if_pos (by simpa [or_assoc, Nat.succ_le_iff] using hr)))

section InRange
variable (hpd : leAt c.payload 0 2 < 4096) (ha : 1 ≤ leAt c.payload 2 1) (ha3 : leAt c.payload 2 1 ≤ 3) (h3 : leAt c.payload 3 1 = 0)
  (h10 : leAt c.payload 0x10 8 = 0) (hn : u.nsExists (leAt c.payload 4 4) = true)
include hpd ha ha3 h3 h10 hn

theorem exec_grantNamespace_inRange : exec (.grantNamespace id) s =
    .next (if u.grantOf (leAt c.payload 0 2) (leAt c.payload 4 4) = none ∧
        (1024 ≤ (u.xpt.grants.filter fun g => g.pd = leAt c.payload 0 2).length ∨ 65536 ≤ u.xpt.grants.length) then
        u.complete c .limitExceeded
      else ((u.withGrant c.payload).nsChanged (leAt c.payload 4 4) [leAt c.payload 0 2]).holderDone c) := by
  refine congrArg _ ((State.runMgmt_accepted h _).trans ((if_neg ?_).trans ?_))
  · simp only [h3, h10, hn, Bool.or_eq_true, decide_eq_true_eq, Bool.not_true, Bool.false_eq_true, or_false]; omega
  · simp [State.withGrant, payloadGrant]

theorem exec_grantNamespace_full (hg : u.grantOf (leAt c.payload 0 2) (leAt c.payload 4 4) = none)
    (hl : 1024 ≤ (u.xpt.grants.filter fun g => g.pd = leAt c.payload 0 2).length ∨ 65536 ≤ u.xpt.grants.length) :
    exec (.grantNamespace id) s = .next (u.complete c .limitExceeded) := by
  rw [exec_grantNamespace_inRange h hpd ha ha3 h3 h10 hn, if_pos ⟨hg, hl⟩]

theorem exec_grantNamespace_grants (hd : (u.xpt.grants.filter fun g => g.pd = leAt c.payload 0 2).length < 1024)
    (hl : u.xpt.grants.length < 65536) :
    exec (.grantNamespace id) s =
      .next (((u.withGrant c.payload).nsChanged (leAt c.payload 4 4) [leAt c.payload 0 2]).holderDone c) := by
  rw [exec_grantNamespace_inRange h hpd ha ha3 h3 h10 hn, if_neg fun hf => by omega]

end InRange
end GrantNamespace

/-- Revoke Grant takes the grant away and completes once no command that passed its check is left. -/
theorem exec_revokeGrant_granted {s u : State} {id : Nat} {c : Started}
    (h : s.Accepts id 0x0207 [(0, 40)] (· = 8) (fun _ => true) c u) {pd n : Nat} (hpd : pd = leAt c.payload 0 2)
    (hn : n = leAt c.payload 4 4) (h2 : leAt c.payload 2 2 = 0) {g : Grant} (hg : u.grantOf pd n = some g) :
    exec (.revokeGrant id) s = .next (if (u.withoutGrant pd n).nsBusy n (some pd) then (u.withoutGrant pd n).hold c.id
      else ((u.withoutGrant pd n).nsChanged n [pd]).holderDone c) := by
  subst hpd hn
  exact congrArg _ ((State.runMgmt_accepted h _).trans (if_neg (by simp [h2, hg])))

/-- Settles O49: each clause is the case of its command that its hypotheses select; the frame that SEND queues is the one
`State.launch` puts into the buffer. -/
theorem transportStartsSendsQueueAndHostsAreGranted : Obligations.TransportStartsSendsQueueAndHostsAreGranted := by
  refine ⟨?enable, ?discard, ?refuse, ?send, ?enrol, ?grant, ?limit, ?revoke⟩
  case enable =>
    intro s v k ⟨he, hv, hk, hr, ha⟩
    refine ⟨_, exec_xptEnable_starts he hv hk hr ha, ?_, ?_, ?_⟩
    · rw [State.ccResumed_flag, State.carryReg_flag]
      exact s.wheelStarted_en k ((storedWord_xptCfg_en _ v).trans hv)
    · rw [State.ccResumed_wheelSlot, State.carryReg_xpt]; rfl
    · rw [State.ccResumed_slot, State.carryReg_slot, State.wheelStarted_slot]; rfl
  case discard =>
    intro s v h
    cases he : s.flag Reg.XPT_CFG_EN with
    | true => exact exec_xptEnable_none (.inl he)
    | false =>
      by_cases hv : getBits v 0 0 = 1
      · exact exec_xptEnable_discarded he hv (by simpa [he, hv] using h)
      · exact exec_xptEnable_none (.inr (by have := getBits_lt v 0 0; omega))
  case refuse =>
    intro s src sub conn c ⟨hc, _⟩
    exact ⟨fun hl => exec_send_unreadable hc hl sub conn, fun len n hl =>
      ⟨exec_send_badDesc hc hl, exec_send_untracked hc hl, exec_send_stalls hc hl⟩⟩
  case send =>
    intro s src sub conn len n c ⟨hc, _, hl, hs, hn, h0, ht, hgo⟩
    exact ⟨_, exec_send_queues hc hl hs hn h0 ht hgo, State.launch_assign rfl hgo, State.launch_queues rfl hgo⟩
  case enrol =>
    rintro s u _ id c _ _ x ⟨h, rfl, rfl, h0, h2, h4, h6, h7, h1C, hx, rfl⟩
    obtain rfl := eq_payloadHost hx
    have hp : hostFieldsOk c.payload := ⟨h0, h2, h4, h6, h7, h1C⟩
    exact ⟨exec_enrolHost_enrols h hp, exec_enrolHost_removesEmpty h hp, exec_enrolHost_inUse h hp,
      exec_enrolHost_closes h hp⟩
  case grant =>
    rintro s u id c _ _ _ ⟨h, rfl, rfl, rfl, hpd, ha, ha3, h3, h10, hn, hd, hl⟩
    exact exec_grantNamespace_grants h hpd ha ha3 h3 h10 hn hd hl
  case limit =>
    rintro s u id c _ _ _ ⟨h, rfl, rfl, rfl⟩
    exact ⟨exec_grantNamespace_outOfRange h, exec_grantNamespace_full h⟩
  case revoke =>
    rintro s u _ id c pd n g ⟨h, hpd, hn, h2, hg, rfl⟩
    exact ⟨u.grantOf_withoutGrant pd n, exec_revokeGrant_granted h hpd hn h2 hg⟩

end Sys2Proof.Machine
end

section
/-! Proofs of the shared operations of the lookup tables of family 06 (R91, R94 to R98, R102, R103): what a table and its entries read after
an operation, and what learning leaves of a sweep. -/
namespace Sys2Proof.Machine

/-! ### Reading a table -/

@[simp] theorem State.setTable_table_same (s : State) (t : Nat) (x : Table) : (s.setTable t x).table t = x :=
  Assoc.get_set_same _ _ t x

@[simp] theorem State.setTable_table_other (s : State) {t u : Nat} (x : Table) (h : u ≠ t) : (s.setTable t x).table u = s.table u :=
  Assoc.get_set_other _ _ _ t u x h

@[simp] theorem State.setTable_tableSize (s : State) (t u : Nat) (x : Table) : (s.setTable t x).tableSize u = s.tableSize u := rfl

/-- A table is read from the TBL block alone. -/
theorem State.table_of_tbl {s u : State} (h : u.tbl = s.tbl) (t : Nat) : u.table t = s.table t := by
  rw [State.table, h, State.table]

/-! ### Entries -/

theorem ne_nil_of_entryValid {t : Nat} {e : List Byte} (h : entryValid t e = true) : e ≠ [] := by
  rintro rfl
  simp [entryValid, entryFlags, leAt] at h

theorem unpinned_ne_nil (e : List Byte) : unpinned e ≠ [] := by
  simp [unpinned, putLe, leBytes]

/-- A change of the second bank leaves the live entries. -/
theorem State.onBank_entryAt (s : State) (t i : Nat) (f : Bank → Bank) : (s.onBank t f).entryAt t i = s.entryAt t i := by
  simp [State.onBank, State.entryAt, Table.at]

/-- An entry put where one stands, in a slot or in the stash, is read there. -/
theorem State.putSlot_entryAt_same {s : State} {t i : Nat} {e : List Byte} (he : e ≠ []) (hi : s.entryAt t i ≠ []) :
    (s.putSlot t i e).entryAt t i = e := by
  by_cases hn : i < s.tableSize t
  · simp [State.putSlot, State.entryAt, hn, Table.at]
  · have hk : i - s.tableSize t < (s.table t).stash.length := by
      by_contra hk
      simp [State.entryAt, hn, List.getElem?_eq_none (Nat.not_lt.mp hk)] at hi
    simp [State.putSlot, State.entryAt, hn, he, hk]

/-- The same for a write to both banks. -/
theorem State.writeSlot_entryAt_same {s : State} {t i : Nat} {e : List Byte} (he : e ≠ []) (hi : s.entryAt t i ≠ []) :
    (s.writeSlot t i e).entryAt t i = e := by
  have hp := State.putSlot_entryAt_same he hi
  unfold State.writeSlot
  dsimp only
  rw [if_neg he, State.bankPut, State.onBank_entryAt]
  split
  · rw [State.bankDel, State.onBank_entryAt, hp]
  · exact hp

/-! ### What learning leaves of a sweep -/

/-- What a firing of the sweeper of table `u` goes by: the bucket it starts from, the number of buckets, and SWEEP_BATCH. -/
def State.sweepPlace (s : State) (u : Nat) : Nat × Nat × Nat :=
  ((s.table u).sweepAt, s.buckets u, s.fld (Reg.TBL_SWEEP_SWEEP_BATCH u))

/-- The sweeper goes by its table and by registers. -/
theorem State.sweepPlace_congr {s v : State} {u : Nat} (hs : (v.table u).sweepAt = (s.table u).sweepAt)
    (hr : ∀ r : Ref, r.addr = (Reg.TBL_CFG_LOG2_SIZE u).addr ∨ r.addr = (Reg.TBL_SWEEP_SWEEP_BATCH u).addr → v.fld r = s.fld r) :
    v.sweepPlace u = s.sweepPlace u := by
  rw [State.sweepPlace, State.buckets, State.tableSize, hs, hr _ (.inl rfl), hr _ (.inr rfl)]
  rfl

section Sweep
variable (s : State) (t u : Nat)

/-- A table changed but for its sweeper's place. -/
theorem State.setTable_sweepPlace {x : Table} (h : x.sweepAt = (s.table t).sweepAt) :
    (s.setTable t x).sweepPlace u = s.sweepPlace u := by
  refine State.sweepPlace_congr ?_ fun _ _ => rfl
  by_cases hu : u = t
  · rw [hu, State.setTable_table_same, h]
  · rw [State.setTable_table_other _ _ hu]

@[simp] theorem State.raise_sweepPlace (n : Nat) (d : List Nat) : (s.raise n d).sweepPlace u = s.sweepPlace u :=
  State.sweepPlace_congr (by rw [State.table_of_tbl (s.raise_tbl n d)]) fun r _ => s.raise_fld n r d

@[simp] theorem State.raiseIf_sweepPlace (c : Bool) (n : Nat) (d : List Nat) : (s.raiseIf c n d).sweepPlace u = s.sweepPlace u := by
  unfold State.raiseIf; split <;> simp

@[simp] theorem State.drawBelow_sweepPlace (n : Nat) : (s.drawBelow n).2.sweepPlace u = s.sweepPlace u := rfl

/-- A counter in another register than those of the size and of the sweep. -/
theorem State.bump_sweepPlace {r : Ref} (hc : r.addr ≠ (Reg.TBL_CFG_LOG2_SIZE u).addr)
    (hs : r.addr ≠ (Reg.TBL_SWEEP_SWEEP_BATCH u).addr) (n : Nat) : (s.bump r n).sweepPlace u = s.sweepPlace u := by
  refine State.sweepPlace_congr rfl fun q hq => State.setFld_fld_other s r q _ ?_
  rcases hq with hq | hq <;> rw [hq]
  · exact hc.symm
  · exact hs.symm

@[simp] theorem State.putSlot_sweepPlace (i : Nat) (e : List Byte) : (s.putSlot t i e).sweepPlace u = s.sweepPlace u := by
  unfold State.putSlot
  dsimp only
  split_ifs <;> exact State.setTable_sweepPlace s t u rfl

@[simp] theorem State.onBank_sweepPlace (f : Bank → Bank) : (s.onBank t f).sweepPlace u = s.sweepPlace u :=
  State.setTable_sweepPlace s t u rfl

@[simp] theorem State.bankPut_sweepPlace (e : List Byte) : (s.bankPut t e).sweepPlace u = s.sweepPlace u := s.onBank_sweepPlace t u _

@[simp] theorem State.bankDel_sweepPlace (key : List Byte) : (s.bankDel t key).sweepPlace u = s.sweepPlace u := s.onBank_sweepPlace t u _

@[simp] theorem State.writeSlot_sweepPlace (i : Nat) (e : List Byte) : (s.writeSlot t i e).sweepPlace u = s.sweepPlace u := by
  unfold State.writeSlot
  dsimp only
  split_ifs <;> simp

@[simp] theorem State.refreshAt_sweepPlace (i : Nat) : (s.refreshAt t i).sweepPlace u = s.sweepPlace u := s.writeSlot_sweepPlace t u i _

@[simp] theorem State.runPath_sweepPlace (p : List (Nat × Nat)) : (s.runPath t p).sweepPlace u = s.sweepPlace u :=
  State.foldl_keeps (State.sweepPlace · u) _ (fun v m => by simp) _ s

theorem State.placeEntry_sweepPlace {s v : State} {t : Nat} {e : List Byte} (h : s.placeEntry t e = some v) (u : Nat) :
    v.sweepPlace u = s.sweepPlace u := by
  unfold State.placeEntry at h
  dsimp only at h
  split at h
  · cases h; simp
  · cases h; simp
  · split at h
    · cases h; simp
    · cases h

@[simp] theorem State.victim_sweepPlace (slots : List Nat) : (s.victim t slots).2.sweepPlace u = s.sweepPlace u := by
  unfold State.victim
  dsimp only
  split_ifs <;> simp

@[simp] theorem State.insertFail_sweepPlace : (s.insertFail t).sweepPlace u = s.sweepPlace u := by
  rw [State.insertFail, State.raise_sweepPlace]
  exact s.bump_sweepPlace u (by simp only [Reg.TBL_STATS_A_INS_FAIL, Reg.TBL_CFG_LOG2_SIZE]; omega)
    (by simp only [Reg.TBL_STATS_A_INS_FAIL, Reg.TBL_SWEEP_SWEEP_BATCH]; omega) 1

@[simp] theorem State.bump_evict_sweepPlace : (s.bump (Reg.TBL_STATS_A_EVICT t)).sweepPlace u = s.sweepPlace u :=
  s.bump_sweepPlace u (by simp only [Reg.TBL_STATS_A_EVICT, Reg.TBL_CFG_LOG2_SIZE]; omega)
    (by simp only [Reg.TBL_STATS_A_EVICT, Reg.TBL_SWEEP_SWEEP_BATCH]; omega) 1

/-- An insert ends as a replacement, a placement, an eviction, a place in the stash, or a refusal (R95 to R97). -/
@[simp] theorem State.tblInsert_sweepPlace (e : List Byte) : (s.tblInsert t e).1.sweepPlace u = s.sweepPlace u := by
  unfold State.tblInsert
  dsimp only
  split
  · simp
  · split
    next hp => simp [State.placeEntry_sweepPlace hp]
    · split_ifs
      · have hv := s.victim_sweepPlace t u (s.slotsOf t (entryKey t (s.stamped t e)))
        split
        next h => rw [h] at hv; simpa using hv
        next h => rw [h] at hv; simpa using hv
      · simp only [State.raiseIf_sweepPlace, State.bankPut_sweepPlace]
        exact State.setTable_sweepPlace s t u rfl
      · simp

@[simp] theorem State.settlePin_sweepPlace (key : List Byte) : (s.settlePin key).sweepPlace u = s.sweepPlace u := by
  unfold State.settlePin
  split
  · split <;> simp
  · rfl

@[simp] theorem State.applyMove_sweepPlace (i : Nat) (l : Learned) : (s.applyMove i l).sweepPlace u = s.sweepPlace u := by
  unfold State.applyMove
  dsimp only
  rw [apply_ite (State.sweepPlace · u)]
  simp

@[simp] theorem State.bump_blocked_sweepPlace : (s.bump Reg.TBL_LEARN_DROP_BLOCKED).sweepPlace u = s.sweepPlace u :=
  s.bump_sweepPlace u (by simp only [Reg.TBL_LEARN_DROP_BLOCKED, Reg.TBL_CFG_LOG2_SIZE]; omega)
    (by simp only [Reg.TBL_LEARN_DROP_BLOCKED, Reg.TBL_SWEEP_SWEEP_BATCH]; omega) 1

/-- A learn event is an insert, a refresh, a counted refusal or a move (R102). -/
@[simp] theorem State.learn_sweepPlace (l : Learned) : (s.learn l).sweepPlace u = s.sweepPlace u := by
  unfold State.learn
  dsimp only
  split
  · simp
  · split_ifs <;> simp

@[simp] theorem State.learnAll_sweepPlace : s.learnAll.sweepPlace u = s.sweepPlace u := by
  unfold State.learnAll
  dsimp only
  split
  · rw [State.foldl_keeps (State.sweepPlace · u) State.learn (fun v l => v.learn_sweepPlace u l)]; rfl
  · rfl

end Sweep

end Sys2Proof.Machine
end

section
/-! Proofs of the lookup tables of family 06 (R91 to R93, R97, R100, R102, R103, R106): configuration, LOOKUP, sweeping, learning, ECC. -/
namespace Sys2Proof.Machine

/-! ### Configuration -/

/-- A table emptied: its seeds and its sweeper stay. -/
def Table.emptied (x : Table) : Table := { seed0 := x.seed0, seed1 := x.seed1, sweepAt := x.sweepAt, sweepSlot := x.sweepSlot }

theorem State.emptyTable_table (s : State) (t : Nat) : (s.emptyTable t).table t = (s.table t).emptied := by
  unfold State.emptyTable
  dsimp only
  split
  · rw [State.table_of_tbl (State.completeWaiting_tbl ..)]
    exact s.setTable_table_same t _
  · exact s.setTable_table_same t _

/-- Emptying a table that is not being rebuilt completes no command. -/
theorem State.emptyTable_idle {s : State} {t : Nat} (h : (s.table t).bank = none) :
    s.emptyTable t = s.setTable t (s.table t).emptied := if_neg (by simp [h])

/-- A register that is not carried to the peer takes every word in range. -/
theorem State.storeReg_uncarried (s : State) {a : Nat} {v : Word} (hc : carriedAt a = false) (hr : fieldsInRange a v = true) :
    s.storeReg a v = some (s.setRg a (storedWord a (s.rg a) v)) := by
  simp [State.storeReg, State.acceptsWrite, State.carryReg, hc, hr]

theorem carriedAt_tblCfg : ∀ k : Fin 3, carriedAt (Reg.TBL_CFG_EN k).addr = false := by decide

theorem carriedAt_tblAge : ∀ k : Fin 3, carriedAt (Reg.TBL_AGE_AGE_LIMIT k).addr = false := by decide

/-- TBL_CFG holds the word written. -/
def State.withTblCfg (s : State) (k : Fin 3) (v : Word) : State :=
  s.setRg (Reg.TBL_CFG_EN k).addr (storedWord (Reg.TBL_CFG_EN k).addr (s.rg (Reg.TBL_CFG_EN k).addr) v)

/-- Table `t` takes the seeds that two draws give; the extent cache has one (R91). -/
def State.reseeded (s : State) (t : Nat) : State :=
  ((s.random 32).2.random 32).2.setTable t { s.table t with
    seed0 := (Config.freeBits 32 s.free).toNat, seed1 := if t = 2 then 0 else (Config.freeBits 32 (s.free + 1)).toNat }

theorem State.reseeded_table (s : State) (t : Nat) : (s.reseeded t).table t = { s.table t with
    seed0 := (Config.freeBits 32 s.free).toNat, seed1 := if t = 2 then 0 else (Config.freeBits 32 (s.free + 1)).toNat } :=
  State.setTable_table_same _ t _

section Configured
variable {s : State} {k : Fin 3} {v : Word} (hok : s.tblCfgOk k v = true) (hr : fieldsInRange (Reg.TBL_CFG_EN k).addr v = true)
include hok hr

theorem exec_tableEnable_enables (hoff : s.tableOn k = false) (hen : v.getLsbD 0 = true) :
    exec (.tableEnable k v) s = .next (((s.withTblCfg k v).emptyTable k).reseeded k) := by
  change execTableEnable k v s = _
  simp only [execTableEnable, hoff, hen, hok, Bool.not_false, Bool.and_self, State.when_true,
    s.storeReg_uncarried (carriedAt_tblCfg k) hr]
  rfl

theorem exec_tableDisable_disables (hon : s.tableOn k = true) (hen : v.getLsbD 0 = false) :
    exec (.tableDisable k v) s = .next ((s.withTblCfg k v).emptyTable k) := by
  change execTableDisable k v s = _
  simp only [execTableDisable, hon, hen, hok, Bool.not_false, Bool.and_self, State.when_true,
    s.storeReg_uncarried (carriedAt_tblCfg k) hr]
  rfl

end Configured

/-! ### LOOKUP and the extent cache -/

section LookupCall
variable {s u : State} {c : Call} {n ka o j p dis : Nat} (hc : s.nextCall 1 = some c) (hn : n ≤ 2)
  (hk : s.access c ka (keySize n) false = some j) (ho : s.access c o (entrySize n) true = some p)
include hc hn hk ho

theorem exec_lookup_hit {i : Nat} {e : List Byte} (hl : s.lookup n (s.bytes j (keySize n)) dis = (u, some (i, e))) :
    exec (.lookup n ka o dis) s = .next (({ u with mem := writeMem u.mem p e } : State).answer c 0 i) :=
  congrArg _ (State.engine_answers hc (by simp [Nat.not_lt.mpr hn, hk, ho, hl]))

theorem exec_lookup_miss (hl : s.lookup n (s.bytes j (keySize n)) dis = (u, none)) :
    exec (.lookup n ka o dis) s = .next (u.answer c 5 0) :=
  congrArg _ (State.engine_answers hc (by simp [Nat.not_lt.mpr hn, hk, ho, hl]))

end LookupCall

theorem exec_extentCacheFill_fills {s : State} {v e : Nat} (hon : s.tableOn 2 = true) (ha : (s.mapEnt v e).alloc = true)
    (hf : s.findEntry 2 (cacheKey v e) = none) : exec (.extentCacheFill v e) s = .next (s.fillExtent v e) := by
  change execExtentCacheFill v e s = _
  simp [execExtentCacheFill, hon, ha, hf]

/-! ### Sweeping -/

/-- The sweeper of table `k` has taken timer slot `n`, and AGE_LIMIT holds the word written (R100). -/
def State.agingStarted (s : State) (k : Fin 3) (v : Word) (n : Nat) : State :=
  ((s.setRg (Reg.TBL_AGE_AGE_LIMIT k).addr (storedWord (Reg.TBL_AGE_AGE_LIMIT k).addr (s.rg (Reg.TBL_AGE_AGE_LIMIT k).addr) v)).setSlot n
    (s.sweeper (s.fld (Reg.TBL_SWEEP_SWEEP_PERIOD k)))).setTable k { s.table k with sweepSlot := some n }

theorem exec_ageLimitWrite_starts {s : State} {k : Fin 3} {v : Word} {n : Nat} (hk : k.val ≠ 2) (hv : getBits v 15 0 ≠ 0)
    (hfit : sweepFits (s.buckets k) (s.fld (Reg.TBL_SWEEP_SWEEP_BATCH k)) (s.fld (Reg.TBL_SWEEP_SWEEP_PERIOD k)) (getBits v 15 0)
      (s.fld (Reg.TBL_CFG_TICK_LOG2 k)) = true)
    (hr : fieldsInRange (Reg.TBL_AGE_AGE_LIMIT k).addr v = true) (hx : (s.table k).sweepSlot = none) (hn : s.findSlot = some n) :
    exec (.ageLimitWrite k false v) s = .next (s.agingStarted k v n) := by
  change execAgeLimitWrite k false v s = _
  simp only [execAgeLimitWrite, ne_eq, hk, not_false_eq_true, decide_true, State.when_true, Bool.false_eq_true, reduceIte, hv, decide_false,
    Bool.false_or, hfit, s.storeReg_uncarried (carriedAt_tblAge k) hr, hx, hn]
  rfl

theorem State.agingStarted_table (s : State) (k : Fin 3) (v : Word) (n : Nat) :
    (s.agingStarted k v n).table k = { s.table k with sweepSlot := some n } := State.setTable_table_same _ _ _

theorem State.agingStarted_slot (s : State) (k : Fin 3) (v : Word) (n : Nat) :
    (s.agingStarted k v n).slot n = s.sweeper (s.fld (Reg.TBL_SWEEP_SWEEP_PERIOD k)) := State.setSlot_slot_same _ n _

/-- Where the firing after the one to come starts: SWEEP_BATCH buckets on, around the table (R100). -/
def State.nextSweepAt (s : State) (t : Nat) : Nat :=
  ((s.table t).sweepAt + min (s.buckets t) (s.fld (Reg.TBL_SWEEP_SWEEP_BATCH t))) % s.buckets t

theorem State.nextSweepAt_congr {s u : State} {t : Nat} (h : u.sweepPlace t = s.sweepPlace t) : u.nextSweepAt t = s.nextSweepAt t := by
  simp only [State.sweepPlace, Prod.mk.injEq] at h
  obtain ⟨hat, hsize, hbatch⟩ := h
  rw [State.nextSweepAt, hat, hsize, hbatch, State.nextSweepAt]

/-- The state in which a firing of slot `n` examines the buckets of table `t`: learning went first, and a late pass is told (R94, R100). -/
def State.sweepFired (s : State) (t n : Nat) : State :=
  let u := if t = 0 then s.learnAll else s
  (u.fire n).raiseIf (decide ((u.slot n).compare + (u.slot n).period ≤ u.now)) Ev.TBL_SWEEP_LATE [t]

@[simp] theorem State.fire_sweepPlace (s : State) (n u : Nat) : (s.fire n).sweepPlace u = s.sweepPlace u :=
  State.sweepPlace_congr (by rw [State.table_of_tbl (s.fire_tbl n)]) fun r _ => s.fire_fld n r

theorem State.sweepFired_sweepPlace (s : State) (t n u : Nat) : (s.sweepFired t n).sweepPlace u = s.sweepPlace u := by
  unfold State.sweepFired
  dsimp only
  rw [State.raiseIf_sweepPlace, State.fire_sweepPlace]
  split <;> simp

/-- Whatever the sweeper examines and deletes, the place it leaves is the next after the one it found. -/
theorem exec_tableSweep_moves {s : State} {k : Fin 2} {n : Nat} (he : s.engineTaken k = false) (hn : (s.table k).sweepSlot = some n) :
    ∃ u : State, exec (.tableSweep k) s = .next (u.setTable k { u.table k with sweepAt := s.nextSweepAt k }) := by
  rw [← State.nextSweepAt_congr (s.sweepFired_sweepPlace k n k)]
  change ∃ u : State, execTableSweep k s = _
  simp only [execTableSweep, he, Bool.not_false, State.when_true, hn]
  exact ⟨_, rfl⟩

/-! ### Learning -/

theorem exec_learnEvent_port {s : State} {l : Learned} (hon : s.tableOn 0 = true)
    (hp : (s.fld Reg.TBL_LEARN_CFG_LEARN_PORTS).testBit l.port = true) :
    exec (.learnEvent l) s = .next (if 1024 ≤ s.tbl.learn.length then s.bump Reg.TBL_LEARN_DROP_QFULL else
      { s with tbl.learn := s.tbl.learn ++ [l] }) := by
  change execLearnEvent l s = _
  simp [execLearnEvent, hon, hp]

theorem exec_learnApply_oldest {s : State} {l : Learned} {ls : List Learned} (he : s.engineTaken 0 = false) (hl : s.tbl.learn = l :: ls)
    (hon : s.tableOn 0 = true) : exec .learnApply s = .next (({ s with tbl.learn := ls } : State).learn l) := by
  have hon' : ({ s with tbl.learn := ls } : State).tableOn 0 = true := hon
  change execLearnApply s = _
  simp [execLearnApply, he, hl, hon']

/-- Shelf time has reached the end of the pin of the entry at index `i`, where that lies ahead (R103). -/
def State.atPinEnd (s : State) (i : Nat) : State :=
  let left := ahead 16 s.ms16 (leAt (s.entryAt 0 i) 0x1C 2)
  if left ≤ 10000 then s.reach ((s.now / 1000000 + left) * 1000000) else s

theorem State.reach_entryAt (s : State) (x t i : Nat) : (s.reach x).entryAt t i = s.entryAt t i := by
  unfold State.reach; split <;> rfl

theorem State.atPinEnd_entryAt (s : State) (i j : Nat) : (s.atPinEnd i).entryAt 0 j = s.entryAt 0 j := by
  unfold State.atPinEnd
  dsimp only
  split
  · rw [State.reach_entryAt]
  · rfl

section Pinned
variable {s : State} {i : Nat} (hv : entryValid 0 (s.entryAt 0 i) = true)
include hv

theorem exec_pinEnd_pinned (hp : entryPinned 0 (s.entryAt 0 i) = true) :
    exec (.pinEnd i) s = .next ((s.atPinEnd i).writeSlot 0 i (unpinned (s.entryAt 0 i))) := by
  change execPinEnd i s = _
  simp only [execPinEnd, hv, hp, Bool.and_self, State.when_true]
  rfl

theorem State.pinEnd_entryAt : ((s.atPinEnd i).writeSlot 0 i (unpinned (s.entryAt 0 i))).entryAt 0 i = unpinned (s.entryAt 0 i) :=
  State.writeSlot_entryAt_same (unpinned_ne_nil _) (by rw [State.atPinEnd_entryAt]; exact ne_nil_of_entryValid hv)

end Pinned

/-! ### ECC -/

theorem exec_tableEccUncorrectable_deletes {s : State} {k : Fin 3} {i : Nat} (hv : entryValid k (s.entryAt k i) = true) :
    exec (.tableEccUncorrectable k i) s =
      .next (((s.writeSlot k i []).raise Ev.TBL_ECC_UNCORR [k.val]).entryGone k (s.entryAt k i) false) := by
  change execTableEccUncorrectable k i s = _
  simp only [execTableEccUncorrectable, hv, State.when_true]

/-- Settles O23: each clause is the case of its command that the hypotheses select; the sweep goes on from where it stood since the
learning before it leaves the sweeper's place and registers alone (`State.learnAll_sweepPlace`). -/
theorem tablesAreEnabledSweptAndLearned : Obligations.TablesAreEnabledSweptAndLearned := by
  refine ⟨?enable, ?disable, ?disableRebuild, ?hit, ?miss, ?fill, ?age, ?sweep, ?event, ?apply, ?pin, ?uncorrectable, fun s k => rfl⟩
  case enable =>
    intro s k v ⟨hoff, hen, hok, hr, _, hb⟩
    have hb' : ((s.withTblCfg k v).table k).bank = none := hb
    refine ⟨_, exec_tableEnable_enables hok hr hoff hen, ?_⟩
    rw [State.reseeded_table, State.emptyTable_table, State.emptyTable_idle hb']
    exact ⟨rfl, rfl, rfl, fun h2 => if_neg h2, State.setRg_rg_same .., rfl⟩
  case disable =>
    intro s k v ⟨hon, hen, hok, hr, _, hb⟩
    have hb' : ((s.withTblCfg k v).table k).bank = none := hb
    refine ⟨_, exec_tableDisable_disables hok hr hon hen, ?_⟩
    rw [State.emptyTable_table, State.emptyTable_idle hb']
    exact ⟨rfl, rfl, rfl⟩
  case disableRebuild =>
    intro s k v ⟨hon, hen, hok, hr, _⟩
    refine ⟨_, exec_tableDisable_disables hok hr hon hen, ?_⟩
    rw [State.emptyTable_table]
    exact ⟨rfl, rfl, rfl⟩
  case hit =>
    intro s c n ka o j p dis u i e ⟨hc, hn, hk, ho, hl⟩
    exact exec_lookup_hit hc hn hk ho hl
  case miss =>
    intro s c n ka o j p dis u ⟨hc, hn, hk, ho, hl⟩
    exact exec_lookup_miss hc hn hk ho hl
  case fill =>
    intro s v e ⟨hon, ha, hf⟩
    exact exec_extentCacheFill_fills hon ha hf
  case age =>
    intro s k v n ⟨hk, hv, hfit, hr, _, hx, hn⟩
    exact ⟨_, exec_ageLimitWrite_starts hk hv hfit hr hx hn, by rw [State.agingStarted_table], s.agingStarted_slot k v n, rfl⟩
  case sweep =>
    intro s k n ⟨he, hn⟩
    obtain ⟨u, hu⟩ := exec_tableSweep_moves he hn
    exact ⟨_, hu, by rw [State.setTable_table_same, State.nextSweepAt]⟩
  case event =>
    intro s l ⟨hon, hp⟩
    exact exec_learnEvent_port hon hp
  case apply =>
    intro s l ls ⟨he, hl, hon⟩
    exact exec_learnApply_oldest he hl hon
  case pin =>
    intro s i ⟨hv, hp⟩
    exact ⟨_, exec_pinEnd_pinned hv hp, State.pinEnd_entryAt hv⟩
  case uncorrectable =>
    intro s k i hv
    exact exec_tableEccUncorrectable_deletes hv

end Sys2Proof.Machine
end

section
/-! Proofs of the table commands of family 06 (R98, R104, R105): Table Read, Write, Lock and Rehash that are accepted, and the switch
of banks. -/
namespace Sys2Proof.Machine

/-! ### Table Read -/

/-- The entry that Table Read by key finds for entry `i` of its buffer, none where the table holds none (R105). -/
def State.foundEntry (s : State) (t : Nat) (b : List Byte) (i : Nat) : List Byte :=
  match s.findEntry t (entryKey t (bufEntry t b i)) with
  | some j => s.entryAt t j
  | none => []

/-- Entries `es` of table `t` go to the command's buffer, and the number of valid ones completes it. -/
def State.answerEntries (s : State) (c : Started) (t : Nat) (es : List (List Byte)) : State :=
  (s.emit (.hostData c.desc.dataPtr.toNat (es.flatMap (shown t)))).complete c .success (es.filter (entryValid t)).length

section Read
variable {s : State} {id : Nat} {c : Started} (h : s.AcceptsPlain id 0x0100 [(2, 2), (0x0C, 28)] c) (ht : c.desc.par 0 1 ≤ 2)
include h ht

theorem exec_tableRead_index {n : Nat} (ho : c.desc.par 1 1 = 0) (hm : c.desc.dataLen.toNat % entrySize (c.desc.par 0 1) = 0)
    (hn : c.desc.dataLen.toNat / entrySize (c.desc.par 0 1) = n) (h8 : c.desc.par 8 4 = n)
    (hs : c.desc.par 4 4 + n ≤ s.tableSize (c.desc.par 0 1)) :
    exec (.tableRead id none) s = .next (s.answerEntries c (c.desc.par 0 1)
      ((List.range n).map fun i => (s.table (c.desc.par 0 1)).at (c.desc.par 4 4 + i))) :=
  congrArg _ ((State.runPlain_accepted h _).trans (by
    simp [State.answerEntries, Nat.not_lt.mpr ht, Nat.not_lt.mpr hs, ho, hm, hn, h8]))

theorem exec_tableRead_keys (ho : c.desc.par 1 1 = 1) (h4 : c.desc.par 4 8 = 0)
    (hm : c.desc.dataLen.toNat % entrySize (c.desc.par 0 1) = 0) (b : List Byte) :
    exec (.tableRead id (some b)) s = .next (s.answerEntries c (c.desc.par 0 1)
      ((List.range (c.desc.dataLen.toNat / entrySize (c.desc.par 0 1))).map (s.foundEntry (c.desc.par 0 1) b))) :=
  congrArg _ ((State.runPlain_accepted h _).trans (by
    simp only [ho, hm, h4, Nat.not_lt.mpr ht]
    rfl))

end Read

/-! ### Table Write and Table Lock -/

/-- A command over a buffer of entries that refuses none of them completes with their number. -/
theorem State.onEntries_done {s u : State} {c : Started} {b : List Byte} {n : Nat}
    {f : Nat → State → List Byte → State × Option MStatus} (ht : c.desc.par 0 1 ≤ 2) (ho : c.desc.par 1 1 ≤ 1)
    (hm : c.desc.dataLen.toNat % entrySize (c.desc.par 0 1) = 0)
    (hon : s.tableOn (c.desc.par 0 1) = true)
    (he : s.eachEntry (c.desc.par 0 1) b (f (c.desc.par 0 1)) (c.desc.dataLen.toNat / entrySize (c.desc.par 0 1)) 0 = (u, n, none)) :
    s.onEntries c (some b) f = u.holderDone c n := by
  simp [State.onEntries, Nat.not_lt.mpr ht, Nat.not_lt.mpr ho, hm, hon, he]

section Entries
variable {s u : State} {id n : Nat} {c : Started} {b : List Byte} (hm : c.desc.dataLen.toNat % entrySize (c.desc.par 0 1) = 0)
  (hon : s.tableOn (c.desc.par 0 1) = true)
include hm hon

theorem exec_tableInsert_done (h : s.Accepts id 0x0101 [(2, 38)] (fun _ => true) (fun d => d.par 1 1 ≠ 1) c s)
    (ht : c.desc.par 0 1 ≤ 1) (ho : c.desc.par 1 1 = 0)
    (he : s.eachEntry (c.desc.par 0 1) b (State.writeEntryOf (c.desc.par 0 1)) (c.desc.dataLen.toNat / entrySize (c.desc.par 0 1)) 0 =
      (u, n, none)) :
    exec (.tableInsert id (some b)) s = .next (u.holderDone c n) :=
  congrArg _ ((State.runMgmt_accepted h _).trans (by
    rw [if_neg (by omega), State.onEntries_done (by omega) (by omega) hm hon he]))

theorem exec_tableDelete_done (h : s.Accepts id 0x0101 [(2, 38)] (fun _ => true) (fun d => d.par 1 1 = 1) c s)
    (ht : c.desc.par 0 1 ≤ 2) (ho : c.desc.par 1 1 = 1)
    (he : s.eachEntry (c.desc.par 0 1) b (fun s e => (s.tblDelete (c.desc.par 0 1) (entryKey (c.desc.par 0 1) e), none))
      (c.desc.dataLen.toNat / entrySize (c.desc.par 0 1)) 0 = (u, n, none)) :
    exec (.tableDelete id (some b)) s = .next (u.holderDone c n) :=
  congrArg _ ((State.runMgmt_accepted h _).trans (State.onEntries_done ht ho.le hm hon he))

theorem exec_tableLock_done (h : s.Accepts id 0x0102 [(2, 38)] (fun _ => true) (fun d => d.par 1 1 ≠ 1) c s)
    (ht : c.desc.par 0 1 ≤ 2) (ho : c.desc.par 1 1 = 0)
    (he : s.eachEntry (c.desc.par 0 1) b (State.lockEntry true (c.desc.par 0 1)) (c.desc.dataLen.toNat / entrySize (c.desc.par 0 1)) 0 =
      (u, n, none)) :
    exec (.tableLock id (some b)) s = .next (u.holderDone c n) :=
  congrArg _ ((State.runMgmt_accepted h _).trans (State.onEntries_done ht (by omega) hm hon he))

theorem exec_tableUnlock_done (h : s.Accepts id 0x0102 [(2, 38)] (fun _ => true) (fun d => d.par 1 1 = 1) c s)
    (ht : c.desc.par 0 1 ≤ 2) (ho : c.desc.par 1 1 = 1)
    (he : s.eachEntry (c.desc.par 0 1) b (State.lockEntry false (c.desc.par 0 1)) (c.desc.dataLen.toNat / entrySize (c.desc.par 0 1)) 0 =
      (u, n, none)) :
    exec (.tableUnlock id (some b)) s = .next (u.holderDone c n) :=
  congrArg _ ((State.runMgmt_accepted h _).trans (State.onEntries_done ht ho.le hm hon he))

end Entries

/-! ### Table Rehash -/

/-- The rebuild of table `t` has started in bank `b`, after the two draws of a Table Rehash, and command `id` is held (R98). -/
def State.rebuilding (s : State) (t : Nat) (b : Bank) (id : Nat) : State :=
  (((s.random 32).2.random 32).2.setTable t { s.table t with bank := some b }).hold id

theorem State.rebuilding_table (s : State) (t : Nat) (b : Bank) (id : Nat) :
    (s.rebuilding t b id).table t = { s.table t with bank := some b } := State.setTable_table_same _ t _

theorem State.hold_waits (s : State) (id : Nat) : ∀ x ∈ (s.hold id).ctl.started, x.id = id → x.waits = true := by
  intro x hx hid
  obtain ⟨y, -, rfl⟩ := List.mem_map.mp hx
  by_cases hy : y.id = id
  · rw [if_pos hy]
  · rw [if_neg hy] at hid
    exact absurd hid hy

section Rehash
variable {s : State} {id : Nat} {c : Started} (h : s.AcceptsPlain id 0x0103 [(2, 2), (0x0C, 28)] c) (ht : c.desc.par 0 1 ≤ 1)
  (hon : s.tableOn (c.desc.par 0 1) = true) (hb : s.tbl.tables.any (fun x => x.2.bank.isSome) = false)
include h ht hon hb

theorem exec_tableRehash_given (ho : c.desc.par 1 1 = 1) (hs : c.desc.par 4 4 ≠ c.desc.par 8 4) :
    exec (.tableRehash id) s =
      .next (s.rebuilding (c.desc.par 0 1) { seed0 := c.desc.par 4 4, seed1 := c.desc.par 8 4 } c.id) :=
  congrArg _ ((State.runPlain_accepted h _).trans (by
    simp only [Nat.not_lt.mpr ht, ho, hs, hon, hb]
    rfl))

theorem exec_tableRehash_drawn (ho : c.desc.par 1 1 = 0) (h4 : c.desc.par 4 8 = 0) :
    exec (.tableRehash id) s = .next (s.rebuilding (c.desc.par 0 1)
      { seed0 := (Config.freeBits 32 s.free).toNat, seed1 := (Config.freeBits 32 (s.free + 1)).toNat } c.id) :=
  congrArg _ ((State.runPlain_accepted h _).trans (by
    simp only [Nat.not_lt.mpr ht, ho, h4, hon, hb]
    rfl))

end Rehash

/-! ### The switch of banks -/

/-- The state in which a rehash of table `t` ends its copy: learning went first (R94). -/
def State.rehashCopied (s : State) (t : Nat) : State :=
  let u := if t = 0 then s.learnAll else s
  u.copyAll t ((u.table t).entries.map Prod.snd ++ (u.table t).stash)

section Switch
variable {s u : State} {t : Fin 2} {b : Bank} (hw : s.windowOpen 3 = true) (he : s.engineTaken t = false)
  (hs : (s.table t).bank.isSome = true) (hu : s.rehashCopied t = u) (hb : (u.table t).bank = some b)
include hw he hs hu hb

theorem exec_rehashSwitch_ends :
    exec (.rehashSwitch t) s = .next (if b.full then u.abandonBank t b else u.switchBank t b) := by
  subst hu
  change execRehashSwitch t s = _
  simp only [execRehashSwitch, hw, he, hs, Bool.not_false, Bool.and_self, State.when_true]
  change Host.Outcome.next (match ((s.rehashCopied t).table t).bank with | none => _ | some b => _) = _
  rw [hb]
  rfl

theorem exec_rehashSwitch_switches (hf : b.full = false) : exec (.rehashSwitch t) s = .next (u.switchBank t b) := by
  rw [exec_rehashSwitch_ends hw he hs hu hb, hf]; rfl

theorem exec_rehashSwitch_abandons (hf : b.full = true) : exec (.rehashSwitch t) s = .next (u.abandonBank t b) := by
  rw [exec_rehashSwitch_ends hw he hs hu hb, hf]; rfl

end Switch

/-- The second bank is live after a switch: its seeds and entries, an empty stash, and no bank being built. -/
theorem State.switchBank_table (s : State) (t : Nat) (b : Bank) : (s.switchBank t b).table t =
    { seed0 := b.seed0, seed1 := b.seed1, entries := b.entries, versions := (s.table t).versions, sweepAt := (s.table t).sweepAt,
      sweepSlot := (s.table t).sweepSlot } := by
  unfold State.switchBank
  dsimp only
  rw [State.table_of_tbl (State.completeWaiting_tbl ..), State.table_of_tbl (State.raise_tbl ..), State.setTable_table_same]

/-- Settles O24: each clause is the accepted form of its command that the hypotheses select. -/
theorem tableCommandsReadWriteLockAndRehash : Obligations.TableCommandsReadWriteLockAndRehash := by
  refine ⟨?index, ?keys, ?insert, ?delete, ?lock, ?unlock, ?given, ?drawn, ?switch, ?abandon⟩
  case index =>
    intro s id c ⟨h, ht, ho, hlen, hs, hn⟩
    exact exec_tableRead_index h ht ho (by rw [hlen, Nat.mul_mod_left]) hn rfl hs
  case keys =>
    intro s id c b ⟨h, ht, ho, h4, hm⟩
    exact ⟨_, rfl, exec_tableRead_keys h ht ho h4 hm b⟩
  case insert =>
    intro s id c b u n ⟨h, ht, ho, hm, hon, he⟩
    exact exec_tableInsert_done hm hon h ht ho he
  case delete =>
    intro s id c b u n ⟨h, ht, ho, hm, hon, he⟩
    exact exec_tableDelete_done hm hon h ht ho he
  case lock =>
    intro s id c b u n ⟨h, ht, ho, hm, hon, he⟩
    exact exec_tableLock_done hm hon h ht ho he
  case unlock =>
    intro s id c b u n ⟨h, ht, ho, hm, hon, he⟩
    exact exec_tableUnlock_done hm hon h ht ho he
  case given =>
    intro s id c ⟨h, ht, ho, hs, hon, hb⟩
    refine ⟨_, exec_tableRehash_given h ht hon hb ho hs, ?_⟩
    rw [State.rebuilding_table]
    exact ⟨rfl, rfl, rfl, State.hold_waits _ _⟩
  case drawn =>
    intro s id c ⟨h, ht, ho, h4, hon, hb⟩
    refine ⟨_, exec_tableRehash_drawn h ht hon hb ho h4, ?_⟩
    rw [State.rebuilding_table]
    exact ⟨rfl, rfl, State.hold_waits _ _⟩
  case switch =>
    intro s u t b ⟨hw, he, hs, hu, hb, hf⟩
    refine ⟨exec_rehashSwitch_switches hw he hs hu hb hf, ?_⟩
    rw [State.switchBank_table]
    exact ⟨rfl, rfl, rfl, rfl, rfl⟩
  case abandon =>
    intro s u t b ⟨hw, he, hs, hu, hb, hf⟩
    exact exec_rehashSwitch_abandons hw he hs hu hb hf

end Sys2Proof.Machine
end

section
/-! Proofs of the connections of family 07 (R107, R112, R129, R134): what a connection reads after a change of it or of another part of the
state, which operations leave it to the same twin to decide, and what an authentic packet is handed to. -/
namespace Sys2Proof.Machine

/-! ### Reading connections -/

@[simp] theorem State.setConn_conn_same (s : State) (n : Nat) (x : Conn) : (s.setConn n x).conn n = x := Assoc.get_set_same _ _ n x

@[simp] theorem State.setConn_conn_other (s : State) {n m : Nat} (x : Conn) (h : m ≠ n) : (s.setConn n x).conn m = s.conn m :=
  Assoc.get_set_other _ _ _ n m x h

@[simp] theorem State.updConn_conn_same (s : State) (n : Nat) (f : Conn → Conn) : (s.updConn n f).conn n = f (s.conn n) :=
  s.setConn_conn_same n _

@[simp] theorem State.updConn_conn_other (s : State) {n m : Nat} (f : Conn → Conn) (h : m ≠ n) : (s.updConn n f).conn m = s.conn m :=
  s.setConn_conn_other _ h

/-- A connection is read from the transport alone. -/
theorem State.conn_of_xpt {s u : State} (h : u.xpt = s.xpt) (n : Nat) : u.conn n = s.conn n := by rw [State.conn, h, State.conn]

@[simp] theorem State.reach_conn (s : State) (t n : Nat) : (s.reach t).conn n = s.conn n := State.conn_of_xpt (s.reach_xpt t) n

@[simp] theorem State.raise_conn (s : State) (k : Nat) (d : List Nat) (n : Nat) : (s.raise k d).conn n = s.conn n :=
  State.conn_of_xpt (s.raise_xpt k d) n

@[simp] theorem State.sendTwin_conn (s : State) (o : Out) (n : Nat) : (s.sendTwin o).conn n = s.conn n :=
  State.conn_of_xpt (s.sendTwin_xpt o) n

/-! ### Which twin decides (R134) -/

@[simp] theorem State.raise_follows (s : State) (n : Nat) (d : List Nat) : (s.raise n d).follows = s.follows := by
  unfold State.follows
  rw [State.raise_hrn]
  split <;> rfl

@[simp] theorem State.raiseIf_follows (s : State) (c : Bool) (n : Nat) (d : List Nat) : (s.raiseIf c n d).follows = s.follows := by
  unfold State.raiseIf; split <;> simp

@[simp] theorem State.sendTwin_follows (s : State) (o : Out) : (s.sendTwin o).follows = s.follows := by
  rw [State.follows, State.sendTwin_hrn, State.follows]

@[simp] theorem State.bump_follows (s : State) (r : Ref) (n : Nat) : (s.bump r n).follows = s.follows := rfl
@[simp] theorem State.updConn_follows (s : State) (n : Nat) (f : Conn → Conn) : (s.updConn n f).follows = s.follows := rfl
@[simp] theorem State.setTable_follows (s : State) (t : Nat) (x : Table) : (s.setTable t x).follows = s.follows := rfl
@[simp] theorem State.bankPut_follows (s : State) (t : Nat) (e : List Byte) : (s.bankPut t e).follows = s.follows := rfl
@[simp] theorem State.bankDel_follows (s : State) (t : Nat) (key : List Byte) : (s.bankDel t key).follows = s.follows := rfl

@[simp] theorem State.putSlot_follows (s : State) (t i : Nat) (e : List Byte) : (s.putSlot t i e).follows = s.follows := by
  unfold State.putSlot
  dsimp only
  split_ifs <;> simp

@[simp] theorem State.writeSlot_follows (s : State) (t i : Nat) (e : List Byte) : (s.writeSlot t i e).follows = s.follows := by
  unfold State.writeSlot
  dsimp only
  split_ifs <;> simp

@[simp] theorem State.runPath_follows (s : State) (t : Nat) (p : List (Nat × Nat)) : (s.runPath t p).follows = s.follows :=
  State.foldl_keeps State.follows _ (fun u m => by simp) _ s

theorem State.placeEntry_follows {s u : State} {t : Nat} {e : List Byte} (h : s.placeEntry t e = some u) : u.follows = s.follows := by
  unfold State.placeEntry at h
  dsimp only at h
  split at h
  · cases h; simp
  · cases h; simp
  · split at h
    · cases h; simp
    · cases h

@[simp] theorem State.victim_follows (s : State) (t : Nat) (slots : List Nat) : (s.victim t slots).2.follows = s.follows := by
  unfold State.victim
  dsimp only
  split_ifs <;> rfl

@[simp] theorem State.insertFail_follows (s : State) (t : Nat) : (s.insertFail t).follows = s.follows := by simp [State.insertFail]

/-- An insert ends as a replacement, a placement, an eviction, a place in the stash, or a refusal (R95 to R97). -/
@[simp] theorem State.tblInsert_follows (s : State) (t : Nat) (e : List Byte) : (s.tblInsert t e).1.follows = s.follows := by
  unfold State.tblInsert
  dsimp only
  split
  · simp
  · split
    next hp => simp [State.placeEntry_follows hp]
    · split_ifs
      · have hv := s.victim_follows t (s.slotsOf t (entryKey t (s.stamped t e)))
        split
        next h => rw [h] at hv; simpa using hv
        next h => rw [h] at hv; simpa using hv
      · simp
      · simp

@[simp] theorem State.flowInstall_follows (s : State) (key : List Byte) (n : Nat) : (s.flowInstall key n).1.follows = s.follows := by
  unfold State.flowInstall
  split
  · rfl
  · exact s.tblInsert_follows 1 _

@[simp] theorem State.reinstall_follows (s : State) (n : Nat) : (s.reinstall n).follows = s.follows := by
  unfold State.reinstall
  dsimp only
  split
  · exact s.flowInstall_follows _ n
  · rfl

@[simp] theorem State.forget_follows (s : State) (p : RxPkt) : (s.forget p).follows = s.follows := by
  unfold State.forget; split <;> rfl

@[simp] theorem State.infoOf_follows (s : State) (p : RxPkt) : (s.infoOf p).1.follows = s.follows := by
  unfold State.infoOf
  split
  · exact s.forget_follows p
  · exact s.forget_follows p
  · split
    · rfl
    · exact State.sendTwin_follows _ _

@[simp] theorem State.entered_follows (s : State) (p : RxPkt) : (s.entered p).1.follows = s.follows := by simp [State.entered]

/-! ### Packets as they arrive -/

/-- A READY connection takes every packet (Table 07-3). -/
theorem Conn.takes_of_ready {c : Conn} (h : c.st = .ready) (op : RxOp) : c.takes op = true := by
  cases op <;> simp [Conn.takes, h]

/-- An authentic packet is taken in at once, with its verdict still open. -/
theorem State.packetIn_authentic {s : State} {p : RxPkt} (h : s.Authentic p) (op : RxOp) :
    s.packetIn p op = (s.entered p).1.takePacket p op (s.entered p).2 none := by
  obtain ⟨hen, hst, ha, hf, -⟩ := h
  unfold State.packetIn
  dsimp only
  rw [if_neg (by simp [hen, Conn.takes_of_ready hst]), if_neg (by simp [ha])]
  exact if_neg (ne_true_of_eq_false ((s.entered_follows p).trans hf))

/-- A packet that fails the checks of R129 is dropped and counted. -/
theorem State.packetIn_unauthentic {s : State} {p : RxPkt} (hen : s.flag Reg.XPT_CFG_EN = true) (hst : (s.conn p.conn).st = .ready)
    (ha : (s.conn p.conn).authentic p.conn p = false) (op : RxOp) :
    s.packetIn p op = ((s.forget p).bump Reg.XPT_ESP_DROP_COUNT).raise Ev.XPT_ESP_AUTH [p.conn] := by
  unfold State.packetIn
  dsimp only
  rw [if_neg (by simp [hen, Conn.takes_of_ready hst])]
  exact if_pos (by simp [ha])

end Sys2Proof.Machine
end

section
/-! Proofs of connection management and of Sheath keying of family 07 (R108 to R113, R127, R128): neighbour requests, admission, the states of a
connection with their timeouts, and the answers to K1 and K3. -/
namespace Sys2Proof.Machine

/-! ### Neighbours -/

theorem exec_neighbourRequestRx_answers {s : State} {a : Fin 16} {q : Nat} (ha : s.flag (Reg.XPT_IP_CFG_VALID a) = true)
    (hq : (s.subPort q).up = true) :
    exec (.neighbourRequestRx a q) s = .next (s.launch
      { id := 0, sub := q, queue := egressQueue q (s.fld Reg.QOS_CFG_CTRL_CLASS), len := 64, cells := 1
        cls := s.fld Reg.QOS_CFG_CTRL_CLASS, body := .neighbour }) :=
  congrArg _ (if_pos (by simp [ha, hq]))

/-! ### The place of a context -/

/-- A context with its residence left out: which contexts are resident is a matter of R125. -/
def Conn.placeless (c : Conn) : Conn := { c with residence := .hbm }

/-- Contexts that differ in their place alone agree in what opened them. -/
theorem Conn.opened_of_placeless {c d : Conn} (h : c.placeless = d.placeless) :
    c.st = d.st ∧ c.qid = d.qid ∧ c.sqPsn = d.sqPsn ∧ c.rqPsn = d.rqPsn ∧ c.key = d.key :=
  ⟨(congrArg Conn.st h :), (congrArg Conn.qid h :), (congrArg Conn.sqPsn h :), (congrArg Conn.rqPsn h :), (congrArg Conn.key h :)⟩

section Place
variable (s : State) (n m : Nat)

theorem State.updConn_placeless {f : Conn → Conn} (hf : ∀ c, (f c).placeless = c.placeless) :
    ((s.updConn n f).conn m).placeless = (s.conn m).placeless := by
  by_cases h : m = n
  · rw [h, State.updConn_conn_same, hf]
  · rw [State.updConn_conn_other _ _ h]

/-- Eviction moves contexts and changes nothing else of them. -/
theorem State.evictFor_placeless (keep k : Nat) : ((s.evictFor keep k).conn m).placeless = (s.conn m).placeless := by
  induction k generalizing s with
  | zero => rfl
  | succ k ih =>
    unfold State.evictFor
    split
    · rfl
    · split
      · rw [ih]; exact s.updConn_placeless _ m fun _ => rfl
      · rfl

theorem State.wantSlot_placeless : ((s.wantSlot n).conn m).placeless = (s.conn m).placeless := by
  unfold State.wantSlot
  split
  · exact s.updConn_placeless n m fun _ => rfl
  · split
    · rfl
    · exact State.evictFor_placeless _ m _ _

theorem State.residentNow_placeless : ((s.residentNow n).conn m).placeless = (s.conn m).placeless := by
  unfold State.residentNow
  split
  · exact s.updConn_placeless n m fun _ => rfl
  · rfl

end Place

theorem State.reclaim_conn (s : State) (m : Nat) : s.reclaim.conn m = s.conn m :=
  State.conn_of_xpt (by simp only [State.reclaim, apply_ite State.xpt, ite_self]) m

/-! ### Admission -/

/-- But for its place, a context opened for a REQ is what the REQ, the host and the draws give. -/
theorem State.openConn_placeless (s : State) (r : CmReq) (n psn va key : Nat) :
    ((s.openConn r n psn va key).conn n).placeless = (s.reqConn r (s.conn n) psn va key).placeless := by
  rw [State.openConn, State.residentNow_placeless, State.wantSlot_placeless, State.reclaim_conn, State.setConn_conn_same]

/-- The state after the draws for a REQ: its PSN, and the place and the key of its device region. -/
def State.reqDrawn (u : State) : State := (((u.random 24).2.draw 64).2.draw 32).2

/-- The state in which REQ `r` has been admitted to context `n`, and the other twin told of it, before its REP. -/
def State.admitted (u : State) (r : CmReq) (n : Nat) : State :=
  let va := ((u.random 24).2.draw 64).1.toNat
  let key := (((u.random 24).2.draw 64).2.draw 32).1.toNat
  let v := u.reqDrawn.openConn r n (u.random 24).1.toNat va key
  if v.hasPeer then v.sendTwin (.controlMsg (.connection n r (u.random 24).1.toNat va key)) else v

theorem State.admitReq_eq (u : State) (r : CmReq) (n : Nat) : u.admitReq r n = (u.admitted r n).sendCtl n
    (.rep ((u.admitted r n).repExt r ((u.admitted r n).conn n)) (u.random 24).1.toNat ((u.admitted r n).conn n).pmtu) := rfl

theorem State.admitted_placeless (u : State) (r : CmReq) (n : Nat) : ∃ va key, ((u.admitted r n).conn n).placeless =
    (u.reqDrawn.reqConn r (u.reqDrawn.conn n) (u.random 24).1.toNat va key).placeless := by
  refine ⟨((u.random 24).2.draw 64).1.toNat, (((u.random 24).2.draw 64).2.draw 32).1.toNat,
    Eq.trans ?_ (u.reqDrawn.openConn_placeless r n _ _ _)⟩
  unfold State.admitted
  dsimp only
  split
  · rw [State.sendTwin_conn]
  · rfl

theorem State.installReq_installed {s u : State} {r : CmReq} {n : Nat} (h : s.flowInstall (flowKey r.key) n = (u, 0)) :
    s.installReq r n = u.admitReq r n := by
  simp only [State.installReq, h, if_true]

section Request
variable {s : State} {r : CmReq} (hen : s.flag Reg.XPT_CFG_EN = true) (ha : s.flag (Reg.XPT_IP_CFG_VALID r.addr) = true)
  (hb : s.clk.bootDone = true) (hf : s.follows = false)
include hen ha hb hf

theorem exec_cmReqRx_notReady (hi : s.clk.ioReady = false) : exec (.cmReqRx r) s = .next (s.refuseReq r 3) :=
  congrArg _ ((if_pos (by simp [hen, ha, hb, hf])).trans (if_pos (by simp [hi])))

theorem exec_cmReqRx_installs {n : Nat} (hi : s.clk.ioReady = true) (hs : s.pwr.st ≠ .sleep) (hd : s.pwr.st ≠ .deep)
    (ho : (s.grantOptions r (!(s.reqHost r).used) (s.reqHost r).tenant).sheath = true ∨
      (if (s.reqHost r).used then (s.reqHost r).plaintextOk else s.flag (Reg.XPT_IP_CFG_DISC_PLAIN r.addr)) = true)
    (hn : s.freeConn = some n) (hslot : s.slotObtainable = true) : exec (.cmReqRx r) s = .next (s.installReq r n) := by
  refine congrArg _ ((if_pos (by simp [hen, ha, hb, hf])).trans ((if_neg (by simp [hi, hs, hd])).trans ((if_neg ?_).trans ?_)))
  · rcases ho with ho | ho
    · simp [ho]
    · cases hu : (s.reqHost r).used <;> simp_all
  · simp only [hn, hslot, if_true]

end Request

/-! ### Entry to READY -/

section Rtu
variable {s : State} {n : Nat} (h : (s.conn n).st = .reqRcvd)
include h

theorem exec_cmRtuRx_sheath (hsh : (s.conn n).sheath = true) : exec (.cmRtuRx n) s = .next (s.setConn n
    { s.conn n with st := .keying, cmAt := none, keyAt := some (s.now + s.fld Reg.XPT_TMO_KEY_TMO * 1000000) }) :=
  congrArg _ ((if_pos (decide_eq_true h)).trans (if_pos hsh))

theorem exec_cmRtuRx_plain (hsh : (s.conn n).sheath = false) : exec (.cmRtuRx n) s = .next (s.admitConn n) :=
  congrArg _ ((if_pos (decide_eq_true h)).trans (if_neg (ne_true_of_eq_false hsh)))

end Rtu

section Admit
variable {s : State} {n : Nat}

theorem State.admitConn_hook (h : s.hookOn 0 = true) : s.admitConn n = s.invokeHook 0 n := if_pos h

theorem State.admitConn_refuses (h : s.hookOn 0 = false) (hr : s.hookRefuses 0 = true) : s.admitConn n = s.closeConn n 5 :=
  (if_neg (ne_true_of_eq_false h)).trans (if_pos hr)

theorem State.admitConn_ready (h : s.hookOn 0 = false) (hr : s.hookRefuses 0 = false) : s.admitConn n = s.enterReady n :=
  (if_neg (ne_true_of_eq_false h)).trans (if_neg (ne_true_of_eq_false hr))

end Admit

section Ready
variable (s : State) (n : Nat)

theorem State.enterReady_conn_same : ((s.enterReady n).conn n).st = .ready ∧ ((s.enterReady n).conn n).alpha = 65536 ∧
    ((s.enterReady n).conn n).rateCur = s.lineRate (s.conn n) := by
  simp [State.enterReady]

theorem State.enterReady_conn_other {m : Nat} (h : m ≠ n) : (s.enterReady n).conn m = s.conn m := by
  simp [State.enterReady, h]

theorem State.enterReady_pend : ((s.enterReady n).src Ev.XPT_CONN_UP).pend = true := by
  rw [State.enterReady, State.raise_src_same, Src.occur_pend]

theorem State.enterReady_frame : s.enterReady n =
    { s with xpt := (s.enterReady n).xpt, evt := (s.enterReady n).evt, tel := (s.enterReady n).tel } := by
  unfold State.enterReady
  dsimp only
  rw [State.raise_frame _ (by decide) (by decide)]
  rfl

end Ready

/-! ### The close -/

section Close
variable {s : State} {n : Nat}

theorem exec_cmDreqRx_ready (h : (s.conn n).st = .ready) : exec (.cmDreqRx n) s = .next ((s.close n 0).sendCtl n .drep) :=
  congrArg _ (if_pos h)

theorem exec_cmDreqRx_closing (h : (s.conn n).st = .closing) : exec (.cmDreqRx n) s = .next (s.sendCtl n .drep) :=
  congrArg _ ((if_neg (by simp [h])).trans (if_pos h))

theorem exec_cmDrepRx_closing (h : (s.conn n).st = .closing) : exec (.cmDrepRx n) s = .next (s.enterClosed n) :=
  congrArg _ (if_pos (decide_eq_true h))

theorem exec_cmTmoExpire_reqRcvd {d : Nat} (hd : (s.conn n).cmAt = some d) (h : (s.conn n).st = .reqRcvd) : exec (.cmTmoExpire n) s =
    .next ((((s.reach d).tblDelete 1 (s.conn n).key).setConn n { incarn := (s.conn n).incarn }).grantSlot) := by
  change execCmTmoExpire n s = _
  simp only [execCmTmoExpire, hd, h, if_true]

theorem exec_cmTmoExpire_closing {d : Nat} (hd : (s.conn n).cmAt = some d) (h : (s.conn n).st = .closing) :
    exec (.cmTmoExpire n) s = .next ((s.reach d).enterClosed n) := by
  change execCmTmoExpire n s = _
  simp only [execCmTmoExpire, hd, h, reduceCtorEq, if_false, if_true]

theorem exec_quietTmoExpire_closed {d : Nat} (hd : (s.conn n).quietAt = some d) (h : (s.conn n).st = .closed) :
    exec (.quietTmoExpire n) s = .next (((s.reach d).setConn n { incarn := (s.conn n).incarn }).grantSlot) := by
  change execQuietTmoExpire n s = _
  simp only [execQuietTmoExpire, hd, h, decide_true, State.when_true]

theorem exec_keyTmoExpire_keying {d : Nat} (hd : (s.conn n).keyAt = some d) (h : (s.conn n).st = .keying) :
    exec (.keyTmoExpire n) s = .next ((s.reach d).keyFail n 5) := by
  change execKeyTmoExpire n s = _
  simp only [execKeyTmoExpire, hd, h, decide_true, State.when_true]

end Close

/-! ### What a sent message leaves of the security core -/

@[simp] theorem State.sec_ite (c : Prop) [Decidable c] (a b : State) : (if c then a else b).sec = if c then a.sec else b.sec :=
  apply_ite State.sec c a b

@[simp] theorem State.foldl_sec {α : Type} (g : State → α → State) (h : ∀ u a, (g u a).sec = u.sec) (l : List α) (s : State) :
    (l.foldl g s).sec = s.sec := State.foldl_keeps State.sec g h l s

@[simp] theorem State.setConn_sec (s : State) (n : Nat) (x : Conn) : (s.setConn n x).sec = s.sec := (rfl)
@[simp] theorem State.updConn_sec (s : State) (n : Nat) (f : Conn → Conn) : (s.updConn n f).sec = s.sec := (rfl)
@[simp] theorem State.armRetx_sec (s : State) (n : Nat) : (s.armRetx n).sec = s.sec := (rfl)
@[simp] theorem State.stamp_sec (s : State) (t k : Nat) : (s.stamp t k).sec = s.sec := (rfl)
@[simp] theorem State.dropTag_sec (s : State) (t : Nat) : (s.dropTag t).sec = s.sec := (rfl)
@[simp] theorem State.setRec_sec (s : State) (o r : Nat) : (s.setRec o r).sec = s.sec := (rfl)
@[simp] theorem State.setSampling_sec (s : State) (x : Sampling) : (s.setSampling x).sec = s.sec := (rfl)
@[simp] theorem State.writeBib_sec (s : State) (c : Cmd) (q : Cqe) : (s.writeBib c q).sec = s.sec := by simp [State.writeBib]
@[simp] theorem State.leadFrom_sec (s : State) (n : Nat) : (s.leadFrom n).sec = s.sec := by simp [State.leadFrom]
@[simp] theorem State.useCells_sec (s : State) (n : Nat) : (s.useCells n).sec = s.sec := by simp [State.useCells]

@[simp] theorem State.setReseq_sec (s : State) (e : Bool) (n : Nat) (r : Reseq) : (s.setReseq e n r).sec = s.sec := by
  unfold State.setReseq; split <;> rfl

@[simp] theorem State.sendDigest_sec (s : State) (o : Option Nat) (n psn : Nat) (b : Body) : (s.sendDigest o n psn b).sec = s.sec := by
  cases o with
  | none => rfl
  | some o => exact State.sendTwin_sec s _

@[simp] theorem State.orderTx_sec (s : State) (f : Frame) : (s.orderTx f).1.sec = s.sec := by
  unfold State.orderTx
  split
  · rfl
  · split <;> simp

@[simp] theorem State.bufferFrame_sec (s : State) (f : Frame) : (s.bufferFrame f).sec = s.sec := by
  unfold State.bufferFrame; dsimp only; split <;> simp

@[simp] theorem State.launch_sec (s : State) (f : Frame) : (s.launch f).sec = s.sec := by simp [State.launch]

@[simp] theorem State.sendPkt_sec (s : State) (n : Nat) (b : Body) (psn : Nat) (x : Bool) (c : Colour) :
    (s.sendPkt n b psn x c).sec = s.sec := State.launch_sec s _

@[simp] theorem State.cplLeft_sec (s : State) (n uid : Nat) (q : Cqe) : (s.cplLeft n uid q).sec = s.sec := by
  unfold State.cplLeft
  dsimp only
  split
  · simp
  · split <;> simp

@[simp] theorem State.packetLeft_sec (s : State) (n : Nat) (b : Body) : (s.packetLeft n b).sec = s.sec := by
  unfold State.packetLeft
  dsimp only
  split
  · split <;> simp
  all_goals simp

@[simp] theorem State.followTx_sec (s : State) (e : OrderEntry) (x psn esn : Nat) (b : Body) :
    (s.followTx e x psn esn b).sec = s.sec := by simp [State.followTx]

@[simp] theorem State.buildTx_sec (s : State) (e : OrderEntry) (b : Body) (again : Bool) : (s.buildTx e b again).sec = s.sec := by
  unfold State.buildTx; split <;> simp

@[simp] theorem State.matchTx_sec (s : State) (n : Nat) : (s.matchTx n).sec = s.sec := by
  unfold State.matchTx
  split
  · rfl
  · split <;> simp

@[simp] theorem State.await_sec (s : State) (n : Nat) (b : Body) : (s.await n b).sec = s.sec := by simp [State.await]

@[simp] theorem State.sendCtl_sec (s : State) (n : Nat) (b : Body) (psn : Nat) : (s.sendCtl n b psn).sec = s.sec := by
  simp [State.sendCtl]

@[simp] theorem State.noteReq_sec (s : State) (n : Nat) (a : Bool) : (s.noteReq n a).sec = s.sec := by
  simp [State.noteReq, State.sendAck]

/-- The device's signatures rest on the security core alone (R299, R300). -/
theorem State.k4Of_of_sec {s u : State} (h : u.sec = s.sec) (c : Conn) (k3 okm : List Byte) : u.k4Of c k3 okm = s.k4Of c k3 okm := by
  have hb : u.blocks 5 = s.blocks 5 := by simp [State.blocks, State.measurement, List.range_succ, h]
  have ha : u.aliasSeed = s.aliasSeed := by rw [State.aliasSeed, hb, State.aliasSeed]
  simp [State.k4Of, State.signBoth, State.slotSeed, ha]

/-- A message taken in leaves K4 as it would be. -/
theorem State.noteMsg_k4Of (s : State) (n k : Nat) (c : Conn) (k3 okm : List Byte) :
    (s.noteMsg n k).k4Of c k3 okm = s.k4Of c k3 okm :=
  State.k4Of_of_sec ((State.noteReq_sec _ n false).trans (s.updConn_sec n _)) c k3 okm

/-! ### Keying -/

/-- K2 for context `n` as `c` (Table 07-8), from the two draws made at state `u`. -/
def State.k2Of (u : State) (c : Conn) (n : Nat) : List Byte :=
  sheathHead 2 1232 ++ beBytes 32 (u.random 256).1.toNat ++ beBytes 4 (c.spi n) ++ List.replicate 4 0 ++
    beBytes 1184 (Config.mlKemKey (beBytes 64 ((u.random 256).2.random 512).1.toNat)).toNat

/-- The state in which `k1` has been taken in for context `n`, which was `c`, and K2 is formed. -/
def State.k1Taken (u : State) (c : Conn) (n : Nat) (k1 : List Byte) : State :=
  (((u.random 256).2.random 512).2.noteMsg n (c.respPackets 60)).updConn n fun x =>
    { x with k1 := k1, nd := beBytes 32 (u.random 256).1.toNat, k2 := u.k2Of c n, k2Sent := true }

theorem State.k1Taken_conn (u : State) (c : Conn) (n : Nat) (k1 : List Byte) :
    ((u.k1Taken c n k1).conn n).k1 = k1 ∧ ((u.k1Taken c n k1).conn n).k2 = u.k2Of c n ∧ ((u.k1Taken c n k1).conn n).k2Sent = true ∧
      ((u.k1Taken c n k1).conn n).nd = beBytes 32 (u.random 256).1.toNat := by
  simp [State.k1Taken]

/-- A connection keyed has the keys, the host and the peer's SPI that keying gave it. -/
theorem State.installSas_conn (s : State) (n h spi : Nat) (okm : List Byte) :
    ((s.installSas n h spi okm).conn n).okm = okm.take 72 ∧ ((s.installSas n h spi okm).conn n).host = some h ∧
      ((s.installSas n h spi okm).conn n).spiPeer = spi := by
  simp [State.installSas]

section Keying
variable {s u : State} {n : Nat} {m : SheathMsg} (hst : (s.conn n).st = .keying) (hsec : s.sec.stopped = false) (hf : s.follows = false)
  (hu : u = s.noteCe n m.ce)
include hst hsec hf hu

theorem exec_sheathK1Rx_answers (hk2 : (s.conn n).k2Sent = false) (hm : sheathShape m 1 60 = true) (hz : zeroAt m.bytes 0x38 4 = true) :
    exec (.sheathK1Rx n m) s = .next ((u.k1Taken (s.conn n) n m.bytes).sendMsg n true 5 (u.k2Of (s.conn n) n)) := by
  have hgo : (decide ((s.conn n).st = .keying) && !s.sec.stopped && !s.follows) = true := by simp [hst, hsec, hf]
  change execSheathK1Rx n m s = _
  simp only [execSheathK1Rx, hgo, State.when_true, ← hu, hk2, hm, hz, Bool.not_true, Bool.or_self, Bool.false_eq_true, if_false]
  rfl

/-- K3 that passes the five checks of R128 installs both SAs and admits the connection. -/
theorem exec_sheathK3Rx_keys {h : Nat} {ss okm : List Byte} {v : State} (hk2 : (s.conn n).k2Sent = true)
    (hh : u.hostOfId (((s.conn n).k1.drop 0x28).take 16) = some h) (hm : sheathShape m 3 5213 = true) (hspi : 256 ≤ beAt m.bytes 8 4)
    (hz : zeroAt m.bytes 0x0C 4 = true) (hss : m.ssRsa = some ss) (hokm : okm = (s.conn n).okmOf m.bytes m.ssKem ss)
    (hc : (m.bytes.drop 0x5D0).take 32 = (s.conn n).confirmH m.bytes okm) (hsig : m.sigOk = true)
    (hv : v = ((u.noteMsg n ((s.conn n).respPackets 5213)).sendMsg n true 16
      ((u.noteMsg n ((s.conn n).respPackets 5213)).k4Of (s.conn n) m.bytes okm)).installSas n h (beAt m.bytes 8 4) okm) :
    exec (.sheathK3Rx n m) s = .next ((if v.hasPeer then v.sendTwin (.controlMsg (.keyed n h (beAt m.bytes 8 4) (v.conn n).okm
      (v.conn n).sqPsn (v.conn n).rqPsn (v.conn n).msn)) else v).admitConn n) := by
  subst hokm
  rw [State.noteMsg_k4Of] at hv
  have hgo : (decide ((s.conn n).st = .keying) && !s.sec.stopped && !s.follows) = true := by simp [hst, hsec, hf]
  change execSheathK3Rx n m s = _
  simp only [execSheathK3Rx, hgo, State.when_true, ← hu, hk2, Bool.not_true, Bool.false_eq_true, if_false, hh, hm, hz,
    Nat.not_lt.mpr hspi, decide_false, Bool.or_self, hss, hc, ne_eq, not_true, hsig, ← hv]

end Keying

/-- Settles O25: each clause is the case of its message or its timeout that its hypotheses select. The CONNECT hook of a plaintext
connection and the causes of a close are the model's choices (log entries 68 and 20). -/
theorem connectionsOpenKeyAndClose : Obligations.ConnectionsOpenKeyAndClose := by
  refine ⟨?neighbour, ?notReady, ?admits, ?sheath, ?ready, ?hook, ?dreq, ?closing, ?reqTmo, ?closeTmo, ?quietTmo, ?k1, ?k3, ?keyTmo⟩
  case neighbour => exact fun s a q ⟨ha, hq⟩ => exec_neighbourRequestRx_answers ha hq
  case notReady => exact fun s r ⟨hen, ha, hb, hf, hi⟩ => exec_cmReqRx_notReady hen ha hb hf hi
  case admits =>
    intro s r n u ⟨hen, ha, hb, hf, hi, hs, hd, ho, hn, hslot, hflow⟩
    obtain ⟨va, key, hv⟩ := u.admitted_placeless r n
    refine ⟨u.admitted r n, ?_, Conn.opened_of_placeless hv⟩
    rw [exec_cmReqRx_installs hen ha hb hf hi hs hd ho hn hslot, State.installReq_installed hflow, State.admitReq_eq]
  case sheath => exact fun s n ⟨h, hsh⟩ => exec_cmRtuRx_sheath h hsh
  case ready =>
    intro s n ⟨h, hsh, hh, hr⟩
    obtain ⟨hst, halpha, hrate⟩ := s.enterReady_conn_same n
    refine ⟨s.enterReady n, ?_, hst, halpha, hrate, s.enterReady_pend n, fun m => s.enterReady_conn_other n, s.enterReady_frame n⟩
    rw [exec_cmRtuRx_plain h hsh, State.admitConn_ready hh hr]
  case hook =>
    intro s n ⟨h, hsh⟩
    rw [exec_cmRtuRx_plain h hsh]
    exact ⟨fun hh => congrArg _ (State.admitConn_hook hh), fun hh hr => congrArg _ (State.admitConn_refuses hh hr)⟩
  case dreq => exact fun s n h => exec_cmDreqRx_ready h
  case closing => exact fun s n h => ⟨exec_cmDreqRx_closing h, exec_cmDrepRx_closing h⟩
  case reqTmo => exact fun s n d ⟨hd, h⟩ => exec_cmTmoExpire_reqRcvd hd h
  case closeTmo => exact fun s n d ⟨hd, h⟩ => exec_cmTmoExpire_closing hd h
  case quietTmo => exact fun s n d ⟨hd, h⟩ => exec_quietTmoExpire_closed hd h
  case k1 =>
    intro s n m u ⟨hst, hsec, hf, hk2, hm, hz, hu⟩
    exact ⟨_, _, exec_sheathK1Rx_answers hst hsec hf hu hk2 hm hz, rfl, u.k1Taken_conn (s.conn n) n m.bytes⟩
  case k3 =>
    intro s n h m ss okm u ⟨hst, hsec, hf, hk2, hu, hh, hm, hspi, hz, hss, hokm, hc, hsig⟩
    obtain ⟨hkeys, hhost, hpeer⟩ := State.installSas_conn ((u.noteMsg n ((s.conn n).respPackets 5213)).sendMsg n true 16
      ((u.noteMsg n ((s.conn n).respPackets 5213)).k4Of (s.conn n) m.bytes okm)) n h (beAt m.bytes 8 4) okm
    exact ⟨_, _, rfl, hkeys, hhost, hpeer, rfl, exec_sheathK3Rx_keys hst hsec hf hu hk2 hh hm hspi hz hss hokm hc hsig rfl⟩
  case keyTmo => exact fun s n d ⟨hd, h⟩ => exec_keyTmoExpire_keying hd h

end Sys2Proof.Machine
end

section
/-! Proofs of the requests of family 07 (R107, R114 to R118, R125, R126, R129): the verdict on a request and what is done with it, and the
contexts fetched and written back. -/
namespace Sys2Proof.Machine

/-! ### The commands that bring a request -/

section Bring
variable (s : State) (p : RxPkt)

theorem exec_rdmaRequestRx (op : ReqOp) : exec (.rdmaRequestRx p op) s = .next (s.packetIn p (.request op)) := rfl

theorem exec_capsuleRx (e : SqEntry) : exec (.capsuleRx p e) s = .next (s.packetIn p (.request (.capsule e))) := rfl

theorem exec_pullSetupRx (ty rs sq cq sb sk ck cb len : Nat) : exec (.pullSetupRx p (.pullSetup ty rs sq cq sb sk ck cb len)) s =
    .next (s.packetIn p (.request (.pullSetup ty rs sq cq sb sk ck cb len))) := rfl

theorem exec_pullDoorbellRx (off len v imm : Nat) :
    exec (.pullDoorbellRx p off len v imm) s = .next (s.packetIn p (.request (.doorbell off len v imm))) := rfl

theorem exec_deviceRegionRead (off len : Nat) : exec (.deviceRegionRead p off len) s = .next (s.packetIn p (.request (.read off len))) := rfl

end Bring

/-! ### Requests of a resident connection -/

/-- A verdict other than acceptance answers a duplicate, drops the request, or sends a NAK. -/
theorem State.obey_of_ne_zero {v : Nat} (hv : v ≠ 0) (s : State) (p : RxPkt) (op : ReqOp) :
    s.obey p op v = if v = 1 then s.dupReq p op else if v = 2 then s else s.nakReq p op := by
  match v with
  | 0 => exact absurd rfl hv
  | 1 => rfl
  | 2 => rfl
  | _ + 3 => rfl

theorem State.takePacket_request {u : State} {p : RxPkt} (h : (u.conn p.conn).st = .ready) (op : ReqOp) (x : RxInfo) :
    u.takePacket p (.request op) x none = u.takeRequest p op x none := if_pos h

theorem State.takeRequest_resident {u : State} {p : RxPkt} {x : RxInfo}
    (h : (((u.noteCe p.conn x.ce).keepResident p.conn).conn p.conn).residence = .resident) (op : ReqOp) :
    u.takeRequest p op x none = ((u.noteCe p.conn x.ce).keepResident p.conn).requestIn p op x none := if_pos (by simp [h])

section Resident
variable {s : State} {p : RxPkt} (ha : s.Authentic p) (hr : ((s.noted p).conn p.conn).residence = .resident)
include ha hr

/-- A request for a resident context is judged and obeyed at once. -/
theorem State.packetIn_resident (op : ReqOp) :
    s.packetIn p (.request op) = (s.taken p ((s.heard p).verdictOf p op)).obey p op ((s.heard p).verdictOf p op) := by
  have ⟨_, _, _, _, hst⟩ := ha
  rw [State.packetIn_authentic ha, State.takePacket_request hst, State.takeRequest_resident hr]
  rfl

theorem State.packetIn_refused {op : ReqOp} {v : Nat} (h : v = (s.heard p).verdictOf p op) (hv : v ≠ 0) :
    s.packetIn p (.request op) =
      if v = 1 then (s.taken p v).dupReq p op else if v = 2 then s.taken p v else (s.taken p v).nakReq p op := by
  rw [State.packetIn_resident ha hr, ← h, State.obey_of_ne_zero hv]

end Resident

/-! ### Requests in sequence -/

section InSequence
variable {s : State} {p : RxPkt}

theorem State.verdictOf_inSequence {op : ReqOp} (h : s.InSequence p op) : (s.heard p).verdictOf p op = 0 := by
  obtain ⟨-, -, hstop, hdrop, hpsn, hop, -⟩ := h
  simp [State.verdictOf, hstop, hdrop, hpsn, hop]

/-- A request in sequence that nothing refuses is executed. -/
theorem State.packetIn_inSequence {op : ReqOp} (h : s.InSequence p op) : s.packetIn p (.request op) = (s.taken p 0).execReq p op := by
  have hv := State.verdictOf_inSequence h
  obtain ⟨ha, hr, -, -, -, -, hop⟩ := h
  rw [State.packetIn_resident ha hr, hv]
  exact if_neg (by simp [hop])

/-- What a Pull Setup that is not refused says of its connection and of its fields (R115). -/
theorem Conn.pullSetup_valid {c : Conn} {ty rs sq cq sb sk ck cb len : Nat} 
    (h : c.refusal (.pullSetup ty rs sq cq sb sk ck cb len) = none) :
    c.pull = true ∧ c.firstSend = true ∧ ty = 0x10 ∧ rs = 0 ∧ cq = sq ∧ 2 ≤ sq ∧ sq ≤ 1024 ∧ sb % 64 = 0 ∧ cb % 16 = 0 ∧ len = 64 := by
  simp only [Conn.refusal, ite_eq_right_iff, reduceCtorEq, imp_false, Bool.or_eq_true, Bool.not_eq_true', decide_eq_true_eq, not_or,
    Bool.not_eq_false, ne_eq, not_not] at h
  obtain ⟨⟨⟨⟨⟨⟨⟨⟨⟨hp, hf⟩, hty⟩, hrs⟩, hlen⟩, hlo⟩, hhi⟩, hcq⟩, hsb⟩, hcb⟩ := h
  exact ⟨hp, hf, hty, hrs, hcq, Nat.not_lt.mp hlo, Nat.not_lt.mp hhi, hsb, hcb, hlen⟩

/-- A read that is not refused lies in the device region (R116). -/
theorem Conn.read_inRegion {c : Conn} {off len : Nat} (h : c.refusal (.read off len) = none) : off + len ≤ 16 := by
  simpa [Conn.refusal] using h

/-! ### What a request's execution is -/

theorem State.execReq_capsule (s : State) (p : RxPkt) (e : SqEntry) : s.execReq p (.capsule e) =
    (((s.setConn p.conn { (s.conn p.conn).step 1 with
      places := (s.conn p.conn).places + 1, firstSend := false
      sqNext := ((s.conn p.conn).sqNext + 1) % max 1 (s.conn p.conn).hsqsize }).receive p.conn e (s.conn p.conn).sqNext).noteReq
        p.conn p.ackReq) := rfl

theorem State.execReq_pullSetup (s : State) (p : RxPkt) (ty rs sq cq sb sk ck cb len : Nat) :
    s.execReq p (.pullSetup ty rs sq cq sb sk ck cb len) = (s.setConn p.conn { (s.conn p.conn).step 1 with
      firstSend := false, pullReady := true, sqBase := sb, sqRkey := sk, sqSize := sq, cqBase := cb, cqRkey := ck, sqFetch := 0
      sqTail := 0, cqHead := 0, cqTail := 0, cqUsed := 0 }).noteReq p.conn p.ackReq := rfl

theorem State.execReq_read (s : State) (p : RxPkt) (off len : Nat) : s.execReq p (.read off len) =
    (s.setConn p.conn { (s.conn p.conn).step 1 with unacked := 0, ackAt := none }).regionRead p.conn p.psn off len := rfl

/-- A doorbell whose indices are 16-bit numbers hands them over. -/
theorem State.execReq_doorbell {off len v imm : Nat} (s : State) (p : RxPkt) (hi : imm < 2 ^ 16) (hv : v < 2 ^ 16) :
    s.execReq p (.doorbell off len v imm) =
      ((s.setConn p.conn ((s.conn p.conn).step 1)).pullIndices p.conn imm v).noteReq p.conn p.ackReq := by
  have h : ¬ (decide (2 ^ 16 ≤ imm) || decide (2 ^ 16 ≤ v)) = true := by simpa using ⟨hi, hv⟩
  exact congrArg (State.noteReq · p.conn p.ackReq) (if_neg h)

end InSequence

/-! ### Contexts -/

section Fetch
variable {s : State} {n : Nat} (h : (s.conn n).residence = .fetching)
include h

theorem exec_contextFetchDone_fetched : exec (.contextFetchDone n false) s = .next ((s.conn n).parked.foldl
    (fun s r => if (s.conn n).st = .ready then s.requestIn r.pkt r.op r.info r.verdict else s)
    (s.setConn n { s.conn n with residence := .resident, parked := [] })) := by
  change execContextFetchDone n false s = _
  simp only [execContextFetchDone, h, decide_true, State.when_true, Bool.false_eq_true, if_false]

theorem exec_contextFetchDone_none (hp : (s.conn n).parked = []) :
    exec (.contextFetchDone n false) s = .next (s.setConn n { s.conn n with residence := .resident, parked := [] }) := by
  rw [exec_contextFetchDone_fetched h, hp, List.foldl_nil]

theorem exec_contextFetchDone_parked {r : Parked} {rs : List Parked} (hp : (s.conn n).parked = r :: rs) (hst : (s.conn n).st = .ready) :
    exec (.contextFetchDone n false) s = .next (rs.foldl
      (fun s r => if (s.conn n).st = .ready then s.requestIn r.pkt r.op r.info r.verdict else s)
      ((s.setConn n { s.conn n with residence := .resident, parked := [] }).requestIn r.pkt r.op r.info r.verdict)) := by
  rw [exec_contextFetchDone_fetched h, hp, List.foldl_cons, State.setConn_conn_same, if_pos hst]

theorem exec_contextFetchDone_bad : exec (.contextFetchDone n true) s =
    .next (((s.setConn n { s.conn n with residence := .resident, parked := [] }).raise Ev.XPT_CTX_ECC [n]).connError n 5) := by
  change execContextFetchDone n true s = _
  simp only [execContextFetchDone, h, decide_true, State.when_true, if_true]

end Fetch

theorem exec_contextWritebackDone_frees {s : State} {n : Nat} (h : (s.conn n).residence = .writeback) :
    exec (.contextWritebackDone n) s = .next ((s.setConn n { s.conn n with residence := .hbm }).grantSlot) :=
  congrArg _ (if_pos (decide_eq_true h))

/-- Settles O26: each clause is the case of its packet's verdict, or of its context's move, that its hypotheses select. -/
theorem requestsInSequenceAreExecuted : Obligations.RequestsInSequenceAreExecuted := by
  refine ⟨?any, ?capsule, ?pullSetup, ?doorbell, ?read, ?refused, ?unauthentic, ?fetched, ?parked, ?bad, ?writtenBack⟩
  case any =>
    intro s p op h
    rw [exec_rdmaRequestRx, State.packetIn_inSequence h]
  case capsule =>
    intro s p e c ⟨h, hc⟩
    rw [exec_capsuleRx, State.packetIn_inSequence h, State.execReq_capsule, hc]
  case pullSetup =>
    intro s p ty rs sq cq sb sk ck cb len c ⟨h, hc⟩
    rw [exec_pullSetupRx, State.packetIn_inSequence h, State.execReq_pullSetup, hc]
    obtain ⟨-, -, -, -, -, -, hop⟩ := h
    exact ⟨rfl, Conn.pullSetup_valid hop⟩
  case doorbell =>
    intro s p v imm c ⟨h, hc, hi, hv⟩
    rw [exec_pullDoorbellRx, State.packetIn_inSequence h, State.execReq_doorbell _ p hi hv, hc]
  case read =>
    intro s p off len c ⟨h, hc⟩
    rw [exec_deviceRegionRead, State.packetIn_inSequence h, State.execReq_read, hc]
    obtain ⟨-, -, -, -, -, -, hop⟩ := h
    exact ⟨rfl, Conn.read_inRegion hop⟩
  case refused =>
    intro s p op v ⟨ha, hr, h, hv⟩
    rw [exec_rdmaRequestRx, State.packetIn_refused ha hr h hv]
  case unauthentic =>
    intro s p e op ⟨hen, hst, ha⟩
    rw [exec_capsuleRx, exec_rdmaRequestRx, State.packetIn_unauthentic hen hst ha, State.packetIn_unauthentic hen hst ha]
    exact ⟨rfl, rfl⟩
  case fetched => exact fun s n ⟨h, hp⟩ => exec_contextFetchDone_none h hp
  case parked => exact fun s n r rs ⟨h, hp, hst⟩ => exec_contextFetchDone_parked h hp hst
  case bad => exact fun s n h => exec_contextFetchDone_bad h
  case writtenBack => exact fun s n h => exec_contextWritebackDone_frees h

end Sys2Proof.Machine
end

section
/-! Proofs of the responses and the deadlines of family 07 (R115, R118 to R122, R124): acknowledgement, NAKs and resending, READ responses, the
rate of a connection, and the wheel. -/
namespace Sys2Proof.Machine

/-! ### Deadlines -/

/-- A deadline that the wheel serves is met at the tick that serves it. -/
theorem State.atWheel_served {s : State} {d t : Nat} (h : s.wheelAt d = some t) (f : State → State) :
    s.atWheel (some d) f = f (s.reach t) := by
  simp [State.atWheel, h]

section Deadline
variable {s : State} {n d t : Nat} (hw : s.wheelAt d = some t)
include hw

theorem exec_ackSend_atWheel (hd : (s.conn n).ackAt = some d) (h0 : (s.conn n).unacked ≠ 0)
    (hc : (s.conn n).unacked < s.fld Reg.XPT_ACK_ACK_COAL) : exec (.ackSend n) s = .next ((s.reach t).sendAck n) := by
  have h : ((s.reach t).conn n).unacked ≠ 0 := by rwa [State.reach_conn]
  refine congrArg _ ((if_neg (by simp [hc])).trans ?_)
  rw [hd, State.atWheel_served hw]
  exact if_neg h

theorem exec_retransmitDeadline_resends (hd : (s.conn n).retxAt = some d) (hst : (s.conn n).st = .ready ∨ (s.conn n).st = .keying)
    (hp : (s.conn n).unaPsn ≠ (s.conn n).sqPsn) : exec (.retransmitDeadline n) s = .next ((s.reach t).resend n (s.conn n).unaPsn) := by
  have h : (s.conn n).resends = true := by simp [Conn.resends, hst, hp]
  change Host.Outcome.next (s.atWheel (s.conn n).retxAt fun s => s.retxExpire n) = _
  rw [hd, State.atWheel_served hw, State.retxExpire, State.reach_conn, if_pos h]

theorem exec_alphaPeriodExpire_atWheel (hd : (s.conn n).alphaAt = some d) :
    exec (.alphaPeriodExpire n) s = .next ((s.reach t).alphaExpire n) := by
  change Host.Outcome.next (s.atWheel (s.conn n).alphaAt fun s => s.alphaExpire n) = _
  rw [hd, State.atWheel_served hw]

theorem exec_rateIncrease_atWheel (hd : (s.conn n).rateAt = some d) (hb : s.bytesDue (s.conn n) = false) :
    exec (.rateIncrease n) s = .next ((s.reach t).rateExpire n) := by
  refine congrArg _ ((if_neg (ne_true_of_eq_false hb)).trans ?_)
  rw [hd, State.atWheel_served hw]

end Deadline

theorem exec_ackSend_coalesced {s : State} {n : Nat} (h0 : (s.conn n).unacked ≠ 0) (hc : s.fld Reg.XPT_ACK_ACK_COAL ≤ (s.conn n).unacked) :
    exec (.ackSend n) s = .next (s.sendAck n) :=
  congrArg _ ((if_pos (by simp [h0, hc])).trans (if_neg h0))

theorem exec_rateIncrease_bytes {s : State} {n : Nat} (hb : s.bytesDue (s.conn n) = true) :
    exec (.rateIncrease n) s = .next (s.rateExpire n) :=
  congrArg _ (if_pos hb)

/-- The RNR wait is over: the resend counts as no retry of the retransmit deadline (R119). -/
theorem exec_rnrWaitExpire_resends {s : State} {n d q : Nat} (h : (s.conn n).rnrAt = some (d, q)) :
    exec (.rnrWaitExpire n) s = .next (((((s.reach d).updConn n fun c => { c with rnrAt := none }).updConn n fun c =>
      { c with retries := 0 }).resend n q).updConn n fun c => if c.st = .ready then
      { c with retries := (((s.reach d).updConn n fun c => { c with rnrAt := none }).conn n).retries } else c) := by
  change execRnrWaitExpire n s = _
  simp only [execRnrWaitExpire, h]

theorem exec_cqGatherExpire_writes {s : State} {n d : Nat} (h : (s.conn n).gatherAt = some d) :
    exec (.cqGatherExpire n) s = .next (((s.reach d).updConn n fun c => { c with gatherAt := none }).flushReady n s.gatherMost
      ((s.conn n).ready.length + 1)) := by
  change execCqGatherExpire n s = _
  simp only [execCqGatherExpire, h]

/-- A tick within its period is not late. -/
theorem exec_wheelTick_inTime {s : State} {k : Nat} (hk : s.xpt.wheelSlot = some k) (hn : s.now < (s.slot k).compare + (s.slot k).period) :
    exec .wheelTick s = .next ((s.xpt.conns.map Prod.fst).foldl State.wheelConn (s.fire k)) := by
  change execWheelTick s = _
  simp only [execWheelTick, hk]
  rw [State.raiseIf, if_neg (by simp [hn]), State.fire_xpt]

/-! ### Answers to the device's requests -/

section Answer
variable {s : State} {p : RxPkt} (ha : s.Authentic p)
include ha

theorem exec_ackRx_new (hv : (s.heardAnswer p).answerVerdict p .ack = 0) :
    exec (.ackRx p) s = .next ((s.answered p 0).ackUpTo p.conn p.psn) := by
  change Host.Outcome.next (s.packetIn p .ack) = _
  rw [State.packetIn_authentic ha, ← hv]
  exact congrArg _ (if_pos hv)

theorem exec_nakRx_new {code : NakCode} (hv : (s.heardAnswer p).answerVerdict p (.nak code) = 0) :
    exec (.nakRx p code) s = .next ((s.answered p 0).takeNak p.conn p.psn code) := by
  change Host.Outcome.next (s.packetIn p (.nak code)) = _
  rw [State.packetIn_authentic ha, ← hv]
  exact congrArg _ (if_pos hv)

theorem exec_readResponseRx_taken (b : List Byte) : exec (.readResponseRx p b) s =
    .next ((s.answered p ((s.heardAnswer p).answerVerdict p (.readResponse b))).takeReadResp p.conn p.psn b) :=
  congrArg _ (State.packetIn_authentic ha _)

end Answer

/-! ### Acknowledgements -/

@[simp] theorem State.armRetx_conn_same (s : State) (n : Nat) : (s.armRetx n).conn n =
    { s.conn n with retxAt := if (s.conn n).unaPsn = (s.conn n).sqPsn then none else some (s.now + s.ackTmo) } :=
  s.setConn_conn_same n _

@[simp] theorem State.armRetx_conn_other (s : State) {n m : Nat} (h : m ≠ n) : (s.armRetx n).conn m = s.conn m :=
  s.setConn_conn_other _ h

/-- With no READ outstanding an acknowledgement shows no gap. -/
theorem State.ackUpTo_of_no_reads {s : State} {n : Nat} (h : (s.conn n).reads = []) (psn : Nat) : s.ackUpTo n psn = s.ackTo n psn := by
  simp only [State.ackUpTo, h]

/-- An acknowledgement inside the window is progress. -/
theorem State.ackTo_inWindow {s : State} {n psn : Nat} (h : psnAhead (s.conn n).unaPsn psn < psnAhead (s.conn n).unaPsn (s.conn n).sqPsn) :
    s.ackTo n psn = (s.setConn n { s.conn n with
      unaPsn := psnAdd psn 1, retries := 0, rnrRetries := 0, rnrAt := none
      sent := (s.conn n).sent.filter fun x =>
        decide (psnAhead (s.conn n).unaPsn psn < psnAhead (s.conn n).unaPsn (psnAdd x.psn (x.n - 1))) }).armRetx n :=
  if_pos h

/-! ### NAKs -/

section Nak
variable (s : State) (n : Nat)

/-- A NAK of UNA_PSN acknowledges nothing new. -/
theorem State.takeNak_sequence_una : s.takeNak n (s.conn n).unaPsn .sequence = s.resend n (s.conn n).unaPsn := by
  simp only [State.takeNak, if_true]

theorem State.takeNak_invalidRequest_una : s.takeNak n (s.conn n).unaPsn .invalidRequest = s.connError n 3 := by
  simp only [State.takeNak, if_true]

theorem State.takeNak_remoteAccess_una : s.takeNak n (s.conn n).unaPsn .remoteAccess = s.connError n 3 := by
  simp only [State.takeNak, if_true]

theorem State.takeNak_rnr_una {s : State} {n : Nat} (h : (s.conn n).rnrRetries < s.fld Reg.XPT_RETRY_RNR_RETRY) (w : Nat) :
    s.takeNak n (s.conn n).unaPsn (.rnr w) = s.setConn n
      { s.conn n with rnrRetries := (s.conn n).rnrRetries + 1, rnrAt := some (s.now + w, (s.conn n).unaPsn) } := by
  simp [State.takeNak, Nat.not_le.mpr h]

end Nak

/-! ### READ responses -/

/-- The next response of a READ that is not its last is kept. -/
theorem State.takeReadResp_next {s : State} {n psn : Nat} {r : ReadOp} {rs : List ReadOp} (hr : (s.conn n).reads = r :: rs)
    (hp : psnAhead (psnAdd r.psn r.got) psn = 0) (hn : r.got + 1 < r.n) (b : List Byte) : s.takeReadResp n psn b =
    (s.setConn n { s.conn n with reads := { r with got := r.got + 1, bytes := r.bytes ++ b, asked := false } :: rs }).ackUpTo n psn := by
  simp [State.takeReadResp, hr, hp, Nat.not_le.mpr hn]

/-! ### The rate -/

/-- What follows shelf time in the transport alone changes the time unit and the transport alone. -/
theorem State.frame_after_reach {s u : State} {t : Nat} (h : u = { s.reach t with xpt := u.xpt }) :
    u = { s with tim := u.tim, xpt := u.xpt } := by
  have ht : u.tim = (s.reach t).tim := (congrArg State.tim h :)
  rw [ht]
  exact h.trans (congrArg (fun r : State => { r with xpt := u.xpt }) (s.reach_frame t))

theorem State.cutRate_frame (s : State) (n : Nat) : s.cutRate n = { s with xpt := (s.cutRate n).xpt } := rfl

/-- A CNP cuts the rate by α/2, not below MIN_RATE, and the recovery starts over from the old rate as its target. -/
theorem State.cutRate_conn_same (s : State) (n : Nat) :
    ((s.cutRate n).conn n).rateTgt = (s.conn n).rateCur ∧
    ((s.cutRate n).conn n).rateCur = max (s.fld Reg.XPT_CC_D_MIN_RATE) ((s.conn n).rateCur - (s.conn n).rateCur * (s.conn n).alpha / 131072) ∧
    ((s.cutRate n).conn n).stage = 0 ∧ ((s.cutRate n).conn n).byteCnt = 0 := by
  simp [State.cutRate, State.armRate]

theorem State.cutRate_conn_other (s : State) {n m : Nat} (h : m ≠ n) : (s.cutRate n).conn m = s.conn m := by
  simp [State.cutRate, State.armRate, h]

theorem exec_cnpRx_cuts {s u : State} {p : RxPkt} (hst : (s.conn p.conn).st = .ready) (ha : (s.conn p.conn).authentic p.conn p = true)
    (hu : u = (((s.forget p).bump Reg.XPT_CNP_RX_COUNT).updConn p.conn fun c => c.seeEsn p.esp).keepResident p.conn)
    (hr : (u.conn p.conn).residence = .resident) (hc : u.flag Reg.XPT_CFG_CC_EN = true) :
    exec (.cnpRx p) s = .next (u.cutRate p.conn) := by
  change execCnpRx p s = _
  simp only [execCnpRx, hst, ha, decide_true, Bool.not_true, Bool.and_false, Bool.false_eq_true, if_false, State.when_true, ← hu, hr, hc,
    Bool.and_self]

/-- α decays where congestion control is on. -/
theorem State.alphaExpire_decays {s : State} (n : Nat) (hc : s.flag Reg.XPT_CFG_CC_EN = true) : s.alphaExpire n = s.setConn n
    { s.conn n with
      alpha := (1024 - s.fld Reg.XPT_CC_A_G) * (s.conn n).alpha / 1024
      alphaAt := if (1024 - s.fld Reg.XPT_CC_A_G) * (s.conn n).alpha / 1024 = 0 then none
        else some (s.now + s.fld Reg.XPT_CC_D_ALPHA_PERIOD * 1000) } :=
  if_neg (by simp [hc])

theorem State.rateStep_frame (s : State) (n : Nat) : s.rateStep n = { s with xpt := (s.rateStep n).xpt } := by
  unfold State.rateStep
  dsimp only
  split_ifs <;> rfl

theorem State.rateStep_conn_other (s : State) {n m : Nat} (h : m ≠ n) : (s.rateStep n).conn m = s.conn m := by
  unfold State.rateStep
  dsimp only
  split_ifs <;> simp [State.armRate, h]

/-- In fast recovery the target stays and the rate moves half way to it. -/
theorem State.rateStep_conn_same {s : State} {n : Nat} (h : (s.conn n).stage < s.fld Reg.XPT_CC_A_F) :
    ((s.rateStep n).conn n).rateTgt = (s.conn n).rateTgt ∧
    ((s.rateStep n).conn n).rateCur = ((s.conn n).rateCur + (s.conn n).rateTgt) / 2 := by
  have h1 : ¬ s.fld Reg.XPT_CC_A_F < (s.conn n).stage + 1 := by omega
  have h2 : ¬ 2 * s.fld Reg.XPT_CC_A_F < (s.conn n).stage + 1 := by omega
  unfold State.rateStep
  simp only [h1, h2, if_false]
  split <;> simp [State.armRate]

theorem State.rateExpire_on {s : State} (n : Nat) (hc : s.flag Reg.XPT_CFG_CC_EN = true) : s.rateExpire n = s.rateStep n := if_pos hc

/-- Settles O27: each clause is the case of the answer, the deadline or the rate that its hypotheses select. -/
theorem acksRetriesAndRates : Obligations.AcksRetriesAndRates := by
  refine ⟨?delayed, ?coalesced, ?ack, ?progress, ?nak, ?nakUna, ?rnr, ?retransmit, ?response, ?next, ?cnp, ?alpha, ?timed, ?bytes, ?wheel,
    ?gather⟩
  case delayed => exact fun s n d t ⟨hd, h0, hc, hw⟩ => exec_ackSend_atWheel hw hd h0 hc
  case coalesced => exact fun s n ⟨h0, hc⟩ => exec_ackSend_coalesced h0 hc
  case ack => exact fun s p ⟨ha, hv⟩ => exec_ackRx_new ha hv
  case progress =>
    intro s n psn ⟨hr, hw⟩
    rw [State.ackUpTo_of_no_reads hr, State.ackTo_inWindow hw]
    exact ⟨by simp, by simp, by simp, by simp, fun m hm => by simp [hm]⟩
  case nak => exact fun s p code ⟨ha, hv⟩ => exec_nakRx_new ha hv
  case nakUna =>
    intro s n _
    exact ⟨s.takeNak_sequence_una n, s.takeNak_invalidRequest_una n, s.takeNak_remoteAccess_una n, fun w h => State.takeNak_rnr_una h w⟩
  case rnr => exact fun s n d q h => ⟨_, exec_rnrWaitExpire_resends h, rfl⟩
  case retransmit => exact fun s n d t ⟨hd, hst, hp, hw⟩ => exec_retransmitDeadline_resends hw hd hst hp
  case response =>
    intro s p b v ⟨ha, hv⟩
    rw [hv, exec_readResponseRx_taken ha]
  case next => exact fun s n psn b r rs ⟨hr, hp, hn⟩ => State.takeReadResp_next hr hp hn b
  case cnp =>
    intro s p u ⟨hst, ha, hu, hr, hc⟩
    obtain ⟨htgt, hcur, hstage, hbytes⟩ := u.cutRate_conn_same p.conn
    exact ⟨_, exec_cnpRx_cuts hst ha hu hr hc, htgt, hcur, hstage, hbytes, fun m => u.cutRate_conn_other, u.cutRate_frame p.conn⟩
  case alpha =>
    intro s n d t ⟨hd, hc, hw⟩
    have he := State.alphaExpire_decays (s := s.reach t) n (by simpa using hc)
    refine ⟨_, exec_alphaPeriodExpire_atWheel hw hd, ?_, ?_, ?_, State.frame_after_reach (t := t) (by rw [he]; rfl)⟩
    · rw [he]; simp
    · rw [he]; simp
    · intro m hm; rw [he]; simp [hm]
  case timed =>
    intro s n d t ⟨hd, hf, hc, hb, hw⟩
    have he := State.rateExpire_on (s := s.reach t) n (by simpa using hc)
    obtain ⟨htgt, hcur⟩ := State.rateStep_conn_same (s := s.reach t) (n := n) (by simpa using hf)
    rw [State.reach_conn] at htgt hcur
    refine ⟨_, exec_rateIncrease_atWheel hw hd hb, ?_⟩
    rw [he]
    exact ⟨htgt, hcur, fun m hm => ((s.reach t).rateStep_conn_other hm).trans (s.reach_conn t m),
      State.frame_after_reach ((s.reach t).rateStep_frame n)⟩
  case bytes =>
    intro s n ⟨hb, hf, hc⟩
    obtain ⟨htgt, hcur⟩ := State.rateStep_conn_same hf
    refine ⟨_, exec_rateIncrease_bytes hb, ?_⟩
    rw [State.rateExpire_on n hc]
    exact ⟨htgt, hcur, fun m => s.rateStep_conn_other, s.rateStep_frame n⟩
  case wheel => exact fun s k ⟨hk, hn⟩ => exec_wheelTick_inTime hk hn
  case gather => exact fun s n d h => exec_cqGatherExpire_writes h

end Sys2Proof.Machine
end

section
/-! Proofs of the admin commands of family 09 (R133, R151, R160, R162, R351): Identify, the log pages, Abort, the features, events, Keep Alive,
memory keys, and the thaw of a queue. -/
namespace Sys2Proof.Machine

section AdminCommand
variable {s : State} {t : Nat} {c : Cmd}

/-! ### Identify and the log pages -/

section Identify
variable (hc : s.ready t true 0x06 = some c)
include hc

theorem exec_nvmeIdentify_namespace (h : c.entry.cdw10 % 256 = 0) :
    exec (.nvmeIdentify t) s = .next (s.answerData t (s.identifyNs c.entry.nsid)) := by
  change execNvmeIdentify t s = _
  simp only [execNvmeIdentify, hc, h]

theorem exec_nvmeIdentify_controller (h : c.entry.cdw10 % 256 = 1) :
    exec (.nvmeIdentify t) s = .next (s.answerData t (s.identifyCtrl ((s.conn c.conn).ctrl.getD 0))) := by
  change execNvmeIdentify t s = _
  simp only [execNvmeIdentify, hc, h]

theorem exec_nvmeIdentify_granted (h : c.entry.cdw10 % 256 = 2) :
    exec (.nvmeIdentify t) s = .next (s.answerData t (layoutBytes 4096
      [(0, (((s.grantedNs (s.conn c.conn).pd).filter fun n => c.entry.nsid < n).take 1024).flatMap (leBytes 4))])) := by
  change execNvmeIdentify t s = _
  simp only [execNvmeIdentify, hc, h]

theorem exec_nvmeIdentify_descriptor (h : c.entry.cdw10 % 256 = 3) :
    exec (.nvmeIdentify t) s =
      .next (s.answerData t (layoutBytes 4096 [(0, [2, 16, 0, 0] ++ fit 16 (s.ns c.entry.nsid).nguid)])) := by
  change execNvmeIdentify t s = _
  simp only [execNvmeIdentify, hc, h]

theorem exec_nvmeIdentify_other (h : 4 ≤ c.entry.cdw10 % 256) : exec (.nvmeIdentify t) s = .next (s.finish t 0 2 true) := by
  obtain ⟨k, hk⟩ := Nat.exists_eq_add_of_le' h
  change execNvmeIdentify t s = _
  simp only [execNvmeIdentify, hc, hk]

end Identify

section LogPage
variable (hc : s.ready t true 0x02 = some c)
include hc

theorem exec_getLogPage_page {u : State} {d : List Byte}
    (h : s.logPage ((s.conn c.conn).ctrl.getD 0) (c.entry.cdw10 % 256) (c.entry.cdw12 + c.entry.cdw13 * 2 ^ 32 + c.bytes) = some (d, u)) :
    exec (.getLogPage t) s = .next (u.answerData t (fit c.bytes (d.drop (c.entry.cdw12 + c.entry.cdw13 * 2 ^ 32)))) := by
  change execGetLogPage t s = _
  simp only [execGetLogPage, hc, h]

theorem exec_getLogPage_none
    (h : s.logPage ((s.conn c.conn).ctrl.getD 0) (c.entry.cdw10 % 256) (c.entry.cdw12 + c.entry.cdw13 * 2 ^ 32 + c.bytes) = none) :
    exec (.getLogPage t) s = .next (s.finish t 1 9 true) := by
  change execGetLogPage t s = _
  simp only [execGetLogPage, hc, h]

end LogPage

/-! ### Abort -/

section Abort
variable (hc : s.ready t true 0x08 = some c) {n : Nat} (hn : s.queueConn ((s.conn c.conn).ctrl.getD 0) (c.entry.cdw10 % 65536) = some n)
include hc hn

theorem exec_nvmeAbort_found {r : RxCmd} (hr : ((s.conn n).rxq.find? fun r => r.entry.cid = c.entry.cdw10 / 65536) = some r) :
    exec (.nvmeAbort t) s = .next ((s.endUnstarted n (fun x => x = r) 0 7 true).success t 0) := by
  change execNvmeAbort t s = _
  simp only [execNvmeAbort, hc, hn, hr, Option.bind_some, Option.map_some]

theorem exec_nvmeAbort_notFound (hr : ((s.conn n).rxq.find? fun r => r.entry.cid = c.entry.cdw10 / 65536) = none) :
    exec (.nvmeAbort t) s = .next (s.success t 1) := by
  change execNvmeAbort t s = _
  simp only [execNvmeAbort, hc, hn, hr, Option.bind_some, Option.map_none]

end Abort

/-! ### Features -/

section SetFeatures
variable (hc : s.ready t true 0x09 = some c)
include hc

/-- The write cache stays on (Table 09-1). -/
theorem exec_setFeatures_writeCache (h : c.entry.cdw10 % 256 = 0x06) :
    exec (.setFeatures t) s = .next (if c.entry.cdw11 % 2 = 0 then s.finish t 0 2 true else s.success t) := by
  change execSetFeatures t s = _
  simp only [execSetFeatures, hc, h]

theorem exec_setFeatures_queues (h : c.entry.cdw10 % 256 = 0x07) {n : Nat}
    (hn : n = min (max (c.entry.cdw11 % 65536) (c.entry.cdw11 / 65536) + 1) (s.fld Reg.CMD_LIMITS_MAX_IOQ)) :
    exec (.setFeatures t) s =
      .next ((s.updCtrl ((s.conn c.conn).ctrl.getD 0) fun x => { x with ioqs := n }).success t ((n - 1) * 65537)) := by
  subst hn
  change execSetFeatures t s = _
  simp only [execSetFeatures, hc, h]

theorem exec_setFeatures_asyncMask (h : c.entry.cdw10 % 256 = 0x0B) :
    exec (.setFeatures t) s =
      .next ((s.updCtrl ((s.conn c.conn).ctrl.getD 0) fun x => { x with asyncMask := c.entry.cdw11 }).success t) := by
  change execSetFeatures t s = _
  simp only [execSetFeatures, hc, h]

theorem exec_setFeatures_keepAlive (h : c.entry.cdw10 % 256 = 0x0F) :
    exec (.setFeatures t) s = .next ((s.updCtrl ((s.conn c.conn).ctrl.getD 0) fun x =>
      { x with kato := c.entry.cdw11, katoAt := s.now + c.entry.cdw11 * 1000000 }).success t) := by
  change execSetFeatures t s = _
  simp only [execSetFeatures, hc, h]

theorem exec_setFeatures_resvMask (h : c.entry.cdw10 % 256 = 0x82) :
    exec (.setFeatures t) s =
      .next ((s.updCtrl ((s.conn c.conn).ctrl.getD 0) fun x => { x with resvMask := c.entry.cdw11 }).success t) := by
  change execSetFeatures t s = _
  simp only [execSetFeatures, hc, h]

theorem exec_setFeatures_ptpl (h : c.entry.cdw10 % 256 = 0x83) (hn : s.nsExists c.entry.nsid = true) :
    exec (.setFeatures t) s =
      .next ((s.setResv c.entry.nsid { s.ns c.entry.nsid with ptpl := c.entry.cdw11 % 2 = 1 }).success t) := by
  change execSetFeatures t s = _
  simp only [execSetFeatures, hc, h, hn, if_true]

theorem exec_setFeatures_other (h : c.entry.cdw10 % 256 ∉ [6, 7, 0x0B, 0x0F, 0x82, 0x83]) :
    exec (.setFeatures t) s = .next (s.finish t 0 2 true) := by
  simp only [List.mem_cons, List.not_mem_nil, or_false, not_or] at h
  obtain ⟨h6, h7, hB, hF, h82, h83⟩ := h
  change execSetFeatures t s = _
  simp only [execSetFeatures, hc]

end SetFeatures

section GetFeatures
variable (hc : s.ready t true 0x0A = some c)
include hc

theorem exec_getFeatures_writeCache (h : c.entry.cdw10 % 256 = 0x06) : exec (.getFeatures t) s = .next (s.success t 1) := by
  change execGetFeatures t s = _
  simp only [execGetFeatures, hc, h]

theorem exec_getFeatures_queues (h : c.entry.cdw10 % 256 = 0x07) :
    exec (.getFeatures t) s = .next (s.success t (((s.ctrl ((s.conn c.conn).ctrl.getD 0)).ioqs - 1) * 65537)) := by
  change execGetFeatures t s = _
  simp only [execGetFeatures, hc, h]

theorem exec_getFeatures_asyncMask (h : c.entry.cdw10 % 256 = 0x0B) :
    exec (.getFeatures t) s = .next (s.success t (s.ctrl ((s.conn c.conn).ctrl.getD 0)).asyncMask) := by
  change execGetFeatures t s = _
  simp only [execGetFeatures, hc, h]

theorem exec_getFeatures_keepAlive (h : c.entry.cdw10 % 256 = 0x0F) :
    exec (.getFeatures t) s = .next (s.success t (s.ctrl ((s.conn c.conn).ctrl.getD 0)).kato) := by
  change execGetFeatures t s = _
  simp only [execGetFeatures, hc, h]

theorem exec_getFeatures_hostId (h : c.entry.cdw10 % 256 = 0x81) :
    exec (.getFeatures t) s = .next (s.answerData t (leBytes 16 (s.ctrl ((s.conn c.conn).ctrl.getD 0)).hostId)) := by
  change execGetFeatures t s = _
  simp only [execGetFeatures, hc, h]

theorem exec_getFeatures_resvMask (h : c.entry.cdw10 % 256 = 0x82) :
    exec (.getFeatures t) s = .next (s.success t (s.ctrl ((s.conn c.conn).ctrl.getD 0)).resvMask) := by
  change execGetFeatures t s = _
  simp only [execGetFeatures, hc, h]

theorem exec_getFeatures_ptpl (h : c.entry.cdw10 % 256 = 0x83) (hn : s.nsExists c.entry.nsid = true) :
    exec (.getFeatures t) s = .next (s.success t (if (s.ns c.entry.nsid).ptpl then 1 else 0)) := by
  change execGetFeatures t s = _
  simp only [execGetFeatures, hc, h, hn, if_true]

theorem exec_getFeatures_other (h : c.entry.cdw10 % 256 ∉ [6, 7, 0x0B, 0x0F, 0x81, 0x82, 0x83]) :
    exec (.getFeatures t) s = .next (s.finish t 0 2 true) := by
  simp only [List.mem_cons, List.not_mem_nil, or_false, not_or] at h
  obtain ⟨h6, h7, hB, hF, h81, h82, h83⟩ := h
  change execGetFeatures t s = _
  simp only [execGetFeatures, hc]

end GetFeatures

/-! ### Events -/

section AsyncEvent
variable (hc : s.ready t true 0x0C = some c) {k : Nat} (hk : (s.conn c.conn).ctrl.getD 0 = k)
include hc hk

theorem exec_asyncEventRequest_tooMany (h : 4 ≤ (s.ctrl k).aers.length) :
    exec (.asyncEventRequest t) s = .next (s.finish t 0 2 true) := by
  change execAsyncEventRequest t s = _
  simp only [execAsyncEventRequest, hc, hk, h, if_true]

section Room
variable (h : (s.ctrl k).aers.length < 4)
include h

theorem exec_asyncEventRequest_waits (he : (s.ctrl k).events = []) :
    exec (.asyncEventRequest t) s = .next ((s.updCmd t fun c => { c with phase := .waiting }).setCtrl k
      { s.ctrl k with aers := (s.ctrl k).aers ++ [t] }) := by
  change execAsyncEventRequest t s = _
  simp only [execAsyncEventRequest, hc, hk, Nat.not_le.mpr h, if_false, he]

theorem exec_asyncEventRequest_takes {ty info page : Nat} {es : List (Nat × Nat × Nat)}
    (he : (s.ctrl k).events = (ty, info, page) :: es) :
    exec (.asyncEventRequest t) s =
      .next ((s.setCtrl k { s.ctrl k with events := es }).success t (ty + info * 256 + page * 65536)) := by
  change execAsyncEventRequest t s = _
  simp only [execAsyncEventRequest, hc, hk, Nat.not_le.mpr h, if_false, he]

end Room
end AsyncEvent

/-! ### Keep Alive -/

theorem exec_keepAlive_restarts (hc : s.ready t true 0x18 = some c) :
    exec (.keepAlive t) s =
      .next ((s.updCtrl ((s.conn c.conn).ctrl.getD 0) fun x => { x with katoAt := s.now + x.kato * 1000000 }).success t) := by
  change execKeepAlive t s = _
  simp only [execKeepAlive, hc]

/-- The expiry resets the controller and starts its timer again. -/
theorem exec_keepAliveExpire_resets {k : Fin 4096} {u : State} (hu : (s.ctrl k).used = true) (hk : (s.ctrl k).kato ≠ 0)
    (hw : s.xpt.wheelSlot.isSome = true)
    (h : u = ((s.reach (s.ctrl k).katoCheck).bump Reg.CMD_KATO_EXP_COUNT).raise Ev.CMD_KATO [k.val + 1, 0]) :
    exec (.keepAliveExpire k) s = .next ((u.resetCtrl k).updCtrl k fun x => { x with katoAt := u.now + x.kato * 1000000 }) := by
  subst h
  exact congrArg _ (if_pos (by simp [hu, hk, hw]))

/-! ### Memory keys -/

section RegisterKey
variable (hc : s.ready t true 0xC4 = some c) {k base len : Nat} (hk : (s.conn c.conn).ctrl.getD 0 = k)
  (hb : c.entry.cdw11 + c.entry.cdw12 * 2 ^ 32 = base) (hl : c.entry.cdw13 + c.entry.cdw14 * 2 ^ 32 = len)
include hc hk hb hl

/-- A key already registered, an empty range, or one past the address space is refused. -/
theorem exec_registerMemoryKey_refused
    (h : (s.ctrl k).mkeys.any (fun m => m.1 = c.entry.cdw10) = true ∨ len = 0 ∨ 2 ^ 64 < base + len) :
    exec (.registerMemoryKey t) s = .next (s.finish t 0 2 true) := by
  change execRegisterMemoryKey t s = _
  simp only [execRegisterMemoryKey, hc, hk, hb, hl]
  exact congrArg _ (if_pos (by simpa [or_assoc] using h))

section Fits
variable (h : ¬ ((s.ctrl k).mkeys.any (fun m => m.1 = c.entry.cdw10) = true ∨ len = 0 ∨ 2 ^ 64 < base + len))
include h

theorem exec_registerMemoryKey_fits : exec (.registerMemoryKey t) s = .next (if 256 ≤ (s.ctrl k).mkeys.length then s.finish t 0 0x81 true
    else (s.setCtrl k { s.ctrl k with mkeys := (s.ctrl k).mkeys ++ [(c.entry.cdw10, base, len)] }).success t) := by
  change execRegisterMemoryKey t s = _
  simp only [execRegisterMemoryKey, hc, hk, hb, hl]
  exact congrArg _ (if_neg (by simpa [or_assoc] using h))

theorem exec_registerMemoryKey_full (hf : 256 ≤ (s.ctrl k).mkeys.length) :
    exec (.registerMemoryKey t) s = .next (s.finish t 0 0x81 true) := by
  rw [exec_registerMemoryKey_fits hc hk hb hl h, if_pos hf]

theorem exec_registerMemoryKey_adds (hf : (s.ctrl k).mkeys.length < 256) :
    exec (.registerMemoryKey t) s =
      .next ((s.setCtrl k { s.ctrl k with mkeys := (s.ctrl k).mkeys ++ [(c.entry.cdw10, base, len)] }).success t) := by
  rw [exec_registerMemoryKey_fits hc hk hb hl h, if_neg (Nat.not_le.mpr hf)]

end Fits
end RegisterKey

theorem exec_deregisterMemoryKey_removes (hc : s.ready t true 0xC5 = some c) :
    exec (.deregisterMemoryKey t) s = .next ((s.updCtrl ((s.conn c.conn).ctrl.getD 0) fun x =>
      { x with mkeys := x.mkeys.filter fun m => m.1 ≠ c.entry.cdw10 }).success t) := by
  change execDeregisterMemoryKey t s = _
  simp only [execDeregisterMemoryKey, hc]

/-! ### Thaw Queue -/

section Thaw
variable (hc : s.ready t true 0xC6 = some c)
include hc

theorem exec_thawQueue_invalid
    (h : c.entry.cdw10 % 65536 = 0 ∨ s.queueConn ((s.conn c.conn).ctrl.getD 0) (c.entry.cdw10 % 65536) = none) :
    exec (.thawQueue t) s = .next (s.finish t 1 1 true) := by
  change execThawQueue t s = _
  simp only [execThawQueue, hc]
  rw [show (if c.entry.cdw10 % 65536 = 0 then none else s.queueConn ((s.conn c.conn).ctrl.getD 0) (c.entry.cdw10 % 65536)) = none by
    simpa [or_iff_not_imp_left] using h]

section Queue
variable (hq : c.entry.cdw10 % 65536 ≠ 0) {n : Nat}
  (hn : s.queueConn ((s.conn c.conn).ctrl.getD 0) (c.entry.cdw10 % 65536) = some n)
include hq hn

theorem exec_thawQueue_notFrozen (hf : (s.conn n).frozen = false) : exec (.thawQueue t) s = .next (s.success t) := by
  change execThawQueue t s = _
  simp only [execThawQueue, hc, hq, if_false, hn, hf, Bool.not_false, if_true]

/-- With no fetch of entries under way, a host goes on from SQ_FETCH in pull mode and from the next place in capsule mode (R160). -/
theorem exec_thawQueue_frozen (hf : (s.conn n).frozen = true) {u v : State}
    (hv : v = ((s.uncommitted n).map Prod.fst).foldl State.freezeOut s)
    (hu : u = (v.conn n).rxq.foldl (fun s r => (s.bump Reg.CMD_FROZEN_CPL_COUNT).completeUnstarted n r 7 0x80 false)
      (v.updConn n fun x => { x.dropRx (fun _ => true) with frozen := false }))
    (hr : (u.conn n).reads = []) :
    exec (.thawQueue t) s = .next (((u.updCtrl ((s.conn c.conn).ctrl.getD 0) fun y =>
      { y with frozen := y.frozen.filter fun f => f.qid ≠ c.entry.cdw10 % 65536, frozenGen := y.frozenGen + 1 }).raise Ev.CMD_THAWED
        [(s.conn c.conn).ctrl.getD 0 + 1, c.entry.cdw10 % 65536]).success t
          (2 ^ 31 + if (u.conn n).pull then (u.conn n).sqFetch else (u.conn n).sqNext)) := by
  change execThawQueue t s = _
  simp only [execThawQueue, hc, hq, if_false, hn, hf, Bool.not_true, Bool.false_eq_true, ← hv, ← hu, hr, List.findSome?_nil, Option.getD_none]

end Queue
end Thaw
end AdminCommand

/-- Settles O30: each clause is the case of its command that its hypotheses select. A fifth Asynchronous Event Request and the offsets of
the pages are the model's choices (log entries 25 to 27). -/
theorem adminCommandsAnswerAndKeepState : Obligations.AdminCommandsAnswerAndKeepState := by
  refine ⟨?identify, ?page, ?noPage, ?abort, ?abortNone, ?setFeatures, ?getFeatures, ?event, ?fifth, ?keepAlive, ?expire, ?register, ?refuse,
    ?deregister, ?thawInvalid, ?thawRunning, ?thawFrozen⟩
  case identify =>
    intro s t c hc
    exact ⟨exec_nvmeIdentify_namespace hc, exec_nvmeIdentify_controller hc, exec_nvmeIdentify_granted hc, exec_nvmeIdentify_descriptor hc,
      exec_nvmeIdentify_other hc⟩
  case page => exact fun s u t c d ⟨hc, h⟩ => exec_getLogPage_page hc h
  case noPage => exact fun s t c ⟨hc, h⟩ => exec_getLogPage_none hc h
  case abort => exact fun s t n c r ⟨hc, hn, hr⟩ => exec_nvmeAbort_found hc hn hr
  case abortNone => exact fun s t n c ⟨hc, hn, hr⟩ => exec_nvmeAbort_notFound hc hn hr
  case setFeatures =>
    intro s t c hc
    exact ⟨fun h => exec_setFeatures_queues hc h rfl, exec_setFeatures_asyncMask hc, exec_setFeatures_keepAlive hc,
      exec_setFeatures_resvMask hc, exec_setFeatures_ptpl hc, exec_setFeatures_writeCache hc, exec_setFeatures_other hc⟩
  case getFeatures =>
    intro s t c hc
    exact ⟨exec_getFeatures_queues hc, exec_getFeatures_asyncMask hc, exec_getFeatures_keepAlive hc, exec_getFeatures_hostId hc,
      exec_getFeatures_resvMask hc, exec_getFeatures_ptpl hc, exec_getFeatures_writeCache hc, exec_getFeatures_other hc⟩
  case event =>
    intro s t c ⟨hc, h⟩
    exact ⟨exec_asyncEventRequest_waits hc rfl h, fun _ _ _ _ => exec_asyncEventRequest_takes hc rfl h⟩
  case fifth => exact fun s t c ⟨hc, h⟩ => exec_asyncEventRequest_tooMany hc rfl h
  case keepAlive => exact fun s t c hc => exec_keepAlive_restarts hc
  case expire => exact fun s u k ⟨hu, hk, hw, h⟩ => exec_keepAliveExpire_resets hu hk hw h
  case register =>
    intro s t c ⟨hc, hn, h0, hl, hf⟩
    exact exec_registerMemoryKey_adds hc rfl rfl rfl (by simp only [hn, h0, Nat.not_lt.mpr hl]; simp) hf
  case refuse =>
    intro s t c hc
    exact ⟨exec_registerMemoryKey_refused hc rfl rfl rfl, exec_registerMemoryKey_full hc rfl rfl rfl⟩
  case deregister => exact fun s t c hc => exec_deregisterMemoryKey_removes hc
  case thawInvalid => exact fun s t c ⟨hc, h⟩ => exec_thawQueue_invalid hc h
  case thawRunning => exact fun s t n c ⟨hc, hq, hn, hf⟩ => exec_thawQueue_notFrozen hc hq hn hf
  case thawFrozen => exact fun s u v t n c ⟨hc, hq, hn, hf, hv, hu, hr⟩ => exec_thawQueue_frozen hc hq hn hf hv hu hr

end Sys2Proof.Machine
end

section
/-! Proofs of the start and the decode of commands in family 08 (R138, R149, R153, R154, R159, R160, R117): what the oldest received command
of a connection does at its turn, what makes it a command with a tag, and the first step of Table 09-3 that fails. -/
namespace Sys2Proof.Machine

/-! ### The oldest received command -/

theorem Assoc.find?_put_same {α : Type} (m : Assoc α) (k : Nat) (v : α) : ((m.put k v).find? fun e => e.1 = k) = some (k, v) := by
  induction m with
  | nil => simp [Assoc.put]
  | cons e m ih =>
    obtain ⟨i, w⟩ := e
    simp only [Assoc.put]
    split
    · simp
    split
    · simp
    · next h => simpa [h] using ih

/-- Whether a connection's commands are I/O commands: it is no admin queue and has a controller. -/
def Conn.startsIo (x : Conn) : Bool := !x.admin && x.ctrl.isSome

/-- The oldest command `r` leaves a connection's queue of received commands, and `rs` stay. -/
def Conn.popped (x : Conn) (r : RxCmd) (rs : List RxCmd) : Conn :=
  { x with rxq := rs, places := x.places - 1, sqHead := (r.sqIndex + 1) % x.queueSize }

/-- What the oldest command of a connection is told: by the order stream on a twin that follows it, else by its policers (R138, R246). -/
def State.startVerdict (s : State) (n : Nat) (r : RxCmd) : State × Colour × Bool :=
  if s.follows && (s.conn n).startsIo then
    match (s.conn n).verdicts.find? fun v => v.1 = r.sqIndex with
    | some v => (s.updConn n fun x => { x with verdicts := x.verdicts.erase v }, v.2, true)
    | none => (s, .green, false)
  else s.meterCmd n r.entry

/-- The oldest command stays at the front, held; the stream is told once (R141). -/
def State.heldFront (s : State) (n : Nat) (r : RxCmd) (rs : List RxCmd) (col : Colour) : State :=
  (if (s.conn n).startsIo && !r.held then (s.order n (.verdict r.sqIndex 1 col.code)).1 else s).updConn n fun x =>
    { x with rxq := { r with held := true } :: rs }

/-- What a received command becomes as it starts (R153). -/
def State.startedCmd (s : State) (x : Conn) (n : Nat) (r : RxCmd) (col : Colour) : Cmd :=
  { uid := s.cmdb.nextUid, conn := n, sqIndex := r.sqIndex, entry := r.entry, admin := x.admin || x.ctrl.isNone,
    colour := col, time := s.now, picked := r.picked, wasHeld := r.held, seen := r.seen,
    stamps := if r.picked then [(0, r.at_), (1, r.at_), (2, r.at_), (3, s.now)] else [] }

/-- Command `c` holds tag `t`. -/
def State.putTag (s : State) (t : Nat) (c : Cmd) : State :=
  { s with cmdb.nextUid := s.cmdb.nextUid + 1, cmdb.cmds := Assoc.put s.cmdb.cmds t c,
           cmdb.minTags := min s.cmdb.minTags (65536 - (Assoc.put s.cmdb.cmds t c).length) }

/-- The oldest command, told colour `col` in state `u`, leaves the queue of connection `n`, which was `x`, and takes tag `t`. -/
def State.takesTag (u : State) (x : Conn) (n t : Nat) (r : RxCmd) (rs : List RxCmd) (col : Colour) : State :=
  let v := (if x.startsIo then (u.order n (.verdict r.sqIndex (if r.held then 2 else 0) col.code)).1 else u).updConn n fun y =>
    { y.popped r rs with inflight := y.inflight + 1 }
  v.putTag t (v.startedCmd x n r col)

/-- A command at its turn is held by what it was told or by its gate, waits for a tag, or takes the lowest free one (R153). -/
def State.turnOf (s : State) (n : Nat) (r : RxCmd) (rs : List RxCmd) (p : State × Colour × Bool) : State :=
  if !p.2.2 || (!s.follows && s.gateHolds n) then s.heldFront n r rs p.2.1
  else match p.1.freeTag with
    | none => s
    | some t => ((p.1.takesTag (s.conn n) n t r rs p.2.1).decodeCmd t).stamp t 4

@[simp] theorem State.putTag_cmd_same (s : State) (t : Nat) (c : Cmd) : (s.putTag t c).cmd t = some c := by
  simp [State.cmd, State.putTag, Assoc.find?_put_same]

@[simp] theorem State.putTag_conn (s : State) (t : Nat) (c : Cmd) (m : Nat) : (s.putTag t c).conn m = s.conn m := rfl

/-- The tag holds the command received, decoded and of the colour told, and the commands behind it stay in order. -/
theorem State.takesTag_spec (u : State) (x : Conn) (n t : Nat) (r : RxCmd) (rs : List RxCmd) (col : Colour) :
    ∃ c : Cmd, (u.takesTag x n t r rs col).cmd t = some c ∧ c.entry = r.entry ∧ c.conn = n ∧ c.sqIndex = r.sqIndex ∧ c.colour = col ∧
      c.phase = .decoded ∧ c.admin = (x.admin || x.ctrl.isNone) ∧ ((u.takesTag x n t r rs col).conn n).rxq = rs :=
  ⟨_, State.putTag_cmd_same .., rfl, rfl, rfl, rfl, rfl, rfl, by
    simp only [State.takesTag, State.putTag_conn, State.updConn_conn_same, Conn.popped]⟩

section Start
variable {s : State} {n : Nat} {r : RxCmd} {rs : List RxCmd} (hq : (s.conn n).rxq = r :: rs)
include hq

theorem State.startCmd_shutdown (hs : s.shuttingDown n = true) : s.startCmd n = s := by
  simp only [State.startCmd, hq, hs, if_true]

section Open
variable (hs : s.shuttingDown n = false)
include hs

theorem State.startCmd_ended {sct sc : Nat} {dnr : Bool} (he : r.ends = some (sct, sc, dnr)) :
    s.startCmd n = (s.updConn n fun x => x.popped r rs).endAtStart n r sct sc dnr := by
  simp only [State.startCmd, hq, hs, he]
  rfl

section Alive
variable (he : r.ends = none)
include he

theorem State.startCmd_conflict (hc : s.cidInUse n r.entry.cid = true) :
    s.startCmd n = (((s.bump Reg.CMD_CID_CONFLICT_COUNT).raise Ev.CMD_CID_CONFLICT [((s.conn n).ctrl.map (· + 1)).getD 0,
      (s.conn n).qid]).updConn n fun x => x.popped r rs).endAtStart n r 0 3 true := by
  simp only [State.startCmd, hq, hs, he, hc]
  rfl

section Turn
variable (hc : s.cidInUse n r.entry.cid = false)
include hc

theorem State.startCmd_turn : s.startCmd n = s.turnOf n r rs (s.startVerdict n r) := by
  simp only [State.startCmd, hq]
  have hen : r.ends.isSome = false := by rw [he]; rfl
  rw [if_neg (ne_true_of_eq_false hs), if_neg (ne_true_of_eq_false hen), if_neg (ne_true_of_eq_false hc)]
  rfl

variable {u : State} {col : Colour} {ok : Bool} (hv : s.startVerdict n r = (u, col, ok))
include hv

theorem State.startCmd_holds (h : ok = false ∨ (s.follows = false ∧ s.gateHolds n = true)) : s.startCmd n = s.heldFront n r rs col := by
  rw [State.startCmd_turn hq hs he hc, hv]
  refine if_pos ?_
  rcases h with h | ⟨hf, hg⟩
  · simp [h]
  · simp [hf, hg]

section Passes
variable (hok : ok = true) (hg : s.follows = true ∨ s.gateHolds n = false)
include hok hg

theorem State.startCmd_passes : s.startCmd n =
    match u.freeTag with
    | none => s
    | some t => ((u.takesTag (s.conn n) n t r rs col).decodeCmd t).stamp t 4 := by
  rw [State.startCmd_turn hq hs he hc, hv]
  refine if_neg ?_
  rcases hg with h | h <;> simp [hok, h]

theorem State.startCmd_noTag (ht : u.freeTag = none) : s.startCmd n = s := by
  rw [State.startCmd_passes hq hs he hc hv hok hg, ht]

theorem State.startCmd_tag {t : Nat} (ht : u.freeTag = some t) :
    s.startCmd n = ((u.takesTag (s.conn n) n t r rs col).decodeCmd t).stamp t 4 := by
  rw [State.startCmd_passes hq hs he hc hv hok hg, ht]

end Passes
end Turn
end Alive
end Open
end Start

theorem State.startVerdict_metered {s : State} {n : Nat} (h : s.follows = false) (r : RxCmd) :
    s.startVerdict n r = s.meterCmd n r.entry := by simp only [State.startVerdict, h, Bool.false_and, Bool.false_eq_true, if_false]

section Follower
variable {s : State} {n : Nat} {r : RxCmd} (hf : s.follows = true) (hio : (s.conn n).startsIo = true)
include hf hio

theorem State.startVerdict_told {v : Nat × Colour} (h : ((s.conn n).verdicts.find? fun v => v.1 = r.sqIndex) = some v) :
    s.startVerdict n r = (s.updConn n fun x => { x with verdicts := x.verdicts.erase v }, v.2, true) := by
  simp only [State.startVerdict, hf, hio, h, Bool.and_self, if_true]

theorem State.startVerdict_untold (h : ((s.conn n).verdicts.find? fun v => v.1 = r.sqIndex) = none) :
    s.startVerdict n r = (s, .green, false) := by
  simp only [State.startVerdict, hf, hio, h, Bool.and_self, if_true]

end Follower

theorem exec_commandStart_starts {s : State} {n : Nat} (hm : s.mayStart = true) (hr : (s.conn n).st = .ready) :
    exec (.commandStart n) s = .next (s.startCmd n).resumeFetch := by
  change execCommandStart n s = _
  simp only [execCommandStart, hm, hr, decide_true, Bool.and_self, State.when_true]

theorem exec_policerRelease_starts {s : State} {n : Nat} (hm : s.mayStart = true)
    (hh : ((s.conn n).rxq.head?.map RxCmd.held).getD false = true) :
    exec (.policerRelease n) s = .next (s.startAll n (s.conn n).rxq.length).resumeFetch := by
  change execPolicerRelease n s = _
  simp only [execPolicerRelease, hm, hh, Bool.and_self, State.when_true]

/-! ### The first failing step of Table 09-3 -/

section Decode
variable {s : State} {c : Cmd}

theorem State.decodeFails_opcode (h : s.opcodeOk c = false) : s.decodeFails c = some (0, 0x01) := by
  simp [State.decodeFails, h]

theorem State.decodeFails_fields (ho : s.opcodeOk c = true) (h : fieldsOk c = false) : s.decodeFails c = some (0, 0x02) := by
  simp [State.decodeFails, ho, h]

theorem State.decodeFails_sglType (ho : s.opcodeOk c = true) (hf : fieldsOk c = true) (hb : c.bytes ≠ 0) (h : c.entry.sglType ≠ 0x40) :
    s.decodeFails c = some (0, 0x11) := by
  simp [State.decodeFails, ho, hf, hb, h]

section Formed
variable (ho : s.opcodeOk c = true) (hf : fieldsOk c = true) (hg : c.bytes = 0 ∨ c.entry.sglType = 0x40) (ha : c.admin = false)
include ho hf hg ha

/-- An I/O command that names a namespace needs one that exists, and a grant for what it does there. -/
theorem State.decodeFails_named (hop : c.entry.opcode ≠ 0x7F) (hall : c.entry.opcode ≠ 0 ∨ c.entry.nsid ≠ 0xFFFFFFFF) :
    (s.nsExists c.entry.nsid = false → s.decodeFails c = some (0, 0x0B)) ∧
    (s.nsExists c.entry.nsid = true → s.granted (s.conn c.conn).pd c.entry.nsid (opReads c.entry.opcode) (opWrites c.entry.opcode) = false →
      s.decodeFails c = some (2, 0x86)) := by
  have hsgl : ¬(c.bytes ≠ 0 ∧ c.entry.sglType ≠ 0x40) := by tauto
  have hflush : ¬(c.entry.opcode = 0 ∧ c.entry.nsid = 0xFFFFFFFF) := by tauto
  constructor
  · intro hn
    simp [State.decodeFails, ho, hf, hsgl, ha, hop, hflush, hn]
  · intro hn hr
    simp [State.decodeFails, ho, hf, hsgl, ha, hop, hflush, hn, hr]

variable (hn : s.nsExists c.entry.nsid = true)
include hn

theorem State.decodeFails_write (hop : c.entry.opcode = 1 ∨ c.entry.opcode = 8)
    (hr : s.granted (s.conn c.conn).pd c.entry.nsid false true = true) :
    s.decodeFails c =
      if (s.ns c.entry.nsid).nsze < c.entry.slba + c.entry.nlb then some (0, 0x80)
      else if (s.ns c.entry.nsid).allows (s.ctrl ((s.conn c.conn).ctrl.getD 0)).hostId true = false then some (0, 0x83)
      else if s.locked c.entry.nsid c.entry.slba c.entry.nlb = true then some (7, 0x82)
      else if s.lostPart (s.ns c.entry.nsid).volume c.entry.slba c.entry.nlb = true then some (7, 0x81)
      else none := by
  have hsgl : ¬(c.bytes ≠ 0 ∧ c.entry.sglType ≠ 0x40) := by tauto
  rcases hop with hop | hop <;> simp [State.decodeFails, ho, hf, hsgl, ha, hop, hn, hr, opReads, opWrites]

theorem State.decodeFails_read (hop : c.entry.opcode = 2) (hr : s.granted (s.conn c.conn).pd c.entry.nsid true false = true) :
    s.decodeFails c =
      if (s.ns c.entry.nsid).nsze < c.entry.slba + c.entry.nlb then some (0, 0x80)
      else if (s.ns c.entry.nsid).allows (s.ctrl ((s.conn c.conn).ctrl.getD 0)).hostId false = false then some (0, 0x83)
      else none := by
  have hsgl : ¬(c.bytes ≠ 0 ∧ c.entry.sglType ≠ 0x40) := by tauto
  simp [State.decodeFails, ho, hf, hsgl, ha, hop, hn, hr, opReads, opWrites]

end Formed
end Decode

/-! ### What decode does -/

section Decoded
variable {s : State} {t : Nat} {c : Cmd} (hc : s.cmd t = some c)
include hc

theorem State.decodeCmd_ends {sct sc : Nat} (hf : s.decodeFails c = some (sct, sc)) (h : ¬(sct = 2 ∧ sc = 0x86)) :
    s.decodeCmd t = s.finish t sct sc true := by
  simp [State.decodeCmd, hc, hf, h]

theorem State.decodeCmd_denied (hf : s.decodeFails c = some (2, 0x86)) :
    s.decodeCmd t = ((s.bump Reg.XPT_ACCESS_DENIED_COUNT).raise Ev.XPT_ACCESS_DENIED [c.conn]).finish t 2 0x86 true := by
  simp [State.decodeCmd, hc, hf]

section Passes
variable (hf : s.decodeFails c = none)
include hf

/-- A command with a CAPSULE hook runs it, ends where it cannot run, or goes on to its key where there is none. -/
theorem State.decodeCmd_hooked (h : c.admin = false ∧ c.entry.opcode ≠ 0x7F ∧ c.entry.opcode ≠ 0x09) : s.decodeCmd t =
    if s.hookOn 1 = true then (s.updCmd t fun c => { c with phase := .hook }).invokeHook 1 t
    else if s.hookRefuses 1 = true then s.finish t 0 0x82 true
    else s.keysCheck t := by
  obtain ⟨ha, h7, h9⟩ := h
  simp [State.decodeCmd, hc, hf, ha, h7, h9]

theorem State.decodeCmd_unhooked (h : c.admin = true ∨ c.entry.opcode = 0x7F ∨ c.entry.opcode = 0x09) :
    s.decodeCmd t = s.keysCheck t := by
  rcases h with h | h | h <;> simp [State.decodeCmd, hc, hf, h]

end Passes

theorem State.keysCheck_unkeyed (h : c.bytes = 0 ∨ s.discoveryConn (s.conn c.conn) = true) : s.keysCheck t = s.proceed t c := by
  simp [State.keysCheck, hc, h]

section Keyed
variable (hb : c.bytes ≠ 0) (hd : s.discoveryConn (s.conn c.conn) = false)
include hb hd

theorem State.keysCheck_refused (ha : c.adminConnect = false)
    (hk : s.keyCovers (s.conn c.conn) c.entry.sglKey c.entry.sglAddr c.entry.sglLen = false) :
    s.keysCheck t = ((s.bump Reg.XPT_MKEY_REFUSED_COUNT).raise Ev.XPT_MKEY_REFUSED [c.conn]).finish t 2 0x86 true := by
  simp [State.keysCheck, hc, hb, hd, ha, hk]

theorem State.keysCheck_covered
    (hk : c.adminConnect = true ∨ s.keyCovers (s.conn c.conn) c.entry.sglKey c.entry.sglAddr c.entry.sglLen = true) :
    s.keysCheck t = if c.entry.sglLen < c.bytes then s.finish t 0 4 false else s.proceed t c := by
  rcases hk with hk | hk <;> simp [State.keysCheck, hc, hb, hd, hk]

end Keyed
end Decoded

/-- Settles O29: each clause is the case of the oldest received command's turn, or the first step of decode, that its hypotheses select. The
verdict entries (log entry 54), the short SGL (log entry 24) and Dataset Management going on without its hook (log entry 126) are the model's
choices. -/
theorem commandsStartInOrderAndDecodeByTheTable : Obligations.CommandsStartInOrderAndDecodeByTheTable := by
  refine ⟨?starts, ?held, ?waits, ?told, ?untold, ?ended, ?conflict, ?release, ?opcode, ?fields, ?sgl, ?named, ?write, ?read, ?hook, ?key⟩
  case starts =>
    intro s u n t col r rs ⟨hm, hr, hq, hs, he, hc, hf, hg, hv, ht⟩
    obtain ⟨c, h⟩ := u.takesTag_spec (s.conn n) n t r rs col
    refine ⟨_, c, ?_, h⟩
    rw [exec_commandStart_starts hm hr,
      State.startCmd_tag hq hs he hc ((State.startVerdict_metered hf r).trans hv) rfl (.inr hg) ht]
  case held =>
    intro s u n ok col r rs ⟨hm, hr, hq, hs, he, hc, hf, hv, h⟩
    rw [exec_commandStart_starts hm hr,
      State.startCmd_holds hq hs he hc ((State.startVerdict_metered hf r).trans hv) (h.imp_right fun hg => ⟨hf, hg⟩)]
    rfl
  case waits =>
    rintro s u n col r rs ⟨hm, hr, hq, hs | ⟨hs, he, hc, hf, hg, hv, ht⟩⟩
    · rw [exec_commandStart_starts hm hr, State.startCmd_shutdown hq hs]
    · rw [exec_commandStart_starts hm hr,
        State.startCmd_noTag hq hs he hc ((State.startVerdict_metered hf r).trans hv) rfl (.inr hg) ht]
  case told =>
    intro s n t v r rs ⟨hm, hr, ha, hk, hq, hs, he, hc, hf, hv, ht⟩
    have hio : (s.conn n).startsIo = true := by simp [Conn.startsIo, ha, hk]
    obtain ⟨c, hcmd, hent, hcon, hsq, hcol, hph, hadm, hrs⟩ := (s.updConn n fun x => { x with verdicts := x.verdicts.erase v }).takesTag_spec
      (s.conn n) n t r rs v.2
    refine ⟨_, c, ?_, hcmd, hent, hcon, hsq, hcol, hph, ?_, hrs⟩
    · rw [exec_commandStart_starts hm hr, State.startCmd_tag hq hs he hc (State.startVerdict_told hf hio hv) rfl (.inl hf) ht]
    · rw [hadm, ha, Option.isNone_eq_false_iff.mpr hk, Bool.or_false]
  case untold =>
    intro s n r rs ⟨hm, hr, ha, hk, hq, hs, he, hh, hc, hf, hv⟩
    have hio : (s.conn n).startsIo = true := by simp [Conn.startsIo, ha, hk]
    rw [exec_commandStart_starts hm hr, State.startCmd_holds hq hs he hc (State.startVerdict_untold hf hio hv) (.inl rfl), State.heldFront,
      hh, Bool.not_true, Bool.and_false, if_neg Bool.false_ne_true]
  case ended =>
    intro s n sct sc dnr r rs ⟨hm, hr, hq, hs, he⟩
    rw [exec_commandStart_starts hm hr, State.startCmd_ended hq hs he]
    rfl
  case conflict =>
    intro s n r rs ⟨hm, hr, hq, hs, he, hc⟩
    rw [exec_commandStart_starts hm hr, State.startCmd_conflict hq hs he hc]
    rfl
  case release => exact fun s n ⟨hm, hh⟩ => exec_policerRelease_starts hm hh
  case opcode => exact fun s t c ⟨hc, h⟩ => State.decodeCmd_ends hc (State.decodeFails_opcode h) (by decide)
  case fields => exact fun s t c ⟨hc, ho, h⟩ => State.decodeCmd_ends hc (State.decodeFails_fields ho h) (by decide)
  case sgl => exact fun s t c ⟨hc, ho, hf, hb, h⟩ => State.decodeCmd_ends hc (State.decodeFails_sglType ho hf hb h) (by decide)
  case named =>
    intro s t c ⟨hc, ho, hf, hg, ha, hop, hall⟩
    obtain ⟨hnone, hdenied⟩ := State.decodeFails_named ho hf hg ha hop hall
    exact ⟨fun hn => State.decodeCmd_ends hc (hnone hn) (by decide), fun hn hr => State.decodeCmd_denied hc (hdenied hn hr)⟩
  case write =>
    intro s t c ⟨hc, ho, hf, hg, ha, hop, hn, hr⟩
    have h := State.decodeFails_write ho hf hg ha hn hop hr
    refine ⟨fun hz => State.decodeCmd_ends hc (h.trans (if_pos hz)) (by decide), fun hz => ?_⟩
    rw [if_neg (Nat.not_lt.mpr hz)] at h
    refine ⟨fun hw => State.decodeCmd_ends hc (h.trans (if_pos hw)) (by decide), fun hw hl => ?locked, fun hw hl hp => ?lost⟩ <;>
      rw [hw, if_neg Bool.noConfusion] at h
    case locked => exact State.decodeCmd_ends hc (h.trans (if_pos hl)) (by decide)
    case lost => exact State.decodeCmd_ends hc (by rw [h, hl, if_neg Bool.false_ne_true, if_pos hp]) (by decide)
  case read =>
    intro s t c ⟨hc, ho, hf, hg, ha, hop, hn, hr⟩
    have h := State.decodeFails_read ho hf (.inr hg) ha hn hop hr
    exact ⟨fun hz => State.decodeCmd_ends hc (h.trans (if_pos hz)) (by decide),
      fun hz hw => State.decodeCmd_ends hc (by rw [h, if_neg (Nat.not_lt.mpr hz), if_pos hw]) (by decide)⟩
  case hook =>
    intro s t c ⟨hc, hf⟩
    refine ⟨fun h => ?_, State.decodeCmd_unhooked hc hf⟩
    rw [State.decodeCmd_hooked hc hf h]
    exact ⟨fun ho => if_pos ho, fun ho hr => by rw [ho, if_neg Bool.false_ne_true, if_pos hr],
      fun ho hr => by rw [ho, hr, if_neg Bool.false_ne_true, if_neg Bool.false_ne_true]⟩
  case key =>
    intro s t c hc
    exact ⟨State.keysCheck_unkeyed hc, fun hb hd => ⟨State.keysCheck_refused hc hb hd, State.keysCheck_covered hc hb hd⟩⟩

end Sys2Proof.Machine
end

section
/-! Proofs of the commands of family 08 (R135, R137, R139, R140, R144, R147, R149, R197): policers, strict limits, shapers, Slalom lists
and the rate of the rebuild class. -/
namespace Sys2Proof.Machine

/-! ### Policers and strict limits -/

/-- The bucket that a changed two-rate policer keeps: filled to `now` in its old unit, converted to the new one and clipped to the new
size (R140). -/
def Bucket.carry (b : Bucket) (rate size old now new newSize : Nat) : Bucket :=
  ((b.fill rate size old now).rescale old new).clip newSize new

/-- A two-rate policer with both buckets full at `now`. -/
def Policer.filled (p : Policer) (now : Nat) : Policer :=
  { p with cb := ⟨p.cbs * meterScale p.unit, now⟩, pb := ⟨p.pbs * meterScale p.unit, now⟩ }

/-- A two-rate policer in the place of `o`, with its counters and its levels. -/
def Policer.replacing (p o : Policer) (now : Nat) : Policer :=
  { p with
    cb := o.cb.carry o.cir o.cbs (meterScale o.unit) now (meterScale p.unit) p.cbs
    pb := o.pb.carry o.pir o.pbs (meterScale o.unit) now (meterScale p.unit) p.pbs
    cntG := o.cntG, cntY := o.cntY, cntR := o.cntR }

/-- Strict limit `i` takes the settings and the level of `p`. -/
def State.setStrict (s : State) (i : Nat) (p : Strict) : State := { s with qos.stricts := Assoc.set {} s.qos.stricts i p }

section Policer
variable {s : State} {id : Nat} {c : Started}

section Configure
variable (h : s.Accepts id 0x0701 [(0x09, 3), (0x1C, 12)] (fun _ => true) (fun d => kindOf d ≠ 2 && kindOf d ≠ 3) c s)
include h

theorem exec_configurePolicer_twoRate (hk : kindOf c.desc = 0) (hv : policerValid c.desc = true)
    (hon : ∀ k, s.policerOn (policerOf c.desc).attach (policerOf c.desc).target = some k → k = c.desc.par 0 2) :
    exec (.configurePolicer id) s = .next ((s.setPolicer (c.desc.par 0 2)
      (if (s.policer (c.desc.par 0 2)).used then (policerOf c.desc).replacing (s.policer (c.desc.par 0 2)) s.now
        else (policerOf c.desc).filled s.now)).holderDone c) := by
  have hany : ((s.policerOn (policerOf c.desc).attach (policerOf c.desc).target).any fun k => k ≠ c.desc.par 0 2) = false := by
    cases hs : s.policerOn (policerOf c.desc).attach (policerOf c.desc).target with
    | none => rfl
    | some k => simp [hon k hs]
  refine congrArg _ ((State.runMgmt_accepted h _).trans ?_)
  dsimp only
  rw [if_pos hk, if_neg (by simp [hv]), if_neg (ne_true_of_eq_false hany)]
  rfl

theorem exec_configurePolicer_strict (hk : kindOf c.desc = 1) (hv : strictValid c.desc = true)
    (hused : (Assoc.get {} s.qos.stricts (c.desc.par 0 2) : Strict).used = false)
    (hon : s.strictOn (strictOf c.desc).sub (strictOf c.desc).cls (strictOf c.desc).egress = none) :
    exec (.configurePolicer id) s = .next ((s.setStrict (c.desc.par 0 2)
      { strictOf c.desc with b := ⟨(strictOf c.desc).cbs * 8000, s.now⟩ }).holderDone c) :=
  congrArg _ ((State.runMgmt_accepted h _).trans (by simp [State.setStrict, hk, hv, hused, hon]))

end Configure

section Free
variable (h : s.Accepts id 0x0701 [(0x09, 3), (0x1C, 12)] (fun _ => true) (fun d => kindOf d = 2 || kindOf d = 3) c s)
include h

theorem exec_freePolicer_twoRate (hk : kindOf c.desc = 2) (hi : c.desc.par 0 2 < 16384) :
    exec (.freePolicer id) s = .next ((s.setPolicer (c.desc.par 0 2) {}).holderDone c) :=
  congrArg _ ((State.runMgmt_accepted h _).trans ((if_pos hk).trans (if_neg (Nat.not_le.mpr hi))))

theorem exec_freePolicer_strict (hk : kindOf c.desc = 3) (hi : c.desc.par 0 2 < 256) :
    exec (.freePolicer id) s = .next ((s.setStrict (c.desc.par 0 2) {}).holderDone c) :=
  congrArg _ ((State.runMgmt_accepted h _).trans ((if_neg (by rw [hk]; decide)).trans (if_neg (Nat.not_le.mpr hi))))

end Free
end Policer

/-! ### Shapers -/

/-- Tenant shaper `i` takes the settings and the level of `x`. -/
def State.setTenantShaper (s : State) (i : Nat) (x : Shaper) : State := { s with qos.tshapers := Assoc.set {} s.qos.tshapers i x }

/-- Port shaper `i` takes the settings and the level of `x`. -/
def State.setPortShaper (s : State) (i : Nat) (x : Shaper) : State := { s with qos.pshapers := Assoc.set {} s.qos.pshapers i x }

/-- What both kinds of shaper need of RATE and BURST (Table 08-3). -/
theorem shaperBurst_ok {rate burst : Nat} (h : rate = 0 ∨ 9216 ≤ burst) : (decide (rate = 0) || decide (9216 ≤ burst)) = true := by
  rwa [Bool.or_eq_true, decide_eq_true_iff, decide_eq_true_iff]

section Shaper
variable {s : State} {id : Nat} {c : Started}

section Configure
variable (h : s.Accepts id 0x0702 [(0x03, 1), (0x11, 23)] (fun _ => true) (fun d => kindOf d ≠ 2) c s)
  (hb : c.desc.par 8 4 = 0 ∨ 9216 ≤ c.desc.par 0x0C 4)
include h hb

theorem exec_configureShaper_tenant (hk : kindOf c.desc = 0) (hi : c.desc.par 0 2 < 4096) (ht : c.desc.par 4 2 < 1024)
    (hs : c.desc.par 6 1 < 32) (hw : c.desc.par 7 1 ≠ 0) (hcls : c.desc.par 0x10 1 < 8)
    (hfree : (s.qos.tshapers.all fun e => !e.2.used) = true)
    (hused : (Assoc.get {} s.qos.tshapers (c.desc.par 0 2) : Shaper).used = false) :
    exec (.configureShaper id) s = .next ((s.setTenantShaper (c.desc.par 0 2)
      { used := true, tenant := c.desc.par 4 2, sub := subOf (c.desc.par 6 1), weight := c.desc.par 7 1, rate := c.desc.par 8 4,
        burst := c.desc.par 0x0C 4, cls := c.desc.par 0x10 1, b := ⟨c.desc.par 0x0C 4 * 8000, s.now⟩ }).holderDone c) := by
  have hother (p : Nat × Shaper → Bool) : (s.qos.tshapers.any fun e => e.2.used && p e) = false :=
    List.any_eq_false.mpr fun e he => by simpa using fun hu => absurd hu (by simpa using List.all_eq_true.mp hfree e he)
  refine congrArg _ ((State.runMgmt_accepted h _).trans ?_)
  simp only [shaperBurst_ok hb]
  simp [State.setTenantShaper, hk, Nat.not_le.mpr hi, Nat.not_le.mpr ht, Nat.not_le.mpr hs, hw, Nat.not_le.mpr hcls, hused, hother, Bool.and_assoc]

theorem exec_configureShaper_port (hk : kindOf c.desc = 1) (hi : c.desc.par 0 2 < 32)
    (hused : (Assoc.get {} s.qos.pshapers (c.desc.par 0 2) : Shaper).used = false) :
    exec (.configureShaper id) s = .next ((s.setPortShaper (c.desc.par 0 2)
      { used := true, tenant := 0, sub := c.desc.par 0 2, weight := 1, rate := c.desc.par 8 4,
        burst := c.desc.par 0x0C 4, cls := 0, b := ⟨c.desc.par 0x0C 4 * 8000, s.now⟩ }).holderDone c) := by
  refine congrArg _ ((State.runMgmt_accepted h _).trans ?_)
  simp only [shaperBurst_ok hb]
  simp [State.setPortShaper, hk, Nat.not_le.mpr hi, hused]

end Configure

theorem exec_freeShaper_frees (h : s.Accepts id 0x0702 [(0x03, 1), (0x11, 23)] (fun _ => true) (fun d => kindOf d = 2) c s)
    (hi : c.desc.par 0 2 < 4096) :
    exec (.freeShaper id) s = .next ((s.setTenantShaper (c.desc.par 0 2) {}).holderDone c) :=
  congrArg _ ((State.runMgmt_accepted h _).trans (if_neg (Nat.not_le.mpr hi)))

end Shaper

/-! ### Slalom lists -/

/-- The list that Load Slalom List gives with data `b` (R147). -/
def slalomOf (d : Descriptor) (b : List Byte) : SlalomCfg :=
  { entries := slalomEntries (d.par 4 2) b, unit := d.par 2 1, guard := (d.par 1 1).testBit 0, dflt := d.par 3 1,
    base := d.par 8 8, cycle := d.par 0x10 8 }

/-- The swap to `g` becomes pending at shelf time `now`; a list that is disabled takes its default at once (R147). -/
def Slalom.load (x : Slalom) (g : SlalomCfg) (now : Nat) : Slalom :=
  { x with pending := some (g, swapTime g.base g.cycle now), dflt := if x.enabled then x.dflt else some g.dflt }

section Load
variable {s : State} {id : Nat} {c : Started} (h : s.AcceptsPlain id 0x0700 [(0x06, 2), (0x18, 16)] c)
  (hl : c.desc.par 0 1 < 12) (hu : c.desc.par 2 1 < 4)
include h hl hu

theorem exec_loadSlalomList_disables (hf : c.desc.par 1 1 = 2) (hd : 8 ≤ c.desc.par 0 1 → c.desc.par 3 1 < 2)
    (b : Option (List Byte)) :
    exec (.loadSlalomList id b) s = .next (((((s.slalom (c.desc.par 0 1)).slot.elim s fun k => s.setSlot k {}).setSlalom (c.desc.par 0 1)
      { dflt := some (c.desc.par 3 1) }).gatesMoved (c.desc.par 0 1) (s.gates (c.desc.par 0 1))).holderDone c) := by
  refine congrArg _ ((State.runPlain_accepted h _).trans ?_)
  dsimp only
  rw [if_neg (by rw [hf]; simpa [hl, hu] using hd), if_pos (by rw [hf]; decide)]
  cases (s.slalom (c.desc.par 0 1)).slot <;> rfl

section Entries
variable (hf : c.desc.par 1 1 < 2) (hd : 8 ≤ c.desc.par 0 1 → c.desc.par 1 1 = 0 ∧ c.desc.par 3 1 < 2) {b : List Byte}
  (hlen : c.desc.dataLen.toNat = 4 * c.desc.par 4 2) (hb : b.length = 4 * c.desc.par 4 2) {g : SlalomCfg} (hg : g = slalomOf c.desc b)
  (hv : slalomValid (c.desc.par 0 1) g (c.desc.par 4 2) = true) {x : Slalom} (hx : s.slalom (c.desc.par 0 1) = x)
include hf hd hlen hb hg hv hx

/-- A valid list becomes pending: its slot, or the lowest free one, is set to fire at the swap (R147). -/
theorem exec_loadSlalomList_pending : exec (.loadSlalomList id (some b)) s = .next
    (match x.slot with
      | some k => (((s.setSlalom (c.desc.par 0 1) (x.load g s.now)).setSlot k { s.slot k with
          compare := if x.enabled then (x.load g s.now).nextFire s.now else swapTime g.base g.cycle s.now }).gatesMoved
            (c.desc.par 0 1) (s.gates (c.desc.par 0 1))).holderDone c
      | none =>
        match s.findSlot with
        | none => s.complete c .limitExceeded
        | some k => (((s.setSlalom (c.desc.par 0 1) { x.load g s.now with slot := some k }).setSlot k
            { owner := 1, armed := true, compare := swapTime g.base g.cycle s.now, period := 0, action := 1,
              target := c.desc.par 0 1 }).gatesMoved (c.desc.par 0 1) (s.gates (c.desc.par 0 1))).holderDone c) := by
  have hbit : (c.desc.par 1 1).testBit 1 = false := Nat.testBit_lt_two_pow hf
  have hflag : 8 ≤ c.desc.par 0 1 → (c.desc.par 1 1).testBit 0 = false ∧ c.desc.par 3 1 < 2 := fun h8 =>
    ⟨by rw [(hd h8).1]; rfl, (hd h8).2⟩
  subst hg
  refine congrArg _ ((State.runPlain_accepted h _).trans ?_)
  dsimp only
  rw [if_neg (by simpa [hl, hu, Nat.lt_of_lt_of_le hf (by decide : 2 ≤ 4)] using hflag), if_neg (ne_true_of_eq_false hbit),
    if_neg (not_not.mpr hlen), hx]
  refine (if_neg ?valid).trans ?done
  case valid => rw [← slalomOf, hv, hb]; simp
  case done =>
    obtain ⟨enabled, cfg, entry, dflt, slot, pending⟩ := x
    cases slot with
    | some k => rfl
    | none => cases s.findSlot <;> rfl

theorem exec_loadSlalomList_takesSlot {k : Nat} (hs : x.slot = none) (hk : s.findSlot = some k) :
    exec (.loadSlalomList id (some b)) s = .next ((((s.setSlalom (c.desc.par 0 1) { x.load g s.now with slot := some k }).setSlot k
      { owner := 1, armed := true, compare := swapTime g.base g.cycle s.now, period := 0, action := 1,
        target := c.desc.par 0 1 }).gatesMoved (c.desc.par 0 1) (s.gates (c.desc.par 0 1))).holderDone c) := by
  rw [exec_loadSlalomList_pending h hl hu hf hd hlen hb hg hv hx, hs, hk]

theorem exec_loadSlalomList_movesSlot {k : Nat} (hs : x.slot = some k) :
    exec (.loadSlalomList id (some b)) s = .next ((((s.setSlalom (c.desc.par 0 1) (x.load g s.now)).setSlot k { s.slot k with
      compare := if x.enabled then (x.load g s.now).nextFire s.now else swapTime g.base g.cycle s.now }).gatesMoved
        (c.desc.par 0 1) (s.gates (c.desc.par 0 1))).holderDone c) := by
  rw [exec_loadSlalomList_pending h hl hu hf hd hlen hb hg hv hx, hs]

end Entries
end Load

theorem exec_slalomSwap_takesOver {s : State} {l : Fin 12} {g : SlalomCfg} {w k : Nat} (hp : (s.slalom l).pending = some (g, w))
    (hk : (s.slalom l).slot = some k) :
    exec (.slalomSwap l) s = .next (((((s.reach w).setSlalom l
      { s.slalom l with enabled := true, cfg := g, entry := g.entryAt (s.reach w).now, dflt := some g.dflt, pending := none }).setSlot k
      { (s.reach w).slot k with compare := g.nextChange (s.reach w).now }).raise Ev.SLALOM_SWAP [l.val]).gatesMoved l (s.gates l)) := by
  change execSlalomSwap l s = _
  simp only [execSlalomSwap, hp, hk]
  rfl

theorem exec_setRebuildRate_writes {s : State} {id : Nat} {c : Started} (h : s.AcceptsPlain id 0x0604 [(0x04, 36)] c)
    (hr : c.desc.par 0 4 < 2 ^ 24) :
    exec (.setRebuildRate id) s = .next ((s.setFld (Reg.QOS_GROOM_RATE_RATE 1) (c.desc.par 0 4)).holderDone c) :=
  congrArg _ ((State.runPlain_accepted h _).trans (if_neg (Nat.not_le.mpr hr)))

/-- Settles O28: each clause is the case of its command, or of the list's slot, that its hypotheses select. That KIND 2 of Configure Shaper
frees the tenant shaper is the model's choice (log entry 17). -/
theorem policersShapersAndSlalomLists : Obligations.PolicersShapersAndSlalomLists := by
  refine ⟨?newPolicer, ?changedPolicer, ?strict, ?freePolicer, ?freeStrict, ?tenantShaper, ?portShaper, ?freeShaper, ?takesSlot, ?movesSlot,
    ?disable, ?swap, ?gate, ?rate⟩
  case newPolicer =>
    intro s id c ⟨h, hk, hv, hused, hon⟩
    rw [exec_configurePolicer_twoRate h hk hv fun k hs => absurd (hon.symm.trans hs) (by simp), hused]
    rfl
  case changedPolicer =>
    rintro s id c o ⟨h, hk, hv, rfl, hused, hon⟩
    rw [exec_configurePolicer_twoRate h hk hv hon, hused]
    rfl
  case strict => exact fun s id c ⟨h, hk, hv, hused, hon⟩ => exec_configurePolicer_strict h hk hv hused hon
  case freePolicer => exact fun s id c ⟨h, hk, hi⟩ => exec_freePolicer_twoRate h hk hi
  case freeStrict => exact fun s id c ⟨h, hk, hi⟩ => exec_freePolicer_strict h hk hi
  case tenantShaper =>
    exact fun s id c ⟨h, hk, hi, ht, hs, hw, hcls, hb, hfree, hused⟩ => exec_configureShaper_tenant h hb hk hi ht hs hw hcls hfree hused
  case portShaper => exact fun s id c ⟨h, hk, hi, hb, hused⟩ => exec_configureShaper_port h hb hk hi hused
  case freeShaper => exact fun s id c ⟨h, hi⟩ => exec_freeShaper_frees h hi
  case takesSlot =>
    rintro s id c b k g y ⟨h, hl, hf, hu, hd, hlen, hb, hg, hv, rfl, hs, hk⟩
    subst hg
    exact exec_loadSlalomList_takesSlot h hl hu hf hd hlen hb rfl hv rfl hs hk
  case movesSlot =>
    rintro s id c b k g y ⟨h, hl, hf, hu, hd, hlen, hb, hg, hv, rfl, hs⟩
    subst hg
    exact exec_loadSlalomList_movesSlot h hl hu hf hd hlen hb rfl hv rfl hs
  case disable => exact fun s id c b ⟨h, hl, hf, hu, hd⟩ => exec_loadSlalomList_disables h hl hu hf hd b
  case swap => exact fun s l g w k ⟨hp, hk⟩ => exec_slalomSwap_takesOver hp hk
  case gate =>
    intro s l k ⟨hk, he, ha, hw⟩
    rw [exec_slalomGateChange_due hk he ha hw, State.reach_now]
  case rate => exact fun s id c ⟨h, hr⟩ => exec_setRebuildRate_writes h hr

end Sys2Proof.Machine
end

section
/-! Proofs of the Fabrics commands of family 09 (R152, R162, R163, R367): a Connect that creates or joins a controller, the properties,
Disconnect, and the authentication commands that the shelf refuses. -/
namespace Sys2Proof.Machine

/-! ### Reading controllers -/

@[simp] theorem State.setCtrl_ctrl_same (s : State) (k : Nat) (x : Ctrl) : (s.setCtrl k x).ctrl k = x := Assoc.get_set_same _ _ k x

theorem State.setCtrl_ctrl_other (s : State) {k m : Nat} (x : Ctrl) (h : m ≠ k) : (s.setCtrl k x).ctrl m = s.ctrl m :=
  Assoc.get_set_other _ _ _ k m x h

@[simp] theorem State.setCtrl_conn (s : State) (k : Nat) (x : Ctrl) (n : Nat) : (s.setCtrl k x).conn n = s.conn n := rfl

@[simp] theorem State.updConn_ctrl (s : State) (n : Nat) (f : Conn → Conn) (k : Nat) : (s.updConn n f).ctrl k = s.ctrl k := rfl

section Connect
variable {s : State} {t : Nat} {c : Cmd} {d : ConnectData}

/-! ### The controller that a Connect on an admin queue creates -/

@[simp] theorem State.newCtrl_discovery (s : State) (n kato : Nat) (d : ConnectData) :
    (s.newCtrl n kato d).discovery = d.discovery := by
  unfold State.newCtrl
  split <;> rfl

/-- A Discovery controller belongs to no domain and no tenant (R133). -/
theorem State.newCtrl_of_discovery (s : State) (n kato : Nat) (hd : d.discovery = true) : s.newCtrl n kato d =
    { used := true, discovery := true, adminConn := n, hostId := d.hostId, kato := kato, katoAt := s.now + kato * 1000000,
      ioqs := s.fld Reg.CMD_LIMITS_MAX_IOQ, pd := noDomain, tenant := noTenant } := by
  rw [State.newCtrl, if_pos hd, hd]

theorem State.newCtrl_of_host (n kato : Nat) (hd : d.discovery = false) {h : Nat} (hh : s.connectHost d = some h) :
    s.newCtrl n kato d =
      { used := true, discovery := false, adminConn := n, hostId := d.hostId, kato := kato, katoAt := s.now + kato * 1000000,
        ioqs := s.fld Reg.CMD_LIMITS_MAX_IOQ, host := some h, pd := (Assoc.get {} s.xpt.hosts h : HostEnt).pd,
        tenant := (Assoc.get {} s.xpt.hosts h : HostEnt).tenant } := by
  rw [State.newCtrl, if_neg (by simp [hd]), hd, hh]
  rfl

/-- Connection `x` as the admin queue of controller `k`, which is `y`. -/
def Conn.asAdminOf (x : Conn) (k : Nat) (y : Ctrl) : Conn :=
  if y.discovery then
    { x with ctrl := some k, admin := true, qid := 0, host := y.host, pd := y.pd, tenant := y.tenant, pull := false, freeze := false }
  else { x with ctrl := some k, admin := true, qid := 0, host := y.host, pd := y.pd, tenant := y.tenant }

theorem Conn.asAdminOf_binds (x : Conn) (k : Nat) (y : Ctrl) : (x.asAdminOf k y).ctrl = some k ∧ (x.asAdminOf k y).admin = true ∧
    (x.asAdminOf k y).pd = y.pd ∧ (x.asAdminOf k y).tenant = y.tenant := by
  unfold Conn.asAdminOf
  split <;> exact ⟨rfl, rfl, rfl, rfl⟩

/-- The state in which connection `n` is the admin queue of controller `k`, which is `y`. -/
def State.bindAdmin (s : State) (n k : Nat) (y : Ctrl) : State := (s.setCtrl k y).updConn n fun x => x.asAdminOf k y

/-- Binding an admin queue stores the controller, binds the connection to its domain and tenant, and changes nothing else. -/
theorem State.bindAdmin_frame (s : State) (n k : Nat) (y : Ctrl) : (s.bindAdmin n k y).ctrl k = y ∧
    (s.bindAdmin n k y).conn n = (s.conn n).asAdminOf k y ∧ (∀ m, m ≠ k → (s.bindAdmin n k y).ctrl m = s.ctrl m) ∧
    (∀ m, m ≠ n → (s.bindAdmin n k y).conn m = s.conn m) ∧
    s.bindAdmin n k y = { s with xpt := (s.bindAdmin n k y).xpt, cmdb := (s.bindAdmin n k y).cmdb } := by
  refine ⟨?_, ?_, fun m hm => ?_, fun m hm => ?_, rfl⟩
  · exact s.setCtrl_ctrl_same k y
  · exact State.updConn_conn_same _ n _
  · exact s.setCtrl_ctrl_other y hm
  · exact State.updConn_conn_other _ _ hm

/-! ### Connect -/

/-- What the operands of a Connect on an admin queue must satisfy (Table 09-2): a host identifier, 2 to 32 entries, and a subsystem
that is this shelf's or Discovery. -/
def adminConnectOk (c : Cmd) (d : ConnectData) : Prop :=
  d.hostId ≠ 0 ∧ 2 ≤ c.entry.cdw11 % 65536 + 1 ∧ c.entry.cdw11 % 65536 + 1 ≤ 32 ∧ (d.own = true ∨ d.discovery = true)

theorem State.connectAdmin_invalid (s : State) (t : Nat) (h : d.hostId = 0 ∨ c.entry.cdw11 % 65536 + 1 < 2 ∨
    32 < c.entry.cdw11 % 65536 + 1 ∨ (d.own = false ∧ d.discovery = false)) : s.connectAdmin t c d = s.finish t 1 0x82 true :=
  if_pos (by simpa [or_assoc] using h)

section Valid
variable (h : adminConnectOk c d)
include h

theorem adminConnectOk.not_invalid : ¬ (d.hostId = 0 || c.entry.cdw11 % 65536 + 1 < 2 || 32 < c.entry.cdw11 % 65536 + 1 ||
    (!d.own && !d.discovery)) = true := by
  obtain ⟨hid, hlow, hhigh, hsub⟩ := h
  have hsub' : (!d.own && !d.discovery) = false := by simpa [or_iff_not_imp_left] using hsub
  simp only [hsub', Bool.or_eq_true, decide_eq_true_eq, Bool.false_eq_true, or_false]
  omega

theorem State.connectAdmin_refused (s : State) (t : Nat) (ha : s.hostAllowed (s.conn c.conn) d = false) :
    s.connectAdmin t c d = s.finish t 1 0x84 true :=
  (if_neg h.not_invalid).trans (if_pos (by rw [ha]; rfl))

variable (ha : s.hostAllowed (s.conn c.conn) d = true)
include ha

theorem State.connectAdmin_full (t : Nat) (hf : s.freeCtrl = none) : s.connectAdmin t c d = s.finish t 1 0x81 false := by
  refine (if_neg h.not_invalid).trans ((if_neg (by rw [ha]; decide)).trans ?_)
  rw [hf]

theorem State.connectAdmin_creates (t : Nat) {k : Nat} (hf : s.freeCtrl = some k) : s.connectAdmin t c d =
    (s.bindAdmin c.conn k (s.newCtrl c.conn c.entry.cdw12 d)).success t (k + 1) := by
  refine (if_neg h.not_invalid).trans ((if_neg (by rw [ha]; decide)).trans ?_)
  simp only [hf, State.bindAdmin, Conn.asAdminOf, State.newCtrl_discovery]

end Valid

section Io
variable {q : Nat}

theorem State.connectIo_invalid (s : State) (t : Nat) (h : d.hostId = 0 ∨ c.entry.cdw11 % 65536 + 1 < 2 ∨
    s.fld Reg.CMD_LIMITS_MAX_QD < c.entry.cdw11 % 65536 + 1 ∨ d.cntlid = 0 ∨ (s.ctrl (d.cntlid - 1)).used = false ∨
    (s.ctrl (d.cntlid - 1)).discovery = true ∨ (s.ctrl (d.cntlid - 1)).hostId ≠ d.hostId ∨ (s.ctrl (d.cntlid - 1)).ioqs < q ∨
    (s.queueConn (d.cntlid - 1) q).isSome = true ∨ d.own = false) : s.connectIo t c d q = s.finish t 1 0x82 true :=
  if_pos (by simpa [or_assoc] using h)

theorem State.connectIo_valid {x : Ctrl} (t : Nat) (hid : d.hostId ≠ 0) (hlow : 2 ≤ c.entry.cdw11 % 65536 + 1)
    (hhigh : c.entry.cdw11 % 65536 + 1 ≤ s.fld Reg.CMD_LIMITS_MAX_QD) (hcnt : d.cntlid ≠ 0) (hx : s.ctrl (d.cntlid - 1) = x)
    (hu : x.used = true) (hd : x.discovery = false) (hh : x.hostId = d.hostId) (hq : q ≤ x.ioqs)
    (hn : s.queueConn (d.cntlid - 1) q = none) (ho : d.own = true) : s.connectIo t c d q =
      if s.hostAllowed (s.conn c.conn) { d with discovery := false } = false ∨ s.connectHost d ≠ x.host then s.finish t 1 0x84 true
      else (s.updConn c.conn fun y =>
        { y with ctrl := some (d.cntlid - 1), admin := false, qid := q, host := x.host, pd := x.pd, tenant := x.tenant }).success t
          (d.cntlid - 1 + 1) := by
  subst hx
  refine (if_neg ?_).trans ?_
  · simp only [hu, hd, hn, ho, Bool.or_eq_true, decide_eq_true_eq, Bool.not_true, Option.isSome_none, Bool.false_eq_true, or_false]
    omega
  · simp

end Io

section Ready
variable (hc : s.readyFabrics t 0x01 = some c)
include hc

theorem exec_fabricsConnect_bound (h : (s.conn c.conn).ctrl.isSome = true) :
    exec (.fabricsConnect t d) s = .next (s.finish t 1 0x82 true) := by
  change execFabricsConnect t d s = _
  simp only [execFabricsConnect, hc, h, if_true]

variable (hn : (s.conn c.conn).ctrl = none)
include hn

theorem exec_fabricsConnect_busy (hb : s.connectBusy = true) : exec (.fabricsConnect t d) s = .next (s.finish t 1 0x81 false) := by
  change execFabricsConnect t d s = _
  simp only [execFabricsConnect, hc, hn, Option.isSome_none, Bool.false_eq_true, if_false, hb, if_true]

variable (hb : s.connectBusy = false)
include hb

theorem exec_fabricsConnect_tandem (hr : (s.conn c.conn).tandemRefused = true) :
    exec (.fabricsConnect t d) s = .next (s.finish t 7 0x84 true) := by
  change execFabricsConnect t d s = _
  simp only [execFabricsConnect, hc, hn, Option.isSome_none, Bool.false_eq_true, if_false, hb, hr, if_true]

variable (hr : (s.conn c.conn).tandemRefused = false)
include hr

theorem exec_fabricsConnect_admin (hq : c.entry.cdw10 / 65536 = 0) :
    exec (.fabricsConnect t d) s = .next (s.connectAdmin t c d) := by
  change execFabricsConnect t d s = _
  simp only [execFabricsConnect, hc, hn, Option.isSome_none, Bool.false_eq_true, if_false, hb, hr, hq, if_true]

theorem exec_fabricsConnect_io {q : Nat} (hq : q = c.entry.cdw10 / 65536) (h0 : q ≠ 0) :
    exec (.fabricsConnect t d) s = .next (s.connectIo t c d q) := by
  subst hq
  change execFabricsConnect t d s = _
  simp only [execFabricsConnect, hc, hn, Option.isSome_none, Bool.false_eq_true, if_false, hb, hr, h0]

end Ready

/-- A Connect on an admin queue of a host that may use it stores its controller and binds the connection, and nothing else. -/
theorem exec_fabricsConnect_creates (hc : s.readyFabrics t 0x01 = some c) (hn : (s.conn c.conn).ctrl = none) (hb : s.connectBusy = false)
    (hr : (s.conn c.conn).tandemRefused = false) (hq : c.entry.cdw10 / 65536 = 0) (h : adminConnectOk c d)
    (ha : s.hostAllowed (s.conn c.conn) d = true) {k : Nat} (hf : s.freeCtrl = some k) {y : Ctrl}
    (hy : s.newCtrl c.conn c.entry.cdw12 d = y) :
    ∃ u : State, exec (.fabricsConnect t d) s = .next (u.success t (k + 1)) ∧ u.ctrl k = y ∧ (u.conn c.conn).ctrl = some k ∧
      (u.conn c.conn).admin = true ∧ (u.conn c.conn).pd = y.pd ∧ (u.conn c.conn).tenant = y.tenant ∧
      (∀ m, m ≠ k → u.ctrl m = s.ctrl m) ∧ (∀ m, m ≠ c.conn → u.conn m = s.conn m) ∧ u = { s with xpt := u.xpt, cmdb := u.cmdb } := by
  obtain ⟨hk, hx, hks, hns, hu⟩ := s.bindAdmin_frame c.conn k y
  obtain ⟨hctrl, hadmin, hpd, hten⟩ := (s.conn c.conn).asAdminOf_binds k y
  rw [← hx] at hctrl hadmin hpd hten
  refine ⟨_, (exec_fabricsConnect_admin hc hn hb hr hq).trans (congrArg _ (State.connectAdmin_creates h ha t hf)), ?_⟩
  rw [hy]
  exact ⟨hk, hctrl, hadmin, hpd, hten, hks, hns, hu⟩

end Connect

/-! ### Properties -/

section Property
variable {s : State} {t : Nat} {c : Cmd}

section Get
variable (hc : s.readyFabrics t 0x04 = some c)
include hc

theorem exec_propertyGet_unbound (hn : (s.conn c.conn).ctrl = none) : exec (.propertyGet t) s = .next (s.finish t 0 2 true) := by
  change execPropertyGet t s = _
  simp only [execPropertyGet, hc, hn]

variable {k : Nat} (hk : (s.conn c.conn).ctrl = some k)
include hk

theorem exec_propertyGet_cap (h : c.entry.cdw11 = 0x00) :
    exec (.propertyGet t) s = .next (s.success t (1023 + 2 * 2 ^ 24) 0) := by
  change execPropertyGet t s = _
  simp only [execPropertyGet, hc, hk, h]

theorem exec_propertyGet_vs (h : c.entry.cdw11 = 0x08) : exec (.propertyGet t) s = .next (s.success t 0x20000) := by
  change execPropertyGet t s = _
  simp only [execPropertyGet, hc, hk, h]

theorem exec_propertyGet_cc (h : c.entry.cdw11 = 0x14) : exec (.propertyGet t) s = .next (s.success t (s.ctrl k).cc) := by
  change execPropertyGet t s = _
  simp only [execPropertyGet, hc, hk, h]

theorem exec_propertyGet_csts (h : c.entry.cdw11 = 0x1C) :
    exec (.propertyGet t) s = .next (s.success t ((if (s.ctrl k).en then 1 else 0) + (s.ctrl k).shst * 4)) := by
  change execPropertyGet t s = _
  simp only [execPropertyGet, hc, hk, h]

end Get

section Set
variable (hc : s.readyFabrics t 0x00 = some c)
include hc

theorem State.setCc_unbound (hn : (s.conn c.conn).ctrl = none) (f : Nat → Nat → Ctrl → State → State) :
    s.setCc t f = s.finish t 0 2 true := by
  simp only [State.setCc, hc, hn]

variable {k : Nat} (hk : (s.conn c.conn).ctrl = some k)
include hk

theorem State.setCc_bound (f : Nat → Nat → Ctrl → State → State) : s.setCc t f = f k c.entry.cdw12 (s.ctrl k) s := by
  simp only [State.setCc, hc, hk]

theorem exec_propertySetEnable_enables (he : c.entry.cdw12 % 2 = 1) (hs : c.entry.cdw12 / 2 ^ 14 % 4 = 0) :
    exec (.propertySetEnable t) s = .next ((s.setCtrl k { s.ctrl k with en := true, shn := 0, shst := 0 }).success t) :=
  congrArg _ ((State.setCc_bound hc hk _).trans (if_pos (by rw [he, hs]; rfl)))

theorem exec_propertySetReset_resets (he : c.entry.cdw12 % 2 = 0) (hs : c.entry.cdw12 / 2 ^ 14 % 4 = 0) :
    exec (.propertySetReset t) s = .next (if (s.ctrl k).en then (s.success t).resetCtrl k else s.success t) :=
  congrArg _ ((State.setCc_bound hc hk _).trans (if_pos (by rw [he, hs]; rfl)))

/-- A shutdown starts, and the waiting work is woken to go on with it (R163). -/
theorem exec_propertySetShutdown_starts (hs : c.entry.cdw12 / 2 ^ 14 % 4 ≠ 0) :
    exec (.propertySetShutdown t) s = .next (((s.setCtrl k { s.ctrl k with
      en := c.entry.cdw12 % 2 = 1, shn := c.entry.cdw12 / 2 ^ 14 % 4, shst := 1, shFlush := [], shRun := true }).success
        t).wakeFlush) :=
  congrArg _ ((State.setCc_bound hc hk _).trans (if_neg hs))

end Set

/-! ### Disconnect and authentication -/

theorem exec_fabricsDisconnect_closes (hc : s.readyFabrics t 0x08 = some c) :
    exec (.fabricsDisconnect t) s = .next ((s.success t).close c.conn 2) := by
  change execFabricsDisconnect t s = _
  simp only [execFabricsDisconnect, hc]

theorem exec_authenticationSend_refused (hc : s.readyFabrics t 0x05 = some c) :
    exec (.authenticationSend t) s = .next (s.finish t 0 2 true) := by
  change execAuthenticationSend t s = _
  simp only [execAuthenticationSend, hc]

theorem exec_authenticationReceive_refused (hc : s.readyFabrics t 0x06 = some c) :
    exec (.authenticationReceive t) s = .next (s.finish t 0 2 true) := by
  change execAuthenticationReceive t s = _
  simp only [execAuthenticationReceive, hc]

end Property

/-- Settles O31: each clause is the case of its command that its hypotheses select. 84h for a plaintext host, the bits of the properties,
and 1/82h for a connection that has a controller or names a wrong one are the model's reading (log entries 149, 25, 77). -/
theorem fabricsCommandsConnectAndSetTheController : Obligations.FabricsCommandsConnectAndSetTheController := by
  refine ⟨?bound, ?busy, ?tandem, ?refusedAdmin, ?discovery, ?admin, ?invalidIo, ?io, ?get, ?enable, ?reset, ?shutdown, ?unbound,
    ?disconnect, ?authSend, ?authReceive⟩
  case bound => exact fun s t c d ⟨hc, h⟩ => exec_fabricsConnect_bound hc h
  case busy => exact fun s t c d ⟨hc, hn, hb⟩ => exec_fabricsConnect_busy hc hn hb
  case tandem => exact fun s t c d ⟨hc, hn, hb, hr⟩ => exec_fabricsConnect_tandem hc hn hb hr
  case refusedAdmin =>
    intro s t c d ⟨hc, hn, hb, hr, hq⟩
    rw [exec_fabricsConnect_admin hc hn hb hr hq]
    refine ⟨fun h => congrArg _ (s.connectAdmin_invalid t h), fun hid hlow hhigh hsub => ?_⟩
    have hv : adminConnectOk c d := ⟨hid, hlow, hhigh, hsub⟩
    exact ⟨fun ha => congrArg _ (s.connectAdmin_refused hv t ha), fun ha hf => congrArg _ (State.connectAdmin_full hv ha t hf)⟩
  case discovery =>
    intro s t k c d ⟨hc, hn, hb, hr, hq, hid, hlow, hhigh, hd, ha, hf⟩
    have hv : adminConnectOk c d := ⟨hid, hlow, hhigh, .inr hd⟩
    obtain ⟨u, he, hk, hctrl, hadmin, hpd, hten, hks, hns, hu⟩ := exec_fabricsConnect_creates hc hn hb hr hq hv ha hf
      (s.newCtrl_of_discovery c.conn c.entry.cdw12 hd)
    refine ⟨u, he, ?_⟩
    rw [hk, hpd, hten]
    exact ⟨rfl, rfl, rfl, rfl, rfl, rfl, rfl, hctrl, hadmin, rfl, rfl, hks, hns, hu⟩
  case admin =>
    intro s t k h c d ⟨hc, hn, hb, hr, hq, hid, hlow, hhigh, hd, ho, hh, ha, hf⟩
    have hv : adminConnectOk c d := ⟨hid, hlow, hhigh, .inl ho⟩
    obtain ⟨u, he, hk, hctrl, hadmin, hpd, hten, hks, hns, hu⟩ := exec_fabricsConnect_creates hc hn hb hr hq hv ha hf
      (State.newCtrl_of_host c.conn c.entry.cdw12 hd hh)
    refine ⟨u, he, ?_⟩
    rw [hk, hpd, hten]
    exact ⟨rfl, rfl, rfl, rfl, rfl, rfl, rfl, hctrl, hadmin, rfl, rfl, hks, hns, hu⟩
  case invalidIo =>
    exact fun s t q c d ⟨hc, hn, hb, hr, hq, h0, h⟩ =>
      (exec_fabricsConnect_io hc hn hb hr hq h0).trans (congrArg _ (s.connectIo_invalid t h))
  case io =>
    intro s t q c d x ⟨hc, hn, hb, hr, hq, h0, hid, hlow, hhigh, hcnt, hx, hu, hd, hh, hioqs, hqn, ho⟩
    rw [exec_fabricsConnect_io hc hn hb hr hq h0, State.connectIo_valid t hid hlow hhigh hcnt hx.symm hu hd hh hioqs hqn ho]
    exact ⟨fun ha hhost => by rw [if_neg (by simp [ha, hhost])], fun h => by rw [if_pos h]⟩
  case get =>
    intro s t k c ⟨hc, hk⟩
    exact ⟨exec_propertyGet_cap hc hk, exec_propertyGet_vs hc hk, exec_propertyGet_cc hc hk, exec_propertyGet_csts hc hk⟩
  case enable => exact fun s t k c ⟨hc, hk, he, hs⟩ => exec_propertySetEnable_enables hc hk he hs
  case reset => exact fun s t k c ⟨hc, hk, he, hs⟩ => exec_propertySetReset_resets hc hk he hs
  case shutdown => exact fun s t k c ⟨hc, hk, hs⟩ => exec_propertySetShutdown_starts hc hk hs
  case unbound =>
    intro s t c hn
    exact ⟨fun hc => exec_propertyGet_unbound hc hn, fun hc =>
      ⟨congrArg _ (State.setCc_unbound hc hn _), congrArg _ (State.setCc_unbound hc hn _), congrArg _ (State.setCc_unbound hc hn _)⟩⟩
  case disconnect => exact fun s t c hc => exec_fabricsDisconnect_closes hc
  case authSend => exact fun s t c hc => exec_authenticationSend_refused hc
  case authReceive => exact fun s t c hc => exec_authenticationReceive_refused hc

end Sys2Proof.Machine
end

section
/-! Proofs of the reservation commands of family 09 (R165): the keys that Register stores, replaces and removes, the report of the
registrants, what Acquire takes and preempts, and what Release gives up. -/
namespace Sys2Proof.Machine

/-! ### The report's bytes -/

theorem leBytes_length (n v : Nat) : (leBytes n v).length = n := by
  induction n generalizing v with
  | zero => rfl
  | succ n ih => rw [leBytes, List.length_cons, ih]

theorem patch_length {b d : List Byte} {o : Nat} (h : o + d.length ≤ b.length) : (patch b o d).length = b.length := by
  simp only [patch, List.length_append, List.length_take, List.length_drop]
  omega

/-- A patch leaves the bytes before it. -/
theorem patch_take {b d : List Byte} {o k : Nat} (hk : k ≤ o) (hb : k ≤ b.length) : (patch b o d).take k = b.take k := by
  have hlen : k ≤ (b.take o).length := by rw [List.length_take]; omega
  rw [patch, List.append_assoc, List.take_append_of_le_length hlen, List.take_take, Nat.min_eq_left hk]

theorem foldl_patch_length {b : List Byte} {ps : List (Nat × List Byte)} (h : ∀ p ∈ ps, p.1 + p.2.length ≤ b.length) :
    (ps.foldl (fun b p => patch b p.1 p.2) b).length = b.length := by
  induction ps generalizing b with
  | nil => rfl
  | cons p ps ih =>
    have hp : (patch b p.1 p.2).length = b.length := patch_length (h p (List.mem_cons_self ..))
    rw [List.foldl_cons, ih fun q hq => by rw [hp]; exact h q (List.mem_cons_of_mem _ hq), hp]

/-- Patches that start at `k` or later, in bounds, leave the first `k` bytes. -/
theorem foldl_patch_take {b : List Byte} {k : Nat} {ps : List (Nat × List Byte)} (hb : k ≤ b.length)
    (h : ∀ p ∈ ps, k ≤ p.1 ∧ p.1 + p.2.length ≤ b.length) : (ps.foldl (fun b p => patch b p.1 p.2) b).take k = b.take k := by
  induction ps generalizing b with
  | nil => rfl
  | cons p ps ih =>
    obtain ⟨hk, hp⟩ := h p (List.mem_cons_self ..)
    have hlen : (patch b p.1 p.2).length = b.length := patch_length hp
    rw [List.foldl_cons, ih (by rwa [hlen]) fun q hq => by rw [hlen]; exact h q (List.mem_cons_of_mem _ hq), patch_take hk hb]

/-- Of a layout the first patch stands at 0, where the others start behind it. -/
theorem layoutBytes_take {n : Nat} {d : List Byte} {ps : List (Nat × List Byte)} (hd : d.length ≤ n)
    (h : ∀ p ∈ ps, d.length ≤ p.1 ∧ p.1 + p.2.length ≤ n) : (layoutBytes n ((0, d) :: ps)).take d.length = d := by
  have hlen : (patch (List.replicate n 0) 0 d).length = n :=
    (patch_length (by rw [List.length_replicate]; omega)).trans List.length_replicate
  rw [layoutBytes, List.foldl_cons, foldl_patch_take (by rwa [hlen]) (by rwa [hlen])]
  exact List.take_left

/-- The entry of registrant `r` in the extended report of namespace `x`. -/
def State.registrant (s : State) (x : Ns) (r : Nat × Nat) : List Byte :=
  leBytes 2 (((s.cmdb.ctrls.find? fun e => e.2.used && e.2.hostId = r.1).map fun e => e.1 + 1).getD 0xFFFF) ++
    leBytes 1 (if x.holds r.1 then 1 else 0) ++ List.replicate 5 0 ++ leBytes 8 r.2 ++ leBytes 16 r.1 ++ List.replicate 32 0

/-- The header of the report of namespace `x`. -/
def Ns.reportHeader (x : Ns) : List Byte :=
  layoutBytes 64 [(0, leBytes 4 x.rgen), (4, leBytes 1 x.rtype), (5, leBytes 2 x.regs.length), (9, leBytes 1 (if x.ptpl then 1 else 0))]

/-- The report of namespace `x`: its header and its registrants. -/
def State.resvReport (s : State) (x : Ns) : List Byte := x.reportHeader ++ x.regs.flatMap (s.registrant x)

theorem State.registrant_length (s : State) (x : Ns) (r : Nat × Nat) : (s.registrant x r).length = 64 := by
  simp [State.registrant, leBytes_length]

theorem Ns.reportHeader_length (x : Ns) : x.reportHeader.length = 64 :=
  foldl_patch_length (by simp [leBytes_length])

theorem State.resvReport_length (s : State) (x : Ns) : (s.resvReport x).length = 64 + 64 * x.regs.length := by
  rw [State.resvReport, List.length_append, x.reportHeader_length, List.length_flatMap, List.map_congr_left fun r _ => s.registrant_length x r,
    List.map_const', List.sum_replicate, smul_eq_mul, Nat.mul_comm]

theorem Ns.reportHeader_take (x : Ns) : x.reportHeader.take 4 = leBytes 4 x.rgen := by
  have h := layoutBytes_take (n := 64) (d := leBytes 4 x.rgen) (by simp [leBytes_length])
    (ps := [(4, leBytes 1 x.rtype), (5, leBytes 2 x.regs.length), (9, leBytes 1 (if x.ptpl then 1 else 0))]) (by simp [leBytes_length])
  rwa [leBytes_length] at h

theorem State.resvReport_take (s : State) (x : Ns) : (s.resvReport x).take 4 = leBytes 4 x.rgen := by
  rw [State.resvReport, List.take_append_of_le_length (by rw [x.reportHeader_length]; omega), x.reportHeader_take]

section Commands
variable {s : State} {t k h : Nat} {c : Cmd} {x : Ns}

section Report
variable (hc : s.ready t false 0x0E = some c)
include hc

theorem exec_reservationReport_answers (hx : c.entry.cdw11.testBit 0 = true) :
    exec (.reservationReport t) s = .next (s.answerData t (fit c.bytes (s.resvReport (s.ns c.entry.nsid)))) := by
  change execReservationReport t s = _
  simp only [execReservationReport, hc, hx, Bool.not_true, Bool.false_eq_true, if_false]
  rfl

theorem exec_reservationReport_refused (hx : c.entry.cdw11.testBit 0 = false) :
    exec (.reservationReport t) s = .next (s.finish t 0 2 true) := by
  change execReservationReport t s = _
  simp only [execReservationReport, hc, hx, Bool.not_false, if_true]

end Report

/-! ### Register -/

/-- Namespace `x` with key `k` of host `h` registered by a command with this dword 10. -/
def Ns.addKey (x : Ns) (cdw10 h k : Nat) : Ns :=
  { x with ptpl := ptplAfter cdw10 x.ptpl, regs := x.regs ++ [(h, k)], rgen := x.rgen + 1 }

/-- Namespace `x` with the key of registrant `h` replaced. -/
def Ns.replaceKey (x : Ns) (cdw10 h k : Nat) : Ns :=
  { x with ptpl := ptplAfter cdw10 x.ptpl, regs := x.regs.map fun r => if r.1 = h then (h, k) else r, rgen := x.rgen + 1 }

/-- Namespace `x` with registrant `h` removed. -/
def Ns.removeKey (x : Ns) (cdw10 h : Nat) : Ns :=
  { ({ x with ptpl := ptplAfter cdw10 x.ptpl } : Ns).unregister h with rgen := x.rgen + 1 }

/-- The three readings of CPTPL: 2, 3, and no change. -/
theorem ptplAfter_cases (cdw10 : Nat) : cdw10 / 2 ^ 30 = 2 ∧ (∀ b, ptplAfter cdw10 b = false) ∨
    cdw10 / 2 ^ 30 = 3 ∧ (∀ b, ptplAfter cdw10 b = true) ∨
    (cdw10 / 2 ^ 30 ≠ 2 ∧ cdw10 / 2 ^ 30 ≠ 3) ∧ ∀ b, ptplAfter cdw10 b = b := by
  unfold ptplAfter
  by_cases h2 : cdw10 / 2 ^ 30 = 2
  · exact .inl ⟨h2, fun _ => if_pos h2⟩
  · by_cases h3 : cdw10 / 2 ^ 30 = 3
    · exact .inr (.inl ⟨h3, fun _ => by rw [if_neg h2, if_pos h3]⟩)
    · exact .inr (.inr ⟨⟨h2, h3⟩, fun _ => by rw [if_neg h2, if_neg h3]⟩)

@[simp] theorem Ns.keyOf_ptpl (x : Ns) (b : Bool) (h : Nat) : ({ x with ptpl := b } : Ns).keyOf h = x.keyOf h := rfl

section Register
variable {k1 k2 : Nat} (hc : s.ready t false 0x0D = some c) (hx : s.ns c.entry.nsid = x)
  (hh : (s.ctrl ((s.conn c.conn).ctrl.getD 0)).hostId = h)
include hc hx hh

theorem exec_reservationRegister_new (ha : c.entry.cdw10 % 8 = 0) (hk : x.keyOf h = none) :
    exec (.reservationRegister t k1 k2) s = .next (if 64 ≤ x.regs.length then s.finish t 0 0x83 true
      else (s.setResv c.entry.nsid (x.addKey c.entry.cdw10 h k2)).success t) := by
  change execReservationRegister t k1 k2 s = _
  rcases ptplAfter_cases c.entry.cdw10 with ⟨hp, hb⟩ | ⟨hp, hb⟩ | ⟨⟨hp, hp3⟩, hb⟩ <;>
    simp only [execReservationRegister, hc, hx, hh, ha, hp, hb, Ns.keyOf_ptpl, hk, Ns.addKey]

theorem exec_reservationRegister_again (ha : c.entry.cdw10 % 8 = 0) (hk : x.keyOf h = some k) :
    exec (.reservationRegister t k1 k2) s = .next (if k = k2 || c.entry.cdw10.testBit 3 then
      (s.setResv c.entry.nsid (x.replaceKey c.entry.cdw10 h k2)).success t else s.finish t 0 0x83 true) := by
  change execReservationRegister t k1 k2 s = _
  rcases ptplAfter_cases c.entry.cdw10 with ⟨hp, hb⟩ | ⟨hp, hb⟩ | ⟨⟨hp, hp3⟩, hb⟩ <;>
    simp only [execReservationRegister, hc, hx, hh, ha, hp, hb, Ns.keyOf_ptpl, hk, Ns.replaceKey]

theorem exec_reservationRegister_unregister (ha : c.entry.cdw10 % 8 = 1) :
    exec (.reservationRegister t k1 k2) s = .next
      (if (x.keyOf h).isNone || !(c.entry.cdw10.testBit 3 || x.keyOf h = some k1) then s.finish t 0 0x83 true
      else (if x.rtype ≠ 0 && (x.removeKey c.entry.cdw10 h).rtype = 0 && 3 ≤ x.rtype then
        (s.setResv c.entry.nsid (x.removeKey c.entry.cdw10 h)).resvNotify c.entry.nsid 2
          ((x.removeKey c.entry.cdw10 h).regs.map Prod.fst)
        else s.setResv c.entry.nsid (x.removeKey c.entry.cdw10 h)).success t) := by
  change execReservationRegister t k1 k2 s = _
  rcases ptplAfter_cases c.entry.cdw10 with ⟨hp, hb⟩ | ⟨hp, hb⟩ | ⟨⟨hp, hp3⟩, hb⟩ <;>
    simp only [execReservationRegister, hc, hx, hh, ha, hp, hb, Ns.keyOf_ptpl, Ns.removeKey]

theorem exec_reservationRegister_replace (ha : c.entry.cdw10 % 8 = 2) :
    exec (.reservationRegister t k1 k2) s = .next
      (if !c.entry.cdw10.testBit 3 && ((x.keyOf h).isNone || !(c.entry.cdw10.testBit 3 || x.keyOf h = some k1)) then
        s.finish t 0 0x83 true
      else if (x.keyOf h).isNone then
        if 64 ≤ x.regs.length then s.finish t 0 0x83 true
        else (s.setResv c.entry.nsid (x.addKey c.entry.cdw10 h k2)).success t
      else (s.setResv c.entry.nsid (x.replaceKey c.entry.cdw10 h k2)).success t) := by
  change execReservationRegister t k1 k2 s = _
  rcases ptplAfter_cases c.entry.cdw10 with ⟨hp, hb⟩ | ⟨hp, hb⟩ | ⟨⟨hp, hp3⟩, hb⟩ <;>
    simp only [execReservationRegister, hc, hx, hh, ha, hp, hb, Ns.keyOf_ptpl, Ns.addKey, Ns.replaceKey]

end Register

/-! ### Acquire -/

/-- The registrants other than `h` with key `p`. -/
def Ns.preempted (x : Ns) (h p : Nat) : List Nat := (x.regs.filter fun r => r.1 ≠ h && r.2 = p).map Prod.fst

/-- Namespace `x` without the registrants `hits`. -/
def Ns.without (x : Ns) (hits : List Nat) : Ns := { x with regs := x.regs.filter fun r => !hits.contains r.1, rgen := x.rgen + 1 }

/-- Namespace `x` after host `h` preempts key `p`, the reservation's type unchanged: the key's registrants go, and `h` holds the reservation
where the key is its holder's. -/
def Ns.afterPreempt (x : Ns) (h p : Nat) : Ns :=
  if x.rholder.bind x.keyOf = some p then { x.without (x.preempted h p) with rholder := some h } else x.without (x.preempted h p)

/-- The state in which namespace `n` is `y` and the preempted hosts are told; with action 2 their commands that have not started end. -/
def State.preempt (s : State) (n act : Nat) (y : Ns) (hits : List Nat) : State :=
  if act = 2 then ((s.setResv n y).resvNotify n 1 hits).preemptAbort n hits else (s.setResv n y).resvNotify n 1 hits

/-- The type and the action of an Acquire lie in their ranges. -/
theorem acquireFields_ok {ty act : Nat} (h0 : ty ≠ 0) (h6 : ty ≤ 6) (h2 : act ≤ 2) : ¬ (ty = 0 || 6 < ty || 2 < act) = true := by
  simp only [Bool.or_eq_true, decide_eq_true_eq]
  omega

section Acquire
variable {p : Nat} (hc : s.ready t false 0x11 = some c) (hx : s.ns c.entry.nsid = x)
  (hh : (s.ctrl ((s.conn c.conn).ctrl.getD 0)).hostId = h) (hty : c.entry.cdw10 / 256 % 256 ≠ 0) (hmax : c.entry.cdw10 / 256 % 256 ≤ 6)
include hc hx hh hty hmax

theorem exec_reservationAcquire_unregistered (ha : c.entry.cdw10 % 8 ≤ 2) (hk : x.keyOf h ≠ some k) :
    exec (.reservationAcquire t k p) s = .next (s.finish t 0 0x83 true) := by
  subst hx hh
  change execReservationAcquire t k p s = _
  simp only [execReservationAcquire, hc]
  rw [if_neg (acquireFields_ok hty hmax ha), if_pos hk]

variable (hk : x.keyOf h = some k)
include hk

theorem exec_reservationAcquire_acquire (ha : c.entry.cdw10 % 8 = 0) :
    exec (.reservationAcquire t k p) s = .next (if x.rtype = 0 then (s.setResv c.entry.nsid
        { x with rtype := c.entry.cdw10 / 256 % 256, rholder := if 5 ≤ c.entry.cdw10 / 256 % 256 then none else some h }).success t
      else if x.holds h && x.rtype = c.entry.cdw10 / 256 % 256 then s.success t else s.finish t 0 0x83 true) := by
  subst hx hh
  change execReservationAcquire t k p s = _
  simp only [execReservationAcquire, hc]
  rw [if_neg (acquireFields_ok hty hmax (by omega)), if_neg (not_not.mpr hk), if_pos ha]

/-! A preempt where a reservation of types 1 to 4 stands: its holder alone has its key. -/

section Preempt
variable (ha : c.entry.cdw10 % 8 ≠ 0) (ha2 : c.entry.cdw10 % 8 ≤ 2) (h0 : x.rtype ≠ 0) (h5 : x.rtype < 5)
include ha ha2 h0 h5

/-- A key of no one conflicts; else the registrants with the key go, and the reservation where its type stays and the key is its holder's. -/
theorem exec_reservationAcquire_preempt (hsame : x.rholder.bind x.keyOf = some p → x.rtype = c.entry.cdw10 / 256 % 256) :
    exec (.reservationAcquire t k p) s = .next (if x.preempted h p = [] ∧ x.rholder.bind x.keyOf ≠ some p then s.finish t 0 0x83 true
      else (s.preempt c.entry.nsid (c.entry.cdw10 % 8) (x.afterPreempt h p) (x.preempted h p)).success t) := by
  subst hx hh
  change execReservationAcquire t k p s = _
  simp only [execReservationAcquire, hc]
  rw [if_neg (acquireFields_ok hty hmax ha2), if_neg (not_not.mpr hk), if_neg ha]
  by_cases hp : (s.ns c.entry.nsid).rholder.bind (s.ns c.entry.nsid).keyOf = some p
  · simp only [h0, Nat.not_le.mpr h5, if_false, decide_false, Bool.false_and, Bool.or_false, hp, ← hsame hp, decide_true, Bool.true_or,
      if_true, Bool.not_true, Bool.and_false, Bool.false_eq_true, ne_eq, not_true, and_false, Ns.afterPreempt]
    rfl
  · simp only [h0, Nat.not_le.mpr h5, if_false, decide_false, Bool.false_and, Bool.or_false, hp, Bool.not_false, Bool.and_true,
      decide_eq_true_eq, Bool.and_false, Bool.false_eq_true, ne_eq, not_false_eq_true, and_true, Ns.afterPreempt]
    rfl

theorem exec_reservationAcquire_conflicts (hp : x.rholder.bind x.keyOf ≠ some p) (hhits : x.preempted h p = []) :
    exec (.reservationAcquire t k p) s = .next (s.finish t 0 0x83 true) := by
  rw [exec_reservationAcquire_preempt hc hx hh hty hmax hk ha ha2 h0 h5 (absurd · hp), if_pos ⟨hhits, hp⟩]

theorem exec_reservationAcquire_evicts {hits : List Nat} (hp : x.rholder.bind x.keyOf ≠ some p) (hhits : x.preempted h p = hits)
    (hne : hits ≠ []) :
    exec (.reservationAcquire t k p) s = .next ((s.preempt c.entry.nsid (c.entry.cdw10 % 8) (x.without hits) hits).success t) := by
  subst hhits
  rw [exec_reservationAcquire_preempt hc hx hh hty hmax hk ha ha2 h0 h5 (absurd · hp), if_neg fun hc => hne hc.1, Ns.afterPreempt, if_neg hp]

/-- The reservation goes, with its type, from the holder whose key is given to the host that preempts. -/
theorem exec_reservationAcquire_takes {hits : List Nat} (hp : x.rholder.bind x.keyOf = some p) (hhits : x.preempted h p = hits)
    (hsame : x.rtype = c.entry.cdw10 / 256 % 256) :
    exec (.reservationAcquire t k p) s =
      .next ((s.preempt c.entry.nsid (c.entry.cdw10 % 8) { x.without hits with rholder := some h } hits).success t) := by
  subst hhits
  rw [exec_reservationAcquire_preempt hc hx hh hty hmax hk ha ha2 h0 h5 fun _ => hsame, if_neg fun hc => hc.2 hp, Ns.afterPreempt,
    if_pos hp]

end Preempt
end Acquire

/-! ### Release -/

section Release
variable (hc : s.ready t false 0x15 = some c) (hx : s.ns c.entry.nsid = x) (hh : (s.ctrl ((s.conn c.conn).ctrl.getD 0)).hostId = h)
include hc hx hh

theorem exec_reservationRelease_unregistered (hk : x.keyOf h ≠ some k) :
    exec (.reservationRelease t k) s = .next (s.finish t 0 0x83 true) := by
  subst hx hh
  change execReservationRelease t k s = _
  simp only [execReservationRelease, hc]
  rw [if_pos hk]

variable (hk : x.keyOf h = some k)
include hk

theorem exec_reservationRelease_clears (ha : c.entry.cdw10 % 8 = 1) : exec (.reservationRelease t k) s =
    .next (((s.setResv c.entry.nsid { x with regs := [], rtype := 0, rholder := none, rgen := x.rgen + 1 }).resvNotify c.entry.nsid 3
      ((x.regs.map Prod.fst).filter fun g => g ≠ h)).success t) := by
  subst hx hh
  change execReservationRelease t k s = _
  simp only [execReservationRelease, hc, ha]
  rw [if_neg (not_not.mpr hk)]

variable (ha : c.entry.cdw10 % 8 = 0)
include ha

theorem exec_reservationRelease_releases : exec (.reservationRelease t k) s =
    .next (if !x.holds h then s.success t
      else if x.rtype ≠ c.entry.cdw10 / 256 % 256 then s.finish t 0 2 true
      else (if 3 ≤ c.entry.cdw10 / 256 % 256 then (s.setResv c.entry.nsid { x with rtype := 0, rholder := none }).resvNotify
          c.entry.nsid 2 ((x.regs.map Prod.fst).filter fun g => g ≠ h)
        else s.setResv c.entry.nsid { x with rtype := 0, rholder := none }).success t) := by
  subst hx hh
  change execReservationRelease t k s = _
  simp only [execReservationRelease, hc, ha]
  rw [if_neg (not_not.mpr hk)]

theorem exec_reservationRelease_notHolder (hn : x.holds h = false) : exec (.reservationRelease t k) s = .next (s.success t) := by
  rw [exec_reservationRelease_releases hc hx hh hk ha, hn]
  rfl

variable (hn : x.holds h = true)
include hn

theorem exec_reservationRelease_otherType (hty : x.rtype ≠ c.entry.cdw10 / 256 % 256) :
    exec (.reservationRelease t k) s = .next (s.finish t 0 2 true) := by
  rw [exec_reservationRelease_releases hc hx hh hk ha, hn, if_neg (by decide), if_pos hty]

theorem exec_reservationRelease_ends (hty : x.rtype = c.entry.cdw10 / 256 % 256) : exec (.reservationRelease t k) s =
    .next ((if 3 ≤ x.rtype then (s.setResv c.entry.nsid { x with rtype := 0, rholder := none }).resvNotify c.entry.nsid 2
        ((x.regs.map Prod.fst).filter fun g => g ≠ h)
      else s.setResv c.entry.nsid { x with rtype := 0, rholder := none }).success t) := by
  rw [exec_reservationRelease_releases hc hx hh hk ha, hn, if_neg (by decide), if_neg (not_not.mpr hty), hty]

end Release
end Commands
/-- Settles O32: each clause is the case of its command that its hypotheses select. That register, preempt and release follow NVMe 2.0 and
that a report without extended data is refused are the model's reading (log entries 75, 76). -/
theorem reservationsAreKeptByKeyAndHolder : Obligations.ReservationsAreKeptByKeyAndHolder := by
  refine ⟨?register, ?unregister, ?replace, ?report, ?acquire, ?preempt, ?acquireOther, ?release, ?clear, ?releaseOther⟩
  case register =>
    rintro s t k1 k2 _ c _ ⟨hc, rfl, rfl, ha⟩
    refine ⟨fun hk hl => ?_, fun hk hl => ?_, fun k hk h => ?_, fun k hk hne hie => ?_⟩
    · rw [exec_reservationRegister_new hc rfl rfl ha hk, if_neg (Nat.not_le.mpr hl)]; rfl
    · rw [exec_reservationRegister_new hc rfl rfl ha hk, if_pos hl]
    · rw [exec_reservationRegister_again hc rfl rfl ha hk, if_pos (by simpa using h)]; rfl
    · rw [exec_reservationRegister_again hc rfl rfl ha hk, if_neg (by simp [hne, hie])]
  case unregister =>
    rintro s t k1 k2 _ c _ _ ⟨hc, rfl, rfl, ha, rfl⟩
    refine ⟨fun k hk h => ?_, fun h => ?_⟩
    · rw [exec_reservationRegister_unregister hc rfl rfl ha, hk, if_neg (by rcases h with h | h <;> simp [h])]
      simp only [Bool.and_eq_true, decide_eq_true_eq, and_assoc]
      rfl
    · rw [exec_reservationRegister_unregister hc rfl rfl ha, if_pos (by simpa [and_comm] using h)]
  case replace =>
    rintro s t k1 k2 _ c _ ⟨hc, rfl, rfl, ha⟩
    refine ⟨fun k hk h => ?_, fun hk hie hl => ?_, fun hk hie => ?_⟩
    · rw [exec_reservationRegister_replace hc rfl rfl ha, hk, if_neg (by rcases h with h | h <;> simp [h])]; rfl
    · rw [exec_reservationRegister_replace hc rfl rfl ha, hk, if_neg (by simp [hie]), if_pos Option.isNone_none, if_neg (Nat.not_le.mpr hl)]; rfl
    · rw [exec_reservationRegister_replace hc rfl rfl ha, if_pos (by simp [hk, hie])]
  case report =>
    intro s t c hc
    exact ⟨fun h => ⟨_, exec_reservationReport_answers hc h, s.resvReport_length _, s.resvReport_take _⟩,
      exec_reservationReport_refused hc⟩
  case acquire =>
    rintro s t k p _ c _ ⟨hc, rfl, rfl, ha, hty, hmax, hk⟩
    refine ⟨fun h0 => ?_, fun h0 hh hsame => ?_, fun h0 h => ?_⟩
    · rw [exec_reservationAcquire_acquire hc rfl rfl hty hmax hk ha, if_pos h0]
    · rw [exec_reservationAcquire_acquire hc rfl rfl hty hmax hk ha, if_neg h0, if_pos (by simp [hh, hsame])]
    · rw [exec_reservationAcquire_acquire hc rfl rfl hty hmax hk ha, if_neg h0, if_neg (by rcases h with h | h <;> simp [h])]
  case preempt =>
    rintro s t k p _ c _ hits ⟨hc, rfl, rfl, ha, ha2, hty, hmax, hk, h0, h5, hhits⟩
    exact ⟨fun hp hnil => exec_reservationAcquire_conflicts hc rfl rfl hty hmax hk ha ha2 h0 h5 hp (hhits.symm.trans hnil),
      fun hp hne => exec_reservationAcquire_evicts hc rfl rfl hty hmax hk ha ha2 h0 h5 hp hhits.symm hne,
      fun hp hsame => exec_reservationAcquire_takes hc rfl rfl hty hmax hk ha ha2 h0 h5 hp hhits.symm hsame⟩
  case acquireOther =>
    exact fun s t k p h c x ⟨hc, hx, hh, ha, hty, hmax, hk⟩ =>
      exec_reservationAcquire_unregistered hc hx.symm hh.symm hty hmax ha hk
  case release =>
    intro s t k h c x ⟨hc, hx, hh, ha, hk⟩
    exact ⟨exec_reservationRelease_notHolder hc hx.symm hh.symm hk ha, exec_reservationRelease_ends hc hx.symm hh.symm hk ha,
      exec_reservationRelease_otherType hc hx.symm hh.symm hk ha⟩
  case clear => exact fun s t k h c x ⟨hc, hx, hh, ha, hk⟩ => exec_reservationRelease_clears hc hx.symm hh.symm hk ha
  case releaseOther => exact fun s t k h c x ⟨hc, hx, hh, hk⟩ => exec_reservationRelease_unregistered hc hx.symm hh.symm hk

end Sys2Proof.Machine
end

section
/-! Proofs of the namespace commands and of SOLO activation of family 09 (R164, R166). -/
namespace Sys2Proof.Machine

/-! ### Create Namespace -/

/-- The fields of Create Namespace's payload lie in their ranges, its reserved ones are 0, and its volume holds its size. -/
def State.nsFieldsOk (u : State) (p : List Byte) : Prop :=
  leAt p 0 4 ≠ 0 ∧ leAt p 0 4 ≤ 16384 ∧ leAt p 6 2 ≤ 1023 ∧ leAt p 0x14 4 ≤ 1 ∧ leAt p 0x28 8 = 0 ∧
    (u.volume (leAt p 4 2)).used = true ∧ leAt p 8 8 ≠ 0 ∧ leAt p 8 8 ≤ (u.volume (leAt p 4 2)).extents * 4096

/-- The namespace that Create Namespace's payload describes, its key as generation 1. -/
def payloadNs (p : List Byte) : Ns :=
  { used := true, volume := leAt p 4 2, tenant := leAt p 6 2, nsze := leAt p 8 8, ptpl := leAt p 0x14 4 % 2 = 1,
    nguid := (p.drop 0x18).take 16, gens := [(1, leAt p 0x10 4 % 2 ^ 28)] }

theorem exec_createNamespace_creates {s u : State} {id : Nat} {c : Started}
    (h : s.Accepts id 0x0203 [(0, 40)] (· = 48) (fun _ => true) c u) (hp : u.nsFieldsOk c.payload)
    (hn : (u.ns (leAt c.payload 0 4)).used = false) (hv : u.nsOf (leAt c.payload 4 2) = none)
    (hk : u.keyFree (leAt c.payload 0x10 4) = true) :
    exec (.createNamespace id) s = .next ((((u.setNs (leAt c.payload 0 4) (payloadNs c.payload)).bindKey (leAt c.payload 0x10 4)
      (leAt c.payload 0 4) 1).nsChanged (leAt c.payload 0 4) []).holderDone c) := by
  obtain ⟨h0, hmax, hten, hflags, h28, hvol, hsize, hfits⟩ := hp
  refine congrArg _ ((State.runMgmt_accepted h _).trans ((if_neg ?fields).trans ((if_neg ?inUse).trans (if_neg ?keyTaken))))
  case fields => simp only [hvol, Bool.or_eq_true, decide_eq_true_eq, Bool.not_true, Bool.false_eq_true, or_false]; omega
  case inUse => simp [hn, hv]
  case keyTaken => simp [hk]

/-! ### Delete Namespace -/

section Delete
variable {s u : State} {id : Nat} {c : Started} (h : s.Accepts id 0x0204 [(0, 40)] (· = 8) (fun _ => true) c u)
  (h4 : leAt c.payload 4 4 = 0) {n : Nat} (hn : leAt c.payload 0 4 = n) (hx : u.nsExists n = true)
include h h4 hn hx

theorem exec_deleteNamespace_exists : exec (.deleteNamespace id) s = .next (if u.liveLocks n ≠ [] then u.complete c .retentionLocked
    else if (u.startDelete n).nsBusy n none then (u.startDelete n).hold c.id else ((u.startDelete n).removeNs n).holderDone c) := by
  subst hn
  exact congrArg _ ((State.runMgmt_accepted h _).trans (if_neg (by simp [h4, hx])))

theorem exec_deleteNamespace_locked (hl : u.liveLocks n ≠ []) :
    exec (.deleteNamespace id) s = .next (u.complete c .retentionLocked) := by
  rw [exec_deleteNamespace_exists h h4 hn hx, if_pos hl]

/-- A deletion waits for the commands that decoded before it (R166). -/
theorem exec_deleteNamespace_held (hl : u.liveLocks n = []) (hb : (u.startDelete n).nsBusy n none = true) :
    exec (.deleteNamespace id) s = .next ((u.startDelete n).hold c.id) := by
  rw [exec_deleteNamespace_exists h h4 hn hx, if_neg (not_not.mpr hl), if_pos hb]

theorem exec_deleteNamespace_removes (hl : u.liveLocks n = []) (hb : (u.startDelete n).nsBusy n none = false) :
    exec (.deleteNamespace id) s = .next (((u.startDelete n).removeNs n).holderDone c) := by
  rw [exec_deleteNamespace_exists h h4 hn hx, if_neg (not_not.mpr hl), if_neg (by simp [hb])]

end Delete

/-! ### SOLO activation -/

section Activation
variable {s : State} {n : Nat}

theorem exec_activationQuiesced_runs (h : s.cmdb.act = .quiescing n) (hq : s.quiesced = true) :
    exec .activationQuiesced s = .next { s with cmdb.act := .running s.now } := by
  change execActivationQuiesced s = _
  simp only [execActivationQuiesced, h, hq, if_true]

theorem exec_activationAbandon_abandons (h : s.cmdb.act = .quiescing n) : exec .activationAbandon s =
    .next (((({ s with cmdb.act := .none } : State).reach (n + 10000000)).raise Ev.CMD_ACT_ABANDONED).completeWaiting 0x0901
      (fun _ => true) .busy) := by
  change execActivationAbandon s = _
  simp only [execActivationAbandon, h]

theorem exec_activationResume_resumes (h : s.cmdb.act = .running n) {u : State}
    (hu : u = (({ s with cmdb.act := .none } : State).runImage).completeWaiting 0x0901 (fun _ => true) .success) :
    exec .activationResume s =
      .next ((u.xpt.conns.map Prod.fst).foldl (fun s n => if (s.conn n).st = .ready then s.fetchSq n 64 else s) u) := by
  subst hu
  change execActivationResume s = _
  simp only [execActivationResume, h]

end Activation

/-- Settles O33: each clause is the case of its command, or of the activation's phase, that its hypotheses select. -/
theorem namespacesAreCreatedDeletedAndActivationQuiesces : Obligations.NamespacesAreCreatedDeletedAndActivationQuiesces := by
  refine ⟨?create, ?delete, ?quiesced, ?abandon, ?resume⟩
  case create =>
    exact fun s u id c ⟨h, h0, hmax, hten, hflags, h28, hvol, hsize, hfits, hn, hv, hk⟩ =>
      exec_createNamespace_creates h ⟨h0, hmax, hten, hflags, h28, hvol, hsize, hfits⟩ hn hv hk
  case delete =>
    intro s u id c ⟨h, h4, hx⟩
    exact ⟨exec_deleteNamespace_locked h h4 rfl hx, exec_deleteNamespace_held h h4 rfl hx, exec_deleteNamespace_removes h h4 rfl hx⟩
  case quiesced => exact fun s n ⟨h, hq⟩ => exec_activationQuiesced_runs h hq
  case abandon => exact fun s n h => exec_activationAbandon_abandons h
  case resume => exact fun s n h => ⟨_, rfl, exec_activationResume_resumes h rfl⟩

end Sys2Proof.Machine
end

section
/-! Proofs of BUILD and the volume commands of family 10 (R166, R171, R172, R177, R178). -/
namespace Sys2Proof.Machine

/-! ### BUILD -/

section Build
variable {s : State}

theorem exec_layoutBuild_builds {v : Word} (hv : getBits v 0 0 = 1) (ha : s.acceptsHolder true = true) (hn : s.anyVolume = false)
    (hg : s.geoN ≠ 0) : exec (.layoutBuild v) s = .next s.buildLayout :=
  congrArg _ (if_pos (by simp [hv, ha, hn, hg]))

theorem exec_layoutBuild_none {v : Word} (h : s.anyVolume = true ∨ getBits v 0 0 = 0) : exec (.layoutBuild v) s = .next s :=
  congrArg _ (if_neg (by rcases h with h | h <;> simp [h]))

@[simp] theorem State.tellLayout_lay (s : State) (seed : Nat) : (s.tellLayout seed).lay = s.lay := by
  unfold State.tellLayout
  split
  · simp
  · rfl

theorem State.layoutSeed_stored (h : (s.rg Reg.LAY_SEED_SEED.addr).toNat ≠ 0) : s.layoutSeed =
    ((s.rg Reg.LAY_SEED_SEED.addr).toNat, s.setRg Reg.LAY_SEED_SEED.addr (BitVec.ofNat 32 (s.rg Reg.LAY_SEED_SEED.addr).toNat)) :=
  if_neg h

/-- The width of a row stands in LAY_GEOM, which a seed leaves. -/
theorem State.setRg_seed_geoW (s : State) (w : Word) : (s.setRg Reg.LAY_SEED_SEED.addr w).geoW = s.geoW := by
  simp only [State.geoW, State.geoK, State.geoM, State.fld]
  rw [State.setRg_rg_other _ _ _ _ (by decide), State.setRg_rg_other _ _ _ _ (by decide)]

/-- A layout is built of its rows, with no slot in use and the volumes that were. -/
theorem State.layoutOf_table (s : State) (n : Nat) (r : Assoc LRow × Assoc Nat) : (s.layoutOf n r).built = true ∧
    (s.layoutOf n r).slots = [] ∧ (s.layoutOf n r).volumes = s.lay.volumes ∧ (s.layoutOf n r).rows = r.1 := ⟨rfl, rfl, rfl, rfl⟩

/-- The superblocks and the peer are told of a layout; neither changes it. -/
theorem State.buildLayout_lay (s : State) : s.buildLayout.lay =
    s.layoutSeed.2.layoutOf s.geoN (buildRows s.layoutSeed.1 s.geoN s.layoutSeed.2.geoW 4096 0 [] []) := by
  rw [State.buildLayout, State.tellLayout_lay, State.foldl_keeps State.lay (fun s d => s.emit (.superblock d s.lay.sbSeq s.tim.floor)) fun _ _ => rfl]

theorem State.buildLayout_stored (h : (s.rg Reg.LAY_SEED_SEED.addr).toNat ≠ 0) : ∃ u : State, u.lay = s.lay ∧ s.buildLayout.lay =
    u.layoutOf s.geoN (buildRows (s.rg Reg.LAY_SEED_SEED.addr).toNat s.geoN s.geoW 4096 0 [] []) := by
  refine ⟨s.layoutSeed.2, ?_, ?_⟩
  · rw [State.layoutSeed_stored h, State.setRg_lay]
  · rw [State.buildLayout_lay, State.layoutSeed_stored h, State.setRg_seed_geoW]

end Build

/-! ### Create Volume -/

section Create
variable {s : State} {id : Nat} {c : Started} {v n : Nat} (h : s.AcceptsPlain id 0x0200 [(3, 1), (8, 32)] c) (hv : c.desc.par 0 2 = v)
  (hn : c.desc.par 4 4 = n) (hmax : v ≤ 16383) (hk : c.desc.par 2 1 ≤ 1) (h0 : n ≠ 0) (hcap : n ≤ 536870912)
  (hu : (s.volume v).used = false) (hb : s.lay.built = true)
include h hv hn hmax hk h0 hcap hu hb

/-- Without enough free segments, or for a thick volume free slots, nothing is created. -/
theorem exec_createVolume_free {u : State}
    (hx : u = (s.setVolume v { used := true, extents := n, segs := s.freeSegs.take (segsFor n) }).persist (.volume v)) :
    exec (.createVolume id) s = .next (if s.freeSegs.length < segsFor n ∨ (c.desc.par 2 1 = 1 ∧ s.slotsFree < n) then
        s.complete c .limitExceeded
      else if c.desc.par 2 1 = 1 then ((List.range n).foldl (fun s e => (s.allocExtent v e).1) u).holderDone c
        (((List.range n).foldl (fun s e => (s.allocExtent v e).1) u).allocated v)
      else u.holderDone c (u.allocated v)) := by
  subst hv hn hx
  refine congrArg _ ((State.runPlain_accepted h _).trans ((if_neg ?fields).trans ((if_neg ?inUse).trans ?_)))
  case fields => simp only [Bool.or_eq_true, decide_eq_true_eq]; omega
  case inUse => simp [hu, hb]
  by_cases hthick : c.desc.par 2 1 = 1 <;> simp [hthick]

end Create

/-! ### Resize Volume -/

/-- The state in which the extents of volume `v` past `n` are free. -/
def State.freedPast (s : State) (v n : Nat) : State :=
  (((s.volume v).map.map Prod.fst).filter fun e => decide (n ≤ e)).foldl (fun s e => s.freeExtent v e) s

/-- The state in which volume `v` has `n` extents, those past them freed. -/
def State.shrunk (s : State) (v n : Nat) : State :=
  ((s.freedPast v n).setVolume v { (s.freedPast v n).volume v with
    extents := n, segs := ((s.freedPast v n).volume v).segs.take (segsFor n) }).persist (.volume v)

section Resize
variable {s : State} {id : Nat} {c : Started} {v n : Nat} (h : s.AcceptsPlain id 0x0201 [(3, 1), (8, 32)] c) (hv : c.desc.par 0 2 = v)
  (hn : c.desc.par 4 4 = n) (hmax : v ≤ 16383) (hk : c.desc.par 2 1 = 0) (h0 : n ≠ 0) (hcap : n ≤ 536870912)
include h hv hn hmax hk h0 hcap

variable {x : Volume} (hx : s.volume v = x) (hu : x.used = true)
include hx hu

/-- The segments that a volume needs for its new size and does not have are added, lowest first. -/
theorem exec_resizeVolume_grows (hle : x.extents ≤ n) (hs : segsFor n - x.segs.length ≤ s.freeSegs.length) {u : State}
    (hw : u = (s.setVolume v { x with extents := n, segs := x.segs ++ s.freeSegs.take (segsFor n - x.segs.length) }).persist (.volume v)) :
    exec (.resizeVolume id) s = .next (u.holderDone c (u.allocated v)) := by
  subst hv hn hx hw
  refine congrArg _ ((State.runPlain_accepted h _).trans ((if_neg ?fields).trans ((if_pos hle).trans (if_neg (Nat.not_lt.mpr hs)))))
  case fields => simp only [hu, Bool.or_eq_true, decide_eq_true_eq, Bool.not_true, Bool.false_eq_true, or_false]; omega

variable (hlt : n < x.extents)
include hlt

theorem exec_resizeVolume_shrinks : exec (.resizeVolume id) s =
    .next (if n * 4096 < ((s.nsOf v).map fun k => (s.ns k).nsze).getD 0 then s.complete c .configConflict
      else if ((s.nsOf v).map fun k => s.locked k (n * 4096) ((x.extents - n) * 4096)).getD false then s.complete c .retentionLocked
      else (s.shrunk v n).holderDone c ((s.shrunk v n).allocated v)) := by
  subst hv hn hx
  refine congrArg _ ((State.runPlain_accepted h _).trans ((if_neg ?fields).trans (if_neg (Nat.not_le.mpr hlt))))
  case fields => simp only [hu, Bool.or_eq_true, decide_eq_true_eq, Bool.not_true, Bool.false_eq_true, or_false]; omega

end Resize

/-! ### Delete Volume -/

section Delete
variable {s u : State} {id : Nat} {c : Started} (h : s.Accepts id 0x0202 [(0, 40)] (· = 8) (fun _ => true) c u) {v : Nat}
  (hv : leAt c.payload 0 2 = v) (hz : zeroAt c.payload 2 6 = true) (hu : (u.volume v).used = true)
include h hv hz hu

theorem exec_deleteVolume_unused (hn : u.nsOf v = none) :
    exec (.deleteVolume id) s = .next ((u.removeVolume v).holderDone c 0) := by
  subst hv
  refine congrArg _ ((State.runMgmt_accepted h _).trans ((if_neg (by simp [hz, hu])).trans ?_))
  rw [hn]

variable {n : Nat} (hn : u.nsOf v = some n)
include hn

/-- The volume's namespace goes first, with the refusals of Delete Namespace (R166). -/
theorem exec_deleteVolume_used : exec (.deleteVolume id) s = .next (if u.liveLocks n ≠ [] then u.complete c .retentionLocked
    else if (u.startDelete n).nsBusy n none then (u.startDelete n).hold c.id
    else (((u.startDelete n).removeNs n).removeVolume v).holderDone c 0) := by
  subst hv
  refine congrArg _ ((State.runMgmt_accepted h _).trans ((if_neg (by simp [hz, hu])).trans ?_))
  rw [hn]

end Delete

/-- Settles O34: each clause is the case of its command that its hypotheses select; a layout's rows are read after the superblocks and the
peer were told of it. -/
theorem layoutIsBuiltAndVolumesAreKept : Obligations.LayoutIsBuiltAndVolumesAreKept := by
  refine ⟨?build, ?layout, ?noBuild, ?create, ?grow, ?shrink, ?tooSmall, ?delete, ?deleteUsed⟩
  case build => exact fun s v ⟨hv, ha, hn, hg⟩ => exec_layoutBuild_builds hv ha hn hg
  case layout =>
    intro s h
    obtain ⟨u, hu, hlay⟩ := s.buildLayout_stored h
    rw [hlay, ← hu]
    exact u.layoutOf_table _ _
  case noBuild => exact fun s v h => exec_layoutBuild_none h
  case create =>
    intro s id c u ⟨h, hmax, hk, h0, hcap, hu, hb, hx⟩
    rw [exec_createVolume_free h rfl rfl hmax hk h0 hcap hu hb hx]
    refine ⟨fun hs hthin => ?_, fun hs hthick hf => ?_, fun hl => ?_⟩
    · rw [if_neg (by omega), if_neg (by omega)]
    · rw [if_neg (by omega), if_pos hthick]
    · rw [if_pos hl]
  case grow =>
    exact fun s id c ⟨h, hmax, hk, h0, hcap, hu, hle, hs⟩ => ⟨_, rfl, exec_resizeVolume_grows h rfl rfl hmax hk h0 hcap rfl hu hle hs rfl⟩
  case shrink =>
    rintro s id c _ _ ⟨h, hmax, hk, h0, rfl, hlt, hcap, hu, hsize, rfl⟩
    rw [exec_resizeVolume_shrinks h rfl rfl hmax hk h0 hcap rfl hu hlt, if_neg (Nat.not_lt.mpr hsize)]
    exact ⟨fun hl => by rw [if_pos hl], fun hl => ⟨_, _, rfl, rfl, by rw [if_neg (by simp [hl])]; rfl⟩⟩
  case tooSmall =>
    intro s id n c ⟨h, hmax, hk, h0, hlt, hcap, hu, hn, hsize⟩
    rw [exec_resizeVolume_shrinks h rfl rfl hmax hk h0 hcap rfl hu hlt, hn]
    exact congrArg _ (if_pos hsize)
  case delete => exact fun s u id c ⟨h, hz, hu, hn⟩ => exec_deleteVolume_unused h rfl hz hu hn
  case deleteUsed =>
    intro s u id n c ⟨h, hz, hu, hn⟩
    rw [exec_deleteVolume_used h rfl hz hu hn]
    exact ⟨fun hl => by rw [if_pos hl], fun hl hb => by rw [if_neg (not_not.mpr hl), if_pos hb],
      fun hl hb => by rw [if_neg (not_not.mpr hl), if_neg (by simp [hb])]⟩

end Sys2Proof.Machine
end

section
/-! Proofs of destage of family 10 (R180 to R184, R188): the steps of a stripe write, the writing of journal pages and the map generation. -/
namespace Sys2Proof.Machine

/-! ### The start of a stripe write -/

/-- Destage of a stripe may start: what DESTAGE_STRIPE_START asks of it before it looks at the ring (R180, R184, R206). -/
def State.MayStart (s : State) (v e x : Nat) : Prop :=
  s.hrn.holder = true ∧ s.lay.built = true ∧ s.mayDestage v e x = true ∧ (s.mapEnt v e).alloc = true ∧ s.sbg.replaying = false ∧
    (s.reb.suspect.contains (v, e) && !s.reb.suspectDone.contains (v, e, x)) = false ∧
    (s.dirtyOf v e x ≠ [] ∨ s.redoing v e x = true) ∧ s.extentBusy v e = false ∧
    (s.sbg.stripes.any fun j => j.volume = v && j.extent = e && j.stripe = x) = false

section Start
variable {s : State} {v e x : Nat} {rs : List (Nat × Nat × List Byte)}

/-- With a full ring the event is raised once; else the stripe is destaged. -/
theorem exec_destageStripeStart_starts (h : s.MayStart v e x) : exec (.destageStripeStart v e x rs) s =
    .next (if 1048576 ≤ s.sbg.stripes.length then
        if s.sbg.full then s else ({ s with sbg.full := true } : State).raise Ev.SBG_RING_FULL
      else s.destage v e x rs) := by
  obtain ⟨hh, hb, hm, ha, hr, hs, hd, he, ho⟩ := h
  have hd' : (!(s.dirtyOf v e x).isEmpty || s.redoing v e x) = true := by simpa using hd
  exact congrArg _ (if_pos (by simp only [hh, hb, hm, ha, hr, hs, hd', he, ho, Bool.not_false, Bool.and_self]))

theorem exec_destageStripeStart_none (h : (s.sbg.stripes.any fun j => j.volume = v && j.extent = e && j.stripe = x) = true ∨
    s.mayDestage v e x = false) : exec (.destageStripeStart v e x rs) s = .next s :=
  congrArg _ (if_neg (by rcases h with h | h <;> simp only [h, Bool.not_true, Bool.and_false, Bool.false_and, Bool.false_eq_true, not_false_eq_true]))

end Start

/-! ### The steps of an open record (R181) -/

section Record
variable {s : State} {n : Nat} {j : Stripe} (hj : s.stripeAt n = some j)
include hj

theorem exec_recordOpen_found : exec (.recordOpen n) s =
    .next (if j.phase = .building && j.acked && j.persisted then s.issueStripe n j.dataW .data else s) := by
  change execRecordOpen n s = _
  rw [execRecordOpen, hj]

theorem exec_stripeDataLanded_found : exec (.stripeDataLanded n) s =
    .next (if j.phase = .data && j.left = 0 then s.issueStripe n j.parityW .parity else s) := by
  change execStripeDataLanded n s = _
  rw [execStripeDataLanded, hj]

theorem exec_stripeParityLanded_unfinished (h : j.phase ≠ .parity ∨ j.left ≠ 0) : exec (.stripeParityLanded n) s = .next s := by
  change execStripeParityLanded n s = _
  rw [execStripeParityLanded, hj]
  refine congrArg _ (if_neg ?_)
  rcases h with h | h <;> simp [h]

/-- With no extent being rebuilt every record whose parity has landed clears. -/
theorem exec_stripeParityLanded_idle (hc : s.reb.current = none) : exec (.stripeParityLanded n) s =
    .next (if j.phase = .parity && j.left = 0 then s.clearStripe j else s) := by
  change execStripeParityLanded n s = _
  rw [execStripeParityLanded, hj, hc]
  simp only [Bool.not_false, Bool.and_true]

/-- The last record of the extent `r` that is being rebuilt stays (R197). -/
theorem exec_stripeParityLanded_rebuilding {r : RbExtent} (hc : s.reb.current = some r) : exec (.stripeParityLanded n) s =
    .next (if j.phase = .parity && j.left = 0 && !(j.kind = 1 && j.volume = r.volume && j.extent = r.extent &&
        !(s.sbg.stripes.any fun x => x.slot ≠ j.slot && x.kind = 1 && x.volume = r.volume && x.extent = r.extent)) then
      s.clearStripe j else s) := by
  change execStripeParityLanded n s = _
  rw [execStripeParityLanded, hj, hc]

theorem exec_stripeParityLanded_clears (hp : j.phase = .parity) (hl : j.left = 0) (h : j.kind ≠ 1 ∨ s.reb.current = none ∨
    (s.sbg.stripes.any fun x => x.slot ≠ j.slot && x.kind = 1 && x.volume = j.volume && x.extent = j.extent) = true) :
    exec (.stripeParityLanded n) s = .next (s.clearStripe j) := by
  cases hc : s.reb.current with
  | none => rw [exec_stripeParityLanded_idle hj hc, if_pos (by simp [hp, hl])]
  | some r =>
    rw [exec_stripeParityLanded_rebuilding hj hc, if_pos]
    by_cases hr : j.kind = 1 ∧ j.volume = r.volume ∧ j.extent = r.extent
    · obtain ⟨hk, hv, he⟩ := hr
      rw [hv, he] at h
      have hmore := (h.resolve_left (not_not.mpr hk)).resolve_left (by simp [hc])
      simp only [hp, hl, hmore, decide_true, Bool.not_true, Bool.and_false, Bool.not_false, Bool.and_self]
    · simp only [hp, hl, decide_true, Bool.true_and, Bool.not_eq_true', Bool.and_eq_false_iff, decide_eq_false_iff_not]
      tauto

theorem exec_stripeParityLanded_last {r : RbExtent} (hk : j.kind = 1) (hc : s.reb.current = some r) (hv : j.volume = r.volume)
    (he : j.extent = r.extent)
    (hlast : (s.sbg.stripes.any fun x => x.slot ≠ j.slot && x.kind = 1 && x.volume = r.volume && x.extent = r.extent) = false) :
    exec (.stripeParityLanded n) s = .next s := by
  rw [exec_stripeParityLanded_rebuilding hj hc, hlast]
  exact congrArg _ (if_neg (by simp [hk, hv, he]))

end Record

/-! ### Journal pages (R183, R287) -/

section Page
variable {s : State} {p : Fin 16384} {t : Nat} (ht : (s.sbg.dirtyPages.find? fun e => e.1 = p.val).map Prod.snd = some t)
  (hh : s.hrn.holder = true)
include ht hh

/-- A changed page is written once shelf time has reached GATHER after its first change. -/
theorem exec_journalPageWrite_due : exec (.journalPageWrite p) s = .next ((s.reach (t + s.gather)).writePage p) := by
  change execJournalPageWrite p s = _
  simp only [execJournalPageWrite, ht, hh, State.when_true]

end Page

section Copies
variable {s u : State} {p k : Nat} {ds : List Nat} (hds : s.segCurrent (p / 256) = ds)
include hds

/-- Without counters for the seals the page stays to be written. -/
theorem State.writePage_uncounted (hk : s.takeCtrs ds.length = (u, none)) : s.writePage p = u := by
  subst hds
  simp only [State.writePage, State.writeJournal, State.writeCopies, List.length_map, hk]

/-- Each copy takes a counter of its own, and two copies make the page's records persisted. -/
theorem State.writePage_sealed (hk : s.takeCtrs ds.length = (u, some k)) {w : State}
    (hw : w = ((ds.map fun d => (d, 256 + p)).zip (List.range ds.length)).foldl
      (fun t d => t.emit (.journalPage d.1.1 d.1.2 (s.sealMeta d.1.1 d.1.2 (k + d.2) (s.journalBytes p)) s.tim.floor)) u) :
    s.writePage p = { w with sbg := { w.sbg with
      dirtyPages := w.sbg.dirtyPages.del p
      stripes := if ds.length < 2 then w.sbg.stripes
        else w.sbg.stripes.map fun j => if pageOf j.slot = p then { j with persisted := true } else j } } := by
  subst hds hw
  simp only [State.writePage, State.writeJournal, State.writeCopies, List.length_map, hk]
  split <;> rfl

end Copies

/-- Settles O35: each clause is the case of its row that its hypotheses select. In a journal page a slot with no open record reads as free by
the model's choice (log entry 128). -/
theorem stripeWritesFollowTheJournalOrder : Obligations.StripeWritesFollowTheJournalOrder := by
  refine ⟨?start, ?noStart, ?opens, ?shut, ?data, ?clears, ?last, ?unfinished, ?page, ?pageWaits, ?mapGen⟩
  case start =>
    intro s v e x rs h
    rw [exec_destageStripeStart_starts h]
    refine ⟨fun hl => ?_, fun hl hf => ?_, fun hl hf => ?_⟩
    · rw [if_neg (Nat.not_le.mpr hl)]
    · simp [hl, hf]
    · simp [hl, hf]
  case noStart => exact fun s v e x rs h => exec_destageStripeStart_none h
  case opens =>
    intro s n j ⟨hj, hp, ha, hd⟩
    rw [exec_recordOpen_found hj, if_pos (by simp [hp, ha, hd])]
  case shut =>
    intro s n j ⟨hj, h⟩
    rw [exec_recordOpen_found hj, if_neg (by rcases h with h | h <;> simp [h])]
  case data =>
    intro s n j hj
    rw [exec_stripeDataLanded_found hj]
    exact ⟨fun hp hl => by rw [if_pos (by simp [hp, hl])], fun hl => by rw [if_neg (by simp [hl])]⟩
  case clears => exact fun s n j ⟨hj, hp, hl, h⟩ => exec_stripeParityLanded_clears hj hp hl h
  case last => exact fun s n j r ⟨hj, hk, hc, hv, he, hlast⟩ => exec_stripeParityLanded_last hj hk hc hv he hlast
  case unfinished => exact fun s n j ⟨hj, h⟩ => exec_stripeParityLanded_unfinished hj h
  case page =>
    rintro s u v w p t k ds ⟨ht, hh, rfl, hds, hk, hw⟩
    rw [exec_journalPageWrite_due ht hh, State.writePage_sealed hds.symm hk hw]
  case pageWaits =>
    rintro s u v p t ⟨ht, hh, rfl, hk⟩
    rw [exec_journalPageWrite_due ht hh, State.writePage_uncounted rfl hk]
  case mapGen => exact fun s => ⟨_, rfl, by rw [State.nextMapGen, State.reach_lay], rfl⟩

end Sys2Proof.Machine
end

section
/-! Proofs of the CIPHER and EC calls of family 10, and of the encryption of a write and the decryption of a read (R179, R274 to R283). -/
namespace Sys2Proof.Machine

/-- A CIPHER call of the engine's operation ends with the outcome of its body. -/
theorem State.cipherCall_answers {s t : State} {op st r : Nat} {c : Call} {body : Call → State → Option (Nat × Nat × State)}
    (hc : s.nextCall 2 = some c) (ho : c.arg 8 1 = op) (hb : body c s = some (st, r, t)) : s.cipherCall op body = t.answer c st r := by
  rw [State.cipherCall, hc]
  simp only [ho, if_true, hb]

/-! ### At-rest encryption calls (R275, R277) -/

/-- The purpose that a call's nonces carry: 2 for the journal key, 1 for a data key (R273). -/
def Call.purpose (c : Call) : Nat := if c.arg 0x0C 4 / 2 ^ 28 = 3 then 2 else 1

/-- The state in which the blocks at `a` that a call names stand sealed at `b`, from nonce counter `k` on. -/
def State.sealedBy (s : State) (c : Call) (g : Nat) (key : List Byte) (pre k a b : Nat) : State :=
  { s with mem := writeMem s.mem b (sealRun key g pre (c.arg 0x20 4) (c.arg 0x24 4) (c.arg 0x0A 2) k (c.arg 0x28 8)
    (s.bytes a (c.arg 0x0A 2 * 4096))).flatten }

section Encrypt
variable {s : State} {m : List Bool} {c : Call} (hc : s.nextCall 2 = some c) (ho : c.arg 8 1 = 0)
include hc ho

theorem exec_atRestEncrypt_badDesc (h : s.handleKey (c.arg 0x0C 4) = none ∨ c.atRestOk = false) :
    exec (.atRestEncrypt .call m) s = .next (s.answer c 2 0) := by
  refine congrArg _ (State.cipherCall_answers hc ho ?_)
  cases hk : s.handleKey (c.arg 0x0C 4) with
  | none => rfl
  | some k => simp [h.resolve_left (by simp [hk])]

variable (hok : c.atRestOk = true) {g : Nat} {key : List Byte} (hk : s.handleKey (c.arg 0x0C 4) = some (g, key))
include hok hk

theorem exec_atRestEncrypt_addrFault (h9 : c.arg 0x09 1 = 0) (h30 : c.arg 0x30 8 = 0)
    (h : s.access c (c.arg 0x10 8) (c.arg 0x0A 2 * 4096) false = none ∨ s.access c (c.arg 0x18 8) (c.arg 0x0A 2 * 4160) true = none) :
    exec (.atRestEncrypt .call m) s = .next (s.answer c 3 0) := by
  refine congrArg _ (State.cipherCall_answers hc ho ?_)
  rcases h with h | h <;> simp [hk, hok, h9, h30, h]

variable {a b : Nat} (ha : s.access c (c.arg 0x10 8) (c.arg 0x0A 2 * 4096) false = some a)
  (hb : s.access c (c.arg 0x18 8) (c.arg 0x0A 2 * 4160) true = some b)
include ha hb

/-- Without a nonce given the counters of the device are taken. -/
theorem exec_atRestEncrypt_counted (h9 : c.arg 0x09 1 = 0) (h30 : c.arg 0x30 8 = 0) {s1 s2 : State} {k : Nat}
    (hk1 : s.takeCtrs (c.arg 0x0A 2) = (s1, some k)) (hp : s1.runPipe false 0 m false = (s2, true)) :
    exec (.atRestEncrypt .call m) s = .next ((s2.sealedBy c g key (s2.prefixOf c.purpose) k a b).answer c 0 (k % 2 ^ 32)) := by
  refine congrArg _ (State.cipherCall_answers hc ho ?_)
  simp [hk, hok, h9, h30, ha, hb, hk1, hp, State.sealedBy, Call.purpose]

/-- On a follower a core in tier 0 may give the nonce, which carries the peer's tag (R275). -/
theorem exec_atRestEncrypt_given (h9 : c.arg 0x09 1 = 1) (ht : c.tier1 = false) (hf : s.follows = true) {s2 : State}
    (hp : s.runPipe false 0 m false = (s2, true)) : exec (.atRestEncrypt .call m) s =
      .next ((s2.sealedBy c g key (s2.hrn.peerTag * 256 + c.purpose) (c.arg 0x30 8) a b).answer c 0 (c.arg 0x30 8 % 2 ^ 32)) := by
  refine congrArg _ (State.cipherCall_answers hc ho ?_)
  simp [hk, hok, h9, ht, hf, ha, hb, hp, State.sealedBy, Call.purpose]

end Encrypt

/-! ### At-rest decryption and verification calls (R278) -/

/-- Where a call of operation `op` releases its blocks: a verification has no destination. -/
def State.releaseAt (s : State) (c : Call) (op : Nat) : Option Nat :=
  if op = 4 then some 0 else s.access c (c.arg 0x18 8) (c.arg 0x0A 2 * 4096) true

section Decrypt
variable {s : State} {op : Nat} {m : List Bool} {r : Bool} {c : Call} (hc : s.nextCall 2 = some c) (ho : c.arg 8 1 = op)
include hc ho

theorem State.decryptCall_badDesc (h : s.handleKey (c.arg 0x0C 4) = none ∨ c.atRestOk = false) :
    s.decryptCall op m r = s.answer c 2 0 := by
  refine State.cipherCall_answers hc ho (if_pos ?_)
  rcases h with h | h <;> simp [h]

variable (hk : (s.handleKey (c.arg 0x0C 4)).isSome = true) (hok : c.atRestOk = true) (h9 : c.arg 0x09 1 = 0) (h30 : c.arg 0x30 8 = 0)
  (h18 : op = 4 → c.arg 0x18 8 = 0)
include hk hok h9 h30 h18

theorem State.decryptCall_addrFault
    (h : s.access c (c.arg 0x10 8) (c.arg 0x0A 2 * 4160) false = none ∨ s.releaseAt c op = none) :
    s.decryptCall op m r = s.answer c 3 0 := by
  rw [State.releaseAt] at h
  refine State.cipherCall_answers hc ho ((if_neg ?_).trans ?_)
  · simpa [Option.isSome_iff_ne_none.mp hk, hok, h9, h30] using h18
  · rcases h with h | h
    · rw [h]
    · rw [h]
      split
      · contradiction
      · rfl

variable {a b : Nat} (ha : s.access c (c.arg 0x10 8) (c.arg 0x0A 2 * 4160) false = some a) (hb : s.releaseAt c op = some b)
include ha hb

/-- The blocks are opened in order; the outcome is SUCCESS, or INTEGRITY with the number released before the first that fails. -/
theorem State.decryptCall_opens {u : State} (hp : s.runPipe false op m r = (u, true)) {o : State × Nat × List Byte × Bool}
    (hrun : o = u.openRun (op = 1) (u.callGens c) (c.arg 0x20 4) (c.arg 0x24 4) (c.arg 0x0A 2) (c.arg 0x28 8)
      (u.bytes a (c.arg 0x0A 2 * 4160)) 0 []) :
    s.decryptCall op m r = (if op = 4 then o.1 else { o.1 with mem := writeMem o.1.mem b o.2.2.1 }).answer c
      (if o.2.2.2 then 0 else 6) (if o.2.2.2 ∨ op = 4 then 0 else o.2.1) := by
  rw [State.releaseAt] at hb
  refine State.cipherCall_answers hc ho ((if_neg ?_).trans ?_)
  · simpa [Option.isSome_iff_ne_none.mp hk, hok, h9, h30] using h18
  · simp only [ha, hb, hp, ← hrun, Bool.not_true, Bool.false_eq_true, if_false]
    cases o.2.2.2 <;> simp

end Decrypt

/-! ### Wire calls (R283) -/

/-- A wire call comes from tier 0 and sets none of the fields that it does not use. -/
structure Call.WireOk (c : Call) : Prop where
  tier0 : c.tier1 = false
  count : c.arg 0x0A 2 = 0
  flags : c.arg 0x09 1 = 0
  high : c.arg 0x24 4 = 0

section Wire
variable {s : State} {mm : Bool} {c : Call} (hc : s.nextCall 2 = some c)
include hc

theorem exec_wireEncrypt_badDesc (ho : c.arg 8 1 = 2)
    (h : s.saKey (c.arg 0x0C 4) = none ∨ c.tier1 = true ∨ c.arg 0x0A 2 ≠ 0 ∨ c.arg 0x09 1 ≠ 0 ∨ c.arg 0x24 4 ≠ 0) :
    exec (.wireEncrypt mm) s = .next (s.answer c 2 0) := by
  refine congrArg _ (State.cipherCall_answers hc ho ?_)
  cases hk : s.saKey (c.arg 0x0C 4) with
  | none => rfl
  | some k => exact if_pos (by simpa [hk, or_assoc] using h)

variable (hw : c.WireOk) {key salt : List Byte} (hk : s.saKey (c.arg 0x0C 4) = some (key, salt))
include hw hk

theorem exec_wireEncrypt_addrFault (ho : c.arg 8 1 = 2) (h : s.access c (c.arg 0x10 8) (c.arg 0x20 4) false = none) :
    exec (.wireEncrypt mm) s = .next (s.answer c 3 0) := by
  refine congrArg _ (State.cipherCall_answers hc ho ?_)
  simp [hk, hw.tier0, hw.count, hw.flags, hw.high, h]

variable {a b h : Nat} (hh : s.access c (c.arg 0x28 8) 8 false = some h)
include hh

section Out
variable (ho : c.arg 8 1 = 2) (ha : s.access c (c.arg 0x10 8) (c.arg 0x20 4) false = some a)
  (hb : s.access c (c.arg 0x18 8) (c.arg 0x20 4 + 16) true = some b)
include ho ha hb

theorem exec_wireEncrypt_mismatch {u : State} (hp : s.runPipe true 2 [mm] false = (u, false)) :
    exec (.wireEncrypt mm) s = .next (u.answer c 7 0) := by
  refine congrArg _ (State.cipherCall_answers hc ho ?_)
  simp [hk, hw.tier0, hw.count, hw.flags, hw.high, ha, hb, hh, hp]

theorem exec_wireEncrypt_seals {u : State} (hp : s.runPipe true 2 [false] false = (u, true)) {ct : List Byte}
    (hct : ct = fit (c.arg 0x20 4) (Config.gcmEncrypt key (salt ++ leBytes 8 (c.arg 0x30 8)) (u.bytes a (c.arg 0x20 4)))) :
    exec (.wireEncrypt false) s = .next (({ u with mem := writeMem u.mem b (ct ++
      fit 16 (Config.gcmTag key (salt ++ leBytes 8 (c.arg 0x30 8)) (u.bytes h 8 ++ leBytes 8 (c.arg 0x30 8)) ct)) } : State).answer c 0
        (c.arg 0x30 8 % 2 ^ 32)) := by
  refine congrArg _ (State.cipherCall_answers hc ho ?_)
  simp [hk, hw.tier0, hw.count, hw.flags, hw.high, ha, hb, hh, hp, hct]

end Out

section In
variable (ho : c.arg 8 1 = 3) (ha : s.access c (c.arg 0x10 8) (c.arg 0x20 4 + 16) false = some a)
  (hb : s.access c (c.arg 0x18 8) (c.arg 0x20 4) true = some b)
include ho ha hb

/-- The plaintext is written, and the ICV behind the ciphertext is then compared. -/
theorem exec_wireDecrypt_opens {u v : State} (hp : s.runPipe true 3 [false] false = (u, true))
    (hv : v = { u with mem := writeMem u.mem b (fit (c.arg 0x20 4)
      (Config.gcmDecrypt key (salt ++ leBytes 8 (c.arg 0x30 8)) (u.bytes a (c.arg 0x20 4)))) }) :
    exec (.wireDecrypt false) s = .next (if fit 16 (Config.gcmTag key (salt ++ leBytes 8 (c.arg 0x30 8))
        (u.bytes h 8 ++ leBytes 8 (c.arg 0x30 8)) (u.bytes a (c.arg 0x20 4))) = v.bytes (a + c.arg 0x20 4) 16
      then v.answer c 0 0 else (v.espDrop (c.arg 0x0C 4 % 2 ^ 28 / 2)).answer c 6 0) := by
  split <;> next hicv =>
    refine congrArg _ (State.cipherCall_answers hc ho ?_)
    simp [hk, hw.tier0, hw.count, hw.flags, hw.high, ha, hb, hh, hp, ← hv, hicv]

end In
end Wire

/-! ### The data of a write and of a read (R275, R278, R281) -/

section Tag
variable {s u : State} {t : Nat} {m : List Bool} {c : Cmd} (hc : s.cmd t = some c)
include hc

section Seal
variable (hph : c.phase = .sealing)
include hph

/-- The nonces of a write are taken before its blocks go to a pipeline. -/
theorem exec_atRestEncrypt_write (hf : s.follows = false) {k : Nat} (hk : s.takeCtrs c.entry.nlb = (u, some k)) {v : State} {ok : Bool}
    (hp : u.runPipe false 0 m false = (v, ok)) :
    exec (.atRestEncrypt (.tag t) m) s = .next (if ok then v.sealWrite t c k (v.prefixOf 1) else v.finish t 0 6 false) := by
  change execAtRestEncrypt (.tag t) m s = _
  simp [execAtRestEncrypt, hc, hf, hph, hk, hp]

theorem exec_atRestEncrypt_follower (hf : s.follows = true) {x : Nat × Nat}
    (hx : ((s.conn c.conn).nonces.find? fun x => x.1 = c.sqIndex) = some x) (hp : s.runPipe false 0 m false = (u, true)) :
    exec (.atRestEncrypt (.tag t) m) s = .next (((u.updConn c.conn fun y => { y with nonces := y.nonces.erase x }).sealWrite t c x.2
      (u.hrn.peerTag * 256 + 1)).mirrored ((List.range c.entry.nlb).map fun i => u.lay.nextBuf + i)) := by
  change execAtRestEncrypt (.tag t) m s = _
  simp [execAtRestEncrypt, State.sealFollowed, hc, hf, hph, hx, hp]

end Seal

theorem exec_atRestDecrypt_read (hph : c.phase = .reading) (hh : c.allHeld = true) {r : Bool} (hp : s.runPipe false 1 m r = (u, true)) :
    exec (.atRestDecrypt (.tag t) m r) s = .next (u.openRead t c 0 c.blocks []) := by
  change execAtRestDecrypt (.tag t) m r s = _
  simp [execAtRestDecrypt, hc, hph, hh, hp]

end Tag

/-- A block that was never written reads as zeros, and is counted (R279). -/
theorem State.openRead_zeros {s : State} {t i : Nat} {c : Cmd} {b : RdBlk} {bs : List RdBlk} {acc blk : List Byte} (hb : b.st = .held blk)
    (ho : openBlock (s.liveKeys c.entry.nsid) c.entry.nsid b.lba (s.mapEnt (s.ns c.entry.nsid).volume (b.lba / 4096)).gen blk = .zeros) :
    s.openRead t c i (b :: bs) acc =
      (s.bump Reg.CPH_ZERO_READ_COUNT).openRead t c (i + 1) bs (acc ++ List.replicate 4096 0) := by
  rw [State.openRead]
  simp only [hb, ho, State.countOpened]

theorem exec_ctrSaveDone_resumes {s : State} (hs : s.cph.saved = false) (he : s.cph.ctrEpoch ≠ 0) (hn : s.cph.ctrCount < 2 ^ 40)
    (hw : s.sec.write.isSome = true) : exec .ctrSaveDone s = .next { s with cph.saved := true } :=
  congrArg _ (if_pos (by simp only [hs, he, hn, hw, Bool.not_false, ne_eq, not_false_eq_true, decide_true, Bool.and_self]))

/-! ### EC calls (R179, Table 10-4) -/

/-- The fields of an EC call that every operation asks for: K, M and LEN in their ranges, and the reserved ones 0. -/
def Call.EcFieldsOk (c : Call) : Prop :=
  c.arg 0x09 1 ≠ 0 ∧ c.arg 0x09 1 ≤ 31 ∧ c.arg 0x0A 1 ≠ 0 ∧ c.arg 0x0A 1 ≤ 4 ∧ 64 ≤ c.arg 0x0C 4 ∧ c.arg 0x0C 4 ≤ 266240 ∧
    c.arg 0x0C 4 % 64 = 0 ∧ c.arg 0x14 4 = 0 ∧ c.arg 0x30 8 = 0

/-- Memory with each of the blocks `out` written at its place of `dst`. -/
def State.memWith (s : State) (dst : List Nat) (out : List (List Byte)) : List Host.Cell :=
  (dst.zip out).foldl (fun m d => writeMem m d.1 d.2) s.mem

section Ec
variable {s : State} {op : Nat} {ok : Call → Bool} {nsrc ndst : Call → Nat} {f : Call → List (List Byte) → List (List Byte)} {c : Call}
  (hc : s.nextCall 3 = some c) (ho : c.arg 8 1 = op)
include hc ho

theorem State.ecCall_badDesc (h : ¬ c.EcFieldsOk ∨ ok c = false) : s.ecCall op ok nsrc ndst f = s.answer c 2 0 := by
  rw [State.ecCall, hc]
  refine (if_neg (not_not.mpr ho)).trans (if_pos ?_)
  simp only [Call.EcFieldsOk, Bool.or_eq_true, decide_eq_true_eq, Bool.not_eq_true'] at h ⊢
  rcases h with h | h
  · exact .inl (by omega)
  · exact .inr h

variable (hf : c.EcFieldsOk) (hok : ok c = true) {src dst : List Nat} {out : List (List Byte)}
  (hs : s.addrList c (c.arg 0x18 8) (nsrc c) (c.arg 0x0C 4) false = some src)
  (hd : s.addrList c (c.arg 0x20 8) (ndst c) (c.arg 0x0C 4) true = some dst)
  (hout : out = (f c (src.map fun a => s.bytes a (c.arg 0x0C 4))).map (fit (c.arg 0x0C 4)))
include hf hok hs hd hout

/-- The code of the sources goes to the destinations; the CRC-32C of each block goes to the list at `a` where one is asked for. -/
theorem State.ecCall_accepted {a : Nat} (ha : (if c.arg 0x28 8 = 0 then some 0 else s.access c (c.arg 0x28 8) (4 * ndst c) true) = some a) :
    s.ecCall op ok nsrc ndst f = ({ s with
      mem := if c.arg 0x28 8 = 0 then s.memWith dst out
        else writeMem (s.memWith dst out) a (out.flatMap fun d => leBytes 4 (crc32c d)) } : State).answer c 0 out.length := by
  subst hout
  obtain ⟨hk0, hk, hm0, hm, hl0, hl, hl64, h14, h30⟩ := hf
  rw [State.ecCall, hc]
  refine (if_neg (not_not.mpr ho)).trans ((if_neg ?_).trans ?_)
  · simp only [hok, Bool.or_eq_true, decide_eq_true_eq, Bool.not_true, Bool.false_eq_true, or_false]
    omega
  · simp only [hs, hd, ha, State.memWith]

theorem State.ecCall_writes :
    (c.arg 0x28 8 = 0 → s.ecCall op ok nsrc ndst f = ({ s with mem := s.memWith dst out } : State).answer c 0 out.length) ∧
    (∀ a, c.arg 0x28 8 ≠ 0 → s.access c (c.arg 0x28 8) (4 * ndst c) true = some a → s.ecCall op ok nsrc ndst f =
      ({ s with mem := writeMem (s.memWith dst out) a (out.flatMap fun d => leBytes 4 (crc32c d)) } : State).answer c 0 out.length) := by
  refine ⟨fun hz => ?_, fun a hz ha => ?_⟩
  · rw [State.ecCall_accepted hc ho hf hok hs hd hout (if_pos hz), if_pos hz]
  · rw [State.ecCall_accepted hc ho hf hok hs hd hout ((if_neg hz).trans ha), if_neg hz]

end Ec

theorem exec_ecEncode (s : State) : exec .ecEncode s =
    .next (s.ecCall 0 (fun _ => true) (fun c => c.arg 0x09 1) (fun c => c.arg 0x0A 1) fun c d => ecEncode (c.arg 0x0A 1) d) := rfl

theorem exec_ecUpdate (s : State) : exec .ecUpdate s =
    .next (s.ecCall 1 (fun c => decide (c.arg 0x0B 1 < c.arg 0x09 1)) (fun c => c.arg 0x0A 1 + 2) (fun c => c.arg 0x0A 1) fun c d =>
      ecUpdate (c.arg 0x0B 1) (d.getD 0 []) (d.getD 1 []) (d.drop 2)) := rfl

/-- Whether a decoding asks for no more positions than there are parities, and for positions of the stripe alone. -/
def Call.decodable (c : Call) : Bool :=
  decide ((c.erase true).length ≤ c.arg 0x0A 1) && decide (c.arg 0x10 4 < 2 ^ (c.arg 0x09 1 + c.arg 0x0A 1))

theorem exec_ecDecode (s : State) : exec .ecDecode s =
    .next (s.ecCall 2 Call.decodable (fun c => (c.erase false).length) (fun c => (c.erase true).length) fun c d =>
      ecDecode (c.arg 0x09 1) ((c.erase false).zip d) (c.erase true)) := rfl

/-- One field out of its range is enough. -/
theorem Call.not_ecFieldsOk {c : Call} (h : c.arg 0x09 1 = 0 ∨ 31 < c.arg 0x09 1 ∨ c.arg 0x0A 1 = 0 ∨ 4 < c.arg 0x0A 1 ∨ c.arg 0x0C 4 < 64 ∨
    266240 < c.arg 0x0C 4 ∨ c.arg 0x0C 4 % 64 ≠ 0 ∨ c.arg 0x14 4 ≠ 0 ∨ c.arg 0x30 8 ≠ 0) : ¬ c.EcFieldsOk := by
  rw [Call.EcFieldsOk]
  omega

/-- Settles O38: each clause is the case of its call or command that its hypotheses select. Which direction of a context an SA handle names is
the model's choice (log entry 13). -/
theorem cipherAndCodeCallsAreChecked : Obligations.CipherAndCodeCallsAreChecked := by
  refine ⟨?counted, ?given, ?badDesc, ?addrFault, ?decrypt, ?verify, ?wireOut, ?wireIn, ?wireRefused, ?write, ?follower, ?read, ?zeros,
    ?saved, ?encode, ?update, ?decode, ?ecRefused⟩
  case counted =>
    intro s s1 s2 m c g k a b key ⟨hk1, hp, hc, ho, hok, hk, h9, h30, ha, hb⟩
    exact exec_atRestEncrypt_counted hc ho hok hk ha hb h9 h30 hk1 hp
  case given =>
    intro s s2 m c g a b key ⟨hp, hc, ho, hok, hk, h9, ht, hf, ha, hb⟩
    exact exec_atRestEncrypt_given hc ho hok hk ha hb h9 ht hf hp
  case badDesc =>
    intro s m r c ⟨hc, h⟩
    exact ⟨fun ho => exec_atRestEncrypt_badDesc hc ho h, fun ho => congrArg _ (State.decryptCall_badDesc hc ho h),
      fun ho => congrArg _ (State.decryptCall_badDesc hc ho h)⟩
  case addrFault =>
    intro s m r c ⟨hc, hk, hok, h9, h30⟩
    obtain ⟨⟨g, key⟩, hkey⟩ := Option.isSome_iff_exists.mp hk
    exact ⟨fun ho h => exec_atRestEncrypt_addrFault hc ho hok hkey h9 h30 h,
      fun ho h => congrArg _ (State.decryptCall_addrFault hc ho hk hok h9 h30 (fun h => absurd h (by decide)) h),
      fun ho hz h => congrArg _ (State.decryptCall_addrFault hc ho hk hok h9 h30 (fun _ => hz) (.inl h))⟩
  case decrypt =>
    intro s u m r c a b ⟨hp, hc, ho, hok, hk, h9, h30, ha, hb⟩
    refine ⟨_, rfl, congrArg _ ((State.decryptCall_opens hc ho hk hok h9 h30 (fun h => absurd h (by decide)) ha hb hp rfl).trans ?_)⟩
    simp only [OfNat.one_ne_ofNat, if_false, or_false, decide_true]
  case verify =>
    intro s u m r c a ⟨hp, hc, ho, hok, hk, h9, h30, ha, hz⟩
    refine ⟨_, rfl, congrArg _ ((State.decryptCall_opens hc ho hk hok h9 h30 (fun _ => hz) ha rfl hp rfl).trans ?_)⟩
    simp only [if_true, or_true, OfNat.ofNat_ne_one, decide_false]
  case wireOut =>
    intro s u c a b h key salt ⟨hp, hc, ho, hk, ht, hn, hf, hl, ha, hb, hh⟩
    exact ⟨_, rfl, exec_wireEncrypt_seals hc ⟨ht, hn, hf, hl⟩ hk hh ho ha hb hp rfl⟩
  case wireIn =>
    intro s u c a b h key salt ⟨hp, hc, ho, hk, ht, hn, hf, hl, ha, hb, hh⟩
    exact ⟨_, rfl, exec_wireDecrypt_opens hc ⟨ht, hn, hf, hl⟩ hk hh ho ha hb hp rfl⟩
  case wireRefused =>
    intro s u mm c a b h ⟨key, salt⟩ ⟨hc, ho⟩
    exact ⟨exec_wireEncrypt_badDesc hc ho, fun hk ht hn hf hl => ⟨exec_wireEncrypt_addrFault hc ⟨ht, hn, hf, hl⟩ hk ho,
      fun ha hb hh hp => exec_wireEncrypt_mismatch hc ⟨ht, hn, hf, hl⟩ hk hh ho ha hb hp⟩⟩
  case write =>
    intro s u t k m c ⟨hc, hf, hph, hk⟩
    exact ⟨fun v hp => exec_atRestEncrypt_write hc hph hf hk hp, fun v hp => exec_atRestEncrypt_write hc hph hf hk hp⟩
  case follower => exact fun s u t m c x ⟨hp, hc, hf, hph, hx⟩ => exec_atRestEncrypt_follower hc hph hf hx hp
  case read => exact fun s u t m r c ⟨hc, hph, hh, hp⟩ => exec_atRestDecrypt_read hc hph hh hp
  case zeros => exact fun s t i c b bs acc d blk ⟨hb, ho⟩ => State.openRead_zeros hb ho
  case saved => exact fun s ⟨hs, he, hn, hw⟩ => exec_ctrSaveDone_resumes hs he hn hw
  case encode =>
    intro s c src dst out ⟨hout, hc, ho, hk0, hk, hm0, hm, hl0, hl, hl64, h14, h30, hs, hd⟩
    simp only [exec_ecEncode, Host.Outcome.next.injEq]
    exact State.ecCall_writes hc ho ⟨hk0, hk, hm0, hm, hl0, hl, hl64, h14, h30⟩ rfl hs hd hout
  case update =>
    intro s c src dst out ⟨hout, hc, ho, hk0, hk, hm0, hm, hl0, hl, hl64, h14, h30, hs, hd, hlt⟩
    simp only [exec_ecUpdate, Host.Outcome.next.injEq]
    exact State.ecCall_writes hc ho ⟨hk0, hk, hm0, hm, hl0, hl, hl64, h14, h30⟩ (decide_eq_true hlt) hs hd hout
  case decode =>
    intro s c src dst out ⟨hout, hc, ho, hk0, hk, hm0, hm, hl0, hl, hl64, h14, h30, hs, hd, hle, hlt⟩
    simp only [exec_ecDecode, Host.Outcome.next.injEq]
    exact State.ecCall_writes hc ho ⟨hk0, hk, hm0, hm, hl0, hl, hl64, h14, h30⟩ (by simp [Call.decodable, hle, hlt]) hs hd hout
  case ecRefused =>
    intro s c hc
    simp only [exec_ecEncode, exec_ecUpdate, exec_ecDecode, Host.Outcome.next.injEq]
    refine ⟨fun ho h => State.ecCall_badDesc hc ho (.inr ?_), fun ho h => State.ecCall_badDesc hc ho (.inr ?_), fun h => ?_⟩
    · simp [Call.decodable, Nat.not_le.mpr h]
    · exact decide_eq_false (Nat.not_lt.mpr h)
    · have hf := Call.not_ecFieldsOk h
      exact ⟨fun ho => State.ecCall_badDesc hc ho (.inl hf), fun ho => State.ecCall_badDesc hc ho (.inl hf),
        fun ho => State.ecCall_badDesc hc ho (.inl hf)⟩

end Sys2Proof.Machine
end

section
/-! Proofs of the seal of family 14 (R272, R276 to R279): what the metadata of a sealed block reads as, and what opening the block finds. -/
namespace Sys2Proof.Machine

/-! ### Fields of a byte string -/

theorem leAt_lt (b : List Byte) (o n : Nat) : leAt b o n < 256 ^ n := by
  have bound (l : List Byte) : l.foldr (fun x acc => x.toNat + 256 * acc) 0 < 256 ^ l.length := by
    induction l with
    | nil => simp
    | cons x l ih =>
      have hx : x.toNat < 256 := x.isLt
      rw [List.foldr_cons, List.length_cons, Nat.pow_succ]
      omega
  exact (bound _).trans_le (Nat.pow_le_pow_right (by decide) (by simp))

theorem foldr_leBytes (n v : Nat) : (leBytes n v).foldr (fun x acc => x.toNat + 256 * acc) 0 = v % 256 ^ n := by
  induction n generalizing v with
  | zero => simp [leBytes, Nat.mod_one]
  | succ n ih =>
    rw [leBytes, List.foldr_cons, ih, BitVec.toNat_ofNat, Nat.pow_succ' (m := 256), Nat.mod_mul]

/-- The field behind `o` bytes reads as the number that was written there. -/
theorem leAt_append (a r : List Byte) (n v : Nat) {o : Nat} (h : a.length = o) : leAt (a ++ (leBytes n v ++ r)) o n = v % 256 ^ n := by
  subst h
  rw [leAt, List.drop_left, List.take_append_of_le_length (by rw [leBytes_length]), List.take_of_length_le (by rw [leBytes_length]),
    foldr_leBytes]

/-- A field of zero bytes reads 0. -/
theorem leAt_of_zeroAt {b : List Byte} {o n : Nat} (h : zeroAt b o n = true) : leAt b o n = 0 := by
  have zeros (l : List Byte) (hl : ∀ x ∈ l, x = 0) : l.foldr (fun x acc => x.toNat + 256 * acc) 0 = 0 := by
    induction l with
    | nil => rfl
    | cons x l ih => rw [List.foldr_cons, ih fun y hy => hl y (List.mem_cons_of_mem _ hy), hl x (List.mem_cons_self ..)]; rfl
  exact zeros _ (by simpa [zeroAt] using h)

/-- A part of a zero range is zero. -/
theorem zeroAt_part {b : List Byte} {o n k m : Nat} (h : zeroAt b o n = true) (hk : k + m ≤ n) : zeroAt b (o + k) m = true := by
  simp only [zeroAt, List.all_eq_true] at h ⊢
  intro x hx
  refine h x ?_
  have hdrop : (b.drop (o + k)).take m = (((b.drop o).take n).drop k).take m := by
    rw [← List.drop_drop, List.drop_take, List.take_take, Nat.min_eq_left (by omega)]
  rw [hdrop] at hx
  exact List.mem_of_mem_drop (List.mem_of_mem_take hx)

/-- A range in which a field does not read 0 is not all zero. -/
theorem zeroAt_eq_false_of_leAt {b : List Byte} {o k m n : Nat} (h : leAt b (o + k) m ≠ 0) (hk : k + m ≤ n) : zeroAt b o n = false :=
  Bool.eq_false_iff.mpr fun hz => h (leAt_of_zeroAt (zeroAt_part hz hk))

theorem fit_length (n : Nat) (b : List Byte) : (fit n b).length = n := by simp [fit]

theorem fit_append {n : Nat} {a : List Byte} (b : List Byte) (h : a.length = n) : fit n (a ++ b) = a := by
  rw [fit, List.append_assoc, List.take_left' h]

theorem fit_of_length {n : Nat} {a : List Byte} (h : a.length = n) : fit n a = a := by
  rw [← a.append_nil, fit_append [] h, a.append_nil]

theorem crc32c_lt (m : List Byte) : crc32c m < 2 ^ 32 := BitVec.isLt _

theorem keyCheck_lt (key : List Byte) : keyCheck key < 2 ^ 32 := leAt_lt _ _ _

/-! ### The metadata of a sealed block (Table 14-2) -/

/-- The metadata of Table 14-2: nonce, tag, key generation, key check, guard and the low word of the LBA. -/
def metaBytes (nonce tag : List Byte) (keyGen check crc lba : Nat) : List Byte :=
  nonce ++ tag ++ leBytes 4 keyGen ++ leBytes 4 check ++ leBytes 4 crc ++ leBytes 4 lba ++ List.replicate 20 0

section Meta
variable (nonce tag : List Byte) (keyGen check crc lba : Nat)

section Reads
variable {nonce tag} (hn : nonce.length = 12)
include hn

theorem metaBytes_nonce : (metaBytes nonce tag keyGen check crc lba).take 12 = nonce := by
  simp only [metaBytes, List.append_assoc]
  exact List.take_left' hn

variable (ht : tag.length = 16)
include ht

theorem metaBytes_length : (metaBytes nonce tag keyGen check crc lba).length = 64 := by simp [metaBytes, leBytes_length, hn, ht]

theorem metaBytes_tag : ((metaBytes nonce tag keyGen check crc lba).drop 0x0C).take 16 = tag := by
  simp only [metaBytes, List.append_assoc]
  rw [List.drop_left' hn, List.take_left' ht]

theorem metaBytes_keyGen : leAt (metaBytes nonce tag keyGen check crc lba) 0x1C 4 = keyGen % 2 ^ 32 := by
  have h := leAt_append (nonce ++ tag) (leBytes 4 check ++ leBytes 4 crc ++ leBytes 4 lba ++ List.replicate 20 0) 4 keyGen (o := 0x1C)
    (by simp [hn, ht])
  simpa [metaBytes] using h

theorem metaBytes_check : leAt (metaBytes nonce tag keyGen check crc lba) 0x20 4 = check % 2 ^ 32 := by
  have h := leAt_append (nonce ++ tag ++ leBytes 4 keyGen) (leBytes 4 crc ++ leBytes 4 lba ++ List.replicate 20 0) 4 check (o := 0x20)
    (by simp [hn, ht, leBytes_length])
  simpa [metaBytes] using h

theorem metaBytes_guard : leAt (metaBytes nonce tag keyGen check crc lba) 0x24 4 = crc % 2 ^ 32 := by
  have h := leAt_append (nonce ++ tag ++ leBytes 4 keyGen ++ leBytes 4 check) (leBytes 4 lba ++ List.replicate 20 0) 4 crc (o := 0x24)
    (by simp [hn, ht, leBytes_length])
  simpa [metaBytes] using h

theorem metaBytes_lba : leAt (metaBytes nonce tag keyGen check crc lba) 0x28 4 = lba % 2 ^ 32 := by
  have h := leAt_append (nonce ++ tag ++ leBytes 4 keyGen ++ leBytes 4 check ++ leBytes 4 crc) (List.replicate 20 0) 4 lba (o := 0x28)
    (by simp [hn, ht, leBytes_length])
  simpa [metaBytes] using h

end Reads
end Meta

/-! ### Opening -/

/-- The tag check and the release of ciphertext `ct` under a key (R278 step 4). -/
def openUnder (key nonce aad tag ct : List Byte) : Opened :=
  if fit 16 (Config.gcmTag key nonce aad ct) ≠ tag then .fails 4 else .plain (fit 4096 (Config.gcmDecrypt key nonce ct))

/-- Opening of the ciphertext `ct` with its 64 bytes of metadata `mt`, R278's steps in their order. -/
theorem openBlock_parts (gens : List (Nat × List Byte)) (nsid lba gen : Nat) {ct mt : List Byte} (hct : ct.length = 4096)
    (hmt : mt.length = 64) : openBlock gens nsid lba gen (ct ++ mt) =
      if zeroAt mt 0 64 then .zeros
      else if leAt mt 0x28 4 ≠ lba % 2 ^ 32 || leAt mt 0x24 4 ≠ crc32c ct then .fails 1
      else ((gens.find? fun g => g.1 = leAt mt 0x1C 4 && keyCheck g.2 = leAt mt 0x20 4).map fun g =>
        openUnder g.2 (mt.take 12) (aadOf nsid lba gen (leAt mt 0x1C 4) (leAt mt 0x20 4) (leAt mt 0x24 4)) ((mt.drop 0x0C).take 16)
          ct).getD (.fails 2) := by
  rw [openBlock, fit_append mt hct, List.drop_left' hct, fit_of_length hmt]
  cases gens.find? _ <;> rfl

theorem openBlock_zeros (gens : List (Nat × List Byte)) (nsid lba gen : Nat) {ct : List Byte} (hct : ct.length = 4096) :
    openBlock gens nsid lba gen (ct ++ List.replicate 64 0) = .zeros := by
  rw [openBlock_parts gens nsid lba gen hct List.length_replicate, if_pos (by decide)]

/-- The ciphertext, nonce and tag of a seal. -/
def sealNonce (pre ctr : Nat) : List Byte := leBytes 4 pre ++ leBytes 8 ctr

def sealCipher (key : List Byte) (pre ctr : Nat) (d : List Byte) : List Byte := fit 4096 (Config.gcmEncrypt key (sealNonce pre ctr) d)

def sealTag (key : List Byte) (g pre ctr nsid lba gen : Nat) (d : List Byte) : List Byte :=
  fit 16 (Config.gcmTag key (sealNonce pre ctr) (aadOf nsid lba gen g (keyCheck key) (crc32c (sealCipher key pre ctr d)))
    (sealCipher key pre ctr d))

theorem sealNonce_length (pre ctr : Nat) : (sealNonce pre ctr).length = 12 := by simp [sealNonce, leBytes_length]

theorem sealCipher_length (key : List Byte) (pre ctr : Nat) (d : List Byte) : (sealCipher key pre ctr d).length = 4096 := fit_length 4096 _

theorem sealBlock_parts (key : List Byte) (g pre ctr nsid lba gen : Nat) (d : List Byte) : sealBlock key g pre ctr nsid lba gen d =
    sealCipher key pre ctr d ++ metaBytes (sealNonce pre ctr) (sealTag key g pre ctr nsid lba gen d) g (keyCheck key)
      (crc32c (sealCipher key pre ctr d)) lba := by
  simp only [sealBlock, metaBytes, sealTag, sealCipher, sealNonce, List.append_assoc]

section Open
variable (key : List Byte) (gens : List (Nat × List Byte)) {g : Nat} (pre ctr nsid lba lba' gen : Nat) (d : List Byte) (h0 : 0 < g)
  (hg : g < 2 ^ 32)
include h0 hg

/-- A sealed block opened at `lba'`: its metadata is not zero, its guard holds of its ciphertext, and it names generation `g`. -/
theorem openBlock_sealBlock : openBlock gens nsid lba' gen (sealBlock key g pre ctr nsid lba gen d) =
    if lba % 2 ^ 32 ≠ lba' % 2 ^ 32 then .fails 1
    else ((gens.find? fun x => x.1 = g && keyCheck x.2 = keyCheck key).map fun x =>
      openUnder x.2 (sealNonce pre ctr) (aadOf nsid lba' gen g (keyCheck key) (crc32c (sealCipher key pre ctr d)))
        (sealTag key g pre ctr nsid lba gen d) (sealCipher key pre ctr d)).getD (.fails 2) := by
  have hn := sealNonce_length pre ctr
  have ht : (sealTag key g pre ctr nsid lba gen d).length = 16 := fit_length 16 _
  have hgen := (metaBytes_keyGen g (keyCheck key) (crc32c (sealCipher key pre ctr d)) lba hn ht).trans (Nat.mod_eq_of_lt hg)
  rw [sealBlock_parts, openBlock_parts gens nsid lba' gen (sealCipher_length key pre ctr d) (metaBytes_length _ _ _ _ hn ht),
    zeroAt_eq_false_of_leAt (k := 0x1C) (m := 4) (by rw [Nat.zero_add, hgen]; omega) (by decide), if_neg Bool.false_ne_true, hgen,
    metaBytes_check _ _ _ _ hn ht, metaBytes_guard _ _ _ _ hn ht, metaBytes_lba _ _ _ _ hn ht, metaBytes_nonce _ _ _ _ hn,
    metaBytes_tag _ _ _ _ hn ht, Nat.mod_eq_of_lt (keyCheck_lt key), Nat.mod_eq_of_lt (crc32c_lt _)]
  simp only [ne_eq, not_true_eq_false, decide_false, Bool.or_false, decide_eq_true_eq]

theorem openBlock_sealBlock_same (hx : (gens.find? fun x => x.1 = g && keyCheck x.2 = keyCheck key) = some (g, key)) :
    openBlock gens nsid lba gen (sealBlock key g pre ctr nsid lba gen d) =
      .plain (fit 4096 (Config.gcmDecrypt key (sealNonce pre ctr) (sealCipher key pre ctr d))) := by
  rw [openBlock_sealBlock key gens pre ctr nsid lba lba gen d h0 hg, if_neg (not_not.mpr rfl), hx]
  exact if_neg (not_not.mpr rfl)

theorem openBlock_sealBlock_moved (hl : lba % 2 ^ 32 ≠ lba' % 2 ^ 32) :
    openBlock gens nsid lba' gen (sealBlock key g pre ctr nsid lba gen d) = .fails 1 := by
  rw [openBlock_sealBlock key gens pre ctr nsid lba lba' gen d h0 hg, if_pos hl]

theorem openBlock_sealBlock_dead (hx : ∀ x ∈ gens, x.1 ≠ g) :
    openBlock gens nsid lba gen (sealBlock key g pre ctr nsid lba gen d) = .fails 2 := by
  rw [openBlock_sealBlock key gens pre ctr nsid lba lba gen d h0 hg, if_neg (not_not.mpr rfl),
    List.find?_eq_none.mpr fun x hm => by simp [hx x hm]]
  rfl

end Open

/-- Settles O39: a block opens by R278's steps, its metadata reading back what the seal wrote. That the place is checked by the low word of the
LBA alone is what the statement says of it; the rest of the place enters the tag. -/
theorem sealedBlocksOpenAgain : Obligations.SealedBlocksOpenAgain :=
  ⟨fun key gens _ pre ctr nsid lba gen d ⟨h0, hg, hx⟩ => openBlock_sealBlock_same key gens pre ctr nsid lba gen d h0 hg hx,
    fun key gens _ pre ctr nsid lba lba' gen d ⟨h0, hg, hl⟩ => openBlock_sealBlock_moved key gens pre ctr nsid lba lba' gen d h0 hg hl,
    fun key gens _ pre ctr nsid lba gen d ⟨h0, hg, hx⟩ => openBlock_sealBlock_dead key gens pre ctr nsid lba gen d h0 hg hx,
    fun gens nsid lba gen _ hct => openBlock_zeros gens nsid lba gen hct⟩

/-! ### Zero metadata and the counter -/

theorem State.openRun_zeros (s : State) (gens : List (Nat × List Byte)) (nsid gen lba : Nat) {ct : List Byte} (hct : ct.length = 4096) :
    s.openRun true gens nsid gen 1 lba (ct ++ List.replicate 64 0) 0 [] =
      (s.bump Reg.CPH_ZERO_READ_COUNT, 1, List.replicate 4096 0, true) := by
  have hblk : openBlock gens nsid lba gen (fit 4160 (ct ++ List.replicate 64 0)) = .zeros := by
    rw [fit_of_length (by simp [hct]), openBlock_zeros gens nsid lba gen hct]
  simp only [State.openRun, hblk, Bool.true_or, if_true, State.countOpened, List.nil_append, Nat.zero_add]

/-- The counters that an encryption takes are those from CTR_EPOCH and CTR_COUNT on. -/
theorem State.takeCtrs_first {s u : State} {n k : Nat} (h : s.takeCtrs n = (u, some k)) : k = s.ctr := by
  unfold State.takeCtrs at h
  split at h
  · simp at h
  · split at h
    · simp at h
    · simp only [Prod.mk.injEq, Option.some.injEq] at h
      exact h.2.symm

/-- The metadata holds the counter from byte 4, so a counter other than 0 keeps it from being all zero. -/
theorem sealBlock_meta_ne_zero (key : List Byte) (g pre : Nat) {k : Nat} (nsid lba gen : Nat) (d : List Byte) (h0 : k ≠ 0) (hk : k < 2 ^ 64) :
    zeroAt ((sealBlock key g pre k nsid lba gen d).drop 4096) 0 64 = false := by
  rw [sealBlock_parts, List.drop_left' (sealCipher_length key pre k d)]
  refine zeroAt_eq_false_of_leAt (k := 4) (m := 8) ?_ (by decide)
  simp only [metaBytes, sealNonce, List.append_assoc, Nat.zero_add]
  rwa [leAt_append _ _ 8 k (leBytes_length 4 pre), Nat.mod_eq_of_lt (show k < 256 ^ 8 from hk)]

/-- Settles O8: zero metadata opens as zeros, and the counter that an encryption takes stands in the metadata it writes. -/
theorem zeroMetadataReadsAsZeros : Obligations.ZeroMetadataReadsAsZeros := by
  refine ⟨fun s gens nsid gen lba _ hct => ⟨openBlock_zeros gens nsid lba gen hct, s.openRun_zeros gens nsid gen lba hct⟩, ?_⟩
  intro s u n k pre ⟨h0, he, hc, hk⟩ key d g nsid lba gen
  obtain rfl := State.takeCtrs_first hk
  refine ⟨rfl, sealBlock_meta_ne_zero key g pre nsid lba gen d ?_ ?_⟩ <;> simp only [State.ctr] <;> omega

end Sys2Proof.Machine
end

section
/-! Proofs about the fields of registers for families 12 to 17: what one field reads after another field of the same register was set. -/
namespace Sys2Proof.Machine

/-- A word with a field set: the bits above the field, the field, and the bits below it. -/
theorem setBits_toNat (w : Word) {hi lo : Nat} (v : Nat) (h : lo ≤ hi) (h2 : hi < 32) : (setBits w hi lo v).toNat =
    2 ^ lo * (2 ^ (hi + 1 - lo) * (w.toNat / 2 ^ (hi + 1)) + v % 2 ^ (hi + 1 - lo)) + w.toNat % 2 ^ lo := by
  have hw : 2 ^ (hi + 1) = 2 ^ lo * 2 ^ (hi + 1 - lo) := by rw [← Nat.pow_add]; congr 1; omega
  have hsplit : w.toNat = 2 ^ lo * (2 ^ (hi + 1 - lo) * (w.toNat / 2 ^ (hi + 1)) + getBits w hi lo) + w.toNat % 2 ^ lo := by
    rw [getBits, hw, ← Nat.div_div_eq_div_mul, Nat.div_add_mod, Nat.div_add_mod]
  have hlt : 2 ^ lo * (2 ^ (hi + 1 - lo) * (w.toNat / 2 ^ (hi + 1)) + v % 2 ^ (hi + 1 - lo)) + w.toNat % 2 ^ lo < 2 ^ 32 := by
    have hq : w.toNat / 2 ^ (hi + 1) < 2 ^ (32 - (hi + 1)) := by
      rw [Nat.div_lt_iff_lt_mul (Nat.two_pow_pos _), ← Nat.pow_add]
      exact w.isLt.trans_le (Nat.pow_le_pow_right (by decide) (by omega))
    have hv : v % 2 ^ (hi + 1 - lo) < 2 ^ (hi + 1 - lo) := Nat.mod_lt _ (Nat.two_pow_pos _)
    have hm : w.toNat % 2 ^ lo < 2 ^ lo := Nat.mod_lt _ (Nat.two_pow_pos _)
    have h32 : 2 ^ 32 = 2 ^ lo * (2 ^ (hi + 1 - lo) * 2 ^ (32 - (hi + 1))) := by
      rw [← Nat.pow_add, ← Nat.pow_add]; congr 1; omega
    calc _ < 2 ^ lo * (2 ^ (hi + 1 - lo) * (w.toNat / 2 ^ (hi + 1)) + v % 2 ^ (hi + 1 - lo) + 1) := by rw [Nat.mul_add_one]; omega
      _ ≤ 2 ^ lo * (2 ^ (hi + 1 - lo) * (w.toNat / 2 ^ (hi + 1) + 1)) :=
          Nat.mul_le_mul_left _ (by rw [Nat.mul_add_one]; omega)
      _ ≤ _ := by rw [h32]; exact Nat.mul_le_mul_left _ (Nat.mul_le_mul_left _ hq)
  have hval : w.toNat - getBits w hi lo * 2 ^ lo + v % 2 ^ (hi + 1 - lo) * 2 ^ lo =
      2 ^ lo * (2 ^ (hi + 1 - lo) * (w.toNat / 2 ^ (hi + 1)) + v % 2 ^ (hi + 1 - lo)) + w.toNat % 2 ^ lo := by
    rw [Nat.mul_add, Nat.mul_comm (getBits w hi lo), Nat.mul_comm (v % _)]
    rw [Nat.mul_add] at hsplit
    omega
  rw [setBits, hval, BitVec.toNat_ofNat, Nat.mod_eq_of_lt hlt]

/-- The bits of a word with a field set. -/
theorem setBits_getLsbD (w : Word) {hi lo : Nat} (v : Nat) (h : lo ≤ hi) (h2 : hi < 32) (i : Nat) :
    (setBits w hi lo v).getLsbD i = if lo ≤ i ∧ i ≤ hi then v.testBit (i - lo) else w.getLsbD i := by
  rw [BitVec.getLsbD, setBits_toNat w v h h2, Nat.testBit_two_pow_mul_add _ (Nat.mod_lt _ (Nat.two_pow_pos _))]
  by_cases hlo : i < lo
  · rw [if_pos hlo, if_neg (by omega), Nat.testBit_mod_two_pow, decide_eq_true hlo, Bool.true_and, BitVec.getLsbD]
  · rw [if_neg hlo, Nat.testBit_two_pow_mul_add _ (Nat.mod_lt _ (Nat.two_pow_pos _))]
    by_cases hhi : i ≤ hi
    · rw [if_pos (by omega), if_pos ⟨by omega, hhi⟩, Nat.testBit_mod_two_pow, decide_eq_true (by omega), Bool.true_and]
    · rw [if_neg (by omega), if_neg (by omega), Nat.testBit_div_two_pow, BitVec.getLsbD]
      congr 1
      omega

theorem getBits_testBit (w : Word) (hi lo j : Nat) : (getBits w hi lo).testBit j = (decide (j < hi + 1 - lo) && w.getLsbD (lo + j)) := by
  rw [getBits, Nat.testBit_mod_two_pow, Nat.testBit_div_two_pow, BitVec.getLsbD, Nat.add_comm lo]

/-- A field that another does not overlap reads as before. -/
theorem getBits_setBits_other (w : Word) {hi lo qhi qlo : Nat} (v : Nat) (h : lo ≤ hi) (h2 : hi < 32) (hd : qhi < lo ∨ hi < qlo) :
    getBits (setBits w hi lo v) qhi qlo = getBits w qhi qlo := by
  refine Nat.eq_of_testBit_eq fun j => ?_
  rw [getBits_testBit, getBits_testBit]
  by_cases hj : j < qhi + 1 - qlo
  · rw [setBits_getLsbD w v h h2, if_neg (by omega)]
  · rw [decide_eq_false hj, Bool.false_and, Bool.false_and]

theorem State.fld_of_regs {s u : State} (h : u.regs = s.regs) (r : Ref) : u.fld r = s.fld r := by
  rw [State.fld, State.rg, h, State.fld, State.rg]

/-- A field of another register, or of other bits, reads as before. -/
theorem State.setFld_fld_apart (s : State) {r q : Ref} (v : Nat) (h : r.lo ≤ r.hi) (h2 : r.hi < 32)
    (hd : q.addr ≠ r.addr ∨ q.hi < r.lo ∨ r.hi < q.lo) : (s.setFld r v).fld q = s.fld q := by
  by_cases ha : q.addr = r.addr
  · rw [State.fld, State.fld, State.setFld, ha, State.setRg_rg_same, getBits_setBits_other _ v h h2 (hd.resolve_left (not_not.mpr ha))]
  · exact s.setFld_fld_other r q v ha

/-- A one-bit field that was set reads the bit. -/
theorem State.setFld_flag_same (s : State) {r : Ref} (h : r.lo = r.hi) (h2 : r.hi < 32) (v : Nat) : (s.setFld r v).flag r = decide (v % 2 = 1) := by
  rw [State.flag, State.setFld_fld_same s r v h.le h2, h, Nat.add_sub_cancel_left, Nat.pow_one]

/-- A field set to a value that fits its width reads that value. -/
theorem State.setFld_fld_of_lt (s : State) {r : Ref} {v : Nat} (h : r.lo ≤ r.hi) (h2 : r.hi < 32) (hv : v < 2 ^ (r.hi + 1 - r.lo)) :
    (s.setFld r v).fld r = v := by
  rw [State.setFld_fld_same s r v h h2, Nat.mod_eq_of_lt hv]

end Sys2Proof.Machine
end

section
/-! Proofs of the members of family 11 (R191, R193, R209 to R211, R218): changes of state along Table 11-1, the commands that make them, the
end of a drain and of a copy-back, and the restoring of members from their superblocks. -/
namespace Sys2Proof.Machine

/-! ### Changes of state (R191) -/

theorem State.noteChange_reb (s : State) (ch : MChange) :
    (s.noteChange ch).reb = { s.reb with changes := (s.reb.changes.filter fun c => decide (c.member ≠ ch.member)) ++ [ch] } :=
   State.foldl_keeps State.reb (fun s k => s.emit (.superblock k s.lay.sbSeq s.tim.floor)) (fun _ _ => rfl) _ _

theorem State.noteChange_sbSeq (s : State) (ch : MChange) : (s.noteChange ch).lay.sbSeq = s.lay.sbSeq + 1 :=
  State.foldl_keeps (fun s => s.lay.sbSeq) (fun s k => s.emit (.superblock k s.lay.sbSeq s.tim.floor)) (fun _ _ => rfl) _ _

theorem State.noteChange_member (s : State) (ch : MChange) (d : Nat) : (s.noteChange ch).member d = s.member d := by
  rw [State.member, State.noteChange_reb, State.member]

section Change
variable {s : State} {d : Nat} {m : MState} {k : Nat} {cmd : Option Nat}

/-- A move that the table has, with no change of the member waiting, is noted, and then carried or made. -/
theorem State.changeMember_moves (hh : s.hrn.holder = true) (hm : mayMove (s.member d).st m = true)
    (hc : (s.reb.changes.find? fun c => c.member = d) = none) : s.changeMember d m k cmd =
      if (s.noteChange ⟨d, m, k, cmd⟩).hasPeer then (s.noteChange ⟨d, m, k, cmd⟩).carryChange (.controlMsg (.memberState d m.code))
      else (s.noteChange ⟨d, m, k, cmd⟩).applyChange ⟨d, m, k, cmd⟩ := by
  simp [State.changeMember, hh, hm, hc]

theorem State.changeMember_stays (h : s.hrn.holder = false ∨ mayMove (s.member d).st m = false) : s.changeMember d m k cmd = s :=
  if_pos (by simpa using h)

theorem exec_memberStateAck_applies {d : Fin 64} {ch : MChange} (h : s.reb.changes.find? (fun c => c.member = d.val) = some ch) :
    exec (.memberStateAck d) s = .next (s.applyChange ch) := by
  change execMemberStateAck d s = _
  rw [execMemberStateAck, State.memberAcked, h]

end Change

/-! ### Add Member (R193) -/

section Add
variable {s u : State} {id fails blocks : Nat} {c : Started} (h : s.Accepts id 0x0600 [(3, 37)] (fun _ => true) (fun d => d.par 2 1 ≠ 1) c u)
  (h2 : c.desc.par 2 1 = 0) {p d : Nat} (hp : c.desc.par 1 1 = p) (hp63 : p ≤ 63) (hd : c.desc.par 0 1 = d) (hn : d < u.geoN)
include h h2 hp hp63 hd hn

/-- The checks of an Add Member with its fields in range, in their order. -/
theorem exec_addMember_inRange : exec (.addMember id fails blocks) s = .next (
    if (u.member d).st ≠ .absent || (u.reb.changes.any fun ch => ch.member = d) then u.complete c .configConflict
    else if u.lay.built && blocks < u.lay.minBlocks then u.complete c .limitExceeded
    else if reqFails fails blocks ≠ 0 then
      ((u.setFld (Reg.DRV_PORT_STATUS_REQ_OK p) 0).raise Ev.DRV_REQ_FAIL [p, reqFails fails blocks]).complete c .invalidField 1
        (reqFails fails blocks)
    else (((((u.setFld (Reg.DRV_PORT_STATUS_REQ_OK p) 1).setFld (Reg.LAY_MEMBER_PORT d) p).setMember d
      { st := .absent, blocks := blocks }).emit (.driveZero d 0 blocks)).hold c.id).changeMember d .active 0 (some c.id)) := by
  subst hp hd
  refine congrArg _ ((State.runMgmt_accepted h _).trans (if_neg ?_))
  simp only [h2, ne_eq, not_true_eq_false, decide_false, Bool.false_or, Bool.or_eq_true, decide_eq_true_eq]
  omega

theorem exec_addMember_conflict (hx : (u.member d).st ≠ .absent ∨ (u.reb.changes.any fun ch => ch.member = d) = true) :
    exec (.addMember id fails blocks) s = .next (u.complete c .configConflict) := by
  rw [exec_addMember_inRange h h2 hp hp63 hd hn, if_pos (by simpa using hx)]

variable (hs : (u.member d).st = .absent) (hc : (u.reb.changes.any fun ch => ch.member = d) = false)
include hs hc

theorem exec_addMember_small (hb : u.lay.built = true) (hl : blocks < u.lay.minBlocks) :
    exec (.addMember id fails blocks) s = .next (u.complete c .limitExceeded) := by
  rw [exec_addMember_inRange h h2 hp hp63 hd hn, if_neg (by simp [hs, hc]), if_pos (by simp [hb, hl])]

variable (hl : u.lay.built = false ∨ u.lay.minBlocks ≤ blocks)
include hl

theorem exec_addMember_fails (hr : reqFails fails blocks ≠ 0) : exec (.addMember id fails blocks) s =
    .next (((u.setFld (Reg.DRV_PORT_STATUS_REQ_OK p) 0).raise Ev.DRV_REQ_FAIL [p, reqFails fails blocks]).complete c .invalidField 1
      (reqFails fails blocks)) := by
  rw [exec_addMember_inRange h h2 hp hp63 hd hn, if_neg (by simp [hs, hc]), if_neg (by rcases hl with hl | hl <;> simp [hl]), if_pos hr]

theorem exec_addMember_adds (hr : reqFails fails blocks = 0) : exec (.addMember id fails blocks) s =
    .next ((((((u.setFld (Reg.DRV_PORT_STATUS_REQ_OK p) 1).setFld (Reg.LAY_MEMBER_PORT d) p).setMember d
      { st := .absent, blocks := blocks }).emit (.driveZero d 0 blocks)).hold c.id).changeMember d .active 0 (some c.id)) := by
  rw [exec_addMember_inRange h h2 hp hp63 hd hn, if_neg (by simp [hs, hc]), if_neg (by rcases hl with hl | hl <;> simp [hl]), if_neg (not_not.mpr hr)]

end Add

/-! ### Return, Drain and Remove Member (R209 to R211) -/

section Member
variable {s u : State} {id : Nat} {c : Started} {d : Nat} (hd : c.desc.par 0 1 = d)
include hd

theorem exec_returnMember_returns (h : s.Accepts id 0x0600 [(3, 37)] (fun _ => true) (fun d => d.par 2 1 = 1) c u) (hn : d < u.geoN)
    (hs : (u.member d).st = .suspect) (hc : (u.reb.changes.any fun ch => ch.member = d) = false) :
    exec (.returnMember id) s = .next ((u.hold c.id).changeMember d .active 0 (some c.id)) := by
  subst hd
  exact congrArg _ ((State.runMgmt_accepted h _).trans ((if_neg (Nat.not_le.mpr hn)).trans (if_neg (by simp [hs, hc]))))

theorem exec_drainMember_drains (h : s.AcceptsPlain id 0x0601 [(1, 39)] c) (hn : d < s.geoN)
    (hs : (s.member d).st = .active ∨ (s.member d).st = .suspect) (hc : (s.reb.changes.any fun ch => ch.member = d) = false) :
    exec (.drainMember id) s = .next (if s.canSubstitute d then (s.hold c.id).changeMember d .draining 0 (some c.id)
      else s.complete c .limitExceeded) := by
  subst hd
  refine congrArg _ ((State.runPlain_accepted h _).trans ((if_neg (Nat.not_le.mpr hn)).trans ((if_neg (by rcases hs with hs | hs <;> simp [hs, hc])).trans ?_)))
  cases s.canSubstitute (c.desc.par 0 1) <;> simp

theorem exec_removeMember_removes (h : s.AcceptsPlain id 0x0602 [(1, 39)] c) (hn : d < s.geoN) (hs : (s.member d).st = .failed)
    (hc : (s.reb.changes.any fun ch => ch.member = d) = false) :
    exec (.removeMember id) s = .next ((s.hold c.id).changeMember d .absent 0 (some c.id)) := by
  subst hd
  exact congrArg _ ((State.runPlain_accepted h _).trans ((if_neg (Nat.not_le.mpr hn)).trans (if_neg (by simp [hs, hc]))))

end Member

/-! ### The end of a drain and of a copy-back -/

section Done
variable {s : State}

theorem exec_drainComplete_leaves {d : Fin 64} (hs : (s.member d).st = .draining)
    (hw : (s.extents.any fun x => (s.row x.2.2.row).subs.any fun u => u.lost = d.val && !s.progressBit x.2.2.row x.2.2.band u.pos) = false)
    (hc : s.reb.current = none) : exec (.drainComplete d) s = .next (s.changeMember d .absent 8 none) := by
  change execDrainComplete d s = _
  simp only [execDrainComplete, hs, hw, hc, decide_true, Bool.not_false, Option.isNone_none, Bool.and_self, State.when_true]

theorem exec_copybackDone_ends {r : Fin 4096} {p : Nat} {u : Sub} (hu : (s.row r).subAt p = some u) (hb : u.copyback = true)
    (hh : s.hrn.holder = true) (hw : (s.extents.any fun e => e.2.2.row = r.val && s.progressBit r e.2.2.band p) = false) {v : State}
    (hv : v = (s.tellTwin (.subGone r p)).setRow r { s.row r with subs := (s.row r).subs.filter fun x => x ≠ u }) :
    exec (.copybackDone r p) s = .next ((v.writeSuperblocks).raiseIf (!(v.lay.rows.any fun x => x.2.subs.any fun y =>
      x.2.members.getD y.pos 64 = (s.row r).members.getD p 64)) Ev.RB_COPYBACK_DONE [(s.row r).members.getD p 64]) := by
  subst hv
  change execCopybackDone r p s = _
  simp only [execCopybackDone, hu, hb, hh, hw, Bool.not_false, Bool.and_self, State.when_true]

end Done

/-! ### Restoring (R218) -/

section Restore
variable {s : State} {ds : List (Nat × Nat × Nat)} (h : s.hrn.claim = .restoring)
include h

theorem exec_memberRestore_new : exec (.memberRestore none ds) s = .next (s.beginClaim true) := by
  change execMemberRestore none ds s = _
  simp only [execMemberRestore, h, decide_true, State.when_true]

/-- A restored layout is claimed where enough of its members are live. -/
theorem exec_memberRestore_restores {b : Superblock} {n : Nat}
    (hn : ((s.restore b ds).reb.members.count fun m => m.st = .active || m.st = .suspect) = n) : exec (.memberRestore (some b) ds) s =
      .next (if n < (s.restore b ds).arbCount then
        (({ s.restore b ds with hrn.claim := .none } : State).setFld Reg.HRN_CFG_EN 0).raise Ev.HRN_NO_QUORUM
      else (s.restore b ds).beginClaim false) := by
  subst hn
  change execMemberRestore (some b) ds s = _
  simp only [execMemberRestore, h, decide_true, State.when_true]

end Restore

/-- Settles O41: each clause is the case of its command, or of the change it makes, that its hypotheses select. The codes of the causes and
that a waiting change refuses Add Member are the model's choices (log entry 51). -/
theorem membersChangeStateByTheTable : Obligations.MembersChangeStateByTheTable := by
  refine ⟨?change, ?none, ?ack, ?add, ?back, ?drain, ?remove, ?drained, ?copied, ?new, ?restore⟩
  case change =>
    intro s d m k cmd ⟨hh, hm, hc⟩
    refine ⟨_, rfl, by simp [State.noteChange_reb], s.noteChange_sbSeq _, s.noteChange_member _ d, fun hp => ?_, fun hp => ?_⟩ <;>
      rw [State.changeMember_moves hh hm hc, hp]
    · exact if_pos rfl
    · exact if_neg Bool.false_ne_true
  case none => exact fun s d m k cmd h => State.changeMember_stays h
  case ack => exact fun s d ch h => exec_memberStateAck_applies h
  case add =>
    intro s u id fails blocks c ⟨h, h2, hp, hn⟩
    exact ⟨exec_addMember_conflict h h2 rfl hp rfl hn, fun hs hc => ⟨exec_addMember_small h h2 rfl hp rfl hn hs hc,
      fun hl => ⟨exec_addMember_fails h h2 rfl hp rfl hn hs hc hl, exec_addMember_adds h h2 rfl hp rfl hn hs hc hl⟩⟩⟩
  case back => exact fun s u id c ⟨h, hn, hs, hc⟩ => exec_returnMember_returns rfl h hn hs hc
  case drain => exact fun s id c ⟨h, hn, hs, hc⟩ => exec_drainMember_drains rfl h hn hs hc
  case remove => exact fun s id c ⟨h, hn, hs, hc⟩ => exec_removeMember_removes rfl h hn hs hc
  case drained => exact fun s d ⟨hs, hw, hc⟩ => exec_drainComplete_leaves hs hw hc
  case copied => exact fun s r p u ⟨hu, hb, hh, hw⟩ => ⟨_, rfl, exec_copybackDone_ends hu hb hh hw rfl⟩
  case new => exact fun s ds h => exec_memberRestore_new h
  case restore =>
    intro s b ds n ⟨h, hn⟩
    rw [exec_memberRestore_restores h hn]
    exact ⟨fun hl => by rw [if_pos hl], fun hl => by rw [if_neg (Nat.not_lt.mpr hl)]⟩

end Sys2Proof.Machine
end

section
/-! Proofs of the drive ports and the sideband of family 12 (R192, R202, R215 to R217, R222, R369): the ends of drive commands, the faults of
members, and the events of ports. -/
namespace Sys2Proof.Machine

/-! ### Drive commands (R191, R192, R202) -/

theorem State.driveError_write {s : State} {c : DrvCmd} (hr : c.isRead = false) (m : Bool) : s.driveError c m =
    ((s.countPort c.member 4 1).endFailed c).pathFault c.member fun s => s.changeMember c.member .failed 4 none := by
  simp [State.driveError, hr]

theorem State.driveError_read {s : State} {c : DrvCmd} (hr : c.isRead = true) (m : Bool) : s.driveError c m =
    ((s.countPort c.member 4 1).endFailed c).pathFault c.member fun s => if m then s.mediaFault c.member else s := by
  simp [State.driveError, hr]

theorem State.pathFault_holder {s : State} (h : s.hrn.holder = true) (d : Nat) (f : State → State) : s.pathFault d f = f s := if_pos h

section Command
variable {s : State} {id : Nat} {c : DrvCmd} (h : s.drv.cmds.find? (fun c => c.id = id) = some c)
include h

/-- What becomes of a drive command's result. -/
theorem exec_driveCompletion_found (r : DrvResult) {off : State} (ho : off = { s with drv.cmds := s.drv.cmds.filter fun x => x.id ≠ id }) :
    exec (.driveCompletion id r) s = .next (match r with
      | .data b => if c.isRead then ((off.countDrive c).noteRead c).driveData c b else s
      | .done => if c.isRead then s else (off.countDrive c).driveWrote c
      | .mediaError => s.driveError c true
      | .error => s.driveError c false
      | .aborted => if c.isRead then off.drive c.member c.use true c.lba (.driveRead c.member c.lba) else off) := by
  subst ho
  change execDriveCompletion id r s = _
  cases r <;> simp only [execDriveCompletion, h]

theorem exec_driveCmdTimeout_found : exec (.driveCmdTimeout id) s =
    .next ((s.abortLate c).pathFault c.member fun s => s.timeoutFault c.member c.isRead) := by
  change execDriveCmdTimeout id s = _
  rw [execDriveCmdTimeout, h]

end Command

/-! ### Faults of a member (R191) -/

section Member
variable {s : State} {d : Fin 64} {n : Nat} (h : s.hrn.holder = true)
include h

theorem exec_driveCfs_fails : exec (.driveCfs d) s = .next (s.changeMember d .failed 9 none) :=
  congrArg _ (State.pathFault_holder h d _)

theorem exec_smartWarning_holder : exec (.smartWarning d n) s = .next (if n.testBit 3 then s.changeMember d .failed 10 none
    else if n.testBit 0 || n.testBit 2 then s.suspectMember d 11 else s) := by
  change execSmartWarning d n s = _
  simp only [execSmartWarning, State.pathFault_holder h]

end Member

/-! ### Ports (R215 to R217, R369) -/

section Port
variable {s u : State} {p : Fin 64} {v : Word}

theorem exec_drivePortEnable_discards
    (h : 8192 < s.pairsWith p v ∨ (s.flag Reg.DRV_CFG_WIDTH = true ∧ p.val % 2 = 1 ∧ v.getLsbD 0 = true)) :
    exec (.drivePortEnable p v) s = .next s := by
  refine congrArg _ (if_pos ?_)
  rcases h with hp | ⟨hw, ho, hv⟩
  · simp only [hp, decide_true, Bool.or_true]
  · simp only [hw, ho, hv, decide_true, Bool.and_self, Bool.true_or]

theorem exec_drivePortEnable_stores (ho : s.flag Reg.DRV_CFG_WIDTH = false ∨ p.val % 2 = 0 ∨ v.getLsbD 0 = false)
    (hp : s.pairsWith p v ≤ 8192) (hu : s.storeReg (Reg.DRV_PORT_CFG_EN p).addr v = some u) : exec (.drivePortEnable p v) s =
      .next (if v.getLsbD 0 = false ∧ s.flag (Reg.DRV_PORT_STATUS_LINK_UP p) = true then u.driveLinkDown p false else u) := by
  refine congrArg _ ((if_neg ?_).trans ?_)
  · rw [Bool.or_eq_true, decide_eq_true_eq, not_or]
    refine ⟨?_, Nat.not_lt.mpr hp⟩
    rcases ho with ho | ho | ho <;> simp only [ho, Bool.false_and, Bool.and_false, Bool.false_eq_true, not_false_eq_true, Nat.zero_ne_one, decide_false]
  · rw [hu]
    simp only [Bool.and_eq_true, Bool.not_eq_true']

/-- LINK_HOLD of port `p` no longer runs. -/
def State.stopHold (s : State) (p : Nat) : State := { s with drv.holdAt := Assoc.set 0 s.drv.holdAt p 0 }

theorem State.stopHold_setFld (s : State) (p : Nat) (r : Ref) (v : Nat) : (s.setFld r v).stopHold p = (s.stopHold p).setFld r v := rfl

/-- A link that trains: its status stands, and LINK_HOLD no longer runs. -/
def State.linkTrained (s : State) (p rate lanes g : Nat) : State :=
  let s := ((s.setFld (Reg.DRV_PORT_STATUS_LINK_UP p) 1).setFld (Reg.DRV_PORT_STATUS_RATE p) rate).setFld (Reg.DRV_PORT_STATUS_LANES p) lanes
  ((s.setFld (Reg.DRV_PORT_STATUS_DPC p) 0).setFld (Reg.DRV_PORT_STATUS_QGRANT p) (min g (s.fld (Reg.DRV_PORT_CFG_QUEUES p)))).stopHold p

theorem State.linkTrained_of_stopped {p rate lanes g : Nat} (hu : u = (((s.stopHold p).setFld (Reg.DRV_PORT_STATUS_LINK_UP p) 1).setFld
    (Reg.DRV_PORT_STATUS_RATE p) rate).setFld (Reg.DRV_PORT_STATUS_LANES p) lanes) : s.linkTrained p rate lanes g =
      (u.setFld (Reg.DRV_PORT_STATUS_DPC p) 0).setFld (Reg.DRV_PORT_STATUS_QGRANT p) (min g (u.fld (Reg.DRV_PORT_CFG_QUEUES p))) := by
  subst hu
  have hq (x : State) : min g (x.fld (Reg.DRV_PORT_CFG_QUEUES p)) = min g ((x.stopHold p).fld (Reg.DRV_PORT_CFG_QUEUES p)) := rfl
  rw [State.linkTrained, hq]
  simp only [State.stopHold_setFld]

/-- The holder has the drive of port `p` report its reservation, where a member stands there. -/
def State.askHold (s : State) (p : Nat) (k : Option Nat) : State :=
  match s.memberOn p with
  | some d => if s.hrn.holder then s.checkHold d k else s
  | none => s

theorem State.askHold_member {d : Nat} (hd : s.memberOn p = some d) (hh : s.hrn.holder = true) (k : Option Nat) :
    s.askHold p k = s.checkHold d k := by
  rw [State.askHold, hd]
  exact if_pos hh

theorem State.askHold_none (h : s.memberOn p = none ∨ s.hrn.holder = false) (k : Option Nat) : s.askHold p k = s := by
  unfold State.askHold
  split
  · next hd => exact if_neg (by simp [h.resolve_left (by simp [hd])])
  · rfl

theorem exec_driveLinkUp_trains {rate lanes g : Nat} {k : Option Nat} (he : s.flag (Reg.DRV_PORT_CFG_EN p) = true)
    (hr : rate ≤ s.fld Reg.DRV_CFG_MAX_RATE) (h0 : 0 < lanes) (hl : lanes ≤ if s.flag Reg.DRV_CFG_WIDTH then 4 else 2)
    (hd : s.pwr.st ≠ .deep) : exec (.driveLinkUp p rate lanes g k) s =
      .next (State.askHold ((s.linkTrained p rate lanes g).raise Ev.DRV_LINK [p, rate, lanes]) p k) := by
  refine congrArg _ (if_pos ?_)
  simp only [he, hr, h0, hl, hd, decide_true, and_self, Bool.and_self, ne_eq, not_false_eq_true]

theorem exec_driveLinkDown_drops (h : s.flag (Reg.DRV_PORT_STATUS_LINK_UP p) = true) (b : Bool) :
    exec (.driveLinkDown p b) s = .next (s.driveLinkDown p b) := by
  change execDriveLinkDown p b s = _
  rw [execDriveLinkDown, h, State.when_true]

theorem exec_linkHoldExpire_fails {d : Nat} (h : Assoc.get 0 s.drv.holdAt p.val ≠ 0)
    (hu : u = ({ s with drv.holdAt := Assoc.set 0 s.drv.holdAt p.val 0 } : State).reach (Assoc.get 0 s.drv.holdAt p.val))
    (hd : u.memberOn p = some d) : exec (.linkHoldExpire p) s = .next (u.pathFault d fun s => s.changeMember d .failed 3 none) := by
  subst hu
  change execLinkHoldExpire p s = _
  simp only [execLinkHoldExpire, h, ne_eq, not_false_eq_true, decide_true, State.when_true, hd]

end Port

theorem exec_driveAer_counts (s : State) (p : Fin 64) (b : Bool) (n : Nat) : exec (.driveAer p b n) s =
    .next (if b then (s.bump (Reg.DRV_AER_CNT_UNCORR p)).raise Ev.DRV_AER_UNCORR [p, n]
      else (s.bump (Reg.DRV_AER_CNT_CORR p)).raise Ev.DRV_AER_CORR [p]) := by
  change execDriveAer p b n s = _
  rw [execDriveAer]

/-! ### I3C (R222) -/

theorem exec_i3cIbi_counts {s : State} {b : Fin 8} (h : s.flag (Reg.SBD_I3C_CFG_EN b) = true) (a x : Nat) :
    exec (.i3cIbi b a x) s = .next ((s.bump (Reg.SBD_I3C_ERR_IBI b)).raise Ev.I3C_IBI [b, a, x]) := by
  change execI3cIbi b a x s = _
  rw [execI3cIbi, h, State.when_true]

theorem exec_i3cNack_counts {s : State} {b : Fin 8} (h : s.flag (Reg.SBD_I3C_CFG_EN b) = true) (a : Nat) :
    exec (.i3cNack b a) s = .next ((s.bump (Reg.SBD_I3C_ERR_NACK b)).raise Ev.I3C_ERR [b, a]) := by
  change execI3cNack b a s = _
  rw [execI3cNack, h, State.when_true]

/-- Settles O42: each clause is the case of its drive's answer, or of its port's event, that its hypotheses select. That an odd port's enable is
discarded in x4 mode (log entry 52), the codes of the causes (log entry 51) and the aborted write (log entry 140) are the model's choices. -/
theorem drivePortsReportAndEndCommands : Obligations.DrivePortsReportAndEndCommands := by
  refine ⟨?ends, ?writeError, ?readError, ?timeout, ?faults, ?stores, ?discards, ?up, ?down, ?hold, ?events, ?buses⟩
  case ends =>
    intro s u id c b ⟨h, hu⟩
    exact ⟨fun hr => by rw [exec_driveCompletion_found h _ hu]; exact congrArg _ (if_pos hr),
      fun hr => by rw [exec_driveCompletion_found h _ hu]; exact congrArg _ (if_neg (by simp [hr]))⟩
  case writeError =>
    intro s id c ⟨h, hr⟩
    rw [exec_driveCompletion_found h _ rfl]
    exact congrArg _ (State.driveError_write hr false)
  case readError =>
    intro s id c h
    refine ⟨fun hr => ⟨?_, ?_, ?_⟩, fun hr => ?_⟩ <;> rw [exec_driveCompletion_found h _ rfl]
    · exact congrArg _ (State.driveError_read hr true)
    · exact congrArg _ (State.driveError_read hr false)
    · exact congrArg _ (if_pos hr)
    · exact congrArg _ (if_neg (by simp [hr]))
  case timeout => exact fun s id c h => exec_driveCmdTimeout_found h
  case faults =>
    intro s d n h
    rw [exec_smartWarning_holder h]
    exact ⟨exec_driveCfs_fails h, fun h3 => by rw [if_pos h3], fun h3 hb => by rw [if_neg (by simp [h3]), if_pos (Bool.or_eq_true_iff.mpr hb)],
       fun h3 h0 h2 => by
        rw [if_neg (by simp [h3]), if_neg (by rw [h0, h2]; decide)]⟩
  case stores => exact fun s u p v ⟨ho, hp, hu⟩ => exec_drivePortEnable_stores ho hp hu
  case discards => exact fun s p v h => exec_drivePortEnable_discards h
  case up =>
    intro s u p rate lanes g k ⟨hu, he, hr, h0, hl, hd⟩
    refine ⟨_, rfl, fun d hm hh => ?_, fun h => ?_⟩ <;> rw [exec_driveLinkUp_trains he hr h0 hl hd, State.linkTrained_of_stopped hu]
    · rw [State.askHold_member hm hh]
    · rw [State.askHold_none h]
  case down => exact fun s p b h => exec_driveLinkDown_drops h b
  case hold => exact fun s u p d ⟨h, hu, hd⟩ => exec_linkHoldExpire_fails h hu hd
  case events => exact fun s p n => ⟨by rw [exec_driveAer_counts, if_pos rfl], by rw [exec_driveAer_counts, if_neg Bool.false_ne_true], rfl⟩
  case buses => exact fun s b a x h => ⟨exec_i3cIbi_counts h a x, exec_i3cNack_counts h a⟩

end Sys2Proof.Machine
end

section
/-! Proofs of the Stirrup channels of family 12 (R219 to R238): the slot commands and the events of a channel. -/
namespace Sys2Proof.Machine

/-! ### Reading channels -/

section Chan
variable (s : State) (n : Nat)

@[simp] theorem State.setChan_chan_same (x : Chan) : (s.setChan n x).chan n = x := Assoc.get_set_same _ _ n x

@[simp] theorem State.setChan_chan_other {m : Nat} (x : Chan) (h : m ≠ n) : (s.setChan n x).chan m = s.chan m :=
  Assoc.get_set_other _ _ _ n m x h

@[simp] theorem State.updChan_chan_same (f : Chan → Chan) : (s.updChan n f).chan n = f (s.chan n) := s.setChan_chan_same n _

@[simp] theorem State.updChan_chan_other {m : Nat} (f : Chan → Chan) (h : m ≠ n) : (s.updChan n f).chan m = s.chan m :=
  s.setChan_chan_other n _ h

theorem State.chan_of_str {s u : State} (h : u.str = s.str) (n : Nat) : u.chan n = s.chan n := by rw [State.chan, h, State.chan]

end Chan

/-! ### Slot Configure and Slot Locate (R233) -/

section Configure
variable {s u : State} {id : Nat} {c : Started} {n : Nat} (hn : c.desc.par 0 1 = n)
include hn

section Settings
variable (h : s.Accepts id 0x0300 [(0x0C, 28)] (fun _ => true) (fun d => !isLocate d) c u)
include h

theorem exec_slotConfigure_carried (hr : c.ring = carriedRing) :
    exec (.slotConfigure id) s = .next ((u.setSlotCfg n c.desc).complete c .success) := by
  subst hn
  exact congrArg _ ((State.runMgmt_accepted h _).trans (if_pos hr))

variable (hr : c.ring ≠ carriedRing)
include hr

theorem exec_slotConfigure_busy (hb : u.slotBusy n = true) : exec (.slotConfigure id) s = .next (u.complete c .busy) := by
  subst hn
  exact congrArg _ ((State.runMgmt_accepted h _).trans ((if_neg hr).trans (if_pos hb)))

variable (hb : u.slotBusy n = false)
include hb

theorem exec_slotConfigure_missing (ho : u.slotOk n = false) :
    exec (.slotConfigure id) s = .next (u.complete c .invalidField) := by
  subst hn
  exact congrArg _ ((State.runMgmt_accepted h _).trans ((if_neg hr).trans ((if_neg (by simp [hb])).trans (if_pos (by simp [ho])))))

variable (ho : u.slotOk n = true)
include ho

/-- The checks 1 to 5 of R233, behind BUSY and the slot's existence. -/
theorem exec_slotConfigure_checks : exec (.slotConfigure id) s = .next (if (u.chan n).st ≠ .off then u.complete c .configConflict
    else if !slotFieldsOk c.desc then u.complete c .invalidField
    else if !slotLimitsOk c.desc then u.complete c .invalidField
    else if c.desc.par 6 2 < c.desc.par 5 1 + 2 then u.complete c .invalidField
    else if c.desc.par 2 1 = 3 then u.complete c .configConflict
    else (u.setSlotCfg n c.desc).holderDone c) := by
  subst hn
  exact congrArg _ ((State.runMgmt_accepted h _).trans ((if_neg hr).trans ((if_neg (by simp [hb])).trans (if_neg (by simp [ho])))))

theorem exec_slotConfigure_powered (hs : (u.chan n).st ≠ .off) : exec (.slotConfigure id) s = .next (u.complete c .configConflict) := by
  rw [exec_slotConfigure_checks hn h hr hb ho, if_pos hs]

variable (hs : (u.chan n).st = .off)
include hs

theorem exec_slotConfigure_invalid (hx : slotFieldsOk c.desc = false ∨ slotLimitsOk c.desc = false ∨ c.desc.par 6 2 < c.desc.par 5 1 + 2) :
    exec (.slotConfigure id) s = .next (u.complete c .invalidField) := by
  rw [exec_slotConfigure_checks hn h hr hb ho, if_neg (not_not.mpr hs)]
  rcases hx with hx | hx | hx <;> simp [hx]

theorem exec_slotConfigure_takes (hf : slotFieldsOk c.desc = true) (hl : slotLimitsOk c.desc = true)
    (hm : c.desc.par 5 1 + 2 ≤ c.desc.par 6 2) : exec (.slotConfigure id) s =
      .next (if c.desc.par 2 1 = 3 then u.complete c .configConflict else (u.setSlotCfg n c.desc).holderDone c) := by
  rw [exec_slotConfigure_checks hn h hr hb ho, if_neg (not_not.mpr hs), if_neg (by simp [hf]), if_neg (by simp [hl]),
    if_neg (Nat.not_lt.mpr hm)]

end Settings

section Locate
variable (h : s.Accepts id 0x0300 [] (fun _ => true) isLocate c u)
include h

theorem exec_slotLocate_sets (hlt : n < 64) :
    exec (.slotLocate id) s = .next ((u.setFld (Reg.STR_SLOT_CFG_LOCATE n) (c.desc.par 1 1 / 2 % 2)).holderDone c) := by
  subst hn
  exact congrArg _ ((State.runMgmt_accepted h _).trans (if_neg (by omega)))

theorem exec_slotLocate_missing (hge : 64 ≤ n) : exec (.slotLocate id) s = .next (u.complete c .invalidField) := by
  subst hn
  exact congrArg _ ((State.runMgmt_accepted h _).trans (if_pos hge))

end Locate
end Configure

/-! ### Slot Enable (R224) -/

section Enable
variable {s : State} {id : Nat} {c : Started} {n : Nat} (hn : c.desc.par 0 1 = n) (h : s.AcceptsPlain id 0x0301 [(1, 39)] c)
include hn h

theorem exec_slotEnable_accepted : exec (.slotEnable id) s = .next (if c.ring = carriedRing then s.complete c .success
    else if s.slotBusy n then s.complete c .busy
    else if !s.slotOk n then s.complete c .invalidField
    else if (s.chan n).st ≠ .off then s.complete c .configConflict
    else (s.enterRamp n).holderDone c) := by
  subst hn
  exact congrArg _ (State.runPlain_accepted h _)

end Enable

/-- Entering RAMP pulls the gate down and starts RAMP_TMO; the other channels stay. -/
theorem State.enterRamp_chan (s : State) (n : Nat) : (s.enterRamp n).chan n =
    { (s.chan n).gateOff with st := .ramp, rampTmo := s.now + s.fld (Reg.STR_SLOT_CFG_RAMP_TMO n) * 1000000 } := s.updChan_chan_same n _

/-! ### Slot Disable (R232) -/

section Disable
variable {s : State} {id : Nat} {c : Started} {n : Nat} (hn : c.desc.par 0 1 = n) (h : s.AcceptsPlain id 0x0302 [(2, 38)] c)
include hn h

theorem exec_slotDisable_busy (hb : s.slotBusy n = true) : exec (.slotDisable id) s = .next (s.complete c .busy) := by
  subst hn
  exact congrArg _ ((State.runPlain_accepted h _).trans (if_pos hb))

variable (hb : s.slotBusy n = false)
include hb

theorem exec_slotDisable_invalid (hx : 64 ≤ n ∨ 4 ≤ c.desc.par 1 1) : exec (.slotDisable id) s = .next (s.complete c .invalidField) := by
  subst hn
  refine congrArg _ ((State.runPlain_accepted h _).trans ((if_neg (by simp [hb])).trans (if_pos ?_)))
  simp only [Bool.or_eq_true, decide_eq_true_eq]
  omega

variable (hlt : n < 64) (hf : c.desc.par 1 1 < 4)
include hlt hf

theorem exec_slotDisable_carried (hr : c.ring = carriedRing) : exec (.slotDisable id) s =
    .next (if (s.chan n).st.powered then (s.hold c.id).assertPerst n c.id s.now else s.complete c .success) := by
  subst hn
  refine congrArg _ ((State.runPlain_accepted h _).trans ((if_neg (by simp [hb])).trans ((if_neg ?_).trans (if_pos hr))))
  simp only [Bool.or_eq_true, decide_eq_true_eq]
  omega

variable (hr : c.ring ≠ carriedRing)
include hr

/-- What becomes of a Slot Disable from a ring by the slot's state. -/
theorem exec_slotDisable_byState : exec (.slotDisable id) s = .next (if (s.chan n).st = .off then s.complete c .success
    else if (s.chan n).st = .ramp || (s.chan n).st = .tripped || (s.chan n).st = .locked then s.complete c .configConflict
    else if s.slotLive n && !(c.desc.par 1 1).testBit 0 then s.complete c .configConflict
    else
      let u := if s.slotLive n then s.slotMember n .failed 12 else s
      let till := u.now + u.fld Reg.STR_CFG_SHUT_TMO * 100000000
      if (c.desc.par 1 1).testBit 1 then (u.hold c.id).assertPerst n c.id till
      else ((u.hold c.id).updChan n fun x => { x with disabling := some ⟨c.id, till, none⟩ }).emit (.driveShutdown n)) := by
  subst hn
  refine congrArg _ ((State.runPlain_accepted h _).trans ((if_neg (by simp [hb])).trans ((if_neg ?_).trans (if_neg hr))))
  simp only [Bool.or_eq_true, decide_eq_true_eq]
  omega

theorem exec_slotDisable_unpowered (hs : (s.chan n).st = .ramp ∨ (s.chan n).st = .tripped ∨ (s.chan n).st = .locked) :
    exec (.slotDisable id) s = .next (s.complete c .configConflict) := by
  rw [exec_slotDisable_byState hn h hb hlt hf hr]
  rcases hs with hs | hs | hs <;> simp [hs]

variable (hs : (s.chan n).st = .on ∨ (s.chan n).st = .warn)
include hs

theorem exec_slotDisable_unforced (hl : s.slotLive n = true) (h0 : (c.desc.par 1 1).testBit 0 = false) :
    exec (.slotDisable id) s = .next (s.complete c .configConflict) := by
  rw [exec_slotDisable_byState hn h hb hlt hf hr, if_neg (by rcases hs with hs | hs <;> simp [hs]),
    if_neg (by rcases hs with hs | hs <;> simp [hs]), if_pos (by rw [hl, h0]; rfl)]

/-- A powered slot whose member is not live, or which FORCE has failed, is shut down, or its PERST asserted at once with NOSHUT. -/
theorem exec_slotDisable_starts {u : State} (hu : (s.slotLive n = true ∧ (c.desc.par 1 1).testBit 0 = true ∧ u = s.slotMember n .failed 12) ∨
    (s.slotLive n = false ∧ u = s)) : exec (.slotDisable id) s =
      .next (if (c.desc.par 1 1).testBit 1 then (u.hold c.id).assertPerst n c.id (u.now + u.fld Reg.STR_CFG_SHUT_TMO * 100000000)
      else ((u.hold c.id).updChan n fun x =>
        { x with disabling := some ⟨c.id, u.now + u.fld Reg.STR_CFG_SHUT_TMO * 100000000, none⟩ }).emit (.driveShutdown n)) := by
  rw [exec_slotDisable_byState hn h hb hlt hf hr, if_neg (by rcases hs with hs | hs <;> simp [hs]),
    if_neg (by rcases hs with hs | hs <;> simp [hs])]
  rcases hu with ⟨hl, h0, rfl⟩ | ⟨hl, rfl⟩
  · simp only [hl, h0, Bool.not_true, Bool.and_false, Bool.false_eq_true, if_false, if_true]
  · simp only [hl, Bool.false_and, Bool.false_eq_true, if_false]

end Disable

theorem exec_slotShutdownDone_asserts {s : State} {n : Fin 64} {id till : Nat} (h : (s.chan n).disabling = some ⟨id, till, none⟩) (b : Bool) :
    exec (.slotShutdownDone n b) s = .next ((if b then s else s.reach till).assertPerst n id till) := by
  change execSlotShutdownDone n b s = _
  rw [execSlotShutdownDone, h]

theorem exec_slotGateOff_ends {s : State} {n : Fin 64} {id till t : Nat} (h : (s.chan n).disabling = some ⟨id, till, some t⟩) :
    exec (.slotGateOff n) s = .next (((s.reach t).enterOff n).endSlotCmd (some id) .success) := by
  change execSlotGateOff n s = _
  rw [execSlotGateOff, h]

/-! ### Slot Clear Trip (R229, R230) -/

/-- The slot is OFF with no retry counted. -/
def State.clearedOff (s : State) (n : Nat) : State := (s.enterOff n).updChan n fun x => { x with retries := 0 }

section Clear
variable {s : State} {id : Nat} {c : Started} {n : Nat} (hn : c.desc.par 0 1 = n) (h : s.AcceptsPlain id 0x0303 [(1, 39)] c)
include hn h

theorem exec_slotClearTrip_accepted : exec (.slotClearTrip id) s = .next (if s.slotBusy n then s.complete c .busy
    else if 63 < n then s.complete c .invalidField
    else if (s.chan n).st = .locked then (if (s.chan n).short then s.complete c .configConflict else (s.clearedOff n).holderDone c)
    else if (s.chan n).st = .tripped then (s.hold c.id).updChan n fun x => { x with clearing := some c.id, retries := 0 }
    else if c.ring = carriedRing && (s.chan n).st.powered then (s.clearedOff n).complete c .success
    else s.complete c .configConflict) := by
  subst hn
  exact congrArg _ (State.runPlain_accepted h _)

variable (hb : s.slotBusy n = false) (hlt : n < 64)
include hb hlt

theorem exec_slotClearTrip_locked (hs : (s.chan n).st = .locked) : exec (.slotClearTrip id) s =
    .next (if (s.chan n).short then s.complete c .configConflict else (s.clearedOff n).holderDone c) := by
  rw [exec_slotClearTrip_accepted hn h, if_neg (by simp [hb]), if_neg (by omega), if_pos hs]

theorem exec_slotClearTrip_tripped (hs : (s.chan n).st = .tripped) : exec (.slotClearTrip id) s =
    .next ((s.hold c.id).updChan n fun x => { x with clearing := some c.id, retries := 0 }) := by
  rw [exec_slotClearTrip_accepted hn h, if_neg (by simp [hb]), if_neg (by omega), if_neg (by simp [hs]), if_pos hs]

theorem exec_slotClearTrip_other (hl : (s.chan n).st ≠ .locked) (ht : (s.chan n).st ≠ .tripped) : exec (.slotClearTrip id) s =
    .next (if c.ring = carriedRing && (s.chan n).st.powered then (s.clearedOff n).complete c .success
      else s.complete c .configConflict) := by
  rw [exec_slotClearTrip_accepted hn h, if_neg (by simp [hb]), if_neg (by omega), if_neg hl, if_neg ht]

end Clear

theorem SlotSt.ne_of_powered {x y : SlotSt} (h : x.powered = true) (hy : y.powered = false) : x ≠ y := fun he => by simp [he, hy] at h

/-- Settles O43: each clause is the case of its command, in the order of its checks, that its hypotheses select. That a slot command meets
INVALID_FIELD on an odd slot in x4 mode is log entry 52; Slot Locate, Disable and Clear Trip ask for a slot below 64 (log entry 134). -/
theorem slotCommandsAreCheckedInOrder : Obligations.SlotCommandsAreCheckedInOrder := by
  refine ⟨?configure, ?locate, ?enable, ?ramp, ?disable, ?disableByState, ?shutdown, ?gate, ?clear⟩
  case configure =>
    intro s u id c h
    exact ⟨exec_slotConfigure_carried rfl h, fun hr => ⟨exec_slotConfigure_busy rfl h hr, exec_slotConfigure_missing rfl h hr,
      exec_slotConfigure_powered rfl h hr, fun hb ho hs => ⟨exec_slotConfigure_invalid rfl h hr hb ho hs,
        exec_slotConfigure_takes rfl h hr hb ho hs⟩⟩⟩
  case locate => exact fun s u id c h => ⟨exec_slotLocate_sets rfl h, exec_slotLocate_missing rfl h⟩
  case enable =>
    intro s id c h
    rw [exec_slotEnable_accepted rfl h]
    refine ⟨fun hr => by rw [if_pos hr], fun hr => ?_⟩
    rw [if_neg hr]
    exact ⟨fun hb => by rw [if_pos hb], fun hb ho => by simp [hb, ho], fun hb ho hs => by simp [hb, ho, hs],
      fun hb ho hs => by simp [hb, ho, hs]⟩
  case ramp =>
    intro s n
    rw [s.enterRamp_chan n]
    exact ⟨rfl, rfl, rfl, rfl, fun m hm => s.updChan_chan_other n _ hm, rfl⟩
  case disable =>
    exact fun s id c h => ⟨exec_slotDisable_busy rfl h, exec_slotDisable_invalid rfl h, exec_slotDisable_carried rfl h⟩
  case disableByState =>
    intro s id c ⟨h, hr, hlt, hb, hf⟩
    refine ⟨fun hs => ?_, exec_slotDisable_unpowered rfl h hb hlt hf hr, fun hs => ⟨exec_slotDisable_unforced rfl h hb hlt hf hr hs,
      fun u hu => ?_⟩⟩
    · rw [exec_slotDisable_byState rfl h hb hlt hf hr, if_pos hs]
    · rw [exec_slotDisable_starts rfl h hb hlt hf hr hs hu]
      exact ⟨fun h1 => by rw [if_pos h1], fun h1 => by rw [h1]; rfl⟩
  case shutdown => exact fun s n id till b h => exec_slotShutdownDone_asserts h b
  case gate => exact fun s n id till t h => exec_slotGateOff_ends h
  case clear =>
    intro s id c h
    refine ⟨fun hb => ?_, fun hb hge => ?_, fun hb hlt => ⟨fun hs hx => ?_, fun hs hx => ?_, exec_slotClearTrip_tripped rfl h hb hlt,
      fun hr hl ht => ?_, fun hr hp => ?_⟩⟩
    · rw [exec_slotClearTrip_accepted rfl h, if_pos hb]
    · rw [exec_slotClearTrip_accepted rfl h, if_neg (by simp [hb]), if_pos (Nat.lt_of_succ_le hge)]
    · rw [exec_slotClearTrip_locked rfl h hb hlt hs, if_pos hx]
    · rw [exec_slotClearTrip_locked rfl h hb hlt hs, if_neg (by simp [hx]), State.clearedOff]
    · rw [exec_slotClearTrip_other rfl h hb hlt hl ht, if_neg (by simp [hr])]
    · rw [exec_slotClearTrip_other rfl h hb hlt (SlotSt.ne_of_powered hp rfl) (SlotSt.ne_of_powered hp rfl), if_pos (by simp [hr, hp]),
        State.clearedOff]

end Sys2Proof.Machine
end

section
/-! Proofs of the events of a Stirrup channel of family 12 (R219, R220, R224 to R230, R235, R238): ramp, trip, cool-down, retry and lock. -/
namespace Sys2Proof.Machine

/-! ### Ramp and power-good (R224, R227) -/

section Power
variable {s u : State} {n : Fin 64} {m : Meas} (hu : u = s.measure n m)
include hu

theorem exec_rampThresholdReached_arms (h : (u.chan n).st = .ramp) :
    exec (.rampThresholdReached n m) s = .next (u.updChan n fun x => { x with armed := true, gate := true }) := by
  subst hu
  exact congrArg _ (if_pos (decide_eq_true h))

/-- PG of an armed channel whose fault timer does not run. -/
theorem exec_pgAssert_armed (hp : (u.chan n).pg = false) (ha : (u.chan n).armed = true) (hf : (u.chan n).faultAt = none) :
    exec (.pgAssert n m) s = .next (if (u.chan n).st = .ramp then
        ((u.updChan n fun x => { x with pg := true, perstAt := some (u.now + u.fld Reg.STR_CFG_PERST_DLY * 1000000) }).enterOn n).reportPg n
      else if (u.chan n).st = .on then
        (u.updChan n fun x => { x with
          pg := true
          perstAt := if x.perst && x.disabling.isNone then some (u.now + u.fld Reg.STR_CFG_PERST_DLY * 1000000) else x.perstAt }).reportPg n
      else u) := by
  subst hu
  exact congrArg _ (if_neg (by simp [hp, ha, hf]))

theorem exec_pgLoss_on (h : (u.chan n).st = .on) : exec (.pgLoss n m) s =
    .next (if u.pwr.vinWarn || u.pwr.st = .drain then u.updChan n fun x => { x with pg := false, perstAt := none } else u.trip n 4) := by
  subst hu
  exact congrArg _ (if_pos (decide_eq_true h))

end Power

section Timers
variable {s : State} {n : Fin 64}

theorem exec_rampTmoExpire_trips (hs : (s.chan n).st = .ramp ∨ (s.chan n).st = .warn) (ht : (s.chan n).rampTmo ≠ 0)
    (hp : (s.chan n).pg = false) : exec (.rampTmoExpire n) s = .next ((s.reach (s.chan n).rampTmo).trip n 3) :=
  congrArg _ (if_pos (by rcases hs with hs | hs <;> simp [hs, ht, hp]))

theorem exec_perstDlyExpire_releases {t : Nat} (h : (s.chan n).perstAt = some t) :
    exec (.perstDlyExpire n) s = .next ((s.reach t).updChan n fun x => { x with perst := false, perstAt := none }) := by
  change execPerstDlyExpire n s = _
  rw [execPerstDlyExpire, h]

theorem exec_peerPgReport_ramps (hh : s.hrn.holder = false) (h : (s.chan n).st = .off) : exec (.peerPgReport n) s = .next (s.enterRamp n) :=
  congrArg _ (if_pos (by simp [hh, h]))

theorem exec_retriesClear_clears (h : (s.chan n).st = .on) : exec (.retriesClear n) s =
    .next ((s.reach ((s.chan n).onSince + 60 * 1000000000)).updChan n fun x => { x with retries := 0 }) :=
  congrArg _ (if_pos (decide_eq_true h))

end Timers

/-! ### Trips (R223, R225, R226, R238) -/

section Trip
variable (s : State) (n k : Nat)

/-- A trip before the slot command that it ends and the member that it fails. -/
def State.tripped (s : State) (n k : Nat) : State :=
  let s := s.updChan n fun x =>
    { x.gateOff with st := .tripped, cause := k, disabling := none, coolAt := s.now + s.fld (Reg.STR_SLOT_CFG_COOL n) * 1000000000 }
  (s.bump (Reg.STR_SLOT_PEAK_TRIPS n)).raise Ev.STR_TRIP [n, k, s.fld (Reg.STR_SLOT_PEAK_PEAK n)]

theorem State.tripped_str : (s.tripped n k).str = (s.updChan n fun x => { x.gateOff with
    st := .tripped, cause := k, disabling := none, coolAt := s.now + s.fld (Reg.STR_SLOT_CFG_COOL n) * 1000000000 }).str := by
  rw [State.tripped, State.raise_str, State.bump_str]

theorem State.tripped_chan_same : (s.tripped n k).chan n = { (s.chan n).gateOff with
    st := .tripped, cause := k, disabling := none, coolAt := s.now + s.fld (Reg.STR_SLOT_CFG_COOL n) * 1000000000 } :=
  (State.chan_of_str (s.tripped_str n k) n).trans (s.updChan_chan_same n _)

theorem State.tripped_chan_other {m : Nat} (h : m ≠ n) : (s.tripped n k).chan m = s.chan m :=
  (State.chan_of_str (s.tripped_str n k) m).trans (s.updChan_chan_other n _ h)

/-- The count of trips shares no bits with a member's port. -/
theorem State.tripped_portOf : (s.tripped n k).portOf = s.portOf := by
  funext d
  rw [State.portOf, State.tripped, State.raise_fld, State.bump,
    State.setFld_fld_apart _ _ (by simp [Reg.STR_SLOT_PEAK_TRIPS]) (by simp [Reg.STR_SLOT_PEAK_TRIPS])
      (.inr (.inl (by simp [Reg.STR_SLOT_PEAK_TRIPS, Reg.LAY_MEMBER_PORT])))]
  exact State.fld_of_regs rfl _

theorem State.tripped_memberOn : (s.tripped n k).memberOn n = s.memberOn n := by
  have hreb : (s.tripped n k).reb = s.reb := by rw [State.tripped, State.raise_reb, State.bump_reb]; rfl
  unfold State.memberOn State.member
  rw [State.tripped_portOf, hreb]

theorem State.tripped_pend : ((s.tripped n k).src Ev.STR_TRIP).pend = true := by
  rw [State.tripped, State.raise_src_same, Src.occur_pend]

variable {s n} in
/-- With no Slot Disable running and no member on the slot a trip changes the channel alone. -/
theorem State.trip_alone (hd : (s.chan n).disabling = none) (hm : s.memberOn n = none) : s.trip n k = s.tripped n k := by
  have hend : s.trip n k = (s.tripped n k).slotMember n .failed 2 := by simp only [State.trip, hd, Option.map_none]; rfl
  rw [hend, State.slotMember, State.tripped_memberOn, hm]

end Trip

section Fault
variable {s u : State} {n : Fin 64} {m : Meas} (hu : u = s.measure n m)
include hu

theorem exec_faultTimerStart_warns (ha : (u.chan n).armed = true) (hs : (u.chan n).st = .ramp ∨ (u.chan n).st = .on) :
    exec (.faultTimerStart n m) s = .next (u.updChan n fun x =>
      { x with st := .warn, faultAt := some (u.now + u.fld (Reg.STR_SLOT_LIM_FAULT_TMR n) * 100000) }) := by
  subst hu
  exact congrArg _ (if_pos (by rcases hs with hs | hs <;> simp [hs, ha]))

theorem exec_fastTrip_measured : exec (.fastTrip n m) s = .next (if (u.chan n).st.powered then u.trip n 1
    else if (u.chan n).st = .tripped && ((u.chan n).cause = 2 || (u.chan n).cause = 3) &&
      (u.chan n).coolAt = u.now + u.fld (Reg.STR_SLOT_CFG_COOL n) * 1000000000 then u.updChan n fun x => { x with cause := 1 }
    else u) := by
  subst hu
  rfl

section Running
variable {t : Nat} (hs : (u.chan n).st = .warn) (ht : (u.chan n).faultAt = some t)
include hs ht

theorem exec_faultTimerExpire_trips : exec (.faultTimerExpire n m) s = .next ((u.reach t).trip n 2) := by
  subst hu
  change execFaultTimerExpire n m s = _
  simp only [execFaultTimerExpire, hs, ht]

theorem exec_faultTimerStop_running : exec (.faultTimerStop n m) s = .next (if t ≤ u.now then u.trip n 2
    else if (u.chan n).pg then u.enterOn n
    else u.updChan n fun x => { x with st := .ramp, faultAt := none, perst := true, perstAt := none }) := by
  subst hu
  change execFaultTimerStop n m s = _
  simp only [execFaultTimerStop, hs, ht]

end Running

/-- FET_SHORT on a channel that holds no power (R229). -/
theorem exec_fetShort_unpowered (hp : (u.chan n).st.powered = false) : exec (.fetShort n m) s =
    .next (if m.iout < 100 then u.updChan n fun x => { x with short := false }
      else if (u.chan n).short || m.iout = 100 then u
      else
        let v := (u.endSlotCmd (u.chan n).clearing .configConflict).updChan n fun x => { x with cause := 5, short := true, clearing := none }
        (if (u.chan n).st = .locked then v else v.lock n).raise Ev.STR_FET_SHORT [n]) := by
  subst hu
  refine congrArg _ ((if_neg (by simp [hp])).trans ?_)
  simp only [decide_eq_true_eq]

end Fault

/-! ### Cool-down (R230) -/

section Cool
variable {s u : State} {n : Fin 64} (hs : (s.chan n).st = .tripped) (hu : u = s.reach (s.chan n).coolAt)
include hs hu

theorem exec_coolDownEnd_cleared {id : Nat} (hc : (s.chan n).clearing = some id) :
    exec (.coolDownEnd n) s = .next ((u.enterOff n).endSlotCmd (some id) .success) := by
  subst hu
  change execCoolDownEnd n s = _
  simp only [execCoolDownEnd, hs, decide_true, State.when_true, hc]

theorem exec_coolDownEnd_unasked (hc : (s.chan n).clearing = none) : exec (.coolDownEnd n) s =
    .next (if (s.chan n).cause ≠ 5 && (s.chan n).cause ≠ 6 && (s.chan n).retries < u.fld (Reg.STR_SLOT_CFG_RETRY n) then
        ((u.updChan n fun x => { x with retries := x.retries + 1 }).raise Ev.STR_RETRY [n, (s.chan n).retries + 1]).enterRamp n
      else u.lock n) := by
  subst hu
  change execCoolDownEnd n s = _
  simp only [execCoolDownEnd, hs, decide_true, State.when_true, hc]

end Cool

/-! ### Presence (R219) -/

section Presence
variable {s u : State} {n : Fin 64}

theorem exec_presenceChange_same {b : Bool} (h : (s.chan n).present = b) : exec (.presenceChange n b) s = .next s :=
  congrArg _ (if_neg (by simp [h]))

theorem exec_presenceChange_inserted (h : (s.chan n).present = false) : exec (.presenceChange n true) s =
    .next ((s.updChan n fun x => { x with present := true }).raise Ev.DRV_PRESENT [n, 1]) :=
  congrArg _ ((if_pos (by simp [h])).trans (if_pos rfl))

theorem exec_presenceChange_removed (h : (s.chan n).present = true)
    (hu : u = (s.updChan n fun x => { x with present := false }).raise Ev.DRV_PRESENT [n, 0]) : exec (.presenceChange n false) s =
      .next ((if (s.chan n).st.powered || (s.chan n).st = .tripped then
        (((u.enterOff n).updChan n fun x => { x with cause := 6 }).endSlotCmd ((s.chan n).disabling.map Disabling.id) .success).endSlotCmd
          (s.chan n).clearing .success
      else u).slotMember n .absent 1) := by
  subst hu
  exact congrArg _ ((if_pos (by simp [h])).trans (if_neg Bool.false_ne_true))

end Presence

/-- Settles O44: each clause is the case of its event that its hypotheses select. The threshold of FET_SHORT is R229's 0.5 A, 100 in units of
5 mA; that RAMP_TMO ends a channel in WARN too is the model's choice (log entry 55). -/
theorem channelsRampTripCoolAndLock : Obligations.ChannelsRampTripCoolAndLock := by
  refine ⟨?threshold, ?pgRamp, ?pgOn, ?pgLoss, ?rampTmo, ?trip, ?perst, ?peerPg, ?faultStart, ?faultEnd, ?fast, ?cool, ?short, ?retries, ?insert,
    ?remove⟩
  case threshold => exact fun s u n m ⟨hu, h⟩ => exec_rampThresholdReached_arms hu h
  case pgRamp =>
    intro s u n m ⟨hu, h, hp, ha, hf⟩
    rw [exec_pgAssert_armed hu hp ha hf, if_pos h]
  case pgOn =>
    intro s u n m ⟨hu, h, hp, ha, hf⟩
    rw [exec_pgAssert_armed hu hp ha hf, if_neg (by simp [h]), if_pos h]
  case pgLoss =>
    intro s u n m ⟨hu, h⟩
    rw [exec_pgLoss_on hu h]
    refine ⟨fun hv hd => by rw [if_neg (by simp [hv, hd])], fun hv => by rw [if_pos (by simpa using hv)]⟩
  case rampTmo => exact fun s n ⟨hs, ht, hp⟩ => exec_rampTmoExpire_trips hs ht hp
  case trip =>
    intro s n k ⟨hd, hm⟩
    rw [State.trip_alone k hd hm, State.tripped_chan_same]
    exact ⟨rfl, rfl, rfl, s.tripped_pend n k, fun m h => s.tripped_chan_other n k h⟩
  case perst => exact fun s n t h => exec_perstDlyExpire_releases h
  case peerPg => exact fun s n ⟨hh, h⟩ => exec_peerPgReport_ramps hh h
  case faultStart => exact fun s u n m ⟨hu, ha, hs⟩ => exec_faultTimerStart_warns hu ha hs
  case faultEnd =>
    intro s u n m t ⟨hu, hs, ht⟩
    rw [exec_faultTimerStop_running hu hs ht]
    exact ⟨exec_faultTimerExpire_trips hu hs ht, fun hl => by rw [if_pos hl], fun hl hp => by rw [if_neg (Nat.not_le.mpr hl), if_pos hp],
      fun hl hp => by rw [if_neg (Nat.not_le.mpr hl), if_neg (by simp [hp])]⟩
  case fast =>
    intro s u n m hu
    rw [exec_fastTrip_measured hu]
    refine ⟨fun hp => by rw [if_pos hp], fun hp => ?_⟩
    rw [if_neg (by simp [hp])]
    simp only [Bool.and_eq_true, Bool.or_eq_true, decide_eq_true_eq, and_assoc]
  case cool =>
    intro s u n ⟨hs, hu⟩
    refine ⟨fun id hc => exec_coolDownEnd_cleared hs hu hc, fun hc h5 h6 hr => ?_, fun hc h => ?_⟩ <;>
      rw [exec_coolDownEnd_unasked hs hu hc]
    · rw [if_pos (by simp [h5, h6, hr])]
    · rw [if_neg]
      simp only [Bool.and_eq_true, decide_eq_true_eq]
      omega
  case short =>
    intro s u v n m ⟨hu, hv, hp⟩
    rw [exec_fetShort_unpowered hu hp]
    refine ⟨fun hi hx => ?_, fun hi => by rw [if_pos hi], fun hi hx => by rw [if_neg (Nat.not_lt.mpr hi), if_pos (by simp [hx])]⟩
    rw [if_neg (by omega), if_neg (by simp [hx]; omega), ← hv]
    exact ⟨fun hs => by simp only [if_neg hs], fun hs => by simp only [if_pos hs]⟩
  case retries => exact fun s n h => exec_retriesClear_clears h
  case insert => exact fun s n h => ⟨exec_presenceChange_inserted h, exec_presenceChange_same h⟩
  case remove =>
    intro s u n ⟨h, hu⟩
    rw [exec_presenceChange_removed h hu]
    exact ⟨fun hs => by rw [if_pos (by simpa using hs)], fun hp ht => by rw [if_neg (by simp [hp, ht])]⟩

end Sys2Proof.Machine
end

section
/-! Proofs of the Harness link of family 13 (R242, R243, R245, R259, R263): training, lanes, flits and heartbeats. -/
namespace Sys2Proof.Machine

/-! ### The role through events and flits -/

/-- An event may record an own fault; the role stays. -/
@[simp] theorem State.raise_role (s : State) (n : Nat) (d : List Nat) : (s.raise n d).hrn.role = s.hrn.role := by
  rw [State.raise_hrn]
  split <;> rfl

@[simp] theorem State.gotFlit_role (s : State) : s.gotFlit.hrn.role = s.hrn.role := by
  simp only [State.gotFlit]
  split
  · rw [State.sendTwin_hrn]
  · rfl

/-- A message is taken in by a twin that is not FENCED. -/
theorem State.onFlit_takes {s : State} (hl : s.hrn.link = true) (hr : s.hrn.role ≠ .fenced) (f : State → State) :
    s.onFlit f = f s.gotFlit := by
  rw [State.onFlit, hl, State.when_true, if_neg hr]

/-! ### Training (R242, R263) -/

section Enable
variable {s : State} {v : Word}

theorem exec_harnessEnable_restores (he : s.flag Reg.HRN_CFG_EN = false) {w : Word}
    (hw : w = storedWord Reg.HRN_CFG_EN.addr (s.rg Reg.HRN_CFG_EN.addr) v) (h1 : getBits w 0 0 = 1) (hr : s.hrn.role = .solo)
    (hh : s.hrn.holder = false) {u : State} (hu : u = { s.setRg Reg.HRN_CFG_EN.addr w with hrn.claim := .restoring }) :
    exec (.harnessEnable v) s = .next (u.emit (.superblockReads ((List.range 64).filter fun p => u.flag (Reg.DRV_PORT_CFG_EN p)))) := by
  subst hw hu
  change execHarnessEnable v s = _
  simp only [execHarnessEnable, he, Bool.false_eq_true, if_false, State.setRg_hrn, h1, hr, hh]
  rfl

/-- With EN at 1, TWIN_FITTED and ARB5 keep their values. -/
theorem exec_harnessEnable_keeps (he : s.flag Reg.HRN_CFG_EN = true) : exec (.harnessEnable v) s =
    .next (s.setRg Reg.HRN_CFG_EN.addr (setBits (setBits (storedWord Reg.HRN_CFG_EN.addr (s.rg Reg.HRN_CFG_EN.addr) v)
      1 1 (s.fld Reg.HRN_CFG_TWIN_FITTED)) 3 3 (s.fld Reg.HRN_CFG_ARB5))).autoJoin := by
  change execHarnessEnable v s = _
  simp only [execHarnessEnable, he, if_true, Bool.true_or]

end Enable

/-- A link that has trained with peer `p`, whose attestation passed. -/
def State.linkedTo (s : State) (p : PeerHello) : State :=
  { s with hrn := { s.hrn with
      link := true, linkKey := linkKeyOf p, barred := false, rxFlit := 0, rxFails := 0, txFlit := 0, ackFlit := 0, lastHb := s.now
      lastAck := s.now, peerTag := p.tag, peerRole := some p.role, peerHolder := p.holder, peerArb5 := p.arb5
      rxDelay := ((p.roundTrip : Int) + p.asym) / 2 } }

section Train
variable {s u : State} {p : PeerHello}

/-- The link trains: a peer that does not fit raises EVT_HRN_JOIN_FAIL, another brings the link up. -/
theorem exec_harnessLinkUp_trains (he : s.flag Reg.HRN_CFG_EN = true) (hl : s.hrn.link = false) (hb : s.hrn.barred = false)
    (hs : s.hrn.silent = false) (hd : s.pwr.st ≠ .deep) (hu : u = { s with hrn.lanes := 2, hrn.badLanes := [], hrn.barred := true }) :
    exec (.harnessLinkUp p) s = .next (if p.twinB = s.glb.twinB then u.raise Ev.HRN_JOIN_FAIL [1]
      else if !s.attests p then u.raise Ev.HRN_JOIN_FAIL [2]
      else if !p.versionOk then u.raise Ev.HRN_JOIN_FAIL [3]
      else (((u.linkedTo p).raise Ev.HRN_LINK [1, 0]).meetHolder).autoJoin) := by
  subst hu
  exact congrArg _ (if_pos (by simp [he, hl, hb, hs, hd]))

end Train

/-! ### Lanes (R243) -/

section Lane
variable {s u : State} {l : Fin 16} (h0 : s.hrn.lanes ≠ 0) (hl : s.hrn.badLanes.contains l.val = false)
  (hu : u = { s with hrn.badLanes := l.val :: s.hrn.badLanes })
include h0 hl hu

theorem exec_harnessLaneFault_new : exec (.harnessLaneFault l) s = .next (if !u.halfClean false && !u.halfClean true then u.linkLost l
    else if s.hrn.lanes = 2 then ({ u with hrn.lanes := 1 } : State).raise Ev.HRN_LINK [2, l.val] else u) := by
  subst hu
  exact congrArg _ (if_pos (by rw [hl]; simp [h0]))

theorem exec_harnessLaneFault_half (hc : u.halfClean false = true ∨ u.halfClean true = true) : exec (.harnessLaneFault l) s =
    .next (if s.hrn.lanes = 2 then ({ u with hrn.lanes := 1 } : State).raise Ev.HRN_LINK [2, l.val] else u) := by
  rw [exec_harnessLaneFault_new h0 hl hu, if_neg (by rcases hc with hc | hc <;> simp [hc])]

end Lane

theorem exec_harnessLaneFault_known {s : State} {l : Fin 16} (h : s.hrn.lanes = 0 ∨ s.hrn.badLanes.contains l.val = true) :
    exec (.harnessLaneFault l) s = .next s :=
  congrArg _ (if_neg (by rcases h with h | h <;> simp only [h, ne_eq, not_true_eq_false, decide_false, Bool.false_and, Bool.not_true,
    Bool.and_false, Bool.false_eq_true, not_false_eq_true]))

section Lost
variable {s u : State} (h0 : s.hrn.lanes ≠ 0)
  (hu : u = ({ s with hrn.link := false, hrn.linkKey := [], hrn.lanes := 0, hrn.barred := false, htx := {} } : State).raise Ev.HRN_LINK [0, 0])
include h0 hu

theorem State.linkLost_joining (hr : s.hrn.role = .joining) : s.linkLost 0 = u.joinFails 5 := by
  subst hu
  rw [State.linkLost, if_neg h0]
  simp only [State.raise_role, hr]

theorem State.linkLost_solo (hr : s.hrn.role = .solo) :
    s.linkLost 0 = ((u.dropJoin 5).endCmd u.hrn.leaving .configConflict).settleAlone := by
  subst hu
  rw [State.linkLost, if_neg h0]
  simp only [State.raise_role, hr]

theorem State.linkLost_other (hr : s.hrn.role = .active ∨ s.hrn.role = .standby ∨ s.hrn.role = .fenced) : s.linkLost 0 = u := by
  subst hu
  rw [State.linkLost, if_neg h0]
  rcases hr with hr | hr | hr <;> simp only [State.raise_role, hr]

end Lost

/-! ### Flits (R245) -/

section Flit
variable {s : State} (h : s.hrn.link = true)
include h

theorem exec_flitBadRx_linked (b : Bool) : exec (.flitBadRx b) s = .next (if b then s.gotFlit.bump Reg.HRN_FLIT_BAD_COUNT
    else if 8 ≤ s.hrn.rxFails then s.linkLost 0
    else ({ s with hrn.rxFails := s.hrn.rxFails + 1 } : State).sendTwin (.replayRequest s.hrn.rxFlit)) :=
  congrArg _ (if_pos h)

/-- What a LINK flit's three fields do, in their order, a field that is absent doing nothing. -/
theorem exec_linkFlitRx_linked (k v o : Option Nat) : exec (.linkFlitRx k v o) s =
    .next (o.elim (v.elim (k.elim s s.flitAcked) (k.elim s s.flitAcked).resendFlits) (v.elim (k.elim s s.flitAcked)
      (k.elim s s.flitAcked).resendFlits).ordAcked) := by
  change execLinkFlitRx k v o s = _
  rw [execLinkFlitRx, h, State.when_true]
  cases k <;> cases v <;> cases o <;> rfl

end Flit

/-! ### Heartbeats (R259) -/

theorem exec_heartbeatRx_takes {s u v : State} {b : Heartbeat} (hl : s.hrn.link = true) (hr : s.hrn.role ≠ .fenced)
    (hu : u = s.gotFlit.discipline (b.time * 65536 + b.frac))
    (hv : v = { u with
      hrn.lastHb := u.now, hrn.peerRole := some b.role, hrn.peerHolder := b.holder, hrn.peerFault := b.selfFault, hrn.peerDrain := b.drain
      hrn.peerEpoch := b.epoch, hrn.ordHead := b.ordHead, tim.peerFloor := b.floor }) :
    exec (.heartbeatRx b) s = .next (if v.hasPeer then v else v.peerGone).meetHolder.autoJoin := by
  subst hu hv
  exact congrArg _ (State.onFlit_takes hl hr _)

/-- The heartbeat of a twin: its time, role, HOLDER, faults, epoch and floor. -/
def State.ownHeartbeat (s : State) : Heartbeat :=
  { time := s.now, frac := s.tim.frac, role := s.hrn.role, holder := s.hrn.holder, selfFault := s.hrn.fault.isSome
    drain := decide (s.pwr.st = .drain), epoch := s.epoch, floor := s.tim.floor, ordHead := s.ordHeadNow }

theorem exec_heartbeatSend_armed {s u : State} (h : (s.slot 504).armed = true) (hu : u = s.fire 504) : exec .heartbeatSend s =
    .next (if u.hrn.link && u.hrn.role ≠ .fenced then u.sendTwin (.heartbeat u.ownHeartbeat) else u) := by
  subst hu
  exact congrArg _ (if_pos h)

/-- Settles O45: each clause is the case of its flit, lane or heartbeat that its hypotheses select. The codes of EVT_HRN_LINK (log entry 21) and
the status of pair work that the loss of the link ends (log entry 56) are the model's choices. -/
theorem harnessTrainsDegradesAndReplays : Obligations.HarnessTrainsDegradesAndReplays := by
  refine ⟨?enable, ?enabled, ?train, ?lane, ?known, ?down, ?bad, ?link, ?beat, ?send⟩
  case enable => exact fun s v ⟨he, h1, hr, hh⟩ => ⟨_, rfl, exec_harnessEnable_restores he rfl h1 hr hh rfl⟩
  case enabled => exact fun s v he => exec_harnessEnable_keeps he
  case train =>
    intro s u p ⟨he, hl, hb, hs, hd, hu⟩
    rw [exec_harnessLinkUp_trains he hl hb hs hd hu]
    refine ⟨fun ht => by rw [if_pos ht], fun ht ha => by rw [if_neg ht, if_pos (by simp [ha])],
      fun ht ha hv => by rw [if_neg ht, if_neg (by simp [ha]), if_pos (by simp [hv])], fun ht ha hv => ⟨u.linkedTo p, ?_⟩⟩
    rw [if_neg ht, if_neg (by simp [ha]), if_neg (by simp [hv]), hu]
    exact ⟨rfl, rfl, rfl, rfl, rfl, rfl, rfl, rfl, rfl, rfl⟩
  case lane =>
    intro s u l ⟨h0, hl, hu⟩
    refine ⟨fun hf ht => ?_, fun hc h2 => ?_, fun hc h1 => ?_⟩
    · rw [exec_harnessLaneFault_new h0 hl hu, if_pos (by simp [hf, ht])]
    · rw [exec_harnessLaneFault_half h0 hl hu hc, if_pos h2]
    · rw [exec_harnessLaneFault_half h0 hl hu hc, if_neg (by omega)]
  case known => exact fun s l h => exec_harnessLaneFault_known h
  case down =>
    exact fun s u ⟨h0, hu⟩ => ⟨fun hr => congrArg _ (State.linkLost_joining h0 hu hr), fun hr => congrArg _ (State.linkLost_solo h0 hu hr),
      fun hr => congrArg _ (State.linkLost_other h0 hu hr)⟩
  case bad =>
    intro s h
    refine ⟨?_, fun hf => ?_, fun hf => ?_⟩ <;> rw [exec_flitBadRx_linked h]
    · rw [if_pos rfl]
    · rw [if_neg Bool.false_ne_true, if_neg (Nat.not_le.mpr hf)]
    · rw [if_neg Bool.false_ne_true, if_pos hf]
  case link =>
    intro s k v o h
    exact ⟨exec_linkFlitRx_linked h _ _ _, exec_linkFlitRx_linked h _ _ _, exec_linkFlitRx_linked h _ _ _, exec_linkFlitRx_linked h _ _ _,
      fun ha ht => if_pos ⟨ha, ht⟩, fun ht => if_neg (by omega), fun ha ht => if_pos ⟨ha, ht⟩⟩
  case beat =>
    intro s u v b ⟨hl, hr, hu, hv⟩
    rw [exec_heartbeatRx_takes hl hr hu hv]
    exact ⟨fun hp => by rw [if_pos hp], fun hp => by rw [if_neg (by simp [hp])]⟩
  case send =>
    intro s u ⟨h, hu⟩
    rw [exec_heartbeatSend_armed h hu]
    refine ⟨fun hl hr => ⟨u.ownHeartbeat, by rw [if_pos (by simp [hl, hr])], rfl, rfl, rfl, rfl, rfl⟩, fun hx => ?_⟩
    rw [if_neg (by rcases hx with hx | hx <;> simp [hx])]

end Sys2Proof.Machine
end

section
/-! Proofs about the roles of the pair (R240, R263, R264): what a change of role reads as. -/
namespace Sys2Proof.Machine

/-- An event that is no own fault leaves the Harness state. -/
theorem State.raise_hrn_of_no_fault (s : State) {n : Nat} (h : faultSources.contains n = false) (d : List Nat) :
    (s.raise n d).hrn = s.hrn := by
  rw [State.raise_hrn, h]
  rfl

theorem State.enterTwinTime_hrn (s : State) : s.enterTwinTime.hrn = s.hrn := by
  unfold State.enterTwinTime
  split <;> rfl

theorem State.enterTime_hrn (s : State) (t : TimeState) : (s.enterTime t).hrn = s.hrn := by
  cases t
  case locked => exact State.raise_hrn_of_no_fault _ (by decide) _
  case holdover => exact State.raise_hrn_of_no_fault _ (by decide) _
  all_goals rfl

theorem State.leaveTwinTime_hrn (s : State) : s.leaveTwinTime.hrn = s.hrn := by
  unfold State.leaveTwinTime
  split
  · exact State.enterTime_hrn _ _
  · rfl

/-- A change of role: HOLDER stays with an ACTIVE or SOLO twin. -/
theorem State.setRole_hrn (s : State) (r : Role) (k : Nat) : (s.setRole r k).hrn =
    { s.hrn with role := r, holder := s.hrn.holder && (decide (r = .active) || decide (r = .solo)) } := by
  have hraise := s.raise_hrn_of_no_fault (n := Ev.HRN_ROLE) (by decide) [roleCode s.hrn.role, roleCode r, k]
  unfold State.setRole
  dsimp only
  split
  · rw [State.enterTwinTime_hrn, hraise]
  · rw [State.leaveTwinTime_hrn, hraise]

theorem State.registerAll_hrn (s : State) (e r : Nat) : (s.registerAll e r).hrn = s.hrn :=
  State.foldl_keeps State.hrn (fun s m => s.reserve m 1 e r) (fun _ _ => rfl) _ s

@[simp] theorem State.saveRecord_hrn (s : State) (ws : List Nat) : (s.saveRecord ws).hrn = s.hrn :=
  (congrArg State.hrn (s.saveRecord_beyondRecords ws) :)

end Sys2Proof.Machine
end

section
/-! Proofs of what arrives over the Harness of family 13 (R246 to R249, R254, R264, R371): cross-posts, order entries, mirrors, digests, parts of
the snapshot and CONTROL messages. -/
namespace Sys2Proof.Machine

/-! ### Messages of a linked twin -/

section Linked
variable {s : State} (hl : s.hrn.link = true) (hr : s.hrn.role ≠ .fenced)
include hl hr

theorem exec_crosspostRx_keeps (i q k : Nat) :
    exec (.crosspostRx i q k) s = .next { s.gotFlit with hrn.posts := s.gotFlit.hrn.posts ++ [(i, q, k)] } :=
  congrArg _ (State.onFlit_takes hl hr _)

theorem exec_controlRx_takes (m : ControlMsg) : exec (.controlRx m) s = .next (s.gotFlit.takeControl m) :=
  congrArg _ (State.onFlit_takes hl hr _)

theorem exec_stateRx_takes (hj : s.gotFlit.hrn.role = .joining) (p : StatePart) : exec (.stateRx p) s = .next (s.gotFlit.takePart p) := by
  change execStateRx p s = _
  rw [execStateRx, State.onFlit_takes hl hr, decide_eq_true hj, State.when_true]

theorem exec_orderRx_follows (hf : s.gotFlit.follows = true) (es : List OrderEntry) {u : State} (hu : u = s.gotFlit.takeEntries es) :
    exec (.orderRx es) s = .next ((u.sendTwin (.linkFlit u.hrn.rxFlit u.lastOrd)).wakeMgmt) := by
  change execOrderRx es s = _
  rw [execOrderRx, State.onFlit_takes hl hr, hf, State.when_true, hu]

theorem exec_orderRx_leads (hf : s.gotFlit.follows = false) (es : List OrderEntry) : exec (.orderRx es) s = .next s.gotFlit := by
  change execOrderRx es s = _
  rw [execOrderRx, State.onFlit_takes hl hr, hf, State.when_false]

theorem exec_digestRx_follows (hf : s.gotFlit.follows = true) (rs : List (Nat × Nat)) :
    exec (.digestRx rs) s = .next { s.gotFlit with hrn.theirs := s.gotFlit.hrn.theirs ++ rs } :=
  congrArg _ ((State.onFlit_takes hl hr _).trans (if_pos hf))

end Linked

/-! ### Order entries (R246) -/

/-- A STANDBY takes the entry that its stream has reached. -/
theorem State.takeEntries_standby {s : State} (hr : s.hrn.role = .standby) (e : OrderEntry) (es : List OrderEntry) :
    s.takeEntries (e :: es) = if e.oseq = s.hrn.ordSeen % 2 ^ 32 then (s.takeEntry e).takeEntries es else s := by
  rw [State.takeEntries, hr]
  rfl

/-! ### Mirrors (R248, R254) -/

/-- The buffered blocks `bs` and the records `rs` are mirrored, and no command waits for those blocks any longer. -/
def State.mirrorAcked (s : State) (bs rs : List Nat) : State :=
  { s with
    lay.buffer := s.lay.buffer.map fun b => if bs.contains b.id then { b with acked := true } else b
    sbg.stripes := s.sbg.stripes.map fun j => if rs.contains j.slot then { j with acked := true } else j
    cmdb.cmds := s.cmdb.cmds.map fun e => (e.1, { e.2 with unmirrored := e.2.unmirrored.filter fun i => !bs.contains i }) }

theorem State.mirrorAcked_buffer (s : State) (bs rs : List Nat) : ∀ b ∈ (s.mirrorAcked bs rs).lay.buffer, b.id ∈ bs → b.acked = true := by
  intro b hb hid
  obtain ⟨x, -, rfl⟩ := List.mem_map.mp hb
  split at hid
  · next hx => rw [if_pos hx]
  · next hx => exact absurd (List.contains_iff_mem.mpr hid) hx

theorem State.mirrorAcked_stripes (s : State) (bs rs : List Nat) :
    ∀ j ∈ (s.mirrorAcked bs rs).sbg.stripes, j.slot ∈ rs → j.acked = true := by
  intro j hj hslot
  obtain ⟨x, -, rfl⟩ := List.mem_map.mp hj
  split at hslot
  · next hx => rw [if_pos hx]
  · next hx => exact absurd (List.contains_iff_mem.mpr hslot) hx

theorem exec_mirrorAckRx_acks {s : State} (hl : s.hrn.link = true) (hr : s.hrn.role ≠ .fenced) (bs rs : List Nat) : exec (.mirrorAckRx bs rs) s =
    .next (((s.gotFlit.mirrorAcked bs rs).cmdb.cmds.map Prod.fst).foldl State.buffered (s.gotFlit.mirrorAcked bs rs)) :=
  congrArg _ (State.onFlit_takes hl hr _)

/-- The record of slot `n` that a SADDLEBAG message brings. -/
def State.mirroredRecord (s : State) (k n q v e x off nb m : Nat) (p : List Nat) : Stripe :=
  { slot := n, kind := k, volume := v, extent := e, stripe := x, row := (s.mapEnt v e).row, band := (s.mapEnt v e).band
    incarn := (s.mapEnt v e).incarn, seq := q, mapGen := s.lay.mapGen, mask := m, off := off, nblk := nb, pcrc := p, dataW := []
    parityW := [], acked := true }

/-- A mirrored record replaces the one in its slot, and the buffered blocks it covers belong to it. -/
def State.mirrorRecord (s : State) (k n q v e x off nb m : Nat) (p : List Nat) : State :=
  { s with
    sbg.stripes := s.sbg.stripes.filter (fun j => j.slot ≠ n) ++ [s.mirroredRecord k n q v e x off nb m p]
    sbg.seq := max s.sbg.seq (q + 1)
    lay.buffer := s.lay.buffer.map fun b => if k = 0 && s.coversBuf v e x off nb m b then { b with stripe := some n } else b }

section Record
variable {s : State} (hl : s.hrn.link = true) (hr : s.hrn.role ≠ .fenced) (hf : s.gotFlit.follows = true) (k n q v e x off nb m : Nat)
  (p : List Nat)
include hl hr hf

theorem exec_saddlebagRx_cleared {u : State} (hu : u = { s.gotFlit with
    sbg.stripes := s.gotFlit.sbg.stripes.filter (fun j => j.slot ≠ n)
    lay.buffer := s.gotFlit.lay.buffer.filter fun b => b.stripe ≠ some n }) : exec (.saddlebagRx k n q true v e x off nb m p) s =
      .next ((u.keepClean (s.gotFlit.lay.buffer.filter fun b => b.stripe = some n)).noteDirty.wakeFlush) := by
  change execSaddlebagRx k n q true v e x off nb m p s = _
  rw [execSaddlebagRx, State.onFlit_takes hl hr, hf, State.when_true, if_pos rfl, hu]

theorem exec_saddlebagRx_replaces : exec (.saddlebagRx k n q false v e x off nb m p) s =
    .next ((s.gotFlit.mirrorRecord k n q v e x off nb m p).sendTwin (.mirrorAck [] [n])) :=
  congrArg _ ((State.onFlit_takes hl hr _).trans ((if_pos hf).trans (if_neg Bool.false_ne_true)))

end Record

/-! ### CONTROL (R249, R264, R371) -/

section Control
variable {s : State}

theorem State.takeControl_command (hf : s.follows = true) (d : Descriptor) (env : Option Envelope) :
    s.takeControl (.command d env) = s.takeChange (.command d env) := if_pos hf

theorem State.takeChange_unnumbered (h : s.hrn.ctrlSeen = none) (m : ControlMsg) : s.takeChange m = s.applyTwin m := by
  rw [State.takeChange, h]

/-- A numbered change waits for the STATE entry that names it (log entry 138). -/
theorem State.takeChange_numbered {k : Nat} (h : s.hrn.ctrlSeen = some k) (m : ControlMsg) : s.takeChange m =
    if s.hrn.ctrlNamed.contains k then
      ({ s with hrn.ctrlSeen := some ((k + 1) % 2 ^ 32), hrn.ctrlNamed := s.hrn.ctrlNamed.filter (· ≠ k) } : State).applyTwin m
    else { s with hrn.ctrlSeen := some ((k + 1) % 2 ^ 32), hrn.ctrlHeld := s.hrn.ctrlHeld ++ [(k, m)] } := by
  rw [State.takeChange, h]

theorem State.mapsLoaded_hrn (s : State) : s.mapsLoaded.hrn = s.hrn := by
  rw [State.mapsLoaded, State.startupBit, State.startupBit]

theorem State.cutOver_role (s : State) : s.cutOver.hrn.role = .standby := by
  rw [State.cutOver, State.raise_role, State.saveRecord_hrn, State.mapsLoaded_hrn, State.registerAll_hrn, State.setRole_hrn]

end Control

/-- Settles O46: each clause is the case of its message that its hypotheses select. That a carried change waits for the STATE entry that names it
is the model's choice (log entry 138). -/
theorem followerTakesInTheOrderStream : Obligations.FollowerTakesInTheOrderStream := by
  refine ⟨?post, ?order, ?entries, ?mirrorAck, ?record, ?digest, ?state, ?control, ?command, ?cutover⟩
  case post => exact fun s i q k ⟨hl, hr⟩ => exec_crosspostRx_keeps hl hr i q k
  case order =>
    exact fun s u es ⟨hl, hr, hu⟩ => ⟨fun hf => exec_orderRx_follows hl hr hf es hu, fun hf => exec_orderRx_leads hl hr hf es⟩
  case entries =>
    intro s e es hr
    rw [State.takeEntries_standby hr]
    exact ⟨fun h => if_pos h, fun h => if_neg h⟩
  case mirrorAck =>
    exact fun s bs rs ⟨hl, hr⟩ => ⟨s.gotFlit.mirrorAcked bs rs, State.mirrorAcked_buffer _ bs rs, State.mirrorAcked_stripes _ bs rs,
      exec_mirrorAckRx_acks hl hr bs rs⟩
  case record =>
    intro s u k n q v e x off nb m p ⟨hl, hr, hf, hu⟩
    refine ⟨exec_saddlebagRx_cleared hl hr hf k n q v e x off nb m p hu, s.gotFlit.mirrorRecord k n q v e x off nb m p,
      exec_saddlebagRx_replaces hl hr hf k n q v e x off nb m p, ⟨s.gotFlit.mirroredRecord k n q v e x off nb m p, ?_, ?_⟩, rfl⟩
    · exact List.mem_append_right _ (List.mem_singleton_self _)
    · exact ⟨rfl, rfl, rfl, rfl, rfl, rfl, rfl, rfl, rfl, rfl⟩
  case digest => exact fun s rs ⟨hl, hr, hf⟩ => exec_digestRx_follows hl hr hf rs
  case state => exact fun s p ⟨hl, hr, hj⟩ => exec_stateRx_takes hl (by simp [hr]) hj p
  case control => exact fun s m ⟨hl, hr⟩ => exec_controlRx_takes hl hr m
  case command =>
    intro s d env n hf
    rw [State.takeControl_command hf]
    exact ⟨fun h => State.takeChange_unnumbered h _, fun k h => State.takeChange_numbered h _, if_pos hf⟩
  case cutover =>
    exact fun s hr => ⟨if_pos (decide_eq_true hr), if_neg (by simp [hr]), s.cutOver_role⟩

end Sys2Proof.Machine
end

section
/-! Proofs of silence, arbitration, the taking of the cinch and self-check of family 13 (R254, R255, R257 to R260, R263, R369, R372). -/
namespace Sys2Proof.Machine

/-! ### Completing a command of the pair -/

@[simp] theorem State.endCmd_hrn (s : State) (id : Option Nat) (st : MStatus) (r : Nat) : (s.endCmd id st r).hrn = s.hrn := by
  unfold State.endCmd
  split
  · exact State.complete_hrn _ _ _ _ _
  · rfl

/-! ### Silence (R259) -/

section Silence
variable {s : State}

/-- What a twin in silence leaves: the swap, the activation, the self-check, the round and the link. -/
def State.silenced (s : State) : State :=
  { s with hrn.silent := true, hrn.swap := none, hrn.upgrade := none, hrn.check := none, hrn.round := none, hrn.link := false,
           hrn.linkKey := [], htx := {} }

theorem exec_silenceDeclare_of {u : State} (hs : s.hrn.silent = false) (hr : s.hrn.role = .active ∨ s.hrn.role = .standby)
    (hu : u = (((s.reach (min s.hrn.lastHb s.hrn.lastAck + s.fld Reg.HRN_SILENCE_SILENCE * 1000)).raise Ev.HRN_SILENCE).endCmd
      (s.hrn.swap.bind SwapRun.id) .busy).endCmd s.hrn.upgrade .busy) :
    exec .silenceDeclare s = .next (u.silenced.armArb
      (if s.hrn.role = .standby then u.fld Reg.HRN_SILENCE_QUORUM_DLY * 1000 else 0) (u.epoch + 1)) := by
  have hh : ∀ t, ((s.reach t).raise Ev.HRN_SILENCE).hrn = s.hrn := fun t =>
    (State.raise_hrn_of_no_fault _ (by decide) _).trans (State.reach_hrn s t)
  have hc : ((decide (s.hrn.role = .active) || decide (s.hrn.role = .standby)) && !s.hrn.silent) = true := by simpa [hs] using hr
  change execSilenceDeclare s = _
  rw [execSilenceDeclare, hc, State.when_true]
  simp only [State.endCmd_hrn, hh, State.reach_hrn, hu, State.silenced]

end Silence

/-! ### Takings (R257) -/

section Taking
variable {s : State} {m : Fin 64} {k : Round} {t : Take}

theorem exec_cinchMemberResult_round (hc : s.hrn.claim = .none) (hk : s.hrn.round = some k)
    (ht : (k.takes.find? fun t => t.member = m.val && !t.st.ended) = some t) (r : CinchResult) :
    exec (.cinchMemberResult m r) s = .next ((s.noteEpoch r).roundResult k t r) := by
  change execCinchMemberResult m r s = _
  simp only [execCinchMemberResult, hc, hk, ht]

theorem exec_cinchMemberResult_retake (hc : s.hrn.claim = .none) (hk : s.hrn.round = none)
    (ht : s.hrn.retakes.find? (fun t => t.member = m.val) = some t) (r : CinchResult) :
    exec (.cinchMemberResult m r) s = .next (s.retakeResult t r) := by
  change execCinchMemberResult m r s = _
  simp only [execCinchMemberResult, hc, hk, ht]

theorem exec_arbCmdTmoExpire_of (hk : s.hrn.round = some k) (ha : k.kind = .arbiters)
    (ht : (k.takes.find? fun t => t.member = m.val && !t.st.ended) = some t) :
    exec (.arbCmdTmoExpire m) s =
      .next ((s.reach (t.since + s.fld Reg.HRN_ARB_CFG_ARB_CMD_TMO * 1000)).roundResult k t .noAnswer) := by
  change execArbCmdTmoExpire m s = _
  simp only [execArbCmdTmoExpire, hk, ht, if_pos ha]

end Taking

section Step
variable {t : Take}

theorem Take.step_registered (h : t.st = .registering) (own e : Nat) : t.step .registered own e = (.reporting, some 0) := by
  simp only [Take.step, h]

theorem Take.step_noReport (h : t.st = .reporting) (own e : Nat) : t.step (.report none) own e = (.acquiring, some 2) := by
  simp only [Take.step, h]

/-- The Report of a holder's key `k`: this twin's own ends the taking, a lower epoch is preempted, and any other one loses the member. -/
theorem Take.step_report (h : t.st = .reporting) (own e k : Nat) : t.step (.report (some k)) own e =
    if keyTag k = own then (.taken, none) else if keyEpoch k < e then (.preempting, some 3) else (.lost, none) := by
  simp only [Take.step, h]

theorem Take.step_refused (h : t.st = .acquiring) (own e : Nat) : t.step .refused own e = (.reporting, some 0) := by
  simp only [Take.step, h]

theorem Take.step_acquired (h : t.st = .acquiring ∨ t.st = .preempting) (own e : Nat) : t.step .acquired own e = (.taken, none) := by
  rcases h with h | h <;> simp only [Take.step, h]

theorem Take.step_noAnswer (h : t.st.ended = false) (own e : Nat) : t.step .noAnswer own e = (.failed, none) := by
  cases hst : t.st
  case registering | reporting | acquiring | preempting => simp only [Take.step, hst]
  case taken | lost | refused | failed => simp [hst, TakeSt.ended] at h

end Step

/-! ### The end of a round (R260, R372) -/

section Rounds
variable {s : State} {k : Round} (hk : s.hrn.round = some k)
include hk

theorem exec_arbitrationDecided_round (ha : k.kind = .arbiters) : exec .arbitrationDecided s = .next (
    if s.arbCount < 2 * (k.count fun t => t = .taken) then
      (s.raise Ev.HRN_ARB_WON [k.epoch, k.count fun t => t = .taken]).startRound .won (k.epoch + 1) s.liveMembers
    else if s.arbCount < 2 * (k.count fun t => t = .lost) then s.fence 1
    else if k.takes.all fun t => t.st.ended then s.noQuorum
    else s) := by
  change execArbitrationDecided s = _
  simp only [execArbitrationDecided, hk, ha, decide_true, State.when_true]

theorem exec_claimRoundDone_of {u : State} (ha : k.kind ≠ .arbiters) (hd : k.takes.all (fun t => t.st = .taken || t.st = .failed) = true)
    (hu : u = ({ s with hrn.holder := true, hrn.round := none, hrn.silent := false, hrn.retryAt := none } : State).setFld
      Reg.HRN_EPOCH_EPOCH k.epoch) :
    exec .claimRoundDone s = .next ((((k.takes.filter fun t => t.st = .failed).foldl (fun s t => s.changeMember t.member .failed 4 none)
      (u.roundLeads k.kind).rezero.loseMissing.judgeSlots)).fixArbs.autoJoin) := by
  change execClaimRoundDone s = _
  simp only [execClaimRoundDone, hk, ha, hd, ne_eq, not_false_eq_true, decide_true, Bool.and_self, State.when_true, hu]

end Rounds

theorem exec_claimLost_of {s : State} (hr : s.hrn.role ≠ .fenced) (m : Fin 64) :
    exec (.claimLost m) s = .next ((s.raise Ev.HRN_CLAIM_LOST [m.val]).fence 4) := by
  change execClaimLost m s = _
  rw [execClaimLost, decide_eq_true hr, State.when_true, State.loseClaim]

/-! ### Start-up claim, digest windows and self-check (R254, R255, R263) -/

section Windows
variable {s : State} {w : Nat} (hw : s.digWindow = some w) (hr : s.hrn.role = .standby)
include hw hr

theorem exec_digWaitExpire_of : exec .digWaitExpire s =
    .next ((s.reach ((w + 1) * 4000 + s.fld Reg.HRN_DIG_DIG_WAIT * 1000)).compareWindow w) := by
  change execDigWaitExpire s = _
  simp only [execDigWaitExpire, hw, hr, decide_true, State.when_true]

theorem exec_digestWindowCompare_of (ht : (w + 1) * 4000 ≤ s.now)
    (hd : (s.hrn.own.all fun d => d.time / 4000 ≠ w || s.recReady d) = true) :
    exec .digestWindowCompare s = .next (s.compareWindow w) := by
  change execDigestWindowCompare s = _
  simp only [execDigestWindowCompare, hw, hr, hd, decide_eq_true ht, decide_true, Bool.true_or, Bool.and_self, State.when_true]

end Windows

section Verdict
variable {s u : State} {k : SelfCheck}

theorem exec_selfCheckVerdict_of (hc : s.hrn.check = some k) (ho : k.own = none) {again made : Nat} {f : Option Nat}
    (hf : s.ownFault k.since (again != made) = f) (hu : u = f.elim s fun n => s.raise Ev.HRN_SELF_FAULT [n]) :
    exec (.selfCheckVerdict again made) s =
      .next (({ u with hrn.check := some { k with own := some f } } : State).sendTwin (.controlMsg (.verdict f.isSome))).settleCheck := by
  change execSelfCheckVerdict again made s = _
  simp only [execSelfCheckVerdict, hc, ho, Option.isNone_none, State.when_true, hf]
  cases f <;> rw [hu] <;> rfl

end Verdict

section Settle
variable {s u : State} {w c o : Nat} {own : Option Nat} {peer : Bool}
  (hc : s.hrn.check = some { since := w, conn := c, oseq := o, own := some own, peer := some peer })
  (hu : u = ({ s with hrn.check := none } : State).raiseIf (own.isSome && peer) Ev.HRN_BOTH_FAULT)
include hc hu

omit hc in
theorem State.raisedBoth_role : u.hrn.role = s.hrn.role := by
  rw [hu]
  unfold State.raiseIf
  split
  · rw [State.raise_role]
  · rfl

theorem State.settleCheck_activeYields (hr : s.hrn.role = .active) (ho : own.isSome = true) (hp : peer = false) :
    s.settleCheck = (u.sendTwin (.controlMsg (.takeCinch true))).fence 3 := by
  have hr' := (State.raisedBoth_role hu).trans hr
  simp only [State.settleCheck, hc, ← hu, hr']
  rw [ho, hp]

theorem State.settleCheck_activeKeeps (hr : s.hrn.role = .active) (h : own.isSome = false ∨ peer = true) :
    s.settleCheck = u.keepControl := by
  have hr' := (State.raisedBoth_role hu).trans hr
  simp only [State.settleCheck, hc, ← hu, hr']
  rcases h with h | h <;> rw [h]
  cases own.isSome <;> rfl

theorem State.settleCheck_standby (hr : s.hrn.role = .standby) : s.settleCheck =
    if own.isSome then u.fence 3 else if peer then u.takeCinch true else u.fence 2 := by
  have hr' := (State.raisedBoth_role hu).trans hr
  simp only [State.settleCheck, hc, ← hu, hr']
  cases own.isSome <;> cases peer <;> rfl

end Settle

/-- Settles O47: each clause is the case of its operation that its hypotheses select. The status of an unfinished swap or activation is log entry
56, the epoch of a claim and the scope of a silence log entries 63 and 64, the Report first and the takings again log entries 136 and 137. -/
theorem silenceArbitrationAndClaimsDecideTheHolder : Obligations.SilenceArbitrationAndClaimsDecideTheHolder := by
  refine ⟨?silence, ?start, ?retry, ?result, ?step, ?retake, ?timeout, ?decided, ?done, ?lost, ?linkWait, ?claim, ?window, ?verdict, ?settle⟩
  case silence =>
    intro s u v d ⟨hs, hr, hu, hv⟩
    have hw := exec_silenceDeclare_of hs (hr.imp And.left And.left) hu
    have hd : (if s.hrn.role = .standby then u.fld Reg.HRN_SILENCE_QUORUM_DLY * 1000 else 0) =
        d * (u.fld Reg.HRN_SILENCE_QUORUM_DLY * 1000) := by
      rcases hr with ⟨h, rfl⟩ | ⟨h, rfl⟩ <;> simp [h]
    rw [hd] at hw
    refine ⟨_, hw, ?_, rfl, rfl, rfl, rfl⟩
    rw [hv, State.silenced]
  case start =>
    intro s t h
    change execArbitrationStart s = _
    simp only [execArbitrationStart, h]
  case retry =>
    intro s t h
    change execArbRetryExpire s = _
    simp only [execArbRetryExpire, h]
  case result => exact fun s m r k t ⟨hc, hk, ht⟩ => exec_cinchMemberResult_round hc hk ht r
  case step =>
    intro t own e k
    refine ⟨fun h => Take.step_registered h own e, fun h => Take.step_noReport h own e, fun h hk => ?_, fun h hk he => ?_,
      fun h hk he => ?_, fun h => Take.step_refused h own e, fun h => Take.step_noAnswer h own e, fun h => Take.step_acquired h own e⟩
    · rw [Take.step_report h, if_pos hk]
    · rw [Take.step_report h, if_neg hk, if_pos he]
    · rw [Take.step_report h, if_neg hk, if_neg (Nat.not_lt.mpr he)]
  case retake => exact fun s m t r ⟨hc, hk, ht⟩ => exec_cinchMemberResult_retake hc hk ht r
  case timeout => exact fun s m k t ⟨hk, ha, ht⟩ => exec_arbCmdTmoExpire_of hk ha ht
  case decided =>
    intro s k won lost ⟨hk, ha, hwon, hlost⟩
    rw [exec_arbitrationDecided_round hk ha, ← hwon, ← hlost]
    refine ⟨fun hw => by rw [if_pos hw], fun hw hl => ?_, fun hw hl he => ?_, fun hw hl he => ?_⟩
    · rw [if_neg (Nat.not_lt.mpr hw), if_pos hl]
    · rw [if_neg (Nat.not_lt.mpr hw), if_neg (Nat.not_lt.mpr hl), he, if_pos rfl]
    · rw [if_neg (Nat.not_lt.mpr hw), if_neg (Nat.not_lt.mpr hl), he, if_neg Bool.false_ne_true]
  case done => exact fun s u k ⟨hk, ha, hd, hu⟩ => exec_claimRoundDone_of hk ha hd hu
  case lost => exact fun s m hr => exec_claimLost_of hr m
  case linkWait =>
    intro s l t b h
    change execClaimLinkWaitExpire s = _
    simp only [execClaimLinkWaitExpire, h]
  case claim =>
    intro s h
    change execHrnClaimWrite _ s = _
    simp only [execHrnClaimWrite, h, decide_true, Bool.and_self, State.when_true]
  case window => exact fun s w ⟨hw, hr⟩ => ⟨exec_digWaitExpire_of hw hr, exec_digestWindowCompare_of hw hr⟩
  case verdict =>
    intro s u again made k ⟨hc, ho⟩ h
    rcases h with ⟨hf, hu⟩ | ⟨n, hf, hu⟩
    · rw [exec_selfCheckVerdict_of hc ho hf hu, hf]
    · rw [exec_selfCheckVerdict_of hc ho hf hu, hf]
  case settle =>
    intro s u w c o own peer ⟨hc, hu⟩
    refine ⟨State.settleCheck_activeYields hc hu, State.settleCheck_activeKeeps hc hu, fun hr ho hp => ?_, fun hr ho => ?_, fun hr ho hp => ?_⟩
    · rw [State.settleCheck_standby hc hu hr, ho, hp, if_neg Bool.false_ne_true, if_pos rfl]
    · rw [State.settleCheck_standby hc hu hr, ho, if_pos rfl]
    · rw [State.settleCheck_standby hc hu hr, ho, hp, if_neg Bool.false_ne_true, if_neg Bool.false_ne_true]

end Sys2Proof.Machine
end

section
/-! Proofs of the commands of the pair of family 13 (R251, R264, R267, R269): Pair, Role Swap, Leave Pair and Set Egress Policy. -/
namespace Sys2Proof.Machine

/-! ### Registers and events across a change of role -/

theorem State.enterTwinTime_regs (s : State) : s.enterTwinTime.regs = s.regs := by
  unfold State.enterTwinTime
  split <;> rfl

theorem State.enterTime_regs (s : State) (t : TimeState) : (s.enterTime t).regs = s.regs := by
  cases t
  case locked | holdover => exact State.raise_regs _ _ _
  all_goals rfl

theorem State.leaveTwinTime_regs (s : State) : s.leaveTwinTime.regs = s.regs := by
  unfold State.leaveTwinTime
  split
  · exact State.enterTime_regs _ _
  · rfl

theorem State.setRole_regs (s : State) (r : Role) (k : Nat) : (s.setRole r k).regs = s.regs := by
  have hraise := s.raise_regs Ev.HRN_ROLE [roleCode s.hrn.role, roleCode r, k]
  unfold State.setRole
  dsimp only
  split
  · rw [State.enterTwinTime_regs, hraise]
  · rw [State.leaveTwinTime_regs, hraise]

theorem State.registerAll_regs (s : State) (e r : Nat) : (s.registerAll e r).regs = s.regs :=
  State.foldl_keeps State.regs (fun s m => s.reserve m 1 e r) (fun _ _ => rfl) _ s

theorem State.endCmd_none (s : State) (st : MStatus) (r : Nat) : s.endCmd none st r = s := rfl

theorem State.endCmd_regs (s : State) (id : Option Nat) (st : MStatus) (r : Nat) : (s.endCmd id st r).regs = s.regs := by
  unfold State.endCmd
  split
  · exact State.complete_regs _ _ _ _ _
  · rfl

theorem State.endCmd_src (s : State) (id : Option Nat) (st : MStatus) (r n : Nat) : (s.endCmd id st r).src n = s.src n := by
  unfold State.endCmd
  split
  · exact State.complete_src _ _ _ _ _ _
  · rfl

/-! ### Pair (R264) -/

theorem exec_pair_accepted {s : State} {id : Nat} {c : Started} (h : s.AcceptsPlain id 0x0400 [(0, 40)] c) : exec (.pair id) s = .next (
    if s.hrn.join.isSome || s.hrn.swap.isSome then s.complete c .busy
    else if !s.mayJoin then s.complete c .configConflict
    else (s.hold c.id).startJoin (some c.id)) :=
  congrArg _ (State.runPlain_accepted h _)

/-- The holder after its cutover: ACTIVE, with its peer STANDBY. -/
def State.cutsOver (u : State) : State :=
  ({ u with hrn.join := none, hrn.ordAck := u.hrn.oseq, hrn.lastHb := u.now, hrn.lastAck := u.now, hrn.peerRole := some .standby } :
    State).setRole .active 0

theorem State.cutsOver_upgrade (u : State) : u.cutsOver.hrn.upgrade = u.hrn.upgrade := by
  rw [State.cutsOver, State.setRole_hrn]

theorem exec_joinCutover_of {s t : State} {j : Join} (hj : s.hrn.join = some j) (hm : s.mayJoin = true)
    (hq : (s.htx.queue.any fun m => m.kind = .state) = false)
    (ht : t = (((s.sendTwin (.controlMsg .cutover)).cutsOver.registerAll
      (s.sendTwin (.controlMsg .cutover)).epoch 0).raise Ev.HRN_JOIN_DONE).endCmd j.id .success) :
    exec .joinCutover s = .next (t.when t.hrn.upgrade.isSome fun s => { s with hrn.swap := some { id := none } }) := by
  change execJoinCutover s = _
  simp only [execJoinCutover, hj, hm, hq, Bool.not_false, Bool.and_self, State.when_true, ht, State.cutsOver]

/-! ### Role Swap (R267) -/

theorem exec_roleSwap_accepted {s : State} {id : Nat} {c : Started} (h : s.AcceptsPlain id 0x0401 [(0, 40)] c) :
    exec (.roleSwap id) s = .next (
      if s.hrn.join.isSome || s.hrn.swap.isSome then s.complete c .busy
      else if s.hrn.role ≠ .active || s.hrn.peerRole ≠ some .standby then s.complete c .configConflict
      else { s.hold c.id with hrn.swap := some { id := some c.id } }) :=
  congrArg _ (State.runPlain_accepted h _)

section Swap
variable {s : State} {w : SwapRun} (hw : s.hrn.swap = some w) (hr : s.hrn.role = .active)
include hw hr

theorem exec_swapQuiesced_of (hq : w.quiesced = false) (hd : s.drv.cmds.all DrvCmd.isRead = true) : exec .swapQuiesced s =
    .next (({ s with hrn.swap := some { w with quiesced := true } } : State).sendTwin (.controlMsg (.takeCinch false))) := by
  change execSwapQuiesced s = _
  simp only [execSwapQuiesced, hw, hr, hq, hd, decide_true, Bool.not_false, Bool.and_self, State.when_true]

/-- The twin that has sent HANDOVER follows its peer at the epoch `e`. -/
def State.handsOver (s : State) (e : Nat) : State :=
  let s := s.setFld Reg.HRN_EPOCH_EPOCH e
  let s := ({ s with hrn.swap := none, hrn.ordSeen := s.hrn.oseq, hrn.lastSwap := s.now, hrn.own := [], hrn.theirs := [], hrn.posts := [],
                     hrn.ctrlSeen := some s.hrn.ctrlSeq } : State).setRole .standby 0
  ({ s with hrn.peerRole := some .active } : State).registerAll e 1

omit hw hr in
theorem State.handsOver_hrn (s : State) (e : Nat) : (s.handsOver e).hrn.role = .standby ∧ (s.handsOver e).hrn.swap = none ∧
    (s.handsOver e).hrn.peerRole = some .active ∧ (s.handsOver e).hrn.upgrade = s.hrn.upgrade := by
  simp only [State.handsOver, State.registerAll_hrn, State.setRole_hrn, State.setFld_hrn, and_self]

omit hw hr in
theorem State.handsOver_epoch (s : State) (e : Nat) : (s.handsOver e).fld Reg.HRN_EPOCH_EPOCH = e % 2 ^ 32 := by
  have hregs : (s.handsOver e).regs = (s.setFld Reg.HRN_EPOCH_EPOCH e).regs := by
    simp only [State.handsOver, State.registerAll_regs, State.setRole_regs]
  rw [State.fld_of_regs hregs]
  exact State.setFld_fld_same s Reg.HRN_EPOCH_EPOCH e (by decide) (by decide)

omit hr in
/-- During a swap the standby is not demoted for its lag: an order entry leaves the activation. -/
theorem State.order_upgrade_of_swap (n : Nat) (k : OrderKind) : (s.order n k).1.hrn.upgrade = s.hrn.upgrade := by
  simp only [State.order, hw, Option.isNone_some, Bool.and_false, Bool.false_and, if_neg Bool.false_ne_true]
  split
  · rfl
  · rw [State.sendTwin_hrn]

theorem exec_handover_of (ht : w.taken = true) (hup : s.hrn.upgrade = none) {u : State}
    (hu : u = (((s.order 0xFFFF (.handover (s.epoch + 1))).1.handsOver (s.epoch + 1)).raise Ev.HRN_SWAP).endCmd w.id .success) :
    exec .handover s = .next { u with hrn.upgrade := none } := by
  have hkeeps := ((State.handsOver_hrn _ (s.epoch + 1)).2.2.2).trans ((State.order_upgrade_of_swap hw 0xFFFF (.handover (s.epoch + 1))).trans hup)
  change execHandover s = _
  rw [State.handsOver] at hkeeps hu
  simp only [execHandover, hw, hr, ht, decide_true, Bool.and_self, State.when_true, hkeeps, Option.isSome_none, State.when_false, State.endCmd_none, hu]

end Swap

/-! ### Leave Pair (R269) -/

theorem exec_leavePair_alone {s : State} {id : Nat} {c : Started} (h : s.AcceptsPlain id 0x0402 [(0, 40)] c) (hp : s.hasPeer = false) :
    exec (.leavePair id) s = .next (s.complete c .configConflict) :=
  congrArg _ ((State.runPlain_accepted h _).trans (if_pos (by rw [hp]; rfl)))

theorem exec_leavePair_paired {s u : State} {id : Nat} {c : Started} (h : s.AcceptsPlain id 0x0402 [(0, 40)] c) (hp : s.hasPeer = true)
    (hu : u = (((s.hold c.id).dropJoin 6).sendTwin (.controlMsg .leave)).endCmd
      ((((s.hold c.id).dropJoin 6).sendTwin (.controlMsg .leave)).hrn.swap.bind SwapRun.id) .configConflict) :
    exec (.leavePair id) s = .next (
      if u.hrn.role = .active then ({ u with hrn.swap := none, hrn.leaving := some c.id } : State).becomeAlone 6
      else ({ u with hrn.swap := none, hrn.leaving := some c.id } : State).settleAlone) := by
  change execLeavePair id s = _
  rw [execLeavePair, State.runPlain_accepted h, hp, Bool.not_true, if_neg Bool.false_ne_true, hu]

/-! ### Set Egress Policy (R251) -/

section Egress
variable {s : State} {id : Nat} {c : Started} (h : s.AcceptsPlain id 0x0403 [(4, 36)] c)
include h

/-- What later connections may do under the policy of a command. -/
def State.egressPolicy (s : State) (c : Started) : State :=
  if c.desc.par 0 1 = 0 then { s with hrn.tandemDefault := (c.desc.par 1 1).testBit 0 }
  else { s with hrn.tandemTenant := Assoc.set 0 s.hrn.tandemTenant (c.desc.par 2 2)
                  (if (c.desc.par 1 1).testBit 2 then 0 else if (c.desc.par 1 1).testBit 0 then 1 else 2) }

/-- The TANDEM connections that a command with DEMOTE moves to LEAD. -/
def State.demotedBy (s : State) (c : Started) : List Nat :=
  if (c.desc.par 1 1).testBit 1 then s.tandemIn (if c.desc.par 0 1 = 0 then none else some (c.desc.par 2 2)) else []

theorem exec_setEgressPolicy_accepted : exec (.setEgressPolicy id) s = .next (
    if 2 ≤ c.desc.par 0 1 || 8 ≤ c.desc.par 1 1 || (c.desc.par 0 1 = 1 && decide (1024 ≤ c.desc.par 2 2)) then s.complete c .invalidField
    else (((s.egressPolicy c).demotedBy c).foldl (fun s n => s.updConn n fun c => { c with demoting := true }) (s.egressPolicy c)).holderDone c
      ((s.egressPolicy c).demotedBy c).length) :=
  congrArg _ (State.runPlain_accepted h _)

end Egress

/-- Settles O48: each clause is the case of its command that its hypotheses select. CONFIG_CONFLICT for a swap or a join that Leave Pair ends is
log entry 56, and the connections that DEMOTE takes in are log entry 62. -/
theorem pairCommandsJoinSwapAndLeave : Obligations.PairCommandsJoinSwapAndLeave := by
  refine ⟨?pair, ?cutover, ?swap, ?quiesced, ?handover, ?alone, ?leave, ?egress, ?refused⟩
  case pair =>
    intro s id c h
    rw [exec_pair_accepted h]
    refine ⟨fun hb => by rw [if_pos (by simpa using hb)], fun hj hs hm => ?_, fun hj hs hm => ?_⟩
    · simp only [hj, hs, hm, Option.isSome_none, Bool.or_self, Bool.not_true, if_neg Bool.false_ne_true]
    · simp only [hj, hs, hm, Option.isSome_none, Bool.or_self, Bool.not_false, if_neg Bool.false_ne_true, if_true]
  case cutover =>
    intro s u v j ⟨hj, hm, hq, hu, hv⟩
    refine ⟨_, exec_joinCutover_of hj hm hq rfl, fun hup => ?_⟩
    have hup' : u.cutsOver.hrn.upgrade = none := by rw [State.cutsOver_upgrade, hu, State.sendTwin_hrn, hup]
    rw [← hu, State.endCmd_hrn, State.raise_hrn_of_no_fault _ (by decide), State.registerAll_hrn, hup', Option.isSome_none, State.when_false,
      State.cutsOver, hv]
  case swap =>
    intro s id c h
    rw [exec_roleSwap_accepted h]
    refine ⟨fun hb => by rw [if_pos (by simpa using hb)], fun hj hs hr hp => ?_, fun hj hs hrp => ?_⟩
    · simp only [hj, hs, hr, hp, Option.isSome_none, Bool.or_self, ne_eq, not_true_eq_false, decide_false, if_neg Bool.false_ne_true]
    · have hc : (decide (s.hrn.role ≠ .active) || decide (s.hrn.peerRole ≠ some .standby)) = true := by simpa using hrp
      rw [hj, hs, hc, if_neg (by decide), if_pos rfl]
  case quiesced => exact fun s w ⟨hw, hr, hq, hd⟩ => exec_swapQuiesced_of hw hr hq hd
  case handover =>
    intro s w ⟨hw, hr, ht, hup⟩
    obtain ⟨hrole, hswap, hpeer, -⟩ := State.handsOver_hrn (s.order 0xFFFF (.handover (s.epoch + 1))).1 (s.epoch + 1)
    generalize hv : (s.order 0xFFFF (.handover (s.epoch + 1))).1.handsOver (s.epoch + 1) = v at hrole hswap hpeer
    have hhrn : ((v.raise Ev.HRN_SWAP).endCmd w.id .success).hrn = v.hrn := by
      rw [State.endCmd_hrn, State.raise_hrn_of_no_fault _ (by decide)]
    have hregs : ((v.raise Ev.HRN_SWAP).endCmd w.id .success).regs = v.regs := (State.endCmd_regs _ _ _ _).trans (State.raise_regs _ _ _)
    have hsrc := (State.endCmd_src (v.raise Ev.HRN_SWAP) w.id .success 0 Ev.HRN_SWAP).trans (State.raise_src_same v _ [])
    have hepoch : v.fld Reg.HRN_EPOCH_EPOCH = _ := hv ▸ State.handsOver_epoch _ _
    rw [exec_handover_of hw hr ht hup rfl, hv]
    refine ⟨_, rfl, ?_, ?_, ?_, ?_, ?_⟩
    · exact (congrArg Hrn.role hhrn).trans hrole
    · exact (congrArg Hrn.swap hhrn).trans hswap
    · exact (congrArg Hrn.peerRole hhrn).trans hpeer
    · exact (State.fld_of_regs hregs _).trans hepoch
    · exact (congrArg Src.pend hsrc).trans (Src.occur_pend _ _ _)
  case alone => exact fun s id c ⟨h, hp⟩ => exec_leavePair_alone h hp
  case leave =>
    intro s u id c ⟨h, hp, hu⟩
    rw [exec_leavePair_paired h hp hu]
    exact ⟨fun hr => by rw [if_pos hr], fun hr => by rw [if_neg hr]⟩
  case egress =>
    intro s u id c ns ⟨h, hf, hu, hns⟩
    have hu' : s.egressPolicy c = u := by
      rcases hu with ⟨h0, hu⟩ | ⟨h1, -, hu⟩
      · rw [State.egressPolicy, if_pos h0, hu]
      · rw [State.egressPolicy, if_neg (by omega), hu]
    have hns' : u.demotedBy c = ns := by
      rcases hns with ⟨hd, hns⟩ | ⟨hd, hns⟩
      · rw [State.demotedBy, if_pos hd, hns]
      · rw [State.demotedBy, hd, if_neg Bool.false_ne_true, hns]
    rw [exec_setEgressPolicy_accepted h, hu', hns', if_neg]
    simp only [Bool.or_eq_true, Bool.and_eq_true, decide_eq_true_eq]
    omega
  case refused =>
    intro s id c ⟨h, hbad⟩
    rw [exec_setEgressPolicy_accepted h, if_pos]
    simpa [or_assoc] using hbad

end Sys2Proof.Machine
end

section
/-! Proofs of the data keys of family 15 (R285, R286, R304, R305): import, rotation, reseal and destruction. -/
namespace Sys2Proof.Machine

/-! ### What writing a page and telling the peer leave -/

/-- The namespaces and the data keys of a state. -/
def State.keyed (s : State) : Assoc Ns × Assoc DataKey := (s.cmdb.nss, s.cph.keys)

theorem State.ns_of_keyed {s t : State} (h : t.keyed = s.keyed) (n : Nat) : t.ns n = s.ns n :=
  congrArg (fun p : Assoc Ns × Assoc DataKey => Assoc.get ({} : Ns) p.1 n) h

theorem State.dataKey_of_keyed {s t : State} (h : t.keyed = s.keyed) (i : Nat) : t.dataKey i = s.dataKey i :=
  congrArg (fun p : Assoc Ns × Assoc DataKey => Assoc.get ({} : DataKey) p.2 i) h

theorem State.raise_keyed (s : State) (n : Nat) (d : List Nat) : (s.raise n d).keyed = s.keyed := by
  rw [State.keyed, State.raise_cmdb, State.raise_cph, State.keyed]

theorem State.saveRecord_keyed (s : State) (ws : List Nat) : (s.saveRecord ws).keyed = s.keyed :=
  (congrArg State.keyed (s.saveRecord_beyondRecords ws) :)

theorem State.nextEpoch_keyed (s : State) : s.nextEpoch.keyed = s.keyed := by
  unfold State.nextEpoch
  split
  · exact State.raise_keyed _ _ _
  · exact State.saveRecord_keyed _ _

theorem State.takeCtrs_keyed (s : State) (n : Nat) : (s.takeCtrs n).1.keyed = s.keyed := by
  unfold State.takeCtrs
  split
  · rfl
  split
  · exact s.nextEpoch_keyed
  dsimp only
  split
  · exact State.nextEpoch_keyed _
  · rfl

theorem State.writeCopies_keyed (s : State) (ds : List (Nat × Nat)) (o : Nat → Nat → Nat → Out) :
    (s.writeCopies ds o).1.keyed = s.keyed := by
  have htake := s.takeCtrs_keyed ds.length
  unfold State.writeCopies
  split
  · next h => rwa [h] at htake
  · next u k h =>
    rw [h] at htake
    exact (State.foldl_keeps State.keyed (fun s (d : (Nat × Nat) × Nat) => s.emit (o d.1.1 d.1.2 (k + d.2))) (fun _ _ => rfl) _ u).trans htake

theorem State.persist_keyed (s : State) (p : MetaPage) : (s.persist p).keyed = s.keyed := by
  have hw : (if (s.pageTargets p).length < 2 then (s, false) else s.writeCopies (s.pageTargets p) (s.pageOut p)).1.keyed = s.keyed := by
    split
    · rfl
    · exact s.writeCopies_keyed _ _
  unfold State.persist
  dsimp only
  split
  · rfl
  split
  · next h => rwa [h] at hw
  · next h => rwa [h] at hw

theorem State.lagDemote_keyed (s : State) : s.lagDemote.keyed = s.keyed := by
  unfold State.lagDemote
  simp only [State.keyed, State.raise_cmdb, State.raise_cph, State.sendTwin_cmdb, State.sendTwin_cph, State.clearMirror_cph]
  rw [State.clearMirror, State.raise_cmdb, State.raise_cmdb]

theorem State.order_keyed (s : State) (n : Nat) (k : OrderKind) : (s.order n k).1.keyed = s.keyed := by
  have hlag : (if s.standbyPresent && s.hrn.swap.isNone && decide (s.hrn.ordAck + 131072 ≤ s.hrn.oseq) then s.lagDemote else s).keyed =
      s.keyed := by
    split
    · exact s.lagDemote_keyed
    · rfl
  unfold State.order
  dsimp only
  generalize (if s.standbyPresent && s.hrn.swap.isNone && decide (s.hrn.ordAck + 131072 ≤ s.hrn.oseq) then s.lagDemote else s) = u at hlag
  split
  · exact hlag
  · rw [State.keyed, State.sendTwin_cmdb, State.sendTwin_cph, ← hlag, State.keyed]

theorem State.tellTwin_keyed (s : State) (m : ControlMsg) : (s.tellTwin m).keyed = s.keyed := by
  unfold State.tellTwin
  split
  · rw [State.carryChange, State.order_keyed, State.keyed, State.sendTwin_cmdb, State.sendTwin_cph, State.keyed]
  · rfl

/-! ### Import (R304) -/

section Import
variable {s u : State} {id : Nat} {c : Started} (h : s.Accepts id 0x0500 [(0, 40)] (· = 1544) (fun _ => true) c u)
include h

theorem exec_importDataKey_malformed (x : WrapSecrets)
    (hp : 1024 ≤ leAt c.payload 0 2 ∨ zeroAt c.payload 2 6 = false ∨ zeroAt c.payload 0x604 4 = false) :
    exec (.importDataKey id x) s = .next (u.complete c .invalidField) := by
  have hbad : (decide (1023 < leAt c.payload 0 2) || !zeroAt c.payload 2 6 || !zeroAt c.payload 0x604 4) = true := by
    simpa [Nat.succ_le_iff, or_assoc] using hp
  change execImportDataKey id x s = _
  rw [execImportDataKey, State.runMgmt_accepted h, if_pos hbad]

variable (ht : leAt c.payload 0 2 < 1024) (h0 : zeroAt c.payload 2 6 = true) (h1 : zeroAt c.payload 0x604 4 = true) {sk : List Byte}
  {sr : Option (List Byte)}
include ht h0 h1

omit h in
/-- A payload in range goes on to the unwrapping of its key. -/
theorem importDataKey_inRange : ¬(decide (1023 < leAt c.payload 0 2) || !zeroAt c.payload 2 6 || !zeroAt c.payload 0x604 4) = true := by
  rw [h0, h1, decide_eq_false (by omega)]
  decide

theorem exec_importDataKey_unverified (hk : sr.bind (unwrapKey c.payload sk) = none) :
    exec (.importDataKey id ⟨sk, sr⟩) s = .next (u.complete c .invalidField 1) := by
  change execImportDataKey id ⟨sk, sr⟩ s = _
  rw [execImportDataKey, State.runMgmt_accepted h, if_neg (importDataKey_inRange ht h0 h1)]
  simp only [hk]

variable {k : List Byte} (hk : sr.bind (unwrapKey c.payload sk) = some k)
include hk

theorem exec_importDataKey_full (hi : u.freeKeySlot = none) :
    exec (.importDataKey id ⟨sk, sr⟩) s = .next (u.complete c .limitExceeded) := by
  change execImportDataKey id ⟨sk, sr⟩ s = _
  rw [execImportDataKey, State.runMgmt_accepted h, if_neg (importDataKey_inRange ht h0 h1)]
  simp only [hk, hi]

theorem exec_importDataKey_takes {i : Nat} (hi : u.freeKeySlot = some i) : exec (.importDataKey id ⟨sk, sr⟩) s =
    .next (((u.setDataKey i { used := true, key := k }).raise Ev.SEC_KEY_IMPORT [2 ^ 28 + i, leAt c.payload 0 2]).holderDone c (2 ^ 28 + i)) := by
  change execImportDataKey id ⟨sk, sr⟩ s = _
  rw [execImportDataKey, State.runMgmt_accepted h, if_neg (importDataKey_inRange ht h0 h1)]
  simp only [hk, hi]

end Import

/-! ### Rotation (R285) -/

/-- Generation `g` of namespace `n` under the key `key`, with a reseal as given: bound, written to the namespace's page and announced. -/
def State.rotated (s : State) (n key g : Nat) (reseal : Option (Nat × List Nat)) : State :=
  (((s.setNs n { s.ns n with gens := (s.ns n).gens ++ [(g, key % 2 ^ 28)], reseal := reseal }).bindKey key n g).persist (.ns n)).raise
    Ev.CPH_ROTATE [n, g]

theorem exec_rotateDataKey_of {s u : State} {id : Nat} {c : Started} {n key : Nat}
    (h : s.Accepts id 0x0501 [(0, 40)] (· = 16) (fun _ => true) c u) (hn : n = leAt c.payload 0 4) (hkey : key = leAt c.payload 4 4)
    (hr : leAt c.payload 8 1 ≤ 1) (hz : zeroAt c.payload 9 7 = true) (hx : u.nsExists n = true) (hf : u.keyFree key = true) :
    exec (.rotateDataKey id) s = .next (
      if 4 ≤ (u.ns n).gens.length then u.complete c .limitExceeded
      else if decide (leAt c.payload 8 1 = 1) && (u.ns n).reseal.isSome then u.complete c .busy
      else (u.rotated n key (((u.ns n).gens.getLast?.map Prod.fst).getD 0 + 1) (if leAt c.payload 8 1 = 1 then
          some (((u.ns n).gens.getLast?.map Prod.fst).getD 0 + 1, []) else (u.ns n).reseal)).holderDone c
        (((u.ns n).gens.getLast?.map Prod.fst).getD 0 + 1)) := by
  have hok : ¬(decide (1 < leAt c.payload 8 1) || !zeroAt c.payload 9 7 || !u.nsExists n || !u.keyFree key) = true := by
    rw [hz, hx, hf, decide_eq_false (by omega)]
    decide
  subst hn hkey
  change execRotateDataKey id s = _
  rw [execRotateDataKey, State.runMgmt_accepted h, if_neg hok]
  simp only [State.rotated]

/-! ### Reseal (R286) -/

section Reseal
variable {s : State} {n start : Nat} {done : List Nat} (hx : (s.ns n).reseal = some (start, done)) (hh : s.hrn.holder = true)
include hx hh

theorem exec_resealExtent_of {u : State} {e : Nat} {rs : List (Nat × List Byte)} (hw : s.windowOpen 2 = true) (hb : s.bgSlot = true)
    (hs : s.cph.saved = true) (ha : (s.mapEnt (s.ns n).volume e).alloc = true) (hd : done.contains e = false) (hr : s.resealRoom = true)
    (hu : u = ((rs.filter fun r => r.1 / 4096 = e) ++ s.oldBuffered n start e).foldl (fun s r => s.resealBlock n start r) s) :
    exec (.resealExtent n e rs) s =
      .next (u.when (u.resealRoom && u.cph.saved) fun u => u.setNs n { u.ns n with reseal := some (start, e :: done) }) := by
  change execResealExtent n e rs s = _
  simp only [execResealExtent, hx, hh, hw, hb, hs, ha, hd, hr, Bool.not_false, Bool.and_self, State.when_true, hu]

theorem exec_resealDone_of (ha : ∀ e ∈ (s.volume (s.ns n).volume).map, e.2.alloc = true → e.1 ∈ done) (hu : s.keyInUse n = false) :
    exec (.resealDone n) s = .next ((((s.retireGens n start).persist (.ns n)).tellTwin (.retired n start)).raise Ev.CPH_RESEAL_DONE
      [n, ((s.ns n).gens.filter fun g => decide (g.1 < start)).length]) := by
  have hall : (((s.volume (s.ns n).volume).map.filter fun e => e.2.alloc).all fun e => done.contains e.1) = true := by
    simp only [List.all_eq_true, List.mem_filter, and_imp, List.contains_iff_mem]
    exact ha
  change execResealDone n s = _
  simp only [execResealDone, hx, hh, hall, hu, Bool.not_false, Bool.and_self, State.when_true]

end Reseal

/-- The keys of the slots `gs` are gone. -/
theorem State.clearKeys_dataKey (gs : List (Nat × Nat)) (s : State) {g : Nat × Nat} (hg : g ∈ gs) :
    (gs.foldl (fun s g => s.setDataKey g.2 {}) s).dataKey g.2 = {} := by
  induction gs using List.reverseRecOn with
  | nil => exact absurd hg List.not_mem_nil
  | append_singleton gs x ih =>
    rw [List.foldl_append, List.foldl_cons, List.foldl_nil, State.dataKey, State.setDataKey, Assoc.get_set]
    split
    · rfl
    next hne =>
      rcases List.mem_append.mp hg with hg | hg
      · exact ih hg
      · exact absurd (congrArg Prod.snd (List.mem_singleton.mp hg)) hne

theorem State.retireGens_ns (s : State) (n start : Nat) : (s.retireGens n start).ns n =
    { s.ns n with gens := (s.ns n).gens.filter fun g => decide (start ≤ g.1), reseal := none } :=
  Assoc.get_set_same _ _ _ _

theorem State.retireGens_dataKey (s : State) {n start : Nat} {g : Nat × Nat} (hg : g ∈ (s.ns n).gens) (hlt : g.1 < start) :
    (s.retireGens n start).dataKey g.2 = {} :=
  State.clearKeys_dataKey _ s (List.mem_filter.mpr ⟨hg, decide_eq_true hlt⟩)

/-! ### Destruction (R305) -/

section Destroy
variable {s u : State} {id i : Nat} {c : Started} (h : s.Accepts id 0x0502 [(0, 40)] (· = 8) (fun _ => true) c u)
include h

theorem exec_destroyDataKey_noHandle (hi : keySlot (leAt c.payload 0 4) = none) :
    exec (.destroyDataKey id) s = .next (u.complete c .invalidField) := by
  change execDestroyDataKey id s = _
  rw [execDestroyDataKey, State.runMgmt_accepted h]
  simp only [hi]

variable (hi : keySlot (leAt c.payload 0 4) = some i)
include hi

theorem exec_destroyDataKey_empty (hbad : leAt c.payload 4 4 ≠ 0 ∨ (u.dataKey i).used = false) :
    exec (.destroyDataKey id) s = .next (u.complete c .invalidField) := by
  have hbad' : (decide (leAt c.payload 4 4 ≠ 0) || !(u.dataKey i).used) = true := by simpa using hbad
  change execDestroyDataKey id s = _
  rw [execDestroyDataKey, State.runMgmt_accepted h]
  simp only [hi]
  rw [if_pos hbad']

variable (h0 : leAt c.payload 4 4 = 0) (hu : (u.dataKey i).used = true)
include h0 hu

theorem exec_destroyDataKey_unbound (hb : (u.dataKey i).bound = none) :
    exec (.destroyDataKey id) s = .next ((u.destroyKey i).holderDone c) := by
  change execDestroyDataKey id s = _
  rw [execDestroyDataKey, State.runMgmt_accepted h]
  simp only [hi, h0, hu, hb, ne_eq, not_true_eq_false, decide_false, Bool.not_true, Bool.or_self, if_neg Bool.false_ne_true]

theorem exec_destroyDataKey_bound {n g : Nat} (hb : (u.dataKey i).bound = some (n, g)) : exec (.destroyDataKey id) s = .next (
    if ((u.ns n).gens.getLast?).map Prod.fst = some g then u.complete c .configConflict
    else if u.liveLocks n ≠ [] then u.complete c .retentionLocked
    else if u.keyInUse n then u.hold c.id
    else (u.destroyKey i).holderDone c) := by
  change execDestroyDataKey id s = _
  rw [execDestroyDataKey, State.runMgmt_accepted h]
  simp only [hi, h0, hu, hb, ne_eq, not_true_eq_false, decide_false, Bool.not_true, Bool.or_self, if_neg Bool.false_ne_true]

end Destroy

theorem State.setDataKey_dataKey (s : State) (i : Nat) (k : DataKey) : (s.setDataKey i k).dataKey i = k := Assoc.get_set_same _ _ _ _

theorem State.setNs_ns (s : State) (n : Nat) (x : Ns) : (s.setNs n x).ns n = x := Assoc.get_set_same _ _ _ _

section DestroyKey
variable (s : State) (i : Nat)

theorem State.destroyKey_src : ((s.destroyKey i).src Ev.SEC_KEY_DESTROY).pend = true := by
  rw [State.destroyKey, State.raise_src_same, Src.occur_pend]

theorem State.destroyKey_dataKey : (s.destroyKey i).dataKey i = {} := by
  rw [State.destroyKey, State.dataKey_of_keyed (State.raise_keyed _ _ _), State.setDataKey_dataKey]

theorem State.destroyKey_ns {n g : Nat} (hb : (s.dataKey i).bound = some (n, g)) :
    (s.destroyKey i).ns n = { s.ns n with gens := (s.ns n).gens.filter fun x => x.1 ≠ g } := by
  simp only [State.destroyKey, hb]
  rw [State.ns_of_keyed (State.raise_keyed _ _ _)]
  change State.ns (State.persist _ _) n = _
  rw [State.ns_of_keyed (State.persist_keyed _ _), State.setNs_ns]

end DestroyKey

/-- Settles O50: each clause is the case of its command that its hypotheses select; what a reseal's end and a destruction leave is read off the
namespaces and the keys, which the pages and the message to the peer do not change. That the newest generation is CONFIG_CONFLICT before its locks
are looked at is log entry 84. -/
theorem dataKeysLiveFromImportToDestruction : Obligations.DataKeysLiveFromImportToDestruction := by
  refine ⟨?imported, ?rotate, ?extent, ?done, ?idle, ?destroy, ?invalid, ?destroyed⟩
  case imported =>
    intro s u id c sk k sr h
    exact ⟨fun hp => exec_importDataKey_malformed h _ hp, fun ht h0 h1 => ⟨exec_importDataKey_unverified h ht h0 h1, fun hk =>
      ⟨exec_importDataKey_full h ht h0 h1 hk, fun i hi => exec_importDataKey_takes h ht h0 h1 hk hi⟩⟩⟩
  case rotate =>
    intro s u id c n key ⟨h, hn, hkey, hr, hz, hx, hf⟩
    rw [exec_rotateDataKey_of h hn hkey hr hz hx hf]
    refine ⟨fun h4 => by rw [if_pos h4], fun h4 h1 hb => ?_, fun gs g k hg h3 => ?_⟩
    · rw [if_neg (Nat.not_le.mpr h4), h1, hb, if_pos (by decide)]
    · have hlen : ¬4 ≤ (u.ns n).gens.length := by
        rw [hg, List.length_append, List.length_singleton]
        omega
      have hlast : ((u.ns n).gens.getLast?.map Prod.fst).getD 0 = g := by rw [hg, List.getLast?_concat]; rfl
      rw [if_neg hlen, hlast]
      refine ⟨fun h0 => ?_, fun h1 hb => ?_⟩
      · rw [h0, if_neg (by simp), if_neg (by decide), State.rotated]
      · rw [h1, hb, if_neg (by decide), if_pos rfl, State.rotated]
  case extent =>
    intro s u n start e done rs ⟨hx, hh, hw, hb, hs, ha, hd, hr, hu⟩
    rw [exec_resealExtent_of hx hh hw hb hs ha hd hr hu]
    refine ⟨fun hroom hsaved => by rw [hroom, hsaved, Bool.and_self, State.when_true], fun hno => ?_⟩
    rw [Bool.and_eq_false_iff.mpr hno, State.when_false]
  case done =>
    intro s n start done ⟨hx, hh, ha, hu⟩
    have hkeyed := (State.raise_keyed (((s.retireGens n start).persist (.ns n)).tellTwin (.retired n start)) Ev.CPH_RESEAL_DONE
      [n, ((s.ns n).gens.filter fun g => decide (g.1 < start)).length]).trans ((State.tellTwin_keyed _ _).trans (State.persist_keyed _ _))
    refine ⟨_, exec_resealDone_of hx hh ha hu, ?_, ?_, ?_, fun g hg hlt => ?_⟩
    · rw [State.ns_of_keyed hkeyed, State.retireGens_ns]
    · rw [State.ns_of_keyed hkeyed, State.retireGens_ns]
    · rw [State.raise_src_same, Src.occur_pend]
    · rw [State.dataKey_of_keyed hkeyed, State.retireGens_dataKey s hg hlt]
  case idle =>
    intro s n e rs hx
    change execResealExtent n e rs s = _ ∧ execResealDone n s = _
    simp only [execResealExtent, execResealDone, hx, and_self]
  case destroy =>
    intro s u id i c ⟨h, hi, h0, hu⟩
    refine ⟨exec_destroyDataKey_unbound h hi h0 hu, fun n g hb hg => ?_, fun n g hb hg hl => ?_, fun n g hb hl hg => ?_⟩
    · rw [exec_destroyDataKey_bound h hi h0 hu hb, if_pos hg]
    · rw [exec_destroyDataKey_bound h hi h0 hu hb, if_neg hg, if_pos hl]
    · rw [exec_destroyDataKey_bound h hi h0 hu hb, if_neg hg, if_neg (not_not.mpr hl)]
  case invalid =>
    exact fun s u id c h => ⟨exec_destroyDataKey_noHandle h, fun i hi hbad => exec_destroyDataKey_empty h hi hbad⟩
  case destroyed =>
    exact fun s i n g hb => ⟨s.destroyKey_dataKey i, congrArg Ns.gens (s.destroyKey_ns i hb), s.destroyKey_src i⟩

end Sys2Proof.Machine
end

section
/-! Proofs of the SPDM responder of family 15 (R297, R298). -/
namespace Sys2Proof.Machine

/-! ### The responder -/

theorem State.answerSpdm_running {s : State} (h : s.awake = true ∧ s.clk.bootDone = true ∧ s.sec.stopped = false) (m : SpdmReply) :
    s.answerSpdm m = s.emit (.spdm m) := by
  obtain ⟨ha, hb, hs⟩ := h
  rw [State.answerSpdm, ha, hb, hs, Bool.not_false, Bool.and_self, Bool.and_self, State.when_true]

theorem State.answerSpdm_silent {s : State} (h : s.awake = false ∨ s.clk.bootDone = false ∨ s.sec.stopped = true) (m : SpdmReply) :
    s.answerSpdm m = s := by
  have hc : (s.awake && s.clk.bootDone && !s.sec.stopped) = false := by
    rcases h with h | h | h <;> simp [h]
  rw [State.answerSpdm, hc, State.when_false]

/-! ### The replies -/

/-- The reply to GET_CERTIFICATE. -/
def State.certificateReply (s : State) (slot offset length : Nat) : SpdmReply :=
  if slot ≤ 2 then
    .certificate slot (((s.chain slot).drop offset).take (min length 4096)) (((s.chain slot).drop offset).length - min length 4096)
  else .error 1

theorem exec_spdmGetCertificate (s : State) (slot offset length : Nat) :
    exec (.spdmGetCertificate slot offset length) s = .next (s.answerSpdm (s.certificateReply slot offset length)) := rfl

/-- The reply to CHALLENGE. -/
def State.challengeReply (s : State) (g : SpdmSign) : SpdmReply :=
  if g.slot ≤ 2 then .challengeAuth g.slot (s.blocks 8) (s.signBoth g.slot (Config.sha256 (g.transcript ++ (s.blocks 8).flatten)))
  else .error 1

theorem exec_spdmChallenge (s : State) (g : SpdmSign) : exec (.spdmChallenge g) s = .next (s.answerSpdm (s.challengeReply g)) := rfl

/-- The blocks that GET_MEASUREMENTS asks for. -/
def State.askedBlocks (s : State) (index : Nat) : List (Nat × List Byte) :=
  if index = 0 then [] else if index = 0xFF then (List.range 8).map fun i => (i + 1, s.measurement (i + 1))
  else ((List.range 8).map fun i => (i + 1, s.measurement (i + 1))).filter fun b => b.1 = index

/-- The reply to GET_MEASUREMENTS, signed where `sign` asks for it. -/
def State.measurementsReply (s : State) (index : Nat) (sign : Option SpdmSign) : SpdmReply :=
  if (decide (index ≤ 8) || decide (index = 0xFF)) && sign.all (·.slot ≤ 2) then
    .measurements 8 (s.askedBlocks index)
      (sign.map fun g => s.signBoth g.slot (Config.sha256 (g.transcript ++ (s.askedBlocks index).flatMap Prod.snd)))
  else .error 1

theorem exec_spdmGetMeasurements (s : State) (index : Nat) (sign : Option SpdmSign) :
    exec (.spdmGetMeasurements index sign) s = .next (s.answerSpdm (s.measurementsReply index sign)) := rfl

/-- One index of the first eight names its block alone. -/
theorem range_filter_succ : ∀ i < 8, (List.range 8).filter (fun j => decide (j + 1 = i + 1)) = [i] := by decide

theorem State.askedBlocks_one (s : State) {index : Nat} (h1 : 1 ≤ index) (h8 : index ≤ 8) :
    s.askedBlocks index = [(index, s.measurement index)] := by
  obtain ⟨i, rfl⟩ := Nat.exists_eq_add_of_le' h1
  rw [State.askedBlocks, if_neg (by omega), if_neg (by omega), List.filter_map]
  exact congrArg (List.map fun i => (i + 1, s.measurement (i + 1))) (range_filter_succ i (by omega))

section Measurements
variable (s : State) {index : Nat}

theorem State.measurementsReply_plain (h : index ≤ 8 ∨ index = 0xFF) :
    s.measurementsReply index none = .measurements 8 (s.askedBlocks index) none :=
  if_pos (by simpa using h)

theorem State.measurementsReply_signed (h : index ≤ 8 ∨ index = 0xFF) {g : SpdmSign} (hg : g.slot ≤ 2) :
    s.measurementsReply index (some g) = .measurements 8 (s.askedBlocks index)
      (some (s.signBoth g.slot (Config.sha256 (g.transcript ++ (s.askedBlocks index).flatMap Prod.snd)))) :=
  if_pos (by simpa [hg] using h)

theorem State.measurementsReply_noSlot {g : SpdmSign} (hg : 2 < g.slot) : s.measurementsReply index (some g) = .error 1 :=
  if_neg (by simp [hg])

theorem State.measurementsReply_noBlock (h8 : 8 < index) (hff : index ≠ 0xFF) (sign : Option SpdmSign) :
    s.measurementsReply index sign = .error 1 :=
  if_neg (by simp [hff, Nat.not_le.mpr h8])

end Measurements

/-- Settles O53: each clause is the reply to its request, answered or not. That the responder says nothing once the security core has stopped is log
entries 86 and 87. -/
theorem spdmIsAnsweredWhileTheSecurityCoreRuns : Obligations.SpdmIsAnsweredWhileTheSecurityCoreRuns := by
  refine ⟨?short, ?chains, ?measured, ?noBlock, ?silent⟩
  case short =>
    intro s slot offset length index sign h
    exact ⟨congrArg _ (State.answerSpdm_running h _), congrArg _ (State.answerSpdm_running h _), congrArg _ (State.answerSpdm_running h _),
      congrArg _ (State.answerSpdm_running h _)⟩
  case chains =>
    intro s slot offset length tr h
    rw [exec_spdmGetCertificate, exec_spdmChallenge, State.answerSpdm_running h, State.answerSpdm_running h, State.certificateReply,
      State.challengeReply]
    exact ⟨fun hs => ⟨by rw [if_pos hs], by rw [if_pos hs]⟩, fun hs => ⟨by rw [if_neg (Nat.not_le.mpr hs)], by rw [if_neg (Nat.not_le.mpr hs)]⟩⟩
  case measured =>
    intro s index slot tr bs ⟨ha, hb, hst, hi⟩
    have hbs : s.askedBlocks index = bs := by
      rcases hi with ⟨rfl, rfl⟩ | ⟨rfl, rfl⟩ | ⟨h1, h8, rfl⟩
      · rfl
      · rfl
      · exact s.askedBlocks_one h1 h8
    have hidx : index ≤ 8 ∨ index = 0xFF := by omega
    simp only [exec_spdmGetMeasurements, State.answerSpdm_running ⟨ha, hb, hst⟩, ← hbs]
    refine ⟨by rw [State.measurementsReply_plain _ hidx], fun hs => ?_, fun hs => ?_⟩
    · rw [State.measurementsReply_signed s hidx (g := ⟨slot, tr⟩) hs]
    · rw [State.measurementsReply_noSlot s (g := ⟨slot, tr⟩) hs]
  case noBlock =>
    intro s index sign ⟨ha, hb, hst, h8, hff⟩
    rw [exec_spdmGetMeasurements, State.answerSpdm_running ⟨ha, hb, hst⟩, State.measurementsReply_noBlock s h8 hff]
  case silent =>
    intro s slot offset length index sign tr h
    have hsilent := State.answerSpdm_silent h
    exact ⟨congrArg _ (hsilent _), congrArg _ (hsilent _), congrArg _ (hsilent _), congrArg _ (hsilent _), congrArg _ (hsilent _),
      congrArg _ (hsilent _), congrArg _ (hsilent _)⟩

end Sys2Proof.Machine
end

section
/-! What hosts, members and the pair leave alone of the device: its power state, its clocks, the Harness link, and the events of both (R314 to R323,
R329 to R340). -/
namespace Sys2Proof.Machine

/-! ### The reading -/

/-- Events of the power and clock blocks that no other block raises. -/
def coreEvents : List Nat := [Ev.PWR_DRAIN_DONE, Ev.PWR_VIN_OK, Ev.PWR_VIN_WARN, Ev.CLK_XA_FAIL, Ev.CLK_XTAL_TMO]

/-- What the reading takes of the registers, the sources, the link, the power state and the clocks. -/
def coreOf (regs : Assoc Word) (srcs : Assoc Src) (link : Bool) (lanes : Nat) (p : Pwr) (k : Clk) :
    Word × List Bool × Bool × Nat × Pwr × Clk :=
  (regs.get (resetWord Reg.CLK_MON_STATUS_XA_STOP.addr) Reg.CLK_MON_STATUS_XA_STOP.addr, coreEvents.map fun n => (srcs.get {} n).pend, link, lanes,
    p, k)

/-- The power state, the clocks with their trip bits, the Harness link with its lanes, and whether their events are pending. -/
def State.core (s : State) : Word × List Bool × Bool × Nat × Pwr × Clk :=
  coreOf s.regs s.evt.srcs s.hrn.link s.hrn.lanes s.pwr s.clk

/-- A state written out is read by its blocks. -/
theorem State.core_mk (regs shadow staged mem glb tim ctl evt tck net swc tbl xpt qos cmdb lay reb sbg drv str hrn htx cph sec pwr clk tel out
    free pending) :
    (State.mk regs shadow staged mem glb tim ctl evt tck net swc tbl xpt qos cmdb lay reb sbg drv str hrn htx cph sec pwr clk tel out free
      pending).core = coreOf regs evt.srcs hrn.link hrn.lanes pwr clk := rfl

theorem State.core_eq (s : State) : coreOf s.regs s.evt.srcs s.hrn.link s.hrn.lanes s.pwr s.clk = s.core := rfl

theorem State.core_congr {s t : State} (hr : t.regs = s.regs) (he : t.evt = s.evt) (hh : t.hrn = s.hrn) (hp : t.pwr = s.pwr)
    (hc : t.clk = s.clk) : t.core = s.core := by
  rw [State.core, State.core, hr, he, hh, hp, hc]

section Read
variable {s t : State} (h : t.core = s.core)
include h

theorem State.pwr_of_core : t.pwr = s.pwr := congrArg (fun x => x.2.2.2.2.1) h
theorem State.link_of_core : t.hrn.link = s.hrn.link := congrArg (fun x => x.2.2.1) h
theorem State.lanes_of_core : t.hrn.lanes = s.hrn.lanes := congrArg (fun x => x.2.2.2.1) h

theorem State.pend_of_core {n : Nat} (hn : n ∈ coreEvents) : (t.src n).pend = (s.src n).pend :=
  List.map_inj_left.mp (congrArg (fun x => x.2.1) h : coreEvents.map (fun n => (t.src n).pend) = coreEvents.map fun n => (s.src n).pend) n hn

end Read

/-! ### Operations of the whole device -/

@[simp] theorem State.emit_core (s : State) (o : Out) : (s.emit o).core = s.core := rfl

@[simp] theorem State.count_core (s : State) (i n : Nat) : (s.count i n).core = s.core := rfl

theorem State.setFld_core (s : State) {r : Ref} (h : Reg.CLK_MON_STATUS_XA_STOP.addr ≠ r.addr) (v : Nat) : (s.setFld r v).core = s.core :=
  congrArg (fun w => (w, s.core.2)) (State.setRg_rg_other s _ _ _ h)

theorem State.bump_core (s : State) {r : Ref} (h : Reg.CLK_MON_STATUS_XA_STOP.addr ≠ r.addr) (n : Nat) : (s.bump r n).core = s.core :=
  State.setFld_core s h _

@[simp] theorem State.sendTwin_core (s : State) (o : Out) : (s.sendTwin o).core = s.core :=
  State.core_congr (by simp) (by simp) (by simp) (by simp) (by simp)

theorem State.raise_core (s : State) {n : Nat} (h : coreEvents.contains n = false) (d : List Nat) : (s.raise n d).core = s.core := by
  have hp : (coreEvents.map fun m => ((s.raise n d).src m).pend) = coreEvents.map fun m => (s.src m).pend :=
    List.map_congr_left fun m hm => congrArg Src.pend (State.raise_src_other s n m d fun e =>
      Bool.false_ne_true (h.symm.trans (List.contains_iff_mem.mpr (e ▸ hm))))
  have hl : (s.raise n d).hrn.link = s.hrn.link ∧ (s.raise n d).hrn.lanes = s.hrn.lanes := by
    rw [State.raise_hrn]
    split <;> exact ⟨rfl, rfl⟩
  change ((s.raise n d).rg _, _, (s.raise n d).hrn.link, (s.raise n d).hrn.lanes, (s.raise n d).pwr, (s.raise n d).clk) =
    (s.rg _, _, s.hrn.link, s.hrn.lanes, s.pwr, s.clk)
  rw [State.raise_rg, hl.1, hl.2, State.raise_pwr, State.raise_clk]
  exact congrArg (fun x => (_, x, _)) hp

theorem State.raiseIf_core (s : State) (c : Bool) {n : Nat} (h : coreEvents.contains n = false) (d : List Nat) :
    (s.raiseIf c n d).core = s.core := by
  unfold State.raiseIf
  split
  · exact s.raise_core h d
  · rfl

@[simp] theorem State.foldl_core {α : Type} (g : State → α → State) (h : ∀ u a, (g u a).core = u.core) (l : List α) (s : State) :
    (l.foldl g s).core = s.core := State.foldl_keeps State.core g h l s

@[simp] theorem State.complete_core (s : State) (c : Started) (st : MStatus) (a b : Nat) : (s.complete c st a b).core = s.core :=
  State.core_congr (by simp) (by simp) (by simp) (by simp) (by simp)

theorem State.updStarted_core (s : State) (i : Nat) (f : Started → Started) : (s.updStarted i f).core = s.core := rfl
theorem State.clearMirror_core (s : State) : s.clearMirror.core = s.core := rfl

theorem State.lagDemote_core (s : State) : s.lagDemote.core = s.core := by
  simp (decide := true) only [State.lagDemote, ↓State.core_mk, ↓State.core_eq, State.raise_core, State.sendTwin_core, State.clearMirror_core]

theorem State.order_core (s : State) (n : Nat) (k : OrderKind) : (s.order n k).1.core = s.core := by
  unfold State.order
  extract_lets u
  have hu : u.core = s.core := by
    unfold u
    split
    · exact s.lagDemote_core
    · rfl
  split
  · exact hu
  · exact (State.sendTwin_core _ _).trans hu

theorem State.carryChange_core (s : State) (m : Out) : (s.carryChange m).core = s.core := by
  simp only [State.carryChange, State.order_core, State.sendTwin_core, ↓State.core_mk, ↓State.core_eq]

theorem State.tellTwin_core (s : State) (m : ControlMsg) : (s.tellTwin m).core = s.core := by
  unfold State.tellTwin
  split
  · exact s.carryChange_core _
  · rfl

theorem State.holderDone_core (s : State) (c : Started) (a b : Nat) : (s.holderDone c a b).core = s.core := by
  unfold State.holderDone State.holderEnd State.carry
  split
  · simp only [State.updStarted_core, State.carryChange_core]
  · exact s.complete_core _ _ _ _

theorem State.peerTook_core (s : State) (op : Nat) : (s.peerTook op).core = s.core := by
  unfold State.peerTook
  split
  · rfl
  · split
    · exact s.complete_core _ _ _ _
    · rfl

theorem State.peerGone_core (s : State) : s.peerGone.core = s.core :=
  State.foldl_core _ (fun u _ => u.peerTook_core _) _ s

theorem State.completeWaiting_core (s : State) (op : Nat) (p : Started → Bool) (st : MStatus) (a b : Nat) :
    (s.completeWaiting op p st a b).core = s.core := by
  unfold State.completeWaiting
  split
  · exact s.complete_core _ _ _ _
  · rfl

/-! ### Records and pages -/

theorem State.saveRecord_core (s : State) (ws : List Nat) : (s.saveRecord ws).core = s.core :=
  (congrArg State.core (s.saveRecord_beyondRecords ws) :)

theorem State.nextEpoch_core (s : State) : s.nextEpoch.core = s.core := by
  unfold State.nextEpoch
  split
  · exact State.raise_core _ (by decide) _
  · exact State.saveRecord_core _ _

theorem State.takeCtrs_core (s : State) (n : Nat) : (s.takeCtrs n).1.core = s.core := by
  unfold State.takeCtrs
  split
  · rfl
  split
  · exact s.nextEpoch_core
  dsimp only
  split
  · exact State.nextEpoch_core _
  · rfl

theorem State.writeCopies_core (s : State) (ds : List (Nat × Nat)) (o : Nat → Nat → Nat → Out) : (s.writeCopies ds o).1.core = s.core := by
  have htake := s.takeCtrs_core ds.length
  unfold State.writeCopies
  split
  · next h => rwa [h] at htake
  · next u k h =>
    rw [h] at htake
    exact (State.foldl_core (fun s (d : (Nat × Nat) × Nat) => s.emit (o d.1.1 d.1.2 (k + d.2))) (fun _ _ => rfl) _ u).trans htake

theorem State.persist_core (s : State) (p : MetaPage) : (s.persist p).core = s.core := by
  have hw : (if (s.pageTargets p).length < 2 then (s, false) else s.writeCopies (s.pageTargets p) (s.pageOut p)).1.core = s.core := by
    split
    · rfl
    · exact s.writeCopies_core _ _
  unfold State.persist
  dsimp only
  split
  · rfl
  split
  · next h => rwa [h] at hw
  · next h => rwa [h] at hw

/-! ### Connections and packets -/

theorem State.updConn_core (s : State) (n : Nat) (f : Conn → Conn) : (s.updConn n f).core = s.core := rfl
theorem State.setConn_core (s : State) (n : Nat) (x : Conn) : (s.setConn n x).core = s.core := rfl
theorem State.updCtrl_core (s : State) (k : Nat) (f : Ctrl → Ctrl) : (s.updCtrl k f).core = s.core := rfl
theorem State.updCmd_core (s : State) (t : Nat) (f : Cmd → Cmd) : (s.updCmd t f).core = s.core := rfl
theorem State.stamp_core (s : State) (t k : Nat) : (s.stamp t k).core = s.core := rfl
theorem State.dropTag_core (s : State) (t : Nat) : (s.dropTag t).core = s.core := rfl
theorem State.armRetx_core (s : State) (n : Nat) : (s.armRetx n).core = s.core := rfl
theorem State.setRec_core (s : State) (o r : Nat) : (s.setRec o r).core = s.core := rfl

theorem State.setReseq_core (s : State) (d : Bool) (c : Nat) (r : Reseq) : (s.setReseq d c r).core = s.core := by
  unfold State.setReseq
  split <;> rfl

theorem State.useCells_core (s : State) (n : Nat) : (s.useCells n).core = s.core := by
  unfold State.useCells
  dsimp only
  split
  · simp (decide := true) only [State.raise_core, ↓State.core_mk, ↓State.core_eq]
  · rfl

theorem State.leadFrom_core (s : State) (n : Nat) : (s.leadFrom n).core = s.core := by
  unfold State.leadFrom
  dsimp only
  split <;> rfl

theorem State.sendDigest_core (s : State) (o : Option Nat) (n psn : Nat) (b : Body) : (s.sendDigest o n psn b).core = s.core := by
  cases o
  · rfl
  · exact s.sendTwin_core _

theorem State.orderTx_core (s : State) (f : Frame) : (s.orderTx f).1.core = s.core := by
  unfold State.orderTx
  split
  · rfl
  · dsimp only
    split
    · rfl
    · split <;> simp only [State.updConn_core, State.leadFrom_core, State.sendDigest_core, State.order_core]

theorem State.bufferFrame_core (s : State) (f : Frame) : (s.bufferFrame f).core = s.core := by
  unfold State.bufferFrame
  dsimp only
  split <;> simp only [↓State.core_mk, ↓State.core_eq, State.setReseq_core, State.useCells_core]

theorem State.launch_core (s : State) (f : Frame) : (s.launch f).core = s.core := by
  unfold State.launch
  split
  · exact (State.bufferFrame_core _ _).trans (s.orderTx_core f)
  · rfl

theorem State.sendPkt_core (s : State) (n : Nat) (b : Body) (psn : Nat) (x : Bool) (c : Colour) : (s.sendPkt n b psn x c).core = s.core :=
  s.launch_core _

theorem State.issueReq_core (s : State) (n : Nat) (b : Body) (k : Nat) (c : Colour) : (s.issueReq n b k c).core = s.core := by
  simp only [State.issueReq, State.armRetx_core, State.sendPkt_core, State.updConn_core]

theorem State.writeBib_core (s : State) (c : Cmd) (q : Cqe) : (s.writeBib c q).core = s.core := by
  unfold State.writeBib
  dsimp only
  split
  · rfl
  split
  · split
    · exact State.bump_core s (by decide) _
    · rw [State.raise_core _ (by decide)]
      exact State.bump_core s (by decide) _
  · split <;> rfl

/-- A completion that leaves frees its tag. -/
theorem State.cplLeft_core (s : State) (n uid : Nat) (q : Cqe) : (s.cplLeft n uid q).core = s.core := by
  unfold State.cplLeft
  dsimp only
  split
  · rfl
  split
  · rfl
  next t _ c _ =>
    generalize hu : State.stamp _ _ _ = u
    have hu' : u.core = s.core := hu ▸ rfl
    rw [State.dropTag_core, State.updConn_core]
    split <;> split <;> simp only [State.writeBib_core, ↓State.core_mk, ↓State.core_eq, State.count_core, hu']

theorem State.packetLeft_core (s : State) (n : Nat) (b : Body) : (s.packetLeft n b).core = s.core := by
  unfold State.packetLeft
  extract_lets u
  have hu : u.core = s.core := by
    unfold u
    split <;> rfl
  clear_value u
  split
  · split <;> exact hu
  · exact (u.cplLeft_core _ _ _).trans hu
  · exact (State.foldl_core _ (fun (v : State) (e : Nat × Cqe) => v.cplLeft_core n e.1 e.2) _ u).trans hu
  · exact hu

theorem State.followTx_core (s : State) (e : OrderEntry) (x psn esn : Nat) (b : Body) : (s.followTx e x psn esn b).core = s.core := by
  unfold State.followTx
  dsimp only
  split
  · exact s.launch_core _
  · exact (State.packetLeft_core _ _ _).trans (s.setReseq_core _ _ _)

theorem State.buildTx_core (s : State) (e : OrderEntry) (b : Body) (again : Bool) : (s.buildTx e b again).core = s.core := by
  unfold State.buildTx
  split
  · simp only [State.leadFrom_core, State.setRec_core, State.followTx_core, State.updConn_core]
  · rfl

theorem State.matchTx_core (s : State) (n : Nat) : (s.matchTx n).core = s.core := by
  unfold State.matchTx
  split
  · rfl
  · split
    · rfl
    · simp only [State.buildTx_core, State.updConn_core, ↓State.core_mk, ↓State.core_eq]

theorem State.sendReq_core (s : State) (n : Nat) (b : Body) (k : Nat) (c : Colour) : (s.sendReq n b k c).core = s.core := by
  unfold State.sendReq
  split
  · rw [State.await, State.matchTx_core, State.updConn_core]
  · exact s.issueReq_core _ _ _ _

theorem State.sendRead_core (s : State) (n va key len : Nat) (use : ReadFor) : (s.sendRead n va key len use).core = s.core := by
  rw [State.sendRead, State.sendReq_core, State.setConn_core]

theorem State.fetchSq_core (s : State) (n f : Nat) : (s.fetchSq n f).core = s.core := by
  induction f generalizing s with
  | zero => rfl
  | succ f ih =>
    rw [State.fetchSq]
    dsimp only
    split
    · rfl
    · rw [ih, State.sendRead_core, State.setConn_core]

theorem State.resumeFetch_core (s : State) : s.resumeFetch.core = s.core :=
  State.foldl_core _ (fun u n => u.fetchSq_core n 64) _ s

/-! ### Completions -/

theorem State.flushReady_core (s : State) (n most f : Nat) : (s.flushReady n most f).core = s.core := by
  induction f generalizing s with
  | zero => rfl
  | succ f ih =>
    rw [State.flushReady]
    dsimp only
    split
    · rfl
    · rw [ih, State.sendReq_core, State.setConn_core]

theorem State.putCqe_core (s : State) (n uid : Nat) (q : Cqe) (c : Colour) : (s.putCqe n uid q c).core = s.core := by
  unfold State.putCqe
  dsimp only
  split
  · exact s.sendReq_core _ _ _ _
  split
  · rw [State.flushReady_core, State.setConn_core]
  · split
    · rw [State.flushReady_core, State.setConn_core]
    · rfl

theorem State.sendCpl_core (s : State) (t : Nat) : (s.sendCpl t).core = s.core := by
  unfold State.sendCpl
  split
  · rfl
  split
  · rfl
  split
  · rfl
  · rw [State.putCqe_core, State.updCmd_core]

theorem State.completeUnstarted_core (s : State) (n : Nat) (r : RxCmd) (sct sc : Nat) (d : Bool) :
    (s.completeUnstarted n r sct sc d).core = s.core := by
  simp only [State.completeUnstarted, State.putCqe_core, ↓State.core_mk, ↓State.core_eq]

theorem State.hostEvent_core (s : State) (k x i p : Nat) : (s.hostEvent k x i p).core = s.core := by
  unfold State.hostEvent
  dsimp only
  split
  · rfl
  split
  · split <;> rfl
  · split
    · rfl
    · rw [State.sendCpl_core, State.updCmd_core]
      rfl

/-! ### The write buffer -/

theorem State.noteDirty_core (s : State) : s.noteDirty.core = s.core := by
  unfold State.noteDirty
  dsimp only
  split
  · rfl
  · split <;> rfl

theorem State.setBuffer_core (s : State) (b : List BufBlk) : (s.setBuffer b).core = s.core := State.noteDirty_core _

theorem State.reclaim_core (s : State) : s.reclaim.core = s.core := by
  unfold State.reclaim
  dsimp only
  split
  · rfl
  · exact State.core_congr rfl rfl rfl rfl rfl

theorem State.discardBufs_core (s : State) (ids : List Nat) : (s.discardBufs ids).core = s.core := s.setBuffer_core _

theorem State.dropClean_core (s : State) (p : BufBlk → Bool) : (s.dropClean p).core = s.core := rfl

theorem State.keepClean_core (s : State) (bs : List BufBlk) : (s.keepClean bs).core = s.core := State.reclaim_core _

theorem State.showBufs_core (s : State) (ids : List Nat) : (s.showBufs ids).core = s.core := by
  simp only [State.showBufs, State.reclaim_core, State.setBuffer_core, ↓State.core_mk, ↓State.core_eq, State.dropClean_core]

theorem State.freezeOut_core (s : State) (t : Nat) : (s.freezeOut t).core = s.core := by
  unfold State.freezeOut
  split
  · rfl
  · dsimp only
    rw [State.sendCpl_core, State.updCmd_core, State.updCtrl_core, State.bump_core _ (by decide), State.discardBufs_core]

theorem State.freezeQueue_core (s : State) (n : Nat) (c : Cmd) (q : Cqe) : (s.freezeQueue n c q).core = s.core := by
  simp (decide := true) only [State.freezeQueue, State.foldl_core, State.completeUnstarted_core, State.updCtrl_core, State.bump_core,
    State.updConn_core, State.freezeOut_core, State.hostEvent_core, State.raise_core, State.setConn_core, implies_true]

theorem State.commit_core (s : State) (t : Nat) : (s.commit t).core = s.core := by
  unfold State.commit
  split
  · rfl
  · rw [State.sendCpl_core, State.updCmd_core, State.showBufs_core]

theorem State.commitQueue_core (s : State) (n f : Nat) : (s.commitQueue n f).core = s.core := by
  induction f generalizing s with
  | zero => rfl
  | succ f ih =>
    unfold State.commitQueue
    split
    · rfl
    split
    · rfl
    split
    · rfl
    dsimp only
    split
    · rw [ih, State.commit_core]
    · rw [State.freezeQueue_core, State.commit_core]

theorem State.settle_core (s : State) (t : Nat) : (s.settle t).core = s.core := by
  unfold State.settle
  split
  · rfl
  dsimp only
  split
  · exact s.commitQueue_core _ _
  · exact s.commit_core _

theorem State.invokeHook_core (s : State) (h x : Nat) : (s.invokeHook h x).core = s.core := by
  unfold State.invokeHook
  split <;> rfl

theorem State.finish_core (s : State) (t sct sc : Nat) (d : Bool) (a b : Nat) : (s.finish t sct sc d a b).core = s.core := by
  unfold State.finish
  split
  · rfl
  dsimp only
  split
  · rw [State.invokeHook_core, State.updCmd_core]
  · rw [State.settle_core, State.updCmd_core]

/-! ### The start of commands -/

theorem State.proceed_core (s : State) (t : Nat) (c : Cmd) : (s.proceed t c).core = s.core := by
  unfold State.proceed
  split
  · rfl
  · rw [State.sendRead_core, State.updCmd_core]

theorem State.keysCheck_core (s : State) (t : Nat) : (s.keysCheck t).core = s.core := by
  unfold State.keysCheck
  split
  · rfl
  dsimp only
  split
  · exact s.proceed_core _ _
  split
  · rw [State.finish_core, State.raise_core _ (by decide), State.bump_core _ (by decide)]
  split
  · exact s.finish_core _ _ _ _ _ _
  · exact s.proceed_core _ _

theorem State.decodeCmd_core (s : State) (t : Nat) : (s.decodeCmd t).core = s.core := by
  unfold State.decodeCmd
  split
  · rfl
  split
  · rw [State.finish_core]
    split
    · rw [State.raise_core _ (by decide), State.bump_core _ (by decide)]
    · rfl
  · dsimp only
    split
    · rw [State.invokeHook_core, State.updCmd_core]
    split
    · exact s.finish_core _ _ _ _ _ _
    · exact s.keysCheck_core t

theorem State.endAtStart_core (s : State) (n : Nat) (r : RxCmd) (sct sc : Nat) (d : Bool) : (s.endAtStart n r sct sc d).core = s.core := by
  unfold State.endAtStart
  dsimp only
  split
  · split
    · rfl
    · simp only [State.settle_core, ↓State.core_mk, ↓State.core_eq, State.updConn_core]
  · exact s.completeUnstarted_core _ _ _ _ _

/-- Metering a command charges policers and nothing else. -/
theorem State.meterCmd_core (s : State) (n : Nat) (e : SqEntry) : (s.meterCmd n e).1.core = s.core := by
  unfold State.meterCmd
  dsimp only
  repeat' split
  all_goals rfl

theorem State.startCmd_core (s : State) (n : Nat) : (s.startCmd n).core = s.core := by
  simp only [State.startCmd]
  split
  · rfl
  next r rs _ =>
    split
    · rfl
    split
    · rw [State.endAtStart_core, State.updConn_core]
    split
    · rw [State.endAtStart_core, State.updConn_core, State.raise_core _ (by decide), State.bump_core _ (by decide)]
    -- the verdict of the order stream on a twin that follows it, else the policers'
    generalize hp : (if (s.follows && (!(s.conn n).admin && (s.conn n).ctrl.isSome)) = true then _ else s.meterCmd n r.entry) = p
    have hu : p.1.core = s.core := by
      rw [← hp]
      split
      · split <;> rfl
      · exact s.meterCmd_core _ _
    clear hp
    split
    · rw [State.updConn_core]
      split
      · exact s.order_core _ _
      · rfl
    split
    · rfl
    · rw [State.stamp_core, State.decodeCmd_core]
      simp only [↓State.core_mk, ↓State.core_eq, State.updConn_core]
      split
      · exact (p.1.order_core _ _).trans hu
      · exact hu

theorem State.startAll_core (s : State) (n f : Nat) : (s.startAll n f).core = s.core := by
  induction f generalizing s with
  | zero => rfl
  | succ f ih =>
    rw [State.startAll]
    split
    · rw [ih, State.startCmd_core]
    · exact s.startCmd_core n

theorem State.startWaiting_core (s : State) : s.startWaiting.core = s.core := by
  refine State.foldl_core _ (fun u n => ?_) _ s
  split
  · exact u.startAll_core _ _
  · rfl

theorem State.startTurn_core (s : State) (ns : List Nat) : (s.startTurn ns).core = s.core := by
  refine State.foldl_core _ (fun u n => ?_) _ s
  dsimp only
  split
  · exact u.startCmd_core n
  · exact u.startCmd_core n

theorem State.startTurns_core (s : State) (ns : List Nat) (f : Nat) : (s.startTurns ns f).core = s.core := by
  induction f generalizing s with
  | zero => rfl
  | succ f ih =>
    rw [State.startTurns]
    split
    · rw [ih, State.startTurn_core]
    · exact s.startTurn_core ns

theorem State.startHeld_core (s : State) (p : Conn → Bool) : (s.startHeld p).core = s.core := by
  unfold State.startHeld
  split
  · rfl
  · rw [State.resumeFetch_core, State.startTurns_core]

theorem State.buffered_core (s : State) (t : Nat) : (s.buffered t).core = s.core := by
  unfold State.buffered
  split
  · rfl
  split
  · rfl
  split
  · rfl
  split
  · rfl
  · rw [State.success, State.finish_core, State.stamp_core]

theorem State.noteHeld_core (s : State) : s.noteHeld.core = s.core := by
  unfold State.noteHeld
  split
  · rfl
  · split <;> rfl

end Sys2Proof.Machine
end

section
/-! The same of the members, the maps and the records behind a twin that goes on alone (R196 to R218, R239, R260). -/
namespace Sys2Proof.Machine

/-! ### Tables and maps -/

theorem State.putSlot_core (s : State) (t i : Nat) (e : List Byte) : (s.putSlot t i e).core = s.core := by
  unfold State.putSlot
  dsimp only
  split
  · rfl
  · split <;> rfl

theorem State.onBank_core (s : State) (t : Nat) (f : Bank → Bank) : (s.onBank t f).core = s.core := rfl

theorem State.writeSlot_core (s : State) (t i : Nat) (e : List Byte) : (s.writeSlot t i e).core = s.core := by
  unfold State.writeSlot
  extract_lets old u v
  have hv : v.core = s.core := by
    unfold v
    split
    · rw [State.bankDel, State.onBank_core]
      exact s.putSlot_core t i e
    · exact s.putSlot_core t i e
  split
  · exact hv
  · rw [State.bankPut, State.onBank_core, hv]

theorem State.setMapEnt_core (s : State) (v e : Nat) (m : MapEnt) : (s.setMapEnt v e m).core = s.core := by
  unfold State.setMapEnt
  dsimp only
  split
  · rfl
  · exact State.writeSlot_core _ _ _ _

theorem State.persistMap_core (s : State) (v e : Nat) : (s.persistMap v e).core = s.core := by
  unfold State.persistMap
  split
  · rfl
  · rw [State.raiseIf_core _ _ (by decide), State.persist_core]

theorem State.changeMap_core (s : State) (v e : Nat) (f : MapEnt → MapEnt) : (s.changeMap v e f).core = s.core := by
  unfold State.changeMap
  split
  · rfl
  · dsimp only
    rw [State.tellTwin_core, State.persistMap_core, State.setMapEnt_core]

/-! ### Lost blocks and reads -/

theorem State.coarsen_core (s : State) : s.coarsen.core = s.core := by
  unfold State.coarsen
  split
  · rfl
  split
  · rfl
  · exact State.raise_core _ (by decide) _

theorem State.tellLost_core (s : State) (v : Nat) : (s.tellLost v).core = s.core := by
  unfold State.tellLost
  split
  · rfl
  · exact State.foldl_core _ (fun u k => u.hostEvent_core k 7 1 0xC1) _ s

theorem State.loseBlock_core (s : State) (v lba cause : Nat) : (s.loseBlock v lba cause).core = s.core := by
  unfold State.loseBlock
  split
  · rfl
  · simp (decide := true) only [State.tellLost_core, State.raise_core, State.bump_core, State.changeMap_core, State.tellTwin_core,
      State.persist_core, ↓State.core_mk, ↓State.core_eq, State.coarsen_core]

theorem State.freeHold_core (s : State) (n : Nat) : (s.freeHold n).core = s.core := by
  unfold State.freeHold
  dsimp only
  split <;> rfl

theorem State.failRead_core (s : State) (t sct sc : Nat) (d : Bool) : (s.failRead t sct sc d).core = s.core := by
  unfold State.failRead
  split
  · rfl
  · simp only [State.finish_core, State.updCmd_core, State.freeHold_core, ↓State.core_mk, ↓State.core_eq]

theorem State.drive_core (s : State) (m : Nat) (use : DrvUse) (r : Bool) (lba : Nat) (o : Out) : (s.drive m use r lba o).core = s.core := rfl

theorem State.readPos_core (s : State) (t i : Nat) (m : MapEnt) (q x b : Nat) (h : Bool) : (s.readPos t i m q x b h).core = s.core := rfl

theorem State.gatherMore_core (s : State) (t i : Nat) (h : Bool) : (s.gatherMore t i h).core = s.core := by
  unfold State.gatherMore
  split
  · rfl
  dsimp only
  split
  · split
    · rfl
    split
    · rw [State.failRead_core, State.raise_core _ (by decide), State.loseBlock_core]
    · rw [State.failRead_core, State.loseBlock_core]
  · exact State.foldl_core _ (fun u q => u.readPos_core t i _ q _ _ h) _ s

theorem State.updBlk_core (s : State) (t i : Nat) (f : RdBlk → RdBlk) : (s.updBlk t i f).core = s.core := rfl

theorem State.startBlock_core (s : State) (t i : Nat) : (s.startBlock t i).core = s.core := by
  unfold State.startBlock
  split
  · rfl
  dsimp only
  split
  · rfl
  split
  · split
    · rfl
    · rw [State.gatherMore_core, State.updCmd_core, State.updBlk_core]
  · rw [State.readPos_core, State.updBlk_core]

theorem State.retryBlocks_core (s : State) : s.retryBlocks.core = s.core := by
  refine State.foldl_core _ (fun u e => State.foldl_core _ (fun v b => ?_) _ u) _ s
  split
  · exact v.startBlock_core _ _
  · rfl

theorem State.readFailed_core (s : State) (t i q : Nat) : (s.readFailed t i q).core = s.core := by
  unfold State.readFailed
  split
  · rfl
  dsimp only
  split
  · rfl
  · rw [State.gatherMore_core, State.updCmd_core, State.updBlk_core]

/-! ### Drive commands that end with their member -/

theorem State.noteFree_core (s : State) : s.noteFree.core = s.core := by
  unfold State.noteFree
  dsimp only
  split
  · exact State.raise_core _ (by decide) _
  · split <;> rfl

theorem State.zeroDone_core (s : State) (r b : Nat) : (s.zeroDone r b).core = s.core := by
  unfold State.zeroDone
  dsimp only
  rw [State.noteFree_core]
  split
  · exact State.tellTwin_core _ _
  · rfl

theorem State.endFailed_core (s : State) (c : DrvCmd) : (s.endFailed c).core = s.core := by
  unfold State.endFailed
  dsimp only
  split
  · exact State.readFailed_core _ _ _ _
  · rfl
  · rfl
  · exact State.zeroDone_core _ _ _
  · rfl

theorem State.endMember_core (s : State) (d : Nat) : (s.endMember d).core = s.core :=
  State.foldl_core _ (fun u c => (State.endFailed_core _ c).trans (u.emit_core _)) _ s

/-! ### Extents and records -/

theorem State.setProgress_core (s : State) (r b p : Nat) (v : Bool) : (s.setProgress r b p v).core = s.core := rfl

theorem State.dropSlot_core (s : State) (m : MapEnt) : (s.dropSlot m).core = s.core :=
  State.foldl_core _ (fun u p => u.setProgress_core m.row m.band p false) _ _

theorem State.zeroSlot_core (s : State) (r b : Nat) : (s.zeroSlot r b).core = s.core := by
  unfold State.zeroSlot
  exact State.foldl_core _ (by intros; rfl) _ _

theorem State.clearLost_core (s : State) (v lba n : Nat) : (s.clearLost v lba n).core = s.core := by
  unfold State.clearLost
  dsimp only
  split
  · rfl
  · exact State.persist_core _ _

theorem State.freeExtent_core (s : State) (v e : Nat) : (s.freeExtent v e).core = s.core := by
  unfold State.freeExtent
  dsimp only
  split
  · rfl
  split
  · rw [State.clearLost_core, State.setBuffer_core, State.dropClean_core]
  split
  · rfl
  · rw [State.zeroSlot_core, State.clearLost_core, State.setBuffer_core, State.dropSlot_core, State.changeMap_core, State.dropClean_core]

theorem State.freePending_core (s : State) : s.freePending.core = s.core :=
  State.foldl_core _ (fun u (p : Nat × Nat) => u.freeExtent_core p.1 p.2) _ _

theorem State.wakeFlush_core (s : State) : s.wakeFlush.core = s.core :=
  (State.resumeFetch_core _).trans (State.foldl_core _ (fun u (e : Nat × Cmd) => u.finish_core e.1 0 0 false 0 0) _ s)

theorem State.touchPage_core (s : State) (n : Nat) : (s.touchPage n).core = s.core := by
  unfold State.touchPage
  dsimp only
  split <;> rfl

theorem State.clearStripe_core (s : State) (j : Stripe) : (s.clearStripe j).core = s.core := by
  unfold State.clearStripe
  dsimp only
  rw [State.retryBlocks_core, State.wakeFlush_core, State.noteDirty_core, State.freePending_core]
  split
  · rw [State.sendTwin_core, State.touchPage_core, State.keepClean_core]
    exact State.core_congr rfl rfl rfl rfl rfl
  · rw [State.touchPage_core, State.keepClean_core]
    exact State.core_congr rfl rfl rfl rfl rfl

theorem State.abandonRebuild_core (s : State) (d : Nat) : (s.abandonRebuild d).core = s.core := by
  unfold State.abandonRebuild
  split
  · rfl
  split
  · exact State.foldl_core _ State.clearStripe_core _ _
  · rfl

/-! ### Rows and substitutions -/

theorem State.setRow_core (s : State) (r : Nat) (x : LRow) : (s.setRow r x).core = s.core := rfl

theorem State.clearRowBits_core (s : State) (r p : Nat) : (s.clearRowBits r p).core = s.core :=
  State.foldl_core _ (fun u b => u.setProgress_core r b p false) _ s

theorem State.substitute_core (s : State) (r p l : Nat) : (s.substitute r p l).core = s.core := by
  unfold State.substitute
  dsimp only
  split
  · rw [State.setRow_core, State.clearRowBits_core]
  · exact State.raise_core _ (by decide) _

theorem State.substituteMember_core (s : State) (d : Nat) : (s.substituteMember d).core = s.core := by
  have honto : ∀ (u : State) (r : Nat), (u.replaceOnto r d).core = u.core := fun u r =>
    State.foldl_core _ (fun v x => (State.substitute_core _ _ _ _).trans (v.setRow_core _ _)) _ u
  have hhome : ∀ (u : State) (r p : Nat), (u.replaceHome r d p).core = u.core := by
    intro u r p
    unfold State.replaceHome
    split
    · rfl
    · exact u.substitute_core _ _ _
  refine State.foldl_core _ (fun u r => ?_) _ s
  rw [State.substituteRow, State.leaveHome, State.setRow_core, State.foldl_core _ (fun v p => hhome v r p), honto]

theorem State.substituted_core (s : State) (d : Nat) : (s.substituted d).core = s.core := by
  unfold State.substituted State.writeSuperblocks
  dsimp only
  split
  · exact s.substituteMember_core d
  · exact (State.foldl_core _ (by intros; rfl) _ _).trans (s.substituteMember_core d)

/-! ### Journal copies -/

theorem State.takeCopy_core (s : State) (g d c : Nat) : (s.takeCopy g d c).core = s.core := by
  unfold State.takeCopy
  dsimp only
  split
  · exact State.foldl_core _ (fun u _ => u.writeCopies_core _ _) _ _
  · rfl

theorem State.moveCopy_core (s : State) (g d : Nat) : (s.moveCopy g d).core = s.core := by
  unfold State.moveCopy
  dsimp only
  split
  · rfl
  split
  · exact (State.core_congr rfl rfl rfl rfl rfl : (State.dropCopy _ g d).core = _).trans (s.raise_core (by decide) _)
  · rw [State.raise_core _ (by decide), State.takeCopy_core, State.raise_core _ (by decide)]

theorem State.loseCopies_core (s : State) (d : Nat) : (s.loseCopies d).core = s.core :=
  State.foldl_core _ (fun u g => u.moveCopy_core g d) _ s

/-! ### Changes of a member's state -/

theorem State.memberLost_core (s : State) (d : Nat) : (s.memberLost d).core = s.core := by
  rw [State.memberLost, State.loseCopies_core, State.substituted_core, State.abandonRebuild_core, State.endMember_core]

theorem State.memberGone_core (s : State) (d c : Nat) (o : MState) : (s.memberGone d c o).core = s.core := by
  unfold State.memberGone
  extract_lets u
  have hu : u.core = s.core := by
    unfold u
    split
    · exact s.raiseIf_core _ (by decide) _
    · rfl
  split
  · rw [State.loseCopies_core, State.endMember_core, hu]
  · rw [State.memberLost_core, hu]

theorem State.memberBack_core (s : State) (d : Nat) : (s.memberBack d).core = s.core := by
  refine State.foldl_core _ (fun u r => State.foldl_core _ (fun v p => ?_) _ u) _ s
  unfold State.backHome
  dsimp only
  split <;> rfl

theorem State.enterMState_core (s : State) (d : Nat) (m : MState) (c : Nat) : (s.enterMState d m c).core = s.core := by
  have hs : ((s.setMember d { s.member d with st := m }).raise Ev.RB_MEMBER_STATE [d, (s.member d).st.code, m.code, c]).core = s.core :=
    State.raise_core _ (by decide) _
  cases m
  case failed => exact (State.memberLost_core _ d).trans hs
  case absent => exact (State.memberGone_core _ d c _).trans hs
  case draining => exact (State.substituted_core _ d).trans hs
  case suspect => exact hs
  case active =>
    unfold State.enterMState
    dsimp only
    split
    · exact (State.memberBack_core _ d).trans hs
    · exact hs

theorem State.noteQueue_core (s : State) : s.noteQueue.core = s.core := by
  unfold State.noteQueue
  dsimp only
  split
  · exact State.raiseIf_core _ _ (by decide) _
  · split
    · exact State.raiseIf_core _ _ (by decide) _
    · rfl

theorem State.replaceArb_core (s : State) (a : Nat) : (s.replaceArb a).core = s.core := by
  unfold State.replaceArb
  dsimp only
  split
  · rfl
  · exact State.raise_core _ (by decide) _

theorem State.fixArbs_core (s : State) : s.fixArbs.core = s.core := by
  unfold State.fixArbs
  split
  · rfl
  · extract_lets was u more _ v
    have hv : v.core = s.core := State.foldl_core _ State.replaceArb_core _ s
    split
    · exact hv
    · exact (v.tellTwin_core _).trans hv

theorem State.applyChange_core (s : State) (ch : MChange) : (s.applyChange ch).core = s.core := by
  unfold State.applyChange
  extract_lets f _ u v w
  have hw : w.core = s.core := by
    rw [State.fixArbs_core, State.noteQueue_core]
    unfold v
    split
    · exact State.enterMState_core _ _ _ _
    · rfl
  split
  · exact hw
  · split
    · split
      · exact (w.holderDone_core _ _ _).trans hw
      · exact (w.complete_core _ _ _ _).trans hw
    · exact hw

theorem State.settleAlone_core (s : State) : s.settleAlone.core = s.core := by
  simp only [State.settleAlone, State.startWaiting_core, State.noteHeld_core, State.foldl_core _ State.buffered_core,
    State.foldl_core _ State.applyChange_core, State.clearMirror_core, State.peerGone_core, ↓State.core_mk, ↓State.core_eq]

/-! ### The pair -/

theorem State.endCmd_core (s : State) (id : Option Nat) (st : MStatus) (r : Nat) : (s.endCmd id st r).core = s.core := by
  unfold State.endCmd
  split
  · exact s.complete_core _ _ _ _
  · rfl

theorem State.dropJoin_core (s : State) (c : Nat) : (s.dropJoin c).core = s.core := by
  unfold State.dropJoin
  split
  · rfl
  · exact State.endCmd_core _ _ _ _

theorem State.endPairWork_core (s : State) : s.endPairWork.core = s.core := by
  simp only [State.endPairWork, ↓State.core_mk, ↓State.core_eq, State.endCmd_core]

theorem State.enterTwinTime_core (s : State) : s.enterTwinTime.core = s.core := by
  unfold State.enterTwinTime
  split <;> rfl

theorem State.leaveTwinTime_core (s : State) : s.leaveTwinTime.core = s.core := by
  unfold State.leaveTwinTime
  split
  · unfold State.enterTime
    split
    · exact State.raise_core _ (by decide) _
    · exact State.raise_core _ (by decide) _
    · rfl
  · rfl

theorem State.setRole_core (s : State) (r : Role) (k : Nat) : (s.setRole r k).core = s.core := by
  have hraise := s.raise_core (n := Ev.HRN_ROLE) (by decide) [roleCode s.hrn.role, roleCode r, k]
  unfold State.setRole
  dsimp only
  split
  · exact (State.enterTwinTime_core _).trans hraise
  · exact (State.leaveTwinTime_core _).trans hraise

theorem State.abortDrives_core (s : State) : s.abortDrives.core = s.core :=
  State.foldl_core (fun s (c : DrvCmd) => s.emit (.driveAbort c.id)) (fun _ _ => rfl) _ s

/-! ### Links that go down -/

/-- A fold of a function that leaves a reading of the state as it is for each item of the list leaves it. -/
theorem State.foldl_keeps_mem {α β : Type} (f : State → β) (g : State → α → State) {l : List α} (h : ∀ a ∈ l, ∀ u, f (g u a) = f u)
    (s : State) : f (l.foldl g s) = f s := by
  induction l generalizing s with
  | nil => rfl
  | cons a l ih =>
    rw [List.foldl_cons, ih (fun b hb => h b (List.mem_cons_of_mem a hb)), h a List.mem_cons_self]

/-- A reading that frames, fabric links, their events and what is sent leave alone. -/
structure LinkFree {α : Type} (r : State → α) : Prop where
  swc : ∀ s x, r { s with swc := x } = r s
  net : ∀ s x, r { s with net := x } = r s
  emit : ∀ s o, r (s.emit o) = r s
  sendTwin : ∀ s o, r (s.sendTwin o) = r s
  event : ∀ s k up, k < 32 → r (s.linkEvent k up) = r s

namespace LinkFree
variable {α : Type} {r : State → α} (h : LinkFree r) (s : State)
include h

theorem removeFrame (f : Frame) : r (s.removeFrame f) = r s := by
  unfold State.removeFrame State.giveCells
  dsimp only
  split
  · exact (h.swc _ _).trans ((h.swc _ _).trans (h.swc s _))
  · exact (h.swc _ _).trans (h.swc s _)

theorem deliver (f : Frame) : r (s.deliver f) = r s := by
  unfold State.deliver
  dsimp only
  split
  · exact (h.swc _ _).trans ((h.emit _ _).trans (h.removeFrame s f))
  · exact (h.emit _ _).trans (h.removeFrame s f)

theorem releaseFrame (i : Nat) : r (s.releaseFrame i) = r s := by
  unfold State.releaseFrame
  split
  · rfl
  · split
    · exact h.deliver s _
    · exact h.swc s _

theorem setReseq (d : Bool) (c : Nat) (x : Reseq) : r (s.setReseq d c x) = r s := by
  unfold State.setReseq
  split <;> exact h.swc s _

theorem discardSeq (d : Bool) (c q : Nat) : r (s.discardSeq d c q) = r s := by
  unfold State.discardSeq
  dsimp only
  split
  · exact (State.foldl_keeps r _ h.releaseFrame _ _).trans (h.setReseq s _ _ _)
  · rfl

theorem dropFrame (f : Frame) : r (s.dropFrame f) = r s := by
  unfold State.dropFrame
  extract_lets u v
  have hv : r v = r s := by
    unfold v
    split
    · exact (h.sendTwin u _).trans (h.removeFrame s f)
    · exact h.removeFrame s f
  split
  · exact (h.discardSeq v _ _ _).trans hv
  · exact hv

theorem dropLink (k : Nat) : r (s.dropLink k) = r s := by
  unfold State.dropLink
  dsimp only
  refine (h.swc _ _).trans (State.foldl_keeps r _ (fun u f => ?_) _ s)
  split
  · split
    · exact h.dropFrame u f
    · rfl
  · split
    · exact (h.emit _ _).trans (h.removeFrame u f)
    · exact h.dropFrame u f

theorem subDown {k : Nat} (hk : k < 32) : r (s.subDown k) = r s := by
  have hd : r ((s.setSub k {}).dropLink k) = r s := (h.dropLink _ k).trans (h.net s _)
  unfold State.subDown
  dsimp only
  split
  · exact (h.event _ _ _ hk).trans hd
  · exact hd

theorem darken : r s.darken = r s := by
  refine State.foldl_keeps_mem r _ (fun n hn u => State.foldl_keeps_mem r _ (fun k hk v => h.subDown v ?_) u) s
  have := List.mem_range.mp hn
  have := List.mem_range.mp hk
  omega

end LinkFree

/-- The link sources stand above those of the power and clock blocks. -/
theorem coreEvents_lt : ∀ n ∈ coreEvents, n < 128 := by decide

theorem State.core_linkFree : LinkFree State.core where
  swc _ _ := State.core_congr rfl rfl rfl rfl rfl
  net _ _ := State.core_congr rfl rfl rfl rfl rfl
  emit _ _ := rfl
  sendTwin := State.sendTwin_core
  event s k _ _ := s.raise_core (Bool.eq_false_iff.mpr fun hm =>
    absurd (coreEvents_lt _ (List.contains_iff_mem.mp hm)) (by omega)) _

theorem State.darken_core (s : State) : s.darken.core = s.core := State.core_linkFree.darken s

theorem State.fence_core (s : State) (k : Nat) : (s.fence k).core = s.core := by
  unfold State.fence
  split
  · rfl
  · simp (decide := true) only [State.raise_core, State.darken_core, State.abortDrives_core, ↓State.core_mk, ↓State.core_eq,
      State.setRole_core, State.endPairWork_core]

theorem State.driveLinkDown_core (s : State) (p : Nat) (b : Bool) : (s.driveLinkDown p b).core = s.core := by
  have hport : Reg.CLK_MON_STATUS_XA_STOP.addr ≠ (Reg.DRV_PORT_STATUS_LINK_UP p).addr := by
    simp only [Reg.CLK_MON_STATUS_XA_STOP, Reg.DRV_PORT_STATUS_LINK_UP]
    omega
  unfold State.driveLinkDown
  dsimp only
  rw [State.core_mk, State.core_eq, State.raiseIf_core _ _ (by decide), State.raise_core _ (by decide), State.setFld_core (r := Reg.DRV_PORT_STATUS_DPC p) _ hport,
    State.setFld_core _ hport]

/-- A trained Harness link that is lost is down; the rest of the reading stays. -/
theorem State.linkLost_core (s : State) (lane : Nat) (h : s.hrn.lanes ≠ 0) :
    (s.linkLost lane).core = ({ s with hrn.link := false, hrn.lanes := 0 } : State).core := by
  unfold State.linkLost
  rw [if_neg h]
  extract_lets k u
  have hu : u.core = ({ s with hrn.link := false, hrn.lanes := 0 } : State).core := State.raise_core _ (by decide) _
  clear_value u
  split
  · rw [State.joinFails, State.fence_core, State.raise_core _ (by decide), hu]
  · rw [State.settleAlone_core, State.endCmd_core, State.dropJoin_core, hu]
  · exact hu

theorem State.linkLost_untrained (s : State) (lane : Nat) (h : s.hrn.lanes = 0) : s.linkLost lane = s := if_pos h

theorem State.dropPortLinks_core (s : State) :
    ((List.range 64).foldl (fun s p => if s.flag (Reg.DRV_PORT_STATUS_LINK_UP p) then s.driveLinkDown p false else s) s.darken).core = s.core := by
  refine (State.foldl_core _ (fun u p => ?_) _ _).trans s.darken_core
  split
  · exact u.driveLinkDown_core p false
  · rfl

/-- Every link goes down: a trained Harness link is down, and the rest of the reading stays. -/
theorem State.dropLinks_core (s : State) (h : s.hrn.lanes ≠ 0) :
    s.dropLinks.core = ({ s with hrn.link := false, hrn.lanes := 0 } : State).core := by
  have hd := s.dropPortLinks_core
  unfold State.dropLinks
  dsimp only
  generalize List.foldl _ _ _ = u at hd ⊢
  rw [State.linkLost_core u 0 (by rwa [State.lanes_of_core hd])]
  exact congrArg (fun x => (x.1, x.2.1, false, 0, x.2.2.2.2)) hd

theorem State.dropLinks_core_untrained (s : State) (h : s.hrn.lanes = 0) : s.dropLinks.core = s.core := by
  have hd := s.dropPortLinks_core
  unfold State.dropLinks
  dsimp only
  generalize List.foldl _ _ _ = u at hd ⊢
  rw [State.linkLost_untrained u 0 (by rwa [State.lanes_of_core hd]), hd]

end Sys2Proof.Machine
end

section
/-! What entering a device state leaves alone (R315 to R317, R337): the power state but for the state itself, the pair, the timers and the events of
other blocks. -/
namespace Sys2Proof.Machine

/-- The power state, the pair, the timers and one event source. -/
def State.aside (n : Nat) (s : State) : Pwr × Hrn × Tim × Src := (s.pwr, s.hrn, s.tim, s.src n)

section Read
variable {n : Nat} {s t : State} (h : t.aside n = s.aside n)
include h

theorem State.pwr_of_aside : t.pwr = s.pwr := congrArg Prod.fst h
theorem State.hrn_of_aside : t.hrn = s.hrn := congrArg (fun x => x.2.1) h
theorem State.now_of_aside : t.now = s.now := congrArg (fun x => x.2.2.1.ns) h
theorem State.src_of_aside : t.src n = s.src n := congrArg (fun x => x.2.2.2) h

end Read

theorem State.foldl_aside {α : Type} {n : Nat} (g : State → α → State) (h : ∀ u a, (g u a).aside n = u.aside n) (l : List α) (s : State) :
    (l.foldl g s).aside n = s.aside n := State.foldl_keeps (State.aside n) g h l s

theorem State.setFld_aside (n : Nat) (s : State) (r : Ref) (v : Nat) : (s.setFld r v).aside n = s.aside n := by
  rw [State.aside, State.setFld_pwr, State.setFld_hrn, State.setFld_tim, State.setFld_src, State.aside]

theorem State.raise_aside {n m : Nat} (s : State) (hm : faultSources.contains m = false) (hn : n ≠ m) (d : List Nat) :
    (s.raise m d).aside n = s.aside n := by
  rw [State.aside, State.raise_pwr, State.raise_hrn_of_no_fault s hm, State.raise_tim, State.raise_src_other _ _ _ _ hn, State.aside]

theorem State.domReset_aside (n : Nat) (s : State) (d : Nat) : (s.domReset d).aside n = s.aside n := by
  unfold State.domReset
  split
  · rfl
  · split <;> rfl

/-! ### Entering a state -/

section Switch
variable {n : Nat} (hd : n ≠ Ev.PWR_DOM_WAIT) (hc : n ≠ Ev.CLK_GATE_WAIT) (s : State)

theorem State.domOn_aside (d : Nat) : (s.domOn d).aside n = s.aside n := by
  unfold State.domOn
  dsimp only
  split
  · exact s.setFld_aside n _ _
  · rw [State.setFld_aside, State.domReset_aside]

include hd in
theorem State.domOff_aside (d : Nat) : (s.domOff d).aside n = s.aside n := by
  unfold State.domOff
  dsimp only
  split
  · rfl
  split
  · rw [State.setFld_aside, State.setFld_aside]
  split
  · rfl
  · rw [State.raise_aside _ (by decide) hd, State.setFld_aside]

include hc in
theorem State.gateClock_aside (c : Nat) : (s.gateClock c).aside n = s.aside n := by
  unfold State.gateClock
  dsimp only
  split
  · rfl
  split
  · rw [State.setFld_aside, State.setFld_aside]
  split
  · rfl
  · rw [State.raise_aside _ (by decide) hc, State.setFld_aside]

theorem State.ungateClock_aside (c : Nat) : (s.ungateClock c).aside n = s.aside n := by
  rw [State.ungateClock, State.setFld_aside, State.setFld_aside]

include hd hc

/-- Entering a state changes of the reading what its event changes, and the state itself. -/
theorem State.toState_aside (st : DevState) : (s.toState st).aside n =
    (({ s with pwr.st := st } : State).raise Ev.PWR_STATE [s.pwr.st.code, st.code]).aside n := by
  unfold State.toState
  dsimp only
  refine (State.foldl_aside _ (fun u c => ?_) _ _).trans ((State.foldl_aside _ (fun u c => ?_) _ _).trans
    ((State.foldl_aside _ (fun u d => ?_) _ _).trans (State.foldl_aside _ (fun u d => ?_) _ _)))
  · split
    · exact u.ungateClock_aside c
    · rfl
  · split
    · rfl
    · exact u.gateClock_aside hc c
  · split
    · exact u.domOn_aside d
    · rfl
  · split
    · rfl
    · exact u.domOff_aside hd d

end Switch

theorem State.toState_pwr (s : State) (st : DevState) : (s.toState st).pwr = { s.pwr with st := st } := by
  rw [State.pwr_of_aside (State.toState_aside (n := Ev.PWR_STATE) (by decide) (by decide) s st), State.raise_pwr]

theorem State.toState_hrn (s : State) (st : DevState) : (s.toState st).hrn = s.hrn := by
  rw [State.hrn_of_aside (State.toState_aside (n := Ev.PWR_STATE) (by decide) (by decide) s st), State.raise_hrn_of_no_fault _ (by decide)]

theorem State.toState_now (s : State) (st : DevState) : (s.toState st).now = s.now := by
  rw [State.now_of_aside (State.toState_aside (n := Ev.PWR_STATE) (by decide) (by decide) s st), State.raise_now]
  rfl

theorem State.toState_pends (s : State) (st : DevState) : ((s.toState st).src Ev.PWR_STATE).pend = true := by
  rw [State.src_of_aside (State.toState_aside (n := Ev.PWR_STATE) (by decide) (by decide) s st), State.raise_src_same, Src.occur_pend]

theorem State.toState_src {n : Nat} (hd : n ≠ Ev.PWR_DOM_WAIT) (hc : n ≠ Ev.CLK_GATE_WAIT) (hs : n ≠ Ev.PWR_STATE) (s : State) (st : DevState) :
    (s.toState st).src n = s.src n := by
  rw [State.src_of_aside (State.toState_aside hd hc s st), State.raise_src_other _ _ _ _ hs]
  rfl

end Sys2Proof.Machine
end

section
/-! Proofs of the device states and the power domains of family 16 (R315 to R318, R326, R334). -/
namespace Sys2Proof.Machine

/-! ### Requests of a state (R317, R318) -/

theorem State.maySleep_iff (s : State) : s.maySleep = true ↔
    (s.hrn.role = .solo ∨ s.hrn.role = .fenced) ∧ s.anyConn = false ∧ s.dirty = 0 ∧ s.sbg.stripes = [] := by
  simp [State.maySleep, and_assoc]

theorem State.reqWritten_st (s : State) (v : Nat) : (s.reqWritten v).pwr.st = s.pwr.st := by
  rw [State.reqWritten, State.setFld_pwr]

theorem State.reqWritten_hrn (s : State) (v : Nat) : (s.reqWritten v).hrn = s.hrn := by
  rw [State.reqWritten, State.setFld_hrn]

section Requests
variable {s : State}

/-- A device that does not run, or drains, discards a request. -/
theorem State.requests_discarded (h : s.awake = false ∨ s.pwr.st = .drain) : (s.awake && decide (s.pwr.st ≠ .drain)) = false := by
  rcases h with h | h <;> simp [h]

variable (ha : s.awake = true)
include ha

theorem State.requests_taken (hst : s.pwr.st ≠ .drain) : (s.awake && decide (s.pwr.st ≠ .drain)) = true := by
  rw [ha, decide_eq_true hst, Bool.and_self]

theorem exec_powerReqRun_of (hst : s.pwr.st ≠ .drain) : exec .powerReqRun s = .next (
    if s.pwr.st = .sleep then (s.reqWritten 0).toState .run
    else if s.pwr.st = .deep then ((s.reqWritten 0).startFio.toState .run).trainPorts
    else s.reqWritten 0) := by
  change execPowerReqRun s = _
  rw [execPowerReqRun, State.requests_taken ha hst, State.when_true]
  cases s.pwr.st <;> rfl

theorem exec_powerReqSleep_of (hst : s.pwr.st ≠ .drain) : exec .powerReqSleep s = .next (
    if !s.maySleep || s.pwr.st = .deep then { s with pwr.refused := true }
    else if s.pwr.st = .sleep then s.reqWritten 1 else (s.reqWritten 1).toState .sleep) := by
  change execPowerReqSleep s = _
  rw [execPowerReqSleep, State.requests_taken ha hst, State.when_true]
  dsimp only
  rw [State.reqWritten_st]

theorem exec_powerReqDeep_of (hst : s.pwr.st ≠ .drain) : exec .powerReqDeep s = .next (
    if !s.maySleep || s.pwr.st = .sleep then { s with pwr.refused := true }
    else if s.pwr.st = .deep then s.reqWritten 2
    else if ((s.reqWritten 2).dropLinks.toState .deep).flag Reg.CLK_CFG_FIO_DEEP then (s.reqWritten 2).dropLinks.toState .deep
    else ((s.reqWritten 2).dropLinks.toState .deep).stopFio) := by
  change execPowerReqDeep s = _
  rw [execPowerReqDeep, State.requests_taken ha hst, State.when_true]
  dsimp only
  rw [State.reqWritten_st]

end Requests

theorem State.moveClock_clk (s : State) (c src : Nat) : (s.moveClock c src).clk = s.clk := by
  unfold State.moveClock
  split
  · rfl
  · rw [State.bump_clk, State.setFld_clk]

theorem State.stopFio_fioReady (s : State) : s.stopFio.clk.fioReady = false := by
  rw [State.stopFio, State.moveClock_clk, State.foldl_keeps State.clk _ fun u c => u.moveClock_clk c 3]

/-! ### Domains (R316) -/

section Domain
variable {s : State} {d : Fin 34}

theorem exec_domainSwitchOff_idle (hp : s.flag (Reg.PWR_DOM_CFG_DOM_PEND d) = true) (ho : s.flag (Reg.PWR_DOM_CFG_ON d) = true)
    (hd : s.domDisabled d = true) (hw : s.domWork d = false) : exec (.domainSwitchOff d) s =
      .next ((s.setFld (Reg.PWR_DOM_CFG_ON d) 0).setFld (Reg.PWR_DOM_CFG_DOM_PEND d) 0) := by
  change execDomainSwitchOff d s = _
  rw [execDomainSwitchOff, hp, hd, hw, Bool.not_false, Bool.and_self, Bool.and_self, State.when_true, State.domOff]
  rw [ho, hd, hw, Bool.not_true, if_neg Bool.false_ne_true, Bool.not_false, Bool.and_self, if_pos rfl]

theorem exec_domainSwitchOff_busy (h : s.flag (Reg.PWR_DOM_CFG_DOM_PEND d) = false ∨ s.domDisabled d = false ∨ s.domWork d = true) :
    exec (.domainSwitchOff d) s = .next s := by
  have hc : (s.flag (Reg.PWR_DOM_CFG_DOM_PEND d) && s.domDisabled d && !s.domWork d) = false := by
    rcases h with h | h | h <;> simp [h]
  change execDomainSwitchOff d s = _
  rw [execDomainSwitchOff, hc, State.when_false]

end Domain

/-- Settles O54: each clause is the case of its request, or of its domain, that its hypotheses select. That a domain waits until its blocks are
disabled and idle is log entry 88. -/
theorem deviceStatesAndDomainsSwitchAsAsked : Obligations.DeviceStatesAndDomainsSwitchAsAsked := by
  refine ⟨?run, ?sleeps, ?deep, ?refused, ?discarded, ?enters, ?off, ?waits, ?fixed⟩
  case run =>
    intro s ha
    refine ⟨fun h => ?_, fun h => ?_, fun h => ?_, fun h => ?_⟩
    · change execPowerReqRun s = _
      rw [execPowerReqRun, State.requests_discarded (.inr h), State.when_false]
    · rw [exec_powerReqRun_of ha (by simp [h]), if_neg (by simp [h]), if_neg (by simp [h])]
    · rw [exec_powerReqRun_of ha (by simp [h]), if_pos h]
    · rw [exec_powerReqRun_of ha (by simp [h]), if_neg (by simp [h]), if_pos h]
  case sleeps =>
    intro s ⟨ha, hr, hconn, hdirty, hrec⟩
    have hm : s.maySleep = true := s.maySleep_iff.mpr ⟨hr, hconn, hdirty, hrec⟩
    refine ⟨fun h => ?_, fun h => ?_, fun h => ?_, fun h => ?_, fun h => ?_⟩
    · rw [exec_powerReqSleep_of ha (by simp [h]), if_neg (by simp [hm, h]), if_neg (by simp [h])]
    · rw [exec_powerReqSleep_of ha (by simp [h]), if_neg (by simp [hm, h]), if_pos h]
    · rw [exec_powerReqSleep_of ha (by simp [h]), if_pos (by simp [h])]
    · rw [exec_powerReqDeep_of ha (by simp [h]), if_pos (by simp [h])]
    · rw [exec_powerReqDeep_of ha (by simp [h]), if_neg (by simp [hm, h]), if_pos h]
  case deep =>
    intro s u ⟨ha, hr, hconn, hdirty, hrec, hst, hu⟩
    have hm : s.maySleep = true := s.maySleep_iff.mpr ⟨hr, hconn, hdirty, hrec⟩
    refine ⟨?_, fun hl => ?_, u.stopFio_fioReady⟩
    · rw [exec_powerReqDeep_of ha (by simp [hst]), if_neg (by simp [hm, hst]), if_neg (by simp [hst]), hu]
    · have hl' : (s.reqWritten 2).hrn.lanes ≠ 0 := by rwa [State.reqWritten_hrn]
      rw [hu, State.toState_hrn, State.link_of_core (State.dropLinks_core _ hl')]
  case refused =>
    intro s ⟨ha, hst, h⟩
    have hm : s.maySleep = false := by
      rw [Bool.eq_false_iff, ne_eq, State.maySleep_iff]
      rintro ⟨hr, hconn, hdirty, hrec⟩
      rcases h with ⟨h1, h2⟩ | h | h | h
      · exact hr.elim h1 h2
      · exact Bool.false_ne_true (hconn.symm.trans h)
      · exact h hdirty
      · exact h hrec
    rw [exec_powerReqSleep_of ha (by simp [hst]), exec_powerReqDeep_of ha (by simp [hst]), if_pos (by simp [hm]), if_pos (by simp [hm])]
    exact ⟨rfl, rfl⟩
  case discarded =>
    intro s h
    have hd := State.requests_discarded h
    refine ⟨?_, ?_, ?_⟩
    · change execPowerReqRun s = _
      rw [execPowerReqRun, hd, State.when_false]
    · change execPowerReqSleep s = _
      rw [execPowerReqSleep, hd, State.when_false]
    · change execPowerReqDeep s = _
      rw [execPowerReqDeep, hd, State.when_false]
  case enters => exact fun s st => ⟨congrArg Pwr.st (s.toState_pwr st), s.toState_pends st⟩
  case off => exact fun s d ⟨hp, ho, hd, hw⟩ => exec_domainSwitchOff_idle hp ho hd hw
  case waits => exact fun s d h => exec_domainSwitchOff_busy h
  case fixed =>
    intro s d hd
    rw [State.domWanted, List.contains_iff_mem.mpr hd, Bool.true_or]

end Sys2Proof.Machine
end

section
/-! What a device that stops leaves alone (R314, R335, R365): its registers but for the drive links, and the events of other blocks. -/
namespace Sys2Proof.Machine

/-- The registers, the pair and one event source. -/
def State.regsAside (n : Nat) (s : State) : Assoc Word × Hrn × Src := (s.regs, s.hrn, s.src n)

section Read
variable {n : Nat} {s t : State} (h : t.regsAside n = s.regsAside n)
include h

theorem State.regs_of_regsAside : t.regs = s.regs := congrArg Prod.fst h
theorem State.hrn_of_regsAside : t.hrn = s.hrn := congrArg (fun x => x.2.1) h
theorem State.src_of_regsAside : t.src n = s.src n := congrArg (fun x => x.2.2) h

end Read

/-- The sources of the eight fabric ports are none of the twin's own faults. -/
theorem linkSource_noFault : ∀ p < 8, faultSources.contains (128 + p) = false := by decide

/-- The events of fabric links are those of the sources 128 to 135. -/
theorem State.regsAside_linkFree {n : Nat} (hn : n < 128 ∨ 136 ≤ n) : LinkFree (State.regsAside n) where
  swc _ _ := rfl
  net _ _ := rfl
  emit _ _ := rfl
  sendTwin s o := by rw [State.regsAside, State.sendTwin_regs, State.sendTwin_hrn, State.sendTwin_src, State.regsAside]
  event s k up hk := by
    rw [State.linkEvent, State.regsAside, State.raise_regs, State.raise_hrn_of_no_fault s (linkSource_noFault _ (by omega)),
      State.raise_src_other s _ n _ (by omega), State.regsAside]

theorem State.darken_src (s : State) {n : Nat} (hn : n < 128 ∨ 136 ≤ n) : s.darken.src n = s.src n :=
  State.src_of_regsAside ((State.regsAside_linkFree hn).darken s)

theorem State.darken_regs (s : State) : s.darken.regs = s.regs :=
  State.regs_of_regsAside ((State.regsAside_linkFree (n := 0) (.inl (by decide))).darken s)

theorem State.darken_hrn (s : State) : s.darken.hrn = s.hrn :=
  State.hrn_of_regsAside ((State.regsAside_linkFree (n := 0) (.inl (by decide))).darken s)

/-! ### A device that stops where it stands -/

/-- The links of the drive ports are down. -/
def State.driveLinksDown (s : State) : State := (List.range 64).foldl (fun s p => s.setFld (Reg.DRV_PORT_STATUS_LINK_UP p) 0) s

section StopDead
variable (s : State)

theorem State.stopDead_eq : s.stopDead = { s.driveLinksDown.darken with hrn.link := false, hrn.linkKey := [], hrn.lanes := 0 } := by
  rw [State.stopDead, State.driveLinksDown]

theorem State.driveLinksDown_tim : s.driveLinksDown.tim = s.tim :=
  State.foldl_keeps State.tim _ (fun _ _ => State.setFld_tim _ _ _) _ s

theorem State.driveLinksDown_src (n : Nat) : s.driveLinksDown.src n = s.src n :=
  State.foldl_keeps (State.src · n) _ (fun _ _ => State.setFld_src _ _ _ _) _ s

theorem State.driveLinksDown_fld {q : Ref} (hq : q.addr < 0x60200) : s.driveLinksDown.fld q = s.fld q := by
  refine State.foldl_keeps (State.fld · q) (fun s p => s.setFld (Reg.DRV_PORT_STATUS_LINK_UP p) 0) (fun u p => ?_) _ s
  refine u.setFld_fld_other _ q 0 (Nat.ne_of_lt (hq.trans_le ?_))
  simp only [Reg.DRV_PORT_STATUS_LINK_UP]
  omega

theorem State.stopDead_tim : s.stopDead.tim = s.tim := by
  obtain ⟨htim, -⟩ := s.driveLinksDown.darken_blocks
  rw [State.stopDead_eq, htim, s.driveLinksDown_tim]

theorem State.stopDead_link : s.stopDead.hrn.link = false := by rw [State.stopDead_eq]

theorem State.stopDead_src {n : Nat} (hn : n < 128 ∨ 136 ≤ n) : s.stopDead.src n = s.src n := by
  rw [State.stopDead_eq, ← s.driveLinksDown_src, ← s.driveLinksDown.darken_src hn]
  generalize s.driveLinksDown.darken = u
  rfl

/-- Of the registers the status of the drive ports alone changes. -/
theorem State.stopDead_fld {q : Ref} (hq : q.addr < 0x60200) : s.stopDead.fld q = s.fld q := by
  rw [State.stopDead_eq, ← s.driveLinksDown_fld hq, ← State.fld_of_regs s.driveLinksDown.darken_regs q]
  generalize s.driveLinksDown.darken = u
  rfl

end StopDead

/-! ### Domains that lose their supply -/

section CutDomains
variable (s : State) (ds : List Nat)

theorem State.cutDomains_pwr : (s.cutDomains ds).pwr = s.pwr :=
  State.foldl_keeps State.pwr _ (fun u d => by rw [State.setFld_pwr, State.setFld_pwr]) ds s

theorem State.cutDomains_src (n : Nat) : (s.cutDomains ds).src n = s.src n :=
  State.foldl_keeps (State.src · n) _ (fun u d => by rw [State.setFld_src, State.setFld_src]) ds s

theorem State.cutDomains_fld {q : Ref} (hq : q.addr < 0x8100) : (s.cutDomains ds).fld q = s.fld q := by
  have hne : ∀ d, q.addr ≠ 0x8100 + 0x4 * d := fun d => by omega
  refine State.foldl_keeps (State.fld · q) _ (fun u d => ?_) ds s
  exact (State.setFld_fld_other _ _ q 0 (hne d)).trans (State.setFld_fld_other _ _ q 0 (hne d))

/-- A domain that is cut is off. -/
theorem State.cutDomains_off {d : Nat} (hd : d ∈ ds) : (s.cutDomains ds).flag (Reg.PWR_DOM_CFG_ON d) = false := by
  induction ds using List.reverseRecOn with
  | nil => exact absurd hd List.not_mem_nil
  | append_singleton ds x ih =>
    have hpend : ∀ u : State, (u.setFld (Reg.PWR_DOM_CFG_DOM_PEND x) 0).flag (Reg.PWR_DOM_CFG_ON d) = u.flag (Reg.PWR_DOM_CFG_ON d) := fun u =>
      congrArg (fun v => decide (v = 1)) (u.setFld_fld_apart 0 (by exact le_rfl) (by exact (by decide : 4 < 32)) (.inr (.inl (by exact (by decide : 3 < 4)))))
    rw [State.cutDomains, List.foldl_append, List.foldl_cons, List.foldl_nil, hpend]
    by_cases hx : d = x
    · rw [hx, State.setFld_flag_same _ rfl (by exact (by decide : 3 < 32))]
      rfl
    · have hm : d ∈ ds := (List.mem_append.mp hd).resolve_right fun h => hx (List.mem_singleton.mp h)
      refine Eq.trans (congrArg (fun v => decide (v = 1)) (State.setFld_fld_other _ _ _ 0 ?_)) (ih hm)
      simp only [Reg.PWR_DOM_CFG_ON]
      omega

end CutDomains

end Sys2Proof.Machine
end

section
/-! Proofs of the loss of the supply, of rail faults and of the die temperature of families 16 and 20 (R314, R323, R365). -/
namespace Sys2Proof.Machine

/-! ### Rail faults (R314) -/

/-- The bit of a rail that is no longer good is 0. -/
theorem clearBit_testBit : ∀ g < 64, ∀ r < 6, ((if g.testBit r then g - 2 ^ r else g) % 64).testBit r = false := by decide

/-- The bit of a rail with a fault is 1. -/
theorem setBit_testBit : ∀ b < 64, ∀ r < 6, ((if b.testBit r then b else b + 2 ^ r) % 64).testBit r = true := by decide

/-- GOOD and FAULT after a fault of a rail. -/
def State.railBad (s : State) (rail : Fin 6) : State :=
  (s.setFld Reg.PWR_RAIL_STATUS_GOOD (if (s.fld Reg.PWR_RAIL_STATUS_GOOD).testBit rail then s.fld Reg.PWR_RAIL_STATUS_GOOD - 2 ^ rail.val
    else s.fld Reg.PWR_RAIL_STATUS_GOOD)).setFld Reg.PWR_RAIL_STATUS_FAULT
    (if (s.fld Reg.PWR_RAIL_STATUS_FAULT).testBit rail then s.fld Reg.PWR_RAIL_STATUS_FAULT
      else s.fld Reg.PWR_RAIL_STATUS_FAULT + 2 ^ rail.val)

theorem State.railBad_good (s : State) (rail : Fin 6) : ((s.railBad rail).fld Reg.PWR_RAIL_STATUS_GOOD).testBit rail = false := by
  have hg : s.fld Reg.PWR_RAIL_STATUS_GOOD < 64 := getBits_lt _ 5 0
  rw [State.railBad, State.setFld_fld_apart _ _ (by decide) (by decide) (.inr (.inl (by decide))),
    State.setFld_fld_same _ _ _ (by decide) (by decide)]
  exact clearBit_testBit _ hg _ rail.isLt

theorem State.railBad_fault (s : State) (rail : Fin 6) : ((s.railBad rail).fld Reg.PWR_RAIL_STATUS_FAULT).testBit rail = true := by
  have hb : s.fld Reg.PWR_RAIL_STATUS_FAULT < 64 := getBits_lt _ 13 8
  rw [State.railBad, State.setFld_fld_same _ _ _ (by decide) (by decide)]
  exact setBit_testBit _ hb _ rail.isLt

/-- The rail's domains are off and the device has stopped. -/
def State.railStops (s : State) (rail : Fin 6) (ov : Bool) : State :=
  (((s.railBad rail).stopDead.raise Ev.PWR_RAIL_FAULT [rail, bit ov]).cutDomains (railFeeds rail))

theorem State.railStops_fld (s : State) (rail : Fin 6) (ov : Bool) {q : Ref} (hq : q.addr < 0x8100) :
    (s.railStops rail ov).fld q = (s.railBad rail).fld q := by
  rw [State.railStops, State.cutDomains_fld _ _ hq, State.raise_fld, State.stopDead_fld _ (by omega)]

theorem exec_railFault_of {s : State} (hp : s.pwr.powered = true) (rail : Fin 6) (ov : Bool) : exec (.railFault rail ov) s =
    .next { s.railStops rail ov with
      pwr.railDown := true
      pwr.railHold := (s.railStops rail ov).pwr.railHold || (s.pwr.railAt.map fun t => decide (s.now < t + 1000000000)).getD false } := by
  change execRailFault rail ov s = _
  rw [execRailFault, hp, State.when_true, State.railStops, State.railBad]

theorem State.awake_of_railDown {s : State} (h : s.pwr.railDown = true) : s.awake = false := by
  simp [State.awake, h]

theorem State.awake_of_thermHold {s : State} (h : s.pwr.thermHold = true) : s.awake = false := by
  simp [State.awake, h]

/-! ### Die temperature (R365) -/

section Temperature
variable {s : State} (hp : s.pwr.powered = true) (sensor temp : Nat)
include hp

theorem exec_thermalWarn_hot : exec (.thermalWarn sensor temp false) s = .next ((s.readTemp temp).when
    (decide (s.fld Reg.PWR_THERM_TJ_WARN ≤ temp) && !s.pwr.thermWarned) fun s =>
      ({ s with pwr.thermWarned := true } : State).raise Ev.PWR_THERM_WARN [sensor, temp]) := by
  change execThermalWarn sensor temp false s = _
  rw [execThermalWarn, hp, State.when_true]
  rfl

theorem exec_thermalWarn_cooled : exec (.thermalWarn sensor temp true) s = .next ((s.readTemp temp).when
    (decide (temp + 5 ≤ s.fld Reg.PWR_THERM_TJ_WARN)) fun s => { s with pwr.thermWarned := false }) := by
  change execThermalWarn sensor temp true s = _
  rw [execThermalWarn, hp, State.when_true]
  rfl

/-- The device in thermal hold. -/
def State.thermStops (s : State) : State :=
  ({ ((s.readTemp temp).raise Ev.PWR_THERM_TRIP [sensor, temp]).stopDead with pwr.thermHold := true } : State).cutDomains
    ((List.range 34).filter fun d => 2 ≤ d)

theorem exec_thermalTrip_trips (ht : s.pwr.thermHold = false) (h : 125 ≤ temp) :
    exec (.thermalTrip sensor temp) s = .next (s.thermStops sensor temp) := by
  change execThermalTrip sensor temp s = _
  rw [execThermalTrip, hp, ht, decide_eq_true h, Bool.not_false, Bool.and_self, Bool.and_self, State.when_true, State.thermStops]

omit hp in
theorem exec_thermalTrip_nothing (h : s.pwr.thermHold = true ∨ temp < 125) : exec (.thermalTrip sensor temp) s = .next s := by
  have hc : (s.pwr.powered && !s.pwr.thermHold && decide (125 ≤ temp)) = false := by
    rcases h with h | h
    · simp [h]
    · simp [Nat.not_le.mpr h]
  change execThermalTrip sensor temp s = _
  rw [execThermalTrip, hc, State.when_false]

end Temperature

/-- Settles O56: the registers, the power state and the events of a device that stops are read through what its steps leave alone. Which domains a
rail takes down is log entry 78. -/
theorem supplyRailAndTemperatureFaultsStopTheDevice : Obligations.SupplyRailAndTemperatureFaultsStopTheDevice := by
  refine ⟨?drop, ?up, ?rail, ?warn, ?cool, ?noted, ?trip, ?reset, ?waits⟩
  case drop =>
    intro s hp
    change execVinDrop s = _
    rw [execVinDrop, hp, State.when_true]
  case up =>
    intro s hp
    change execPowerUp s = _
    rw [execPowerUp, hp, Bool.not_false, State.when_true]
  case rail =>
    intro s rail ov hp
    refine ⟨_, exec_railFault_of hp rail ov, rfl, ?_, ?_, ?_, State.awake_of_railDown rfl, fun d hd => ?_, fun t ht hlt => ?_⟩
    · refine (congrArg Src.pend (State.cutDomains_src _ _ _ : (s.railStops rail ov).src _ = _)).trans ?_
      rw [State.raise_src_same, Src.occur_pend]
    · exact (congrArg (Nat.testBit · rail) (s.railStops_fld rail ov (by decide))).trans (s.railBad_good rail)
    · exact (congrArg (Nat.testBit · rail) (s.railStops_fld rail ov (by decide))).trans (s.railBad_fault rail)
    · exact (State.cutDomains_off _ _ hd : (s.railStops rail ov).flag _ = false)
    · change (_ || _) = true
      rw [ht, Option.map_some, Option.getD_some, decide_eq_true hlt, Bool.or_true]
  case warn =>
    intro s sensor temp ⟨hp, hw⟩
    rw [exec_thermalWarn_hot hp, decide_eq_true hw, Bool.true_and]
    cases s.pwr.thermWarned
    · rw [Bool.not_false, State.when_true, if_neg Bool.false_ne_true]
    · rw [Bool.not_true, State.when_false, if_pos rfl]
  case cool =>
    intro s sensor temp ⟨hp, hc⟩
    rw [exec_thermalWarn_cooled hp, decide_eq_true hc, State.when_true]
  case noted =>
    intro s sensor temp b hp
    refine ⟨fun h => ?_, fun h => ?_, exec_thermalTrip_nothing sensor temp⟩
    · rw [exec_thermalWarn_hot hp, decide_eq_false (Nat.not_le.mpr h), Bool.false_and, State.when_false]
    · rw [exec_thermalWarn_cooled hp, decide_eq_false (Nat.not_le.mpr h), State.when_false]
  case trip =>
    intro s sensor temp ⟨hp, ht, h⟩
    have hold : (s.thermStops sensor temp).pwr.thermHold = true := congrArg Pwr.thermHold (State.cutDomains_pwr _ _)
    refine ⟨_, exec_thermalTrip_trips hp sensor temp ht h, hold, State.awake_of_thermHold hold, ?_, fun d h2 h34 => ?_⟩
    · have hsrc := State.stopDead_src ((s.readTemp temp).raise Ev.PWR_THERM_TRIP [sensor, temp]) (n := Ev.PWR_THERM_TRIP) (.inl (by decide))
      rw [State.thermStops, State.cutDomains_src]
      generalize ((s.readTemp temp).raise Ev.PWR_THERM_TRIP [sensor, temp]).stopDead = u at hsrc
      refine (congrArg Src.pend hsrc).trans ?_
      rw [State.raise_src_same, Src.occur_pend]
    · exact State.cutDomains_off _ _ (List.mem_filter.mpr ⟨List.mem_range.mpr h34, decide_eq_true h2⟩)
  case reset =>
    intro s ⟨ht, hw⟩
    change execThermalResetStart s = _
    rw [execThermalResetStart, ht, decide_eq_true hw, Bool.and_self, State.when_true]
  case waits =>
    intro s h
    have hc : (s.pwr.thermHold && decide (s.pwr.waitingResets ≠ [])) = false := by
      rcases h with h | h <;> simp [h]
    change execThermalResetStart s = _
    rw [execThermalResetStart, hc, State.when_false]

end Sys2Proof.Machine
end

section
/-! What the drain and the writing of security records leave alone (R303, R315, R319, R325). -/
namespace Sys2Proof.Machine

/-! ### The security core in a change of the device state -/

theorem State.domReset_sec (s : State) (d : Nat) : (s.domReset d).sec = s.sec := by
  unfold State.domReset
  split
  · rfl
  · split <;> rfl

theorem State.domOn_sec (s : State) (d : Nat) : (s.domOn d).sec = s.sec := by
  unfold State.domOn
  dsimp only
  split
  · exact s.setFld_sec _ _
  · rw [State.setFld_sec, State.domReset_sec]

theorem State.domOff_sec (s : State) (d : Nat) : (s.domOff d).sec = s.sec := by
  unfold State.domOff
  dsimp only
  split
  · rfl
  split
  · rw [State.setFld_sec, State.setFld_sec]
  split
  · rfl
  · rw [State.raise_sec, State.setFld_sec]

theorem State.gateClock_sec (s : State) (c : Nat) : (s.gateClock c).sec = s.sec := by
  unfold State.gateClock
  dsimp only
  split
  · rfl
  split
  · rw [State.setFld_sec, State.setFld_sec]
  split
  · rfl
  · rw [State.raise_sec, State.setFld_sec]

theorem State.ungateClock_sec (s : State) (c : Nat) : (s.ungateClock c).sec = s.sec := by
  rw [State.ungateClock, State.setFld_sec, State.setFld_sec]

theorem State.toState_sec (s : State) (st : DevState) : (s.toState st).sec = s.sec := by
  unfold State.toState
  dsimp only
  refine (State.foldl_sec _ (fun u c => ?_) _ _).trans ((State.foldl_sec _ (fun u c => ?_) _ _).trans
    ((State.foldl_sec _ (fun u d => ?_) _ _).trans ((State.foldl_sec _ (fun u d => ?_) _ _).trans ?_)))
  · split
    · exact u.ungateClock_sec c
    · rfl
  · split
    · rfl
    · exact u.gateClock_sec c
  · split
    · exact u.domOn_sec d
    · rfl
  · split
    · rfl
    · exact u.domOff_sec d
  · rw [State.raise_sec]

/-! ### The start of the drain -/

theorem State.dropPartial_core (s : State) : s.dropPartial.core = s.core :=
  State.foldl_core State.dropTag State.dropTag_core _ s

theorem State.dropPartial_hrn (s : State) : s.dropPartial.hrn = s.hrn :=
  State.foldl_keeps State.hrn State.dropTag (fun _ _ => rfl) _ s

theorem State.dropPartial_sec (s : State) : s.dropPartial.sec = s.sec :=
  State.foldl_sec State.dropTag State.dropTag_sec _ s

theorem State.drainActivation_core (s : State) : s.drainActivation.core = s.core := by
  unfold State.drainActivation
  split
  · rw [State.completeWaiting_core, State.raise_core _ (by decide)]
    exact State.core_congr rfl rfl rfl rfl rfl
  · rfl

theorem State.drainActivation_hrn (s : State) : s.drainActivation.hrn = s.hrn := by
  unfold State.drainActivation
  split
  · rw [State.completeWaiting_hrn, State.raise_hrn_of_no_fault _ (by decide)]
  · rfl

theorem State.drainActivation_sec (s : State) : s.drainActivation.sec = s.sec := by
  unfold State.drainActivation
  split
  · rw [State.completeWaiting_sec, State.raise_sec]
  · rfl

theorem State.saveRecord_flash (s : State) (ws : List Nat) : (s.saveRecord ws).sec.flash = s.sec.flash :=
  (congrArg (fun u : State => u.sec.flash) (s.saveRecord_beyondRecords ws) :)

/-- The drain's own steps before its flush: half-received writes and the activation are dropped and a record is asked for. -/
def State.drainSteps (s : State) : State :=
  (s.dropPartial.drainActivation.raiseIf (!s.dropPartial.drainActivation.placeReady) Ev.SEC_RECORD_FAIL).saveRecord []

section DrainSteps
variable (s : State)

theorem State.drainSteps_core : s.drainSteps.core = s.core := by
  rw [State.drainSteps, State.saveRecord_core, State.raiseIf_core _ _ (by decide), State.drainActivation_core, State.dropPartial_core]

theorem State.drainSteps_hrn : s.drainSteps.hrn = s.hrn := by
  have hif : ∀ (u : State) (c : Bool), (u.raiseIf c Ev.SEC_RECORD_FAIL).hrn = u.hrn := fun u c => by
    cases c
    · rfl
    · exact State.raise_hrn_of_no_fault u (n := Ev.SEC_RECORD_FAIL) (by decide) _
  rw [State.drainSteps, State.saveRecord_hrn, hif, State.drainActivation_hrn, State.dropPartial_hrn]

theorem State.drainSteps_flash : s.drainSteps.sec.flash = s.sec.flash := by
  rw [State.drainSteps, State.saveRecord_flash, State.raiseIf_sec, State.drainActivation_sec, State.dropPartial_sec]

end DrainSteps

/-- The power state at the start of a drain. -/
def State.drainPwr (s : State) : Pwr := { s.pwr with st := .drain, phase := 1, drainAt := s.now, drainRec := false, drainChecked := false }

/-- The device in DRAIN, before the drain's own steps. -/
def State.inDrain (s : State) : State := { s.toState .drain with pwr := s.drainPwr }

theorem State.enterDrain_of {s : State} (h : s.pwr.st ≠ .drain) :
    s.enterDrain = if s.hrn.holder then s.inDrain.drainSteps else s.inDrain.drainSteps.startFlush := by
  have hp : ({ (s.toState .drain).pwr with phase := 1, drainAt := (s.toState .drain).now, drainRec := false, drainChecked := false } : Pwr) =
      s.drainPwr := by
    rw [State.toState_pwr, State.toState_now, State.drainPwr]
  have hh : s.inDrain.drainSteps.hrn.holder = s.hrn.holder := by
    rw [State.drainSteps_hrn, ← s.toState_hrn .drain, State.inDrain]
  unfold State.enterDrain
  rw [if_neg h]
  dsimp only
  rw [hp, ← hh, State.drainSteps, State.inDrain]

/-! ### Flushes -/

theorem State.startFlush_core (s : State) : s.startFlush.core = ({ s with pwr.phase := 3 } : State).core :=
  State.foldl_core _ (fun u m => u.drive_core m .flush false 0 (.driveFlush m)) _ _

theorem State.startFlush_sec (s : State) : s.startFlush.sec = s.sec :=
  State.foldl_sec (fun s m => s.drive m .flush false 0 (.driveFlush m)) (fun _ _ => rfl) _ ({ s with pwr.phase := 3 } : State)

theorem State.drive_out (s : State) (m : Nat) (use : DrvUse) (r : Bool) (lba : Nat) (o : Out) : (s.drive m use r lba o).out = o :: s.out := rfl

theorem State.drive_cmds (s : State) (m : Nat) (use : DrvUse) (r : Bool) (lba : Nat) (o : Out) :
    ∃ c : DrvCmd, (s.drive m use r lba o).drv.cmds = s.drv.cmds ++ [c] ∧ c.member = m ∧ c.use = use := ⟨_, rfl, rfl, rfl⟩

/-- A Flush of a member under way. -/
def State.flushing (s : State) (m : Nat) : Prop := .driveFlush m ∈ s.out ∧ ∃ c ∈ s.drv.cmds, c.member = m ∧ c.use = .flush

theorem State.flushing_drive_same (s : State) (m : Nat) : (s.drive m .flush false 0 (.driveFlush m)).flushing m := by
  obtain ⟨c, hc, hm, hu⟩ := s.drive_cmds m .flush false 0 (.driveFlush m)
  rw [State.flushing, State.drive_out, hc]
  exact ⟨List.mem_cons_self, c, List.mem_append_right _ (List.mem_singleton_self c), hm, hu⟩

theorem State.flushing_drive {s : State} {m : Nat} (h : s.flushing m) (x : Nat) : (s.drive x .flush false 0 (.driveFlush x)).flushing m := by
  obtain ⟨c, hc, -, -⟩ := s.drive_cmds x .flush false 0 (.driveFlush x)
  obtain ⟨hout, d, hd, hdm⟩ := h
  rw [State.flushing, State.drive_out, hc]
  exact ⟨List.mem_cons_of_mem _ hout, d, List.mem_append_left _ hd, hdm⟩

theorem State.flushing_drives (ms : List Nat) (s : State) {m : Nat} (hm : m ∈ ms) :
    (ms.foldl (fun s m => s.drive m .flush false 0 (.driveFlush m)) s).flushing m := by
  induction ms using List.reverseRecOn with
  | nil => exact absurd hm List.not_mem_nil
  | append_singleton ms x ih =>
    rw [List.foldl_append, List.foldl_cons, List.foldl_nil]
    by_cases hx : m = x
    · rw [hx]
      exact State.flushing_drive_same _ x
    · exact State.flushing_drive (ih ((List.mem_append.mp hm).resolve_right fun h => hx (List.mem_singleton.mp h))) x

/-- Every ACTIVE member of a twin that is not FENCED is flushed. -/
theorem State.startFlush_flushing {s : State} (hr : s.hrn.role ≠ .fenced) {m : Nat} {x : Member} (hm : (m, x) ∈ s.reb.members)
    (hx : x.st = .active) : s.startFlush.flushing m := by
  unfold State.startFlush
  rw [if_neg hr]
  exact State.flushing_drives _ _ (List.mem_map.mpr ⟨(m, x), List.mem_filter.mpr ⟨hm, decide_eq_true hx⟩, rfl⟩)

/-! ### The end of the drain -/

theorem State.resumeHost_core (s : State) : s.resumeHost.core = s.core := by
  unfold State.resumeHost
  refine (State.foldl_core _ (fun u n => ?_) _ _).trans (s.startHeld_core _)
  split
  · exact u.fetchSq_core n 64
  · rfl

theorem State.leaveDrain_pwr (s : State) : s.leaveDrain.pwr = { s.pwr with phase := 0, st := .run } := by
  rw [State.leaveDrain, State.pwr_of_core (State.resumeHost_core _), State.toState_pwr]

theorem State.leaveDrain_pend (s : State) {n : Nat} (hn : n ∈ coreEvents) (hd : n ≠ Ev.PWR_DOM_WAIT) (hc : n ≠ Ev.CLK_GATE_WAIT)
    (hs : n ≠ Ev.PWR_STATE) : (s.leaveDrain.src n).pend = (s.src n).pend := by
  rw [State.leaveDrain, State.pend_of_core (State.resumeHost_core _) hn, State.toState_src hd hc hs]
  rfl

/-! ### Fencing -/

theorem State.endCmd_tim (s : State) (id : Option Nat) (st : MStatus) (r : Nat) : (s.endCmd id st r).tim = s.tim := by
  unfold State.endCmd
  split
  · exact s.complete_tim _ _ _ _
  · rfl

theorem State.endPairWork_now (s : State) : s.endPairWork.now = s.now := by
  have h : s.endPairWork.tim = ((((s.endCmd (s.hrn.join.bind Join.id) .configConflict).endCmd _ .configConflict).endCmd _ .configConflict).endCmd
    _ .configConflict).tim := rfl
  rw [State.now, h, State.endCmd_tim, State.endCmd_tim, State.endCmd_tim, State.endCmd_tim, State.now]

theorem State.enterTime_now (s : State) (t : TimeState) : (s.enterTime t).now = s.now := by
  cases t
  case locked => exact State.raise_now _ _ _
  case holdover => exact State.raise_now _ _ _
  all_goals rfl

theorem State.setRole_now (s : State) (r : Role) (k : Nat) : (s.setRole r k).now = s.now := by
  unfold State.setRole
  dsimp only
  rw [← s.raise_now Ev.HRN_ROLE [roleCode s.hrn.role, roleCode r, k]]
  generalize s.raise Ev.HRN_ROLE [roleCode s.hrn.role, roleCode r, k] = u
  split
  · unfold State.enterTwinTime
    split <;> rfl
  · unfold State.leaveTwinTime
    split
    · exact State.enterTime_now _ _
    · rfl

theorem State.abortDrives_now (s : State) : s.abortDrives.now = s.now :=
  State.foldl_keeps State.now (fun s (c : DrvCmd) => s.emit (.driveAbort c.id)) (fun _ _ => rfl) s.drv.cmds s

theorem State.abortDrives_hrn (s : State) : s.abortDrives.hrn = s.hrn :=
  State.foldl_keeps State.hrn (fun s (c : DrvCmd) => s.emit (.driveAbort c.id)) (fun _ _ => rfl) s.drv.cmds s

theorem State.darken_now (s : State) : s.darken.now = s.now := by
  obtain ⟨htim, -⟩ := s.darken_blocks
  rw [State.now, htim, State.now]

/-- The state in which a twin is fenced, before it aborts its drive commands and goes dark. -/
def State.fencedBy (s : State) (k : Nat) : State := { s.endPairWork.setRole .fenced k with hrn.cause := k }

section Fence
variable {s : State} (h : s.hrn.role ≠ .fenced) (k : Nat)
include h

theorem State.fence_of : s.fence k = (s.fencedBy k).abortDrives.darken.raise Ev.HRN_FENCED [k] := by
  rw [State.fence, if_neg h, State.fencedBy]

theorem State.fence_now : (s.fence k).now = s.now := by
  have htim : (s.fencedBy k).tim = (s.endPairWork.setRole .fenced k).tim := by rw [State.fencedBy]
  rw [State.fence_of h, State.raise_now, State.darken_now, State.abortDrives_now, State.now, htim, ← State.now, State.setRole_now,
    State.endPairWork_now]

theorem State.fence_hrn : (s.fence k).hrn = (s.fencedBy k).hrn := by
  rw [State.fence_of h, State.raise_hrn_of_no_fault _ (by decide), State.darken_hrn, State.abortDrives_hrn]

theorem State.fence_role : (s.fence k).hrn.role = .fenced :=
  (congrArg Hrn.role (State.fence_hrn h k)).trans (congrArg Hrn.role (State.setRole_hrn s.endPairWork .fenced k))

theorem State.fence_cause : (s.fence k).hrn.cause = k := congrArg Hrn.cause (State.fence_hrn h k)

theorem State.fence_pends : ((s.fence k).src Ev.HRN_FENCED).pend = true := by
  rw [State.fence_of h, State.raise_src_same, Src.occur_pend]

end Fence

/-! ### Security records -/

theorem State.recordWaiters_core (s : State) (ws : List Nat) : (s.recordWaiters ws).core = s.core := by
  refine State.foldl_core _ (fun u id => ?_) ws s
  split
  · split
    · rfl
    · unfold State.ownDone
      split
      · rfl
      · exact u.complete_core _ _ _ _
  · rfl

theorem State.recordWaiters_sec (s : State) (ws : List Nat) : (s.recordWaiters ws).sec = s.sec := by
  refine State.foldl_sec _ (fun u id => ?_) ws s
  split
  · split
    · rfl
    · exact u.ownDone_sec _
  · rfl

/-- A record that reads back right is the one of the flash. -/
def State.recordIn (s : State) (w : RecWrite) : State :=
  { s with
    sec.write := none, sec.flash := w.content
    cph.saved := s.cph.saved || (w.content.ctrEpoch = s.cph.ctrEpoch && s.cph.ctrEpoch ≠ 0 && s.cph.ctrCount < 2 ^ 40) }

/-- The record is in and its commands are completed. -/
def State.recordTaken (s : State) (w : RecWrite) : State := (s.recordIn w).recordWaiters w.waiters

theorem State.recordTaken_sec (s : State) (w : RecWrite) : (s.recordTaken w).sec = { s.sec with write := none, flash := w.content } := by
  rw [State.recordTaken, State.recordWaiters_sec, State.recordIn]

theorem State.recordTaken_pwr (s : State) (w : RecWrite) : (s.recordTaken w).pwr = s.pwr := by
  rw [State.recordTaken, State.pwr_of_core (State.recordWaiters_core _ _), State.recordIn]

theorem State.recordOk_none {s : State} (w : RecWrite) (hd : s.sec.due = none) : s.recordOk w = s.recordTaken w := by
  have h : (s.recordTaken w).sec.due = none := (congrArg Sec.due (s.recordTaken_sec w)).trans hd
  rw [State.recordTaken, State.recordIn] at h ⊢
  simp only [State.recordOk, h]

theorem State.recordOk_beyondRecords (s : State) (w : RecWrite) : (s.recordOk w).beyondRecords = (s.recordTaken w).beyondRecords := by
  rw [State.recordTaken, State.recordIn]
  unfold State.recordOk
  dsimp only
  split
  · exact State.startRecord_beyondRecords _ _
  · rfl

theorem State.recordOk_flash (s : State) (w : RecWrite) : (s.recordOk w).sec.flash = w.content := by
  have h : (s.recordOk w).sec.flash = (s.recordTaken w).sec.flash :=
    (congrArg (fun u : State => u.sec.flash) (s.recordOk_beyondRecords w) :)
  rw [h, s.recordTaken_sec]

theorem State.recordOk_after (s : State) (w : RecWrite) : (s.recordOk w).sec.after = s.sec.after := by
  have h : (s.recordOk w).sec.after = (s.recordTaken w).sec.after :=
    (congrArg (fun u : State => u.sec.after) (s.recordOk_beyondRecords w) :)
  rw [h, s.recordTaken_sec]

theorem State.afterRecord_none {s : State} (h : s.sec.after = none) : s.afterRecord = s := by
  unfold State.afterRecord
  rw [h]
  exact ite_self _

theorem State.armFloorSave_sec (s : State) : s.armFloorSave.sec = s.sec := by
  unfold State.armFloorSave
  dsimp only
  split
  · rfl
  · exact State.setSlot_sec _ _ _

theorem State.armFloorSave_pwr (s : State) : s.armFloorSave.pwr = s.pwr := by
  unfold State.armFloorSave
  dsimp only
  split <;> rfl

/-! ### The start of Synea -/

theorem State.swapExt_pwr (s : State) (x : Option ExtImage) : (s.swapExt x).pwr = s.pwr := by
  obtain ⟨m, hm⟩ := s.swapExt_frame x
  rw [hm]

theorem State.reloadExt_sec (s : State) : s.reloadExt.sec = s.sec := by
  rw [State.reloadExt, State.startupBit, State.swapExt_sec]

theorem State.reloadExt_pwr (s : State) : s.reloadExt.pwr = s.pwr := by
  rw [State.reloadExt, State.startupBit, State.swapExt_pwr]

theorem State.bootDone_sec (s : State) : s.bootDone.sec = { s.sec with soakFrom := s.now } := by
  rw [State.bootDone, State.raiseIf_sec, State.reloadExt_sec]

theorem State.bootDone_pwr (s : State) : s.bootDone.pwr = s.pwr := by
  rw [State.bootDone, State.raiseIf_pwr, State.reloadExt_pwr]

theorem State.enterDrain_flash (s : State) : s.enterDrain.sec.flash = s.sec.flash := by
  by_cases h : s.pwr.st = .drain
  · rw [State.enterDrain, if_pos h]
  · have hsteps : s.inDrain.drainSteps.sec.flash = s.sec.flash := by
      rw [State.drainSteps_flash, State.inDrain, State.toState_sec]
    rw [State.enterDrain_of h]
    split
    · exact hsteps
    · rw [State.startFlush_sec, hsteps]

theorem State.startSynea_flash (s : State) : s.startSynea.sec.flash = s.sec.flash := by
  unfold State.startSynea
  split
  · rfl
  · dsimp only
    split
    · rw [State.enterDrain_flash, State.bootDone_sec]
    · rw [State.bootDone_sec]

/-- The end of booting in a drain: the power state and the record under way stay. -/
theorem State.startSynea_of_drain {s : State} (h : s.pwr.st = .drain) : s.startSynea.pwr = s.pwr ∧ s.startSynea.sec.write = s.sec.write := by
  have hst : s.bootDone.enterDrain = s.bootDone := by
    rw [State.enterDrain, if_pos (by rw [State.bootDone_pwr]; exact h)]
  unfold State.startSynea
  split
  · exact ⟨rfl, rfl⟩
  · dsimp only
    rw [hst, ite_self]
    exact ⟨s.bootDone_pwr, by rw [State.bootDone_sec]⟩

end Sys2Proof.Machine
end

section
/-! Proofs of the drain and of the security record of families 15 and 16 (R303, R319 to R326). -/
namespace Sys2Proof.Machine

theorem State.powered_of_awake {s : State} (h : s.awake = true) : s.pwr.powered = true := by
  simp only [State.awake, Bool.and_eq_true] at h
  exact h.1.1.1.1

/-! ### The start of the drain (R319) -/

/-- VIN is recorded and the warning raised. -/
def State.vinNoted (s : State) (ext : Bool) (vin : Nat) : State :=
  ((({ s with pwr.vinWarn := true, pwr.ext := ext } : State).setFld Reg.PWR_VIN_MEAS_VIN (min vin 4095)).raise Ev.PWR_VIN_WARN [vin, bit ext])

section VinNoted
variable (s : State) (ext : Bool) (vin : Nat)

theorem State.vinNoted_pwr : (s.vinNoted ext vin).pwr = { s.pwr with vinWarn := true, ext := ext } := by
  rw [State.vinNoted, State.raise_pwr, State.setFld_pwr]

theorem State.vinNoted_clk : (s.vinNoted ext vin).clk = s.clk := by
  rw [State.vinNoted, State.raise_clk, State.setFld_clk]

theorem State.vinNoted_hrn : (s.vinNoted ext vin).hrn = s.hrn := by
  rw [State.vinNoted, State.raise_hrn_of_no_fault _ (by decide), State.setFld_hrn]

theorem State.vinNoted_now : (s.vinNoted ext vin).now = s.now := by
  rw [State.vinNoted, State.raise_now, State.setFld_now, State.now, State.now]

theorem State.vinNoted_awake : (s.vinNoted ext vin).awake = s.awake := by
  rw [State.awake, State.vinNoted_pwr, State.vinNoted_clk, State.awake]

theorem State.vinNoted_pends : ((s.vinNoted ext vin).src Ev.PWR_VIN_WARN).pend = true := by
  rw [State.vinNoted, State.raise_src_same, Src.occur_pend]

theorem State.vinNoted_vin : (s.vinNoted ext vin).fld Reg.PWR_VIN_MEAS_VIN = min vin 4095 := by
  rw [State.vinNoted, State.raise_fld]
  exact State.setFld_fld_of_lt _ (by decide) (by decide) (lt_of_le_of_lt (Nat.min_le_right _ _) (by decide))

end VinNoted

theorem exec_vinWarnAssert_of {s : State} {ext : Bool} {vin : Nat} (hp : s.pwr.powered = true) (hw : s.pwr.vinWarn = false)
    (he : ext = false ∨ s.flag Reg.PWR_VIN_CFG_EXT_WARN = true) : exec (.vinWarnAssert ext vin) s =
    .next (if s.awake && s.clk.bootDone then (s.vinNoted ext vin).enterDrain else s.vinNoted ext vin) := by
  have hc : (!ext || s.flag Reg.PWR_VIN_CFG_EXT_WARN) = true := by
    rcases he with h | h <;> simp [h]
  change execVinWarnAssert ext vin s = _
  rw [execVinWarnAssert, hp, hw, hc, Bool.not_false, Bool.and_self, Bool.and_self, State.when_true]
  change Host.Outcome.next (if (s.vinNoted ext vin).awake && (s.vinNoted ext vin).clk.bootDone then (s.vinNoted ext vin).enterDrain
    else s.vinNoted ext vin) = _
  rw [State.vinNoted_awake, State.vinNoted_clk]

theorem exec_vinWarnAssert_not {s : State} {ext : Bool} {vin : Nat}
    (h : s.pwr.powered = false ∨ s.pwr.vinWarn = true ∨ (s.flag Reg.PWR_VIN_CFG_EXT_WARN = false ∧ ext = true)) :
    exec (.vinWarnAssert ext vin) s = .next s := by
  have hc : (s.pwr.powered && !s.pwr.vinWarn && (!ext || s.flag Reg.PWR_VIN_CFG_EXT_WARN)) = false := by
    rcases h with h | h | ⟨h, he⟩
    · simp [h]
    · simp [h]
    · simp [h, he]
  change execVinWarnAssert ext vin s = _
  rw [execVinWarnAssert, hc, State.when_false]

section EnterDrain
variable {s : State} (h : s.pwr.st ≠ .drain)
include h

theorem State.enterDrain_pwr : s.enterDrain.pwr = { s.drainPwr with phase := if s.hrn.holder then 1 else 3 } := by
  rw [State.enterDrain_of h]
  split
  · rw [State.pwr_of_core (State.drainSteps_core _), State.inDrain, State.drainPwr]
  · rw [State.pwr_of_core (State.startFlush_core _), State.pwr_of_core (State.drainSteps_core _), State.inDrain]

theorem State.enterDrain_pend : (s.enterDrain.src Ev.PWR_VIN_WARN).pend = (s.src Ev.PWR_VIN_WARN).pend := by
  have hin : s.inDrain.src Ev.PWR_VIN_WARN = s.src Ev.PWR_VIN_WARN := by
    rw [← s.toState_src (n := Ev.PWR_VIN_WARN) (by decide) (by decide) (by decide) .drain, State.inDrain, State.src, State.src]
  rw [State.enterDrain_of h]
  split
  · rw [State.pend_of_core (State.drainSteps_core _) (by decide), hin]
  · have hph : ({ s.inDrain.drainSteps with pwr.phase := 3 } : State).src Ev.PWR_VIN_WARN = s.inDrain.drainSteps.src Ev.PWR_VIN_WARN := by
      generalize s.inDrain.drainSteps = u
      rfl
    rw [State.pend_of_core (State.startFlush_core _) (by decide), hph, State.pend_of_core (State.drainSteps_core _) (by decide), hin]

end EnterDrain

/-! ### The check of the peer (R320) -/

/-- The state at the 5 µs check. -/
def State.drainCheck (s : State) : State := ({ s with pwr.drainChecked := true } : State).reach (s.pwr.drainAt + 5000)

section PeerCheck
variable {s : State} (hst : s.pwr.st = .drain) (hc : s.pwr.drainChecked = false)

theorem State.drainCheck_hrn (s : State) : s.drainCheck.hrn = s.hrn := by rw [State.drainCheck, State.reach_hrn]

theorem State.drainCheck_now (s : State) : s.drainCheck.now = max s.now (s.pwr.drainAt + 5000) := by
  rw [State.drainCheck, State.reach_now, State.now, State.now]

include hst hc

theorem exec_drainPeerCheck_of : exec .drainPeerCheck s =
    .next (s.drainCheck.when (s.hrn.link && !s.hrn.peerDrain) State.yieldSelf) := by
  change execDrainPeerCheck s = _
  rw [execDrainPeerCheck, decide_eq_true hst, hc, Bool.not_false, Bool.and_self, State.when_true]
  change Host.Outcome.next (s.drainCheck.when (s.drainCheck.hrn.link && !s.drainCheck.hrn.peerDrain) State.yieldSelf) = _
  rw [s.drainCheck_hrn]

end PeerCheck

/-- What a twin tells its peer before it fences itself: an active twin to take the cinch, a standby that it yields. -/
theorem State.yieldSelf_of {s : State} (h : s.hrn.role = .active ∨ s.hrn.role = .standby) : ∃ o, s.yieldSelf = (s.sendTwin o).fence 3 := by
  rcases h with h | h
  · exact ⟨.controlMsg (.takeCinch true), by simp only [State.yieldSelf, h]⟩
  · exact ⟨.controlMsg .yielded, by simp only [State.yieldSelf, h]⟩

theorem State.yieldSelf_other {s : State} (h : s.hrn.role ≠ .active ∧ s.hrn.role ≠ .standby) : s.yieldSelf = s := by
  obtain ⟨ha, hb⟩ := h
  unfold State.yieldSelf
  split
  · next h => exact absurd h ha
  · next h => exact absurd h hb
  · rfl

/-! ### The phases (R321, R322) -/

/-- PHASE 2 follows PHASE 1 when the holder's data is all written. -/
def State.destaged (s : State) : State := if s.pwr.phase = 1 && s.hrn.holder && s.dirty = 0 then { s with pwr.phase := 2 } else s

theorem State.destaged_of {s : State} (hp : s.pwr.phase = 1) (hh : s.hrn.holder = true) (hd : s.dirty = 0) :
    s.destaged = { s with pwr.phase := 2 } := by
  rw [State.destaged, decide_eq_true hp, hh, decide_eq_true hd, Bool.and_self, Bool.and_self, if_pos rfl]

theorem State.destaged_not {s : State} (h : s.pwr.phase ≠ 1 ∨ s.hrn.holder = false ∨ s.dirty ≠ 0) : s.destaged = s := by
  have hc : (decide (s.pwr.phase = 1) && s.hrn.holder && decide (s.dirty = 0)) = false := by
    rcases h with h | h | h
    · rw [decide_eq_false h, Bool.false_and, Bool.false_and]
    · rw [h, Bool.and_false, Bool.false_and]
    · rw [decide_eq_false h, Bool.and_false]
  rw [State.destaged, hc, if_neg Bool.false_ne_true]

theorem State.destaged_sbg (s : State) : s.destaged.sbg = s.sbg := by
  unfold State.destaged
  split <;> rfl

theorem State.destaged_hrn (s : State) : s.destaged.hrn = s.hrn := by
  unfold State.destaged
  split <;> rfl

section Destage
variable {s : State} (hst : s.pwr.st = .drain)
include hst

theorem exec_drainDestageDone_of : exec .drainDestageDone s = .next (
    if (decide (s.destaged.pwr.phase = 2) && decide (s.sbg.stripes = []) && decide (s.sbg.dirtyPages = [])) ||
      (decide (s.destaged.pwr.phase < 3) && !s.hrn.holder) then s.destaged.startFlush else s.destaged) := by
  change execDrainDestageDone s = _
  rw [execDrainDestageDone, decide_eq_true hst, State.when_true]
  change Host.Outcome.next (if (decide (s.destaged.pwr.phase = 2) && decide (s.destaged.sbg.stripes = []) &&
    decide (s.destaged.sbg.dirtyPages = [])) || (decide (s.destaged.pwr.phase < 3) && !s.destaged.hrn.holder) then s.destaged.startFlush
    else s.destaged) = _
  rw [s.destaged_sbg, s.destaged_hrn]

theorem exec_drainDestageDone_flushes (h : s.destaged.pwr.phase = 2 ∧ s.sbg.stripes = [] ∧ s.sbg.dirtyPages = [] ∨
    s.destaged.pwr.phase < 3 ∧ s.hrn.holder = false) : exec .drainDestageDone s = .next s.destaged.startFlush := by
  rw [exec_drainDestageDone_of hst, if_pos]
  simpa [and_assoc] using h

theorem exec_drainDestageDone_waits (h : s.destaged.pwr.phase ≠ 2 ∨ s.sbg.stripes ≠ [] ∨ s.sbg.dirtyPages ≠ [])
    (hh : 3 ≤ s.destaged.pwr.phase ∨ s.hrn.holder = true) : exec .drainDestageDone s = .next s.destaged := by
  rw [exec_drainDestageDone_of hst, if_neg]
  simp only [Bool.or_eq_true, Bool.and_eq_true, decide_eq_true_eq, Bool.not_eq_true', not_or]
  constructor
  · rintro ⟨⟨hp, hs⟩, hd⟩
    rcases h with h | h | h
    · exact h hp
    · exact h hs
    · exact h hd
  · rintro ⟨hlt, hf⟩
    rcases hh with hh | hh
    · omega
    · exact Bool.false_ne_true (hf.symm.trans hh)

end Destage

/-! ### The end and the release (R322, R326) -/

/-- The drain is done. -/
def State.drained (s : State) : State :=
  (({ s with pwr.phase := 4 } : State).setFld Reg.PWR_DRAIN_TIME_TIME (min ((s.now - s.pwr.drainAt) / 1000) 0xFFFFFF)).raise
    Ev.PWR_DRAIN_DONE [(s.now - s.pwr.drainAt) / 1000]

theorem State.drained_pwr (s : State) : s.drained.pwr = { s.pwr with phase := 4 } := by
  rw [State.drained, State.raise_pwr, State.setFld_pwr]

theorem State.drained_pends (s : State) : (s.drained.src Ev.PWR_DRAIN_DONE).pend = true := by
  rw [State.drained, State.raise_src_same, Src.occur_pend]

theorem exec_drainDone_of {s : State} (hst : s.pwr.st = .drain) (hp : s.pwr.phase = 3) (hr : s.pwr.drainRec = true)
    (hf : ∀ c ∈ s.drv.cmds, c.use ≠ .flush) : exec .drainDone s = .next (if s.pwr.vinWarn then s.drained else s.drained.leaveDrain) := by
  have hany : (s.drv.cmds.any fun c => decide (c.use = .flush)) = false :=
    List.any_eq_false.mpr fun c hc => by rw [decide_eq_false (hf c hc)]; exact Bool.false_ne_true
  change execDrainDone s = _
  rw [execDrainDone, decide_eq_true hst, decide_eq_true hp, hr, hany, Bool.not_false, Bool.and_self, Bool.and_self, Bool.and_self,
    State.when_true]
  change Host.Outcome.next (if s.drained.pwr.vinWarn then s.drained else s.drained.leaveDrain) = _
  rw [s.drained_pwr]

/-- VIN is back. -/
def State.vinBack (s : State) : State := ({ s with pwr.vinWarn := false } : State).raise Ev.PWR_VIN_OK

theorem State.vinBack_pwr (s : State) : s.vinBack.pwr = { s.pwr with vinWarn := false } := by
  rw [State.vinBack, State.raise_pwr]

theorem State.vinBack_awake (s : State) : s.vinBack.awake = s.awake := by
  rw [State.awake, State.vinBack_pwr, State.vinBack, State.raise_clk, State.awake]

theorem State.vinBack_pends (s : State) : (s.vinBack.src Ev.PWR_VIN_OK).pend = true := by
  rw [State.vinBack, State.raise_src_same, Src.occur_pend]

theorem exec_vinWarnRelease_of {s : State} (ha : s.awake = true) (hw : s.pwr.vinWarn = true) : exec .vinWarnRelease s =
    .next (s.vinBack.when (decide (s.pwr.st = .drain) && decide (s.pwr.phase = 4)) State.leaveDrain) := by
  change execVinWarnRelease s = _
  rw [execVinWarnRelease, State.powered_of_awake ha, hw, Bool.and_self, State.when_true]
  change Host.Outcome.next (s.vinBack.when (decide (s.vinBack.pwr.st = .drain) && decide (s.vinBack.pwr.phase = 4) && s.vinBack.awake)
    State.leaveDrain) = _
  rw [s.vinBack_pwr, s.vinBack_awake, ha, Bool.and_true]

/-! ### Security records (R303, R325) -/

/-- Once the counters are saved the saving of the floor runs. -/
def State.floorArmed (s : State) : State := s.when s.cph.saved fun s => (s.startupBit 4).armFloorSave

/-- A drain notes its record when none is under way and none is due. -/
def State.recordNoted (s : State) : State :=
  s.when (decide (s.pwr.st = .drain) && s.sec.write.isNone && s.sec.due.isNone) fun s => { s with pwr.drainRec := true }

theorem State.floorArmed_sec (s : State) : s.floorArmed.sec = s.sec := by
  unfold State.floorArmed
  cases s.cph.saved
  · rfl
  · rw [State.when_true, State.armFloorSave_sec, State.startupBit]

theorem State.floorArmed_pwr (s : State) : s.floorArmed.pwr = s.pwr := by
  unfold State.floorArmed
  cases s.cph.saved
  · rfl
  · rw [State.when_true, State.armFloorSave_pwr, State.startupBit]

theorem State.recordNoted_sec (s : State) : s.recordNoted.sec = s.sec := by
  unfold State.recordNoted State.when
  split <;> rfl

theorem State.recordNoted_of {s : State} (hst : s.pwr.st = .drain) (hw : s.sec.write = none) (hd : s.sec.due = none) :
    s.recordNoted.pwr = { s.pwr with drainRec := true } := by
  rw [State.recordNoted, decide_eq_true hst, hw, hd, Option.isNone_none, Option.isNone_none, Bool.and_self, Bool.and_self, State.when_true]

section Written
variable {s : State} {w : RecWrite} (hw : s.sec.write = some w)
include hw

theorem exec_securityRecordWritten_ok : exec (.securityRecordWritten true) s =
    .next (s.recordOk w).floorArmed.recordNoted.afterRecord.startSynea := by
  change execSecurityRecordWritten true s = _
  simp only [execSecurityRecordWritten, hw, if_true, Bool.true_and, Bool.true_or, State.when_true]
  rfl

theorem exec_securityRecordWritten_bad : exec (.securityRecordWritten false) s =
    .next ((s.recordBad w).when (s.recordBad w).sec.write.isNone State.startSynea) := by
  change execSecurityRecordWritten false s = _
  simp only [execSecurityRecordWritten, hw, Bool.false_eq_true, if_false, Bool.false_and, Bool.false_or, State.when_false]

end Written

theorem exec_securityRecordWritten_none {s : State} (h : s.sec.write = none) (ok : Bool) : exec (.securityRecordWritten ok) s = .next s := by
  change execSecurityRecordWritten ok s = _
  simp only [execSecurityRecordWritten, h]

theorem State.recordLost_write (s : State) (ws : List Nat) : (s.recordLost ws).sec.write = none := by
  rw [State.recordLost, State.raiseIf_sec, State.raise_sec]

theorem State.keepErased_write (s : State) : s.keepErased.sec.write = s.sec.write := by
  unfold State.keepErased
  split <;> rfl

theorem State.keepErased_placesLeft (s : State) : s.keepErased.sec.placesLeft = s.sec.placesLeft := by
  unfold State.keepErased
  split <;> rfl

/-- The record that did not read back right is written again in the next place. -/
def State.rewritten (s : State) (w : RecWrite) : State :=
  (({ s with sec.placesLeft := s.sec.placesLeft - 1 } : State).program { w with retried := true }).keepErased

theorem State.recordBad_retried {s : State} {w : RecWrite} (hr : w.retried = true) : s.recordBad w = s.recordLost w.waiters := by
  rw [State.recordBad, hr, if_pos rfl]

theorem State.recordBad_first {s : State} {w : RecWrite} (hr : w.retried = false) (hp : s.sec.placesLeft ≠ 0) :
    s.recordBad w = s.rewritten w := by
  simp only [State.recordBad, hr, Bool.false_eq_true, if_false, State.takePlace, if_pos hp, State.rewritten]

section Rewritten
variable (s : State) (w : RecWrite)

theorem State.rewritten_write : (s.rewritten w).sec.write = some { w with retried := true } := by
  rw [State.rewritten, State.keepErased_write]
  rfl

theorem State.rewritten_placesLeft : (s.rewritten w).sec.placesLeft = s.sec.placesLeft - 1 := by
  rw [State.rewritten, State.keepErased_placesLeft]
  rfl

theorem State.rewritten_flash : (s.rewritten w).sec.flash = s.sec.flash :=
  (congrArg (fun u : State => u.sec.flash) (State.keepErased_beyondRecords
    (({ s with sec.placesLeft := s.sec.placesLeft - 1 } : State).program { w with retried := true })) :)

end Rewritten

/-- Settles O55: the power state, the pair, the record of the flash and the events are read through what the steps of the drain leave alone. A
record that is complete when none is due is log entry 93, the flush of a FENCED twin 92, and the cold start that goes on without the record 79. -/
theorem theDrainRunsItsStepsToTheEnd : Obligations.TheDrainRunsItsStepsToTheEnd := by
  refine ⟨?enters, ?discarded, ?noted, ?yields, ?checked, ?phases, ?noMembers, ?flushes, ?done, ?release, ?written, ?noWrite, ?lost, ?again⟩
  case enters =>
    intro s ext vin ⟨ha, hb, hw, hst, he⟩
    have hpwr := s.vinNoted_pwr ext vin
    have hst' : (s.vinNoted ext vin).pwr.st ≠ .drain := by
      rw [hpwr]
      exact hst
    refine ⟨(s.vinNoted ext vin).enterDrain, ?_, ?_⟩
    · rw [exec_vinWarnAssert_of (State.powered_of_awake ha) hw he, ha, hb, Bool.and_self, if_pos rfl]
    · rw [State.enterDrain_pwr hst', State.drainPwr, hpwr, State.vinNoted_hrn, State.vinNoted_now, State.enterDrain_pend hst',
        State.vinNoted_pends]
      exact ⟨rfl, rfl, rfl, rfl, rfl, rfl⟩
  case discarded => exact fun s ext vin h => exec_vinWarnAssert_not h
  case noted =>
    intro s ext vin ⟨hp, hw, he, h⟩
    have hstay : (if s.awake && s.clk.bootDone then (s.vinNoted ext vin).enterDrain else s.vinNoted ext vin) = s.vinNoted ext vin := by
      rcases h with h | h | h
      · rw [h, Bool.false_and, if_neg Bool.false_ne_true]
      · rw [h, Bool.and_false, if_neg Bool.false_ne_true]
      · have hsame : (s.vinNoted ext vin).enterDrain = s.vinNoted ext vin := by
          rw [State.enterDrain, if_pos]
          rw [State.vinNoted_pwr]
          exact h
        rw [hsame, ite_self]
    exact ⟨_, (exec_vinWarnAssert_of hp hw he).trans (congrArg _ hstay), s.vinNoted_pwr ext vin, s.vinNoted_vin ext vin, s.vinNoted_pends ext vin⟩
  case yields =>
    intro s ⟨hst, hc, hl, hp, hr⟩
    have hrole : s.drainCheck.hrn.role = .active ∨ s.drainCheck.hrn.role = .standby := by rwa [s.drainCheck_hrn]
    obtain ⟨o, ho⟩ := State.yieldSelf_of hrole
    have hne : (s.drainCheck.sendTwin o).hrn.role ≠ .fenced := by
      rw [State.sendTwin_hrn]
      rcases hrole with h | h <;> rw [h] <;> decide
    refine ⟨(s.drainCheck.sendTwin o).fence 3, ?_, State.fence_role hne 3, State.fence_cause hne 3, ?_, State.fence_pends hne 3⟩
    · rw [exec_drainPeerCheck_of hst hc, hl, hp, Bool.not_false, Bool.and_self, State.when_true, ho]
    · rw [State.fence_now hne, State.sendTwin_now, s.drainCheck_now]
  case checked =>
    intro s ⟨hst, hc, h⟩
    rw [exec_drainPeerCheck_of hst hc]
    change _ = Host.Outcome.next s.drainCheck
    rcases h with h | h | h
    · rw [h, Bool.false_and, State.when_false]
    · rw [h, Bool.not_true, Bool.and_false, State.when_false]
    · rw [State.when, State.yieldSelf_other (by rwa [s.drainCheck_hrn]), ite_self]
  case phases =>
    intro s u ⟨hst, h⟩
    have hu : s.destaged = u := by
      rcases h with ⟨hp, hh, hd, hu⟩ | ⟨hn, hu⟩
      · rw [hu, State.destaged_of hp hh hd]
      · rw [hu, State.destaged_not hn]
    subst hu
    exact ⟨exec_drainDestageDone_flushes hst, fun ⟨h, hh⟩ => exec_drainDestageDone_waits hst h hh⟩
  case noMembers =>
    intro s ⟨hr, hm⟩
    rw [State.startFlush, if_neg hr, hm, List.filter_nil, List.map_nil, List.foldl_nil]
  case flushes =>
    intro s m x ⟨hst, _, hp, hs, hd, hr, hm, hx⟩
    have hsame : s.destaged = s := State.destaged_not (.inl (by omega))
    refine ⟨s.startFlush, ?_, ?_, State.startFlush_flushing hr hm hx⟩
    · rw [exec_drainDestageDone_flushes hst (.inl ⟨by rw [hsame, hp], hs, hd⟩), hsame]
    · rw [State.pwr_of_core s.startFlush_core]
  case done =>
    intro s ⟨hst, hp, hr, hf⟩
    refine ⟨_, exec_drainDone_of hst hp hr hf, ?_, fun hv => ?_, fun hv => ?_⟩
    · split
      · exact s.drained_pends
      · rw [State.leaveDrain_pend _ (by decide) (by decide) (by decide) (by decide), s.drained_pends]
    · rw [if_pos hv, s.drained_pwr]
      exact ⟨hst, rfl⟩
    · rw [if_neg (by rw [hv]; exact Bool.false_ne_true), State.leaveDrain_pwr]
      exact ⟨rfl, rfl⟩
  case release =>
    intro s ⟨ha, hw⟩
    rw [exec_vinWarnRelease_of ha hw]
    by_cases h : s.pwr.st = .drain ∧ s.pwr.phase = 4
    · obtain ⟨hst, hp⟩ := h
      rw [decide_eq_true hst, decide_eq_true hp, Bool.and_self, State.when_true]
      refine ⟨_, rfl, ?_, ?_, fun _ _ => ?_, fun _ hn => absurd hp hn⟩
      · rw [State.leaveDrain_pwr, s.vinBack_pwr]
      · rw [State.leaveDrain_pend _ (by decide) (by decide) (by decide) (by decide), s.vinBack_pends]
      · rw [State.leaveDrain_pwr]
    · have hc : (decide (s.pwr.st = .drain) && decide (s.pwr.phase = 4)) = false := by
        rw [← Bool.decide_and, decide_eq_false h]
      rw [hc, State.when_false]
      refine ⟨_, rfl, ?_, s.vinBack_pends, fun hst hp => absurd ⟨hst, hp⟩ h, fun hst _ => ?_⟩
      · rw [s.vinBack_pwr]
      · rw [s.vinBack_pwr]
        exact ⟨hst, rfl⟩
  case written =>
    intro s w hw
    refine ⟨_, exec_securityRecordWritten_ok hw, fun ha => ?_, fun hws hd ha hst => ?_⟩
    all_goals
      have hafter : (s.recordOk w).floorArmed.recordNoted.sec.after = none := by
        rw [State.recordNoted_sec, State.floorArmed_sec, State.recordOk_after, ha]
      rw [State.afterRecord_none hafter]
    · rw [State.startSynea_flash, State.recordNoted_sec, State.floorArmed_sec, State.recordOk_flash]
    · have hpwr : (s.recordTaken w).floorArmed.pwr = s.pwr := by rw [State.floorArmed_pwr, State.recordTaken_pwr]
      have hsec : (s.recordTaken w).floorArmed.sec = { s.sec with write := none, flash := w.content } := by
        rw [State.floorArmed_sec, State.recordTaken_sec]
      have hnoted := State.recordNoted_of (congrArg Pwr.st hpwr |>.trans hst) (congrArg Sec.write hsec) ((congrArg Sec.due hsec).trans hd)
      rw [State.recordOk_none w hd]
      obtain ⟨hp, hwrite⟩ := State.startSynea_of_drain (s := (s.recordTaken w).floorArmed.recordNoted) (by rw [hnoted, hpwr]; exact hst)
      rw [hp, hwrite, hnoted, State.recordNoted_sec, hsec]
      exact ⟨rfl, rfl⟩
  case noWrite => exact fun s h => ⟨exec_securityRecordWritten_none h true, exec_securityRecordWritten_none h false⟩
  case lost =>
    intro s w ⟨hw, hr⟩
    rw [exec_securityRecordWritten_bad hw, State.recordBad_retried hr, State.recordLost_write, Option.isNone_none, State.when_true]
  case again =>
    intro s w ⟨hw, hr, hp⟩
    refine ⟨s.rewritten w, ?_, s.rewritten_write w, s.rewritten_placesLeft w, s.rewritten_flash w⟩
    rw [exec_securityRecordWritten_bad hw, State.recordBad_first hr hp, State.rewritten_write, Option.isNone_some, State.when_false]

end Sys2Proof.Machine
end

section
/-! What moving clock domains and booting leave alone (R330, R334, R336, R340). -/
namespace Sys2Proof.Machine

theorem State.rg_of_regs {s u : State} (h : u.regs = s.regs) (a : Nat) : u.rg a = s.rg a := by
  rw [State.rg, h, State.rg]

/-! ### The source of a clock domain -/

section MoveClock
variable (s : State) (c src : Nat)

theorem State.moveClock_hrn : (s.moveClock c src).hrn = s.hrn := by
  unfold State.moveClock
  split
  · rfl
  · rw [State.bump_hrn, State.setFld_hrn]

theorem State.moveClock_tim : (s.moveClock c src).tim = s.tim := by
  unfold State.moveClock
  split
  · rfl
  · rw [State.bump_tim, State.setFld_tim]

theorem State.moveClock_src (n : Nat) : (s.moveClock c src).src n = s.src n := by
  unfold State.moveClock
  split
  · rfl
  · rw [State.bump_src, State.setFld_src]

/-- A domain that has moved runs on the source it moved to. -/
theorem State.moveClock_fld_same (h : src < 4) : (s.moveClock c src).fld (Reg.CLK_CD_STATUS_SRC c) = src := by
  unfold State.moveClock
  split
  · assumption
  · rw [State.bump, State.setFld_fld_apart _ _ (by exact (by decide : 8 ≤ 15)) (by exact (by decide : 15 < 32))
      (.inr (.inl (by exact (by decide : 1 < 8))))]
    exact State.setFld_fld_of_lt s (by exact (by decide : 0 ≤ 1)) (by exact (by decide : 1 < 32)) h

theorem State.moveClock_rg_other {a : Nat} (h : a ≠ 0x4200 + 0x4 * c) : (s.moveClock c src).rg a = s.rg a := by
  unfold State.moveClock
  split
  · rfl
  · exact (State.setRg_rg_other _ _ _ _ h).trans (State.setRg_rg_other s _ _ _ h)

theorem State.moveClock_fld_other {d : Nat} (h : d ≠ c) :
    (s.moveClock c src).fld (Reg.CLK_CD_STATUS_SRC d) = s.fld (Reg.CLK_CD_STATUS_SRC d) :=
  congrArg (getBits · 1 0) (s.moveClock_rg_other c src (by simp only [Reg.CLK_CD_STATUS_SRC]; omega))

end MoveClock

/-- Every domain of a list that has moved runs on the source it moved to. -/
theorem State.moveClocks_fld (cs : List Nat) (s : State) {src c : Nat} (h : src < 4) (hc : c ∈ cs) :
    (cs.foldl (fun s c => s.moveClock c src) s).fld (Reg.CLK_CD_STATUS_SRC c) = src := by
  induction cs using List.reverseRecOn with
  | nil => exact absurd hc List.not_mem_nil
  | append_singleton cs x ih =>
    rw [List.foldl_append, List.foldl_cons, List.foldl_nil]
    by_cases hx : c = x
    · rw [hx, State.moveClock_fld_same _ _ _ h]
    · have hm : c ∈ cs := (List.mem_append.mp hc).resolve_right fun h => hx (List.mem_singleton.mp h)
      rw [State.moveClock_fld_other _ _ _ hx, ih hm]

/-! ### The trip of a crystal -/

/-- Whether the first crystal has tripped, the stop bits, and whether the events of power and clocks are pending. -/
def State.tripView (s : State) : Bool × Word × List Bool :=
  (s.clk.xaTripped, s.rg Reg.CLK_MON_STATUS_XA_STOP.addr, coreEvents.map fun n => (s.src n).pend)

theorem State.tripView_of_core {s t : State} (h : t.core = s.core) : t.tripView = s.tripView :=
  congrArg (fun x => (x.2.2.2.2.2.xaTripped, x.1, x.2.1)) h

section Trip
variable {s t : State} (h : t.tripView = s.tripView)
include h

theorem State.xaTripped_of_tripView : t.clk.xaTripped = s.clk.xaTripped := congrArg Prod.fst h

theorem State.stops_of_tripView : t.rg Reg.CLK_MON_STATUS_XA_STOP.addr = s.rg Reg.CLK_MON_STATUS_XA_STOP.addr := congrArg (fun x => x.2.1) h

theorem State.pend_of_tripView {n : Nat} (hn : n ∈ coreEvents) : (t.src n).pend = (s.src n).pend :=
  List.map_inj_left.mp (congrArg (fun x => x.2.2) h : coreEvents.map (fun n => (t.src n).pend) = coreEvents.map fun n => (s.src n).pend) n hn

end Trip

theorem State.tripView_congr {s t : State} (hk : t.clk.xaTripped = s.clk.xaTripped) (hr : t.regs = s.regs) (he : t.evt = s.evt) :
    t.tripView = s.tripView := by
  unfold State.tripView State.rg State.src
  rw [hk, hr, he]

theorem State.raise_tripView (s : State) {n : Nat} (h : coreEvents.contains n = false) (d : List Nat) : (s.raise n d).tripView = s.tripView :=
  State.tripView_of_core (s.raise_core h d)

theorem State.moveClock_tripView (s : State) (c src : Nat) : (s.moveClock c src).tripView = s.tripView := by
  have hne : Reg.CLK_MON_STATUS_XA_STOP.addr ≠ 0x4200 + 0x4 * c := by
    simp only [Reg.CLK_MON_STATUS_XA_STOP]
    omega
  unfold State.tripView
  rw [State.moveClock_clk, s.moveClock_rg_other c src hne]
  exact congrArg (fun l => (_, _, l)) (List.map_congr_left fun n _ => congrArg Src.pend (s.moveClock_src c src n))

theorem State.startFio_tripView (s : State) : s.startFio.tripView = s.tripView := by
  unfold State.startFio
  split
  · rfl
  · exact State.tripView_congr rfl rfl rfl

theorem State.toFio_tripView (s : State) (c : Nat) : (s.toFio c).tripView = s.tripView := by
  unfold State.toFio
  dsimp only
  split
  · rfl
  split
  · rw [State.raise_tripView _ (by decide), State.moveClock_tripView]
    exact State.tripView_congr rfl rfl rfl
  · rw [State.startFio_tripView, State.moveClock_tripView]
    exact State.tripView_congr rfl rfl rfl

theorem State.dropLinks_tripView (s : State) : s.dropLinks.tripView = s.tripView := by
  by_cases h : s.hrn.lanes = 0
  · exact State.tripView_of_core (s.dropLinks_core_untrained h)
  · exact (State.tripView_of_core (s.dropLinks_core h)).trans (State.tripView_congr rfl rfl rfl)

theorem State.stopSerdes_tripView (s : State) : s.stopSerdes.tripView = s.tripView := by
  unfold State.stopSerdes
  split
  · rfl
  · dsimp only
    rw [State.dropLinks_tripView, State.moveClock_tripView]
    exact State.tripView_congr rfl rfl rfl

theorem State.holdFloor_tripView (s : State) : s.holdFloor.tripView = s.tripView := by
  unfold State.holdFloor
  split
  · rfl
  · rw [State.raise_tripView _ (by decide)]
    exact State.tripView_congr rfl rfl rfl

/-- The first crystal has tripped. -/
def State.xaStopped (s : State) : State := { s with clk.xaTripped := true, clk.xaOk := false }

theorem State.xaStopped_rg (s : State) (a : Nat) : s.xaStopped.rg a = s.rg a := rfl
theorem State.xaStopped_src (s : State) (n : Nat) : s.xaStopped.src n = s.src n := rfl

/-- An XA trip sets the trip of its crystal and nothing else of the reading. -/
theorem State.loseXa_tripView (s : State) : s.loseXa.tripView = s.xaStopped.tripView := by
  have hstop : s.xaStopped.holdFloor.tripView = _ := State.holdFloor_tripView _
  unfold State.loseXa
  dsimp only
  rw [← State.xaStopped, ← hstop]
  generalize s.xaStopped.holdFloor = u
  have hu : (u.allToFio xaDomains).stopSerdes.tripView = u.tripView :=
    (State.stopSerdes_tripView _).trans (State.foldl_keeps State.tripView _ (fun v c => v.toFio_tripView c) _ u)
  split
  · exact (State.toFio_tripView _ 3).trans hu
  · exact hu

/-! ### Booting -/

/-- What booting leaves alone: the registers, the state of the tree, and the events of other blocks. -/
def State.treeView (n : Nat) (s : State) : Assoc Word × Src × Bool × BitVec 8 × Bool × Bool :=
  (s.regs, s.src n, s.clk.starting, s.clk.pllLock, s.clk.xaOk, s.clk.xaTripped)

section Read
variable {n : Nat} {s t : State} (h : t.treeView n = s.treeView n)
include h

theorem State.regs_of_treeView : t.regs = s.regs := congrArg Prod.fst h
theorem State.pend_of_treeView : (t.src n).pend = (s.src n).pend := congrArg (fun x => x.2.1.pend) h
theorem State.starting_of_treeView : t.clk.starting = s.clk.starting := congrArg (fun x => x.2.2.1) h
theorem State.pllLock_of_treeView : t.clk.pllLock = s.clk.pllLock := congrArg (fun x => x.2.2.2.1) h
theorem State.xaOk_of_treeView : t.clk.xaOk = s.clk.xaOk := congrArg (fun x => x.2.2.2.2.1) h
theorem State.tripped_of_treeView : t.clk.xaTripped = s.clk.xaTripped := congrArg (fun x => x.2.2.2.2.2) h

end Read

theorem State.treeView_congr {n : Nat} {s t : State} (hr : t.regs = s.regs) (he : t.evt = s.evt) (hk : t.clk = s.clk) :
    t.treeView n = s.treeView n := by
  unfold State.treeView State.src
  rw [hr, he, hk]

theorem State.startupBit_treeView (n : Nat) (s : State) (b : Nat) : (s.startupBit b).treeView n = s.treeView n := rfl

theorem State.raise_treeView {n m : Nat} (h : n ≠ m) (s : State) (d : List Nat) : (s.raise m d).treeView n = s.treeView n := by
  rw [State.treeView, State.raise_regs, State.raise_src_other _ _ _ _ h, State.raise_clk, State.treeView]

theorem State.saveRecord_treeView (n : Nat) (s : State) (ws : List Nat) : (s.saveRecord ws).treeView n = s.treeView n :=
  (congrArg (State.treeView n) (s.saveRecord_beyondRecords ws) :)

theorem State.takeFloor_treeView (n : Nat) (s : State) (t : Nat) : (s.takeFloor t).treeView n = s.treeView n := by
  unfold State.takeFloor State.startAt
  dsimp only
  split
  · exact State.treeView_congr rfl rfl rfl
  · split <;> exact State.treeView_congr rfl rfl rfl

theorem State.runSlot_treeView (n : Nat) (s : State) (b : Bool) (k : Nat) : (s.runSlot b k).treeView n = s.treeView n := by
  unfold State.runSlot
  split <;> exact State.treeView_congr rfl rfl rfl

section Boot
variable {n : Nat}

theorem State.bootRom_treeView (hb : n ≠ Ev.SEC_BOOT_SLOT) (s : State) : s.bootRom.treeView n = s.treeView n := by
  unfold State.bootRom
  dsimp only
  split
  · exact State.treeView_congr rfl rfl rfl
  split
  · exact s.runSlot_treeView n _ _
  split
  · rw [State.raise_treeView hb]
    exact s.runSlot_treeView n _ _
  · exact State.treeView_congr rfl rfl rfl

theorem State.nextEpoch_treeView (hc : n ≠ Ev.CPH_CTR_SAVE) (s : State) : s.nextEpoch.treeView n = s.treeView n := by
  unfold State.nextEpoch
  split
  · rw [State.raise_treeView hc]
    exact State.treeView_congr rfl rfl rfl
  · rw [State.saveRecord_treeView]
    exact State.treeView_congr rfl rfl rfl

theorem State.restoreRecord_treeView (hc : n ≠ Ev.CPH_CTR_SAVE) (s : State) : s.restoreRecord.treeView n = s.treeView n := by
  unfold State.restoreRecord
  dsimp only
  generalize hv : State.nextEpoch _ = v
  have hview : v.treeView n = s.treeView n := by
    rw [← hv, State.nextEpoch_treeView hc, State.takeFloor_treeView]
    exact State.treeView_congr rfl rfl rfl
  split
  · exact hview
  · exact (v.saveRecord_treeView n []).trans hview

theorem State.boot_treeView (hb : n ≠ Ev.SEC_BOOT_SLOT) (hc : n ≠ Ev.CPH_CTR_SAVE) (s : State) : s.boot.treeView n = s.treeView n := by
  unfold State.boot
  extract_lets u
  have hu : u.treeView n = s.treeView n := by
    rw [← s.startupBit_treeView n 0, ← (s.startupBit 0).startupBit_treeView n 1]
    exact State.bootRom_treeView hb _
  split
  · exact hu
  · rw [State.restoreRecord_treeView hc, State.startupBit_treeView, State.startupBit_treeView, hu]

end Boot

end Sys2Proof.Machine
end

section
/-! Proofs of the clocks, of replay and of IO_READY of family 17 (R187, R334 to R340). -/
namespace Sys2Proof.Machine

/-! ### FIO (R334, R335) -/

section Fio
variable {s : State} {t0 : Nat} (ht : s.clk.fioStart = some t0)
include ht

/-- FIO is ready and no domain waits for it. -/
theorem exec_fioReady_of (hu : s.treeUp = true) {u : State} (h : u = { s with clk.fioReady := true, clk.fioStart := none, clk.waitFio := [] }) :
    exec .fioReady s = .next (if s.clk.starting && s.clk.resetHold.isNone then (u.resetCauses (if s.clk.warm then [] else [0])).romOnFio
      else s.clk.waitFio.foldl State.restartOnFio u) := by
  change execFioReady s = _
  simp only [execFioReady, ht, hu, State.when_true, h]

theorem exec_fioReady_down (hu : s.treeUp = false) : exec .fioReady s = .next s := by
  change execFioReady s = _
  simp only [execFioReady, ht, hu, State.when_false]

/-- The tree of which FIO has not started: AON on SIO and every other domain stopped. -/
def State.stoppedClocks (s : State) (t : Nat) : State :=
  (((List.range 11).filter fun c => c ≠ 0).foldl (fun s c => s.moveClock c 3) (s.reach t).stopDead).moveClock 0 2

/-- Clock-fault hold. -/
def State.clockFault (s : State) : State := { s with clk.hold := true, clk.fallen := true, clk.fioStart := none, clk.waitFio := [] }

theorem exec_fioStartTimeout_of (hu : s.treeUp = true) : exec .fioStartTimeout s = .next (s.stoppedClocks (t0 + 200000)).clockFault := by
  change execFioStartTimeout s = _
  simp only [execFioStartTimeout, ht, hu, State.when_true, State.stoppedClocks, State.clockFault]

end Fio

theorem exec_fio_stopped {s : State} (h : s.clk.fioStart = none) : exec .fioStartTimeout s = .next s ∧ exec .fioReady s = .next s := by
  constructor
  · change execFioStartTimeout s = _
    simp only [execFioStartTimeout, h]
  · change execFioReady s = _
    simp only [execFioReady, h]

theorem State.restartOnFio_clk (s : State) (c : Nat) : (s.restartOnFio c).clk = s.clk := by
  unfold State.restartOnFio
  split
  · exact s.moveClock_clk 0 0
  · rw [State.raise_clk, State.moveClock_clk]

section ClockFault
variable (s : State)

theorem State.clockFault_hold : s.clockFault.clk.hold = true := rfl
theorem State.clockFault_awake : s.clockFault.awake = false := by simp [State.awake, State.clockFault]
theorem State.clockFault_now : s.clockFault.now = s.now := rfl
theorem State.clockFault_hrn : s.clockFault.hrn = s.hrn := rfl
theorem State.clockFault_fld (q : Ref) : s.clockFault.fld q = s.fld q := rfl

end ClockFault

section StoppedClocks
variable (s : State) (t : Nat)

/-- A reading that no move of a clock domain changes is that of the device that has stopped. -/
theorem State.stoppedClocks_keeps {β : Type} (r : State → β) (h : ∀ (u : State) c src, r (u.moveClock c src) = r u) :
    r (s.stoppedClocks t) = r (s.reach t).stopDead :=
  (h _ _ _).trans (State.foldl_keeps r _ (fun u c => h u c 3) _ _)

theorem State.stoppedClocks_now : (s.stoppedClocks t).now = max s.now t := by
  rw [State.now, s.stoppedClocks_keeps t State.tim State.moveClock_tim, State.stopDead_tim, State.reach]
  split
  · next h => exact (max_eq_right h.le).symm
  · next h => exact (max_eq_left (Nat.le_of_not_lt h)).symm

theorem State.stoppedClocks_link : (s.stoppedClocks t).hrn.link = false := by
  rw [s.stoppedClocks_keeps t State.hrn State.moveClock_hrn, State.stopDead_link]

theorem State.stoppedClocks_fld {c : Nat} (h1 : 1 ≤ c) (h11 : c < 11) : (s.stoppedClocks t).fld (Reg.CLK_CD_STATUS_SRC c) = 3 := by
  rw [State.stoppedClocks, State.moveClock_fld_other _ _ _ (by omega)]
  refine State.moveClocks_fld _ _ (by decide) (List.mem_filter.mpr ⟨List.mem_range.mpr h11, ?_⟩)
  exact decide_eq_true (by omega)

end StoppedClocks

/-! ### The start of the tree (R336, R340) -/

theorem State.treeStarted_treeView {n : Nat} (hb : n ≠ Ev.SEC_BOOT_SLOT) (hc : n ≠ Ev.CPH_CTR_SAVE) (s : State) :
    s.treeStarted.treeView n = ({ s with clk.starting := false } : State).treeView n :=
  State.boot_treeView hb hc _

theorem exec_startupPllLock_of {s : State} (h : s.treeStarting = true) (hx : s.clk.xaTripped = false) : exec .startupPllLock s = .next
    ([1, 2, 10].foldl (fun s c => s.moveClock c 0)
      ({ s with clk.xaOk := true, clk.xbOk := !s.clk.xbTripped, clk.pllLock := 0xFF } : State)).treeStarted := by
  change execStartupPllLock s = _
  rw [execStartupPllLock, h, hx, Bool.not_false, Bool.and_self, State.when_true]

/-- The trip of a first crystal that has not started, with its two events. -/
def State.xaTimedOut (s : State) : State := ((s.trips 0 Ev.CLK_XA_FAIL false 0).raise Ev.CLK_XTAL_TMO [0]).loseXa

theorem exec_xtalTmoExpire_xa {s : State} (h : s.treeStarting = true) (hx : s.clk.xaTripped = false) : exec (.xtalTmoExpire false) s = .next
    ({ s.xaTimedOut with clk.xbOk := !s.xaTimedOut.clk.xbTripped, clk.pllLock := if s.xaTimedOut.clk.xbTripped then 0 else 0x40 } :
      State).treeStarted := by
  change execXtalTmoExpire false s = _
  rw [execXtalTmoExpire, if_neg Bool.false_ne_true, h, hx, Bool.not_false, Bool.and_self, State.when_true, State.xaTimedOut]

theorem exec_startup_not {s : State} (h : s.treeStarting = false ∨ s.clk.xaTripped = true) :
    exec .startupPllLock s = .next s ∧ exec (.xtalTmoExpire false) s = .next s := by
  have hc : (s.treeStarting && !s.clk.xaTripped) = false := by
    rcases h with h | h <;> simp [h]
  constructor
  · change execStartupPllLock s = _
    rw [execStartupPllLock, hc, State.when_false]
  · change execXtalTmoExpire false s = _
    rw [execXtalTmoExpire, if_neg Bool.false_ne_true, hc, State.when_false]

theorem State.wakeFio_tripView (s : State) : s.wakeFio.tripView = s.tripView := by
  unfold State.wakeFio
  split
  · exact s.startFio_tripView
  · rfl

theorem State.xaTimedOut_tripped (s : State) : s.xaTimedOut.clk.xaTripped = true :=
  State.xaTripped_of_tripView (State.loseXa_tripView _)

theorem State.xaTimedOut_stop (s : State) : (s.xaTimedOut.rg Reg.CLK_MON_STATUS_XA_STOP.addr).getLsbD 0 = true := by
  rw [State.xaTimedOut, State.stops_of_tripView (State.loseXa_tripView _), State.xaStopped_rg, State.rg, State.raise_regs, State.trips]
  rw [← State.rg, State.stops_of_tripView (State.wakeFio_tripView _), State.rg, State.raise_regs]
  rw [← State.rg, State.setRg_rg_same, setBits_getLsbD _ _ (by decide) (by decide)]
  rfl

theorem State.xaTimedOut_tmo (s : State) : (s.xaTimedOut.src Ev.CLK_XTAL_TMO).pend = true := by
  rw [State.xaTimedOut, State.pend_of_tripView (State.loseXa_tripView _) (by decide), State.xaStopped_src,
    State.raise_src_same, Src.occur_pend]

theorem State.xaTimedOut_fail (s : State) : (s.xaTimedOut.src Ev.CLK_XA_FAIL).pend = true := by
  rw [State.xaTimedOut, State.pend_of_tripView (State.loseXa_tripView _) (by decide), State.xaStopped_src,
    State.raise_src_other _ _ _ _ (by decide), State.trips]
  rw [State.pend_of_tripView (State.wakeFio_tripView _) (by decide), State.raise_src_same, Src.occur_pend]

/-! ### Gates (R337) -/

theorem exec_clockGate_idle {s : State} {d : Fin 12} (hp : s.flag (Reg.CLK_CD_STATUS_GATE_PEND d) = true) (hw : s.clockWork d = false)
    (hg : s.flag (Reg.CLK_CD_STATUS_GATED d) = false) :
    exec (.clockGate d) s = .next ((s.setFld (Reg.CLK_CD_STATUS_GATED d) 1).setFld (Reg.CLK_CD_STATUS_GATE_PEND d) 0) := by
  change execClockGate d s = _
  rw [execClockGate, hp, hw, Bool.not_false, Bool.and_self, State.when_true, State.gateClock]
  rw [hg, hw, if_neg Bool.false_ne_true, Bool.not_false, if_pos rfl]

theorem exec_clockGate_busy {s : State} {d : Fin 12} (h : s.flag (Reg.CLK_CD_STATUS_GATE_PEND d) = false ∨ s.clockWork d = true) :
    exec (.clockGate d) s = .next s := by
  have hc : (s.flag (Reg.CLK_CD_STATUS_GATE_PEND d) && !s.clockWork d) = false := by
    rcases h with h | h <;> simp [h]
  change execClockGate d s = _
  rw [execClockGate, hc, State.when_false]

/-! ### Replay (R187) -/

section Replay
variable {s : State} (maps nss locks : List StatePart) (cs : List JournalCopy)

theorem exec_powerUpReplay_of (hr : s.sbg.replaying = true) (hl : s.sbg.loaded = false) (hh : s.hrn.holder = true) (ha : s.awake = true)
    {u : State} (hu : u = (maps ++ nss ++ locks).foldl (fun s p => s.takePart (coldPart p)) s) :
    exec (.powerUpReplay maps nss locks cs) s = .next (((bestCopies cs).filter JournalCopy.opened).foldl State.replayOne
      { (if u.journalLost then (u.raise Ev.SBG_ALL_LOST).suspectWindow else u) with
        sbg.loaded := true, sbg.replayed := 0, sbg.repaired := 0 }).endReplay := by
  change execPowerUpReplay maps nss locks cs s = _
  rw [execPowerUpReplay, hr, hl, hh, ha, Bool.not_false, Bool.and_self, Bool.and_self, Bool.and_self, State.when_true, hu]

theorem exec_powerUpReplay_not (h : s.sbg.replaying = false ∨ s.sbg.loaded = true ∨ s.hrn.holder = false ∨ s.awake = false) :
    exec (.powerUpReplay maps nss locks cs) s = .next s := by
  have hc : (s.sbg.replaying && !s.sbg.loaded && s.hrn.holder && s.awake) = false := by
    rcases h with h | h | h | h <;> simp [h]
  change execPowerUpReplay maps nss locks cs s = _
  rw [execPowerUpReplay, hc, State.when_false]

end Replay

/-- The state with the counts of a replay in their registers. -/
def State.replayCounted (s : State) : State :=
  (s.setFld Reg.SBG_REPLAY_REPLAYED (min s.sbg.replayed 65535)).setFld Reg.SBG_REPLAY_REPAIRED (min s.sbg.repaired 65535)

/-- The maps are in and nothing is replayed any more. -/
def State.replayOver (s : State) : State := ({ s with sbg.replaying := false, sbg.loaded := false } : State).mapsLoaded

theorem State.replayOver_replaying (s : State) : s.replayOver.sbg.replaying = false := rfl
theorem State.replayOver_tim (s : State) : s.replayOver.tim = s.tim := rfl
theorem State.replayOver_warm (s : State) : s.replayOver.clk.warm = s.clk.warm := rfl
theorem State.replayOver_regs (s : State) : s.replayOver.regs = s.regs := rfl

/-- The state in which a replay has ended, its floor and its event left aside. -/
def State.replayEnded (s : State) : State := s.replayCounted.replayOver

theorem State.endReplay_of {s : State} (hr : s.sbg.replaying = true) (hl : s.sbg.loaded = true) (hs : s.sbg.stripes = []) :
    s.endReplay = (s.replayEnded.takeFloor 0).raise Ev.SBG_REPLAY [s.replayEnded.sbg.replayed, s.replayEnded.sbg.repaired] := by
  rw [State.endReplay, hr, hl, hs, Bool.and_self, decide_eq_true rfl, Bool.and_self, if_pos rfl, State.replayEnded, State.replayOver,
    State.replayCounted]

section ReplayEnded
variable (s : State)

theorem State.replayEnded_replaying : s.replayEnded.sbg.replaying = false := State.replayOver_replaying _

theorem State.replayEnded_tim : s.replayEnded.tim = s.tim := by
  rw [State.replayEnded, State.replayOver_tim, State.replayCounted, State.setFld_tim, State.setFld_tim]

theorem State.replayEnded_warm : s.replayEnded.clk.warm = s.clk.warm := by
  rw [State.replayEnded, State.replayOver_warm, State.replayCounted, State.setFld_clk, State.setFld_clk]

theorem State.replayEnded_fld (q : Ref) : s.replayEnded.fld q = s.replayCounted.fld q := State.fld_of_regs (State.replayOver_regs _) q

theorem State.replayCounted_replayed : s.replayCounted.fld Reg.SBG_REPLAY_REPLAYED = min s.sbg.replayed 65535 := by
  rw [State.replayCounted, State.setFld_fld_apart _ _ (by decide) (by decide) (.inr (.inl (by decide)))]
  exact State.setFld_fld_of_lt _ (by decide) (by decide) (lt_of_le_of_lt (Nat.min_le_right _ _) (by decide))

theorem State.replayCounted_repaired : s.replayCounted.fld Reg.SBG_REPLAY_REPAIRED = min s.sbg.repaired 65535 := by
  unfold State.replayCounted
  exact State.setFld_fld_of_lt _ (by decide) (by decide) (lt_of_le_of_lt (Nat.min_le_right _ _) (by decide))

end ReplayEnded

/-- A floor taken is kept as the larger of the two. -/
theorem State.takeFloor_floor (s : State) (t : Nat) : (s.takeFloor t).tim.floor = max s.tim.floor t := by
  unfold State.takeFloor State.startAt
  dsimp only
  split
  · rfl
  · split <;> rfl

/-- Shelf time of a cold start is at least its floor. -/
theorem State.takeFloor_now {s : State} (hw : s.clk.warm = false) (t : Nat) : max s.tim.floor t ≤ (s.takeFloor t).now := by
  unfold State.takeFloor State.startAt
  dsimp only
  rw [if_neg (by rw [hw]; exact Bool.false_ne_true)]
  split
  · exact le_rfl
  · next h => exact Nat.le_of_not_lt h

theorem State.takeFloor_sbg (s : State) (t : Nat) : (s.takeFloor t).sbg = s.sbg := by
  unfold State.takeFloor State.startAt
  dsimp only
  split
  · rfl
  · split <;> rfl

theorem State.takeFloor_regs (s : State) (t : Nat) : (s.takeFloor t).regs = s.regs := State.regs_of_treeView (s.takeFloor_treeView 0 t)

/-! ### IO_READY (R340) -/

theorem exec_ioReady_not {s : State} (h : s.startupBits ≠ 0x3FF ∨ s.awake = false ∨ s.clk.bootDone = false ∨ s.clk.ioReady = true) :
    exec .ioReady s = .next s := by
  have hc : (s.awake && s.clk.bootDone && !s.clk.ioReady && decide (s.startupBits = 0x3FF)) = false := by
    rcases h with h | h | h | h
    · rw [decide_eq_false h, Bool.and_false]
    all_goals simp [h]
  change execIoReady s = _
  rw [execIoReady, hc, State.when_false]

theorem exec_ioReady_of {s : State} (ha : s.awake = true) (hb : s.clk.bootDone = true) (hi : s.clk.ioReady = false)
    (hs : s.startupBits = 0x3FF) : exec .ioReady s = .next
    (({ s with clk.startup := 0x3FF, clk.ioReady := true, clk.readyMs := min ((s.now - s.clk.resetAt) / 1000000) 0xFFFFFF } : State).raise
      Ev.CLK_IO_READY [(s.now - s.clk.resetAt) / 1000000]) := by
  change execIoReady s = _
  rw [execIoReady, ha, hb, hi, hs, Bool.not_false, Bool.and_self, Bool.and_self, decide_eq_true rfl, Bool.and_self, State.when_true]
  dsimp only
  rw [hs]

/-- Settles O58: the sources of the domains, the trip and the registers are read through what booting and the moves leave alone. A crystal that
times out is log entry 94, the end of replay 143, and the idle clock domain 88. -/
theorem clocksStartGateAndLetHostIoIn : Obligations.ClocksStartGateAndLetHostIoIn := by
  refine ⟨?fio, ?restarts, ?timeout, ?stopped, ?lock, ?xa, ?xb, ?notStarting, ?gated, ?waits, ?replay, ?ends, ?noReplay, ?ready, ?notReady,
    ?joiner, ?noJoiner⟩
  case fio =>
    intro s u t0 ⟨ht, hu⟩
    refine ⟨fun hup hst hh => ?_, fun hup hst => ?_, exec_fioReady_down ht⟩
    · rw [exec_fioReady_of ht hup hu, hst, hh, Option.isNone_none, Bool.and_self, if_pos rfl]
    · have hc : (s.clk.starting && s.clk.resetHold.isNone) = false := by
        rcases hst with h | h
        · rw [h, Bool.false_and]
        · rw [← Option.not_isSome, h, Bool.not_true, Bool.and_false]
      rw [exec_fioReady_of ht hup hu, hc, if_neg Bool.false_ne_true]
  case restarts =>
    intro s t0 ⟨ht, hup, hst⟩
    refine ⟨_, (exec_fioReady_of ht hup rfl).trans (by rw [hst, Bool.false_and, if_neg Bool.false_ne_true]), ?_⟩
    have hclk := State.foldl_keeps State.clk State.restartOnFio State.restartOnFio_clk s.clk.waitFio
      ({ s with clk.fioReady := true, clk.fioStart := none, clk.waitFio := [] } : State)
    refine ⟨congrArg Clk.fioReady hclk, congrArg Clk.fioStart hclk, congrArg Clk.waitFio hclk, fun h => ?_, fun c h h1 h12 => ?_⟩
    · rw [h, List.foldl_cons, List.foldl_nil, State.restartOnFio, if_pos rfl, State.moveClock_fld_same _ _ _ (by decide)]
    · rw [h, List.foldl_cons, List.foldl_nil, State.restartOnFio, if_neg (by omega), State.raise_fld,
        State.moveClock_fld_same _ _ _ (by decide), State.raise_src_same, Src.occur_pend]
      exact ⟨rfl, rfl⟩
  case timeout =>
    intro s t0 ⟨ht, hup⟩
    refine ⟨_, exec_fioStartTimeout_of ht hup, State.clockFault_hold _, State.clockFault_awake _, ?_, ?_, fun c h1 h11 => ?_, ?_⟩
    · rw [State.clockFault_now, State.stoppedClocks_now]
    · rw [State.clockFault_fld, State.stoppedClocks, State.moveClock_fld_same _ _ _ (by decide)]
    · rw [State.clockFault_fld, State.stoppedClocks_fld _ _ h1 h11]
    · rw [State.clockFault_hrn, State.stoppedClocks_link]
  case stopped => exact fun s h => exec_fio_stopped h
  case lock =>
    intro s ⟨h, hx⟩
    refine ⟨_, exec_startupPllLock_of h hx, ?_⟩
    have hclk := State.foldl_keeps State.clk (fun s c => s.moveClock c 0) (fun u c => u.moveClock_clk c 0) [1, 2, 10]
      ({ s with clk.xaOk := true, clk.xbOk := !s.clk.xbTripped, clk.pllLock := 0xFF } : State)
    have hfld : ∀ c ∈ [1, 2, 10], ([1, 2, 10].foldl (fun s c => s.moveClock c 0)
        ({ s with clk.xaOk := true, clk.xbOk := !s.clk.xbTripped, clk.pllLock := 0xFF } : State)).fld (Reg.CLK_CD_STATUS_SRC c) = 0 :=
      fun c hc => State.moveClocks_fld _ _ (by decide) hc
    generalize [1, 2, 10].foldl (fun s c => s.moveClock c 0)
      ({ s with clk.xaOk := true, clk.xbOk := !s.clk.xbTripped, clk.pllLock := 0xFF } : State) = u at hclk hfld ⊢
    have hview := State.treeStarted_treeView (n := 0) (by decide) (by decide) u
    rw [State.starting_of_treeView hview, State.pllLock_of_treeView hview, State.xaOk_of_treeView hview]
    refine ⟨rfl, congrArg Clk.pllLock hclk, congrArg Clk.xaOk hclk, fun c hc => ?_⟩
    exact (State.fld_of_regs (State.regs_of_treeView hview) _).trans (hfld c hc)
  case xa =>
    intro s ⟨h, hx⟩
    refine ⟨_, exec_xtalTmoExpire_xa h hx, ?_⟩
    have htrip := s.xaTimedOut_tripped
    have hstop := s.xaTimedOut_stop
    have htmo := s.xaTimedOut_tmo
    have hfail := s.xaTimedOut_fail
    generalize s.xaTimedOut = u at htrip hstop htmo hfail ⊢
    have hview := fun n hb hc => State.treeStarted_treeView (n := n) hb hc
      ({ u with clk.xbOk := !u.clk.xbTripped, clk.pllLock := if u.clk.xbTripped then 0 else 0x40 } : State)
    rw [State.tripped_of_treeView (hview 0 (by decide) (by decide)), State.starting_of_treeView (hview 0 (by decide) (by decide)),
      State.pend_of_treeView (hview Ev.CLK_XA_FAIL (by decide) (by decide)),
      State.pend_of_treeView (hview Ev.CLK_XTAL_TMO (by decide) (by decide)),
      State.rg_of_regs (State.regs_of_treeView (hview 0 (by decide) (by decide)))]
    exact ⟨htrip, rfl, hfail, htmo, hstop⟩
  case xb =>
    intro s ⟨hup, ha, hf, hx, hst⟩
    have hc : (s.clk.starting || (s.clk.xaTripped && !s.clk.bootDone)) = true := by
      rcases hst with h | ⟨h, hb⟩
      · rw [h, Bool.true_or]
      · rw [h, hb, Bool.not_false, Bool.and_self, Bool.or_true]
    change execXtalTmoExpire true s = _
    rw [execXtalTmoExpire, if_pos rfl, hup, ha, hf, hx, hc, Bool.not_false, Bool.and_self, Bool.and_self, Bool.and_self, Bool.and_self,
      State.when_true]
  case notStarting => exact fun s h => exec_startup_not h
  case gated => exact fun s d ⟨hp, hw, hg⟩ => exec_clockGate_idle hp hw hg
  case waits => exact fun s d h => exec_clockGate_busy h
  case replay =>
    intro s u maps nss locks cs ⟨hr, hl, hh, ha, hu⟩
    refine ⟨fun h => ?_, fun h => ?_⟩
    · rw [exec_powerUpReplay_of maps nss locks cs hr hl hh ha hu, h, if_neg Bool.false_ne_true]
    · rw [exec_powerUpReplay_of maps nss locks cs hr hl hh ha hu, h, if_pos rfl]
  case ends =>
    intro s ⟨hr, hl, hs⟩
    refine ⟨_, rfl, ?_⟩
    have hwarm := s.replayEnded_warm
    have htim := s.replayEnded_tim
    have hnow : s.clk.warm = false → max s.replayEnded.tim.floor 0 ≤ (s.replayEnded.takeFloor 0).now := fun hw =>
      State.takeFloor_now (hwarm.trans hw) 0
    rw [State.endReplay_of hr hl hs, State.raise_sbg, State.takeFloor_sbg, s.replayEnded_replaying, State.raise_fld, State.raise_fld,
      State.fld_of_regs (State.takeFloor_regs _ 0), State.fld_of_regs (State.takeFloor_regs _ 0), s.replayEnded_fld, s.replayEnded_fld,
      s.replayCounted_replayed, s.replayCounted_repaired, State.raise_src_same, Src.occur_pend, State.raise_tim, State.takeFloor_floor,
      State.raise_now, htim, Nat.max_zero]
    rw [htim, Nat.max_zero] at hnow
    exact ⟨rfl, rfl, rfl, rfl, rfl, hnow⟩
  case noReplay => exact fun s maps nss locks cs h => exec_powerUpReplay_not maps nss locks cs h
  case ready =>
    intro s ⟨ha, hb, hi, hs⟩
    refine ⟨_, exec_ioReady_of ha hb hi hs, ?_⟩
    rw [State.raise_clk, State.raise_src_same, Src.occur_pend]
    exact ⟨rfl, rfl, rfl, rfl⟩
  case notReady => exact fun s h => exec_ioReady_not h
  case joiner =>
    intro s h
    change execJoinHolderLost s = _
    rw [execJoinHolderLost, decide_eq_true h, State.when_true]
  case noJoiner =>
    intro s h
    change execJoinHolderLost s = _
    rw [execJoinHolderLost, decide_eq_false h, State.when_false]

end Sys2Proof.Machine
end
